-- ==== Sys2Proof/Word.lean ====
section
/-! DEFINITION. The word types of the part and the plain records that travel between its blocks:
packets, control messages, notices, link flits, management frames and storage-error reports. -/

namespace Sys2Proof

/-- One byte of a memory or of a record. -/
abbrev Byte := BitVec 8

/-- Registers are 32 bits wide (R6). -/
abbrev Word := BitVec 32

/-- A 64-bit counter or address (R6). -/
abbrev DWord := BitVec 64

/-- A data-network packet under R29: the header's fields as numbers, and the payload bytes. -/
structure Packet where
  dest : Nat
  src : Nat
  vc : Nat
  region : Nat
  /-- BYTES, 0 to 255 encodable (R29); a router discards a packet above 240 (R30). -/
  bytes : Nat
  opcode : Nat
  timeHint : Nat
  addr : Nat
  payload : List Byte
  /-- Device ID of the originating module: this module's for a packet of this die, the peer's for a
  packet delivered by a LOCAL path endpoint (R400). -/
  device : Nat
  deriving DecidableEq, Repr

/-- A control message under R36. -/
structure CtlMsg where
  dest : Nat
  args : Nat
  region : Nat
  typ : Nat
  timeHint : Nat
  src : Nat
  arg0 : Word
  arg1 : Word
  deriving DecidableEq, Repr

/-- What a FAULT_NOTICE carries to the headframe (R37, R371). -/
structure Notice where
  cause : Nat
  unit : Nat
  detail : Nat
  /-- Source endpoint (R21). -/
  source : Nat
  /-- The stream the cause concerns, where it concerns one (R373). -/
  stream : Option Nat
  /-- Tenant region the notice concerns. -/
  region : Nat
  /-- The source's timestamp of the event (R50, R371). -/
  time : Nat
  /-- The number that the source gave the event (R51). -/
  seq : Nat
  deriving DecidableEq, Repr

/-- What a storage check saw on one word of a read (R172). `word` counts 64-bit words of the core's own memory space, operand
buffers and pool included. `kind` 0: single data bit in correct mode; 1: single check bit; 2: two or more bits; 3: parity
mismatch in detect mode or in an operand buffer; 4: uncorrectable in the result queue or the accumulator file. -/
structure ReadErr where
  word : Nat
  kind : Nat
  deriving DecidableEq, Repr

/-- A Pelig flit under R382, with what the receiver's CRC and FEC said of it (R391). -/
structure Flit where
  typ : Nat
  rg : Bool
  lvc : Nat
  seq : Nat
  ack : Nat
  path : Nat
  destEp : Nat
  srcEp : Nat
  opcode : Nat
  units : Nat
  addr : Nat
  e2e : Nat
  payload : List Byte
  crcOk : Bool
  fecOk : Bool
  deriving DecidableEq, Repr

/-- The capability words of a CAP flit (R388). -/
structure Caps where
  verMin : Nat
  verMax : Nat
  role : Nat
  device : Nat
  port : Nat
  lanes : Nat
  credits : List Nat
  deriving DecidableEq, Repr

/-- An Ammokin message (R462), with the port it arrived on (0: A, 1: B). -/
structure RingMsg where
  port : Nat
  ver : Nat
  cls : Nat
  typ : Nat
  src : Nat
  dst : Nat
  seq : Nat
  time : Nat
  ackReq : Bool
  ttl : Nat
  payload : List Byte
  deriving DecidableEq, Repr

/-- What a module learns of a stream's token with its steps (R267, R274): its deadline, whether it is demoted, and its release. -/
structure TokenInfo where
  deadline : Option Nat
  demoted : Bool
  released : Nat
  deriving DecidableEq, Repr

/-- A step the winder may issue: its core (0 to 255 a shell core, 256 + m merge core m), its program's
address, its stream and bank tag (R113), its cost in µJ at 0.75 V per energy class of R442 (R443),
its own bound in ns (R161, R347), that of its token's remaining steps (R274), whether it is the first of a layer here (R276), and
what it says of its token to a module that is not the ingress module. -/
structure StepReq where
  core : Nat
  prog : Nat
  stream : Option Nat
  bank : Bool
  cost : List Nat
  bound : Nat
  remaining : Nat
  reserved : Bool
  first : Bool
  token : Option TokenInfo
  deriving DecidableEq, Repr

/-- What one output-projection slice returns for a token (R284 steps 5 and 6): its maximum m_s and sum
l_s as FP32 patterns and its local candidates as pairs of token ID and FP32 logit. -/
structure SliceCands where
  m : Word
  l : Word
  cands : List (Nat × Word)
  deriving DecidableEq, Repr

/-- A token slot as the sampler combines it: the slot, and the slices' answers for it (R284, R287). -/
structure SlotCands where
  slot : Nat
  slices : List SliceCands
  deriving DecidableEq, Repr

/-- The next token of a stream as the ingress module starts it: the stream, and whether every module has mapped the nodes it matched (R232, R246). -/
structure NextToken where
  stream : Nat
  mapped : Bool
  deriving DecidableEq, Repr

/-- A stream whose token faulted, and whether another module has told so (R175). -/
structure FaultedToken where
  stream : Nat
  told : Bool
  deriving DecidableEq, Repr

/-- A seam at the end of its pass, and whether an uncorrectable error of the result queue or the accumulators was met there (R172). -/
structure SeamEnd where
  seam : Nat
  ue : Bool
  deriving DecidableEq, Repr

/-- A token as the sampler module returns it (R247, R287): the token, and whether it is a stop token or completes a stop sequence. -/
structure SampledTok where
  token : Nat
  stop : Bool
  seq : Bool
  deriving DecidableEq, Repr

/-- What the other modules of a job have last told the ingress module for its bounds (R269, R270, R273, R401): their lowest effective pace
(Q2.14), the largest refresh code of their stacks, their least Pg in W, whether a stope of theirs inserts forced slots, the sum of the
BOUNDs of the active routes along a token's path in ns, and the devices that have declared SLICE_LOST (R369). -/
structure JobView where
  pace : Nat
  refresh : Nat
  pg : Nat
  forced : Bool
  hf : Nat
  lost : List Nat
  deriving DecidableEq, Repr

/-- One row of the bound table of R269, at one context breakpoint. -/
structure BoundRow where
  ctx : Nat
  c : Nat
  a : Nat
  u : Nat
  v : Nat
  /-- Energy per token, µJ. -/
  e : Nat
  /-- Prefill breakpoints: (M, core ns, stack ns). -/
  cp : List (Nat × Nat × Nat)
  deriving DecidableEq, Repr

/-- What the JOBCFG and BOUNDS sections of an image install (R302): the manual names their content and
gives no layout, so the content is carried decoded. -/
structure JobCfg where
  ingressDev : Nat
  samplerDev : Nat
  calGains : List (Nat × Nat)
  ropeBase : Word
  ropeDims : Nat
  maxStreams : Nat
  devices : List Nat
  buddyBase : Nat
  buddyLen : Nat
  layers : Nat
  /-- Attention group of each layer slot: (layer slot, S, this module's shard index) (R220). -/
  groups : List (Nat × Nat × Nat)
  bounds : List BoundRow
  lb : Nat
  hf : Nat
  deriving DecidableEq, Repr

/-- An image slice as a source delivers it: its bytes (R301, R302), and the decoded content of the
sections whose inner layout the manual does not give. -/
structure ImageSlice where
  raw : List Byte
  job : JobCfg
  /-- (stope, slot, header, entries) of the PLANS section. -/
  plans : List (Nat × Nat × Word × List Word)
  /-- (core, byte address, bytes) of the PROGRAMS section. -/
  programs : List (Nat × Nat × List Byte)
  deriving DecidableEq, Repr

namespace Machine

/-- A segment of a position map (R202). -/
structure PosSeg where
  first : Nat
  last : Nat
  offset : Int
  deriving DecidableEq, Repr

/-- A position map (R202), with the phases φ_i of R203 as unsigned Q0.64 turns. -/
structure PosMap where
  base : Word
  dims : Nat
  segs : List PosSeg
  phi : List Nat
  deriving DecidableEq, Repr

def PosMap.none : PosMap := { base := 0, dims := 0, segs := [], phi := [] }

/-- Sampling parameters and lists of a stream (R281, R282). -/
structure Sampler where
  temp : Word
  topP : Word
  minP : Word
  rep : Word
  pres : Word
  freq : Word
  topK : Nat
  window : Nat
  biases : List (Nat × Word)
  stops : List Nat
  seqs : List (List Nat)
  seed : DWord
  deriving DecidableEq, Repr

/-- The sampler of a stream opened without a parent (R283). -/
def Sampler.default : Sampler :=
  { temp := 0, topP := 0x3F800000, minP := 0, rep := 0x3F800000, pres := 0, freq := 0, topK := 0, window := 0,
    biases := [], stops := [], seqs := [], seed := 0 }

/-- A class (R256, R267): its configuration, and its bounds as last computed (R269). -/
structure Class where
  admitted : Bool
  prio : Nat
  nodl : Bool
  kvprot : Nat
  parkTarget : Nat
  maxStreams : Nat
  tokDl : Nat
  ftDl : Nat
  maxCtx : Nat
  maxPrefill : Nat
  atRisk : Bool
  bound : Nat
  ftBound : Nat
  deriving DecidableEq, Repr

def Class.none : Class :=
  { admitted := false, prio := 0, nodl := false, kvprot := 0, parkTarget := 0, maxStreams := 0, tokDl := 0, ftDl := 0, maxCtx := 0,
    maxPrefill := 0, atRisk := false, bound := 0, ftBound := 0 }

/-- A decision of the ingress module, as it sends it to every other module of the job, with what a module needs to act on it (R246); and what the
other modules send the ingress module for its bounds. -/
inductive Decision where
  /-- A context opens (R245, R258): its class, customer, bank tag, region and parent. -/
  | opened (stream cls customer : Nat) (bank : Bool) (region : Nat) (parent : Option Nat)
  | closed (stream : Nat)
  /-- COMMIT (R247, R281): the committed count, the tokens that joined the history, a sampled token without a slot yet, and how many tokens the
  GENERATE item has sampled. -/
  | commit (stream count : Nat) (tokens : List Nat) (sampled : Option Nat) (genCount : Nat)
  | cancel (stream : Nat)
  | retry (stream : Nat)
  /-- PAUSED, and no longer so: the pages of a paused stream may be spilled (R227, R250). -/
  | pause (stream : Nat)
  | resume (stream : Nat)
  | park (stream target : Nat)
  | unpark (stream : Nat)
  | sampler (stream : Nat) (x : Sampler)
  | mask (stream mode : Nat) (bytes : List Byte)
  | classTable (cls : Nat) (x : Class)
  /-- A committed position map, with FREE_DEAD (R206, R207). -/
  | posmap (stream : Nat) (m : PosMap) (free : Bool)
  /-- Nodes that a stream has matched, with their tokens (R232), a node inserted for a stream's page position (R234), and one evicted (R235). -/
  | matched (stream : Nat) (nodes : List Nat) (tokens : List Nat)
  | node (n stream page : Nat)
  | evict (n : Nat)
  /-- The barrier action of a SHADOW (R320), and of an IN_PLACE, ROLLBACK, the end of a barrier, and an operation ended by the ingress
  module with a code (R319, R321). -/
  | flip
  | rewrite
  | rollback
  | release
  | swapEnd (code : Nat)
  /-- What the other modules tell the ingress module (R269, R270, R273, R369, R401). -/
  | view (v : JobView)
  deriving DecidableEq, Repr

/-- The stream that a decision is about. -/
def Decision.stream : Decision → Option Nat
  | .opened i .. | .closed i | .commit i .. | .cancel i | .retry i | .pause i | .resume i | .park i _ | .unpark i | .sampler i _ | .mask i .. | .posmap i .. | .matched i ..
  | .node _ i _ => some i
  | _ => none

end Machine

end Sys2Proof
end

