-- ==== Sys2Proof/Syntax.lean ====
section
/-! DEFINITION. The commands of the block: one constructor per row of spec/opcode_table.json, in the
table's order. The table gives its rows no operands and no bits; the operands below are what the row's
rule says the operation takes. Conventions: `f` is the writing function (0 the physical function, n the
virtual function with VF number n, R451), `p` the BAR0 base of a page (R454), `v` a register value, `s` a
stope, `c` a core (0 to 255 the shell core of a stope, 256 + m merge core m), `e` what the storage checks
saw on the words a descriptor reads (R172), `r` a submission ring (a stream ID, or 0xF_FFFF for the
control ring), `k` a KV stack, and `m` a message. -/

namespace Sys2Proof

inductive Instr where
  -- registers (R6, R7, R457)
  | registerWrite (f off : Nat) (v : Word)
  | reg64LowRead (f off : Nat)
  | reg64LowWrite (f off : Nat) (v : Word)
  | reg64HighWrite (f off : Nat) (v : Word)
  | errInject (f p : Nat) (v : Word)
  | pageEnable (f p : Nat) (on : Bool)
  | pageQuiesce (f p : Nat)
  | quiesced (p : Nat)
  | hostFenceSet (f p : Nat)
  | hostFenceClear (f p : Nat)
  -- pace and margin plans (R25, R146): `factor` the measured mean as Q2.14; `orders` the stopes that the plan orders a calibration of
  | paceWindowEnd (ep factor : Nat)
  | replanDaily
  | marginReplan (orders : List Nat)
  | replan (f : Nat)
  -- the two networks and the tenant regions (R28 to R48)
  | packetInject (m : Packet)
  | packetDeliver (m : Packet)
  | creditReturn (src dest vc : Nat)
  | doorbell (m : CtlMsg)
  | barrierArrive (m : CtlMsg)
  | barrierRelease (m : CtlMsg)
  | ctlCancel (m : CtlMsg)
  | fenceSet (m : CtlMsg)
  | fenceClear (m : CtlMsg)
  | faultNotice (m : Notice)
  | ctlReserved (m : CtlMsg)
  | geomWrite (f n : Nat) (v : Word)
  | regionApply
  | regionTimeoutExpiry
  -- conversion plans and the reference buffer (R79 to R122): `drained` words the combine stage drains meanwhile
  | slotCommit (f s slot : Nat) (v : Word)
  | entryWrite (f s slot entry : Nat) (v : Word)
  | planStart (s id : Nat)
  | entryRun (s seam drained : Nat)
  | resultPushResume (s drained : Nat)
  | passEnd (s : Nat) (e : SeamEnd)
  | bankSwitch (s : Nat)
  | refEnable (s : Nat)
  | refReady (s : Nat)
  | refDisable (s : Nat)
  | refOff (s : Nat)
  | refLost (s : Nat)
  | refIdleExpiry (s : Nat)
  | prewarm (s : Nat)
  | refModeWrite (f s : Nat) (v : Word)
  -- calibration (R123 to R151)
  | calZero (f s : Nat) (v : Word)
  | calFull (f s : Nat) (v : Word)
  | calAbort (f s : Nat) (v : Word)
  | calExclStart (s : Nat)
  | calHeldStart (s : Nat)
  | calSample (s : Nat)
  | calCommit (s seam : Nat)
  | calGroup
  | calIntervalExpiry (s : Nat)
  | calSlot (s : Nat)
  | calDeferExpiry (s : Nat)
  | calHoldTimeout (s : Nat)
  | calIntWrite (f : Nat) (v : Word)
  | refRowRestore (bank : Bool)
  | dramHourCheck
  | laneMarginCheck (port lane margin : Nat)
  | laneRetrain (port lane : Nat)
  -- steps and descriptors (R152 to R197)
  | stepStart (c : Nat)
  | descFetch (c : Nat) (e : List ReadErr)
  | dma (c : Nat) (e : List ReadErr)
  | dma2d (c : Nat) (e : List ReadErr)
  | fill (c : Nat) (e : List ReadErr)
  | launch (c : Nat) (e : List ReadErr) (da : List Nat)
  | accClear (c : Nat) (e : List ReadErr)
  | accAdd (c : Nat) (e : List ReadErr)
  | accRead (c : Nat) (e : List ReadErr)
  | scale (c : Nat) (e : List ReadErr)
  | requant (c : Nat) (e : List ReadErr)
  | vbin (c : Nat) (e : List ReadErr)
  | vfma (c : Nat) (e : List ReadErr)
  | vcvt (c : Nat) (e : List ReadErr)
  | vred (c : Nat) (e : List ReadErr)
  | nlf (c : Nat) (e : List ReadErr)
  | norm (c : Nat) (e : List ReadErr)
  | xred (c : Nat) (e : List ReadErr)
  | xredOperand (root src group op len : Nat) (data : List DWord)
  | xredResult (c group : Nat) (fault : Bool) (data : List DWord)
  | vtopk (c : Nat) (e : List ReadErr)
  | barrier (c : Nat) (e : List ReadErr)
  | cwait (c : Nat) (e : List ReadErr)
  | cwaitTimeout (c : Nat)
  | cinc (c : Nat) (e : List ReadErr)
  | cincArrive (c counter : Nat) (inc : Word)
  | wopen (c : Nat) (e : List ReadErr)
  | wclose (c : Nat) (e : List ReadErr)
  | wwait (c : Nat) (e : List ReadErr)
  | windowWriteArrive (m : Packet)
  | windowExpiry (c base : Nat)
  -- the operand layouts of the next four are not given (R158): the operands are carried as SP/MC word addresses and counts
  | mma4 (c : Nat) (e : List ReadErr) (a b sa sb dst blocks fmt : Nat)
  | pquant (c : Nat) (e : List ReadErr) (p ev dst keys blk : Nat)
  | pmerge (c : Nat) (e : List ReadErr) (srcs : List Nat) (dst : Nat) (finish : Bool)
  | cands (c : Nat) (e : List ReadErr) (stream src first count dst : Nat)
  | kvcmd (c : Nat) (e : List ReadErr)
  | descComplete (c idx : Nat)
  | redgrpWrite (f s n : Nat) (v : Word)
  | spProtWrite (f c : Nat) (v : Word)
  | reprotRegionDone (c region : Nat) (e : List ReadErr)
  | stepRerun (c : Nat) (again : Bool)
  | tokenRetry (x : FaultedToken)
  | scrubRead (c word : Nat) (e : List ReadErr)
  | progReloaded (f c : Nat)
  | poolGrantWrite (f mc hi : Nat) (v : Word)
  | poolProtWrite (f mc hi : Nat) (v : Word)
  | poolRoWrite (f mc hi : Nat) (v : Word)
  | stepWatchdogExpiry (c : Nat)
  -- the KV stacks, paging and the prefix tree (R198 to R244)
  | attend (k : Nat)
  | append (k : Nat)
  | copy (k src dst by_ : Nat)
  | kvcmdComplete (c idx : Nat)
  | posmapCommit (f : Nat) (v : Word)
  | freeDead (f : Nat) (v : Word)
  | posmapInstall (stream : Nat)
  -- `src` the device of the module that sends
  | commit (src : Nat) (d : Machine.Decision)
  | spillStart
  | spillReload (stream : Nat)
  | pcFail (k pc : Nat)
  | dramError (k pc count : Nat) (corrected : Bool)
  | nodeInsert (stream : Nat)
  | nodeReady (n : Nat)
  | genEvict (bank : Bool)
  | nodePin (f : Nat)
  | nodeUnpin (f : Nat)
  | unpinAll (f : Nat)
  | nodeFind (f : Nat) (v : Word)
  | pfxEnable (f : Nat) (v : Word)
  | pfxDisable (f : Nat) (v : Word)
  -- rings, streams, classes and the winder (R245 to R300)
  | ringDb (f : Nat) (v : Word)
  | itemMalformed (r : Nat)
  | itemReservedOpcode (r : Nat)
  | openStream (r : Nat)
  | closeStream (r : Nat)
  | classConfig (r : Nat)
  | appendTokens (r : Nat)
  | generate (r : Nat)
  | pause (r : Nat)
  | resume (r : Nat)
  | cancel (r : Nat)
  | cancelAck (stream : Nat)
  | park (r : Nat)
  | unpark (r : Nat)
  | setSampler (r : Nat)
  | setMask (r : Nat)
  | tokenEmbed (x : NextToken)
  | tokenSample (stream : Nat) (x : SlotCands)
  | tokenReturn (stream : Nat) (token : Option SampledTok)
  | mirrorAck (stream slot dev : Nat)
  | journalPage (stream layer head page : Nat)
  | tokenRelease (stream : Nat)
  | deadlineMiss (stream : Nat)
  | winderIssue (ready : List StepReq)
  | classRecompute
  | heldRecordWrite (ring : Nat)
  | evrHeadWrite (f : Nat) (v : Word)
  | evrTimeExpiry (ring : Nat)
  | ringReset (f : Nat) (v : Word)
  | evrReset (f : Nat) (v : Word)
  | parkComplete (stream : Nat) (manifests : List (Nat × List Byte))
  | parkFail (stream : Nat)
  | unparkVerify (stream : Nat) (crcs : List (Nat × Nat)) (manifests : List (Nat × List Byte))
  -- weight images and swaps (R301 to R329)
  | stage (f : Nat) (v : Word) (sl : ImageSlice)
  | load (f : Nat) (v : Word) (sl : ImageSlice)
  | shadow (f : Nat) (v : Word) (sl : ImageSlice)
  | inPlace (f : Nat) (v : Word) (sl : ImageSlice)
  | swapAbort (f : Nat) (v : Word)
  | swapCommit (f : Nat)
  | swapCommitAbort (f : Nat)
  | imageStreamEnd
  | copyRepair (slot : Nat)
  | programRow (s mac : Nat) (bank : Bool) (row : Nat) (failing : List Nat)
  | tempResume
  | tempWaitExpiry
  | swapReport (dev report gen : Nat)
  | swapTimeoutExpiry
  | jobBarrierDrained
  | flip
  | layerDone (dev layer : Nat)
  | layerFail (dev layer : Nat)
  | rollback
  | jobBarrierRelease
  | swapComplete
  | bankRefresh (s mac : Nat) (bank : Bool)
  | refreshRetry (s mac : Nat) (bank : Bool)
  -- seams, assays and the tally (R330 to R377): a result pairs a macro index with 0 passed, 1 failed and passed the retry, 2 failed twice
  | localise (s seam : Nat) (results : List (Nat × Nat × List Nat))
  | standbyReport (dev lost : Nat)
  | seamSuspectTimeout (s seam : Nat)
  | checkClear (f s : Nat) (v : Word)
  | spareProgram (s spare : Nat) (bank : Bool)
  | spareMapIn (s spare : Nat)
  | buddyTakeover (s : Nat)
  | mergeTakeover (mc : Nat)
  | canaryModeWrite (f s : Nat) (v : Word)
  | assayDue (kind unit : Nat) (bank : Bool)
  | assaySlot (kind unit : Nat) (bank : Bool) (failing rows : List Nat)
  | assayDeferExpiry (kind unit : Nat) (bank : Bool)
  | assayGo (f : Nat) (v : Word)
  | tallyWrite
  | clearTransient (f : Nat)
  | flush (f : Nat)
  | tallyFind (f : Nat) (v : Word)
  | alarmSecond
  -- Pelig links, adits and collectives (R378 to R417)
  | portTrain (port lanes rtt : Nat)
  | cap (port : Nat) (m : Caps)
  | credit (port : Nat) (returns : List Nat)
  | creditIdleTimer (port : Nat)
  | nak (port seq : Nat)
  | laneMap (port lanes seq : Nat)
  | flitReceive (port : Nat) (fl : Flit)
  | write (fl : Flit)
  | writeAck (fl : Flit)
  | ctl (fl : Flit)
  | chunk (fl : Flit)
  | chunkAck (fl : Flit)
  | store (port : Nat) (fl : Flit)
  | ingress (port : Nat) (fl : Flit)
  | pathFail (fl : Flit)
  | echo (fl : Flit)
  | echoReply (fl : Flit) (rtt : Nat)
  | replayTimeout (port : Nat)
  | laneFail (port lane : Nat)
  | linkSilenceTimeout (port : Nat)
  | retrainTimer (port : Nat)
  | retrain (f port : Nat)
  | laneOffWrite (f port : Nat) (v : Word)
  | aditCommit (f : Nat)
  | aditVerifyTimeout (ep : Nat) (route : Bool)
  | revert (f : Nat)
  | disable (f : Nat)
  | routeRemeasure (ep : Nat) (route : Bool) (rtt : Nat)
  | mcHoldExpiry (idx : Nat)
  | allReduce (src : Nat) (cmd : List Byte)
  | allGather (src : Nat) (cmd : List Byte)
  | reduceScatter (src : Nat) (cmd : List Byte)
  | allToAll (src : Nat) (cmd : List Byte)
  | multicast (src : Nat) (cmd : List Byte)
  | mcResend (id : Nat)
  | collFold (id : Nat)
  | chunkTimeout (id rank : Nat)
  | collComplete (id : Nat)
  | grpCommit (f : Nat)
  -- power, heat and the energy budget (R418 to R448): temperatures are signed Q8.8 °C
  | busbarLoss
  | brownout (mv : Nat)
  | busbarStable (mv : Nat)
  | phaseFault (phase : Nat)
  | pwrReqUp (f : Nat)
  | pwrReqDown (f : Nat)
  | powerUpSequence (ok : Nat)
  | drainEnd
  | drainTimeoutExpiry
  | powerDownSequence
  | vcoreStep
  | vcorePolicyTick
  | thermalUpdate (model power sensors : List Int) (inlet : Int)
  | sensorRejoin (sensor : Nat)
  | refit (f : Nat)
  | thresholdAssert (node which : Nat) (reduction : Nat)
  | thresholdDeassert (node which : Nat)
  | powerOverLimit
  | graceExpiry
  | throttleMark
  | throttleEnd
  | throttleReleaseStep
  | thermalTrip (comparator : Nat)
  | tripRearm (comparator : Nat)
  | energyWindow (measured : List Nat) (moduleW staticW pth : Nat)
  | pgRecompute
  | pwrLimitWrite (f : Nat) (v : Word)
  -- host link, management ring and the module (R449 to R483)
  | vfFlr (vf : Nat)
  | pfReset
  | moduleReset
  | negotiate (f : Nat)
  | rmvPrep (f : Nat)
  | rmvPrepForce (f : Nat)
  | rmvCancel (f : Nat)
  | strapLatch (straps : Nat)
  | strapChange (straps : Nat)
  | ringFrameForward (m : RingMsg)
  | hello (m : RingMsg)
  | helloTimer
  | ack (m : RingMsg)
  | alarmResend
  | logPull (m : RingMsg)
  | powerUpMsg (m : RingMsg)
  | powerDownMsg (m : RingMsg)
  | powerResetMsg (m : RingMsg)
  | powerStatusMsg (m : RingMsg)
  | regRead (m : RingMsg)
  | regWrite (m : RingMsg)
  | removePrep (m : RingMsg)
  | removePrepForce (m : RingMsg)
  | removeCancel (m : RingMsg)
  | removeStatus (m : RingMsg)
  | sync (port : Nat) (offset : Int) (delay gm : Nat) (rate : Int)
  | syncLoss
  | bypassClose
  | bypassOpen (mismatch : Bool)
  | bypassRetry
  | prsntMate (straps : Nat)
  | prsntBreak
  | pwrEnRise
  | pwrEnFall
  | attnButton
  -- rows that close the table
  | calGainsWrite (f s : Nat) (v : Word)
  | stageComplete
  | kvRestored (k pc stream : Nat) (count : Nat)
  | d3hot (f : Nat)
  | d0 (f : Nat)
  deriving DecidableEq, Repr

end Sys2Proof
end

