-- ==== Sys2Proof/Decode.lean ====
section
/-! DEFINITION. The decoder of the opcode table's bits. No row of spec/opcode_table.json gives bits: a command
reaches the block as a register access, a message, a ring item or an event, never as an instruction word. -/

namespace Sys2Proof

/-- The command that a word spells by the table's bits: none, since no row of the table gives any. -/
def decodeTableWord (_nbits _w : Nat) : Option Instr := none

end Sys2Proof
end

