-- ==== Sys2Proof/Config.lean ====
section
/-! DEFINITION. The free values of the model: what the manual leaves open. None has a body that a proof can
see. Each is applied to the model's own counter of free values or to operands (log entry 5). -/

namespace Sys2Proof.Config

/-- What a conversion's sample departs by from the ideal sum, in LSBs of its entry: the column's offset and
gain error and the noise of R95 and R96, of the conversion with this number. -/
opaque deviation : Nat → Rat

/-- Which neighbour the comparator takes at an exact half step (R95): true for the upper. -/
opaque tieUp : Nat → Bool

/-- The factory-recorded ADC noise of the die, in LSB² (R141 gives 0.0144 as typical, which binds nothing). -/
opaque adcNoise : Rat

/-- What the factory stores of a block's pace: its points, as VCORE in mV, temperature in Q8.8 °C and pace factor in Q2.14, and its fit, as the
constant, the slope in VCORE and the slope in temperature (R142). -/
opaque factoryPoints : Nat → List (Nat × Int × Nat)
opaque factoryFit : Nat → Rat × Rat × Rat

/-- The fit of points that do not determine a straight-line model in VCORE and temperature (R142 states none). -/
opaque flatFit : List (Nat × Int × Nat) → Rat × Rat × Rat

/-- A word of the result queue that holds no tag, read as a DMA source (R155 names the range, not what an empty place reads as). -/
opaque queueWord : Nat → BitVec 32

/-- The second lane of a word of which the manual states one lane (the result of VRED, R158). -/
opaque spareLane : Nat → BitVec 32

/-- An element of a NORM's output (R158 names the operation and gives no order of its roundings): of the
element, the group's two sums, the count, epsilon, the gain and the kind (false RMS). -/
opaque normElem : Word → Word → Word → Nat → Word → Word → Bool → Word

/-- The FP32 sum of a VRED (R158 names SUM and SUMSQ and gives no order of the additions): of the operands
and the kind (true SUMSQ). -/
opaque vredSum : List Word → Bool → Word

/-- An element of an NLF (R158 gives segment, slope and intercept, not the roundings): of the element, the
slope and the intercept. -/
opaque nlfElem : Word → Word → Word → Word

/-- The segment that NLF takes for an input at which (x − lo)/(hi − lo) is not a number or the bounds are
equal or reversed (R158 states none). -/
opaque nlfSegment : Word → Word → Word → Nat

/-- Which of two values ranks below the other when one is NaN (R158 orders VTOPK's elements by value and names no place for NaN). -/
opaque nanOrder : Word → Word → Bool

/-- A byte of a stack's metadata windows (R200: what they hold is named, its placement inside them is internal to the allocator): of the tables
they hold, as numbers, the stack and the offset from the first window. -/
opaque kvMeta : List Nat → Nat → Nat → BitVec 8

/-- The bits of a location handle that the cage engine gives a snapshot or a spilled page (R223, PARK_LOC). -/
opaque handle : Nat → BitVec 64

/-- The energies in µJ that the factory records for a program-and-verify row iteration and for a calibration or assay slot
(R443 names them and gives no value). -/
opaque rowCost : Rat
opaque slotCost : Rat

/-- The measured share of stope time that forced slots take, as a fraction of 2^14 (R273 gives no measurement): of the number of
the recomputation. -/
opaque forcedShare : Nat → Nat

/-- The share of issue that the thermal model predicts will bring the die to 82 °C (R316 gives no formula), as a fraction of 2^14: of
the number of the hold. -/
opaque shedShare : Nat → Nat

/-- The thermal node of a diode sensor on the lode die or the serdes edge, and the neighbours of a sensor (R432: the factory records
them). -/
opaque sensorNode : Nat → Nat
opaque sensorNear : Nat → List Nat

/-- The factor that a re-fit of the thermal model gives, unsigned Q2.14, before its clamp (R434 names the aim and not the model): of the
number of the re-fit. -/
opaque refitFactor : Nat → Nat

/-- The serial number, and the largest PARK_BUDGET in GB, as the factory sets them (SERIAL, PARK_BUDGET_MAX). -/
opaque serial : Nat
opaque parkBudgetMax : Nat

/-- Whether the host has enabled SR-IOV in PCIe configuration space, which the manual leaves to the PCIe standard (R42, R451; log entry 59). -/
opaque sriov : Bool

/-- P_design in W, as the factory records it (R445). -/
opaque designPower : Nat

end Sys2Proof.Config
end

