-- ==== Sys2Proof/Machine/Bits.lean ====
section
/-! DEFINITION. Bit fields, ceiling division, little-endian and big-endian byte strings, and fixed
powers: the plain helpers that the meanings use (R487 for byte order). -/

namespace Sys2Proof.Machine

/-- Ceiling division (0 when the divisor is 0). -/
def cdiv (a b : Nat) : Nat := if b = 0 then 0 else (a + b - 1) / b

/-- Bits [hi:lo] of a number. -/
def bitsOf (v hi lo : Nat) : Nat := v / 2 ^ lo % 2 ^ (hi + 1 - lo)

/-- Bit i of a number. -/
def bitAt (v i : Nat) : Bool := v / 2 ^ i % 2 == 1

/-- Field [hi:lo] of a register value. -/
def fld (w : Word) (hi lo : Nat) : Nat := bitsOf w.toNat hi lo

/-- Bit i of a register value. -/
def bit (w : Word) (i : Nat) : Bool := bitAt w.toNat i

/-- The word with field [hi:lo] replaced. -/
def setFld (w : Word) (hi lo v : Nat) : Word :=
  let m := (2 ^ (hi + 1 - lo) - 1) * 2 ^ lo
  (w &&& ~~~(BitVec.ofNat 32 m)) ||| BitVec.ofNat 32 (v % 2 ^ (hi + 1 - lo) * 2 ^ lo)

/-- A Bool as a bit at position i. -/
def flag (b : Bool) (i : Nat) : Nat := if b then 2 ^ i else 0

/-- A number's n bytes, lowest first (R487). -/
def leBytes : Nat → Nat → List Byte
  | 0, _ => []
  | n + 1, v => BitVec.ofNat 8 v :: leBytes n (v / 256)

/-- The number that bytes, lowest first, spell (R487). -/
def ofLe : List Byte → Nat
  | [] => 0
  | b :: bs => b.toNat + 256 * ofLe bs

/-- A number's n bytes, highest first. -/
def beBytes (n v : Nat) : List Byte := (leBytes n v).reverse

/-- The number that bytes, highest first, spell. -/
def ofBe (bs : List Byte) : Nat := ofLe bs.reverse

/-- The little-endian field of `n` bytes at offset `o` of a byte string. -/
def leAt (bs : List Byte) (o n : Nat) : Nat := ofLe ((bs.drop o).take n)

/-- The big-endian field of `n` bytes at offset `o`. -/
def beAt (bs : List Byte) (o n : Nat) : Nat := ofBe ((bs.drop o).take n)

/-- A byte string filled with zeros to `n` bytes. -/
def padTo (n : Nat) (bs : List Byte) : List Byte := bs ++ List.replicate (n - bs.length) 0

/-- A 32-bit two's-complement value as an integer. -/
def sInt (w : Word) : Int := w.toInt

/-- An integer clamped to a range. -/
def clampI (lo hi v : Int) : Int := if v < lo then lo else if hi < v then hi else v

/-- The least of a list, or a given value for the empty list. -/
def minOr (d : Nat) (l : List Nat) : Nat := match l with
  | [] => d
  | x :: xs => xs.foldl min x

/-- Adds 1 to a 32-bit counter that wraps at its width. -/
def wrapInc (w : Word) (n : Nat) : Word := w + BitVec.ofNat 32 n

/-- The nth element of a list with one element changed. -/
def setAt {α : Type} (l : List α) (i : Nat) (f : α → α) : List α :=
  l.zipIdx.map fun p => if p.2 = i then f p.1 else p.1

/-- The set bits of a mask below `n`, ascending. -/
def maskBits (n m : Nat) : List Nat := (List.range n).filter (bitAt m)

/-- Number of ones in the low `n` bits. -/
def popcount (n m : Nat) : Nat := (maskBits n m).length

/-- Consecutive pieces of at most `n` elements. -/
def chunks {α : Type} (n : Nat) (l : List α) : List (List α) :=
  (List.range (cdiv l.length n)).map fun i => (l.drop (i * n)).take n

/-- The integer square root rounded up. -/
def sqrtUp (n : Nat) : Nat := let r := Nat.sqrt n; if r * r = n then r else r + 1

/-- A rational rounded up to an integer, never below 0. -/
def ratCeil (q : Rat) : Nat := q.ceil.toNat

/-- A rational rounded to the nearest integer, ties to even. -/
def ratRound (q : Rat) : Int :=
  let f := q.floor
  let d := q - f
  if d < 1 / 2 then f else if 1 / 2 < d then f + 1 else if f % 2 = 0 then f else f + 1

/-- A drift in levels as a register shows it, unsigned Q4.12 (R483). -/
def driftReg (d : Rat) : Nat := min 0xFFFF (d * 4096).floor.toNat

end Sys2Proof.Machine
end

