-- ==== Sys2Proof/Machine/State.lean ====
section
/-! DEFINITION. The state of the module SLN-H1-384-LC as plain data: every register, memory, queue,
table and mode the manual gives it, and the queue of waiting commands. Registers that the manual gives
an offset and that nothing else determines live in `regs`, keyed by BAR0 offset; a status register that
only shows other state is computed from that state when it is read. Sparse tables are lists of key and
value, in rising key order, without an entry equal to the table's default. -/

namespace Sys2Proof.Machine

/-- A sparse table: strictly rising keys, no entry equal to the table's default. -/
abbrev Table (α : Type) := List (Nat × α)

/-! ## A stope's conversion side (chapter 3, 4 and 9) -/

/-- The analogue residue of one column (R95, R99): in LSBs of its last entry, with the time its
conversion ended and whether the chain holds. -/
structure Residue where
  value : Rat
  valid : Bool
  ended : Nat
  deriving DecidableEq, Repr

/-- What runs on a sequencer: a launched plan, or nothing. Header and entries are the sequencer's own
copy (R90). -/
structure Seq where
  busy : Bool
  launch : Nat
  hdr : Word
  entries : List Word
  pos : Nat
  pass : Nat
  bank : Bool
  format : Bool
  da : Nat
  stream : Option Nat
  cancelled : Bool
  held : Bool
  holdStart : Nat
  /-- Whether the seam's own part is over, while the launch goes on in another seam (R84). -/
  done : Bool
  deriving DecidableEq, Repr

def Seq.idle : Seq :=
  { busy := false, launch := 0, hdr := 0, entries := [], pos := 0, pass := 0, bank := false, format := false,
    da := 0, stream := none, cancelled := false, held := false, holdStart := 0, done := false }

/-- A launch that a LAUNCH descriptor has made (R160, R485): waiting, running, or ended with a status.
`status` 0 while it waits or runs or when it ended well, else a refusal or cause code; `left` holds the seams
still running as a mask, `reruns` the seams that have been re-run (R335). -/
structure Launch where
  id : Nat
  seams : Nat
  slot : Nat
  bank : Bool
  format : Bool
  da : List Nat
  stream : Option Nat
  index : Nat
  running : Bool
  left : Nat
  ended : Bool
  status : Nat
  reruns : Nat
  /-- The plan as it stood at the launch (R90), and the input levels of each named seam, ascending, 256 to a seam. -/
  hdr : Word
  entries : List Word
  levels : List Int
  /-- The slot's τ for the two phases, as it stood at the launch (R90, R332). -/
  tau : Nat × Nat
  deriving DecidableEq, Repr

/-- SEAM_STATE.STATE of R375. -/
inductive SeamMode where
  | checked | localising | recon | unprotected | suspect
  deriving DecidableEq, Repr

/-- A seam's check state (R335 to R346). `failed` is the launch whose re-run failed. -/
structure Seam where
  mode : SeamMode
  mac : Nat
  mac2 : Option Nat
  forRefresh : Bool
  holdLaunches : Bool
  failed : Option Nat
  finalRerun : Bool
  lastMismatch : Nat
  tauLast : Nat
  deriving DecidableEq, Repr

def Seam.reset : Seam :=
  { mode := .checked, mac := 0, mac2 := none, forRefresh := false, holdLaunches := false, failed := none,
    finalRerun := false, lastMismatch := 0, tauLast := 0 }

/-- A spare macro's assignment (SPARE_MAP of R375). -/
structure Spare where
  target : Nat
  used : Bool
  live : Bool
  refresh : Bool
  ready : List Bool
  deriving DecidableEq, Repr

def Spare.free : Spare := { target := 0, used := false, live := false, refresh := false, ready := [] }

/-- Which end a calibration run samples (R125). -/
inductive CalPhase where
  | idle | zero | full | commit
  deriving DecidableEq, Repr

/-- A stope's calibration engine (R125 to R135, R148, R149). `redo` says that a lost buffer has the present gain's zero end sampled again
before its full end (R134). -/
structure Cal where
  phase : CalPhase
  excl : Bool
  gains : Nat
  fs : Nat
  onlyZero : Bool
  redo : Bool
  gain : Nat
  col : Nat
  taken : Nat
  lastSample : Nat
  holdSince : Option Nat
  slotOpen : Bool
  /-- When the slot was granted: it is at most 2 µs long (R133). -/
  slotSince : Nat
  forced : Bool
  due : Bool
  dueSince : Nat
  addGains : Nat
  heldCmd : Option Word
  exclWait : Option Word
  cmdRefused : Bool
  zeroDone : Option Nat
  zeroGains : Nat
  /-- Per gain, the TINT that the zero end was sampled with (R125, R141). -/
  zeroTint : Table Nat
  gainValid : Nat
  everGains : Nat
  sumZ : Table Int
  sumZZ : Table Int
  sumF : Table Int
  clipped : Table Nat
  /-- Per gain, (σ² − b) × T of every column whose latest result was in range (R141). -/
  noise : Table (List Rat)
  fresh : Table Word
  committed : Nat
  lastDone : Nat
  lastMoves : Nat
  quietRuns : Nat
  deriving DecidableEq, Repr

def Cal.reset : Cal :=
  { phase := .idle, excl := false, gains := 0, fs := 0, onlyZero := false, redo := false, gain := 0, col := 0, taken := 0,
    lastSample := 0, holdSince := none, slotOpen := false, slotSince := 0, forced := false, due := false, dueSince := 0,
    addGains := 0, heldCmd := none, exclWait := none, cmdRefused := false, zeroDone := none, zeroGains := 0, zeroTint := [],
    gainValid := 0, everGains := 0, sumZ := [], sumZZ := [], sumF := [], clipped := [], noise := [], fresh := [],
    committed := 0, lastDone := 0, lastMoves := 0, quietRuns := 0 }

/-- REF_STATE of R105. -/
inductive RefState where
  | off | warming | ready
  deriving DecidableEq, Repr

/-- The bank states of R112. -/
inductive BankState where
  | empty | valid | programming | suspect
  deriving DecidableEq, Repr

/-- The conversion side of one stope. Tables are keyed inside the stope: column `256·m + c` of macro `m`,
macro bank `2·m + b`, cell `((2·m + b)·264 + row)·256 + c` (rows 256 to 263 are REF0 to REF7, R80),
coefficient `(256·m + c)·8 + g`, scale entry `16384·b + column`, τ `2·slot + phase`, canary channel
`16384·b + i` and canary run `256·b + j`. -/
@[ext] structure Stope where
  ref : RefState
  refDisable : Bool
  refSince : Nat
  bank : Bool
  latch : Table Int
  seqs : List Seq
  launches : List Launch
  nextLaunch : Nat
  queue : List Word
  heldPush : List (Nat × Nat × List Word)
  narrow : Table Int
  check : Table Int
  recon : Table Int
  runFlags : Table Nat
  residue : Table Residue
  acc : Table Word
  weight : Table Nat
  accFlags : Table Nat
  banks : Table BankState
  scales : Table Nat
  cells : Table Int
  coef : Table Word
  cal : Cal
  seams : List Seam
  spare72 : Spare
  spare73 : Spare
  tau : Table Nat
  canary : Table Word
  canaryRun : Table Word
  learn : Table (Word × Word)
  learnRun : Table (Word × Word)
  canaryLast : Table Nat
  /-- The flags of the elements of the last SCALE or REQUANT, as the canary unit has them (R75, R158). -/
  elemFlags : List Nat
  passes : Table Nat
  /-- When a macro bank was programmed last, its drift history as (ns, levels), its refresh interval in days (R138), and the cells that its last DRIFT
  assay sampled, each with the value measured and the image's level (R136). -/
  progTime : Table Nat
  drift : Table (List (Nat × Rat))
  refreshDays : Table Rat
  sampled : Table (List (Rat × Int))
  deriving DecidableEq, Repr

/-- A stope as it stands at reset: buffer OFF, bank A active, every bank EMPTY (MW_STATE of R483), the
coefficients at identity (the default of `coef`, R124). -/
def Stope.reset : Stope :=
  { ref := .off, refDisable := false, refSince := 0, bank := false, latch := [], seqs := [Seq.idle, Seq.idle, Seq.idle, Seq.idle],
    launches := [], nextLaunch := 1, queue := [], heldPush := [], narrow := [], check := [], recon := [], runFlags := [],
    residue := [], acc := [], weight := [], accFlags := [], banks := [], scales := [], cells := [], coef := [], cal := Cal.reset,
    seams := [Seam.reset, Seam.reset, Seam.reset, Seam.reset], spare72 := Spare.free, spare73 := Spare.free, tau := [], canary := [],
    canaryRun := [], learn := [], learnRun := [], canaryLast := [], elemFlags := [], passes := [], progTime := [], drift := [], refreshDays := [], sampled := [] }

/-! ## Shell and merge cores (chapter 5) -/

/-- A descriptor as fetched (R154), with its position in the step. -/
structure Desc where
  index : Nat
  w0 : Word
  w1 : Word
  w2 : Word
  w3 : Word
  deriving DecidableEq, Repr

/-- A scoreboard entry (R162): a byte range of the flat memory or of the accumulator file, READ or WRITE.
`space` 0 is SP, 1 ACC, 2 MC. -/
structure SbEntry where
  space : Nat
  start : Nat
  len : Nat
  write : Bool
  deriving DecidableEq, Repr

/-- An open window (R183, R185). -/
structure Window where
  base : Nat
  len : Nat
  mode : Nat
  device : Nat
  endpoint : Nat
  region : Nat
  expiry : Option Nat
  counter : Option Nat
  arrived : Nat
  deriving DecidableEq, Repr

/-- What keeps an issued descriptor from completing (R161, R167, R186, R208). -/
inductive Await where
  | nothing
  | launch (id : Nat)
  | packets (left : Nat)
  | xred (group root : Nat)
  | barrier (group id : Nat)
  | counter (cnt : Nat) (target : Word) (consume : Bool) (deadline : Option Nat)
  | window (base : Nat) (target : Nat)
  | kvcmd
  | fab (path left : Nat)
  /-- A WOPEN or a WCLOSE, whose window opens or closes when it completes (R185). -/
  | wopen (w : Window) (life : Option Nat)
  | wclose (base : Nat)
  deriving DecidableEq, Repr

/-- An issued descriptor (R153, R162): its scoreboard entries, what it awaits, and the cause of a refused
or discarded packet it will fault with (R30, R186). -/
structure Issued where
  step : Nat
  desc : Desc
  sb : List SbEntry
  await : Await
  cause : Nat
  /-- Whether this is a re-run (R174). -/
  again : Bool
  deriving DecidableEq, Repr

/-- A step in a core's issue queue (R113, R152). -/
structure Step where
  prog : Nat
  stream : Option Nat
  bank : Bool
  converting : Bool
  bound : Nat
  /-- Whether its hold for a cold buffer has been counted (R109). -/
  missed : Bool
  deriving DecidableEq, Repr

/-- The step in progress on a core: the position of the next fetch and whether the LAST descriptor has
been fetched (R152, R153). -/
structure Running where
  id : Nat
  step : Step
  next : Nat
  lastSeen : Bool
  started : Nat
  fetchRetry : Bool
  /-- Whether its watchdog has expired (R347). -/
  watched : Bool
  deriving DecidableEq, Repr

/-- A reduction in progress at its root (R166, R167): its number in its group, the operands that have arrived, by stope, whether the root's
own descriptor has opened it, the step that has, and whether an operand has faulted it. -/
structure Reduction where
  group : Nat
  num : Nat
  bad : Bool
  step : Nat
  op : Nat
  len : Nat
  started : Bool
  operands : List (Nat × List DWord)
  deriving DecidableEq, Repr

/-- What an operand buffer records of its last fill (R178): the place in the buffer, the source ranges in order, and for the reply of a
KVCMD the stack and the command block, with the ranges that the stack read. -/
structure Fill where
  place : Nat
  src : List (Nat × Nat)
  cmd : Option (Nat × List Byte)
  deriving DecidableEq, Repr

/-- The part of a descriptor's packets that had gone when a read error stopped it (R174): how many have been sent, how many of them have
come back, and the cause that came with one. -/
structure Part where
  sent : Nat
  back : Nat
  cause : Nat
  deriving DecidableEq, Repr

def Part.none : Part := { sent := 0, back := 0, cause := 0 }

/-- A core: shell core of stope s, or merge core. `ob` holds, for a merge core's four operand buffers, what the last fill came
from, or none once that source has been overwritten (R178). -/
@[ext] structure Core where
  queue : List Step
  run : Option Running
  /-- Steps whose LAST descriptor has issued and which wait for descriptors to complete. -/
  finishing : List Running
  nextStep : Nat
  fetched : Option Desc
  issued : List Issued
  windows : List Window
  reductions : List Reduction
  /-- At a root, by `256·group + stope` the operands taken from a member, and by group the reductions begun (R166). -/
  redSeen : Table Nat
  redMade : Table Nat
  /-- Groups whose next reduction here has faulted before this member's own descriptor issued (R167). -/
  redFaults : List Nat
  /-- Streams with a step that has faulted here and no retry since (R175). -/
  faulted : List Nat
  barrierSeen : List (Nat × Nat × Nat)
  poison : List Nat
  bad : List Nat
  reprot : List Nat
  scrubPos : Nat
  scrubLast : Nat
  progLost : Bool
  /-- The descriptor that a parity mismatch stopped, with the word that failed (R174). -/
  rerun : Option (Desc × Nat)
  /-- Whether the fetched descriptor is a re-run. -/
  again : Bool
  part : Part
  ob : List (Option Fill)
  /-- For each 32 KiB of a read-only pool granule, the KV page it was filled from, stack and page (R181). -/
  roSource : Table (Nat × Nat)
  permanent : Bool
  host : Option Nat
  deriving DecidableEq, Repr

def Core.reset : Core :=
  { queue := [], run := none, finishing := [], nextStep := 1, fetched := none, issued := [], windows := [], reductions := [], redSeen := [], redMade := [],
    redFaults := [], faulted := [], barrierSeen := [], poison := [], bad := [], reprot := [], scrubPos := 0, scrubLast := 0, progLost := false, rerun := none,
    again := false, part := Part.none,
    ob := [none, none, none, none], roSource := [], permanent := false, host := none }

/-! ## Networks, regions and fences (chapter 1) -/

/-- A block's fence (R47): the classes in force at the block, its host-fence flag, and the headframe's own
causes with the classes each holds (0 fault, 1 PROG_LOST, 2 takeover, 3 power-down, 4 region membership,
5 slice lost). -/
structure Fence where
  classes : Nat
  host : Bool
  causes : List (Nat × Nat)
  deriving DecidableEq, Repr

def Fence.clear : Fence := { classes := 0, host := false, causes := [] }

/-- What a pace monitor has published (R25): the value as Q2.14 and when. -/
structure Pace where
  value : Nat
  time : Nat
  deriving DecidableEq, Repr

/-- A packet, or a control message, on its way through a mesh (R31, R32, R37, R38): its number, its channel (a packet's VC, a message's
priority level), its flits, its endpoints, and the router and the port where it leaves the mesh. `msg` is the message, for a message. -/
structure Worm where
  id : Nat
  chan : Nat
  flits : Nat
  src : Nat
  dest : Nat
  exit : Nat
  out : Nat
  msg : Option CtlMsg
  deriving DecidableEq, Repr

/-- A packet buffer of a router input (R32), or a packet whole at its source: router and input port, what stands in it, and the flits
that have arrived and that have gone on. -/
structure Buf where
  router : Nat
  port : Nat
  worm : Worm
  arrived : Nat
  gone : Nat
  deriving DecidableEq, Repr

/-- A router output's arbitration (R31, R38): by channel the input that had the last turn and the packet that has the present one, the
consecutive slots that passed over a lower channel, and the lower channel that had the last slot given to one. -/
structure Arb where
  last : List (Nat × Nat)
  turn : List (Nat × Nat)
  passed : Nat
  low : Nat
  deriving DecidableEq, Repr

def Arb.reset : Arb := { last := [], turn := [], passed := 0, low := 0 }

/-- A mesh of 256 routers: occupied buffers, and the outputs' arbitration keyed `16·router + port`. -/
structure Mesh where
  next : Nat
  bufs : List Buf
  arbs : Table Arb
  deriving DecidableEq, Repr

def Mesh.reset : Mesh := { next := 0, bufs := [], arbs := [] }

/-- The two meshes, and each source's next event number (R51). -/
structure Nets where
  data : Mesh
  ctl : Mesh
  seqs : Table Nat
  deriving DecidableEq, Repr

def Nets.reset : Nets := { data := Mesh.reset, ctl := Mesh.reset, seqs := [] }

/-- A packet that waits at its source for its credit, with the descriptor that sends it: core, step and position (R33, R192). -/
structure Waiting where
  packet : Packet
  owner : Option (Nat × Nat × Nat)
  deriving DecidableEq, Repr

/-- The networks: end-to-end credits in use as (source, destination, channel), packets held for want of a
credit, packets and messages in flight, and a held region change (R33, R41, R482). -/
@[ext] structure Noc where
  creditUsed : List (Nat × Nat × Nat)
  held : List Waiting
  flight : List Packet
  /-- Packets at their destination that it has not drained yet (R33). -/
  arrived : List Packet
  ctl : List CtlMsg
  notices : List Notice
  nets : Nets
  pending : Option (Nat × Word × Word × Word × Word)
  pendingSince : Nat
  staged : Table Word
  fences : Table Fence
  quiesce : List Nat
  quiesced : List Nat
  /-- When a block last reported QUIESCE, by page (R41). -/
  quiescedAt : Table Nat
  pace : Table Pace
  /-- When a monitor's present window started, by endpoint; an unlisted monitor's first window started with VCORE (R25). -/
  paceStart : Table Nat
  deriving DecidableEq, Repr

def Noc.reset : Noc :=
  { creditUsed := [], held := [], flight := [], arrived := [], ctl := [], notices := [], nets := Nets.reset, pending := none, pendingSince := 0, staged := [],
    fences := [], quiesce := [], quiesced := [], quiescedAt := [], pace := [], paceStart := [] }

/-! ## KV stacks, paging and the prefix tree (chapter 6) -/

/-- A command block a KVCMD has sent to a stack (R208, R209): issuing core, step and descriptor index, the bytes,
the reply's address word, and the issuer's region. -/
structure KvCmd where
  core : Nat
  step : Nat
  index : Nat
  bytes : List Byte
  dst : Word
  region : Nat
  deriving DecidableEq, Repr

/-- A page-table entry (R223). -/
structure Pte where
  frame : Nat
  stack : Nat
  valid : Bool
  spilled : Bool
  stagedOnly : Bool
  handle : Nat
  /-- Offsets in the page of the slots appended since the last commit (R213). -/
  staged : List Nat
  deriving DecidableEq, Repr

def Pte.none : Pte := { frame := 0, stack := 0, valid := false, spilled := false, stagedOnly := false, handle := 0, staged := [] }

/-- A staged position map: the words written through POSMAP_DATA (R243), keyed by `4·part + word` with part
16 the header. -/
structure StagedMap where
  words : Table Word
  deriving DecidableEq, Repr

/-- A prefix node (R229). -/
structure Node where
  hash : DWord
  parent : Nat
  depth : Nat
  next : Nat
  refs : Nat
  children : Nat
  ready : Bool
  pinned : Bool
  lastUse : Nat
  gen : DWord
  tokens : List Nat
  stream : Nat
  /-- The node map: for each (layer slot, KV head), the frame that holds this page position (R229). -/
  frames : List (Nat × Nat)
  deriving DecidableEq, Repr

/-- A stack's answer to a command, on its way to the core (R208): where it goes, its bytes, the cause of a
fault, or 0, and the command block it answers. -/
structure KvReply where
  core : Nat
  step : Nat
  index : Nat
  dst : Word
  bytes : List Byte
  cause : Nat
  cmd : List Byte
  deriving DecidableEq, Repr

/-- A committed position map that waits for its installation (R206): whether it frees dead pages (R207), and whether it has gone to the job's
modules, as it does once the stream has no token in flight. -/
structure PendMap where
  stream : Nat
  map : PosMap
  free : Bool
  sent : Bool
  deriving DecidableEq, Repr

/-- The allocator and the walker. `refs` is keyed `2^21·stack + frame`; `ptes` by `pteKey`; `kvq` by stack. -/
@[ext] structure Kv where
  refs : Table Nat
  ptes : Table Pte
  kvq : Table (List KvCmd)
  replies : List KvReply
  pending : List PendMap
  stagedMaps : Table StagedMap
  posBad : Bool
  spilling : Bool
  nextHandle : Nat
  nodes : List (Nat × Node)
  buckets : Table Nat
  nodeFrames : List Nat
  reloading : List Nat
  /-- Generations that a swap on a bank has replaced and whose nodes wait for eviction (R237). -/
  prevGen : List (Bool × DWord)
  ceHour : Table Nat
  quietHours : Table Nat
  deriving DecidableEq, Repr

def Kv.reset : Kv :=
  { refs := [], ptes := [], kvq := [], replies := [], pending := [], stagedMaps := [], posBad := false, spilling := false, nextHandle := 1,
    nodes := [], buckets := [], nodeFrames := [], reloading := [], prevGen := [], ceHour := [], quietHours := [] }

/-! ## Streams, rings, classes and the winder (chapter 7) -/

/-- The stream states of R248. -/
inductive StreamState where
  | free | idle | active | paused | parking | parked | unparking
  deriving DecidableEq, Repr

/-- A work-list item (R249): APPEND_TOKENS or GENERATE, with its TAG. -/
inductive Work where
  | append (tokens : List Nat) (noMatch pin : Bool) (tag : DWord)
  | generate (budget : Nat) (tag : DWord)
  deriving DecidableEq, Repr

/-- A token in flight (R246, R267). -/
structure Flying where
  slot : Nat
  token : Nat
  prefill : Nat
  samples : Bool
  sampled : Option SampledTok
  deadline : Option Nat
  demoted : Bool
  released : Nat
  retried : Bool
  /-- The bound in ns of the token's remaining steps, as its last issued or ready step gave it (R274). -/
  remaining : Nat
  atRisk : Bool
  /-- Whether its missed deadline has been counted (R278). -/
  missed : Bool
  deriving DecidableEq, Repr

/-- The settings a token is sampled with, fixed when its sampling starts (R283): the sampler, and the mask of its mode, none for OFF (R286). -/
structure SmpNow where
  sampler : Sampler
  mask : Option (List Byte)
  deriving DecidableEq, Repr

/-- A stream context (R245 to R250, R289, R299). -/
@[ext] structure Stream where
  state : StreamState
  cls : Nat
  customer : Nat
  bank : Bool
  region : Nat
  ringBase : DWord
  ringSize : Nat
  ringEvr : Nat
  /-- The function that last configured or rang the ring (R450, R453). -/
  fn : Nat
  head : Nat
  tail : Nat
  committed : Nat
  /-- The tokens of the committed slots, in slot order. -/
  history : List Nat
  /-- The tokens of the history that have no slot yet: appended ones, or the last sampled one. -/
  pend : List Nat
  /-- Whether the first pending token was sampled, and so already reported. -/
  pendSampled : Bool
  /-- First slot and end of each APPEND_TOKENS item with PIN set (R236). -/
  pinRanges : List (Nat × Nat)
  work : List Work
  budget : Nat
  genTag : DWord
  generating : Bool
  /-- When the GENERATE item started (R267), and the tokens sampled under it and since the stream opened. -/
  itemStart : Nat
  genCount : Nat
  genTotal : Nat
  matched : List Nat
  flying : Option Flying
  lastRelease : Option Nat
  lastMiss : Option Nat
  held : Bool
  maskWait : Bool
  /-- Whether the stream's token waits at the sampler while SMP_CTRL.ENABLE is 0. -/
  smpHold : Bool
  mask : List Byte
  maskMode : Nat
  /-- Masks of SET_MASK with WAIT that no token has used yet, oldest first (R286). -/
  waitMasks : List (List Byte)
  sampler : Sampler
  /-- The settings of the token whose sampling has started (R283). -/
  smpNow : Option SmpNow
  /-- Whether the stream's first token holds until every module has mapped the nodes it matched (R232). -/
  matchWait : Bool
  pos : PosMap
  node : Option Nat
  wantPause : Bool
  wantClose : Option DWord
  wantPark : Option (Nat × DWord)
  /-- The ring whose OPEN_STREAM names this stream as parent and holds (R258). -/
  wantOpen : Option Nat
  cancelTag : Option DWord
  /-- A CANCEL held over a park or unpark (R294): its TAG, and the work-list items before it (R279). -/
  cancelHeld : Option (DWord × Nat)
  beforePark : StreamState
  parkTarget : Nat
  digest : List Byte
  parkLoc : DWord
  parkGen : DWord
  parkTag : DWord
  parkBytes : Nat
  /-- The snapshot's small state (R289), as its bytes. -/
  parkSmall : List Byte
  pageCrcs : Table Nat
  /-- Tokens of a MIRROR class whose TOKEN_OUT waits: slot, TAG, DATA, and the modules whose partner has acknowledged (R296). -/
  mirrorWait : List (Nat × DWord × DWord × List Nat)
  /-- Journaled pages: page key, the handle of its copy, and whether the copy is of a full page (R295, R297). -/
  journaled : Table (Nat × Bool)
  pcHold : Bool
  deriving DecidableEq, Repr

def Stream.free : Stream :=
  { state := .free, cls := 0, customer := 0, bank := false, region := 0, ringBase := 0, ringSize := 16, ringEvr := 0, fn := 0, head := 0,
    tail := 0, committed := 0, history := [], pend := [], pendSampled := false, pinRanges := [], work := [], budget := 0, genTag := 0,
    generating := false, itemStart := 0, genCount := 0, genTotal := 0, matched := [], flying := none, lastRelease := none, lastMiss := none, held := false,
    maskWait := false, smpHold := false, mask := [], maskMode := 0, waitMasks := [], sampler := Sampler.default, smpNow := none, matchWait := false, pos := PosMap.none, node := none,
    wantPause := false, wantClose := none, wantPark := none, wantOpen := none, cancelTag := none, cancelHeld := none,
    beforePark := .free, parkTarget := 0, digest := [], parkLoc := 0, parkGen := 0, parkTag := 0, parkBytes := 0, parkSmall := [], pageCrcs := [],
    mirrorWait := [], journaled := [], pcHold := false }

/-- An event record (R260) before its PHASE is known. -/
structure Record where
  typ : Nat
  flags : Nat
  code : Nat
  stream : Nat
  time : Nat
  tag : DWord
  data : DWord
  deriving DecidableEq, Repr

/-- One of the 64 event rings (R260 to R266, R300). -/
structure EvRing where
  base : DWord
  size : Nat
  vector : Nat
  en : Bool
  count : Nat
  time : Nat
  head : Nat
  tail : Nat
  phase : Bool
  held : List Record
  unsignalled : Nat
  oldest : Option Nat
  /-- The function that wrote the ring's configuration last: its table holds the vector (R452). -/
  fn : Nat
  deriving DecidableEq, Repr

def EvRing.reset : EvRing :=
  { base := 0, size := 64, vector := 0, en := false, count := 0, time := 0, head := 0, tail := 0, phase := true, held := [],
    unsignalled := 0, oldest := none, fn := 0 }

/-- What this module tells the ingress module of its job: a token that its sampler has picked for a stream's slot, or that no candidate is left
(R247, R286), and a stream whose step has faulted (R175). -/
inductive Told where
  | token (stream slot : Nat) (tok : Option SampledTok)
  | faulted (stream : Nat)
  deriving DecidableEq, Repr

/-- The KV of committed slots `start` up to, not including, `stop` of a stream, as sent on channel `vc` (VC2) to the mirror partner (R295): for
each chain's slot its 64 bytes of K, 64 of V and 8 of scales. -/
structure MirrorOut where
  partner : Nat
  stream : Nat
  start : Nat
  stop : Nat
  vc : Nat
  kv : List Byte
  deriving DecidableEq, Repr

/-- The winder, the rings and the job of this module. `decisions` are those sent to the job's other modules and `told` what has gone to the ingress
module, oldest first. -/
@[ext] structure Wnd where
  streams : Table Stream
  classes : Table Class
  ctrlBase : DWord
  ctrlSize : Nat
  ctrlEvr : Nat
  ctrlFn : Nat
  ctrlHead : Nat
  ctrlTail : Nat
  decisions : List Decision
  told : List Told
  /-- What the job's other modules have last reported for the bounds (R269, R273). -/
  view : Option JobView
  mirrorTx : List MirrorOut
  evrs : Table EvRing
  /-- Records that wait at their source, with their event ring, while the module's hold of 4,096 is full (R264). -/
  evWait : List (Nat × Record)
  roles : Nat
  jobNo : Nat
  job : JobCfg
  ready : List StepReq
  energyHold : Bool
  heldLevels : List Nat
  barrier : Bool
  drainHold : Bool
  sliceHold : List Nat
  custTokens : Table Nat
  custEnergy : Table Rat
  programs : List (Nat × Nat × List Byte)
  deriving DecidableEq, Repr

/-- A job configuration before any image has been loaded. -/
def noJob : JobCfg :=
  { ingressDev := 0, samplerDev := 0, calGains := [], ropeBase := 0x461C4000, ropeDims := 128, maxStreams := 0, devices := [],
    buddyBase := 0, buddyLen := 0, layers := 0, groups := [], bounds := [], lb := 0, hf := 0 }

def Wnd.reset : Wnd :=
  { streams := [], classes := [], ctrlBase := 0, ctrlSize := 16, ctrlEvr := 0, ctrlFn := 0, ctrlHead := 0, ctrlTail := 0, decisions := [], told := [], view := none, mirrorTx := [], evrs := [], evWait := [], roles := 0,
    jobNo := 0, job := noJob, ready := [], energyHold := false, heldLevels := [], barrier := false,
    drainHold := false, sliceHold := [], custTokens := [], custEnergy := [], programs := [] }

/-! ## Images, the vault and swaps (chapter 8) -/

/-- An install record (R306): slot, digest and generation. -/
structure Install where
  slot : Nat
  digest : List Byte
  gen : DWord
  deriving DecidableEq, Repr

/-- A vault slot: its two copies, its record, and what its last check found (R305 to R307, R327). -/
structure VSlot where
  copy0 : Option ImageSlice
  copy1 : Option ImageSlice
  record : Option Install
  ok0 : Bool
  ok1 : Bool
  staging : Bool
  deriving DecidableEq, Repr

def VSlot.empty : VSlot := { copy0 := none, copy1 := none, record := none, ok0 := false, ok1 := false, staging := false }

/-- SWAP_STATUS.PHASE of R329. -/
inductive SwapPhase where
  | idle | reading | programming | ready | barrier | rollback | tempHeld
  deriving DecidableEq, Repr

/-- What a module tells the ingress module about its swap (R319 to R321). -/
inductive SwapMsg where
  | prepared (gen : Nat)
  | armed (gen : Nat)
  | outcome (code : Nat)
  | flipped
  | layer (n : Nat)
  | layerFail (n : Nat)
  | abortAsked
  deriving DecidableEq, Repr

/-- How a macro bank is refreshed (R325): due, in place, under a spare, in reconstruction mode, unprotected, held; or a spare that
is programmed for its target (R343). -/
inductive Means where
  | off | due | inPlace | spare | recon | unprotected | held | stand
  deriving DecidableEq, Repr

/-- A refresh or spare programming: its means, the next row, the iterations done on it, whether a cell has failed, and since when it
is held. -/
structure Refresh where
  means : Means
  row : Nat
  iters : Nat
  failed : Bool
  since : Nat
  deriving DecidableEq, Repr

def Refresh.none : Refresh := { means := .off, row := 0, iters := 0, failed := false, since := 0 }

/-- The swap logic (R313 to R329) and the vault. `mode` is SWAP_CMD.MODE; `rows` holds, by `128·stope + macro`, the next row, the
iterations done on it and whether a cell has failed; `prev` is the target bank's record before the operation; `refresh` is keyed `2·(128·stope + macro) + bank`. From `reports` on, the fields are the ingress
module's for the job. -/
@[ext] structure Swap where
  slots : Table VSlot
  bankA : Option Install
  bankB : Option Install
  phase : SwapPhase
  mode : Nat
  target : Bool
  copyUsed : Bool
  /-- Whether the other copy has been taken (R307). -/
  switched : Bool
  slot : Nat
  src : Nat
  stageToo : Bool
  wait : Bool
  shed : Bool
  prio : Nat
  image : Option ImageSlice
  verified : Bool
  rows : Table (Nat × Nat × Bool)
  /-- Macros rewritten in this IN_PLACE, while a rollback runs (R321). -/
  undo : List Nat
  /-- Whether a row has been programmed (R322). -/
  wroteRow : Bool
  holdSince : Option Nat
  heldFrom : SwapPhase
  inWindow : Option Nat
  prev : Option Install
  flipped : Bool
  layersDone : Nat
  told : List SwapMsg
  staged : Option ImageSlice
  parkUsed : List (Nat × Nat)
  refresh : Table Refresh
  reports : List (Nat × Nat × Nat)
  commitAt : Option Nat
  jobMode : Nat
  actionSent : Bool
  acks : List Nat
  layersLeft : List (Nat × Nat)
  layersRight : List (Nat × Nat)
  deriving DecidableEq, Repr

def Swap.reset : Swap :=
  { slots := [], bankA := none, bankB := none, phase := .idle, mode := 0, target := false, copyUsed := false, switched := false, slot := 0,
    src := 0, stageToo := false, wait := false, shed := false, prio := 7, image := none, verified := false, rows := [], undo := [], wroteRow := false,
    holdSince := none, heldFrom := .idle, inWindow := none, prev := none, flipped := false, layersDone := 0, told := [],
    staged := none, parkUsed := [], refresh := [], reports := [], commitAt := none, jobMode := 0, actionSent := false, acks := [],
    layersLeft := [], layersRight := [] }

/-! ## Tally, assays and reports (chapter 9) -/

/-- A tally entry (R364). `state` 0 FREE, 1 TRANSIENT, 2 PERMANENT. `stamp` is the canonical place of its latest event: time, source, sequence (R51). -/
structure TallyEntry where
  unit : Nat
  state : Nat
  cause : Nat
  events : Nat
  detail : Nat
  t0 : Nat
  t1 : Nat
  t2 : Nat
  permTime : Nat
  stamp : Nat × Nat × Nat
  deriving DecidableEq, Repr

/-- One copy of the tally in the ferroelectric store, with its CRC-64 (R365). `ok` says whether that checked at the last load (TALLY_STATUS). -/
structure TallyCopy where
  seq : Nat
  crc : Nat
  ok : Bool
  entries : List TallyEntry
  deriving DecidableEq, Repr

/-- A report record (R371). -/
structure Report where
  cls : Nat
  coalesced : Bool
  cause : Nat
  unit : Nat
  time : Nat
  source : Nat
  seq : Nat
  detail : Nat
  count : Nat
  deriving DecidableEq, Repr

/-- A due assay (R355, R359). -/
structure Due where
  kind : Nat
  unit : Nat
  bank : Bool
  since : Nat
  forced : Bool
  retry : Bool
  requested : Bool
  deriving DecidableEq, Repr

/-- The tally, the log and the assay engine. -/
@[ext] structure Tally where
  entries : List TallyEntry
  dirty : List Nat
  lastWrite : Table Nat
  copy0 : TallyCopy
  copy1 : TallyCopy
  merged : Bool
  full : Bool
  notFound : Bool
  log : List Report
  second : Nat
  /-- Alarm records sent in the present second, by source. -/
  sent : Table Nat
  excess : List (Nat × Nat × Nat × Nat)
  due : List Due
  pastDone : Table Nat
  result : Nat
  resultPending : Bool
  resultCol : Nat
  current : Option Due
  lost : Bool
  lastAlarm : Option Nat
  deriving DecidableEq, Repr

def Tally.reset : Tally :=
  { entries := [], dirty := [], lastWrite := [], copy0 := { seq := 0, crc := 13144445341178972864, ok := false, entries := [] },
    copy1 := { seq := 0, crc := 13144445341178972864, ok := false, entries := [] }, merged := false, full := false, notFound := false, log := [],
    second := 0, sent := [], excess := [], due := [], pastDone := [], result := 0, resultPending := false, resultCol := 0,
    current := none, lost := false, lastAlarm := none }

/-! ## Pelig, adits and collectives (chapter 10) -/

/-- PORT_STATUS.STATE of R415. -/
inductive PortState where
  | down | training | up | degraded | miswired
  deriving DecidableEq, Repr

/-- A Pelig port (R378 to R394). -/
structure Port where
  state : PortState
  lanes : Nat
  usable : Nat
  retired : Nat
  version : Nat
  lanesShort : Bool
  peerDev : Nat
  peerPort : Nat
  rtt : Nat
  margin : List Nat
  txSeq : Nat
  rxSeq : Nat
  acked : Nat
  replay : List Flit
  tries : Table Nat
  nakSeq : Option Nat
  nakTime : Nat
  lastGood : Nat
  lastAck : Nat
  lastCredit : Nat
  /-- Credits the peer has granted and not used yet, and credits owed to the peer, per LVC. -/
  credits : List Nat
  owed : List Nat
  /-- Flits that wait for credit, for room in the replay buffer or for a fence. -/
  held : List Flit
  tx : List Flit
  /-- LINK flits sent: the payload of each (R386). -/
  linkTx : List (List Byte)
  /-- Since when the port is down. -/
  since : Nat
  /-- The present second and its replays (R362). -/
  replays : Nat × Nat
  deriving DecidableEq, Repr

def Port.reset : Port :=
  { state := .down, lanes := 0, usable := 0, retired := 0, version := 0, lanesShort := false, peerDev := 0,
    peerPort := 0, rtt := 0, margin := [0, 0, 0, 0], txSeq := 0, rxSeq := 0, acked := 4095, replay := [],
    tries := [], nakSeq := none, nakTime := 0, lastGood := 0, lastAck := 0, lastCredit := 0, credits := [0, 0, 0, 0, 0, 0, 0, 0],
    owed := [0, 0, 0, 0, 0, 0, 0, 0], held := [], tx := [], linkTx := [], since := 0, replays := (0, 0) }

/-- ADIT_STATE.STATE of R416. -/
inductive AditState where
  | down | verifying | up
  deriving DecidableEq, Repr

/-- A path endpoint (R397, R416): its written words, and its state. -/
structure Adit where
  kind : Word
  peer : Word
  routeA : Word
  routeB : Word
  state : AditState
  onB : Bool
  aUp : Bool
  bUp : Bool
  aEcho : Bool
  bEcho : Bool
  echoAt : Nat
  boundA : Nat
  boundB : Nat
  /-- When each route's round trip was last measured (R401). -/
  measuredA : Nat
  measuredB : Nat
  txE2e : Nat
  rxE2e : Nat
  /-- Sequenced packets sent and not answered, in E2E order. -/
  unacked : List Flit
  /-- Packets that wait to be sent. -/
  held : List Flit
  /-- Packets received in order that wait behind a packet in the arrival hold (R406). -/
  waiting : List Flit
  /-- The last 2,048 answers: E2E number and status. -/
  answered : List (Nat × Nat)
  deriving DecidableEq, Repr

def Adit.reset : Adit :=
  { kind := 0, peer := 0, routeA := 0, routeB := 0, state := .down, onB := false, aUp := false, bUp := false, aEcho := false,
    bEcho := false, echoAt := 0, boundA := 0, boundB := 0, measuredA := 0, measuredB := 0, txE2e := 0, rxE2e := 0, unacked := [], held := [], waiting := [], answered := [] }

/-- A packet in the arrival hold (R406). -/
structure Held where
  flit : Flit
  since : Nat
  ep : Nat
  deriving DecidableEq, Repr

/-- A member of a collective group (R408). -/
structure Member where
  device : Nat
  path : Nat
  endpoint : Nat
  wbase : Word
  deriving DecidableEq, Repr

/-- A collective group (R408). -/
structure Group where
  valid : Bool
  members : List Member
  rank : Nat
  region : Nat
  epoch : Nat
  deriving DecidableEq, Repr

def Group.none : Group := { valid := false, members := [], rank := 0, region := 0, epoch := 0 }

/-- A collective in progress (R409 to R413). `owner` is the endpoint that issued it, `src` and `cpl` NET address words, `cnt` the
CNT byte. Per member rank: the next chunk to send in `phase`, the resends of its first unacknowledged chunk, and when it last
made progress. -/
structure Coll where
  id : Nat
  op : Nat
  typ : Nat
  group : Nat
  epoch : Nat
  chunk : Nat
  count : Nat
  src : Word
  cpl : Word
  cnt : Nat
  tag : Nat
  root : Nat
  owner : Nat
  phase : Nat
  next : List Nat
  resends : List Nat
  progress : List Nat
  /-- Chunks acknowledged, or reported refused, as (rank, phase, index). -/
  acks : List (Nat × Nat × Nat)
  /-- Packets written here, as (rank, phase, index, packet). -/
  got : List (Nat × Nat × Nat × Nat)
  /-- Packets of a MULTICAST that a member refused, as (rank, index, packet) (R407). -/
  refused : List (Nat × Nat × Nat)
  passes : Nat
  folded : Bool
  failed : List Nat
  status : Nat
  /-- Whether it ended: it waits for its completion record. -/
  ended : Bool
  deriving DecidableEq, Repr

/-- The fabric side. -/
@[ext] structure Fab where
  ports : Table Port
  adits : Table Adit
  hold : List Held
  groups : Table Group
  stagedHdr : Table (Nat × Nat × Nat)
  stagedMem : Table Member
  colls : List Coll
  nextColl : Nat
  lostPeers : List Nat
  stored : List (Nat × Flit)
  /-- DATA flits that a port has accepted for this module and that wait for their operation. -/
  inbox : List (Nat × Flit)
  deriving DecidableEq, Repr

def Fab.reset : Fab :=
  { ports := [], adits := [], hold := [], groups := [], stagedHdr := [], stagedMem := [], colls := [], nextColl := 1,
    lostPeers := [], stored := [], inbox := [] }

/-! ## Power, heat and energy (chapter 11) and the headframe -/

/-- The power states of R422. -/
inductive PwrState where
  | off | aux | rails | init | cal | ready | drain
  deriving DecidableEq, Repr

/-- A node of the thermal model (R430 to R435): temperature in Q8.8 °C, power in mW, and for each of
WARN, THROTTLE, TRIP since when it has been at or above, or below with hysteresis. -/
structure TNode where
  temp : Int
  power : Nat
  above : List (Option Nat)
  below : List (Option Nat)
  asserted : List Bool
  deriving DecidableEq, Repr

def TNode.reset : TNode :=
  { temp := 0, power := 0, above := [none, none, none], below := [none, none, none], asserted := [false, false, false] }

/-- A diode sensor (R432, R433). -/
structure Sensor where
  reading : Int
  residual : Int
  broken : Bool
  badSince : Option Nat
  goodSince : Nat
  deriving DecidableEq, Repr

def Sensor.reset : Sensor := { reading := 0, residual := 0, broken := false, badSince := none, goodSince := 0 }

/-- A throttle episode (R437 to R440). -/
structure Episode where
  nodes : List Nat
  power : Bool
  target : Nat
  reduction : Nat
  start : Nat
  graceOver : Bool
  enforced : Bool
  lastMark : Nat
  belowSince : Option Nat
  deriving DecidableEq, Repr

/-- The margin plan in force (R145) and what it was made from. -/
structure Plan where
  seq : Nat
  adopted : Nat
  speed : Nat
  vcoreFloor : Nat
  floors : List Nat
  calInterval : Nat
  refreshMin : Nat
  dramRate : Nat
  cause : Nat
  deriving DecidableEq, Repr

/-- The headframe: margin plan, power, heat, energy, removal. -/
@[ext] structure Hf where
  plan : Plan
  causes : Nat
  calChanged : Nat
  aBehind : Table Rat
  /-- The pace monitors' field history: block, VCORE in mV, temperature in Q8.8 °C, and the value published (R142). -/
  paceHist : List (Nat × Nat × Int × Nat)
  /-- The next diagonal group of an EXCLUSIVE calibration of the die (R131): 16 when the last has started, 17 when done. -/
  calGroup : Nat
  /-- The stacks' refresh rates that the hour's counts ask for (R143). -/
  dramWant : Nat
  pwr : PwrState
  step : Nat
  downward : Bool
  latched : Nat
  busHold : Bool
  drainSince : Nat
  tripped : List Nat
  vcore : Nat
  vcoreTarget : Nat
  /-- When VCORE reached power-good (R25). -/
  vcoreSince : Nat
  failedPhases : List Nat
  inlet : Int
  nodes : Table TNode
  sensors : Table Sensor
  medianSince : Option Nat
  refitFactor : Nat
  refitClamp : Bool
  overSince : Option Nat
  episode : Option Episode
  releasing : Bool
  capShed : Option Nat
  quantum : Nat
  spent : Rat
  deficit : Nat
  pth : Nat
  corr : List Nat
  charged : List Rat
  measured : List Nat
  history : List (List Rat × List Nat)
  heldWindows : List Bool
  heldThis : Bool
  moduleW : Nat
  staticW : Nat
  rmvStep : Nat
  rmvCode : Nat
  rmvWait : List Nat
  /-- Energy charged and measured per class since reset, µJ (CHARGED_MJ, CLASS_MJ). -/
  totCharged : List Rat
  totMeasured : List Nat
  /-- HF_STATUS.STORE_OK and AUX_OSC_OK, and the healthy vault dies as a mask (VAULT_STATUS). -/
  storeOk : Bool
  oscOk : Bool
  vaultOk : Nat
  /-- The KV stacks that have trained, as a mask, and whether they are in self-refresh (STACK_STATUS). -/
  trained : Nat
  selfRefresh : Bool
  /-- When the works that recur at a period were last done (R428, R429, R431, R440, R441, R445). -/
  marks : Table Nat
  deriving DecidableEq, Repr

/-- The first margin plan stands at the register reset values: speed 0.85 typical, floors of 1 (R120, R142). -/
def Plan.reset : Plan :=
  { seq := 0, adopted := 0, speed := 13926, vcoreFloor := 0, floors := [1, 1, 1, 1, 1, 1, 1], calInterval := 360, refreshMin := 0,
    dramRate := 0, cause := 0 }

def Hf.reset : Hf :=
  { plan := Plan.reset, causes := 0, calChanged := 0, aBehind := [], paceHist := [], calGroup := 0, dramWant := 0, pwr := .off, step := 0, downward := false, latched := 0,
    busHold := false, drainSince := 0, tripped := [], vcore := 0, vcoreTarget := 0, vcoreSince := 0, failedPhases := [],
    inlet := 0, nodes := [], sensors := [], medianSince := none, refitFactor := 0x4000, refitClamp := false, overSince := none,
    episode := none, releasing := false, capShed := none, quantum := 0, spent := 0, deficit := 0, pth := 0,
    corr := [0x4000, 0x4000, 0x4000, 0x4000, 0x4000, 0x4000, 0x4000, 0x4000, 0x4000], charged := [0, 0, 0, 0, 0, 0, 0, 0, 0],
    measured := [0, 0, 0, 0, 0, 0, 0, 0, 0], history := [], heldWindows := [], heldThis := false, moduleW := 0, staticW := 0,
    rmvStep := 0, rmvCode := 0, rmvWait := [], totCharged := [0, 0, 0, 0, 0, 0, 0, 0, 0],
    totMeasured := [0, 0, 0, 0, 0, 0, 0, 0, 0], storeOk := false, oscOk := false, vaultOk := 0, trained := 0, selfRefresh := false, marks := [] }

/-! ## Host link, ring and module (chapter 12) -/

/-- What a PCIe function holds of its own (R451 to R453, R459). -/
structure Fn where
  abiHost : Word
  abiSel : Nat
  refuse : Nat
  dirSel : Nat
  d3 : Bool
  msix : Table DWord
  deriving DecidableEq, Repr

def Fn.reset : Fn := { abiHost := 0, abiSel := 0, refuse := 0, dirSel := 0, d3 := false, msix := [] }

/-- A frame or message the module has sent on its ring, with its port (R463, R465). -/
structure RingOut where
  port : Nat
  msg : RingMsg
  deriving DecidableEq, Repr

/-- The module's edge: functions, ring, time, bypass, straps, pins. `seen` holds per ring source the highest
SEQ and the bitmap of the 64 below it (R465); `alarms` the ALARM frames awaiting acknowledgement. -/
@[ext] structure Edge where
  fns : Table Fn
  shadowHi : Table Word
  heldLo : Table Word
  msi : List (Nat × Nat)
  seen : Table (Nat × Nat)
  tx : List RingOut
  txSeq : Nat
  alarms : List (Nat × RingMsg)
  alarmWait : List Report
  lastHello : Nat
  neighbours : Table Nat
  ringVer : Nat
  straps : Nat
  devId : Nat
  devLoc : Nat
  idBad : Bool
  idChanged : Bool
  link : Nat
  bypass : Nat
  bypassRetryAt : Option Nat
  ringUp : Nat
  timeState : Nat
  timePort : Nat
  goodSyncs : Nat
  everLocked : Bool
  lastSync : Nat
  prsnt : Bool
  pwrEn : Bool
  rmvRdy : Bool
  deriving DecidableEq, Repr

/-- DEV_ID's reset value is the unassigned 0xF_FFFD (the DEVICE page's table). -/
def Edge.reset : Edge :=
  { fns := [], shadowHi := [], heldLo := [], msi := [], seen := [], tx := [], txSeq := 0, alarms := [], alarmWait := [],
    lastHello := 0, neighbours := [], ringVer := 1, straps := 0, devId := 0xFFFFD, devLoc := 0, idBad := false, idChanged := false,
    link := 0, bypass := 0, bypassRetryAt := none, ringUp := 0, timeState := 0, timePort := 0, goodSyncs := 0, everLocked := false,
    lastSync := 0, prsnt := false, pwrEn := false, rmvRdy := false }

/-! ## The whole module -/

/-- The module. `mem` is every byte-addressed memory of the part in one flat space (see Machine/Ops.lean);
`regs` every register the manual gives an offset and that nothing else determines; `now` the timebase in
nanoseconds (R470); `freeCtr` the MODEL's own counter of free values drawn, no state of the part. -/
@[ext]
structure State where
  pending : List Instr
  now : Nat
  freeCtr : Nat
  regs : Table Word
  mem : List Host.Cell
  stopes : Table Stope
  cores : Table Core
  noc : Noc
  kv : Kv
  wnd : Wnd
  swap : Swap
  tally : Tally
  fab : Fab
  hf : Hf
  edge : Edge
  deriving DecidableEq, Repr

/-- The module right after reset: no command waits, every register at the value of its table (an unlisted
register reads its reset value), memories with nothing listed, power state OFF. -/
def State.reset : State :=
  { pending := [], now := 0, freeCtr := 0, regs := [], mem := [], stopes := [], cores := [], noc := Noc.reset, kv := Kv.reset,
    wnd := Wnd.reset, swap := Swap.reset, tally := Tally.reset, fab := Fab.reset, hf := Hf.reset, edge := Edge.reset }

/-- The faults of the block. No command of this part stops it: a fault of the manual is a notice, a status
or a record in the state. -/
inductive Fault where
  /-- Raised by no meaning: it is here because the host's interface asks for a fault type. Safe. -/
  | none
  deriving DecidableEq, Repr

/-- The refusals of the block. A refusal of the manual (R15) is a code in a register or a record, and the
block goes on. -/
inductive Refusal where
  /-- Raised by a dispatch arm whose command has no meaning yet. Safe: the model stops where the part goes on. -/
  | notModelled (mnemonic : String)
  deriving DecidableEq, Repr

end Sys2Proof.Machine
end

