-- ==== Sys2Proof/Machine/Tables.lean ====
section
/-! DEFINITION. The operations on sparse tables and on the flat byte memory. A table lists its entries in
strictly rising key order and never lists an entry equal to its default, so equal tables are equal data.
The flat memory puts each memory of the part in its own range of addresses. -/

namespace Sys2Proof.Machine

variable {α : Type}

/-- The entry at key `k`, or the default. -/
def Table.get (d : α) : Table α → Nat → α
  | [], _ => d
  | (i, a) :: t, k => if i = k then a else Table.get d t k

/-- Places an entry, keeping the order; an entry already at `k` is replaced. -/
def Table.put : Table α → Nat → α → Table α
  | [], k, a => [(k, a)]
  | (i, b) :: t, k, a => if i = k then (k, a) :: t else if k < i then (k, a) :: (i, b) :: t else (i, b) :: Table.put t k a

/-- Drops the entry at key `k`. -/
def Table.del : Table α → Nat → Table α
  | [], _ => []
  | (i, b) :: t, k => if i = k then Table.del t k else (i, b) :: Table.del t k

/-- Writes `a` at key `k`; writing the default removes the entry. -/
def Table.set [DecidableEq α] (d : α) (t : Table α) (k : Nat) (a : α) : Table α :=
  if a = d then Table.del t k else Table.put t k a

/-- Changes the entry at key `k` by a function. -/
def Table.upd [DecidableEq α] (d : α) (t : Table α) (k : Nat) (f : α → α) : Table α :=
  Table.set d t k (f (Table.get d t k))

/-- The canonical form for a default that depends on the key: strictly rising keys, no entry equal to its
default. -/
def Table.wfBy [DecidableEq α] (d : Nat → α) : Table α → Bool
  | [] => true
  | [(i, a)] => a != d i
  | (i, a) :: (j, b) :: t => decide (i < j) && a != d i && Table.wfBy d ((j, b) :: t)

/-- The canonical form: strictly rising keys, no entry equal to the default. -/
def Table.wf [DecidableEq α] (d : α) (t : Table α) : Bool := Table.wfBy (fun _ => d) t

/-- What a byte that nothing has written reads as. DESIGN CHOICE (log entry 1): the manual gives no contents
for a memory before its first write. -/
def unwritten : Byte := 0

/-- One byte of the flat memory. -/
def readByte (m : List Host.Cell) (a : Nat) : Byte := Table.get unwritten m a

/-- Writes one byte of the flat memory, in canonical form. -/
def writeByte (m : List Host.Cell) (a : Nat) (b : Byte) : List Host.Cell := Table.set unwritten m a b

/-- `n` bytes from address `a` up. -/
def readBytes (m : List Host.Cell) (a n : Nat) : List Byte := (List.range n).map fun i => readByte m (a + i)

/-- Writes bytes from address `a` up. -/
def writeBytes (m : List Host.Cell) : Nat → List Byte → List Host.Cell
  | _, [] => m
  | a, b :: bs => writeBytes (writeByte m a b) (a + 1) bs

/-- The canonical form of the flat memory. -/
def Memory.wf (m : List Host.Cell) : Bool := Table.wf unwritten m

/-! ## The ranges of the flat space -/

/-- Scratchpad of stope `s` (R169): 1 MiB each. -/
def spBase (s : Nat) : Nat := 2 ^ 64 + s * 0x100000

/-- Core memory of merge core `m` (R179): 2 MiB each. -/
def coreMemBase (m : Nat) : Nat := 2 * 2 ^ 64 + m * 0x200000

/-- Operand buffer `b` of merge core `m`: 16 KiB each. -/
def obBase (m b : Nat) : Nat := 3 * 2 ^ 64 + m * 0x10000 + b * 0x4000

/-- The shared pool: 64 MiB (R180). -/
def poolBase : Nat := 4 * 2 ^ 64

/-- KV stack `k`: page number `p` at 32 KiB each (R200). -/
def kvBase (k p : Nat) : Nat := 5 * 2 ^ 64 + k * 2 ^ 36 + p * 0x8000

/-- Host memory of the module's functions. -/
def hostBase : Nat := 6 * 2 ^ 64

/-- The place of a spill or park copy with handle `h` (R223): 34 KiB each, in the vault's park area or at the storage endpoint. -/
def cageBase (h : Nat) : Nat := 7 * 2 ^ 64 + h * 0x8800

/-- The log ring of the headframe is a list of the state; storage endpoints' own memory starts here. -/
def storeBase : Nat := 8 * 2 ^ 64

end Sys2Proof.Machine
end

