-- ==== Sys2Proof/Machine/Mesh.lean ====
section
/-! DEFINITION. The two meshes (R31, R32, R36 to R38): the header of a packet and the flits of a message, dimension-ordered routes, the
packet buffers of router inputs, and one flit slot of every router output. -/

namespace Sys2Proof.Machine

/-! ## Packets and messages on the wire (R29, R36) -/

/-- The flits of a packet with `n` payload bytes (R29). -/
def packetFlits (n : Nat) : Nat := max 1 (cdiv (16 + n) 64)

/-- The 16-byte header of a packet, as one number with bit 0 the least significant (R29). The RSV bits [31:30] and [47] are 0. -/
def packetHeader (m : Packet) : Nat :=
  m.dest % 0x1000 + 2 ^ 12 * (m.src % 0x1000) + 2 ^ 24 * (m.vc % 4) + 2 ^ 26 * (m.region % 16) + 2 ^ 32 * (m.bytes % 256) +
    2 ^ 40 * (m.opcode % 128) + 2 ^ 48 * (m.timeHint % 0x10000) + 2 ^ 64 * (m.addr % 2 ^ 64)

/-- The packet that a header and a payload spell, from a device; BYTES bytes of payload travel (R29). -/
def packetOf (h : Nat) (payload : List Byte) (device : Nat) : Packet :=
  { dest := bitsOf h 11 0, src := bitsOf h 23 12, vc := bitsOf h 25 24, region := bitsOf h 29 26, bytes := bitsOf h 39 32,
    opcode := bitsOf h 46 40, timeHint := bitsOf h 63 48, addr := bitsOf h 127 64, payload := padTo (bitsOf h 39 32) (payload.take (bitsOf h 39 32)),
    device := device }

/-- The 2 to 4 flits of a control message: header, source, and ARGS arguments; the RSV bits are 0 (R36). -/
def ctlWords (m : CtlMsg) : List Word :=
  [BitVec.ofNat 32 (m.dest % 0x1000 + 2 ^ 22 * (m.args % 4) + 2 ^ 24 * (m.region % 16) + 2 ^ 28 * (m.typ % 16)),
   BitVec.ofNat 32 (m.timeHint % 0x10000 + 2 ^ 20 * (m.src % 0x1000))] ++ [m.arg0, m.arg1].take m.args

/-- The priority level of a message's TYPE (R37): 0 for CANCEL, FENCE_SET, FENCE_CLEAR and FAULT_NOTICE. -/
def ctlLevel (m : CtlMsg) : Nat := if 4 ≤ m.typ ∧ m.typ ≤ 7 then 0 else 1

/-! ## Routes (R18, R32)

A router's ports are 0 the stope, 1 north, 2 east, 3 south, 4 west, 5 the rim, 6 a slice of a stack's interface, 7 a merge core and 8 a
Pelig port (R18). -/

/-- The output by which a packet leaves a router on its way to a port of another: x first, then y (R32). -/
def routeOut (router exit out : Nat) : Nat :=
  if router % 16 < exit % 16 then 2 else if exit % 16 < router % 16 then 4
  else if router / 16 < exit / 16 then 3 else if exit / 16 < router / 16 then 1 else out

/-- The router and the input that a mesh output leads to. -/
def nextHop (router out : Nat) : Nat × Nat :=
  match out with
  | 1 => (router - 16, 3)
  | 2 => (router + 1, 4)
  | 3 => (router + 16, 1)
  | _ => (router - 1, 2)

/-- Whether an output leads to another router. -/
def isMeshPort (out : Nat) : Bool := 1 ≤ out && out ≤ 4

/-! ## Buffers (R32) -/

def Buf.out (b : Buf) : Nat := routeOut b.router b.worm.exit b.worm.out

/-- Whether two entries stand at the same input and channel. -/
def Buf.sameInput (a b : Buf) : Bool := a.router == b.router && a.port == b.port && a.worm.chan == b.worm.chan

/-- A packet or message stands whole at its source, behind what waits there (R33, R38). -/
def Mesh.enter (m : Mesh) (router port : Nat) (w : Worm) : Mesh :=
  { m with next := m.next + 1,
           bufs := m.bufs ++ [{ router := router, port := port, worm := { w with id := m.next }, arrived := w.flits, gone := 0 }] }

/-- The first entry of each input and channel is the one in its packet buffer (R32); of the messages of level 0 of one source to one
destination only the oldest travels (R38). -/
def Mesh.heads (m : Mesh) : List Buf :=
  m.bufs.filter fun b =>
    ((m.bufs.find? fun x => x.sameInput b) == some b) &&
    !(b.worm.msg.isSome && b.worm.chan == 0 && m.bufs.any fun x =>
        x.worm.msg.isSome && x.worm.chan == 0 && x.worm.src == b.worm.src && x.worm.dest == b.worm.dest && decide (x.worm.id < b.worm.id))

/-- Whether the next router can take a flit: its buffer is free, or holds this packet's earlier flits (R32). A port out of the mesh takes
it at once. -/
def Mesh.room (m : Mesh) (b : Buf) : Bool :=
  !(isMeshPort b.out) ||
    (let (r, p) := nextHop b.router b.out
     m.bufs.all fun x => !(x.router == r && x.port == p && x.worm.chan == b.worm.chan) || x.worm.id == b.worm.id)

/-- The entries that have a flit ready for an output with room for it. -/
def Mesh.ready (m : Mesh) (router out : Nat) : List Buf :=
  m.heads.filter fun b => b.router == router && b.out == out && decide (b.gone < b.arrived) && m.room b

/-! ## Arbitration (R31, R38) -/

def assoc (l : List (Nat × Nat)) (k d : Nat) : Nat := ((l.find? fun p => p.1 == k).map (·.2)).getD d
def setAssoc (l : List (Nat × Nat)) (k v : Nat) : List (Nat × Nat) := (l.filter fun p => p.1 != k) ++ [(k, v)]

/-- The first of a list of numbers that comes after `after` in turn, of `n` numbers. -/
def nextTurn (n after : Nat) (l : List Nat) : Option Nat :=
  ((List.range n).map fun i => (after + 1 + i) % n).find? fun k => l.contains k

/-- The entry of a channel that an output serves: the packet whose turn it is until its last flit has gone, then the next input in
round-robin order (R31). A turn whose packet has no flit ready now gives the slot to no other packet of the channel. -/
def Arb.serve (a : Arb) (chan : Nat) (l : List Buf) : Option Buf :=
  let mine := l.filter fun b => b.worm.chan == chan
  match a.turn.find? fun p => p.1 == chan with
  | some p => mine.find? fun b => b.worm.id == p.2
  | none => (nextTurn 9 (assoc a.last chan 8) (mine.map (·.port))).bind fun i => mine.find? fun b => b.port == i

/-- The channel that has the slot, among those with a flit ready, ascending: the highest, but after `limit` slots that passed over a lower
one, the next of the lower ones in turn (R31, R38). -/
def Arb.choose (a : Arb) (limit : Nat) (chans : List Nat) : Option Nat :=
  match chans with
  | [] => none
  | [c] => some c
  | c :: low => if limit ≤ a.passed then nextTurn 4 a.low low else some c

/-- The arbitration after a slot in which an entry was served. -/
def Arb.served (a : Arb) (chans : List Nat) (b : Buf) : Arb :=
  let lower := chans.any fun c => b.worm.chan < c
  let given := chans.any fun c => c < b.worm.chan
  { last := setAssoc a.last b.worm.chan b.port,
    turn := if b.gone + 1 = b.worm.flits then a.turn.filter fun p => p.1 != b.worm.chan else setAssoc a.turn b.worm.chan b.worm.id,
    passed := if lower && !given then a.passed + 1 else 0,
    low := if given then b.worm.chan else a.low }

/-- One flit slot of one output: the entry it serves, and its arbitration afterwards. -/
def Mesh.slotAt (m : Mesh) (limit router out : Nat) : Option (Buf × Arb) :=
  let a := Table.get Arb.reset m.arbs (16 * router + out)
  let l := m.ready router out
  let chans := (List.range 4).filter fun c => (a.serve c l).isSome
  (a.choose limit chans).bind fun c => (a.serve c l).map fun b => (b, a.served chans b)

/-- One flit of an entry goes on: the entry ends with its last flit, and the next router's buffer takes the flit. -/
def Mesh.move (m : Mesh) (b : Buf) : Mesh :=
  let left := m.bufs.filterMap fun x =>
    if x.router = b.router ∧ x.port = b.port ∧ x.worm.id = b.worm.id then (if b.gone + 1 = b.worm.flits then none else some { x with gone := x.gone + 1 }) else some x
  if isMeshPort b.out then
    let (r, p) := nextHop b.router b.out
    if left.any fun x => x.router == r && x.port == p && x.worm.id == b.worm.id then
      { m with bufs := left.map fun x =>
          if x.router == r && x.port == p && x.worm.id == b.worm.id then { x with arrived := x.arrived + 1 } else x }
    else { m with bufs := left ++ [{ router := r, port := p, worm := b.worm, arrived := 1, gone := 0 }] }
  else { m with bufs := left }

/-- The outputs that some entry waits for. -/
def Mesh.outputs (m : Mesh) : List (Nat × Nat) := (m.bufs.map fun b => (b.router, b.out)).dedup

/-- One flit slot of the whole mesh: every output decides on the buffers as the slot finds them, and one flit of each goes on. -/
def Mesh.slot (m : Mesh) (limit : Nat) : Mesh :=
  let moves := m.outputs.filterMap fun o => (m.slotAt limit o.1 o.2).map fun x => (o, x)
  moves.foldl (fun n x =>
    { n with arbs := Table.set Arb.reset n.arbs (16 * x.1.1 + x.1.2) x.2.2 }.move (x.2.1)) m

/-- Whether a packet of a source, destination and channel is still in the mesh. -/
def Mesh.carries (m : Mesh) (src dest chan : Nat) : Bool :=
  m.bufs.any fun b => b.worm.msg.isNone && b.worm.src == src && b.worm.dest == dest && b.worm.chan == chan

/-- The copies of a message that are still in the mesh. -/
def Mesh.copies (m : Mesh) (x : CtlMsg) : Nat := ((m.bufs.filter fun b => b.worm.msg == some x).map (·.worm.id)).dedup.length

end Sys2Proof.Machine
end

