-- ==== Sys2Proof/Machine/RegMap.lean ====
section
/-! DEFINITION. The register map: the pages of R454, the registers of every page's table with their reset
values, their writable fields and the values those fields take (R7, R10), and a name for every register's
BAR0 offset. A register without writable fields is RO or WO. -/

namespace Sys2Proof.Machine

/-- The pages of R454. -/
inductive Page where

  | dir
  | dev
  | hf
  | th
  | pwr
  | tally
  | assay
  | time
  | noc
  | wnd
  | ring
  | smp
  | kvp
  | pfx
  | vault
  | swap
  | coll
  | window
  | adit
  | pelig
  | merge
  | stack
  | sw
  | mw
  | shell
  | plan
  | cal
  | check
  deriving DecidableEq, Repr

/-- Access codes of fields that a write concerns (R7). -/
inductive Acc where
  | rw | w1c | w1s
  deriving DecidableEq, Repr

/-- The values a field takes: any; a range outside which the value is reserved; a range outside which it is
reserved for a later generation, so that RG_WRITE sets (R10); a power of two in a range; a multiple up to a
limit. -/
inductive Chk where
  | any
  | range (lo hi : Nat)
  | rangeRg (lo hi : Nat)
  | pow2 (lo hi : Nat)
  | mult (k hi : Nat)
  deriving DecidableEq, Repr

/-- A field of a register: bits [hi:lo]. -/
structure Field where
  hi : Nat
  lo : Nat
  acc : Acc
  chk : Chk
  deriving DecidableEq, Repr

/-- A register row: offset in its page, instances and stride, inner instances and stride, reset value,
whether the reset value belongs to instance 0 alone, and the writable fields. -/
structure RegRow where
  off : Nat
  count : Nat
  stride : Nat
  inner : Nat
  step : Nat
  reset : Word
  firstOnly : Bool
  fields : List Field
  deriving DecidableEq, Repr

/-- Block type of R454. -/
def Page.typ : Page → Nat

  | .dir => 1
  | .dev => 2
  | .hf => 3
  | .th => 4
  | .pwr => 5
  | .tally => 6
  | .assay => 7
  | .time => 8
  | .noc => 9
  | .wnd => 10
  | .ring => 11
  | .smp => 12
  | .kvp => 13
  | .pfx => 14
  | .vault => 15
  | .swap => 16
  | .coll => 17
  | .window => 18
  | .adit => 19
  | .pelig => 20
  | .merge => 21
  | .stack => 22
  | .sw => 23
  | .mw => 24
  | .shell => 25
  | .plan => 26
  | .cal => 27
  | .check => 28

def dirPage : Nat := 0x0000
def devPage : Nat := 0x1000
def hfPage : Nat := 0x2000
def thPage : Nat := 0x3000
def pwrPage : Nat := 0x4000
def tallyPage : Nat := 0x5000
def assayPage : Nat := 0x6000
def timePage : Nat := 0x7000
def nocPage : Nat := 0x8000
def wndPage : Nat := 0x9000
def ringPage : Nat := 0xA000
def smpPage : Nat := 0xB000
def kvpPage : Nat := 0xC000
def pfxPage : Nat := 0xD000
def vaultPage : Nat := 0xE000
def swapPage : Nat := 0xF000
def collPage : Nat := 0x10000
def windowPage : Nat := 0x11000
def aditPage : Nat := 0x12000
def peligPage (i : Nat) : Nat := 0x18000 + i * 0x1000
def mergePage (i : Nat) : Nat := 0x30000 + i * 0x1000
def stackPage (i : Nat) : Nat := 0x40000 + i * 0x1000
def swPage : Nat := 0x50000
def mwPage : Nat := 0x51000
def shellPage (i : Nat) : Nat := 0x100000 + i * 0x4000
def planPage (i : Nat) : Nat := 0x101000 + i * 0x4000
def calPage (i : Nat) : Nat := 0x102000 + i * 0x4000
def checkPage (i : Nat) : Nat := 0x103000 + i * 0x4000

def planCtrl (i : Nat) : Nat := planPage i + 0x100
def planStatus (i : Nat) : Nat := planPage i + 0x104
def planRefuse (i : Nat) : Nat := planPage i + 0x108
def planTintFloorLo (i : Nat) : Nat := planPage i + 0x10C
def planTintFloorHi (i : Nat) : Nat := planPage i + 0x110
def planRefIdle (i : Nat) : Nat := planPage i + 0x114
def planPrewarmLead (i : Nat) : Nat := planPage i + 0x118
def planConvCountLo (i : Nat) : Nat := planPage i + 0x120
def planConvCountHi (i : Nat) : Nat := planPage i + 0x124
def planStallNsLo (i : Nat) : Nat := planPage i + 0x128
def planStallNsHi (i : Nat) : Nat := planPage i + 0x12C
def planCarryBreakCountLo (i : Nat) : Nat := planPage i + 0x130
def planCarryBreakCountHi (i : Nat) : Nat := planPage i + 0x134
def planSatCountLo (i : Nat) : Nat := planPage i + 0x138
def planSatCountHi (i : Nat) : Nat := planPage i + 0x13C
def planRefColdCount (i : Nat) : Nat := planPage i + 0x140
def planTintRaisedCount (i : Nat) : Nat := planPage i + 0x144
def planPrewarmMissCount (i : Nat) : Nat := planPage i + 0x148
def planSlotHdr (i n : Nat) : Nat := planPage i + 0x400 + n * 128
def planSlotState (i n : Nat) : Nat := planPage i + 0x404 + n * 128
def planEntry (i n e : Nat) : Nat := planPage i + 0x410 + n * 128 + e * 4
def calCmd (i : Nat) : Nat := calPage i + 0x100
def calStatus (i : Nat) : Nat := calPage i + 0x104
def calGains (i : Nat) : Nat := calPage i + 0x108
def calFs (i : Nat) : Nat := calPage i + 0x10C
def calLastLo (i : Nat) : Nat := calPage i + 0x110
def calLastHi (i : Nat) : Nat := calPage i + 0x114
def calTemp (i : Nat) : Nat := calPage i + 0x118
def calDefer (i : Nat) : Nat := calPage i + 0x11C
def calCount (i : Nat) : Nat := calPage i + 0x120
def calRangeCount (i : Nat) : Nat := calPage i + 0x124
def calNoiseA (i n : Nat) : Nat := calPage i + 0x140 + n * 4
def calCoefIndex (i : Nat) : Nat := calPage i + 0x180
def calCoefData (i : Nat) : Nat := calPage i + 0x184
def shellCtrl (i : Nat) : Nat := shellPage i + 0x100
def shellStatus (i : Nat) : Nat := shellPage i + 0x104
def shellPace (i : Nat) : Nat := shellPage i + 0x108
def shellSpProt (i : Nat) : Nat := shellPage i + 0x10C
def shellLastFault (i : Nat) : Nat := shellPage i + 0x110
def shellLastRefuse (i : Nat) : Nat := shellPage i + 0x114
def shellNormEps (i : Nat) : Nat := shellPage i + 0x118
def shellCeCount (i : Nat) : Nat := shellPage i + 0x120
def shellCheckbitCount (i : Nat) : Nat := shellPage i + 0x124
def shellUeCount (i : Nat) : Nat := shellPage i + 0x128
def shellParityCount (i : Nat) : Nat := shellPage i + 0x12C
def shellStepRerunCount (i : Nat) : Nat := shellPage i + 0x130
def shellSpareUsed (i : Nat) : Nat := shellPage i + 0x134
def shellScrubLastLo (i : Nat) : Nat := shellPage i + 0x138
def shellScrubLastHi (i : Nat) : Nat := shellPage i + 0x13C
def shellWinRefusedCount (i : Nat) : Nat := shellPage i + 0x140
def shellWinExpiredCount (i : Nat) : Nat := shellPage i + 0x144
def shellSatCount (i : Nat) : Nat := shellPage i + 0x148
def shellDescCountLo (i : Nat) : Nat := shellPage i + 0x150
def shellDescCountHi (i : Nat) : Nat := shellPage i + 0x154
def shellRedgrp (i n : Nat) : Nat := shellPage i + 0x180 + n * 4
def shellCounter (i n : Nat) : Nat := shellPage i + 0x200 + n * 4
def shellCounterOvf (i : Nat) : Nat := shellPage i + 0x280
def mergeCtrl (i : Nat) : Nat := mergePage i + 0x100
def mergeStatus (i : Nat) : Nat := mergePage i + 0x104
def mergeCoreProt (i : Nat) : Nat := mergePage i + 0x10C
def mergePoolGrantLo (i : Nat) : Nat := mergePage i + 0x158
def mergePoolGrantHi (i : Nat) : Nat := mergePage i + 0x15C
def mergePoolProtLo (i : Nat) : Nat := mergePage i + 0x160
def mergePoolProtHi (i : Nat) : Nat := mergePage i + 0x164
def mergePoolRoLo (i : Nat) : Nat := mergePage i + 0x168
def mergePoolRoHi (i : Nat) : Nat := mergePage i + 0x16C
def mergeCheckRepairedCount (i : Nat) : Nat := mergePage i + 0x170
def mergePoolSpareUsed (i : Nat) : Nat := mergePage i + 0x174
def stackCtrl (i : Nat) : Nat := stackPage i + 0x100
def stackStatus (i : Nat) : Nat := stackPage i + 0x104
def stackPcFail (i : Nat) : Nat := stackPage i + 0x108
def stackPcFence (i : Nat) : Nat := stackPage i + 0x10C
def stackFramesFree (i : Nat) : Nat := stackPage i + 0x110
def stackLastFault (i : Nat) : Nat := stackPage i + 0x114
def stackCmdCountLo (i : Nat) : Nat := stackPage i + 0x120
def stackCmdCountHi (i : Nat) : Nat := stackPage i + 0x124
def stackPagesReadLo (i : Nat) : Nat := stackPage i + 0x128
def stackPagesReadHi (i : Nat) : Nat := stackPage i + 0x12C
def stackCeCount (i : Nat) : Nat := stackPage i + 0x130
def stackUeCount (i : Nat) : Nat := stackPage i + 0x134
def stackTemp (i : Nat) : Nat := stackPage i + 0x138
def stackPcCeHour (i n : Nat) : Nat := stackPage i + 0x180 + n * 4
def kvpCtrl : Nat := kvpPage + 0x100
def kvpStatus : Nat := kvpPage + 0x104
def kvpFramesTotal : Nat := kvpPage + 0x108
def kvpFramesFree : Nat := kvpPage + 0x10C
def kvpFramesShared : Nat := kvpPage + 0x110
def kvpLowWater : Nat := kvpPage + 0x114
def kvpHighWater : Nat := kvpPage + 0x118
def kvpLastRefuse : Nat := kvpPage + 0x11C
def kvpCowCountLo : Nat := kvpPage + 0x120
def kvpCowCountHi : Nat := kvpPage + 0x124
def kvpAllocFailCount : Nat := kvpPage + 0x128
def kvpSpillCount : Nat := kvpPage + 0x12C
def kvpReloadCount : Nat := kvpPage + 0x130
def kvpPosmapSel : Nat := kvpPage + 0x140
def kvpPosmapData0 : Nat := kvpPage + 0x144
def kvpPosmapData1 : Nat := kvpPage + 0x148
def kvpPosmapData2 : Nat := kvpPage + 0x14C
def kvpPosmapCmd : Nat := kvpPage + 0x150
def kvpRopeDefBase : Nat := kvpPage + 0x158
def kvpRopeDefDims : Nat := kvpPage + 0x15C
def pfxCtrl : Nat := pfxPage + 0x100
def pfxStatus : Nat := pfxPage + 0x104
def pfxNodeFrames : Nat := pfxPage + 0x108
def pfxNodesUsed : Nat := pfxPage + 0x10C
def pfxGenALo : Nat := pfxPage + 0x110
def pfxGenAHi : Nat := pfxPage + 0x114
def pfxGenBLo : Nat := pfxPage + 0x118
def pfxGenBHi : Nat := pfxPage + 0x11C
def pfxHitBlocksLo : Nat := pfxPage + 0x120
def pfxHitBlocksHi : Nat := pfxPage + 0x124
def pfxMissBlocksLo : Nat := pfxPage + 0x128
def pfxMissBlocksHi : Nat := pfxPage + 0x12C
def pfxCollisionCount : Nat := pfxPage + 0x130
def pfxEvictCount : Nat := pfxPage + 0x134
def pfxInsertSkipCount : Nat := pfxPage + 0x138
def pfxLastRefuse : Nat := pfxPage + 0x13C
def pfxNodeSel : Nat := pfxPage + 0x140
def pfxNodeInfo : Nat := pfxPage + 0x144
def pfxNodeParent : Nat := pfxPage + 0x148
def pfxNodeCmd : Nat := pfxPage + 0x14C
def pfxNodeFind : Nat := pfxPage + 0x150
def pfxPinnedCount : Nat := pfxPage + 0x154
def wndCtrl : Nat := wndPage + 0x100
def wndStatus : Nat := wndPage + 0x104
def wndJob : Nat := wndPage + 0x108
def wndIngressDev : Nat := wndPage + 0x10C
def wndSamplerDev : Nat := wndPage + 0x110
def wndRiskNs : Nat := wndPage + 0x114
def wndPadm : Nat := wndPage + 0x118
def wndKvpPartner : Nat := wndPage + 0x11C
def wndKvpCtrl : Nat := wndPage + 0x120
def wndStoreEp : Nat := wndPage + 0x124
def wndLastRefuse : Nat := wndPage + 0x128
def wndIssuedLo : Nat := wndPage + 0x130
def wndIssuedHi : Nat := wndPage + 0x134
def wndDemotedCount : Nat := wndPage + 0x138
def wndWheldCount : Nat := wndPage + 0x13C
def wndRiskCount : Nat := wndPage + 0x140
def wndMissCount : Nat := wndPage + 0x144
def wndEnergyHoldNsLo : Nat := wndPage + 0x148
def wndEnergyHoldNsHi : Nat := wndPage + 0x14C
def wndCustSel : Nat := wndPage + 0x150
def wndCustTokensLo : Nat := wndPage + 0x154
def wndCustTokensHi : Nat := wndPage + 0x158
def wndCustEnergyLo : Nat := wndPage + 0x15C
def wndCustEnergyHi : Nat := wndPage + 0x160
def wndClassState (n : Nat) : Nat := wndPage + 0x200 + n * 16
def wndClassBound (n : Nat) : Nat := wndPage + 0x204 + n * 16
def wndClassFtBound (n : Nat) : Nat := wndPage + 0x208 + n * 16
def wndClassOpen (n : Nat) : Nat := wndPage + 0x20C + n * 16
def swSel : Nat := swPage + 0x100
def swState : Nat := swPage + 0x104
def swRingLo : Nat := swPage + 0x108
def swRingHi : Nat := swPage + 0x10C
def swRingCfg : Nat := swPage + 0x110
def swRingIdx : Nat := swPage + 0x114
def swCommittedLo : Nat := swPage + 0x118
def swCommittedHi : Nat := swPage + 0x11C
def swBudget : Nat := swPage + 0x120
def swWork : Nat := swPage + 0x124
def swGenLo : Nat := swPage + 0x128
def swGenHi : Nat := swPage + 0x12C
def swDeadlineLo : Nat := swPage + 0x130
def swDeadlineHi : Nat := swPage + 0x134
def swParkDigest (n : Nat) : Nat := swPage + 0x140 + n * 4
def swParkLocLo : Nat := swPage + 0x160
def swParkLocHi : Nat := swPage + 0x164
def ringDb : Nat := ringPage + 0x100
def ringReset : Nat := ringPage + 0x104
def ringCtrlRingLo : Nat := ringPage + 0x108
def ringCtrlRingHi : Nat := ringPage + 0x10C
def ringCtrlRingCfg : Nat := ringPage + 0x110
def ringCtrlRingIdx : Nat := ringPage + 0x114
def ringEvrSel : Nat := ringPage + 0x118
def ringEvrBaseLo : Nat := ringPage + 0x11C
def ringEvrBaseHi : Nat := ringPage + 0x120
def ringEvrCfg : Nat := ringPage + 0x124
def ringEvrMod : Nat := ringPage + 0x128
def ringEvrHead : Nat := ringPage + 0x12C
def ringEvrTail : Nat := ringPage + 0x130
def ringEvrReset : Nat := ringPage + 0x134
def ringEvrHeld : Nat := ringPage + 0x138
def ringItemCountLo : Nat := ringPage + 0x140
def ringItemCountHi : Nat := ringPage + 0x144
def ringItemDiscardCount : Nat := ringPage + 0x148
def ringEvtDiscardCount : Nat := ringPage + 0x14C
def ringLastRefuse : Nat := ringPage + 0x150
def ringModEvr : Nat := ringPage + 0x154
def smpCtrl : Nat := smpPage + 0x100
def smpStatus : Nat := smpPage + 0x104
def smpVocab : Nat := smpPage + 0x108
def smpSampledLo : Nat := smpPage + 0x10C
def smpSampledHi : Nat := smpPage + 0x110
def smpGreedyCount : Nat := smpPage + 0x114
def smpStopCount : Nat := smpPage + 0x118
def smpMaskEmptyCount : Nat := smpPage + 0x11C
def smpMaskWaitNsLo : Nat := smpPage + 0x120
def smpMaskWaitNsHi : Nat := smpPage + 0x124
def smpLastFault : Nat := smpPage + 0x128
def vaultCtrl : Nat := vaultPage + 0x100
def vaultStatus : Nat := vaultPage + 0x104
def vaultSlotSel : Nat := vaultPage + 0x108
def vaultSlotInfo : Nat := vaultPage + 0x10C
def vaultSlotGenLo : Nat := vaultPage + 0x110
def vaultSlotGenHi : Nat := vaultPage + 0x114
def vaultSlotDigest (n : Nat) : Nat := vaultPage + 0x120 + n * 4
def vaultParkBudget : Nat := vaultPage + 0x140
def vaultParkBudgetMax : Nat := vaultPage + 0x144
def vaultParkUsedLo : Nat := vaultPage + 0x148
def vaultParkUsedHi : Nat := vaultPage + 0x14C
def vaultWrittenLo : Nat := vaultPage + 0x150
def vaultWrittenHi : Nat := vaultPage + 0x154
def vaultConflictCount : Nat := vaultPage + 0x158
def vaultRepairCount : Nat := vaultPage + 0x15C
def vaultLastRefuse : Nat := vaultPage + 0x160
def vaultTemp : Nat := vaultPage + 0x164
def swapCmd : Nat := swapPage + 0x100
def swapStatus : Nat := swapPage + 0x104
def swapSrcLo : Nat := swapPage + 0x108
def swapSrcHi : Nat := swapPage + 0x10C
def swapCommit : Nat := swapPage + 0x110
def swapTimeout : Nat := swapPage + 0x114
def swapTempWait : Nat := swapPage + 0x118
def swapLayers : Nat := swapPage + 0x11C
def swapExpect (n : Nat) : Nat := swapPage + 0x120 + n * 4
def swapBankGenALo : Nat := swapPage + 0x140
def swapBankGenAHi : Nat := swapPage + 0x144
def swapBankGenBLo : Nat := swapPage + 0x148
def swapBankGenBHi : Nat := swapPage + 0x14C
def swapCyclesAMax : Nat := swapPage + 0x150
def swapCyclesBMax : Nat := swapPage + 0x154
def swapCount : Nat := swapPage + 0x158
def swapRollbackCount : Nat := swapPage + 0x15C
def swapLastRefuse : Nat := swapPage + 0x160
def checkCtrl (i : Nat) : Nat := checkPage i + 0x100
def checkSpareMap (i : Nat) : Nat := checkPage i + 0x104
def checkTauMult (i : Nat) : Nat := checkPage i + 0x108
def checkCanaryMargin (i : Nat) : Nat := checkPage i + 0x10C
def checkCanarySel (i : Nat) : Nat := checkPage i + 0x110
def checkCanaryData (i : Nat) : Nat := checkPage i + 0x114
def checkMismatchCount (i : Nat) : Nat := checkPage i + 0x120
def checkSkipCount (i : Nat) : Nat := checkPage i + 0x124
def checkCanaryRangeCount (i : Nat) : Nat := checkPage i + 0x128
def checkCanaryStatsCount (i : Nat) : Nat := checkPage i + 0x12C
def checkCanaryNanCount (i : Nat) : Nat := checkPage i + 0x130
def checkSuspectElemCount (i : Nat) : Nat := checkPage i + 0x134
def checkSeamState (i n : Nat) : Nat := checkPage i + 0x140 + n * 4
def checkTauLast (i n : Nat) : Nat := checkPage i + 0x150 + n * 4
def assayCtrl : Nat := assayPage + 0x100
def assayStatus : Nat := assayPage + 0x104
def assayPeriod : Nat := assayPage + 0x108
def assayXcheckPeriod : Nat := assayPage + 0x10C
def assayDefer : Nat := assayPage + 0x110
def assayMult : Nat := assayPage + 0x114
def assayWatchMargin : Nat := assayPage + 0x118
def assayCmd : Nat := assayPage + 0x11C
def assayUnit : Nat := assayPage + 0x120
def assayResult : Nat := assayPage + 0x124
def assayPassCountLo : Nat := assayPage + 0x128
def assayPassCountHi : Nat := assayPage + 0x12C
def assayFailCount : Nat := assayPage + 0x130
def assayRetryPassCount : Nat := assayPage + 0x134
def assayForcedCount : Nat := assayPage + 0x138
def assayLastFault : Nat := assayPage + 0x13C
def tallyCtrl : Nat := tallyPage + 0x100
def tallyStatus : Nat := tallyPage + 0x104
def tallySeqLo : Nat := tallyPage + 0x108
def tallySeqHi : Nat := tallyPage + 0x10C
def tallyEntriesUsed : Nat := tallyPage + 0x110
def tallyPermUnits : Nat := tallyPage + 0x114
def tallySel : Nat := tallyPage + 0x118
def tallyFind : Nat := tallyPage + 0x11C
def tallyData (n : Nat) : Nat := tallyPage + 0x120 + n * 4
def tallyAlarmCountLo : Nat := tallyPage + 0x140
def tallyAlarmCountHi : Nat := tallyPage + 0x144
def tallyAlarmCoalescedCount : Nat := tallyPage + 0x148
def tallyLogOverwriteCount : Nat := tallyPage + 0x14C
def tallyTraceDropCount : Nat := tallyPage + 0x150
def tallyCoalescedCount : Nat := tallyPage + 0x154
def tallyLogFill : Nat := tallyPage + 0x158
def tallyHostLogEn : Nat := tallyPage + 0x15C
def peligCtrl (i : Nat) : Nat := peligPage i + 0x100
def peligStatus (i : Nat) : Nat := peligPage i + 0x104
def peligPeerDev (i : Nat) : Nat := peligPage i + 0x108
def peligRttNs (i : Nat) : Nat := peligPage i + 0x10C
def peligLaneMargin (i : Nat) : Nat := peligPage i + 0x110
def peligUnacked (i : Nat) : Nat := peligPage i + 0x114
def peligLastRefuse (i : Nat) : Nat := peligPage i + 0x118
def peligFlitsTxLo (i : Nat) : Nat := peligPage i + 0x120
def peligFlitsTxHi (i : Nat) : Nat := peligPage i + 0x124
def peligFlitsRxLo (i : Nat) : Nat := peligPage i + 0x128
def peligFlitsRxHi (i : Nat) : Nat := peligPage i + 0x12C
def peligCrcErrCount (i : Nat) : Nat := peligPage i + 0x130
def peligReplayCount (i : Nat) : Nat := peligPage i + 0x134
def peligFecUncorrCount (i : Nat) : Nat := peligPage i + 0x138
def peligLinkDownCount (i : Nat) : Nat := peligPage i + 0x13C
def peligDegradeCount (i : Nat) : Nat := peligPage i + 0x140
def peligDiscardCount (i : Nat) : Nat := peligPage i + 0x144
def aditSel : Nat := aditPage + 0x100
def aditKind : Nat := aditPage + 0x104
def aditPeer : Nat := aditPage + 0x108
def aditRouteA : Nat := aditPage + 0x10C
def aditRouteB : Nat := aditPage + 0x110
def aditCmd : Nat := aditPage + 0x114
def aditState : Nat := aditPage + 0x118
def aditBoundANs : Nat := aditPage + 0x11C
def aditBoundBNs : Nat := aditPage + 0x120
def aditE2eOut : Nat := aditPage + 0x124
def aditLastRefuse : Nat := aditPage + 0x128
def aditAditsUsed : Nat := aditPage + 0x12C
def aditSwitchCount : Nat := aditPage + 0x130
def aditDupDiscardCount : Nat := aditPage + 0x134
def aditPathFailCount : Nat := aditPage + 0x138
def collCtrl : Nat := collPage + 0x100
def collStatus : Nat := collPage + 0x104
def collChunkTo : Nat := collPage + 0x108
def collGrpSel : Nat := collPage + 0x10C
def collGrpData0 : Nat := collPage + 0x110
def collGrpData1 : Nat := collPage + 0x114
def collGrpData2 : Nat := collPage + 0x118
def collGrpCmd : Nat := collPage + 0x11C
def collDoneLo : Nat := collPage + 0x120
def collDoneHi : Nat := collPage + 0x124
def collChunkResendCount : Nat := collPage + 0x128
def collDupChunkCount : Nat := collPage + 0x12C
def collMcPartialCount : Nat := collPage + 0x130
def collLastRefuse : Nat := collPage + 0x134
def windowOpen : Nat := windowPage + 0x100
def windowMcHold : Nat := windowPage + 0x104
def windowMcRetry : Nat := windowPage + 0x108
def windowHoldUsed : Nat := windowPage + 0x10C
def windowHoldNsLo : Nat := windowPage + 0x110
def windowHoldNsHi : Nat := windowPage + 0x114
def windowHoldRefuseCount : Nat := windowPage + 0x118
def windowMcRetryCount : Nat := windowPage + 0x11C
def windowQuota (n : Nat) : Nat := windowPage + 0x140 + n * 4
def hfCtrl : Nat := hfPage + 0x100
def hfStatus : Nat := hfPage + 0x104
def hfPgW : Nat := hfPage + 0x108
def hfQuanta : Nat := hfPage + 0x10C
def hfDeficit : Nat := hfPage + 0x110
def hfReserve : Nat := hfPage + 0x114
def hfClassSel : Nat := hfPage + 0x118
def hfClassCorr : Nat := hfPage + 0x11C
def hfClassMjLo : Nat := hfPage + 0x120
def hfClassMjHi : Nat := hfPage + 0x124
def hfChargedMjLo : Nat := hfPage + 0x128
def hfChargedMjHi : Nat := hfPage + 0x12C
def hfCalInt : Nat := hfPage + 0x130
def hfMpWord (n : Nat) : Nat := hfPage + 0x180 + n * 4
def thCtrl : Nat := thPage + 0x100
def thStatus : Nat := thPage + 0x104
def thTMax : Nat := thPage + 0x108
def thTInlet : Nat := thPage + 0x10C
def thNodeSel : Nat := thPage + 0x110
def thNodeTemp : Nat := thPage + 0x114
def thNodePower : Nat := thPage + 0x118
def thSensorSel : Nat := thPage + 0x11C
def thSensorData : Nat := thPage + 0x120
def thSensorInfo : Nat := thPage + 0x124
def thBrokenLo : Nat := thPage + 0x128
def thBrokenHi : Nat := thPage + 0x12C
def thRefitFactor : Nat := thPage + 0x130
def thWarnCount : Nat := thPage + 0x134
def thThrottleCount : Nat := thPage + 0x138
def thTripCount : Nat := thPage + 0x13C
def thRefitCount : Nat := thPage + 0x140
def pwrReq : Nat := pwrPage + 0x100
def pwrStatus : Nat := pwrPage + 0x104
def pwrLimit : Nat := pwrPage + 0x108
def pwrLimitEff : Nat := pwrPage + 0x10C
def pwrVcoreCtrl : Nat := pwrPage + 0x110
def pwrVcoreNow : Nat := pwrPage + 0x114
def pwrDrainTimeout : Nat := pwrPage + 0x118
def pwrBusMv : Nat := pwrPage + 0x11C
def pwrModuleW : Nat := pwrPage + 0x120
def pwrStaticW : Nat := pwrPage + 0x124
def pwrPhaseOk : Nat := pwrPage + 0x128
def pwrLastRefuse : Nat := pwrPage + 0x12C
def pwrEnergyMjLo : Nat := pwrPage + 0x130
def pwrEnergyMjHi : Nat := pwrPage + 0x134
def pwrBrownoutCount : Nat := pwrPage + 0x138
def dirCount : Nat := dirPage + 0x100
def dirSel : Nat := dirPage + 0x104
def dirEntry : Nat := dirPage + 0x108
def devId : Nat := devPage + 0x100
def devLoc : Nat := devPage + 0x104
def devStatus : Nat := devPage + 0x108
def devAbiDev : Nat := devPage + 0x10C
def devAbiHost : Nat := devPage + 0x110
def devAbiCtrl : Nat := devPage + 0x114
def devAbiSel : Nat := devPage + 0x118
def devRmvCtrl : Nat := devPage + 0x11C
def devRmvStatus : Nat := devPage + 0x120
def devSerialLo : Nat := devPage + 0x124
def devSerialHi : Nat := devPage + 0x128
def devLastRefuse : Nat := devPage + 0x12C
def devLedCtrl : Nat := devPage + 0x130
def devRingDiscardCount : Nat := devPage + 0x134
def devRingRetxCount : Nat := devPage + 0x138
def timeCtrl : Nat := timePage + 0x100
def timeStatus : Nat := timePage + 0x104
def timeNowLo : Nat := timePage + 0x108
def timeNowHi : Nat := timePage + 0x10C
def timeOffsetNs : Nat := timePage + 0x110
def timeRatePpb : Nat := timePage + 0x114
def timePathDelayNs : Nat := timePage + 0x118
def timeGmIdLo : Nat := timePage + 0x11C
def timeGmIdHi : Nat := timePage + 0x120
def timeStepCount : Nat := timePage + 0x124
def nocStatus : Nat := nocPage + 0x100
def nocLastRefuse : Nat := nocPage + 0x104
def nocDiscardCount : Nat := nocPage + 0x108
def nocViolationCount : Nat := nocPage + 0x10C
def nocCtlDiscardCount : Nat := nocPage + 0x110
def nocRegionTimeout : Nat := nocPage + 0x114
def nocGeom (n : Nat) : Nat := nocPage + 0x200 + n * 16
def nocGate (n : Nat) : Nat := nocPage + 0x204 + n * 16
def nocEdge (n : Nat) : Nat := nocPage + 0x208 + n * 16
def nocPorts (n : Nat) : Nat := nocPage + 0x20C + n * 16
def mwSel : Nat := mwPage + 0x100
def mwState : Nat := mwPage + 0x104
def mwPassesA : Nat := mwPage + 0x108
def mwPassesB : Nat := mwPage + 0x10C
def mwDrift : Nat := mwPage + 0x110

/-- Common registers of every page, by page base (R456). -/
def regPageCtrl (p : Nat) : Nat := p + 0x00C
def regErrStatus (p : Nat) : Nat := p + 0x014
def regErrMask (p : Nat) : Nat := p + 0x018
def regEvtEn (p : Nat) : Nat := p + 0x020
def regEvtStatus (p : Nat) : Nat := p + 0x024
def regOwner (p : Nat) : Nat := p + 0x028

/-- The common registers (R456, R457). PAGE_CTRL's QUIESCE and FENCE bits are kept with the networks' state;
RG fields are handled by `rgMask`. -/
def commonRows : List RegRow := [
  ⟨0x004, 1, 4, 1, 4, 0x10100000, false, []⟩,
  ⟨0x00C, 1, 4, 1, 4, 1, false, [⟨0, 0, .rw, .any⟩]⟩,
  ⟨0x014, 1, 4, 1, 4, 0, false, [⟨31, 31, .w1c, .any⟩]⟩,
  ⟨0x018, 1, 4, 1, 4, 0, false, [⟨31, 31, .rw, .any⟩]⟩,
  ⟨0x01C, 1, 4, 1, 4, 0, false, [⟨31, 31, .w1s, .any⟩]⟩,
  ⟨0x020, 1, 4, 1, 4, 0, false, [⟨0, 0, .rw, .any⟩]⟩,
  ⟨0x024, 1, 4, 1, 4, 0, false, [⟨0, 0, .w1c, .any⟩]⟩,
  ⟨0x028, 1, 4, 1, 4, 0, false, [⟨3, 0, .rw, .any⟩, ⟨8, 8, .rw, .any⟩]⟩]

/-- The registers of the DIR page. -/
def dirRows : List RegRow := [
  ⟨0x100, 1, 4, 1, 4, 0, false, []⟩,
  ⟨0x104, 1, 4, 1, 4, 0x00000000, false, [⟨11, 0, .rw, .any⟩]⟩,
  ⟨0x108, 1, 4, 1, 4, 0x00000000, false, []⟩]

/-- The registers of the DEVICE page. -/
def devRows : List RegRow := [
  ⟨0x100, 1, 4, 1, 4, 0x000FFFFD, false, []⟩,
  ⟨0x104, 1, 4, 1, 4, 0x00000000, false, []⟩,
  ⟨0x108, 1, 4, 1, 4, 0x00000000, false, []⟩,
  ⟨0x10C, 1, 4, 1, 4, 0x00000101, false, []⟩,
  ⟨0x110, 1, 4, 1, 4, 0x00000000, false, [⟨7, 0, .rw, .any⟩, ⟨15, 8, .rw, .any⟩]⟩,
  ⟨0x114, 1, 4, 1, 4, 0x00000000, false, [⟨0, 0, .w1s, .any⟩]⟩,
  ⟨0x118, 1, 4, 1, 4, 0x00000000, false, []⟩,
  ⟨0x11C, 1, 4, 1, 4, 0x00000000, false, [⟨0, 0, .w1s, .any⟩, ⟨1, 1, .w1s, .any⟩, ⟨2, 2, .w1s, .any⟩]⟩,
  ⟨0x120, 1, 4, 1, 4, 0x00000000, false, []⟩,
  ⟨0x124, 1, 4, 1, 4, 0, false, []⟩,
  ⟨0x128, 1, 4, 1, 4, 0, false, []⟩,
  ⟨0x12C, 1, 4, 1, 4, 0x00000000, false, []⟩,
  ⟨0x130, 1, 4, 1, 4, 0x00000000, false, [⟨0, 0, .rw, .any⟩]⟩,
  ⟨0x134, 1, 4, 1, 4, 0x00000000, false, []⟩,
  ⟨0x138, 1, 4, 1, 4, 0x00000000, false, []⟩]

/-- The registers of the HEADFRAME page. -/
def hfRows : List RegRow := [
  ⟨0x100, 1, 4, 1, 4, 0x00000000, false, [⟨0, 0, .w1s, .any⟩]⟩,
  ⟨0x104, 1, 4, 1, 4, 0x00000000, false, []⟩,
  ⟨0x108, 1, 4, 1, 4, 0x00000000, false, []⟩,
  ⟨0x10C, 1, 4, 1, 4, 0x00000000, false, []⟩,
  ⟨0x110, 1, 4, 1, 4, 0x00000000, false, []⟩,
  ⟨0x114, 1, 4, 1, 4, 0x00000005, false, [⟨4, 0, .rw, .range 1 20⟩]⟩,
  ⟨0x118, 1, 4, 1, 4, 0x00000000, false, [⟨3, 0, .rw, .range 0 8⟩]⟩,
  ⟨0x11C, 1, 4, 1, 4, 0x00004000, false, []⟩,
  ⟨0x120, 1, 4, 1, 4, 0x00000000, false, []⟩,
  ⟨0x124, 1, 4, 1, 4, 0x00000000, false, []⟩,
  ⟨0x128, 1, 4, 1, 4, 0x00000000, false, []⟩,
  ⟨0x12C, 1, 4, 1, 4, 0x00000000, false, []⟩,
  ⟨0x130, 1, 4, 1, 4, 0x00000168, false, [⟨9, 0, .rw, .range 15 720⟩]⟩,
  ⟨0x180, 8, 4, 1, 4, 0x00000000, false, []⟩]

/-- The registers of the THERMAL page. -/
def thRows : List RegRow := [
  ⟨0x100, 1, 4, 1, 4, 0x000000FA, false, [⟨10, 0, .rw, .range 50 2000⟩, ⟨16, 16, .w1s, .any⟩]⟩,
  ⟨0x104, 1, 4, 1, 4, 0x00000000, false, [⟨2, 2, .w1c, .any⟩]⟩,
  ⟨0x108, 1, 4, 1, 4, 0x00000000, false, []⟩,
  ⟨0x10C, 1, 4, 1, 4, 0x00000000, false, []⟩,
  ⟨0x110, 1, 4, 1, 4, 0x00000000, false, [⟨8, 0, .rw, .range 0 279⟩]⟩,
  ⟨0x114, 1, 4, 1, 4, 0x00000000, false, []⟩,
  ⟨0x118, 1, 4, 1, 4, 0x00000000, false, []⟩,
  ⟨0x11C, 1, 4, 1, 4, 0x00000000, false, [⟨5, 0, .rw, .range 0 39⟩]⟩,
  ⟨0x120, 1, 4, 1, 4, 0x00000000, false, []⟩,
  ⟨0x124, 1, 4, 1, 4, 0x00000000, false, []⟩,
  ⟨0x128, 1, 4, 1, 4, 0x00000000, false, []⟩,
  ⟨0x12C, 1, 4, 1, 4, 0x00000000, false, []⟩,
  ⟨0x130, 1, 4, 1, 4, 0x00004000, false, []⟩,
  ⟨0x134, 1, 4, 1, 4, 0x00000000, false, []⟩,
  ⟨0x138, 1, 4, 1, 4, 0x00000000, false, []⟩,
  ⟨0x13C, 1, 4, 1, 4, 0x00000000, false, []⟩,
  ⟨0x140, 1, 4, 1, 4, 0x00000000, false, []⟩]

/-- The registers of the POWER page. -/
def pwrRows : List RegRow := [
  ⟨0x100, 1, 4, 1, 4, 0x00000000, false, []⟩,
  ⟨0x104, 1, 4, 1, 4, 0x00000000, false, []⟩,
  ⟨0x108, 1, 4, 1, 4, 0x00000320, false, [⟨15, 0, .rw, .range 400 800⟩]⟩,
  ⟨0x10C, 1, 4, 1, 4, 0x00000320, false, []⟩,
  ⟨0x110, 1, 4, 1, 4, 0x00320BB8, false, [⟨1, 0, .rw, .range 0 2⟩, ⟨11, 2, .rw, .range 550 800⟩, ⟨21, 12, .rw, .range 550 800⟩]⟩,
  ⟨0x114, 1, 4, 1, 4, 0x00000000, false, []⟩,
  ⟨0x118, 1, 4, 1, 4, 0x000003E8, false, [⟨15, 0, .rw, .range 0 60000⟩]⟩,
  ⟨0x11C, 1, 4, 1, 4, 0x00000000, false, []⟩,
  ⟨0x120, 1, 4, 1, 4, 0x00000000, false, []⟩,
  ⟨0x124, 1, 4, 1, 4, 0x00000000, false, []⟩,
  ⟨0x128, 1, 4, 1, 4, 0x00000000, false, []⟩,
  ⟨0x12C, 1, 4, 1, 4, 0x00000000, false, []⟩,
  ⟨0x130, 1, 4, 1, 4, 0x00000000, false, []⟩,
  ⟨0x134, 1, 4, 1, 4, 0x00000000, false, []⟩,
  ⟨0x138, 1, 4, 1, 4, 0x00000000, false, []⟩]

/-- The registers of the TALLY page. -/
def tallyRows : List RegRow := [
  ⟨0x100, 1, 4, 1, 4, 0x00000000, false, [⟨0, 0, .w1s, .any⟩, ⟨1, 1, .w1s, .any⟩, ⟨2, 2, .rw, .any⟩]⟩,
  ⟨0x104, 1, 4, 1, 4, 0x00000000, false, []⟩,
  ⟨0x108, 1, 4, 1, 4, 0x00000000, false, []⟩,
  ⟨0x10C, 1, 4, 1, 4, 0x00000000, false, []⟩,
  ⟨0x110, 1, 4, 1, 4, 0x00000000, false, []⟩,
  ⟨0x114, 1, 4, 1, 4, 0x00000000, false, []⟩,
  ⟨0x118, 1, 4, 1, 4, 0x00000000, false, [⟨15, 0, .rw, .any⟩]⟩,
  ⟨0x11C, 1, 4, 1, 4, 0x00000000, false, []⟩,
  ⟨0x120, 8, 4, 1, 4, 0x00000000, false, []⟩,
  ⟨0x140, 1, 4, 1, 4, 0x00000000, false, []⟩,
  ⟨0x144, 1, 4, 1, 4, 0x00000000, false, []⟩,
  ⟨0x148, 1, 4, 1, 4, 0x00000000, false, []⟩,
  ⟨0x14C, 1, 4, 1, 4, 0x00000000, false, []⟩,
  ⟨0x150, 1, 4, 1, 4, 0x00000000, false, []⟩,
  ⟨0x154, 1, 4, 1, 4, 0x00000000, false, []⟩,
  ⟨0x158, 1, 4, 1, 4, 0x00000000, false, []⟩,
  ⟨0x15C, 1, 4, 1, 4, 0x00000000, false, [⟨6, 0, .rw, .any⟩]⟩]

/-- The registers of the ASSAY page. -/
def assayRows : List RegRow := [
  ⟨0x100, 1, 4, 1, 4, 0x00000003, false, [⟨0, 0, .rw, .any⟩, ⟨1, 1, .rw, .any⟩]⟩,
  ⟨0x104, 1, 4, 1, 4, 0x00000000, false, []⟩,
  ⟨0x108, 1, 4, 1, 4, 0x0000003C, false, [⟨10, 0, .rw, .range 10 1440⟩]⟩,
  ⟨0x10C, 1, 4, 1, 4, 0x00000258, false, [⟨16, 0, .rw, .range 10 86400⟩]⟩,
  ⟨0x110, 1, 4, 1, 4, 0x00002710, false, [⟨15, 0, .rw, .range 100 60000⟩]⟩,
  ⟨0x114, 1, 4, 1, 4, 0x00000600, false, [⟨15, 0, .rw, .range 0x400 0x1000⟩]⟩,
  ⟨0x118, 1, 4, 1, 4, 0x00000064, false, [⟨15, 0, .rw, .range 20 10000⟩]⟩,
  ⟨0x11C, 1, 4, 1, 4, 0x00000000, false, []⟩,
  ⟨0x120, 1, 4, 1, 4, 0x00000000, false, [⟨31, 0, .rw, .any⟩]⟩,
  ⟨0x124, 1, 4, 1, 4, 0x00000000, false, []⟩,
  ⟨0x128, 1, 4, 1, 4, 0x00000000, false, []⟩,
  ⟨0x12C, 1, 4, 1, 4, 0x00000000, false, []⟩,
  ⟨0x130, 1, 4, 1, 4, 0x00000000, false, []⟩,
  ⟨0x134, 1, 4, 1, 4, 0x00000000, false, []⟩,
  ⟨0x138, 1, 4, 1, 4, 0x00000000, false, []⟩,
  ⟨0x13C, 1, 4, 1, 4, 0x00000000, false, []⟩]

/-- The registers of the TIME page. -/
def timeRows : List RegRow := [
  ⟨0x100, 1, 4, 1, 4, 0x00000100, false, [⟨7, 0, .rw, .any⟩, ⟨8, 8, .rw, .any⟩]⟩,
  ⟨0x104, 1, 4, 1, 4, 0x00000000, false, []⟩,
  ⟨0x108, 1, 4, 1, 4, 0x00000000, false, []⟩,
  ⟨0x10C, 1, 4, 1, 4, 0x00000000, false, []⟩,
  ⟨0x110, 1, 4, 1, 4, 0x00000000, false, []⟩,
  ⟨0x114, 1, 4, 1, 4, 0x00000000, false, []⟩,
  ⟨0x118, 1, 4, 1, 4, 0x00000000, false, []⟩,
  ⟨0x11C, 1, 4, 1, 4, 0x00000000, false, []⟩,
  ⟨0x120, 1, 4, 1, 4, 0x00000000, false, []⟩,
  ⟨0x124, 1, 4, 1, 4, 0x00000000, false, []⟩]

/-- The registers of the NOC page. -/
def nocRows : List RegRow := [
  ⟨0x100, 1, 4, 1, 4, 0x00000000, false, []⟩,
  ⟨0x104, 1, 4, 1, 4, 0x00000000, false, []⟩,
  ⟨0x108, 1, 4, 1, 4, 0x00000000, false, []⟩,
  ⟨0x10C, 1, 4, 1, 4, 0x00000000, false, []⟩,
  ⟨0x110, 1, 4, 1, 4, 0x00000000, false, []⟩,
  ⟨0x114, 1, 4, 1, 4, 0x00000064, false, [⟨13, 0, .rw, .range 1 10000⟩]⟩,
  ⟨0x200, 16, 16, 1, 4, 0x000F7801, true, [⟨0, 0, .rw, .any⟩, ⟨5, 1, .rw, .rangeRg 0 15⟩, ⟨10, 6, .rw, .rangeRg 0 15⟩, ⟨15, 11, .rw, .rangeRg 0 15⟩, ⟨20, 16, .rw, .rangeRg 0 15⟩, ⟨24, 21, .rw, .any⟩]⟩,
  ⟨0x204, 16, 16, 1, 4, 0x00000000, false, [⟨9, 0, .rw, .any⟩]⟩,
  ⟨0x208, 16, 16, 1, 4, 0x00FFFFFF, true, [⟨7, 0, .rw, .any⟩, ⟨23, 8, .rw, .any⟩]⟩,
  ⟨0x20C, 16, 16, 1, 4, 0x00FFFFFF, true, [⟨23, 0, .rw, .any⟩]⟩]

/-- The registers of the WINDER page. KVP_PARTNER takes only device IDs that R395 allows: a wider one leaves it as it was and counts as
an encoding reserved for a later generation (R3, R10; DESIGN CHOICE, log entry 163). -/
def wndRows : List RegRow := [
  ⟨0x100, 1, 4, 1, 4, 0x00000003, false, [⟨0, 0, .rw, .any⟩, ⟨1, 1, .rw, .any⟩]⟩,
  ⟨0x104, 1, 4, 1, 4, 0x00000000, false, []⟩,
  ⟨0x108, 1, 4, 1, 4, 0x00000000, false, []⟩,
  ⟨0x10C, 1, 4, 1, 4, 0x00000000, false, []⟩,
  ⟨0x110, 1, 4, 1, 4, 0x00000000, false, []⟩,
  ⟨0x114, 1, 4, 1, 4, 0x000186A0, false, [⟨31, 0, .rw, .any⟩]⟩,
  ⟨0x118, 1, 4, 1, 4, 0x00000000, false, []⟩,
  ⟨0x11C, 1, 4, 1, 4, 0x00000000, false, [⟨19, 0, .rw, .rangeRg 0 32767⟩]⟩,
  ⟨0x120, 1, 4, 1, 4, 0x0000020A, false, [⟨7, 0, .rw, .range 1 100⟩, ⟨9, 8, .rw, .range 1 2⟩]⟩,
  ⟨0x124, 1, 4, 1, 4, 0x00000000, false, [⟨11, 0, .rw, .any⟩, ⟨12, 12, .rw, .any⟩]⟩,
  ⟨0x128, 1, 4, 1, 4, 0x00000000, false, []⟩,
  ⟨0x130, 1, 4, 1, 4, 0x00000000, false, []⟩,
  ⟨0x134, 1, 4, 1, 4, 0x00000000, false, []⟩,
  ⟨0x138, 1, 4, 1, 4, 0x00000000, false, []⟩,
  ⟨0x13C, 1, 4, 1, 4, 0x00000000, false, []⟩,
  ⟨0x140, 1, 4, 1, 4, 0x00000000, false, []⟩,
  ⟨0x144, 1, 4, 1, 4, 0x00000000, false, []⟩,
  ⟨0x148, 1, 4, 1, 4, 0x00000000, false, []⟩,
  ⟨0x14C, 1, 4, 1, 4, 0x00000000, false, []⟩,
  ⟨0x150, 1, 4, 1, 4, 0x00000000, false, [⟨7, 0, .rw, .any⟩]⟩,
  ⟨0x154, 1, 4, 1, 4, 0x00000000, false, []⟩,
  ⟨0x158, 1, 4, 1, 4, 0x00000000, false, []⟩,
  ⟨0x15C, 1, 4, 1, 4, 0x00000000, false, []⟩,
  ⟨0x160, 1, 4, 1, 4, 0x00000000, false, []⟩,
  ⟨0x200, 64, 16, 1, 4, 0x00000000, false, []⟩,
  ⟨0x204, 64, 16, 1, 4, 0x00000000, false, []⟩,
  ⟨0x208, 64, 16, 1, 4, 0x00000000, false, []⟩,
  ⟨0x20C, 64, 16, 1, 4, 0x00000000, false, []⟩]

/-- The registers of the RING page. -/
def ringRows : List RegRow := [
  ⟨0x100, 1, 4, 1, 4, 0x00000000, false, []⟩,
  ⟨0x104, 1, 4, 1, 4, 0x00000000, false, []⟩,
  ⟨0x108, 1, 4, 1, 4, 0x00000000, false, [⟨31, 6, .rw, .any⟩]⟩,
  ⟨0x10C, 1, 4, 1, 4, 0x00000000, false, [⟨31, 0, .rw, .any⟩]⟩,
  ⟨0x110, 1, 4, 1, 4, 0x00000010, false, [⟨11, 0, .rw, .pow2 16 2048⟩, ⟨17, 12, .rw, .any⟩]⟩,
  ⟨0x114, 1, 4, 1, 4, 0x00000000, false, []⟩,
  ⟨0x118, 1, 4, 1, 4, 0x00000000, false, [⟨5, 0, .rw, .any⟩]⟩,
  ⟨0x11C, 1, 4, 1, 4, 0x00000000, false, [⟨31, 6, .rw, .any⟩]⟩,
  ⟨0x120, 1, 4, 1, 4, 0x00000000, false, [⟨31, 0, .rw, .any⟩]⟩,
  ⟨0x124, 1, 4, 1, 4, 0x00000040, false, [⟨15, 0, .rw, .pow2 64 32768⟩, ⟨26, 16, .rw, .any⟩, ⟨27, 27, .rw, .any⟩]⟩,
  ⟨0x128, 1, 4, 1, 4, 0x00000000, false, [⟨7, 0, .rw, .any⟩, ⟨23, 8, .rw, .any⟩]⟩,
  ⟨0x12C, 1, 4, 1, 4, 0x00000000, false, [⟨15, 0, .rw, .any⟩]⟩,
  ⟨0x130, 1, 4, 1, 4, 0x00000000, false, []⟩,
  ⟨0x134, 1, 4, 1, 4, 0x00000000, false, []⟩,
  ⟨0x138, 1, 4, 1, 4, 0x00000000, false, []⟩,
  ⟨0x140, 1, 4, 1, 4, 0x00000000, false, []⟩,
  ⟨0x144, 1, 4, 1, 4, 0x00000000, false, []⟩,
  ⟨0x148, 1, 4, 1, 4, 0x00000000, false, []⟩,
  ⟨0x14C, 1, 4, 1, 4, 0x00000000, false, []⟩,
  ⟨0x150, 1, 4, 1, 4, 0x00000000, false, []⟩,
  ⟨0x154, 1, 4, 1, 4, 0x00000000, false, [⟨5, 0, .rw, .any⟩]⟩]

/-- The registers of the SAMPLER page. -/
def smpRows : List RegRow := [
  ⟨0x100, 1, 4, 1, 4, 0x00000001, false, [⟨0, 0, .rw, .any⟩]⟩,
  ⟨0x104, 1, 4, 1, 4, 0x00000000, false, []⟩,
  ⟨0x108, 1, 4, 1, 4, 0x00000000, false, []⟩,
  ⟨0x10C, 1, 4, 1, 4, 0x00000000, false, []⟩,
  ⟨0x110, 1, 4, 1, 4, 0x00000000, false, []⟩,
  ⟨0x114, 1, 4, 1, 4, 0x00000000, false, []⟩,
  ⟨0x118, 1, 4, 1, 4, 0x00000000, false, []⟩,
  ⟨0x11C, 1, 4, 1, 4, 0x00000000, false, []⟩,
  ⟨0x120, 1, 4, 1, 4, 0x00000000, false, []⟩,
  ⟨0x124, 1, 4, 1, 4, 0x00000000, false, []⟩,
  ⟨0x128, 1, 4, 1, 4, 0x00000000, false, []⟩]

/-- The registers of the KVPAGE page. -/
def kvpRows : List RegRow := [
  ⟨0x100, 1, 4, 1, 4, 0x00000001, false, [⟨0, 0, .rw, .any⟩]⟩,
  ⟨0x104, 1, 4, 1, 4, 0x00000000, false, []⟩,
  ⟨0x108, 1, 4, 1, 4, 0x00A40000, false, []⟩,
  ⟨0x10C, 1, 4, 1, 4, 0x00000000, false, []⟩,
  ⟨0x110, 1, 4, 1, 4, 0x00000000, false, []⟩,
  ⟨0x114, 1, 4, 1, 4, 0x00010000, false, [⟨23, 0, .rw, .any⟩]⟩,
  ⟨0x118, 1, 4, 1, 4, 0x00020000, false, [⟨23, 0, .rw, .any⟩]⟩,
  ⟨0x11C, 1, 4, 1, 4, 0x00000000, false, []⟩,
  ⟨0x120, 1, 4, 1, 4, 0x00000000, false, []⟩,
  ⟨0x124, 1, 4, 1, 4, 0x00000000, false, []⟩,
  ⟨0x128, 1, 4, 1, 4, 0x00000000, false, []⟩,
  ⟨0x12C, 1, 4, 1, 4, 0x00000000, false, []⟩,
  ⟨0x130, 1, 4, 1, 4, 0x00000000, false, []⟩,
  ⟨0x140, 1, 4, 1, 4, 0x00000000, false, [⟨19, 0, .rw, .any⟩, ⟨23, 20, .rw, .any⟩, ⟨24, 24, .rw, .any⟩]⟩,
  ⟨0x144, 1, 4, 1, 4, 0x00000000, false, [⟨31, 0, .rw, .any⟩]⟩,
  ⟨0x148, 1, 4, 1, 4, 0x00000000, false, [⟨31, 0, .rw, .any⟩]⟩,
  ⟨0x14C, 1, 4, 1, 4, 0x00000000, false, [⟨31, 0, .rw, .any⟩]⟩,
  ⟨0x150, 1, 4, 1, 4, 0x00000000, false, [⟨0, 0, .w1s, .any⟩, ⟨1, 1, .w1s, .any⟩]⟩,
  ⟨0x158, 1, 4, 1, 4, 0x461C4000, false, [⟨31, 0, .rw, .any⟩]⟩,
  ⟨0x15C, 1, 4, 1, 4, 0x00000080, false, [⟨7, 0, .rw, .any⟩]⟩]

/-- The registers of the PREFIX page. -/
def pfxRows : List RegRow := [
  ⟨0x100, 1, 4, 1, 4, 0x00000000, false, [⟨0, 0, .rw, .any⟩, ⟨1, 1, .rw, .any⟩, ⟨2, 2, .w1s, .any⟩]⟩,
  ⟨0x104, 1, 4, 1, 4, 0x00000000, false, []⟩,
  ⟨0x108, 1, 4, 1, 4, 0x00000000, false, [⟨19, 0, .rw, .mult 8 524288⟩]⟩,
  ⟨0x10C, 1, 4, 1, 4, 0x00000000, false, []⟩,
  ⟨0x110, 1, 4, 1, 4, 0x00000000, false, []⟩,
  ⟨0x114, 1, 4, 1, 4, 0x00000000, false, []⟩,
  ⟨0x118, 1, 4, 1, 4, 0x00000000, false, []⟩,
  ⟨0x11C, 1, 4, 1, 4, 0x00000000, false, []⟩,
  ⟨0x120, 1, 4, 1, 4, 0x00000000, false, []⟩,
  ⟨0x124, 1, 4, 1, 4, 0x00000000, false, []⟩,
  ⟨0x128, 1, 4, 1, 4, 0x00000000, false, []⟩,
  ⟨0x12C, 1, 4, 1, 4, 0x00000000, false, []⟩,
  ⟨0x130, 1, 4, 1, 4, 0x00000000, false, []⟩,
  ⟨0x134, 1, 4, 1, 4, 0x00000000, false, []⟩,
  ⟨0x138, 1, 4, 1, 4, 0x00000000, false, []⟩,
  ⟨0x13C, 1, 4, 1, 4, 0x00000000, false, []⟩,
  ⟨0x140, 1, 4, 1, 4, 0x00000000, false, [⟨23, 0, .rw, .any⟩]⟩,
  ⟨0x144, 1, 4, 1, 4, 0x00000000, false, []⟩,
  ⟨0x148, 1, 4, 1, 4, 0x00000000, false, []⟩,
  ⟨0x14C, 1, 4, 1, 4, 0x00000000, false, [⟨0, 0, .w1s, .any⟩, ⟨1, 1, .w1s, .any⟩]⟩,
  ⟨0x150, 1, 4, 1, 4, 0x00000000, false, []⟩,
  ⟨0x154, 1, 4, 1, 4, 0x00000000, false, []⟩]

/-- The registers of the VAULT page. -/
def vaultRows : List RegRow := [
  ⟨0x100, 1, 4, 1, 4, 0x00000001, false, [⟨0, 0, .rw, .any⟩]⟩,
  ⟨0x104, 1, 4, 1, 4, 0x00000000, false, []⟩,
  ⟨0x108, 1, 4, 1, 4, 0x00000000, false, [⟨5, 0, .rw, .any⟩]⟩,
  ⟨0x10C, 1, 4, 1, 4, 0x00000000, false, []⟩,
  ⟨0x110, 1, 4, 1, 4, 0x00000000, false, []⟩,
  ⟨0x114, 1, 4, 1, 4, 0x00000000, false, []⟩,
  ⟨0x120, 8, 4, 1, 4, 0x00000000, false, []⟩,
  ⟨0x140, 1, 4, 1, 4, 0x00000BB8, false, [⟨15, 0, .rw, .range 0 3300⟩]⟩,
  ⟨0x144, 1, 4, 1, 4, 0xCE4, false, []⟩,
  ⟨0x148, 1, 4, 1, 4, 0x00000000, false, []⟩,
  ⟨0x14C, 1, 4, 1, 4, 0x00000000, false, []⟩,
  ⟨0x150, 1, 4, 1, 4, 0x00000000, false, []⟩,
  ⟨0x154, 1, 4, 1, 4, 0x00000000, false, []⟩,
  ⟨0x158, 1, 4, 1, 4, 0x00000000, false, []⟩,
  ⟨0x15C, 1, 4, 1, 4, 0x00000000, false, []⟩,
  ⟨0x160, 1, 4, 1, 4, 0x00000000, false, []⟩,
  ⟨0x164, 1, 4, 1, 4, 0x00000000, false, []⟩]

/-- The registers of the SWAP page. -/
def swapRows : List RegRow := [
  ⟨0x100, 1, 4, 1, 4, 0x00000000, false, []⟩,
  ⟨0x104, 1, 4, 1, 4, 0x00000000, false, []⟩,
  ⟨0x108, 1, 4, 1, 4, 0x00000000, false, [⟨31, 0, .rw, .any⟩]⟩,
  ⟨0x10C, 1, 4, 1, 4, 0x00000000, false, [⟨31, 0, .rw, .any⟩]⟩,
  ⟨0x110, 1, 4, 1, 4, 0x00000000, false, [⟨0, 0, .w1s, .any⟩, ⟨1, 1, .w1s, .any⟩]⟩,
  ⟨0x114, 1, 4, 1, 4, 0x000007D0, false, [⟨15, 0, .rw, .range 100 60000⟩]⟩,
  ⟨0x118, 1, 4, 1, 4, 0x00002710, false, [⟨17, 0, .rw, .range 100 200000⟩]⟩,
  ⟨0x11C, 1, 4, 1, 4, 0x00000000, false, []⟩,
  ⟨0x120, 8, 4, 1, 4, 0x00000000, false, [⟨31, 0, .rw, .any⟩]⟩,
  ⟨0x140, 1, 4, 1, 4, 0x00000000, false, []⟩,
  ⟨0x144, 1, 4, 1, 4, 0x00000000, false, []⟩,
  ⟨0x148, 1, 4, 1, 4, 0x00000000, false, []⟩,
  ⟨0x14C, 1, 4, 1, 4, 0x00000000, false, []⟩,
  ⟨0x150, 1, 4, 1, 4, 0x00000000, false, []⟩,
  ⟨0x154, 1, 4, 1, 4, 0x00000000, false, []⟩,
  ⟨0x158, 1, 4, 1, 4, 0x00000000, false, []⟩,
  ⟨0x15C, 1, 4, 1, 4, 0x00000000, false, []⟩,
  ⟨0x160, 1, 4, 1, 4, 0x00000000, false, []⟩]

/-- The registers of the COLL page. -/
def collRows : List RegRow := [
  ⟨0x100, 1, 4, 1, 4, 0x00000001, false, [⟨0, 0, .rw, .any⟩]⟩,
  ⟨0x104, 1, 4, 1, 4, 0x00000000, false, []⟩,
  ⟨0x108, 1, 4, 1, 4, 0x000000C8, false, [⟨15, 0, .rw, .range 10 10000⟩]⟩,
  ⟨0x10C, 1, 4, 1, 4, 0x00000000, false, [⟨7, 0, .rw, .any⟩, ⟨19, 8, .rw, .any⟩, ⟨20, 20, .rw, .any⟩]⟩,
  ⟨0x110, 1, 4, 1, 4, 0x00000000, false, [⟨31, 0, .rw, .any⟩]⟩,
  ⟨0x114, 1, 4, 1, 4, 0x00000000, false, [⟨31, 0, .rw, .any⟩]⟩,
  ⟨0x118, 1, 4, 1, 4, 0x00000000, false, [⟨31, 0, .rw, .any⟩]⟩,
  ⟨0x11C, 1, 4, 1, 4, 0x00000000, false, [⟨0, 0, .w1s, .any⟩]⟩,
  ⟨0x120, 1, 4, 1, 4, 0x00000000, false, []⟩,
  ⟨0x124, 1, 4, 1, 4, 0x00000000, false, []⟩,
  ⟨0x128, 1, 4, 1, 4, 0x00000000, false, []⟩,
  ⟨0x12C, 1, 4, 1, 4, 0x00000000, false, []⟩,
  ⟨0x130, 1, 4, 1, 4, 0x00000000, false, []⟩,
  ⟨0x134, 1, 4, 1, 4, 0x00000000, false, []⟩]

/-- The registers of the WINDOW page. -/
def windowRows : List RegRow := [
  ⟨0x100, 1, 4, 1, 4, 0x00000000, false, []⟩,
  ⟨0x104, 1, 4, 1, 4, 0x00000032, false, [⟨13, 0, .rw, .range 1 10000⟩]⟩,
  ⟨0x108, 1, 4, 1, 4, 0x00000003, false, [⟨3, 0, .rw, .any⟩]⟩,
  ⟨0x10C, 1, 4, 1, 4, 0x00000000, false, []⟩,
  ⟨0x110, 1, 4, 1, 4, 0x00000000, false, []⟩,
  ⟨0x114, 1, 4, 1, 4, 0x00000000, false, []⟩,
  ⟨0x118, 1, 4, 1, 4, 0x00000000, false, []⟩,
  ⟨0x11C, 1, 4, 1, 4, 0x00000000, false, []⟩,
  ⟨0x140, 16, 4, 1, 4, 0x00000100, true, [⟨8, 0, .rw, .range 0 256⟩]⟩]

/-- The registers of the ADIT page. -/
def aditRows : List RegRow := [
  ⟨0x100, 1, 4, 1, 4, 0x00000000, false, [⟨11, 0, .rw, .any⟩]⟩,
  ⟨0x104, 1, 4, 1, 4, 0x00000000, false, [⟨22, 0, .rw, .any⟩]⟩,
  ⟨0x108, 1, 4, 1, 4, 0x00000000, false, [⟨19, 0, .rw, .any⟩]⟩,
  ⟨0x10C, 1, 4, 1, 4, 0x00000000, false, [⟨19, 0, .rw, .any⟩]⟩,
  ⟨0x110, 1, 4, 1, 4, 0x00000000, false, [⟨19, 0, .rw, .any⟩]⟩,
  ⟨0x114, 1, 4, 1, 4, 0x00000000, false, [⟨0, 0, .w1s, .any⟩, ⟨1, 1, .w1s, .any⟩, ⟨2, 2, .w1s, .any⟩]⟩,
  ⟨0x118, 1, 4, 1, 4, 0x00000000, false, []⟩,
  ⟨0x11C, 1, 4, 1, 4, 0x00000000, false, []⟩,
  ⟨0x120, 1, 4, 1, 4, 0x00000000, false, []⟩,
  ⟨0x124, 1, 4, 1, 4, 0x00000000, false, []⟩,
  ⟨0x128, 1, 4, 1, 4, 0x00000000, false, []⟩,
  ⟨0x12C, 1, 4, 1, 4, 0x00000000, false, []⟩,
  ⟨0x130, 1, 4, 1, 4, 0x00000000, false, []⟩,
  ⟨0x134, 1, 4, 1, 4, 0x00000000, false, []⟩,
  ⟨0x138, 1, 4, 1, 4, 0x00000000, false, []⟩]

/-- The registers of the PELIG page. -/
def peligRows : List RegRow := [
  ⟨0x100, 1, 4, 1, 4, 0x00000003, false, [⟨0, 0, .rw, .any⟩, ⟨1, 1, .rw, .any⟩, ⟨2, 2, .w1s, .any⟩, ⟨6, 3, .rw, .any⟩]⟩,
  ⟨0x104, 1, 4, 1, 4, 0x00000000, false, []⟩,
  ⟨0x108, 1, 4, 1, 4, 0x00000000, false, []⟩,
  ⟨0x10C, 1, 4, 1, 4, 0x00000000, false, []⟩,
  ⟨0x110, 1, 4, 1, 4, 0x00000000, false, []⟩,
  ⟨0x114, 1, 4, 1, 4, 0x00000000, false, []⟩,
  ⟨0x118, 1, 4, 1, 4, 0x00000000, false, []⟩,
  ⟨0x120, 1, 4, 1, 4, 0x00000000, false, []⟩,
  ⟨0x124, 1, 4, 1, 4, 0x00000000, false, []⟩,
  ⟨0x128, 1, 4, 1, 4, 0x00000000, false, []⟩,
  ⟨0x12C, 1, 4, 1, 4, 0x00000000, false, []⟩,
  ⟨0x130, 1, 4, 1, 4, 0x00000000, false, []⟩,
  ⟨0x134, 1, 4, 1, 4, 0x00000000, false, []⟩,
  ⟨0x138, 1, 4, 1, 4, 0x00000000, false, []⟩,
  ⟨0x13C, 1, 4, 1, 4, 0x00000000, false, []⟩,
  ⟨0x140, 1, 4, 1, 4, 0x00000000, false, []⟩,
  ⟨0x144, 1, 4, 1, 4, 0x00000000, false, []⟩]

/-- The registers of the MERGE page. -/
def mergeRows : List RegRow := [
  ⟨0x100, 1, 4, 1, 4, 0x00000001, false, [⟨0, 0, .rw, .any⟩, ⟨1, 1, .w1s, .any⟩]⟩,
  ⟨0x104, 1, 4, 1, 4, 0x00000000, false, []⟩,
  ⟨0x108, 1, 4, 1, 4, 0x00004000, false, []⟩,
  ⟨0x10C, 1, 4, 1, 4, 0x0000FFFF, false, [⟨15, 0, .rw, .any⟩]⟩,
  ⟨0x110, 1, 4, 1, 4, 0x00000000, false, []⟩,
  ⟨0x114, 1, 4, 1, 4, 0x00000000, false, []⟩,
  ⟨0x120, 1, 4, 1, 4, 0x00000000, false, []⟩,
  ⟨0x124, 1, 4, 1, 4, 0x00000000, false, []⟩,
  ⟨0x128, 1, 4, 1, 4, 0x00000000, false, []⟩,
  ⟨0x12C, 1, 4, 1, 4, 0x00000000, false, []⟩,
  ⟨0x130, 1, 4, 1, 4, 0x00000000, false, []⟩,
  ⟨0x134, 1, 4, 1, 4, 0x00000000, false, []⟩,
  ⟨0x138, 1, 4, 1, 4, 0x00000000, false, []⟩,
  ⟨0x13C, 1, 4, 1, 4, 0x00000000, false, []⟩,
  ⟨0x140, 1, 4, 1, 4, 0x00000000, false, []⟩,
  ⟨0x144, 1, 4, 1, 4, 0x00000000, false, []⟩,
  ⟨0x148, 1, 4, 1, 4, 0x00000000, false, []⟩,
  ⟨0x150, 1, 4, 1, 4, 0x00000000, false, []⟩,
  ⟨0x154, 1, 4, 1, 4, 0x00000000, false, []⟩,
  ⟨0x158, 1, 4, 1, 4, 0x00000000, false, [⟨31, 0, .rw, .any⟩]⟩,
  ⟨0x15C, 1, 4, 1, 4, 0x00000000, false, [⟨31, 0, .rw, .any⟩]⟩,
  ⟨0x160, 1, 4, 1, 4, 0xFFFFFFFF, false, [⟨31, 0, .rw, .any⟩]⟩,
  ⟨0x164, 1, 4, 1, 4, 0xFFFFFFFF, false, [⟨31, 0, .rw, .any⟩]⟩,
  ⟨0x168, 1, 4, 1, 4, 0x00000000, false, [⟨31, 0, .rw, .any⟩]⟩,
  ⟨0x16C, 1, 4, 1, 4, 0x00000000, false, [⟨31, 0, .rw, .any⟩]⟩,
  ⟨0x170, 1, 4, 1, 4, 0x00000000, false, []⟩,
  ⟨0x174, 1, 4, 1, 4, 0x00000000, false, []⟩,
  ⟨0x200, 32, 4, 1, 4, 0x00000000, false, [⟨31, 0, .rw, .any⟩]⟩,
  ⟨0x280, 1, 4, 1, 4, 0x00000000, false, [⟨31, 0, .w1c, .any⟩]⟩]

/-- The registers of the STACK page. -/
def stackRows : List RegRow := [
  ⟨0x100, 1, 4, 1, 4, 0x00000001, false, [⟨0, 0, .rw, .any⟩]⟩,
  ⟨0x104, 1, 4, 1, 4, 0x00000000, false, []⟩,
  ⟨0x108, 1, 4, 1, 4, 0x00000000, false, []⟩,
  ⟨0x10C, 1, 4, 1, 4, 0x00000000, false, [⟨31, 0, .rw, .any⟩]⟩,
  ⟨0x110, 1, 4, 1, 4, 0x00000000, false, []⟩,
  ⟨0x114, 1, 4, 1, 4, 0x00000000, false, []⟩,
  ⟨0x120, 1, 4, 1, 4, 0x00000000, false, []⟩,
  ⟨0x124, 1, 4, 1, 4, 0x00000000, false, []⟩,
  ⟨0x128, 1, 4, 1, 4, 0x00000000, false, []⟩,
  ⟨0x12C, 1, 4, 1, 4, 0x00000000, false, []⟩,
  ⟨0x130, 1, 4, 1, 4, 0x00000000, false, []⟩,
  ⟨0x134, 1, 4, 1, 4, 0x00000000, false, []⟩,
  ⟨0x138, 1, 4, 1, 4, 0x00000000, false, []⟩,
  ⟨0x180, 32, 4, 1, 4, 0x00000000, false, []⟩]

/-- The registers of the STREAM_WIN page. -/
def swRows : List RegRow := [
  ⟨0x100, 1, 4, 1, 4, 0x00000000, false, [⟨19, 0, .rw, .any⟩]⟩,
  ⟨0x104, 1, 4, 1, 4, 0x00000000, false, []⟩,
  ⟨0x108, 1, 4, 1, 4, 0x00000000, false, [⟨31, 6, .rw, .any⟩]⟩,
  ⟨0x10C, 1, 4, 1, 4, 0x00000000, false, [⟨31, 0, .rw, .any⟩]⟩,
  ⟨0x110, 1, 4, 1, 4, 0x00000010, false, [⟨11, 0, .rw, .pow2 16 2048⟩, ⟨17, 12, .rw, .any⟩]⟩,
  ⟨0x114, 1, 4, 1, 4, 0x00000000, false, []⟩,
  ⟨0x118, 1, 4, 1, 4, 0x00000000, false, []⟩,
  ⟨0x11C, 1, 4, 1, 4, 0x00000000, false, []⟩,
  ⟨0x120, 1, 4, 1, 4, 0x00000000, false, []⟩,
  ⟨0x124, 1, 4, 1, 4, 0x00000000, false, []⟩,
  ⟨0x128, 1, 4, 1, 4, 0x00000000, false, []⟩,
  ⟨0x12C, 1, 4, 1, 4, 0x00000000, false, []⟩,
  ⟨0x130, 1, 4, 1, 4, 0x00000000, false, []⟩,
  ⟨0x134, 1, 4, 1, 4, 0x00000000, false, []⟩,
  ⟨0x140, 8, 4, 1, 4, 0x00000000, false, []⟩,
  ⟨0x160, 1, 4, 1, 4, 0x00000000, false, []⟩,
  ⟨0x164, 1, 4, 1, 4, 0x00000000, false, []⟩]

/-- The registers of the MACRO_WIN page. -/
def mwRows : List RegRow := [
  ⟨0x100, 1, 4, 1, 4, 0x00000000, false, [⟨18, 0, .rw, .any⟩]⟩,
  ⟨0x104, 1, 4, 1, 4, 0x00000000, false, []⟩,
  ⟨0x108, 1, 4, 1, 4, 0x00000000, false, []⟩,
  ⟨0x10C, 1, 4, 1, 4, 0x00000000, false, []⟩,
  ⟨0x110, 1, 4, 1, 4, 0x00000000, false, []⟩]

/-- The registers of the SHELL page. -/
def shellRows : List RegRow := [
  ⟨0x100, 1, 4, 1, 4, 0x00000001, false, [⟨0, 0, .rw, .any⟩, ⟨1, 1, .w1s, .any⟩]⟩,
  ⟨0x104, 1, 4, 1, 4, 0x00000000, false, []⟩,
  ⟨0x108, 1, 4, 1, 4, 0x00004000, false, []⟩,
  ⟨0x10C, 1, 4, 1, 4, 0x0000FFFF, false, [⟨15, 0, .rw, .any⟩]⟩,
  ⟨0x110, 1, 4, 1, 4, 0x00000000, false, []⟩,
  ⟨0x114, 1, 4, 1, 4, 0x00000000, false, []⟩,
  ⟨0x118, 1, 4, 1, 4, 0x3727C5AC, false, [⟨31, 0, .rw, .any⟩]⟩,
  ⟨0x120, 1, 4, 1, 4, 0x00000000, false, []⟩,
  ⟨0x124, 1, 4, 1, 4, 0x00000000, false, []⟩,
  ⟨0x128, 1, 4, 1, 4, 0x00000000, false, []⟩,
  ⟨0x12C, 1, 4, 1, 4, 0x00000000, false, []⟩,
  ⟨0x130, 1, 4, 1, 4, 0x00000000, false, []⟩,
  ⟨0x134, 1, 4, 1, 4, 0x00000000, false, []⟩,
  ⟨0x138, 1, 4, 1, 4, 0x00000000, false, []⟩,
  ⟨0x13C, 1, 4, 1, 4, 0x00000000, false, []⟩,
  ⟨0x140, 1, 4, 1, 4, 0x00000000, false, []⟩,
  ⟨0x144, 1, 4, 1, 4, 0x00000000, false, []⟩,
  ⟨0x148, 1, 4, 1, 4, 0x00000000, false, []⟩,
  ⟨0x150, 1, 4, 1, 4, 0x00000000, false, []⟩,
  ⟨0x154, 1, 4, 1, 4, 0x00000000, false, []⟩,
  ⟨0x180, 8, 4, 1, 4, 0x00000000, false, [⟨4, 0, .rw, .rangeRg 0 15⟩, ⟨9, 5, .rw, .rangeRg 0 15⟩, ⟨14, 10, .rw, .rangeRg 0 15⟩, ⟨19, 15, .rw, .rangeRg 0 15⟩, ⟨29, 20, .rw, .any⟩, ⟨30, 30, .rw, .any⟩]⟩,
  ⟨0x200, 32, 4, 1, 4, 0x00000000, false, [⟨31, 0, .rw, .any⟩]⟩,
  ⟨0x280, 1, 4, 1, 4, 0x00000000, false, [⟨31, 0, .w1c, .any⟩]⟩]

/-- The registers of the PLAN page. -/
def planRows : List RegRow := [
  ⟨0x100, 1, 4, 1, 4, 0x00000000, false, [⟨0, 0, .rw, .any⟩, ⟨1, 1, .rw, .any⟩, ⟨3, 2, .rw, .range 0 2⟩]⟩,
  ⟨0x104, 1, 4, 1, 4, 0x00000000, false, []⟩,
  ⟨0x108, 1, 4, 1, 4, 0x00000000, false, []⟩,
  ⟨0x10C, 1, 4, 1, 4, 0x01010101, false, []⟩,
  ⟨0x110, 1, 4, 1, 4, 0x00010101, false, []⟩,
  ⟨0x114, 1, 4, 1, 4, 0x000000C8, false, [⟨15, 0, .rw, .any⟩]⟩,
  ⟨0x118, 1, 4, 1, 4, 0x0000002D, false, [⟨7, 0, .rw, .range 41 255⟩]⟩,
  ⟨0x120, 1, 4, 1, 4, 0x00000000, false, []⟩,
  ⟨0x124, 1, 4, 1, 4, 0x00000000, false, []⟩,
  ⟨0x128, 1, 4, 1, 4, 0x00000000, false, []⟩,
  ⟨0x12C, 1, 4, 1, 4, 0x00000000, false, []⟩,
  ⟨0x130, 1, 4, 1, 4, 0x00000000, false, []⟩,
  ⟨0x134, 1, 4, 1, 4, 0x00000000, false, []⟩,
  ⟨0x138, 1, 4, 1, 4, 0x00000000, false, []⟩,
  ⟨0x13C, 1, 4, 1, 4, 0x00000000, false, []⟩,
  ⟨0x140, 1, 4, 1, 4, 0x00000000, false, []⟩,
  ⟨0x144, 1, 4, 1, 4, 0x00000000, false, []⟩,
  ⟨0x148, 1, 4, 1, 4, 0x00000000, false, []⟩,
  ⟨0x400, 24, 128, 1, 4, 0x00000000, false, [⟨31, 0, .rw, .any⟩]⟩,
  ⟨0x404, 24, 128, 1, 4, 0x00000000, false, []⟩,
  ⟨0x410, 24, 128, 16, 4, 0x00000000, false, [⟨31, 0, .rw, .any⟩]⟩]

/-- The registers of the CAL page. -/
def calRows : List RegRow := [
  ⟨0x100, 1, 4, 1, 4, 0x00000000, false, []⟩,
  ⟨0x104, 1, 4, 1, 4, 0x00000000, false, []⟩,
  ⟨0x108, 1, 4, 1, 4, 0x0000007F, false, [⟨6, 0, .rw, .any⟩]⟩,
  ⟨0x10C, 1, 4, 1, 4, 0x00000078, false, [⟨6, 0, .rw, .range 96 120⟩]⟩,
  ⟨0x110, 1, 4, 1, 4, 0x00000000, false, []⟩,
  ⟨0x114, 1, 4, 1, 4, 0x00000000, false, []⟩,
  ⟨0x118, 1, 4, 1, 4, 0x00000000, false, []⟩,
  ⟨0x11C, 1, 4, 1, 4, 0x00002710, false, [⟨15, 0, .rw, .range 100 60000⟩]⟩,
  ⟨0x120, 1, 4, 1, 4, 0x00000000, false, []⟩,
  ⟨0x124, 1, 4, 1, 4, 0x00000000, false, []⟩,
  ⟨0x140, 7, 4, 1, 4, 0x00000000, false, []⟩,
  ⟨0x180, 1, 4, 1, 4, 0x00000000, false, [⟨8, 0, .rw, .any⟩, ⟨16, 9, .rw, .any⟩, ⟨19, 17, .rw, .any⟩]⟩,
  ⟨0x184, 1, 4, 1, 4, 0x00004000, false, []⟩]

/-- The registers of the CHECK page. -/
def checkRows : List RegRow := [
  ⟨0x100, 1, 4, 1, 4, 0x0000000F, false, [⟨3, 0, .rw, .any⟩, ⟨5, 4, .rw, .range 0 2⟩, ⟨6, 6, .w1s, .any⟩, ⟨7, 7, .w1s, .any⟩, ⟨8, 8, .w1s, .any⟩, ⟨9, 9, .w1s, .any⟩]⟩,
  ⟨0x104, 1, 4, 1, 4, 0x00000000, false, []⟩,
  ⟨0x108, 1, 4, 1, 4, 0x00000600, false, [⟨15, 0, .rw, .range 0x400 0x1000⟩]⟩,
  ⟨0x10C, 1, 4, 1, 4, 0x00020080, false, [⟨15, 0, .rw, .any⟩, ⟨19, 16, .rw, .range 0 8⟩]⟩,
  ⟨0x110, 1, 4, 1, 4, 0x00000000, false, [⟨13, 0, .rw, .any⟩, ⟨14, 14, .rw, .any⟩, ⟨15, 15, .rw, .any⟩]⟩,
  ⟨0x114, 1, 4, 1, 4, 0x00000000, false, [⟨31, 0, .rw, .any⟩]⟩,
  ⟨0x120, 1, 4, 1, 4, 0x00000000, false, []⟩,
  ⟨0x124, 1, 4, 1, 4, 0x00000000, false, []⟩,
  ⟨0x128, 1, 4, 1, 4, 0x00000000, false, []⟩,
  ⟨0x12C, 1, 4, 1, 4, 0x00000000, false, []⟩,
  ⟨0x130, 1, 4, 1, 4, 0x00000000, false, []⟩,
  ⟨0x134, 1, 4, 1, 4, 0x00000000, false, []⟩,
  ⟨0x140, 4, 4, 1, 4, 0x00000000, false, []⟩,
  ⟨0x150, 4, 4, 1, 4, 0x00000000, false, []⟩]

/-- The rows of a page beyond the common ones. -/
def Page.rows : Page → List RegRow
  | .dir => dirRows
  | .dev => devRows
  | .hf => hfRows
  | .th => thRows
  | .pwr => pwrRows
  | .tally => tallyRows
  | .assay => assayRows
  | .time => timeRows
  | .noc => nocRows
  | .wnd => wndRows
  | .ring => ringRows
  | .smp => smpRows
  | .kvp => kvpRows
  | .pfx => pfxRows
  | .vault => vaultRows
  | .swap => swapRows
  | .coll => collRows
  | .window => windowRows
  | .adit => aditRows
  | .pelig => peligRows
  | .merge => mergeRows
  | .stack => stackRows
  | .sw => swRows
  | .mw => mwRows
  | .shell => shellRows
  | .plan => planRows
  | .cal => calRows
  | .check => checkRows

/-- The page at a BAR0 offset, and its instance (R454). -/
def pageAt (off : Nat) : Option (Page × Nat) :=
  let n := off / 0x1000
  if off < 0x10000 then
    (match n with
    | 0 => some (.dir, 0)
    | 1 => some (.dev, 0)
    | 2 => some (.hf, 0)
    | 3 => some (.th, 0)
    | 4 => some (.pwr, 0)
    | 5 => some (.tally, 0)
    | 6 => some (.assay, 0)
    | 7 => some (.time, 0)
    | 8 => some (.noc, 0)
    | 9 => some (.wnd, 0)
    | 10 => some (.ring, 0)
    | 11 => some (.smp, 0)
    | 12 => some (.kvp, 0)
    | 13 => some (.pfx, 0)
    | 14 => some (.vault, 0)
    | 15 => some (.swap, 0)
    | _ => none)
  else if n = 0x10 then some (.coll, 0)
  else if n = 0x11 then some (.window, 0)
  else if n = 0x12 then some (.adit, 0)
  else if 0x18 ≤ n ∧ n < 0x30 then some (.pelig, n - 0x18)
  else if 0x30 ≤ n ∧ n < 0x40 then some (.merge, n - 0x30)
  else if 0x40 ≤ n ∧ n < 0x48 then some (.stack, n - 0x40)
  else if n = 0x50 then some (.sw, 0)
  else if n = 0x51 then some (.mw, 0)
  else if 0x100 ≤ n ∧ n < 0x500 then
    (match n % 4 with
    | 0 => some (.shell, (n - 0x100) / 4)
    | 1 => some (.plan, (n - 0x100) / 4)
    | 2 => some (.cal, (n - 0x100) / 4)
    | _ => some (.check, (n - 0x100) / 4))
  else none

/-- The base of the page that an offset lies in. -/
def pageBase (off : Nat) : Nat := off / 0x1000 * 0x1000

/-- The instance of a row that an offset in the page names, if it names one. -/
def RegRow.index (r : RegRow) (o : Nat) : Option Nat :=
  if o < r.off then none
  else
    let d := o - r.off
    let n := d / r.stride
    let e := d % r.stride / r.step
    if n < r.count ∧ e < r.inner ∧ d % r.stride % r.step = 0 then some n else none

/-- The row of a page that an offset in the page names, with its instance. -/
def findRow (rows : List RegRow) (o : Nat) : Option (RegRow × Nat) :=
  match rows with
  | [] => none
  | r :: t => match r.index o with
    | some n => some (r, n)
    | none => findRow t o

/-- The row of a BAR0 offset, with its instance; none for an offset that is RSV, RG or on no page. -/
def rowAt (off : Nat) : Option (RegRow × Nat) :=
  match pageAt off with
  | none => none
  | some (p, _) => if off % 0x1000 < 0x100 then findRow commonRows (off % 0x1000) else findRow p.rows (off % 0x1000)

/-- The reset value of the register at a BAR0 offset, PAGE_ID included (R456, R457). -/
def resetWord (off : Nat) : Word :=
  match pageAt off with
  | none => 0
  | some (p, i) =>
    if off % 0x1000 = 0 then BitVec.ofNat 32 (p.typ * 0x10000 + i)
    else match rowAt off with
      | none => 0
      | some (r, n) => if r.firstOnly && n != 0 then 0 else r.reset

end Sys2Proof.Machine
end

