-- ==== Sys2Proof/Machine/Ops.lean ====
section
/-! DEFINITION. The named operations over the state: registers by BAR0 offset, 64-bit pairs, the flat memory,
the tables of stopes, cores, streams, classes, rings, ports and endpoints, regions and functions, notices,
messages, fences and pace. Every meaning is written over these. -/

namespace Sys2Proof.Machine

/-! ## Registers -/

/-- The stored value of the register at a BAR0 offset. -/
def State.rd (s : State) (off : Nat) : Word := Table.get (resetWord off) s.regs off

/-- The machine with the register at a BAR0 offset holding `v`. -/
def State.wr (s : State) (off : Nat) (v : Word) : State :=
  { s with regs := Table.set (resetWord off) s.regs off v }

/-- A counter advanced by `n`, wrapping at its width. -/
def State.inc (s : State) (off n : Nat) : State := s.wr off (s.rd off + BitVec.ofNat 32 n)

/-- A 64-bit pair, low word first (R6). -/
def State.rd64 (s : State) (lo : Nat) : Nat := (s.rd (lo + 4)).toNat * 0x100000000 + (s.rd lo).toNat

/-- A 64-bit pair written. -/
def State.wr64 (s : State) (lo v : Nat) : State :=
  (s.wr lo (BitVec.ofNat 32 v)).wr (lo + 4) (BitVec.ofNat 32 (v / 0x100000000))

/-- A 64-bit counter advanced by `n`, wrapping at its width. -/
def State.inc64 (s : State) (lo n : Nat) : State := s.wr64 lo (s.rd64 lo + n)

/-- A refusal code recorded in a block's LAST_REFUSE, in [15:0] (R15). A refused register write has no descriptor, and a core's LAST_REFUSE.INDEX
then reads 0 (R195; DESIGN CHOICE, log entry 146). -/
def State.refuse (s : State) (off code : Nat) : State := s.wr off (BitVec.ofNat 32 (code % 0x10000))

/-- One bit of a register set or cleared. -/
def State.wrBit (s : State) (off i : Nat) (b : Bool) : State := s.wr off (setFld (s.rd off) i i (if b then 1 else 0))

/-! ## Refusal codes (R15) -/

def rNone : Nat := 0
def rRefCold : Nat := 1
def rPlanInvalid : Nat := 2
def rDeadline : Nat := 3
def rWindowBounds : Nat := 4
def rTempWindow : Nat := 5
def rImageConflict : Nat := 6
def rAbiMismatch : Nat := 7
def rRegionViolation : Nat := 8
def rCapacity : Nat := 9

/-! ## Memory -/

/-- `n` bytes of the flat memory. -/
def State.rdMem (s : State) (a n : Nat) : List Byte := readBytes s.mem a n

/-- The machine with bytes written from an address of the flat memory up. -/
def State.wrMem (s : State) (a : Nat) (bs : List Byte) : State := { s with mem := writeBytes s.mem a bs }

/-- A 32-bit word of the flat memory, lowest byte first (R487). -/
def State.rdW (s : State) (a : Nat) : Word := BitVec.ofNat 32 (ofLe (s.rdMem a 4))

/-- A 32-bit word written, lowest byte first (R487). -/
def State.wrW (s : State) (a : Nat) (v : Word) : State := s.wrMem a (leBytes 4 v.toNat)

/-- A 64-bit word written, lowest byte first (R487). -/
def State.wrD (s : State) (a v : Nat) : State := s.wrMem a (leBytes 8 v)

/-! ## The tables of units -/

def State.stope (s : State) (i : Nat) : Stope := Table.get Stope.reset s.stopes i
def State.setStope (s : State) (i : Nat) (t : Stope) : State := { s with stopes := Table.set Stope.reset s.stopes i t }
def State.updStope (s : State) (i : Nat) (f : Stope → Stope) : State := s.setStope i (f (s.stope i))

def State.core (s : State) (c : Nat) : Core := Table.get Core.reset s.cores c
def State.setCore (s : State) (c : Nat) (t : Core) : State := { s with cores := Table.set Core.reset s.cores c t }
def State.updCore (s : State) (c : Nat) (f : Core → Core) : State := s.setCore c (f (s.core c))

def State.stream (s : State) (i : Nat) : Stream := Table.get Stream.free s.wnd.streams i
def State.setStream (s : State) (i : Nat) (t : Stream) : State :=
  { s with wnd := { s.wnd with streams := Table.set Stream.free s.wnd.streams i t } }
def State.updStream (s : State) (i : Nat) (f : Stream → Stream) : State := s.setStream i (f (s.stream i))

def State.cls (s : State) (i : Nat) : Class := Table.get Class.none s.wnd.classes i
def State.setCls (s : State) (i : Nat) (t : Class) : State :=
  { s with wnd := { s.wnd with classes := Table.set Class.none s.wnd.classes i t } }

def State.evr (s : State) (i : Nat) : EvRing := Table.get EvRing.reset s.wnd.evrs i
def State.setEvr (s : State) (i : Nat) (t : EvRing) : State :=
  { s with wnd := { s.wnd with evrs := Table.set EvRing.reset s.wnd.evrs i t } }

def State.port (s : State) (i : Nat) : Port := Table.get Port.reset s.fab.ports i
def State.setPort (s : State) (i : Nat) (t : Port) : State :=
  { s with fab := { s.fab with ports := Table.set Port.reset s.fab.ports i t } }
def State.updPort (s : State) (i : Nat) (f : Port → Port) : State := s.setPort i (f (s.port i))

def State.adit (s : State) (i : Nat) : Adit := Table.get Adit.reset s.fab.adits i
def State.setAdit (s : State) (i : Nat) (t : Adit) : State :=
  { s with fab := { s.fab with adits := Table.set Adit.reset s.fab.adits i t } }
def State.updAdit (s : State) (i : Nat) (f : Adit → Adit) : State := s.setAdit i (f (s.adit i))

def State.group (s : State) (i : Nat) : Group := Table.get Group.none s.fab.groups i
def State.setGroup (s : State) (i : Nat) (t : Group) : State :=
  { s with fab := { s.fab with groups := Table.set Group.none s.fab.groups i t } }

def State.fn (s : State) (i : Nat) : Fn := Table.get Fn.reset s.edge.fns i
def State.setFn (s : State) (i : Nat) (t : Fn) : State :=
  { s with edge := { s.edge with fns := Table.set Fn.reset s.edge.fns i t } }
def State.updFn (s : State) (i : Nat) (f : Fn → Fn) : State := s.setFn i (f (s.fn i))

def State.vslot (s : State) (i : Nat) : VSlot := Table.get VSlot.empty s.swap.slots i
def State.setVslot (s : State) (i : Nat) (t : VSlot) : State :=
  { s with swap := { s.swap with slots := Table.set VSlot.empty s.swap.slots i t } }

def State.node (s : State) (i : Nat) : TNode := Table.get TNode.reset s.hf.nodes i
def State.setNode (s : State) (i : Nat) (t : TNode) : State :=
  { s with hf := { s.hf with nodes := Table.set TNode.reset s.hf.nodes i t } }

def State.sensor (s : State) (i : Nat) : Sensor := Table.get Sensor.reset s.hf.sensors i
def State.setSensor (s : State) (i : Nat) (t : Sensor) : State :=
  { s with hf := { s.hf with sensors := Table.set Sensor.reset s.hf.sensors i t } }

def State.fence (s : State) (p : Nat) : Fence := Table.get Fence.clear s.noc.fences p
def State.setFence (s : State) (p : Nat) (t : Fence) : State :=
  { s with noc := { s.noc with fences := Table.set Fence.clear s.noc.fences p t } }

/-- The next number of a free value, and the machine with that number used up (log entry 5). -/
def State.draw (s : State) : Nat × State := (s.freeCtr, { s with freeCtr := s.freeCtr + 1 })

/-- The machine after a fold over a list. -/
def State.each {α : Type} (s : State) (l : List α) (f : State → α → State) : State := l.foldl f s

/-- A decision goes to the other modules of the job, in order (R246). -/
def State.announce (s : State) (d : Decision) : State := { s with wnd := { s.wnd with decisions := s.wnd.decisions ++ [d] } }

/-- What this module tells its job's ingress module. -/
def State.tell (s : State) (m : Told) : State := { s with wnd := { s.wnd with told := s.wnd.told ++ [m] } }

/-- Bytes of the flat memory have been written over: an operand buffer that was filled from them can no longer be refilled (R178). -/
def State.overwritten (s : State) (start len : Nat) : State :=
  let hit (o : Option Fill) : Bool := match o with
    | some f => f.src.any fun p => decide (p.1 < start + len ∧ start < p.1 + p.2)
    | none => false
  s.each ((s.cores.filter fun p => p.2.ob.any hit).map (·.1)) fun s c =>
    s.updCore c fun t => { t with ob := t.ob.map fun o => if hit o then none else o }

/-! ## Cores, endpoints and units -/

/-- The page base of a core (R454): SHELL of a stope, or MERGE. -/
def coreBase (c : Nat) : Nat := if c < 256 then shellPage c else mergePage (c - 256)

def corePace (c : Nat) : Nat := coreBase c + 0x108
def coreProt (c : Nat) : Nat := coreBase c + 0x10C
def coreLastFault (c : Nat) : Nat := coreBase c + 0x110
def coreLastRefuse (c : Nat) : Nat := coreBase c + 0x114
def coreCe (c : Nat) : Nat := coreBase c + 0x120
def coreCheckbit (c : Nat) : Nat := coreBase c + 0x124
def coreUe (c : Nat) : Nat := coreBase c + 0x128
def coreParity (c : Nat) : Nat := coreBase c + 0x12C
def coreRerun (c : Nat) : Nat := coreBase c + 0x130
def coreSpareUsed (c : Nat) : Nat := coreBase c + 0x134
def coreScrubLast (c : Nat) : Nat := coreBase c + 0x138
def coreWinRefused (c : Nat) : Nat := coreBase c + 0x140
def coreWinExpired (c : Nat) : Nat := coreBase c + 0x144
def coreSat (c : Nat) : Nat := coreBase c + 0x148
def coreDescCount (c : Nat) : Nat := coreBase c + 0x150
def coreCounter (c i : Nat) : Nat := coreBase c + 0x200 + i * 4
def coreCounterOvf (c : Nat) : Nat := coreBase c + 0x280

/-- Endpoint of a core (R21). -/
def coreEp (c : Nat) : Nat := if c < 256 then c else 0x400 + (c - 256)

/-- The core of an endpoint, for a stope or a merge core (R21). -/
def epCore (ep : Nat) : Option Nat :=
  if ep < 256 then some ep else if 0x400 ≤ ep ∧ ep < 0x410 then some (ep - 0x400 + 256) else none

/-- Endpoints of the rim units (R21). -/
def epSampler : Nat := 0x410
def epColl : Nat := 0x411
def epCage : Nat := 0x412
def epWinder : Nat := 0x413
def epAlloc : Nat := 0x414
def epWalker : Nat := 0x415
def epHeadframe : Nat := 0x416
def epHost : Nat := 0x417
def epStack (k : Nat) : Nat := 0x418 + k
def epPort (p : Nat) : Nat := 0x420 + p
def epVault (v : Nat) : Nat := 0x438 + v

/-- The endpoints that exist in H1 as data-network destinations (R21). -/
def epExists (ep : Nat) : Bool := ep < 256 || (0x400 ≤ ep && ep < 0x43A)

/-- The page whose common registers belong to an endpoint, where it has one (R21, R454). -/
def epPage (ep : Nat) : Option Nat :=
  if ep < 256 then some (shellPage ep)
  else if 0x400 ≤ ep ∧ ep < 0x410 then some (mergePage (ep - 0x400))
  else if ep = epSampler then some smpPage
  else if ep = epColl then some collPage
  else if ep = epWinder then some wndPage
  else if ep = epAlloc then some kvpPage
  else if ep = epWalker then some pfxPage
  else if ep = epHeadframe then some hfPage
  else if ep = epHost then some ringPage
  else if 0x418 ≤ ep ∧ ep < 0x420 then some (stackPage (ep - 0x418))
  else if 0x420 ≤ ep ∧ ep < 0x438 then some (peligPage (ep - 0x420))
  else if ep = 0x438 ∨ ep = 0x439 then some vaultPage
  else none

/-! ## Regions and functions (R39 to R43, R451, R455) -/

/-- A region descriptor's words in force: GEOM, GATE, EDGE, PORTS. -/
structure RegionDesc where
  geom : Word
  gate : Word
  edge : Word
  ports : Word
  deriving DecidableEq, Repr

def State.region (s : State) (n : Nat) : RegionDesc :=
  { geom := s.rd (nocGeom n), gate := s.rd (nocGate n), edge := s.rd (nocEdge n), ports := s.rd (nocPorts n) }

def RegionDesc.valid (r : RegionDesc) : Bool := bit r.geom 0
def RegionDesc.x0 (r : RegionDesc) : Nat := fld r.geom 5 1
def RegionDesc.y0 (r : RegionDesc) : Nat := fld r.geom 10 6
def RegionDesc.x1 (r : RegionDesc) : Nat := fld r.geom 15 11
def RegionDesc.y1 (r : RegionDesc) : Nat := fld r.geom 20 16
def RegionDesc.vf (r : RegionDesc) : Nat := fld r.geom 24 21
def RegionDesc.gateway (r : RegionDesc) : Nat := fld r.gate 9 0
def RegionDesc.stacks (r : RegionDesc) : Nat := fld r.edge 7 0
def RegionDesc.merge (r : RegionDesc) : Nat := fld r.edge 23 8
def RegionDesc.portMask (r : RegionDesc) : Nat := fld r.ports 23 0

/-- Whether the rectangle holds stope `i` = 16·y + x (R18). -/
def RegionDesc.holds (r : RegionDesc) (i : Nat) : Bool :=
  decide (r.x0 ≤ i % 16 ∧ i % 16 ≤ r.x1 ∧ r.y0 ≤ i / 16 ∧ i / 16 ≤ r.y1)

/-- The stopes of the rectangle. -/
def RegionDesc.stopes (r : RegionDesc) : List Nat := if r.valid then (List.range 256).filter r.holds else []

/-- The valid regions' numbers. -/
def State.regions (s : State) : List Nat := (List.range 16).filter fun n => (s.region n).valid

/-- The region that holds stope `i`. -/
def State.stopeRegion (s : State) (i : Nat) : Option Nat := s.regions.find? fun n => (s.region n).holds i

/-- The region that owns an endpoint: a stope's, a merge core's, a stack's or a port's (R39). -/
def State.epRegion (s : State) (ep : Nat) : Option Nat :=
  if ep < 256 then s.stopeRegion ep
  else if 0x400 ≤ ep ∧ ep < 0x410 then s.regions.find? fun n => bitAt (s.region n).merge (ep - 0x400)
  else if 0x418 ≤ ep ∧ ep < 0x420 then s.regions.find? fun n => bitAt (s.region n).stacks (ep - 0x418)
  else if 0x420 ≤ ep ∧ ep < 0x438 then s.regions.find? fun n => bitAt (s.region n).portMask (ep - 0x420)
  else none

/-- The region of a core. -/
def State.coreRegion (s : State) (c : Nat) : Option Nat := s.epRegion (coreEp c)

/-- Whether an endpoint is a rim unit that the rim bus serves for every region (R21, R43). -/
def isRim (ep : Nat) : Bool := 0x410 ≤ ep && ep < 0x418

/-- The region that a virtual function serves (R451). -/
def State.vfRegion (s : State) (f : Nat) : Option Nat := s.regions.find? fun n => (s.region n).vf + 1 == f

/-- Whether function `f` owns region `n`: the physical function owns every region (R42). -/
def State.ownsRegion (s : State) (f n : Nat) : Bool := f == 0 || s.vfRegion f == some n

/-- Whether function `f` owns what an endpoint names. -/
def State.ownsEp (s : State) (f ep : Nat) : Bool :=
  f == 0 || (match s.epRegion ep with
    | some n => s.ownsRegion f n
    | none => false)

/-- Whether function `f`'s BAR0 maps the page at an offset (R455). -/
def State.mapped (s : State) (f off : Nat) : Bool :=
  match pageAt off with
  | none => false
  | some (p, i) =>
    f == 0 || (match p with
      | .dir | .dev | .assay | .time | .wnd | .ring | .smp | .kvp | .pfx | .coll | .window | .sw | .mw => true
      | .pelig => s.ownsEp f (epPort i)
      | .merge => s.ownsEp f (0x400 + i)
      | .stack => s.ownsEp f (epStack i)
      | .shell | .plan | .cal | .check => s.ownsEp f i
      | _ => false)

/-- The region in whose name function `f` acts: a virtual function's region, region 0 for the physical
function. -/
def State.fnRegion (s : State) (f : Nat) : Nat := (s.vfRegion f).getD 0

/-! ## Ways through the meshes (R18, R19, R43) -/

/-- The stope an endpoint attaches to (R19): a stope itself, a merge core's, a stack's command entry, a port's. -/
def attachStope (ep : Nat) : Option Nat :=
  let row (k : Nat) : Nat := if k < 4 then 0 else 15
  if ep < 256 then some ep
  else if 0x400 ≤ ep ∧ ep < 0x410 then
    let m := ep - 0x400
    let k := m / 2
    some (16 * row k + 4 * (k % 4) + 1 + m % 2)
  else if 0x418 ≤ ep ∧ ep < 0x420 then some (16 * row (ep - 0x418) + 4 * ((ep - 0x418) % 4))
  else if 0x420 ≤ ep ∧ ep < 0x438 then
    let p := ep - 0x420
    some (if p < 16 then 16 * p + 15 else 16 * (p - 12))
  else none

/-- Whether a stope lies on the edge (R18). -/
def isEdge (i : Nat) : Bool := i < 256 && (i % 16 == 0 || i % 16 == 15 || i / 16 == 0 || i / 16 == 15)

/-- The router and the port by which an endpoint's traffic enters and leaves a mesh: its own, or for a unit of the rim the gateway stope
of the region (R18, R19, R43). -/
def State.meshPort (s : State) (region ep : Nat) : Nat × Nat :=
  if ep < 256 then (ep, 0)
  else match attachStope ep with
    | some i => (i, if ep < 0x410 then 7 else if ep < 0x420 then 6 else 8)
    | none => ((s.region region).gateway, 5)

/-- Whether traffic crosses the mesh: between two units of the rim, or from one to an edge resource, the rim bus carries it (R43). -/
def crossesMesh (src dest : Nat) : Bool := (attachStope src).isSome || decide (dest < 256)

/-- The data mesh with a packet entered at its source (R32). -/
def State.dataWith (s : State) (m : Packet) : Mesh :=
  if crossesMesh m.src m.dest then
    let i := s.meshPort m.region m.src
    let o := s.meshPort m.region m.dest
    s.noc.nets.data.enter i.1 i.2
      { id := 0, chan := m.vc, flits := packetFlits m.bytes, src := m.src, dest := m.dest, exit := o.1, out := o.2, msg := none }
  else s.noc.nets.data

/-- A packet enters the data network at its source (R32). -/
def State.enterData (s : State) (m : Packet) : State :=
  { s with noc := { s.noc with nets := { s.noc.nets with data := s.dataWith m } } }

/-- The control mesh with a message entered at its source (R36 to R38). A message to every stope of a region is one command at all its
targets, and takes no way of its own. -/
def State.ctlWith (s : State) (m : CtlMsg) : Mesh :=
  if crossesMesh m.src m.dest && m.dest != 0xFFF then
    let i := s.meshPort m.region m.src
    let o := s.meshPort m.region m.dest
    s.noc.nets.ctl.enter i.1 i.2
      { id := 0, chan := ctlLevel m, flits := (ctlWords m).length, src := m.src, dest := m.dest, exit := o.1, out := o.2, msg := some m }
  else s.noc.nets.ctl

/-- A message enters the control network at its source (R36 to R38). -/
def State.enterCtl (s : State) (m : CtlMsg) : State :=
  { s with noc := { s.noc with nets := { s.noc.nets with ctl := s.ctlWith m } } }

/-- Whether the copies of a message that the state holds are all still on their way (R38). -/
def State.underWay (s : State) (m : CtlMsg) (held : Nat) : Bool :=
  s.noc.nets.ctl.copies m != 0 && decide (held ≤ s.noc.nets.ctl.copies m)

/-! ## Notices, messages and fences -/

/-- The source ID of R51: the device in [31:12] and the endpoint in [11:0]. -/
def State.sourceId (s : State) (ep : Nat) : Nat := s.edge.devId * 0x1000 + ep % 0x1000

/-- The next event number of a source, and the machine with that number used (R51). -/
def State.nextSeq (s : State) (src : Nat) : Nat × State :=
  let q := Table.get 0 s.noc.nets.seqs src
  (q, { s with noc := { s.noc with nets := { s.noc.nets with seqs := Table.set 0 s.noc.nets.seqs src ((q + 1) % 0x100000000) } } })

/-- The FAULT_NOTICE message that carries a notice: its argument is the cause (R36, R37). -/
def noticeMsg (n : Notice) : CtlMsg :=
  { dest := 0x416, args := 1, region := n.region, typ := 7, timeHint := n.time % 0x10000, src := n.source, arg0 := BitVec.ofNat 32 n.cause, arg1 := 0 }

/-- A fault notice on its way to the headframe (R37), stamped with the source's time, or later where what caused it gave a later
stamp (R50), and numbered by its source (R51). -/
def State.notify (s : State) (n : Notice) : State :=
  let (q, s) := s.nextSeq (s.sourceId n.source)
  let n := { n with time := max s.now n.time, seq := q }
  { s with noc := { s.noc with notices := s.noc.notices ++ [n] } }.enterCtl (noticeMsg n)

/-- A notice with a cause, a unit, a detail and a source endpoint, concerning no stream, with no stamp yet. -/
def mkNotice (cause unit detail source region : Nat) : Notice :=
  { cause := cause, unit := unit, detail := detail, source := source, stream := none, region := region, time := 0, seq := 0 }

/-- A control message on its way (R36). -/
def State.send (s : State) (m : CtlMsg) : State := { s with noc := { s.noc with ctl := s.noc.ctl ++ [m] } }.enterCtl m

/-- A control message of a type to an endpoint, with up to two arguments; the router writes SRC. -/
def State.ctlMsg (s : State) (dest src typ region args a0 a1 : Nat) : CtlMsg :=
  { dest := dest, args := args, region := region, typ := typ, timeHint := s.now % 0x10000, src := src,
    arg0 := BitVec.ofNat 32 a0, arg1 := BitVec.ofNat 32 a1 }

/-- The classes that the headframe holds at a block: the host fence holds all four, each own cause its classes (R47). -/
def Fence.want (f : Fence) : Nat :=
  (f.causes.map (·.2)).foldl (fun a b => a ||| b) (if f.host then 0xF else 0)

/-- The headframe sends a block its classes: FENCE_SET for those it holds, FENCE_CLEAR for those it no longer
holds (R47). `p` is the block's page; where the endpoint carries several pages, a second argument names the
page (DESIGN CHOICE, log entry 9). -/
def State.sendFence (s : State) (p ep old new : Nat) : State :=
  let region := (s.epRegion ep).getD 0
  let args := if epPage ep = some p then 1 else 2
  let a1 := if epPage ep = some p then 0 else p
  let set := new &&& (0xF ^^^ old)
  let clr := old &&& (0xF ^^^ new)
  let s := if set = 0 then s else s.send (s.ctlMsg ep epHeadframe 5 region args set a1)
  if clr = 0 then s else s.send (s.ctlMsg ep epHeadframe 6 region args clr a1)

/-- The block's endpoint for the fence messages of a page: a stope's sub-pages are one block. -/
def pageEp (p : Nat) : Nat :=
  match pageAt p with
  | some (.shell, i) | some (.plan, i) | some (.cal, i) | some (.check, i) => i
  | some (.merge, i) => 0x400 + i
  | some (.stack, i) => epStack i
  | some (.pelig, i) => epPort i
  | some (.smp, _) => epSampler
  | some (.coll, _) => epColl
  | some (.wnd, _) => epWinder
  | some (.kvp, _) => epAlloc
  | some (.pfx, _) => epWalker
  | some (.vault, _) => epVault 0
  | some (.ring, _) => epHost
  | _ => epHeadframe

/-- The page that stands for a block: the SHELL sub-page for all four of a stope (R41, R457). -/
def blockPage (p : Nat) : Nat :=
  match pageAt p with
  | some (.shell, i) | some (.plan, i) | some (.cal, i) | some (.check, i) => shellPage i
  | _ => pageBase p

/-- The headframe takes up a cause of its own at a block, with the classes it holds (R47). Causes: 0 fault,
1 PROG_LOST, 2 takeover, 3 power-down, 4 region membership, 5 slice lost. -/
def State.fenceFor (s : State) (p cause classes : Nat) : State :=
  let f := s.fence p
  let g := { f with causes := (f.causes.filter fun x => x.1 != cause) ++ [(cause, classes)] }
  (s.setFence p g).sendFence p (pageEp p) f.want g.want

/-- The headframe drops a cause of its own at a block (R47). -/
def State.unfence (s : State) (p cause : Nat) : State :=
  let f := s.fence p
  let g := { f with causes := f.causes.filter fun x => x.1 != cause }
  (s.setFence p g).sendFence p (pageEp p) f.want g.want

/-- Whether a class is in force at a block: bit 0 ISSUE, 1 CONVERT, 2 PROGRAM, 3 INJECT (R47). A stope in no
valid region is fenced in all classes (R44). -/
def State.fenced (s : State) (p cl : Nat) : Bool :=
  bitAt (s.fence p).classes cl ||
  (match pageAt p with
   | some (.shell, i) => (s.stopeRegion i).isNone
   | _ => false)

/-- A stope's fence class. -/
def State.stopeFenced (s : State) (i cl : Nat) : Bool := s.fenced (shellPage i) cl

/-- A core's fence class. -/
def State.coreFenced (s : State) (c cl : Nat) : Bool := s.fenced (coreBase c) cl

/-- Whether a block's page is quiesced, so that it accepts no work (R41, R457). -/
def State.isQuiesced (s : State) (p : Nat) : Bool := s.noc.quiesced.contains (blockPage p)

/-- The stopes of the old and the new rectangle of a region change (R41). -/
def changeStopes (o d : RegionDesc) : List Nat := (List.range 256).filter fun i => (o.valid && o.holds i) || (d.valid && d.holds i)

/-- The stopes of which the NOC itself asks QUIESCE: those of a change that it holds (R482). -/
def State.nocAsks (s : State) : List Nat :=
  match s.noc.pending with
  | none => []
  | some (n, g, ga, e, p) => changeStopes (s.region n) { geom := g, gate := ga, edge := e, ports := p }

/-- Whether QUIESCE has been asked of a block, by a write or by the NOC. -/
def State.quiescing (s : State) (p : Nat) : Bool :=
  s.noc.quiesce.contains (blockPage p) || s.nocAsks.any fun i => shellPage i == blockPage p

/-- New tokens of the job are held until the shard of a device is VALID again (R369). -/
def State.holdShard (s : State) (d : Nat) : State :=
  if s.wnd.sliceHold.contains d then s else { s with wnd := { s.wnd with sliceHold := s.wnd.sliceHold ++ [d] } }

/-- The ingress module learns that another device of its job has lost its slices, by that device's report or with every path to it (R369, R405; how it
learns is DEDUCED, log entry 164). -/
def State.loseShard (s : State) (d : Nat) : State :=
  if bitAt s.wnd.roles 0 && d != s.edge.devId && s.wnd.job.devices.contains d then s.holdShard d else s

/-- Whether a page's ENABLE is 1 (R457). -/
def State.enabled (s : State) (p : Nat) : Bool := bit (s.rd (regPageCtrl p)) 0

/-! ## Path endpoints (R397, R416) -/

def Adit.valid (a : Adit) : Bool := bit a.kind 0
def Adit.transit (a : Adit) : Bool := bit a.kind 1
def Adit.region (a : Adit) : Nat := fld a.kind 5 2
def Adit.inPort (a : Adit) : Nat := fld a.kind 10 6
def Adit.upPath (a : Adit) : Nat := fld a.kind 22 11
def Adit.peerDev (a : Adit) : Nat := fld a.peer 19 0
def Adit.isLocal (a : Adit) : Bool := a.valid && !a.transit

/-- A route's fields. -/
def rtPort (w : Word) : Nat := fld w 4 0
def rtPath (w : Word) : Nat := fld w 16 5
def rtHops (w : Word) : Nat := fld w 19 17

/-- Whether a path endpoint that is not DOWN runs over a port (R397, R404). -/
def Adit.usesPort (a : Adit) (p : Nat) : Bool :=
  a.isLocal && a.state != .down && ((rtHops a.routeA != 0 && rtPort a.routeA == p) || (rtHops a.routeB != 0 && rtPort a.routeB == p))

/-! ## What the headframe and the winder do at a period -/

/-- A work's number and its period in ns: a step of VCORE (R428), a step of PERF (R429), the release of a held level (R440), the recomputation of
Pg (R445), the thermal model's update (R431). -/
def perVcore : Nat × Nat := (0, 10000)
def perPolicy : Nat × Nat := (1, 10000000)
def perRelease : Nat × Nat := (2, 10000000)
def perPg : Nat × Nat := (3, 100000000)
def perThermal : Nat × Nat := (4, 100000)

/-- The number of the energy windows, which are aligned to whole milliseconds (R441). -/
def perWindow : Nat := 5

/-- When a work was last done, if it was. -/
def State.lastDone (s : State) (k : Nat) : Option Nat := (s.hf.marks.find? fun p => p.1 == k).map (·.2)

/-- Whether a work's period has passed since it was last done. -/
def State.perDue (s : State) (x : Nat × Nat) : Bool := (s.lastDone x.1).all fun t => decide (t + x.2 ≤ s.now)

/-- Whether an energy window that has no grant yet has begun (R441). -/
def State.windowDue (s : State) : Bool := (s.lastDone perWindow).all fun t => decide (t / 1000000 < s.now / 1000000)

/-- A work is done now. -/
def State.perMark (s : State) (k : Nat) : State := { s with hf := { s.hf with marks := Table.put s.hf.marks k s.now } }

/-! ## Time and pace -/

/-- The sender's time that TIME_HINT stands for: the largest value not above now + 16 whose low 16 bits are the
hint (R50). -/
def rebuildTime (now hint : Nat) : Nat :=
  let t := now + 16
  let b := t / 0x10000 * 0x10000 + hint
  if b ≤ t then b else b - 0x10000

/-- The stamp of an event that a message with this hint caused (R50). -/
def stampFor (now hint : Nat) : Nat := max now (rebuildTime now hint + 1)

/-- The effective pace over blocks, in Q2.14 (R26). -/
def State.effPace (s : State) (eps : List Nat) : Nat :=
  (eps.filterMap fun e =>
    let p := Table.get { value := 0, time := 0 } s.noc.pace e
    if p.value ≠ 0 ∧ s.now ≤ p.time + 1000000 then some p.value else none).foldl min s.hf.plan.speed

/-- A promised bound: a nominal part over the effective pace, plus parts that do not scale, rounded up once to
a whole nanosecond (R26). -/
def paceBound (nominal fixed : Rat) (pace : Nat) : Nat :=
  ratCeil (nominal * 16384 / (pace : Rat) + fixed)

/-- Rim endpoints and every stope and merge core: all blocks that publish a pace (R25). -/
def allPaced : List Nat := List.range 256 ++ (List.range 0x1A).map (0x400 + ·)

end Sys2Proof.Machine
end

