-- ==== Sys2Proof/Machine/Operands.lean ====
section
/-! DEFINITION. The operand forms: how a register write acts on the fields of its register (R7, R10), which
function may write a page (R42, R455, R457), and the ranges of the growth fields (R3). -/

namespace Sys2Proof.Machine

/-- Whether a field takes a value, and whether a value it does not take sets RG_WRITE (R10). -/
def Chk.accepts (c : Chk) (v : Nat) : Bool × Bool :=
  match c with
  | .any => (true, false)
  | .range lo hi => (decide (lo ≤ v ∧ v ≤ hi), false)
  | .rangeRg lo hi => (decide (lo ≤ v ∧ v ≤ hi), true)
  | .pow2 lo hi => (decide (lo ≤ v ∧ v ≤ hi ∧ v.isPowerOfTwo), false)
  | .mult k hi => (decide (v % k = 0 ∧ v ≤ hi), false)

/-- One field of a register after a write of `new` (R7, R10): the word, and whether RG_WRITE sets. -/
def Field.write (fd : Field) (acc : Word × Bool) (new : Word) : Word × Bool :=
  let v := fld new fd.hi fd.lo
  match fd.acc with
  | .rw =>
    let (ok, rg) := fd.chk.accepts v
    if ok then (setFld acc.1 fd.hi fd.lo v, acc.2) else (acc.1, acc.2 || rg)
  | .w1c => (setFld acc.1 fd.hi fd.lo (fld acc.1 fd.hi fd.lo &&& (2 ^ (fd.hi + 1 - fd.lo) - 1 - v)), acc.2)
  | .w1s => acc

/-- A register's word after a write of `new`: the fields take their values, every other bit stays (R7, R10). A
W1S field holds no value of its own: what it starts is the command's effect, and it reads 0. -/
def writeFields (fields : List Field) (old new : Word) : Word × Bool :=
  fields.foldl (fun acc fd => fd.write acc new) (old, false)

/-- The mask of the RG bits of a register: PAGE_VER [11:0], PAGE_CAPS and the common offsets 0x02C to 0x03C (R456, R457). -/
def rgMask (off : Nat) : Word :=
  let o := off % 0x1000
  if o = 0x004 then 0xFFF else if o = 0x008 ∨ (0x02C ≤ o ∧ o < 0x040) then 0xFFFFFFFF else 0

/-- Registers that only the physical function writes: OWNER (R457), TALLY_CTRL, TIME_CTRL, the WINDOW, POWER and
NOC pages (R42), the path table, the pool registers (R197) and PC_FENCE. -/
def pfOnly (off : Nat) : Bool :=
  off % 0x1000 == 0x028 ||
  (match pageAt off with
   | some (.window, _) | some (.pwr, _) | some (.noc, _) | some (.adit, _) => true
   | some (.tally, _) => off == tallyCtrl
   | some (.time, _) => off == timeCtrl
   | some (.merge, i) => mergePoolGrantLo i ≤ off && off ≤ mergePoolRoHi i
   | some (.stack, i) => off == stackPcFence i
   | _ => false)

/-- Whether function `f` may write the register at an offset: the page is mapped (R455), a locked page is
written by the physical function and the function of its region alone (R457), and a register kept for the
physical function by it alone. -/
def State.mayWrite (s : State) (f off : Nat) : Bool :=
  s.mapped f off && (f == 0 || !(pfOnly off)) &&
  (f == 0 || !(bit (s.rd (regOwner (pageBase off))) 8) ||
    s.vfRegion f == some (fld (s.rd (regOwner (pageBase off))) 3 0))

/-- The registers that are one for the whole pool, visible in every MERGE page: their one home is page 0 (R197). -/
def homeOff (off : Nat) : Nat :=
  match pageAt off with
  | some (.merge, _) =>
    let o := off % 0x1000
    if (0x160 ≤ o ∧ o < 0x170) ∨ o = 0x174 then mergePage 0 + o else off
  | _ => off

/-- A stream ID in H1's range (R3). -/
def streamOk (v : Nat) : Bool := v < 16384

/-- A device ID in H1's range (R3). -/
def deviceOk (v : Nat) : Bool := v < 32768

/-- A token ID in H1's range (R3). -/
def tokenOk (v : Nat) : Bool := v < 262144

/-- A macro index that exists (R20). -/
def macroOk (v : Nat) : Bool := v < 74

end Sys2Proof.Machine
end

