-- ==== Sys2Proof/Machine/Flags.lean ====
section
/-! DEFINITION. The flag computations every page shares: the RG_WRITE error of R8, the error event of R457 and
its MSI-X message (R452), and the write of a register's fields. -/

namespace Sys2Proof.Machine

/-- An MSI-X message of a function leaves the module (R452). -/
def State.msi (s : State) (f vector : Nat) : State := { s with edge := { s.edge with msi := s.edge.msi ++ [(f, vector)] } }

/-- ERR_STATUS.RG_WRITE of a page sets (R8). When its mask bit is clear the page raises an error event: with
EVT_EN.ERR it sets EVT_STATUS.ERR, and setting that raises vector 0 of the function's table (R457). -/
def State.rgWrite (s : State) (f page : Nat) : State :=
  let s := s.wrBit (regErrStatus page) 31 true
  if bit (s.rd (regErrMask page)) 31 then s
  else if bit (s.rd (regEvtEn page)) 0 then
    let was := bit (s.rd (regEvtStatus page)) 0
    let s := s.wrBit (regEvtStatus page) 0 true
    if was then s else s.msi f 0
  else s

/-- A write's effect on the stored fields of a register, with RG_WRITE where it sets (R7, R8, R10). -/
def State.storeReg (s : State) (f off : Nat) (v : Word) : State :=
  match rowAt off with
  | some (r, _) =>
    let h := homeOff off
    let (w, rg) := writeFields r.fields (s.rd h) v
    let s := s.wr h w
    if rg || v &&& rgMask off != 0 then s.rgWrite f (pageBase off) else s
  | none => if v &&& rgMask off = 0 then s else s.rgWrite f (pageBase off)

end Sys2Proof.Machine
end

