-- ==== Sys2Proof/Machine/Events.lean ====
section
/-! DEFINITION. Event records (R260 to R266): their bytes, the ring they go to, the hold when a ring has no
room, and the coalesced MSI-X message. -/

namespace Sys2Proof.Machine

/-- A record's 32 bytes with its PHASE (R260). -/
def Record.bytes (r : Record) (phase : Bool) : List Byte :=
  [BitVec.ofNat 8 r.typ, BitVec.ofNat 8 (r.flags / 2 * 2 + flag phase 0)] ++ leBytes 2 r.code ++ leBytes 4 r.stream ++
    leBytes 8 r.time ++ leBytes 8 r.tag.toNat ++ leBytes 8 r.data.toNat

/-- Records the host has not yet consumed: both counts are 16 bits (R264). -/
def EvRing.outstanding (r : EvRing) : Nat := (r.tail + 0x10000 - r.head) % 0x10000

/-- Whether the ring takes a record now: enabled and with room (R264, R300). -/
def EvRing.roomy (r : EvRing) : Bool := r.en && decide (r.outstanding < r.size)

/-- The ring after one more record: the count advances and PHASE turns at the end of a pass (R261). -/
def EvRing.advance (r : EvRing) : EvRing :=
  { r with tail := (r.tail + 1) % 0x10000, phase := if (r.tail + 1) % r.size = 0 then !r.phase else r.phase }

/-- Whether a ring's function lets the device write to host memory: D3hot stops DMA (R450). -/
def State.dmaOn (s : State) (f : Nat) : Bool := !(s.fn f).d3

/-- The record is in host memory; the vector is raised after COUNT records, each time when COUNT is 0 (R265),
and only after the record (R452). -/
def State.writeRecord (s : State) (i : Nat) (rec : Record) : State :=
  let r := s.evr i
  let s := s.wrMem (hostBase + r.base.toNat + r.tail % r.size * 32) (rec.bytes r.phase)
  let n := r.unsignalled + 1
  if r.count ≤ n then (s.setEvr i { r.advance with unsignalled := 0, oldest := none }).msi r.fn r.vector
  else s.setEvr i { r.advance with unsignalled := n, oldest := some (r.oldest.getD s.now) }

/-- Whether ring `i` takes a record at once: nothing held or waiting before it, room, and its function's DMA on. -/
def State.evrReady (s : State) (i : Nat) : Bool :=
  (s.evr i).held.isEmpty && (s.evr i).roomy && s.dmaOn (s.evr i).fn && !(s.wnd.evWait.any fun w => w.1 == i)

/-- Records held across the rings of the module. -/
def State.heldRecords (s : State) : Nat := (s.wnd.evrs.map fun p => p.2.held.length).sum

/-- A record enters the hold of ring `i`. -/
def State.holdRecord (s : State) (i : Nat) (rec : Record) : State := s.setEvr i { s.evr i with held := (s.evr i).held ++ [rec] }

/-- A record goes to event ring `i`: written at once, or held in order; while the module's hold of 4,096 is full, it waits at its source, in
order (R264; DESIGN CHOICE, log entry 150: no record is dropped, and the hold takes no more). -/
def State.post (s : State) (i : Nat) (rec : Record) : State :=
  if s.evrReady i then s.writeRecord i rec
  else if s.heldRecords < 4096 ∧ s.wnd.evWait = [] then s.holdRecord i rec
  else { s with wnd := { s.wnd with evWait := s.wnd.evWait ++ [(i, rec)] } }

/-- A record that waits at its source enters the hold when there is room (R264). -/
def State.admitWaiting (s : State) : State :=
  match s.wnd.evWait with
  | (i, rec) :: rest => if s.heldRecords < 4096 then { s with wnd := { s.wnd with evWait := rest } }.holdRecord i rec else s
  | [] => s

/-- Whether a stream whose next event goes to ring `i` holds at its token boundary: the module's hold of 4,096
records is full and the ring has no room (R264). -/
def State.evrBlocked (s : State) (i : Nat) : Bool := decide (4096 ≤ s.heldRecords) && !(s.evrReady i)

/-- A stream's event, to the ring its configuration names (R263). -/
def State.streamEvent (s : State) (stream typ flags code : Nat) (tag data : DWord) : State :=
  s.post (s.stream stream).ringEvr
    { typ := typ, flags := flags, code := code, stream := stream, time := s.now, tag := tag, data := data }

/-- A class event, to the control ring's event ring (R263). -/
def State.classEvent (s : State) (typ flags code : Nat) (tag data : DWord) : State :=
  s.post s.wnd.ctrlEvr
    { typ := typ, flags := flags, code := code, stream := 0xFFFFF, time := s.now, tag := tag, data := data }

/-- A module event, to the ring of MOD_EVR (R263). -/
def State.moduleEvent (s : State) (typ code stream : Nat) (data : DWord) : State :=
  s.post (fld (s.rd ringModEvr) 5 0)
    { typ := typ, flags := 0, code := code, stream := stream, time := s.now, tag := 0, data := data }

/-- Event types of R262. -/
def evTokenOut : Nat := 1
def evStreamDone : Nat := 2
def evRefused : Nat := 3
def evThrottle : Nat := 4
def evAtRisk : Nat := 5
def evFault : Nat := 6
def evParkDone : Nat := 7
def evSwapDone : Nat := 8

/-- The oldest held record of a ring is written once the ring takes it, and a record that waits takes its place in the hold (R264). -/
def State.heldWrite (s : State) (ring : Nat) : State :=
  match s.admitWaiting, (s.admitWaiting.evr ring).held with
  | s, rec :: rest =>
    if (s.evr ring).roomy && s.dmaOn (s.evr ring).fn then
      ((s.setEvr ring { s.evr ring with held := rest }).writeRecord ring rec).admitWaiting
    else s
  | s, [] => s

/-- EVR_TIME_EXPIRY (R265): TIME µs after the oldest record not yet signalled, the ring raises its vector. -/
def execEvrTimeExpiry (ring : Nat) (s : State) : Host.Outcome State Fault Refusal :=
  .next (match (s.evr ring).oldest with
    | some t =>
      if t + (s.evr ring).time * 1000 ≤ s.now then
        (s.setEvr ring { s.evr ring with unsignalled := 0, oldest := none }).msi (s.evr ring).fn (s.evr ring).vector
      else s
    | none => s)

end Sys2Proof.Machine
end

