-- ==== Sys2Proof/Machine/Causes.lean ====
section
/-! DEFINITION. The cause codes of R374 with their report classes (R370). -/

namespace Sys2Proof.Machine

/-! ## Causes (R374) -/

def causeDescInvalid : Nat := 0x0100
def causeProgLost : Nat := 0x0101
def causeSpUe : Nat := 0x0102
def causeSpWordBad : Nat := 0x0103
def causeSpSparesOut : Nat := 0x0104
def causeAccUe : Nat := 0x0105
def causeObParity : Nat := 0x0106
def causeGroupMismatch : Nat := 0x0107
def causeWindowMissing : Nat := 0x0108
def causeWindowExpired : Nat := 0x0109
def causeCwaitTimeout : Nat := 0x010A
def causeCntOverflow : Nat := 0x010B
def causeXcheckFail : Nat := 0x010C
def causeStepLate : Nat := 0x010D
def causeBuddyTakeover : Nat := 0x010E
def causeMergeTakeover : Nat := 0x010F
def causeRefLost : Nat := 0x0200
def causeBankNotReady : Nat := 0x0201
def causeCalMissing : Nat := 0x0202
def causeCalRange : Nat := 0x0203
def causeNoiseHigh : Nat := 0x0204
def causeSeamMismatch : Nat := 0x0205
def causeSeamRerun : Nat := 0x0206
def causeSeamSuspect : Nat := 0x0207
def causeSeamUnprotected : Nat := 0x0208
def causeReconEnter : Nat := 0x0209
def causeSpareActive : Nat := 0x020A
def causeSparesOut : Nat := 0x020B
def causeSliceLost : Nat := 0x020C
def causeCanaryRange : Nat := 0x020D
def causeCanaryStats : Nat := 0x020E
def causeCanaryNan : Nat := 0x020F
def causeAssayFail : Nat := 0x0210
def causeAssayForced : Nat := 0x0211
def causeEnduranceWarn : Nat := 0x0212
def causeRefreshHeld : Nat := 0x0213
def causeDriftRefresh : Nat := 0x0214
def causeLayerFail : Nat := 0x0215
def causePaceLow : Nat := 0x0300
def causeRouterDiscard : Nat := 0x0301
def causeRouterFail : Nat := 0x0302
def causeKvWriteDenied : Nat := 0x0303
def causeKvcmdInvalid : Nat := 0x0304
def causeStackOff : Nat := 0x0305
def causePcFail : Nat := 0x0306
def causeKvRestored : Nat := 0x0307
def causeParkDigest : Nat := 0x0308
def causeGenChanged : Nat := 0x0309
def causeImageBad : Nat := 0x030A
def causeSwapTimeout : Nat := 0x030B
def causeCheckRepaired : Nat := 0x030C
def causeParkFail : Nat := 0x030D
def causeLaneDegraded : Nat := 0x0400
def causeLinkDown : Nat := 0x0401
def causePathSwitched : Nat := 0x0402
def causeMcPartial : Nat := 0x0403
def causeLinkReplay : Nat := 0x0404
def causeSensorBroken : Nat := 0x0500
def causePhaseFail : Nat := 0x0501
def causeModelRefit : Nat := 0x0502
def causeThermalWarn : Nat := 0x0503
def causeThermalTrip : Nat := 0x0504
def causeThrottleEnforced : Nat := 0x0505
def causeTallyMerge : Nat := 0x0600
def causeTallyFull : Nat := 0x0601
def causeModuleLoss : Nat := 0x0602
def causeRingBypass : Nat := 0x0603

/-- Report classes (R370, R371). -/
inductive RepClass where
  | alarm | log | trace
  deriving DecidableEq, Repr

/-- The CLASS byte of R371. -/
def RepClass.code : RepClass → Nat
  | .alarm => 0
  | .log => 1
  | .trace => 2

/-- The causes of class ALARM (R374). -/
def alarmCauses : List Nat := [
  0x0101, 0x0102, 0x0103, 0x0104, 0x0105, 0x010C, 0x010D, 0x010E, 0x010F, 0x0204, 0x0205, 0x0207, 0x0208, 0x0209, 0x020B, 0x020C, 0x020F, 0x0210, 0x0212, 0x0213, 0x0215, 0x0300, 0x0302, 0x0306, 0x0307, 0x0308, 0x030A, 0x030B, 0x0400, 0x0401, 0x0402, 0x0500, 0x0501, 0x0503, 0x0504, 0x0600, 0x0601, 0x0602, 0x0603]

/-- The causes of class TRACE (R374). -/
def traceCauses : List Nat := [0x0206, 0x0404]

/-- The class of a cause: the refusal codes of R15 have class LOG (R374). -/
def causeClass (c : Nat) : RepClass :=
  if alarmCauses.contains c then .alarm else if traceCauses.contains c then .trace else .log

end Sys2Proof.Machine
end

