-- ==== Sys2Proof/Machine/Crypto.lean ====
section
/-! DEFINITION. SHA-256 (FIPS 180-4), AES-128 (FIPS 197), the CRC-64 of R484 and the CRC-24 of the Pelig flit:
the functions the rules name. -/

namespace Sys2Proof.Machine

/-! ## SHA-256 -/

/-- The first primes' cube-root fractions, the round constants of FIPS 180-4. -/
def shaK : List (BitVec 32) := [
  0x428a2f98, 0x71374491, 0xb5c0fbcf, 0xe9b5dba5, 0x3956c25b, 0x59f111f1, 0x923f82a4, 0xab1c5ed5] ++ [
  0xd807aa98, 0x12835b01, 0x243185be, 0x550c7dc3, 0x72be5d74, 0x80deb1fe, 0x9bdc06a7, 0xc19bf174] ++ [
  0xe49b69c1, 0xefbe4786, 0x0fc19dc6, 0x240ca1cc, 0x2de92c6f, 0x4a7484aa, 0x5cb0a9dc, 0x76f988da] ++ [
  0x983e5152, 0xa831c66d, 0xb00327c8, 0xbf597fc7, 0xc6e00bf3, 0xd5a79147, 0x06ca6351, 0x14292967] ++ [
  0x27b70a85, 0x2e1b2138, 0x4d2c6dfc, 0x53380d13, 0x650a7354, 0x766a0abb, 0x81c2c92e, 0x92722c85] ++ [
  0xa2bfe8a1, 0xa81a664b, 0xc24b8b70, 0xc76c51a3, 0xd192e819, 0xd6990624, 0xf40e3585, 0x106aa070] ++ [
  0x19a4c116, 0x1e376c08, 0x2748774c, 0x34b0bcb5, 0x391c0cb3, 0x4ed8aa4a, 0x5b9cca4f, 0x682e6ff3] ++ [
  0x748f82ee, 0x78a5636f, 0x84c87814, 0x8cc70208, 0x90befffa, 0xa4506ceb, 0xbef9a3f7, 0xc67178f2]

/-- The initial hash words. -/
def shaInit : List (BitVec 32) :=
  [0x6a09e667, 0xbb67ae85, 0x3c6ef372, 0xa54ff53a, 0x510e527f, 0x9b05688c, 0x1f83d9ab, 0x5be0cd19]

/-- The 48 further schedule words, newest first. -/
def shaSchedule : Nat → List (BitVec 32) → List (BitVec 32)
  | 0, w => w
  | n + 1, w =>
    let a := w.getD 14 0
    let b := w.getD 1 0
    let s0 := a.rotateRight 7 ^^^ a.rotateRight 18 ^^^ (a >>> 3)
    let s1 := b.rotateRight 17 ^^^ b.rotateRight 19 ^^^ (b >>> 10)
    shaSchedule n ((w.getD 15 0 + s0 + w.getD 6 0 + s1) :: w)

/-- One round on the eight working words. -/
def shaRound (v : List (BitVec 32)) (kw : BitVec 32 × BitVec 32) : List (BitVec 32) :=
  match v with
  | [a, b, c, d, e, f, g, h] =>
    let s1 := e.rotateRight 6 ^^^ e.rotateRight 11 ^^^ e.rotateRight 25
    let t1 := h + s1 + ((e &&& f) ^^^ (~~~e &&& g)) + kw.1 + kw.2
    let s0 := a.rotateRight 2 ^^^ a.rotateRight 13 ^^^ a.rotateRight 22
    let t2 := s0 + ((a &&& b) ^^^ (a &&& c) ^^^ (b &&& c))
    [t1 + t2, a, b, c, d + t1, e, f, g]
  | _ => v

/-- One 64-byte block. -/
def shaBlock (h : List (BitVec 32)) (blk : List Byte) : List (BitVec 32) :=
  let w := (chunks 4 blk).map fun c => BitVec.ofNat 32 (ofBe c)
  let sched := (shaSchedule 48 w.reverse).reverse
  let v := (shaK.zip sched).foldl shaRound h
  (h.zip v).map fun p => p.1 + p.2

/-- SHA-256 of a byte string: 32 bytes. -/
def sha256 (m : List Byte) : List Byte :=
  let zeros := (119 - m.length % 64) % 64
  let p := m ++ [0x80] ++ List.replicate zeros 0 ++ beBytes 8 (8 * m.length)
  ((chunks 64 p).foldl shaBlock shaInit).flatMap fun w => beBytes 4 w.toNat

/-! ## AES-128 -/

/-- Multiplication by x in GF(2^8). -/
def gfTwice (a : BitVec 8) : BitVec 8 := if a.toNat < 128 then a <<< 1 else (a <<< 1) ^^^ 0x1b

/-- Multiplication in GF(2^8). -/
def gfMul (a b : BitVec 8) : BitVec 8 :=
  ((List.range 8).foldl (fun (acc, x) i => (if b.getLsbD i then acc ^^^ x else acc, gfTwice x)) ((0 : BitVec 8), a)).1

/-- The inverse in GF(2^8), 0 for 0: the 254th power. -/
def gfInv (a : BitVec 8) : BitVec 8 :=
  let a2 := gfMul a a
  let a3 := gfMul a2 a
  let a6 := gfMul a3 a3
  let a12 := gfMul a6 a6
  let a15 := gfMul a12 a3
  let a30 := gfMul a15 a15
  let a60 := gfMul a30 a30
  let a120 := gfMul a60 a60
  let a126 := gfMul a120 a6
  let a127 := gfMul a126 a
  gfMul a127 a127

/-- The S-box: the inverse and the affine map of FIPS 197. -/
def aesSub (a : BitVec 8) : BitVec 8 :=
  let x := gfInv a
  x ^^^ x.rotateLeft 1 ^^^ x.rotateLeft 2 ^^^ x.rotateLeft 3 ^^^ x.rotateLeft 4 ^^^ 0x63

/-- The round constants. -/
def aesRcon : List (BitVec 8) := [0x01, 0x02, 0x04, 0x08, 0x10, 0x20, 0x40, 0x80, 0x1b, 0x36]

/-- The round key that follows one of 16 bytes. -/
def aesNextKey (k : List Byte) (rcon : BitVec 8) : List Byte :=
  let w (i : Nat) : List Byte := (k.drop (4 * i)).take 4
  let x (a b : List Byte) : List Byte := (a.zip b).map fun p => p.1 ^^^ p.2
  let t := match w 3 with
    | [a, b, c, d] => [aesSub b ^^^ rcon, aesSub c, aesSub d, aesSub a]
    | l => l
  let a := x (w 0) t
  let b := x (w 1) a
  let c := x (w 2) b
  a ++ b ++ c ++ x (w 3) c

/-- ShiftRows on 16 bytes held column by column. -/
def aesShift (st : List Byte) : List Byte :=
  (List.range 16).map fun i => st.getD ((i / 4 + i % 4) % 4 * 4 + i % 4) 0

/-- MixColumns on one column. -/
def aesMixCol (c : List Byte) : List Byte :=
  match c with
  | [a, b, x, y] =>
    let t (p q r s : BitVec 8) : BitVec 8 := gfTwice p ^^^ (gfTwice q ^^^ q) ^^^ r ^^^ s
    [t a b x y, t b x y a, t x y a b, t y a b x]
  | l => l

/-- AddRoundKey. -/
def xorBytes (a b : List Byte) : List Byte := (a.zip b).map fun p => p.1 ^^^ p.2

/-- Nine rounds and the last, with the key schedule run along. -/
def aesRounds : List (BitVec 8) → List Byte → List Byte → List Byte
  | [], st, _ => st
  | [rc], st, k => xorBytes (aesShift (st.map aesSub)) (aesNextKey k rc)
  | rc :: rcs, st, k =>
    let k' := aesNextKey k rc
    aesRounds rcs (xorBytes ((chunks 4 (aesShift (st.map aesSub))).flatMap aesMixCol) k') k'

/-- AES-128 of one 16-byte block. -/
def aes128 (key blk : List Byte) : List Byte := aesRounds aesRcon (xorBytes blk key) key

/-! ## Check codes -/

/-- One byte of the reflected CRC-64 of R484. -/
def crc64Byte (crc : BitVec 64) (b : Byte) : BitVec 64 :=
  (List.range 8).foldl (fun c _ => if c.getLsbD 0 then (c >>> 1) ^^^ 0xC96C5795D7870F42 else c >>> 1) (crc ^^^ b.setWidth 64)

/-- The CRC-64 of R484: polynomial 0x42F0_E1EB_A9EA_3693, reflected, initial value and final XOR all ones. -/
def crc64 (m : List Byte) : Nat := (m.foldl crc64Byte 0xFFFFFFFFFFFFFFFF ^^^ 0xFFFFFFFFFFFFFFFF).toNat

/-- One byte of the CRC-24 of R382, most significant bit first. -/
def crc24Byte (crc : BitVec 24) (b : Byte) : BitVec 24 :=
  (List.range 8).foldl (fun c _ => if c.getLsbD 23 then (c <<< 1) ^^^ 0x864CFB else c <<< 1) (crc ^^^ (b.setWidth 24 <<< 16))

/-- The CRC-24 of RFC 4880 (R382). -/
def crc24 (m : List Byte) : Nat := (m.foldl crc24Byte 0xB704CE).toNat

end Sys2Proof.Machine
end

