-- ==== Sys2Proof/Machine/Reports.lean ====
section
/-! DEFINITION. Reporting and the tally: report records (R370 to R373), the log, alarm frames on the ring (R463,
R466), the counting of events against units (R361 to R363), tally entries (R364, R366), and FAULT_NOTICE. -/

namespace Sys2Proof.Machine

/-! ## Roles -/

def State.isIngress (s : State) : Bool := bitAt s.wnd.roles 0
def State.isLayer (s : State) : Bool := bitAt s.wnd.roles 1
def State.isSampler (s : State) : Bool := bitAt s.wnd.roles 2

/-! ## Ring frames -/

/-- Whether the module drives the ring: the bypass is OPEN (R472), and its range holds RING_VER (R468). -/
def State.ringOn (s : State) : Bool := s.edge.bypass == 3 && s.edge.ringVer == 1

/-- The module's own frame to the rack controller: SEQ per source, TTL 80 (R462). -/
def State.ringMsg (s : State) (cls typ dst : Nat) (ackReq : Bool) (payload : List Byte) : RingMsg :=
  { port := 0, ver := s.edge.ringVer, cls := cls, typ := typ, src := s.edge.devId, dst := dst, seq := s.edge.txSeq,
    time := s.now, ackReq := ackReq, ttl := 80, payload := payload }

/-- A message's bytes behind the EtherType, multi-byte fields highest byte first (R462). -/
def ringBytes (m : RingMsg) : List Byte :=
  [BitVec.ofNat 8 m.ver, BitVec.ofNat 8 m.cls] ++ beBytes 2 m.typ ++ beBytes 4 m.src ++ beBytes 4 m.dst ++ beBytes 4 m.seq ++
    beBytes 8 m.time ++ beBytes 2 m.payload.length ++ [BitVec.ofNat 8 (flag m.ackReq 0), BitVec.ofNat 8 m.ttl] ++ beBytes 4 0 ++ m.payload

/-- The Ethernet frame that carries a message (R461). -/
def ringFrame (m : RingMsg) : List Byte :=
  [0x03, 0x00, 0x00, 0x00, 0xB5, 0x00] ++ [0x02, 0x00, 0x00] ++ beBytes 3 m.src ++ beBytes 2 0x88B5 ++ ringBytes m

/-- The message that the bytes spell, as it arrives on a port (R462). -/
def ringMsgOf (port : Nat) (bs : List Byte) : RingMsg :=
  { port := port, ver := beAt bs 0 1, cls := beAt bs 1 1, typ := beAt bs 2 2, src := bitsOf (beAt bs 4 4) 19 0, dst := bitsOf (beAt bs 8 4) 19 0,
    seq := beAt bs 12 4,
    time := beAt bs 16 8, ackReq := bitAt (beAt bs 26 1) 0, ttl := beAt bs 27 1, payload := (bs.drop 32).take (beAt bs 24 2) }

/-- The rack controller's device number (R462). -/
def rackController : Nat := 0xFFFFE

/-- A frame leaves on both ports, and the next SEQ follows (R462, R465). -/
def State.ringSend (s : State) (m : RingMsg) : State :=
  { s with edge := { s.edge with tx := s.edge.tx ++ [{ port := 0, msg := m }, { port := 1, msg := { m with port := 1 } }],
                                 txSeq := (s.edge.txSeq + 1) % 0x100000000 } }

/-! ## Report records -/

/-- A report record's 32 bytes, multi-byte fields highest byte first, as in every Ammokin message (R371, R487;
log entry 10). -/
def Report.bytes (r : Report) : List Byte :=
  [BitVec.ofNat 8 r.cls, BitVec.ofNat 8 (flag r.coalesced 0)] ++ beBytes 2 r.cause ++ beBytes 4 r.unit ++ beBytes 8 r.time ++
    beBytes 4 r.source ++ beBytes 4 r.seq ++ beBytes 4 r.detail ++ beBytes 4 r.count

/-- The canonical order of R51: time, then source, then sequence. -/
def Report.before (a b : Report) : Bool :=
  decide (a.time < b.time) || (a.time == b.time && (decide (a.source < b.source) || (a.source == b.source && decide (a.seq < b.seq))))

/-- A record placed in canonical order (R51, R371). -/
def insertReport (r : Report) : List Report → List Report
  | [] => [r]
  | x :: xs => if r.before x then r :: x :: xs else x :: insertReport r xs

/-- Records the log holds: 4 MiB of 32-byte records (R372). -/
def logCap : Nat := 131072

/-- A record enters the log; a full log loses its oldest record, which is counted (R372). -/
def State.logRecord (s : State) (r : Report) : State :=
  let l := insertReport r s.tally.log
  if logCap < l.length then { s with tally := { s.tally with log := l.drop 1 } }.inc tallyLogOverwriteCount 1
  else { s with tally := { s.tally with log := l } }

/-- An ALARM frame with records, with ACK_REQ, kept until it is acknowledged (R463, R466). -/
def State.sendAlarm (s : State) (rs : List Report) : State :=
  let m := s.ringMsg 3 0 rackController true (rs.flatMap Report.bytes)
  let s := s.ringSend m
  { s with edge := { s.edge with alarms := s.edge.alarms ++ [(s.now, m)] } }

/-- Sends the alarms that wait, 45 to a frame, while fewer than 64 frames await acknowledgement (R463, R466). -/
def State.flushAlarms (s : State) : State :=
  if s.ringOn ∧ s.edge.alarms.length < 64 ∧ ¬ s.edge.alarmWait.isEmpty then
    let now := s.edge.alarmWait.take 45
    { s with edge := { s.edge with alarmWait := s.edge.alarmWait.drop 45 } }.sendAlarm now
  else s

/-- An alarm is raised: counted, and sent over the ring (R370). -/
def State.ringAlarm (s : State) (r : Report) : State :=
  { s with edge := { s.edge with alarmWait := s.edge.alarmWait ++ [r] } }.flushAlarms

/-- Whether the ring's queue, of the alarm frames that await acknowledgement (R466), is more than half full (R372; which queue is meant is a DESIGN
CHOICE, log entry 166). -/
def State.ringLoaded (s : State) : Bool := decide (32 < s.edge.alarms.length)

/-- A trace record leaves in a TRACE frame (R463); under load it is dropped and counted (R372). -/
def State.ringTrace (s : State) (r : Report) : State :=
  if !s.ringOn then s
  else if s.ringLoaded then s.inc tallyTraceDropCount 1
  else s.ringSend (s.ringMsg 5 0 rackController false r.bytes)

/-- The causes that concern one stream, which the ingress module also writes to the stream's ring (R373). -/
def streamCauses : List Nat := [0x020F, 0x0307, 0x0306, 0x0308, 0x0309, 0x030D]

/-- A report reaches the host as FAULT_NOTICE: for an ALARM always, for a LOG when its HOST_LOG_EN bit is set (R373). -/
def State.hostReport (s : State) (r : Report) (stream : Option Nat) : State :=
  let d : DWord := BitVec.ofNat 64 (r.unit + (if r.coalesced then r.count else r.detail) * 0x100000000)
  let s := s.moduleEvent evFault r.cause (stream.getD 0xFFFFF) d
  match stream with
  | some i => if streamCauses.contains r.cause && s.isIngress then s.streamEvent i evFault 0 r.cause 0 d else s
  | none => s

/-- An alarm of a source beyond its 64 of the second waits for the second's COALESCED record (R372). -/
def addExcess (src cause unit : Nat) : List (Nat × Nat × Nat × Nat) → List (Nat × Nat × Nat × Nat)
  | [] => [(src, cause, unit, 1)]
  | (a, b, c, n) :: t => if a = src ∧ b = cause ∧ c = unit then (a, b, c, n + 1) :: t else (a, b, c, n) :: addExcess src cause unit t

/-- A report of the headframe, of its cause's class, with the source's timestamp and event number (R51, R370 to R373). -/
def State.reportAt (s : State) (time q cause unit detail ep : Nat) (stream : Option Nat) : State :=
  let src := s.sourceId ep
  let c := causeClass cause
  let r : Report := { cls := c.code, coalesced := false, cause := cause, unit := unit, time := time, source := src, seq := q,
                      detail := detail, count := 1 }
  match c with
  | .alarm =>
    let s := (s.inc64 tallyAlarmCountLo 1).logRecord r
    let s := { s with tally := { s.tally with lastAlarm := some s.now } }
    let n := Table.get 0 s.tally.sent src
    if n < 64 then
      let s := { s with tally := { s.tally with sent := Table.set 0 s.tally.sent src (n + 1) } }
      (s.ringAlarm r).hostReport r stream
    else { s with tally := { s.tally with excess := addExcess src cause unit s.tally.excess } }
  | .log =>
    let s := s.logRecord r
    if bit (s.rd tallyHostLogEn) (cause / 0x100) then s.hostReport r stream else s
  | .trace => if bit (s.rd tallyCtrl) 2 then (s.logRecord r).ringTrace r else s

/-- A report of an event of this moment, numbered by its source. -/
def State.report (s : State) (cause unit detail ep : Nat) (stream : Option Nat) : State :=
  let (q, s) := s.nextSeq (s.sourceId ep)
  s.reportAt s.now q cause unit detail ep stream

/-! ## Units and the tally (R361 to R366) -/

def unitType (u : Nat) : Nat := bitsOf u 31 28
def unitMacro (stope mac : Nat) : Nat := 0x10000000 + stope * 512 + mac
def unitAdc (stope mac adc : Nat) : Nat := 0x20000000 + adc * 0x80000 + stope * 512 + mac
def unitCore (c : Nat) : Nat := if c < 256 then 0x30000000 + c else 0x40000000 + (c - 256)
def unitRouter (stope net : Nat) : Nat := 0x50000000 + net * 0x400 + stope
def unitLane (port lane : Nat) : Nat := 0x60000000 + lane * 0x20 + port
def unitPc (k pc : Nat) : Nat := 0x70000000 + pc * 8 + k
def unitSensor (n : Nat) : Nat := 0x80000000 + n
def unitSeam (stope seam : Nat) : Nat := 0x90000000 + seam * 0x400 + stope
def unitWord (c w : Nat) : Nat := 0xA0000000 + w * 0x200 + c
def unitPhase (n : Nat) : Nat := 0xB0000000 + n

/-- Nanoseconds of a second. -/
def secNs : Nat := 1000000000

/-- Seconds of the timebase (R364). -/
def State.sec (s : State) : Nat := s.now / secNs

/-- Word i of a tally entry (R364). -/
def TallyEntry.word (e : TallyEntry) (i : Nat) : Nat :=
  match i with
  | 0 => e.unit
  | 1 => e.state + e.cause * 0x10000
  | 2 => e.events
  | 3 => e.detail
  | 4 => e.t0
  | 5 => e.t1
  | 6 => e.t2
  | 7 => e.permTime
  | _ => 0

/-- An entry's 32 bytes (R364, R487). -/
def TallyEntry.bytes (e : TallyEntry) : List Byte := (List.range 8).flatMap fun i => leBytes 4 (e.word i)

/-- The CRC-64 of a copy's content, its SEQ and then its entries (R365, R484; DESIGN CHOICE of what it covers, log entry 162). -/
def tallyCrc (seq : Nat) (es : List TallyEntry) : Nat := crc64 (leBytes 8 seq ++ es.flatMap TallyEntry.bytes)

/-- A copy as it is written. -/
def tallyCopy (seq : Nat) (ok : Bool) (es : List TallyEntry) : TallyCopy := { seq := seq, crc := tallyCrc seq es, ok := ok, entries := es }

/-- Whether a copy's CRC checks (R365). -/
def TallyCopy.checks (c : TallyCopy) : Bool := c.crc == tallyCrc c.seq c.entries

/-- The tally's entry of a unit, if it has one. -/
def State.tallyEntry (s : State) (unit : Nat) : Option TallyEntry := s.tally.entries.find? fun e => e.unit == unit

/-- Whether the tally holds a unit permanent. -/
def State.isPermanent (s : State) (unit : Nat) : Bool :=
  match s.tallyEntry unit with
  | some e => e.state == 2
  | none => false

/-- Whether a cause counts against a unit (R362); a record of a type without units counts under its own rules. -/
def countsAgainst (unit cause : Nat) : Bool :=
  match unitType unit with
  | 1 => cause == causeAssayFail
  | 2 => cause == causeAssayFail || cause == causeCalRange
  | 3 | 4 => cause == causeXcheckFail || cause == causeSpUe || cause == causeAccUe || cause == causeStepLate
  | 5 => cause == causeRouterDiscard || cause == causeRouterFail
  | 7 => cause == causePcFail
  | 8 => cause == causeSensorBroken
  | 9 => cause == causeSeamMismatch
  | 10 => cause == causeSpWordBad || cause == causeSpUe
  | 11 => cause == causePhaseFail
  | _ => false

/-- Whether the headframe declares units of this type permanent itself (R361). -/
def declarable (unit : Nat) : Bool := decide (1 ≤ unitType unit ∧ unitType unit ≤ 8)

/-- Whether an event stands at or after another in the canonical order: time, source, sequence (R51). -/
def stampLe (a b : Nat × Nat × Nat) : Bool :=
  decide (a.1 < b.1) || (a.1 == b.1 && (decide (a.2.1 < b.2.1) || (a.2.1 == b.2.1 && decide (a.2.2 ≤ b.2.2))))

/-- The seconds of an entry's latest events. -/
def TallyEntry.times (e : TallyEntry) : List Nat := [e.t0, e.t1, e.t2].take (min 3 e.events)

/-- LAST_CAUSE and DETAIL are those of the latest event in canonical order (R51, R364). -/
def TallyEntry.noteLast (e : TallyEntry) (cause detail : Nat) (x : Nat × Nat × Nat) : TallyEntry :=
  if stampLe e.stamp x then { e with cause := cause, detail := detail, stamp := x } else e

/-- The entry after one more event, with its canonical place: the three latest times, newest first (R51, R364). -/
def TallyEntry.event (e : TallyEntry) (cause detail : Nat) (x : Nat × Nat × Nat) : TallyEntry :=
  let ts := (x.1 / secNs :: e.times).mergeSort fun a b => decide (b ≤ a)
  { e.noteLast cause detail x with events := min 0xFFFFFFFF (e.events + 1), t0 := ts.getD 0 0, t1 := ts.getD 1 0, t2 := ts.getD 2 0 }

/-- A new entry with its first event. -/
def TallyEntry.first (unit cause detail : Nat) (x : Nat × Nat × Nat) : TallyEntry :=
  { unit := unit, state := 1, cause := cause, events := 1, detail := detail, t0 := x.1 / secNs, t1 := 0, t2 := 0, permTime := 0, stamp := x }

/-- Whether the third event falls within 24 h of the first (R363). -/
def TallyEntry.third (e : TallyEntry) : Bool := decide (3 ≤ e.events ∧ e.t0 ≤ e.t2 + 86400)

/-- The entries with one unit's entry replaced. -/
def putEntry (e : TallyEntry) : List TallyEntry → List TallyEntry
  | [] => [e]
  | x :: xs => if x.unit = e.unit then e :: xs else x :: putEntry e xs

/-- The TRANSIENT entry with the oldest T0 more than 30 days back, which a new unit evicts from a full store (R366). -/
def evictable (l : List TallyEntry) (t : Nat) : Option TallyEntry :=
  l.foldl (fun best e =>
    if e.state = 1 ∧ e.t0 + 2592000 < t then
      (match best with
       | some b => if e.t0 < b.t0 then some e else some b
       | none => some e)
    else best) none

/-- The entries that the store holds (R366). -/
def tallyCap : Nat := 65536

/-- A unit's entry is written to the tally's pending changes. -/
def State.putTally (s : State) (e : TallyEntry) : State :=
  { s with tally := { s.tally with entries := putEntry e s.tally.entries,
                                   dirty := if s.tally.dirty.contains e.unit then s.tally.dirty else s.tally.dirty ++ [e.unit] } }

/-- What a unit's becoming permanent does at once (R363): a pseudo-channel is fenced, a lane is retired, a
sensor is broken. Spares and slices follow in Spares.lean; takeovers are commands of their own. -/
def State.permanentEffect (s : State) (unit : Nat) : State :=
  match unitType unit with
  | 6 => s.updPort (bitsOf unit 4 0) fun p =>
      { p with retired := if bitAt p.retired (bitsOf unit 6 5) then p.retired else p.retired + 2 ^ bitsOf unit 6 5 }
  | 7 => s.wr (stackPcFence (bitsOf unit 2 0)) (s.rd (stackPcFence (bitsOf unit 2 0)) ||| BitVec.ofNat 32 (2 ^ bitsOf unit 7 3))
  | 8 => s.setSensor (bitsOf unit 5 0) { s.sensor (bitsOf unit 5 0) with broken := true }
  | _ => s

/-- A unit becomes permanent (R363, R364). -/
def State.declarePermanent (s : State) (unit : Nat) : State :=
  match s.tallyEntry unit with
  | some e => if e.state = 2 then s else (s.putTally { e with state := 2, permTime := s.sec }).permanentEffect unit
  | none => s

/-- One event, at its canonical place, counts against a unit (R51, R362 to R366); events of one second are one event. `again` says that an
assay failed again after its retry (R363). -/
def State.countAt (s : State) (x : Nat × Nat × Nat) (unit cause detail : Nat) (again : Bool) : State :=
  let s := match s.tallyEntry unit with
    | some e => if e.times.contains (x.1 / secNs) then (s.putTally (e.noteLast cause detail x)).inc tallyCoalescedCount 1
                else s.putTally (e.event cause detail x)
    | none =>
      if s.tally.entries.length < tallyCap then s.putTally (TallyEntry.first unit cause detail x)
      else match evictable s.tally.entries s.sec with
        | some v => { s with tally := { s.tally with entries := s.tally.entries.filter fun e => e.unit != v.unit } }.putTally
                      (TallyEntry.first unit cause detail x)
        | none => { s with tally := { s.tally with full := true } }.notify (mkNotice causeTallyFull unit 0 epHeadframe 0)
  match s.tallyEntry unit with
  | some e => if declarable unit && (e.third || again) then s.declarePermanent unit else s
  | none => s

/-- An event of this moment, at the headframe, counts against a unit. -/
def State.countEvent (s : State) (unit cause detail : Nat) (again : Bool) : State :=
  s.countAt (s.now, s.sourceId epHeadframe, 0) unit cause detail again

/-- Whether the FAULT_NOTICE that carries a notice is still on its way (R38). -/
def State.noticeUnderWay (s : State) (n : Notice) : Bool := s.underWay (noticeMsg n) ((s.noc.notices.filter fun x => noticeMsg x == noticeMsg n).length)

/-- The notice is no longer on its way. -/
def State.takeNotice (s : State) (n : Notice) : State := { s with noc := { s.noc with notices := s.noc.notices.erase n } }

/-- A trigger of R146 is noted: `b` is its CAUSE bit less 16. -/
def State.replanCause (s : State) (b : Nat) : State := { s with hf := { s.hf with causes := s.hf.causes ||| 2 ^ b } }

end Sys2Proof.Machine
end

