-- ==== Sys2Proof/Machine/Energy.lean ====
section
/-! DEFINITION. Charges against the energy quanta of the present 1 ms window (R442 to R444): the winder's steps, warm-ups,
rows and slots. Energies are exact, in µJ. -/

namespace Sys2Proof.Machine

/-- Energy classes of R442. -/
def enConvert : Nat := 0
def enPrewarm : Nat := 5
def enProgram : Nat := 6
def enCheck : Nat := 7

/-- Whether a step is a converting one: its cost record names a CONVERT charge (R109, R443). -/
def reqConverts (r : StepReq) : Bool := r.cost.getD enConvert 0 != 0

/-- (VCORE / 0.75 V)² (R443). -/
def State.voltScale (s : State) : Rat := ((s.hf.vcore * s.hf.vcore : Nat) : Rat) / 562500

/-- CORR of a class (R443). -/
def State.corrOf (s : State) (k : Nat) : Rat := ((s.hf.corr.getD k 0x4000 : Nat) : Rat) / 16384

/-- A step's cost per class, as the image records it at 0.75 V, after CORR and VCORE (R443). -/
def State.stepCost (s : State) (cost : List Nat) : List Rat :=
  cost.zipIdx.map fun p => ((p.1 : Nat) : Rat) * s.corrOf p.2 * s.voltScale

/-- One charge of a class. -/
def State.charge (s : State) (k : Nat) (uj : Rat) : State :=
  { s with hf := { s.hf with spent := s.hf.spent + uj, charged := setAt s.hf.charged k fun x => x + uj } }

/-- The part of the grant that RESERVE keeps back, µJ (R444). -/
def State.reserved (s : State) : Rat := ((s.hf.quantum : Nat) : Rat) * (fld (s.rd hfReserve) 4 0 : Nat) / 100

/-- What unreserved work may still spend in this window (R444). -/
def State.unreserved (s : State) : Rat := ((s.hf.quantum : Nat) : Rat) - s.hf.spent - s.reserved

/-- Whether a charge may issue: reserved work always, other work while the rest of the grant exceeds the reserve (R444). -/
def State.grantOpen (s : State) (reserved : Bool) : Bool := reserved || decide (0 < s.unreserved)

/-- Issue holds for want of quanta until the next window (R277). -/
def State.holdEnergy (s : State) : State := { s with hf := { s.hf with heldThis := true }, wnd := { s.wnd with energyHold := true } }

/-- A warm-up's charge, and the standing charge of a warm buffer at each window's start, µJ (R443). -/
def warmCost : Rat := 14 / 5
def standingCost : Rat := 35

/-- The charge of a pre-warm and of its buffer's standing up to the step that comes PREWARM_LEAD ns later (R444). -/
def State.prewarmNeed (s : State) (lead : Nat) : Rat :=
  warmCost + standingCost * (((s.now % 1000000 + lead) / 1000000 : Nat) : Rat)

/-- The charge of one program-and-verify row iteration, and of one calibration or assay slot: the factory's amounts times CORR
(R443). -/
def State.rowCharge (s : State) : Rat := Config.rowCost * s.corrOf enProgram
def State.slotCharge (s : State) : Rat := Config.slotCost * s.corrOf enCheck

end Sys2Proof.Machine
end

