-- ==== Sys2Proof/Machine/Pages.lean ====
section
/-! DEFINITION. What every page can be asked (R47, R457): the injected error, ENABLE, QUIESCE, the host fence, and
the end of a pace window (R25, R27). -/

namespace Sys2Proof.Machine

/-! ## ERR_INJECT and PAGE_CTRL (R457) -/

/-- A write of 1 to ERR_INJECT.RG_WRITE sets ERR_STATUS.RG_WRITE (R457). -/
def State.errInject (s : State) (f p : Nat) (v : Word) : State :=
  if s.mayWrite f (pageBase p + 0x01C) && bit v 31 then s.rgWrite f (pageBase p) else s

/-- ENABLE of a page written (R457). -/
def State.pageEnable (s : State) (f p : Nat) (on : Bool) : State :=
  if s.mayWrite f (regPageCtrl (pageBase p)) then s.wrBit (regPageCtrl (pageBase p)) 0 on else s

/-- QUIESCE asked of a block; the four sub-pages of a stope are one block (R41, R457). -/
def State.askQuiesce (s : State) (p : Nat) : State :=
  if s.noc.quiesce.contains (blockPage p) then s
  else { s with noc := { s.noc with quiesce := s.noc.quiesce ++ [blockPage p] } }

/-- A block reports QUIESCE only while it is asked to. -/
def State.pruneQuiesced (s : State) : State :=
  { s with noc := { s.noc with quiesced := s.noc.quiesced.filter s.quiescing } }

/-- A write of 0 to QUIESCE: the block takes work again, unless the NOC asks too. -/
def State.dropQuiesce (s : State) (p : Nat) : State :=
  { s with noc := { s.noc with quiesce := s.noc.quiesce.filter fun q => q != blockPage p } }.pruneQuiesced

/-- Whether a programming row is in progress in stope `i`: one of its iterations is done and it has not ended (R41, R311, R325). -/
def State.rowInProgress (s : State) (i : Nat) : Bool :=
  (s.swap.rows.any fun p => p.1 / 128 == i && p.2.2.1 != 0) || (s.swap.refresh.any fun p => p.1 / 256 == i && p.2.iters != 0)

/-- Whether stope `i` has finished its work in progress: no descriptor in progress, no plan on a seam, no tag in its result
queue, no programming row begun (R41). Every sample and assay slot is one command, so none is in progress between commands. -/
def State.stopeIdle (s : State) (i : Nat) : Bool :=
  !(s.rowInProgress i) &&
  (s.core i).issued.isEmpty && (s.stope i).seqs.all (fun q => !q.busy) &&
    (s.stope i).queue.isEmpty && (s.stope i).heldPush.isEmpty

/-- Whether a block has finished its work in progress (R41 for a stope; for the other blocks the manual names no list, and
the work is that of their own chapters: DESIGN CHOICE, log entry 13). -/
def State.blockIdle (s : State) (p : Nat) : Bool :=
  match pageAt p with
  | some (.shell, i) | some (.plan, i) | some (.cal, i) | some (.check, i) => s.stopeIdle i
  | some (.merge, i) => (s.core (256 + i)).issued.isEmpty
  | some (.stack, k) => (Table.get [] s.kv.kvq k).isEmpty
  | some (.wnd, _) => s.wnd.streams.all fun t => t.2.flying.isNone
  | some (.pelig, i) => (s.port i).replay.isEmpty && (s.port i).tx.isEmpty
  | some (.coll, _) => s.fab.colls.isEmpty
  | some (.vault, _) | some (.swap, _) => s.swap.phase == .idle
  | some (.assay, _) => s.tally.current.isNone
  | _ => true

/-- A host write of 1 to FENCE: the host-fence flag sets, and the headframe sends FENCE_SET for all four classes (R47). -/
def State.hostFence (s : State) (p : Nat) : State :=
  let b := blockPage p
  let s := s.setFence b { s.fence b with host := true }
  let ep := pageEp b
  s.send (s.ctlMsg ep epHeadframe 5 ((s.epRegion ep).getD 0) (if epPage ep = some b then 1 else 2) 0xF (if epPage ep = some b then 0 else b))

/-- A host write of 0 to FENCE: the flag clears, and the headframe sends FENCE_CLEAR for every class that none of its own
causes holds (R47). -/
def State.hostUnfence (s : State) (p : Nat) : State :=
  let b := blockPage p
  let g := { s.fence b with host := false }
  (s.setFence b g).sendFence b (pageEp b) 0xF (g.want)

/-- ERR_INJECT (R457). -/
def execErrInject (f p : Nat) (v : Word) (s : State) : Host.Outcome State Fault Refusal := .next (s.errInject f p v)

/-- PAGE_ENABLE (R457): the block accepts, or stops accepting, new work. -/
def execPageEnable (f p : Nat) (on : Bool) (s : State) : Host.Outcome State Fault Refusal := .next (s.pageEnable f p on)

/-- PAGE_QUIESCE (R457): a write of 1 asks the block to finish its work in progress and accept none. -/
def execPageQuiesce (f p : Nat) (s : State) : Host.Outcome State Fault Refusal :=
  .next (if s.mayWrite f (regPageCtrl (pageBase p)) then s.askQuiesce p else s)

/-- QUIESCED (R41): a block that has been asked, and whose work in progress is done, reports QUIESCE. -/
def execQuiesced (p : Nat) (s : State) : Host.Outcome State Fault Refusal :=
  .next (if s.quiescing p && !(s.isQuiesced p) && s.blockIdle p then
      { s with noc := { s.noc with quiesced := s.noc.quiesced ++ [blockPage p],
                                   quiescedAt := Table.put s.noc.quiescedAt (blockPage p) s.now } }
    else s)

/-- HOST_FENCE_SET (R47). -/
def execHostFenceSet (f p : Nat) (s : State) : Host.Outcome State Fault Refusal :=
  .next (if s.mayWrite f (regPageCtrl (pageBase p)) then s.hostFence p else s)

/-- HOST_FENCE_CLEAR (R47). -/
def execHostFenceClear (f p : Nat) (s : State) : Host.Outcome State Fault Refusal :=
  .next (if s.mayWrite f (regPageCtrl (pageBase p)) then s.hostUnfence p else s)

/-! ## Pace (R25, R27) -/

/-- When a monitor's present window started (R25). -/
def State.paceStart (s : State) (ep : Nat) : Nat := ((s.noc.paceStart.find? fun p => p.1 == ep).map (·.2)).getD s.hf.vcoreSince

/-- The start of the window after one that ends now: windows start every 100 µs, and the one that ends started 10 µs ago or more (R25). -/
def State.nextPaceStart (s : State) (ep : Nat) : Nat :=
  s.paceStart ep + ((s.now - 10000 - s.paceStart ep) / 100000 + 1) * 100000

/-- The thermal node of an endpoint: a stope's, a stack's, a vault die's, a port's segment of the serdes edge, else the west rim (R430; DEDUCED for the
merge cores and the rim units, log entry 159). -/
def epNode (ep : Nat) : Nat :=
  if ep < 256 then ep
  else if 0x418 ≤ ep ∧ ep < 0x420 then 256 + (ep - 0x418)
  else if 0x420 ≤ ep ∧ ep < 0x438 then 266 + (ep - 0x420) / 2
  else if 0x438 ≤ ep ∧ ep < 0x43A then 264 + (ep - 0x438) else 278

/-- A block publishes a pace factor: its register, where its page has one, and the time (R25); the headframe keeps it with the VCORE and the
temperature (R142). -/
def State.publishPace (s : State) (ep factor : Nat) : State :=
  let s := { s with noc := { s.noc with pace := Table.set { value := 0, time := 0 } s.noc.pace ep { value := factor, time := s.now },
                                        paceStart := Table.put s.noc.paceStart ep (s.nextPaceStart ep) },
                      hf := { s.hf with paceHist := s.hf.paceHist ++ [(ep, s.hf.vcore, (s.node (epNode ep)).temp, factor)] } }
  match epCore ep with
  | some c => s.wr (corePace c) (BitVec.ofNat 32 factor)
  | none => s

/-- The unit that a notice from an endpoint names: a core's, else none (R361). -/
def epUnit (ep : Nat) : Nat := match epCore ep with
  | some c => unitCore c
  | none => 0

/-- PACE_WINDOW_END (R25, R27): with VCORE up and the window's 10 µs over, the monitor publishes; a value below the plan's admitted speed factor sends
PACE_LOW. -/
def execPaceWindowEnd (ep factor : Nat) (s : State) : Host.Outcome State Fault Refusal :=
  .next (
    if s.hf.vcore = 0 ∨ s.now < s.paceStart ep + 10000 then s
    else
      let s := s.publishPace ep (factor % 0x10000)
      if factor % 0x10000 < s.hf.plan.speed then
        s.notify (mkNotice causePaceLow (epUnit ep) (factor % 0x10000) ep ((s.epRegion ep).getD 0))
      else s)

end Sys2Proof.Machine
end

