-- ==== Sys2Proof/Machine/Net.lean ====
section
/-! DEFINITION. The data network, the control network and the tenant regions (R28 to R48): injection and discard
of packets, credits, control messages, fences at their targets, and region changes. -/

namespace Sys2Proof.Machine

/-! ## Places (R18, R19, R35) -/

/-- Mesh hops between two stopes under dimension-ordered routing (R32). -/
def hops (a b : Nat) : Nat := (max (a % 16) (b % 16) - min (a % 16) (b % 16)) + (max (a / 16) (b / 16) - min (a / 16) (b / 16))

/-- G of R35 in half nanoseconds at nominal pace, for sources of which the farthest is `hmax` hops away. -/
def gatherHalfNs (hmax n : Nat) : Nat := 3 * hmax + 4 + 4 * n + cdiv (4 * n) 64

/-- The promised bound of a gather, in ns (R26, R35). -/
def gatherBound (hmax n pace : Nat) : Nat := paceBound ((gatherHalfNs hmax n : Rat) / 2) 0 pace

/-- The promised bound of one VC0 packet over `h` hops, in ns (R26, R34). -/
def packetBound (h pace : Nat) : Nat := paceBound ((21 * h + 3 : Rat) / 2) 0 pace

/-- The promised bound of an XRED over `n` stopes, in ns (R26, R168). -/
def xredBound (hmax n pace : Nat) : Nat :=
  paceBound ((gatherHalfNs hmax n + n + (n - 1) + 21 * hmax + 3 : Nat) / 2) 0 pace

/-- The promised bound of a BARRIER over `n` stopes, in ns (R26, R488). -/
def barrierBound (hmax n pace : Nat) : Nat := paceBound ((32 * (hmax + 3) + 96 * n : Nat) : Rat) 0 pace

/-! ## Packets (R28 to R35, R43) -/

/-- The code a router discards a packet with at injection, or 0 (R30, R43). -/
def State.routerCode (s : State) (m : Packet) : Nat :=
  if 240 < m.bytes then causeRouterDiscard
  else if !(epExists m.dest) then causeRouterDiscard
  else if m.dest = epVault 0 ∨ m.dest = epVault 1 then (if m.src = epCage then 0 else rRegionViolation)
  else if isRim m.dest then 0
  else
    let r := if isRim m.src then some m.region else s.epRegion m.src
    if r.isSome && s.epRegion m.dest == r then 0 else rRegionViolation

/-- Whether an issued descriptor still awaits packets for an endpoint (R186). -/
def Issued.sendsTo (i : Issued) (dest : Nat) : Bool :=
  match i.await with
  | .packets n => n != 0 && (if fld i.desc.w0 6 0 = 0x22 then fld i.desc.w3 11 0 == dest else fld i.desc.w3 31 29 == 3 && fld i.desc.w3 28 17 == dest)
  | .xred _ root => root == dest
  | _ => false

/-- The first element of a list that satisfies a test, changed. -/
def mapFirst {α : Type} (p : α → Bool) (f : α → α) : List α → List α
  | [] => []
  | x :: xs => if p x then f x :: xs else x :: mapFirst p f xs

/-- One packet of a descriptor is delivered or discarded; a code other than 0 will fault its step (R30, R186). -/
def Issued.settle (i : Issued) (code : Nat) : Issued :=
  match i.await with
  | .packets n => { i with await := .packets (n - 1), cause := if i.cause = 0 then code else i.cause }
  | _ => if code = 0 then i else { i with await := .nothing, cause := code }

/-- The core whose descriptor a packet of a source belongs to: the source itself, or for a stack the core whose KVCMD has its
reply sent to the destination (R208). -/
def State.senderCore (s : State) (src dest : Nat) : Option Nat :=
  match epCore src with
  | some c => some c
  | none =>
    if 0x418 ≤ src ∧ src < 0x420 then
      (s.cores.find? fun p => p.2.issued.any fun i =>
        i.sendsTo dest && fld i.desc.w0 6 0 == 0x34 && fld i.desc.w0 11 9 == src - 0x418).map (·.1)
    else none

/-- Whether a descriptor's packets go to an endpoint of the die (R155). -/
def Desc.goesTo (d : Desc) (dest : Nat) : Bool := fld d.w3 31 29 == 3 && fld d.w3 28 17 == dest

/-- Whether a descriptor that a read error stopped has packets out that meet a test (R174). -/
def Core.partOut (t : Core) (p : Desc → Bool) : Bool :=
  decide (t.part.back < t.part.sent) && ((t.rerun.map (·.1)).toList ++ t.fetched.toList).any p

/-- A packet of a stopped descriptor has come back. -/
def Part.settle (p : Part) (code : Nat) : Part := { p with back := p.back + 1, cause := if p.cause = 0 then code else p.cause }

/-- The source learns of one of its packets. -/
def State.settle (s : State) (src dest code : Nat) : State :=
  match s.senderCore src dest with
  | some c => s.updCore c fun t =>
      if !(t.issued.any fun i => i.sendsTo dest) && t.partOut fun d => d.goesTo dest then { t with part := t.part.settle code }
      else { t with issued := mapFirst (fun i => i.sendsTo dest) (·.settle code) t.issued }
  | none => s

/-- The source learns that one of its packets was refused, with the credit still to come (R186). -/
def State.refusePacket (s : State) (src dest code : Nat) : State :=
  match s.senderCore src dest with
  | some c => s.updCore c fun t =>
      if !(t.issued.any fun i => i.sendsTo dest) && t.partOut fun d => d.goesTo dest then
        { t with part := { t.part with cause := if t.part.cause = 0 then code else t.part.cause } }
      else { t with issued := mapFirst (fun i => i.sendsTo dest) (fun i => { i with cause := if i.cause = 0 then code else i.cause }) t.issued }
  | none => s

/-- A discarded packet (no fault of the router, so its notice names no unit, R362): counted, notified to the headframe and the source, its credit returned (R30, R43). The notice
is stamped after the packet (R50). -/
def State.discardPacket (s : State) (m : Packet) (code : Nat) : State :=
  let s := s.inc nocDiscardCount 1
  let s := if code = rRegionViolation then s.inc nocViolationCount 1 else s
  let s := s.notify { mkNotice code 0 m.dest m.src m.region with time := stampFor s.now m.timeHint }
  let s := { s with noc := { s.noc with creditUsed := s.noc.creditUsed.erase (m.src, m.dest, m.vc) } }
  s.settle m.src m.dest code

/-- Whether the source lacks its end-to-end credit for a packet (R33). -/
def State.creditTaken (s : State) (m : Packet) : Bool := s.noc.creditUsed.contains (m.src, m.dest, m.vc)

/-- Whether a held packet goes before a packet of the same source, destination and channel. -/
def sameLane (m n : Packet) : Bool := m.src == n.src && m.dest == n.dest && m.vc == n.vc

/-- Whether INJECT is in force at a packet's source; packets to the headframe pass (R47). -/
def State.injectFenced (s : State) (m : Packet) : Bool :=
  m.dest != epHeadframe && (match epPage m.src with
    | some p => s.fenced p 3
    | none => false)

/-- A packet as the injecting router lets it in (R29): with the source's own endpoint in SRC, the region of its region register in REGION
(a rim unit sends in the region it works for, R43), the source's time in TIME_HINT, and BYTES bytes of payload. -/
def State.stamped (s : State) (m : Packet) : Packet :=
  packetOf (packetHeader { m with region := if isRim m.src then m.region else (s.epRegion m.src).getD m.region, timeHint := s.now % 0x10000 })
    m.payload m.device

/-- A packet sets out: its credit is taken, and it stands at its source's router (R32, R33). -/
def State.setOut (s : State) (m : Packet) : State :=
  { s with noc := { s.noc with creditUsed := s.noc.creditUsed ++ [(m.src, m.dest, m.vc)], flight := s.noc.flight ++ [m] } }.enterData m

/-- Whether a packet must wait at its source: its credit is out, the source is fenced, or an earlier packet of its lane waits (R33, R47). -/
def State.mustWait (s : State) (m : Packet) : Bool :=
  s.creditTaken m || s.injectFenced m || s.noc.held.any fun w => sameLane m w.packet

/-- A packet that the source has, of a descriptor (core, step and position) or of none: held while it must wait; else
discarded or sent (R29, R30, R33, R43). -/
def State.injectFor (s : State) (owner : Option (Nat × Nat × Nat)) (m : Packet) : State :=
  let m := s.stamped m
  let code := s.routerCode m
  if s.mustWait m then { s with noc := { s.noc with held := s.noc.held ++ [{ packet := m, owner := owner }] } }
  else if code ≠ 0 then s.discardPacket m code
  else s.setOut m

/-- A packet that belongs to no descriptor. -/
def State.inject (s : State) (m : Packet) : State := s.injectFor none m

/-- The oldest held packet of a lane is taken up again once its credit is free. -/
def State.releaseHeld (s : State) (src dest vc : Nat) : State :=
  match s.noc.held.find? fun w => w.packet.src == src && w.packet.dest == dest && w.packet.vc == vc with
  | some w =>
    if s.creditTaken w.packet || s.injectFenced w.packet then s
    else
      let m := s.stamped w.packet
      let s := { s with noc := { s.noc with held := s.noc.held.erase w } }
      let code := s.routerCode m
      if code ≠ 0 then s.discardPacket m code else s.setOut m
  | none => s

/-- PACKET_INJECT (R28 to R33, R43): a packet that waits at its source is taken up when its lane is free; a new one enters
under the same rules. -/
def execPacketInject (m : Packet) (s : State) : Host.Outcome State Fault Refusal :=
  .next (if s.noc.held.any fun w => w.packet == m then s.releaseHeld m.src m.dest m.vc else s.inject m)

/-- Whether the rim bus delivers a packet (R43): to a rim unit, to the gateway stope of its REGION or a stope behind it in
the rectangle, to an edge resource that REGION owns, or to a vault interface from the cage engine. -/
def State.rimDelivers (s : State) (m : Packet) : Bool :=
  isRim m.dest || (isRim m.src && (m.dest == epVault 0 || m.dest == epVault 1)) || s.epRegion m.dest == some m.region

/-- PACKET_DELIVER (R31, R32, R43): a packet in flight whose last flit has left the mesh reaches its destination, or the rim bus discards
it with REGION_VIOLATION. -/
def execPacketDeliver (m : Packet) (s : State) : Host.Outcome State Fault Refusal :=
  .next (
    if s.noc.flight.contains m && !(s.noc.nets.data.carries m.src m.dest m.vc) then
      let s := { s with noc := { s.noc with flight := s.noc.flight.erase m } }
      if s.rimDelivers m then { s with noc := { s.noc with arrived := s.noc.arrived ++ [m] } }
      else s.discardPacket m rRegionViolation
    else s)

/-- CREDIT_RETURN (R33, R186): the destination has drained a packet and returns its credit; the sender counts the packet,
and its next held packet of the lane goes. -/
def execCreditReturn (src dest vc : Nat) (s : State) : Host.Outcome State Fault Refusal :=
  .next (
    if s.noc.creditUsed.contains (src, dest, vc) && !(s.noc.flight.any fun m => m.src == src && m.dest == dest && m.vc == vc) then
      let s := { s with noc := { s.noc with
        creditUsed := s.noc.creditUsed.erase (src, dest, vc),
        arrived := s.noc.arrived.filter fun m => !(m.src == src && m.dest == dest && m.vc == vc) } }
      (s.settle src dest 0).releaseHeld src dest vc
    else s)

/-! ## Control messages (R36 to R38, R45) -/

/-- The message is no longer on its way. -/
def State.takeCtl (s : State) (m : CtlMsg) : State := { s with noc := { s.noc with ctl := s.noc.ctl.erase m } }

/-- A router discards a control message, reports it and counts it (R36, R37, R45, R47). -/
def State.discardCtl (s : State) (m : CtlMsg) : State :=
  (s.inc nocCtlDiscardCount 1).notify
    { mkNotice causeRouterDiscard 0 m.typ m.src m.region with time := stampFor s.now m.timeHint }

/-- Whether a message is still on its way: the mesh carries every copy of it that was sent (R38). -/
def State.ctlUnderWay (s : State) (m : CtlMsg) : Bool := s.underWay m (s.noc.ctl.count m)

/-- A message's arrival: nothing happens before it has crossed the network (R38, R47); then it is no longer on its way and acts. -/
def State.onArrival (s : State) (m : CtlMsg) (act : State → State) : Host.Outcome State Fault Refusal :=
  .next (if s.ctlUnderWay m then s else act (s.takeCtl m))

/-- Whether the control network accepts a message at its destination (R37, R45). -/
def State.ctlAccepts (s : State) (m : CtlMsg) : Bool :=
  m.args != 3 && decide (1 ≤ m.typ ∧ m.typ ≤ 7) &&
    (if m.dest < 256 then
      m.src == epWinder || m.src == epHeadframe || m.src == epHost ||
        (s.stopeRegion m.dest == some m.region && s.epRegion m.src == some m.region)
    else if m.dest = 0xFFF then m.src == epWinder || m.src == epHeadframe || m.src == epHost || s.epRegion m.src == some m.region
    else true)

/-- The stopes that a message reaches: its destination, or with 0xFFF every stope of its region (R21, R36). -/
def State.ctlTargets (s : State) (m : CtlMsg) : List Nat :=
  if m.dest = 0xFFF then (s.region m.region).stopes else [m.dest]

/-- DOORBELL (R37, R45): the message arrives; the work it announces is in the queues and memories it points to, and the
message itself changes no more state. -/
def execDoorbell (m : CtlMsg) (s : State) : Host.Outcome State Fault Refusal :=
  s.onArrival m fun t => if s.ctlAccepts m then t else t.discardCtl m

/-- The REDGRP register of a stope as a group: VALID, rectangle and root (R196). -/
def State.redgrp (s : State) (i g : Nat) : Word := s.rd (shellRedgrp i g)

/-- The stopes of a group register's rectangle, ascending (R166, R196). -/
def groupStopes (w : Word) : List Nat :=
  (List.range 256).filter fun i =>
    decide (fld w 4 0 ≤ i % 16 ∧ i % 16 ≤ fld w 14 10 ∧ fld w 9 5 ≤ i / 16 ∧ i / 16 ≤ fld w 19 15)
def groupRoot (w : Word) : Nat := fld w 29 20
def groupValid (w : Word) : Bool := bit w 30

/-- How a barrier message's argument names the barrier: ID in [7:0], group in [10:8] (DESIGN CHOICE, log entry 14). -/
def barrierArg (g id : Nat) : Nat := g * 0x100 + id
def argBarrier (w : Word) : Nat × Nat := (fld w 10 8, fld w 7 0)

/-- BARRIER_ARRIVE (R37, R488): the root notes the member; with every member of its own group there, it sends
BARRIER_RELEASE to each. -/
def execBarrierArrive (m : CtlMsg) (s : State) : Host.Outcome State Fault Refusal :=
  s.onArrival m fun t =>
    if s.ctlAccepts m && decide (m.dest < 256) then
      let (g, id) := argBarrier m.arg0
      let members := groupStopes (s.redgrp m.dest g)
      let seen := (s.core m.dest).barrierSeen ++ (if (s.core m.dest).barrierSeen.contains (g, id, m.src) then [] else [(g, id, m.src)])
      if members.all fun i => seen.contains (g, id, i) then
        let t := t.updCore m.dest fun c => { c with barrierSeen := seen.filter fun x => !(x.1 == g && x.2.1 == id) }
        t.each members fun t i => t.send (t.ctlMsg i m.dest 3 m.region 1 (barrierArg g id) 0)
      else t.updCore m.dest fun c => { c with barrierSeen := seen }
    else t.discardCtl m

/-- BARRIER_RELEASE (R37, R488): a member's BARRIER has nothing left to wait for. -/
def execBarrierRelease (m : CtlMsg) (s : State) : Host.Outcome State Fault Refusal :=
  s.onArrival m fun t =>
    if s.ctlAccepts m && decide (m.dest < 256) then
      let (g, id) := argBarrier m.arg0
      t.updCore m.dest fun c =>
        { c with issued := mapFirst (fun i => i.await == .barrier g id) (fun i => { i with await := .nothing }) c.issued }
    else t.discardCtl m

/-- CTL_RESERVED (R36, R37): a message with a reserved TYPE or ARGS 0b11 is discarded, reported and counted. -/
def execCtlReserved (m : CtlMsg) (s : State) : Host.Outcome State Fault Refusal :=
  .next (if m.args = 3 ∨ m.typ = 0 ∨ 8 ≤ m.typ then (s.takeCtl m).discardCtl m else s)

/-! ## Fences at their targets (R47, R48) -/

/-- The pages of a fence message's targets (log entry 9). -/
def State.fencePages (s : State) (m : CtlMsg) : List Nat :=
  if m.args = 2 then [m.arg1.toNat] else (s.ctlTargets m).filterMap epPage

/-- Sampling of an INTERLEAVED run holds from a CONVERT fence's start until its end (R134). -/
def State.noteHold (s : State) (p : Nat) : State :=
  match pageAt p with
  | some (.shell, i) =>
    let c := (s.stope i).cal
    if (c.phase == .zero || c.phase == .full) && !c.excl then
      s.updStope i fun t => { t with cal := { t.cal with holdSince := if s.stopeFenced i 1 then some (t.cal.holdSince.getD s.now) else none } }
    else s
  | _ => s

/-- FENCE_SET (R36, R47): from the headframe alone, the named classes take effect at each target. -/
def execFenceSet (m : CtlMsg) (s : State) : Host.Outcome State Fault Refusal :=
  s.onArrival m fun t =>
    if m.src = epHeadframe ∧ m.args ≠ 3 then
      t.each (s.fencePages m) fun t p => (t.setFence p { t.fence p with classes := (t.fence p).classes ||| fld m.arg0 3 0 }).noteHold p
    else t.discardCtl m

/-- FENCE_CLEAR (R36, R47, R48): from the headframe alone, the named classes end at each target, and what they held may go on. -/
def execFenceClear (m : CtlMsg) (s : State) : Host.Outcome State Fault Refusal :=
  s.onArrival m fun t =>
    if m.src = epHeadframe ∧ m.args ≠ 3 then
      t.each (s.fencePages m) fun t p =>
        (t.setFence p { t.fence p with classes := (t.fence p).classes &&& (0xF ^^^ fld m.arg0 3 0) }).noteHold p
    else t.discardCtl m

/-! ## Region changes (R39 to R44, R482) -/

/-- A word of a region as staged, or as it stands (R482). -/
def State.stagedRegion (s : State) (off : Nat) : Word :=
  match s.noc.staged.find? fun p => p.1 == off with
  | some p => p.2
  | none => s.rd off

/-- A write to GATE, EDGE or PORTS of a region is staged (R482). -/
def State.stageRegionWord (s : State) (off : Nat) (v : Word) : State :=
  match rowAt off with
  | some (r, _) =>
    let w := (writeFields r.fields (s.stagedRegion off) v).1
    { s with noc := { s.noc with staged := Table.put s.noc.staged off w } }
  | none => s

/-- Whether a descriptor obeys R40, and with SR-IOV enabled names no other valid region's VF (R42; DEDUCED, log entry 59). A write with VALID 0 names no resource and is accepted (DEDUCED, log entry 15). -/
def State.regionLegal (s : State) (n : Nat) (d : RegionDesc) : Bool :=
  !d.valid ||
  (decide (d.x0 ≤ d.x1 ∧ d.y0 ≤ d.y1) && d.x0 % 2 == 0 && d.x1 % 2 == 1 && isEdge d.gateway && d.holds d.gateway &&
    ((maskBits 8 d.stacks).all fun k => (List.range 4).all fun i => d.holds (((attachStope (epStack k)).getD 0) + i)) &&
    ((maskBits 16 d.merge).all fun m => d.holds ((attachStope (0x400 + m)).getD 0) && bitAt d.stacks (m / 2)) &&
    ((maskBits 24 d.portMask).all fun p => d.holds ((attachStope (epPort p)).getD 0)) &&
    ((s.regions.filter fun j => j != n).all fun j =>
      let e := s.region j
      (d.stopes.all fun i => !(e.holds i)) && (d.stacks &&& e.stacks) == 0 && (d.merge &&& e.merge) == 0 &&
        (d.portMask &&& e.portMask) == 0 && (d.vf != e.vf || !Config.sriov)))

/-- The staged words of a region are gone (R482). -/
def State.dropStaged (s : State) (n : Nat) : State :=
  { s with noc := { s.noc with staged := s.noc.staged.filter fun p => !(p.1 == nocGate n || p.1 == nocEdge n || p.1 == nocPorts n) } }

/-- GEOM_WRITE (R39, R40, R482): the physical function's write commits the region's staged words; a refused commit
discards them, an accepted one asks every stope of both rectangles to quiesce. -/
def State.geomWrite (s : State) (f n : Nat) (v : Word) : State :=
  if 16 ≤ n ∨ !(s.mayWrite f (nocGeom n)) then s
  else
    let fields := match rowAt (nocGeom n) with
      | some (r, _) => r.fields
      | none => []
    let (w, rg) := writeFields fields (s.rd (nocGeom n)) v
    let s := if rg then s.rgWrite f nocPage else s
    let d : RegionDesc :=
      { geom := w, gate := s.stagedRegion (nocGate n), edge := s.stagedRegion (nocEdge n), ports := s.stagedRegion (nocPorts n) }
    let s := s.dropStaged n
    if s.noc.pending.isSome then s.refuse nocLastRefuse rCapacity
    else if !(s.regionLegal n d) then s.refuse nocLastRefuse rRegionViolation
    else
      let s := { s with noc := { s.noc with pending := some (n, d.geom, d.gate, d.edge, d.ports), pendingSince := s.now } }
      s.wr nocStatus (BitVec.ofNat 32 (1 + 2 * n))

/-- GEOM_WRITE (R482). -/
def execGeomWrite (f n : Nat) (v : Word) (s : State) : Host.Outcome State Fault Refusal := .next (s.geomWrite f n v)

/-- Windows close: a WWAIT on one ends with WINDOW_EXPIRED (R185, R188). -/
def Core.closeWindows (c : Core) (p : Window → Bool) : Core :=
  let gone (i : Issued) : Bool := match i.await with
    | .window b _ => c.windows.any fun w => w.base == b && p w
    | _ => false
  { c with windows := c.windows.filter fun w => !(p w),
           issued := c.issued.map fun i => if gone i then { i with await := .nothing, cause := causeWindowExpired } else i }

/-- The present gain's samples of both ends are discarded, and the gain starts again from its zero end (R134). -/
def Cal.restartGain (c : Cal) : Cal :=
  if c.phase = .zero ∨ c.phase = .full then
    { c with phase := .zero, redo := c.redo || c.phase == .full, zeroDone := none, taken := 0, col := 0, sumZ := c.sumZ.filter fun x => x.1 % 8 != c.gain,
             sumZZ := c.sumZZ.filter fun x => x.1 % 8 != c.gain, sumF := c.sumF.filter fun x => x.1 % 8 != c.gain,
             clipped := c.clipped.filter fun x => x.1 % 8 != c.gain }
  else c

/-- What a stope's leaving every region does: fenced in all classes with its buffer OFF (R44) and a calibration's gain begun anew (R134), its windows closed (R185).
The headframe's own cause drops when a stope joins a region again. -/
def State.rezoneStope (s : State) (i : Nat) (was now : Option Nat) : State :=
  let s := if was != now then s.updCore i fun c => c.closeWindows fun _ => true else s
  match now with
  | none => if was.isSome then (s.updStope i fun t => { t with ref := .off, refDisable := false, refSince := s.now, residue := [], cal := t.cal.restartGain }).fenceFor (shellPage i) 4 0xF else s
  | some _ => if was.isNone then s.unfence (shellPage i) 4 else s

/-- Whether every stope of a change's rectangles is quiesced, and was so within REGION_TIMEOUT of the commit (R41). -/
def State.quiescedInTime (s : State) (stopes : List Nat) : Bool :=
  stopes.all fun i => s.isQuiesced (shellPage i) &&
    decide (Table.get 0 s.noc.quiescedAt (shellPage i) ≤ s.noc.pendingSince + fld (s.rd nocRegionTimeout) 13 0 * 1000000)

/-- Whether a change takes no port from its region over which an adit still runs: such a change is held until the port's adits are DOWN (R414). -/
def State.portsFree (s : State) (was new : RegionDesc) : Bool :=
  (List.range 24).all fun p => !(was.valid && bitAt was.portMask p && !(new.valid && bitAt new.portMask p)) ||
    s.fab.adits.all fun a => !(a.2.usesPort p)

/-- REGION_APPLY (R41, R414): with every stope of both rectangles quiesced in time, and no adit up on a port that the change removes, the NOC applies
the change at once and withdraws its requests. -/
def execRegionApply (s : State) : Host.Outcome State Fault Refusal :=
  .next (
    match s.noc.pending with
    | none => s
    | some (n, g, ga, e, p) =>
      let d : RegionDesc := { geom := g, gate := ga, edge := e, ports := p }
      let stopes := changeStopes (s.region n) d
      if s.quiescedInTime stopes ∧ s.portsFree (s.region n) d then
        let was := stopes.map fun i => (i, s.stopeRegion i)
        let s := (((s.wr (nocGeom n) g).wr (nocGate n) ga).wr (nocEdge n) e).wr (nocPorts n) p
        let s := { s with noc := { s.noc with pending := none } }
        let s := s.wr nocStatus 0
        let s := s.each was fun s x => s.rezoneStope x.1 x.2 (s.stopeRegion x.1)
        s.pruneQuiesced
      else s)

/-- REGION_TIMEOUT_EXPIRY (R41): where the stopes have not all quiesced within REGION_TIMEOUT ms, the NOC abandons the change, keeps the previous descriptor,
withdraws its requests and sets TIMED_OUT. -/
def execRegionTimeoutExpiry (s : State) : Host.Outcome State Fault Refusal :=
  .next (
    match s.noc.pending with
    | none => s
    | some (n, g, ga, e, p) =>
      if s.quiescedInTime (changeStopes (s.region n) { geom := g, gate := ga, edge := e, ports := p }) then s
      else if s.noc.pendingSince + fld (s.rd nocRegionTimeout) 13 0 * 1000000 ≤ s.now then
        (({ s with noc := { s.noc with pending := none } }.refuse nocLastRefuse rCapacity).wr nocStatus 0x20).pruneQuiesced
      else s)

end Sys2Proof.Machine
end

