-- ==== Sys2Proof/Machine/Plans.lean ====
section
/-! DEFINITION. Conversion plans (R79 to R90, R97, R98, R332, R489): the fields of a header and an entry, the checks
of a commit, the seams' tolerances, and the bounds of a plan (R93). -/

namespace Sys2Proof.Machine

/-! ## Fields (R85, R86) -/

def hdrLength (h : Word) : Nat := fld h 4 0
def hdrSegmented (h : Word) : Bool := bit h 5
def hdrBaseShift (h : Word) : Nat := fld h 9 6
def hdrSweep (h : Word) : Bool := bit h 10
def hdrRef (h : Word) : Bool := bit h 11
def hdrPulses (h : Word) : Nat := fld h 16 12

def entPhase (e : Word) : Nat := fld e 0 0
def entPlane (e : Word) : Nat := fld e 2 1
def entMask (e : Word) : Nat := fld e 6 3
def entGain (e : Word) : Nat := fld e 9 7
def entTint (e : Word) : Nat := fld e 15 10
def entCarry (e : Word) : Nat := fld e 17 16
def entShift (e : Word) : Nat := fld e 21 18

/-- An ADC code step at gain code g, in units (R60). -/
def gainStep (g : Nat) : Rat := 16 / (2 : Rat) ^ g

/-- The row segment of an entry whose mask has one bit (R62). -/
def maskSegment (m : Nat) : Nat := ((List.range 4).find? (bitAt m)).getD 0

/-! ## Legality (R68, R88, R98, R489) -/

/-- Whether the header alone breaks R88. -/
def hdrBad (h : Word) : Bool :=
  hdrLength h == 0 || decide (16 < hdrLength h) || decide (9 < hdrBaseShift h) || (hdrRef h && hdrSegmented h) ||
    (hdrRef h && hdrPulses h == 0) || (!(hdrRef h) && hdrPulses h != 0)

/-- The predecessor of an entry among the earlier entries, latest first (R98). -/
def predecessor (e : Word) (earlier : List Word) : Option Word := earlier.find? fun p => entPhase p == entPhase e

/-- Whether an entry's CARRY is legal after the earlier entries, latest first (R97, R98). -/
def carryOk (h : Word) (e : Word) (earlier : List Word) : Bool :=
  match entCarry e with
  | 0 => true
  | 3 => false
  | c =>
    match predecessor e earlier with
    | none => false
    | some p =>
      (if c = 1 then entShift e == entShift p else entShift e + 1 == entShift p) && (!(hdrSegmented h) || entMask e == entMask p)

/-- Whether an entry breaks R88, given the header and the earlier entries, latest first. -/
def entBad (h e : Word) (earlier : List Word) : Bool :=
  entGain e == 7 || entTint e == 0 || decide ((if hdrSegmented h then 6 else 8) < entShift e) ||
    entPlane e + 6 != hdrBaseShift h + entShift e + entGain e || (hdrSegmented h && popcount 4 (entMask e) != 1) ||
    (hdrRef h && (entPlane e != 0 || decide (entTint e < hdrPulses h))) || (hdrSweep h && entPhase e == 1) || !(carryOk h e earlier)

/-- The first entry of a list that breaks R88, by position. -/
def firstBad (h : Word) : List Word → List Word → Nat → Option Nat
  | [], _, _ => none
  | e :: es, earlier, n => if entBad h e earlier then some n else firstBad h es (e :: earlier) (n + 1)

/-- What a plan is refused for: nothing, its header, or an entry (R489). -/
inductive PlanFault where
  | none | header | entry (n : Nat)
  deriving DecidableEq, Repr

/-- The judgement of a plan (R88, R489). -/
def planCheck (h : Word) (entries : List Word) : PlanFault :=
  if hdrBad h then .header
  else match firstBad h (entries.take (hdrLength h)) [] 0 with
    | some n => .entry n
    | none => .none

/-! ## Floors and tolerances (R94, R332) -/

/-- The integration floor of a gain in a stope (R120). -/
def State.tintFloor (s : State) (i g : Nat) : Nat :=
  if g < 4 then fld (s.rd (planTintFloorLo i)) (8 * g + 5) (8 * g) else fld (s.rd (planTintFloorHi i)) (8 * (g - 4) + 5) (8 * (g - 4))

/-- The delay units an entry integrates for (R94). -/
def State.tintOf (s : State) (i : Nat) (e : Word) : Nat := max (entTint e) (s.tintFloor i (entGain e))

/-- Whether a later entry of the same phase carries from an entry (R332). -/
def carriesOn (e : Word) (later : List Word) : Bool :=
  match later.find? fun x => entPhase x == entPhase e with
  | some x => entCarry x != 0
  | none => false

/-- σ_m² of R332 over the entries of a phase, in quarter-units². -/
def State.sigmaSq (s : State) (i : Nat) (h : Word) : List Word → Rat
  | [] => 0
  | e :: es =>
    let w : Rat := (2 : Rat) ^ (hdrBaseShift h + entShift e + (if hdrSegmented h then 1 else 0))
    let a : Rat := (s.rd (calNoiseA i (entGain e))).toNat / (65536 : Rat)
    let n := Config.adcNoise + a / ((s.tintOf i e : Nat) : Rat)
    w * w * n + (if carriesOn e es then 0 else w * w / 12) + s.sigmaSq i h es

/-- The smallest whole number at or above m × √x. -/
def mulSqrtUp (m x : Rat) : Nat := sqrtUp (ratCeil (m * m * x))

/-- The entries that a column of a phase converts in one pass (R332). -/
def phaseEntries (h : Word) (entries : List Word) (ph : Nat) : List Word :=
  if hdrSweep h then entries else entries.filter fun e => entPhase e == ph

/-- τ of a plan for a column phase, in quarter-units (R332). -/
def State.tauOf (s : State) (i : Nat) (h : Word) (entries : List Word) (ph : Nat) : Nat :=
  mulSqrtUp ((fld (s.rd (checkTauMult i)) 15 0 : Nat) / (256 : Rat)) (273 * s.sigmaSq i h (phaseEntries h entries ph))

/-- The plan of a slot: header, and its first LENGTH entries. -/
def State.slotPlan (s : State) (i n : Nat) : Word × List Word :=
  let h := s.rd (planSlotHdr i n)
  (h, (List.range (min 16 (hdrLength h))).map fun e => s.rd (planEntry i n e))

/-- Whether a slot is valid (R122). -/
def State.slotValid (s : State) (i n : Nat) : Bool := bit (s.rd (planSlotState i n)) 0

/-- The stope computes τ for a slot, for both phases (R332). -/
def State.setTau (s : State) (i n : Nat) : State :=
  let (h, es) := s.slotPlan i n
  let t0 := s.tauOf i h es 0
  let t1 := s.tauOf i h es 1
  s.updStope i fun t => { t with tau := Table.set 0 (Table.set 0 t.tau (2 * n) t0) (2 * n + 1) t1 }

/-- Every valid slot's τ, as after a calibration (R332). -/
def State.retau (s : State) (i : Nat) : State :=
  s.each ((List.range 24).filter (s.slotValid i)) fun s n => s.setTau i n

/-! ## Commits (R89, R119, R122) -/

/-- PLAN_REFUSE and SLOT_STATE after a refused commit. -/
def State.refusePlan (s : State) (i slot code : Nat) (fault : PlanFault) : State :=
  let extra := match fault with
    | .header => 2 ^ 25
    | .entry n => n * 2 ^ 21
    | .none => 0
  (s.wr (planRefuse i) (BitVec.ofNat 32 (code + slot * 0x10000 + extra))).wr (planSlotState i slot) (BitVec.ofNat 32 (code * 0x10000))

/-- The slot commits: its header and entries are judged (R89). -/
def State.commitSlot (s : State) (i slot : Nat) : State :=
  let (h, es) := s.slotPlan i slot
  match planCheck h es with
  | .none => (s.wr (planSlotState i slot) 1).setTau i slot
  | fault => s.refusePlan i slot rPlanInvalid fault

/-- What R11 finds in a plan read from memory: its header, or the first entry, with a non-zero RSV or RG field (R489). -/
def planRsv (h : Word) (es : List Word) : PlanFault :=
  if fld h 31 17 != 0 then .header
  else match es.findIdx? fun e => fld e 31 22 != 0 with
    | some n => .entry n
    | none => .none

/-- A plan of an image stands in its slot and is judged (R89, R489): R11 first, then R88. The slot's words hold no RSV and no RG bit. -/
def State.installPlan (s : State) (i slot : Nat) (h : Word) (es : List Word) : State :=
  let s := s.each (es.take 16).zipIdx fun s e => s.wr (planEntry i slot e.2) (e.1 &&& 0x003FFFFF)
  let s := s.wr (planSlotHdr i slot) (h &&& 0x0001FFFF)
  match planRsv h (es.take 16) with
  | .none => s.commitSlot i slot
  | fault => s.refusePlan i slot rAbiMismatch fault

/-- SLOT_COMMIT (R89, R489): the header is stored without its RSV and RG bits, a non-zero RG field sets RG_WRITE, and the
slot commits. -/
def State.slotCommit (s : State) (f i slot : Nat) (v : Word) : State :=
  if 24 ≤ slot ∨ 256 ≤ i ∨ !(s.mayWrite f (planSlotHdr i slot)) then s
  else
    let s := s.wr (planSlotHdr i slot) (v &&& 0x0001FFFF)
    let s := if fld v 31 28 = 0 then s else s.rgWrite f (planPage i)
    s.commitSlot i slot

/-- ENTRY_WRITE (R89, R489): the entry is stored without its RSV and RG bits, and VALID clears. -/
def State.entryWrite (s : State) (f i slot entry : Nat) (v : Word) : State :=
  if 24 ≤ slot ∨ 16 ≤ entry ∨ 256 ≤ i ∨ !(s.mayWrite f (planEntry i slot entry)) then s
  else
    let s := s.wr (planEntry i slot entry) (v &&& 0x003FFFFF)
    let s := if fld v 31 28 = 0 then s else s.rgWrite f (planPage i)
    s.wrBit (planSlotState i slot) 0 false

/-- SLOT_COMMIT (R89). -/
def execSlotCommit (f i slot : Nat) (v : Word) (s : State) : Host.Outcome State Fault Refusal := .next (s.slotCommit f i slot v)

/-- ENTRY_WRITE (R89). -/
def execEntryWrite (f i slot entry : Nat) (v : Word) (s : State) : Host.Outcome State Fault Refusal :=
  .next (s.entryWrite f i slot entry v)

/-! ## Bounds (R91, R93) -/

/-- Passes of a plan. -/
def hdrPasses (h : Word) : Nat := if hdrSweep h then 2 else 1

/-- The promised bound of a plan in ns, with integration under the floors and a bank switch counted on request (R26, R93). -/
def State.planBound (s : State) (i : Nat) (h : Word) (entries : List Word) (bankSwitch : Bool) (pace : Nat) : Nat :=
  let p := hdrPasses h
  let nominal : Rat := 3 + (if bankSwitch then 16 else 0) + 8 * entries.length * p + 4 * p
  let fixed : Rat := ((entries.map (s.tintOf i)).sum : Nat) * p * (525 / 1000 : Rat)
  paceBound nominal fixed pace

end Sys2Proof.Machine
end

