-- ==== Sys2Proof/Machine/Fp.lean ====
section
/-! DEFINITION. FP32 arithmetic under R73: IEEE 754-2019 binary32, nearest-even, subnormals kept, every
NaN result the canonical quiet NaN; the exp of R486, the angles of R203 and R205; and the conversions of
VCVT (R158). Finite values are held as an exact integer times a power of two. -/

namespace Sys2Proof.Machine

/-- The canonical quiet NaN of R73. -/
def qnan : Word := 0x7FC00000

def pInf : Word := 0x7F800000
def nInf : Word := 0xFF800000

/-- The sign bit. -/
def fSign (x : Word) : Bool := bit x 31
def isNan (x : Word) : Bool := fld x 30 23 == 255 && fld x 22 0 != 0
def isInf (x : Word) : Bool := fld x 30 23 == 255 && fld x 22 0 == 0
def isZero (x : Word) : Bool := fld x 30 0 == 0
def isFin (x : Word) : Bool := fld x 30 23 != 255

/-- The magnitude's integer significand of a finite value. -/
def fMant (x : Word) : Nat := if fld x 30 23 = 0 then fld x 22 0 else fld x 22 0 + 0x800000

/-- The exponent of the significand's unit. -/
def fExp (x : Word) : Int := if fld x 30 23 = 0 then -149 else (fld x 30 23 : Int) - 150

/-- The signed significand. -/
def fInt (x : Word) : Int := if fSign x then -(fMant x : Int) else fMant x

/-- The exact value of a finite pattern. -/
def fRat (x : Word) : Rat := (fInt x : Rat) * (2 : Rat) ^ (fExp x)

/-- A significand divided by 2^n, nearest, ties to even; `sticky` says that more than the significand was
there. -/
def shiftRound (m n : Nat) (sticky : Bool) : Nat :=
  let q := m / 2 ^ n
  let r := m % 2 ^ n
  let half := 2 ^ n / 2
  if n = 0 then q
  else if half < r || (r == half && (sticky || q % 2 == 1)) then q + 1 else q

/-- The FP32 pattern nearest to ±(m + δ)·2^e, with 0 < δ < 1 exactly when `sticky`; ties to even; beyond the
largest finite value, infinity. Callers with `sticky` give at least 26 significant bits. -/
def roundFp (neg : Bool) (m : Nat) (e : Int) (sticky : Bool) : Word :=
  let s : Nat := if neg then 0x80000000 else 0
  if m = 0 && !sticky then BitVec.ofNat 32 s
  else
    let q : Int := max (e + (Nat.log2 m : Int) - 23) (-149)
    let mant : Nat := if q ≤ e then m * 2 ^ (e - q).toNat else shiftRound m (q - e).toNat sticky
    let bits : Nat := (q + 149).toNat * 0x800000 + mant
    if 0x7F800000 ≤ bits then BitVec.ofNat 32 (s + 0x7F800000) else BitVec.ofNat 32 (s + bits)

/-- The FP32 value nearest to an integer times 2^e. -/
def ofIntExp (v : Int) (e : Int) : Word := roundFp (decide (v < 0)) v.natAbs e false

/-- The FP32 value nearest to a rational. -/
def ofRat (q : Rat) : Word :=
  let n := q.num.natAbs
  let d := q.den
  let k := 64 + Nat.log2 d
  let m := n * 2 ^ k / d
  roundFp (decide (q < 0)) m (-(k : Int)) (n * 2 ^ k % d != 0)

/-- Both operands at a common exponent, as integers. -/
def align (x y : Word) : Int × Int × Int :=
  let e := min (fExp x) (fExp y)
  (fInt x * 2 ^ (fExp x - e).toNat, fInt y * 2 ^ (fExp y - e).toNat, e)

/-- FP32 addition. -/
def fAdd (x y : Word) : Word :=
  if isNan x || isNan y then qnan
  else if isInf x then (if isInf y && fSign x != fSign y then qnan else x)
  else if isInf y then y
  else if isZero x && isZero y then (if fSign x && fSign y then 0x80000000 else 0)
  else let (a, b, e) := align x y; ofIntExp (a + b) e

/-- The pattern with its sign changed. -/
def fNeg (x : Word) : Word := x ^^^ 0x80000000

/-- FP32 subtraction. -/
def fSub (x y : Word) : Word := if isNan y then qnan else fAdd x (fNeg y)

/-- FP32 multiplication. -/
def fMul (x y : Word) : Word :=
  if isNan x || isNan y then qnan
  else
    let neg := fSign x != fSign y
    if isInf x || isInf y then (if isZero x || isZero y then qnan else if neg then nInf else pInf)
    else roundFp neg (fMant x * fMant y) (fExp x + fExp y) false

/-- FP32 multiply-add with one rounding. -/
def fFma (x y z : Word) : Word :=
  if isNan x || isNan y || isNan z then qnan
  else if isInf x || isInf y then
    let p := fMul x y
    fAdd p z
  else if isInf z then z
  else
    let p := fInt x * fInt y
    let pe := fExp x + fExp y
    let e := min pe (fExp z)
    let v := p * 2 ^ (pe - e).toNat + fInt z * 2 ^ (fExp z - e).toNat
    if v = 0 then
      (if (fSign x != fSign y) && fSign z && (isZero x || isZero y) then 0x80000000 else 0)
    else ofIntExp v e

/-- FP32 division. -/
def fDiv (x y : Word) : Word :=
  if isNan x || isNan y then qnan
  else
    let neg := fSign x != fSign y
    if isInf x then (if isInf y then qnan else if neg then nInf else pInf)
    else if isInf y then (if neg then 0x80000000 else 0)
    else if isZero y then (if isZero x then qnan else if neg then nInf else pInf)
    else if isZero x then (if neg then 0x80000000 else 0)
    else
      let n := fMant x * 2 ^ 60
      roundFp neg (n / fMant y) (fExp x - fExp y - 60) (n % fMant y != 0)

/-- Whether x < y, for operands that are not NaN. -/
def fLt (x y : Word) : Bool :=
  if isNan x || isNan y then false
  else
    let key (w : Word) : Int := if fSign w then -(fld w 30 0 : Int) else (fld w 30 0 : Int)
    decide (key x < key y)

/-- MAX of two values; a NaN operand gives the canonical NaN (R73). -/
def fMax (x y : Word) : Word := if isNan x || isNan y then qnan else if fLt x y then y else x

/-- MIN of two values; a NaN operand gives the canonical NaN (R73). -/
def fMin (x y : Word) : Word := if isNan x || isNan y then qnan else if fLt y x then y else x

/-- The magnitude; of a NaN the canonical NaN. -/
def fAbs (x : Word) : Word := if isNan x then qnan else x &&& 0x7FFFFFFF

/-- The value times 2^k: exact but for subnormals and overflow. -/
def fScale (x : Word) (k : Int) : Word :=
  if isNan x then qnan else if isInf x then x else roundFp (fSign x) (fMant x) (fExp x + k) false

/-- The value times 2^k, saturating at the largest finite value, and whether it saturated (R72, R73). -/
def fScaleSat (x : Word) (k : Int) : Word × Bool :=
  let y := fScale x k
  if isInf y then ((if fSign y then 0xFF7FFFFF else 0x7F7FFFFF), true) else (y, false)

/-- INT32 to FP32, nearest-even. -/
def ofInt32 (w : Word) : Word := ofIntExp w.toInt 0

/-- FP32 to BF16, nearest-even, in the low half (R73). -/
def toBf16 (x : Word) : Nat :=
  if isNan x then 0x7FC0
  else shiftRound x.toNat 16 false

/-- BF16 to FP32. -/
def ofBf16 (h : Nat) : Word := let w := BitVec.ofNat 32 (h % 0x10000 * 0x10000); if isNan w then qnan else w

/-- FP32 to FP16, nearest-even (R73). -/
def toFp16 (x : Word) : Nat :=
  let s := if fSign x then 0x8000 else 0
  if isNan x then 0x7E00
  else if isInf x then s + 0x7C00
  else if isZero x then s
  else
    let q : Int := max (fExp x + (Nat.log2 (fMant x) : Int) - 10) (-24)
    let mant := if q ≤ fExp x then fMant x * 2 ^ (fExp x - q).toNat else shiftRound (fMant x) (q - fExp x).toNat false
    s + min 0x7C00 ((q + 24).toNat * 0x400 + mant)

/-! ## Transcendental values to 256 fractional bits -/

/-- Fixed-point fraction bits of the series below. -/
def fxBits : Nat := 256

/-- 1.0 in the fixed point. -/
def fxOne : Nat := 2 ^ fxBits

/-- Σ of z^(2i+1)/(2i+1) with signs: atanh (sg false) or arctan (sg true) of z, by terms of the powers. -/
def fxAtan (sg : Bool) (z2 : Nat) : Nat → Nat → Int → Nat → Int
  | 0, _, acc, _ => acc
  | n + 1, pow, acc, i =>
    let t : Int := (pow / (2 * i + 1) : Nat)
    fxAtan sg z2 n (pow * z2 / fxOne) (acc + if sg && i % 2 == 1 then -t else t) (i + 1)

/-- arctan (true) or atanh (false) of a fixed-point argument of at most 1/3. -/
def fxArc (sg : Bool) (z : Nat) : Int := fxAtan sg (z * z / fxOne) 90 z 0 0

/-- ln 2 = 2·atanh(1/3). -/
def fxLn2 : Int := 2 * fxArc false (fxOne / 3)

/-- π by Machin's formula. -/
def fxPi : Int := 16 * fxArc true (fxOne / 5) - 4 * fxArc true (fxOne / 239)

/-- Σ r^n/n!, from term number n on. -/
def fxExpSum (r : Int) : Nat → Int → Nat → Int → Int
  | 0, _, _, acc => acc
  | k + 1, t, n, acc =>
    let t' := (t * r).fdiv fxOne / (n : Int)
    fxExpSum r k t' (n + 1) (acc + t')

/-- e^x of a fixed-point x, as a significand at `fxBits` and a power of two. -/
def fxExp (x : Int) : Nat × Int :=
  let k := x.fdiv fxLn2
  let r := x - k * fxLn2
  ((fxExpSum r 75 fxOne 1 fxOne).toNat, k)

/-- The exp of R486: e^x rounded once to nearest. 256 fraction bits decide every binary32 argument; a value
that near to a halfway point does not occur (log entry 8). -/
def fExpE (x : Word) : Word :=
  if isNan x then qnan
  else if isInf x then (if fSign x then 0 else pInf)
  else if isZero x then 0x3F800000
  else if fLt 0x42B20000 x then pInf
  else if fLt x 0xC2D00000 then 0
  else
    let (m, k) := fxExp (fInt x * 2 ^ (fExp x + fxBits).toNat)
    roundFp false m (k - fxBits) true

/-- Σ of the alternating series t − t·a²/((n+1)(n+2)) + …: cosine from (1, 0), sine from (a, 1). -/
def fxTrig (a2 : Int) : Nat → Int → Nat → Int → Int
  | 0, _, _, acc => acc
  | k + 1, t, n, acc =>
    let t' := -((t * a2).fdiv fxOne / (((n + 1) * (n + 2) : Nat) : Int))
    fxTrig a2 k t' (n + 2) (acc + t')

/-- cos(2π·j/2^24) rounded once to FP32 (R205). -/
def cosTurn (j : Nat) : Word :=
  if j % 0x400000 = 0 then
    (match j / 0x400000 % 4 with | 0 => 0x3F800000 | 2 => 0xBF800000 | _ => 0)
  else
    let a := 2 * fxPi * (j % 0x1000000 : Nat) / 0x1000000
    let c := fxTrig ((a * a).fdiv fxOne) 60 fxOne 0 fxOne
    roundFp (decide (c < 0)) c.natAbs (-(fxBits : Int)) true

/-- sin(2π·j/2^24) rounded once to FP32 (R205). -/
def sinTurn (j : Nat) : Word :=
  if j % 0x400000 = 0 then
    (match j / 0x400000 % 4 with | 1 => 0x3F800000 | 3 => 0xBF800000 | _ => 0)
  else
    let a := 2 * fxPi * (j % 0x1000000 : Nat) / 0x1000000
    let c := fxTrig ((a * a).fdiv fxOne) 60 a 1 a
    roundFp (decide (c < 0)) c.natAbs (-(fxBits : Int)) true

/-- ln of a positive finite FP32 value, fixed point. -/
def fxLn (b : Word) : Int :=
  let m := fMant b
  let h := Nat.log2 m
  let y := m * 2 ^ (fxBits - h)
  let z := (y - fxOne) * fxOne / (y + fxOne)
  2 * fxArc false z + (fExp b + h) * fxLn2

/-- φ_i = b^(−2i/D)/2π in Q0.64 turns, rounded once to nearest (R203). -/
def phiTurn (b : Word) (d i : Nat) : Nat :=
  let (m, k) := fxExp (-(fxLn b * (2 * i : Nat) / (d : Int)))
  let v := m * 2 ^ 64 * fxOne / (2 * fxPi).toNat
  shiftRound (v / 2 ^ (-k).toNat) fxBits true

end Sys2Proof.Machine
end

