-- ==== Sys2Proof/Machine/Quant.lean ====
section
/-! DEFINITION. Four-bit elements, scales and requantisation: the encodings of R53 to R56, the scale choice of
R66, the rounding of R74 and the residue feed of R75 and R78, and the 32-element block product of R77. -/

namespace Sys2Proof.Machine

/-- The cell level of a four-bit element: INT4 its value (R53), E2M1 its doubled value (R54). `e2m1` says which. -/
def elemLevel (e2m1 : Bool) (n : Nat) : Int :=
  if e2m1 then
    let m : Int := match n % 8 with | 0 => 0 | 1 => 1 | 2 => 2 | 3 => 3 | 4 => 4 | 5 => 6 | 6 => 8 | _ => 12
    if n % 16 / 8 = 1 then -m else m
  else if 8 ≤ n % 16 then (n % 16 : Int) - 16 else (n % 16 : Int)

/-- The element of a level; E2M1 never gives 0b1000 (R55). -/
def elemCode (e2m1 : Bool) (l : Int) : Nat :=
  if e2m1 then
    let m : Nat := match l.natAbs with | 0 => 0 | 1 => 1 | 2 => 2 | 3 => 3 | 4 => 4 | 6 => 5 | 8 => 6 | _ => 7
    if l < 0 then m + 8 else m
  else (l % 16).toNat

/-- The nibble of element `i` of a packed byte string: even elements low (R198). -/
def nibble (bs : List Byte) (i : Nat) : Nat :=
  let b := (bs.getD (i / 2) 0).toNat
  if i % 2 = 0 then b % 16 else b / 16

/-- Elements packed two to a byte, even elements low (R198). -/
def packNibbles : List Nat → List Byte
  | [] => []
  | [a] => [BitVec.ofNat 8 a]
  | a :: b :: t => BitVec.ofNat 8 (a + 16 * b) :: packNibbles t

/-- The exponent of R66: the smallest e with A·2^−e ≤ 7 (INT4) or 6 (E2M1), clamped to ±127; 0 for A = 0, +127 for an
A that is infinite or NaN. -/
def scaleExp (e2m1 : Bool) (a : Word) : Int :=
  if !(isFin a) then 127
  else if isZero a then 0
  else
    let h := Nat.log2 (fMant a)
    let l : Int := fExp a + h
    let q := if e2m1 then 6 else 7
    clampI (-127) 127 (if fMant a * 4 ≤ q * 2 ^ h then l - 2 else l - 1)

/-- The largest magnitude of a list of FP32 values; NaN or infinity makes it infinite (R66). -/
def maxMag (xs : List Word) : Word :=
  xs.foldl (fun m x => if !(isFin x) || !(isFin m) then pInf else if fLt m (fAbs x) then fAbs x else m) 0

/-- ROUND of R74. -/
inductive Round where
  | rneFeed | rne | rtz
  deriving DecidableEq, Repr

/-- A rational rounded to a multiple of a step, to nearest even or toward zero. -/
def stepRound (rtz : Bool) (v step : Rat) : Int :=
  let t := v / step
  if rtz then (if t < 0 then t.ceil else t.floor) else ratRound t

/-- The level nearest to a value on the format's grid, extended past the format's range so that the clamp sees it
(R74, R75). -/
def gridLevel (e2m1 rtz : Bool) (v : Rat) : Int :=
  if e2m1 then
    let a := |v|
    if a < 2 then stepRound rtz v (1 / 2)
    else if a < 4 then 2 * stepRound rtz v 1
    else if a < 8 then 4 * stepRound rtz v 2
    else if v < 0 then -16 else 16
  else stepRound rtz v 1

/-- The least and the greatest level of a format. -/
def levelLo (e2m1 : Bool) : Int := if e2m1 then -12 else -8
def levelHi (e2m1 : Bool) : Int := if e2m1 then 12 else 7

/-- The clamp half-width h(q) of R75, for a level. -/
def feedHalf (e2m1 : Bool) (l : Int) : Rat :=
  if e2m1 then (if l.natAbs ≤ 3 then 1 / 4 else if l.natAbs ≤ 6 then 1 / 2 else 1) else 1 / 2

/-- One element of a requantisation: its code, whether it saturated, whether it was NaN, and the residue for the next
(R75). -/
structure QuantOut where
  code : Nat
  sat : Bool
  nanIn : Bool
  res : Word
  deriving DecidableEq, Repr

/-- One step of R75, for an element with its unbiased exponent. -/
def quantOne (e2m1 : Bool) (mode : Round) (e : Int) (x r : Word) : QuantOut :=
  if isNan x then { code := 0, sat := false, nanIn := true, res := 0 }
  else if isInf x then
    { code := elemCode e2m1 (if fSign x then levelLo e2m1 else levelHi e2m1), sat := true, nanIn := false, res := 0 }
  else
    let v0 := (fScaleSat x (-e)).1
    let v := if mode = .rneFeed then fAdd v0 r else v0
    let q := gridLevel e2m1 (mode = .rtz) (fRat v)
    let sat := decide (q < levelLo e2m1 ∨ levelHi e2m1 < q)
    let l := clampI (levelLo e2m1) (levelHi e2m1) q
    let unit : Rat := if e2m1 then 1 / 2 else 1
    let d := fRat v - (l : Rat) * unit
    let h := feedHalf e2m1 l
    let d := if d < -h then -h else if h < d then h else d
    { code := elemCode e2m1 l, sat := sat, nanIn := false, res := ofRat d }

/-- One run of R75: the residue starts at 0. -/
def quantRun (e2m1 : Bool) (mode : Round) (e : Int) : List Word → Word → List QuantOut
  | [], _ => []
  | x :: xs, r =>
    let o := quantOne e2m1 mode e x r
    o :: quantRun e2m1 mode e xs o.res

/-- The whole vector in runs of `n` elements, run j with exponent `exps j` (R75, R78). -/
def quantRuns (e2m1 : Bool) (mode : Round) (n : Nat) (exps : Nat → Int) (xs : List Word) : List QuantOut :=
  (chunks n xs).zipIdx.flatMap fun p => quantRun e2m1 mode (exps p.2) p.1 0

/-- EA (unbiased) and the DA bits of a vector whose largest magnitude is `a`, from its 64-element segments (R63, R66,
R159). -/
def deriveExps (e2m1 segmented : Bool) (a : Word) (xs : List Word) : Int × List Bool :=
  let emax := scaleExp e2m1 a
  if segmented then
    let ea := if emax = -127 then -127 else emax - 1
    (ea, (chunks 64 xs).map fun seg => decide (emax ≠ -127 ∧ scaleExp e2m1 (maxMag seg) = emax))
  else (emax, (chunks 64 xs).map fun _ => false)

/-- A scale record of R65, for the unbiased EA and the slice's DA bits. -/
def scaleRecord (ea : Int) (da : List Bool) (seg : Bool) : Nat :=
  (ea + 127).toNat % 256 + ((da.take 4).zipIdx.map fun p => flag p.1 (8 + p.2)).sum + flag seg 15

/-- One 32-element block of R77: the integer sum of the level products, scaled by 2^k, added to the accumulator; a scale
that overflows saturates (R73). -/
def blockMac (acc : Word) (a b : List Int) (k : Int) : Word :=
  fAdd acc (fScaleSat (ofIntExp ((a.zip b).map fun p => p.1 * p.2).sum 0) k).1

end Sys2Proof.Machine
end

