-- ==== Sys2Proof/Machine/Convert.lean ====
section
/-! DEFINITION. The conversion side of a stope (R59, R68 to R71, R92 to R116, R123, R331 to R340): the reference
buffer, launches and their checks, one entry's conversion with residue carry, the result queue, the combine stage, seam
checks and promotion. -/

namespace Sys2Proof.Machine

/-! ## Macros and cells -/

/-- The macro that converts in place of macro `m`: a spare that stands in, or `m` itself (R83). -/
def Stope.phys (t : Stope) (m : Nat) : Nat :=
  if t.spare72.live && t.spare72.target == m then 72
  else if t.spare73.live && t.spare73.target == m then 73 else m

/-- A cell's level; reference rows are at +12 from the factory (R79, R80). -/
def cellKey (m : Nat) (bank : Bool) (row c : Nat) : Nat := ((2 * m + (if bank then 1 else 0)) * 264 + row) * 256 + c
def Stope.cell (t : Stope) (m : Nat) (bank : Bool) (row c : Nat) : Int :=
  if row < 256 then Table.get 0 t.cells (cellKey m bank row c) else Table.get 12 t.cells (cellKey m bank row c)

/-- A macro bank's state (R112). -/
def Stope.bankState (t : Stope) (m : Nat) (bank : Bool) : BankState := Table.get .empty t.banks (2 * m + (if bank then 1 else 0))
def Stope.setBank (t : Stope) (m : Nat) (bank : Bool) (b : BankState) : Stope :=
  { t with banks := Table.set .empty t.banks (2 * m + (if bank then 1 else 0)) b }

/-- The seam of a data or checksum macro. -/
def seamOf (m : Nat) : Nat := if m < 64 then m / 16 else (m - 64) / 2

def Stope.seam (t : Stope) (k : Nat) : Seam := t.seams.getD k Seam.reset
def Stope.updSeam (t : Stope) (k : Nat) (f : Seam → Seam) : Stope := { t with seams := setAt t.seams k f }
def Stope.seq (t : Stope) (k : Nat) : Seq := t.seqs.getD k Seq.idle
def Stope.updSeq (t : Stope) (k : Nat) (f : Seq → Seq) : Stope := { t with seqs := setAt t.seqs k f }

/-- Whether a macro of a degraded seam is out of use: the permanent one of RECON or UNPROTECTED, until a spare stands in. -/
def Stope.outOfUse (t : Stope) (m : Nat) : Bool :=
  let g := t.seam (seamOf m)
  (g.mode == .recon && g.mac == m) || (g.mode == .unprotected && (g.mac == m || g.mac2 == some m))

/-- The macros of a seam that convert: 16 data macros, then the two checksum macros (R83, R330). -/
def Stope.converting (t : Stope) (k : Nat) : List Nat :=
  (((List.range 16).map (16 * k + ·)) ++ [64 + 2 * k, 65 + 2 * k]).filter fun m => !(t.outOfUse m)

/-- Whether every sequencer is idle. -/
def Stope.allIdle (t : Stope) : Bool := t.seqs.all fun q => !q.busy

/-! ## The reference buffer (R105 to R111) -/

/-- REF_MODE: 0 AUTO, 1 FORCE_ON, 2 FORCE_OFF (R108). -/
def State.refMode (s : State) (i : Nat) : Nat := fld (s.rd (planCtrl i)) 3 2

/-- Whether the buffer may be on: the stope lies in a region and the power state is CAL, READY or DRAIN (R44, R106). -/
def State.refAllowed (s : State) (i : Nat) : Bool :=
  (s.stopeRegion i).isSome && (s.hf.pwr == .cal || s.hf.pwr == .ready || s.hf.pwr == .drain)

/-- An enable: OFF to WARMING (R106). -/
def State.refWarm (s : State) (i : Nat) : State :=
  if (s.stope i).ref == .off && s.refAllowed i then
    s.updStope i fun t => { t with ref := .warming, refDisable := false, refSince := s.now }
  else s

/-- The winder enables a stope's buffer: a warm-up of a buffer that is OFF is charged (R443). -/
def State.refEnable (s : State) (i : Nat) : State :=
  if (s.stope i).ref == .off && s.refAllowed i then (s.refWarm i).charge enPrewarm warmCost else s

/-- A disable: pending until the buffer reaches OFF (R106, R107). -/
def State.refStop (s : State) (i : Nat) : State :=
  if (s.stope i).ref == .off then s else s.updStope i fun t => { t with refDisable := true }

/-- REF_ENABLE (R106): an enable by the winder in AUTO, charged (R443), or by FORCE_ON. -/
def execRefEnable (i : Nat) (s : State) : Host.Outcome State Fault Refusal :=
  .next (match s.refMode i with
    | 2 => s
    | 1 => s.refWarm i
    | _ => s.refEnable i)

/-- REF_READY (R106): the settling monitor confirms 0.1 LSB. -/
def execRefReady (i : Nat) (s : State) : Host.Outcome State Fault Refusal :=
  .next (if (s.stope i).ref == .warming then s.updStope i fun t => { t with ref := .ready, refSince := s.now } else s)

/-- REF_DISABLE (R106, R107): a disable by the winder in AUTO, or by FORCE_OFF. -/
def execRefDisable (i : Nat) (s : State) : Host.Outcome State Fault Refusal :=
  .next (if s.refMode i = 1 then s else s.refStop i)

/-- REF_OFF (R106): a pending disable with no plan running, or a stope without region or power, takes the buffer to OFF;
residues held are lost (R99), and a calibration's present gain starts over (R134). Under FORCE_ON it warms again at once (R108). -/
def execRefOff (i : Nat) (s : State) : Host.Outcome State Fault Refusal :=
  .next (
    let t := s.stope i
    if t.ref != .off && ((t.refDisable && t.allIdle) || !(s.refAllowed i)) then
      let s := s.updStope i fun t => { t with ref := .off, refDisable := false, refSince := s.now, residue := [], cal := t.cal.restartGain }
      if s.refMode i = 1 then s.refWarm i else s
    else s)

/-- The bounds, in ns, of what a stream's steps on a core still have before them (R109). -/
def Core.aheadNs (t : Core) (now stream : Nat) : Nat :=
  ((t.queue.filter fun x => x.stream == some stream).map (·.bound)).sum +
    (((t.run.toList ++ t.finishing).filter fun r => r.step.stream == some stream).map fun r => r.started + r.step.bound - now).sum

/-- How far away a ready step's issue is expected, in ns: the bounds of its token's earlier steps (R109). -/
def State.issueIn (s : State) (r : StepReq) : Nat :=
  match r.stream with
  | some i => (s.cores.map fun p => p.2.aheadNs s.now i).sum
  | none => 0

/-- PREWARM_LEAD in ns (R121). -/
def State.prewarmLead (s : State) (i : Nat) : Nat := fld (s.rd (planPrewarmLead i)) 7 0 * 1000

/-- Whether the winder's look-ahead holds a converting step for a stope: one whose entry of the issue queue is not free yet (R153), or one
that it expects to issue within PREWARM_LEAD (R109). -/
def State.lookAhead (s : State) (i : Nat) : Bool :=
  (s.core i).queue.any (·.converting) || ((s.core i).run.toList ++ (s.core i).finishing).any (·.step.converting) ||
    s.wnd.ready.any fun r => r.core == i && reqConverts r && decide (s.issueIn r ≤ s.prewarmLead i)

/-- REF_IDLE_EXPIRY (R109): in AUTO mode, READY with no plan running (a calibration's neither) for REF_IDLE µs and nothing ahead, the
winder disables the buffer. -/
def execRefIdleExpiry (i : Nat) (s : State) : Host.Outcome State Fault Refusal :=
  .next (
    let t := s.stope i
    if s.refMode i = 0 ∧ t.ref = .ready ∧ t.allIdle ∧ t.cal.phase ≠ .zero ∧ t.cal.phase ≠ .full ∧ t.refSince + fld (s.rd (planRefIdle i)) 15 0 * 1000 ≤ s.now ∧ ¬ s.lookAhead i then
      s.refStop i
    else s)

/-- PREWARM (R109, R443, R444): in AUTO mode, a converting step comes within PREWARM_LEAD, and the winder enables the buffer
when the grant covers it, charging the warm-up; else the pre-warm waits for the next window. -/
def execPrewarm (i : Nat) (s : State) : Host.Outcome State Fault Refusal :=
  .next (
    if s.refMode i = 0 ∧ s.lookAhead i ∧ (s.stope i).ref = .off ∧ s.refAllowed i ∧
        s.prewarmNeed (s.prewarmLead i) ≤ s.unreserved then
      s.refEnable i
    else s)

/-- A change of REF_MODE: FORCE_ON enables at once, FORCE_OFF disables, AUTO leaves the buffer as it is (R108). -/
def State.refModeEffect (s : State) (i : Nat) : State :=
  match s.refMode i with
  | 1 => s.refWarm i
  | 2 => s.refStop i
  | _ => s

/-- REF_MODE_WRITE (R108, R117): a write of PLAN_CTRL. -/
def State.planCtrlWrite (s : State) (f i : Nat) (v : Word) : State :=
  if s.mayWrite f (planCtrl i) then (s.storeReg f (planCtrl i) v).refModeEffect i else s

/-- REF_MODE_WRITE (R108). -/
def execRefModeWrite (f i : Nat) (v : Word) (s : State) : Host.Outcome State Fault Refusal := .next (s.planCtrlWrite f i v)

/-! ## Launches (R84, R90, R107, R114, R115, R485) -/

/-- Statuses of a launch: 0 complete, a refusal or cause code, or this for CANCELLED (R116). -/
def statusCancelled : Nat := 0x10000

/-- The launch with an ID. -/
def Stope.launch (t : Stope) (id : Nat) : Option Launch := t.launches.find? fun l => l.id == id
def Stope.updLaunch (t : Stope) (id : Nat) (f : Launch → Launch) : Stope :=
  { t with launches := t.launches.map fun l => if l.id == id then f l else l }

/-- A launch ends with a status. -/
def Stope.endLaunch (t : Stope) (id status : Nat) : Stope :=
  t.updLaunch id fun l => { l with running := false, ended := true, status := status, left := 0 }

/-- Whether a launch waits for its start. -/
def Launch.waiting (l : Launch) : Bool := !l.running && !l.ended

/-- The seams a launch names. -/
def Launch.seamList (l : Launch) : List Nat := maskBits 4 l.seams

/-- Whether a macro of a stope is in the midst of its programming, which a calibration lets finish (R134). -/
def State.macroMidway (s : State) (i : Nat) : Bool :=
  (s.swap.rows.any fun x => x.1 / 128 == i && (x.2.1 % 256 != 0 || x.2.2.1 != 0)) ||
    s.swap.refresh.any fun x => x.1 / 256 == i && (x.2.row % 256 != 0 || x.2.iters != 0)

/-- Whether a calibration has the stope's time before a launch (R133): a slot of at most 2 µs that is open, or, once slots are forced, the next
sample by its spacing or the commit. -/
def State.calHolds (s : State) (i : Nat) : Bool :=
  let c := (s.stope i).cal
  !c.excl &&
    (((c.phase == .zero || c.phase == .full) &&
      ((c.slotOpen && decide (s.now < c.slotSince + 2000)) ||
       (c.forced && (c.taken == 0 || decide (c.lastSample + 1500 ≤ s.now)) && !(s.stopeFenced i 1) && !(s.macroMidway i)))) ||
     (c.forced && c.phase == .commit))

/-- Whether the waits of R485 are over: sequencers free, the bank active, no fence, no seam held (R84, R114, R336). -/
def State.launchFree (s : State) (i : Nat) (l : Launch) : Bool :=
  !(s.calHolds i) &&
  let t := s.stope i
  (l.seamList.all fun k => !(t.seq k).busy && !(t.seam k).holdLaunches) && l.bank == t.bank && !(s.stopeFenced i 1) &&
    !(s.quiescing (shellPage i))

/-- What checks 4 to 6 of R485 end the launch with, or 0. -/
def State.launchCheck (s : State) (i : Nat) (l : Launch) : Nat :=
  let t := s.stope i
  if t.ref != .ready || t.refDisable then rRefCold
  else if l.entries.any fun e => !(bitAt t.cal.gainValid (entGain e)) then causeCalMissing
  else if l.seamList.any fun k => (t.converting k).any fun m => t.bankState (t.phys m) l.bank != .valid then causeBankNotReady
  else 0

/-- The runs of a seam's columns are cleared, as at the start of a plan (R69, R331, R340). -/
def Stope.clearRuns (t : Stope) (k : Nat) : Stope :=
  let out (key : Nat) : Bool := seamOf (key / 256) != k
  { t with narrow := t.narrow.filter (fun p => out p.1), check := t.check.filter (fun p => out p.1),
           recon := t.recon.filter (fun p => out p.1), runFlags := t.runFlags.filter (fun p => out p.1) }

/-- A seam's latch takes its 256 levels (R82). -/
def Stope.loadLatch (t : Stope) (k : Nat) (levels : List Int) : Stope :=
  { t with latch := (levels.zipIdx.foldl (fun m p => Table.set 0 m (256 * k + p.2) p.1) t.latch) }

/-- The launch's plan starts on its seams (R82, R90). -/
def Stope.startPlan (t : Stope) (l : Launch) : Stope :=
  let t := l.seamList.zipIdx.foldl (fun t p =>
    let t := (t.clearRuns p.1).loadLatch p.1 ((l.levels.drop (256 * p.2)).take 256)
    t.updSeq p.1 fun _ => { Seq.idle with busy := true, launch := l.id, hdr := l.hdr, entries := l.entries, bank := l.bank,
                                          format := l.format, da := l.da.getD p.2 0, stream := l.stream }) t
  t.updLaunch l.id fun l => { l with running := true, left := l.seams }

/-- PLAN_START (R485): once the waits are over, checks 4 to 6; REF_COLD is counted (R107) and, like BANK_NOT_READY and
CAL_MISSING, ends the launch; else the plan starts. -/
def execPlanStart (i id : Nat) (s : State) : Host.Outcome State Fault Refusal :=
  .next (
    match (s.stope i).launch id with
    | none => s
    | some l =>
      if l.waiting && s.launchFree i l then
        let c := s.launchCheck i l
        if c = 0 then s.updStope i fun t => t.startPlan l
        else
          let s := s.updStope i fun t => t.endLaunch id c
          if c = rRefCold then (s.inc (planRefColdCount i) 1).wr (planRefuse i) (BitVec.ofNat 32 (rRefCold + l.slot * 0x10000)) else s
      else s)

/-- The first launch that holds for a bank switch (R114). -/
def Stope.switchWait (t : Stope) : Option Launch := t.launches.find? fun l => l.waiting && l.bank != t.bank

/-- BANK_SWITCH (R64, R114): with no plan running, the stope switches weights and scales to a held launch's bank. -/
def execBankSwitch (i : Nat) (s : State) : Host.Outcome State Fault Refusal :=
  .next (
    match (s.stope i).switchWait with
    | some l => if (s.stope i).allIdle then s.updStope i fun t => { t with bank := l.bank } else s
    | none => s)

/-! ## One entry (R59, R81, R92 to R102) -/

/-- The phase an entry converts in a pass: inverted in the second pass of a SWEEP (R85). -/
def effPhase (h e : Word) (pass : Nat) : Nat := if hdrSweep h ∧ pass = 1 then 1 - entPhase e else entPhase e

/-- A column's integrated sum in units (R59, R82, R85, R86). -/
def Stope.columnSum (t : Stope) (k p c : Nat) (bank : Bool) (h e : Word) : Int :=
  if hdrRef h then
    (((List.range 8).filter fun r => bitAt (entMask e) (r / 2)).map fun r => (hdrPulses h : Int) * t.cell p bank (256 + r) c).sum
  else
    (((List.range 256).filter fun r => bitAt (entMask e) (r / 64)).map fun r =>
      let lv := Table.get 0 t.latch (256 * k + r)
      if bitAt lv.natAbs (entPlane e) then (if lv < 0 then -(t.cell p bank r c) else t.cell p bank r c) else 0).sum

/-- The residue of a column before any conversion: none held. -/
def Residue.none : Residue := { value := 0, valid := false, ended := 0 }

/-- What one column's conversion gives: its raw code, its new residue, and whether its chain was broken. -/
structure Conversion where
  code : Nat
  residue : Residue
  broken : Bool
  deriving DecidableEq, Repr

/-- One conversion of a sample v, in LSBs (R95, R96, R99). `ctr` numbers its free values. -/
def convert (v : Rat) (ctr now : Nat) (broken : Bool) : Conversion :=
  let f := v.floor
  let d := v - f
  let n : Int := if d < 1 / 2 then f else if 1 / 2 < d then f + 1 else if Config.tieUp ctr then f + 1 else f
  let code := (clampI 0 255 (128 + n)).toNat
  { code := code, broken := broken,
    residue := { value := v - ((code : Int) - 128 : Int), valid := code != 0 && code != 255, ended := now } }

/-- One column's conversion for an entry: what it samples is the sum, the column's own departure from it, and the carried
residue of a chain that holds (R95, R97, R99). -/
def Stope.convertColumn (t : Stope) (k p c : Nat) (bank : Bool) (h e : Word) (ctr now : Nat) : Conversion :=
  let r := Table.get Residue.none t.residue (256 * p + c)
  let good := r.valid && decide (now ≤ r.ended + 1000)
  let carried : Rat := if entCarry e = 0 ∨ !good then 0 else if entCarry e = 2 then 2 * r.value else r.value
  let v := (t.columnSum k p c bank h e : Rat) / gainStep (entGain e) + Config.deviation ctr + carried
  convert v ctr now (entCarry e != 0 && !good)

/-- A result tag (R101). -/
def tagWord (m c pos : Nat) (v : Conversion) : Word :=
  BitVec.ofNat 32 (m * 2 ^ 25 + c * 2 ^ 17 + pos * 2 ^ 13 + flag (v.code == 0) 12 + flag (v.code == 255) 11 + flag v.broken 10 + v.code)

/-- One macro's 128 conversions of an entry: the tags in ascending column order, and the stope with the new residues (R81, R102). -/
def Stope.convertMacro (t : Stope) (k m : Nat) (q : Seq) (e : Word) (ctr now : Nat) : List (Word × Bool × Bool) × Stope :=
  let p := t.phys m
  let ph := effPhase q.hdr e q.pass
  let res := (List.range 128).map fun j => (2 * j + ph, t.convertColumn k p (2 * j + ph) q.bank q.hdr e (ctr + j) now)
  (res.map fun x => (tagWord m x.1 q.pos x.2, x.2.code == 0 || x.2.code == 255, x.2.broken),
   { t with residue := res.foldl (fun r x => Table.set Residue.none r (256 * p + x.1) x.2.residue) t.residue })

/-- Words the result queue holds (R101). -/
def queueCap : Nat := 8192

/-- A macro's group goes into the queue, or is held while fewer than 128 words are free (R103). -/
def Stope.push (t : Stope) (k m : Nat) (tags : List Word) : Stope :=
  if t.queue.length + 128 ≤ queueCap then { t with queue := t.queue ++ tags }
  else { t with heldPush := t.heldPush ++ [(k, m, tags)] }

/-- Held groups enter the queue in order while it has room (R103). -/
def pushHeld : List (Nat × Nat × List Word) → List Word → List Word × List (Nat × Nat × List Word)
  | [], q => (q, [])
  | g :: gs, q => if q.length + 128 ≤ queueCap then pushHeld gs (q ++ g.2.2) else (q, g :: gs)

def Stope.resumePush (t : Stope) : Stope :=
  let r := pushHeld t.heldPush t.queue
  { t with queue := r.1, heldPush := r.2 }

/-! ## The combine stage (R68, R69, R123, R331, R340) -/

/-- The corrected code under a coefficient pair (R123). -/
def correct (code : Nat) (coef : Word) : Int :=
  let o : Rat := ((BitVec.ofNat 16 (fld coef 31 16)).toInt : Rat) / 256
  let g : Rat := (fld coef 15 0 : Nat) / (16384 : Rat)
  clampI (-128) 127 (ratRound ((((code : Int) - 128 : Int) - o) * g))

/-- The coefficient pair of a physical macro's column and gain; identity at reset (R123, R124). -/
def Stope.coefOf (t : Stope) (p c g : Nat) : Word := Table.get 0x4000 t.coef ((256 * p + c) * 8 + g)

/-- DW of a data macro's column and segment (R64); a checksum macro has none. -/
def Stope.dw (t : Stope) (bank : Bool) (m c g : Nat) : Nat :=
  if m < 64 then (if bitAt (Table.get 0 t.scales (16384 * (if bank then 1 else 0) + 256 * m + c)) (8 + g) then 1 else 0) else 0

/-- Adds to a run. -/
def addRun (r : Table Int) (key : Nat) (v : Int) : Table Int := Table.set 0 r key (Table.get 0 r key + v)

/-- One tag drained: corrected, shifted and added to its column's runs, or discarded when its plan is gone (R68, R331, R340). -/
def Stope.combine (t : Stope) (w : Word) : Stope :=
  let m := fld w 31 25
  let c := fld w 24 17
  let k := seamOf m
  let q := t.seq k
  match q.busy, q.entries[fld w 16 13]? with
  | true, some e =>
    let seg := hdrSegmented q.hdr
    let g := maskSegment (entMask e)
    let v := correct (fld w 7 0) (t.coefOf (t.phys m) c (entGain e))
    let da := if seg && bitAt q.da g then 1 else 0
    let dw (j : Nat) : Nat := if seg then t.dw q.bank j c g else 0
    let sh : Nat := entShift e + da
    let fl := flag (bit w 12) 0 + flag (bit w 11) 1 + flag (bit w 10) 2
    let key := 256 * m + c
    let t := { t with
      narrow := addRun t.narrow key (v * (2 : Int) ^ (sh + dw m)),
      check := addRun t.check key (v * (2 : Int) ^ sh),
      runFlags := Table.set 0 t.runFlags key (Table.get 0 t.runFlags key ||| fl) }
    if (t.seam k).mode = .recon then
      let f := (t.seam k).mac
      let weight : Int := if m = 64 + 2 * k then 16 else if m = 65 + 2 * k then 1 else -1
      if m = f then t
      else { t with recon := addRun t.recon (256 * f + c) (weight * v * (2 : Int) ^ (sh + dw f)),
                    runFlags := Table.set 0 t.runFlags (256 * f + c) (Table.get 0 t.runFlags (256 * f + c) ||| fl) }
    else t
  | _, _ => t

/-- The combine stage drains words from the queue's front (R104). -/
def Stope.drain (t : Stope) (n : Nat) : Stope :=
  (t.queue.take n).foldl Stope.combine { t with queue := t.queue.drop n }

/-- Counters of an entry's tags: saturations and broken chains (R95, R99). -/
def State.countTags (s : State) (i : Nat) (tags : List (Word × Bool × Bool)) : State :=
  (s.inc64 (planSatCountLo i) (tags.filter fun x => x.2.1).length).inc64 (planCarryBreakCountLo i) (tags.filter fun x => x.2.2).length

/-- The stope after an entry's conversions on the macros of a list, with every tag made. -/
def Stope.convertAll (t : Stope) (k : Nat) (q : Seq) (e : Word) (now : Nat) : List Nat → Nat → List (Word × Bool × Bool) → Stope × List (Word × Bool × Bool)
  | [], _, acc => (t, acc)
  | m :: ms, ctr, acc =>
    let (tags, t') := t.convertMacro k m q e ctr now
    (t'.push k m (tags.map (·.1))).convertAll k q e now ms (ctr + 128) (acc ++ tags)

/-- Whether a seam's sequencer may start its next entry: running, entries left, the buffer READY, no push held, CONVERT not
fenced, its launch not held for localisation (R103, R111, R116, R336). -/
def State.entryFree (s : State) (i k : Nat) : Bool :=
  let t := s.stope i
  (t.seq k).busy && decide ((t.seq k).pos < (t.seq k).entries.length) && t.ref == .ready && !(t.heldPush.any fun g => g.1 == k) &&
    !(s.stopeFenced i 1) && (t.seam k).mode != .localising

/-- ENTRY_RUN (R92, R94, R95, R102, R103): the seam's next entry converts on every macro of the seam, each macro pushes its
128 tags or holds them, and the combine stage drains meanwhile. -/
def execEntryRun (i k drained : Nat) (s : State) : Host.Outcome State Fault Refusal :=
  .next (
    if s.entryFree i k then
      let t := s.stope i
      let q := t.seq k
      match q.entries[q.pos]? with
      | none => s
      | some e =>
        let macros := t.converting k
        let (t, tags) := t.convertAll k q e s.now macros s.freeCtr []
        let t := ((t.updSeq k fun q => { q with pos := q.pos + 1 }).drain drained).resumePush
        let s := { s with freeCtr := s.freeCtr + 128 * macros.length }.setStope i t
        let s := (s.countTags i tags).inc64 (planConvCountLo i) 1
        if entTint e < s.tintFloor i (entGain e) then s.inc (planTintRaisedCount i) 1 else s
    else s)

/-- RESULT_PUSH_RESUME (R103): the combine stage drains, and held macros push as room comes free. -/
def execResultPushResume (i drained : Nat) (s : State) : Host.Outcome State Fault Refusal :=
  .next (s.updStope i fun t => (t.drain drained).resumePush)

/-! ## The end of a pass (R70, R333 to R338) -/

/-- The columns a pass converts: those whose phase some entry names (R70). -/
def passColumns (q : Seq) : List Nat :=
  (List.range 256).filter fun c => q.entries.any fun e => effPhase q.hdr e q.pass == c % 2

/-- D[c] of R331. -/
def Stope.dSum (t : Stope) (k c bs : Nat) : Int :=
  let run (m : Nat) : Int := Table.get 0 t.check (256 * m + c) * (2 : Int) ^ bs
  ((List.range 16).map fun j => run (16 * k + j)).sum - 16 * run (64 + 2 * k) - run (65 + 2 * k)

/-- Whether a column's check is skipped (R333). -/
def State.checkSkipped (s : State) (i k c : Nat) : Bool :=
  let t := s.stope i
  !(bit (s.rd (checkCtrl i)) k) || hdrRef (t.seq k).hdr || (t.seam k).mode == .recon || (t.seam k).mode == .unprotected ||
    (t.converting k).any fun m => (Table.get 0 t.runFlags (256 * m + c)) % 4 != 0

/-- The columns of a pass that fail their check (R331, R332). τ is the plan's for the column's own phase. -/
def State.failing (s : State) (i k : Nat) (tau : Nat × Nat) : List Nat :=
  let t := s.stope i
  let q := t.seq k
  (passColumns q).filter fun c =>
    !(s.checkSkipped i k c) && decide ((if c % 2 = 0 then tau.1 else tau.2) < (t.dSum k c (hdrBaseShift q.hdr)).natAbs)

/-- The clamp of a promotion (R70). -/
def promoteLimit (h : Word) : Int := if hdrSegmented h then 1048572 else 262143

/-- One column promoted (R70): the run shifted, clamped, and added, its weight counted, its flags kept. The flags of an
accumulator are SAT_LO, SAT_HI, CARRY_BROKEN, the clamp and SUSPECT, bits 0 to 4. The Bool says that it clamped. -/
def Stope.promote (t : Stope) (k m c : Nat) (h : Word) : Stope × Bool :=
  let key := 256 * m + c
  let run := if (t.seam k).mode = .recon ∧ (t.seam k).mac = m then Table.get 0 t.recon key else Table.get 0 t.narrow key
  let v := run * (2 : Int) ^ hdrBaseShift h
  let lim := promoteLimit h
  let w := clampI (-lim) lim v
  let cl := w != v
  let fl := Table.get 0 t.runFlags key ||| flag cl 3 ||| flag ((t.seam k).mode == .suspect) 4
  ({ t with acc := Table.set 0 t.acc key (Table.get 0 t.acc key + BitVec.ofInt 32 w),
            weight := Table.set 0 t.weight key (Table.get 0 t.weight key + (if hdrSegmented h then 4 else 1)),
            accFlags := Table.set 0 t.accFlags key (Table.get 0 t.accFlags key ||| fl) }, cl)

/-- A seam's converted columns promoted (R70, R334); SAT_COUNT counts the clamps. -/
def State.promoteSeam (s : State) (i k : Nat) : State :=
  let t := s.stope i
  let q := t.seq k
  let cols := passColumns q
  let r := ((List.range 16).flatMap fun j => cols.map fun c => (16 * k + j, c)).foldl
    (fun (acc : Stope × Nat) x => let y := acc.1.promote k x.1 x.2 q.hdr; (y.1, acc.2 + (if y.2 then 1 else 0))) (t, 0)
  (s.setStope i r.1).inc (shellSatCount i) r.2

/-- A seam's residues are discarded at the end of a pass (R99). -/
def Stope.dropResidues (t : Stope) (k : Nat) : Stope :=
  let ps := (t.converting k).map t.phys
  { t with residue := t.residue.filter fun x => !(ps.contains (x.1 / 256)) }

/-- The sequencers of a launch's seams are free again (R84). -/
def Stope.freeSeams (t : Stope) (l : Launch) : Stope := l.seamList.foldl (fun t k => t.updSeq k fun _ => Seq.idle) t

/-- A seam's part of its launch is over; with the last one the launch completes and its sequencers are free (R84). -/
def State.endSeam (s : State) (i k : Nat) : State :=
  s.updStope i fun t =>
    let id := (t.seq k).launch
    let t := (t.updSeq k fun q => { q with done := true }).updLaunch id fun l => { l with left := l.left &&& (0xF ^^^ 2 ^ k) }
    let t := match t.launch id with
      | some l => if l.left = 0 then (t.freeSeams l).endLaunch id 0 else t
      | none => t.updSeq k fun _ => Seq.idle
    if t.allIdle then { t with refSince := s.now } else t

/-- After a promotion: the second pass of a SWEEP begins, or the seam's plan ends (R85). -/
def State.nextPass (s : State) (i k : Nat) : State :=
  let q := (s.stope i).seq k
  let s := s.updStope i fun t => (t.dropResidues k).clearRuns k
  if hdrSweep q.hdr ∧ q.pass = 0 then s.updStope i fun t => t.updSeq k fun q => { q with pass := 1, pos := 0 }
  else s.endSeam i k

/-- The failing pass runs again from its first entry, with the runs discarded (R335; a pass already promoted stands,
DEDUCED, log entry 16). -/
def State.rerunPass (s : State) (i k : Nat) : State :=
  s.updStope i fun t => ((t.dropResidues k).clearRuns k).updSeq k fun q => { q with pos := 0 }

/-- A notice of a stope about a seam. -/
def State.seamNotice (s : State) (i k cause detail : Nat) : State :=
  s.notify (mkNotice cause (unitSeam i k) detail i ((s.stopeRegion i).getD 0))

/-- What a failing pass does, by the seam's state and the launch's history (R335, R336, R338, R339). -/
def State.passFailed (s : State) (i k col : Nat) (l : Launch) : State :=
  let g := (s.stope i).seam k
  if g.mode = .suspect then (s.updStope i fun t => t.updSeam k fun g => { g with lastMismatch := s.now }).promoteSeam i k |>.nextPass i k
  else if g.finalRerun then
    let s := s.updStope i fun t => t.updSeam k fun g => { g with mode := .suspect, finalRerun := false, failed := none, lastMismatch := s.now }
    ((s.promoteSeam i k).nextPass i k).seamNotice i k causeSeamSuspect col
  else if bitAt l.reruns k then
    let s := (s.updStope i fun t => t.updSeam k fun g => { g with mode := .localising, holdLaunches := true, failed := some l.id }).rerunPass i k
    s.seamNotice i k causeSeamMismatch col
  else (s.updStope i fun t => t.updLaunch l.id fun l => { l with reruns := l.reruns ||| 2 ^ k }).rerunPass i k

/-- What a passing pass does: promotion, and the record of a re-run that helped (R334, R335, R338). -/
def State.passPassed (s : State) (i k : Nat) (l : Launch) : State :=
  let g := (s.stope i).seam k
  let s := (s.promoteSeam i k).nextPass i k
  if g.finalRerun then
    (s.updStope i fun t => t.updSeam k fun g => { g with finalRerun := false, failed := none }).countEvent (unitSeam i k) causeSeamMismatch 0 false
  else if bitAt l.reruns k then
    let s := (s.inc (checkMismatchCount i) 1).seamNotice i k causeSeamRerun 0
    s.updStope i fun t => t.updLaunch l.id fun l => { l with reruns := l.reruns &&& (0xF ^^^ 2 ^ k) }
  else s

/-- Whether a seam's pass is over: every entry converted and acknowledged. -/
def State.passOver (s : State) (i k : Nat) : Bool :=
  let t := s.stope i
  (t.seq k).busy && !(t.seq k).done && decide ((t.seq k).entries.length ≤ (t.seq k).pos) && !(t.heldPush.any fun g => g.1 == k) &&
    (t.seam k).mode != .localising

/-- The end of a seam's pass (R70, R333 to R338): with every tag drained, the combine stage checks the seam, then promotes, re-runs or
hands over to localisation. -/
def State.passEnd (s : State) (i k : Nat) : State :=
  let s := s.updStope i fun t => t.drain t.queue.length
  match (s.stope i).launch ((s.stope i).seq k).launch with
  | none => s.endSeam i k
  | some l =>
    let cols := passColumns ((s.stope i).seq k)
    let bad := s.failing i k l.tau
    let s := s.inc (checkSkipCount i) (cols.filter (s.checkSkipped i k)).length
    let s := if (cols.filter fun c => !(s.checkSkipped i k c)).isEmpty then s
             else s.updStope i fun t => t.updSeam k fun g => { g with tauLast := max l.tau.1 l.tau.2 }
    match bad with
    | [] => s.passPassed i k l
    | c :: _ => s.passFailed i k c l

/-! ## Events that end a plan (R111, R116) -/

/-- The plans of some seams end without promotion: tags, runs and sequencers go, the launch ends with a status. -/
def Stope.discardPlans (t : Stope) (ks : List Nat) (status : Nat) : Stope :=
  let mine (w : Word) : Bool := ks.contains (seamOf (fld w 31 25))
  let t := { t with queue := t.queue.filter fun w => !(mine w), heldPush := t.heldPush.filter fun g => !(ks.contains g.1) }
  ks.foldl (fun t k =>
    let id := (t.seq k).launch
    let t := (t.clearRuns k).dropResidues k
    if (t.seq k).busy then (t.updSeq k fun _ => Seq.idle).endLaunch id status else t) t

/-- REF_LOST (R99, R106, R111, R134): the buffer leaves READY under fault; running plans complete with REF_LOST, residues
are lost, a calibration's present gain starts over, and a notice goes to the headframe. -/
def execRefLost (i : Nat) (s : State) : Host.Outcome State Fault Refusal :=
  .next (
    if (s.stope i).ref = .ready then
      let s := s.updStope i fun t =>
        let t := t.discardPlans [0, 1, 2, 3] causeRefLost
        { t with ref := .warming, refSince := s.now, residue := [], cal := t.cal.restartGain }
      s.notify (mkNotice causeRefLost 0 0 i ((s.stopeRegion i).getD 0))
    else s)

/-- A CANCEL reaches a stope's plans of a stream: each completes with status CANCELLED (R116); waiting launches of the stream go. -/
def State.cancelPlans (s : State) (i stream : Nat) : State :=
  s.updStope i fun t =>
    let ks := (List.range 4).filter fun k => (t.seq k).busy && (t.seq k).stream == some stream
    let t := t.discardPlans ks statusCancelled
    let t := if t.allIdle ∧ ks ≠ [] then { t with refSince := s.now } else t
    { t with launches := t.launches.map fun l => if l.waiting && l.stream == some stream then { l with ended := true, status := statusCancelled } else l }

end Sys2Proof.Machine
end

