-- ==== Sys2Proof/Machine/Cores.lean ====
section
/-! DEFINITION. Shell and merge cores (R152 to R165, R169 to R182): address words, local memories and their errors,
the scoreboard, step faults, and the shared way in which a descriptor issues. -/

namespace Sys2Proof.Machine

/-! ## Fields (R154) -/

def Desc.op (d : Desc) : Nat := fld d.w0 6 0
def Desc.last (d : Desc) : Bool := bit d.w0 7
def Desc.sync (d : Desc) : Bool := bit d.w0 8
def Desc.func (d : Desc) : Nat := fld d.w0 13 9
def Desc.len (d : Desc) : Nat := fld d.w0 31 14
def spaceOf (w : Word) : Nat := fld w 31 29
def addrOf (w : Word) : Nat := fld w 28 0

/-! ## Local ranges (R155, R162, R178 to R180) -/

/-- A local range: the scoreboard's space (0 SP, 1 ACC, 2 MC), the flat byte address (for ACC the first accumulator), and the
length in 64-bit words (for ACC, in pairs). -/
structure Rng where
  space : Nat
  start : Nat
  words : Nat
  deriving DecidableEq, Repr

/-- Granules granted to a merge core (R180). -/
def State.granted (s : State) (m g : Nat) : Bool :=
  if g < 32 then bit (s.rd (mergePoolGrantLo m)) g else bit (s.rd (mergePoolGrantHi m)) (g - 32)

/-- Where a shell core's scratchpad lies, and its size in bytes: its own, or the takeover area in its buddy's, which ends where the
buddy's scratchpad does (R349). -/
def State.spFor (s : State) (c : Nat) : Nat := match (s.core c).host with
  | some b => spBase b + s.wnd.job.buddyBase
  | none => spBase c
def State.spSize (s : State) (c : Nat) : Nat := match (s.core c).host with
  | some _ => min s.wnd.job.buddyLen (0x100000 - s.wnd.job.buddyBase)
  | none => 0x100000

/-- The local range that an address word names on a core for `n` words, if it lies in its space (R155, R156, R180); an address at or past
the end of its space lies in none, whatever the length. -/
def State.rangeOf (s : State) (c : Nat) (w : Word) (n : Nat) : Option Rng :=
  let a := addrOf w
  match spaceOf w with
  | 0 => if c < 256 ∧ 8 * a < s.spSize c ∧ 8 * (a + n) ≤ s.spSize c then some { space := 0, start := s.spFor c + 8 * a, words := n } else none
  | 2 => if c < 256 ∧ a < 8192 ∧ a + n ≤ 8192 then some { space := 1, start := 2 * a, words := n } else none
  | 6 =>
    if c < 256 then none
    else
      let m := c - 256
      match bitsOf a 28 27 with
      | 0 => if bitsOf a 24 0 < 2048 ∧ bitsOf a 24 0 + n ≤ 2048 then some { space := 2, start := obBase m (bitsOf a 26 25) + 8 * bitsOf a 24 0, words := n } else none
      | 1 => if bitsOf a 26 0 < 262144 ∧ bitsOf a 26 0 + n ≤ 262144 then some { space := 2, start := coreMemBase m + 8 * bitsOf a 26 0, words := n } else none
      | 2 =>
        let b := bitsOf a 26 0
        if b < 8388608 ∧ b + n ≤ 8388608 ∧ ((List.range 64).all fun g => !(decide (b / 131072 ≤ g ∧ g ≤ (b + n - 1) / 131072)) || s.granted m g) then
          some { space := 2, start := poolBase + 8 * b, words := n }
        else none
      | _ => none
  | _ => none

/-- Whether a range lies in an operand buffer. -/
def Rng.isOb (r : Rng) : Bool := decide (obBase 0 0 ≤ r.start ∧ r.start < poolBase) && r.space == 2

/-- Whether a range lies in the pool, and its first granule. -/
def Rng.isPool (r : Rng) : Bool := decide (poolBase ≤ r.start ∧ r.start < poolBase + 0x4000000) && r.space == 2

/-- A range in scratchpad, core memory or pool: what the vector opcodes read and write (R155; operand buffers are read by MMA4
and PQUANT alone, R178). The accumulator file is none of their spaces (DESIGN CHOICE, log entry 137). -/
def State.vecRange (s : State) (c : Nat) (w : Word) (n : Nat) : Option Rng :=
  (s.rangeOf c w n).filter fun r => r.space != 1 && !r.isOb

/-- The words of a range, as bytes. An accumulator pair is 8 bytes. -/
def State.rdRange (s : State) (c : Nat) (r : Rng) : List Byte :=
  if r.space = 1 then (List.range (2 * r.words)).flatMap fun i => leBytes 4 (Table.get 0 (s.stope c).acc (r.start + i)).toNat
  else s.rdMem r.start (8 * r.words)

/-- The 32-bit lanes of a byte string. -/
def lanes (bs : List Byte) : List Word := (chunks 4 bs).map fun b => BitVec.ofNat 32 (ofLe b)

/-- The bytes of lanes. -/
def laneBytes (ws : List Word) : List Byte := ws.flatMap fun w => leBytes 4 w.toNat

/-- The FP32 lanes of a range. -/
def State.rdLanes (s : State) (c : Nat) (r : Rng) : List Word := lanes (s.rdRange c r)

/-- The words of a range, by number. -/
def Rng.wordList (r : Rng) : List Nat := if r.space = 1 then [] else (List.range r.words).map fun i => r.start / 8 + i

/-- The core whose memory holds a word of the flat memory: a scratchpad's, a core memory's or an operand buffer's core; merge
core 0 keeps the pool's. -/
def wordCore (w : Nat) : Nat :=
  let a := 8 * w
  if a < 2 * 2 ^ 64 then (a - 2 ^ 64) / 0x100000
  else if a < 3 * 2 ^ 64 then 256 + (a - 2 * 2 ^ 64) / 0x200000
  else if a < poolBase then 256 + (a - 3 * 2 ^ 64) / 0x10000
  else 256

/-- Whether a word is poisoned (R172). -/
def State.poisoned (s : State) (w : Nat) : Bool := (s.core (wordCore w)).poison.contains w

/-- A word is poisoned (R172). -/
def State.setPoison (s : State) (w : Nat) : State :=
  if s.poisoned w then s else s.updCore (wordCore w) fun t => { t with poison := t.poison ++ [w] }

/-- The poison of written words clears (R172). -/
def State.clearPoison (s : State) (ws : List Nat) : State :=
  match ws with
  | [] => s
  | w :: _ => if (s.core (wordCore w)).poison.isEmpty then s
              else s.updCore (wordCore w) fun t => { t with poison := t.poison.filter fun x => !(ws.contains x) }

/-- Bytes written to a range: poison of the words clears (R172), an operand buffer's source record of an overwritten range goes
(R178), accumulators take values and keep their weights (R71). -/
def State.wrRange (s : State) (c : Nat) (r : Rng) (bs : List Byte) : State :=
  if r.space = 1 then
    s.updStope c fun t => { t with acc := (lanes bs).zipIdx.foldl (fun a x => Table.set 0 a (r.start + x.2) x.1) t.acc }
  else
    ((s.wrMem r.start bs).clearPoison r.wordList).overwritten r.start (8 * r.words)

/-! ## Step faults (R152, R156, R195) -/

/-- The step in progress or finishing with an ID. -/
def Core.stepOf (t : Core) (id : Nat) : Option Running :=
  (t.run.toList ++ t.finishing).find? fun r => r.id == id

/-- A step ends on a core: its descriptors and their scoreboard entries go (R164, R192). -/
def Core.dropStep (t : Core) (id : Nat) : Core :=
  let mine := match t.run with
    | some r => r.id == id
    | none => false
  { t with run := if mine then none else t.run, fetched := if mine then none else t.fetched, rerun := if mine then none else t.rerun,
           again := if mine then false else t.again,
           part := if mine then Part.none else t.part,
           finishing := t.finishing.filter fun r => r.id != id, issued := t.issued.filter fun i => i.step != id,
           reductions := t.reductions.filter fun r => !(r.started && r.step == id) }

/-- The packets of a step that still wait at their source are never sent (R192). -/
def State.dropHeld (s : State) (c id : Nat) : State :=
  { s with noc := { s.noc with held := s.noc.held.filter fun w => match w.owner with
      | some (x, y, _) => !(x == c && y == id)
      | none => true } }

/-- A step's work on a core ends, with its packets not sent yet (R192). -/
def State.dropStepOn (s : State) (c id : Nat) : State := (s.updCore c fun t => t.dropStep id).dropHeld c id

/-- A step faults: LAST_FAULT records cause and position, the step ends, its stream may be retried, a notice goes to the headframe (R17, R175,
R195). -/
def State.stepFault (s : State) (c id index cause : Nat) : State :=
  let stream := ((s.core c).stepOf id).bind fun r => r.step.stream
  let s := s.wr (coreLastFault c) (BitVec.ofNat 32 (cause % 0x10000 + min index 4095 * 0x10000))
  let s := (s.dropStepOn c id).updCore c fun t => { t with faulted := (t.faulted ++ stream.toList).dedup }
  s.notify { cause := cause, unit := unitCore c, detail := min index 4095, source := coreEp c, stream := stream,
             region := (s.coreRegion c).getD 0, time := 0, seq := 0 }

/-- The refusal of a request on a core, with the descriptor's position (R15, R195). -/
def State.coreRefuse (s : State) (c index code : Nat) : State :=
  s.wr (coreLastRefuse c) (BitVec.ofNat 32 (code + min index 4095 * 0x10000))

/-! ## Storage errors on a read (R172, R174, R176, R178, R181) -/

/-- Spare words of the memory that holds a word: 64 of a scratchpad or core memory, 512 of the pool (R176, R180). -/
def isPoolWord (w : Nat) : Bool := decide (poolBase / 8 ≤ w ∧ w < poolBase / 8 + 8388608)

/-- A word is marked bad: a free spare of the memory that holds it takes its address and stands poisoned, and the tally records the word as
permanent; with no spare left that memory's spares are out (R172, R176). -/
def State.markBad (s : State) (w : Nat) : Bool × State :=
  let c := wordCore w
  let pool := isPoolWord w
  let used := (if pool then fld (s.rd (mergePoolSpareUsed 0)) 9 0 else fld (s.rd (coreSpareUsed c)) 6 0)
  if used < (if pool then 512 else 64) then
    let s := if pool then s.wr (mergePoolSpareUsed 0) (BitVec.ofNat 32 (used + 1)) else s.wr (coreSpareUsed c) (BitVec.ofNat 32 (used + 1))
    let s := (s.updCore c fun t => { t with bad := t.bad ++ [w] }).setPoison w
    let u := unitWord c (w % 0x80000)
    let s := s.countEvent u causeSpWordBad 0 false
    (true, match s.tallyEntry u with
      | some e => s.putTally { e with state := 2, permTime := s.sec }
      | none => s)
  else (false, s)

/-- What a read's checks lead to: it goes on, the step faults with a cause, or the descriptor must run again. -/
inductive Checked where
  | fine | fault (cause word : Nat) | rerun (word : Nat)
  deriving DecidableEq, Repr

/-- Whether a pool word lies in a read-only granule (R181). -/
def State.roWord (s : State) (w : Nat) : Bool :=
  isPoolWord w &&
    (let g := (w - poolBase / 8) / 131072
     if g < 32 then bit (s.rd (mergePoolRoLo 0)) g else bit (s.rd (mergePoolRoHi 0)) (g - 32))

/-- The page that a read-only granule's word was filled from: stack and pseudo-page (R181). A word of such a granule without a recorded page has
no independent check, and its failure follows R172 (R177; DEDUCED, log entry 143). -/
def State.roPage (s : State) (w : Nat) : Option (Nat × Nat) :=
  if s.roWord w then ((s.core 256).roSource.find? fun p => p.1 == (8 * w - poolBase) / 0x8000).map (·.2) else none

/-- The word of a read-only granule that failed its check is read again from the page its 32 KiB was filled from, at the same place there:
where both agree its check bits are rewritten, which is logged; else the page's value goes in, as a corrected error (R181). -/
def State.roRepair (s : State) (c w : Nat) (page : Nat × Nat) : State :=
  let fresh := s.rdMem (kvBase page.1 page.2 + (8 * w - poolBase) % 0x8000) 8
  let t := s.clearPoison [w]
  if fresh = s.rdMem (8 * w) 8 then
    (t.inc (mergeCheckRepairedCount (c - 256)) 1).notify (mkNotice causeCheckRepaired (unitCore c) 0 (coreEp c) ((s.coreRegion c).getD 0))
  else (t.wrMem (8 * w) fresh).inc (coreCe c) 1

/-- Whether a word lies in an operand buffer, which is under parity at all times (R178). -/
def isObWord (w : Nat) : Bool := decide (obBase 0 0 / 8 ≤ w ∧ w < poolBase / 8)

/-- Whether a word's region, of a scratchpad, a core memory or the pool, stands in correct mode (R169, R179, R180). -/
def State.correctMode (s : State) (w : Nat) : Bool :=
  if isPoolWord w then
    let g := (w - poolBase / 8) / 131072
    if g < 32 then bit (s.rd (mergePoolProtLo 0)) g else bit (s.rd (mergePoolProtHi 0)) (g - 32)
  else
    let o := wordCore w
    bit (s.rd (coreProt o)) (if o < 256 then (8 * w - spBase o) / 0x10000 else (8 * w - coreMemBase (o - 256)) / 0x20000)

/-- What a check sees of an error, by the mode the word stands in (R169, R172; DESIGN CHOICE, log entry 133): in detect mode and in an operand
buffer any flipped bit is a parity mismatch, and in correct mode the flipped bit of a parity mismatch is a single data bit. -/
def State.seenKind (s : State) (e : ReadErr) : Nat :=
  if 4 ≤ e.kind then 4
  else if isObWord e.word || !(s.correctMode e.word) then 3
  else if e.kind = 3 then 0 else e.kind

/-- One error of a kind on one word read (R172, R181). `again` says that the descriptor is already a re-run. -/
def State.readError (s : State) (c w kind : Nat) (again : Bool) : Checked × State :=
  match kind with
  | 0 => (.fine, s.inc (coreCe c) 1)
  | 1 => (.fine, s.inc (coreCheckbit c) 1)
  | 2 =>
    match s.roPage w with
    | some p => (.fine, s.roRepair c w p)
    | none => (.fault causeSpUe w, (s.inc (coreUe c) 1).setPoison w)
  | 3 =>
    if isObWord w then
      let b := (w * 8 - obBase (c - 256) 0) / 0x4000
      let s := s.inc (coreParity c) 1
      if again || ((s.core c).ob.getD b none).isNone then (.fault causeObParity w, s) else (.rerun w, s)
    else match s.roPage w with
      | some p => (.fine, s.roRepair c w p)
      | none =>
        let s := s.inc (coreParity c) 1
        if again then
          let (ok, s) := s.markBad w
          (.fault (if ok then causeSpWordBad else causeSpSparesOut) w, s)
        else (.rerun w, s)
  | _ => (.fault causeAccUe w, s.inc (coreUe c) 1)

/-- The errors of a read in order, as words and kinds, until one stops the descriptor. -/
def State.readErrors (s : State) (c : Nat) (again : Bool) : List (Nat × Nat) → Checked × State
  | [] => (.fine, s)
  | e :: es =>
    match s.readError c e.1 e.2 again with
    | (.fine, s) => s.readErrors c again es
    | r => r

/-- What a read of words in order meets: on a poisoned word two or more bits, on any other what its check saw, and last what was seen in the
result queue and the accumulator file (R172). Errors on words that are not read concern nothing. -/
def State.readFaults (s : State) (ws : List Nat) (e : List ReadErr) : List (Nat × Nat) :=
  (ws.flatMap fun w => if s.poisoned w then [(w, 2)] else (e.filter fun x => x.word == w && x.kind != 4).map fun x => (w, s.seenKind x)) ++
    (e.filter fun x => x.kind == 4).map fun x => (x.word, 4)

/-- What the checks of a descriptor's reads lead to (R172). -/
def State.checkReads (s : State) (c : Nat) (ws : List Nat) (e : List ReadErr) : Checked × State :=
  s.readErrors c (s.core c).again (s.readFaults ws e)

/-! ## Issue (R153, R156, R162 to R165) -/

/-- What a descriptor is to do: the local ranges it reads and writes, a destination that it also reads (R162), its effect, and what it
then awaits. `words` are the words it reads, in order, where its ranges hold others; `early` says that its last read has been made once it
has issued (R164); `refuse` is the code with which what it reads is refused, or 0 (R11, R56); `send` are the number of its packets to NET or
FAB and the sending of those from one number up to another (R174). -/
structure Act where
  reads : List Rng
  writes : List Rng
  also : List Rng := []
  run : State → State
  await : Await := .nothing
  words : Option (List Nat) := none
  early : Bool := false
  refuse : State → Nat := fun _ => 0
  send : Option (Nat × (Nat → Nat → State → State)) := none

/-- A descriptor as judged: refused or faulted with a code, at once for its form, or once it issues for what it meets; or to
be done. -/
inductive Judged where
  | bad (code : Nat)
  | late (code : Nat)
  | act (a : Act)

/-- Bytes two ranges share. -/
def sbOverlap (a : SbEntry) (r : Rng) : Bool :=
  let unit := if r.space = 1 then 2 else 8
  a.space == r.space && decide (a.start < r.start + unit * r.words ∧ r.start < a.start + a.len)

def Rng.entry (r : Rng) (write : Bool) : SbEntry :=
  { space := r.space, start := r.start, len := (if r.space = 1 then 2 else 8) * r.words, write := write }

/-- Scoreboard entries in use (R162). -/
def Core.sbUsed (t : Core) : Nat := (t.issued.map fun i => i.sb.length).sum

/-- The step whose descriptors issue now. -/
def Core.runId (t : Core) : Nat := match t.run with
  | some r => r.id
  | none => 0

/-- Whether an issued descriptor of the running step keeps later ones from issuing: BARRIER, CWAIT and WWAIT do until they
complete (R153, R165). -/
def Issued.blocks (i : Issued) : Bool := i.desc.op == 0x20 || i.desc.op == 0x21 || i.desc.op == 0x25

/-- Where protection region `g` of a core's memory starts, and its bytes; merge core 0 keeps the pool's granules, as regions 16 and up
(R169, R179, R180). -/
def regionPlace (c g : Nat) : Nat × Nat :=
  if 16 ≤ g then (poolBase + (g - 16) * 0x100000, 0x100000)
  else if c < 256 then (spBase c + g * 0x10000, 0x10000) else (coreMemBase (c - 256) + g * 0x20000, 0x20000)

/-- Whether a region that is being re-encoded, of the memory that holds it, meets a descriptor's range (R170). -/
def State.reprotHolds (s : State) (rs : List Rng) : Bool :=
  rs.any fun r => r.space != 1 &&
    (let o := wordCore (r.start / 8)
     (s.core o).reprot.any fun g =>
       decide ((regionPlace o g).1 < r.start + 8 * r.words ∧ r.start < (regionPlace o g).1 + (regionPlace o g).2))

/-- Whether a descriptor holds at issue (R48, R163, R170). -/
def State.issueHolds (s : State) (c : Nat) (d : Desc) (a : Act) : Bool :=
  let t := s.core c
  let sb := t.issued.flatMap (·.sb)
  (a.reads.any fun r => sb.any fun e => e.write && sbOverlap e r) || (a.writes.any fun r => sb.any fun e => sbOverlap e r) ||
    decide (32 < t.sbUsed + a.reads.length + a.writes.length) ||
    (d.sync && t.issued.any fun i => i.step == t.runId) || (t.issued.any fun i => i.step == t.runId && i.blocks) ||
    s.coreFenced c 0 || s.quiescing (coreBase c) || s.reprotHolds (a.reads ++ a.writes)

/-- The fetched descriptor has issued: the next fetch follows, and after the LAST one the step only finishes (R153). -/
def Core.issueNext (t : Core) (last : Bool) : Core :=
  let t := { t with fetched := none, again := false }
  match t.run with
  | some r => if last then { t with run := none, finishing := t.finishing ++ [r] } else t
  | none => t

/-- A descriptor that completes at once and touches nothing (R14, R156). -/
def Act.empty : Act := { reads := [], writes := [], run := id }

/-- A descriptor is refused or faults: a refusal is recorded, and the step ends (R17, R156, R195). -/
def State.issueFault (s : State) (c id index code : Nat) : State :=
  (if code < 0x100 then s.coreRefuse c index code else s).stepFault c id index code

/-- Words of a packet of 240 bytes (R28). -/
def packetWords : Nat := 30

/-- The words a descriptor reads, in order, from its first packet not yet sent on (R174). -/
def Act.order (a : Act) (sent : Nat) : List Nat := (a.words.getD ((a.reads ++ a.also).flatMap Rng.wordList)).drop (packetWords * sent)

/-- Whole packets read before a word, on from those sent (R174). -/
def Act.before (a : Act) (sent w : Nat) : Nat := sent + ((a.order sent).findIdx? (· == w)).getD 0 / packetWords

/-- The packets of a descriptor up to a number go, from the first not yet sent on (R174). -/
def Act.sendUpTo (a : Act) (sent upTo : Nat) (s : State) : State := match a.send with
  | some (_, go) => go sent upTo s
  | none => s

/-- What a descriptor does once its reads are clean. -/
def Act.effect (a : Act) (sent : Nat) (s : State) : State := match a.send with
  | some (n, go) => go sent n s
  | none => a.run s

/-- What a descriptor awaits: of its packets those that have not come back yet. -/
def Await.less (w : Await) (back : Nat) : Await := match w with
  | .packets n => .packets (n - back)
  | .fab p n => .fab p (n - back)
  | w => w

/-- The scoreboard entries of a descriptor that has issued (R162, R164). -/
def Act.entries (a : Act) : List SbEntry := (if a.early then [] else a.reads.map (·.entry false)) ++ a.writes.map (·.entry true)

/-- The descriptor of an opcode at the head of a core: judged, held, checked as it reads, then done (R153, R156, R163, R172).
A held descriptor stays where it is. -/
def State.issue (s : State) (c op : Nat) (e : List ReadErr) (judge : State → Desc → Judged) : State :=
  match (s.core c).fetched, (s.core c).run with
  | some d, some r =>
    if d.op ≠ op then s
    else
      match judge s d with
      | .bad code => s.issueFault c r.id d.index code
      | .late code => if s.issueHolds c d Act.empty then s else s.issueFault c r.id d.index code
      | .act a =>
        if s.issueHolds c d a then s
        else
          let p := (s.core c).part
          match s.checkReads c (a.order p.sent) e with
          | (.fault cause w, s) =>
            let s := if cause = causeAccUe then s.updStope c fun t => t.discardPlans [0, 1, 2, 3] causeRefLost else s
            (a.sendUpTo p.sent (a.before p.sent w) s).stepFault c r.id d.index cause
          | (.rerun w, s) =>
            (a.sendUpTo p.sent (a.before p.sent w) s).updCore c fun t =>
              { t with rerun := some (d, w), fetched := none, part := { p with sent := a.before p.sent w } }
          | (.fine, s) =>
            if a.refuse s = 0 then
              let s := s.updCore c fun t =>
                { t with part := Part.none,
                         issued := t.issued ++ [{ step := r.id, desc := d, sb := a.entries, await := a.await.less p.back, cause := p.cause, again := t.again }] }
              (a.effect p.sent s).updCore c fun t => t.issueNext d.last
            else s.issueFault c r.id d.index (a.refuse s)
  | _, _ => s

/-- The common judgement of a descriptor: fields that must be zero (R11), then the ranges (R156), then LEN 0 (R14). -/
def judgeWith (rsv : Bool) (d : Desc) (act : Option Act) : Judged :=
  if rsv then .bad rAbiMismatch
  else match act with
    | none => .bad causeDescInvalid
    | some a => if d.len = 0 then .act Act.empty else .act a

end Sys2Proof.Machine
end

