-- ==== Sys2Proof/Machine/PortTx.lean ====
section
/-! DEFINITION. The sending side of a Pelig port (R378 to R384, R390, R392) and of an adit's active route (R397, R402). -/

namespace Sys2Proof.Machine

/-- ROLE of a port: 0 FABRIC, 1 STORAGE, 2 INGRESS (R378). -/
def portRole (p : Nat) : Nat := if p < 20 then 0 else if p < 22 then 1 else 2

/-- The opcodes a port carries (R378, R379). -/
def portCarries (p op : Nat) : Bool :=
  match portRole p with
  | 0 => op != 6 && op != 7
  | 1 => op == 6
  | _ => op == 7

/-- Whether a port is up, on four lanes or three (R415). -/
def Port.isUp (p : Port) : Bool := p.state == .up || p.state == .degraded

/-- SEQ of the last DATA flit received in order; 0xFFF when none (R387). -/
def Port.lastSeq (p : Port) : Nat := (p.rxSeq + 4095) % 4096

/-- Whether a port may send a DATA flit now (R384, R390, R414). -/
def State.portReady (s : State) (p : Nat) (f : Flit) : Bool :=
  let t := s.port p
  t.isUp && decide (0 < t.credits.getD f.lvc 0) && decide (t.replay.length < 2047) && !(s.fenced (peligPage p) 3)

/-- A DATA flit leaves: it takes the next SEQ, one credit of its LVC and a place in the replay buffer (R384, R390). -/
def State.portEmit (s : State) (p : Nat) (f : Flit) : State :=
  let t := s.port p
  let f := { f with seq := t.txSeq, ack := t.lastSeq }
  let s := s.setPort p { t with txSeq := (t.txSeq + 1) % 4096, credits := setAt t.credits f.lvc (· - 1), replay := t.replay ++ [f],
                                lastAck := if t.replay.isEmpty then s.now else t.lastAck, tx := t.tx ++ [f] }
  s.inc64 (peligFlitsTxLo p) 1

/-- A DATA flit for a port: sent, or held behind what waits on its LVC (R384, R390). A port that is down takes none: the adit keeps
what must be sent again (R404). -/
def State.portSend (s : State) (p : Nat) (f : Flit) : State :=
  if !(s.port p).isUp || !(portCarries p f.opcode) then s
  else if s.portReady p f && !((s.port p).held.any fun g => g.lvc == f.lvc) then s.portEmit p f
  else s.updPort p fun t => { t with held := t.held ++ [f] }

/-- The held flit that goes next: the lowest LVC that has credit; at each 64th flit the highest (R31, R384). -/
def State.nextHeld (s : State) (p : Nat) : Option Flit :=
  let ready := (s.port p).held.filter (s.portReady p)
  let late := s.rd64 (peligFlitsTxLo p) % 64 == 63
  ready.foldl (fun best f => match best with
    | none => some f
    | some b => if (if late then decide (b.lvc < f.lvc) else decide (f.lvc < b.lvc)) then some f else best) none

/-- Held flits go while they may; `n` bounds how many. -/
def State.portFlush (s : State) (p : Nat) : Nat → State
  | 0 => s
  | n + 1 =>
    match s.nextHeld p with
    | some f => ((s.updPort p fun t => { t with held := t.held.erase f }).portEmit p f).portFlush p n
    | none => s

/-- Every held flit that may go. -/
def State.portFlushAll (s : State) (p : Nat) : State := s.portFlush p (s.port p).held.length

/-- A LINK flit leaves a port, with its payload up to the last byte in use (R386). LINK flits need no credit and pass every fence (R414). -/
def State.linkSend (s : State) (p : Nat) (payload : List Byte) : State :=
  s.updPort p fun t => { t with linkTx := t.linkTx ++ [payload] }

/-- The flits of buffer credit that a receiver grants each LVC: the least that R384 allows (DESIGN CHOICE, log entry 165). -/
def lvcCredit : Nat := 64

/-- The CAP payload: version 1, ROLE, device ID, port, the lanes usable here and the initial credits (R386, R388). -/
def State.capBytes (s : State) (p lanes : Nat) : List Byte :=
  [1, 1, 1, BitVec.ofNat 8 (portRole p)] ++ leBytes 4 s.edge.devId ++ [BitVec.ofNat 8 p, BitVec.ofNat 8 lanes] ++
    (List.range 8).flatMap fun _ => leBytes 2 lvcCredit

/-- The CREDIT payload: the returns of LVC 0 to 7 in bytes 16 to 31 (R386). -/
def creditBytes (owed : List Nat) : List Byte := [2] ++ List.replicate 15 0 ++ (List.range 8).flatMap fun i => leBytes 2 (owed.getD i 0)

/-- The NAK payload: the expected SEQ (R386). -/
def nakBytes (seq : Nat) : List Byte := [3, 0] ++ leBytes 2 seq

/-- The LANE_MAP payload: the active lanes and the SEQ from which they apply (R386). -/
def laneMapBytes (lanes seq : Nat) : List Byte := [4, BitVec.ofNat 8 lanes] ++ leBytes 2 seq

/-! ## Routes (R397) -/

/-- The active route. -/
def Adit.active (a : Adit) : Word := if a.onB then a.routeB else a.routeA

/-- A flit goes out on a route, addressed to the path endpoint at the next module. -/
def State.routeSend (s : State) (route : Word) (f : Flit) : State := s.portSend (rtPort route) { f with path := rtPath route }

/-- A flit without E2E number goes out on an endpoint's active route. -/
def State.aditSend (s : State) (ep : Nat) (f : Flit) : State := s.routeSend (s.adit ep).active f

/-- A flit of an opcode, before a port gives it its sequence. -/
def mkFlit (opcode lvc destEp srcEp addr : Nat) (payload : List Byte) : Flit :=
  { typ := 0, rg := false, lvc := lvc, seq := 0, ack := 0, path := 0, destEp := destEp, srcEp := srcEp, opcode := opcode,
    units := cdiv payload.length 16, addr := addr, e2e := 0, payload := payload, crcOk := true, fecOk := true }

/-- The header of a flit without its CRC, as a number of 104 bits (R382). -/
def flitHead (f : Flit) : Nat :=
  f.typ + flag f.rg 2 + f.lvc * 2 ^ 3 + f.seq * 2 ^ 6 + f.ack * 2 ^ 18 + f.path * 2 ^ 30 + f.destEp * 2 ^ 42 + f.srcEp * 2 ^ 54 +
    f.opcode * 2 ^ 66 + f.units * 2 ^ 71 + f.addr * 2 ^ 75 + f.e2e * 2 ^ 92

/-- The 256 bytes of a flit on the wire: header, CRC, and the payload with zeros beyond it (R382). -/
def flitBytes (f : Flit) : List Byte :=
  let h := leBytes 13 (flitHead f)
  let p := padTo 240 f.payload
  h ++ leBytes 3 (crc24 (h ++ p)) ++ p

/-- The flit that 256 bytes spell, with whether its CRC checks (R382); the FEC's verdict is the lane's. -/
def flitOf (bs : List Byte) (fecOk : Bool) : Flit :=
  let h := leAt bs 0 13
  let units := bitsOf h 74 71
  { typ := bitsOf h 1 0, rg := bitAt h 2, lvc := bitsOf h 5 3, seq := bitsOf h 17 6, ack := bitsOf h 29 18, path := bitsOf h 41 30,
    destEp := bitsOf h 53 42, srcEp := bitsOf h 65 54, opcode := bitsOf h 70 66, units := units, addr := bitsOf h 91 75, e2e := bitsOf h 103 92,
    payload := (bs.drop 16).take (16 * units), crcOk := leAt bs 13 3 == crc24 (bs.take 13 ++ bs.drop 16), fecOk := fecOk }

/-- The LVC that matches a data-network channel (R383). -/
def lvcOf (vc : Nat) : Nat :=
  match vc with
  | 0 => 1
  | 1 => 2
  | 2 => 4
  | _ => 7

/-- The packets of a transfer: 240 bytes each at most, from a 16-byte unit on (R402), in the LVC that matches the channel (R383). -/
def fabFlits (opcode vc src destEp unit : Nat) (bs : List Byte) : List Flit :=
  (chunks 240 bs).zipIdx.map fun p => mkFlit opcode (lvcOf vc) destEp src (unit + 15 * p.2) p.1

/-- Sequenced packets that wait at an endpoint go while it is up and fewer than 2,047 are unacknowledged (R402). -/
def State.aditPump (s : State) (ep : Nat) : Nat → State
  | 0 => s
  | n + 1 =>
    let a := s.adit ep
    match a.held with
    | f :: rest =>
      if a.state = .up ∧ a.unacked.length < 2047 then
        let f := { f with e2e := a.txE2e }
        ((s.setAdit ep { a with held := rest, txE2e := (a.txE2e + 1) % 4096, unacked := a.unacked ++ [f] }).aditSend ep f).aditPump ep n
      else s
    | [] => s

/-- Packets for an endpoint take their turn (R402). -/
def State.fabSend (s : State) (ep : Nat) (fs : List Flit) : State :=
  let s := s.updAdit ep fun a => { a with held := a.held ++ fs }
  s.aditPump ep (s.adit ep).held.length

end Sys2Proof.Machine
end

