-- ==== Sys2Proof/Machine/CollTx.lean ====
section
/-! DEFINITION. The sending side of the collective engine (R408 to R412): what goes to each member, its chunks, and the resends. -/

namespace Sys2Proof.Machine

def State.coll (s : State) (id : Nat) : Option Coll := s.fab.colls.find? fun c => c.id == id

/-- A running collective changed. -/
def State.updColl (s : State) (id : Nat) (f : Coll → Coll) : State :=
  { s with fab := { s.fab with colls := s.fab.colls.map fun c => if c.id == id then f c else c } }

/-- The operations of R409. -/
def opAllReduce : Nat := 1
def opAllGather : Nat := 2
def opReduceScatter : Nat := 3
def opAllToAll : Nat := 4
def opMulticast : Nat := 5

/-- The flat address that a member's WBASE or an endpoint's address word names, at a byte offset (R155, R408). -/
def State.wordFlat (s : State) (ep : Nat) (w : Word) : Nat :=
  match epCore ep with
  | none => storeBase
  | some c =>
    if c < 256 then s.spFor c + 8 * fld w 16 0
    else if bitsOf w.toNat 28 27 = 2 then poolBase + 8 * fld w 22 0
    else coreMemBase (c - 256) + 8 * fld w 17 0

/-- The 16-byte unit of an address word, as a flit or packet names it; the pool starts at unit 0x2_0000 (log entry 23). -/
def wordUnit (w : Word) : Nat :=
  if spaceOf w = 6 ∧ bitsOf w.toNat 28 27 = 2 then 0x20000 + fld w 22 0 / 2 else if spaceOf w = 6 then fld w 17 0 / 2 else fld w 16 0 / 2

/-- The flat address of a unit at a core. -/
def State.unitFlat (s : State) (c unit : Nat) : Nat :=
  if c < 256 then s.spFor c + 16 * unit
  else if 0x20000 ≤ unit then poolBase + 16 * (unit - 0x20000)
  else coreMemBase (c - 256) + 16 * unit

/-- A group's members, and this module's rank. -/
def Coll.members (s : State) (c : Coll) : List Member := (s.group c.group).members
def Coll.rank (s : State) (c : Coll) : Nat := (s.group c.group).rank

/-- Bytes of a block: COUNT/N for the operations that split a contribution, else COUNT (R410). -/
def Coll.block (c : Coll) (n : Nat) : Nat := if c.op = opAllGather ∨ c.op = opMulticast then c.count else c.count / max 1 n

/-- Bytes that go to a member in a phase; a MULTICAST member other than ROOT sends nothing (R410). -/
def Coll.sendLen (s : State) (c : Coll) : Nat :=
  if c.op = opMulticast ∧ c.rank s ≠ c.root then 0 else c.block (c.members s).length

/-- Bytes of a chunk (R411). -/
def Coll.chunkBytes (c : Coll) : Nat := 224 * c.chunk

/-- Chunks that go to a member. -/
def Coll.chunkCount (s : State) (c : Coll) : Nat := cdiv (c.sendLen s) c.chunkBytes

/-- Where a member's data stands at the member, from its WBASE, for a sender's rank and phase (R410). -/
def Coll.offset (c : Coll) (n rank phase : Nat) : Nat :=
  if c.op = opMulticast then 0
  else if phase = 1 then c.count + rank * c.block n
  else rank * c.block n

/-- The bytes for member `j` in a phase: its block of the contribution or all of it, or in the gather the folded block at WBASE. -/
def Coll.data (s : State) (c : Coll) (j phase : Nat) : List Byte :=
  let n := (c.members s).length
  let b := c.block n
  let own := (c.members s)[c.rank s]?
  let src := match epCore (fld c.src 28 17) with
    | some k => s.unitFlat k (fld c.src 16 0)
    | none => storeBase
  if phase = 1 then
    match own with
    | some m => s.rdMem (s.wordFlat m.endpoint m.wbase) b
    | none => []
  else if c.op = opAllGather ∨ c.op = opMulticast then s.rdMem src b
  else s.rdMem (src + j * b) b

/-- A CHUNK packet's head (R411). -/
def chunkHead (group packet epoch rank phase offset index flags : Nat) : List Byte :=
  [BitVec.ofNat 8 group, BitVec.ofNat 8 packet] ++ leBytes 2 epoch ++ leBytes 2 (rank + 0x1000 * phase) ++ leBytes 2 offset ++
    leBytes 4 index ++ leBytes 4 flags

/-- The packets of one chunk for a member, paired with their numbers (R411). -/
def Coll.chunkFlits (s : State) (c : Coll) (m : Member) (j k : Nat) : List (Nat × Flit) :=
  let n := (c.members s).length
  let r := c.rank s
  let bs := ((c.data s j c.phase).drop (k * c.chunkBytes)).take c.chunkBytes
  let at_ := wordUnit m.wbase + (c.offset n r c.phase + k * c.chunkBytes) / 16
  (chunks 224 bs).zipIdx.map fun p =>
    (p.2, mkFlit 4 3 m.endpoint epColl (at_ + 14 * p.2) (chunkHead c.group p.2 c.epoch r c.phase (14 * p.2) k 0 ++ p.1))

/-- One chunk goes to a member on its path. -/
def State.sendChunk (s : State) (c : Coll) (m : Member) (j k : Nat) : State :=
  s.each (c.chunkFlits s m j k) fun s f => s.aditSend m.path f.2

/-- Chunks of the present phase that a member has been sent and has not settled. -/
def Coll.open_ (c : Coll) (j : Nat) : List Nat :=
  (List.range (c.next.getD j 0)).filter fun k => !(c.acks.contains (j, c.phase, k))

/-- A member is sent what the window of 8 unacknowledged chunks allows (R412). -/
def State.fillMember (s : State) (id j : Nat) : Nat → State
  | 0 => s
  | n + 1 =>
    match s.coll id with
    | none => s
    | some c =>
      match (c.members s)[j]? with
      | none => s
      | some m =>
        if c.ended ∨ j = c.rank s ∨ c.failed.contains j ∨ c.chunkCount s ≤ c.next.getD j 0 ∨ 8 ≤ (c.open_ j).length then s
        else
          let k := c.next.getD j 0
          let s := s.sendChunk c m j k
          (s.updColl id fun c => { c with next := setAt c.next j fun _ => k + 1, progress := setAt c.progress j fun _ => s.now }).fillMember id j n

/-- Every member is sent what its window allows. -/
def State.fillColl (s : State) (id : Nat) : State :=
  match s.coll id with
  | none => s
  | some c => s.each (List.range (c.members s).length) fun s j => s.fillMember id j 8

/-- A member is sent its unacknowledged chunks again, from the first (R412). -/
def State.resendMember (s : State) (id j : Nat) : State :=
  match s.coll id with
  | none => s
  | some c =>
    match (c.members s)[j]?, c.open_ j with
    | some m, k :: ks =>
      let s := s.each (k :: ks) fun s k => s.sendChunk c m j k
      let s := s.inc collChunkResendCount (k :: ks).length
      s.updColl id fun c => { c with resends := setAt c.resends j (· + 1), progress := setAt c.progress j fun _ => s.now }
    | _, _ => s

/-- The collectives with a member on a path, as (collective, rank). -/
def State.collsOn (s : State) (path : Nat) : List (Nat × Nat) :=
  (s.fab.colls.filter fun c => !c.ended).flatMap fun c =>
    ((c.members s).zipIdx.filter fun p => p.1.path == path && p.2 != c.rank s).map fun p => (c.id, p.2)

/-- A path has switched routes: the collectives resend over it (R412). -/
def State.collSwitched (s : State) (path : Nat) : State := s.each (s.collsOn path) fun s p => s.resendMember p.1 p.2

/-- A path is DOWN: the collectives that use it fault with LINK_DOWN and name the member; a MULTICAST member other than ROOT uses its
path to ROOT alone (R405, R410, R412). -/
def State.collDown (s : State) (path : Nat) : State :=
  s.each (s.collsOn path) fun s p =>
    match s.coll p.1 with
    | none => s
    | some c =>
      if c.op = opMulticast ∧ c.rank s ≠ c.root ∧ p.2 ≠ c.root then s
      else s.updColl p.1 fun c => { c with failed := if c.failed.contains p.2 then c.failed else c.failed ++ [p.2],
                                           status := causeLinkDown, ended := true }

end Sys2Proof.Machine
end

