-- ==== Sys2Proof/Machine/Adits.lean ====
section
/-! DEFINITION. Ports and path endpoints (R387 to R405, R414 to R416, R144): training, replay, lanes, link loss, the switching of
routes, and the flits that end at this module, but for window writes and collectives. -/

namespace Sys2Proof.Machine

/-! ## Route switches and link loss (R394, R404, R405) -/

/-- A port's, or an endpoint's, notice: no unit, its number in the detail. -/
def State.fabNotice (s : State) (cause detail ep region : Nat) : State := s.notify (mkNotice cause 0 detail ep region)

/-- Whether a descriptor still awaits answers of a path endpoint. -/
def Issued.awaitsPath (i : Issued) (path : Nat) : Bool := match i.await with
  | .fab p n => p == path && n != 0
  | _ => false

/-- One packet of a core's transfer has its answer: a code other than 0 will fault the step (R186, R403, R405). -/
def State.fabSettle (s : State) (path srcEp code : Nat) : State :=
  match epCore srcEp with
  | none => s
  | some c =>
    let settle (i : Issued) : Issued := match i.await with
      | .fab p n => { i with await := .fab p (n - 1), cause := if i.cause = 0 then code else i.cause }
      | _ => i
    s.updCore c fun t =>
      if !(t.issued.any fun i => i.awaitsPath path) && t.partOut fun d => fld d.w3 31 29 == 4 && fld d.w3 28 17 == path then
        { t with part := t.part.settle code }
      else { t with issued := mapFirst (fun i => i.awaitsPath path) settle t.issued }

/-- Whether every LOCAL endpoint to a peer is DOWN. -/
def State.peerLost (s : State) (peer : Nat) : Bool :=
  s.fab.adits.all fun p => !(p.2.isLocal && p.2.peerDev == peer) || p.2.state == .down

/-- A peer is lost: MODULE_LOSS is raised for it once, and an ingress module holds the tokens of its job (R369, R405). -/
def State.peerGone (s : State) (peer region : Nat) : State :=
  if s.fab.lostPeers.contains peer then s
  else
    ({ s with fab := { s.fab with lostPeers := s.fab.lostPeers ++ [peer] } }.fabNotice causeModuleLoss peer epHeadframe region).loseShard peer

/-- The ring reports a device gone: a peer of this module is lost (R405). -/
def State.ringGone (s : State) (dev : Nat) : State :=
  match s.fab.adits.find? fun p => p.2.isLocal && p.2.peerDev == dev with
  | some p => s.peerGone dev p.2.region
  | none => s

/-- An endpoint goes DOWN: each sequenced packet outstanding or waiting faults its sender with LINK_DOWN, the collectives on it fault,
and with the last endpoint to its peer the module raises MODULE_LOSS (R405). -/
def State.aditDown (s : State) (ep : Nat) : State :=
  let a := s.adit ep
  let s := s.setAdit ep { a with state := .down, aUp := false, bUp := false, aEcho := false, bEcho := false, unacked := [], held := [] }
  let s := s.each (a.unacked ++ a.held) fun s f => s.fabSettle ep f.srcEp causeLinkDown
  let s := s.collDown ep
  if s.peerLost a.peerDev then s.peerGone a.peerDev a.region else s

/-- An endpoint switches to its other route and sends every unacknowledged packet again under its E2E number (R404). -/
def State.aditSwitch (s : State) (ep : Nat) : State :=
  let a := s.adit ep
  let s := s.setAdit ep { a with onB := !a.onB }
  let s := (s.inc aditSwitchCount 1).fabNotice causePathSwitched ep epHeadframe a.region
  let s := s.each a.unacked fun s f => s.aditSend ep f
  (s.aditPump ep (s.adit ep).held.length).collSwitched ep

/-- A route of an endpoint has failed: the active one makes it switch, or go DOWN; the other is no longer UP (R404, R414). -/
def State.routeFail (s : State) (ep : Nat) (routeB : Bool) : State :=
  let a := s.adit ep
  let s := s.setAdit ep (if routeB then { a with bUp := false } else { a with aUp := false })
  if a.state ≠ .up ∨ a.onB ≠ routeB then s
  else if (if routeB then a.aUp else a.bUp) then s.aditSwitch ep
  else s.aditDown ep

/-- A PATH_FAIL flit goes upstream from a TRANSIT endpoint (R404). -/
def State.sendPathFail (s : State) (a : Adit) : State :=
  s.portSend a.inPort { mkFlit 8 0 0 0 0 [] with path := a.upPath }

/-- Every route that uses a port is acted on (R404). -/
def State.routesLost (s : State) (p : Nat) : State :=
  s.each (s.fab.adits.map (·.1)) fun s ep =>
    let a := s.adit ep
    if a.isLocal then
      let s := if rtHops a.routeB ≠ 0 ∧ rtPort a.routeB = p then s.routeFail ep true else s
      if rtHops a.routeA ≠ 0 ∧ rtPort a.routeA = p then s.routeFail ep false else s
    else if a.valid && a.transit && rtPort a.routeA == p then s.sendPathFail a
    else s

/-- A port goes down without its flits: the replay buffer and what waits are discarded (R394). -/
def Port.drop (t : Port) (st : PortState) (now : Nat) : Port :=
  { t with state := st, lanes := 0, replay := [], held := [], tries := [], nakSeq := none, since := now }

/-- LINK_DOWN (R394, R404): counted and reported; with RETRAIN_EN the port then trains again. -/
def State.linkDown (s : State) (p : Nat) : State :=
  let st : PortState := if bit (s.rd (peligCtrl p)) 1 && bit (s.rd (peligCtrl p)) 0 then .training else .down
  let s := s.updPort p fun t => t.drop st s.now
  let s := (s.inc (peligLinkDownCount p) 1).fabNotice causeLinkDown p (epPort p) ((s.epRegion (epPort p)).getD 0)
  s.routesLost p

/-! ## Training (R387 to R389) -/

/-- PORT_TRAIN (R387, R388): lanes that pass training and FEC lock are usable, and the port offers them in its CAP flit; the round
trip of step 5 is what the port will read once it is up. -/
def execPortTrain (port lanes rtt : Nat) (s : State) : Host.Outcome State Fault Refusal :=
  .next (
    let t := s.port port
    if bit (s.rd (peligCtrl port)) 0 && (t.state == .training || (t.state == .down && t.version == 0 && !t.lanesShort)) then
      let off := fld (s.rd (peligCtrl port)) 6 3
      let usable := ((List.range 4).filter fun l => bitAt lanes l && !(bitAt t.retired l) && !(bitAt off l)).map (2 ^ ·) |>.sum
      (s.setPort port { t with state := .training, usable := usable, rtt := rtt, margin := [100, 100, 100, 100] }).linkSend port (s.capBytes port usable)
    else s)

/-- The active lanes settled on, as the state they give: four are UP, three DEGRADED (DESIGN CHOICE, log entry 24). -/
def laneState (lanes : Nat) : PortState := if popcount 4 lanes = 4 then .up else .degraded

/-- CAP (R388, R389): with a common version and the right peer, the lanes usable at both ends are active and the port comes up;
fewer than three raise LINK_DOWN once. -/
def execCap (port : Nat) (m : Caps) (s : State) : Host.Outcome State Fault Refusal :=
  .next (
    let t := s.port port
    if t.state ≠ .training then s
    else if m.verMax < 1 ∨ 1 < m.verMin then (s.setPort port { t with state := .down, since := s.now }).refuse (peligLastRefuse port) rAbiMismatch
    else if !(if portRole port = 0 then m.role == 0 && m.port == port && m.device != s.edge.devId else m.role == 3) then
      s.setPort port { t with state := .miswired, since := s.now }
    else
      let active := t.usable &&& m.lanes % 16
      if popcount 4 active < 3 then
        let s := s.setPort port { t with state := .down, lanes := 0, lanesShort := true, since := s.now }
        if t.lanesShort then s
        else (s.inc (peligLinkDownCount port) 1).fabNotice causeLinkDown port (epPort port) ((s.epRegion (epPort port)).getD 0)
      else
        s.setPort port { t with state := laneState active, lanes := active, lanesShort := false, version := 1, peerDev := m.device, peerPort := m.port,
                                txSeq := 0, rxSeq := 0, acked := 4095, replay := [], tries := [], nakSeq := none, lastGood := s.now, lastAck := s.now,
                                credits := (List.range 8).map fun i => m.credits.getD i 0, owed := List.replicate 8 0 })

/-- RETRAIN_TIMER (R389): a port short of lanes trains again after 1 s. -/
def execRetrainTimer (port : Nat) (s : State) : Host.Outcome State Fault Refusal :=
  .next (
    let t := s.port port
    if t.lanesShort ∧ t.state = .down ∧ bit (s.rd (peligCtrl port)) 1 ∧ bit (s.rd (peligCtrl port)) 0 ∧ t.since + 1000000000 ≤ s.now then
      s.setPort port { t with state := .training }
    else s)

/-- A port trains now; one that is up loses its link first (DESIGN CHOICE, log entry 24). -/
def State.retrainPort (s : State) (p : Nat) : State :=
  let s := if (s.port p).isUp then s.linkDown p else s
  if bit (s.rd (peligCtrl p)) 0 then s.updPort p fun t => { t with state := .training } else s

/-- RETRAIN (R415). -/
def execRetrain (f port : Nat) (s : State) : Host.Outcome State Fault Refusal :=
  .next (if s.mayWrite f (peligCtrl port) then s.retrainPort port else s)

/-! ## Lanes (R144, R393) -/

/-- A lane is lost: the port names the surviving lanes from its oldest unacknowledged SEQ, replays, and runs on three; a second lane
makes it declare LINK_DOWN (R393, R394). -/
def State.loseLane (s : State) (p lane : Nat) : State :=
  let t := s.port p
  if !t.isUp || !(bitAt t.lanes lane) then s
  else
    let lanes := t.lanes - 2 ^ lane
    if popcount 4 lanes < 3 then s.linkDown p
    else
      let seq := (t.replay.head?.map (·.seq)).getD t.txSeq
      let s := s.setPort p { t with lanes := lanes, state := .degraded, tx := t.tx ++ t.replay }
      let s := (s.linkSend p (laneMapBytes lanes seq)).inc (peligDegradeCount p) 1
      s.notify (mkNotice causeLaneDegraded (unitLane p lane) lanes (epPort p) ((s.epRegion (epPort p)).getD 0))

/-- LANE_FAIL (R393). -/
def execLaneFail (port lane : Nat) (s : State) : Host.Outcome State Fault Refusal := .next (s.loseLane port (lane % 4))

/-- LANE_MAP (R386, R393): the peer stripes over the lanes it names. -/
def execLaneMap (port lanes _seq : Nat) (s : State) : Host.Outcome State Fault Refusal :=
  .next (
    let t := s.port port
    let now := t.lanes &&& lanes % 16
    if t.isUp ∧ 3 ≤ popcount 4 now then s.setPort port { t with lanes := now, state := laneState now, lastGood := s.now } else s)

/-- LANE_OFF written: lanes newly named fail; a value that would leave fewer than three lanes leaves the field (R415). -/
def State.laneOff (s : State) (p v : Nat) : State :=
  let t := s.port p
  if 3 ≤ popcount 4 (15 - (15 &&& (v ||| t.retired))) then
    let s := s.wr (peligCtrl p) (setFld (s.rd (peligCtrl p)) 6 3 v)
    s.each (maskBits 4 v) fun s l => s.loseLane p l
  else s

/-- LANE_OFF_WRITE (R415): LANE_OFF of the written PORT_CTRL value. -/
def execLaneOffWrite (f port : Nat) (v : Word) (s : State) : Host.Outcome State Fault Refusal :=
  .next (if s.mayWrite f (peligCtrl port) then s.laneOff port (fld v 6 3) else s)

/-- LANE_MARGIN_CHECK (R144): a lane's eye margin in percent of its training value is kept; below 40 % the lane is retired, and a re-plan
follows (R146). -/
def execLaneMarginCheck (port lane margin : Nat) (s : State) : Host.Outcome State Fault Refusal :=
  .next (
    let l := lane % 4
    let s := s.updPort port fun t => { t with margin := setAt t.margin l fun _ => margin % 256 }
    if margin < 40 ∧ ¬ bitAt (s.port port).retired l then ((s.updPort port fun t => { t with retired := t.retired + 2 ^ l }).loseLane port l).replanCause 7 else s)

/-- LANE_RETRAIN (R144, R362): in the port's idle interval of at least 1 ms, a lane below 60 % is trained anew, which counts against it. -/
def execLaneRetrain (port lane : Nat) (s : State) : Host.Outcome State Fault Refusal :=
  .next (
    let t := s.port port
    let l := lane % 4
    if t.margin.getD l 0 < 60 ∧ t.isUp ∧ ¬ bitAt t.retired l ∧ t.replay = [] ∧ t.held = [] ∧ t.lastAck + 1000000 ≤ s.now then
      (s.setPort port { t with margin := setAt t.margin l fun _ => 100 }).countEvent (unitLane port l) causeLaneDegraded port false
    else s)

/-! ## Sequence, credit and replay (R384, R390 to R392) -/

/-- What an ACK covers leaves the replay buffer (R390, R391). -/
def Port.takeAck (t : Port) (ack now : Nat) : Port :=
  if t.replay.any fun f => f.seq == ack then
    let rest := (t.replay.dropWhile fun f => f.seq != ack).drop 1
    { t with replay := rest, acked := ack, lastAck := now, tries := t.tries.filter fun p => rest.any fun f => f.seq == p.1 }
  else t

/-- Unacknowledged flits go again, in order, from a SEQ on; each replay counts, traces LINK_REPLAY, and more than 1,000 in a second
count against the lane with the smallest margin (R362, R392; log entry 24). -/
def State.replay (s : State) (p seq : Nat) : State :=
  let t := s.port p
  let fs := t.replay.dropWhile fun f => f.seq != seq
  if fs.isEmpty then s
  else
    let n := if t.replays.1 = s.sec then t.replays.2 + 1 else 1
    let s := s.setPort p { t with tx := t.tx ++ fs, lastAck := s.now, replays := (s.sec, n),
                                  tries := fs.foldl (fun m f => Table.set 0 m f.seq (Table.get 0 m f.seq + 1)) t.tries }
    let s := (s.inc (peligReplayCount p) 1).fabNotice causeLinkReplay seq (epPort p) ((s.epRegion (epPort p)).getD 0)
    if n = 1001 then
      let worst := (List.range 4).foldl (fun b l => if t.margin.getD l 0 < t.margin.getD b 0 then l else b) 0
      s.countEvent (unitLane p worst) causeLinkReplay seq false
    else s

/-- CREDIT (R384, R386): credit returns release held flits. -/
def execCredit (port : Nat) (returns : List Nat) (s : State) : Host.Outcome State Fault Refusal :=
  .next (if (s.port port).isUp then
      (s.updPort port fun t => { t with credits := t.credits.zipIdx.map fun p => p.1 + returns.getD p.2 0, lastGood := s.now }).portFlushAll port
    else s)

/-- CREDIT_IDLE_TIMER (R386): with no DATA flit to send, a CREDIT flit leaves at least every 0.5 µs, with the credits owed. -/
def execCreditIdleTimer (port : Nat) (s : State) : Host.Outcome State Fault Refusal :=
  .next (
    let t := s.port port
    if t.isUp ∧ t.held = [] ∧ t.lastCredit + 500 ≤ s.now then
      (s.setPort port { t with owed := List.replicate 8 0, lastCredit := s.now }).linkSend port (creditBytes t.owed)
    else s)

/-- NAK (R392): every unacknowledged flit is replayed from the SEQ it names. -/
def execNak (port seq : Nat) (s : State) : Host.Outcome State Fault Refusal :=
  .next (if (s.port port).isUp then (s.updPort port fun t => { t with lastGood := s.now }).replay port seq else s)

/-- REPLAY_TIMEOUT (R392): with no ACK for RTT_NS + 2 µs, the port replays from its oldest unacknowledged flit. -/
def execReplayTimeout (port : Nat) (s : State) : Host.Outcome State Fault Refusal :=
  .next (
    let t := s.port port
    match t.replay.head? with
    | some f => if t.isUp ∧ t.lastAck + t.rtt + 2000 ≤ s.now then s.replay port f.seq else s
    | none => s)

/-- LINK_SILENCE_TIMEOUT (R394): no good flit for 10 µs, a SEQ replayed 8 times, or fewer than three lanes. -/
def execLinkSilenceTimeout (port : Nat) (s : State) : Host.Outcome State Fault Refusal :=
  .next (
    let t := s.port port
    if t.isUp ∧ (t.lastGood + 10000 ≤ s.now ∨ (t.tries.any fun p => decide (8 ≤ p.2)) ∨ popcount 4 t.lanes < 3) then s.linkDown port else s)

/-- The first rejected flit is answered with a NAK of the expected SEQ, and none again for it within 2 × RTT_NS (R391). -/
def State.sendNak (s : State) (p : Nat) : State :=
  let t := s.port p
  if t.nakSeq = some t.rxSeq ∧ s.now < t.nakTime + 2 * t.rtt then s
  else (s.setPort p { t with nakSeq := some t.rxSeq, nakTime := s.now }).linkSend p (nakBytes t.rxSeq)

/-- OPCODEs that are not reserved (R385). -/
def opcodeKnown (op : Nat) : Bool := decide (1 ≤ op ∧ op ≤ 10)

/-- An accepted DATA flit goes on: forwarded by a TRANSIT endpoint, kept for its operation at a LOCAL one or on a storage or ingress
port, or discarded (R379, R385, R399). -/
def State.deliverFlit (s : State) (p : Nat) (f : Flit) : State :=
  let a := s.adit f.path
  let keep : State := { s with fab := { s.fab with inbox := s.fab.inbox ++ [(p, f)] } }
  if f.typ ≠ 0 ∨ f.rg ∨ !(opcodeKnown f.opcode) ∨ !(portCarries p f.opcode) then s.inc (peligDiscardCount p) 1
  else if portRole p ≠ 0 then keep
  else if !a.valid then s.inc (peligDiscardCount p) 1
  else if a.isLocal then keep
  else if f.opcode = 8 then keep
  else if a.inPort ≠ p then s.inc (peligDiscardCount p) 1
  else s.routeSend a.routeA f

/-- FLIT_RECEIVE (R391): a flit whose CRC checks gives its ACK; a DATA flit is accepted in order alone; what is rejected is NAKed. -/
def execFlitReceive (port : Nat) (fl : Flit) (s : State) : Host.Outcome State Fault Refusal :=
  .next (
    if !(s.port port).isUp then s
    else if !fl.crcOk then (s.inc (peligCrcErrCount port) 1).sendNak port
    else
      let s := (s.updPort port fun t => { t.takeAck fl.ack s.now with lastGood := s.now }).portFlushAll port
      let t := s.port port
      if fl.typ = 1 then s
      else if !fl.fecOk then (s.inc (peligFecUncorrCount port) 1).sendNak port
      else if fl.seq = t.rxSeq then
        let s := s.setPort port { t with rxSeq := (t.rxSeq + 1) % 4096, nakSeq := none, owed := setAt t.owed fl.lvc (· + 1) }
        (s.inc64 (peligFlitsRxLo port) 1).deliverFlit port fl
      else if (t.rxSeq + 4096 - fl.seq) % 4096 ≤ 2047 then s.inc (peligReplayCount port) 1
      else s.sendNak port)

/-! ## Path endpoints (R397 to R404) -/

/-- An endpoint as the registers hold it may be committed: 0, or the code of R398. -/
def State.aditCheck (s : State) (a : Adit) : Nat :=
  let owns (p : Nat) : Bool := bitAt (s.region a.region).portMask p && (s.region a.region).valid
  let hasB := !a.transit && rtHops a.routeB != 0
  if !(owns (rtPort a.routeA)) || (hasB && !(owns (rtPort a.routeB))) || (a.transit && !(owns a.inPort)) then rRegionViolation
  else if 20 ≤ rtPort a.routeA ∨ (hasB && 20 ≤ rtPort a.routeB) ∨ 4 < rtHops a.routeA ∨ 4 < rtHops a.routeB ∨ rtHops a.routeA = 0 ∨
      (a.transit && 20 ≤ a.inPort) ∨ (!a.transit && (32768 ≤ a.peerDev || a.peerDev == s.edge.devId)) ∨
      (hasB && rtPort a.routeA == rtPort a.routeB) then rAbiMismatch
  else if a.state ≠ .down then rCapacity
  else 0

/-- The path endpoint that ADIT_SEL selects. -/
def State.selEp (s : State) : Nat := fld (s.rd aditSel) 11 0

/-- An ECHO leaves on a route of an endpoint; its payload names the route (log entry 25). -/
def State.sendEcho (s : State) (ep : Nat) (routeB : Bool) : State :=
  let a := s.adit ep
  s.routeSend (if routeB then a.routeB else a.routeA) (mkFlit 9 7 epHeadframe epHeadframe 0 (padTo 16 [if routeB then 1 else 0]))

/-- COMMIT of the selected endpoint (R398, R400): a LOCAL one verifies each present route. -/
def State.aditCommitSel (s : State) : State :=
  let ep := s.selEp
  let a := s.adit ep
  let code := s.aditCheck a
  if code ≠ 0 then s.refuse aditLastRefuse code
  else if !a.isLocal then s
  else
    let hasB := rtHops a.routeB != 0
    let s := s.setAdit ep { a with state := .verifying, onB := false, aUp := false, bUp := false, aEcho := true, bEcho := hasB, echoAt := s.now,
                                   boundA := 0, boundB := 0, measuredA := s.now, measuredB := s.now, txE2e := 0, rxE2e := 0, unacked := [], waiting := [], answered := [] }
    let s := { s with fab := { s.fab with lostPeers := s.fab.lostPeers.filter fun d => d != a.peerDev } }
    let s := s.sendEcho ep false
    if hasB then s.sendEcho ep true else s

/-- ADIT_COMMIT (R398). -/
def execAditCommit (f : Nat) (s : State) : Host.Outcome State Fault Refusal :=
  .next (if s.mayWrite f aditCmd then s.aditCommitSel else s)

/-- BOUND of a route (R401). -/
def routeBound (rtt hops : Nat) : Nat := cdiv rtt 2 + 400 * hops

/-- A verifying endpoint whose echoes are over: UP when a route is, else DOWN (R400). -/
def State.aditSettled (s : State) (ep : Nat) : State :=
  let a := s.adit ep
  if a.state = .verifying ∧ !a.aEcho ∧ !a.bEcho ∧ !a.aUp ∧ !a.bUp then s.setAdit ep { a with state := .down } else s

/-- ECHO_REPLY (R400, R401): within 1 ms the route is UP with its bound; the endpoint is UP and sends on route A when that is UP. -/
def execEchoReply (fl : Flit) (rtt : Nat) (s : State) : Host.Outcome State Fault Refusal :=
  .next (
    let s := { s with fab := { s.fab with inbox := s.fab.inbox.filter fun p => p.2 != fl } }
    let ep := fl.path
    let a := s.adit ep
    let b := (fl.payload.headD 0) == 1
    if !a.isLocal ∨ !(if b then a.bEcho else a.aEcho) ∨ a.echoAt + 1000000 < s.now then s
    else
      let a := if b then { a with bEcho := false, bUp := true, boundB := routeBound rtt (rtHops a.routeB), measuredB := s.now }
               else { a with aEcho := false, aUp := true, boundA := routeBound rtt (rtHops a.routeA), measuredA := s.now }
      let s := s.setAdit ep { a with state := .up, onB := !a.aUp }
      s.aditPump ep (s.adit ep).held.length)

/-- ADIT_VERIFY_TIMEOUT (R400): a route whose reply did not come within 1 ms is not UP. -/
def execAditVerifyTimeout (ep : Nat) (route : Bool) (s : State) : Host.Outcome State Fault Refusal :=
  .next (
    let a := s.adit ep
    if a.echoAt + 1000000 ≤ s.now ∧ (if route then a.bEcho else a.aEcho) then
      (s.setAdit ep (if route then { a with bEcho := false } else { a with aEcho := false })).aditSettled ep
    else s)

/-- REVERT of the selected endpoint: back to route A, if that is UP (R404, R414). -/
def State.revertSel (s : State) : State :=
  let a := s.adit s.selEp
  if a.isLocal && a.state == .up && a.onB && a.aUp then s.aditSwitch s.selEp else s

/-- REVERT (R404). -/
def execRevert (f : Nat) (s : State) : Host.Outcome State Fault Refusal := .next (if s.mayWrite f aditCmd then s.revertSel else s)

/-- DISABLE of the selected endpoint: DOWN, with its outstanding packets faulted (R405, R416). -/
def State.disableSel (s : State) : State :=
  if (s.adit s.selEp).isLocal && (s.adit s.selEp).state != .down then s.aditDown s.selEp else s

/-- DISABLE (R416). -/
def execDisable (f : Nat) (s : State) : Host.Outcome State Fault Refusal := .next (if s.mayWrite f aditCmd then s.disableSel else s)

/-- ROUTE_REMEASURE (R401): 60 s after its last measurement a present route of an UP endpoint answers: it is UP, and its bound is published anew when
it moves by more than 10 %. -/
def execRouteRemeasure (ep : Nat) (route : Bool) (rtt : Nat) (s : State) : Host.Outcome State Fault Refusal :=
  .next (
    let a := s.adit ep
    let w := if route then a.routeB else a.routeA
    let old := if route then a.boundB else a.boundA
    let new := routeBound rtt (rtHops w)
    let moved := decide (old < 10 * (max new old - min new old)) || old == 0
    if a.isLocal ∧ a.state = .up ∧ rtHops w ≠ 0 ∧ (if route then a.measuredB else a.measuredA) + 60000000000 ≤ s.now then
      s.setAdit ep (if route then { a with bUp := true, boundB := if moved then new else old, measuredB := s.now }
        else { a with aUp := true, boundA := if moved then new else old, measuredA := s.now })
    else s)

/-- The flit is no longer waiting for its operation. -/
def State.takeFlit (s : State) (fl : Flit) : State := { s with fab := { s.fab with inbox := s.fab.inbox.filter fun p => p.2 != fl } }

/-- PATH_FAIL (R404, R414): a TRANSIT endpoint passes it upstream; at a LOCAL one the route it names, or without a name the active one,
has failed (log entry 25). -/
def execPathFail (fl : Flit) (s : State) : Host.Outcome State Fault Refusal :=
  .next (
    let s := (s.takeFlit fl).inc aditPathFailCount 1
    let a := s.adit fl.path
    if !a.valid then s
    else if a.transit then s.sendPathFail a
    else s.routeFail fl.path (match fl.payload with
      | [] => a.onB
      | b :: _ => b == 1))

/-- ECHO (R385): the payload goes back. -/
def execEcho (fl : Flit) (s : State) : Host.Outcome State Fault Refusal :=
  .next (
    let s := s.takeFlit fl
    if (s.adit fl.path).isLocal then s.aditSend fl.path (mkFlit 10 7 fl.srcEp fl.destEp 0 fl.payload) else s)

/-- The status of a WRITE_ACK record as the code that a sender's step faults with; NO_ENDPOINT is a refusal of R186 too (DEDUCED, log
entry 25). -/
def ackCode : Nat → Nat
  | 0 => 0
  | 2 => rRegionViolation
  | _ => rWindowBounds

/-- One record of a WRITE_ACK (R403): the packet it names is answered. -/
def State.ackRecord (s : State) (ep rec16 : Nat) : State :=
  let a := s.adit ep
  match a.unacked.find? fun f => f.e2e == rec16 % 0x1000 with
  | some f =>
    let s := s.setAdit ep { a with unacked := a.unacked.erase f }
    s.fabSettle ep f.srcEp (ackCode (rec16 / 0x1000))
  | none => s

/-- WRITE_ACK (R402, R403): each record completes a packet, and packets that wait go. -/
def execWriteAck (fl : Flit) (s : State) : Host.Outcome State Fault Refusal :=
  .next (
    let s := s.takeFlit fl
    if !(s.adit fl.path).isLocal then s
    else
      let s := s.each ((chunks 2 (fl.payload.take 240)).map ofLe) fun s r => s.ackRecord fl.path r
      s.aditPump fl.path (s.adit fl.path).held.length)

/-- STORE (R378, R379): a storage message passes on a storage port; any other port discards it. -/
def execStore (port : Nat) (fl : Flit) (s : State) : Host.Outcome State Fault Refusal :=
  .next (
    let s := s.takeFlit fl
    if portRole port = 1 then { s with fab := { s.fab with stored := s.fab.stored ++ [(port, fl)] } } else s.inc (peligDiscardCount port) 1)

end Sys2Proof.Machine
end

