-- ==== Sys2Proof/Machine/Calib.lean ====
section
/-! DEFINITION. System calibration (R123 to R151): CAL_CMD, the samples of the two ends, the coefficients, their
commit, when a calibration is due, and the hourly DRAM judgement (R143). -/

namespace Sys2Proof.Machine

/-! ## The reference points (R125) -/

/-- The choices of N and P with their expected code. -/
def calPairs (g : Nat) : List (Nat × Nat × Rat) :=
  [8, 6, 4, 2].flatMap fun n => (List.range 31).map fun p => (n, p + 1, (12 * (p + 1) * n : Nat) / gainStep g)

/-- N, P and E of a gain: the largest E not above FS_CODE, then the largest N, then the smallest P (R125). -/
def calPoint (g fs : Nat) : Nat × Nat × Rat :=
  (calPairs g).foldl (fun best x => if x.2.2 ≤ (fs : Rat) ∧ best.2.2 < x.2.2 then x else best) (0, 0, 0)

/-! ## Commands and runs (R129, R132, R134, R148) -/

def State.calc (s : State) (i : Nat) : Cal := (s.stope i).cal
def State.updCal (s : State) (i : Nat) (f : Cal → Cal) : State := s.updStope i fun t => { t with cal := f t.cal }

/-- The lowest gain of a mask at or above `g`, or 7. -/
def nextGain (mask g : Nat) : Nat := ((List.range 7).find? fun x => decide (g ≤ x) && bitAt mask x).getD 7

/-- Whether a stope's FENCE bit reads 1 (R47). -/
def State.fenceBit (s : State) (p : Nat) : Bool := (s.fence (blockPage p)).classes != 0

/-- A run starts (R125, R129, R132): the zero end first, unless a fresh zero end of the same gains stands. The warm-up is charged (R443). -/
def State.calStart (s : State) (i : Nat) (zeroOnly excl : Bool) (fs : Nat) : State :=
  let gains := fld (s.rd (calGains i)) 6 0
  let c := s.calc i
  let fresh := match c.zeroDone with
    | some t => decide (s.now ≤ t + 1000000000) && c.zeroGains == gains
    | none => false
  let full := !zeroOnly && fresh
  let s := s.refEnable i
  s.updCal i fun c =>
    { c with
      phase := if gains = 0 then .idle else if full then .full else .zero
      excl := excl && gains != 0, zeroDone := if full then c.zeroDone else none, gains := gains, fs := if fs = 0 then fld (s.rd (calFs i)) 6 0 else fs, onlyZero := zeroOnly,
      redo := false, gain := nextGain gains 0, col := 0, taken := 0, holdSince := none, slotOpen := false,
      sumZ := if full then c.sumZ else [], sumZZ := if full then c.sumZZ else [], sumF := [], clipped := [], fresh := [], committed := 0 }

/-- A CAL_CMD word with OP CAL_ZERO or CAL_FULL acts: held while a run goes on or waits for FENCE, itself waiting for FENCE in EXCLUSIVE
mode, else started (R134, R148). -/
def State.calAct (s : State) (i : Nat) (v : Word) : State :=
  if (s.calc i).phase != .idle || (s.calc i).exclWait.isSome then s.updCal i fun c => { c with heldCmd := some v }
  else if bit v 2 && !(s.fenceBit (shellPage i)) then s.updCal i fun c => { c with exclWait := some v }
  else s.calStart i (fld v 1 0 == 1) (bit v 2) (fld v 9 3)

/-- The run stops at once; coefficients not yet committed, samples and held commands are discarded (R134). -/
def State.calStop (s : State) (i : Nat) : State :=
  s.updCal i fun c =>
    { c with phase := .idle, excl := false, slotOpen := false, forced := false, holdSince := none, heldCmd := none, exclWait := none,
             fresh := [], sumF := [], clipped := [], taken := 0 }

/-- A write of CAL_CMD (R148): a bad FS_CODE refuses the whole write. -/
def State.calCmdWrite (s : State) (f i : Nat) (v : Word) : State :=
  if 256 ≤ i ∨ !(s.mayWrite f (calCmd i)) then s
  else if fld v 9 3 ≠ 0 ∧ (fld v 9 3 < 96 ∨ 120 < fld v 9 3) then s.updCal i fun c => { c with cmdRefused := true }
  else
    let s := s.updCal i fun c => { c with cmdRefused := false }
    match fld v 1 0 with
    | 0 => s
    | 3 => s.calStop i
    | _ => s.calAct i v

/-- CAL_ZERO (R125, R148): a write of CAL_CMD with OP 0b01. -/
def execCalZero (f i : Nat) (v : Word) (s : State) : Host.Outcome State Fault Refusal := .next (s.calCmdWrite f i (setFld v 1 0 1))

/-- CAL_FULL (R129, R148): a write of CAL_CMD with OP 0b10. -/
def execCalFull (f i : Nat) (v : Word) (s : State) : Host.Outcome State Fault Refusal := .next (s.calCmdWrite f i (setFld v 1 0 2))

/-- CAL_ABORT (R134, R148): a write of CAL_CMD with OP 0b11. -/
def execCalAbort (f i : Nat) (v : Word) (s : State) : Host.Outcome State Fault Refusal := .next (s.calCmdWrite f i (setFld v 1 0 3))

/-- CAL_EXCL_START (R148): the stope's FENCE bit reads 1, and the waiting EXCLUSIVE command runs. -/
def execCalExclStart (i : Nat) (s : State) : Host.Outcome State Fault Refusal :=
  .next (
    match (s.calc i).exclWait with
    | some v =>
      if s.fenceBit (shellPage i) && (s.calc i).phase == .idle then
        (s.updCal i fun c => { c with exclWait := none }).calStart i (fld v 1 0 == 1) true (fld v 9 3)
      else s
    | none => s)

/-- CAL_HELD_START (R134): the run has ended, and the held command runs. -/
def execCalHeldStart (i : Nat) (s : State) : Host.Outcome State Fault Refusal :=
  .next (
    match (s.calc i).heldCmd with
    | some v => if (s.calc i).phase = .idle ∧ (s.calc i).exclWait = none then (s.updCal i fun c => { c with heldCmd := none }).calAct i v else s
    | none => s)

/-! ## Samples (R126, R127, R133) -/

/-- The key of a column and gain. -/
def calKey (p c g : Nat) : Nat := (256 * p + c) * 8 + g

/-- One sample's raw code of a physical macro's column: the zero end drives no row, the full end N reference rows with P
pulses (R125). -/
def Stope.calCode (t : Stope) (p c : Nat) (ctr now : Nat) : Nat :=
  let (n, pulses, _) := calPoint t.cal.gain t.cal.fs
  let sum : Int := if t.cal.phase = .full then ((List.range n).map fun r => (pulses : Int) * t.cell p t.bank (256 + r) c).sum else 0
  (convert ((sum : Rat) / gainStep t.cal.gain + Config.deviation ctr) ctr now false).code

/-- The sums after one sample of every macro's columns of the present phase, at the gain's integration floor (R125, R127). -/
def Stope.takeSample (t : Stope) (ctr now tint : Nat) : Stope :=
  let g := t.cal.gain
  let pts := ((List.range 74).flatMap fun p => (List.range 128).map fun j => (p, 2 * j + t.cal.col)).zipIdx
  let c := pts.foldl (fun (c : Cal) x =>
    let key := calKey x.1.1 x.1.2 g
    let code := t.calCode x.1.1 x.1.2 (ctr + x.2) now
    let z : Int := (code : Int) - 128
    if t.cal.phase = .full then
      { c with sumF := addRun c.sumF key z,
               clipped := if code = 0 ∨ code = 255 then Table.set 0 c.clipped key 1 else c.clipped }
    else { c with sumZ := addRun c.sumZ key z, sumZZ := addRun c.sumZZ key (z * z) }) t.cal
  { t with cal := { c with taken := c.taken + 1, lastSample := now, holdSince := none, slotOpen := false,
                           zeroTint := if t.cal.phase = .full then c.zeroTint else Table.set 0 c.zeroTint g tint } }

/-- A column's new coefficients, or none when its result is out of range (R127, R128). -/
def Cal.result (c : Cal) (p col g : Nat) : Option Word :=
  let key := calKey p col g
  let z := Table.get 0 c.sumZ key
  let f := Table.get 0 c.sumF key
  let e := (calPoint g c.fs).2.2
  if f - z ≤ 0 ∨ 512 < z.natAbs ∨ Table.get 0 c.clipped key ≠ 0 then none
  else
    let g := (ratRound (e * 64 / ((f - z : Int) : Rat) * 16384)).toNat
    if g < 0x3000 ∨ 0x5000 < g then none
    else some (BitVec.ofNat 32 (g + (BitVec.ofInt 16 (4 * z)).toNat * 0x10000))

/-- A column's zero-end noise σ² (R127). -/
def Cal.sigma (c : Cal) (p col g : Nat) : Rat :=
  let m : Rat := ((Table.get 0 c.sumZ (calKey p col g) : Int) : Rat) / 64
  ((Table.get 0 c.sumZZ (calKey p col g) : Int) : Rat) / 64 - m * m

/-- The columns of the stope, by physical macro. -/
def calColumns : List (Nat × Nat) := (List.range 74).flatMap fun p => (List.range 256).map fun c => (p, c)

/-- The nth percentile of a list by nearest rank (DESIGN CHOICE, log entry 17: the manual names the percentile, not the rank). -/
def percentile (n : Nat) (l : List Rat) : Rat :=
  let sorted := l.mergeSort fun a b => decide (a ≤ b)
  sorted.getD (cdiv (l.length * n) 100 - 1) 0

/-- The results of one gain (R127, R128, R141): fresh coefficients, notices for columns out of range, and the noise under the TINT of the zero end.
NOISE_A is rounded to nearest, and 0 where a is 0 or less (DESIGN CHOICE, log entry 158). -/
def State.calResults (s : State) (i g : Nat) : State :=
  let c := s.calc i
  let bad := calColumns.filter fun x => (c.result x.1 x.2 g).isNone
  let good := calColumns.filter fun x => (c.result x.1 x.2 g).isSome
  let tint := Table.get 0 c.zeroTint g
  let noise := good.map fun x => (c.sigma x.1 x.2 g - Config.adcNoise) * (tint : Rat)
  let s := s.updCal i fun c =>
    { c with fresh := good.foldl (fun t x => match c.result x.1 x.2 g with
               | some w => Table.put t (calKey x.1 x.2 g) w
               | none => t) c.fresh,
             noise := Table.set [] c.noise g noise }
  let s := s.inc (calRangeCount i) bad.length
  let s := s.each bad fun s x => s.notify (mkNotice causeCalRange (unitAdc i x.1 (x.2 / 2)) g i ((s.stopeRegion i).getD 0))
  let a := percentile 99 noise
  s.wr (calNoiseA i g) (if a ≤ 0 then 0 else BitVec.ofNat 32 (min 0xFFFFFFFF (ratRound (a * 65536)).toNat))

/-- After the 64th sample of an end, phase and gain: the next one; after the last, the zero end stands, or the results are
formed and wait for their commit (R125, R127, R129). -/
def State.calAdvance (s : State) (i : Nat) : State :=
  let c := s.calc i
  if c.taken < 64 then s
  else if c.col = 0 then s.updCal i fun c => { c with col := 1, taken := 0 }
  else if c.redo then s.updCal i fun c => { c with phase := .full, redo := false, col := 0, taken := 0 }
  else
    let g := nextGain c.gains (c.gain + 1)
    if g < 7 then s.updCal i fun c => { c with col := 0, taken := 0, gain := g }
    else if c.phase = .zero then
      s.updCal i fun c =>
        { c with zeroDone := some s.now, zeroGains := c.gains, col := 0, taken := 0, gain := nextGain c.gains 0,
                 phase := if c.onlyZero then .idle else .full, excl := c.excl && !c.onlyZero }
    else
      (s.each (maskBits 7 c.gains) fun s g => s.calResults i g).updCal i fun c => { c with phase := .commit, committed := 0, taken := 0, col := 0 }

/-- Whether the stope may take a sample now: an end in progress, the buffer READY, the spacing kept, and in INTERLEAVED mode a
slot open, no more than 2 µs old, its sequencers idle, and CONVERT not fenced (R126, R133, R134). -/
def State.calFree (s : State) (i : Nat) : Bool :=
  let c := s.calc i
  (c.phase == .zero || c.phase == .full) && !(c.taken == 0 && c.col == 0 && s.macroMidway i) && (s.stope i).ref == .ready && (c.taken == 0 || decide (c.lastSample + 1500 ≤ s.now)) &&
    (if c.excl then s.fenceBit (shellPage i) else c.slotOpen && decide (s.now ≤ c.slotSince + 2000) && (s.stope i).allIdle && !(s.stopeFenced i 1))

/-- CAL_SAMPLE (R126, R132, R443): one sample at the required spacing, which an EXCLUSIVE run is charged here; a run warms the buffer itself. -/
def execCalSample (i : Nat) (s : State) : Host.Outcome State Fault Refusal :=
  .next (
    if s.calFree i then
      let t := (s.stope i).takeSample s.freeCtr s.now (s.tintFloor i (s.calc i).gain)
      let s := if (s.calc i).excl then s.charge enCheck s.slotCharge else s
      ({ s with freeCtr := s.freeCtr + 74 * 128 }.setStope i t).calAdvance i
    else if ((s.calc i).phase == .zero || (s.calc i).phase == .full) && (s.stope i).ref == .off then s.refEnable i
    else s)

/-- CAL_SLOT (R133, R277, R444): the winder grants a slot while all four sequencers are idle and the grant serves it, and charges
it; a calibration that is due starts with it. -/
def execCalSlot (i : Nat) (s : State) : Host.Outcome State Fault Refusal :=
  .next (
    if (s.stope i).allIdle && s.grantOpen (s.calc i).forced && ((s.calc i).due || (s.calc i).phase != .idle) then
      let s := s.charge enCheck s.slotCharge
      let s := if (s.calc i).due ∧ (s.calc i).phase = .idle ∧ (s.calc i).exclWait = none then s.calStart i false false 0 else s
      if (s.calc i).phase != .idle && !(s.calc i).excl then s.updCal i fun c => { c with slotOpen := true, slotSince := s.now } else s
    else s)

/-- CAL_DEFER_EXPIRY (R133): a calibration due for CAL_DEFER ms is deferred no longer; its run starts and slots are forced. -/
def execCalDeferExpiry (i : Nat) (s : State) : Host.Outcome State Fault Refusal :=
  .next (
    let c := s.calc i
    if c.due ∧ c.dueSince + fld (s.rd (calDefer i)) 15 0 * 1000000 ≤ s.now then
      let s := if c.phase = .idle ∧ c.exclWait = none then s.calStart i false false 0 else s
      s.updCal i fun c => { c with forced := true }
    else s)

/-- CAL_HOLD_TIMEOUT (R134): an INTERLEAVED hold of more than 100 µs restarts the present end, phase and gain. -/
def execCalHoldTimeout (i : Nat) (s : State) : Host.Outcome State Fault Refusal :=
  .next (
    match (s.calc i).holdSince with
    | some t =>
      if t + 100000 < s.now ∧ (s.calc i).excl = false then
        s.updCal i fun c =>
          let keep (x : Nat × Int) : Bool := !(x.1 % 8 == c.gain && x.1 / 8 % 2 == c.col)
          { c with taken := 0, holdSince := some s.now,
                   sumZ := if c.phase = .zero then c.sumZ.filter keep else c.sumZ,
                   sumZZ := if c.phase = .zero then c.sumZZ.filter keep else c.sumZZ,
                   sumF := if c.phase = .full then c.sumF.filter keep else c.sumF,
                   clipped := if c.phase = .full then c.clipped.filter fun x => !(x.1 % 8 == c.gain && x.1 / 8 % 2 == c.col) else c.clipped }
      else s
    | none => s)

/-! ## Commit (R130, R135, R139) -/

/-- The physical macros of a commit unit: a seam's 18, or with 4 the spares. -/
def commitMacros (k : Nat) : List Nat := if k < 4 then ((List.range 16).map (16 * k + ·)) ++ [64 + 2 * k, 65 + 2 * k] else [72, 73]

/-- Whether no plan uses the macros of a commit unit (R130). -/
def Stope.commitFree (t : Stope) (k : Nat) : Bool :=
  if k < 4 then !(t.seq k).busy
  else (!t.spare72.live || !(t.seq (seamOf t.spare72.target)).busy) && (!t.spare73.live || !(t.seq (seamOf t.spare73.target)).busy)

/-- A calibration becomes due in a stope (R135). -/
def State.calDue (s : State) (i : Nat) : State :=
  if (s.calc i).due then s else s.updCal i fun c => { c with due := true, dueSince := s.now }

/-- The interval rule of R139, judged when a stope's calibration completes. -/
def State.judgeInterval (s : State) (i : Nat) : State :=
  let iv := fld (s.rd hfCalInt) 9 0
  let moved := (s.calc i).lastMoves
  let set (s : State) (v : Nat) : State :=
    let s := (s.wr hfCalInt (BitVec.ofNat 32 v)).replanCause 5
    let s := { s with hf := { s.hf with calChanged := s.now } }
    s.each (s.stopes.map (·.1)) fun s j => s.updCal j fun c => { c with quietRuns := 0 }
  if 128 < moved then set s (max 15 (iv / 2))
  else
    let own := (List.range 256).filter fun j => (s.stopeRegion j).isSome
    if own.all fun j => decide (4 ≤ (s.calc j).quietRuns) then set s (min 720 (2 * iv)) else s

/-- Whether a column's a is more than 25 % above the value behind its gain's floor (R146): above it by more than a quarter of its magnitude, so
that a value of 0 or less counts as well (DESIGN CHOICE, log entry 161). A floor that no measurement stands behind has no such value. -/
def State.noiseRisen (s : State) (i : Nat) : Bool :=
  (maskBits 7 (s.calc i).gains).any fun g => match s.hf.aBehind.find? fun p => p.1 == g with
    | some (_, b) => (Table.get [] (s.calc i).noise g).any fun a => decide (b + |b| / 4 < a)
    | none => false

/-- A complete calibration (R124, R130, R135, R332): GAIN_VALID, the time, temperature and count, τ anew. -/
def State.calFinish (s : State) (i : Nat) : State :=
  let s := s.updCal i fun c =>
    { c with phase := .idle, excl := false, forced := false, slotOpen := false, gainValid := c.gainValid ||| c.gains,
             everGains := c.everGains ||| c.gains, lastDone := s.now, fresh := [], due := c.addGains != 0, dueSince := s.now,
             addGains := 0, quietRuns := if c.lastMoves ≤ 32 then c.quietRuns + 1 else 0 }
  let s := (s.wr64 (calLastLo i) s.now).wr (calTemp i) (BitVec.ofNat 32 ((BitVec.ofInt 16 (s.node i).temp).toNat))
  let s := (s.inc (calCount i) 1).retau i
  let s := if s.noiseRisen i then s.replanCause 4 else s
  s.judgeInterval i

/-- CAL_COMMIT (R130): with no plan on the seam (4 stands for the spares), its new coefficients go into the calibration
memory; with the last one the calibration is complete. -/
def execCalCommit (i k : Nat) (s : State) : Host.Outcome State Fault Refusal :=
  .next (
    let t := s.stope i
    let c := t.cal
    if c.phase = .commit ∧ k < 5 ∧ t.commitFree k ∧ bitAt c.committed k = false then
      let mine := c.fresh.filter fun x => (commitMacros k).contains (x.1 / 2048)
      let known (key : Nat) : Bool := bitAt c.everGains (key % 8)
      let off (w : Word) : Int := (BitVec.ofNat 16 (fld w 31 16)).toInt
      let moves := mine.map fun x => if known x.1 then (off x.2 - off (Table.get 0x4000 t.coef x.1)).natAbs else 0
      let s := s.updStope i fun t =>
        { t with coef := mine.foldl (fun m x => Table.set 0x4000 m x.1 x.2) t.coef,
                 cal := { t.cal with committed := t.cal.committed + 2 ^ k,
                                     lastMoves := moves.foldl max (if t.cal.committed = 0 then 0 else t.cal.lastMoves) } }
      if (s.calc i).committed = 31 then s.calFinish i else s
    else s)

/-- CAL_GROUP (R131): in power state CAL the headframe has the next diagonal group of 16 stopes calibrated in EXCLUSIVE mode,
once the group before has ended; after the sixteenth the die is done, and a re-plan follows (R141, R146). -/
def execCalGroup (s : State) : Host.Outcome State Fault Refusal :=
  .next (
    let g := s.hf.calGroup
    let stopes (j : Nat) : List Nat := (List.range 256).filter fun i => (i % 16 + i / 16) % 16 == j && (s.stopeRegion i).isSome
    let ended := g == 0 || (stopes (g - 1)).all fun i => (s.calc i).phase == .idle && (s.calc i).exclWait.isNone
    if s.hf.pwr != .cal || !ended || decide (16 < g) then s
    else if g = 16 then { s with hf := { s.hf with calGroup := 17 } }.replanCause 9
    else
      let s := { s with hf := { s.hf with calGroup := g + 1 } }
      s.each (stopes g) fun s i => s.calAct i 6)

/-- CAL_INTERVAL_EXPIRY (R135): the calibration interval has passed since the stope's last calibration. -/
def execCalIntervalExpiry (i : Nat) (s : State) : Host.Outcome State Fault Refusal :=
  .next (if (s.calc i).lastDone + s.hf.plan.calInterval * 60000000000 ≤ s.now then s.calDue i else s)

/-- CAL_INT_WRITE (R139): a host write of CAL_INT in its range sets the interval and asks for a re-plan with CAUSE bit 24;
the rule's counting starts anew. -/
def State.calIntWrite (s : State) (f : Nat) (v : Word) : State :=
  if s.mayWrite f hfCalInt then
    let s := s.storeReg f hfCalInt v
    if 15 ≤ fld v 9 0 ∧ fld v 9 0 ≤ 720 then
      let s := { s with hf := { s.hf with calChanged := s.now } }.replanCause 8
      s.each (s.stopes.map (·.1)) fun s j => s.updCal j fun c => { c with quietRuns := 0 }
    else s
  else s

/-- CAL_INT_WRITE (R139). -/
def execCalIntWrite (f : Nat) (v : Word) (s : State) : Host.Outcome State Fault Refusal := .next (s.calIntWrite f v)

/-- A write of CAL_GAINS (R134, R135, R150): a gain that joins makes a calibration due, after the run in progress. -/
def State.calGainsWrite (s : State) (f i : Nat) (v : Word) : State :=
  if 256 ≤ i ∨ !(s.mayWrite f (calGains i)) then s
  else
    let old := fld (s.rd (calGains i)) 6 0
    let s := s.storeReg f (calGains i) v
    let added := fld v 6 0 &&& (0x7F ^^^ old)
    if added = 0 then s
    else if (s.calc i).phase = .idle then s.calDue i
    else (s.updCal i fun c => { c with addGains := c.addGains ||| added }).calDue i

/-- CAL_GAINS_WRITE (R135). -/
def execCalGainsWrite (f i : Nat) (v : Word) (s : State) : Host.Outcome State Fault Refusal := .next (s.calGainsWrite f i v)

/-! ## Cell drift (R136, R140) -/

/-- The middle value of a list, of two the mean. -/
def median (l : List Rat) : Rat :=
  let sorted := l.mergeSort fun a b => decide (a ≤ b)
  (sorted.getD ((l.length - 1) / 2) 0 + sorted.getD (l.length / 2) 0) / 2

/-- The common factor k of a bank: the median of m/l over the cells sampled on the die, or none without any (R136). -/
def State.commonFactor (s : State) (bank : Bool) : Option Rat :=
  let b := if bank then 1 else 0
  let all := s.stopes.flatMap fun t => (t.2.sampled.filter fun x => x.1 % 2 == b).flatMap fun x => x.2.map fun y => y.1 / (y.2 : Rat)
  if all.isEmpty then none else some (median all)

/-- Whether a bank's common factor lies outside 0.98 to 1.02 (R140). -/
def State.factorOut (s : State) (bank : Bool) : Bool := match s.commonFactor bank with
  | some k => decide (k < 49 / 50 ∨ 51 / 50 < k)
  | none => false

/-- A stope's reference rows of a bank stand at +12 again; what was sampled against the old ones is no measure any more. -/
def Stope.restoreRows (t : Stope) (bank : Bool) : Stope :=
  { t with cells := t.cells.filter fun x => decide (x.1 / 256 % 264 < 256) || (x.1 / 67584 % 2 == 1) != bank,
           sampled := t.sampled.filter fun x => (x.1 % 2 == 1) != bank }

/-- REF_ROW_RESTORE (R80, R140): a bank whose common factor lies outside 0.98 to 1.02 has every reference row restored, and a calibration becomes
due in every stope. -/
def execRefRowRestore (bank : Bool) (s : State) : Host.Outcome State Fault Refusal :=
  .next (
    if s.factorOut bank then
      let s := s.each (s.stopes.map (·.1)) fun s i => s.updStope i fun t => t.restoreRows bank
      s.each (List.range 256) fun s i => s.calDue i
    else s)

/-! ## DRAM refresh (R143) -/

/-- Refresh rate code of stack `k` in a rate word. -/
def rateOf (r k : Nat) : Nat := bitsOf r (2 * k + 1) (2 * k)
def setRate (r k v : Nat) : Nat := r - rateOf r k * 4 ^ k + v * 4 ^ k

/-- One stack's hour (R143): above 1,000 corrected errors on a pseudo-channel the rate is ×4 and an assay of it is ordered,
above 100 at least ×2, and after 24 quiet hours ×1. -/
def State.dramHour (s : State) (k : Nat) : State :=
  let n (pc : Nat) : Nat := Table.get 0 s.kv.ceHour (32 * k + pc)
  let worst := ((List.range 32).map n).foldl max 0
  let quiet := if worst < 10 then Table.get 0 s.kv.quietHours k + 1 else 0
  let old := rateOf s.hf.dramWant k
  let new := if 1000 < worst then 2 else if 100 < worst then max 1 old else if 24 ≤ quiet then 0 else old
  let s := { s with kv := { s.kv with quietHours := Table.set 0 s.kv.quietHours k quiet },
                    hf := { s.hf with dramWant := setRate s.hf.dramWant k new } }
  let s := if new = old then s else s.replanCause 6
  let s := s.each (List.range 32) fun s pc => s.wr (stackPcCeHour k pc) (BitVec.ofNat 32 (n pc))
  s.each ((List.range 32).filter fun pc => decide (1000 < n pc)) fun s pc =>
    { s with tally := { s.tally with due := s.tally.due ++ [{ kind := 4, unit := unitPc k pc, bank := false, since := s.now,
                                                              forced := false, retry := false, requested := false }] } }

/-- DRAM_HOUR_CHECK (R143): each hour the headframe judges every stack, and the next hour's counts begin. -/
def execDramHourCheck (s : State) : Host.Outcome State Fault Refusal :=
  let t := s.each (List.range 8) fun s k => s.dramHour k
  .next { t with kv := { t.kv with ceHour := [] } }

end Sys2Proof.Machine
end

