-- ==== Sys2Proof/Machine/Attn.lean ====
section
/-! DEFINITION. The attention arithmetic: rotary angles and block scores (R204, R205), page runs (R217), partial
records and their merging (R216, R218, R486). -/

namespace Sys2Proof.Machine

/-- A partial record (R216). -/
structure Partial where
  m : Word
  l : Word
  keys : Nat
  empty : Bool
  nan : Bool
  o : List Word
  deriving DecidableEq, Repr

/-- The record of a row that read no key (R212). -/
def Partial.none : Partial := { m := nInf, l := 0, keys := 0, empty := true, nan := false, o := List.replicate 128 0 }

/-- The record's 528 bytes (R216). -/
def Partial.bytes (p : Partial) : List Byte :=
  leBytes 4 p.m.toNat ++ leBytes 4 p.l.toNat ++ leBytes 4 p.keys ++ leBytes 4 (flag p.empty 0 + flag p.nan 1) ++
    p.o.flatMap fun w => leBytes 4 w.toNat

/-- The record that 528 bytes hold. -/
def Partial.ofBytes (bs : List Byte) : Partial :=
  { m := BitVec.ofNat 32 (leAt bs 0 4), l := BitVec.ofNat 32 (leAt bs 4 4), keys := leAt bs 8 4, empty := bitAt (leAt bs 12 4) 0,
    nan := bitAt (leAt bs 12 4) 1, o := (List.range 128).map fun d => BitVec.ofNat 32 (leAt bs (16 + 4 * d) 4) }

/-- Whether a record's bytes hold a reserved flag (R11, R216). -/
def Partial.reserved (bs : List Byte) : Bool := leAt bs 12 4 / 4 != 0

/-- A record whose M, L or any o[d] is NaN carries NAN (R486). -/
def Partial.seal (p : Partial) : Partial := { p with nan := p.nan || isNan p.m || isNan p.l || p.o.any isNan }

/-- The maximum of R218: a NaN enters no maximum (R486). -/
def maxNum (x y : Word) : Word := if isNan x then (if isNan y then qnan else y) else if isNan y then x else fMax x y

/-- merge of R218. -/
def Partial.merge (a b : Partial) : Partial :=
  if a.empty then b
  else if b.empty then a
  else
    let m := maxNum a.m b.m
    let fa := if a.m = nInf then 0 else fExpE (fSub a.m m)
    let fb := if b.m = nInf then 0 else fExpE (fSub b.m m)
    Partial.seal
      { m := m, l := fAdd (fMul a.l fa) (fMul b.l fb), keys := (a.keys + b.keys) % 0x100000000, empty := false, nan := a.nan || b.nan,
        o := (a.o.zip b.o).map fun p => fAdd (fMul p.1 fa) (fMul p.2 fb) }

/-- finish of R218. -/
def Partial.finish (r : Partial) : List Word :=
  r.o.map fun x => if r.nan then qnan else if r.empty then 0 else fDiv x r.l

/-- A fold of records left to right from the empty record. -/
def foldPartials (l : List Partial) : Partial := l.foldl Partial.merge Partial.none

/-! ## Scores -/

/-- The angle of pair i between query position `a` and key position `c`, in Q0.64 turns, reduced to its top 24 bits
(R204, R205). -/
def angle24 (phi a c : Nat) : Nat := (((((c : Int) - a) * phi) % (2 ^ 64 : Int)).toNat) / 2 ^ 40

/-- The score of one 32-element block before its scale (R205): pairs of rotated dimensions in ascending order, then the
unrotated ones. `base` is the block's first dimension, `dims` the rotated dimensions D. -/
def blockScore (phi : List Nat) (dims a c base : Nat) (q k : List Int) : Word :=
  (List.range 16).foldl (fun acc j =>
    let d := 2 * j
    let qa := q.getD d 0
    let qb := q.getD (d + 1) 0
    let ka := k.getD d 0
    let kb := k.getD (d + 1) 0
    if base + d < dims then
      let t := angle24 (phi.getD ((base + d) / 2) 0) a c
      fAdd acc (fAdd (fMul (cosTurn t) (ofIntExp (qa * ka + qb * kb) 0)) (fMul (sinTurn t) (ofIntExp (qb * ka - qa * kb) 0)))
    else fAdd (fAdd acc (ofIntExp (qa * ka) 0)) (ofIntExp (qb * kb) 0)) 0

/-- A query row: 128 levels, one exponent per 32-element block, its slot's position, its slot. -/
structure QRow where
  levels : List Int
  exps : List Nat
  pos : Nat
  slot : Nat
  deriving DecidableEq, Repr

/-- A stored key and value: levels, block exponents and the position. -/
structure KvSlot where
  k : List Int
  v : List Int
  ek : List Nat
  ev : List Nat
  pos : Nat
  deriving DecidableEq, Repr

/-- The score of a query and a key: blocks in ascending order, each scaled under R77 (R204). Both operands are E2M1,
so that the levels' doubling takes out a factor of four. -/
def score (phi : List Nat) (dims : Nat) (q : QRow) (kv : KvSlot) : Word :=
  (List.range 4).foldl (fun acc b =>
    let s := blockScore phi dims q.pos kv.pos (32 * b) ((q.levels.drop (32 * b)).take 32) ((kv.k.drop (32 * b)).take 32)
    fAdd acc (fScaleSat s ((q.exps.getD b 0 : Int) + (kv.ek.getD b 0 : Int) - 254 - 2)).1) 0

/-- The weights of one 32-key block quantised for one head-dimension block: levels and the E8M0 exponent, unbiased
(R78). -/
def quantKeys (ps : List Word) : List Int × Int :=
  let e := scaleExp true (maxMag ps)
  ((quantRun true .rneFeed e ps 0).map fun o => elemLevel true o.code, e)

/-- The 32 weighted sums of head-dimension block b over a page run (R77, R78, R217). -/
def weightedBlock (es : List Word) (kvs : List KvSlot) (b : Nat) : List Word :=
  let ps := (es.zip kvs).map fun p => (fScaleSat p.1 ((p.2.ev.getD b 0 : Int) - 127)).1
  let blocks := (chunks 32 (ps.zip kvs)).map fun c => (quantKeys (c.map (·.1)), c.map (·.2))
  (List.range 32).map fun d =>
    blocks.foldl (fun acc blk =>
      blockMac acc blk.1.1 (blk.2.map fun kv => kv.v.getD (32 * b + d) 0) (blk.1.2 - 2)) 0

/-- A page run's partial for one row (R217). -/
def runPartial (scale : Word) (phi : List Nat) (dims : Nat) (q : QRow) (kvs : List KvSlot) : Partial :=
  let raw := kvs.map fun kv => fMul scale (score phi dims q kv)
  let nan := raw.any isNan
  let ss := raw.map fun x => if isNan x then nInf else x
  let m := ss.foldl fMax nInf
  if m = nInf then { Partial.none with keys := kvs.length, empty := false, nan := nan }
  else
    let es := ss.map fun x => fExpE (fSub x m)
    Partial.seal { m := m, l := es.foldl fAdd 0, keys := kvs.length, empty := false, nan := nan,
                   o := (List.range 4).flatMap (weightedBlock es kvs) }

/-- Maximal ranges of consecutive numbers of an ascending list (R217). -/
def slotRuns : List Nat → List (List Nat)
  | [] => []
  | x :: xs =>
    match slotRuns xs with
    | (y :: ys) :: rest => if y = x + 1 then (x :: y :: ys) :: rest else [x] :: (y :: ys) :: rest
    | rest => [x] :: rest

end Sys2Proof.Machine
end

