-- ==== Sys2Proof/Machine/KvAlloc.lean ====
section
/-! DEFINITION. The KV page allocator (R198 to R203, R220, R223 to R228): frames and their reference counts,
page-table entries, the choice of a frame, copy-on-write, commits and rollbacks, spill copies and position maps. -/

namespace Sys2Proof.Machine

/-! ## Frames -/

/-- Element frames of a stack, and of one of its 32 pseudo-channels (R200). -/
def framesPerStack : Nat := 1343488
def framesPerPc : Nat := 41984

/-- The key of frame `f` of stack `k` in the table of reference counts. -/
def frameKey (k f : Nat) : Nat := k * 0x200000 + f

/-- A frame's reference count: 0 when free (R224). -/
def State.frameRef (s : State) (k f : Nat) : Nat := Table.get 0 s.kv.refs (frameKey k f)

/-- The count of a frame set. -/
def State.setFrameRef (s : State) (k f n : Nat) : State :=
  { s with kv := { s.kv with refs := Table.set 0 s.kv.refs (frameKey k f) n } }

/-- Frames in use on a stack, and on one of its pseudo-channels. -/
def State.framesUsed (s : State) (k : Nat) : Nat := (s.kv.refs.filter fun p => p.1 / 0x200000 == k).length
def State.pcUsed (s : State) (k pc : Nat) : Nat :=
  (s.kv.refs.filter fun p => p.1 / 0x200000 == k && p.1 % 0x200000 % 32 == pc).length

/-- Free frames of a stack and of the module (R200). -/
def State.framesFree (s : State) (k : Nat) : Nat :=
  if bitAt s.hf.trained k then framesPerStack - s.framesUsed k else 0
def State.totalFree (s : State) : Nat := ((List.range 8).map s.framesFree).sum

/-- Frames held more than once (the FRAMES_SHARED register). -/
def State.framesShared (s : State) : Nat := (s.kv.refs.filter fun p => decide (1 < p.2)).length

/-- Frames of a pseudo-channel that the allocator may take: none while PC_FENCE holds it (R224), and none of one that has
faulted (R228; DEDUCED, log entry 11). -/
def State.pcFree (s : State) (k pc : Nat) : Nat :=
  if bit (s.rd (stackPcFence k)) pc || bit (s.rd (stackPcFail k)) pc then 0 else framesPerPc - s.pcUsed k pc

/-- The pseudo-channel of a stack with the most free frames, the lower number on a tie (R224). -/
def State.bestPc (s : State) (k : Nat) : Option Nat :=
  let b := (List.range 32).foldl (fun best pc => if s.pcFree k best < s.pcFree k pc then pc else best) 0
  if s.pcFree k b = 0 then none else some b

/-- The lowest free frame of a pseudo-channel (DESIGN CHOICE, log entry 11: the manual names the pseudo-channel, not the
frame). -/
def State.lowFrame (s : State) (k pc : Nat) : Option Nat :=
  ((List.range (s.pcUsed k pc + 1)).map fun i => pc + 32 * i).find? fun f => s.frameRef k f == 0

/-- Whether the allocator may use a stack for a region: owned, and trained. -/
def State.stackUsable (s : State) (region k : Nat) : Bool :=
  bitAt (s.region region).stacks k && bitAt s.hf.trained k

/-- Free frames of a stack that may be taken. -/
def State.stackOpen (s : State) (k : Nat) : Nat := ((List.range 32).map (s.pcFree k)).sum

/-- The frame the allocator takes, preferring pseudo-channel `pc` of stack `k` (R224). -/
def State.chooseFrame (s : State) (region k pc : Nat) : Option (Nat × Nat) :=
  let own := (List.range 8).filter fun j => s.stackUsable region j
  let inStack (j : Nat) : Option (Nat × Nat) := (s.bestPc j).bind fun p => (s.lowFrame j p).map fun f => (j, f)
  if own.contains k && s.pcFree k pc != 0 then (s.lowFrame k pc).map fun f => (k, f)
  else if own.contains k && s.stackOpen k != 0 then inStack k
  else
    match own with
    | [] => none
    | j :: js => inStack (js.foldl (fun b x => if s.stackOpen b < s.stackOpen x then x else b) j)

/-- A refusal of the allocator: counted and recorded. -/
def State.allocFail (s : State) : State := (s.inc kvpAllocFailCount 1).refuse kvpLastRefuse rCapacity

/-- A frame is taken with count 1, or the allocator refuses with CAPACITY (R224). -/
def State.takeFrame (s : State) (region k pc : Nat) : Option (Nat × Nat) × State :=
  match s.chooseFrame region k pc with
  | some (j, f) => (some (j, f), s.setFrameRef j f 1)
  | none => (none, s.allocFail)

/-- The frame of a copy: in the same stack as the old frame, from the page's preferred pseudo-channel when it lies there, else
from the stack's pseudo-channel with the most free frames (R224, R226). -/
def State.takeCopy (s : State) (region k : Nat) (pref : Nat × Nat) : Option (Nat × Nat) × State :=
  let pc := if pref.1 = k ∧ s.pcFree k pref.2 ≠ 0 then some pref.2 else s.bestPc k
  match (if s.stackUsable region k then pc.bind (s.lowFrame k) else none) with
  | some f => (some (k, f), s.setFrameRef k f 1)
  | none => (none, s.allocFail)

/-- One holder lets a frame go. -/
def State.dropRef (s : State) (k f : Nat) : State := s.setFrameRef k f (s.frameRef k f - 1)

/-- A free location of the cage engine: a number of 32 bits, not 0, that no page entry and no journal names (R223, R227). -/
def State.freshHandle (s : State) : Nat :=
  let used := s.kv.ptes.map (·.2.handle) ++ s.wnd.streams.flatMap fun t => t.2.journaled.map (·.2.1)
  ((List.range (used.length + 1)).map fun i => (s.kv.nextHandle + i - 1) % 0xFFFFFFFF + 1).find? (fun h => !(used.contains h)) |>.getD s.kv.nextHandle

/-- The next handle to be tried after one that has been given. -/
def State.tookHandle (s : State) (h : Nat) : State := { s with kv := { s.kv with nextHandle := h % 0xFFFFFFFF + 1 } }

/-! ## Storage of a frame -/

/-- A frame's element page and its scale page (R200). -/
def elemAddr (k f : Nat) : Nat := kvBase k f
def scaleAddr (k f : Nat) : Nat := kvBase k (0x180000 + f / 16) + f % 16 * 0x800

/-- Packed elements as a stack stores them: +0 in place of 0b1000, which it never writes (R55, R198). -/
def storedElems (bs : List Byte) : List Byte :=
  packNibbles ((List.range (2 * bs.length)).map fun i => if nibble bs i = 8 then 0 else nibble bs i)

/-- A frame's 34 KiB, element page first. -/
def State.frameBytes (s : State) (k f : Nat) : List Byte := s.rdMem (elemAddr k f) 0x8000 ++ s.rdMem (scaleAddr k f) 0x800

/-- A frame's 34 KiB written. -/
def State.putFrame (s : State) (k f : Nat) (bs : List Byte) : State :=
  (((s.wrMem (elemAddr k f) (bs.take 0x8000)).wrMem (scaleAddr k f) (bs.drop 0x8000)).overwritten (elemAddr k f) 0x8000).overwritten
    (scaleAddr k f) 0x800

/-- A frame copied with its scale page (R210). -/
def State.copyFrame (s : State) (k src dst : Nat) : State := s.putFrame k dst (s.frameBytes k src)

/-- A COPY command of the allocator or the cage engine, which the stack counts when it completes (R210, R226). -/
def State.issueCopy (s : State) (k src dst : Nat) : State := (s.copyFrame k src dst).inc64 (stackCmdCountLo k) 1

/-! ## Page tables -/

/-- The key of a chain's page: stream, layer slot, KV head, page position. -/
def pteKey (stream layer head page : Nat) : Nat := ((stream * 256 + layer) * 8 + head) * 0x1000000 + page
def keyPage (key : Nat) : Nat := key % 0x1000000
def keyHead (key : Nat) : Nat := key / 0x1000000 % 8
def keyLayer (key : Nat) : Nat := key / 0x8000000 % 256
def keyStream (key : Nat) : Nat := key / 0x800000000

/-- A page-table entry's 64 bits (R223). -/
def Pte.entry (p : Pte) : Nat :=
  p.frame % 0x200000 + p.stack % 8 * 0x200000 + flag p.valid 24 + flag p.spilled 25 + flag p.stagedOnly 26 + p.handle % 0x100000000 * 0x100000000

/-- What the metadata windows of a stack hold, as numbers (R200): the page tables, the reference counts, which give the free lists, the position
maps, the prefix node map and the bucket table (R229). -/
def State.kvTables (s : State) : List Nat :=
  (s.kv.ptes.flatMap fun p => [p.1, p.2.entry]) ++ (s.kv.refs.flatMap fun p => [p.1, p.2]) ++
    (s.wnd.streams.flatMap fun t => t.1 :: t.2.pos.base.toNat :: t.2.pos.dims ::
      t.2.pos.segs.flatMap fun g => [g.first, g.last, (g.offset % 0x100000000).toNat]) ++
    (s.kv.nodes.flatMap fun n => n.1 :: n.2.frames.flatMap fun f => [f.1, f.2]) ++ s.kv.buckets.flatMap fun b => [b.1, b.2]

/-- Whether a page number of KV space names a metadata window, or an area that a DMA may read (R200, R201). -/
def isMetaPage (p : Nat) : Bool := decide (0x1C0000 ≤ p ∧ p < 0x1C8000)
def kvReadable (p : Nat) : Bool := decide (p < framesPerStack ∨ (0x180000 ≤ p ∧ p < 0x194800)) || isMetaPage p

/-- Bytes of KV space as a DMA reads them: a metadata window's are free values of the tables it holds (R200; log entry 148). -/
def State.rdKv (s : State) (k p o n : Nat) : List Byte :=
  if isMetaPage p then (List.range n).map fun i => Config.kvMeta s.kvTables k (0x8000 * (p - 0x1C0000) + o + i)
  else s.rdMem (kvBase k p + o) n

def State.pte (s : State) (key : Nat) : Pte := Table.get Pte.none s.kv.ptes key
def State.setPte (s : State) (key : Nat) (p : Pte) : State :=
  { s with kv := { s.kv with ptes := Table.set Pte.none s.kv.ptes key p } }

/-- The page entries of a stream on this module, ascending. -/
def State.streamPtes (s : State) (stream : Nat) : List (Nat × Pte) := s.kv.ptes.filter fun p => keyStream p.1 == stream

/-- The size S and this module's shard index of a layer slot's attention group (R220). -/
def State.attnGroup (s : State) (layer : Nat) : Nat × Nat :=
  match s.wnd.job.groups.find? fun g => g.1 == layer with
  | some g => (max 1 g.2.1, g.2.2)
  | none => (1, 0)

/-- The preferred stack and pseudo-channel of a page (R220). -/
def State.preferred (s : State) (layer head page : Nat) : Nat × Nat :=
  let e := (page / (s.attnGroup layer).1 + 32 * head + layer) % 256
  (e % 8, e / 8)

/-- Whether this module serves a page position of a layer slot under the shard rule (R213, R220). -/
def State.servesPage (s : State) (layer page : Nat) : Bool := page % (s.attnGroup layer).1 == (s.attnGroup layer).2

/-- A page's hold is released: its frame loses a holder, its spill copy goes, its entry is cleared. -/
def State.releasePage (s : State) (key : Nat) : State :=
  let p := s.pte key
  let s := if p.valid && !p.spilled then s.dropRef p.stack p.frame else s
  s.setPte key Pte.none

/-- Makes sure that the page at a key has a frame of its own to write to (R213, R226): a new frame marked
STAGED_ONLY, a copy of a shared one, or the one it has. The Bool says that the write may proceed. -/
def State.ownPage (s : State) (region key : Nat) : Bool × State :=
  let p := s.pte key
  let pref := s.preferred (keyLayer key) (keyHead key) (keyPage key)
  if !p.valid then
    match s.takeFrame region pref.1 pref.2 with
    | (some (k, f), s) => (true, s.setPte key { Pte.none with frame := f, stack := k, valid := true, stagedOnly := true })
    | (none, s) => (false, s)
  else if 1 < s.frameRef p.stack p.frame then
    match s.takeCopy region p.stack pref with
    | (some (k, f), s) =>
      let s := s.issueCopy k p.frame f
      let s := s.setPte key { p with frame := f, stack := k }
      (true, (s.dropRef p.stack p.frame).inc64 kvpCowCountLo 1)
    | (none, s) => (false, s)
  else (true, s)

/-- A new holder of the page at a key on a frame: the count rises, or, at 65,535, the holder receives a copy (R226). Answers the
frame held. -/
def State.shareFrame (s : State) (region key k f : Nat) : Option (Nat × Nat) × State :=
  if s.frameRef k f < 65535 then (some (k, f), s.setFrameRef k f (s.frameRef k f + 1))
  else match s.takeCopy region k (s.preferred (keyLayer key) (keyHead key) (keyPage key)) with
    | (some (k', f'), s) => (some (k', f'), (s.issueCopy k' f f').inc64 kvpCowCountLo 1)
    | (none, s) => (none, s)

/-! ## Commit and rollback (R225) -/

/-- A page entry after a commit at `count`: slots below it are no longer staged. -/
def Pte.commit (p : Pte) (page count : Nat) : Pte :=
  { p with staged := p.staged.filter fun o => decide (count ≤ 256 * page + o),
           stagedOnly := p.stagedOnly && decide (count ≤ 256 * page) }

/-- The KV of a stream's slots from `start` up to, not including, `stop` on this module: for each chain's resident page in order, each slot's 64
bytes of K, 64 of V and 8 of scales (R198, R199, R295). -/
def State.slotsKv (s : State) (stream start stop : Nat) : List Byte :=
  ((s.streamPtes stream).filter fun e => e.2.valid && !e.2.spilled).flatMap fun e =>
    ((List.range 256).filter fun o => decide (start ≤ 256 * keyPage e.1 + o ∧ 256 * keyPage e.1 + o < stop)).flatMap fun o =>
      s.rdMem (elemAddr e.2.stack e.2.frame + 64 * o) 64 ++ s.rdMem (elemAddr e.2.stack e.2.frame + 0x4000 + 64 * o) 64 ++
        s.rdMem (scaleAddr e.2.stack e.2.frame + 8 * o) 8

/-- The KV of the slots newly committed goes to the partner of a MIRROR class on VC2 (R295). -/
def State.mirrorSlots (s : State) (stream start count : Nat) : State :=
  if (s.cls (s.stream stream).cls).kvprot = 1 ∧ start < count then
    let out : MirrorOut := { partner := fld (s.rd wndKvpPartner) 19 0, stream := stream, start := start, stop := count, vc := 2,
                             kv := s.slotsKv stream start count }
    { s with wnd := { s.wnd with mirrorTx := s.wnd.mirrorTx ++ [out] } }
  else s

/-- The committed count of a stream advances, in one handshake for every chain (R225). -/
def State.commitStream (s : State) (stream count : Nat) : State :=
  let s := s.mirrorSlots stream (s.stream stream).committed count
  let s := s.each (s.streamPtes stream) fun s e => s.setPte e.1 ((s.pte e.1).commit (keyPage e.1) count)
  s.updStream stream fun t => { t with committed := max t.committed count }

/-- Staged slots are discarded and STAGED_ONLY frames freed; copies stay (R225). -/
def State.rollbackStream (s : State) (stream : Nat) : State :=
  s.each (s.streamPtes stream) fun s e =>
    if e.2.stagedOnly then s.releasePage e.1 else s.setPte e.1 { e.2 with staged := [] }

/-! ## Spill copies (R227) -/

/-- Nanoseconds of 24 h. -/
def dayNs : Nat := 86400000000000

/-- Whether the vault's park budget still takes `n` bytes: PARK_USED counts megabytes, PARK_BUDGET gigabytes (R309). -/
def State.parkUsedBytes (s : State) : Nat :=
  ((s.swap.parkUsed.filter fun x => decide (s.now < x.1 + dayNs)).map (·.2)).sum
def State.budgetTakes (s : State) (n : Nat) : Bool :=
  decide (s.parkUsedBytes + n ≤ fld (s.rd vaultParkBudget) 15 0 * 1000000000)

/-- Whether STORE_EP is valid and its path is UP. -/
def State.storeValid (s : State) : Bool := bit (s.rd wndStoreEp) 12
def State.storeUp (s : State) : Bool := s.storeValid && (s.adit (fld (s.rd wndStoreEp) 11 0)).state == .up

/-- The bytes of a spilled page. -/
def pageBytes : Nat := 0x8800

/-- Bytes written to the park area count against the budget of the last 24 h and in VAULT_WRITTEN (R309). -/
def State.chargeVault (s : State) (n : Nat) : State :=
  let s := { s with swap := { s.swap with parkUsed := s.swap.parkUsed ++ [(s.now, n)] } }
  s.inc64 vaultWrittenLo (n / 1000000)

/-- Where a move of `n` bytes to a target goes (R290, R309): 1 the vault while the budget takes it, else 2 storage when STORE_EP is valid; none
when refused, as the vault does with PARK_EN 0 (the VAULT page). -/
def State.movePlace (s : State) (target n : Nat) : Option Nat :=
  if target = 1 ∧ !(bit (s.rd vaultCtrl) 0) then none
  else if target = 1 ∧ s.budgetTakes n then some 1
  else if s.storeValid then some 2
  else none

/-- Where a spilled page goes: SPILL_TARGET of KVP_CTRL, with the budget rules of parking (R227, R290). -/
def State.spillTarget (s : State) : Option Nat := s.movePlace (fld (s.rd wndKvpCtrl) 9 8) pageBytes

/-- One page spilled: its 34 KiB move to the location of a new handle, its frame returns to the free list (R227). -/
def State.spillPage (s : State) (key : Nat) : State :=
  match s.spillTarget with
  | none => s
  | some t =>
    let p := s.pte key
    let h := s.freshHandle
    let s := s.wrMem (cageBase h) (s.frameBytes p.stack p.frame)
    let s := if t = 1 then s.chargeVault pageBytes else s
    let s := s.dropRef p.stack p.frame
    let s := s.setPte key { p with spilled := true, handle := h }
    (s.tookHandle h).inc kvpSpillCount 1

/-- One spilled page reloaded under R224 (R227); it stays spilled when no frame is free. -/
def State.reloadPage (s : State) (region key : Nat) : State :=
  let p := s.pte key
  let pref := s.preferred (keyLayer key) (keyHead key) (keyPage key)
  match s.takeFrame region pref.1 pref.2 with
  | (some (k, f), s) =>
    let s := s.putFrame k f (s.rdMem (cageBase p.handle) pageBytes)
    (s.setPte key { p with frame := f, stack := k, spilled := false, handle := 0 }).inc kvpReloadCount 1
  | (none, s) => s

/-- Whether a stream has a spilled page. -/
def State.hasSpilled (s : State) (stream : Nat) : Bool := (s.streamPtes stream).any fun e => e.2.spilled

/-! ## Position maps (R202, R203) -/

/-- The segment that holds a slot; END 0xFFFF_FFFF is open. -/
def PosSeg.holds (g : PosSeg) (j : Nat) : Bool := decide (g.first ≤ j ∧ (j < g.last ∨ g.last = 0xFFFFFFFF))

/-- Whether a slot is live (R202). -/
def PosMap.live (m : PosMap) (j : Nat) : Bool := m.segs.any (·.holds j)

/-- The position of a slot: its segment's offset, or the open segment's (R202). -/
def PosMap.posOf (m : PosMap) (j : Nat) : Nat :=
  let off : Int := match m.segs.find? (·.holds j) with
    | some g => g.offset
    | .none => (m.segs.getLast?.map (·.offset)).getD 0
  (((j : Int) + off) % 0x100000000).toNat

/-- A map of one open segment at offset 0, with the phases of its base (R203). -/
def openMap (base : Word) (dims : Nat) : PosMap :=
  { base := base, dims := dims, segs := [{ first := 0, last := 0xFFFFFFFF, offset := 0 }],
    phi := (List.range (dims / 2)).map (phiTurn base dims) }

/-- Whether segments are in order, do not overlap, have FIRST below END, and the last alone is open (R202). -/
def segsOk : List PosSeg → Bool
  | [] => false
  | [g] => g.last == 0xFFFFFFFF && decide (g.first < g.last)
  | g :: h :: t => g.last != 0xFFFFFFFF && decide (g.first < g.last ∧ g.last ≤ h.first) && segsOk (h :: t)

/-- Whether a map obeys R202: base finite and above 1.0, D even and at most 128, 1 to 16 segments as `segsOk`. -/
def PosMap.ok (m : PosMap) (nseg : Nat) : Bool :=
  isFin m.base && fLt 0x3F800000 m.base && m.dims % 2 == 0 && decide (m.dims ≤ 128) && decide (1 ≤ nseg ∧ nseg ≤ 16) && segsOk m.segs

end Sys2Proof.Machine
end

