-- ==== Sys2Proof/Machine/KvStack.lean ====
section
/-! DEFINITION. The stack command set (R209 to R217): the command block, its checks, ATTEND, APPEND and COPY,
and the DRAM events of a pseudo-channel (R228, R362, R368). -/

namespace Sys2Proof.Machine

/-! ## Command blocks (R209) -/

/-- Fields of a command block. -/
structure KvHdr where
  cmd : Nat
  staged : Bool
  causal : Bool
  qtok : Nat
  qheads : Nat
  stream : Nat
  head : Nat
  layer : Nat
  first : Nat
  last : Nat
  qslot : Nat
  scale : Word
  rsv : Bool
  deriving DecidableEq, Repr

/-- The header of a command block (R209). `rsv` says that some RSV field is not zero. -/
def kvHdr (bs : List Byte) : KvHdr :=
  let fl := leAt bs 1 1
  let st := leAt bs 4 4
  let ly := leAt bs 8 2
  { cmd := leAt bs 0 1, staged := bitAt fl 0, causal := bitAt fl 1, qtok := leAt bs 2 1, qheads := leAt bs 3 1,
    stream := bitsOf st 19 0, head := bitsOf st 23 20, layer := bitsOf ly 7 0, first := leAt bs 0x10 4, last := leAt bs 0x14 4,
    qslot := leAt bs 0x18 4, scale := BitVec.ofNat 32 (leAt bs 0x1C 4),
    rsv := fl / 4 != 0 || bitsOf st 31 24 != 0 || bitsOf ly 15 8 != 0 || leAt bs 0x0A 6 != 0 || leAt bs 0x20 32 != 0 }

/-- ROWS of R209. -/
def KvHdr.rows (h : KvHdr) : Nat := if h.cmd = 2 then 2 * h.qtok else h.qtok * h.qheads

/-- Row r's 64 element bytes, and its scale record (R209, R65). -/
def rowBytes (bs : List Byte) (r : Nat) : List Byte := (bs.drop (64 + 64 * r)).take 64
def rowRecord (bs : List Byte) (rows r : Nat) : Nat := leAt bs (64 + 64 * rows + 2 * r) 2

/-- The exponent of segment g of a record (R209). -/
def recExp (rec g : Nat) : Nat := rec % 256 + (if bitAt rec (8 + g) then 1 else 0)

/-- Whether an APPEND names a page that this module and stack do not hold (R213, R220): a page position of another shard, or a page whose frame is
another stack's. It is KVCMD_INVALID (DESIGN CHOICE, log entry 149: the manual names no cause for it). -/
def State.misdirected (s : State) (k : Nat) (h : KvHdr) : Bool :=
  let p := s.pte (pteKey h.stream h.layer h.head (h.first / 256))
  h.cmd == 2 && (!(s.servesPage h.layer (h.first / 256)) || (p.valid && !p.spilled && p.stack != k))

/-- The cause a command faults with, or 0 (R11, R56, R211, R213, R240). The refusal of R11 is met first, then the cases of
R211, then the region, then the stack's own state (DESIGN CHOICE, log entry 12: the manual gives the checks no order). -/
def State.kvCheck (s : State) (k : Nat) (c : KvCmd) : Nat :=
  let h := kvHdr c.bytes
  let rows := h.rows
  let recs := (List.range rows).map (rowRecord c.bytes rows)
  let t := s.stream h.stream
  if h.rsv || recs.any (fun r => bitsOf r 14 12 != 0) then rAbiMismatch
  else if (h.cmd ≠ 1 ∧ h.cmd ≠ 2) ∨ h.qtok = 0 ∨ 16 < h.qtok ∨ h.qheads = 0 ∨ 16 < h.qheads ∨ (h.cmd = 2 ∧ h.qheads ≠ 1)
      ∨ c.bytes.length ≠ 8 * (8 + 8 * rows + cdiv rows 8 * 2) ∨ h.last < h.first ∨ ¬ streamOk h.stream ∨ 7 < h.head
      ∨ recs.any (fun r => bitsOf r 11 10 != 0 || recExp r 0 > 0xFE || recExp r 1 > 0xFE)
      ∨ (h.cmd = 2 ∧ (h.first / 256 ≠ (h.last - 1) / 256 ∨ h.first < t.committed ∨ h.last - h.first ≠ h.qtok)) then causeKvcmdInvalid
  else if s.misdirected k h then causeKvcmdInvalid
  else if t.region ≠ c.region then rRegionViolation
  else if !(bit (s.rd (stackCtrl k)) 0) then causeStackOff
  else 0

/-! ## ATTEND (R212, R217) -/

/-- The chain's resident pages on stack `k`, ascending. -/
def State.chainPages (s : State) (k : Nat) (h : KvHdr) : List (Nat × Pte) :=
  s.kv.ptes.filter fun p =>
    p.1 / 0x1000000 == pteKey h.stream h.layer h.head 0 / 0x1000000 && p.2.valid && !p.2.spilled && p.2.stack == k

/-- Whether query token `t` reads slot `j` of a page (R212). -/
def State.readable (s : State) (h : KvHdr) (p : Pte) (t j : Nat) : Bool :=
  let st := s.stream h.stream
  decide (h.first ≤ j ∧ j < h.last) && st.pos.live j && (decide (j < st.committed) || (h.staged && p.staged.contains (j % 256))) &&
    !(h.causal && decide (h.qslot + t < j))

/-- The stored key and value of a slot, with its position (R198, R199). -/
def State.kvSlot (s : State) (p : Pte) (pos : PosMap) (j : Nat) : KvSlot :=
  let o := j % 256
  let lv (bs : List Byte) : List Int := (List.range 128).map fun d => elemLevel true (nibble bs d)
  let sc := s.rdMem (scaleAddr p.stack p.frame + 8 * o) 8
  { k := lv (s.rdMem (elemAddr p.stack p.frame + 64 * o) 64), v := lv (s.rdMem (elemAddr p.stack p.frame + 0x4000 + 64 * o) 64),
    ek := (sc.take 4).map (·.toNat), ev := (sc.drop 4).map (·.toNat), pos := pos.posOf j }

/-- Row r of a command as a query (R209). -/
def State.queryRow (s : State) (h : KvHdr) (bs : List Byte) (r : Nat) : QRow :=
  let t := r / h.qheads
  let rec1 := rowRecord bs h.rows r
  { levels := (List.range 128).map fun d => elemLevel true (nibble (rowBytes bs r) d),
    exps := [recExp rec1 0, recExp rec1 0, recExp rec1 1, recExp rec1 1],
    pos := (s.stream h.stream).pos.posOf (h.qslot + t), slot := h.qslot + t }

/-- One row's partial on a stack: runs in ascending first slot on each engine, engines in ascending pseudo-channel (R217,
R218). -/
def State.attendRow (s : State) (k : Nat) (h : KvHdr) (bs : List Byte) (r : Nat) : Partial :=
  let q := s.queryRow h bs r
  let pos := (s.stream h.stream).pos
  let pages := s.chainPages k h
  let engine (pc : Nat) : Partial :=
    foldPartials ((pages.filter fun p => p.2.frame % 32 == pc).flatMap fun p =>
      let slots := ((List.range 256).map (256 * keyPage p.1 + ·)).filter (s.readable h p.2 (r / h.qheads))
      (slotRuns slots).map fun run => runPartial h.scale pos.phi pos.dims q (run.map (s.kvSlot p.2 pos)))
  foldPartials ((List.range 32).map engine)

/-- The records of an ATTEND's rows, as bytes (R212, R216). -/
def State.attendBytes (s : State) (k : Nat) (bs : List Byte) : List Byte :=
  ((List.range (kvHdr bs).rows).map (s.attendRow k (kvHdr bs) bs)).flatMap Partial.bytes

/-- The pages that some row of the command reads. -/
def State.pagesRead (s : State) (k : Nat) (h : KvHdr) : List (Nat × Pte) :=
  (s.chainPages k h).filter fun p =>
    (List.range h.qtok).any fun t => (List.range 256).any fun o => s.readable h p.2 t (256 * keyPage p.1 + o)

/-- The element and scale pages that an ATTEND reads, as flat addresses and lengths (R178, R198, R199). -/
def State.attendPieces (s : State) (k : Nat) (bs : List Byte) : List (Nat × Nat) :=
  (s.pagesRead k (kvHdr bs)).flatMap fun p => [(elemAddr p.2.stack p.2.frame, 0x8000), (scaleAddr p.2.stack p.2.frame, 0x800)]

/-- Whether a page's pseudo-channel has faulted (R228). -/
def State.pageLost (s : State) (p : Pte) : Bool := bit (s.rd (stackPcFail p.stack)) (p.frame % 32)

/-- Whether a scale that an ATTEND reads holds the reserved 0xFF (R56, R199): a readable slot's four key or four value scales. -/
def State.scaleReserved (s : State) (h : KvHdr) (pages : List (Nat × Pte)) : Bool :=
  pages.any fun p => (List.range 256).any fun o =>
    ((List.range h.qtok).any fun t => s.readable h p.2 t (256 * keyPage p.1 + o)) &&
      (s.rdMem (scaleAddr p.2.stack p.2.frame + 8 * o) 8).contains 0xFF#8

/-- A stack answers a command (R208). -/
def State.kvReply (s : State) (c : KvCmd) (bytes : List Byte) (cause : Nat) : State :=
  let r : KvReply := { core := c.core, step := c.step, index := c.index, dst := c.dst, bytes := bytes, cause := cause, cmd := c.bytes }
  { s with kv := { s.kv with replies := s.kv.replies ++ [r] } }

/-- A stack's fault of a command: recorded, and answered with its cause (R195, R211). -/
def State.stackFault (s : State) (k : Nat) (c : KvCmd) (cause : Nat) : State :=
  (s.wr (stackLastFault k) (BitVec.ofNat 32 cause)).kvReply c [] cause

/-- The stack's next command leaves its queue (R214). -/
def State.kvPop (s : State) (k : Nat) (rest : List KvCmd) : State :=
  { s with kv := { s.kv with kvq := Table.set [] s.kv.kvq k rest } }

/-- An ATTEND's effect: a page on a faulted pseudo-channel makes it fault with PC_FAIL, a reserved scale with ABI_MISMATCH, else one record
per row goes to DST (R56, R212, R228). -/
def State.attend (s : State) (k : Nat) (c : KvCmd) : State :=
  let h := kvHdr c.bytes
  let pages := s.pagesRead k h
  if pages.any fun p => s.pageLost p.2 then s.stackFault k c causePcFail
  else if s.scaleReserved h pages then s.stackFault k c rAbiMismatch
  else
    ((s.inc64 (stackCmdCountLo k) 1).inc64 (stackPagesReadLo k) pages.length).kvReply c (s.attendBytes k c.bytes) 0

/-- An APPEND's effect: the page gets a frame of its own, and the K and V rows of each token their slots, which are staged
(R209, R213). -/
def State.appendKv (s : State) (k : Nat) (c : KvCmd) : State :=
  let h := kvHdr c.bytes
  let key := pteKey h.stream h.layer h.head (h.first / 256)
  let s := if (s.pte key).spilled then s.reloadPage c.region key else s
  if (s.pte key).spilled then s.stackFault k c rCapacity
  else if (s.pte key).valid && s.pageLost (s.pte key) then s.stackFault k c causePcFail
  else match s.ownPage c.region key with
  | (false, s) => s.stackFault k c rCapacity
  | (true, s) =>
    let p := s.pte key
    let s := s.each (List.range h.qtok) fun s t =>
      let o := (h.first + t) % 256
      let exps (r : Nat) : List Byte :=
        let rec1 := rowRecord c.bytes h.rows r
        [BitVec.ofNat 8 (recExp rec1 0), BitVec.ofNat 8 (recExp rec1 0), BitVec.ofNat 8 (recExp rec1 1), BitVec.ofNat 8 (recExp rec1 1)]
      let s := ((s.overwritten (elemAddr p.stack p.frame + 64 * o) 64).overwritten (elemAddr p.stack p.frame + 0x4000 + 64 * o) 64).overwritten
        (scaleAddr p.stack p.frame + 8 * o) 8
      let s := s.wrMem (elemAddr p.stack p.frame + 64 * o) (storedElems (rowBytes c.bytes (2 * t)))
      let s := s.wrMem (elemAddr p.stack p.frame + 0x4000 + 64 * o) (storedElems (rowBytes c.bytes (2 * t + 1)))
      s.wrMem (scaleAddr p.stack p.frame + 8 * o) (exps (2 * t) ++ exps (2 * t + 1))
    let slots := (List.range h.qtok).map fun t => (h.first + t) % 256
    let s := s.setPte key { p with staged := p.staged ++ slots.filter fun o => !(p.staged.contains o) }
    (s.inc64 (stackCmdCountLo k) 1).kvReply c [] 0

/-- The front command of a stack's queue, when ATTEND (or a reserved command, which either arm faults) or APPEND is next:
checked, then executed (R211, R214). -/
def State.runKv (s : State) (k : Nat) (append : Bool) : State :=
  match Table.get [] s.kv.kvq k with
  | [] => s
  | c :: rest =>
    if (kvHdr c.bytes).cmd = (if append then 1 else 2) then s
    else
      let s := s.kvPop k rest
      let cause := s.kvCheck k c
      if cause ≠ 0 then s.stackFault k c cause
      else if (kvHdr c.bytes).cmd = 2 then s.appendKv k c else s.attend k c

/-- ATTEND (R212): the stack takes the command at the front of its queue. -/
def execAttend (k : Nat) (s : State) : Host.Outcome State Fault Refusal := .next (s.runKv k false)

/-- APPEND (R213): the stack takes the command at the front of its queue. -/
def execAppend (k : Nat) (s : State) : Host.Outcome State Fault Refusal := .next (s.runKv k true)

/-- COPY (R210): the allocator or the cage engine copies a frame with its scale page; from any other endpoint the stack
faults it with KVCMD_INVALID (R211). -/
def execCopy (k src dst by_ : Nat) (s : State) : Host.Outcome State Fault Refusal :=
  .next (if by_ = epAlloc ∨ by_ = epCage then s.issueCopy k src dst
    else s.wr (stackLastFault k) (BitVec.ofNat 32 causeKvcmdInvalid))

/-! ## Faults of a pseudo-channel -/

/-- Streams with a page on a pseudo-channel. -/
def State.streamsOn (s : State) (k pc : Nat) : List Nat :=
  ((s.kv.ptes.filter fun p => p.2.valid && !p.2.spilled && p.2.stack == k && p.2.frame % 32 == pc).map fun p => keyStream p.1).dedup

/-- A stream ends its work with reason FAULT: the token in flight rolls back, the work list is discarded, and STREAM_DONE
is written (R262, R368). -/
def State.faultStream (s : State) (i : Nat) : State :=
  let s := s.rollbackStream i
  let t := s.stream i
  let tag := if t.generating then t.genTag else 0
  let s := s.setStream i { t with flying := none, work := [], generating := false, budget := 0,
                                  state := if t.state = .active then .idle else t.state }
  if s.isIngress then s.streamEvent i evStreamDone 0 6 tag (BitVec.ofNat 64 t.committed) else s

/-- PC_FAIL (R228, R368): the pseudo-channel is marked and reported. Streams with pages there hold when their class is
MIRROR or JOURNAL, until their KV is restored; a stream of any other class ends with reason FAULT. -/
def execPcFail (k pc : Nat) (s : State) : Host.Outcome State Fault Refusal :=
  let hit := s.streamsOn k pc
  let s := s.wrBit (stackPcFail k) pc true
  let s := s.wr (stackLastFault k) (BitVec.ofNat 32 causePcFail)
  let s := s.notify (mkNotice causePcFail (unitPc k pc) 0 (epStack k) ((s.epRegion (epStack k)).getD 0))
  .next (s.each hit fun s i =>
    let s := s.notify { cause := causePcFail, unit := 0, detail := 0, source := epStack k, stream := some i,
                        region := (s.stream i).region, time := 0, seq := 0 }
    if (s.cls (s.stream i).cls).kvprot = 1 ∨ (s.cls (s.stream i).cls).kvprot = 2 then s.updStream i fun t => { t with pcHold := true }
    else s.faultStream i)

/-- DRAM_ERROR (R362): corrected errors count in CE_COUNT and in the hour's count of the pseudo-channel, uncorrectable ones
in UE_COUNT; an uncorrectable error, and the passing of 1,000 corrected errors in the hour, count against the unit. -/
def execDramError (k pc count : Nat) (corrected : Bool) (s : State) : Host.Outcome State Fault Refusal :=
  .next (
    if corrected then
      let old := Table.get 0 s.kv.ceHour (32 * k + pc)
      let s := { s with kv := { s.kv with ceHour := Table.set 0 s.kv.ceHour (32 * k + pc) (old + count) } }.inc (stackCeCount k) count
      if old ≤ 1000 ∧ 1000 < old + count then s.countEvent (unitPc k pc) causePcFail 0 false else s
    else (s.inc (stackUeCount k) count).countEvent (unitPc k pc) causePcFail 0 false)

/-- A page on a lost pseudo-channel is restored into a frame taken under R224. -/
def State.restorePage (s : State) (region key : Nat) : State :=
  let p := s.pte key
  let pref := s.preferred (keyLayer key) (keyHead key) (keyPage key)
  match s.takeFrame region pref.1 pref.2 with
  | (some (k, f), s) =>
    ((s.putFrame k f (s.frameBytes p.stack p.frame)).dropRef p.stack p.frame).setPte key { p with frame := f, stack := k }
  | (none, s) => s

/-- KV_RESTORED (R297, R369, R374): a stream's pages lost with a pseudo-channel stand again in other frames, from the mirror
or the journal, up to a committed count; the stream runs on, and the report carries the count. -/
def execKvRestored (k pc stream count : Nat) (s : State) : Host.Outcome State Fault Refusal :=
  .next (
    let t := s.stream stream
    if t.state = .free then s
    else
      let s := s.rollbackStream stream
      let s := s.each ((s.streamPtes stream).filter fun e => e.2.valid && !e.2.spilled && e.2.stack == k && e.2.frame % 32 == pc)
        fun s e => s.restorePage t.region e.1
      let lost := decide (count < t.committed)
      let s := s.setStream stream
        { t with
          pcHold := false, flying := none, committed := min t.committed count, history := t.history.take count,
          pend := if lost then [] else t.pend, pendSampled := !lost && t.pendSampled }
      s.notify { cause := causeKvRestored, unit := unitPc k pc, detail := count, source := epStack k, stream := some stream,
                 region := t.region, time := 0, seq := 0 })

end Sys2Proof.Machine
end

