-- ==== Sys2Proof/Machine/Paging.lean ====
section
/-! DEFINITION. Position-map commits (R206, R207, R243), the commit of a stream's slots (R225, R247), and
spilling (R227). -/

namespace Sys2Proof.Machine

/-- A word of a staged map. -/
def State.stagedWord (s : State) (stream part word : Nat) : Word :=
  Table.get 0 (Table.get { words := [] } s.kv.stagedMaps stream).words (4 * part + word)

/-- The staged map of a stream as R243 lays it out, and its NSEG. -/
def State.stagedMap (s : State) (stream : Nat) : PosMap × Nat :=
  let h1 := s.stagedWord stream 16 1
  let base := s.stagedWord stream 16 0
  let dims := fld h1 7 0
  let nseg := fld h1 12 8
  let segs := (List.range nseg).map fun i =>
    { first := (s.stagedWord stream i 0).toNat, last := (s.stagedWord stream i 1).toNat, offset := (s.stagedWord stream i 2).toInt }
  ({ base := base, dims := dims, segs := segs, phi := (List.range (dims / 2)).map (phiTurn base dims) }, nseg)

/-- A stream's committed maps go to every module of the job once it has no token in flight (R206). -/
def State.sendMaps (s : State) (i : Nat) : State :=
  let due := s.kv.pending.filter fun p => p.stream == i && !p.sent
  if (s.stream i).flying.isSome || due.isEmpty then s
  else
    let s := s.each due fun s p => s.announce (.posmap i p.map p.free)
    { s with kv := { s.kv with pending := s.kv.pending.map fun p => if p.stream = i then { p with sent := true } else p } }

/-- A write of POSMAP_CMD with COMMIT by function `f`: REGION_VIOLATION for a stream of another region, POSMAP_BAD for
a map, stream or module that R243 rules out, else the map waits for installation (R206). -/
def State.commitMap (s : State) (f : Nat) (freeDead : Bool) : State :=
  let st := fld (s.rd kvpPosmapSel) 19 0
  let t := s.stream st
  let s := { s with kv := { s.kv with posBad := false } }
  if f ≠ 0 ∧ t.state ≠ .free ∧ s.vfRegion f ≠ some t.region then s.refuse kvpLastRefuse rRegionViolation
  else
    let (m, nseg) := s.stagedMap st
    if !(s.isIngress) || !(streamOk st) || t.state == .free || !(m.ok nseg) then { s with kv := { s.kv with posBad := true } }
    else
      let p : PendMap := { stream := st, map := m, free := freeDead, sent := false }
      State.sendMaps { s with kv := { s.kv with pending := s.kv.pending ++ [p] } } st

/-- POSMAP_COMMIT (R243): a write of POSMAP_CMD with COMMIT; without it the write does nothing. -/
def execPosmapCommit (f : Nat) (v : Word) (s : State) : Host.Outcome State Fault Refusal :=
  .next (if s.mayWrite f kvpPosmapCmd && bit v 0 then s.commitMap f (bit v 1) else s)

/-- FREE_DEAD (R207): a commit whose installation also frees the pages whose slots are all dead and committed. -/
def execFreeDead (f : Nat) (v : Word) (s : State) : Host.Outcome State Fault Refusal :=
  .next (if s.mayWrite f kvpPosmapCmd && bit v 0 then s.commitMap f true else s)

/-- The stream's pages whose slots are all dead and all below the committed count (R207). -/
def State.deadPages (s : State) (stream : Nat) : List (Nat × Pte) :=
  let t := s.stream stream
  (s.streamPtes stream).filter fun e =>
    e.2.valid && decide (256 * (keyPage e.1 + 1) ≤ t.committed) &&
      (List.range 256).all fun o => !(t.pos.live (256 * keyPage e.1 + o))

/-- POSMAP_INSTALL (R206, R207): with no token in flight and every module's acknowledgement of a map that has been sent, the stream's oldest
waiting map is installed; each module does so with its own. -/
def execPosmapInstall (stream : Nat) (s : State) : Host.Outcome State Fault Refusal :=
  .next (
    match s.kv.pending.find? fun p => p.stream == stream with
    | none => s
    | some p =>
      if (s.stream stream).flying.isSome || !p.sent then s
      else
        let s := { s with kv := { s.kv with pending := s.kv.pending.erase p } }
        let s := s.updStream stream fun t => { t with pos := p.map }
        if p.free then s.each (s.deadPages stream) fun s e => s.releasePage e.1 else s)

/-- The pages that may be spilled: resident, of a stream paused or parked and without a token in flight, in a frame with
one holder; lowest priority first (R227). -/
def State.spillCandidates (s : State) : List Nat :=
  let ok := s.kv.ptes.filter fun p =>
    let t := s.stream (keyStream p.1)
    p.2.valid && !p.2.spilled && (t.state == .paused || t.state == .parked) && t.flying.isNone &&
      s.frameRef p.2.stack p.2.frame == 1 && !(s.kv.reloading.contains (keyStream p.1))
  (List.range 8).reverse.flatMap fun pr =>
    (ok.filter fun p => (s.cls (s.stream (keyStream p.1)).cls).prio == pr).map (·.1)

/-- KVP_STATUS.SPILLING (R242): the cage engine is between LOW_WATER and HIGH_WATER, with spilling on. -/
def State.spillingNow (s : State) : Bool :=
  s.kv.spilling && bit (s.rd kvpCtrl) 0 && decide (s.totalFree < fld (s.rd kvpHighWater) 23 0)

/-- SPILL_START (R227): with fewer free frames than LOW_WATER and SPILL_EN 1, the cage engine spills candidate pages until
the free frames reach HIGH_WATER or no candidate is left; it goes on with spilling that has not reached HIGH_WATER. -/
def execSpillStart (s : State) : Host.Outcome State Fault Refusal :=
  .next (
    if bit (s.rd kvpCtrl) 0 ∧ (s.totalFree < fld (s.rd kvpLowWater) 23 0 ∨ s.kv.spilling) then
      let high := fld (s.rd kvpHighWater) 23 0
      let s := s.each s.spillCandidates fun s key => if s.totalFree < high then s.spillPage key else s
      { s with kv := { s.kv with spilling := decide (s.totalFree < high) } }
    else { s with kv := { s.kv with spilling := false } })

/-- SPILL_RELOAD (R227): every spilled page of a stream is reloaded under R224, while the winder holds the stream. -/
def execSpillReload (stream : Nat) (s : State) : Host.Outcome State Fault Refusal :=
  .next (
    let s := s.each ((s.streamPtes stream).filter fun e => e.2.spilled) fun s e => s.reloadPage (s.stream stream).region e.1
    let left := s.kv.reloading.filter fun i => i != stream
    { s with kv := { s.kv with reloading := if s.hasSpilled stream then left ++ [stream] else left } })

end Sys2Proof.Machine
end

