-- ==== Sys2Proof/Machine/Tree.lean ====
section
/-! DEFINITION. The prefix tree (R229 to R238, R244): nodes and their storage, hashes, matching, insertion,
eviction, pinning, and the PREFIX page's commands. -/

namespace Sys2Proof.Machine

/-- The stopes that hold an image: those of valid regions. -/
def State.imageStopes (s : State) : List Nat := (List.range 256).filter fun i => (s.stopeRegion i).isSome

/-- The bank that the module serves from in SINGLE mode: BANK_SEL of its lowest stope in a region (DESIGN CHOICE, log entry 34). -/
def State.leadStope (s : State) : Nat := s.imageStopes.headD 0
def State.servedBank (s : State) : Bool := bit (s.rd (planCtrl s.leadStope)) 1
def State.singleMode (s : State) : Bool := s.imageStopes.all fun i => !(bit (s.rd (planCtrl i)) 0)

/-- The bank that a stream runs on: in SINGLE mode the one served, in DUAL mode its tag (R113). -/
def State.streamBank (s : State) (t : Stream) : Bool := if s.singleMode then s.servedBank else t.bank

/-- No node (R229). -/
def noNode : Nat := 0xFFFFFF

/-- Whether the tree runs: ENABLE is 1, the module holds the ingress role and the node frames are reserved (R244). -/
def State.treeActive (s : State) : Bool :=
  bit (s.rd pfxCtrl) 0 && s.isIngress && s.kv.nodeFrames.length == fld (s.rd pfxNodeFrames) 19 0

/-- Nodes that the store holds (R244). -/
def State.nodeCap (s : State) : Nat := min (32 * fld (s.rd pfxNodeFrames) 19 0) 16777215

/-- The generation stamp of a bank (R230). -/
def State.genOf (s : State) (bank : Bool) : Nat := s.rd64 (if bank then pfxGenBLo else pfxGenALo)

/-- A node by its number. -/
def State.pnode (s : State) (n : Nat) : Option Node := (s.kv.nodes.find? fun p => p.1 == n).map (·.2)

/-- A node's 1 KiB (R229). -/
def Node.bytes (n : Node) : List Byte :=
  leBytes 8 n.hash.toNat ++ leBytes 4 n.parent ++ leBytes 4 n.depth ++ leBytes 4 n.next ++ leBytes 4 n.refs ++ leBytes 4 n.children ++
    leBytes 4 (1 + flag n.ready 1 + flag n.pinned 2) ++ leBytes 8 n.lastUse ++ leBytes 8 n.gen.toNat ++ List.replicate 208 0 ++
    n.tokens.flatMap fun t => leBytes 3 t

/-- The address of node n: 1 KiB × (n mod 32) of reserved frame ⌊n/32⌋. -/
def State.nodeAddr (s : State) (n : Nat) : Option Nat :=
  (s.kv.nodeFrames[n / 32]?).map fun key => elemAddr (key / 0x200000) (key % 0x200000) + n % 32 * 1024

/-- A node is written, in the walker's table and in its reserved frame. -/
def State.putNode (s : State) (n : Nat) (x : Node) : State :=
  let s := { s with kv := { s.kv with nodes := Table.put s.kv.nodes n x } }
  match s.nodeAddr n with
  | some a => s.wrMem a x.bytes
  | none => s

/-- A node changed by a function, if it is VALID. -/
def State.updNode (s : State) (n : Nat) (f : Node → Node) : State :=
  match s.pnode n with
  | some x => s.putNode n (f x)
  | none => s

/-- hash64 of R230: the first 8 bytes of SHA-256, read little-endian. -/
def blockHash (h : Nat) (tokens : List Nat) : Nat :=
  ofLe ((sha256 (leBytes 8 h ++ tokens.flatMap fun t => leBytes 3 t)).take 8)

/-- The head of a hash bucket: h [23:0] (R230). -/
def State.bucket (s : State) (h : Nat) : Nat := Table.get noNode s.kv.buckets (h % 0x1000000)
def State.setBucket (s : State) (h n : Nat) : State :=
  { s with kv := { s.kv with buckets := Table.set noNode s.kv.buckets (h % 0x1000000) n } }

/-- The search of one bucket for a block (R231): the node found, and how many nodes matched in HASH and PARENT with other
tokens. `ready` says that only READY nodes count. -/
def State.searchBucket (s : State) (gen h parent : Nat) (tokens : List Nat) (ready : Bool) : Nat → Nat → Nat → Option Nat × Nat
  | 0, _, c => (none, c)
  | fuel + 1, n, c =>
    match s.pnode n with
    | none => (none, c)
    | some x =>
      if (x.ready || !ready) && x.hash.toNat == h && x.parent == parent && x.gen.toNat == gen && x.tokens == tokens then (some n, c)
      else s.searchBucket gen h parent tokens ready fuel x.next
        (if x.hash.toNat = h ∧ x.parent = parent ∧ x.tokens ≠ tokens then c + 1 else c)

/-- The node that stands for a block after `parent`. -/
def State.findBlock (s : State) (gen h parent : Nat) (tokens : List Nat) (ready : Bool) : Option Nat × Nat :=
  s.searchBucket gen h parent tokens ready (s.kv.nodes.length + 1) (s.bucket h) 0

/-- The walk of R231 over full blocks: the nodes matched, in order, and the collisions met. -/
def State.walk (s : State) (gen : Nat) (ready : Bool) : List (List Nat) → Nat → Nat → List Nat × Nat
  | [], _, _ => ([], 0)
  | b :: bs, parent, h =>
    let h' := blockHash h b
    match s.findBlock gen h' parent b ready with
    | (some n, c) => let r := s.walk gen ready bs n h'; (n :: r.1, c + r.2)
    | (none, c) => ([], c)

/-- The full blocks of a token list. -/
def fullBlocks (tokens : List Nat) : List (List Nat) := (chunks 256 tokens).filter fun b => b.length == 256

/-- A stream takes a hold on a node's frames for its page position: whether each found a frame, and the machine (R226, R232). -/
def State.holdFrames (s : State) (stream : Nat) (x : Node) : Bool × State :=
  x.frames.foldl (fun acc fr =>
    let key := pteKey stream (fr.1 / 8) (fr.1 % 8) x.depth
    match acc.2.shareFrame (s.stream stream).region key (fr.2 / 0x200000) (fr.2 % 0x200000) with
    | (some (k, f), t) => (acc.1, t.setPte key { Pte.none with frame := f, stack := k, valid := true })
    | (none, t) => (false, t)) (true, s)

/-- The slots of a page position that a stream has matched become committed, and go to the mirror partner (R232, R295). -/
def State.commitMatched (s : State) (stream n : Nat) (tokens : List Nat) : State :=
  let s := s.mirrorSlots stream (s.stream stream).committed ((s.stream stream).committed + 256)
  s.updStream stream fun t =>
    { t with committed := t.committed + 256, history := t.history ++ tokens, node := some n, matched := t.matched ++ [n] }

/-- The stream matches a node: REFS and LAST_USE, the hold on its frames, and those slots committed (R232). None where a frame that must be copied
finds none, and the match ends before the node (R226; DEDUCED, log entry 151). -/
def State.holdNode (s : State) (stream n : Nat) (x : Node) : Option State :=
  match s.holdFrames stream x with
  | (true, s) => some ((s.updNode n fun y => { y with refs := y.refs + 1, lastUse := s.now }).commitMatched stream n x.tokens)
  | (false, _) => none

/-- The nodes of a walk are matched in order while they can be held: those held, and the machine. -/
def State.holdNodes (s : State) (stream : Nat) : List Nat → List Nat × State
  | [] => ([], s)
  | n :: ns => match (s.pnode n).bind (s.holdNode stream n) with
    | some s => let r := s.holdNodes stream ns; (n :: r.1, r.2)
    | none => ([], s)

/-- Whether no new match may start on a bank: the nodes of its previous generation wait for eviction (R237). -/
def State.matchHeld (s : State) (bank : Bool) : Bool := s.kv.prevGen.any fun g => g.1 == bank

/-- Whether the job has modules besides this one. -/
def State.jobOthers (s : State) : Bool := s.wnd.job.devices.any fun d => d != s.edge.devId

/-- APPEND_TOKENS' walk for a stream whose whole history consists of nodes (R231, R232, R288): the tokens that still need
prefill, and the machine. The other modules hear of the nodes matched, and the stream's first token holds until they have mapped them (R232).
Nodes matched for an item with PIN are pinned (R236). -/
def State.matchPrefix (s : State) (stream : Nat) (tokens : List Nat) (pin : Bool) : List Nat × State :=
  let t := s.stream stream
  let gen := s.genOf (s.streamBank t)
  let before := (fullBlocks t.history)
  let held := (s.walk gen false before noNode gen).1
  if !(s.treeActive) || !(t.pend.isEmpty) || t.history.length % 256 != 0 || held.length != before.length then (tokens, s)
  else
    let h := before.foldl blockHash gen
    let blocks := fullBlocks tokens
    let (found, c) := s.walk gen true blocks (held.getLast?.getD noNode) h
    let (ns, s) := s.holdNodes stream found
    let s := if ns.isEmpty then s else
      (s.announce (.matched stream ns (tokens.take (256 * ns.length)))).updStream stream fun t => { t with matchWait := s.jobOthers }
    let s := if pin then s.each ns fun s n => s.updNode n fun y => { y with pinned := true } else s
    let s := (s.inc64 pfxHitBlocksLo ns.length).inc pfxCollisionCount c
    let s := if ns.length < blocks.length then s.inc64 pfxMissBlocksLo 1 else s
    (tokens.drop (256 * ns.length), s)

/-- One bucket's list without a node: the node before it takes its NEXT. -/
def State.unlinkNode (s : State) (n : Nat) (x : Node) : State :=
  if s.bucket x.hash.toNat = n then s.setBucket x.hash.toNat x.next
  else match s.kv.nodes.find? fun p => p.2.next == n with
    | some (m, y) => s.putNode m { y with next := x.next }
    | none => s

/-- The streams that hold a node by number hold it no longer: their release of REFS skips it (R233). -/
def State.dropHolders (s : State) (n : Nat) : State :=
  s.each ((s.wnd.streams.filter fun p => p.2.matched.contains n).map (·.1)) fun s i =>
    s.updStream i fun t => { t with matched := t.matched.filter fun m => m != n }

/-- This module's hold on a node's frames goes, with the node's map (R235). -/
def State.unmapNode (s : State) (n : Nat) (x : Node) : State :=
  let s := s.each x.frames fun s fr => s.dropRef (fr.2 / 0x200000) (fr.2 % 0x200000)
  { s with kv := { s.kv with nodes := Table.del s.kv.nodes n } }.dropHolders n

/-- A node is evicted: it leaves its bucket, its parent loses a child, every module's hold on its frames is released, and no stream's
close lowers its REFS any more (R233, R235). -/
def State.evictNode (s : State) (n : Nat) : State :=
  match s.pnode n with
  | none => s
  | some x =>
    let s := s.unlinkNode n x
    let s := s.updNode x.parent fun y => { y with children := y.children - 1 }
    let s := match s.nodeAddr n with
      | some a => s.wrMem (a + 0x1C) (leBytes 4 0)
      | none => s
    ((s.unmapNode n x).announce (.evict n)).inc pfxEvictCount 1

/-- The node with the oldest LAST_USE among those with REFS 0, CHILDREN 0 and PINNED 0 (R235). -/
def State.evictionChoice (s : State) : Option Nat :=
  (s.kv.nodes.foldl (fun (best : Option (Nat × Node)) p =>
    if p.2.refs = 0 ∧ p.2.children = 0 ∧ p.2.pinned = false then
      (match best with
       | some b => if p.2.lastUse < b.2.lastUse then some p else some b
       | none => some p)
    else best) none).map (·.1)

/-- The lowest node number that no node has. -/
def State.freeNode (s : State) : Nat :=
  ((List.range (s.kv.nodes.length + 1)).find? fun n => (s.pnode n).isNone).getD s.kv.nodes.length

/-- A new node's frames: the stream's own, each with one holder more (R234). -/
def State.nodeHolds (s : State) (stream page : Nat) : List (Nat × Nat) × State :=
  ((s.streamPtes stream).filter fun e => keyPage e.1 == page && e.2.valid && !e.2.spilled).foldl (fun acc e =>
    match acc.2.shareFrame (s.stream stream).region e.1 e.2.stack e.2.frame with
    | (some (k, f), s') => (acc.1 ++ [(keyLayer e.1 * 8 + keyHead e.1, frameKey k f)], s')
    | (none, s') => (acc.1, s')) ([], s)

/-- A module that is not the ingress module maps a node to its own frames of a stream's page position (R229, R234). -/
def State.mapNode (s : State) (n stream page : Nat) : State :=
  let (frames, s) := s.nodeHolds stream page
  let x : Node := { hash := 0, parent := noNode, depth := page, next := noNode, refs := 0, children := 0, ready := false, pinned := false, lastUse := 0,
                    gen := 0, tokens := [], stream := stream, frames := frames }
  { s with kv := { s.kv with nodes := Table.put s.kv.nodes n x } }

/-- NODE_INSERT (R234, R235): the first full committed block of a stream whose earlier blocks are all nodes gets a node,
when it is not one already; a full store evicts, or the insertion is skipped. Where the node evicted is the block's own parent, the
earlier blocks are nodes no longer, and nothing is inserted. -/
def execNodeInsert (stream : Nat) (s : State) : Host.Outcome State Fault Refusal :=
  .next (
    let t := s.stream stream
    let gen := s.genOf (s.streamBank t)
    let blocks := (fullBlocks t.history).take (t.committed / 256)
    let known := (s.walk gen false blocks noNode gen).1
    if !(s.treeActive) || !(bit (s.rd pfxCtrl) 1) || known.length == blocks.length then s
    else
      let d := known.length
      let parent := known.getLast?.getD noNode
      let tokens := blocks.getD d []
      let h := blockHash ((blocks.take d).foldl blockHash gen) tokens
      let full := decide (s.nodeCap ≤ s.kv.nodes.length)
      match (if full then s.evictionChoice else some noNode) with
      | none => s.inc pfxInsertSkipCount 1
      | some v =>
        let s := if full then s.evictNode v else s
        if full && v == parent then s
        else
        let n := s.freeNode
        let (frames, s) := s.nodeHolds stream d
        let pin := t.pinRanges.any fun r => decide (r.1 ≤ 256 * d ∧ 256 * d + 256 ≤ r.2)
        let x : Node := { hash := BitVec.ofNat 64 h, parent := parent, depth := d, next := s.bucket h, refs := 0, children := 0,
                          ready := false, pinned := pin, lastUse := s.now, gen := BitVec.ofNat 64 gen, tokens := tokens,
                          stream := stream, frames := frames }
        let s := (s.putNode n x).setBucket h n
        let s := s.updNode parent fun y => { y with children := y.children + 1 }
        (s.updStream stream fun t => { t with node := some n }).announce (.node n stream d))

/-- NODE_READY (R234): every module has mapped the node. -/
def execNodeReady (n : Nat) (s : State) : Host.Outcome State Fault Refusal :=
  .next (s.updNode n fun x => { x with ready := true })

/-- After a swap on a bank, every node of the bank's previous generation is evicted (R237). -/
def State.genEvict (s : State) (bank : Bool) : State :=
  let gens := (s.kv.prevGen.filter fun g => g.1 == bank).map (·.2)
  let s := s.each ((s.kv.nodes.filter fun p => gens.contains p.2.gen).map (·.1)) State.evictNode
  { s with kv := { s.kv with prevGen := s.kv.prevGen.filter fun g => g.1 != bank } }

/-- The node that NODE_SEL selects. -/
def State.nodeSel (s : State) : Nat := fld (s.rd pfxNodeSel) 23 0

/-- PINNED of the selected node; a node that is not VALID stays as it is (R236). -/
def State.pinNode (s : State) (pin : Bool) : State := s.updNode s.nodeSel fun x => { x with pinned := pin }

/-- NODE_PIN (R236): PINNED sets on the selected node. -/
def execNodePin (f : Nat) (s : State) : Host.Outcome State Fault Refusal :=
  .next (if s.mayWrite f pfxNodeCmd then s.pinNode true else s)

/-- NODE_UNPIN (R236): PINNED clears on the selected node. -/
def execNodeUnpin (f : Nat) (s : State) : Host.Outcome State Fault Refusal :=
  .next (if s.mayWrite f pfxNodeCmd then s.pinNode false else s)

/-- PINNED clears on every node (R236). -/
def State.unpinNodes (s : State) : State := s.each (s.kv.nodes.map (·.1)) fun s n => s.updNode n fun x => { x with pinned := false }

/-- UNPIN_ALL (R236): a write of PFX_CTRL.UNPIN_ALL. -/
def execUnpinAll (f : Nat) (s : State) : Host.Outcome State Fault Refusal :=
  .next (if s.mayWrite f pfxCtrl then s.unpinNodes else s)

/-- A write of NODE_FIND (R236): NODE_SEL becomes the last node matched or inserted for the stream, or 0xFF_FFFF for none or for a
stream outside the writer's region. -/
def State.nodeFindWrite (s : State) (f : Nat) (v : Word) : State :=
  let t := s.stream (fld v 19 0)
  let mine := t.state != .free && (f == 0 || s.vfRegion f == some t.region)
  s.wr pfxNodeSel (BitVec.ofNat 32 (if mine then t.node.getD noNode else noNode))

/-- NODE_FIND (R236). -/
def execNodeFind (f : Nat) (v : Word) (s : State) : Host.Outcome State Fault Refusal :=
  .next (if s.mayWrite f pfxNodeFind then s.nodeFindWrite f v else s)

/-- The fields of PFX_CTRL besides ENABLE take their values, and UNPIN_ALL acts (R244). -/
def State.pfxOthers (s : State) (v : Word) : State :=
  let s := s.wrBit pfxCtrl 1 (bit v 1)
  if bit v 2 then s.unpinNodes else s

/-- `n` node frames are reserved, one after another. -/
def State.reserveFrames (s : State) (region : Nat) : Nat → State
  | 0 => s
  | n + 1 =>
    match s.takeFrame region 0 0 with
    | (some (k, f), s) => { s with kv := { s.kv with nodeFrames := s.kv.nodeFrames ++ [frameKey k f] } }.reserveFrames region n
    | (none, s) => s

/-- A write of PFX_CTRL with ENABLE 1 (R244): the node frames are reserved, or the enable is refused with CAPACITY when fewer free frames
remain. -/
def State.pfxEnableNow (s : State) (f : Nat) (v : Word) : State :=
  let s := s.pfxOthers v
  let frames := fld (s.rd pfxNodeFrames) 19 0
  if bit (s.rd pfxCtrl) 0 then s
  else if s.totalFree < frames then s.refuse pfxLastRefuse rCapacity
  else (s.wrBit pfxCtrl 0 true).reserveFrames (s.fnRegion f) frames

/-- A write of PFX_CTRL with ENABLE 0 (R244): every node is evicted and the reserved frames are freed. -/
def State.pfxDisableNow (s : State) (v : Word) : State :=
  let s := (s.pfxOthers v).wrBit pfxCtrl 0 false
  let s := s.each (s.kv.nodes.map (·.1)) State.evictNode
  let s := s.each s.kv.nodeFrames fun s key => s.dropRef (key / 0x200000) (key % 0x200000)
  { s with kv := { s.kv with nodeFrames := [] } }

/-- PFX_ENABLE (R244). -/
def execPfxEnable (f : Nat) (v : Word) (s : State) : Host.Outcome State Fault Refusal :=
  .next (if s.mayWrite f pfxCtrl then s.pfxEnableNow f v else s)

/-- PFX_DISABLE (R244). -/
def execPfxDisable (f : Nat) (v : Word) (s : State) : Host.Outcome State Fault Refusal :=
  .next (if s.mayWrite f pfxCtrl then s.pfxDisableNow v else s)

end Sys2Proof.Machine
end

