-- ==== Sys2Proof/Machine/Rings.lean ====
section
/-! DEFINITION. Submission rings (R251 to R259, R266): doorbells, the item at a ring's head and its checks, refusals of items,
the resets of rings, and the INGRESS message. -/

namespace Sys2Proof.Machine

/-- The number that names the control ring (R252). -/
def ctrlRing : Nat := 0xFFFFF

/-- A submission ring as its configuration and indices give it (R251). -/
structure SubRing where
  base : Nat
  size : Nat
  head : Nat
  tail : Nat
  fn : Nat
  deriving DecidableEq, Repr

/-- Ring `r`: a stream's, or the control ring. -/
def State.ring (s : State) (r : Nat) : SubRing :=
  if r = ctrlRing then
    { base := s.wnd.ctrlBase.toNat, size := s.wnd.ctrlSize, head := s.wnd.ctrlHead, tail := s.wnd.ctrlTail, fn := s.wnd.ctrlFn }
  else
    let t := s.stream r
    { base := t.ringBase.toNat, size := t.ringSize, head := t.head, tail := t.tail, fn := t.fn }

/-- A ring's indices and function written. -/
def State.setRing (s : State) (r head tail fn : Nat) : State :=
  if r = ctrlRing then { s with wnd := { s.wnd with ctrlHead := head, ctrlTail := tail, ctrlFn := fn } }
  else s.updStream r fun t => { t with head := head, tail := tail, fn := fn }

/-- Entries between HEAD and TAIL, modulo 4,096 (R251). -/
def SubRing.outstanding (q : SubRing) : Nat := (q.tail + 4096 - q.head) % 4096

/-- Entry n of a ring: 64 bytes at index n mod SIZE (R251). -/
def State.ringEntry (s : State) (q : SubRing) (n : Nat) : List Byte :=
  s.rdMem (hostBase + q.base + n % 4096 % q.size * 64) 64

/-- MORE of an entry's head (R252). -/
def entryMore (e : List Byte) : Bool := bitAt (leAt e 1 1) 0

/-- Entries up to and including the first whose MORE is 0, within `fuel` entries (R253). -/
def State.itemLen (s : State) (q : SubRing) : Nat → Nat → Option Nat
  | 0, _ => none
  | fuel + 1, k => if entryMore (s.ringEntry q (q.head + k)) then s.itemLen q fuel (k + 1) else some (k + 1)

/-- What the checks of R253 and R255 say of an item. -/
inductive ItemKind where
  | ok | reserved | malformed
  deriving DecidableEq, Repr

/-- A whole item at a ring's head: its entries' count, its first entry, and the 56-byte payloads of its continuation entries. -/
structure Item where
  kind : ItemKind
  n : Nat
  first : List Byte
  rest : List (List Byte)
  deriving DecidableEq, Repr

def Item.op (it : Item) : Nat := leAt it.first 0 1
def Item.tag (it : Item) : DWord := BitVec.ofNat 64 (leAt it.first 8 8)

/-- An argument field of `n` bytes at an offset of the first entry. -/
def Item.arg (it : Item) (o n : Nat) : Nat := leAt it.first o n

/-- Whether bytes [lo, hi) of an entry are zero. -/
def zeros (e : List Byte) (lo hi : Nat) : Bool := ((e.drop lo).take (hi - lo)).all fun b => b == 0

/-- Whether an entry's head has every RSV bit zero (R11, R252). -/
def headOk (e : List Byte) : Bool := decide (leAt e 1 1 < 2) && zeros e 2 4 && decide (leAt e 4 4 < 0x100000)

/-- The job's vocabulary size (VOCAB of the SAMPLER page). -/
def State.vocab (s : State) : Nat := fld (s.rd smpVocab) 23 0

/-! ## Lists of SET_SAMPLER (R282) -/

/-- The 8-byte bias records of an entry, padding included. -/
def biasRecs (p : List Byte) : List (Nat × Nat) := (chunks 8 p).map fun b => (leAt b 0 4, leAt b 4 4)

/-- The lists of a SET_SAMPLER item: biases, stop tokens and stop sequences. -/
def Item.biasEntries (it : Item) : Nat := cdiv (it.arg 0x2C 2) 7
def Item.stopEntries (it : Item) : Nat := cdiv (it.arg 0x2E 1) 14
def Item.biases (it : Item) : List (Nat × Word) :=
  (((it.rest.take it.biasEntries).flatMap biasRecs).take (it.arg 0x2C 2)).map fun b => (b.1, BitVec.ofNat 32 b.2)
def Item.stops (it : Item) : List Nat :=
  (((it.rest.drop it.biasEntries).take it.stopEntries).flatMap fun p => (chunks 4 p).map ofLe).take (it.arg 0x2E 1)
def Item.seqPayloads (it : Item) : List (List Byte) := it.rest.drop (it.biasEntries + it.stopEntries)
def seqTokens (p : List Byte) : List Nat := (List.range (leAt p 0 1)).map fun i => leAt p (4 + 3 * i) 3

/-- Whether a token ID of an item is one the model has and H1 can name (R3, R256). -/
def State.tokenIn (s : State) (v : Nat) : Bool := decide (v < s.vocab) && tokenOk v

/-- Whether the continuation entries of a SET_SAMPLER hold what R282 gives, with unused record space zero. -/
def State.listsOk (s : State) (it : Item) : Bool :=
  let nb := it.arg 0x2C 2
  let ns := it.arg 0x2E 1
  let nq := it.arg 0x2F 1
  let allB := (it.rest.take it.biasEntries).flatMap biasRecs
  let allS := ((it.rest.drop it.biasEntries).take it.stopEntries).flatMap fun p => (chunks 4 p).map ofLe
  decide (nb ≤ 256 ∧ ns ≤ 32 ∧ nq ≤ 8) && it.n == 1 + it.biasEntries + it.stopEntries + nq &&
    ((allB.take nb).all fun b => s.tokenIn b.1) && ((allB.drop nb).all fun b => b == (0, 0)) &&
    ((allS.take ns).all s.tokenIn) && ((allS.drop ns).all fun v => v == 0) &&
    it.seqPayloads.all fun p =>
      decide (1 ≤ leAt p 0 1 ∧ leAt p 0 1 ≤ 16) && zeros p 1 4 && ((seqTokens p).all s.tokenIn) &&
        zeros p (4 + 3 * leAt p 0 1) 56

/-! ## Arguments (R255, R256, R281) -/

/-- Whether an FP32 argument lies in 0 to 1.0. -/
def inUnit (w : Word) : Bool := isFin w && !(fLt w 0) && !(fLt 0x3F800000 w)

/-- The tokens of an APPEND_TOKENS: COUNT words of 4 bytes, at SRC or inline (R256). -/
def State.itemTokens (s : State) (it : Item) : List Nat :=
  let n := it.arg 0x10 4
  let src := it.arg 0x18 8
  (List.range n).map fun i => if src = 0 then it.arg (0x20 + 4 * i) 4 else ofLe (s.rdMem (hostBase + src + 4 * i) 4)

/-- A deadline argument: zero for NODL, else 1 to 0xFFFF_FFFE. -/
def deadlineOk (nodl : Bool) (v : Nat) : Bool := if nodl then v == 0 else decide (1 ≤ v ∧ v ≤ 0xFFFFFFFE)

/-- Whether a command's arguments lie in their ranges, with every unlisted byte zero (R11, R255, R256). -/
def State.argsOk (s : State) (it : Item) : Bool :=
  let e := it.first
  match it.op with
  | 0x01 =>
    it.n == 1 && decide (it.arg 0x10 1 < 64) && decide (it.arg 0x11 1 < 2) && zeros e 0x13 0x14 &&
      decide (it.arg 0x14 4 < 0x200000) && streamOk (it.arg 0x14 4 % 0x100000) && zeros e 0x18 0x40
  | 0x03 =>
    let p := it.arg 0x11 1
    let nodl := bitAt p 3
    it.n == 1 && decide (it.arg 0x10 1 < 64) && bitsOf p 5 4 != 3 && bitsOf p 7 6 != 3 && zeros e 0x12 0x14 &&
      decide (it.arg 0x14 4 ≤ 16384) && deadlineOk nodl (it.arg 0x18 4) && deadlineOk nodl (it.arg 0x1C 4) && zeros e 0x28 0x40
  | 0x04 =>
    let n := it.arg 0x10 4
    let src := it.arg 0x18 8
    it.n == 1 && decide (n ≤ 16777216) && decide (it.arg 0x14 4 < 4) && src % 4 == 0 && (src != 0 || decide (n ≤ 8)) &&
      (s.itemTokens it).all s.tokenIn
  | 0x05 => it.n == 1 && zeros e 0x14 0x40
  | 0x02 | 0x06 | 0x07 | 0x08 | 0x0A => it.n == 1 && zeros e 0x10 0x40
  | 0x09 => it.n == 1 && decide (it.arg 0x10 1 < 4) && zeros e 0x11 0x40
  | 0x0B =>
    let w (o : Nat) : Word := BitVec.ofNat 32 (it.arg o 4)
    isFin (w 0x10) && !(fLt (w 0x10) 0) && inUnit (w 0x14) && inUnit (w 0x18) && !(isNan (w 0x1C)) && fLt 0 (w 0x1C) &&
      isFin (w 0x20) && isFin (w 0x24) && decide (it.arg 0x28 2 ≤ 1024) && decide (it.arg 0x2A 2 ≤ 4096) &&
      decide (it.arg 0x38 4 < 2) && zeros e 0x3C 0x40 && s.listsOk it
  | 0x0C =>
    it.n == 1 && decide (it.arg 0x10 1 < 4) && zeros e 0x11 0x18 && it.arg 0x18 8 % 64 == 0 &&
      (it.arg 0x10 1 != 0 || it.arg 0x18 8 == 0) && zeros e 0x20 0x40
  | _ => false

/-! ## The item at a ring's head (R253) -/

/-- Whether the manual's service runs: READY or DRAIN (R422, R425). -/
def State.serving (s : State) : Bool := s.hf.pwr == .ready || s.hf.pwr == .drain

/-- Whether the ingress module may consume from a ring now: its role, the page's ENABLE, DMA (R450), and a work list with
room (R249). -/
def State.ringOpen (s : State) (r : Nat) : Bool :=
  s.isIngress && s.serving && s.enabled ringPage && !(s.quiescing ringPage) && s.dmaOn (s.ring r).fn &&
    (r == ctrlRing || decide ((s.stream r).work.length < 16))

/-- The item at the head of ring `r`, once TAIL covers all its entries (R253); an item of more than 64 entries is known by its
first 64. -/
def State.item (s : State) (r : Nat) : Option Item :=
  if !(s.ringOpen r) then none
  else
    let q := s.ring r
    let avail := min q.outstanding 64
    let len := s.itemLen q avail 0
    if q.outstanding = 0 ∨ (len.isNone ∧ avail < 64) then none
    else
      let n := len.getD 64
      let es := (List.range n).map fun k => s.ringEntry q (q.head + k)
      let first := es.headD []
      let rest := es.drop 1
      let it : Item := { kind := .ok, n := n, first := first, rest := rest.map fun e => e.drop 8 }
      let same (e : List Byte) : Bool := leAt e 0 1 == 0 && bitsOf (leAt e 4 4) 19 0 == bitsOf (leAt first 4 4) 19 0
      if leAt first 0 1 = 0 ∨ len.isNone ∨ !(rest.all same) then some { it with kind := .malformed }
      else if !(es.all headOk) || bitsOf (leAt first 4 4) 19 0 != r || (it.op == 3) != (r == ctrlRing) || !(s.argsOk it) then
        some { it with kind := .reserved }
      else some it

/-- An item is consumed: HEAD passes it, and it is counted. -/
def State.consume (s : State) (r : Nat) (it : Item) : State :=
  let q := s.ring r
  (s.setRing r ((q.head + it.n) % 4096) q.tail q.fn).inc64 ringItemCountLo 1

/-- LAST_REFUSE of the RING page: CODE, and the low bits of STREAM. -/
def State.ringRefuse (s : State) (r code : Nat) : State := s.wr ringLastRefuse (BitVec.ofNat 32 (code + r % 0x10000 * 0x10000))

/-- A REFUSED record on the ring's event ring (R262, R263). -/
def State.refusedEvent (s : State) (r code : Nat) (tag data : DWord) : State :=
  if r = ctrlRing then s.classEvent evRefused 0 code tag data else s.streamEvent r evRefused 0 code tag data

/-- A refused item is consumed and answered (R16, R253, R255, R257). A malformed item that opens with CONT has no TAG. -/
def State.refuseItem (s : State) (r : Nat) (it : Item) (code : Nat) : State :=
  ((s.consume r it).ringRefuse r code).refusedEvent r code (if it.op = 0 then 0 else it.tag) (BitVec.ofNat 64 it.op)

/-- A command's meaning on ring `r`: nothing unless a whole item with its opcode stands at the head; a reserved encoding is
refused (R255), a malformed item is left to ITEM_MALFORMED. -/
def State.onItem (s : State) (r op : Nat) (f : Item → State) : State :=
  match s.item r with
  | some it =>
    if it.op ≠ op then s
    else match it.kind with
      | .ok => f it
      | .reserved => s.refuseItem r it rAbiMismatch
      | .malformed => s
  | none => s

/-- ITEM_MALFORMED (R253). -/
def execItemMalformed (r : Nat) (s : State) : Host.Outcome State Fault Refusal :=
  .next (match s.item r with
    | some it => if it.kind = .malformed then s.refuseItem r it rAbiMismatch else s
    | none => s)

/-- ITEM_RESERVED_OPCODE (R255): a reserved opcode, an argument out of range, or a command on the wrong ring. -/
def execItemReservedOpcode (r : Nat) (s : State) : Host.Outcome State Fault Refusal :=
  .next (match s.item r with
    | some it => if it.kind = .reserved then s.refuseItem r it rAbiMismatch else s
    | none => s)

/-! ## Doorbells and resets -/

/-- Whether function `f` may name stream `r`: its region's jobs, or a context that is FREE (DEDUCED, log entry 29). -/
def State.ownsStream (s : State) (f r : Nat) : Bool :=
  f == 0 || r == ctrlRing || (s.stream r).state == .free || s.vfRegion f == some (s.stream r).region

/-- A FREE context belongs to the region of the function that last configured or rang its ring (DEDUCED, log entry 29). -/
def State.claim (s : State) (f r : Nat) : State :=
  if r ≠ ctrlRing ∧ (s.stream r).state = .free ∧ f ≠ 0 then s.updStream r fun t => { t with region := s.fnRegion f } else s

/-- A doorbell by function `f` (R251, R459): refused with ABI_MISMATCH without a settled ABI or for a stream beyond H1's range,
with REGION_VIOLATION outside the function's region, with CAPACITY beyond SIZE; else TAIL advances. -/
def State.doorbell (s : State) (f : Nat) (v : Word) : State :=
  let r := fld v 19 0
  let tail := fld v 31 20
  if (s.fn f).abiSel = 0 ∨ (r ≠ ctrlRing ∧ !(streamOk r)) then s.ringRefuse r rAbiMismatch
  else if !(s.ownsStream f r) then s.ringRefuse r rRegionViolation
  else
    let q := s.ring r
    if q.size < (tail + 4096 - q.head) % 4096 then s.ringRefuse r rCapacity
    else (s.setRing r q.head tail f).claim f r

/-- RING_DB (R251). -/
def execRingDb (f : Nat) (v : Word) (s : State) : Host.Outcome State Fault Refusal :=
  .next (if s.mayWrite f ringDb then s.doorbell f v else s)

/-- The unconsumed items of a ring, an incomplete one included. -/
def State.itemsLeft (s : State) (q : SubRing) : Nat :=
  let ends := (List.range q.outstanding).filter fun k => !(entryMore (s.ringEntry q (q.head + k)))
  let open_ := q.outstanding != 0 && entryMore (s.ringEntry q (q.head + q.outstanding - 1))
  ends.length + (if open_ then 1 else 0)

/-- No stream holds any longer for an OPEN_STREAM of ring `r` that names it as parent (R258). -/
def State.freeParent (s : State) (r : Nat) : State :=
  s.each ((s.wnd.streams.filter fun p => p.2.wantOpen == some r).map (·.1)) fun s i => s.updStream i fun t =>
    if t.wantOpen = some r then { t with wantOpen := none } else t

/-- A ring's unconsumed items are discarded and counted, and its indices are 0 (R266). -/
def State.resetRing (s : State) (r : Nat) : State :=
  let q := s.ring r
  ((s.inc ringItemDiscardCount (s.itemsLeft q)).setRing r 0 0 q.fn).freeParent r

/-- RING_RESET (R266). -/
def State.ringResetWrite (s : State) (f : Nat) (v : Word) : State :=
  let r := fld v 19 0
  if !(s.mayWrite f ringReset) then s
  else if r ≠ ctrlRing ∧ !(streamOk r) then s.ringRefuse r rAbiMismatch
  else if !(s.ownsStream f r) then s.ringRefuse r rRegionViolation
  else s.resetRing r

/-- RING_RESET (R266). -/
def execRingReset (f : Nat) (v : Word) (s : State) : Host.Outcome State Fault Refusal := .next (s.ringResetWrite f v)

/-- An event ring's held records are discarded and counted, its producer count is 0 and its PHASE 1 (R266). -/
def State.resetEvr (s : State) (i : Nat) : State :=
  let r := s.evr i
  (s.inc ringEvtDiscardCount r.held.length).setEvr i { r with held := [], tail := 0, phase := true, unsignalled := 0, oldest := none }

/-- EVR_RESET (R266). -/
def execEvrReset (f : Nat) (v : Word) (s : State) : Host.Outcome State Fault Refusal :=
  .next (if s.mayWrite f ringEvrReset then s.resetEvr (fld v 5 0) else s)

/-- A write of EVR_HEAD: the consumer count of the selected ring. -/
def State.evrHeadWrite (s : State) (f : Nat) (v : Word) : State :=
  if s.mayWrite f ringEvrHead then
    let i := fld (s.rd ringEvrSel) 5 0
    s.setEvr i { s.evr i with head := fld v 15 0 }
  else s

/-- EVR_HEAD_WRITE (R261). -/
def execEvrHeadWrite (f : Nat) (v : Word) (s : State) : Host.Outcome State Fault Refusal := .next (s.evrHeadWrite f v)

/-- INGRESS (R379, and the manual's text on ports 22 and 23): a front-end server's message. One unit carries a doorbell in bytes 0
to 3; a longer message an 8-byte ring address and a 64-byte entry (DESIGN CHOICE, log entry 28). Any other port discards it. -/
def execIngress (port : Nat) (fl : Flit) (s : State) : Host.Outcome State Fault Refusal :=
  .next (
    let s := s.takeFlit fl
    if portRole port ≠ 2 then s.inc (peligDiscardCount port) 1
    else if fl.payload.length ≤ 16 then s.doorbell 0 (BitVec.ofNat 32 (leAt fl.payload 0 4))
    else s.wrMem (hostBase + leAt fl.payload 0 8) ((fl.payload.drop 8).take 64))

end Sys2Proof.Machine
end

