-- ==== Sys2Proof/Machine/Classes.lean ====
section
/-! DEFINITION. Classes and admission (R267 to R273): the bound table, the factors P and F, the bounds B and B_ft, the search for
the least deadlines of a refusal, CLASS_CONFIG and the recomputation. Bounds are exact rationals in ns. -/

namespace Sys2Proof.Machine

/-! ## The bound table (R269) -/

/-- The table's entry at the first breakpoint at or above a context. -/
def State.boundRow (s : State) (x : Nat) : Option BoundRow := s.wnd.job.bounds.find? fun r => decide (x ≤ r.ctx)

/-- Cp and Ap of a prefill, at the first breakpoint at or above its length. -/
def prefillOf (r : BoundRow) (m : Nat) : Option (Nat × Nat) := (r.cp.find? fun p => decide (m ≤ p.1)).map (·.2)

/-- The refresh factor of a rate code (R215). -/
def refreshOf (code : Nat) : Rat := if code = 0 then 1 else if code = 1 then 26 / 25 else 28 / 25

/-- F: the largest refresh factor among the job's stacks: this module's, under the rates of the margin plan in force, and those reported by the
others (R143, R269). -/
def State.refreshF (s : State) : Rat :=
  ((List.range 8).map fun k => refreshOf (rateOf s.hf.plan.dramRate k)).foldl max (match s.wnd.view with
    | some v => refreshOf v.refresh
    | none => 1)

/-- Whether a stope inserts forced calibration or assay slots (WND_STATUS.FORCED_SLOTS). -/
def State.forcedNow (s : State) : Bool :=
  (s.stopes.any fun t => t.2.cal.forced && t.2.cal.phase != .idle) || s.tally.due.any fun d => d.forced

/-- Whether a stope of the job inserts forced slots (R273). -/
def State.jobForced (s : State) : Bool := s.forcedNow || s.wnd.view.any (·.forced)

/-- The lowest effective pace over the job's modules, less the measured share of forced slots while they run (R269, R273). -/
def State.paceCap (s : State) : Rat :=
  let own := s.effPace allPaced
  let p : Rat := (((match s.wnd.view with
    | some v => min own v.pace
    | none => own) : Nat) : Rat) / 16384
  if s.jobForced then p * (1 - ((Config.forcedShare s.now % 16384 : Nat) : Rat) / 16384) else p

/-- The admitted classes, by number. -/
abbrev ClassTable := List (Nat × Class)

/-- The admitted deadline classes. -/
def deadlineClasses (tbl : ClassTable) : ClassTable := tbl.filter fun p => p.2.admitted && !p.2.nodl

/-- Σ n_j·E(X_j)/D_j in µJ/ns (R270). -/
def State.energyRate (s : State) (tbl : ClassTable) : Rat :=
  ((deadlineClasses tbl).map fun p => match s.boundRow p.2.maxCtx with
    | some r => ((p.2.maxStreams * r.e : Nat) : Rat) / (p.2.tokDl : Nat)
    | none => 0).sum

/-- The least guaranteed dynamic power that the job's headframes report, in W (R270). -/
def State.leastPg (s : State) : Nat :=
  let own := fld (s.rd hfPgW) 15 0
  match s.wnd.view with
  | some v => min own v.pg
  | none => own

/-- The fabric's part of a bound in ns: the active routes' BOUNDs as the other modules last told them, else as the image has them (R269, R401). -/
def State.fabricNs (s : State) : Nat := match s.wnd.view with
  | some v => v.hf
  | none => s.wnd.job.hf

/-- P: the lesser of the effective pace and the energy factor (R269, R270); 1 µJ/ns is 1,000 W. -/
def State.factorP (s : State) (tbl : ClassTable) : Rat :=
  let e := s.energyRate tbl
  if e ≤ 0 then s.paceCap else min s.paceCap (((s.leastPg : Nat) : Rat) / (1000 * e))

/-- The terms of the set H of R269 for class `i` of priority `prio` and a window of `d` ns: core and stack ns, or none where a
class's context lies beyond the table. -/
def State.carryIn (s : State) (tbl : ClassTable) (i prio d : Nat) : Option (Nat × Nat) :=
  ((deadlineClasses tbl).filter fun p => p.1 != i && decide (p.2.prio ≤ prio)).foldlM (fun acc p =>
    (s.boundRow p.2.maxCtx).map fun r =>
      let k := cdiv d p.2.tokDl + 1
      (acc.1 + p.2.maxStreams * k * r.u, acc.2 + p.2.maxStreams * k * r.v)) (0, 0)

/-- B(c), or B_ft(c) with `first` (R269), at a given P; none where the table promises nothing. -/
def State.boundAt (s : State) (tbl : ClassTable) (p : Rat) (i : Nat) (c : Class) (first : Bool) : Option Rat :=
  match s.boundRow c.maxCtx with
  | none => none
  | some r =>
    let pre := if first then prefillOf r c.maxPrefill else some (0, 0)
    match pre, s.carryIn tbl i c.prio (if first then c.ftDl * 1000 else c.tokDl) with
    | some (cp, ap), some (hc, hs) =>
      if p ≤ 0 then none
      else
        let peers := 2 * (c.maxStreams - 1)
        let core : Rat := (r.c + cp + s.wnd.job.lb + hc + peers * r.u : Nat)
        let stack : Rat := (r.a + ap + hs + peers * r.v : Nat)
        some (core / p + s.refreshF * stack + (s.fabricNs : Nat))
    | _, _ => none

/-- Whether a bound lies within `d` ns. -/
def within (b : Option Rat) (d : Nat) : Bool := match b with
  | some x => decide (x ≤ (d : Rat))
  | none => false

/-- Whether class `i` meets both its deadlines (R271). -/
def State.meets (s : State) (tbl : ClassTable) (i : Nat) (c : Class) : Bool :=
  within (s.boundAt tbl (s.factorP tbl) i c false) c.tokDl && within (s.boundAt tbl (s.factorP tbl) i c true) (c.ftDl * 1000)

/-- The table with class `i` as `c`. -/
def withClass (tbl : ClassTable) (i : Nat) (c : Class) : ClassTable := Table.put tbl i c

/-- Whether every other class of `c`'s priority or lower meets its deadlines (R271). -/
def State.lowerMeet (s : State) (tbl : ClassTable) (i prio : Nat) : Bool :=
  ((deadlineClasses tbl).filter fun p => p.1 != i && decide (prio ≤ p.2.prio)).all fun p => s.meets tbl p.1 p.2

/-- Whether a deadline class is admitted as `c` (R271). -/
def State.admits (s : State) (i : Nat) (c : Class) : Bool :=
  let tbl := withClass s.wnd.classes i c
  s.meets tbl i c && s.lowerMeet tbl i c.prio

/-! ## The least admissible deadlines (R271) -/

/-- The largest deadline (R256), and what stands for none. -/
def maxDl : Nat := 0xFFFFFFFE
def noDl : Nat := 0xFFFFFFFF

/-- The least value of [lo, hi] at which a condition holds that stays true once true and is true at `hi`. -/
def bisect (p : Nat → Bool) : Nat → Nat → Nat → Nat
  | 0, _, hi => hi
  | fuel + 1, lo, hi =>
    if hi ≤ lo then hi
    else
      let mid := (lo + hi) / 2
      if p mid then bisect p fuel lo mid else bisect p fuel (mid + 1) hi

/-- The least TOK_DL from `t` on at which `fits` holds. Within a range that ends where a class's ⌈D/D_j⌉ steps, `fits` stays true
once true; past such a range the search goes on at the least value that `low`, a lower bound of B there, allows. -/
def tokSearch (fits : Nat → Bool) (ends : List Nat) (low : Nat → Nat) : Nat → Nat → Nat
  | 0, _ => noDl
  | fuel + 1, t =>
    if maxDl < t then noDl
    else
      let e := (ends.map fun d => cdiv t d * d).foldl min maxDl
      if fits e then bisect fits 33 t e
      else tokSearch fits ends low fuel (max (e + 1) (low (e + 1)))

/-- The least FT_DL from `t` on with B_ft within it; B_ft never falls as FT_DL grows. -/
def ftSearch (need : Nat → Option Nat) : Nat → Nat → Nat
  | 0, _ => noDl
  | fuel + 1, t =>
    if maxDl < t then noDl
    else match need t with
      | none => noDl
      | some b => if b ≤ t then t else ftSearch need fuel b

/-- The smallest TOK_DL that would be admitted with the other fields unchanged, or 0xFFFF_FFFF (R271). -/
def State.leastTok (s : State) (i : Nat) (c : Class) : Nat :=
  let cc (d : Nat) : Class := { c with tokDl := d }
  let tbl (d : Nat) : ClassTable := withClass s.wnd.classes i (cc d)
  let rest (d : Nat) : Bool :=
    within (s.boundAt (tbl d) (s.factorP (tbl d)) i (cc d) true) (c.ftDl * 1000) && s.lowerMeet (tbl d) i c.prio
  let fits (d : Nat) : Bool := within (s.boundAt (tbl d) (s.factorP (tbl d)) i (cc d) false) d
  let low (d : Nat) : Nat := match s.boundAt (tbl d) s.paceCap i (cc d) false with
    | some b => ratCeil b
    | none => noDl
  let ends := ((deadlineClasses s.wnd.classes).filter fun p => p.1 != i && decide (p.2.prio ≤ c.prio)).map fun p => p.2.tokDl
  if rest maxDl then tokSearch fits ends low 0x100000000 (bisect rest 33 1 maxDl) else noDl

/-- The smallest FT_DL that would be admitted with the other fields unchanged, or 0xFFFF_FFFF (R271). -/
def State.leastFt (s : State) (i : Nat) (c : Class) : Nat :=
  let tbl := withClass s.wnd.classes i c
  if within (s.boundAt tbl (s.factorP tbl) i c false) c.tokDl && s.lowerMeet tbl i c.prio then
    ftSearch (fun d => (s.boundAt tbl (s.factorP tbl) i { c with ftDl := d } true).map fun b => ratCeil (b / 1000)) 0x100000000 1
  else noDl

/-! ## Recomputation (R273) -/

/-- A bound as a 32-bit register holds it, in units of `unit` ns, rounded up. -/
def boundReg (b : Option Rat) (unit : Nat) : Nat := match b with
  | some x => min 0xFFFFFFFF (ratCeil (x / (unit : Rat)))
  | none => 0xFFFFFFFF

/-- One class's bounds as they are now: B(c) and B_ft(c). -/
def State.classBounds (s : State) (i : Nat) : Option Rat × Option Rat :=
  let tbl := s.wnd.classes
  let p := s.factorP tbl
  (s.boundAt tbl p i (s.cls i) false, s.boundAt tbl p i (s.cls i) true)

/-- One class's bounds anew: its registers, and AT_RISK with its record where records are written, or AT_RISK cleared (R273). -/
def State.recomputeClass (events : Bool) (s : State) (i : Nat) : State :=
  let c := s.cls i
  let (b, bf) := s.classBounds i
  let late := !(within b c.tokDl)
  let risk := late || !(within bf (c.ftDl * 1000))
  let s := s.setCls i { c with bound := boundReg b 1, ftBound := boundReg bf 1000, atRisk := risk }
  if risk && events then
    (s.classEvent evAtRisk 0 i 0 (BitVec.ofNat 64 (boundReg (if late then b else bf) 1 + s.hf.plan.seq % 0x100000000 * 0x100000000))).inc wndRiskCount 1
  else s

/-- Every deadline class's bounds anew, and PADM (R273, R298). -/
def State.recomputeWith (s : State) (events : Bool) : State :=
  let s := s.wr wndPadm (BitVec.ofNat 32 (min 0xFFFF (s.factorP s.wnd.classes * 16384).floor.toNat))
  s.each ((deadlineClasses s.wnd.classes).map (·.1)) (State.recomputeClass events)

/-- The recomputation of R273. -/
def State.recompute (s : State) : State := s.recomputeWith true

/-- Whether a bound of a deadline class is longer than the one last computed. -/
def State.boundsWorse (s : State) : Bool :=
  (deadlineClasses s.wnd.classes).any fun p =>
    let b := s.classBounds p.1
    decide (p.2.bound < boundReg b.1 1) || decide (p.2.ftBound < boundReg b.2 1000)

/-- The recomputation after a margin plan's adoption: one that only improves bounds writes no record (R147). -/
def State.replanBounds (s : State) : State := s.recomputeWith s.boundsWorse

/-- CLASS_RECOMPUTE (R273), at the ingress module. -/
def execClassRecompute (s : State) : Host.Outcome State Fault Refusal := .next (if s.isIngress then s.recompute else s)

/-! ## CLASS_CONFIG (R256, R268, R271, R272) -/

/-- The open streams of a class. -/
def State.classOpen (s : State) (i : Nat) : Nat := (s.wnd.streams.filter fun t => t.2.state != .free && t.2.cls == i).length

/-- The class that a CLASS_CONFIG describes. -/
def Item.cls (it : Item) : Class :=
  let p := it.arg 0x11 1
  { admitted := true, prio := bitsOf p 2 0, nodl := bitAt p 3, kvprot := bitsOf p 5 4, parkTarget := bitsOf p 7 6,
    maxStreams := it.arg 0x14 4, tokDl := it.arg 0x18 4, ftDl := it.arg 0x1C 4, maxCtx := it.arg 0x20 4,
    maxPrefill := it.arg 0x24 4, atRisk := false, bound := 0, ftBound := 0 }

/-- A class's configuration takes effect, and every module of the job gets it. -/
def State.installClass (s : State) (i : Nat) (c : Class) : State :=
  let s := s.setCls i c
  (s.announce (.classTable i c)).recompute

/-- CLASS_CONFIG (R271, R272): held in its ring while a job barrier runs (R320); a retirement, a best-effort class, or a deadline class that meets R271; otherwise refused, with
the deadlines that would be admitted. -/
def execClassConfig (r : Nat) (s : State) : Host.Outcome State Fault Refusal :=
  .next (if s.wnd.barrier then s else s.onItem r 0x03 fun it =>
    let i := it.arg 0x10 1
    let c := it.cls
    if c.maxStreams < s.classOpen i then (s.refuseItem r it rCapacity).refuse wndLastRefuse rCapacity
    else if c.maxStreams = 0 then (s.consume r it).installClass i Class.none
    else if c.nodl || s.admits i c then (s.consume r it).installClass i c
    else
      let data : DWord := BitVec.ofNat 64 (s.leastTok i c + s.leastFt i c * 0x100000000)
      (((s.consume r it).ringRefuse r rDeadline).refusedEvent r rDeadline it.tag data).refuse wndLastRefuse rDeadline)

end Sys2Proof.Machine
end

