-- ==== Sys2Proof/Machine/Canary.lean ====
section
/-! DEFINITION. The canary unit of a stope (R351 to R354): ranges, mean squares, learning, and its notices. -/

namespace Sys2Proof.Machine

/-- CANARY_MODE: 0 OFF, 1 LEARN, 2 CHECK (R353). -/
def State.canaryMode (s : State) (i : Nat) : Nat := fld (s.rd (checkCtrl i)) 5 4

/-- An unlearned entry: LO and HI both 0xFFFF (R375). -/
def unlearned : Word := 0xFFFFFFFF

/-- The key of channel i, or of run j, of a bank. -/
def canaryKey (bank : Bool) (i : Nat) : Nat := 16384 * (if bank then 1 else 0) + i
def canaryRunKey (bank : Bool) (j : Nat) : Nat := 256 * (if bank then 1 else 0) + j

/-- Whether a value lies outside an entry's bounds, BF16 LO in the low half and HI in the high (R351, R375). -/
def outside (entry v : Word) : Bool :=
  entry != unlearned && (fLt v (ofBf16 (fld entry 15 0)) || fLt (ofBf16 (fld entry 31 16)) v)

/-- An assay that is ordered (R339, R354). Kinds: 0 REF, 1 LIVE, 2 DRIFT, 3 XCHECK, 4 a pseudo-channel's. -/
def State.orderAssay (s : State) (kind unit : Nat) (bank : Bool) : State :=
  if s.tally.due.any fun d => d.kind == kind && d.unit == unit && d.bank == bank then s
  else
    let d : Due := { kind := kind, unit := unit, bank := bank, since := s.now, forced := false, retry := false, requested := false }
    { s with tally := { s.tally with due := s.tally.due ++ [d] } }

/-- A canary cause is noticed, with the first failing channel, at most once in 1 ms for a stope and cause, and a LIVE assay of
the channel's seam is ordered (R354). -/
def State.canaryNotice (s : State) (i cause channel : Nat) (bank : Bool) (stream : Option Nat) : State :=
  let last := Table.get 0 (s.stope i).canaryLast cause
  if last ≠ 0 ∧ s.now + 1 < last + 1000000 then s
  else
    let s := s.updStope i fun t => { t with canaryLast := Table.set 0 t.canaryLast cause (s.now + 1) }
    let s := s.notify { cause := cause, unit := 0, detail := channel, source := i, stream := stream, region := (s.stopeRegion i).getD 0, time := 0, seq := 0 }
    s.orderAssay 1 (unitSeam i (channel / 4096)) bank

/-- A channel's or run's recorded extremes with one more value (R353). -/
def learnWith (old : Option (Word × Word)) (v : Word) : Word × Word :=
  match old with
  | some (lo, hi) => (if fLt v lo then v else lo, if fLt hi v then v else hi)
  | none => (v, v)

/-- The recorded extremes of a key, if any. -/
def learned (t : Table (Word × Word)) (k : Nat) : Option (Word × Word) := (t.find? fun p => p.1 == k).map (·.2)

/-- The mean square of a run's elements, exact and rounded once (DESIGN CHOICE, log entry 18). -/
def meanSquare (ys : List Word) : Word := ofRat ((ys.map fun y => fRat y * fRat y).sum / (ys.length : Rat))

/-- The bit of an element's flags that says that it lies outside its channel's range (R351), beside those of its accumulator. -/
def rangeFlag : Nat := 5

/-- The flags of a descriptor's elements reach the canary unit (R75, R158). -/
def State.canaryFlags (s : State) (i : Nat) (flags : List Nat) : State := s.updStope i fun t => { t with elemFlags := flags }

/-- The canary unit sees the elements of one SCALE, from channel `first` on, with their flags (R351 to R354). -/
def State.canarySee (s : State) (i first : Nat) (bank : Bool) (ys : List Word) (flags : List Nat) (stream : Option Nat) : State :=
  let mode := s.canaryMode i
  let t := s.stope i
  let ranged (x : Nat × Word) : Bool := isFin x.2 && outside (Table.get unlearned t.canary (canaryKey bank x.1)) x.2
  let els := ys.zipIdx.map fun p => (first + p.2, p.1)
  let s := s.canaryFlags i (if mode = 2 then (flags.zip els).map fun p => p.1 ||| flag (ranged p.2) rangeFlag else flags)
  let nans := els.filter fun x => !(isFin x.2)
  let s := (s.inc (checkCanaryNanCount i) nans.length).inc (checkSuspectElemCount i) (flags.filter fun f => bitAt f 4).length
  let s := match nans with
    | x :: _ => s.canaryNotice i causeCanaryNan x.1 bank stream
    | [] => s
  -- a whole run: its 64 accumulators all lie in the descriptor's range
  let runs := ((List.range 256).filter fun j => decide (first ≤ 64 * j ∧ 64 * j + 64 ≤ first + ys.length)).map fun j =>
    (j, (ys.drop (64 * j - first)).take 64)
  let finRuns := runs.filter fun r => r.2.all isFin
  if mode = 2 then
    let out := els.filter ranged
    let bad := finRuns.filter fun r => outside (Table.get unlearned t.canaryRun (canaryRunKey bank r.1)) (meanSquare r.2)
    let s := (s.inc (checkCanaryRangeCount i) out.length).inc (checkCanaryStatsCount i) bad.length
    let s := match out with
      | x :: _ => s.canaryNotice i causeCanaryRange x.1 bank stream
      | [] => s
    match bad with
    | r :: _ => s.canaryNotice i causeCanaryStats (64 * r.1) bank stream
    | [] => s
  else if mode = 1 then
    s.updStope i fun t =>
      { t with learn := (els.filter fun x => isFin x.2).foldl (fun l x =>
                 Table.put l (canaryKey bank x.1) (learnWith (learned l (canaryKey bank x.1)) x.2)) t.learn,
               learnRun := finRuns.foldl (fun l r =>
                 Table.put l (canaryRunKey bank r.1) (learnWith (learned l (canaryRunKey bank r.1)) (meanSquare r.2))) t.learnRun }
  else s

/-- BF16 bounds of an entry from two FP32 values. -/
def bounds16 (lo hi : Word) : Word := BitVec.ofNat 32 (toBf16 lo + toBf16 hi * 0x10000)

/-- The bounds that LEARN to CHECK sets from the recorded extremes (R353): M in CANARY_MARGIN [15:0] as unsigned Q8.8, K in
[19:16]. -/
def State.setBounds (s : State) (i : Nat) : State :=
  let m : Rat := (fld (s.rd (checkCanaryMargin i)) 15 0 : Nat) / (256 : Rat)
  let k := fld (s.rd (checkCanaryMargin i)) 19 16
  s.updStope i fun t =>
    { t with
      canary := t.learn.foldl (fun c p =>
        let lo := fRat p.2.1
        let hi := fRat p.2.2
        Table.set unlearned c p.1 (bounds16 (ofRat (lo - m * (hi - lo))) (ofRat (hi + m * (hi - lo))))) t.canary,
      canaryRun := t.learnRun.foldl (fun c p =>
        Table.set unlearned c p.1 (bounds16 (fScale p.2.1 (-(k : Int))) (fScale p.2.2 k))) t.canaryRun,
      learn := [], learnRun := [] }

/-- A bank's canary tables go back to unlearned (R353). -/
def Stope.clearCanary (t : Stope) (bank : Bool) : Stope :=
  let keep (n : Nat) (k : Nat) : Bool := (decide (n ≤ k)) != bank
  { t with canary := t.canary.filter (fun p => keep 16384 p.1), canaryRun := t.canaryRun.filter (fun p => keep 256 p.1),
           learn := t.learn.filter (fun p => keep 16384 p.1), learnRun := t.learnRun.filter (fun p => keep 256 p.1) }

end Sys2Proof.Machine
end

