-- ==== Sys2Proof/Machine/Vector.lean ====
section
/-! DEFINITION. The local opcodes of the cores (R71, R72, R74 to R76, R155 to R160): DMA, DMA2D, FILL, LAUNCH, the
accumulator opcodes, SCALE, REQUANT and the vector opcodes. Each is a judgement of the descriptor and its effect. -/

namespace Sys2Proof.Machine

/-- A word whose bits above `n` must be zero is not. -/
def rsvAbove (w : Word) (n : Nat) : Bool := w.toNat / 2 ^ n != 0

/-! ## DMA (R155, R158, R178, R181, R201) -/

/-- The range of a destination, with the granules that take no write: a read-only granule takes them out of KV space alone (R181). -/
def State.dstRange (s : State) (c : Nat) (w : Word) (n : Nat) (fromKv : Bool) : Option Rng :=
  (s.rangeOf c w n).filter fun r => fromKv || !r.isPool || (r.wordList.all fun x => !(s.roWord x))

/-- A KV address word: stack, page, byte offset in the page (R155). -/
def kvPlace (w : Word) : Nat × Nat × Nat := (fld w 28 26, fld w 25 5, 1024 * fld w 4 0)

/-- Whether a KV range stays in its page (R156). -/
def kvFits (w : Word) (n : Nat) : Bool := decide ((kvPlace w).2.2 + 8 * n ≤ 0x8000)

/-- The element frames that a KV range belongs to: the frame of an element page, or those of a scale page's groups (R200). -/
def kvFrames (w : Word) (n : Nat) : List Nat :=
  let (_, p, o) := kvPlace w
  if p < framesPerStack then [p]
  else if 0x180000 ≤ p ∧ p < 0x180000 + framesPerStack / 16 then
    (List.range 16).filterMap fun i => if o < (i + 1) * 0x800 ∧ i * 0x800 < o + 8 * n then some (16 * (p - 0x180000) + i) else none
  else []

/-- Whether a stack takes a DMA write (R201): element frames or scale groups alone, each with one holder and in a chain of the
writer's region. -/
def State.kvWritable (s : State) (region k : Nat) (fs : List Nat) : Bool :=
  !fs.isEmpty && fs.all fun f =>
    s.frameRef k f == 1 && s.kv.ptes.any fun p =>
      p.2.valid && !p.2.spilled && p.2.stack == k && p.2.frame == f && (s.stream (keyStream p.1)).region == region

/-- The bytes that a stack stores for a write to a page: an element frame never takes 0b1000, whose place +0 takes (R55, R198). -/
def storedBytes (page : Nat) (bs : List Byte) : List Byte :=
  if page < framesPerStack then storedElems bs else bs

/-- A source of bytes: a local range, the result queue, or a KV range. `words` are the words read in order, where the range holds others,
and `pieces` the memory read, as flat addresses and lengths in bytes (R178). -/
structure Source where
  reads : List Rng
  bytes : State → List Byte
  kv : Option (Nat × Nat × Nat)
  words : Option (List Nat) := none
  pieces : List (Nat × Nat) := []

/-- The source of a DMA (R155, R158). -/
def State.dmaSource (s : State) (c : Nat) (w : Word) (n : Nat) : Option Source :=
  match spaceOf w with
  | 1 =>
    if c < 256 ∧ addrOf w < 4096 ∧ addrOf w + n ≤ 4096 then
      some { reads := [], kv := none,
             bytes := fun t => (List.range (2 * n)).flatMap fun i =>
               leBytes 4 (((t.stope c).queue[2 * addrOf w + i]?).getD (Config.queueWord (t.freeCtr + i))).toNat }
    else none
  | 5 =>
    let (k, p, o) := kvPlace w
    if kvFits w n && kvReadable p then some { reads := [], kv := some (k, p, o), bytes := fun t => t.rdKv k p o (8 * n), pieces := [(kvBase k p + o, 8 * n)] }
    else none
  | _ => (s.rangeOf c w n).bind fun r => if r.isOb then none else some { reads := [r], kv := none, bytes := fun t => t.rdRange c r, pieces := [(r.start, 8 * r.words)] }

/-- The channel of a remote write between cores (R28): VC1 for the traffic of merge cores and the stacks' replies, which are attention
partials, VC0 for activations and results between stopes. -/
def writeVc (src dest : Nat) : Nat := if 256 ≤ src ∨ 256 ≤ dest then 1 else 0

/-- The packets of a remote write: 240 bytes each at most (R28, R186). ADDR is the byte address in the endpoint's scratchpad
or core memory. -/
def netPackets (src dest byteAddr : Nat) (bs : List Byte) : List Packet :=
  (chunks 240 bs).zipIdx.map fun p =>
    { dest := dest, src := src, vc := writeVc src dest, region := 0, bytes := p.1.length, opcode := 0, timeHint := 0, addr := byteAddr + 240 * p.2,
      payload := p.1, device := 0 }

/-- The packets of a descriptor, or of none, go to the network; each waits at its source for its lane's credit (R33). -/
def State.sendFor (s : State) (owner : Option (Nat × Nat × Nat)) (ps : List Packet) : State :=
  s.each ps fun s p => s.injectFor owner { p with device := s.edge.devId }

/-- Packets that belong to no descriptor. -/
def State.sendPackets (s : State) (ps : List Packet) : State := s.sendFor none ps

/-- The descriptor that a core issues now, as the owner of its packets. -/
def State.ownerOf (s : State) (c index : Nat) : Option (Nat × Nat × Nat) := some (c, (s.core c).runId, index)

/-- Where an endpoint's remotely addressed memory ends, in 16-byte units (R155). -/
def netUnits (ep : Nat) : Nat := if ep < 256 then 65536 else 131072

/-- Packets of a transfer of `n` words (R28). -/
def transferPackets (n : Nat) : Nat := cdiv n packetWords

/-- What an operand buffer or a read-only granule records of a fill (R178, R181). -/
def State.noteFill (s : State) (c : Nat) (r : Rng) (src : Source) : State :=
  if r.isOb then
    let b := (r.start - obBase (c - 256) 0) / 0x4000
    s.updCore c fun t => { t with ob := setAt t.ob b fun _ => some { place := (r.start - obBase (c - 256) 0) % 0x4000, src := src.pieces, cmd := none } }
  else if r.isPool && r.wordList.any (s.roWord) then
    match src.kv with
    | some (k, p, _) =>
      let first := (r.start - poolBase) / 0x8000
      let last := (r.start - poolBase + 8 * r.words - 1) / 0x8000
      s.updCore 256 fun t => { t with roSource := (List.range (last + 1 - first)).foldl (fun m j => Table.put m (first + j) (k, p)) t.roSource }
    | none => s
  else s

/-- A copy of LEN words from a source to a destination word (DMA, and DMA2D's gathered rows). `w2` is DMA's word 2. -/
def State.copyJudge (s : State) (c : Nat) (d : Desc) (src : Source) (n : Nat) (allowFab : Bool) (w2 : Word) : Option (Nat ⊕ Act) :=
  match spaceOf d.w3 with
  | 3 =>
    let ep := fld d.w3 28 17
    if n % 2 = 1 ∨ netUnits ep ≤ fld d.w3 16 0 ∨ netUnits ep < fld d.w3 16 0 + n / 2 then none
    else some (.inr { reads := src.reads, writes := [], await := .packets (transferPackets n), run := id, words := src.words, early := true,
                      send := some (transferPackets n, fun i j t => t.sendFor (t.ownerOf c d.index)
                        (((netPackets (coreEp c) ep (16 * fld d.w3 16 0) (src.bytes t)).take j).drop i)) })
  | 4 =>
    let path := fld d.w3 28 17
    if n % 2 = 1 ∨ !allowFab ∨ 131072 < fld d.w3 16 0 + n / 2 then none
    else if (s.adit path).state = .down then some (.inl causeLinkDown)
    else if some (s.adit path).region ≠ s.coreRegion c then some (.inl rRegionViolation)
    else some (.inr { reads := src.reads, writes := [], await := .fab path (transferPackets n), run := id, words := src.words, early := true,
                      send := some (transferPackets n, fun i j t =>
                        t.fabSend path (((fabFlits 1 (writeVc (coreEp c) (fld w2 11 0)) (coreEp c) (fld w2 11 0) (fld d.w3 16 0) (src.bytes t)).take j).drop i)) })
  | 5 =>
    let (k, p, o) := kvPlace d.w3
    if !allowFab ∨ !kvFits d.w3 n then none
    else if s.coreRegion c ≠ s.epRegion (epStack k) then some (.inl rRegionViolation)
    else if !(s.kvWritable ((s.coreRegion c).getD 0) k (kvFrames d.w3 n)) then some (.inl causeKvWriteDenied)
    else some (.inr { reads := src.reads, writes := [], words := src.words,
                      run := fun t => (t.wrMem (kvBase k p + o) (storedBytes p (src.bytes t))).overwritten (kvBase k p + o) (8 * n) })
  | _ =>
    match s.dstRange c d.w3 n src.kv.isSome with
    | some r => some (.inr { reads := src.reads, writes := [r], words := src.words, run := fun t => (t.wrRange c r (src.bytes t)).noteFill c r src })
    | none => none

/-- A copy's judgement as the descriptor's: none is DESC_INVALID, a code is a fault. -/
def judgeCopy (rsv : Bool) (d : Desc) (j : Option (Nat ⊕ Act)) : Judged :=
  if rsv then .bad rAbiMismatch
  else match j with
    | none => .bad causeDescInvalid
    | some (.inl code) => if d.len = 0 then .act Act.empty else .late code
    | some (.inr a) => if d.len = 0 then .act Act.empty else .act a

/-- DMA (R158): a read of a stack that another region owns is the router's refusal (R43). -/
def State.dmaJudge (s : State) (c : Nat) (d : Desc) : Judged :=
  let rsv := d.func != 0 || (if spaceOf d.w3 = 4 then rsvAbove d.w2 12 else d.w2 != 0)
  match s.dmaSource c d.w1 d.len with
  | none => judgeCopy rsv d none
  | some src =>
    match src.kv with
    | some (k, _, _) =>
      if s.coreRegion c ≠ s.epRegion (epStack k) then judgeCopy rsv d (some (.inl rRegionViolation))
      else judgeCopy rsv d (s.copyJudge c d src d.len true d.w2)
    | none => judgeCopy rsv d (s.copyJudge c d src d.len true d.w2)

/-- DMA (R158). -/
def execDma (c : Nat) (e : List ReadErr) (s : State) : Host.Outcome State Fault Refusal := .next (s.issue c 0x01 e fun s d => s.dmaJudge c d)

/-- DMA2D (R158): row r starts r × stride words after word 1; LEN is a multiple of the row length; the source and destination are
local, or the destination NET. -/
def State.dma2dJudge (s : State) (c : Nat) (d : Desc) : Judged :=
  let row := fld d.w2 11 0
  let stride := fld d.w2 31 12
  let rows := if row = 0 then 0 else d.len / row
  let span := if rows = 0 then 0 else (rows - 1) * stride + row
  let ok := row != 0 && d.len % row == 0
  match (s.rangeOf c d.w1 span).filter fun r => !r.isOb with
  | none => judgeCopy (d.func != 0) d none
  | some r =>
    let unit := 8
    let src : Source := { reads := [r], kv := none,
                          words := if r.space = 1 then none else some ((List.range rows).flatMap fun i => (List.range row).map fun j => r.start / 8 + i * stride + j),
                          pieces := (List.range rows).map fun i => (r.start + 8 * (i * stride), 8 * row),
                          bytes := fun t => let bs := t.rdRange c r
                                            (List.range rows).flatMap fun i => (bs.drop (i * stride * unit)).take (row * unit) }
    judgeCopy (d.func != 0) d (if ok then s.copyJudge c d src d.len false 0 else none)

/-- DMA2D (R158). -/
def execDma2d (c : Nat) (e : List ReadErr) (s : State) : Host.Outcome State Fault Refusal :=
  .next (s.issue c 0x02 e fun s d => s.dma2dJudge c d)

/-- FILL (R158): LEN words of a 64-bit pattern. -/
def State.fillJudge (s : State) (c : Nat) (d : Desc) : Judged :=
  judgeWith (d.func != 0) d ((s.dstRange c d.w3 d.len false).map fun r =>
    { reads := [], writes := [r],
      run := fun t => t.wrRange c r ((List.replicate r.words (leBytes 4 d.w1.toNat ++ leBytes 4 d.w2.toNat)).flatten) })

/-- FILL (R158). -/
def execFill (c : Nat) (e : List ReadErr) (s : State) : Host.Outcome State Fault Refusal := .next (s.issue c 0x03 e fun s d => s.fillJudge c d)

/-! ## LAUNCH (R82, R90, R113, R160, R485) -/

/-- The bank a step's launch uses (R113). -/
def State.launchBank (s : State) (c : Nat) (r : Running) (d : Desc) : Bool :=
  if bit (s.rd (planCtrl c)) 0 then (if r.step.stream.isSome then r.step.bank else bitAt d.func 4) else bit (s.rd (planCtrl c)) 1

/-- Whether some promotion of the plan would bring an accumulator's weight above 8,192 (R71). -/
def Stope.weightOver (t : Stope) (seams : List Nat) (h : Word) (entries : List Word) : Bool :=
  let w := if hdrSegmented h then 4 else 1
  let odd := hdrSweep h || entries.any fun e => entPhase e == 1
  let even := hdrSweep h || entries.any fun e => entPhase e == 0
  seams.any fun k => (List.range 4096).any fun j =>
    (if j % 2 = 0 then even else odd) && decide (8192 < Table.get 0 t.weight (4096 * k + j) + w)

/-- The launch that a LAUNCH descriptor makes: checks 1 and 2 of R485 end it at once, else it waits (R90). A launch refused so writes CODE and
SLOT of PLAN_REFUSE, and 0 to its ENTRY and HDR, which nothing of the plan is at fault for (DESIGN CHOICE, log entry 145). -/
def State.makeLaunch (s : State) (c : Nat) (r : Running) (d : Desc) (seams : List Nat) (da : List Nat) (bs : List Byte) : State :=
  let t := s.stope c
  let slot := fld d.w2 4 0
  let (h, es) := s.slotPlan c slot
  let e2m1 := bit d.w2 5
  let bad := !(s.slotValid c slot) || t.weightOver seams h es
  let l : Launch :=
    { id := t.nextLaunch, seams := bitsOf d.func 3 0, slot := slot, bank := s.launchBank c r d, format := e2m1, da := da,
      stream := r.step.stream, index := d.index, running := false, left := 0, ended := bad, status := if bad then rPlanInvalid else 0,
      reruns := 0, hdr := h, entries := es, levels := (List.range (2 * bs.length)).map fun i => elemLevel e2m1 (nibble bs i),
      tau := (Table.get 0 t.tau (2 * slot), Table.get 0 t.tau (2 * slot + 1)) }
  let s := s.setStope c { t with launches := t.launches ++ [l], nextLaunch := t.nextLaunch + 1 }
  if bad then s.wr (planRefuse c) (BitVec.ofNat 32 (rPlanInvalid + slot * 0x10000)) else s

/-- Runs of adjacent seams in an ascending list, as the first seam and their number. -/
def seamRuns : List Nat → List (Nat × Nat)
  | [] => []
  | k :: ks => match seamRuns ks with
    | (j, n) :: rest => if j = k + 1 then (k, n + 1) :: rest else (k, 1) :: (j, n) :: rest
    | [] => [(k, 1)]

/-- The accumulator pairs of seams, one range for each run of adjacent ones (R155, R158). -/
def seamRngs (seams : List Nat) : List Rng := (seamRuns seams).map fun r => { space := 1, start := 4096 * r.1, words := 2048 * r.2 }

/-- LAUNCH (R83, R158, R160): LEN 16 words a named seam, and word 3 the first pair of the first named seam; the destination is the pairs of
every named seam (DESIGN CHOICE, log entry 134). -/
def State.launchJudge (s : State) (c : Nat) (da : List Nat) (d : Desc) : Judged :=
  let seams := maskBits 4 (bitsOf d.func 3 0)
  let act : Option Act :=
    if 256 ≤ c ∨ d.len ≠ 16 * seams.length ∨ 24 ≤ fld d.w2 4 0 ∨ spaceOf d.w1 ≠ 0 ∨ spaceOf d.w3 ≠ 2 ∨ addrOf d.w3 ≠ 2048 * seams.headD 0 then none
    else (s.rangeOf c d.w1 d.len).map fun a =>
      { reads := [a], writes := seamRngs seams, await := .launch (s.stope c).nextLaunch,
        run := fun t => match (t.core c).run with
          | some r => t.makeLaunch c r d seams da (t.rdRange c a)
          | none => t }
  judgeWith (rsvAbove d.w2 6) d act

/-- LAUNCH (R160). `da` holds, for each named seam ascending, the DA bits of its input slice, for a SEGMENTED plan (log entry 4). -/
def execLaunch (c : Nat) (e : List ReadErr) (da : List Nat) (s : State) : Host.Outcome State Fault Refusal :=
  .next (s.issue c 0x08 e fun s d => s.launchJudge c da d)

/-! ## Accumulators (R71, R158) -/

/-- The accumulators of an ACC range. -/
def Rng.accs (r : Rng) : List Nat := (List.range (2 * r.words)).map (r.start + ·)

/-- ACC_CLEAR (R71): accumulators, weights and flags to 0. -/
def State.accClearJudge (s : State) (c : Nat) (d : Desc) : Judged :=
  judgeWith (d.func != 0 || d.w1 != 0 || d.w2 != 0) d (((s.rangeOf c d.w3 d.len).filter fun r => r.space == 1).map fun r =>
    { reads := [], writes := [r],
      run := fun t => t.updStope c fun x =>
        { x with acc := r.accs.foldl (fun m i => Table.set 0 m i 0) x.acc, weight := r.accs.foldl (fun m i => Table.set 0 m i 0) x.weight,
                 accFlags := r.accs.foldl (fun m i => Table.set 0 m i 0) x.accFlags } })

/-- ACC_CLEAR (R71). -/
def execAccClear (c : Nat) (e : List ReadErr) (s : State) : Host.Outcome State Fault Refusal :=
  .next (s.issue c 0x09 e fun s d => s.accClearJudge c d)

/-- ACC_ADD (R71): INT32 values added modulo 2^32; the destination counts as WRITE only (R162). -/
def State.accAddJudge (s : State) (c : Nat) (d : Desc) : Judged :=
  judgeWith (d.func != 0 || d.w2 != 0) d
    (match (s.rangeOf c d.w1 d.len).filter (fun r => r.space == 0), (s.rangeOf c d.w3 d.len).filter (fun r => r.space == 1) with
     | some a, some b =>
       some { reads := [a], writes := [b], also := [b],
              run := fun t => t.wrRange c b (laneBytes (((t.rdLanes c a).zip (t.rdLanes c b)).map fun p => p.1 + p.2)) }
     | _, _ => none)

/-- ACC_ADD (R71). -/
def execAccAdd (c : Nat) (e : List ReadErr) (s : State) : Host.Outcome State Fault Refusal := .next (s.issue c 0x0A e fun s d => s.accAddJudge c d)

/-- ACC_READ (R158): accumulators copied to the scratchpad. -/
def State.accReadJudge (s : State) (c : Nat) (d : Desc) : Judged :=
  judgeWith (d.func != 0 || d.w2 != 0) d
    (match (s.rangeOf c d.w1 d.len).filter (fun r => r.space == 1), (s.rangeOf c d.w3 d.len).filter (fun r => r.space == 0) with
     | some a, some b => some { reads := [a], writes := [b], run := fun t => t.wrRange c b (t.rdRange c a) }
     | _, _ => none)

/-- ACC_READ (R158). -/
def execAccRead (c : Nat) (e : List ReadErr) (s : State) : Host.Outcome State Fault Refusal := .next (s.issue c 0x0B e fun s d => s.accReadJudge c d)

/-! ## SCALE and REQUANT (R72, R159) -/

/-- The bank whose scales a step's outputs take: in DUAL mode the stream's, else the active one (R64, R113; log entry 19). -/
def State.scaleBank (s : State) (c : Nat) : Bool :=
  match (s.core c).run with
  | some r => if bit (s.rd (planCtrl c)) 0 && r.step.stream.isSome then r.step.bank else (s.stope c).bank
  | none => (s.stope c).bank

/-- The layer output of an accumulator (R72): value and whether it saturated. -/
def Stope.output (t : Stope) (bank : Bool) (i ea : Nat) (fw fa : Bool) : Word × Bool :=
  let ew := Table.get 0 t.scales (16384 * (if bank then 1 else 0) + i) % 256
  fScaleSat (ofInt32 (Table.get 0 t.acc i)) ((ew : Int) + ea - 256 - (if fw then 1 else 0) - (if fa then 1 else 0))

/-- What scale records read from memory are refused with, or 0: a non-zero RSV field, or 0xFF as EA (R11, R56, R65). -/
def recordRefusal (recs : List Nat) : Nat := if recs.any fun r => bitsOf r 14 12 != 0 || r % 256 == 0xFF then rAbiMismatch else rNone

/-- SCALE (R72): FP32 outputs under the record's EA; values and flags go to the canary unit. -/
def State.scaleJudge (s : State) (c : Nat) (d : Desc) : Judged :=
  judgeWith (d.func / 4 != 0) d
    (match (s.rangeOf c d.w1 d.len).filter (fun r => r.space == 1), (s.rangeOf c d.w2 1).filter (fun r => r.space == 0),
           (s.rangeOf c d.w3 d.len).filter (fun r => r.space == 0) with
     | some a, some q, some b =>
       some { reads := [a, q], writes := [b], refuse := fun t => recordRefusal [leAt (t.rdRange c q) 0 2],
              run := fun t =>
                let bank := t.scaleBank c
                let ea := leAt (t.rdRange c q) 0 1
                let x := t.stope c
                let out := a.accs.map fun i => x.output bank i ea (bitAt d.func 0) (bitAt d.func 1)
                let flags := a.accs.zip out |>.map fun p => Table.get 0 x.accFlags p.1 ||| flag p.2.2 3
                let stream := (t.core c).run.bind fun r => r.step.stream
                (t.wrRange c b (laneBytes (out.map (·.1)))).canarySee c a.start bank (out.map (·.1)) flags stream }
     | _, _, _ => none)

/-- SCALE (R72). -/
def execScale (c : Nat) (e : List ReadErr) (s : State) : Host.Outcome State Fault Refusal := .next (s.issue c 0x0C e fun s d => s.scaleJudge c d)

/-- ROUND of R74. -/
def roundOf : Nat → Option Round
  | 0 => some .rneFeed
  | 1 => some .rne
  | 2 => some .rtz
  | _ => none

/-- What REQUANT writes (R75, R159): the packed elements, and with DERIVE the slices' records, padded to 16 bytes; and each element's flags,
SAT in bit 0 and NAN_IN in bit 1. -/
def requantOut (mode : Round) (e2m1 seg derive : Bool) (xs : List Word) (w2 : List Byte) : List Byte × List Nat :=
  let recs := cdiv xs.length 256
  let (ea, das) := if derive then deriveExps e2m1 seg (BitVec.ofNat 32 (leAt w2 0 4)) xs
    else (((leAt w2 0 1 : Nat) : Int) - 127, (List.range (4 * recs)).map fun g => seg && bitAt (leAt w2 (2 * (g / 4)) 2) (8 + g % 4))
  let out := quantRuns e2m1 mode 64 (fun j => ea + (if das.getD j false then 1 else 0)) xs
  let el := packNibbles (out.map (·.code))
  let rec16 := if derive then (List.range recs).flatMap fun i => leBytes 2 (scaleRecord ea ((das.drop (4 * i)).take 4) seg)
    else (w2.take (2 * recs))
  let all := el ++ rec16
  (all ++ List.replicate ((16 - all.length % 16) % 16) 0, out.map fun o => flag o.sat 0 + flag o.nanIn 1)

/-- REQUANT (R74, R75, R159). Without DERIVE the records at word 2 supply EA and DA, and only the elements are written. The elements' flags go
to the canary unit (R158). A reserved ROUND faults as a limit of the opcode does (DESIGN CHOICE, log entry 135). -/
def State.requantJudge (s : State) (c : Nat) (d : Desc) : Judged :=
  let derive := bitAt d.func 4
  let recs := cdiv (2 * d.len) 256
  let n := cdiv (d.len + (if derive then 2 * recs else 0)) 16 * 2
  let nOut := if derive then n else cdiv d.len 8
  judgeWith false d
    (match roundOf (bitsOf d.func 1 0), (s.rangeOf c d.w1 d.len).filter (fun r => r.space == 0),
           (s.rangeOf c d.w2 (if derive then 1 else max 1 (cdiv (2 * recs) 8))).filter (fun r => r.space == 0),
           (s.rangeOf c d.w3 nOut).filter (fun r => r.space == 0) with
     | some mode, some a, some q, some b =>
       some { reads := [a, q], writes := [b],
              refuse := fun t => if derive then rNone else recordRefusal ((List.range recs).map fun i => leAt (t.rdRange c q) (2 * i) 2),
              run := fun t =>
                let out := requantOut mode (bitAt d.func 2) (bitAt d.func 3) derive (t.rdLanes c a) (t.rdRange c q)
                (t.wrRange c b (if derive then out.1 else padTo (8 * nOut) (out.1.take d.len))).canaryFlags c out.2 }
     | _, _, _, _ => none)

/-- REQUANT (R159). -/
def execRequant (c : Nat) (e : List ReadErr) (s : State) : Host.Outcome State Fault Refusal :=
  .next (s.issue c 0x0D e fun s d => s.requantJudge c d)

/-! ## Elementwise opcodes (R73, R158) -/

/-- VBIN's operation. -/
def vbinOp : Nat → Option (Word → Word → Word)
  | 0 => some fAdd
  | 1 => some fSub
  | 2 => some fMul
  | 3 => some fMax
  | 4 => some fMin
  | _ => none

/-- The second operand of VBIN and VFMA: a range, or an FP32 scalar with FUNC [3]. -/
def State.secondOp (s : State) (c : Nat) (d : Desc) : Option (List Rng × (State → List Word)) :=
  if bitAt d.func 3 then some ([], fun _ => List.replicate (2 * d.len) d.w2)
  else (s.vecRange c d.w2 d.len).map fun r => ([r], fun t => t.rdLanes c r)

/-- VBIN (R158). -/
def State.vbinJudge (s : State) (c : Nat) (d : Desc) : Judged :=
  judgeWith (bitAt d.func 4) d
    (match vbinOp (bitsOf d.func 2 0), s.vecRange c d.w1 d.len, s.secondOp c d, (s.dstRange c d.w3 d.len false).filter (fun r => r.space != 1 && !r.isOb) with
     | some f, some a, some (rs, ys), some b =>
       some { reads := a :: rs, writes := [b],
              run := fun t => t.wrRange c b (laneBytes (((t.rdLanes c a).zip (ys t)).map fun p => f p.1 p.2)) }
     | _, _, _, _ => none)

/-- VBIN (R158). -/
def execVbin (c : Nat) (e : List ReadErr) (s : State) : Host.Outcome State Fault Refusal := .next (s.issue c 0x10 e fun s d => s.vbinJudge c d)

/-- VFMA (R158): d = a × b + d, rounded once (DESIGN CHOICE, log entry 20: the manual gives the expression, not its roundings). -/
def State.vfmaJudge (s : State) (c : Nat) (d : Desc) : Judged :=
  judgeWith (bitsOf d.func 2 0 != 0 || bitAt d.func 4) d
    (match s.vecRange c d.w1 d.len, s.secondOp c d, (s.dstRange c d.w3 d.len false).filter (fun r => r.space != 1 && !r.isOb) with
     | some a, some (rs, ys), some b =>
       some { reads := a :: rs, writes := [b], also := [b],
              run := fun t => t.wrRange c b (laneBytes ((((t.rdLanes c a).zip (ys t)).zip (t.rdLanes c b)).map fun p => fFma p.1.1 p.1.2 p.2)) }
     | _, _, _ => none)

/-- VFMA (R158). -/
def execVfma (c : Nat) (e : List ReadErr) (s : State) : Host.Outcome State Fault Refusal := .next (s.issue c 0x11 e fun s d => s.vfmaJudge c d)

/-- What VCVT makes of its source (R73, R158): LEN counts the source's words. -/
def vcvtBytes (k : Nat) (bs : List Byte) : List Byte :=
  match k with
  | 0 => laneBytes ((lanes bs).map ofInt32)
  | 1 => (lanes bs).flatMap fun x => leBytes 2 (toBf16 x)
  | 2 => (chunks 2 bs).flatMap fun b => leBytes 4 (ofBf16 (ofLe b)).toNat
  | _ => (lanes bs).flatMap fun x => leBytes 2 (toFp16 x)

/-- Words that VCVT writes. -/
def vcvtWords (k n : Nat) : Nat := match k with
  | 0 => n
  | 2 => 2 * n
  | _ => cdiv n 2

/-- VCVT (R158); LEN counts the source's words, whatever the destination's (DESIGN CHOICE, log entry 136). -/
def State.vcvtJudge (s : State) (c : Nat) (d : Desc) : Judged :=
  let k := bitsOf d.func 1 0
  let n := vcvtWords k d.len
  judgeWith (d.func / 4 != 0 || d.w2 != 0) d
    (match s.vecRange c d.w1 d.len, (s.dstRange c d.w3 n false).filter (fun r => r.space != 1 && !r.isOb) with
     | some a, some b => some { reads := [a], writes := [b], run := fun t => t.wrRange c b (padTo (8 * n) (vcvtBytes k (t.rdRange c a))) }
     | _, _ => none)

/-- VCVT (R158). -/
def execVcvt (c : Nat) (e : List ReadErr) (s : State) : Host.Outcome State Fault Refusal := .next (s.issue c 0x12 e fun s d => s.vcvtJudge c d)

/-- A result of an FP32 operation: any NaN is the canonical one (R73). -/
def canonNan (x : Word) : Word := if isNan x then qnan else x

/-- The FP32 sum of lanes, or with `sq` of their squares (R73, R158): fixed where every order of the additions gives the same, else a free
value (log entry 21): a NaN, or both infinities, give NaN; an infinity among squares stays; one lane, or a sum of two, has one order. -/
def sumLanes (xs : List Word) (sq : Bool) : Word :=
  if xs.any isNan then qnan
  else if sq then (if xs.any isInf then pInf else canonNan (Config.vredSum xs true))
  else if xs.contains pInf && xs.contains nInf then qnan
  else match xs with
    | [] => 0
    | [x] => x
    | [x, y] => fAdd x y
    | _ => canonNan (Config.vredSum xs false)

/-- VRED's result (R158): MAX and MAXABS exact; SUM and SUMSQ as `sumLanes`. -/
def vredValue (k : Nat) (xs : List Word) : Word :=
  match k with
  | 0 => sumLanes xs false
  | 1 => xs.foldl fMax (xs.headD 0)
  | 2 => xs.foldl (fun m x => fMax m (fAbs x)) 0
  | _ => sumLanes xs true

/-- VRED (R158): one word, the result in its first lane. -/
def State.vredJudge (s : State) (c : Nat) (d : Desc) : Judged :=
  judgeWith (d.func / 4 != 0 || d.w2 != 0) d
    (match s.vecRange c d.w1 d.len, (s.dstRange c d.w3 1 false).filter (fun r => r.space != 1 && !r.isOb) with
     | some a, some b =>
       some { reads := [a], writes := [b],
              run := fun t =>
                let v := vredValue (bitsOf d.func 1 0) (t.rdLanes c a)
                { t with freeCtr := t.freeCtr + 1 }.wrRange c b (laneBytes [v, Config.spareLane t.freeCtr]) }
     | _, _ => none)

/-- VRED (R158). -/
def execVred (c : Nat) (e : List ReadErr) (s : State) : Host.Outcome State Fault Refusal := .next (s.issue c 0x13 e fun s d => s.vredJudge c d)

/-- The segment of an NLF input (R158): ⌊256(x − lo)/(hi − lo)⌋ clamped to 0 to 255. -/
def nlfIndex (x lo hi : Word) : Nat :=
  if isFin x && isFin lo && isFin hi && fLt lo hi then (clampI 0 255 ((256 * (fRat x - fRat lo) / (fRat hi - fRat lo)).floor)).toNat
  else Config.nlfSegment x lo hi % 256

/-- An element of an NLF (R73, R158): slope × x + intercept, where one rounding and two agree; else a free value (log entry 21). -/
def nlfValue (x slope intercept : Word) : Word :=
  let once := fFma slope x intercept
  if once = fAdd (fMul slope x) intercept then once else canonNan (Config.nlfElem x slope intercept)

/-- NLF (R158): a table of 257 words at word 2; a segment's slope lies in the low lane and its intercept in the high one. -/
def State.nlfJudge (s : State) (c : Nat) (d : Desc) : Judged :=
  judgeWith (d.func != 0) d
    (match s.vecRange c d.w1 d.len, s.vecRange c d.w2 257, (s.dstRange c d.w3 d.len false).filter (fun r => r.space != 1 && !r.isOb) with
     | some a, some q, some b =>
       some { reads := [a, q], writes := [b],
              run := fun t =>
                let tab := t.rdLanes c q
                t.wrRange c b (laneBytes ((t.rdLanes c a).map fun x =>
                  let i := nlfIndex x (tab.getD 0 0) (tab.getD 1 0)
                  nlfValue x (tab.getD (2 * i + 2) 0) (tab.getD (2 * i + 3) 0))) }
     | _, _, _ => none)

/-- NLF (R158). -/
def execNlf (c : Nat) (e : List ReadErr) (s : State) : Host.Outcome State Fault Refusal := .next (s.issue c 0x14 e fun s d => s.nlfJudge c d)

/-- Whether x comes after y in a descending order: smaller, with a free order where a NaN stands (R158 names none). -/
def ranksBelow (x y : Word) : Bool := if isNan x || isNan y then Config.nanOrder x y else fLt x y

/-- Places an element after every one it does not beat: equal elements keep their index order (R158). -/
def insertRank (p : Word × Nat) : List (Word × Nat) → List (Word × Nat)
  | [] => [p]
  | q :: qs => if ranksBelow q.1 p.1 then p :: q :: qs else q :: insertRank p qs

/-- The k largest elements, largest first, ties toward the lower index. -/
def topK (k : Nat) (xs : List Word) : List (Word × Nat) := (xs.zipIdx.foldl (fun l p => insertRank p l) []).take k

/-- VTOPK (R158): k pairs of index and value; k = 0 writes nothing. -/
def State.vtopkJudge (s : State) (c : Nat) (d : Desc) : Judged :=
  judgeWith (d.w2 != 0) d
    (match s.vecRange c d.w1 d.len, (s.dstRange c d.w3 (min d.func (2 * d.len)) false).filter (fun r => r.space != 1 && !r.isOb) with
     | some a, some b =>
       if 16 < d.func then none
       else if d.func = 0 then some { reads := [a], writes := [], run := id }
       else some { reads := [a], writes := [b],
                   run := fun t => t.wrRange c b (laneBytes ((topK d.func (t.rdLanes c a)).flatMap fun p => [BitVec.ofNat 32 p.2, p.1])) }
     | _, _ => none)

/-- VTOPK (R158). -/
def execVtopk (c : Nat) (e : List ReadErr) (s : State) : Host.Outcome State Fault Refusal := .next (s.issue c 0x17 e fun s d => s.vtopkJudge c d)

end Sys2Proof.Machine
end

