-- ==== Sys2Proof/Machine/Steps.lean ====
section
/-! DEFINITION. Steps of a core (R152, R153, R171, R174): start, fetch, completion, the re-run of a descriptor, the step
watchdog (R347), and what a CANCEL or a retry discards (R192). -/

namespace Sys2Proof.Machine

/-- Bytes of the memory that holds a core's step programs: for a core under takeover the area in its buddy's (R169, R179, R349). -/
def State.progSize (s : State) (c : Nat) : Nat := if c < 256 then s.spSize c else 0x200000

/-- Where that memory stands in the flat memory. -/
def State.progBase (s : State) (c : Nat) : Nat := if c < 256 then s.spFor c else coreMemBase (c - 256)

/-- Whether a step must wait for the stope's buffer (R109): in AUTO mode, a converting step before READY. A step that is issued again
waits for a buffer that no disable is to take (R110). -/
def State.coldStep (s : State) (c : Nat) (t : Step) : Bool :=
  c < 256 && t.converting && s.refMode c == 0 && ((s.stope c).ref != .ready || (t.missed && (s.stope c).refDisable))

/-- STEP_START (R109, R113, R153): the core takes the next step of its issue queue once the one before has issued its LAST
descriptor; a converting step waits for the buffer, and its wait counts once in PREWARM_MISS_COUNT. A core fenced against ISSUE starts none (R48). -/
def execStepStart (c : Nat) (s : State) : Host.Outcome State Fault Refusal :=
  .next (
    match (s.core c).queue, (s.core c).run with
    | t :: rest, none =>
      if !(s.enabled (coreBase c)) || s.quiescing (coreBase c) || s.coreFenced c 0 then s
      else if s.coldStep c t then
        if t.missed then s
        else (s.updCore c fun k => { k with queue := { t with missed := true } :: rest }).inc (planPrewarmMissCount c) 1
      else s.updCore c fun k =>
        { k with queue := rest, nextStep := k.nextStep + 1, fetched := none, again := false,
                 run := some { id := k.nextStep, step := t, next := 0, lastSeen := false, started := s.now, fetchRetry := false, watched := false } }
    | _, _ => s)

/-- The opcodes of R157. -/
def opcodes : List Nat :=
  [0x01, 0x02, 0x03, 0x08, 0x09, 0x0A, 0x0B, 0x0C, 0x0D, 0x10, 0x11, 0x12, 0x13, 0x14, 0x15, 0x16, 0x17,
   0x20, 0x21, 0x22, 0x23, 0x24, 0x25, 0x30, 0x31, 0x32, 0x33, 0x34]

/-- The descriptor in 16 bytes (R154). -/
def descOf (index : Nat) (bs : List Byte) : Desc :=
  let w (i : Nat) : Word := BitVec.ofNat 32 (leAt bs (4 * i) 4)
  { index := index, w0 := w 0, w1 := w 1, w2 := w 2, w3 := w 3 }

/-- What the checks of a fetch count (R172): corrected errors as on any read, other errors by their kind; two or more bits poison the word. -/
def State.fetchErrors (s : State) (c : Nat) (e : List (Nat × Nat)) : State :=
  s.each e fun s x =>
    match x.2 with
    | 0 => s.inc (coreCe c) 1
    | 1 => s.inc (coreCheckbit c) 1
    | 2 => (s.inc (coreUe c) 1).setPoison x.1
    | _ => s.inc (coreParity c) 1

/-- DESC_FETCH (R152, R156, R157, R171): the next descriptor of the step in progress. A word that fails is fetched again once;
a second failure is PROG_LOST, and the headframe fences the core against ISSUE. -/
def execDescFetch (c : Nat) (e : List ReadErr) (s : State) : Host.Outcome State Fault Refusal :=
  .next (
    match (s.core c).run, (s.core c).fetched, (s.core c).rerun with
    | some r, none, none =>
      let a := r.step.prog + 16 * r.next
      if 4096 ≤ r.next then s.stepFault c r.id 4095 causeDescInvalid
      else if r.step.prog % 16 ≠ 0 ∨ s.progSize c < a + 16 then s.stepFault c r.id r.next causeDescInvalid
      else
        let flat := s.progBase c + a
        let mine := (s.readFaults [flat / 8, flat / 8 + 1] e).filter fun x => x.2 != 4
        let lost := mine.any fun x => decide (2 ≤ x.2)
        let s := s.fetchErrors c mine
        if lost && !r.fetchRetry then s.updCore c fun k => { k with run := some { r with fetchRetry := true } }
        else if lost then
          let s := s.updCore c fun k => { k with progLost := true }
          (s.stepFault c r.id r.next causeProgLost).fenceFor (coreBase c) 1 1
        else
          let d := descOf r.next (s.rdMem flat 16)
          if opcodes.contains d.op then
            s.updCore c fun k => { k with fetched := some d, again := false,
                                          run := some { r with next := r.next + 1, fetchRetry := false, lastSeen := d.last } }
          else s.stepFault c r.id r.next causeDescInvalid
    | _, _, _ => s)

/-! ## The end of a pass, and an error met there (R70, R172) -/

/-- An uncorrectable error in the result queue or the accumulator file at the end of a seam's pass: it is counted, the running plans' results are
discarded as under R111, and the step whose launch met it faults with ACC_UE (R172). -/
def State.passLost (s : State) (i k : Nat) : State :=
  let id := ((s.stope i).seq k).launch
  let s := (s.inc (coreUe i) 1).updStope i fun t => t.discardPlans [0, 1, 2, 3] causeRefLost
  match (s.core i).issued.find? fun x => x.await == .launch id with
  | some x => s.stepFault i x.step x.desc.index causeAccUe
  | none => s

/-- PASS_END (R70, R172, R333 to R338). -/
def execPassEnd (i : Nat) (e : SeamEnd) (s : State) : Host.Outcome State Fault Refusal :=
  .next (if s.passOver i e.seam then (if e.ue then s.passLost i e.seam else s.passEnd i e.seam) else s)

/-! ## Completion (R153, R160, R164, R174, R186) -/

/-- What an issued descriptor stands at: still at work, done, done with a cause, or ended by a cancel. -/
inductive Ending where
  | atWork | done | cause (code : Nat) | cancelled
  deriving DecidableEq, Repr

/-- How far a descriptor has come. A LAUNCH that ended with REF_LOST waits for its re-run once (R174). -/
def State.ending (s : State) (c : Nat) (i : Issued) : Ending :=
  let fin : Ending := if i.cause = 0 then .done else .cause i.cause
  match i.await with
  | .nothing => fin
  | .packets n => if n = 0 then fin else .atWork
  | .fab _ n => if n = 0 then fin else .atWork
  | .wopen _ _ => fin
  | .wclose _ => fin
  | .launch id =>
    (match (s.stope c).launch id with
     | some l =>
       if !l.ended then .atWork
       else if l.status = 0 then .done
       else if l.status = statusCancelled then .cancelled
       else if l.status = causeRefLost ∧ !i.again then .atWork
       else .cause l.status
     | none => .done)
  | _ => .atWork

/-- A descriptor leaves its core: its scoreboard entries retire, and a finishing step without descriptors is complete (R153, R164). -/
def Core.retire (t : Core) (i : Issued) : Core :=
  let issued := t.issued.erase i
  { t with issued := issued, finishing := t.finishing.filter fun r => issued.any fun x => x.step == r.id }

/-! ## Re-runs (R174, R178) -/

/-- The bytes that a fill brought, from its recorded source: the source ranges in order, or the stack's answer to its command block (R178). -/
def State.fillBytes (s : State) (f : Fill) : List Byte :=
  match f.cmd with
  | some (k, bs) => s.attendBytes k bs
  | none => f.src.flatMap fun p => s.rdMem p.1 p.2

/-- A buffer is filled again from its recorded source (R178). -/
def State.refill (s : State) (c w : Nat) : State :=
  let b := (8 * w - obBase (c - 256) 0) / 0x4000
  match (s.core c).ob.getD b none with
  | some f => s.wrMem (obBase (c - 256) b + f.place) ((s.fillBytes f).take (0x4000 - f.place))
  | none => s

/-- A LAUNCH that ended with REF_LOST is launched again on the same operands, on every seam it names and from its first pass; what a seam or pass
of it has promoted before the loss stands (R111, R174; DESIGN CHOICE, log entry 138). -/
def State.relaunch (s : State) (c : Nat) (i : Issued) (l : Launch) : State :=
  let t := s.stope c
  let n : Launch := { l with id := t.nextLaunch, running := false, left := 0, ended := false, status := 0, reruns := 0 }
  let s := s.setStope c { t with launches := (t.launches.filter fun x => x.id != l.id) ++ [n], nextLaunch := t.nextLaunch + 1 }
  (s.updCore c fun k => { k with issued := mapFirst (fun x => x == i) (fun x => { x with await := .launch t.nextLaunch, again := true }) k.issued }).inc
    (coreRerun c) 1

/-- The LAUNCH of a core that waits for its re-run, with its launch. -/
def State.lostLaunch (s : State) (c : Nat) : Option (Issued × Launch) :=
  (s.core c).issued.findSome? fun i => match i.await with
    | .launch id => ((s.stope c).launch id).bind fun l => if l.ended && l.status == causeRefLost && !i.again then some (i, l) else none
    | _ => none

/-- STEP_RERUN (R172, R174, R178): the descriptor that a parity mismatch stopped is issued again once; a mismatch again marks
the word bad and faults the step. With the buffer READY, a LAUNCH that ended with REF_LOST runs again. -/
def execStepRerun (c : Nat) (again : Bool) (s : State) : Host.Outcome State Fault Refusal :=
  .next (
    match (s.core c).rerun, (s.core c).run with
    | some (d, w), some r =>
      let inOb := decide (obBase 0 0 / 8 ≤ w ∧ w < poolBase / 8)
      let s := s.inc (coreRerun c) 1
      if again then
        let s := s.inc (coreParity c) 1
        if inOb then s.stepFault c r.id d.index causeObParity
        else
          let (ok, s) := s.markBad w
          s.stepFault c r.id d.index (if ok then causeSpWordBad else causeSpSparesOut)
      else (if inOb then s.refill c w else s).updCore c fun t => { t with rerun := none, fetched := some d, again := true }
    | _, _ =>
      match s.lostLaunch c with
      | some (i, l) => if (s.stope c).ref = .ready then s.relaunch c i l else s
      | none => s)

/-! ## The watchdog (R347) -/

/-- An assay that is ordered at once, without deferral (R336, R347). -/
def State.forceAssay (s : State) (kind unit : Nat) (bank : Bool) : State :=
  let s := s.orderAssay kind unit bank
  { s with tally := { s.tally with due := s.tally.due.map fun d =>
      if d.kind == kind && d.unit == unit && d.bank == bank then { d with forced := true } else d } }

/-- STEP_WATCHDOG_EXPIRY (R347): a step runs WATCH_MARGIN µs beyond its bound: STEP_LATE, and the cross-check at once. -/
def execStepWatchdogExpiry (c : Nat) (s : State) : Host.Outcome State Fault Refusal :=
  .next (
    let late (r : Running) : Bool :=
      !r.watched && decide (r.started + r.step.bound + fld (s.rd assayWatchMargin) 15 0 * 1000 ≤ s.now)
    match ((s.core c).run.toList ++ (s.core c).finishing).find? late with
    | none => s
    | some r =>
      let mark (x : Running) : Running := if x.id == r.id then { x with watched := true } else x
      let s := s.updCore c fun t => { t with run := t.run.map mark, finishing := t.finishing.map mark }
      let s := s.notify { cause := causeStepLate, unit := unitCore c, detail := r.next, source := coreEp c, stream := r.step.stream,
                          region := (s.coreRegion c).getD 0, time := 0, seq := 0 }
      s.forceAssay 3 (unitCore c) false)

/-! ## CANCEL and retry at the cores (R192) -/

/-- A stream's work on one core ends: queued steps, descriptors not yet issued, issued ones with their entries, and packets not sent yet
(R192). -/
def State.dropStreamCore (s : State) (c stream : Nat) : State :=
  let t := s.core c
  let ids := ((t.run.toList ++ t.finishing).filter fun r => r.step.stream == some stream).map (·.id)
  (s.each ids fun s id => s.dropStepOn c id).updCore c fun t => { t with queue := t.queue.filter fun x => x.stream != some stream }

/-- A stream's work on a core, and for a stope its plans, end (R116, R192). -/
def State.dropStreamOn (s : State) (c stream : Nat) : State :=
  let s := s.dropStreamCore c stream
  if c < 256 then s.cancelPlans c stream else s

/-- A stream's work on every core ends. -/
def State.dropStreamAll (s : State) (stream : Nat) : State :=
  let s := s.each (s.cores.map (·.1)) fun s c => s.dropStreamCore c stream
  s.each (s.stopes.map (·.1)) fun s i => s.cancelPlans i stream

end Sys2Proof.Machine
end

