-- ==== Sys2Proof/Machine/Reduce.lean ====
section
/-! DEFINITION. Cross-stope reductions and barriers (R158, R166 to R168, R488), NORM, and counters (R189 to R191). -/

namespace Sys2Proof.Machine

/-! ## Reductions (R166, R167) -/

/-- Two lanes of a 64-bit word. -/
def dLanes (d : DWord) : List Word := [BitVec.ofNat 32 d.toNat, BitVec.ofNat 32 (d.toNat / 0x100000000)]

/-- The 64-bit words of lanes. -/
def laneDs (ws : List Word) : List DWord := (chunks 2 ws).map fun p =>
  BitVec.ofNat 64 ((p.getD 0 0).toNat + (p.getD 1 0).toNat * 0x100000000)

/-- The lane operation of a reduction: SUM, MAX, MAXABS of FP32, SUM of INT32; 4 and 5 are the sums of a NORM (R158). -/
def redOp (op : Nat) (x y : Word) : Word :=
  match op with
  | 1 => fMax x y
  | 2 => fMax x (fAbs y)
  | 3 => x + y
  | _ => fAdd x y

/-- Operands combined in ascending stope index (R167). -/
def combineOps (op : Nat) : List (List Word) → List Word
  | [] => []
  | x :: xs => xs.foldl (fun a y => (a.zip y).map fun p => redOp op p.1 p.2) (if op = 2 then x.map fAbs else x)

/-- A reduction's packet on VC0 (R167): OPCODE 2 for an operand, 3 for a result, 4 for a faulted result. -/
def redPacket (src dest opcode : Nat) (data : List DWord) : Packet :=
  { dest := dest, src := src, vc := 0, region := 0, bytes := 8 * data.length, opcode := opcode, timeHint := 0, addr := 0,
    payload := data.flatMap fun d => leBytes 8 d.toNat, device := 0 }

/-- The root ends a reduction: its result, or a fault with GROUP_MISMATCH, goes to every member that its own register names (R167). -/
def State.endReduction (s : State) (root g : Nat) (r : Reduction) (fault : Bool) (data : List DWord) : State :=
  let s := s.updCore root fun t => { t with reductions := t.reductions.erase r }
  s.sendPackets ((groupStopes (s.redgrp root g)).map fun i => redPacket root i (if fault then 4 else 3) data)

/-- Whether a reduction has met an operand that faults it: one from outside the group, or, once the root's own descriptor has opened it, one
of another LEN (R167). -/
def Reduction.faulty (r : Reduction) : Bool := r.bad || (r.started && r.operands.any fun o => o.2.length != r.len)

/-- The root looks at its first open reduction of a group, in the order of the group's reductions (R166): a fault ends it, and with every
member's operand there it is combined (R167). -/
def State.tryReduce (s : State) (root g : Nat) : State :=
  match (s.core root).reductions.find? fun r => r.group == g with
  | none => s
  | some r =>
    let members := groupStopes (s.redgrp root g)
    if r.faulty then s.endReduction root g r true []
    else if r.started && members.all fun i => r.operands.any fun o => o.1 == i then
      let ops := members.filterMap fun i => (r.operands.find? fun o => o.1 == i).map fun o => o.2.flatMap dLanes
      s.endReduction root g r false (laneDs (combineOps r.op ops))
    else s

/-- The root looks at a group's reductions until one cannot end yet; `n` bounds how many end. -/
def State.endReductions (s : State) (root g : Nat) : Nat → State
  | 0 => s
  | n + 1 => (s.tryReduce root g).endReductions root g n

/-- Every reduction of a group that can end in its turn ends. -/
def State.settleGroup (s : State) (root g : Nat) : State := s.endReductions root g (s.core root).reductions.length

/-- How many reductions of a group a root has begun, and how many operands of a member it has taken (R166). -/
def Core.made (t : Core) (g : Nat) : Nat := Table.get 0 t.redMade g
def Core.seen (t : Core) (g src : Nat) : Nat := Table.get 0 t.redSeen (256 * g + src)

/-- Reduction number `n` of a group at its root, begun if it is the next one and changed; one that has ended stays ended (R166). -/
def Core.onReduction (t : Core) (g n : Nat) (f : Reduction → Reduction) : Core :=
  if n < t.made g then { t with reductions := t.reductions.map fun r => if r.group == g && r.num == n then f r else r }
  else { t with redMade := Table.set 0 t.redMade g (n + 1),
                reductions := t.reductions ++ [f { group := g, num := n, bad := false, step := 0, op := 0, len := 0, started := false, operands := [] }] }

/-- A member's operand: the nth of a member belongs to the nth reduction of the group (R166). -/
def Core.takeOperand (t : Core) (g src op : Nat) (data : List DWord) : Core :=
  let n := t.seen g src
  { t with redSeen := Table.set 0 t.redSeen (256 * g + src) (n + 1) }.onReduction g n fun r =>
    { r with operands := r.operands ++ [(src, data)], op := if r.started then r.op else op }

/-- The root's own XRED or NORM opens the group's first reduction that it has not opened yet: its own nth is the nth of the group (R166). -/
def Core.startReduction (t : Core) (g op len : Nat) : Core :=
  match t.reductions.find? fun r => r.group == g && !r.started with
  | some r => t.onReduction g r.num fun r => { r with started := true, op := op, len := len, step := t.runId }
  | none => t.onReduction g (t.made g) fun r => { r with started := true, op := op, len := len, step := t.runId }

/-- Whether an issued descriptor awaits the result of a group's reduction. -/
def Issued.awaitsGroup (i : Issued) (g : Nat) : Bool := match i.await with
  | .xred h _ => h == g
  | _ => false

/-- The oldest descriptor on a group has its result, or its fault (R167). -/
def Core.settleGroup (t : Core) (g : Nat) (fault : Bool) : Core :=
  let settle (x : Issued) : Issued := { x with await := .nothing, cause := if fault then causeGroupMismatch else 0 }
  { t with issued := mapFirst (fun x => x.awaitsGroup g) settle t.issued }

/-- A member sends its operand, and the root's own descriptor opens the reduction; one that had faulted before the member issued faults here
too (R167). -/
def State.sendOperand (s : State) (c g op : Nat) (data : List DWord) : State :=
  let root := groupRoot (s.redgrp c g)
  let lost := (s.core c).redFaults.contains g
  let s := if lost then s.updCore c fun t => { t with redFaults := t.redFaults.erase g }.settleGroup g true
           else if root = c then s.updCore c fun t => t.startReduction g op data.length else s
  let s := s.sendPackets [redPacket c root 2 data]
  if root = c then s.settleGroup c g else s

/-- XRED (R158, R167). LEN 0 completes at once, as with every opcode (R14, R156; DESIGN CHOICE, log entry 140). -/
def State.xredJudge (s : State) (c : Nat) (d : Desc) : Judged :=
  let g := bitsOf d.func 2 0
  judgeWith (d.w2 != 0) d
    (match s.vecRange c d.w1 d.len, (s.dstRange c d.w3 d.len false).filter (fun r => r.space != 1 && !r.isOb) with
     | some a, some b =>
       if 256 ≤ c ∨ 30 < d.len ∨ !(groupValid (s.redgrp c g)) then none
       else some { reads := [a], writes := [b], await := .xred g (groupRoot (s.redgrp c g)), early := true,
                   run := fun t => t.sendOperand c g (bitsOf d.func 4 3) (laneDs (t.rdLanes c a)) }
     | _, _ => none)

/-- XRED (R167). -/
def execXred (c : Nat) (e : List ReadErr) (s : State) : Host.Outcome State Fault Refusal := .next (s.issue c 0x16 e fun s d => s.xredJudge c d)

/-- The local sums of a NORM: the elements' and their squares' (R158; the order of the additions is free, log entry 21). -/
def normSums (xs : List Word) : DWord :=
  BitVec.ofNat 64 ((sumLanes xs false).toNat + (sumLanes xs true).toNat * 0x100000000)

/-- NORM (R158): the two sums are reduced over the group, and the elements follow once they are back. -/
def State.normJudge (s : State) (c : Nat) (d : Desc) : Judged :=
  let g := bitsOf d.func 2 0
  judgeWith (bitAt d.func 4) d
    (match s.vecRange c d.w1 d.len, (s.rangeOf c d.w2 d.len).filter (fun r => r.space == 0),
           (s.dstRange c d.w3 d.len false).filter (fun r => r.space != 1 && !r.isOb) with
     | some a, some q, some b =>
       if 256 ≤ c ∨ !(groupValid (s.redgrp c g)) then none
       else some { reads := [a, q], writes := [b], await := .xred g (groupRoot (s.redgrp c g)),
                   run := fun t => t.sendOperand c g (if bitAt d.func 3 then 5 else 4) [normSums (t.rdLanes c a)] }
     | _, _, _ => none)

/-- NORM (R158, R168). -/
def execNorm (c : Nat) (e : List ReadErr) (s : State) : Host.Outcome State Fault Refusal := .next (s.issue c 0x15 e fun s d => s.normJudge c d)

/-- An operand from a stope outside the group faults the group's first open reduction, or with none open its next one (R167; DESIGN CHOICE,
log entry 141). -/
def Core.foreignOperand (t : Core) (g : Nat) : Core :=
  let n := match t.reductions.find? fun r => r.group == g with
    | some r => r.num
    | none => t.made g
  t.onReduction g n fun r => { r with bad := true }

/-- XRED_OPERAND (R166, R167): the root takes a member's nth operand into the nth reduction of the group, and ends what can end; the operand of
a reduction that has ended is discarded. An operand from a stope outside its group faults a reduction at every member. -/
def execXredOperand (root src group op len : Nat) (data : List DWord) (s : State) : Host.Outcome State Fault Refusal :=
  let w := s.redgrp root group
  let outside := !(groupValid w) || !((groupStopes w).contains src)
  .next ((s.updCore root fun t => if outside then t.foreignOperand group else t.takeOperand group src op (data.take len)).settleGroup root group)

/-- An element of a NORM's output (R73, R158): NaN where an operand is, else a free value (log entry 21). -/
def normValue (x sum sq : Word) (n : Nat) (eps gain : Word) (layer : Bool) : Word :=
  if isNan x || isNan gain || isNan sq || isNan eps || (layer && isNan sum) then qnan else canonNan (Config.normElem x sum sq n eps gain layer)

/-- What a member writes when its reduction's result comes (R158, R167). -/
def State.reduceResult (s : State) (c : Nat) (d : Desc) (data : List DWord) : State :=
  match s.rangeOf c d.w3 d.len with
  | none => s
  | some b =>
    if d.op = 0x16 then s.wrRange c b (padTo (8 * d.len) ((data.take d.len).flatMap fun x => leBytes 8 x.toNat))
    else
      let sums := dLanes (data.headD 0)
      let n := 2 * d.len * (groupStopes (s.redgrp c (bitsOf d.func 2 0))).length
      let eps := s.rd (shellNormEps c)
      match s.rangeOf c d.w1 d.len, s.rangeOf c d.w2 d.len with
      | some a, some q =>
        s.wrRange c b (laneBytes (((s.rdLanes c a).zip (s.rdLanes c q)).map fun p =>
          normValue p.1 (sums.getD 0 0) (sums.getD 1 0) n eps p.2 (bitAt d.func 3)))
      | _, _ => s

/-- XRED_RESULT (R167): the member's oldest XRED or NORM on the group takes the result, or the fault GROUP_MISMATCH; a fault that comes before
the member has issued waits for its next one. -/
def execXredResult (c group : Nat) (fault : Bool) (data : List DWord) (s : State) : Host.Outcome State Fault Refusal :=
  .next (
    match (s.core c).issued.find? fun i => i.awaitsGroup group with
    | none => if fault then s.updCore c fun t => { t with redFaults := t.redFaults ++ [group] } else s
    | some i => (if fault then s else s.reduceResult c i.desc data).updCore c fun t => t.settleGroup group fault)

/-! ## Barriers (R158, R165, R488) -/

/-- BARRIER (R158): the member announces itself to the group's root and waits. -/
def State.barrierJudge (s : State) (c : Nat) (d : Desc) : Judged :=
  let g := bitsOf d.func 2 0
  let w := s.redgrp c g
  if bitsOf d.func 4 3 != 0 || d.w1 != 0 || rsvAbove d.w2 8 || d.w3 != 0 then .bad rAbiMismatch
  else if 256 ≤ c ∨ !(groupValid w) then .bad causeDescInvalid
  else .act { reads := [], writes := [], await := .barrier g (fld d.w2 7 0),
              run := fun t => t.send (t.ctlMsg (groupRoot w) c 2 ((t.stopeRegion c).getD 0) 1 (barrierArg g (fld d.w2 7 0)) 0) }

/-- BARRIER (R488). -/
def execBarrier (c : Nat) (e : List ReadErr) (s : State) : Host.Outcome State Fault Refusal := .next (s.issue c 0x20 e fun s d => s.barrierJudge c d)

/-! ## Counters (R189 to R191) -/

/-- Whether an issued descriptor waits on a counter. -/
def Issued.awaitsCounter (i : Issued) (k : Nat) : Bool := match i.await with
  | .counter j _ _ _ => j == k
  | _ => false

/-- The CWAITs on a counter in issue order: each that is satisfied completes, and takes its target when it consumes (R190). -/
def wakeList (k : Nat) : Word → List Issued → Word × List Issued
  | v, [] => (v, [])
  | v, i :: is =>
    match i.await with
    | .counter j t consume _ =>
      if j = k ∧ t.toNat ≤ v.toNat then
        let r := wakeList k (if consume then v - t else v) is
        (r.1, { i with await := .nothing } :: r.2)
      else ((wakeList k v is).1, i :: (wakeList k v is).2)
    | _ => ((wakeList k v is).1, i :: (wakeList k v is).2)

/-- The waiters of a counter look at it again (R190). -/
def State.wakeCounter (s : State) (c k : Nat) : State :=
  let r := wakeList k (s.rd (coreCounter c k)) (s.core c).issued
  (s.updCore c fun t => { t with issued := r.2 }).wr (coreCounter c k) r.1

/-- An addition to a counter: past 0xFFFF_FFFF it stays there, its COUNTER_OVF bit sets, and the step that waits faults with
CNT_OVERFLOW (R190, R191). -/
def State.addCounter (s : State) (c k : Nat) (n : Word) : State :=
  let v := (s.rd (coreCounter c k)).toNat + n.toNat
  if 0xFFFFFFFF < v then
    let s := (s.wr (coreCounter c k) 0xFFFFFFFF).wrBit (coreCounterOvf c) k true
    let fail (i : Issued) : Issued := if i.awaitsCounter k then { i with await := .nothing, cause := causeCntOverflow } else i
    s.updCore c fun t => { t with issued := t.issued.map fail }
  else (s.wr (coreCounter c k) (BitVec.ofNat 32 v)).wakeCounter c k

/-- CWAIT (R158, R190): satisfied at once, or waiting; a timeout of 0 checks once. -/
def State.cwaitJudge (s : State) (c : Nat) (d : Desc) : Judged :=
  let k := fld d.w1 4 0
  let consume := bitAt d.func 0
  let noTimeout := bitAt d.func 1
  let v := s.rd (coreCounter c k)
  if d.func / 4 != 0 || rsvAbove d.w1 5 || rsvAbove d.w3 24 then .bad rAbiMismatch
  else if d.w2.toNat ≤ v.toNat then
    .act { reads := [], writes := [], run := fun t => if consume then t.wr (coreCounter c k) (v - d.w2) else t }
  else if !noTimeout && fld d.w3 23 0 == 0 then .late causeCwaitTimeout
  else .act { reads := [], writes := [], run := id,
              await := .counter k d.w2 consume (if noTimeout then none else some (s.now + fld d.w3 23 0 * 1000)) }

/-- CWAIT (R190). -/
def execCwait (c : Nat) (e : List ReadErr) (s : State) : Host.Outcome State Fault Refusal := .next (s.issue c 0x21 e fun s d => s.cwaitJudge c d)

/-- CWAIT_TIMEOUT (R190): a CWAIT whose timeout has passed faults its step. -/
def execCwaitTimeout (c : Nat) (s : State) : Host.Outcome State Fault Refusal :=
  .next (
    let late (i : Issued) : Bool := match i.await with
      | .counter _ _ _ (some t) => decide (t ≤ s.now)
      | _ => false
    match (s.core c).issued.find? late with
    | some i => s.stepFault c i.step i.desc.index causeCwaitTimeout
    | none => s)

/-- CINC (R156, R158, R190): the core's own counter at once, another core's by a packet on VC0, which the network refuses outside
the region. -/
def cincJudge (c : Nat) (d : Desc) : Judged :=
  let k := fld d.w1 4 0
  let ep := fld d.w3 11 0
  if d.func != 0 || rsvAbove d.w1 5 || rsvAbove d.w3 12 then .bad rAbiMismatch
  else match epCore ep with
    | none => .bad causeDescInvalid
    | some x =>
      if x = c then .act { reads := [], writes := [], run := fun t => t.addCounter c k d.w2 }
      else
        let m : Packet := { dest := ep, src := coreEp c, vc := 0, region := 0, bytes := 4, opcode := 5, timeHint := 0, addr := k,
                            payload := leBytes 4 d.w2.toNat, device := 0 }
        .act { reads := [], writes := [], await := .packets 1, run := fun t => t.sendFor (t.ownerOf c d.index) [m] }

/-- CINC (R190). -/
def execCinc (c : Nat) (e : List ReadErr) (s : State) : Host.Outcome State Fault Refusal := .next (s.issue c 0x22 e fun _ d => cincJudge c d)

/-- CINC_ARRIVE (R190, R191): an increment is added at its target. -/
def execCincArrive (c counter : Nat) (inc : Word) (s : State) : Host.Outcome State Fault Refusal :=
  .next (if counter < 32 then s.addCounter c counter inc else s)

end Sys2Proof.Machine
end

