-- ==== Sys2Proof/Machine/Windows.lean ====
section
/-! DEFINITION. Windows (R183 to R189) and what arrives for them: packets of the die, fabric WRITEs with the arrival hold (R402,
R403, R406), CTL packets, and CHUNK packets of the collective engine (R411). -/

namespace Sys2Proof.Machine

/-! ## Acceptance (R183, R186, R187) -/

/-- Whether a window's source set admits a source: its device and endpoint, and whether it counts as a source of the owner's region. -/
def Window.admits (w : Window) (device src : Nat) (regional : Bool) : Bool :=
  match w.mode with
  | 0 => w.device == device && w.endpoint == src
  | 1 => w.device == device
  | _ => regional

/-- Whether a window covers a byte range, or shares a byte with it. -/
def Window.covers (w : Window) (start len : Nat) : Bool := decide (w.base ≤ start ∧ start + len ≤ w.base + w.len)
def Window.meets (w : Window) (start len : Nat) : Bool := decide (w.base < start + len ∧ start < w.base + w.len)

/-- A WWAIT's target is reached (R188). -/
def wakeWindow (base arrived : Nat) (i : Issued) : Issued := match i.await with
  | .window b target => if b = base ∧ target ≤ arrived then { i with await := .nothing } else i
  | _ => i

/-- An accepted write: its bytes with fresh check bits, then ARRIVED, then the counter of a counter-mode window (R187, R189). -/
def State.landWrite (s : State) (c : Nat) (w : Window) (start : Nat) (bs : List Byte) : State :=
  let words := (List.range (cdiv bs.length 8)).map (start / 8 + ·)
  let s := ((s.wrMem start bs).clearPoison words).overwritten start bs.length
  let n := w.arrived + bs.length
  let s := s.updCore c fun t =>
    { t with windows := t.windows.map fun x => if x.base == w.base then { x with arrived := n } else x, issued := t.issued.map (wakeWindow w.base n) }
  match w.counter with
  | some k => s.addCounter c k 1
  | none => s

/-- What an arriving write meets: a window that takes it, windows that refuse it, or none. -/
inductive Meeting where
  | taken (w : Window) | refused | unopened
  deriving DecidableEq, Repr

/-- Whether a remote write may go to bytes of a core's memory: in the pool only to granules granted to it that are not read-only (R180, R181;
DESIGN CHOICE, log entry 142: a window stays open when its granule's grant goes, and refuses what arrives). -/
def State.mayLand (s : State) (c start len : Nat) : Bool :=
  !(isPoolWord (start / 8)) || ((List.range 64).all fun g =>
    !(decide (poolBase + g * 0x100000 < start + len ∧ start < poolBase + (g + 1) * 0x100000)) || (s.granted (c - 256) g && !(s.roWord (poolBase / 8 + g * 131072))))

/-- What a write's range meets at its owner (R180, R181, R186, R406). -/
def State.meeting (s : State) (c start len device src : Nat) (regional : Bool) : Meeting :=
  let ws := (s.core c).windows
  match ws.find? fun w => w.covers start len && w.admits device src regional && s.mayLand c start len with
  | some w => .taken w
  | none => if ws.any fun w => w.meets start len then .refused else .unopened

/-- A refused write is counted and noticed (R186), with a stamp after its cause's (R50). -/
def State.refuseWrite (s : State) (c stamp : Nat) : State :=
  (s.inc (coreWinRefused c) 1).notify { mkNotice rWindowBounds 0 0 (coreEp c) ((s.coreRegion c).getD 0) with time := stamp }

/-- WINDOW_WRITE_ARRIVE (R186, R187): a packet of the die that passed the checks of R43 and R45, and so stands delivered, reaches its owner. -/
def execWindowWriteArrive (m : Packet) (s : State) : Host.Outcome State Fault Refusal :=
  .next (
    if !(s.noc.arrived.contains m) then s
    else
    let s := { s with noc := { s.noc with arrived := s.noc.arrived.erase m } }
    match epCore m.dest with
    | none => s
    | some c =>
      let start := if c < 256 then s.spFor c + m.addr else if 0x200000 ≤ m.addr then poolBase + (m.addr - 0x200000) else coreMemBase (c - 256) + m.addr
      match s.meeting c start m.payload.length m.device m.src (m.device == s.edge.devId && some m.region == s.coreRegion c) with
      | .taken w => s.landWrite c w start m.payload
      | _ => (s.refuseWrite c (stampFor s.now m.timeHint)).refusePacket m.src m.dest rWindowBounds)

/-! ## Chunks of collectives (R411) -/

/-- A CHUNK packet's head. -/
structure ChunkHead where
  group : Nat
  packet : Nat
  epoch : Nat
  rank : Nat
  phase : Nat
  index : Nat
  abandon : Bool
  deriving DecidableEq, Repr

def chunkHeadOf (bs : List Byte) : ChunkHead :=
  { group := leAt bs 0 1, packet := leAt bs 1 1, epoch := leAt bs 2 2, rank := bitsOf (leAt bs 4 2) 11 0, phase := bitsOf (leAt bs 4 2) 12 12,
    index := leAt bs 8 4, abandon := bitAt (leAt bs 12 4) 0 }

/-- The running collective that a chunk belongs to. -/
def State.chunkColl (s : State) (h : ChunkHead) : Option Coll :=
  s.fab.colls.find? fun c => c.group == h.group && c.epoch == h.epoch && !c.ended

/-- Packets of chunk k of a sender. -/
def Coll.chunkPackets (s : State) (c : Coll) (k : Nat) : Nat :=
  cdiv (min c.chunkBytes (c.block (c.members s).length - k * c.chunkBytes)) 224

/-- Whether chunk k of a sender's phase is written in full. -/
def Coll.chunkIn (s : State) (c : Coll) (rank phase k : Nat) : Bool :=
  (List.range (c.chunkPackets s k)).all fun p => c.got.contains (rank, phase, k, p)

/-- The next INDEX expected of a sender and phase (R411). -/
def Coll.expected (s : State) (c : Coll) (rank phase : Nat) : Nat :=
  ((List.range (cdiv (c.block (c.members s).length) c.chunkBytes)).find? fun k => !(c.chunkIn s rank phase k)).getD
    (cdiv (c.block (c.members s).length) c.chunkBytes)

/-- A CHUNK_ACK names the chunk by its head; a bitmap of refused packets follows it (R407, R411; log entry 26). -/
def State.sendChunkAck (s : State) (ep : Nat) (h : ChunkHead) (refused : Nat) : State :=
  s.aditSend ep (mkFlit 5 0 epColl epColl 0 (chunkHead h.group 0 h.epoch h.rank h.phase 0 h.index 0 ++ padTo 16 (leBytes 8 refused)))

/-- A CHUNK packet has been written: a chunk that is whole is acknowledged (R411). -/
def State.chunkWritten (s : State) (ep : Nat) (h : ChunkHead) : State :=
  match s.chunkColl h with
  | none => s
  | some c =>
    let s := s.updColl c.id fun c => { c with got := c.got ++ [(h.rank, h.phase, h.index, h.packet)] }
    match s.coll c.id with
    | some c => if c.chunkIn s h.rank h.phase h.index then s.sendChunkAck ep h 0 else s
    | none => s

/-- A refused CHUNK packet of a MULTICAST is reported to ROOT; any other waits for the sender's resend (R407, R412). -/
def State.chunkRefused (s : State) (ep : Nat) (h : ChunkHead) : State :=
  match s.chunkColl h with
  | some c => if c.op = opMulticast then s.sendChunkAck ep h (2 ^ h.packet) else s
  | none => s

/-! ## The arrival hold and sequenced packets (R402, R403, R406) -/

/-- The receiver's answer to a sequenced packet; it keeps the last 2,048 (R402, R403). -/
def State.fabAnswer (s : State) (ep e2e status : Nat) : State :=
  let s := s.updAdit ep fun a =>
    let l := (a.answered.filter fun p => p.1 != e2e) ++ [(e2e, status)]
    { a with answered := l.drop (l.length - 2048) }
  s.aditSend ep (mkFlit 2 0 epHeadframe epHeadframe 0 (leBytes 2 (e2e + 0x1000 * status)))

/-- A fabric write's data and its flat place at a core: a CHUNK's data follow its head. -/
def flitData (f : Flit) : List Byte := if f.opcode = 4 then (f.payload.take (16 * f.units)).drop 16 else padTo (16 * f.units) (f.payload.take (16 * f.units))

/-- What a fabric write meets (R186, R400). -/
def State.fabMeeting (s : State) (ep c : Nat) (f : Flit) : Meeting :=
  let a := s.adit ep
  s.meeting c (s.unitFlat c f.addr) (flitData f).length a.peerDev f.srcEp (some a.region == s.coreRegion c)

/-- A fabric write is taken: written and answered, or for a CHUNK counted (R187, R403, R411). -/
def State.fabTake (s : State) (ep c : Nat) (w : Window) (f : Flit) : State :=
  let s := s.landWrite c w (s.unitFlat c f.addr) (flitData f)
  if f.opcode = 4 then s.chunkWritten ep (chunkHeadOf f.payload) else s.fabAnswer ep f.e2e 0

/-- A fabric write is refused (R186, R403, R406). -/
def State.fabRefuse (s : State) (ep c : Nat) (f : Flit) : State :=
  let s := s.refuseWrite c 0
  if f.opcode = 4 then s.chunkRefused ep (chunkHeadOf f.payload) else s.fabAnswer ep f.e2e 1

/-- A fabric write at its owner: taken, refused, or moved to the arrival hold, which holds 64 packets (R406). -/
def State.fabWrite (s : State) (ep c : Nat) (f : Flit) : State :=
  match s.fabMeeting ep c f with
  | .taken w => s.fabTake ep c w f
  | .refused => s.fabRefuse ep c f
  | .unopened =>
    if s.fab.hold.length < 64 then { s with fab := { s.fab with hold := s.fab.hold ++ [{ flit := f, since := s.now, ep := ep }] } }
    else (s.inc windowHoldRefuseCount 1).fabRefuse ep c f

/-- Whether an endpoint of this die may be a flit's destination under the path's region (R43, R400). -/
def State.inRegion (s : State) (dest region : Nat) : Bool := isRim dest || s.epRegion dest == some region

/-- The control message in the first 16 bytes of a CTL packet (R36, R385); the port's router writes SRC. -/
def ctlOf (f : Flit) (src : Nat) : CtlMsg :=
  let h := BitVec.ofNat 32 (leAt f.payload 0 4)
  { dest := fld h 11 0, args := fld h 23 22, region := fld h 27 24, typ := fld h 31 28, timeHint := leAt f.payload 4 2, src := src,
    arg0 := BitVec.ofNat 32 (leAt f.payload 8 4), arg1 := BitVec.ofNat 32 (leAt f.payload 12 4) }

/-- A sequenced packet that is next in its adit's order is processed and answered (R400, R403, R406). A packet for a rim unit is
delivered to it. -/
def State.fabProcess (s : State) (ep : Nat) (f : Flit) : State :=
  let a := s.adit ep
  if f.opcode = 3 then
    let m := ctlOf f (epPort (rtPort a.active))
    if m.region ≠ a.region then s.fabAnswer ep f.e2e 2 else (s.send m).fabAnswer ep f.e2e 0
  else if !(epExists f.destEp) then s.fabAnswer ep f.e2e 3
  else if !(s.inRegion f.destEp a.region) then s.fabAnswer ep f.e2e 2
  else match epCore f.destEp with
    | some c => s.fabWrite ep c f
    | none => s.fabAnswer ep f.e2e 0

/-- Whether an endpoint has a sequenced packet in the arrival hold. -/
def State.holds (s : State) (ep : Nat) : Bool := s.fab.hold.any fun h => h.ep == ep && h.flit.opcode != 4

/-- Packets that waited behind a held one go on, in order, until one is held (R406). -/
def State.drainWaiting (s : State) (ep : Nat) : Nat → State
  | 0 => s
  | n + 1 =>
    match (s.adit ep).waiting with
    | f :: rest => if s.holds ep then s else ((s.updAdit ep fun a => { a with waiting := rest }).fabProcess ep f).drainWaiting ep n
    | [] => s

/-- A sequenced packet arrives at a LOCAL endpoint (R402): the next one is processed, or waits behind a held one; an earlier one is
counted and answered again; any other is discarded. -/
def State.fabArrive (s : State) (f : Flit) : State :=
  let ep := f.path
  let a := s.adit ep
  let behind := (a.rxE2e + 4096 - f.e2e) % 4096
  if !a.isLocal then s
  else if behind = 0 then
    let s := s.setAdit ep { a with rxE2e := (a.rxE2e + 1) % 4096 }
    if s.holds ep || !a.waiting.isEmpty then s.updAdit ep fun a => { a with waiting := a.waiting ++ [f] } else s.fabProcess ep f
  else if behind ≤ 2048 then
    let s := s.inc aditDupDiscardCount 1
    match a.answered.find? fun p => p.1 == f.e2e with
    | some p => s.aditSend ep (mkFlit 2 0 epHeadframe epHeadframe 0 (leBytes 2 (p.1 + 0x1000 * p.2)))
    | none => s
  else s

/-- WRITE (R402, R403, R406). -/
def execWrite (fl : Flit) (s : State) : Host.Outcome State Fault Refusal := .next ((s.takeFlit fl).fabArrive { fl with opcode := 1 })

/-- CTL (R385): the control message it carries is injected on this module's control network. -/
def execCtl (fl : Flit) (s : State) : Host.Outcome State Fault Refusal := .next ((s.takeFlit fl).fabArrive { fl with opcode := 3 })

/-- A packet leaves the arrival hold by a decision on it; then what waited behind it goes on. -/
def State.leaveHold (s : State) (h : Held) (act : State → State) : State :=
  let s := act { s with fab := { s.fab with hold := s.fab.hold.erase h } }
  if s.holds h.ep then s else s.drainWaiting h.ep (s.adit h.ep).waiting.length

/-- MC_HOLD_EXPIRY (R406): a packet held for MC_HOLD µs is refused. -/
def execMcHoldExpiry (idx : Nat) (s : State) : Host.Outcome State Fault Refusal :=
  .next (
    match s.fab.hold[idx]? with
    | some h =>
      if h.since + fld (s.rd windowMcHold) 13 0 * 1000 ≤ s.now then
        s.leaveHold h fun s => match epCore h.flit.destEp with
          | some c => (s.inc windowHoldRefuseCount 1).fabRefuse h.ep c h.flit
          | none => s
      else s
    | none => s)

/-- Held packets of a core that an open window now takes are written (R184, R406). -/
def State.releaseHold (s : State) (c : Nat) : State :=
  s.each (s.fab.hold.filter fun h => epCore h.flit.destEp == some c) fun s h =>
    match s.fabMeeting h.ep c h.flit with
    | .taken w => if h.flit.opcode = 4 ∧ (s.chunkColl (chunkHeadOf h.flit.payload)).isNone then s else s.leaveHold h fun s => s.fabTake h.ep c w h.flit
    | _ => s

/-- CHUNK (R411): a chunk that has been written before is discarded, counted once and acknowledged again; a packet of a collective that
this module has not started waits in the hold; ABANDON ends a MULTICAST member's command (R407). -/
def execChunk (fl : Flit) (s : State) : Host.Outcome State Fault Refusal :=
  .next (
    let s := s.takeFlit fl
    let fl := { fl with opcode := 4 }
    let h := chunkHeadOf fl.payload
    let ep := fl.path
    let again (s : State) : State := if h.packet = 0 then (s.inc collDupChunkCount 1).sendChunkAck ep h 0 else s
    if !(s.adit ep).isLocal then s
    else match epCore fl.destEp, s.chunkColl h with
      | some c, some k =>
        if h.abandon then
          if k.op = opMulticast then s.updColl k.id fun k => { k with status := causeMcPartial, ended := true } else s
        else if h.index < k.expected s h.rank h.phase then again s
        else if k.got.contains (h.rank, h.phase, h.index, h.packet) then s
        else if !(s.inRegion fl.destEp (s.adit ep).region) then s
        else s.fabWrite ep c fl
      | some _, none =>
        if h.epoch < (s.group h.group).epoch then again s
        else if s.fab.hold.length < 64 then { s with fab := { s.fab with hold := s.fab.hold ++ [{ flit := fl, since := s.now, ep := ep }] } }
        else s.inc windowHoldRefuseCount 1
      | none, _ => s)

/-! ## WOPEN, WCLOSE, WWAIT (R183 to R188) -/

/-- The flat place of an address word at a core, whether or not its granule is granted: none where its SPACE holds no windows (R183). -/
def State.windowBase (s : State) (c : Nat) (w : Word) : Option Nat :=
  let a := addrOf w
  match spaceOf w with
  | 0 => if c < 256 then some (s.spFor c + 8 * a) else none
  | 6 =>
    if c < 256 then none
    else match bitsOf a 28 27 with
      | 1 => some (coreMemBase (c - 256) + 8 * bitsOf a 26 0)
      | 2 => some (poolBase + 8 * bitsOf a 26 0)
      | _ => none
  | _ => none

/-- The flat byte range of an address word at a core for windows: none where its SPACE holds no windows or a granule is not granted;
otherwise the place and whether the range stays in its space (R156, R183, R184). -/
def State.windowPlace (s : State) (c : Nat) (w : Word) (n : Nat) : Option (Nat × Bool) :=
  let a := addrOf w
  match spaceOf w with
  | 0 => if c < 256 then some (s.spFor c + 8 * a, decide (8 * (a + n) ≤ s.spSize c)) else none
  | 6 =>
    if c < 256 then none
    else match bitsOf a 28 27 with
      | 1 => some (coreMemBase (c - 256) + 8 * bitsOf a 26 0, decide (bitsOf a 26 0 + n ≤ 262144))
      | 2 =>
        let b := bitsOf a 26 0
        let ok := decide (b + n ≤ 8388608)
        if !ok || ((List.range 64).all fun g => !(decide (b / 131072 ≤ g ∧ g ≤ (b + n - 1) / 131072)) || s.granted (c - 256) g) then
          some (poolBase + 8 * b, ok)
        else none
      | _ => none
  | _ => none

/-- A core's windows that are open, and those that an issued WOPEN is opening (R184, R185; DEDUCED, log entry 106). -/
def Core.allWindows (t : Core) : List Window :=
  t.windows ++ t.issued.filterMap fun i => match i.await with
    | .wopen w _ => some w
    | _ => none

/-- Open windows of the device, and of one region (R184, R417). -/
def State.openWindows (s : State) : Nat := (s.cores.map fun p => p.2.allWindows.length).sum
def State.regionWindows (s : State) (r : Nat) : Nat := (s.cores.map fun p => (p.2.allWindows.filter fun w => w.region == r).length).sum

/-- WOPEN (R183, R184), with its checks in their order; the window opens when the descriptor completes (R185). -/
def State.wopenJudge (s : State) (c : Nat) (d : Desc) : Judged :=
  let mode := bitsOf d.func 1 0
  let never := bitAt d.func 2
  let counter := bitAt d.func 3
  let device := fld d.w2 31 12
  let endpoint := fld d.w2 11 0
  let expiry := fld d.w3 23 0
  let cnt := fld d.w3 28 24
  let region := (s.coreRegion c).getD 0
  if bitAt d.func 4 || fld d.w3 31 29 != 0 then .bad rAbiMismatch
  else match s.windowPlace c d.w1 d.len with
    | none => .bad causeDescInvalid
    | some (base, inside) =>
      if 32768 ≤ device then .bad rAbiMismatch
      else if d.len = 0 ∨ addrOf d.w1 % 2 = 1 ∨ d.len % 2 = 1 ∨ !inside ∨ mode = 3 ∨ (expiry = 0) ≠ never ∨ (endpoint ≠ 0 ∧ mode ≠ 0) ∨
          (device ≠ 0 ∧ mode = 2) ∨ (cnt ≠ 0 ∧ !counter) then .bad rWindowBounds
      else if (s.core c).allWindows.any fun w => w.meets base (8 * d.len) then .late rWindowBounds
      else if 256 ≤ s.openWindows ∨ fld (s.rd (windowQuota region)) 8 0 ≤ s.regionWindows region then .late rCapacity
      else
        let w : Window := { base := base, len := 8 * d.len, mode := mode, device := device, endpoint := endpoint, region := region,
                            expiry := none, counter := if counter then some cnt else none, arrived := 0 }
        .act { reads := [], writes := [], run := id, await := .wopen w (if never then none else some (expiry * 1000)) }

/-- WOPEN (R184). -/
def execWopen (c : Nat) (e : List ReadErr) (s : State) : Host.Outcome State Fault Refusal := .next (s.issue c 0x23 e fun s d => s.wopenJudge c d)

/-- WCLOSE (R185): the window of its base closes when the descriptor completes; a base that names no open window completes at once. -/
def State.wcloseJudge (s : State) (c : Nat) (d : Desc) : Judged :=
  if d.func != 0 || d.w2 != 0 || d.w3 != 0 then .bad rAbiMismatch
  else match s.windowPlace c d.w1 0 with
    | none => .bad causeDescInvalid
    | some (base, _) => .act { reads := [], writes := [], run := id, await := .wclose base }

/-- WCLOSE (R185). -/
def execWclose (c : Nat) (e : List ReadErr) (s : State) : Host.Outcome State Fault Refusal := .next (s.issue c 0x24 e fun s d => s.wcloseJudge c d)

/-- WWAIT (R188). -/
def State.wwaitJudge (s : State) (c : Nat) (d : Desc) : Judged :=
  if d.func != 0 || d.w3 != 0 then .bad rAbiMismatch
  else match s.windowPlace c d.w1 0 with
    | none => .bad causeDescInvalid
    | some (base, _) =>
      match (s.core c).windows.find? fun w => w.base == base with
      | none => .late causeWindowMissing
      | some w => .act { reads := [], writes := [], run := id,
                         await := if d.w2.toNat ≤ w.arrived then .nothing else .window base d.w2.toNat }

/-- WWAIT (R188). -/
def execWwait (c : Nat) (e : List ReadErr) (s : State) : Host.Outcome State Fault Refusal := .next (s.issue c 0x25 e fun s d => s.wwaitJudge c d)

/-- WINDOW_EXPIRY (R185, R188): a window whose lifetime has passed closes and is counted; a WWAIT on it ends with WINDOW_EXPIRED. `base`
is the window's base as an address word. -/
def execWindowExpiry (c base : Nat) (s : State) : Host.Outcome State Fault Refusal :=
  .next (
    match s.windowBase c (BitVec.ofNat 32 base) with
    | none => s
    | some a =>
      let due (w : Window) : Bool := w.base == a && (match w.expiry with
        | some t => decide (t ≤ s.now)
        | none => false)
      if (s.core c).windows.any due then (s.updCore c fun k => k.closeWindows due).inc (coreWinExpired c) 1 else s)

end Sys2Proof.Machine
end

