-- ==== Sys2Proof/Machine/Coll.lean ====
section
/-! DEFINITION. The commands of the collective engine (R407 to R413) and the commit of a group (R408). -/

namespace Sys2Proof.Machine

/-- A collective command's fields (R409). `rsv` says that a reserved field or value is not zero. -/
structure CollCmd where
  op : Nat
  typ : Nat
  group : Nat
  chunk : Nat
  count : Nat
  src : Word
  cpl : Word
  cnt : Nat
  tag : Nat
  root : Nat
  rsv : Bool
  deriving DecidableEq, Repr

def collCmd (bs : List Byte) : CollCmd :=
  { op := leAt bs 0 1, typ := leAt bs 1 1, group := leAt bs 2 1, chunk := leAt bs 3 1, count := leAt bs 4 4,
    src := BitVec.ofNat 32 (leAt bs 8 4), cpl := BitVec.ofNat 32 (leAt bs 12 4), cnt := leAt bs 16 1, tag := leAt bs 18 2,
    root := bitsOf (leAt bs 20 2) 11 0,
    rsv := leAt bs 1 1 / 16 != 0 || bitsOf (leAt bs 16 1) 6 5 != 0 || leAt bs 17 1 != 0 || leAt bs 20 2 / 0x1000 != 0 || ((bs.drop 22).take 42).any (· != 0) }

/-- DATA TYPE and operation of a fold (R409). -/
def typData (t : Nat) : Nat := t % 4
def typFold (t : Nat) : Nat := t / 4 % 4

/-- The code that a command is refused with, or 0 (R409, R410). A fold of BYTES names no arithmetic and is out of range (DEDUCED, log
entry 27). -/
def State.collCheck (s : State) (k : CollCmd) : Nat :=
  let g := s.group k.group
  let n := g.members.length
  let folds := k.op == opAllReduce || k.op == opReduceScatter
  if k.rsv ∨ k.op = 0 ∨ 5 < k.op ∨ 2 ≤ typFold k.typ ∨ (folds && typData k.typ == 3) ∨ k.chunk = 0 ∨ 64 < k.chunk ∨ !g.valid ∨
      (k.op ≠ opMulticast ∧ k.root ≠ 0) ∨ (k.op = opMulticast ∧ n ≤ k.root) ∨ (k.op = opMulticast ∧ g.rank ≠ k.root ∧ k.src ≠ 0) ∨
      (if k.op = opAllGather ∨ k.op = opMulticast then k.count % 16 ≠ 0 else k.count % (16 * max 1 n) ≠ 0) then rAbiMismatch
  else if !(bit (s.rd collCtrl) 0) ∨ 64 ≤ (s.fab.colls.filter fun c => !c.ended).length then rCapacity
  else 0

/-- The collective that a command makes. -/
def State.newColl (s : State) (src : Nat) (k : CollCmd) (status : Nat) (done : Bool) : Coll :=
  let n := (s.group k.group).members.length
  { id := s.fab.nextColl, op := k.op, typ := k.typ, group := k.group, epoch := (s.group k.group).epoch, chunk := k.chunk, count := k.count,
    src := k.src, cpl := k.cpl, cnt := k.cnt, tag := k.tag, root := k.root, owner := src, phase := 0, next := List.replicate n 0,
    resends := List.replicate n 0, progress := List.replicate n s.now, acks := [], got := [], refused := [], passes := 0, folded := false,
    failed := [], status := status, ended := done }

/-- This member's own block goes to its own window (R410). -/
def State.copyOwn (s : State) (c : Coll) (phase : Nat) : State :=
  match (c.members s)[c.rank s]? with
  | none => s
  | some m =>
    match epCore m.endpoint with
    | none => s
    | some k =>
      let start := s.wordFlat m.endpoint m.wbase + c.offset (c.members s).length (c.rank s) phase
      let bs := c.data s (c.rank s) phase
      match (s.core k).windows.find? fun w => w.covers start bs.length with
      | some w => s.landWrite k w start bs
      | none => s.wrMem start bs

/-- A collective command (R409, R410): refused, over at once with COUNT 0, or started. `op` is the arm's operation: a command of another
operation is no command of it. -/
def State.startColl (s : State) (src op : Nat) (cmd : List Byte) : State :=
  let k := collCmd cmd
  if k.op ≠ op then s
  else
    let code := s.collCheck k
    let c := s.newColl src k code (code != 0 || k.count == 0)
    let s := { s with fab := { s.fab with colls := s.fab.colls ++ [c], nextColl := s.fab.nextColl + 1 } }
    if code ≠ 0 then s.refuse collLastRefuse code
    else
      let s := s.setGroup k.group { s.group k.group with epoch := ((s.group k.group).epoch + 1) % 0x10000 }
      if k.count = 0 then s
      else
        let s := if k.op = opMulticast then s else s.copyOwn c 0
        let s := s.fillColl c.id
        match (c.members s)[c.rank s]?.bind fun m => epCore m.endpoint with
        | some x => s.releaseHold x
        | none => s

/-- ALL_REDUCE (R410). -/
def execAllReduce (src : Nat) (cmd : List Byte) (s : State) : Host.Outcome State Fault Refusal := .next (s.startColl src opAllReduce cmd)

/-- ALL_GATHER (R410). -/
def execAllGather (src : Nat) (cmd : List Byte) (s : State) : Host.Outcome State Fault Refusal := .next (s.startColl src opAllGather cmd)

/-- REDUCE_SCATTER (R410). -/
def execReduceScatter (src : Nat) (cmd : List Byte) (s : State) : Host.Outcome State Fault Refusal := .next (s.startColl src opReduceScatter cmd)

/-- ALL_TO_ALL (R410). -/
def execAllToAll (src : Nat) (cmd : List Byte) (s : State) : Host.Outcome State Fault Refusal := .next (s.startColl src opAllToAll cmd)

/-- MULTICAST (R407, R410). -/
def execMulticast (src : Nat) (cmd : List Byte) (s : State) : Host.Outcome State Fault Refusal := .next (s.startColl src opMulticast cmd)

/-- CHUNK_ACK (R412): the member has the chunk, or names the packets of it that it refused (R407); the next chunks go. -/
def execChunkAck (fl : Flit) (s : State) : Host.Outcome State Fault Refusal :=
  .next (
    let s := s.takeFlit fl
    let h := chunkHeadOf fl.payload
    match s.chunkColl h with
    | none => s
    | some c =>
      match (c.members s).findIdx? fun m => m.path == fl.path with
      | none => s
      | some j =>
        if h.rank ≠ c.rank s ∨ h.phase ≠ c.phase then s
        else
          let bad := (maskBits 64 (leAt fl.payload 16 8)).map fun p => (j, h.index, p)
          let key := (j, h.phase, h.index)
          let s := s.updColl c.id fun c =>
            { c with acks := if c.acks.contains key then c.acks else c.acks ++ [key],
                     refused := c.refused ++ bad.filter fun x => !(c.refused.contains x),
                     resends := setAt c.resends j fun _ => 0, progress := setAt c.progress j fun _ => s.now }
          s.fillMember c.id j 8)

/-- CHUNK_TIMEOUT (R412): with no CHUNK_ACK within CHUNK_TO µs the member is sent its chunks again; after the third resend the
collective faults with LINK_DOWN. -/
def execChunkTimeout (id rank : Nat) (s : State) : Host.Outcome State Fault Refusal :=
  .next (
    match s.coll id with
    | none => s
    | some c =>
      if c.ended ∨ c.open_ rank = [] ∨ s.now < c.progress.getD rank 0 + fld (s.rd collChunkTo) 15 0 * 1000 then s
      else if 3 ≤ c.resends.getD rank 0 then
        s.updColl id fun c => { c with failed := if c.failed.contains rank then c.failed else c.failed ++ [rank], status := causeLinkDown, ended := true }
      else s.resendMember id rank)

/-! ## The fold (R410) -/

/-- The elements of a block as FP32 patterns or INT32 words. -/
def foldElems (dt : Nat) (bs : List Byte) : List Word := if dt = 1 then (chunks 2 bs).map fun b => ofBf16 (ofLe b) else lanes bs

/-- Two elements combined: SUM or MAX, of floating point or INT32. -/
def foldOp (dt fold : Nat) (x y : Word) : Word :=
  if fold = 1 then (if dt = 2 then (if x.toInt < y.toInt then y else x) else fMax x y) else if dt = 2 then x + y else fAdd x y

/-- The fold of blocks in ascending rank; BF16 is rounded once at the end. -/
def foldBlocks (typ : Nat) : List (List Byte) → List Byte
  | [] => []
  | b :: bs =>
    let dt := typData typ
    let r := bs.foldl (fun a y => (a.zip (foldElems dt y)).map fun p => foldOp dt (typFold typ) p.1 p.2) (foldElems dt b)
    if dt = 1 then r.flatMap fun w => leBytes 2 (toBf16 w) else laneBytes r

/-- Whether every other member's chunks of a phase are written here. -/
def Coll.allIn (s : State) (c : Coll) (phase : Nat) : Bool :=
  let n := (c.members s).length
  (List.range n).all fun j => j == c.rank s || (List.range (cdiv (c.block n) c.chunkBytes)).all fun k => c.chunkIn s j phase k

/-- Whether every chunk of the present phase is settled at every member that is sent one. -/
def Coll.allSent (s : State) (c : Coll) : Bool :=
  (List.range (c.members s).length).all fun j =>
    j == c.rank s || c.failed.contains j || (List.range (c.chunkCount s)).all fun k => c.acks.contains (j, c.phase, k)

/-- COLL_FOLD (R410): with every block here, they are folded in ascending rank and the fold written at WBASE; an ALL_REDUCE then sends
it to every member. -/
def execCollFold (id : Nat) (s : State) : Host.Outcome State Fault Refusal :=
  .next (
    match s.coll id with
    | none => s
    | some c =>
      if c.ended ∨ c.folded ∨ (c.op ≠ opAllReduce ∧ c.op ≠ opReduceScatter) ∨ !(c.allIn s 0) ∨ !(c.allSent s) then s
      else match (c.members s)[c.rank s]? with
        | none => s
        | some m =>
          let n := (c.members s).length
          let base := s.wordFlat m.endpoint m.wbase
          let blocks := (List.range n).map fun j => s.rdMem (base + j * c.block n) (c.block n)
          let s := s.wrMem base (foldBlocks c.typ blocks)
          let s := s.updColl id fun c => { c with folded := true }
          if c.op = opReduceScatter then s
          else
            let s := s.updColl id fun c => { c with phase := 1, next := c.next.map fun _ => 0, resends := c.resends.map fun _ => 0,
                                                    progress := c.progress.map fun _ => s.now }
            (s.copyOwn { c with phase := 1 } 1).fillColl id)

/-- MC_RESEND (R407): ROOT sends the refused packets again up to MC_RETRY times; then MC_PARTIAL, and each member that still lacks one is
sent a chunk without data and with ABANDON. -/
def execMcResend (id : Nat) (s : State) : Host.Outcome State Fault Refusal :=
  .next (
    match s.coll id with
    | none => s
    | some c =>
      if c.ended ∨ c.op ≠ opMulticast ∨ c.rank s ≠ c.root ∨ c.refused = [] ∨ !(c.allSent s) then s
      else if c.passes < fld (s.rd windowMcRetry) 3 0 then
        let s := s.inc windowMcRetryCount c.refused.length
        let s := s.updColl id fun k => { k with passes := k.passes + 1, refused := [],
                                                acks := k.acks.filter fun a => !(c.refused.any fun r => r.1 == a.1 && r.2.1 == a.2.2) }
        s.each c.refused fun s r =>
          match (c.members s)[r.1]? with
          | some m => s.each ((c.chunkFlits s m r.1 r.2.1).filter fun f => f.1 == r.2.2) fun s f => s.aditSend m.path f.2
          | none => s
      else
        let ranks := (c.refused.map (·.1)).dedup
        let s := (s.inc collMcPartialCount 1).fabNotice causeMcPartial id epColl (s.group c.group).region
        let s := s.each ranks fun s j =>
          match (c.members s)[j]? with
          | some m => s.aditSend m.path (mkFlit 4 3 m.endpoint epColl (wordUnit m.wbase) (chunkHead c.group 0 c.epoch (c.rank s) 0 0 (c.chunkCount s) 1))
          | none => s
        s.updColl id fun k => { k with status := causeMcPartial, failed := k.failed ++ ranks.filter fun j => !(k.failed.contains j), ended := true })

/-! ## Completion (R413) -/

/-- Whether a collective's work is done at this member (R410). -/
def Coll.finished (s : State) (c : Coll) : Bool :=
  if c.op = opMulticast then
    if c.rank s = c.root then c.allSent s && c.refused.isEmpty
    else (List.range (cdiv c.count c.chunkBytes)).all fun k => c.chunkIn s c.root 0 k
  else if c.op = opAllReduce then c.folded && c.allIn s 1 && c.allSent s
  else if c.op = opReduceScatter then c.folded
  else c.allIn s 0 && c.allSent s

/-- The completion record: head and bitmap by rank (R413). -/
def Coll.record (s : State) (c : Coll) : List Byte :=
  let n := (c.members s).length
  let bits := (List.range n).map fun j => flag (c.failed.contains j) j
  leBytes 2 c.tag ++ leBytes 2 c.status ++ leBytes 2 c.failed.length ++ leBytes 2 0 ++ leBytes 8 s.now ++ leBytes (16 * cdiv n 128) bits.sum

/-- COLL_COMPLETE (R413): the record goes through the issuer's window, then CNT rises by 1. -/
def execCollComplete (id : Nat) (s : State) : Host.Outcome State Fault Refusal :=
  .next (
    match s.coll id with
    | none => s
    | some c =>
      if !c.ended && !(c.finished s) then s
      else
        let bs := c.record s
        let s := { s with fab := { s.fab with colls := s.fab.colls.filter fun x => x.id != id } }
        let s := s.inc64 collDoneLo 1
        match epCore (fld c.cpl 28 17) with
        | none => s
        | some k =>
          let start := s.unitFlat k (fld c.cpl 16 0)
          let s := match s.meeting k start bs.length s.edge.devId epColl true with
            | .taken w => s.landWrite k w start bs
            | _ => s.refuseWrite k 0
          match epCore c.owner with
          | some o => if bitAt c.cnt 7 then s.addCounter o (c.cnt % 32) 1 else s
          | none => s)

/-! ## Groups (R408) -/

/-- A member entry that nothing has written. -/
def memberNone : Member := { device := 0, path := 0, endpoint := 0, wbase := 0 }

/-- The group and member that GRP_SEL selects. -/
def grpOf (sel : Word) : Nat × Nat := (fld sel 7 0, fld sel 19 8)

/-- A group commit (R408). A member whose device ID lies outside R395's range is refused with the code that R397's paths have for it
(R3; DESIGN CHOICE, log entry 163). -/
def State.grpCommitSel (s : State) : State :=
  let (g, _) := grpOf (s.rd collGrpSel)
  let (n, rank, region) := Table.get (0, 0, 0) s.fab.stagedHdr g
  let members := (List.range n).map fun j => Table.get memberNone s.fab.stagedMem (4096 * g + j)
  let others := ((s.fab.groups.filter fun p => p.1 != g).map fun p => p.2.members.length).sum
  let outside (m : Member) : Bool :=
    if m.path = 0xFFF then !(s.inRegion m.endpoint region)
    else !((s.adit m.path).isLocal && (s.adit m.path).region == region)
  if members.any fun m => !(deviceOk m.device) then s.refuse collLastRefuse rAbiMismatch
  else if 4096 < n ∨ 16384 < others + n ∨ (s.fab.colls.any fun c => c.group == g && !c.ended) then s.refuse collLastRefuse rCapacity
  else if members.any outside then s.refuse collLastRefuse rRegionViolation
  else s.setGroup g { valid := n != 0, members := members, rank := rank, region := region, epoch := 0 }

/-- GRP_COMMIT (R408). -/
def execGrpCommit (f : Nat) (s : State) : Host.Outcome State Fault Refusal := .next (if s.mayWrite f collGrpCmd then s.grpCommitSel else s)

end Sys2Proof.Machine
end

