-- ==== Sys2Proof/Machine/Complete.lean ====
section
/-! DEFINITION. The completion of descriptors (R110, R153, R160, R164, R174, R185, R186). -/

namespace Sys2Proof.Machine

/-- A WOPEN completes: its window opens, with a lifetime counted from now, and takes what the arrival hold keeps for it (R184, R185). -/
def State.openWindow (s : State) (c : Nat) (w : Window) (life : Option Nat) : State :=
  (s.updCore c fun k => { k with windows := k.windows ++ [{ w with arrived := 0, expiry := life.map (s.now + ·) }] }).releaseHold c

/-- What completes with a descriptor: a LAUNCH's record goes, a WOPEN's window opens, a WCLOSE's window closes (R185). -/
def State.completeWork (s : State) (c : Nat) (i : Issued) : State :=
  match i.await with
  | .launch id => s.updStope c fun t => { t with launches := t.launches.filter fun l => l.id != id }
  | .wopen w life => s.openWindow c w life
  | .wclose base => s.updCore c fun k => k.closeWindows fun w => w.base == base
  | _ => s

/-- A REF_COLD completion in AUTO mode is a pre-warm miss (R110): it is counted, the winder enables the buffer, and the step goes back to the
head of the issue queue, which STEP_START leaves when the buffer is READY. -/
def State.reissueCold (s : State) (c : Nat) (r : Running) : State :=
  (((s.dropStepOn c r.id).inc (planPrewarmMissCount c) 1).refEnable c).updCore c fun k =>
    { k with queue := { r.step with missed := true } :: k.queue }

/-- A descriptor ends with a cause: its step faults, or after REF_COLD in AUTO mode is issued again (R30, R110, R160, R186). -/
def State.endWithCause (s : State) (c : Nat) (i : Issued) (code : Nat) : State :=
  match (s.core c).stepOf i.step with
  | some r => if code = rRefCold ∧ s.refMode c = 0 then s.reissueCold c r else s.issueFault c i.step i.desc.index code
  | none => s.issueFault c i.step i.desc.index code

/-- DESC_COMPLETE (R153, R164): an issued descriptor whose work is done retires and is counted; one that ended with a cause
ends its step (R30, R110, R160, R186). -/
def execDescComplete (c idx : Nat) (s : State) : Host.Outcome State Fault Refusal :=
  .next (
    match (s.core c).issued.find? fun i => i.desc.index == idx && s.ending c i != .atWork with
    | none => s
    | some i =>
      match s.ending c i with
      | .done => ((s.completeWork c i).updCore c fun t => t.retire i).inc64 (coreDescCount c) 1
      | .cancelled => (s.completeWork c i).updCore c fun t => t.retire i
      | .cause code => (s.completeWork c i).endWithCause c i code
      | .atWork => s)

end Sys2Proof.Machine
end

