-- ==== Sys2Proof/Machine/MergeOps.lean ====
section
/-! DEFINITION. MMA4, PQUANT, PMERGE and CANDS, whose operand layouts the manual does not give: the commands carry their
operands' address words and counts, and the layouts are the model's (DESIGN CHOICE, log entry 22); and KVCMD (R208). -/

namespace Sys2Proof.Machine

/-- A range of an operand buffer. -/
def State.obRange (s : State) (c w n : Nat) : Option Rng := (s.rangeOf c (BitVec.ofNat 32 w) n).filter Rng.isOb

/-- A range of merge-core memory that is no operand buffer. -/
def State.mcRange (s : State) (c w n : Nat) : Option Rng :=
  (s.rangeOf c (BitVec.ofNat 32 w) n).filter fun r => r.space == 2 && !r.isOb

/-- A source that PQUANT reads, from an operand buffer or elsewhere (R178). -/
def State.mcSource (s : State) (c w n : Nat) : Option Rng := (s.rangeOf c (BitVec.ofNat 32 w) n).filter fun r => r.space == 2

/-- The refusal of scale bytes read from memory that hold the reserved 0xFF, or 0 (R11, R56). -/
def scaleRefusal (bs : List Byte) : Nat := if bs.contains 0xFF#8 then rAbiMismatch else 0

/-- The blocks' sums of MMA4, in ascending block index from a zero accumulator (R77): 16 bytes a block and operand, one E8M0
exponent byte a block and operand. `fa`, `fb`: E2M1 operands, whose levels are doubled values (R72). -/
def mma4Sum (a b sa sb : List Byte) (blocks : Nat) (fa fb : Bool) : Word :=
  (List.range blocks).foldl (fun acc i =>
    let lv (f : Bool) (x : List Byte) : List Int := (List.range 32).map fun d => elemLevel f (nibble x (32 * i + d))
    blockMac acc (lv fa a) (lv fb b)
      (((sa.getD i 0).toNat : Int) + (sb.getD i 0).toNat - 254 - (if fa then 1 else 0) - (if fb then 1 else 0))) 0

/-- MMA4 (R77, R178): both four-bit operands from operand buffers, the scales from merge-core memory, the FP32 sum to the low lane
of the destination word, whose high lane stays. `fmt` bit 0: the first operand is E2M1; bit 1: the second. -/
def State.mma4Judge (s : State) (c a b sa sb dst blocks fmt : Nat) (d : Desc) : Judged :=
  judgeWith false d
    (if c < 256 then none
     else match s.obRange c a (2 * blocks), s.obRange c b (2 * blocks), s.mcRange c sa (cdiv blocks 8), s.mcRange c sb (cdiv blocks 8),
                s.mcRange c dst 1 with
     | some ra, some rb, some rx, some ry, some rd =>
       some { reads := [ra, rb, rx, ry], writes := [rd],
              refuse := fun t => scaleRefusal ((t.rdRange c rx).take blocks ++ (t.rdRange c ry).take blocks),
              run := fun t =>
                let v := mma4Sum (t.rdRange c ra) (t.rdRange c rb) (t.rdRange c rx) (t.rdRange c ry) blocks (bitAt fmt 0) (bitAt fmt 1)
                t.wrRange c rd (leBytes 4 v.toNat ++ (t.rdRange c rd).drop 4) }
     | _, _, _, _, _ => none)

/-- MMA4 (R77). -/
def execMma4 (c : Nat) (e : List ReadErr) (a b sa sb dst blocks fmt : Nat) (s : State) : Host.Outcome State Fault Refusal :=
  .next (s.issue c 0x30 e fun s d => s.mma4Judge c a b sa sb dst blocks fmt d)

/-- What PQUANT makes of the weights of `keys` keys for head-dimension block `blk` (R78): the packed E2M1 elements in 32-key
blocks of 16 bytes, then one E8M0 exponent byte a block. `ev` holds four value scale bytes a key. -/
def pquantBytes (ps : List Word) (ev : List Byte) (keys blk : Nat) : List Byte :=
  let xs := (List.range keys).map fun t => (fScaleSat (ps.getD t 0) (((ev.getD (4 * t + blk) 0).toNat : Int) - 127)).1
  let blocks := (chunks 32 xs).map quantKeys
  (blocks.flatMap fun q => padTo 16 (packNibbles (q.1.map (elemCode true)))) ++ blocks.map fun q => BitVec.ofNat 8 (q.2 + 127).toNat

/-- PQUANT (R78, R178). -/
def State.pquantJudge (s : State) (c p ev dst keys blk : Nat) (d : Desc) : Judged :=
  let n := cdiv (17 * cdiv keys 32) 8
  judgeWith false d
    (if c < 256 then none
     else match s.mcSource c p (cdiv keys 2), s.mcSource c ev (cdiv keys 2), s.mcRange c dst n with
     | some rp, some re, some rd =>
       some { reads := [rp, re], writes := [rd], refuse := fun t => scaleRefusal ((t.rdRange c re).take (4 * keys)),
              run := fun t => t.wrRange c rd (padTo (8 * n) (pquantBytes (t.rdLanes c rp) (t.rdRange c re) keys (blk % 4))) }
     | _, _, _ => none)

/-- PQUANT (R78). -/
def execPquant (c : Nat) (e : List ReadErr) (p ev dst keys blk : Nat) (s : State) : Host.Outcome State Fault Refusal :=
  .next (s.issue c 0x31 e fun s d => s.pquantJudge c p ev dst keys blk d)

/-- PMERGE (R216, R218): the records fold left in the order the descriptor names them, and at the group's root `finish` applies.
A finished record whose NAN flag is set is noticed as CANARY_NAN; a record with a reserved flag set is refused (R11). -/
def State.pmergeJudge (s : State) (c : Nat) (srcs : List Nat) (dst : Nat) (finish : Bool) (d : Desc) : Judged :=
  let n := if finish then 64 else 66
  judgeWith false d
    (if c < 256 then none
     else match srcs.mapM fun w => s.mcRange c w 66, s.mcRange c dst n with
     | some rs, some rd =>
       some { reads := rs, writes := [rd],
              refuse := fun t => if rs.any fun r => Partial.reserved (t.rdRange c r) then rAbiMismatch else 0,
              run := fun t =>
                let p := foldPartials (rs.map fun r => Partial.ofBytes (t.rdRange c r))
                if finish then
                  let stream := (t.core c).run.bind fun r => r.step.stream
                  let t := if p.nan then t.notify { cause := causeCanaryNan, unit := unitCore c, detail := d.index, source := coreEp c,
                                                    stream := stream, region := (t.coreRegion c).getD 0, time := 0, seq := 0 } else t
                  t.wrRange c rd (laneBytes p.finish)
                else t.wrRange c rd p.bytes }
     | _, _ => none)

/-- PMERGE (R218). -/
def execPmerge (c : Nat) (e : List ReadErr) (srcs : List Nat) (dst : Nat) (finish : Bool) (s : State) : Host.Outcome State Fault Refusal :=
  .next (s.issue c 0x32 e fun s d => s.pmergeJudge c srcs dst finish d)

/-! ## CANDS (R281, R284, R286) -/

/-- The settings that a stream's token is sampled with (R283, R286): those fixed when its sampling started, or else the present ones, with the mask
of ONCE or STICKY, or the oldest unused one of WAIT; none while a mask is awaited. -/
def Stream.settings (t : Stream) : Option SmpNow :=
  match t.smpNow with
  | some x => some x
  | none => match t.maskMode with
    | 0 => some { sampler := t.sampler, mask := none }
    | 3 => t.waitMasks.head?.map fun m => { sampler := t.sampler, mask := some m }
    | _ => some { sampler := t.sampler, mask := some t.mask }

/-- The mask state once a token takes its mask (R286): ONCE reverts to OFF, a mask of WAIT is used up. -/
def Stream.useMask (t : Stream) : Stream :=
  if t.maskMode = 1 then { t with maskMode := 0, mask := [] }
  else if t.maskMode = 3 then { t with waitMasks := t.waitMasks.drop 1 } else t

/-- The sampling of a stream's token starts: its settings are fixed and its mask is used (R283, R286; DESIGN CHOICE, log entry 152: a mask is used by
the token whose sampling it meets, also when that token rolls back later). With no mask for it yet, the stream waits. -/
def Stream.beginSampling (t : Stream) : Stream :=
  if t.smpNow.isSome then t
  else match t.settings with
    | some x => { t.useMask with smpNow := some x, maskWait := false }
    | none => { t with maskWait := true }

/-- Whether a token's mask permits a token (R286). -/
def SmpNow.permits (t : SmpNow) (v : Nat) : Bool := match t.mask with
  | none => true
  | some m => bitAt (m.getD (v / 8) 0).toNat (v % 8)

/-- A token's logit after steps 2 to 4 of R284. `recent` are the last WINDOW committed tokens. -/
def SmpNow.adjust (t : SmpNow) (vocab : Nat) (recent : List Nat) (v : Nat) (z : Word) : Word :=
  let z := if vocab ≤ v || !(t.permits v) then nInf else z
  let z := (t.sampler.biases.filter fun b => b.1 == v).foldl (fun z b => fAdd z b.2) z
  let n := recent.count v
  if n = 0 then z
  else
    let z := if !(isNan z) && fLt 0 z then fDiv z t.sampler.rep else fMul z t.sampler.rep
    fSub (fSub z t.sampler.pres) (fMul (ofIntExp n 0) t.sampler.freq)

/-- The last `window` committed tokens of a stream: those of the committed slots, and a sampled token whose commit was decided
and which has no slot yet (R247, R287). -/
def Stream.recent (t : Stream) (window : Nat) : List Nat :=
  let h := t.history.take t.committed ++ (if t.pendSampled then t.pend.take 1 else [])
  h.drop (h.length - window)

/-- Steps 1 to 6 of R284 over a slice's logits, from token `first` on. At TEMP 0 the one candidate is the largest logit; else the
TOP_K largest, or 1,024. -/
def SmpNow.slice (t : SmpNow) (recent : List Nat) (vocab first : Nat) (zs : List Word) : SliceCands :=
  let zs := zs.zipIdx.map fun p => t.adjust vocab recent (first + p.2) p.1
  let sp := t.sampler
  if isZero sp.temp then
    { m := (topK 1 zs).headD (nInf, 0) |>.1, l := 0, cands := (topK 1 zs).map fun p => (first + p.2, p.1) }
  else
    let zs := zs.map fun z => fDiv z sp.temp
    let open_ := (zs.zipIdx.filter fun p => decide (first + p.2 < vocab) && t.permits (first + p.2)).map (·.1)
    let m := open_.foldl fMax nInf
    { m := m, l := sumLanes (open_.map fun z => fExpE (fSub z m)) false,
      cands := (topK (if sp.topK = 0 then 1024 else sp.topK) zs).map fun p => (first + p.2, p.1) }

/-- The bytes of a slice's answer: m_s and l_s, then the candidates as pairs of token ID and logit. -/
def candBytes (x : SliceCands) : List Byte :=
  leBytes 4 x.m.toNat ++ leBytes 4 x.l.toNat ++ x.cands.flatMap fun p => leBytes 4 p.1 ++ leBytes 4 p.2.toNat

/-- The settings of a stream's token; those of a stream that waits for a mask are not used. -/
def State.settingsOf (s : State) (stream : Nat) : SmpNow := (s.stream stream).settings.getD { sampler := Sampler.default, mask := none }

/-- CANDS (R284): `count` logits from token `first` on, for a stream's next token, whose sampling starts with it (R283). -/
def State.candsJudge (s : State) (c stream src first count dst : Nat) (d : Desc) : Judged :=
  let t := s.settingsOf stream
  let k := if isZero t.sampler.temp then 1 else if t.sampler.topK = 0 then 1024 else t.sampler.topK
  let n := 1 + min k count
  judgeWith false d
    (if c < 256 then none
     else match s.mcRange c src (cdiv count 2), s.mcRange c dst n with
     | some a, some b =>
       some { reads := [a], writes := [b],
              run := fun t =>
                let x := t.settingsOf stream
                (t.wrRange c b (padTo (8 * n) (candBytes
                  (x.slice ((t.stream stream).recent x.sampler.window) (fld (t.rd smpVocab) 23 0) first ((t.rdLanes c a).take count))))).updStream
                  stream Stream.beginSampling }
     | _, _ => none)

/-- CANDS (R284): it does not issue while the stream waits for its token's mask (R286). -/
def execCands (c : Nat) (e : List ReadErr) (stream src first count dst : Nat) (s : State) : Host.Outcome State Fault Refusal :=
  .next (
    if (s.stream stream).settings.isNone && ((s.core c).fetched.any fun d => d.op == 0x33) then s.updStream stream Stream.beginSampling
    else s.issue c 0x33 e fun s d => s.candsJudge c stream src first count dst d)

/-! ## KVCMD (R208) -/

/-- The words of a reply: one partial record a row for ATTEND, none for APPEND (R208, R212). -/
def replyWords (bs : List Byte) : Nat := if (kvHdr bs).cmd = 1 then 66 * (kvHdr bs).rows else 0

/-- KVCMD (R208, R43): the command block goes to the stack, which ends its reads (R164); DST is the reply's place, and 0 for APPEND. -/
def State.kvcmdJudge (s : State) (c : Nat) (d : Desc) : Judged :=
  let k := bitsOf d.func 2 0
  if bitsOf d.func 4 3 != 0 || d.w2 != 0 then .bad rAbiMismatch
  else match (s.rangeOf c d.w1 d.len).filter fun r => r.space != 1 && !r.isOb with
    | none => .bad causeDescInvalid
    | some a =>
      let bs := s.rdRange c a
      let n := replyWords bs
      let net := spaceOf d.w3 == 3
      let dst := if n = 0 ∨ net then none else (s.dstRange c d.w3 n true).filter fun r => r.space != 1
      if d.len = 0 then .act Act.empty
      else if (n = 0 ∧ d.w3 ≠ 0 ∧ (kvHdr bs).cmd = 2) ∨ (n ≠ 0 ∧ !net ∧ dst.isNone) then .bad causeDescInvalid
      else if s.coreRegion c ≠ s.epRegion (epStack k) then .late rRegionViolation
      else
        .act { reads := [a], writes := dst.toList, await := .kvcmd, early := true,
               run := fun t =>
                 let cmd : KvCmd := { core := c, step := (s.core c).runId, index := d.index, bytes := t.rdRange c a, dst := d.w3, region := (t.coreRegion c).getD 0 }
                 { t with kv := { t.kv with kvq := Table.set [] t.kv.kvq k (Table.get [] t.kv.kvq k ++ [cmd]) } } }

/-- KVCMD (R208). -/
def execKvcmd (c : Nat) (e : List ReadErr) (s : State) : Host.Outcome State Fault Refusal := .next (s.issue c 0x34 e fun s d => s.kvcmdJudge c d)

/-- A reply has filled local memory: an operand buffer records the command it was filled by (R178), and a read-only granule's 32 KiB pieces no
page, since a reply is no page's copy (R181; DEDUCED, log entry 144). -/
def State.noteReply (s : State) (c k : Nat) (r : KvReply) (b : Rng) : State :=
  if b.isOb then
    let place := b.start - obBase (c - 256) 0
    let fill : Fill := { place := place % 0x4000, src := s.attendPieces k r.cmd, cmd := some (k, r.cmd) }
    s.updCore c fun t => { t with ob := setAt t.ob (place / 0x4000) fun _ => some fill }
  else if b.isPool then
    let hit (j : Nat) : Bool := decide (poolBase + 0x8000 * j < b.start + 8 * b.words ∧ b.start < poolBase + 0x8000 * (j + 1))
    s.updCore 256 fun t => { t with roSource := t.roSource.filter fun p => !(hit p.1) }
  else s

/-- A reply's bytes go to their place: local memory, or an endpoint's by packets of the stack (R208). -/
def State.placeReply (s : State) (c k : Nat) (r : KvReply) : State :=
  if r.bytes.isEmpty then s
  else if spaceOf r.dst = 3 then s.sendPackets (netPackets (epStack k) (fld r.dst 28 17) (16 * fld r.dst 16 0) r.bytes)
  else match s.rangeOf c r.dst (r.bytes.length / 8) with
    | some b => (s.wrRange c b r.bytes).noteReply c k r b
    | none => s

/-- KVCMD_COMPLETE (R208): the stack's answer has come: the reply is written and the descriptor's work is done, or its cause
faults the step. The answer to a command of a step that has ended is discarded (R239). -/
def execKvcmdComplete (c idx : Nat) (s : State) : Host.Outcome State Fault Refusal :=
  .next (
    match s.kv.replies.find? fun r => r.core == c && r.index == idx with
    | none => s
    | some r =>
      let waits (i : Issued) : Bool := i.await == .kvcmd && i.desc.index == idx && i.step == r.step
      let s := { s with kv := { s.kv with replies := s.kv.replies.erase r } }
      match (s.core c).issued.find? waits with
      | none => s
      | some i =>
        let net := spaceOf r.dst == 3 && !r.bytes.isEmpty
        let next : Issued := { i with await := if net then .packets (cdiv r.bytes.length 240) else .nothing, cause := r.cause }
        (s.updCore c fun t => { t with issued := mapFirst waits (fun _ => next) t.issued }).placeReply c (bitsOf i.desc.func 2 0) r)

end Sys2Proof.Machine
end

