-- ==== Sys2Proof/Machine/Sampling.lean ====
section
/-! DEFINITION. The sampling unit (R284 steps 5 to 8, R285, R287): candidates of all slices, the cuts, the draw, and stop
matching. -/

namespace Sys2Proof.Machine

/-- Whether candidate `a` comes before `b`: larger value first, the lower ID on a tie. -/
def candFirst (a b : Nat × Word) : Bool := ranksBelow b.2 a.2 || (!(ranksBelow a.2 b.2) && decide (a.1 ≤ b.1))

/-- A candidate placed in that order. -/
def insertCand (a : Nat × Word) : List (Nat × Word) → List (Nat × Word)
  | [] => [a]
  | b :: t => if candFirst a b then a :: b :: t else b :: insertCand a t

def sortCands (l : List (Nat × Word)) : List (Nat × Word) := l.foldr insertCand []

/-- The shortest prefix, of at least one candidate, whose summed p reaches TOP_P, or all (R284 step 7). -/
def topPrefix (p : Word) : Word → List (Nat × Word) → List (Nat × Word)
  | _, [] => []
  | acc, x :: t =>
    let sum := fAdd acc x.2
    x :: (if ranksBelow sum p then topPrefix p sum t else [])

/-- Steps 7 of R284 on the candidates' logits: probabilities, order and cuts. -/
def keptCands (sp : Sampler) (m z : Word) (cands : List (Nat × Word)) : List (Nat × Word) :=
  let ps := (sortCands (cands.map fun c => (c.1, fDiv (fExpE (fSub c.2 m)) z))).take 1024
  let ps := if sp.topK = 0 then ps else ps.take sp.topK
  let ps := if sp.topP = 0x3F800000 then ps else topPrefix sp.topP 0 ps
  match ps with
  | [] => []
  | x :: t => x :: t.filter fun y => !(ranksBelow y.2 (fMul sp.minP x.2))

/-- The draw u × 2^32 of R285. -/
def drawOf (seed : DWord) (slot : Nat) : Nat :=
  ofBe ((aes128 (leBytes 8 seed.toNat ++ List.replicate 8 0) (beBytes 8 slot ++ List.replicate 8 0)).take 4)

/-- The first candidate whose running sum exceeds a limit; the last one where rounding leaves none (DEDUCED, log entry 30). -/
def pickRun (limit : Word) : Word → List (Nat × Word) → Option Nat
  | _, [] => none
  | _, [x] => some x.1
  | acc, x :: y :: t =>
    let sum := fAdd acc x.2
    if ranksBelow limit sum then some x.1 else pickRun limit sum (y :: t)

/-- The token that the sampler picks from the slices' answers (R284), none when every candidate is excluded (R286). -/
def SmpNow.pick (t : SmpNow) (vocab slot : Nat) (slices : List SliceCands) : Option Nat :=
  let cands := (slices.flatMap fun x => x.cands).filter fun c => decide (c.1 < vocab) && t.permits c.1
  if isZero t.sampler.temp then (sortCands cands).head?.map (·.1)
  else
    let m := slices.foldl (fun a x => fMax a x.m) nInf
    let z := slices.foldl (fun a x => fAdd a (fMul x.l (fExpE (fSub x.m m)))) 0
    let kept := keptCands t.sampler m z cands
    let total := kept.foldl (fun a x => fAdd a x.2) 0
    let limit := ofRat (((drawOf t.sampler.seed slot : Nat) : Rat) / 4294967296 * fRat total)
    pickRun limit 0 kept

/-- The tokens sampled under the current GENERATE item, oldest first (R287). -/
def Stream.genTokens (t : Stream) : List Nat :=
  let h := t.history ++ (if t.pendSampled then t.pend.take 1 else [])
  h.drop (h.length - t.genCount)

/-- A sampled token under its settings: whether it is a stop token, and whether it completes a stop sequence (R284 step 9, R287). -/
def Stream.sampledAs (t : Stream) (x : SmpNow) (token : Nat) : SampledTok :=
  let g := t.genTokens ++ [token]
  { token := token, stop := x.sampler.stops.contains token,
    seq := x.sampler.seqs.any fun q => decide (q.length ≤ g.length) && g.drop (g.length - q.length) == q }

end Sys2Proof.Machine
end

