-- ==== Sys2Proof/Machine/Streams.lean ====
section
/-! DEFINITION. Streams at the ingress module (R245 to R250, R257, R258, R262, R267, R278 to R280, R287): the work list, token
boundaries, parking's start, opening, closing, cancelling, the token's life, and the commands of a submission ring. -/

namespace Sys2Proof.Machine

/-! ## Events and decisions -/

/-- STREAM_DONE reasons (R262). -/
def doneBudget : Nat := 0
def doneStop : Nat := 1
def doneCancelled : Nat := 2
def doneClosed : Nat := 3
def donePrefill : Nat := 4
def doneMaskEmpty : Nat := 5
def doneFault : Nat := 6

/-- STREAM_DONE: reason in CODE, the committed count in DATA (R262). -/
def State.streamDone (s : State) (i reason : Nat) (tag : DWord) : State :=
  s.streamEvent i evStreamDone 0 reason tag (BitVec.ofNat 64 (s.stream i).committed)

/-! ## The work list (R249, R250) -/

/-- The GENERATE item in progress ends (R262, R287). -/
def State.endItem (s : State) (i reason : Nat) : State :=
  let tag := (s.stream i).genTag
  (s.updStream i fun t => { t with work := t.work.drop 1, generating := false, budget := 0 }).streamDone i reason tag

/-- APPEND_TOKENS takes effect: matched blocks become the stream's (R288), the other tokens wait to be prefilled. -/
def State.appendNow (s : State) (i : Nat) (tokens : List Nat) (noMatch pin : Bool) : State :=
  let t := s.stream i
  let start := t.history.length + t.pend.length
  let r := if noMatch then (tokens, s) else s.matchPrefix i tokens pin
  r.2.updStream i fun t =>
    { t with pend := t.pend ++ r.1,
             pinRanges := if pin then t.pinRanges ++ [(start, start + tokens.length)] else t.pinRanges }

/-- A GENERATE item starts (R287): its budget, and matching state anew. -/
def State.startItem (s : State) (i budget : Nat) (tag : DWord) : State :=
  s.updStream i fun t => { t with generating := true, budget := budget, genTag := tag, genCount := 0, itemStart := s.now }

/-- The reason with which a GENERATE ends before a token: nothing to prefill and a budget of 0, or no token to start from. -/
def Stream.emptyItem (t : Stream) : Option Nat :=
  if !t.pend.isEmpty then none
  else if t.budget = 0 then some donePrefill
  else if t.history.isEmpty then some doneFault else none

/-- Whether an APPEND_TOKENS item waits: its walk would be a new match on a bank whose last generation's nodes wait for eviction (R237). -/
def State.itemHeld (s : State) (i : Nat) (noMatch : Bool) : Bool := !noMatch && s.treeActive && s.matchHeld (s.streamBank (s.stream i))

/-- A stream between tokens works through its list: APPEND_TOKENS items take effect, a GENERATE starts, and an empty list makes
it IDLE (R249, R250). It holds there while its events find the module's hold full (R264). -/
def State.workOn (s : State) (i : Nat) : Nat → State
  | 0 => s
  | fuel + 1 =>
    let t := s.stream i
    if !(t.state == .idle || t.state == .active) || t.flying.isSome || t.cancelTag.isSome || s.evrBlocked t.ringEvr then s
    else match t.work with
      | [] => s.updStream i fun t => { t with state := .idle }
      | .append tokens nm pin _ :: rest =>
        if s.itemHeld i nm then s.updStream i fun t => { t with state := .active }
        else ((s.updStream i fun t => { t with state := .active, work := rest }).appendNow i tokens nm pin).workOn i fuel
      | .generate b tag :: _ =>
        let s := s.updStream i fun t => { t with state := .active }
        let s := if t.generating then s else s.startItem i b tag
        match (s.stream i).emptyItem with
        | some reason => (s.endItem i reason).workOn i fuel
        | none => s

/-- More than the items of a full work list. -/
def workFuel : Nat := 20

/-- Streams with work that they may not have begun go on with it. -/
def State.workAll (s : State) (p : Stream → Bool) : State :=
  s.each ((s.wnd.streams.filter fun t => !t.2.work.isEmpty && p t.2).map (·.1)) fun s i => s.workOn i workFuel

/-- GEN_EVICT (R237): after a swap on a bank, every node of the bank's previous generation is evicted, and the matches that waited start. -/
def execGenEvict (bank : Bool) (s : State) : Host.Outcome State Fault Refusal := .next ((s.genEvict bank).workAll fun _ => true)

/-- HELD_RECORD_WRITE (R264): the oldest held record of a ring is written once the ring takes it, and the streams that held for it go on. -/
def execHeldRecordWrite (ring : Nat) (s : State) : Host.Outcome State Fault Refusal := .next ((s.heldWrite ring).workAll fun t => t.ringEvr == ring)

/-! ## Opening and closing (R258, R250, R233) -/

/-- A page of the parent becomes the child's as well (R226, R258); a spilled one is reloaded first. -/
def State.sharePage (s : State) (parent child key : Nat) : State :=
  let region := (s.stream parent).region
  let s := if (s.pte key).spilled then s.reloadPage region key else s
  let p := s.pte key
  if !p.valid || p.spilled then s
  else match s.shareFrame region key p.stack p.frame with
    | (some (k, f), s) =>
      s.setPte (pteKey child (keyLayer key) (keyHead key) (keyPage key)) { Pte.none with frame := f, stack := k, valid := true }
    | (none, s) => s

/-- The committed pages of a parent, its tail page included (R226, R258). -/
def State.sharedKeys (s : State) (p : Nat) : List Nat :=
  ((s.streamPtes p).filter fun e => e.2.valid && decide (256 * keyPage e.1 < (s.stream p).committed)).map (·.1)

/-- A stream's context, open and IDLE, with the job's rotary map (R203, R283) or its parent's (R258), as every module of the job holds it (R245).
The ring stays, and so do TOKEN_OUT records that wait for a mirror (R247). A parent's slots go to the mirror partner (R295). -/
def State.openHere (s : State) (i cls customer : Nat) (bank : Bool) (region : Nat) (parent : Option Nat) : State :=
  let t := s.stream i
  let fresh : Stream :=
    { Stream.free with
      state := .idle, cls := cls, customer := customer, bank := bank, region := region, ringBase := t.ringBase,
      ringSize := t.ringSize, ringEvr := t.ringEvr, fn := t.fn, head := t.head, tail := t.tail, mirrorWait := t.mirrorWait,
      pos := openMap (s.rd kvpRopeDefBase) (fld (s.rd kvpRopeDefDims) 7 0) }
  match parent with
  | none => s.setStream i fresh
  | some p =>
    let q := s.stream p
    let child : Stream :=
      { fresh with pos := q.pos, sampler := q.sampler, mask := q.mask, maskMode := q.maskMode, waitMasks := q.waitMasks,
                   committed := q.committed, history := q.history, pend := q.pend, pendSampled := q.pendSampled }
    let s := s.setStream i child
    let s := s.each (s.sharedKeys p) fun s key => s.sharePage p i key
    s.mirrorSlots i 0 q.committed

/-- OPEN_STREAM takes effect at the ingress module, which tells the others (R246, R258). -/
def State.openNow (s : State) (i cls customer : Nat) (bank : Bool) (parent : Option Nat) : State :=
  let region := (s.stream i).region
  (s.openHere i cls customer bank region parent).announce (.opened i cls customer bank region parent)

/-- What a stream holds on this module goes: its frames lose a holder, its copies and waiting maps go, its nodes lose a reference (R228, R233). -/
def State.dropHolds (s : State) (i : Nat) : State :=
  let s := s.rollbackStream i
  let t := s.stream i
  let s := s.each (s.streamPtes i) fun s e => s.releasePage e.1
  let s := s.each t.matched fun s n => s.updNode n fun x => { x with refs := x.refs - 1 }
  { s with kv := { s.kv with pending := s.kv.pending.filter fun p => p.stream != i,
                             reloading := s.kv.reloading.filter fun j => j != i } }

/-- A stream's context is FREE. The ring stays, and so do TOKEN_OUT records that wait for a mirror (R247). -/
def State.freeContext (s : State) (i : Nat) : State :=
  let t := s.stream i
  s.setStream i { Stream.free with region := t.region, ringBase := t.ringBase, ringSize := t.ringSize, ringEvr := t.ringEvr, fn := t.fn,
                                   head := t.head, tail := t.tail, mirrorWait := t.mirrorWait }

/-- CLOSE_STREAM takes effect at the ingress module, which tells the others (R228, R233, R246, R250). -/
def State.closeNow (s : State) (i : Nat) (tag : DWord) : State :=
  ((((s.dropHolds i).streamDone i doneClosed tag).freeContext i)).announce (.closed i)

/-! ## The start of a park (R290, R293) -/

/-- Bytes that a park of a stream moves: its pages that are resident. -/
def State.parkVolume (s : State) (i : Nat) : Nat := ((s.streamPtes i).filter fun e => e.2.valid && !e.2.spilled).length * pageBytes

/-- Where a PARK goes (R290): 0 DRAM, 1 the vault while the budget takes it, 2 storage; none when refused. -/
def State.parkPlace (s : State) (i target : Nat) : Option Nat :=
  if target = 0 then some 0 else s.movePlace target (s.parkVolume i)

/-- A park that a prepare for removal waits for is refused: the prepare fails (R478). -/
def State.parkRefused (s : State) (i : Nat) : State :=
  if s.hf.rmvStep = 1 ∧ s.hf.rmvWait.contains i then { s with hf := { s.hf with rmvStep := 5, rmvCode := rCapacity, rmvWait := [] } } else s

/-- A stream goes to PARKING on this module; a park to the vault or to storage reserves its volume against the budget (R293; DEDUCED, log entry 127). -/
def State.parkHere (s : State) (i place : Nat) (tag : DWord) : State :=
  let n := s.parkVolume i
  let s := if place = 0 then s else { s with swap := { s.swap with parkUsed := s.swap.parkUsed ++ [(s.now, n)] } }
  s.updStream i fun t => { t with beforePark := t.state, state := .parking, parkTarget := place, parkTag := tag, parkBytes := n }

/-- A stream between tokens goes to PARKING, with its volume reserved (R293); the target is judged again. -/
def State.startPark (s : State) (i target : Nat) (tag : DWord) : State :=
  match s.parkPlace i target with
  | none => (s.refusedEvent i rCapacity tag 9).parkRefused i
  | some place => (s.parkHere i place tag).announce (.park i place)

/-! ## Token boundaries (R250) -/

/-- A stream is PAUSED, and the other modules hear of it: its pages may be spilled (R227, R250). -/
def State.pauseNow (s : State) (r : Nat) : State := (s.updStream r fun t => { t with state := .paused }).announce (.pause r)

/-- What waits for a token boundary takes effect: committed maps go out (R206), CLOSE_STREAM, PAUSE and PARK; else the stream works on. -/
def State.boundary (s : State) (i : Nat) : State :=
  let s := s.sendMaps i
  let t := s.stream i
  match t.wantClose with
  | some tag => s.closeNow i tag
  | none =>
    let s := if t.wantPause && t.state == .active then s.pauseNow i else s
    let s := s.updStream i fun t => { t with wantPause := false, wantPark := none }
    match t.wantPark with
    | some (target, tag) => (s.startPark i target tag).workOn i workFuel
    | none => s.workOn i workFuel

/-! ## Commands of a submission ring (R254 to R258) -/

/-- A command that meets a FREE stream is refused with CAPACITY (R257); else it is consumed and takes effect. -/
def State.onStream (s : State) (r op : Nat) (f : State → Item → State) : State :=
  s.onItem r op fun it => if (s.stream r).state = .free then s.refuseItem r it rCapacity else f (s.consume r it) it

/-- The parent of an OPEN_STREAM: none, or the stream named, or refused (R258). A parent must be resident (DEDUCED, log entry 31). -/
def State.parentOf (s : State) (r : Nat) (it : Item) : Option (Option Nat) :=
  if !(bitAt (it.arg 0x14 4) 20) then some none
  else
    let p := bitsOf (it.arg 0x14 4) 19 0
    let q := s.stream p
    if p != r && (q.state == .idle || q.state == .active || q.state == .paused) && q.bank == bitAt (it.arg 0x11 1) 0 &&
        q.region == (s.stream r).region then some (some p)
    else none

/-- OPEN_STREAM (R257, R258): refused with CAPACITY unless FREE, with an admitted class that has room and a parent that fits; held
while the parent has a token in flight. Where a page that must be copied finds no frame, the open is refused and changes nothing
else. -/
def execOpenStream (r : Nat) (s : State) : Host.Outcome State Fault Refusal :=
  .next (s.onItem r 0x01 fun it =>
    let c := it.arg 0x10 1
    if (s.stream r).state ≠ .free ∨ !(s.cls c).admitted ∨ (s.cls c).maxStreams ≤ s.classOpen c then (s.freeParent r).refuseItem r it rCapacity
    else match s.parentOf r it with
      | none => (s.freeParent r).refuseItem r it rCapacity
      | some none => (s.consume r it).openNow r c (it.arg 0x12 1) (bitAt (it.arg 0x11 1) 0) none
      | some (some p) =>
        if (s.stream p).flying.isSome ∨ (s.stream p).cancelTag.isSome then s.updStream p fun t => { t with wantOpen := some r }
        else
          let s := s.updStream p fun t => { t with wantOpen := none }
          let t := (s.consume r it).openNow r c (it.arg 0x12 1) (bitAt (it.arg 0x11 1) 0) (some p)
          if (t.streamPtes r).length < (s.sharedKeys p).length then s.allocFail.refuseItem r it rCapacity else t)

/-- CLOSE_STREAM (R250, R294): at once without a token in flight, else when it commits. -/
def execCloseStream (r : Nat) (s : State) : Host.Outcome State Fault Refusal :=
  .next (s.onStream r 0x02 fun s it =>
    if (s.stream r).flying.isSome ∨ (s.stream r).cancelTag.isSome then s.updStream r fun t => { t with wantClose := some it.tag }
    else s.closeNow r it.tag)

/-- An item enters the work list; a stream between tokens takes it up (R249, R250). -/
def State.addWork (s : State) (r : Nat) (w : Work) : State :=
  let s := s.updStream r fun t => { t with work := t.work ++ [w], state := if t.state = .idle then .active else t.state }
  s.workOn r workFuel

/-- APPEND_TOKENS (R256, R257, R259, R288). -/
def execAppendTokens (r : Nat) (s : State) : Host.Outcome State Fault Refusal :=
  .next (s.onStream r 0x04 fun s it =>
    s.addWork r (.append (s.itemTokens it) (bitAt (it.arg 0x14 4) 0) (bitAt (it.arg 0x14 4) 1) it.tag))

/-- GENERATE (R257, R287). -/
def execGenerate (r : Nat) (s : State) : Host.Outcome State Fault Refusal :=
  .next (s.onStream r 0x05 fun s it => s.addWork r (.generate (it.arg 0x10 4) it.tag))

/-- PAUSE (R250, R257): at once between tokens, else at the boundary; without effect in the other states. -/
def execPause (r : Nat) (s : State) : Host.Outcome State Fault Refusal :=
  .next (s.onStream r 0x06 fun s _ =>
    match (s.stream r).state with
    | .idle => s.pauseNow r
    | .active =>
      if (s.stream r).flying.isSome ∨ (s.stream r).cancelTag.isSome then s.updStream r fun t => { t with wantPause := true }
      else s.pauseNow r
    | _ => s)

/-- RESUME (R250, R257). -/
def execResume (r : Nat) (s : State) : Host.Outcome State Fault Refusal :=
  .next (s.onStream r 0x07 fun s _ =>
    if (s.stream r).state = .paused then
      let work := (s.stream r).work
      ((s.updStream r fun t => { t with state := if work.isEmpty then .idle else .active }).announce (.resume r)).workOn r workFuel
    else s)

/-- CANCEL for a stream goes out on this module's control network, and its steps that are ready are not issued (R280). -/
def State.sendCancel (s : State) (i : Nat) : State :=
  let region := (s.stream i).region
  let s := { s with wnd := { s.wnd with ready := s.wnd.ready.filter fun r => r.stream != some i } }
  let s := s.send (s.ctlMsg 0xFFF epWinder 4 region 1 i 0)
  s.each (maskBits 16 (s.region region).merge) fun s m => s.send (s.ctlMsg (0x400 + m) epWinder 4 region 1 i 0)

/-- A CANCEL takes effect at the ingress module (R279, R280): the token in flight and the `n` work-list items before it are discarded, and CANCEL
goes out on the control network and to every module. -/
def State.startCancel (s : State) (i : Nat) (tag : DWord) (n : Nat) : State :=
  let s := s.updStream i fun t => { t with flying := none, work := t.work.drop n, generating := false, budget := 0, maskWait := false,
                                           smpHold := false, smpNow := none, cancelTag := some tag }
  (s.sendCancel i).announce (.cancel i)

/-- CANCEL (R257, R279, R294): without effect with no token in flight and an empty work list; held over a park or unpark. A second
CANCEL waits in its ring until the first is acknowledged. -/
def execCancel (r : Nat) (s : State) : Host.Outcome State Fault Refusal :=
  .next (
    if (s.stream r).cancelTag.isSome then s
    else s.onStream r 0x08 fun s it =>
      let t := s.stream r
      if t.state = .parking ∨ t.state = .unparking then
        s.updStream r fun t => { t with cancelHeld := some (t.cancelHeld.getD (it.tag, t.work.length)) }
      else if t.flying.isNone ∧ t.work.isEmpty then s
      else s.startCancel r it.tag t.work.length)

/-- Whether a CANCEL of a stream is still on its way on this module's control network. -/
def State.cancelFlying (s : State) (i : Nat) : Bool := s.noc.ctl.any fun m => m.typ == 4 && m.arg0.toNat == i

/-- CANCEL_ACK (R280): every module has acknowledged: the staged KV is gone, STREAM_DONE is written, and the stream is at a token
boundary. -/
def execCancelAck (stream : Nat) (s : State) : Host.Outcome State Fault Refusal :=
  .next (
    match (s.stream stream).cancelTag with
    | some tag =>
      if s.cancelFlying stream then s
      else
        let s := s.rollbackStream stream
        let s := s.updStream stream fun t => { t with cancelTag := none }
        (s.streamDone stream doneCancelled tag).boundary stream
    | none => s)

/-- CANCEL on the control network (R37, R116, R192, R225): each target discards the stream's work, and its staged KV rolls back. -/
def execCtlCancel (m : CtlMsg) (s : State) : Host.Outcome State Fault Refusal :=
  s.onArrival m fun t =>
    if s.ctlAccepts m then
      let i := m.arg0.toNat
      let t := t.each ((s.ctlTargets m).filterMap epCore) fun t c => t.dropStreamOn c i
      t.rollbackStream i
    else t.discardCtl m

/-- PARK (R250, R257, R290): refused with CAPACITY while UNPARKING, in DRAIN (R425), and where no target takes it. -/
def execPark (r : Nat) (s : State) : Host.Outcome State Fault Refusal :=
  .next (s.onItem r 0x09 fun it =>
    let t := s.stream r
    let target := if it.arg 0x10 1 = 3 then (s.cls t.cls).parkTarget else it.arg 0x10 1
    match t.state with
    | .parking | .parked => s.consume r it
    | .idle | .active | .paused =>
      if s.hf.pwr = .drain ∨ (s.parkPlace r target).isNone then s.refuseItem r it rCapacity
      else
        let s := s.consume r it
        if t.flying.isSome ∨ t.cancelTag.isSome then
          s.updStream r fun t => { t with wantPark := some (t.wantPark.getD (target, it.tag)) }
        else s.startPark r target it.tag
    | _ => s.refuseItem r it rCapacity)

/-- UNPARK (R250, R257, R292). In DRAIN no new one starts (R425). -/
def execUnpark (r : Nat) (s : State) : Host.Outcome State Fault Refusal :=
  .next (s.onItem r 0x0A fun it =>
    match (s.stream r).state with
    | .free => s.refuseItem r it rCapacity
    | .parked =>
      if s.hf.pwr = .drain then s.refuseItem r it rCapacity
      else ((s.consume r it).updStream r fun t => { t with state := .unparking, parkTag := it.tag }).announce (.unpark r)
    | _ => s.consume r it)

/-- Whether sampler and mask settings take effect in a state (R257). -/
def StreamState.settable (x : StreamState) : Bool := x == .idle || x == .active || x == .paused

/-- The settings of a SET_SAMPLER item; with KEEP_SEED the seed stays (R281, R282). -/
def Item.sampler (it : Item) (seed : DWord) : Sampler :=
  let w (o : Nat) : Word := BitVec.ofNat 32 (it.arg o 4)
  { temp := w 0x10, topP := w 0x14, minP := w 0x18, rep := w 0x1C, pres := w 0x20, freq := w 0x24, topK := it.arg 0x28 2,
    window := it.arg 0x2A 2, biases := it.biases, stops := it.stops, seqs := it.seqPayloads.map seqTokens,
    seed := if bitAt (it.arg 0x38 4) 0 then seed else BitVec.ofNat 64 (it.arg 0x30 8) }

/-- SET_SAMPLER (R257, R281 to R283): a token whose sampling has started keeps the settings it started with. -/
def execSetSampler (r : Nat) (s : State) : Host.Outcome State Fault Refusal :=
  .next (s.onItem r 0x0B fun it =>
    if (s.stream r).state.settable then
      let x := it.sampler (s.stream r).sampler.seed
      ((s.consume r it).updStream r fun t => { t with sampler := x }).announce (.sampler r x)
    else s.refuseItem r it rCapacity)

/-- A mask as a stream takes it (R286): one of WAIT serves one token, and any other mode drops those unused. -/
def Stream.setMask (t : Stream) (mode : Nat) (bytes : List Byte) : Stream :=
  if mode = 3 then { t with maskMode := 3, mask := [], waitMasks := t.waitMasks ++ [bytes], maskWait := false }
  else { t with maskMode := mode, mask := bytes, waitMasks := [], maskWait := false }

/-- SET_MASK (R257, R259, R283, R286): the mask is copied. -/
def execSetMask (r : Nat) (s : State) : Host.Outcome State Fault Refusal :=
  .next (s.onItem r 0x0C fun it =>
    if (s.stream r).state.settable then
      let mode := it.arg 0x10 1
      let bytes := if mode = 0 then [] else s.rdMem (hostBase + it.arg 0x18 8) 0x8000
      ((s.consume r it).updStream r fun t => t.setMask mode bytes).announce (.mask r mode bytes)
    else s.refuseItem r it rCapacity)

/-! ## The token's life (R246, R247, R267) -/

/-- Whether the winder may start a stream's next token: nothing waits for its boundary, nothing holds it. -/
def State.mayEmbed (s : State) (i : Nat) : Bool :=
  let t := s.stream i
  s.isIngress && s.hf.pwr == .ready && t.state == .active && t.generating && t.flying.isNone && t.cancelTag.isNone &&
    t.wantOpen.isNone && !t.held && !t.pcHold && !(s.wnd.heldLevels.contains (s.cls t.cls).prio) &&
    !(s.hf.capShed.isSome && (s.cls t.cls).prio == 7) && !s.wnd.barrier && !s.wnd.drainHold &&
    s.wnd.sliceHold.isEmpty && !(s.kv.pending.any fun p => p.stream == i) && !(s.kv.reloading.contains i) && !(s.hasSpilled i) &&
    !(s.evrBlocked t.ringEvr)

/-- The deadline of a stream's token with a release (R267): the first of a GENERATE item FT_DL after the item's start, a later one TOK_DL after its
release. -/
def State.tokenDeadline (s : State) (i rel : Nat) : Nat :=
  let t := s.stream i
  if t.genCount = 0 then t.itemStart + (s.cls t.cls).ftDl * 1000 else rel + (s.cls t.cls).tokDl

/-- The next token of a stream as it starts, with its release and deadline (R267): a token of a deadline class is released no earlier than TOK_DL
after the token released before. -/
def State.newFlying (s : State) (i : Nat) : Flying :=
  let t := s.stream i
  let c := s.cls t.cls
  let n := t.pend.length
  let base : Flying :=
    { slot := t.committed, token := (t.pend.getLast?.or t.history.getLast?).getD 0, prefill := n, samples := t.budget != 0,
      sampled := none, deadline := none, demoted := false, released := s.now, retried := false, remaining := 0, atRisk := false,
      missed := false }
  if !c.admitted || c.nodl || t.budget = 0 then base
  else if c.maxCtx < t.committed ∨ (t.genCount = 0 ∧ c.maxPrefill < n) then { base with demoted := true }
  else
    let rel := match t.lastRelease with
      | some x => max s.now (x + c.tokDl)
      | none => s.now
    if rel ≤ s.now then { base with deadline := some (s.tokenDeadline i rel) } else { base with demoted := true, released := rel }

/-- TOKEN_EMBED (R246, R250, R267): at a token boundary the ingress module starts the stream's next token, with its pending
prefill. Its first token holds until every module has mapped the nodes it matched (R232). -/
def execTokenEmbed (x : NextToken) (s : State) : Host.Outcome State Fault Refusal :=
  .next (
    let stream := x.stream
    if s.mayEmbed stream && (x.mapped || !(s.stream stream).matchWait) then
      let fl := s.newFlying stream
      let s := s.updStream stream fun t =>
        { t with flying := some fl, matchWait := false, lastRelease := if fl.deadline.isSome then some fl.released else t.lastRelease }
      if fl.demoted then s.inc wndDemotedCount 1 else s
    else s)

/-- TOKEN_RELEASE (R267): the release of a demoted token comes, and it gains its deadline. A stream beyond MAX_CTX, or a first
token whose prefill exceeds MAX_PREFILL, stays demoted. -/
def execTokenRelease (stream : Nat) (s : State) : Host.Outcome State Fault Refusal :=
  .next (
    let t := s.stream stream
    let c := s.cls t.cls
    match t.flying with
    | some fl =>
      if fl.demoted ∧ (t.genCount ≠ 0 ∨ fl.prefill ≤ c.maxPrefill) ∧ t.committed ≤ c.maxCtx ∧ fl.released ≤ s.now then
        s.updStream stream fun t =>
          { t with flying := some { fl with demoted := false, deadline := some (s.tokenDeadline stream fl.released) },
                   lastRelease := some fl.released }
      else s
    | none => s)

/-- A missed deadline is counted once, and draws a record at most every 10 ms of its stream (R278). -/
def State.missDeadline (s : State) (i : Nat) (fl : Flying) : State :=
  match fl.deadline with
  | some d =>
    if fl.missed || decide (s.now ≤ d) || !s.isIngress then s
    else
      let t := s.stream i
      let s := s.inc wndMissCount 1
      let quiet := match t.lastMiss with
        | some x => decide (x + 10000000 ≤ s.now)
        | none => true
      let s := s.updStream i fun t => { t with flying := t.flying.map fun x => { x with missed := true } }
      if quiet then
        (s.updStream i fun t => { t with lastMiss := some s.now }).streamEvent i evAtRisk (2 + flag fl.retried 2) t.cls t.genTag
          (BitVec.ofNat 64 (min 0xFFFFFFFF (s.now - d)))
      else s
  | none => s

/-- DEADLINE_MISS (R278). -/
def execDeadlineMiss (stream : Nat) (s : State) : Host.Outcome State Fault Refusal :=
  .next (match (s.stream stream).flying with
    | some fl => s.missDeadline stream fl
    | none => s)

/-- A token whose candidates are all excluded: it rolls back and the item ends with MASK_EMPTY (R286). -/
def State.maskEmpty (s : State) (i : Nat) : State :=
  let s := (s.dropStreamAll i).rollbackStream i
  let s := s.updStream i fun t => { t with flying := none, smpNow := none }
  (s.endItem i doneMaskEmpty).boundary i

/-- The picking of a stream's token for a slot (R284 to R286): it holds while SMP_CTRL.ENABLE is 0 and for a mask in WAIT. `none` says that it
holds; else the token, none when every candidate is excluded, and the counts. -/
def State.sampleToken (s : State) (i slot : Nat) (slices : List SliceCands) : Option (Option SampledTok) × State :=
  if !(bit (s.rd smpCtrl) 0) then (none, s.updStream i fun t => { t with smpHold := true })
  else
    let t := (s.stream i).beginSampling
    let s := s.setStream i { t with smpHold := false }
    match t.smpNow with
    | none => (none, s)
    | some x =>
      match x.pick s.vocab slot slices with
      | none => (some none, s.inc smpMaskEmptyCount 1)
      | some v =>
        let s := s.inc64 smpSampledLo 1
        let s := if isZero x.sampler.temp then s.inc smpGreedyCount 1 else s
        (some (some (t.sampledAs x v)), s)

/-- TOKEN_SAMPLE (R247, R284 to R286): the sampler picks the token from the slices' answers. On the ingress module it is that of the token in flight;
a sampler module apart picks it for the slot that the command names, returns it to the ingress module, and counts an item that it stops. -/
def execTokenSample (stream : Nat) (x : SlotCands) (s : State) : Host.Outcome State Fault Refusal :=
  .next (
    let slot := x.slot
    let slices := x.slices
    let t := s.stream stream
    if !s.isSampler then s
    else if s.isIngress then
      match t.flying with
      | some fl =>
        if !fl.samples || fl.sampled.isSome then s
        else (match s.sampleToken stream (fl.slot + fl.prefill) slices with
          | (none, s) => s
          | (some none, s) => s.maskEmpty stream
          | (some (some k), s) => s.updStream stream fun t => { t with flying := some { fl with sampled := some k } })
      | none => s
    else if t.state = .free then s
    else match s.sampleToken stream slot slices with
        | (none, s) => s
        | (some none, s) => (s.updStream stream fun t => { t with smpNow := none }).tell (.token stream slot none)
        | (some (some k), s) => (if k.stop || k.seq then s.inc smpStopCount 1 else s).tell (.token stream slot (some k)))

/-- The slots of a token commit (R225, R247): COMMIT goes to every module, with the tokens that join the history and a sampled one (R281). -/
def State.commitToken (s : State) (i : Nat) (fl : Flying) (sampled : Option Nat) : State :=
  let count := fl.slot + fl.prefill
  let t := s.stream i
  let s := (s.commitStream i count).announce (.commit i count (t.pend.take fl.prefill) sampled (t.genCount + sampled.toList.length))
  s.updStream i fun t =>
    { t with flying := none, smpNow := none, history := t.history ++ t.pend.take fl.prefill, pend := t.pend.drop fl.prefill,
             pendSampled := false }

/-- A TOKEN_OUT: at once, or for a MIRROR class once its KV is acknowledged (R247, R296). -/
def State.tokenOut (s : State) (i slot : Nat) (tag data : DWord) : State :=
  if (s.cls (s.stream i).cls).kvprot = 1 then
    s.updStream i fun t => { t with mirrorWait := t.mirrorWait ++ [(slot, tag, data, [])] }
  else s.streamEvent i evTokenOut 0 0 tag data

/-- A sampled token commits (R247, R287): its TOKEN_OUT, the budget, and the end of the item at a stop or at its budget. -/
def State.commitSampled (s : State) (i : Nat) (fl : Flying) (k : SampledTok) : State :=
  let t := s.stream i
  let last := t.budget == 1
  let slot := fl.slot + fl.prefill
  let s := s.commitToken i fl (some k.token)
  let s := s.updStream i fun t =>
    { t with pend := [k.token] ++ t.pend, pendSampled := true, budget := t.budget - 1, genCount := t.genCount + 1,
                     genTotal := t.genTotal + 1 }
  let s := { s with wnd := { s.wnd with custTokens := Table.upd 0 s.wnd.custTokens t.customer (· + 1) } }
  let s := s.tokenOut i slot t.genTag
    (BitVec.ofNat 64 (k.token + flag k.stop 24 + flag k.seq 25 + flag last 26 + slot % 0x100000000 * 0x100000000))
  if k.stop || k.seq then (if s.isSampler then s.inc smpStopCount 1 else s).endItem i doneStop
  else if last then s.endItem i doneBudget else s

/-- TOKEN_RETURN (R247, R250, R287): the token has come back, sampled here or by the module that sampled it (`token`; none there
means MASK_EMPTY). The ingress module commits it and stands at the token boundary. -/
def execTokenReturn (stream : Nat) (token : Option SampledTok) (s : State) : Host.Outcome State Fault Refusal :=
  .next (
    match (s.stream stream).flying with
    | some fl =>
      if !s.isIngress then s
      else if !fl.samples then (((s.missDeadline stream fl).commitToken stream fl none).endItem stream donePrefill).boundary stream
      else match (if s.isSampler then fl.sampled else token) with
        | some v => ((s.missDeadline stream fl).commitSampled stream fl v).boundary stream
        | none => if s.isSampler then s else s.maskEmpty stream
    | none => s)

/-- A stream's work on this module is discarded, as for CANCEL: on the cores and stopes, which also hear of it on the control network, and its
staged KV (R175, R192, R280). -/
def State.discardWork (s : State) (stream : Nat) : State :=
  let s := ((s.dropStreamAll stream).rollbackStream stream).sendCancel stream
  s.each (s.cores.map (·.1)) fun s c => s.updCore c fun t => { t with faulted := t.faulted.filter fun i => i != stream }

/-- A stream's work in flight is discarded, and at the ingress module its token starts again with the same draws and deadline, and every other
module hears of it; any other module tells the ingress module (R175). -/
def State.retryStream (s : State) (stream : Nat) : State :=
  let s := s.discardWork stream
  if !s.isIngress then s.tell (.faulted stream)
  else match (s.stream stream).flying with
    | some fl => (s.updStream stream fun t =>
        { t with flying := some { fl with sampled := none, retried := true }, maskWait := false, smpHold := false }).announce (.retry stream)
    | none => s

/-- Whether a step of a stream has faulted on this module and no retry has followed (R175). -/
def State.hasFaulted (s : State) (stream : Nat) : Bool := s.cores.any fun p => p.2.faulted.contains stream

/-- TOKEN_RETRY (R175): a stream with a faulted step here, or, at the ingress module, on another module, is retried. -/
def execTokenRetry (x : FaultedToken) (s : State) : Host.Outcome State Fault Refusal :=
  .next (if s.hasFaulted x.stream || (x.told && s.isIngress && (s.stream x.stream).flying.isSome) then s.retryStream x.stream else s)

/-! ## KV protection (R295 to R297) -/

/-- Whether every module's partner has acknowledged. -/
def State.mirrorDone (s : State) (acks : List Nat) : Bool :=
  if s.wnd.job.devices.isEmpty then !acks.isEmpty else s.wnd.job.devices.all fun d => acks.contains d

/-- The TOKEN_OUT records that wait no longer are written, in order (R296). -/
def State.flushMirror (s : State) (i : Nat) : Nat → State
  | 0 => s
  | fuel + 1 =>
    match (s.stream i).mirrorWait with
    | (_, tag, data, acks) :: rest =>
      if s.mirrorDone acks then
        ((s.updStream i fun t => { t with mirrorWait := rest }).streamEvent i evTokenOut 0 0 tag data).flushMirror i fuel
      else s
    | [] => s

/-- MIRROR_ACK (R296): the partner of module `dev` has acknowledged the KV of the token at a slot. -/
def execMirrorAck (stream slot dev : Nat) (s : State) : Host.Outcome State Fault Refusal :=
  .next (
    let s := s.updStream stream fun t =>
      { t with mirrorWait := t.mirrorWait.map fun m => if m.1 = slot then (m.1, m.2.1, m.2.2.1, m.2.2.2 ++ [dev]) else m }
    s.flushMirror stream (s.stream stream).mirrorWait.length)

/-- A page's copy at the storage endpoint, for the journal: of a full page, or at PARK of the tail page, which a later copy of the full page
replaces (R295). -/
def State.journalKey (s : State) (i key : Nat) : State :=
  let p := s.pte key
  let h := s.freshHandle
  let s := s.wrMem (cageBase h) (if p.spilled then s.rdMem (cageBase p.handle) pageBytes else s.frameBytes p.stack p.frame)
  (s.tookHandle h).updStream i fun t => { t with journaled := Table.put t.journaled key (h, decide (256 * (keyPage key + 1) ≤ t.committed)) }

/-- JOURNAL_PAGE (R295, R297): a full committed page of a JOURNAL class goes to STORE_EP, once. -/
def execJournalPage (stream layer head page : Nat) (s : State) : Host.Outcome State Fault Refusal :=
  .next (
    let t := s.stream stream
    let key := pteKey stream layer head page
    if t.state != .free && (s.cls t.cls).kvprot == 2 && s.storeUp && (s.pte key).valid && decide (256 * (page + 1) ≤ t.committed) &&
        !(t.journaled.any fun x => x.1 == key && x.2.2) then
      s.journalKey stream key
    else s)

end Sys2Proof.Machine
end

