-- ==== Sys2Proof/Machine/Decide.lean ====
section
/-! DEFINITION. What a module that is not the ingress module does with the decisions of its job (R245 to R247), and COMMIT. The table has a row
for COMMIT alone: the other decisions, and what the modules tell the ingress module, come with it (DESIGN CHOICE, log entry 147). -/

namespace Sys2Proof.Machine

/-- COMMIT arrives: the committed count advances (R225, R247), and the module's history and sampling state follow the ingress module's (R281). -/
def State.actCommit (s : State) (i count : Nat) (tokens : List Nat) (sampled : Option Nat) (genCount : Nat) : State :=
  (s.commitStream i count).updStream i fun t =>
    { t with history := t.history ++ tokens, pend := sampled.toList, pendSampled := sampled.isSome, genCount := genCount, smpNow := none, flying := none }

/-- A stream's token in flight is cancelled: its work here is discarded, its settings with it (R225, R280). -/
def State.actCancel (s : State) (i : Nat) : State :=
  (s.discardWork i).updStream i fun t => { t with flying := none, smpNow := none, maskWait := false, smpHold := false }

/-- The nodes that a stream has matched become its own, each with its tokens (R232). -/
def State.actMatched (s : State) (i : Nat) (tokens : List Nat) (ns : List Nat) : State :=
  s.each ns.zipIdx fun s n => match s.pnode n.1 with
    | some x => (s.holdFrames i x).2.commitMatched i n.1 ((tokens.drop (256 * n.2)).take 256)
    | none => s

/-- A decision about a stream takes effect on a module that holds its context (R206, R207, R225, R232, R247, R250, R280, R283, R286, R293). -/
def State.actOnStream (s : State) (i : Nat) : Decision → State
  | .closed _ => (s.dropHolds i).freeContext i
  | .commit _ count tokens sampled genCount => s.actCommit i count tokens sampled genCount
  | .cancel _ => s.actCancel i
  | .retry _ => s.discardWork i
  | .pause _ => s.updStream i fun t => { t with state := .paused }
  | .resume _ => s.updStream i fun t => { t with state := .idle }
  | .park _ place => s.parkHere i place 0
  | .unpark _ => s.updStream i fun t => { t with state := .unparking }
  | .sampler _ x => s.updStream i fun t => { t with sampler := x }
  | .mask _ mode bytes => s.updStream i fun t => t.setMask mode bytes
  | .posmap _ m free =>
    { s with kv := { s.kv with pending := s.kv.pending ++ [{ stream := i, map := m, free := free, sent := true }] } }
  | .matched _ ns tokens => s.actMatched i tokens ns
  | .node n _ page => s.mapNode n i page
  | _ => s

/-- A decision takes effect on a module that is not the ingress module (R246). A FREE context takes only its opening (R245). The barrier actions
of a swap have rows of their own (R319 to R321). -/
def State.actOn (s : State) (d : Decision) : State :=
  match d with
  | .opened i cls customer bank region parent =>
    if (s.stream i).state = .free then s.openHere i cls customer bank region parent else s
  | .classTable c x => s.setCls c x
  | .evict n => (match s.pnode n with
    | some x => s.unmapNode n x
    | none => s)
  | d => match d.stream with
    | some i => if (s.stream i).state = .free then s else s.actOnStream i d
    | none => s

/-- The ingress module learns what its job's other modules tell it for its bounds (R269, R270, R273), and which of them are lost (R369). -/
def State.learn (s : State) (v : JobView) : State :=
  let s := s.each v.lost State.loseShard
  { s with wnd := { s.wnd with view := some v } }

/-- COMMIT (R225, R246, R247): a module of the job acts on a decision of the job's ingress module, from device `src`. On the ingress module itself a
COMMIT advances the committed count of an open stream; its other decisions have taken effect where it made them. -/
def execCommit (src : Nat) (d : Decision) (s : State) : Host.Outcome State Fault Refusal :=
  .next (
    if !s.isIngress then (if src = s.wnd.job.ingressDev then s.actOn d else s)
    else match d with
      | .commit i count .. => if (s.stream i).state = .free then s else s.commitStream i count
      | .view v => s.learn v
      | _ => s)

end Sys2Proof.Machine
end

