-- ==== Sys2Proof/Machine/Spares.lean ====
section
/-! DEFINITION. What follows when a macro or a slice is lost (R311, R337, R342 to R346, R369): degraded seams, the assignment of
spares, and SLICE_LOST. -/

namespace Sys2Proof.Machine

/-! ## SLICE_LOST (R369) -/

/-- The stopes of a stope's job slices: those of its region. -/
def State.sliceStopes (s : State) (region : Nat) : List Nat := (s.region region).stopes

/-- Every token of the job in flight on this module faults: the steps of streams on the region's cores end with SLICE_LOST. -/
def State.faultTokens (s : State) (region : Nat) : State :=
  let cores := s.sliceStopes region ++ (maskBits 16 (s.region region).merge).map (256 + ·)
  s.each cores fun s c =>
    s.each (((s.core c).run.toList ++ (s.core c).finishing).filter fun r => r.step.stream.isSome) fun s r =>
      s.stepFault c r.id r.next causeSliceLost

/-- SLICE_LOST (R369): the job's stopes are fenced, its tokens fault, the alarm is raised, and the ingress module holds new tokens until
the shard of this device is VALID again. -/
def State.sliceLost (s : State) (region unit : Nat) : State :=
  let s := s.each (s.sliceStopes region) fun s i => s.fenceFor (shellPage i) 5 15
  let s := (s.faultTokens region).report causeSliceLost unit 0 epHeadframe none
  { s with tally := { s.tally with lost := true } }.holdShard s.edge.devId

/-! ## Spares (R343 to R346) -/

/-- A spare, and its update. -/
def Stope.spare (t : Stope) (p : Nat) : Spare := if p = 72 then t.spare72 else t.spare73
def Stope.setSpare (t : Stope) (p : Nat) (x : Spare) : Stope := if p = 72 then { t with spare72 := x } else { t with spare73 := x }

/-- A macro counts as permanent when the tally holds it or one of its ADCs so (R356). -/
def State.macroDead (s : State) (i m : Nat) : Bool :=
  s.isPermanent (unitMacro i m) || (List.range 128).any fun j => s.isPermanent (unitAdc i m j)

/-- The spare that a permanent failure takes: 72 if free, else 73; else one that stands in for a refresh (R343, R344). -/
def State.freeSpare (s : State) (i : Nat) (forFailure : Bool) : Option Nat :=
  let t := s.stope i
  let sound (p : Nat) : Bool := !(s.macroDead i p)
  match [72, 73].find? fun p => sound p && !(t.spare p).used with
  | some p => some p
  | none => if forFailure then [72, 73].find? fun p => sound p && (t.spare p).refresh else none

/-- The key of a macro bank's refresh. -/
def bankKey (i m : Nat) (bank : Bool) : Nat := 2 * (128 * i + m) + (if bank then 1 else 0)
def State.refreshOf (s : State) (key : Nat) : Refresh := Table.get Refresh.none s.swap.refresh key
def State.setRefresh (s : State) (key : Nat) (r : Refresh) : State :=
  { s with swap := { s.swap with refresh := Table.set Refresh.none s.swap.refresh key r } }

/-- A refresh under a spare that is taken away goes on by the next means (R344): due again, from its row. -/
def State.dropRefreshSpare (s : State) (i p : Nat) : State :=
  let x := (s.stope i).spare p
  if !x.refresh then s
  else s.each [false, true] fun s b =>
    let r := s.refreshOf (bankKey i x.target b)
    if r.means = .spare then s.setRefresh (bankKey i x.target b) { r with means := .due, iters := 0 } else s

/-- A permanent macro gets its spare, or SPARES_OUT is raised (R343, R345). -/
def State.assignSpare (s : State) (i m : Nat) : State :=
  if [72, 73].any fun p => ((s.stope i).spare p).used && ((s.stope i).spare p).target == m && !((s.stope i).spare p).refresh then s
  else match s.freeSpare i true with
    | some p =>
      let s := s.dropRefreshSpare i p
      s.updStope i fun t => t.setSpare p { target := m, used := true, live := false, refresh := false, ready := [] }
    | none => s.report causeSparesOut (unitMacro i m) 0 i none

/-- The macro that unit `m` of a seam stands for: a spare that fails leaves its target without cover. -/
def Stope.logical (t : Stope) (m : Nat) : Nat := if m = 72 ∨ m = 73 then (t.spare m).target else m

/-- A macro becomes permanent (R337, R342, R346): the seam's first fault takes it to reconstruction mode or to unprotected running,
and a spare is assigned; a further fault in a degraded seam loses the slice, save a second checksum macro's. -/
def State.macroLost (s : State) (i unitMac : Nat) : State :=
  let t := s.stope i
  if (unitMac = 72 ∨ unitMac = 73) ∧ !(t.spare unitMac).used then s
  else
    let m := t.logical unitMac
    let k := seamOf m
    let g := t.seam k
    let s := if unitMac = m then s else s.updStope i fun t => t.setSpare unitMac Spare.free
    let lost := s.sliceLost ((s.stopeRegion i).getD 0) (unitSeam i k)
    match g.mode with
    | .recon => if g.mac = m ∧ !g.forRefresh then s.assignSpare i m else lost
    | .unprotected =>
      if m < 64 then lost
      else if g.mac = m then
        (s.updStope i fun t => t.updSeam k fun g => { g with forRefresh := false }).assignSpare i m
      else (s.updStope i fun t => t.updSeam k fun g => { g with mac2 := some m }).assignSpare i m
    | _ =>
      if m < 64 then
        let s := s.updStope i fun t => t.updSeam k fun g => { g with mode := .recon, mac := m, mac2 := none, forRefresh := false }
        (s.report causeReconEnter (unitMacro i m) k i none).assignSpare i m
      else
        let s := s.updStope i fun t => t.updSeam k fun g => { g with mode := .unprotected, mac := m, mac2 := none, forRefresh := false }
        (s.report causeSeamUnprotected (unitMacro i m) k i none).assignSpare i m

/-- What a unit's becoming permanent does beyond its own block (R363): a macro or ADC goes to the spare rules, a router loses its
region's slices. -/
def State.unitLost (s : State) (unit : Nat) : State :=
  match unitType unit with
  | 1 | 2 => s.macroLost (bitsOf unit 18 9) (bitsOf unit 8 0)
  | 5 => s.sliceLost ((s.stopeRegion (bitsOf unit 9 0)).getD 0) unit
  | _ => s

/-- One event, at its canonical place, counts against a unit, with all that follows when it becomes permanent (R362, R363). -/
def State.countUnitAt (s : State) (x : Nat × Nat × Nat) (unit cause detail : Nat) (again : Bool) : State :=
  let was := s.isPermanent unit
  let s := s.countAt x unit cause detail again
  if !was && s.isPermanent unit then s.unitLost unit else s

/-- The same for an event of this moment at the headframe. -/
def State.countUnit (s : State) (unit cause detail : Nat) (again : Bool) : State :=
  s.countUnitAt (s.now, s.sourceId epHeadframe, 0) unit cause detail again

/-- A core without spare words left is permanent (R176, R347, R350). -/
def State.coreLost (s : State) (unit detail : Nat) : State := (s.countEvent unit causeSpSparesOut detail false).declarePermanent unit

/-- FAULT_NOTICE (R37, R371): a notice reaches the headframe, once its message has crossed the network (R38), which counts it against its unit and reports it in its
cause's class. A notice of PACE_LOW also sets the re-plan cause of R27, one of SP_SPARES_OUT makes its core permanent. -/
def execFaultNotice (m : Notice) (s : State) : Host.Outcome State Fault Refusal :=
  if s.noticeUnderWay m then .next s
  else
  let s := s.takeNotice m
  let s := if countsAgainst m.unit m.cause then s.countUnitAt (m.time, s.sourceId m.source, m.seq) m.unit m.cause m.detail false else s
  let s := if m.cause = causePaceLow then s.replanCause 1 else s
  let s := if m.cause = causeSpSparesOut then s.coreLost m.unit m.detail else s
  .next (s.reportAt m.time m.seq m.cause m.unit m.detail m.source m.stream)

/-- The banks that a spare must hold to stand in for its target: those that hold an image there (R343; a bank that R311 has left
SUSPECT counts, DEDUCED, log entry 37). -/
def Stope.heldBanks (t : Stope) (m : Nat) : List Bool :=
  [false, true].filter fun b => t.bankState m b == .valid || t.bankState m b == .suspect || t.bankState m b == .programming

/-- Whether an assigned spare holds every such bank (R343). -/
def Stope.spareReady (t : Stope) (p : Nat) : Bool :=
  let x := t.spare p
  x.used && !x.live && (t.heldBanks x.target).all fun b => t.bankState p b == .valid && x.ready.contains b

end Sys2Proof.Machine
end

