-- ==== Sys2Proof/Machine/Images.lean ====
section
/-! DEFINITION. Image slices (R301 to R304), vault copies (R305 to R308), and the programming of macro banks (R310 to R317, R325,
R330): one program-and-verify iteration, the end of a row and of a macro. -/

namespace Sys2Proof.Machine

/-! ## The slice (R301 to R303) -/

/-- The sections of a slice: type, byte offset, length. -/
def secTable (sl : ImageSlice) : List (Nat × Nat × Nat) :=
  (List.range (leAt sl.raw 0x1B 1)).map fun n =>
    (leAt sl.raw (0x100 + 16 * n) 2, leAt sl.raw (0x104 + 16 * n) 4 * 4096, leAt sl.raw (0x108 + 16 * n) 8)

/-- Where a section of a type lies. -/
def secAt (sl : ImageSlice) (typ : Nat) : Option (Nat × Nat) := ((secTable sl).find? fun x => x.1 == typ).map (·.2)
def secOff (sl : ImageSlice) (typ : Nat) : Nat := ((secAt sl typ).map (·.1)).getD 0
def secLen (sl : ImageSlice) (typ : Nat) : Nat := ((secAt sl typ).map (·.2)).getD 0

def imgGen (sl : ImageSlice) : Nat := leAt sl.raw 0x08 8
def imgDevice (sl : ImageSlice) : Nat := leAt sl.raw 0x14 4
def imgElem (sl : ImageSlice) : Nat := leAt sl.raw 0x19 1
def imgVocab (sl : ImageSlice) : Nat := leAt sl.raw 0x1C 4
def imgStored (sl : ImageSlice) : List Byte := (sl.raw.drop 0x20).take 32

/-- The SHA-256 of the slice with its DIGEST field taken as zero (R301). -/
def imgDigest (sl : ImageSlice) : List Byte := sha256 (sl.raw.take 0x20 ++ List.replicate 32 0 ++ sl.raw.drop 0x40)

/-- Whether no two sections overlap (R303). -/
def secApart : List (Nat × Nat × Nat) → Bool
  | [] => true
  | x :: l => (l.all fun y => decide (x.2.1 + x.2.2 ≤ y.2.1 ∨ y.2.1 + y.2.2 ≤ x.2.1)) && secApart l

/-- A word of COLUMNS: no RSV and no RG bit, and no reserved scale (R11, R56, R64, R302). -/
def columnOk (w : Nat) : Bool := decide (w < 0x1000) && w % 256 != 0xFF

/-- Whether every RSV and RG field of the header, the section table and COLUMNS is zero (R11, R301, R302). -/
def imgZeros (sl : ImageSlice) : Bool :=
  leAt sl.raw 0x06 2 == 0 && decide (imgDevice sl < 0x100000) && decide (leAt sl.raw 0x1A 1 < 8) && decide (imgVocab sl < 0x1000000) &&
    (((sl.raw.drop 0x40).take 192).all fun b => b == 0) &&
    ((List.range (leAt sl.raw 0x1B 1)).all fun n => leAt sl.raw (0x102 + 16 * n) 2 == 0) &&
    ((List.range 4194304).all fun n => columnOk (leAt sl.raw (secOff sl 2 + 4 * n) 4))

/-- R303: MAGIC, format 1, this device, LVL25, INT4 or E2M1, the mandatory sections with their lengths, no overlap; and the limits of
R301 and R302. -/
def State.sliceOk (s : State) (sl : ImageSlice) : Bool :=
  let n := leAt sl.raw 0x1B 1
  let small := ([3, 4, 5, 6].map (secLen sl)).sum
  leAt sl.raw 0 4 == 0x494E4C53 && decide (leAt sl.raw 0x04 1 ≤ 1 ∧ 1 ≤ leAt sl.raw 0x05 1) && imgDevice sl == s.edge.devId &&
    leAt sl.raw 0x18 1 == 0 && decide (imgElem sl ≤ 1) && decide (1 ≤ n ∧ n ≤ 16) &&
    ((secTable sl).all fun x => decide (1 ≤ x.1 ∧ x.1 ≤ 6 ∧ 0x100 + 16 * n ≤ x.2.1 ∧ x.2.1 + x.2.2 ≤ sl.raw.length)) &&
    decide (((secTable sl).map (·.1)).Nodup) && secLen sl 1 == 536870912 && secLen sl 2 == 16777216 && (secAt sl 5).isSome &&
    decide (small ≤ 0x400000 ∧ sl.raw.length ≤ 0x40000000) && secApart (secTable sl) && imgZeros sl

/-! ## Levels and scales (R302, R330) -/

/-- The level of a data macro's cell (R53, R54, R302). ELEM 0 is INT4, 1 is E2M1 (R57). -/
def imgLevel (sl : ImageSlice) (i m r c : Nat) : Int :=
  let b := (sl.raw.getD (secOff sl 1 + (((i * 64 + m) * 256 + r) * 128 + c / 2)) 0).toNat
  elemLevel (imgElem sl == 1) (if c % 2 = 0 then b % 16 else b / 16)

/-- The high and low checksum levels of a sum of 16 levels (R330). -/
def checkHigh (v : Int) : Int := (if v < 0 then -1 else 1) * (((v.natAbs + 7) / 16 : Nat) : Int)
def checkLow (v : Int) : Int := v - 16 * checkHigh v

/-- The level of any macro's cell: the checksum macros from their seam's sum (R330). -/
def macLevel (sl : ImageSlice) (i m r c : Nat) : Int :=
  if m < 64 then imgLevel sl i m r c
  else
    let v := ((List.range 16).map fun j => imgLevel sl i (16 * seamOf m + j) r c).sum
    if m % 2 = 0 then checkHigh v else checkLow v

/-- The scale-table entry of a data column (R64, R302). -/
def imgScale (sl : ImageSlice) (i m c : Nat) : Nat := leAt sl.raw (secOff sl 2 + 4 * ((i * 64 + m) * 256 + c)) 2

/-! ## Vault copies (R306, R307) -/

/-- A copy of a slot. -/
def VSlot.copy (v : VSlot) (one : Bool) : Option ImageSlice := if one then v.copy1 else v.copy0

/-- The vault die of stripe `i`, of 1 MiB, of a copy (R305). -/
def stripeDie (one : Bool) (i : Nat) : Nat := (i + if one then 1 else 0) % 2

/-- Whether a vault die is trained and healthy (R327). -/
def State.dieOk (s : State) (d : Nat) : Bool := bitAt s.hf.vaultOk d

/-- Whether the header of a copy can be read: it lies in stripe 0 (R305). -/
def State.headRead (s : State) (one : Bool) : Bool := s.dieOk (stripeDie one 0)

/-- Whether every stripe of a copy can be read (R305; DEDUCED, log entry 155). -/
def State.copyRead (s : State) (one : Bool) (sl : ImageSlice) : Bool :=
  (List.range (cdiv sl.raw.length 0x100000)).all fun i => s.dieOk (stripeDie one i)

/-- Whether a copy's stored digest matches the record. -/
def VSlot.matching (v : VSlot) (one : Bool) : Bool :=
  match v.copy one, v.record with
  | some sl, some r => imgStored sl == r.digest
  | _, _ => false

/-- Whether a copy's stored digest, as its header shows it, matches the record (R307). -/
def State.copyMatches (s : State) (v : VSlot) (one : Bool) : Bool := s.headRead one && v.matching one

/-- Whether a copy passes its own check: it can be read, with its header and digest right. -/
def State.copySound (s : State) (v : VSlot) (one : Bool) : Bool :=
  match v.copy one with
  | some sl => s.copyRead one sl && s.sliceOk sl && imgDigest sl == imgStored sl
  | none => false

/-- Whether a copy is usable (R307). -/
def State.copyUsable (s : State) (v : VSlot) (one : Bool) : Bool := s.copySound v one && v.matching one

/-- The slice of a slot's usable copy, copy 0 first. -/
def State.slotSlice (s : State) (n : Nat) : Option ImageSlice :=
  let v := s.vslot n
  if s.copyUsable v false then v.copy0 else if s.copyUsable v true then v.copy1 else none

/-- What an operation without a usable copy ends with (R303, R307): IMAGE_CONFLICT when one passes its own check, ABI_MISMATCH when one
only fails its header, else IMAGE_BAD. -/
def State.copyFault (s : State) (v : VSlot) : Nat :=
  if s.copySound v false || s.copySound v true then rImageConflict
  else if [false, true].any fun b => s.copyMatches v b && (match v.copy b with
      | some sl => s.copyRead b sl && !(s.sliceOk sl) && imgDigest sl == imgStored sl
      | none => false) then rAbiMismatch
  else causeImageBad

/-- The record of a bank. -/
def State.bankRecord (s : State) (bank : Bool) : Option Install := if bank then s.swap.bankB else s.swap.bankA
def State.setRecord (s : State) (bank : Bool) (r : Option Install) : State :=
  { s with swap := if bank then { s.swap with bankB := r } else { s.swap with bankA := r } }

/-! ## The temperature window (R314, R315) -/

/-- Whether a node's temperature lies within bounds in °C. -/
def State.nodeWithin (s : State) (n : Nat) (lo hi : Int) : Bool := decide (lo * 256 ≤ (s.node n).temp ∧ (s.node n).temp ≤ hi * 256)

/-- The thermal nodes that an operation heats: the stopes, or for a STAGE the vault dies; with STAGE_TOO both. -/
def State.swapNodes (s : State) : List Nat :=
  (if s.swap.mode = 1 then [] else s.imageStopes) ++ (if s.swap.mode = 1 ∨ s.swap.stageToo then [264, 265] else [])

/-! ## The end of an operation (R324) -/

/-- SWAP_DONE in the module's event ring. -/
def State.swapDone (s : State) (outcome code : Nat) : State :=
  s.moduleEvent evSwapDone (outcome + s.swap.mode * 16) 0xFFFFF (BitVec.ofNat 64 (code + flag s.swap.target 16))

/-- The swap logic is idle again; the vault, the banks' records and the job's barrier stay. -/
def Swap.ended (w : Swap) : Swap :=
  { w with phase := .idle, mode := 0, image := none, verified := false, switched := false, rows := [], undo := [], wroteRow := false, holdSince := none,
           heldFrom := .idle, inWindow := none, flipped := false, layersDone := 0, staged := none, stageToo := false,
           shed := false, wait := false }

/-- An operation ends with an outcome (R324): 0 COMPLETE, 1 ROLLED_BACK, 2 ABORTED, 3 REFUSED, 4 FAILED. The cap of R316 lifts. -/
def State.endSwap (s : State) (outcome code : Nat) : State :=
  let s := s.swapDone outcome code
  let s := if outcome = 0 then s.inc swapCount 1 else s
  let s := if outcome = 3 then s.refuse swapLastRefuse code else s
  let s := if code = rImageConflict then s.inc vaultConflictCount 1 else s
  let s := if outcome = 0 then s else { s with swap := { s.swap with told := s.swap.told ++ [.outcome code] } }
  { s with swap := s.swap.ended, hf := { s.hf with capShed := none } }

/-- The target bank goes back: to EMPTY where a row was programmed, else to what it was (R322). -/
def State.restoreBank (s : State) : State :=
  let b := s.swap.target
  if !s.swap.wroteRow then s
  else
    let s := s.each s.imageStopes fun s i => s.updStope i fun t => (List.range 72).foldl (fun t m => t.setBank m b .empty) t
    (s.setRecord b none).wr64 (if b then swapBankGenBLo else swapBankGenALo) 0

/-- An operation that has not reached its barrier ends (R314, R319, R322). -/
def State.dropSwap (s : State) (outcome code : Nat) : State :=
  let s := if s.swap.mode = 1 then s.setVslot s.swap.slot { s.vslot s.swap.slot with staging := false } else s.restoreBank
  s.endSwap outcome code

/-! ## Reports of a module (R319) -/

/-- A message to the ingress module. -/
def State.tellSwap (s : State) (m : SwapMsg) : State := { s with swap := { s.swap with told := s.swap.told ++ [m] } }

/-- The macros that an operation programs, in a stope: the data and the checksum macros (R312). -/
def imageMacros : List Nat := List.range 72

/-- Passes of a macro bank, and whether its endurance is spent (R317). -/
def Stope.passCount (t : Stope) (m : Nat) (bank : Bool) : Nat := Table.get 0 t.passes (2 * m + (if bank then 1 else 0))
def Stope.worn (t : Stope) (m : Nat) (bank : Bool) : Bool := decide (10000000 ≤ t.passCount m bank)

/-- The progress of a macro of the running operation. -/
def State.rowsOf (s : State) (i m : Nat) : Nat × Nat × Bool := Table.get (0, 0, false) s.swap.rows (128 * i + m)
def State.setRows (s : State) (i m : Nat) (x : Nat × Nat × Bool) : State :=
  { s with swap := { s.swap with rows := Table.set (0, 0, false) s.swap.rows (128 * i + m) x } }

/-- Whether a macro needs no more programming in the running operation. -/
def State.macroDone (s : State) (i m : Nat) : Bool := decide (256 ≤ (s.rowsOf i m).1) || (s.stope i).worn m s.swap.target

/-- Whether a rollback has rewritten everything it must (R321). -/
def State.undone (s : State) : Bool := s.swap.undo.all fun x => s.macroDone (x / 128) (x % 128)

/-- Whether the operation has programmed every macro of every stope. -/
def State.allDone (s : State) : Bool := s.imageStopes.all fun i => imageMacros.all fun m => s.macroDone i m

/-- The install record that an operation leaves (R306). -/
def State.newRecord (s : State) (sl : ImageSlice) : Install :=
  { slot := s.swap.slot, digest := imgDigest sl, gen := BitVec.ofNat 64 (imgGen sl) }

/-- What the progress of an operation brings about (R306, R319, R321): a full bank has its record, a SHADOW is PREPARED, an IN_PLACE with
a verified copy is ARMED, and a rollback that has rewritten everything ends. -/
def State.swapAdvance (s : State) : State :=
  match s.swap.image with
  | none => s
  | some sl =>
    if s.swap.phase = .rollback then (if s.undone then (s.setRecord s.swap.target s.swap.prev).endSwap 1 rNone else s)
    else if !s.swap.verified ∨ s.swap.phase = .tempHeld then s
    else if s.swap.mode = 4 ∧ s.swap.phase = .reading then
      ({ s with swap := { s.swap with phase := .ready } }).tellSwap (.armed (imgGen sl))
    else if s.swap.mode = 3 ∧ s.allDone ∧ (s.swap.phase = .reading ∨ s.swap.phase = .programming) then
      let s := s.setRecord s.swap.target (some (s.newRecord sl))
      ({ s with swap := { s.swap with phase := .ready } }).tellSwap (.prepared (imgGen sl))
    else if s.swap.mode = 2 ∧ s.allDone then s.setRecord s.swap.target (some (s.newRecord sl))
    else s

/-! ## Programming (R310 to R317) -/

/-- Whether a macro bank of a stope may go on with a row, or with `first` start one (R47, R106, R134, R313, R314): a PROGRAM fence and a quiesce
stop it at a row boundary; no calibration in the midst of an end point, its buffer READY. -/
def State.rowFree (s : State) (i : Nat) (first : Bool) : Bool :=
  let c := (s.stope i).cal
  !(first && (s.stopeFenced i 2 || s.quiescing (shellPage i))) && (c.phase == .idle || (c.taken == 0 && c.col == 0)) &&
    (s.stope i).ref == .ready

/-- What is programmed: a macro of the running operation, or of a refresh or spare. -/
inductive RowJob where
  | swap
  | refresh
  deriving DecidableEq, Repr

/-- The macros of the rounds before a macro's (R312): the data macros of earlier seams; for a checksum macro all data macros. -/
def earlierMacros (m : Nat) : List Nat := if m < 64 then List.range (m / 16 * 16) else List.range 64

/-- Whether the running operation programs a macro's row now: in order of rounds and rows; an IN_PLACE once its barrier action is out, a
rollback what it must undo. -/
def State.rowInSwap (s : State) (i m : Nat) (bank : Bool) (row : Nat) : Bool :=
  let w := s.swap
  decide (m < 72) && bank == w.target && (s.stopeRegion i).isSome && row == (s.rowsOf i m).1 && !(s.macroDone i m) && w.image.isSome &&
    (match w.phase with
     | .reading | .programming => (w.mode == 2 || w.mode == 3) && (earlierMacros m).all (s.macroDone i)
     | .ready => w.mode == 4 && !s.isIngress && (earlierMacros m).all (s.macroDone i)
     | .barrier => w.mode == 4 && (!s.isIngress || w.actionSent) && (earlierMacros m).all (s.macroDone i)
     | .rollback => w.undo.contains (128 * i + m)
     | _ => false)

/-- Whether a refresh or a spare's programming takes this row now; under a spare, once that stands in. -/
def State.rowInRefresh (s : State) (i m : Nat) (bank : Bool) (row : Nat) : Bool :=
  let r := s.refreshOf (bankKey i m bank)
  row == r.row && (match r.means with
    | .inPlace | .recon | .unprotected | .stand => true
    | .spare => [72, 73].any fun p => ((s.stope i).spare p).refresh && ((s.stope i).spare p).live && ((s.stope i).spare p).target == m
    | _ => false)

/-- The slice a refresh or spare is programmed from: the bank's record's slot (R325). -/
def State.bankSlice (s : State) (bank : Bool) : Option ImageSlice := (s.bankRecord bank).bind fun r => s.slotSlice r.slot

/-- The slice that a bank holds while it is programmed or served: the running operation's for its target, else the record's. -/
def State.sliceFor (s : State) (bank : Bool) : Option ImageSlice :=
  if s.swap.image.isSome && bank == s.swap.target && s.swap.mode != 1 then s.swap.image else s.bankSlice bank

/-- The columns that pass stand at their targets (R310). -/
def Stope.programRow (t : Stope) (sl : ImageSlice) (i m : Nat) (bank : Bool) (row : Nat) (failing : List Nat) : Stope :=
  let src := t.logical m
  { t with cells := ((List.range 256).filter fun c => !(failing.contains c)).foldl (fun l c =>
      Table.set 0 l (cellKey m bank row c) (macLevel sl i src row c)) t.cells }

/-- A macro bank's last row has ended (R311, R317): a pass is counted, its scales are in place, and it is VALID, or SUSPECT when a cell
has not passed or its endurance is spent; the spare rules then apply. -/
def State.macroProgrammed (s : State) (i m : Nat) (bank failed : Bool) (sl : ImageSlice) : State :=
  let key := 2 * m + (if bank then 1 else 0)
  let n := (s.stope i).passCount m bank + 1
  let s := s.updStope i fun t =>
    let t := { t with passes := Table.set 0 t.passes key n, progTime := Table.set 0 t.progTime key s.now, drift := Table.set [] t.drift key [],
                      sampled := Table.set [] t.sampled key [] }
    let t := if m < 64 then
        { t with scales := (List.range 256).foldl (fun l c =>
            Table.set 0 l (16384 * (if bank then 1 else 0) + 256 * m + c) (imgScale sl i m c)) t.scales }
      else t
    t.setBank m bank (if failed ∨ 10000000 ≤ n then .suspect else .valid)
  let s := s.wr (if bank then swapCyclesBMax else swapCyclesAMax)
    (BitVec.ofNat 32 (max n (s.rd (if bank then swapCyclesBMax else swapCyclesAMax)).toNat))
  let s := if n = 8000000 then s.report causeEnduranceWarn (unitMacro i m) (if bank then 1 else 0) epHeadframe none else s
  if failed ∨ 10000000 ≤ n then s.macroLost i m else s

/-- A refresh of a macro bank has ended: the seam is checked again, or the spare is released (R325); a spare's bank is ready (R343). -/
def State.refreshDone (s : State) (i m : Nat) (bank : Bool) : State :=
  let r := s.refreshOf (bankKey i m bank)
  let s := s.setRefresh (bankKey i m bank) Refresh.none
  let k := seamOf m
  match r.means with
  | .recon | .unprotected =>
    s.updStope i fun t => t.updSeam k fun g => if g.forRefresh && g.mac == m then { g with mode := .checked, forRefresh := false } else g
  | .spare => s.updStope i fun t =>
    [72, 73].foldl (fun t p => if (t.spare p).refresh && (t.spare p).target == m then t.setSpare p Spare.free else t) t
  | .stand => s.updStope i fun t => t.setSpare m { t.spare m with ready := (t.spare m).ready ++ [bank] }
  | _ => s

/-- One iteration's outcome: the row goes on, or has ended because every cell has passed or 16 iterations are over (R310). -/
def rowNext (x : Nat × Nat × Bool) (failing : List Nat) : Nat × Nat × Bool :=
  if failing.isEmpty then (x.1 + 1, 0, x.2.2)
  else if 15 ≤ x.2.1 then (x.1 + 1, 0, true)
  else (x.1, x.2.1 + 1, x.2.2)

/-- The tally counts the cells of a row that have not passed after 16 iterations, as one event of the macro (R311; the cause is a
DESIGN CHOICE, log entry 36). -/
def State.countCells (s : State) (i m row : Nat) (failing : List Nat) : State :=
  match failing with
  | c :: _ => s.countEvent (unitMacro i m) causeBankNotReady (row * 256 + c) false
  | [] => s

/-- One program-and-verify iteration of the running operation (R310, R311). -/
def State.swapRow (s : State) (i m : Nat) (bank : Bool) (row : Nat) (failing : List Nat) (sl : ImageSlice) : State :=
  let x := s.rowsOf i m
  let y := rowNext x failing
  let s := (s.charge enProgram s.rowCharge).updStope i fun t => (t.setBank m bank .programming).programRow sl i m bank row failing
  let ph := if s.swap.phase = .reading then SwapPhase.programming else if s.swap.phase = .ready then .barrier else s.swap.phase
  let s := ({ s with swap := { s.swap with phase := ph, wroteRow := true } }).setRows i m y
  let s := if y.1 = x.1 ∨ failing.isEmpty then s else s.countCells i m row failing
  if y.1 = 256 then (s.macroProgrammed i m bank y.2.2 sl).swapAdvance else s

/-- One iteration of a refresh or of a spare (R325, R343). -/
def State.refreshRow (s : State) (i m : Nat) (bank : Bool) (row : Nat) (failing : List Nat) (sl : ImageSlice) : State :=
  let r := s.refreshOf (bankKey i m bank)
  let y := rowNext (r.row, r.iters, r.failed) failing
  let s := (s.charge enProgram s.rowCharge).updStope i fun t => (t.setBank m bank .programming).programRow sl i m bank row failing
  let s := s.setRefresh (bankKey i m bank) { r with row := y.1, iters := y.2.1, failed := y.2.2 }
  let s := if y.1 = r.row ∨ failing.isEmpty then s else s.countCells i m row failing
  if y.1 = 256 then (s.macroProgrammed i m bank y.2.2 sl).refreshDone i m bank else s

/-- An operation whose target lies outside the window holds (R314, R315): TEMP_HELD, with the cap of R316 on request while a target of `ns` lies
above 82 °C. -/
def State.holdTemp (s : State) (ns : List Nat) : State :=
  let (n, s) := s.draw
  let hot := ns.any fun i => decide (82 * 256 < (s.node i).temp)
  { s with swap := { s.swap with phase := .tempHeld, heldFrom := s.swap.phase, holdSince := some s.now, inWindow := none },
           hf := { s.hf with capShed := if s.swap.shed && hot then some (s.hf.moduleW * (Config.shedShare n % 16385) / 16384) else s.hf.capShed } }

/-- A row whose programming stops before it ends is programmed again from its first iteration (R313). -/
def State.restartRow (s : State) (job : RowJob) (i m : Nat) (bank : Bool) : State :=
  match job with
  | .swap => let x := s.rowsOf i m; s.setRows i m (x.1, 0, x.2.2)
  | .refresh => s.setRefresh (bankKey i m bank) { s.refreshOf (bankKey i m bank) with iters := 0 }

/-- PROGRAM_ROW (R310 to R315, R325, R330, R343): one iteration on a row of a macro bank, after which the columns of `failing` are still
outside tolerance. A row starts only in the temperature window and where its charge fits the grant; an OFF buffer warms first. -/
def execProgramRow (i m : Nat) (bank : Bool) (row : Nat) (failing : List Nat) (s : State) : Host.Outcome State Fault Refusal :=
  .next (
    let job := if s.rowInSwap i m bank row then some RowJob.swap else if s.rowInRefresh i m bank row then some RowJob.refresh else none
    let bad := failing.filter fun c => decide (c < 256)
    match job, (if job = some .swap then s.swap.image else s.bankSlice bank) with
    | some job, some sl =>
      let first := if job = .swap then (s.rowsOf i m).2.1 == 0 else (s.refreshOf (bankKey i m bank)).iters == 0
      if first && !(s.nodeWithin i 10 85) then (if job = .swap then s.holdTemp [i] else s)
      else if first && decide (s.unreserved < s.rowCharge) then s
      else if !(s.rowFree i first) then
        let s := if (s.stope i).ref = .off then s.refEnable i else s
        if first then s else s.restartRow job i m bank
      else if job = .swap then s.swapRow i m bank row bad sl
      else if (s.stope i).worn m bank then s
      else s.refreshRow i m bank row bad sl
    | _, _ => s)

end Sys2Proof.Machine
end

