-- ==== Sys2Proof/Machine/Swaps.lean ====
section
/-! DEFINITION. Model swaps (R313 to R325): SWAP_CMD and its operations, the end of a copy's stream, staging and repair, the
job barrier of the ingress module, rollback, completion, refresh and spares. -/

namespace Sys2Proof.Machine

/-! ## SWAP_CMD (R318, R328) -/

/-- Open streams tagged with a bank. -/
def State.bankStreams (s : State) (b : Bool) : Bool := s.wnd.streams.any fun t => t.2.state != .free && t.2.bank == b

/-- A refusal of SWAP_CMD (R15, R318). -/
def State.swapRefuse (s : State) (code : Nat) : State :=
  let s := s.refuse swapLastRefuse code
  if code = rImageConflict then s.inc vaultConflictCount 1 else s

/-- SWAP_EXPECT's digest (R318). -/
def State.expected (s : State) : List Byte := (List.range 8).flatMap fun i => leBytes 4 (s.rd (swapExpect i)).toNat

/-- The target of an operation: BANK for LOAD, the bank not served for SHADOW, the served one for IN_PLACE. -/
def State.swapTarget (s : State) (mode : Nat) (v : Word) : Bool :=
  if mode = 2 then bit v 3 else if mode = 3 then !s.servedBank else s.servedBank

/-- Whether an operation's needs are met (R318). -/
def State.swapNeeds (s : State) (mode : Nat) (v : Word) : Bool :=
  match mode with
  | 1 => !(s.swap.refresh.any fun x => x.2.means != .due && x.2.means != .held &&
      (match s.bankRecord (x.1 % 2 == 1) with
       | some r => r.slot == fld v 9 4
       | none => false))
  | 2 => !(s.bankStreams (bit v 3)) && !(s.singleMode && bit v 3 == s.servedBank)
  | _ => s.singleMode

/-- The operation as it starts. -/
def State.beginSwap (s : State) (mode : Nat) (v : Word) : State :=
  let b := s.swapTarget mode v
  { s with swap := { s.swap.ended with
      phase := .reading, mode := mode, target := if mode = 1 then false else b, slot := fld v 9 4, src := fld v 11 10, stageToo := bit v 12,
      wait := bit v 13, shed := bit v 14, prio := fld v 18 16, prev := s.bankRecord b,  copyUsed := false } }

/-- Whether a bank holds a slot's image already, VALID in every macro (R318). -/
def State.installed (s : State) (b : Bool) (slot : Nat) : Bool :=
  match s.bankRecord b, (s.vslot slot).record with
  | some r, some q =>
    r.digest == q.digest && r.gen == q.gen && s.imageStopes.all fun i => imageMacros.all fun m => (s.stope i).bankState m b == .valid
  | _, _ => false

/-- Every macro of the target counts as programmed. -/
def State.markDone (s : State) : State :=
  s.each s.imageStopes fun s i => imageMacros.foldl (fun s m => s.setRows i m (256, 0, false)) s

/-- The source of an operation on a bank: the slot's copy whose stored digest matches, copy 0 first (R307), or the storage endpoint's
slice, which R303 refuses before anything is programmed from it (R11). -/
def State.openSource (s : State) (sl : ImageSlice) : State :=
  let w := s.swap
  if w.src = 2 then (if s.sliceOk sl then { s with swap := { w with image := some sl } } else s.dropSwap 3 rAbiMismatch)
  else
    let v := s.vslot w.slot
    if s.copyMatches v false then { s with swap := { w with image := v.copy0 } }
    else if s.copyMatches v true then { s with swap := { w with image := v.copy1, copyUsed := true } }
    else
      let code := s.copyFault v
      if code = causeImageBad then (s.report causeImageBad 0 w.slot epHeadframe none).dropSwap 4 code else s.dropSwap 3 code

/-- A write of SWAP_CMD that names STAGE, LOAD, SHADOW or IN_PLACE (R314, R318, R319, R326, R328). `sl` is what the host address or the
storage endpoint delivers. -/
def State.swapStart (s : State) (mode : Nat) (v : Word) (sl : ImageSlice) : State :=
  let src := fld v 11 10
  if src = 3 ∨ (mode = 1 ∧ src = 0) ∨ (mode ≠ 1 ∧ src = 1) then s.swapRefuse rAbiMismatch
  else if s.swap.phase ≠ .idle ∨ !(s.swapNeeds mode v) then s.swapRefuse rCapacity
  else
    let t := s.beginSwap mode v
    let inside := t.swapNodes.all fun n => t.nodeWithin n 10 85
    if !inside ∧ !(bit v 13) then s.swapRefuse rTempWindow
    else
      let t := if mode = 1 then
          let t := t.setVslot t.swap.slot { t.vslot t.swap.slot with staging := true }
          { t with swap := { t.swap with staged := some sl } }
        else if src = 0 ∧ mode ≠ 4 ∧ t.installed t.swap.target t.swap.slot then
          let t := { t with swap := { t.swap with image := (t.vslot t.swap.slot).copy0.or (t.vslot t.swap.slot).copy1, verified := true } }
          t.markDone.swapAdvance
        else t.openSource sl
      let t := if mode ≠ 1 ∧ bit v 15 ∧ t.isIngress then { t with swap := { t.swap with commitAt := some t.now } } else t
      if inside ∨ t.swap.phase = .idle then t
      else t.holdTemp t.swapNodes

/-! ## The job barrier at the ingress module (R319 to R322) -/

/-- The devices of the job. -/
def State.jobDevices (s : State) : List Nat := if s.wnd.job.devices.isEmpty then [s.edge.devId] else s.wnd.job.devices

/-- The job's barrier state at rest. -/
def Swap.jobEnded (w : Swap) : Swap :=
  { w with reports := [], commitAt := none, jobMode := 0, actionSent := false, acks := [], layersLeft := [], layersRight := [] }

/-- The ingress module ends the operation on every module, itself included (R319). -/
def State.endJob (s : State) (outcome code : Nat) : State :=
  let s := s.announce (.swapEnd code)
  let s := { s with swap := s.swap.jobEnded }
  if s.swap.phase = .idle then s else s.dropSwap outcome code

/-- Whether every module of the job has reported. -/
def State.allReported (s : State) : Bool := s.jobDevices.all fun d => s.swap.reports.any fun r => r.1 == d

/-- COMMIT, once every module has reported (R319): refused when the generations differ; else the barrier starts (R320). -/
def State.tryCommit (s : State) : State :=
  match s.swap.commitAt, s.swap.image with
  | some _, some sl =>
    if !s.allReported ∨ s.swap.phase ≠ .ready then s
    else if s.swap.reports.any fun (r : Nat × Nat × Nat) => r.2.2 != imgGen sl then s.endJob 3 rImageConflict
    else { s with swap := { s.swap with phase := .barrier, jobMode := s.swap.mode, commitAt := none, actionSent := false, acks := [] },
                  wnd := { s.wnd with barrier := true } }
  | _, _ => s

/-- The ingress module multicasts ROLLBACK (R321); every layer that has been reported must be reported again. -/
def State.startRollback (s : State) : State :=
  let s := s.announce .rollback
  { s with swap := { s.swap with layersLeft := s.swap.layersRight, layersRight := [] , jobMode := 5 } }

/-- What an ABORT does (R322). -/
def State.abortSwap (s : State) : State :=
  match s.swap.phase with
  | .idle => s
  | .rollback => s
  | .barrier =>
    if s.swap.mode = 4 then (if s.isIngress then s.startRollback else s.tellSwap .abortAsked)
    else if s.swap.flipped ∨ s.swap.actionSent then s
    else
      let s := if s.isIngress then
          { (s.announce (.swapEnd rNone)) with wnd := { (s.announce (.swapEnd rNone)).wnd with barrier := false }, swap := s.swap.jobEnded }
        else s
      s.dropSwap 2 rNone
  | .tempHeld =>
    if s.swap.mode = 4 ∧ s.swap.heldFrom ≠ .reading ∧ s.swap.heldFrom ≠ .ready then
      (if s.isIngress then s.startRollback else s.tellSwap .abortAsked)
    else s.dropSwap 2 rNone
  | _ => if s.swap.flipped then s else s.dropSwap 2 rNone

/-- A write of SWAP_CMD, by MODE; a reserved MODE is refused with ABI_MISMATCH (R15, R328). -/
def State.swapCmdWrite (s : State) (f : Nat) (v : Word) (sl : ImageSlice) : State :=
  if !(s.mayWrite f swapCmd) then s
  else
    let s := s.storeReg f swapCmd v
    match fld v 2 0 with
    | 0 => s
    | 5 => s.abortSwap
    | 6 | 7 => s.swapRefuse rAbiMismatch
    | m => s.swapStart m v sl

/-- STAGE (R318). -/
def execStage (f : Nat) (v : Word) (sl : ImageSlice) (s : State) : Host.Outcome State Fault Refusal :=
  .next (s.swapCmdWrite f (setFld v 2 0 1) sl)

/-- LOAD (R318). -/
def execLoad (f : Nat) (v : Word) (sl : ImageSlice) (s : State) : Host.Outcome State Fault Refusal :=
  .next (s.swapCmdWrite f (setFld v 2 0 2) sl)

/-- SHADOW (R318, R319). -/
def execShadow (f : Nat) (v : Word) (sl : ImageSlice) (s : State) : Host.Outcome State Fault Refusal :=
  .next (s.swapCmdWrite f (setFld v 2 0 3) sl)

/-- IN_PLACE (R318, R320). -/
def execInPlace (f : Nat) (v : Word) (sl : ImageSlice) (s : State) : Host.Outcome State Fault Refusal :=
  .next (s.swapCmdWrite f (setFld v 2 0 4) sl)

/-- No slice: what a command that needs none carries. -/
def noSlice : ImageSlice := { raw := [], job := noJob, plans := [], programs := [] }

/-- SWAP_ABORT (R322). -/
def execSwapAbort (f : Nat) (v : Word) (s : State) : Host.Outcome State Fault Refusal :=
  .next (s.swapCmdWrite f (setFld v 2 0 5) noSlice)

/-- A write of SWAP_COMMIT.COMMIT (R319): on the ingress module with an operation under way; held until every module has reported. -/
def State.commitWrite (s : State) (f : Nat) : State :=
  if s.mayWrite f swapCommit ∧ s.isIngress ∧ s.swap.phase ≠ .idle ∧ (s.swap.mode = 3 ∨ s.swap.mode = 4) ∧ !s.wnd.barrier then
    ({ s with swap := { s.swap with commitAt := some (s.swap.commitAt.getD s.now) } }).tryCommit
  else s

/-- A write of SWAP_COMMIT.ABORT (R322): on the ingress module, the job's operation ends on every module. -/
def State.commitAbort (s : State) (f : Nat) : State :=
  if s.mayWrite f swapCommit ∧ s.isIngress ∧ s.swap.phase ≠ .idle then
    if s.wnd.barrier then s.abortSwap
    else
      let t := s.announce (.swapEnd rNone)
      { t with swap := t.swap.jobEnded }.abortSwap
  else s

/-- SWAP_COMMIT (R319). -/
def execSwapCommit (f : Nat) (s : State) : Host.Outcome State Fault Refusal := .next (s.commitWrite f)

/-- SWAP_COMMIT_ABORT (R322). -/
def execSwapCommitAbort (f : Nat) (s : State) : Host.Outcome State Fault Refusal := .next (s.commitAbort f)

/-! ## Copies (R306 to R308, R326) -/

/-- Both copies of a slot are written with a slice (R306, R309). -/
def State.writeCopies (s : State) (n : Nat) (sl : ImageSlice) : State :=
  (s.setVslot n { s.vslot n with copy0 := some sl, copy1 := some sl, staging := false }).inc64 vaultWrittenLo (2 * sl.raw.length / 1000000)

/-- The install record of a slot (R306). -/
def State.recordSlot (s : State) (n : Nat) (sl : ImageSlice) : State :=
  s.setVslot n { s.vslot n with record := some { slot := n, digest := imgDigest sl, gen := BitVec.ofNat 64 (imgGen sl) }, ok0 := true, ok1 := true }

/-- STAGE_COMPLETE (R303, R306, R318): the copies are written, and the record when the digest is the one expected; else IMAGE_CONFLICT.
A slice that R303 refuses is not written. -/
def execStageComplete (s : State) : Host.Outcome State Fault Refusal :=
  .next (
    match s.swap.staged with
    | some sl =>
      if s.swap.mode ≠ 1 ∨ s.swap.phase ≠ .reading ∨ !(s.swapNodes.all fun n => s.nodeWithin n 10 85) then s
      else if !(s.sliceOk sl) then s.dropSwap 3 rAbiMismatch
      else
        let n := s.swap.slot
        let s := s.writeCopies n sl
        if imgDigest sl = s.expected then (s.recordSlot n sl).endSwap 0 rNone
        else (s.setVslot n { s.vslot n with ok0 := false, ok1 := false }).dropSwap 3 rImageConflict
    | none => s)

/-- What was programmed from a copy whose digest has failed is discarded (R307). -/
def State.discardRows (s : State) : State :=
  if s.swap.rows.isEmpty then s
  else
    let b := s.swap.target
    let s := s.each s.imageStopes fun s i => s.updStope i fun t => (List.range 72).foldl (fun t m => t.setBank m b .empty) t
    { s with swap := { s.swap with rows := [], phase := .reading } }

/-- A copy's check has an outcome, shown in SLOT_INFO (R327). -/
def State.markCopy (s : State) (n : Nat) (one ok : Bool) : State :=
  s.setVslot n (if one then { s.vslot n with ok1 := ok } else { s.vslot n with ok0 := ok })

/-- IMAGE_STREAM_END (R303, R307, R319, R326): a copy has been streamed to its end. Its digest decides: the operation goes on, or with
the other copy, or ends. A storage slice is checked against SWAP_EXPECT, and staged on request. -/
def execImageStreamEnd (s : State) : Host.Outcome State Fault Refusal :=
  .next (
    let w := s.swap
    match w.image with
    | some sl =>
      if w.verified ∨ (w.phase ≠ .reading ∧ w.phase ≠ .programming) ∨ w.mode < 2 then s
      else if w.src = 2 then
        if !(s.sliceOk sl) then s.dropSwap 3 rAbiMismatch
        else if imgDigest sl ≠ s.expected then s.dropSwap 3 rImageConflict
        else
          let s := if w.stageToo then (s.writeCopies w.slot sl).recordSlot w.slot sl else s
          ({ s with swap := { s.swap with verified := true } }).swapAdvance
      else
        let v := s.vslot w.slot
        if s.copyUsable v w.copyUsed then
          let s := s.markCopy w.slot w.copyUsed true
          ({ s with swap := { s.swap with verified := true } }).swapAdvance
        else
          let s := (s.markCopy w.slot w.copyUsed false).discardRows
          if !w.switched ∧ s.copyMatches v (!w.copyUsed) then
            { s with swap := { s.swap with image := v.copy (!w.copyUsed), copyUsed := !w.copyUsed, switched := true } }
          else
            let code := s.copyFault v
            if code = causeImageBad then (s.report causeImageBad 0 w.slot epHeadframe none).dropSwap 4 code else s.dropSwap 3 code
    | none => s)

/-- COPY_REPAIR (R308, R314): between operations, with one copy usable and the other not, the other is rewritten from it. -/
def execCopyRepair (slot : Nat) (s : State) : Host.Outcome State Fault Refusal :=
  .next (
    let v := s.vslot slot
    let u0 := s.copyUsable v false
    let u1 := s.copyUsable v true
    if s.swap.phase ≠ .idle ∨ u0 = u1 ∨ !([264, 265].all fun n => s.nodeWithin n 10 85) then s
    else
      match (if u0 then v.copy0 else v.copy1) with
      | some sl =>
        let s := s.setVslot slot { v with copy0 := some sl, copy1 := some sl, ok0 := true, ok1 := true }
        ((s.inc vaultRepairCount 1).inc64 vaultWrittenLo (sl.raw.length / 1000000)).report causeCheckRepaired 0 slot epHeadframe none
      | none => s)

/-! ## Temperature holds (R314, R315) -/

/-- TEMP_RESUME (R315): the target has stayed within 13 to 82 °C for 10 ms; the operation goes on, and the cap of R316 lifts. -/
def execTempResume (s : State) : Host.Outcome State Fault Refusal :=
  .next (
    match s.swap.inWindow with
    | some since =>
      if s.swap.phase = .tempHeld ∧ since + 10000000 ≤ s.now ∧ s.swapNodes.all fun n => s.nodeWithin n 13 82 then
        let s := { s with swap := { s.swap with phase := s.swap.heldFrom, holdSince := none, inWindow := none },
                          hf := { s.hf with capShed := none } }
        s.swapAdvance
      else s
    | none => s)

/-- A layer of this module fails (R321). -/
def State.ownLayerFail (s : State) (layer : Nat) : State :=
  let s := s.report causeLayerFail 0 layer epHeadframe none
  if s.isIngress then s.startRollback else s.tellSwap (.layerFail layer)

/-- The previous image cannot be programmed either: the module's slices are lost (R321). -/
def State.rollbackLost (s : State) : State := (s.sliceLost ((s.stopeRegion s.leadStope).getD 0) 0).endSwap 4 causeLayerFail

/-- TEMP_WAIT_EXPIRY (R314, R315, R321): a hold has lasted TEMP_WAIT ms: the operation ends FAILED with TEMP_WINDOW; a layer of an
IN_PLACE fails; a rollback loses the slices. -/
def execTempWaitExpiry (s : State) : Host.Outcome State Fault Refusal :=
  .next (
    match s.swap.holdSince with
    | some since =>
      if s.swap.phase = .tempHeld ∧ since + fld (s.rd swapTempWait) 17 0 * 1000000 ≤ s.now then
        match s.swap.heldFrom with
        | .barrier =>
          let s := { s with swap := { s.swap with phase := .barrier, holdSince := none }, hf := { s.hf with capShed := none } }
          s.ownLayerFail s.swap.layersDone
        | .rollback => s.rollbackLost
        | _ => s.dropSwap 4 rTempWindow
      else s
    | none => s)

/-! ## Reports and the barrier (R319 to R321) -/

/-- SWAP_REPORT (R319): a module reports 0 PREPARED, 1 ARMED, 2 an OUTCOME, or 3 the acknowledgement of a FLIP. An OUTCOME before the
barrier ends the job's operation (DESIGN CHOICE, log entry 35). -/
def execSwapReport (dev report gen : Nat) (s : State) : Host.Outcome State Fault Refusal :=
  .next (
    if !s.isIngress ∨ !(s.jobDevices.contains dev) then s
    else if report ≤ 1 then
      if s.wnd.barrier then s
      else
        ({ s with swap := { s.swap with reports := (s.swap.reports.filter fun (r : Nat × Nat × Nat) => r.1 != dev) ++ [(dev, report, gen)] } }).tryCommit
    else if report = 2 then (if s.wnd.barrier then s else s.endJob 2 rNone)
    else if s.wnd.barrier ∧ s.swap.actionSent ∧ !(s.swap.acks.contains dev) then
      { s with swap := { s.swap with acks := s.swap.acks ++ [dev] } }
    else s)

/-- SWAP_TIMEOUT_EXPIRY (R319): SWAP_TIMEOUT ms have passed with COMMIT held. -/
def execSwapTimeoutExpiry (s : State) : Host.Outcome State Fault Refusal :=
  .next (
    match s.swap.commitAt with
    | some since =>
      if s.isIngress ∧ !s.wnd.barrier ∧ !s.allReported ∧ since + fld (s.rd swapTimeout) 15 0 * 1000000 ≤ s.now then
        (s.report causeSwapTimeout 0 0 epHeadframe none).endJob 2 causeSwapTimeout
      else s
    | none => s)

/-- JOB_BARRIER_DRAINED (R320): no token is in flight, and the barrier action goes out. -/
def execJobBarrierDrained (s : State) : Host.Outcome State Fault Refusal :=
  .next (
    if s.isIngress ∧ s.wnd.barrier ∧ !s.swap.actionSent ∧ s.swap.phase = .barrier ∧ !(s.wnd.streams.any fun t => t.2.flying.isSome) then
      let s := s.announce (if s.swap.jobMode = 3 then .flip else .rewrite)
      { s with swap := { s.swap with
          actionSent := true,
          layersLeft := if s.swap.jobMode = 4 then s.jobDevices.flatMap fun d => (List.range s.wnd.job.layers).map fun l => (d, l) else [] } }
    else s)

/-- FLIP (R113, R114, R320): with its running plans ended, the module writes BANK_SEL in every stope and acknowledges. -/
def execFlip (s : State) : Host.Outcome State Fault Refusal :=
  .next (
    let w := s.swap
    if w.mode = 3 ∧ (w.phase = .ready ∨ w.phase = .barrier) ∧ !w.flipped ∧ s.imageStopes.all fun i => (s.stope i).allIdle then
      let s := s.each s.imageStopes fun s i => s.wrBit (planCtrl i) 1 w.target
      let s := { s with swap := { s.swap with flipped := true, phase := .barrier } }
      if s.isIngress then { s with swap := { s.swap with acks := s.swap.acks ++ [s.edge.devId] } } else s.tellSwap .flipped
    else s)

/-- LAYER_DONE (R320, R321): a layer of a module has been rewritten; the module itself counts it in LAYERS and reports it. -/
def execLayerDone (dev layer : Nat) (s : State) : Host.Outcome State Fault Refusal :=
  .next (
    let own := dev == s.edge.devId && s.swap.mode == 4 && (s.swap.phase == .barrier || s.swap.phase == .rollback)
    let s := if own then { s with swap := { s.swap with layersDone := s.swap.layersDone + 1 } } else s
    let s := if own && !s.isIngress then s.tellSwap (.layer layer) else s
    if s.isIngress ∧ s.wnd.barrier ∧ s.swap.layersLeft.contains (dev, layer) then
      { s with swap := { s.swap with layersLeft := s.swap.layersLeft.erase (dev, layer), layersRight := s.swap.layersRight ++ [(dev, layer)] } }
    else s)

/-- LAYER_FAIL (R321): a layer of an IN_PLACE fails, and the ingress module multicasts ROLLBACK. -/
def execLayerFail (dev layer : Nat) (s : State) : Host.Outcome State Fault Refusal :=
  .next (
    if dev = s.edge.devId then
      (if s.swap.mode = 4 ∧ s.swap.phase = .barrier then s.ownLayerFail layer else s)
    else if s.isIngress ∧ s.wnd.barrier ∧ s.swap.jobMode = 4 ∧ s.jobDevices.contains dev then s.startRollback
    else s)

/-- ROLLBACK (R307, R321): every macro rewritten is rewritten again from the slot of the bank's previous record; without a usable copy
the slices are lost. -/
def execRollback (s : State) : Host.Outcome State Fault Refusal :=
  .next (
    let w := s.swap
    if w.mode ≠ 4 ∨ (w.phase ≠ .barrier ∧ w.phase ≠ .ready ∧ w.phase ≠ .tempHeld) then s
    else
      let s := s.inc swapRollbackCount 1
      let undo := w.rows.map (·.1)
      match w.prev.bind fun r => s.slotSlice r.slot with
      | some sl =>
        ({ s with swap := { s.swap with phase := .rollback, image := some sl, verified := true, undo := undo, rows := [], layersDone := 0,
                                        holdSince := none } }).swapAdvance
      | none =>
        if undo.isEmpty then (s.setRecord w.target w.prev).endSwap 1 rNone else s.rollbackLost)

/-- JOB_BARRIER_RELEASE (R320, R321): every acknowledgement or layer has come, and the barrier ends. -/
def execJobBarrierRelease (s : State) : Host.Outcome State Fault Refusal :=
  .next (
    let w := s.swap
    let finished :=
      if w.jobMode = 3 then s.jobDevices.all fun d => w.acks.contains d
      else w.layersLeft.isEmpty
    if s.isIngress ∧ s.wnd.barrier ∧ w.actionSent ∧ finished then
      let s := s.announce .release
      { s with swap := s.swap.jobEnded, wnd := { s.wnd with barrier := false } }
    else s)

/-! ## Completion (R306, R323, R353) -/

/-- The plans, programs and job configuration of a slice take their places (R302). -/
def State.installSlice (s : State) (sl : ImageSlice) : State :=
  let s := s.each sl.plans fun s p =>
    if 256 ≤ p.1 ∨ 24 ≤ p.2.1 then s else s.installPlan p.1 p.2.1 p.2.2.1 p.2.2.2
  let s := s.each sl.programs fun s p =>
    s.wrMem ((if p.1 < 256 then s.spFor p.1 else coreMemBase (p.1 - 256)) + p.2.1) p.2.2
  let s := s.each sl.job.calGains fun s g => s.calGainsWrite 0 g.1 (BitVec.ofNat 32 g.2)
  let s := (s.wr kvpRopeDefBase sl.job.ropeBase).wr kvpRopeDefDims (BitVec.ofNat 32 (sl.job.ropeDims % 256))
  let s := s.wr smpVocab (BitVec.ofNat 32 (imgVocab sl))
  { s with wnd := { s.wnd with job := sl.job, jobNo := leAt sl.raw 0x10 2, roles := leAt sl.raw 0x1A 1, programs := sl.programs } }

/-- The operation's effects on its bank (R306, R323, R353): record, generations, calibration due, canary tables unlearned; the nodes of the
generation before wait for eviction, also where the new one is the same (R237). -/
def State.completeBank (s : State) (sl : ImageSlice) : State :=
  let b := s.swap.target
  let old := s.genOf b
  let s := (s.setRecord b (some (s.newRecord sl))).installSlice sl
  let s := { s with kv := { s.kv with prevGen := s.kv.prevGen ++ [(b, BitVec.ofNat 64 old)] } }
  let s := (s.wr64 (if b then swapBankGenBLo else swapBankGenALo) (imgGen sl)).wr64 (if b then pfxGenBLo else pfxGenALo) (imgGen sl)
  s.each s.imageStopes fun s i => (s.updStope i fun t => t.clearCanary b).calDue i

/-- SWAP_COMPLETE (R323, R324): a LOAD with its bank programmed and its copy verified, a SHADOW that has flipped, or an IN_PLACE with every
macro rewritten completes; on the ingress module once the barrier is released. -/
def execSwapComplete (s : State) : Host.Outcome State Fault Refusal :=
  .next (
    let w := s.swap
    match w.image with
    | some sl =>
      let ready : Bool := match w.mode with
        | 2 => (w.phase == .reading || w.phase == .programming) && s.allDone
        | 3 => w.flipped
        | 4 => w.phase == .barrier && s.allDone
        | _ => false
      if ready ∧ w.verified ∧ !s.wnd.barrier then (s.completeBank sl).endSwap 0 rNone else s
    | none => s)

/-! ## Refresh and spares (R325, R343) -/

/-- Whether a macro bank is due for refresh: handed over under R137, or its interval has passed (R138). -/
def State.refreshDue (s : State) (i m : Nat) (bank : Bool) : Bool :=
  let key := 2 * m + (if bank then 1 else 0)
  (s.refreshOf (bankKey i m bank)).means == .due ||
    ((s.refreshOf (bankKey i m bank)).means == .off && decide (m < 72) && (s.stope i).bankState m bank == .valid &&
      decide (((Table.get 0 (s.stope i).progTime key : Nat) : Rat) + Table.get 30 (s.stope i).refreshDays key * 86400000000000 ≤ (s.now : Nat)))

/-- The first means that is available (R325), with the seam or spare it takes. -/
def State.startRefresh (s : State) (i m : Nat) (bank : Bool) : State :=
  let t := s.stope i
  let k := seamOf m
  let key := bankKey i m bank
  let r := s.refreshOf key
  let go (s : State) (x : Means) : State := s.setRefresh key { r with means := x, since := s.now }
  let serving := bank == t.bank || (!(bit (s.rd (planCtrl i)) 0) && bank == bit (s.rd (planCtrl i)) 1)
  if !serving then go s .inPlace
  else match s.freeSpare i false with
    | some p =>
      let s := s.updStope i fun t => t.setSpare p { target := m, used := true, live := false, refresh := true, ready := [] }
      go s .spare
    | none =>
      if (t.seam k).mode = .checked then
        let mode := if m < 64 then SeamMode.recon else .unprotected
        go (s.updStope i fun t => t.updSeam k fun g => { g with mode := mode, mac := m, mac2 := none, forRefresh := true })
          (if m < 64 then .recon else .unprotected)
      else (go s .held).report causeRefreshHeld (unitMacro i m) (if bank then 1 else 0) i none

/-- BANK_REFRESH (R325): a due macro bank is refreshed by the first means available. -/
def execBankRefresh (i m : Nat) (bank : Bool) (s : State) : Host.Outcome State Fault Refusal :=
  .next (if s.refreshDue i m bank then s.startRefresh i m bank else s)

/-- REFRESH_RETRY (R325): a held refresh is tried again after 1 s. -/
def execRefreshRetry (i m : Nat) (bank : Bool) (s : State) : Host.Outcome State Fault Refusal :=
  .next (
    let r := s.refreshOf (bankKey i m bank)
    if r.means = .held ∧ r.since + 1000000000 ≤ s.now then s.startRefresh i m bank else s)

/-- A permanent macro of a stope that no spare serves yet, in ascending order (R346). -/
def State.unserved (s : State) (i : Nat) : Option Nat :=
  (List.range 72).find? fun m => s.macroDead i m &&
    !([72, 73].any fun p => ((s.stope i).spare p).used && !((s.stope i).spare p).refresh && ((s.stope i).spare p).target == m)

/-- SPARE_PROGRAM (R343): an assigned spare is programmed with its target's slice in a bank that holds an image there; a free one is
assigned to a permanent macro first. Its rows run under PROGRAM_ROW. -/
def execSpareProgram (i p : Nat) (bank : Bool) (s : State) : Host.Outcome State Fault Refusal :=
  .next (
    if p ≠ 72 ∧ p ≠ 73 then s
    else
      let x := (s.stope i).spare p
      let s := if !x.used ∧ s.freeSpare i false = some p then
          (match s.unserved i with
           | some m => s.updStope i fun t => t.setSpare p { target := m, used := true, live := false, refresh := false, ready := [] }
           | none => s)
        else s
      let t := s.stope i
      let x := t.spare p
      if x.used ∧ !x.live ∧ (t.heldBanks x.target).contains bank ∧ !(x.ready.contains bank) ∧ (s.refreshOf (bankKey i p bank)).means = .off ∧
          (s.bankSlice bank).isSome then
        s.setRefresh (bankKey i p bank) { means := .stand, row := 0, iters := 0, failed := false, since := s.now }
      else s)

/-- The seam after a spare has taken a permanent macro's place: checked again, or unprotected for its other checksum macro (R343, R346). -/
def Seam.covered (g : Seam) (m : Nat) : Seam :=
  if g.mode = .unprotected ∧ g.mac2 = some m then { g with mac2 := none }
  else if g.mac ≠ m ∨ (g.mode ≠ .recon ∧ g.mode ≠ .unprotected) then g
  else match g.mac2 with
    | some n => { g with mac := n, mac2 := none }
    | none => { g with mode := .checked }

/-- SPARE_MAP_IN (R83, R343): a spare that holds every bank its target holds stands in between the seam's plans. -/
def execSpareMapIn (i p : Nat) (s : State) : Host.Outcome State Fault Refusal :=
  .next (
    let t := s.stope i
    let x := t.spare p
    let k := seamOf x.target
    if t.spareReady p ∧ !(t.seq k).busy then
      let s := s.updStope i fun t =>
        let t := t.setSpare p { x with live := true }
        if x.refresh then t else t.updSeam k fun g => g.covered x.target
      s.report causeSpareActive (unitMacro i x.target) p i none
    else s)

end Sys2Proof.Machine
end

