-- ==== Sys2Proof/Machine/Margin.lean ====
section
/-! DEFINITION. The margin plan (R138, R141, R142, R145 to R147): what a re-plan computes, and its adoption. -/

namespace Sys2Proof.Machine

/-! ## Floors and speed (R141, R142) -/

/-- The sums of the least-squares equations of pace = x + y·V + z·T over points: V in mV, T in Q8.8 °C, pace in Q2.14. -/
def fitSums (l : List (Nat × Int × Nat)) : (Rat × Rat × Rat × Rat × Rat × Rat) × (Rat × Rat × Rat) :=
  let sum (f : Rat → Rat → Rat → Rat) : Rat := (l.map fun p => f ((p.1 : Nat) : Rat) ((p.2.1 : Int) : Rat) ((p.2.2 : Nat) : Rat)).sum
  ((sum fun _ _ _ => 1, sum fun v _ _ => v, sum fun _ t _ => t, sum fun v _ _ => v * v, sum fun v t _ => v * t, sum fun _ t _ => t * t),
   (sum fun _ _ p => p, sum fun v _ p => v * p, sum fun _ t p => t * p))

/-- A 3 by 3 determinant, by rows. -/
def det3 (a b c d e f g h i : Rat) : Rat := a * (e * i - f * h) - b * (d * i - f * g) + c * (d * h - e * g)

/-- The least-squares straight-line model of pace in VCORE and temperature (R142; DESIGN CHOICE of the fit, log entry 159). -/
def paceFit (l : List (Nat × Int × Nat)) : Rat × Rat × Rat :=
  let ((n, v, t, vv, vt, tt), (p, vp, tp)) := fitSums l
  let d := det3 n v t v vv vt t vt tt
  if d = 0 then Config.flatFit l
  else (det3 p v t vp vv vt tp vt tt / d, det3 n p t v vp vt t tp tt / d, det3 n v p v vv vp t vt tp / d)

/-- A block's fit: the factory's until it has field history, then of the factory points and every field measurement (R142). -/
def State.blockFit (s : State) (ep : Nat) : Rat × Rat × Rat :=
  let own := (s.hf.paceHist.filter fun x => x.1 == ep).map (·.2)
  if own.isEmpty then Config.factoryFit ep else paceFit (Config.factoryPoints ep ++ own)

/-- P_worst at a VCORE, as Q2.14 rounded down: 0.95 of the lowest pace predicted over all blocks at 100 °C (R142). -/
def worstPace (fits : List (Rat × Rat × Rat)) (v : Nat) : Nat :=
  match fits.map fun x => x.1 + x.2.1 * ((v : Nat) : Rat) + x.2.2 * 25600 with
  | [] => 0
  | p :: ps => (19 / 20 * ps.foldl min p).floor.toNat

/-- P_worst on the 5 mV grid from 550 mV to 800 mV (R142). -/
def State.worstPaces (s : State) : List Nat :=
  let fits := allPaced.map s.blockFit
  (List.range 51).map fun i => worstPace fits (550 + 5 * i)

/-- The 99th percentile of the die's noise at a gain, over the columns whose latest result was in range (R141); none before any
calibration of the gain. -/
def State.noiseAt (s : State) (g : Nat) : Option Rat :=
  let all := s.stopes.flatMap fun t => Table.get [] t.2.cal.noise g
  if all.isEmpty then none else some (percentile 99 all)

/-- The integration floor of R141, and whether NOISE_HIGH is raised. -/
def floorOf (a b : Rat) : Nat × Bool :=
  if 9 / 100 ≤ b then (63, true)
  else if a ≤ 0 then (1, false)
  else
    let n := ratCeil (a / (9 / 100 - b))
    (max 1 (min 63 n), decide (63 < n))

/-- The VCORE floor and the speed of R142, from P_worst on the 5 mV grid from 550 mV: the lowest VCORE that reaches A, else 800 mV
with A lowered to what it reaches. -/
def floorVcore (worst : List Nat) (a : Nat) : Nat × Nat :=
  match (List.range 51).find? fun i => decide (a ≤ worst.getD i 0) with
  | some i => (550 + 5 * i, a)
  | none => (800, worst.getD 50 0)

/-! ## Refresh intervals (R138) -/

/-- When a straight line through a drift history reaches 0.35 of a level, in ns after `start` (least squares; DESIGN CHOICE of the fit, log
entry 38); none for fewer than two times, or for a line that does not rise. -/
def reachLimit (start : Nat) (h : List (Nat × Rat)) : Option Rat :=
  let n : Rat := (h.length : Nat)
  let pts : List (Rat × Rat) := h.map fun p => (((p.1 - start : Nat) : Rat), p.2)
  let sx := (pts.map (·.1)).sum
  let sy := (pts.map (·.2)).sum
  let sxx := (pts.map fun p => p.1 * p.1).sum
  let sxy := (pts.map fun p => p.1 * p.2).sum
  let den := n * sxx - sx * sx
  if h.length < 2 ∨ den = 0 then none
  else
    let slope := (n * sxy - sx * sy) / den
    if slope ≤ 0 then none else some ((7 / 20 - (sy - slope * sx) / n) / slope)

/-- A macro bank's refresh interval in days (R138). -/
def intervalDays (start : Nat) (h : List (Nat × Rat)) : Rat :=
  if h.length < 2 then 30
  else match reachLimit start h with
    | some t => max 1 (min 180 (t / 2 / 86400000000000))
    | none => 180

/-- A stope's intervals anew. -/
def Stope.setIntervals (t : Stope) : Stope :=
  { t with refreshDays := (List.range 148).foldl (fun m k =>
      Table.set 30 m k (intervalDays (Table.get 0 t.progTime k) (Table.get [] t.drift k))) t.refreshDays }

/-- The shortest interval of a VALID macro bank, or the interval before any measurement, in whole days (R145; DEDUCED, log entry 38). -/
def State.shortestRefresh (s : State) : Nat :=
  minOr 30 (s.stopes.flatMap fun t => (t.2.banks.filter fun b => b.2 == .valid).map fun b => (Table.get 30 t.2.refreshDays b.1).floor.toNat)

/-! ## Adoption (R145 to R147) -/

/-- The integration floors go to every PLAN sub-page. -/
def State.writeFloors (s : State) (fl : List Nat) : State :=
  let f (i : Nat) : Nat := fl.getD i 1
  let lo := f 0 + f 1 * 0x100 + f 2 * 0x10000 + f 3 * 0x1000000
  let hi := f 4 + f 5 * 0x100 + f 6 * 0x10000
  s.each (List.range 256) fun s i => (s.wr (planTintFloorLo i) (BitVec.ofNat 32 lo)).wr (planTintFloorHi i) (BitVec.ofNat 32 hi)

/-- The floor of every gain, with the noise behind it and an alarm where R141 raises one. A gain without results keeps its floor. -/
def State.setFloors (s : State) : State :=
  s.each (List.range 7) fun s g =>
    match s.noiseAt g with
    | some a =>
      let (n, high) := floorOf a Config.adcNoise
      let s := { s with hf := { s.hf with plan := { s.hf.plan with floors := setAt s.hf.plan.floors g fun _ => n },
                                          aBehind := Table.put s.hf.aBehind g a } }
      if high then s.report causeNoiseHigh 0 g epHeadframe none else s
    | none => s

/-- The plan in force after a re-plan with the causes that are set (R145, R146): the floors are written, and VCORE stands no lower than the new floor;
the steps of R428 that take it there lie within the re-plan (DEDUCED, log entry 160). -/
def State.adopt (s : State) : State :=
  let s := s.each (s.stopes.map (·.1)) fun s i => s.updStope i Stope.setIntervals
  let s := s.setFloors
  let (v, a) := floorVcore s.worstPaces s.hf.plan.speed
  let p : Plan :=
    { s.hf.plan with seq := (s.hf.plan.seq + 1) % 0x100000000, adopted := s.now, speed := a, vcoreFloor := v,
                     calInterval := fld (s.rd hfCalInt) 9 0, refreshMin := s.shortestRefresh, dramRate := s.hf.dramWant,
                     cause := s.hf.causes }
  ({ s with hf := { s.hf with plan := p, causes := 0, vcore := if s.hf.vcore = 0 then 0 else max s.hf.vcore v } }).writeFloors p.floors

/-- MARGIN_REPLAN (R135, R138, R141, R142, R145 to R147): with a trigger set, the headframe computes and adopts a margin plan; an ingress module
recomputes its classes. `orders` names the stopes that the plan orders a calibration of (R135; DESIGN CHOICE, log entry 156). -/
def execMarginReplan (orders : List Nat) (s : State) : Host.Outcome State Fault Refusal :=
  .next (
    if s.hf.causes = 0 then s
    else
      let s := (s.adopt).each (orders.filter fun i => decide (i < 256)) fun s i => s.calDue i
      if s.isIngress then s.replanBounds else s)

/-- REPLAN_DAILY (R146): 24 h have passed since the plan in force was adopted. -/
def execReplanDaily (s : State) : Host.Outcome State Fault Refusal :=
  .next (if s.hf.plan.adopted + 86400000000000 ≤ s.now then s.replanCause 0 else s)

/-- A write of HF_CTRL (R446). -/
def State.hfCtrlWrite (s : State) (f : Nat) (v : Word) : State :=
  if s.mayWrite f hfCtrl then
    let s := s.storeReg f hfCtrl v
    if bit v 0 then s.replanCause 8 else s
  else s

/-- REPLAN (R446). -/
def execReplan (f : Nat) (s : State) : Host.Outcome State Fault Refusal := .next (s.hfCtrlWrite f 1)

end Sys2Proof.Machine
end

