-- ==== Sys2Proof/Machine/Storage.lean ====
section
/-! DEFINITION. The protection of core memories and the pool (R169 to R173, R179 to R181, R193, R197), the scrubber, and the
reduction group registers (R166). -/

namespace Sys2Proof.Machine

/-- The fields of a register. -/
def regFields (off : Nat) : List Field := match rowAt off with
  | some (r, _) => r.fields
  | none => []

/-- A group register written anew: its reductions are counted from the first again, and what stood open on it goes (R166; DESIGN CHOICE, log
entry 139). -/
def Core.newGroup (t : Core) (g : Nat) : Core :=
  { t with reductions := t.reductions.filter fun r => r.group != g, redSeen := t.redSeen.filter fun x => x.1 / 256 != g,
           redMade := t.redMade.filter fun x => x.1 != g, redFaults := t.redFaults.filter fun x => x != g }

/-- REDGRP of a stope written (R166, R196): with VALID 1, a rectangle or root outside the stope's region, or a root outside the
rectangle, is refused and the register keeps its value. -/
def State.redgrpWrite (s : State) (f i g : Nat) (v : Word) : State :=
  let off := shellRedgrp i g
  if 8 ≤ g ∨ 256 ≤ i ∨ !(s.mayWrite f off) then s
  else
    let (w, rg) := writeFields (regFields off) (s.rd off) v
    let s := if rg then s.rgWrite f (pageBase off) else s
    let home := s.stopeRegion i
    let bad := groupValid w && (home.isNone || !((groupStopes w).contains (groupRoot w)) ||
      (groupStopes w).any fun x => s.stopeRegion x != home)
    if bad then s.refuse (coreLastRefuse i) rRegionViolation else (s.wr off w).updCore i fun t => t.newGroup g

/-- REDGRP_WRITE (R166). -/
def execRedgrpWrite (f i g : Nat) (v : Word) (s : State) : Host.Outcome State Fault Refusal := .next (s.redgrpWrite f i g v)

/-- Regions whose mode bits differ are re-encoded one after another, ascending (R170). -/
def Core.reencode (t : Core) (regions : List Nat) : Core :=
  { t with reprot := (List.range 80).filter fun r => t.reprot.contains r || regions.contains r }

/-- SP_PROT or CORE_PROT written (R170, R179). -/
def State.protWrite (s : State) (f c : Nat) (v : Word) : State :=
  let off := coreProt c
  if !(s.mayWrite f off) then s
  else
    let old := s.rd off
    let s := s.storeReg f off v
    let changed := (List.range 16).filter fun i => bit old i != bit (s.rd off) i
    s.updCore c fun t => t.reencode changed

/-- SP_PROT_WRITE (R170, R179). -/
def execSpProtWrite (f c : Nat) (v : Word) (s : State) : Host.Outcome State Fault Refusal := .next (s.protWrite f c v)

/-- What the old check of a re-encoded region, which stood in correct mode or in detect mode, saw of one word (R170, R172): a word that fails
it is poisoned. -/
def State.oldCheck (s : State) (c : Nat) (correct : Bool) (x : ReadErr) : State :=
  if correct then
    match x.kind with
    | 0 | 3 => s.inc (coreCe c) 1
    | 1 => s.inc (coreCheckbit c) 1
    | _ => (s.inc (coreUe c) 1).setPoison x.word
  else (s.inc (coreParity c) 1).setPoison x.word

/-- REPROT_REGION_DONE (R170, R172, R197): the first region still to do is done, of a core's memory or of the pool; what its reads met under
the old mode, the opposite of the new one, is counted, and words that failed are poisoned. Merge core 0 keeps the pool's granules, as regions
16 and up. -/
def execReprotRegionDone (c region : Nat) (e : List ReadErr) (s : State) : Host.Outcome State Fault Refusal :=
  .next (
    if (s.core c).reprot.find? (fun r => decide (16 ≤ r) == decide (16 ≤ region)) = some region then
      let (base, size) := regionPlace c region
      let mine := e.filter fun x => decide (base ≤ 8 * x.word ∧ 8 * x.word < base + size ∧ x.kind < 4)
      (s.updCore c fun t => { t with reprot := t.reprot.erase region }).each mine fun t x => t.oldCheck c (!(s.correctMode x.word)) x
    else s)

/-! ## The scrubber (R173, R179) -/

/-- Words of a core's memory, and of one of its protection regions. -/
def coreWords (c : Nat) : Nat := if c < 256 then 131072 else 262144
def regionWords (c : Nat) : Nat := coreWords c / 16

/-- The next word in correct mode from a position on (R173). -/
def State.nextCorrect (s : State) (c pos : Nat) : Option Nat :=
  if coreWords c ≤ pos then none
  else if bit (s.rd (coreProt c)) (pos / regionWords c) then some pos
  else ((List.range 16).find? fun r => decide (pos / regionWords c < r) && bit (s.rd (coreProt c)) r).map (· * regionWords c)

/-- Where a core's own memory stands in the flat memory. -/
def coreBaseMem (c : Nat) : Nat := if c < 256 then spBase c else coreMemBase (c - 256)

/-- Whether an issued descriptor of any core accesses a core's memory (R173). -/
def State.memInUse (s : State) (c : Nat) : Bool :=
  s.cores.any fun p => p.2.issued.any fun i => i.sb.any fun e => e.space != 1 && wordCore (e.start / 8) == c

/-- SCRUB_READ (R172, R173, R179): the next correct-mode word is read and checked, in idle time or at the forced interval; an
uncorrectable word is poisoned, and no step faults. After the last word the pass is complete and its time is kept. -/
def execScrubRead (c word : Nat) (e : List ReadErr) (s : State) : Host.Outcome State Fault Refusal :=
  .next (
    let t := s.core c
    let due := !(s.memInUse c) || decide (t.scrubLast + (if c < 256 then 50000 else 25000) ≤ s.now)
    if bit (s.rd (coreBase c + 0x100)) 0 && due && s.nextCorrect c t.scrubPos == some word then
      let flat := coreBaseMem c / 8 + word
      let s := s.each (e.filter fun x => x.word == flat) fun s x =>
        match s.seenKind x with
        | 0 => s.inc (coreCe c) 1
        | 1 => s.inc (coreCheckbit c) 1
        | _ => (s.inc (coreUe c) 1).setPoison flat
      match s.nextCorrect c (word + 1) with
      | some _ => s.updCore c fun k => { k with scrubPos := word + 1, scrubLast := s.now }
      | none => (s.updCore c fun k => { k with scrubPos := 0, scrubLast := s.now }).wr64 (coreScrubLast c) s.now
    else s)

/-! ## Lost programs (R171, R193) -/

/-- PROG_RELOADED written: the headframe drops the PROG_LOST cause at the core (R171, R193). -/
def State.progReload (s : State) (c : Nat) : State :=
  (s.updCore c fun t => { t with progLost := false }).unfence (coreBase c) 1

/-- PROG_RELOADED (R193). -/
def execProgReloaded (f c : Nat) (s : State) : Host.Outcome State Fault Refusal :=
  .next (if s.mayWrite f (coreBase c + 0x100) then s.progReload c else s)

/-! ## The pool (R180, R181, R197) -/

/-- The register of one half of a pool mask. -/
def poolReg (lo hi half : Nat) : Nat := if half = 0 then lo else hi

/-- Granules granted to some core. -/
def State.granuleHeld (s : State) (g : Nat) : Bool := (List.range 16).any fun m => s.granted m g

/-- A granule's data is gone (R180: it holds no data across a grant). -/
def State.clearGranule (s : State) (g : Nat) : State :=
  let a := poolBase + g * 0x100000
  { s with mem := s.mem.filter fun p => !(decide (a ≤ p.1 ∧ p.1 < a + 0x100000)) }

/-- POOL_GRANT written (R180, R197): a granule that a core of another region holds is refused; a granule that no core held before
comes without data. -/
def State.poolGrantWrite (s : State) (f m half : Nat) (v : Word) : State :=
  let off := poolReg (mergePoolGrantLo m) (mergePoolGrantHi m) half
  if 16 ≤ m ∨ 2 ≤ half ∨ !(s.mayWrite f off) then s
  else
    let bits := (List.range 32).map fun i => (32 * half + i, bit v i)
    let region (x : Nat) : Option Nat := s.coreRegion (256 + x)
    let conflict := bits.any fun p => p.2 && (List.range 16).any fun x => s.granted x p.1 && region x != region m
    if conflict then s.refuse (coreLastRefuse (256 + m)) rRegionViolation
    else
      let fresh := (bits.filter fun p => p.2 && !(s.granuleHeld p.1)).map (·.1)
      (s.each fresh fun s g => s.clearGranule g).wr off v

/-- POOL_GRANT_WRITE (R180). -/
def execPoolGrantWrite (f m half : Nat) (v : Word) (s : State) : Host.Outcome State Fault Refusal := .next (s.poolGrantWrite f m half v)

/-- POOL_PROT written: the granules whose mode changes are re-encoded (R170, R197). -/
def State.poolProtWrite (s : State) (f m half : Nat) (v : Word) : State :=
  let home := poolReg (mergePoolProtLo 0) (mergePoolProtHi 0) half
  if 16 ≤ m ∨ 2 ≤ half ∨ !(s.mayWrite f (poolReg (mergePoolProtLo m) (mergePoolProtHi m) half)) then s
  else
    let old := s.rd home
    let changed := ((List.range 32).filter fun i => bit old i != bit v i).map (16 + 32 * half + ·)
    (s.wr home v).updCore 256 fun t => t.reencode changed

/-- POOL_PROT_WRITE (R197). -/
def execPoolProtWrite (f m half : Nat) (v : Word) (s : State) : Host.Outcome State Fault Refusal := .next (s.poolProtWrite f m half v)

/-- POOL_RO written (R181, R197): it holds for writes that begin after it; the source records of a granule whose bit clears go. -/
def State.poolRoWrite (s : State) (f m half : Nat) (v : Word) : State :=
  let home := poolReg (mergePoolRoLo 0) (mergePoolRoHi 0) half
  if 16 ≤ m ∨ 2 ≤ half ∨ !(s.mayWrite f (poolReg (mergePoolRoLo m) (mergePoolRoHi m) half)) then s
  else
    let old := s.rd home
    let cleared := ((List.range 32).filter fun i => bit old i && !(bit v i)).map (32 * half + ·)
    (s.wr home v).updCore 256 fun t => { t with roSource := t.roSource.filter fun p => !(cleared.contains (p.1 / 32)) }

/-- POOL_RO_WRITE (R197). -/
def execPoolRoWrite (f m half : Nat) (v : Word) (s : State) : Host.Outcome State Fault Refusal := .next (s.poolRoWrite f m half v)

end Sys2Proof.Machine
end

