-- ==== Sys2Proof/Machine/Seams.lean ====
section
/-! DEFINITION. Localisation (R336 to R339), standby (R369), takeovers (R347 to R350), the CHECK sub-page's writes (R353, R375),
assays and cross-checks (R355 to R360, R376), and the tally's stores and the coalescing of alarms (R364 to R366, R372, R377). -/

namespace Sys2Proof.Machine

/-! ## Localisation (R336 to R339) -/

/-- The units that the failing columns of an assay charge (R356): an ADC for a failure confined to its two columns, else the macro. Each
failing column is `256·macro + column`. -/
def chargedUnits (i : Nat) (failing : List Nat) : List Nat :=
  ((failing.map (· / 256)).dedup).map fun m =>
    let cols := (failing.filter fun x => x / 256 == m).map fun x => x % 256
    match cols with
    | c :: rest => if rest.all fun x => x / 2 == c / 2 then unitAdc i m (c / 2) else unitMacro i m
    | [] => unitMacro i m

/-- The outcome of one macro's assay and retry: 0 passed, 1 failed and passed the retry, 2 failed twice; with the columns that failed, which charge an
ADC or the macro (R356, R357). -/
def State.localResult (s : State) (i : Nat) (r : Nat × Nat × List Nat) : State :=
  let m := (s.stope i).phys r.1
  let us := if r.2.2.isEmpty then [unitMacro i m] else chargedUnits i (r.2.2.map fun c => 256 * m + c % 256)
  let col := r.2.2.headD 0
  let judge (s : State) (again : Bool) : State :=
    (s.report causeAssayFail (us.headD 0) col epWinder none).each us fun s u => s.countEvent u causeAssayFail col again
  let s := s.charge enCheck s.slotCharge
  match r.2.1 with
  | 0 => s.inc64 assayPassCountLo 1
  | 1 => judge ((s.inc assayFailCount 1).inc assayRetryPassCount 1) false
  | _ => judge (s.inc assayFailCount 2) true

/-- A VALID bank of a macro that has failed its assays for good is SUSPECT (R112). -/
def State.suspectBank (s : State) (i m : Nat) (bank : Bool) : State :=
  if s.macroDead i m && (s.stope i).bankState m bank == .valid then s.updStope i fun t => t.setBank m bank .suspect else s

/-- LOCALISE (R336 to R338, R346): the seam's macros have been assayed. Two or more permanent ones lose the slice; one degrades the seam;
with none the launch re-runs once more. The held launches are released. -/
def execLocalise (i k : Nat) (results : List (Nat × Nat × List Nat)) (s : State) : Host.Outcome State Fault Refusal :=
  .next (
    if ((s.stope i).seam k).mode ≠ .localising then s
    else
      let ms := (s.stope i).converting k
      let rs := results.filter fun r => ms.contains r.1
      let was := s
      let s := s.each rs fun s r => s.localResult i r
      let dead := (rs.map (·.1)).filter fun m => s.macroDead i ((s.stope i).phys m) && !(was.macroDead i ((was.stope i).phys m))
      let s := s.updStope i fun t => t.updSeam k fun g => { g with mode := .checked, holdLaunches := false, finalRerun := dead.isEmpty }
      let s := s.each dead fun s m => s.suspectBank i ((s.stope i).phys m) (s.stope i).bank
      match dead with
      | [] => s
      | [m] => (s.updStope i fun t => t.updSeam k fun g => { g with failed := none }).macroLost i ((s.stope i).phys m)
      | _ => s.sliceLost ((s.stopeRegion i).getD 0) (unitSeam i k))

/-- SEAM_SUSPECT_TIMEOUT (R339): 10 s without a mismatch. -/
def execSeamSuspectTimeout (i k : Nat) (s : State) : Host.Outcome State Fault Refusal :=
  .next (
    let g := (s.stope i).seam k
    if g.mode = .suspect ∧ g.lastMismatch + 10000000000 ≤ s.now then s.updStope i fun t => t.updSeam k fun g => { g with mode := .checked }
    else s)

/-- STANDBY_REPORT (R369): a standby's device ID takes the place of the lost shard's, and the hold is released. -/
def execStandbyReport (dev lost : Nat) (s : State) : Host.Outcome State Fault Refusal :=
  .next (
    if s.isIngress ∧ s.wnd.sliceHold.contains lost then
      let sub (d : Nat) : Nat := if d = lost then dev else d
      let j := s.wnd.job
      { s with wnd := { s.wnd with
          sliceHold := s.wnd.sliceHold.filter fun d => d != lost,
          job := { j with ingressDev := sub j.ingressDev, samplerDev := sub j.samplerDev, devices := j.devices.map sub } } }
    else s)

/-! ## The CHECK sub-page (R353, R375) -/

/-- A write of CHECK_CTRL: CLEAR ends SUSPECT on the named seams; a change from LEARN to CHECK sets the bounds. -/
def State.checkCtrlWrite (s : State) (f i : Nat) (v : Word) : State :=
  if !(s.mayWrite f (checkCtrl i)) then s
  else
    let old := s.canaryMode i
    let s := s.storeReg f (checkCtrl i) v
    let s := s.updStope i fun t => (maskBits 4 (fld v 9 6)).foldl (fun t k => t.updSeam k fun g =>
      if g.mode = .suspect then { g with mode := .checked } else g) t
    if old = 1 ∧ s.canaryMode i = 2 then s.setBounds i else s

/-- CHECK_CLEAR (R339, R375). -/
def execCheckClear (f i : Nat) (v : Word) (s : State) : Host.Outcome State Fault Refusal := .next (s.checkCtrlWrite f i v)

/-- CANARY_MODE_WRITE (R353). -/
def execCanaryModeWrite (f i : Nat) (v : Word) (s : State) : Host.Outcome State Fault Refusal := .next (s.checkCtrlWrite f i v)

/-! ## Takeovers (R347 to R350) -/

/-- Streams with work on a core: queued, running, or issued there. -/
def State.streamsAt (s : State) (c : Nat) : List Nat :=
  let t := s.core c
  ((t.queue.filterMap (·.stream)) ++ ((t.run.toList ++ t.finishing).filterMap fun r => r.step.stream)).dedup

/-- A core that a takeover leaves: no step, window or descriptor of its own, its steps run by its host. -/
def Core.taken (t : Core) (host : Nat) : Core :=
  { Core.reset with nextStep := t.nextStep, permanent := true, host := some host }

/-- What a core's host must load: its part of the PROGRAMS section (R348). -/
def State.loadPrograms (s : State) (c : Nat) : State :=
  s.each (s.wnd.programs.filter fun p => p.1 == c) fun s p =>
    s.wrMem ((if c < 256 then s.spFor c else coreMemBase (c - 256)) + p.2.1) p.2.2

/-- A takeover: fences in ISSUE, CONVERT and INJECT, the retry of every stream with work there, the load, the change of host, and the
fences' end; an ingress module recomputes its bounds (R348, R349). The load is reserved work (R444). -/
def State.takeover (s : State) (c host cause : Nat) : State :=
  let s := s.fenceFor (coreBase c) 2 11
  let s := s.each (s.streamsAt c) State.retryStream
  let s := (s.updCore c fun t => t.taken host).loadPrograms c
  let s := (s.unfence (coreBase c) 2).report cause (unitCore c) host epHeadframe none
  if s.isIngress then s.recompute else s

/-- BUDDY_TAKEOVER (R347 to R349): a permanent shell core's buddy takes over; a pair already reduced to one core loses its slice. -/
def execBuddyTakeover (i : Nat) (s : State) : Host.Outcome State Fault Refusal :=
  .next (
    if 256 ≤ i ∨ !(s.isPermanent (unitCore i)) ∨ (s.core i).permanent then s
    else
      let b := if i % 2 = 0 then i + 1 else i - 1
      if (s.core b).permanent ∨ s.isPermanent (unitCore b) then
        (s.updCore i fun t => { t with permanent := true }).sliceLost ((s.stopeRegion i).getD 0) (unitCore i)
      else s.takeover i b causeBuddyTakeover)

/-- MERGE_TAKEOVER (R350): a permanent merge core's partner takes over where both belong to one region; else the slice is lost. -/
def execMergeTakeover (m : Nat) (s : State) : Host.Outcome State Fault Refusal :=
  .next (
    let c := 256 + m
    let p := 256 + (if m % 2 = 0 then m + 1 else m - 1)
    if 16 ≤ m ∨ !(s.isPermanent (unitCore c)) ∨ (s.core c).permanent then s
    else
      let lost := (s.updCore c fun t => { t with permanent := true }).sliceLost ((s.coreRegion c).getD 0) (unitCore c)
      if (s.core p).permanent ∨ s.isPermanent (unitCore p) ∨ s.coreRegion c = none ∨ s.coreRegion c ≠ s.coreRegion p then lost
      else s.takeover c p causeMergeTakeover)

/-! ## Assays (R355 to R360, R376) -/

/-- The stope and the macros that an assay's unit names: a macro, an ADC's macro, or a seam's macros (R361). -/
def unitStope (unit : Nat) : Nat := if unitType unit = 9 ∨ unitType unit = 3 then bitsOf unit 9 0 else bitsOf unit 18 9
def unitMacros (unit : Nat) : List Nat :=
  if unitType unit = 9 then commitMacros (bitsOf unit 11 10) else [bitsOf unit 8 0]
def unitCoreNo (unit : Nat) : Nat := if unitType unit = 4 then 256 + bitsOf unit 3 0 else bitsOf unit 9 0

/-- The key of an assay's last end. -/
def assayKey (kind unit : Nat) (bank : Bool) : Nat := kind + 8 * (if bank then 1 else 0) + 16 * unit

/-- The cadence of a kind in ns (R339, R355); none where it has no cadence. -/
def State.cadence (s : State) (kind unit : Nat) : Option Nat :=
  match kind with
  | 0 => some (fld (s.rd assayPeriod) 10 0 * 60000000000)
  | 1 => if unitType unit = 9 then some (fld (s.rd assayDefer) 15 0 * 1000000) else some (fld (s.rd assayPeriod) 10 0 * 60000000000)
  | 2 => some 86400000000000
  | 3 => some (fld (s.rd assayXcheckPeriod) 16 0 * 1000000000)
  | _ => none

/-- Whether a scheduled assay of a kind exists for a unit and bank (R355): REF of any macro, LIVE and DRIFT of a VALID bank, LIVE of a
SUSPECT seam, XCHECK of a core that is not permanent. -/
def State.assayable (s : State) (kind unit : Nat) (bank : Bool) : Bool :=
  let i := unitStope unit
  let m := bitsOf unit 8 0
  match kind, unitType unit with
  | 0, 1 => decide (i < 256 ∧ m < 74) && (s.stopeRegion i).isSome
  | 1, 1 | 2, 1 => decide (i < 256 ∧ m < 74) && (s.stopeRegion i).isSome && (s.stope i).bankState m bank == .valid
  | 1, 9 => decide (i < 256) && ((s.stope i).seam (bitsOf unit 11 10)).mode == .suspect
  | 3, 3 => decide (i < 256) && (s.stopeRegion i).isSome && !(s.core i).permanent
  | 3, 4 => (s.coreRegion (unitCoreNo unit)).isSome && !(s.core (unitCoreNo unit)).permanent
  | _, _ => false

/-- ASSAY_DUE (R339, R355, R376): an assay or cross-check falls due under its cadence, while its kind is enabled. -/
def execAssayDue (kind unit : Nat) (bank : Bool) (s : State) : Host.Outcome State Fault Refusal :=
  .next (
    let on := bit (s.rd assayCtrl) 0 && (kind != 3 || bit (s.rd assayCtrl) 1)
    match s.cadence kind unit with
    | some p =>
      if on ∧ s.assayable kind unit bank ∧ Table.get 0 s.tally.pastDone (assayKey kind unit bank) + p ≤ s.now then s.orderAssay kind unit bank
      else s
    | none => s)

/-- ASSAY_DEFER_EXPIRY (R359): a due assay has been deferred for ASSAY_DEFER ms: slots are inserted by force. -/
def execAssayDeferExpiry (kind unit : Nat) (bank : Bool) (s : State) : Host.Outcome State Fault Refusal :=
  .next (
    let late (d : Due) : Bool := d.kind == kind && d.unit == unit && d.bank == bank && !d.forced &&
      decide (d.since + fld (s.rd assayDefer) 15 0 * 1000000 ≤ s.now)
    if s.tally.due.any late then
      let t := { s with tally := { s.tally with due := s.tally.due.map fun d => if late d then { d with forced := true } else d } }
      t.report causeAssayForced unit kind epWinder none
    else s)

/-- The second core of a cross-check: the buddy, or the stack's other merge core (R360). -/
def pairCore (c : Nat) : Nat := if c % 2 = 0 then c + 1 else c - 1

/-- Whether a core runs nothing. -/
def State.coreIdle (s : State) (c : Nat) : Bool :=
  let t := s.core c
  t.queue.isEmpty && t.run.isNone && t.finishing.isEmpty && t.issued.isEmpty

/-- Whether a slot may be granted to a due assay (R358, R360, R444): the seam's sequencer idle, for the other bank every sequencer;
for a cross-check idle cores, unless forced; and the charge within the grant, unless reserved. -/
def State.slotFree (s : State) (d : Due) : Bool :=
  let t := s.stope (unitStope d.unit)
  (d.forced || decide (s.slotCharge ≤ s.unreserved)) &&
    (if d.kind = 3 then d.forced || (s.coreIdle (unitCoreNo d.unit) && s.coreIdle (pairCore (unitCoreNo d.unit)))
     else if d.kind = 4 then true
     else t.ref == .ready && !(s.stopeFenced (unitStope d.unit) 1) &&
       (if d.bank = t.bank then (unitMacros d.unit).all fun m => !(t.seq (seamOf (t.logical m))).busy else t.allIdle))

/-- An assay is over: it leaves the due list, its end is noted, and a requested one shows its outcome (R376): 1 PASS, 2 RETRY_PASS,
3 FAIL. -/
def State.assayEnd (s : State) (d : Due) (outcome col : Nat) : State :=
  let t := s.tally
  { s with tally := { t with
      due := t.due.filter fun x => !(x.kind == d.kind && x.unit == d.unit && x.bank == d.bank),
      pastDone := Table.set 0 t.pastDone (assayKey d.kind d.unit d.bank) s.now, current := none,
      result := if d.requested then outcome else t.result, resultPending := if d.requested then false else t.resultPending,
      resultCol := if d.requested then col % 256 else t.resultCol } }

/-- A first failure: the alarm, and the retry in the next slot, for a cross-check on the core charged (R357, R360). -/
def State.assayRetry (s : State) (d : Due) (charged : List Nat) (col : Nat) : State :=
  let cause := if d.kind = 3 then causeXcheckFail else causeAssayFail
  let unit := if d.kind = 3 then charged.headD d.unit else d.unit
  let d' : Due := { d with unit := unit, retry := true }
  let s := { s with tally := { s.tally with
    due := s.tally.due.map (fun (x : Due) => if x.kind == d.kind && x.unit == d.unit && x.bank == d.bank then d' else x),
    current := some d', resultCol := if d.requested then col % 256 else s.tally.resultCol } }
  (s.inc assayFailCount 1).report cause (charged.headD d.unit) col epWinder none

/-- One slot's judgement (R356, R357, R360): `charged` the units at fault. -/
def State.assayJudge (s : State) (d : Due) (charged : List Nat) (col : Nat) : State :=
  let cause := if d.kind = 3 then causeXcheckFail else causeAssayFail
  match charged, d.retry with
  | [], false => (s.inc64 assayPassCountLo 1).assayEnd d 1 0
  | [], true => ((s.inc assayRetryPassCount 1).countUnit d.unit cause 0 false).assayEnd d 2 s.tally.resultCol
  | _, false => s.assayRetry d charged col
  | us, true =>
    let us := if d.kind = 3 then [d.unit] else us
    let s := (s.inc assayFailCount 1).report cause (us.headD d.unit) col epWinder none
    let s := s.each us fun s u => s.countUnit u cause col true
    let s := if d.kind = 3 then s else s.each us fun s u => s.suspectBank (unitStope u) (bitsOf u 8 0) d.bank
    s.assayEnd d 3 col

/-- The measured value of a cell in units (R136): the row alone with one unit pulse at gain ×64, 16 conversions corrected and averaged (DEDUCED, log
entry 157). -/
def Stope.measureCell (t : Stope) (m : Nat) (bank : Bool) (row c ctr now : Nat) : Rat :=
  let one (n : Nat) : Rat :=
    (correct (convert ((t.cell m bank row c : Rat) / gainStep 6 + Config.deviation (ctr + n)) (ctr + n) now false).code (t.coefOf m c 6) : Int)
  ((List.range 16).map one).sum / 16 * gainStep 6

/-- The cells that a DRIFT assay samples on rows of a macro bank: what they measure, and the level in the vault image, if that is not 0 (R136). -/
def State.driftCells (s : State) (i m : Nat) (bank : Bool) (rows : List Nat) (sl : ImageSlice) : List (Rat × Int) :=
  let t := s.stope i
  (rows.zipIdx.flatMap fun r => (List.range 256).map fun c =>
    (t.measureCell m bank r.1 c (s.freeCtr + 4096 * r.2 + 16 * c) s.now, macLevel sl i (t.logical m) r.1 c)).filter fun x => x.2 != 0

/-- The drift of a macro bank in levels: the 95th percentile of |m/k − l| (R136). -/
def driftOf (k : Rat) (cells : List (Rat × Int)) : Rat := percentile 95 (cells.map fun x => |x.1 / k - (x.2 : Rat)|)

/-- A DRIFT assay's samples (R136, R137, R140, R146): the history grows; above 0.35 of a level the bank is due for refresh at once; a common factor
outside 0.98 to 1.02 asks for a re-plan. -/
def State.driftResult (s : State) (d : Due) (rows : List Nat) (sl : ImageSlice) : State :=
  let i := unitStope d.unit
  let m := bitsOf d.unit 8 0
  let key := 2 * m + (if d.bank then 1 else 0)
  let cells := s.driftCells i m d.bank rows sl
  let s := { s with freeCtr := s.freeCtr + 4096 * rows.length }.updStope i fun t => { t with sampled := Table.set [] t.sampled key cells }
  match s.commonFactor d.bank with
  | none => s
  | some k =>
    let drift := driftOf k cells
    let s := if cells.isEmpty then s
      else s.updStope i fun t => { t with drift := Table.set [] t.drift key (Table.get [] t.drift key ++ [(s.now, drift)]) }
    let s := if s.factorOut d.bank then s.replanCause 3 else s
    if drift ≤ 7 / 20 then s
    else
      let r := s.refreshOf (bankKey i m d.bank)
      let s := if r.means = .off then s.setRefresh (bankKey i m d.bank) { Refresh.none with means := .due, since := s.now } else s
      (s.replanCause 2).report causeDriftRefresh (unitMacro i m) (driftReg drift) epHeadframe none

/-- ASSAY_SLOT (R136, R355 to R360, R444): the winder grants a slot to a due assay, which is charged and judged. `failing` names failing
columns as `256·macro + column`, or for a cross-check the core charged; `rows` are the eight rows that a DRIFT assay samples. A slot whose
stope's buffer is OFF warms it first, save under FORCE_OFF (R108). -/
def execAssaySlot (kind unit : Nat) (bank : Bool) (failing rows : List Nat) (s : State) : Host.Outcome State Fault Refusal :=
  .next (
    match s.tally.due.find? fun d => d.kind == kind && d.unit == unit && d.bank == bank with
    | none => s
    | some d =>
      let i := unitStope unit
      if kind < 3 ∧ (s.stope i).ref = .off ∧ s.refMode i ≠ 2 ∧ (d.forced ∨ warmCost ≤ s.unreserved) then s.refEnable i
      else if !(s.slotFree d) then s
      else
        let s := s.charge enCheck s.slotCharge
        let s := if d.forced then s.inc assayForcedCount 1 else s
        let own := failing.filter fun x => (unitMacros unit).contains (x / 256)
        match kind with
        | 2 =>
          let s := s.inc64 assayPassCountLo 1
          let s := match s.bankSlice d.bank with
            | some sl => s.driftResult d (rows.take 8) sl
            | none => s
          s.assayEnd d 1 0
        | 3 => s.assayJudge d (failing.map unitCore) 0
        | 4 =>
          if failing.isEmpty then (s.inc64 assayPassCountLo 1).assayEnd d 1 0
          else ((s.inc assayFailCount 1).countUnit unit causePcFail 0 false).assayEnd d 3 0
        | _ => s.assayJudge d (chargedUnits i own) (own.headD 0))

/-- Whether a unit's type fits a kind (R376). -/
def unitFits (kind unit : Nat) : Bool :=
  if kind = 3 then unitType unit == 3 || unitType unit == 4 else unitType unit == 1 || unitType unit == 2

/-- The endpoint of a unit, for its region. -/
def unitEp (unit : Nat) : Nat := if unitType unit = 4 then 0x400 + bitsOf unit 3 0 else unitStope unit

/-- A write of ASSAY_CMD (R376): GO orders an assay of KIND on ASSAY_UNIT, in the bank active there, or is refused in LAST_FAULT. -/
def State.assayCmdWrite (s : State) (f : Nat) (v : Word) : State :=
  if !(s.mayWrite f assayCmd) then s
  else
    let s := s.storeReg f assayCmd v
    let kind := fld v 1 0
    let unit := (s.rd assayUnit).toNat
    if !(bit v 2) then s
    else if !(unitFits kind unit) then s.refuse assayLastFault rAbiMismatch
    else if !(s.ownsEp f (unitEp unit)) then s.refuse assayLastFault rRegionViolation
    else
      let bank := kind != 3 && (s.stope (unitStope unit)).bank
      let s := s.orderAssay kind unit bank
      { s with tally := { s.tally with
          due := s.tally.due.map (fun (d : Due) => if d.kind == kind && d.unit == unit && d.bank == bank then { d with requested := true } else d),
          result := 0, resultPending := true, resultCol := 0 } }

/-- ASSAY_GO (R376). -/
def execAssayGo (f : Nat) (v : Word) (s : State) : Host.Outcome State Fault Refusal := .next (s.assayCmdWrite f (setFld v 2 2 1))

/-! ## The tally's stores (R364 to R366, R377) -/

/-- What a copy holds after a write of some units' changes: the present entries, save that a unit whose change still waits keeps what the
copy held. -/
def State.copyAfter (s : State) (old : List TallyEntry) (waiting : List Nat) : List TallyEntry :=
  (s.tally.entries.filterMap fun e => if waiting.contains e.unit then old.find? fun x => x.unit == e.unit else some e) ++
    old.filter fun x => waiting.contains x.unit && !(s.tally.entries.any fun e => e.unit == x.unit)

/-- Pending changes of some units go into copy 0 and then copy 1, under the next SEQ (R365). -/
def State.writeTally (s : State) (units : List Nat) : State :=
  let t := s.tally
  let waiting := t.dirty.filter fun u => !(units.contains u)
  let q := max t.copy0.seq t.copy1.seq + 1
  { s with tally := { t with
      dirty := waiting, lastWrite := units.foldl (fun l u => Table.set 0 l u (s.sec + 1)) t.lastWrite,
      copy0 := tallyCopy q t.copy0.ok (s.copyAfter t.copy0.entries waiting),
      copy1 := tallyCopy q t.copy1.ok (s.copyAfter t.copy1.entries waiting) } }

/-- TALLY_WRITE (R365): the changes of every unit not yet written in this second. -/
def execTallyWrite (s : State) : Host.Outcome State Fault Refusal :=
  .next (
    let units := s.tally.dirty.filter fun u => Table.get 0 s.tally.lastWrite u != s.sec + 1
    if units.isEmpty then s else s.writeTally units)

/-- A write of TALLY_CTRL (R366, R377): CLEAR_TRANSIENT frees every TRANSIENT entry, FLUSH writes what is pending. -/
def State.tallyCtrlWrite (s : State) (f : Nat) (v : Word) : State :=
  if !(s.mayWrite f tallyCtrl) then s
  else
    let s := s.storeReg f tallyCtrl v
    let s : State := if bit v 0 then
        let gone := (s.tally.entries.filter fun e => e.state == 1).map (·.unit)
        { s with tally := { s.tally with entries := s.tally.entries.filter fun e => e.state != 1,
                                         dirty := s.tally.dirty ++ gone.filter fun u => !(s.tally.dirty.contains u),
                                         full := s.tally.full &&
                                           decide (tallyCap ≤ (s.tally.entries.filter fun e => e.state != 1).length) } }
      else s
    if bit v 1 && !s.tally.dirty.isEmpty then s.writeTally s.tally.dirty else s

/-- CLEAR_TRANSIENT (R377): the other fields keep their values. -/
def execClearTransient (f : Nat) (s : State) : Host.Outcome State Fault Refusal :=
  .next (s.tallyCtrlWrite f (setFld (s.rd tallyCtrl) 1 0 1))

/-- FLUSH (R377). -/
def execFlush (f : Nat) (s : State) : Host.Outcome State Fault Refusal := .next (s.tallyCtrlWrite f (setFld (s.rd tallyCtrl) 1 0 2))

/-- The place of a unit's entry in the store. -/
def entryIndex (unit : Nat) (l : List TallyEntry) : Option Nat := l.findIdx? fun e => e.unit == unit

/-- A write of TALLY_FIND (R377). -/
def State.tallyFindWrite (s : State) (f : Nat) (v : Word) : State :=
  if !(s.mayWrite f tallyFind) then s
  else match entryIndex v.toNat s.tally.entries with
    | some n => { (s.wr tallySel (BitVec.ofNat 32 (n % 0x10000))) with tally := { s.tally with notFound := false } }
    | none => { s with tally := { s.tally with notFound := true } }

/-- TALLY_FIND (R377). -/
def execTallyFind (f : Nat) (v : Word) (s : State) : Host.Outcome State Fault Refusal := .next (s.tallyFindWrite f v)

/-! ## Coalesced alarms (R372) -/

/-- One COALESCED record for the alarms of a source, cause and unit beyond the second's 64. -/
def State.coalesced (s : State) (x : Nat × Nat × Nat × Nat) : State :=
  let (q, s) := s.nextSeq x.1
  let r : Report := { cls := 0, coalesced := true, cause := x.2.1, unit := x.2.2.1, time := s.now, source := x.1, seq := q, detail := 0,
                      count := x.2.2.2 }
  (((s.inc tallyAlarmCoalescedCount 1).logRecord r).ringAlarm r).hostReport r none

/-- ALARM_SECOND (R372): at the end of a second, its COALESCED records go out and the counts begin anew. -/
def execAlarmSecond (s : State) : Host.Outcome State Fault Refusal :=
  .next (
    if s.tally.second < s.sec then
      let t := s.each s.tally.excess State.coalesced
      { t with tally := { t.tally with second := s.sec, sent := [], excess := [] } }
    else s)

end Sys2Proof.Machine
end

