-- ==== Sys2Proof/Machine/Thermal.lean ====
section
/-! DEFINITION. The thermal model, its sensors and thresholds (R430 to R436), throttle episodes (R437 to R440), VCORE (R428, R429), the
power limit, the energy budget and the guaranteed power (R421, R441 to R445). Temperatures are signed Q8.8 °C, powers W, energies µJ. -/

namespace Sys2Proof.Machine

/-! ## The limit (R421, R441) -/

/-- L_eff: PWR_LIMIT, or 25 W below 800 W for each failed phase among 0 to 23 (R421). -/
def State.leff (s : State) : Nat :=
  min (fld (s.rd pwrLimit) 15 0) (800 - 25 * (s.hf.failedPhases.filter fun p => decide (p < 24)).length)

/-- P_cap: the lower of the cap of an enforced episode and of a shed, if any (R316, R439, R440). -/
def State.pcap (s : State) : Option Nat :=
  let e := s.hf.episode.bind fun e => if e.enforced then some e.target else none
  match e, s.hf.capShed with
  | some a, some b => some (min a b)
  | some a, none => some a
  | none, b => b

/-- A power under P_cap. -/
def State.capped (s : State) (w : Nat) : Nat := match s.pcap with
  | some c => min w c
  | none => w

/-! ## Sensors (R432 to R434) -/

/-- The node of a sensor: stacks and vault dies as R432 gives, the others as the factory records. -/
def sensorNode (n : Nat) : Nat := if 38 ≤ n then 264 + (n - 38) else if 30 ≤ n then 256 + (n - 30) else Config.sensorNode n

/-- The healthy neighbours of a sensor. -/
def State.healthyNear (s : State) (n : Nat) : List Nat := (Config.sensorNear n).filter fun m => decide (m < 40) && !(s.sensor m).broken

/-- Whether the first condition of R433 holds at a sensor now, on the residuals given. -/
def State.voted (s : State) (res : Nat → Int) (n : Nat) : Bool :=
  let near := s.healthyNear n
  let r := res n
  !near.isEmpty && decide (1024 < r.natAbs) && (near.all fun m => decide (1024 < (r - res m).natAbs)) &&
    near.all fun a => near.all fun b => decide ((res a - res b).natAbs ≤ 1024)

/-- The mean of a list of temperatures, rounded towards −∞; 0 of none. -/
def meanInt (l : List Int) : Int := if l.isEmpty then 0 else l.sum / (l.length : Int)

/-- The median of a list: the lower middle value (DESIGN CHOICE, log entry 40). -/
def medianInt (l : List Int) : Int := (l.mergeSort fun a b => decide (a ≤ b)).getD ((l.length - 1) / 2) 0

/-- A sensor becomes broken: SENSOR_BROKEN, and an event against it (R362, R433). -/
def State.breakSensor (s : State) (n : Nat) : State :=
  let s := s.setSensor n { s.sensor n with broken := true, goodSince := s.now }
  (s.report causeSensorBroken (unitSensor n) n epHeadframe none).countUnit (unitSensor n) causeSensorBroken n false

/-- One sensor's update: its reading, residual and vote. -/
def State.senseOne (s : State) (res : Nat → Int) (n : Nat) (reading : Int) : State :=
  let x := s.sensor n
  let vote := s.voted res n
  let out := decide (reading < -20 * 256 ∨ 150 * 256 < reading)
  let bad := if vote then some (x.badSince.getD s.now) else none
  let good := if vote || out then s.now else x.goodSince
  let s := s.setSensor n { x with reading := reading, residual := res n, badSince := bad, goodSince := good }
  let long := match bad with
    | some t => decide (t + 50000000 < s.now)
    | none => false
  if !x.broken && (long || out) then s.breakSensor n else s

/-- A re-fit (R434): the factor, clamped to 0.70 to 2.00, with MODEL_REFIT; at the clamp also THERMAL_WARN. -/
def State.refitNow (s : State) : State :=
  let (n, s) := s.draw
  let f := Config.refitFactor n
  let g := max 11469 (min 32768 f)
  let s := { s with hf := { s.hf with refitFactor := g, refitClamp := f != g, medianSince := none } }
  let s := (s.inc thRefitCount 1).report causeModelRefit 0 g epHeadframe none
  if f != g then s.report causeThermalWarn 0 g epHeadframe none else s

/-- The watch on the median residual (R434). -/
def State.watchMedian (s : State) : State :=
  let m := medianInt (((List.range 40).filter fun n => !(s.sensor n).broken).map fun n => (s.sensor n).residual)
  if m.natAbs ≤ 1536 then { s with hf := { s.hf with medianSince := none } }
  else match s.hf.medianSince with
    | none => { s with hf := { s.hf with medianSince := some s.now } }
    | some t => if t + 1000000000 ≤ s.now then s.refitNow else s

/-! ## Nodes (R430, R431, R435) -/

/-- The thresholds of a node: T_WARN, T_THROTTLE, T_TRIP in Q8.8 (R435). -/
def threshold (node which : Nat) : Int :=
  let lode := decide (node < 256 ∨ 266 ≤ node)
  256 * (match which with
    | 0 => if lode then 95 else 85
    | 1 => if lode then 100 else 90
    | _ => if lode then 115 else 105)

/-- A node's temperature: the model value, raised to a healthy sensor's reading, or by its neighbours' mean residual under a broken one
(R431, R433). -/
def State.nodeTemp (s : State) (node : Nat) (model : Int) : Int :=
  ((List.range 40).filter fun n => sensorNode n == node).foldl (fun t n =>
    if (s.sensor n).broken then max t (model + meanInt ((s.healthyNear n).map fun m => (s.sensor m).residual))
    else max t (s.sensor n).reading) model

/-- The runs of R435 at a node: since when the temperature is at or above each threshold, or below it less 3 °C. -/
def TNode.update (x : TNode) (node : Nat) (temp : Int) (power now : Nat) : TNode :=
  let run (old : Option Nat) (holds : Bool) : Option Nat := if holds then some (old.getD now) else none
  { x with temp := temp, power := power,
           above := x.above.zipIdx.map fun p => run p.1 (decide (threshold node p.2 ≤ temp)),
           below := x.below.zipIdx.map fun p => run p.1 (decide (temp < threshold node p.2 - 768)) }

/-- The temperature trigger of R135: 15 °C from CAL_TEMP, at least 60 s after the last calibration. -/
def State.tempDue (s : State) (i : Nat) : State :=
  let at_ := (BitVec.ofNat 16 (fld (s.rd (calTemp i)) 15 0)).toInt
  if 3840 ≤ ((s.node i).temp - at_).natAbs ∧ (s.calc i).lastDone + 60000000000 ≤ s.now then s.calDue i else s

/-- How long a held target has stayed within 13 to 82 °C (R315). -/
def State.watchWindow (s : State) : State :=
  if s.swap.phase = .tempHeld then
    let ok := s.swapNodes.all fun n => s.nodeWithin n 13 82
    { s with swap := { s.swap with inWindow := if ok then some (s.swap.inWindow.getD s.now) else none } }
  else s

/-- The coolant inlet (R435): above 40 °C raises THERMAL_WARN with node 0xFFFF. -/
def State.setInlet (s : State) (inlet : Int) : State :=
  let was := decide (40 * 256 < s.hf.inlet)
  let s := { s with hf := { s.hf with inlet := inlet } }
  if decide (40 * 256 < inlet) && !was then s.report causeThermalWarn 0 0xFFFF epHeadframe none else s

/-- THERMAL_UPDATE (R135, R315, R431 to R435): every 100 µs. `model` and `power` (mW) by node, `sensors` the readings, and the inlet. -/
def execThermalUpdate (model power sensors : List Int) (inlet : Int) (s : State) : Host.Outcome State Fault Refusal :=
  .next (
    if !(s.perDue perThermal) then s
    else
    let s := (s.perMark perThermal.1).setInlet inlet
    let res (n : Nat) : Int := sensors.getD n 0 - model.getD (sensorNode n) 0
    let s := s.each (List.range 40) fun s n => s.senseOne res n (sensors.getD n 0)
    let s := s.watchMedian
    let s := s.each (List.range 280) fun s n =>
      s.setNode n ((s.node n).update n (s.nodeTemp n (model.getD n 0)) (power.getD n 0).toNat s.now)
    (s.each s.imageStopes State.tempDue).watchWindow)

/-- SENSOR_REJOIN (R433): 60 s without the first condition, unless the tally holds the sensor permanent. -/
def execSensorRejoin (n : Nat) (s : State) : Host.Outcome State Fault Refusal :=
  .next (
    let x := s.sensor n
    if x.broken ∧ !(s.isPermanent (unitSensor n)) ∧ x.goodSince + 60000000000 ≤ s.now then s.setSensor n { x with broken := false, badSince := none }
    else s)

/-- A write of TH_CTRL (R447). -/
def State.thCtrlWrite (s : State) (f : Nat) (v : Word) : State :=
  if s.mayWrite f thCtrl then
    let s := s.storeReg f thCtrl v
    if bit v 16 then s.refitNow else s
  else s

/-- REFIT (R434, R447): GRACE keeps its value. -/
def execRefit (f : Nat) (s : State) : Host.Outcome State Fault Refusal := .next (s.thCtrlWrite f (setFld (s.rd thCtrl) 16 16 1))

/-! ## Throttle episodes (R437 to R440) -/

/-- A THROTTLE_REQUEST record (R438): PHASE 0 REQUEST, 1 ENFORCED, 2 ENDED. -/
def State.throttleRecord (s : State) (power : Bool) (phase reduction target node : Nat) : State :=
  s.moduleEvent evThrottle ((if power then 1 else 0) + phase * 16) 0xFFFFF
    (BitVec.ofNat 64 (min 0xFFFF reduction + fld (s.rd thCtrl) 10 0 * 0x10000 + min 0xFFFF target * 0x100000000 + node * 0x1000000000000))

/-- The cause and node of an episode's records: its power cause first (DESIGN CHOICE of the order, log entry 41). -/
def Episode.node (e : Episode) : Nat := if e.power then 0xFFFF else e.nodes.headD 0xFFFF

/-- A cause opens an episode, or joins the one that is open: the lower target, and a new REQUEST (R437, R440). -/
def State.throttle (s : State) (node : Option Nat) (reduction : Nat) : State :=
  let target := s.hf.moduleW - reduction
  let power := node.isNone
  let s := match s.hf.episode with
    | some e =>
      let e' : Episode := { e with nodes := e.nodes ++ node.toList, power := e.power || power, target := min e.target target,
                                   reduction := reduction, belowSince := if power then none else e.belowSince }
      { s with hf := { s.hf with episode := some e' } }
    | none =>
      let e : Episode := { nodes := node.toList, power := power, target := target, reduction := reduction, start := s.now,
                           graceOver := false, enforced := false, lastMark := s.now, belowSince := none }
      ({ s with hf := { s.hf with episode := some e, releasing := false } }).inc thThrottleCount 1
  s.throttleRecord power 0 reduction ((s.hf.episode.map (·.target)).getD target) (node.getD 0xFFFF)

/-- A threshold asserts (R435). -/
def State.assertAt (s : State) (node which : Nat) : State :=
  s.setNode node { s.node node with asserted := setAt (s.node node).asserted which fun _ => true }

/-- THRESHOLD_ASSERT (R435, R437): 10 ms at or above a threshold. T_WARN raises THERMAL_WARN; T_THROTTLE opens a throttle episode, with the
reduction in W that the model predicts. -/
def execThresholdAssert (node which : Nat) (reduction : Nat) (s : State) : Host.Outcome State Fault Refusal :=
  .next (
    let x := s.node node
    match x.above.getD which none with
    | some t =>
      if x.asserted.getD which false ∨ s.now < t + 10000000 then s
      else
        let s := s.assertAt node which
        match which with
        | 0 => (s.inc thWarnCount 1).report causeThermalWarn 0 node epHeadframe none
        | 1 => s.throttle (some node) reduction
        | _ => s
    | none => s)

/-- THRESHOLD_DEASSERT (R435, R440): 10 ms below a threshold less 3 °C; a thermal cause of the episode ends. -/
def execThresholdDeassert (node which : Nat) (s : State) : Host.Outcome State Fault Refusal :=
  .next (
    let x := s.node node
    match x.below.getD which none with
    | some t =>
      if !(x.asserted.getD which false) ∨ s.now < t + 10000000 then s
      else
        let s := s.setNode node { x with asserted := setAt x.asserted which fun _ => false }
        if which = 1 then
          { s with hf := { s.hf with episode := s.hf.episode.map fun e => { e with nodes := e.nodes.filter fun n => n != node } } }
        else s
    | none => s)

/-- POWER_OVER_LIMIT (R437): MODULE_W above L_eff for 10 ms. REDUCTION is rounded up so that TARGET is a whole watt, rounded down. -/
def execPowerOverLimit (s : State) : Host.Outcome State Fault Refusal :=
  .next (
    match s.hf.overSince with
    | some t =>
      if s.now < t + 10000000 ∨ (s.hf.episode.map (·.power)).getD false then s
      else s.throttle none (s.hf.moduleW - 97 * s.leff / 100)
    | none => s)

/-- An episode becomes ENFORCED (R439). -/
def State.enforce (s : State) (e : Episode) : State :=
  let s := { s with hf := { s.hf with episode := some { e with graceOver := true, enforced := true, lastMark := s.now } } }
  let s := s.throttleRecord e.power 1 e.reduction e.target e.node
  s.report causeThrottleEnforced 0 e.target epHeadframe none

/-- GRACE_EXPIRY (R439): at the end of GRACE ms an episode above its TARGET becomes ENFORCED. -/
def execGraceExpiry (s : State) : Host.Outcome State Fault Refusal :=
  .next (
    match s.hf.episode with
    | some e =>
      if e.graceOver ∨ s.now < e.start + fld (s.rd thCtrl) 10 0 * 1000000 then s
      else if e.target < s.hf.moduleW then s.enforce e
      else { s with hf := { s.hf with episode := some { e with graceOver := true } } }
    | none => s)

/-- The lowest priority level that still has streams not held; level 0 is never held (R439). -/
def State.nextLevel (s : State) : Option Nat :=
  (List.range 7).reverse.map (· + 1) |>.find? fun l => !(s.wnd.heldLevels.contains l) &&
    s.wnd.streams.any fun t => t.2.state != .free && (s.cls t.2.cls).prio == l

/-- THROTTLE_MARK (R439): each 10 ms of an enforced episode above its TARGET, one more level is held. -/
def execThrottleMark (s : State) : Host.Outcome State Fault Refusal :=
  .next (
    match s.hf.episode with
    | some e =>
      if !e.enforced ∨ s.now < e.lastMark + 10000000 then s
      else
        let s := { s with hf := { s.hf with episode := some { e with lastMark := s.now } } }
        if e.target < s.hf.moduleW then
          match s.nextLevel with
          | some l => { s with wnd := { s.wnd with heldLevels := s.wnd.heldLevels ++ [l] } }
          | none => s
        else s
    | none => s)

/-- THROTTLE_END (R440): with every cause ended, P_cap lifts, a record with PHASE ENDED is written, and the release of levels begins. A
power cause ends after 10 ms below 0.97 × L_eff. -/
def execThrottleEnd (s : State) : Host.Outcome State Fault Refusal :=
  .next (
    match s.hf.episode with
    | some e =>
      let past := match e.belowSince with
        | some t => decide (t + 10000000 ≤ s.now)
        | none => false
      if !e.nodes.isEmpty ∨ (e.power ∧ !past) then s
      else
        let s := s.throttleRecord e.power 2 e.reduction e.target e.node
        { s with hf := { s.hf with episode := none, releasing := true } }
    | none => s)

/-- THROTTLE_RELEASE_STEP (R440): the winder releases the highest of the held levels; one each 10 ms. -/
def execThrottleReleaseStep (s : State) : Host.Outcome State Fault Refusal :=
  .next (
    if !s.hf.releasing ∨ !(s.perDue perRelease) then s
    else match s.wnd.heldLevels with
      | [] => { s with hf := { s.hf with releasing := false } }
      | l :: ls =>
        let top := ls.foldl min l
        let rest := (l :: ls).filter fun x => x != top
        { (s.perMark perRelease.1) with wnd := { s.wnd with heldLevels := rest }, hf := { (s.perMark perRelease.1).hf with releasing := !rest.isEmpty } })

/-! ## VCORE (R428, R429) -/

/-- The floor and the ceiling of VCORE in mV; the floor wins where the plan's lies above VCORE_CEIL (DESIGN CHOICE, log entry 42). -/
def State.vceil (s : State) : Nat := fld (s.rd pwrVcoreCtrl) 21 12
def State.vclamp (s : State) (v : Nat) : Nat := max s.hf.plan.vcoreFloor (min s.vceil v)

/-- The policy's target (R429); under PERF the headframe steps it. -/
def State.vtarget (s : State) : Nat :=
  s.vclamp (match fld (s.rd pwrVcoreCtrl) 1 0 with
    | 0 => if s.hf.vcoreTarget = 0 then s.vceil else s.hf.vcoreTarget
    | 1 => s.hf.plan.vcoreFloor
    | _ => fld (s.rd pwrVcoreCtrl) 11 2)

/-- VCORE_STEP (R428): every 10 µs VCORE moves by at most 5 mV towards its target, on a 5 mV grid. -/
def execVcoreStep (s : State) : Host.Outcome State Fault Refusal :=
  .next (
    let v := s.hf.vcore
    let t := cdiv s.vtarget 5 * 5
    if v = 0 ∨ !(s.perDue perVcore) then s
    else
      let s := s.perMark perVcore.1
      { s with hf := { s.hf with vcore := if v < t then min t (v + 5) else max t (v - 5) } })

/-- VCORE_POLICY_TICK (R429): under PERF, every 10 ms, 5 mV down while more than 10 % of the last 100 windows held issue for quanta, 5 mV
up while fewer than 1 % did. -/
def execVcorePolicyTick (s : State) : Host.Outcome State Fault Refusal :=
  .next (
    if fld (s.rd pwrVcoreCtrl) 1 0 ≠ 0 ∨ !(s.perDue perPolicy) then s
    else
      let s := s.perMark perPolicy.1
      let n := (s.hf.heldWindows.filter id).length
      let v := s.vtarget
      let w := if 10 < n then s.vclamp (v - 5) else if n < 1 then s.vclamp (v + 5) else v
      { s with hf := { s.hf with vcoreTarget := w } })

/-! ## The energy budget (R441 to R445) -/

/-- CORR of a class: measured over charged energy of the last 100 windows, unsigned Q2.14, clamped to 0.5 to 2.0; a class without charges
keeps its value (DESIGN CHOICE, log entry 43). -/
def corrFrom (history : List (List Rat × List Nat)) (old k : Nat) : Nat :=
  let c := (history.map fun h => h.1.getD k 0).sum
  let m := (history.map fun h => h.2.getD k 0).sum
  if c ≤ 0 then old else max 0x2000 (min 0x8000 ((((m : Nat) : Rat) / c * 16384).floor.toNat))

/-- Buffers that draw their standing charge (R443). -/
def State.warmBuffers (s : State) : Nat := (s.stopes.filter fun t => t.2.ref != .off).length

/-- The power in W of the steps that the winder issued and held in the window, with the static power (R440). -/
def State.demandW (s : State) : Rat :=
  (s.hf.spent + (s.wnd.ready.map fun r => (s.stepCost r.cost).sum).sum) / 1000 + ((s.hf.staticW : Nat) : Rat)

/-- The window that ends (R441, R443, R444): its deficit, its history and CORR, and whether issue was held. -/
def State.endWindow (s : State) (measured : List Nat) : State :=
  let h := s.hf
  let deficit := min h.quantum (ratCeil (h.spent - ((h.quantum : Nat) : Rat)))
  let m := (List.range 9).map fun k => measured.getD k 0
  let history := (h.history ++ [(h.charged, m)]).drop (h.history.length + 1 - 100)
  let hf := { h with
      deficit := deficit, measured := m, history := history,
      corr := (List.range 9).map (fun k => corrFrom history (h.corr.getD k 0x4000) k),
      totCharged := (List.range 9).map (fun k => h.totCharged.getD k 0 + h.charged.getD k 0),
      totMeasured := (List.range 9).map (fun k => h.totMeasured.getD k 0 + m.getD k 0),
      heldWindows := (h.heldWindows ++ [h.heldThis]).drop (h.heldWindows.length + 1 - 100), heldThis := false,
      spent := 0, charged := List.replicate 9 0 }
  { s with hf := hf, wnd := { s.wnd with energyHold := false } }

/-- Q of R441, µJ. -/
def State.quantumFor (s : State) : Nat := (s.capped (min s.leff s.hf.pth) - s.hf.staticW) * 1000 - s.hf.deficit

/-- What the new power readings bring about: the run above L_eff, an episode that exceeds its target after GRACE, and the run of R440. -/
def State.judgePower (s : State) (demand : Rat) : State :=
  let above := decide (s.leff < s.hf.moduleW)
  let s := { s with hf := { s.hf with overSince := if above then some (s.hf.overSince.getD s.now) else none } }
  match s.hf.episode with
  | some e =>
    let below := if demand * 100 < 97 * ((s.leff : Nat) : Rat) then some (e.belowSince.getD s.now) else none
    let e := { e with belowSince := below }
    let s := { s with hf := { s.hf with episode := some e } }
    if e.graceOver && !e.enforced && decide (e.target < s.hf.moduleW) then s.enforce e else s
  | none => s

/-- ENERGY_WINDOW (R439 to R444): at a 1 ms boundary the window's accounts close, the new quantum is granted, and the standing charges
are drawn. `measured` is the energy of each class, `moduleW`, `staticW` and `pth` the powers of R441. -/
def execEnergyWindow (measured : List Nat) (moduleW staticW pth : Nat) (s : State) : Host.Outcome State Fault Refusal :=
  .next (
    if !s.windowDue then s
    else
    let demand := s.demandW
    let s := (s.perMark perWindow).endWindow measured
    let s := { s with hf := { s.hf with moduleW := moduleW, staticW := staticW, pth := pth } }
    let s := (s.inc64 pwrEnergyMjLo moduleW).judgePower demand
    let s := { s with hf := { s.hf with quantum := s.quantumFor } }
    s.charge enPrewarm (standingCost * ((s.warmBuffers : Nat) : Rat)))

/-- Pg of R445, in whole W. -/
def State.pg (s : State) : Nat :=
  let inlet : Rat := max 40 (((s.hf.inlet : Int) : Rat) / 256)
  let safe : Rat := ((Config.designPower : Nat) : Rat) * (97 - inlet) / (57 * (((s.hf.refitFactor : Nat) : Rat) / 16384))
  let cap : Rat := min ((s.capped s.leff : Nat) : Rat) safe
  let r : Rat := 1 - (fld (s.rd hfReserve) 4 0 : Nat) / 100
  min 0xFFFF (r * (cap - ((s.hf.staticW : Nat) : Rat))).floor.toNat

/-- PG_W is published, and an ingress module recomputes its classes (R273, R445). -/
def State.publishPg (s : State) : State :=
  let s := s.wr hfPgW (BitVec.ofNat 32 s.pg)
  if s.isIngress then s.recompute else s

/-- PG_RECOMPUTE (R445): every 100 ms Pg is published when it moves by more than 2 %. -/
def execPgRecompute (s : State) : Host.Outcome State Fault Refusal :=
  .next (
    if !(s.perDue perPg) then s
    else
    let s := s.perMark perPg.1
    let old := fld (s.rd hfPgW) 15 0
    if 2 * old < 100 * ((s.pg : Int) - old).natAbs then s.publishPg else s)

/-- A write of PWR_LIMIT (R448): a lower L_eff publishes Pg anew. -/
def State.pwrLimitWrite (s : State) (f : Nat) (v : Word) : State :=
  if s.mayWrite f pwrLimit then
    let t := s.storeReg f pwrLimit v
    if t.leff < s.leff then t.publishPg else t
  else s

/-- PWR_LIMIT_WRITE (R448). -/
def execPwrLimitWrite (f : Nat) (v : Word) (s : State) : Host.Outcome State Fault Refusal := .next (s.pwrLimitWrite f v)

end Sys2Proof.Machine
end

