-- ==== Sys2Proof/Machine/Power.lean ====
section
/-! DEFINITION. Power (R418 to R427, R436): requests, the sequences up and down, brownouts, phase faults and trips, and what the loss of
the main rails takes with it. Each POWER_UP_SEQUENCE or POWER_DOWN_SEQUENCE command completes one step of its sequence and begins the
next (DESIGN CHOICE, log entry 44). -/

namespace Sys2Proof.Machine

/-! ## What does not outlive the main rails (R420, R426) -/

/-- Whether a byte lies in a memory that the main rails feed: scratchpads, core memories, operand buffers, the shared pool, KV stacks. -/
def volatileAt (a : Nat) : Bool := decide (spBase 0 ≤ a ∧ a < hostBase)

/-- A stope without its rails: sequencers, queues, sums and residues are gone and the buffer is OFF; cells, scales, coefficients,
spares and counts stay (log entry 45). -/
def Stope.dark (t : Stope) : Stope :=
  { t with ref := .off, refDisable := false, latch := [], seqs := [Seq.idle, Seq.idle, Seq.idle, Seq.idle], launches := [], queue := [],
           heldPush := [], narrow := [], check := [], recon := [], runFlags := [], residue := [], acc := [], weight := [], accFlags := [],
           cal := { t.cal with phase := .idle, excl := false, slotOpen := false, forced := false, holdSince := none, heldCmd := none,
                               exclWait := none, fresh := [], sumF := [], clipped := [], taken := 0 } }

/-- A core without its rails: only what the tally knows of it stays. -/
def Core.dark (t : Core) : Core := { Core.reset with permanent := t.permanent, host := t.host, bad := t.bad }

/-- A port without its rails. -/
def Port.dark (t : Port) (now : Nat) : Port := { t.drop .down now with version := 0, lanesShort := false }

/-- A path endpoint without its rails: its written words stay. -/
def Adit.dark (a : Adit) : Adit := { Adit.reset with kind := a.kind, peer := a.peer, routeA := a.routeA, routeB := a.routeB }

/-- The networks without their rails: nothing travels, no fence is in force; the causes that the headframe holds, but for power-down,
stay with it (R47). -/
def Noc.dark (n : Noc) : Noc :=
  { Noc.reset with staged := n.staged, nets := { Nets.reset with seqs := n.nets.seqs },
                   fences := n.fences.foldl (fun m x =>
                     Table.set Fence.clear m x.1 { x.2 with classes := 0, causes := x.2.causes.filter fun c => c.1 != 3 }) [] }

/-- The allocator without the stacks: every frame is free; copies in the vault or at the storage endpoint stay (R426). -/
def Kv.dark (k : Kv) : Kv :=
  { Kv.reset with ptes := k.ptes.filter (fun p => p.2.spilled), nextHandle := k.nextHandle, stagedMaps := k.stagedMaps }

/-- The winder: only a PARKED stream outlives the KV stacks (R426). -/
def Wnd.dark (w : Wnd) : Wnd :=
  { w with streams := w.streams.filterMap (fun p =>
             if p.2.state = .parked then some (p.1, { p.2 with node := none, matched := [] }) else none),
           ready := [], energyHold := false, barrier := false, drainHold := false }

/-- A swap operation that the loss of the rails cuts short (R322; log entry 46): it ends as by ABORT, and a bank with a row programmed is
EMPTY. One that has flipped has only its copy left to check, and goes on when the rails are back. -/
def State.cutSwap (s : State) : State := if s.swap.phase = .idle ∨ s.swap.flipped then s else s.dropSwap 2 rNone

/-- The main rails are off: what needed them is gone (R420, R426). -/
def State.railsOff (s : State) : State :=
  let s := s.cutSwap
  let s := s.each (s.stopes.map (·.1)) fun s i => s.updStope i Stope.dark
  let s := s.each (s.cores.map (·.1)) fun s c => s.updCore c Core.dark
  let s := s.each (s.fab.ports.map (·.1)) fun s p => s.updPort p fun t => t.dark s.now
  let s := s.each (s.fab.adits.map (·.1)) fun s a => s.updAdit a Adit.dark
  { s with mem := s.mem.filter fun c => !(volatileAt c.1),
           noc := s.noc.dark, kv := s.kv.dark, wnd := s.wnd.dark,
           fab := { s.fab with hold := [], colls := [], stored := [], inbox := [] } }

/-! ## Entering AUX (R422, R462, R478, R481) -/

/-- RMV_STATUS, bits [2:0] STEP and [31:16] CODE (R458). -/
def State.rmvWord (s : State) : Nat := s.hf.rmvStep + s.hf.rmvCode * 0x10000

/-- REMOVE STATUS over the ring, with RMV_STATUS as its payload (R463, R478; DESIGN CHOICE of the payload, log entry 47). -/
def State.removeStatusTo (s : State) (dst : Nat) : State := s.ringSend (s.ringMsg 8 4 dst false (beBytes 4 s.rmvWord))

/-- A prepare that reaches AUX is ready for removal: the bypass closes, RMV is on, RMV_RDY_N is low and REMOVE STATUS is sent (R478 steps
5 and 6). -/
def State.rmvReady (s : State) : State :=
  if s.hf.rmvStep = 3 then
    { s with hf := { s.hf with rmvStep := 4 }, edge := { s.edge with bypass := 0, rmvRdy := true } }.removeStatusTo rackController
  else s

/-- The module enters AUX: only VAUX is up, the host link is down, SEQ starts from 0, and no monitor has published (R25, R422,
R462). A latched DOWN has been served. -/
def State.enterAux (s : State) : State :=
  let s := s.railsOff
  let s := { s with
      hf := { s.hf with pwr := .aux, step := 0, downward := false, latched := if s.hf.latched = 2 then 0 else s.hf.latched, vcore := 0,
                        vcoreTarget := 0, vcoreSince := 0, trained := 0, selfRefresh := false },
      tally := { s.tally with lost := false }, edge := { s.edge with link := 0, txSeq := 0 } }
  (s.each (List.range 272) fun s c => s.wr (corePace c) 0x4000).rmvReady

/-- A prepare for removal that a brownout or a trip overrides (R479). -/
def State.failRemoval (s : State) (code : Nat) : State :=
  if s.hf.rmvStep = 1 ∨ s.hf.rmvStep = 2 ∨ s.hf.rmvStep = 3 then
    { s with hf := { s.hf with rmvStep := 5, rmvCode := code, rmvWait := [] } }
  else s

/-- Down to AUX at once, as at a brownout (R420). -/
def State.fallToAux (s : State) (code : Nat) : State := (s.failRemoval code).enterAux

/-! ## A restart of the headframe (R453) -/

/-- The registers whose values the ferroelectric store or the vault keeps: TRIP_COUNT, BROWNOUT_COUNT, VAULT_WRITTEN, and the generations
of the banks. -/
def keptRegs : List Nat :=
  [thTripCount, pwrBrownoutCount, vaultWrittenLo, vaultWrittenHi, swapBankGenALo, swapBankGenAHi, swapBankGenBLo, swapBankGenBHi,
   pfxGenALo, pfxGenAHi, pfxGenBLo, pfxGenBHi, hfCalInt]

/-- What a stope keeps over a reset: its cells and what the store records of them. -/
def Stope.kept (t : Stope) : Stope :=
  { Stope.reset with banks := t.banks, scales := t.scales, cells := t.cells, spare72 := t.spare72, spare73 := t.spare73,
                     passes := t.passes, progTime := t.progTime, drift := t.drift, refreshDays := t.refreshDays, sampled := t.sampled,
                     seams := t.seams.map fun g => { Seam.reset with mode := g.mode, mac := g.mac, mac2 := g.mac2, forRefresh := g.forRefresh } }

/-- What the swap logic keeps over a reset: the vault, the install records and the refreshes under way. -/
def Swap.kept (w : Swap) : Swap :=
  { Swap.reset with slots := w.slots, bankA := w.bankA, bankB := w.bankB, parkUsed := w.parkUsed, refresh := w.refresh }

/-- What the headframe keeps in its store over a restart: the margin plan and what it was made from, and the re-fit factor (R145, R434). -/
def Hf.kept (h : Hf) : Hf := 
  { Hf.reset with plan := h.plan, aBehind := h.aBehind, paceHist := h.paceHist, dramWant := h.dramWant, refitFactor := h.refitFactor }

/-- The tally's copies outlive everything; pending changes and the log are lost with the headframe's own memory (R365, R372). -/
def Tally.kept (t : Tally) : Tally := { Tally.reset with copy0 := { t.copy0 with ok := false }, copy1 := { t.copy1 with ok := false } }

/-- The module after a reset of the whole, with the power state OFF: every register at its reset value but those kept (log entry 39). -/
def State.restart (s : State) : State :=
  let s := s.cutSwap
  let regs := s.regs.filter fun r => keptRegs.contains r.1
  let stopes := s.stopes.foldl (fun m x => Table.set Stope.reset m x.1 x.2.kept) []
  { State.reset with
      pending := s.pending, now := s.now, freeCtr := s.freeCtr, regs := regs, mem := s.mem.filter (fun c => !(volatileAt c.1)),
      stopes := stopes, swap := s.swap.kept, tally := s.tally.kept, hf := s.hf.kept,
      edge := { Edge.reset with straps := s.edge.straps, devId := s.edge.devId, devLoc := s.edge.devLoc, idBad := s.edge.idBad,
                                idChanged := s.edge.idChanged, prsnt := s.edge.prsnt, pwrEn := s.edge.pwrEn } }

/-- A reset of the module (R453): as a brownout, without its condition; the headframe restarts and the module enters AUX. -/
def State.moduleReset (s : State) : State :=
  if s.hf.pwr = .off then s
  else
    let t := (s.inc pwrBrownoutCount 1).restart
    { t with hf := { t.hf with pwr := .aux } }

/-! ## The busbar and the phases (R418 to R421) -/

/-- BUSBAR_LOSS (R419, R422): below 40 V the headframe completes the tally write in progress, and nothing runs. -/
def execBusbarLoss (s : State) : Host.Outcome State Fault Refusal :=
  .next (if s.hf.pwr = .off then s else (s.writeTally s.tally.dirty).restart)

/-- BROWNOUT (R420): below 46 V or above 62 V for 100 µs. `mv` is the busbar's voltage. -/
def execBrownout (mv : Nat) (s : State) : Host.Outcome State Fault Refusal :=
  .next (
    if s.hf.pwr = .off ∨ (46000 ≤ mv ∧ mv ≤ 62000) then s
    else
      let s := (s.wr pwrBusMv (BitVec.ofNat 32 (mv % 0x10000))).inc pwrBrownoutCount 1
      let s := { s with hf := { s.hf with busHold := true } }
      if s.hf.pwr = .aux then s else s.fallToAux 0)

/-- BUSBAR_STABLE (R420): between 48 V and 60 V for 100 ms, which releases a held UP request. -/
def execBusbarStable (mv : Nat) (s : State) : Host.Outcome State Fault Refusal :=
  .next (
    if s.hf.pwr = .off ∨ mv < 48000 ∨ 60000 < mv then s
    else
      let s := s.wr pwrBusMv (BitVec.ofNat 32 (mv % 0x10000))
      { s with hf := { s.hf with busHold := false } })

/-- The other stage of a pair, phases 24 to 31 (R418). -/
def pairPhase (n : Nat) : Nat := if n % 2 = 0 then n + 1 else n - 1

/-- PHASE_FAULT (R421): the phase is marked, which lowers L_eff for phases 0 to 23, PHASE_FAIL raised and recorded. With both stages of a
pair failed the rail is lost, and the module goes down as at a brownout. -/
def execPhaseFault (phase : Nat) (s : State) : Host.Outcome State Fault Refusal :=
  .next (
    if 32 ≤ phase ∨ s.hf.failedPhases.contains phase then s
    else
      let s := { s with hf := { s.hf with failedPhases := s.hf.failedPhases ++ [phase] } }
      let s := (s.report causePhaseFail (unitPhase phase) phase epHeadframe none).countEvent (unitPhase phase) causePhaseFail phase false
      if 24 ≤ phase ∧ s.hf.failedPhases.contains (pairPhase phase) ∧ s.hf.pwr ≠ .off ∧ s.hf.pwr ≠ .aux then
        (s.inc pwrBrownoutCount 1).fallToAux causePhaseFail
      else s)

/-! ## Requests (R423, R425, R427) -/

/-- The end of a prepare by a request toward READY (R479): one that has not reached its step 5 is over; after it RMV goes out, and the
bypass opens under R474. -/
def State.endRemoval (s : State) : State :=
  if s.hf.rmvStep = 0 ∨ s.hf.rmvStep = 5 then s
  else { s with hf := { s.hf with rmvStep := 0, rmvCode := 0, rmvWait := [] }, edge := { s.edge with rmvRdy := false } }

/-- An UP request (R423): the last request wins; in DRAIN the module is READY again at once (R425). -/
def State.latchUp (s : State) : State :=
  match s.hf.pwr with
  | .off | .ready => s
  | .drain =>
    let s := s.endRemoval
    if s.hf.downward then { s with hf := { s.hf with latched := 1 } }
    else { s with hf := { s.hf with pwr := .ready, latched := 0 }, wnd := { s.wnd with drainHold := false } }
  | _ =>
    let s := s.endRemoval
    { s with hf := { s.hf with latched := 1 } }

/-- A DOWN request (R423): from READY into DRAIN, which acts as ABORT on a swap (R322, R425); a held UP request gives way. -/
def State.latchDown (s : State) : State :=
  match s.hf.pwr with
  | .off => s
  | .aux => { s with hf := { s.hf with latched := 0 } }
  | .ready =>
    let s := s.abortSwap
    { s with hf := { s.hf with pwr := .drain, latched := 2, drainSince := s.now }, wnd := { s.wnd with drainHold := s.isIngress } }
  | _ => { s with hf := { s.hf with latched := 2 } }

/-- The streams that a prepare for removal still waits for: open and not parked (R478). -/
def State.rmvOpen (s : State) : List Nat :=
  s.hf.rmvWait.filter fun i => (s.stream i).state != .free && (s.stream i).state != .parked

/-- With every park done, a prepare latches DOWN (R478 step 4). -/
def State.rmvProgress (s : State) : State :=
  if s.hf.rmvStep = 1 ∧ s.rmvOpen.isEmpty then { s with hf := { s.hf with rmvStep := 2, rmvWait := [] } }.latchDown else s

/-- A park has ended, for a prepare that waits for it (R478 step 3): a fault fails the prepare, and the module stays READY. -/
def State.rmvParkEnd (s : State) (i cause : Nat) : State :=
  if s.hf.rmvStep = 1 ∧ s.hf.rmvWait.contains i ∧ cause ≠ 0 then
    { s with hf := { s.hf with rmvStep := 5, rmvCode := cause, rmvWait := [] } }
  else s.rmvProgress

/-- Whether a write of PWR_REQ acts: the physical function's, from INIT onward (R423). -/
def State.pwrReqActs (s : State) (f : Nat) : Bool :=
  s.mayWrite f pwrReq && f == 0 && (s.hf.pwr == .init || s.hf.pwr == .cal || s.hf.pwr == .ready || s.hf.pwr == .drain)

/-- A write of PWR_REQ (R423, R448): 0b00 and 0b11 are reserved and ask for nothing. -/
def State.pwrReqWrite (s : State) (f : Nat) (v : Word) : State :=
  if s.pwrReqActs f then
    (match fld v 1 0 with
     | 1 => s.latchUp
     | 2 => s.latchDown
     | _ => s)
  else s

/-- PWR_REQ_UP (R423). -/
def execPwrReqUp (f : Nat) (s : State) : Host.Outcome State Fault Refusal := .next (s.pwrReqWrite f 1)

/-- PWR_REQ_DOWN (R423). -/
def execPwrReqDown (f : Nat) (s : State) : Host.Outcome State Fault Refusal := .next (s.pwrReqWrite f 2)

/-! ## Up (R424) -/

/-- The three latest of two entries' times. -/
def latestTimes (a b : TallyEntry) : List Nat :=
  (([a.t0, a.t1, a.t2, b.t0, b.t1, b.t2].mergeSort fun x y => decide (y ≤ x)).dedup).take 3

/-- Two copies of an entry under equal SEQ (R365). -/
def TallyEntry.merge (a b : TallyEntry) : TallyEntry :=
  let t := latestTimes a b
  { a with events := max a.events b.events, state := max a.state b.state, permTime := max a.permTime b.permTime,
           t0 := t.getD 0 0, t1 := t.getD 1 0, t2 := t.getD 2 0 }

/-- The entries of both copies, merged by unit. -/
def mergeEntries (a b : List TallyEntry) : List TallyEntry :=
  (a.map fun e => match b.find? fun x => x.unit == e.unit with
    | some x => e.merge x
    | none => e) ++ b.filter fun e => !(a.any fun x => x.unit == e.unit)

/-- The loaded entries take their place; a unit whose change is not written yet keeps it. -/
def State.takeEntries (s : State) (es : List TallyEntry) : State :=
  let live (e : TallyEntry) : Bool := s.tally.dirty.contains e.unit
  { s with tally := { s.tally with entries := (es.filter fun e => !(live e)) ++ s.tally.entries.filter live } }

/-- The tally is loaded (R365): of two valid copies the higher SEQ wins; at equal SEQ and different content they merge, with TALLY_MERGE; a
single valid one wins and the other is rewritten. `read0` and `read1` say whether the store gives each copy's bytes as they were written; its CRC
then checks it. -/
def State.loadTally (s : State) (read0 read1 : Bool) : State :=
  let ok0 := read0 && s.tally.copy0.checks
  let ok1 := read1 && s.tally.copy1.checks
  let c0 : TallyCopy := { s.tally.copy0 with ok := ok0 }
  let c1 : TallyCopy := { s.tally.copy1 with ok := ok1 }
  let s := { s with tally := { s.tally with copy0 := c0, copy1 := c1, merged := false } }
  let t := s.tally
  let a := t.copy0
  let b := t.copy1
  if ok0 && ok1 then
    if a.seq = b.seq ∧ a.entries ≠ b.entries then
      let es := mergeEntries a.entries b.entries
      let c := tallyCopy (a.seq + 1) true es
      let s := { s with tally := { t with copy0 := c, copy1 := c, merged := true } }
      (s.takeEntries es).report causeTallyMerge 0 0 epHeadframe none
    else s.takeEntries (if a.seq < b.seq then b.entries else a.entries)
  else if ok0 then { s with tally := { t with copy1 := { a with ok := false } } }.takeEntries a.entries
  else if ok1 then { s with tally := { t with copy0 := { b with ok := false } } }.takeEntries b.entries
  else s.takeEntries []

/-- The memories that step 8 clears hold nothing (R424): they read as zero with fresh check bits. The fences that the headframe still holds
go to their blocks again. -/
def State.selfTest (s : State) : State :=
  let s := { s with mem := s.mem.filter fun c => !(decide (spBase 0 ≤ c.1 ∧ c.1 < kvBase 0 0)) }
  s.each s.noc.fences fun s x => s.sendFence x.1 (pageEp x.1) 0 x.2.want

/-- A stack that fails its training: PC_FAIL and PC_FENCE on every pseudo-channel, and PC_FAIL raised (R424). -/
def State.stackUntrained (s : State) (k : Nat) : State :=
  let s := (s.wr (stackPcFail k) 0xFFFFFFFF).wr (stackPcFence k) 0xFFFFFFFF
  s.report causePcFail (unitPc k 0) 0xFFFFFFFF (epStack k) none

/-- Banks whose programmed generation differs from their install record are SUSPECT (R112, R424). -/
def State.checkRecords (s : State) : State :=
  s.each [false, true] fun s b =>
    match s.bankRecord b with
    | some r =>
      if s.genOf b = r.gen.toNat then s
      else s.each s.imageStopes fun s i => s.updStope i fun t =>
        (List.range 72).foldl (fun t m => if t.bankState m b = .valid then t.setBank m b .suspect else t) t
    | none => s

/-- CAL begins (R424 step 12, R131): every stope of a valid region is fenced and its buffer warmed, and the calibration of the die starts
with group 0. -/
def State.beginCal (s : State) : State :=
  let s := { s with hf := { s.hf with pwr := .cal, calGroup := 0 } }
  s.each s.imageStopes fun s i => (s.fenceFor (shellPage i) 3 15).refEnable i

/-- What a step of R424 starts with. -/
def State.beginUp (s : State) (n : Nat) : State :=
  let s := { s with hf := { s.hf with step := n } }
  match n with
  | 1 => { s with hf := { s.hf with pwr := .rails } }
  | 7 => { s with hf := { s.hf with pwr := .init } }
  | 12 => s.beginCal
  | _ => s

/-- The REF assays of every macro of a valid region, by force (R424 step 12). -/
def State.orderRefs (s : State) : State :=
  let d (i m : Nat) : Due := { kind := 0, unit := unitMacro i m, bank := (s.stope i).bank, since := s.now, forced := true, retry := false, requested := false }
  { s with tally := { s.tally with
      due := (s.tally.due.filter fun x => x.kind != 0) ++ s.imageStopes.flatMap fun i => (List.range 74).map (d i) },
           hf := { s.hf with calGroup := 18 } }

/-- Step 12 goes on (R424): after the calibration and its re-plan the fences are lifted and the REF assays ordered. -/
def State.calProgress (s : State) : State :=
  if s.hf.calGroup = 17 ∧ bitAt s.hf.causes 9 = false then (s.each s.imageStopes fun s i => s.unfence (shellPage i) 3).orderRefs else s

/-- Whether step 12 is complete. -/
def State.calDone (s : State) : Bool := s.hf.calGroup == 18 && !(s.tally.due.any fun d => d.kind == 0)

/-- What a step of R424 has done when it ends. `ok` holds the measured outcomes: bits [7:0] the stacks that trained, [9:8] the vault dies
that trained, [10] whether the store loaded without error, [11] the auxiliary oscillator, [13:12] whether the tally's copies check,
[31:16] the host link as DEV_STATUS [11:2] (log entry 44). -/
def State.finishUp (s : State) (n ok : Nat) : State :=
  match n with
  | 5 => { s with hf := { s.hf with vcore := 750, vcoreSince := s.now } }
  | 7 =>
    let s := s.loadTally (bitAt ok 12) (bitAt ok 13)
    { s with hf := { s.hf with storeOk := bitAt ok 10, oscOk := bitAt ok 11 } }
  | 8 => s.selfTest
  | 9 =>
    let s := { s with hf := { s.hf with trained := ok % 256, selfRefresh := false } }
    s.each ((List.range 8).filter fun k => !(bitAt ok k)) State.stackUntrained
  | 10 => ({ s with hf := { s.hf with vaultOk := bitsOf ok 9 8 } }).checkRecords
  | 11 => { s with edge := { s.edge with link := bitsOf ok 25 16 } }
  | 13 => { s with hf := { s.hf with pwr := .ready, step := 0, latched := if s.hf.latched = 1 then 0 else s.hf.latched } }
  | _ => s

/-- The first power-down step that undoes a sequence up which has completed `n` steps (R427). -/
def undoFrom (n : Nat) : Nat :=
  if 12 ≤ n then 1 else if 10 ≤ n then 2 else if 9 ≤ n then 3 else if 7 ≤ n then 4 else if 6 ≤ n then 5 else if 5 ≤ n then 6
  else if 4 ≤ n then 7 else if 3 ≤ n then 8 else if 2 ≤ n then 9 else 10

/-- A step of R426 begins; from step 5 on the rails are going down (R422). -/
def State.beginDown (s : State) (n : Nat) : State := { s with hf := { s.hf with step := n, downward := true } }

/-- Whether an UP request may start the sequence: nothing holds it (R420, R436, R460). -/
def State.mayRise (s : State) : Bool :=
  s.hf.pwr == .aux && s.hf.step == 0 && s.hf.latched == 1 && !s.hf.busHold && s.hf.tripped.isEmpty && !s.edge.idBad && s.hf.rmvStep != 4

/-- POWER_UP_SEQUENCE (R424, R427): from AUX with UP latched the sequence begins; otherwise the step in progress ends, and the next begins,
or, with DOWN latched, the way down. Step 12 ends once the calibration, its plan and the REF assays are done. -/
def execPowerUpSequence (ok : Nat) (s : State) : Host.Outcome State Fault Refusal :=
  .next (
    if s.mayRise then s.beginUp 1
    else if s.hf.step = 0 ∨ s.hf.downward then s
    else
      let n := s.hf.step
      let s := if n = 12 then s.calProgress else s
      if n = 12 ∧ !s.calDone ∧ s.hf.latched ≠ 2 then s
      else
        let s := s.finishUp n ok
        if n = 13 then (if s.hf.latched = 2 then s.latchDown else s)
        else if s.hf.latched = 2 then s.beginDown (undoFrom n)
        else s.beginUp (n + 1))

/-! ## Down (R425, R426) -/

/-- Whether DRAIN has nothing left: no token in flight and no park running (R425). -/
def State.drained (s : State) : Bool :=
  s.wnd.streams.all fun p => p.2.flying.isNone && p.2.state != .parking && p.2.state != .unparking

/-- DRAIN is over: the sequence down begins, and a prepare for removal flushes. -/
def State.endDrain (s : State) : State :=
  let s := if s.hf.rmvStep = 2 then { s with hf := { s.hf with rmvStep := 3 } } else s
  s.beginDown 1

/-- DRAIN_END (R425). -/
def execDrainEnd (s : State) : Host.Outcome State Fault Refusal :=
  .next (if s.hf.pwr = .drain ∧ !s.hf.downward ∧ s.drained then s.endDrain else s)

/-- Every token in flight rolls back (R225, R425). -/
def State.rollTokens (s : State) : State :=
  s.each ((s.wnd.streams.filter fun p => p.2.flying.isSome).map (·.1)) fun s i =>
    ((s.dropStreamAll i).rollbackStream i).updStream i fun t => { t with flying := none }

/-- DRAIN_TIMEOUT_EXPIRY (R425): DRAIN_TIMEOUT ms have passed: the tokens in flight roll back, and DRAIN ends. -/
def execDrainTimeoutExpiry (s : State) : Host.Outcome State Fault Refusal :=
  .next (
    if s.hf.pwr = .drain ∧ !s.hf.downward ∧ s.hf.drainSince + fld (s.rd pwrDrainTimeout) 15 0 * 1000000 ≤ s.now then s.rollTokens.endDrain
    else s)

/-- Step 1 of R426: every stope and every Pelig port is fenced in all classes, calibrations abort, and reference buffers go OFF. -/
def State.fenceAll (s : State) : State :=
  let s := s.each (List.range 256) fun s i => s.fenceFor (shellPage i) 3 15
  let s := s.each (List.range 24) fun s p => s.fenceFor (peligPage p) 3 15
  s.each (s.stopes.map (·.1)) fun s i => (s.calStop i).refStop i

/-- What a step of R426 does. The power-good of a rail is the step itself. -/
def State.doDown (s : State) (n : Nat) : State :=
  match n with
  | 1 => s.fenceAll
  | 3 => { s with hf := { s.hf with selfRefresh := true } }
  | 4 => s.writeTally s.tally.dirty
  | 5 => { s with hf := { s.hf with pwr := .rails } }
  | 6 => { s with hf := { s.hf with vcore := 0, vcoreSince := 0 } }
  | 10 => s.enterAux
  | _ => s

/-- POWER_DOWN_SEQUENCE (R426): the step in progress is done, and the next begins; step 10 ends in AUX. Before it, a prepare whose last
stream has closed or parked latches DOWN (R478). -/
def execPowerDownSequence (s : State) : Host.Outcome State Fault Refusal :=
  .next (
    if !s.hf.downward then s.rmvProgress
    else
      let n := s.hf.step
      let s := s.doDown n
      if n < 10 then s.beginDown (n + 1) else s)

/-! ## Trips (R436) -/

/-- The comparators: 0 to 3 on the lode die, 4 + k on stack k. -/
def comparators : Nat := 12

/-- THERMAL_TRIP (R436): a comparator above its level for 10 ms opens the main rails; in AUX TRIP_LATCHED is set, the trip is counted and
THERMAL_TRIP raised. A comparator that trips in AUX only holds UP requests. -/
def execThermalTrip (comparator : Nat) (s : State) : Host.Outcome State Fault Refusal :=
  .next (
    if comparators ≤ comparator ∨ s.hf.pwr = .off then s
    else
      let s := { s with hf := { s.hf with tripped := if s.hf.tripped.contains comparator then s.hf.tripped else s.hf.tripped ++ [comparator] } }
      if s.hf.pwr = .aux then s
      else
        let s := s.fallToAux causeThermalTrip
        ((s.wrBit thStatus 2 true).inc thTripCount 1).report causeThermalTrip 0 comparator epHeadframe none)

/-- TRIP_REARM (R436): a comparator has been below its level less 3 °C for 10 ms. -/
def execTripRearm (comparator : Nat) (s : State) : Host.Outcome State Fault Refusal :=
  .next { s with hf := { s.hf with tripped := s.hf.tripped.filter fun c => c != comparator } }

end Sys2Proof.Machine
end

