-- ==== Sys2Proof/Machine/Module.lean ====
section
/-! DEFINITION. The module's edge (chapter 12) but for its registers and its ring: resets, the ABI, removal, straps, insertion, time,
the bypass, power management and pins (R449 to R453, R458 to R460, R469 to R480). -/

namespace Sys2Proof.Machine

/-! ## Resets and power management (R450, R453) -/

/-- FLR of one function (R453): no ABI version, its submission rings as under RING_RESET, its event rings as under EVR_RESET. Records then
hold, so the event rings are disabled (DEDUCED, log entry 48). -/
def State.fnReset (s : State) (f : Nat) : State :=
  let s := s.updFn f fun t => { t with abiSel := 0 }
  let s := s.each ((s.wnd.streams.filter fun p => p.2.fn == f).map (·.1)) State.resetRing
  let s := if s.wnd.ctrlFn = f then s.resetRing ctrlRing else s
  s.each ((s.wnd.evrs.filter fun p => p.2.fn == f).map (·.1)) fun s i =>
    let t := s.resetEvr i
    t.setEvr i { t.evr i with en := false }

/-- VF_FLR (R453). -/
def execVfFlr (vf : Nat) (s : State) : Host.Outcome State Fault Refusal := .next (if 1 ≤ vf ∧ vf ≤ 16 then s.fnReset vf else s)

/-- PF_RESET (R453): every function, and the MSI-X tables clear. -/
def execPfReset (s : State) : Host.Outcome State Fault Refusal :=
  .next (s.each (List.range 17) fun s f => (s.fnReset f).updFn f fun t => { t with msix := [] })

/-- MODULE_RESET (R453): MRST_N held low for 1 ms. -/
def execModuleReset (s : State) : Host.Outcome State Fault Refusal := .next s.moduleReset

/-- D3HOT (R450): the function's DMA stops and its rings hold. -/
def execD3hot (f : Nat) (s : State) : Host.Outcome State Fault Refusal := .next (s.updFn f fun t => { t with d3 := true })

/-- D0 (R450). -/
def execD0 (f : Nat) (s : State) : Host.Outcome State Fault Refusal := .next (s.updFn f fun t => { t with d3 := false })

/-! ## The ABI (R459) -/

/-- Whether a stream of function `f`'s region is open. -/
def State.fnStreams (s : State) (f : Nat) : Bool :=
  s.wnd.streams.any fun p => p.2.state != .free && p.2.region == s.fnRegion f

/-- DEV_MIN and DEV_MAX: H1 offers version 1 only. -/
def abiMin : Nat := 1
def abiMax : Nat := 1

/-- A write of NEGOTIATE (R459). -/
def State.negotiateWrite (s : State) (f : Nat) : State :=
  let lo := max abiMin (fld (s.fn f).abiHost 7 0)
  let hi := min abiMax (fld (s.fn f).abiHost 15 8)
  if s.fnStreams f then s.updFn f fun t => { t with refuse := rCapacity }
  else if lo ≤ hi then s.updFn f fun t => { t with abiSel := hi }
  else s.updFn f fun t => { t with abiSel := 0, refuse := rAbiMismatch }

/-- NEGOTIATE (R459). -/
def execNegotiate (f : Nat) (s : State) : Host.Outcome State Fault Refusal :=
  .next (if s.mayWrite f devAbiCtrl then s.negotiateWrite f else s)

/-! ## Removal (R478, R479) -/

/-- The open streams of the module that are not parked yet. -/
def State.openStreams (s : State) : List Nat :=
  (s.wnd.streams.filter fun p => p.2.state != .free && p.2.state != .parked).map (·.1)

/-- The ingress module parks one stream with TARGET STORAGE, at its token boundary (R478 step 3). -/
def State.parkForRemoval (s : State) (i : Nat) : State :=
  let t := s.stream i
  match t.state with
  | .idle | .active | .paused =>
    if t.flying.isSome ∨ t.cancelTag.isSome then s.updStream i fun t => { t with wantPark := some (t.wantPark.getD (2, 0)) }
    else s.startPark i 2 0
  | _ => s

/-- Prepare-for-removal (R478): refused with CAPACITY while one runs, outside READY, or without FORCE where STORE_EP is not VALID; else the
streams are parked, and DOWN is latched once they are. -/
def State.rmvPrepare (s : State) (force : Bool) : State :=
  if (1 ≤ s.hf.rmvStep ∧ s.hf.rmvStep ≤ 4) ∨ s.hf.pwr ≠ .ready ∨ (!force ∧ !s.storeValid) then
    { s with hf := { s.hf with rmvCode := rCapacity } }
  else if force then { s with hf := { s.hf with rmvStep := 2, rmvCode := 0, rmvWait := [] } }.latchDown
  else
    let s := { s with hf := { s.hf with rmvStep := 1, rmvCode := 0, rmvWait := s.openStreams } }
    let s := if s.isIngress then s.each s.hf.rmvWait State.parkForRemoval else s
    s.rmvProgress

/-- CANCEL (R479): a prepare that runs, or is ready, ends with STEP NONE and UP latched. -/
def State.rmvCancelNow (s : State) : State :=
  if 1 ≤ s.hf.rmvStep ∧ s.hf.rmvStep ≤ 4 then s.endRemoval.latchUp else s

/-- A write of RMV_CTRL (R458): the physical function's; in a virtual function it is RSV. -/
def State.rmvWrite (s : State) (f : Nat) (v : Word) : State :=
  if f ≠ 0 ∨ !(s.mayWrite f devRmvCtrl) then s
  else
    let s := if bit v 0 then s.rmvPrepare (bit v 1) else s
    if bit v 2 then s.rmvCancelNow else s

/-- RMV_PREP (R478). -/
def execRmvPrep (f : Nat) (s : State) : Host.Outcome State Fault Refusal := .next (s.rmvWrite f 1)

/-- RMV_PREP_FORCE (R478). -/
def execRmvPrepForce (f : Nat) (s : State) : Host.Outcome State Fault Refusal := .next (s.rmvWrite f 3)

/-- RMV_CANCEL (R479). -/
def execRmvCancel (f : Nat) (s : State) : Host.Outcome State Fault Refusal := .next (s.rmvWrite f 4)

/-- ATTN_BUTTON (R476): ATTN_N held low for 1 s acts as RMV_CTRL.PREP. -/
def execAttnButton (s : State) : Host.Outcome State Fault Refusal := .next (s.rmvPrepare false)

/-! ## Identity and insertion (R460, R470, R477) -/

/-- The strap bits: RACK_ID in [8:0], SLOT_ID in [14:9], ID_PAR in [15] (DESIGN CHOICE of the order, log entry 53). -/
def strapRack (v : Nat) : Nat := bitsOf v 8 0
def strapSlot (v : Nat) : Nat := bitsOf v 14 9
def strapsOk (v : Nat) : Bool := popcount 16 v % 2 == 1

/-- VAUX comes up (R422, R460, R470): the straps are latched, the timebase starts from 0, and the module is in AUX. With PWR_EN high an UP
request is latched (DEDUCED, log entry 52). -/
def State.vauxUp (s : State) (straps : Nat) : State :=
  if s.hf.pwr ≠ .off then s
  else
    let ok := strapsOk straps
    let e := { s.edge with
      straps := straps % 0x10000, idBad := !ok, idChanged := false, txSeq := 0,
      devId := if ok then 64 * strapRack straps + strapSlot straps else 0xFFFFD,
      devLoc := if ok then strapSlot straps + strapRack straps * 0x40 + 0x8000 else 0,
      timeState := 0, goodSyncs := 0, everLocked := false }
    let s := { s with now := 0, edge := e, hf := { s.hf with pwr := .aux } }
    if s.edge.pwrEn then s.latchUp else s

/-- STRAP_LATCH (R460). -/
def execStrapLatch (straps : Nat) (s : State) : Host.Outcome State Fault Refusal := .next (s.vauxUp straps)

/-- STRAP_CHANGE (R460): it takes effect only at the next entry to AUX from OFF. -/
def execStrapChange (straps : Nat) (s : State) : Host.Outcome State Fault Refusal :=
  .next (
    if s.hf.pwr = .off ∨ straps % 0x10000 = s.edge.straps then s
    else { s with edge := { s.edge with idChanged := true } })

/-- PRSNT_MATE (R477): the hot-swap switch closes, the straps latch and the module enters AUX. -/
def execPrsntMate (straps : Nat) (s : State) : Host.Outcome State Fault Refusal :=
  .next ({ s with edge := { s.edge with prsnt := true } }.vauxUp straps)

/-- PRSNT_BREAK (R480): the slot closes its shunt, so the ring passes the module by; the host's port sees the link go down. The power goes
with BUSBAR_LOSS. -/
def execPrsntBreak (s : State) : Host.Outcome State Fault Refusal :=
  .next { s with edge := { s.edge with prsnt := false, ringUp := 0, link := 0 } }

/-- PWR_EN_RISE (R476): an UP request. -/
def execPwrEnRise (s : State) : Host.Outcome State Fault Refusal := .next ({ s with edge := { s.edge with pwrEn := true } }.latchUp)

/-- PWR_EN_FALL (R476): a DOWN request. -/
def execPwrEnFall (s : State) : Host.Outcome State Fault Refusal := .next ({ s with edge := { s.edge with pwrEn := false } }.latchDown)

/-! ## The bypass (R472 to R474) -/

/-- A HELLO on one port, with TTL 1: device ID, port, VER_MIN and VER_MAX (R463; DESIGN CHOICE of the layout, log entry 51). -/
def State.sendHello (s : State) (port : Nat) : State :=
  let p := beBytes 4 s.edge.devId ++ [BitVec.ofNat 8 port, 1, 1]
  let m : RingMsg := { port := port, ver := 1, cls := 1, typ := 0, src := s.edge.devId, dst := 0xFFFFF, seq := s.edge.txSeq,
                       time := s.now, ackReq := false, ttl := 1, payload := p }
  { s with edge := { s.edge with tx := s.edge.tx ++ [{ port := port, msg := m }], txSeq := (s.edge.txSeq + 1) % 0x100000000 } }

/-- HELLO on both ports. -/
def State.sendHellos (s : State) : State :=
  let s := (s.sendHello 0).sendHello 1
  { s with edge := { s.edge with lastHello := s.now } }

/-- BYPASS_CLOSE (R473). -/
def execBypassClose (s : State) : Host.Outcome State Fault Refusal := .next { s with edge := { s.edge with bypass := 0 } }

/-- Whether the bypass may open (R474): AUX or later, with a valid DEV_ID, and not where the module is ready for removal. -/
def State.mayOpen (s : State) : Bool :=
  s.hf.pwr != .off && bitAt s.edge.devLoc 15 && s.edge.bypass != 3 && s.edge.bypassRetryAt.isNone && s.hf.rmvStep != 4

/-- BYPASS_OPEN (R474): LISTEN, VERIFY, and with both streams matching OPEN, with HELLO on both ports; a mismatch closes it for 1 s. -/
def execBypassOpen (mismatch : Bool) (s : State) : Host.Outcome State Fault Refusal :=
  .next (
    if !s.mayOpen then s
    else if mismatch then { s with edge := { s.edge with bypass := 0, bypassRetryAt := some (s.now + 1000000000) } }
    else ({ s with edge := { s.edge with bypass := 3, ringUp := 3 } }.sendHellos).flushAlarms)

/-- BYPASS_RETRY (R474): after 1 s the headframe tries again: both taps listen. -/
def execBypassRetry (s : State) : Host.Outcome State Fault Refusal :=
  .next (
    match s.edge.bypassRetryAt with
    | some t => if t ≤ s.now then { s with edge := { s.edge with bypass := 1, bypassRetryAt := none } } else s
    | none => s)

/-! ## Time (R469 to R471) -/

/-- Whether a Sync on a port is followed (R469): the port followed, one with a smaller path delay, or any once the followed port's Syncs
have stopped for 125 ms (DESIGN CHOICE of the limit, log entry 54). -/
def State.follows (s : State) (port delay : Nat) : Bool :=
  s.edge.timeState == 0 || port == s.edge.timePort || decide (delay < (s.rd timePathDelayNs).toNat) ||
    decide (s.edge.lastSync + 125000000 < s.now)

/-- The step of R470: at the first Sync, a timebase more than 1 µs behind steps forward, and the step is counted. `offset` is the module's
time less the grandmaster's. -/
def State.timeStep (s : State) (offset : Int) : State :=
  if s.edge.timeState = 0 ∧ offset < -1000 then { (s.inc timeStepCount 1) with now := s.now + offset.natAbs } else s

/-- SYNC (R469 to R471): the offset, rate and delay are recorded; 16 consecutive offsets within ±20 ns lock. The rate correction is at most
200 ppm. -/
def execSync (port : Nat) (offset : Int) (delay gm : Nat) (rate : Int) (s : State) : Host.Outcome State Fault Refusal :=
  .next (
    if s.hf.pwr = .off ∨ !(bit (s.rd timeCtrl) 8) ∨ !(s.follows port delay) then s
    else
      let s := s.timeStep offset
      let s := (s.wr timeOffsetNs (BitVec.ofInt 32 offset)).wr timeRatePpb (BitVec.ofInt 32 (clampI (-200000) 200000 rate))
      let s := (s.wr timePathDelayNs (BitVec.ofNat 32 delay)).wr64 timeGmIdLo gm
      let good := if offset.natAbs ≤ 20 then min 16 (s.edge.goodSyncs + 1) else 0
      let locked := good == 16
      let st := if locked then 2 else if s.edge.timeState = 3 then 3 else 1
      { s with edge := { s.edge with timeState := st, timePort := port, goodSyncs := good, lastSync := s.now,
                                     everLocked := s.edge.everLocked || locked } })

/-- SYNC_LOSS (R471): locked before, and no usable Sync for 1 s. -/
def execSyncLoss (s : State) : Host.Outcome State Fault Refusal :=
  .next (
    if s.edge.everLocked ∧ (s.edge.timeState = 1 ∨ s.edge.timeState = 2) ∧ s.edge.lastSync + 1000000000 ≤ s.now then
      { s with edge := { s.edge with timeState := 3, goodSyncs := 0 } }
    else s)

/-- A write of TIME_CTRL (R471): with PTP_EN at 0 the state is FREE. -/
def State.timeCtrlWrite (s : State) (f : Nat) (v : Word) : State :=
  if s.mayWrite f timeCtrl then
    let s := s.storeReg f timeCtrl v
    if bit v 8 then s else { s with edge := { s.edge with timeState := 0, goodSyncs := 0 } }
  else s

end Sys2Proof.Machine
end

