-- ==== Sys2Proof/Machine/Park.lean ====
section
/-! DEFINITION. Parking (R289 to R294): the snapshot, its manifest and digest, and the ends of PARK and UNPARK. -/

namespace Sys2Proof.Machine

/-! ## The snapshot's bytes. The manual names their content and gives no layout: DESIGN CHOICE, log entry 32. -/

/-- A list of numbers with its length, `n` bytes each. -/
def listBytes (n : Nat) (l : List Nat) : List Byte := leBytes 4 l.length ++ l.flatMap fun v => leBytes n v

/-- A work-list item. -/
def Work.bytes : Work → List Byte
  | .append tokens nm pin tag => [4] ++ leBytes 8 tag.toNat ++ [BitVec.ofNat 8 (flag nm 0 + flag pin 1)] ++ listBytes 3 tokens
  | .generate budget tag => [5] ++ leBytes 8 tag.toNat ++ leBytes 4 budget

/-- A position map. -/
def PosMap.bytes (m : PosMap) : List Byte :=
  leBytes 4 m.base.toNat ++ leBytes 1 m.dims ++ leBytes 1 m.segs.length ++
    m.segs.flatMap fun g => leBytes 4 g.first ++ leBytes 4 g.last ++ leBytes 4 (g.offset % 0x100000000).toNat

/-- The sampler's settings and lists. -/
def Sampler.bytes (x : Sampler) : List Byte :=
  leBytes 8 x.seed.toNat ++ (([x.temp, x.topP, x.minP, x.rep, x.pres, x.freq].map fun w => leBytes 4 w.toNat).flatten) ++
    leBytes 2 x.topK ++ leBytes 2 x.window ++ leBytes 4 x.biases.length ++
    (x.biases.flatMap fun b => leBytes 4 b.1 ++ leBytes 4 b.2.toNat) ++ listBytes 3 x.stops ++ leBytes 4 x.seqs.length ++
    x.seqs.flatMap (listBytes 3)

/-- The small state of R289: position map, sampler, the last 4,096 tokens, the matching state, the mask state, the work list and
budget, the bank tag and the bank's generation. -/
def Stream.small (t : Stream) (gen : Nat) : List Byte :=
  t.pos.bytes ++ t.sampler.bytes ++ listBytes 3 (t.history.drop (t.history.length - 4096)) ++ listBytes 3 t.pend ++ leBytes 4 t.genCount ++
    leBytes 1 t.maskMode ++ t.mask ++ t.waitMasks.flatten ++ leBytes 4 t.work.length ++ t.work.flatMap Work.bytes ++
    leBytes 4 t.budget ++ leBytes 1 (flag t.generating 0 + flag t.bank 1) ++ leBytes 8 gen

/-- The module's shard index (R220, R291). -/
def State.shard (s : State) : Nat := ((s.wnd.job.groups.map fun g => g.2.2).head?).getD 0

/-- The bytes of a page of a chain, resident or moved aside: 32 KiB of elements, then 2 KiB of scales (R291). -/
def State.pageData (s : State) (p : Pte) : List Byte := if p.spilled then s.rdMem (cageBase p.handle) pageBytes else s.frameBytes p.stack p.frame

/-- The pages of a stream's chains, in chain order (R291). -/
def State.parkPages (s : State) (i : Nat) : List (Nat × Pte) := (s.streamPtes i).filter fun e => e.2.valid

/-- The module manifest (R291). -/
def State.manifest (s : State) (i : Nat) (crcs : List Nat) (small : List Byte) : List Byte :=
  sha256 (leBytes 4 i ++ leBytes 4 s.shard ++ leBytes 8 (s.stream i).committed ++ (crcs.flatMap fun c => leBytes 8 c) ++ small)

/-- The snapshot digest: the SHA-256 of the manifests in ascending device ID (R291). -/
def State.digestOf (s : State) (own : List Byte) (others : List (Nat × List Byte)) : List Byte :=
  sha256 (((others.foldl (fun l m => Table.put l m.1 m.2) (Table.put [] s.edge.devId own)).map (·.2)).flatten)

/-! ## Ends of a park -/

/-- The state a stream returns to (R250). -/
def Stream.afterPark (t : Stream) : StreamState := if t.beforePark = .active ∨ t.beforePark = .paused then .paused else .idle

/-- PARK_DONE, which the ingress module writes (R246, R262). -/
def State.parkDone (s : State) (i flags code : Nat) (digest : List Byte) : State :=
  if !s.isIngress then s else s.streamEvent i evParkDone flags code (s.stream i).parkTag (BitVec.ofNat 64 (leAt digest 0 8))

/-- A CANCEL that was held over the operation applies now (R294); then the stream works on. -/
def State.afterMove (s : State) (i : Nat) : State :=
  let t := s.stream i
  let s := s.updStream i fun t => { t with cancelHeld := none }
  match t.cancelHeld with
  | some (tag, n) => if t.work.isEmpty then s.workOn i workFuel else s.startCancel i tag n
  | none => s.workOn i workFuel

/-- A page moves to the target: its bytes are written there, and a frame with no other holder is freed (R290). -/
def State.movePage (s : State) (key : Nat) : State :=
  let p := s.pte key
  if p.spilled then s
  else
    let h := s.freshHandle
    let s := (s.wrMem (cageBase h) (s.frameBytes p.stack p.frame)).tookHandle h
    if s.frameRef p.stack p.frame = 1 then (s.dropRef p.stack p.frame).setPte key { p with spilled := true, handle := h } else s

/-- A reservation of `n` bytes against the park budget is released (R293). -/
def dropReserve (n : Nat) : List (Nat × Nat) → List (Nat × Nat)
  | [] => []
  | x :: l => if x.2 = n then l else x :: dropReserve n l

/-- A park's reservation goes: with a fault, or when a park to storage has written nothing to the vault (R293, R309; DEDUCED, log entry 127). -/
def State.freeReserve (s : State) (i : Nat) : State :=
  { s with swap := { s.swap with parkUsed := dropReserve (s.stream i).parkBytes s.swap.parkUsed } }

/-- PARK_COMPLETE (R289 to R293): every module has written its pages and manifest: the digest is stored, the frames are freed, the
stream is PARKED and PARK_DONE is written. `manifests` are those of the job's other modules, by device ID. -/
def execParkComplete (stream : Nat) (manifests : List (Nat × List Byte)) (s : State) : Host.Outcome State Fault Refusal :=
  .next (
    let t := s.stream stream
    if t.state ≠ .parking ∨ (t.parkTarget = 2 ∧ !s.storeUp) then s
    else
      let pages := s.parkPages stream
      let crcs := pages.map fun e => (e.1, crc64 (s.pageData e.2))
      let gen := s.genOf (s.streamBank t)
      let small := t.small gen
      let digest := s.digestOf (s.manifest stream (crcs.map (·.2)) small) manifests
      let s := if (s.cls t.cls).kvprot = 2 ∧ s.storeUp then
          s.each (pages.filter fun e => !(t.journaled.any fun x => x.1 == e.1 && x.2.2)) fun s e => s.journalKey stream e.1
        else s
      let s := if t.parkTarget = 0 then s else s.each (pages.map (·.1)) State.movePage
      let s := if t.parkTarget = 1 then s.inc64 vaultWrittenLo (t.parkBytes / 1000000)
        else if t.parkTarget = 2 then s.freeReserve stream else s
      let (n, s) := s.draw
      let s := s.updStream stream fun t =>
        { t with state := .parked, digest := digest, parkLoc := Config.handle n, parkGen := BitVec.ofNat 64 gen,
                 parkSmall := small, pageCrcs := crcs }
      ((s.parkDone stream 0 0 digest).afterMove stream).rmvParkEnd stream 0)

/-- PARK_FAIL (R293): what was written is discarded, the reservation is released, the pages stay, and the stream returns at once. A
PARK to DRAM does not fault. -/
def execParkFail (stream : Nat) (s : State) : Host.Outcome State Fault Refusal :=
  .next (
    let t := s.stream stream
    if t.state ≠ .parking ∨ t.parkTarget = 0 then s
    else
      let s := (s.freeReserve stream).updStream stream fun t => { t with state := t.afterPark, digest := [] }
      let s := s.notify { cause := causeParkFail, unit := 0, detail := 0, source := epCage, stream := some stream, region := t.region, time := 0, seq := 0 }
      ((s.parkDone stream 0 causeParkFail []).afterMove stream).rmvParkEnd stream causeParkFail)

/-- UNPARK_VERIFY (R292): the pages' CRCs and the snapshot digest are compared, and the bank's generation. `crcs` gives, by page key,
the CRC that a second read of a page gave where it differs from the page written; `manifests` those of the other modules. Agreement
reloads the pages and lets the stream run; else the stream stays PARKED with its snapshot. -/
def execUnparkVerify (stream : Nat) (crcs : List (Nat × Nat)) (manifests : List (Nat × List Byte)) (s : State) :
    Host.Outcome State Fault Refusal :=
  .next (
    let t := s.stream stream
    if t.state ≠ .unparking then s
    else
      let seen := (s.parkPages stream).map fun e => (e.1, match crcs.find? fun x => x.1 == e.1 with
        | some x => x.2
        | none => crc64 (s.pageData e.2))
      let digest := s.digestOf (s.manifest stream (seen.map (·.2)) t.parkSmall) manifests
      let cause := if s.genOf (s.streamBank t) ≠ t.parkGen.toNat then causeGenChanged
        else if seen ≠ t.pageCrcs ∨ (s.isIngress ∧ digest ≠ t.digest) then causeParkDigest else 0
      if cause ≠ 0 then
        let s := s.updStream stream fun t => { t with state := .parked }
        let s := s.notify { cause := cause, unit := 0, detail := 0, source := epCage, stream := some stream, region := t.region, time := 0, seq := 0 }
        (s.parkDone stream 8 cause t.digest).afterMove stream
      else
        let s := s.each ((s.streamPtes stream).filter fun e => e.2.spilled) fun s e => s.reloadPage t.region e.1
        let s := if s.hasSpilled stream then { s with kv := { s.kv with reloading := s.kv.reloading ++ [stream] } } else s
        let s := s.updStream stream fun t => { t with state := t.afterPark }
        (s.parkDone stream 8 0 t.digest).afterMove stream)

end Sys2Proof.Machine
end

