-- ==== Sys2Proof/Machine/Winder.lean ====
section
/-! DEFINITION. The winder (R274 to R277): the order of issue, WHELD, and the issue of a step against the quanta. -/

namespace Sys2Proof.Machine

/-- A token's slack in ns: its deadline, less the time, less the bound of its remaining steps (R274). -/
def State.slack (s : State) (fl : Flying) : Option Int := fl.deadline.map fun d => (d : Int) - s.now - fl.remaining

/-- The level at which a stream's token issues: its class's priority, 7 when demoted (R267). -/
def State.level (s : State) (i : Nat) : Nat :=
  match (s.stream i).flying with
  | some fl => if fl.demoted then 7 else (s.cls (s.stream i).cls).prio
  | none => (s.cls (s.stream i).cls).prio

/-- Whether numbers come earlier in lexical order. -/
def lexLess : List Int → List Int → Bool
  | x :: xs, y :: ys => decide (x < y) || (x == y && lexLess xs ys)
  | _, _ => false

/-- The order of R274 as numbers: level, deadline before none, slack, release, stream. A step of no stream comes last. -/
def State.issueKey (s : State) (r : StepReq) : List Int :=
  match r.stream with
  | none => [7, 2, 0, 0, 0]
  | some i =>
    match (s.stream i).flying with
    | some fl => [s.level i, if fl.deadline.isSome then 0 else 1, (s.slack fl).getD 0, fl.released, i]
    | none => [s.level i, 1, 0, 0, i]

/-- Whether a ready step may issue apart from its energy: the winder enabled, the core not fenced against ISSUE, its stream's token in flight and
not being cancelled, the stream neither held nor reloading (R227, R276, R280, R298, R439). -/
def State.mayIssue (s : State) (r : StepReq) : Bool :=
  bit (s.rd wndCtrl) 0 && s.enabled wndPage && !(s.coreFenced r.core 0) &&
    (match r.stream with
     | some i =>
       (s.stream i).flying.isSome && !(s.cancelFlying i) && !(s.stream i).held && !(s.wnd.heldLevels.contains (s.level i)) && !(s.kv.reloading.contains i)
     | none => true)

/-- The token in flight as a module that is not the ingress module knows it (R274; DESIGN CHOICE, log entry 153). -/
def Stream.flyingHere (t : Stream) (x : TokenInfo) : Flying :=
  { slot := t.committed, token := 0, prefill := 0, samples := false, sampled := none, deadline := x.deadline, demoted := x.demoted,
    released := x.released, retried := false, remaining := 0, atRisk := false, missed := false }

/-- A step that is ready tells its module of its token: away from the ingress module that it is in flight, and the bound of its remaining steps. -/
def State.noteRemaining (s : State) (r : StepReq) : State :=
  match r.stream with
  | some i => s.updStream i fun t =>
      let t := if s.isIngress || t.state == .free then t else { t with flying := t.flying.or (r.token.map t.flyingHere) }
      { t with flying := t.flying.map fun fl => { fl with remaining := r.remaining } }
  | none => s

/-- The streams with a token in flight. -/
def State.flyingStreams (s : State) : List Nat := (s.wnd.streams.filter fun t => t.2.flying.isSome).map (·.1)

/-- Whether a stream's token has slack below a bound. -/
def State.slackBelow (s : State) (i n : Nat) : Bool :=
  match (s.stream i).flying with
  | some fl => (match s.slack fl with
    | some x => decide (x < (n : Int))
    | none => false)
  | none => false

/-- Whether a stream stands at a layer boundary on this module: no token is in flight, or each of its ready steps, of which there is one, begins a
layer and none is on a core (R276; DEDUCED, log entry 154). -/
def State.atBoundary (s : State) (i : Nat) : Bool :=
  let mine := s.wnd.ready.filter fun r => r.stream == some i
  (s.stream i).flying.isNone ||
    (!mine.isEmpty && mine.all (·.first) &&
      !(s.cores.any fun c => (c.2.queue.any fun q => q.stream == some i) || ((c.2.run.toList ++ c.2.finishing).any fun r => r.step.stream == some i)))

/-- One stream's marks of R276: at risk; WHELD from its next layer boundary on by a token of higher priority at risk, until none has slack below
2 × RISK_NS. -/
def State.holdStream (s : State) (risky near : List Nat) (i : Nat) : State :=
  let t := s.stream i
  let above (l : List Nat) : Bool := l.any fun j => decide (s.level j < s.level i)
  let held := (bit (s.rd wndCtrl) 1 && above risky && s.atBoundary i) || (t.held && above near)
  let s := s.updStream i fun t =>
    { t with held := held, flying := t.flying.map fun fl => { fl with atRisk := risky.contains i } }
  if held && !t.held then s.inc wndWheldCount 1 else s

/-- R276 over every open stream. -/
def State.updateHolds (s : State) : State :=
  let n := (s.rd wndRiskNs).toNat
  let fly := s.flyingStreams
  let risky := fly.filter fun i => s.slackBelow i n
  let near := fly.filter fun i => s.slackBelow i (2 * n)
  s.each ((s.wnd.streams.filter fun t => t.2.state != .free).map (·.1)) fun s i => s.holdStream risky near i

/-- The ready step that issues next (R274). -/
def State.nextStep (s : State) : Option StepReq :=
  (s.wnd.ready.filter s.mayIssue).foldl (fun best r => match best with
    | some b => if lexLess (s.issueKey r) (s.issueKey b) then some r else some b
    | none => some r) none

/-- The bank tag a step carries: its stream's, or for a step of no stream the one it is ordered with (R113). -/
def State.stepBank (s : State) (r : StepReq) : Bool := match r.stream with
  | some i => (s.stream i).bank
  | none => r.bank

/-- A step goes to its core's queue; its energy is charged to the window and to its stream's customer (R275, R277, R443). -/
def State.issueStep (s : State) (r : StepReq) : State :=
  let cost := s.stepCost r.cost
  let s := s.each cost.zipIdx fun s c => s.charge c.2 c.1
  let s := { s with wnd := { s.wnd with ready := s.wnd.ready.erase r } }
  let s := match r.stream with
    | some i => { s with wnd := { s.wnd with custEnergy := Table.upd 0 s.wnd.custEnergy (s.stream i).customer fun x => x + cost.sum } }
    | none => s
  let step : Step := { prog := r.prog, stream := r.stream, bank := s.stepBank r, converting := reqConverts r, bound := r.bound, missed := false }
  (s.updCore r.core fun t => { t with queue := t.queue ++ [step] }).inc64 wndIssuedLo 1

/-- WINDER_ISSUE (R274 to R277): steps become ready, the holds of R276 are judged, and the first step in the winder's order issues
when the grant serves it; else issue holds until the next window. -/
def execWinderIssue (ready : List StepReq) (s : State) : Host.Outcome State Fault Refusal :=
  .next (
    let s := { s with wnd := { s.wnd with ready := s.wnd.ready ++ ready } }
    let s := (s.each ready State.noteRemaining).updateHolds
    match s.nextStep with
    | some r => if s.grantOpen r.reserved then s.issueStep r else s.holdEnergy
    | none => s)

end Sys2Proof.Machine
end

