-- ==== Sys2Proof/Machine/Views.lean ====
section
/-! DEFINITION. What a register reads (R7, R455, R456): the stored value, or, for a register that shows other state, the value made from
that state. One definition for each page, by the register's offset in it. -/

namespace Sys2Proof.Machine

/-! ## Pieces -/

/-- A register value from a number. -/
def wv (n : Nat) : Word := BitVec.ofNat 32 n

/-- The low and the high word of a 64-bit value. -/
def loW (n : Nat) : Word := wv n
def hiW (n : Nat) : Word := wv (n / 0x100000000)

/-- A signed Q8.8 value in 16 bits. -/
def q88 (t : Int) : Nat := (BitVec.ofInt 16 t).toNat

/-- A Bool as a number. -/
def b01 (b : Bool) : Nat := if b then 1 else 0

def RefState.code : RefState → Nat
  | .off => 0
  | .warming => 1
  | .ready => 2

def BankState.code : BankState → Nat
  | .empty => 0
  | .valid => 1
  | .programming => 2
  | .suspect => 3

def CalPhase.code : CalPhase → Nat
  | .idle => 0
  | .zero => 1
  | .full => 2
  | .commit => 3

def SeamMode.code : SeamMode → Nat
  | .checked => 0
  | .localising => 1
  | .recon => 2
  | .unprotected => 3
  | .suspect => 4

def StreamState.code : StreamState → Nat
  | .free => 0
  | .idle => 1
  | .active => 2
  | .paused => 3
  | .parking => 4
  | .parked => 5
  | .unparking => 6

def SwapPhase.code : SwapPhase → Nat
  | .idle => 0
  | .reading => 1
  | .programming => 2
  | .ready => 3
  | .barrier => 4
  | .rollback => 5
  | .tempHeld => 6

def PortState.code : PortState → Nat
  | .down => 0
  | .training => 1
  | .up => 2
  | .degraded => 3
  | .miswired => 4

def AditState.code : AditState → Nat
  | .down => 0
  | .verifying => 1
  | .up => 2

def PwrState.code : PwrState → Nat
  | .off => 0
  | .aux => 1
  | .rails => 2
  | .init => 3
  | .cal => 4
  | .ready => 5
  | .drain => 6

/-- Whether the pages of the headframe alone answer: those of R467 in AUX. -/
def auxPage (off : Nat) : Bool :=
  match pageAt off with
  | some (.dir, _) | some (.dev, _) | some (.hf, _) | some (.th, _) | some (.pwr, _) | some (.tally, _) | some (.time, _) => true
  | _ => false

/-- PAGE_STATUS.READY: the headframe's own pages are ready from AUX on, the others from CAL on, after self-test and training (R422,
R424; DEDUCED, log entry 56). -/
def State.pageReady (s : State) (off : Nat) : Bool :=
  match s.hf.pwr with
  | .off => false
  | .cal | .ready | .drain => true
  | _ => auxPage off

/-! ## The common registers (R456, R457) -/

/-- PAGE_CTRL.FENCE: any fence class is in force at the block (R47). -/
def State.pageFenced (s : State) (off : Nat) : Bool := (List.range 4).any fun k => s.fenced (blockPage off) k

def State.viewCommon (s : State) (off : Nat) : Option Word :=
  match off % 0x1000 with
  | 0x00C => some (wv (b01 (bit (s.rd off) 0) + 2 * b01 (s.isQuiesced off) + 4 * b01 (s.pageFenced off)))
  | 0x010 => some (wv (b01 (s.pageReady off)))
  | _ => none

/-! ## DIR, DEVICE and TIME -/

/-- The pages of function `f`'s BAR0, as offsets divided by 0x1000, ascending (R455). -/
def State.dirPages (s : State) (f : Nat) : List Nat :=
  (List.range 0x500).filter fun n => (pageAt (n * 0x1000)).isSome && s.mapped f (n * 0x1000)

def State.viewDir (s : State) (f o : Nat) : Option Word :=
  match o with
  | 0x100 => some (wv (s.dirPages f).length)
  | 0x104 => some (wv (s.fn f).dirSel)
  | 0x108 => some (wv ((s.dirPages f).getD (s.fn f).dirSel 0))
  | _ => none

def State.viewDev (s : State) (f o : Nat) : Option Word :=
  let e := s.edge
  match o with
  | 0x100 => some (wv e.devId)
  | 0x104 => some (wv e.devLoc)
  | 0x108 => some (wv (b01 e.idBad + 2 * b01 e.idChanged + 4 * (e.link % 0x400) + 0x1000 * (e.bypass % 4) + 0x4000 * (e.ringUp % 4)))
  | 0x110 => some (s.fn f).abiHost
  | 0x118 => some (wv (s.fn f).abiSel)
  | 0x120 => some (if f = 0 then wv s.rmvWord else 0)
  | 0x124 => some (loW Config.serial)
  | 0x128 => some (hiW Config.serial)
  | 0x12C => some (wv (s.fn f).refuse)
  | 0x130 => if f = 0 then none else some 0
  | _ => none

def State.viewTime (s : State) (o : Nat) : Option Word :=
  match o with
  | 0x104 => some (wv (s.edge.timeState + 4 * s.edge.timePort))
  | 0x108 => some (loW s.now)
  | 0x10C => some (hiW s.now)
  | _ => none

/-! ## HEADFRAME, THERMAL and POWER (chapter 11) -/

/-- The class that CLASS_SEL selects. -/
def State.classSel (s : State) : Nat := fld (s.rd hfClassSel) 3 0

/-- Word i of the margin plan in force (R145); before the first plan is adopted, 0. -/
def Plan.word (p : Plan) (i : Nat) : Nat :=
  if p.seq = 0 then 0 else
  let fl (k : Nat) : Nat := p.floors.getD k 1
  match i with
  | 0 => p.seq
  | 1 => p.adopted
  | 2 => p.adopted / 0x100000000
  | 3 => p.speed + p.vcoreFloor * 0x10000
  | 4 => fl 0 + fl 1 * 0x100 + fl 2 * 0x10000 + fl 3 * 0x1000000
  | 5 => fl 4 + fl 5 * 0x100 + fl 6 * 0x10000
  | 6 => p.calInterval + p.refreshMin * 0x10000
  | 7 => p.dramRate + p.cause * 0x10000
  | _ => 0

/-- Energy of the selected class in mJ: measured, and charged. -/
def State.measuredMj (s : State) : Nat := s.hf.totMeasured.getD s.classSel 0 / 1000
def State.chargedMj (s : State) : Nat := (s.hf.totCharged.getD s.classSel 0 / 1000).floor.toNat

def State.viewHf (s : State) (o : Nat) : Option Word :=
  let h := s.hf
  if 0x180 ≤ o ∧ o < 0x1A0 then some (wv (h.plan.word ((o - 0x180) / 4)))
  else match o with
  | 0x104 => some (wv (b01 h.storeOk + 2 * b01 h.oscOk + 4 * b01 (h.heldWindows.getLastD false) + 8 * b01 (h.deficit != 0)))
  | 0x10C => some (wv (h.quantum % 0x100000))
  | 0x110 => some (wv (h.deficit % 0x100000))
  | 0x11C => some (wv (h.corr.getD s.classSel 0x4000))
  | 0x120 => some (loW s.measuredMj)
  | 0x124 => some (hiW s.measuredMj)
  | 0x128 => some (loW s.chargedMj)
  | 0x12C => some (hiW s.chargedMj)
  | _ => none

/-- The hottest node; of several the lowest number. -/
def State.hotNode (s : State) : Nat :=
  (List.range 280).foldl (fun b n => if (s.node b).temp < (s.node n).temp then n else b) 0

/-- Whether T_WARN is asserted on some node. -/
def State.warned (s : State) : Bool := s.hf.nodes.any fun n => n.2.asserted.getD 0 false

def State.viewTh (s : State) (o : Nat) : Option Word :=
  let broken (lo n : Nat) : Nat := ((List.range n).map fun i => flag (s.sensor (lo + i)).broken i).sum
  let sel := fld (s.rd thSensorSel) 5 0
  match o with
  | 0x104 => some (wv (b01 s.warned + 2 * b01 s.hf.episode.isSome + 4 * b01 (bit (s.rd thStatus) 2) + 8 * b01 s.hf.refitClamp +
      16 * b01 (decide (10240 < s.hf.inlet)) + 0x10000 * s.hotNode))
  | 0x108 => some (wv (q88 (s.node s.hotNode).temp))
  | 0x10C => some (wv (q88 s.hf.inlet))
  | 0x114 => some (wv (q88 (s.node (fld (s.rd thNodeSel) 8 0)).temp))
  | 0x118 => some (wv ((s.node (fld (s.rd thNodeSel) 8 0)).power % 0x100000))
  | 0x120 => some (wv (q88 (s.sensor sel).reading + 0x10000 * q88 (s.sensor sel).residual))
  | 0x124 => some (wv (sensorNode sel % 0x200 + 0x200 * b01 (s.sensor sel).broken))
  | 0x128 => some (wv (broken 0 32))
  | 0x12C => some (wv (broken 32 8))
  | 0x130 => some (wv s.hf.refitFactor)
  | _ => none

/-- Whether the rail that step `d` of R426 takes down, and step 11 − d of R424 brings up, is up. -/
def State.railUp (s : State) (d : Nat) : Bool :=
  match s.hf.pwr with
  | .off | .aux => false
  | .rails => if s.hf.downward then decide (s.hf.step ≤ d) else decide (11 - d < s.hf.step)
  | _ => true

/-- The power-down step of the rail that a phase feeds (R418). -/
def phaseStep (n : Nat) : Nat :=
  if n < 24 then 6 else if n < 26 then 9 else if n < 28 then 7 else if n < 30 then 5 else 8

/-- Whether a phase carries load (R418, R421). -/
def State.phaseOk (s : State) (n : Nat) : Bool := s.railUp (phaseStep n) && !(s.hf.failedPhases.contains n)

def State.viewPwr (s : State) (o : Nat) : Option Word :=
  let h := s.hf
  match o with
  | 0x104 => some (wv (h.pwr.code + 8 * (h.step % 16) + 0x80 * b01 h.downward + 0x100 * (h.latched % 4)))
  | 0x10C => some (wv s.leff)
  | 0x114 => some (wv (h.vcore % 0x400 + 0x10000 * (h.plan.vcoreFloor % 0x400)))
  | 0x120 => some (wv (h.moduleW % 0x10000))
  | 0x124 => some (wv (h.staticW % 0x10000))
  | 0x128 => some (wv ((List.range 32).map fun i => flag (s.phaseOk i) i).sum)
  | _ => none

/-! ## Indicators and pins (R476, R481) -/

/-- What an indicator shows; it blinks at 1 Hz. -/
inductive Led where
  | off
  | blink
  | on
  deriving DecidableEq, Repr

/-- PWR (R481). -/
def State.ledPwr (s : State) : Led :=
  match s.hf.pwr with
  | .off | .aux => .off
  | .ready => .on
  | _ => .blink

/-- FAULT (R481): on while TRIP_LATCHED is set or after a SLICE_LOST since the last entry to AUX, else blinking for 10 s after each ALARM. -/
def State.ledFault (s : State) : Led :=
  if bit (s.rd thStatus) 2 ∨ s.tally.lost then .on
  else if s.tally.lastAlarm.any fun t => decide (s.now < t + 10000000000) then .blink
  else .off

/-- RMV (R481): blinking while a prepare runs, on at READY_TO_REMOVE. -/
def State.ledRmv (s : State) : Led :=
  if s.hf.rmvStep = 4 then .on else if s.hf.rmvStep = 1 ∨ s.hf.rmvStep = 2 ∨ s.hf.rmvStep = 3 then .blink else .off

/-- LOC (R481). -/
def State.ledLoc (s : State) : Led := if bit (s.rd devLedCtrl) 0 then .on else .off

/-- RMV_RDY_N is pulled low (R476, R481). -/
def State.rmvRdyLow (s : State) : Bool := s.ledRmv == .on && s.edge.rmvRdy

/-! ## TALLY and ASSAY (chapter 9) -/

def State.viewTally (s : State) (o : Nat) : Option Word :=
  let t := s.tally
  if 0x120 ≤ o ∧ o < 0x140 then
    some (match t.entries[fld (s.rd tallySel) 15 0]? with
      | some e => wv (e.word ((o - 0x120) / 4))
      | none => 0)
  else match o with
  | 0x104 => some (wv (b01 t.copy0.ok + 2 * b01 t.copy1.ok + 4 * b01 t.merged + 8 * b01 t.full + 16 * b01 t.notFound))
  | 0x108 => some (loW (max t.copy0.seq t.copy1.seq))
  | 0x10C => some (hiW (max t.copy0.seq t.copy1.seq))
  | 0x110 => some (wv t.entries.length)
  | 0x114 => some (wv (t.entries.filter fun e => e.state == 2).length)
  | 0x158 => some (wv t.log.length)
  | _ => none

def State.viewAssay (s : State) (o : Nat) : Option Word :=
  let t := s.tally
  match o with
  | 0x104 => some (match t.current with
      | some d => wv (d.kind % 4 + 4 + 8 * b01 d.forced + 16 * (unitStope d.unit % 0x400))
      | none => 0)
  | 0x124 => some (wv (t.result % 4 + 4 * b01 t.resultPending + 8 * (t.resultCol % 0x100)))
  | _ => none

/-! ## WINDER, RING, STREAM_WIN and SAMPLER (chapter 7) -/

/-- The selected customer's energy in mJ. -/
def State.custMj (s : State) (c : Nat) : Nat := (Table.get 0 s.wnd.custEnergy c / 1000).floor.toNat

/-- CLASS_STATE of a class. -/
def Class.word (c : Class) : Nat :=
  b01 c.admitted + 2 * b01 c.nodl + 4 * b01 c.atRisk + 16 * (c.prio % 8) + 0x80 * (c.kvprot % 4) + 0x200 * (c.parkTarget % 4)

def State.viewWnd (s : State) (o : Nat) : Option Word :=
  let w := s.wnd
  let cust := fld (s.rd wndCustSel) 7 0
  if 0x200 ≤ o ∧ o < 0x600 then
    let i := (o - 0x200) / 16
    let c := s.cls i
    some (match o % 16 with
      | 0 => wv c.word
      | 4 => wv c.bound
      | 8 => wv c.ftBound
      | 12 => wv (s.classOpen i)
      | _ => 0)
  else match o with
  | 0x104 => some (wv (w.roles % 8 + 8 * b01 w.energyHold + 16 * b01 s.forcedNow +
      32 * b01 (s.flyingStreams.any fun i => s.slackBelow i (s.rd wndRiskNs).toNat)))
  | 0x108 => some (wv (w.jobNo % 0x10000))
  | 0x10C => some (wv w.job.ingressDev)
  | 0x110 => some (wv w.job.samplerDev)
  | 0x154 => some (loW (Table.get 0 w.custTokens cust))
  | 0x158 => some (hiW (Table.get 0 w.custTokens cust))
  | 0x15C => some (loW (s.custMj cust))
  | 0x160 => some (hiW (s.custMj cust))
  | _ => none

/-- The event ring that EVR_SEL selects. -/
def State.evrSel (s : State) : Nat := fld (s.rd ringEvrSel) 5 0

def State.viewRing (s : State) (o : Nat) : Option Word :=
  let w := s.wnd
  let r := s.evr s.evrSel
  match o with
  | 0x108 => some (loW w.ctrlBase.toNat)
  | 0x10C => some (hiW w.ctrlBase.toNat)
  | 0x110 => some (wv (w.ctrlSize + 0x1000 * w.ctrlEvr))
  | 0x114 => some (wv (w.ctrlHead + 0x10000 * w.ctrlTail))
  | 0x11C => some (loW r.base.toNat)
  | 0x120 => some (hiW r.base.toNat)
  | 0x124 => some (wv (r.size + 0x10000 * r.vector + 0x8000000 * b01 r.en))
  | 0x128 => some (wv (r.count + 0x100 * r.time))
  | 0x12C => some (wv r.head)
  | 0x130 => some (wv r.tail)
  | 0x138 => some (wv r.held.length)
  | _ => none

/-- A stream's registers, by their offset in the STREAM_WIN page. -/
def State.streamWord (s : State) (i o : Nat) : Word :=
  let t := s.stream i
  let deadline := (t.flying.bind (·.deadline)).getD 0
  let demoted := match t.flying with
    | some fl => fl.demoted
    | none => false
  if 0x140 ≤ o ∧ o < 0x160 then wv (leAt t.digest (o - 0x140) 4)
  else match o with
  | 0x104 => wv (t.state.code + 8 * b01 t.held + 16 * b01 demoted + 32 * b01 t.maskWait + 64 * b01 (s.hasSpilled i) + 128 * b01 t.bank +
      0x100 * (t.cls % 0x40) + 0x4000 * (t.customer % 0x100))
  | 0x108 => loW t.ringBase.toNat
  | 0x10C => hiW t.ringBase.toNat
  | 0x110 => wv (t.ringSize + 0x1000 * t.ringEvr)
  | 0x114 => wv (t.head + 0x10000 * t.tail)
  | 0x118 => loW t.committed
  | 0x11C => hiW t.committed
  | 0x120 => wv t.budget
  | 0x124 => wv t.work.length
  | 0x128 => loW t.genTotal
  | 0x12C => hiW t.genTotal
  | 0x130 => loW deadline
  | 0x134 => hiW deadline
  | 0x160 => loW t.parkLoc.toNat
  | 0x164 => hiW t.parkLoc.toNat
  | _ => 0

/-- The stream that SW_SEL selects. -/
def State.swSelected (s : State) : Nat := fld (s.rd swSel) 19 0

def State.viewSw (s : State) (f o : Nat) : Option Word :=
  if o = 0x100 then none
  else if streamOk s.swSelected && s.ownsStream f s.swSelected then some (s.streamWord s.swSelected o) else some 0

def State.viewSmp (s : State) (o : Nat) : Option Word :=
  match o with
  | 0x104 => some (wv (b01 (bit (s.rd smpCtrl) 0 && s.isSampler)))
  | _ => none

/-! ## KVPAGE, PREFIX and STACK (chapter 6) -/

/-- The staged map word that POSMAP_SEL and the number of the data register name: the stream, the part and the word. -/
def State.posmapAt (s : State) (n : Nat) : Nat × Nat × Nat :=
  let sel := s.rd kvpPosmapSel
  (fld sel 19 0, if bit sel 24 then 16 else fld sel 23 20, n)

def State.posmapWord (s : State) (n : Nat) : Word :=
  let (i, part, w) := s.posmapAt n
  s.stagedWord i part w

def State.viewKvp (s : State) (o : Nat) : Option Word :=
  match o with
  | 0x104 => some (wv (b01 (s.hf.trained != 0 && decide (s.totalFree < fld (s.rd kvpLowWater) 23 0)) + 2 * b01 s.spillingNow + 4 * b01 (!s.kv.pending.isEmpty) +
      8 * b01 s.kv.posBad))
  | 0x10C => some (wv s.totalFree)
  | 0x110 => some (wv s.framesShared)
  | 0x144 => some (s.posmapWord 0)
  | 0x148 => some (s.posmapWord 1)
  | 0x14C => some (s.posmapWord 2)
  | _ => none

def State.viewPfx (s : State) (o : Nat) : Option Word :=
  match o with
  | 0x104 => some (wv (b01 s.treeActive + 2 * b01 (s.treeActive && decide (s.nodeCap ≤ s.kv.nodes.length))))
  | 0x10C => some (wv s.kv.nodes.length)
  | 0x144 => some (match s.pnode s.nodeSel with
      | some n => wv (1 + 2 * b01 n.ready + 4 * b01 n.pinned)
      | none => 0)
  | 0x148 => some (match s.pnode s.nodeSel with
      | some n => wv (n.parent % 0x1000000)
      | none => 0)
  | 0x154 => some (wv (s.kv.nodes.filter fun n => n.2.pinned).length)
  | _ => none

def State.viewStack (s : State) (k o : Nat) : Option Word :=
  match o with
  | 0x104 => some (wv (b01 (bitAt s.hf.trained k) + 2 * b01 s.hf.selfRefresh + 4 * rateOf s.hf.plan.dramRate k))
  | 0x110 => some (wv (s.framesFree k))
  | 0x138 => some (wv (q88 (s.node (256 + k)).temp))
  | _ => none

/-! ## VAULT and SWAP (chapter 8) -/

/-- SLOT_INFO of a slot (R305 to R307, R327). -/
def VSlot.word (v : VSlot) : Nat :=
  let state := if v.staging then 2
    else if v.copy0.isNone && v.copy1.isNone && v.record.isNone then 0
    else if v.ok0 || v.ok1 then 1 else 3
  let size := match v.copy0.or v.copy1 with
    | some sl => cdiv sl.raw.length 0x10000
    | none => 0
  state + 4 * b01 v.ok0 + 8 * b01 v.ok1 + 16 * b01 v.record.isSome + 32 * (size % 0x8000)

/-- The hotter vault die's temperature. -/
def State.vaultTemp (s : State) : Int := max (s.node 264).temp (s.node 265).temp

def State.viewVault (s : State) (o : Nat) : Option Word :=
  let v := s.vslot (fld (s.rd vaultSlotSel) 5 0)
  let gen := match v.record with
    | some r => r.gen.toNat
    | none => 0
  if 0x120 ≤ o ∧ o < 0x140 then
    some (match v.record with
      | some r => wv (leAt r.digest (o - 0x120) 4)
      | none => 0)
  else match o with
  | 0x104 => some (wv (s.hf.vaultOk % 4 + 4 * b01 (s.nodeWithin 264 10 85 && s.nodeWithin 265 10 85) +
      8 * b01 (decide (fld (s.rd vaultParkBudget) 15 0 * 1000000000 ≤ s.parkUsedBytes))))
  | 0x10C => some (wv v.word)
  | 0x110 => some (loW gen)
  | 0x114 => some (hiW gen)
  | 0x144 => some (wv (Config.parkBudgetMax % 0x10000))
  | 0x148 => some (loW (s.parkUsedBytes / 1000000))
  | 0x14C => some (hiW (s.parkUsedBytes / 1000000))
  | 0x164 => some (wv (q88 s.vaultTemp))
  | _ => none

def State.viewSwap (s : State) (o : Nat) : Option Word :=
  let w := s.swap
  match o with
  | 0x104 => some (wv (w.phase.code + 8 * (if w.phase = .idle then 0 else w.mode % 8) + 64 * b01 w.target + 128 * b01 w.copyUsed))
  | 0x11C => some (wv (w.layersDone % 0x200 + 0x10000 * (if w.mode = 4 then s.wnd.job.layers % 0x200 else 0)))
  | _ => none

/-! ## COLL, WINDOW, ADIT and PELIG (chapter 10) -/

/-- A GRP_DATA register of the selected header or member, as staged. -/
def State.grpData (s : State) (n : Nat) : Word :=
  let sel := s.rd collGrpSel
  let (g, j) := grpOf sel
  if bit sel 20 then
    let (m, rank, region) := Table.get (0, 0, 0) s.fab.stagedHdr g
    if n = 0 then wv (m + 0x2000 * rank + 0x2000000 * region) else 0
  else
    let m := Table.get memberNone s.fab.stagedMem (4096 * g + j)
    match n with
    | 0 => wv m.device
    | 1 => wv (m.path + 0x1000 * m.endpoint)
    | _ => m.wbase

def State.viewColl (s : State) (o : Nat) : Option Word :=
  match o with
  | 0x104 => some (wv (s.fab.colls.filter fun c => !c.ended).length)
  | 0x110 => some (s.grpData 0)
  | 0x114 => some (s.grpData 1)
  | 0x118 => some (s.grpData 2)
  | _ => none

def State.viewWindow (s : State) (o : Nat) : Option Word :=
  if 0x140 ≤ o ∧ o < 0x180 then
    let n := (o - 0x140) / 4
    some (wv (fld (s.rd (windowQuota n)) 8 0 + 0x10000 * (s.regionWindows n % 0x200)))
  else match o with
  | 0x100 => some (wv (s.openWindows % 0x200))
  | 0x10C => some (wv s.fab.hold.length)
  | _ => none

def State.viewAdit (s : State) (o : Nat) : Option Word :=
  let a := s.adit s.selEp
  match o with
  | 0x104 => some a.kind
  | 0x108 => some a.peer
  | 0x10C => some a.routeA
  | 0x110 => some a.routeB
  | 0x118 => some (wv (a.state.code + 4 * b01 a.onB + 8 * b01 a.aUp + 16 * b01 a.bUp))
  | 0x11C => some (wv a.boundA)
  | 0x120 => some (wv a.boundB)
  | 0x124 => some (wv a.unacked.length)
  | 0x12C => some (wv (s.fab.adits.filter fun p => p.2.valid).length)
  | _ => none

def State.viewPelig (s : State) (i o : Nat) : Option Word :=
  let p := s.port i
  match o with
  | 0x104 => some (wv (p.state.code + 8 * (p.lanes % 16) + 0x80 * portRole i + 0x200 * (p.version % 0x100) + 0x20000 * b01 p.lanesShort))
  | 0x108 => some (wv (p.peerDev % 0x100000 + 0x100000 * (p.peerPort % 0x20)))
  | 0x10C => some (wv p.rtt)
  | 0x110 => some (wv (p.margin.zipIdx.map fun x => x.1 % 0x100 * 0x100 ^ x.2).sum)
  | 0x114 => some (wv p.replay.length)
  | _ => none

/-! ## SHELL and MERGE (chapter 5) -/

/-- STATE of a core: FENCED while the ISSUE class is in force, WAIT on a BARRIER, CWAIT or WWAIT, RUN with a step, else IDLE (R194). -/
def State.coreState (s : State) (c : Nat) : Nat :=
  let t := s.core c
  if s.coreFenced c 0 then 3
  else if t.issued.any Issued.blocks then 2
  else if t.run.isSome || !t.finishing.isEmpty then 1 else 0

/-- Whether a scoreboard entry lies in operand buffer `b` of merge core `m`. -/
def obUsed (m b : Nat) (e : SbEntry) : Bool := e.space == 2 && decide (obBase m b < e.start + e.len ∧ e.start < obBase m b + 0x4000)

/-- Entries of a core's issue queue in use: a step's is free once every descriptor of it has completed (R153, R194). -/
def Core.stepsIn (t : Core) : Nat := t.queue.length + t.run.toList.length + t.finishing.length

/-- SHELL_STATUS and MERGE_STATUS of a core (R194, R197). -/
def State.coreStatus (s : State) (c : Nat) : Nat :=
  let t := s.core c
  let ob (b : Nat) : Nat := b01 (t.issued.any fun i => i.sb.any (obUsed (c - 256) b))
  s.coreState c + 4 * (t.sbUsed % 0x40) + 0x100 * (t.stepsIn % 0x80) + 0x8000 * b01 (t.reprot.any (· < 16)) + 0x10000 * b01 t.progLost +
    (if c < 256 then 0
     else ((List.range 4).map fun b => 0x20000 * 2 ^ b * ob b).sum + 0x200000 * b01 ((s.core 256).reprot.any (16 ≤ ·)))

def State.viewCore (s : State) (c o : Nat) : Option Word :=
  match o with
  | 0x104 => some (wv (s.coreStatus c))
  | _ => none

/-! ## PLAN, CAL and CHECK (chapters 3, 4 and 9) -/

def State.viewPlan (s : State) (i o : Nat) : Option Word :=
  let t := s.stope i
  match o with
  | 0x104 => some (wv (t.ref.code + 4 * b01 t.bank + 8 * b01 t.switchWait.isSome +
      16 * (t.seqs.zipIdx.map fun q => flag q.1.busy q.2).sum + 0x100 * b01 (!t.heldPush.isEmpty) + 0x200 * t.queue.length))
  | _ => none

/-- Whether a zero end stands that CAL_FULL may use (R129). -/
def State.zeroFresh (s : State) (i : Nat) : Bool :=
  match (s.calc i).zeroDone with
  | some t => decide (s.now ≤ t + 1000000000) && (s.calc i).zeroGains == fld (s.rd (calGains i)) 6 0
  | none => false

/-- CAL_STATUS.STATE (R149): HELD for a command that waits for FENCE, and for a run that a CONVERT fence holds (DEDUCED, log entry 64). -/
def State.calState (s : State) (i : Nat) : Nat :=
  let c := s.calc i
  if c.phase = .idle ∧ c.exclWait.isSome then 4
  else if (c.phase = .zero ∨ c.phase = .full) ∧ !c.excl ∧ s.stopeFenced i 1 then 4
  else c.phase.code

def State.viewCal (s : State) (i o : Nat) : Option Word :=
  let c := s.calc i
  match o with
  | 0x104 => some (wv (s.calState i + 8 * b01 c.excl + 16 * (c.gainValid % 0x80) + 0x800 * (if c.phase = .idle then 0 else c.gains % 0x80) +
      0x40000 * b01 c.heldCmd.isSome + 0x80000 * b01 (s.zeroFresh i) + 0x100000 * b01 c.cmdRefused))
  | 0x184 =>
    let sel := s.rd (calCoefIndex i)
    some (if 74 ≤ fld sel 8 0 ∨ fld sel 19 17 = 7 then 0
          else Table.get 0x4000 (s.stope i).coef (calKey (fld sel 8 0) (fld sel 16 9) (fld sel 19 17)))
  | _ => none

/-- SPARE_MAP's half for one spare. -/
def Spare.word (x : Spare) : Nat := x.target % 0x200 + 0x200 * b01 x.used + 0x400 * b01 x.live

/-- SEAM_STATE of a seam. -/
def Seam.word (g : Seam) : Nat := g.mode.code + (if g.mode = .recon ∨ g.mode = .unprotected then 8 * (g.mac % 0x200) else 0)

/-- The canary word that CANARY_SEL selects. -/
def State.canaryWord (s : State) (i : Nat) : Word :=
  let sel := s.rd (checkCanarySel i)
  let bank := bit sel 15
  if bit sel 14 then Table.get unlearned (s.stope i).canaryRun (canaryRunKey bank (fld sel 7 0))
  else Table.get unlearned (s.stope i).canary (canaryKey bank (fld sel 13 0))

def State.viewCheck (s : State) (i o : Nat) : Option Word :=
  let t := s.stope i
  let seam (k : Nat) : Seam := t.seams.getD k Seam.reset
  if 0x140 ≤ o ∧ o < 0x150 then some (wv (seam ((o - 0x140) / 4)).word)
  else if 0x150 ≤ o ∧ o < 0x160 then some (wv (seam ((o - 0x150) / 4)).tauLast)
  else match o with
  | 0x104 => some (wv (t.spare72.word + 0x10000 * t.spare73.word))
  | 0x114 => some (s.canaryWord i)
  | _ => none

/-! ## MACRO_WIN (R20, R483) -/

/-- The last drift of a macro bank, unsigned Q4.12, rounded down (DESIGN CHOICE, log entry 157). -/
def Stope.lastDrift (t : Stope) (m : Nat) (bank : Bool) : Nat :=
  driftReg ((Table.get [] t.drift (2 * m + b01 bank)).getLastD (0, 0)).2

/-- Whether a spare stands in for a macro. -/
def Stope.spared (t : Stope) (m : Nat) : Bool := (t.spare72.live && t.spare72.target == m) || (t.spare73.live && t.spare73.target == m)

/-- MW_STATE (R483). -/
def State.macroWord (s : State) (i m : Nat) : Nat :=
  let t := s.stope i
  let role := if m < 64 then 0 else if m < 72 then 1 else 2
  (t.bankState m false).code + 4 * (t.bankState m true).code + 16 * role + 64 * b01 (t.spared m) + 128 * b01 (s.isPermanent (unitMacro i m))

def State.viewMw (s : State) (f o : Nat) : Option Word :=
  if o = 0x100 then none
  else
    let a := fld (s.rd mwSel) 18 0
    let i := a / 0x200
    let m := a % 0x200
    if 256 ≤ i ∨ 74 ≤ m ∨ !(s.ownsEp f i) then some 0
    else match o with
    | 0x104 => some (wv (s.macroWord i m))
    | 0x108 => some (wv ((s.stope i).passCount m false))
    | 0x10C => some (wv ((s.stope i).passCount m true))
    | 0x110 => some (wv ((s.stope i).lastDrift m false + 0x10000 * (s.stope i).lastDrift m true))
    | _ => none

/-! ## Reads -/

/-- A register that shows other state, by its page and its offset in it. -/
def State.viewPage (s : State) (f : Nat) (p : Page) (i o : Nat) : Option Word :=
  match p with
  | .dir => s.viewDir f o
  | .dev => s.viewDev f o
  | .hf => s.viewHf o
  | .th => s.viewTh o
  | .pwr => s.viewPwr o
  | .tally => s.viewTally o
  | .assay => s.viewAssay o
  | .time => s.viewTime o
  | .noc => none
  | .wnd => s.viewWnd o
  | .ring => s.viewRing o
  | .smp => s.viewSmp o
  | .kvp => s.viewKvp o
  | .pfx => s.viewPfx o
  | .vault => s.viewVault o
  | .swap => s.viewSwap o
  | .coll => s.viewColl o
  | .window => s.viewWindow o
  | .adit => s.viewAdit o
  | .pelig => s.viewPelig i o
  | .merge => s.viewCore (256 + i) o
  | .stack => s.viewStack i o
  | .sw => s.viewSw f o
  | .mw => s.viewMw f o
  | .shell => s.viewCore i o
  | .plan => s.viewPlan i o
  | .cal => s.viewCal i o
  | .check => s.viewCheck i o

/-- What a read of an offset by function `f` shows, without R6's shadow copies: 0 for an offset that the function's BAR0 does not map
(R455) and for one that is on no row; else the state it shows, or the stored word. -/
def State.view (s : State) (f off : Nat) : Word :=
  if !(s.mapped f off) then 0
  else match pageAt off with
    | none => 0
    | some (p, i) =>
      match if off % 0x1000 < 0x100 then s.viewCommon off else s.viewPage f p i (off % 0x1000) with
      | some w => w
      | none => s.rd (homeOff off)

end Sys2Proof.Machine
end

