-- ==== Sys2Proof/Machine/HostWrite.lean ====
section
/-! DEFINITION. What a write of any register does (R6 to R10, R42, R455 to R457), page by page, and the reads and writes of 64-bit pairs.
A register whose write starts something goes to the same operation as that write's own command. -/

namespace Sys2Proof.Machine

/-! ## 64-bit pairs (R6) -/

/-- The offsets in its page of the low words of a page's 64-bit counters and addresses. Masks of two words and the margin plan's words
are no pairs. -/
def Page.pairs : Page → List Nat
  | .dev => [0x124]
  | .hf => [0x120, 0x128]
  | .pwr => [0x130]
  | .tally => [0x108, 0x140]
  | .assay => [0x128]
  | .time => [0x108, 0x11C]
  | .wnd => [0x130, 0x148, 0x154, 0x15C]
  | .ring => [0x108, 0x11C, 0x140]
  | .smp => [0x10C, 0x120]
  | .kvp => [0x120]
  | .pfx => [0x110, 0x118, 0x120, 0x128]
  | .vault => [0x110, 0x148, 0x150]
  | .swap => [0x108, 0x140, 0x148]
  | .coll => [0x120]
  | .window => [0x110]
  | .pelig => [0x120, 0x128]
  | .merge | .shell => [0x138, 0x150]
  | .stack => [0x120, 0x128]
  | .sw => [0x108, 0x118, 0x128, 0x130, 0x160]
  | .plan => [0x120, 0x128, 0x130, 0x138]
  | .cal => [0x110]
  | .dir | .th | .noc | .adit | .mw | .check => []

/-- Whether an offset is the low word of a 64-bit pair. -/
def isLow (off : Nat) : Bool :=
  match pageAt off with
  | some (p, _) => p.pairs.contains (off % 0x1000)
  | none => false

/-- Whether an offset is the high word of a 64-bit pair. -/
def isHigh (off : Nat) : Bool := decide (4 ≤ off) && isLow (off - 4)

/-- The key of a function's shadow copy or held low word: the pairs of one function's view of BAR0 (64 MiB, R451) stand apart from another's
(DEDUCED, log entry 128). -/
def pairKey (f off : Nat) : Nat := f * 0x4000000 + off

/-- A read by function `f` (R6): the low word of a pair latches the high word into the shadow copy, which the next read of the high word
returns; every other read leaves the machine as it is. -/
def State.readReg (s : State) (f off : Nat) : Word × State :=
  if isLow off && s.mapped f off then
    (s.view f off, { s with edge := { s.edge with shadowHi := Table.put s.edge.shadowHi (pairKey f off) (s.view f (off + 4)) } })
  else if isHigh off && s.mapped f off then
    (match s.edge.shadowHi.find? fun p => p.1 == pairKey f (off - 4) with
     | some p => (p.2, { s with edge := { s.edge with shadowHi := Table.del s.edge.shadowHi (pairKey f (off - 4)) } })
     | none => (s.view f off, s))
  else (s.view f off, s)

/-- Where a pair's committed value goes (R251, R260, R266, R329). The RSV bits of a ring's base are 0. -/
def State.setPair (s : State) (f lo v : Nat) : State :=
  let base : DWord := BitVec.ofNat 64 (v / 64 * 64)
  if lo = ringCtrlRingLo then { s with wnd := { s.wnd with ctrlBase := base, ctrlFn := f } }
  else if lo = ringEvrBaseLo then
    if (s.evr s.evrSel).en then s else s.setEvr s.evrSel { s.evr s.evrSel with base := base, fn := f }
  else if lo = swRingLo then
    let i := s.swSelected
    if streamOk i ∧ s.ownsStream f i ∧ (s.stream i).state = .free then
      (s.updStream i fun t => { t with ringBase := base, fn := f }).claim f i
    else s
  else if lo = swapSrcLo then s.wr64 swapSrcLo v
  else s

/-- The low word of a pair is written: the value is held (R6). A read-only pair ignores it (R7). -/
def State.holdLow (s : State) (f off : Nat) (v : Word) : State :=
  if (regFields off).isEmpty then s else
  { s with edge := { s.edge with heldLo := Table.put s.edge.heldLo (pairKey f off) v } }

/-- The high word of a pair is written: both words are committed at once, the low one as held, or as it stands (R6). -/
def State.commitHigh (s : State) (f off : Nat) (v : Word) : State :=
  let lo := match s.edge.heldLo.find? fun p => p.1 == pairKey f (off - 4) with
    | some p => p.2
    | none => s.view f (off - 4)
  let s := { s with edge := { s.edge with heldLo := Table.del s.edge.heldLo (pairKey f (off - 4)) } }
  s.setPair f (off - 4) (v.toNat * 0x100000000 + lo.toNat)

/-! ## Fields kept in the state's own structures -/

/-- The word that a write of `v` makes of a register that now reads `old` (R7, R10), with RG_WRITE where it sets. -/
def State.fieldsOf (s : State) (f off : Nat) (old v : Word) : Word × State :=
  let (w, rg) := writeFields (regFields off) old v
  (w, if rg then s.rgWrite f (pageBase off) else s)

/-- PAGE_CTRL written (R457). -/
def State.pageCtrlWrite (s : State) (f off : Nat) (v : Word) : State :=
  let s := s.pageEnable f off (bit v 0)
  let s := if bit v 1 then s.askQuiesce off else s.dropQuiesce off
  if bit v 2 then s.hostFence off else s.hostUnfence off

/-- The size and event ring of CTRL_RING_CFG or SW_RING_CFG. -/
def State.ctrlCfgWrite (s : State) (f : Nat) (v : Word) : State :=
  let (w, s) := s.fieldsOf f ringCtrlRingCfg (wv (s.wnd.ctrlSize + 0x1000 * s.wnd.ctrlEvr)) v
  { s with wnd := { s.wnd with ctrlSize := fld w 11 0, ctrlEvr := fld w 17 12, ctrlFn := f } }

def State.swCfgWrite (s : State) (f : Nat) (v : Word) : State :=
  let i := s.swSelected
  let t := s.stream i
  if streamOk i ∧ s.ownsStream f i ∧ t.state = .free then
    let (w, s) := s.fieldsOf f swRingCfg (wv (t.ringSize + 0x1000 * t.ringEvr)) v
    (s.updStream i fun t => { t with ringSize := fld w 11 0, ringEvr := fld w 17 12, fn := f }).claim f i
  else s

/-- Entries of a function's MSI-X table (R452). -/
def msixSize (f : Nat) : Nat := if f = 0 then 2048 else 128

/-- EVR_CFG of the selected ring (R260, R452): SIZE stays while EN is 1, VECTOR where the function's table ends. -/
def State.evrCfgWrite (s : State) (f : Nat) (v : Word) : State :=
  let i := s.evrSel
  let r := s.evr i
  let (w, s) := s.fieldsOf f ringEvrCfg (wv (r.size + 0x10000 * r.vector + 0x8000000 * b01 r.en)) v
  let vector := if fld w 26 16 < msixSize f then fld w 26 16 else r.vector
  s.setEvr i { r with size := if r.en then r.size else fld w 15 0, vector := vector, en := bit w 27, fn := f }

def State.evrModWrite (s : State) (v : Word) : State :=
  s.setEvr s.evrSel { s.evr s.evrSel with count := fld v 7 0, time := fld v 23 8 }

/-- A staged position-map word (R243): of a header, DIMS and NSEG alone of its second word, and nothing of its third. -/
def State.posmapWrite (s : State) (n : Nat) (v : Word) : State :=
  let (i, part, w) := s.posmapAt n
  let v := if part ≠ 16 ∨ n = 0 then v else if n = 1 then v &&& 0x1FFF else 0
  let m := Table.get { words := [] } s.kv.stagedMaps i
  { s with kv := { s.kv with
      stagedMaps := Table.set { words := [] } s.kv.stagedMaps i { words := Table.set 0 m.words (4 * part + w) v } } }

/-- LOW_WATER or HIGH_WATER (R242): a write that leaves HIGH_WATER at or below LOW_WATER changes neither. -/
def State.waterWrite (s : State) (f off : Nat) (v : Word) : State :=
  let t := s.storeReg f off v
  if fld (t.rd kvpHighWater) 23 0 ≤ fld (t.rd kvpLowWater) 23 0 then s else t

/-- A GRP_DATA register of the selected header or member (R408). -/
def State.grpDataWrite (s : State) (n : Nat) (v : Word) : State :=
  let sel := s.rd collGrpSel
  let (g, j) := grpOf sel
  if bit sel 20 then
    if n = 0 then
      let h := (fld v 12 0, fld v 24 13, fld v 28 25)
      { s with fab := { s.fab with stagedHdr := Table.set (0, 0, 0) s.fab.stagedHdr g h } }
    else s
  else
    let m := Table.get memberNone s.fab.stagedMem (4096 * g + j)
    let x : Member := match n with
      | 0 => { m with device := fld v 19 0 }
      | 1 => { m with path := fld v 11 0, endpoint := fld v 23 12 }
      | _ => { m with wbase := v }
    { s with fab := { s.fab with stagedMem := Table.set memberNone s.fab.stagedMem (4096 * g + j) x } }

/-- WIN_QUOTA (R417): a value above 256, or that would bring the sum of all above 256, leaves the register. -/
def State.quotaWrite (s : State) (f off : Nat) (v : Word) : State :=
  let t := s.storeReg f off v
  if 256 < ((List.range 16).map fun n => fld (t.rd (windowQuota n)) 8 0).sum then s else t

/-- A word of the selected path endpoint (R416). -/
def State.aditWordWrite (s : State) (f off : Nat) (v : Word) : State :=
  let ep := s.selEp
  let a := s.adit ep
  let o := off - aditKind
  let old := if o = 0 then a.kind else if o = 4 then a.peer else if o = 8 then a.routeA else a.routeB
  let (w, s) := s.fieldsOf f off old v
  s.setAdit ep (if o = 0 then { a with kind := w } else if o = 4 then { a with peer := w }
    else if o = 8 then { a with routeA := w } else { a with routeB := w })

/-- ADIT_CMD (R416): COMMIT, then REVERT, then DISABLE, for the bits that are set. -/
def State.aditCmdWrite (s : State) (v : Word) : State :=
  let s := if bit v 0 then s.aditCommitSel else s
  let s := if bit v 1 then s.revertSel else s
  if bit v 2 then s.disableSel else s

/-- PORT_CTRL (R415): with ENABLE 0 the port goes down and stays down. -/
def State.portCtrlWrite (s : State) (p : Nat) (v : Word) : State :=
  let s := (s.wrBit (peligCtrl p) 0 (bit v 0)).wrBit (peligCtrl p) 1 (bit v 1)
  let s := s.laneOff p (fld v 6 3)
  if !(bit v 0) then
    if (s.port p).isUp then s.linkDown p
    else if (s.port p).state = .training then s.updPort p fun t => { t with state := .down, since := s.now } else s
  else if bit v 2 then s.retrainPort p else s

/-- SHELL_CTRL or MERGE_CTRL of a core (R195, R197). -/
def State.coreCtrlWrite (s : State) (f c : Nat) (v : Word) : State :=
  let s := s.storeReg f (coreBase c + 0x100) v
  if bit v 1 then s.progReload c else s

/-- COUNTER i of a core: a wait that the value meets ends (R190). -/
def State.counterWrite (s : State) (c k : Nat) (v : Word) : State := (s.wr (coreCounter c k) v).wakeCounter c k

/-- CANARY_DATA (R375): writable only while CANARY_MODE is OFF. -/
def State.canaryDataWrite (s : State) (i : Nat) (v : Word) : State :=
  let sel := s.rd (checkCanarySel i)
  let bank := bit sel 15
  if s.canaryMode i ≠ 0 then s
  else s.updStope i fun t =>
    if bit sel 14 then { t with canaryRun := Table.set unlearned t.canaryRun (canaryRunKey bank (fld sel 7 0)) v }
    else { t with canary := Table.set unlearned t.canary (canaryKey bank (fld sel 13 0)) v }

/-- PFX_CTRL, NODE_CMD and NODE_FRAMES (R236, R244). -/
def State.pfxWrite (s : State) (f o : Nat) (v : Word) : Option State :=
  match o with
  | 0x100 => some (if bit v 0 then s.pfxEnableNow f v else s.pfxDisableNow v)
  | 0x108 => if bit (s.rd pfxCtrl) 0 then some s else none
  | 0x14C =>
    let s := if bit v 0 then s.pinNode true else s
    some (if bit v 1 then s.pinNode false else s)
  | 0x150 => some (s.nodeFindWrite f v)
  | _ => none

/-! ## Pages -/

/-- Registers of the headframe's pages whose write is more than a store. -/
def State.writeDev (s : State) (f o : Nat) (v : Word) : Option State :=
  match o with
  | 0x110 => some (s.updFn f fun t => { t with abiHost := v &&& 0xFFFF })
  | 0x114 => some (if bit v 0 then s.negotiateWrite f else s)
  | 0x11C => some (s.rmvWrite f v)
  | 0x130 => if f = 0 then none else some s
  | _ => none

def State.writeNoc (s : State) (f off : Nat) (v : Word) : Option State :=
  let o := off % 0x1000
  if o < 0x200 ∨ 0x300 ≤ o then none
  else some (if o % 16 = 0 then s.geomWrite f ((o - 0x200) / 16) v else s.stageRegionWord off v)

def State.writeRing (s : State) (f o : Nat) (v : Word) : Option State :=
  match o with
  | 0x100 => some (s.doorbell f v)
  | 0x104 => some (s.ringResetWrite f v)
  | 0x110 => some (s.ctrlCfgWrite f v)
  | 0x124 => some (s.evrCfgWrite f v)
  | 0x128 => some (s.evrModWrite v)
  | 0x12C => some (s.evrHeadWrite f v)
  | 0x134 => some (s.resetEvr (fld v 5 0))
  | _ => none

def State.writeKvp (s : State) (f off : Nat) (v : Word) : Option State :=
  match off % 0x1000 with
  | 0x114 | 0x118 => some (s.waterWrite f off v)
  | 0x144 => some (s.posmapWrite 0 v)
  | 0x148 => some (s.posmapWrite 1 v)
  | 0x14C => some (s.posmapWrite 2 v)
  | 0x150 => some (if bit v 0 then s.commitMap f (bit v 1) else s)
  | _ => none

def State.writeSwap (s : State) (f o : Nat) (v : Word) : Option State :=
  match o with
  | 0x100 => some (s.swapCmdWrite f v noSlice)
  | 0x110 =>
    let s := if bit v 0 then s.commitWrite f else s
    some (if bit v 1 then s.commitAbort f else s)
  | _ => none

def State.writeColl (s : State) (o : Nat) (v : Word) : Option State :=
  match o with
  | 0x110 => some (s.grpDataWrite 0 v)
  | 0x114 => some (s.grpDataWrite 1 v)
  | 0x118 => some (s.grpDataWrite 2 v)
  | 0x11C => some (if bit v 0 then s.grpCommitSel else s)
  | _ => none

def State.writeAdit (s : State) (f off : Nat) (v : Word) : Option State :=
  match off % 0x1000 with
  | 0x104 | 0x108 | 0x10C | 0x110 => some (s.aditWordWrite f off v)
  | 0x114 => some (s.aditCmdWrite v)
  | _ => none

/-- SHELL and MERGE pages, by core. -/
def State.writeCore (s : State) (f c o : Nat) (v : Word) : Option State :=
  if 0x200 ≤ o ∧ o < 0x280 then some (s.counterWrite c ((o - 0x200) / 4) v)
  else if c < 256 ∧ 0x180 ≤ o ∧ o < 0x1A0 then some (s.redgrpWrite f c ((o - 0x180) / 4) v)
  else match o with
  | 0x100 => some (s.coreCtrlWrite f c v)
  | 0x10C => some (s.protWrite f c v)
  | 0x158 => if c < 256 then none else some (s.poolGrantWrite f (c - 256) 0 v)
  | 0x15C => if c < 256 then none else some (s.poolGrantWrite f (c - 256) 1 v)
  | 0x160 => if c < 256 then none else some (s.poolProtWrite f (c - 256) 0 v)
  | 0x164 => if c < 256 then none else some (s.poolProtWrite f (c - 256) 1 v)
  | 0x168 => if c < 256 then none else some (s.poolRoWrite f (c - 256) 0 v)
  | 0x16C => if c < 256 then none else some (s.poolRoWrite f (c - 256) 1 v)
  | _ => none

def State.writePlan (s : State) (f i o : Nat) (v : Word) : Option State :=
  if 0x400 ≤ o then
    let n := (o - 0x400) / 0x80
    let d := (o - 0x400) % 0x80
    if d = 0 then some (s.slotCommit f i n v)
    else if 0x10 ≤ d ∧ d < 0x50 then some (s.entryWrite f i n ((d - 0x10) / 4) v)
    else none
  else if o = 0x100 then some (s.planCtrlWrite f i v)
  else none

def State.writeCal (s : State) (f i o : Nat) (v : Word) : Option State :=
  match o with
  | 0x100 => some (s.calCmdWrite f i v)
  | 0x108 => some (s.calGainsWrite f i v)
  | _ => none

def State.writeCheck (s : State) (f i o : Nat) (v : Word) : Option State :=
  match o with
  | 0x100 => some (s.checkCtrlWrite f i v)
  | 0x108 => some ((s.storeReg f (checkTauMult i) v).retau i)
  | 0x114 => some (s.canaryDataWrite i v)
  | _ => none

/-- A write that is more than a store of the register's fields: what it does, by page. -/
def State.writePage (s : State) (f : Nat) (p : Page) (i off : Nat) (v : Word) : Option State :=
  let o := off % 0x1000
  match p with
  | .dir => if o = 0x104 then some (s.updFn f fun t => { t with dirSel := fld v 11 0 }) else none
  | .dev => s.writeDev f o v
  | .hf => if o = 0x100 then some (s.hfCtrlWrite f v) else if o = 0x130 then some (s.calIntWrite f v) else none
  | .th => if o = 0x100 then some (s.thCtrlWrite f v) else none
  | .pwr => if o = 0x100 then some (s.pwrReqWrite f v) else if o = 0x108 then some (s.pwrLimitWrite f v) else none
  | .tally => if o = 0x100 then some (s.tallyCtrlWrite f v) else if o = 0x11C then some (s.tallyFindWrite f v) else none
  | .assay => if o = 0x11C then some (s.assayCmdWrite f v) else none
  | .time => if o = 0x100 then some (s.timeCtrlWrite f v) else none
  | .noc => s.writeNoc f off v
  | .ring => s.writeRing f o v
  | .kvp => s.writeKvp f off v
  | .pfx => s.pfxWrite f o v
  | .vault => if o = 0x140 ∧ Config.parkBudgetMax < fld v 15 0 then some s else none
  | .swap => s.writeSwap f o v
  | .coll => s.writeColl o v
  | .window => if 0x140 ≤ o ∧ o < 0x180 then some (s.quotaWrite f off v) else none
  | .adit => s.writeAdit f off v
  | .pelig => if o = 0x100 then some (s.portCtrlWrite i v) else none
  | .merge => s.writeCore f (256 + i) o v
  | .sw => if o = 0x110 then some (s.swCfgWrite f v) else none
  | .shell => s.writeCore f i o v
  | .plan => s.writePlan f i o v
  | .cal => s.writeCal f i o v
  | .check => s.writeCheck f i o v
  | .wnd | .smp | .stack | .mw => none

/-- A write of `v` to an offset by function `f` (R7, R42, R455, R457): ignored where the function may not write; a pair's low word held,
its high word committed (R6); PAGE_CTRL, ERR_INJECT and the registers above do what they do; any other register takes its fields. -/
def State.hostWrite (s : State) (f off : Nat) (v : Word) : State :=
  if !(s.mayWrite f off) then s
  else match pageAt off with
  | none => s
  | some (p, i) =>
    if off % 0x1000 < 0x100 then
      if off % 0x1000 = 0x00C then s.pageCtrlWrite f off v
      else if off % 0x1000 = 0x01C then s.errInject f off v
      else s.storeReg f off v
    else if isLow off then s.holdLow f off v
    else if isHigh off then s.commitHigh f off v
    else match s.writePage f p i off v with
    | some t => t
    | none => s.storeReg f off v

/-- REGISTER_WRITE (R7). -/
def execRegisterWrite (f off : Nat) (v : Word) (s : State) : Host.Outcome State Fault Refusal := .next (s.hostWrite f off v)

/-- REG64_LOW_READ (R6): the high word is latched; at an offset that is no pair's low word there is nothing to latch. -/
def execReg64LowRead (f off : Nat) (s : State) : Host.Outcome State Fault Refusal :=
  .next (if isLow off then (s.readReg f off).2 else s)

/-- REG64_LOW_WRITE (R6). -/
def execReg64LowWrite (f off : Nat) (v : Word) (s : State) : Host.Outcome State Fault Refusal :=
  .next (if isLow off && s.mayWrite f off then s.holdLow f off v else s)

/-- REG64_HIGH_WRITE (R6). -/
def execReg64HighWrite (f off : Nat) (v : Word) (s : State) : Host.Outcome State Fault Refusal :=
  .next (if isHigh off && s.mayWrite f off then s.commitHigh f off v else s)

end Sys2Proof.Machine
end

