-- ==== Sys2Proof/Machine/Ring.lean ====
section
/-! DEFINITION. The management ring (R461 to R468): forwarding, the acceptance of frames, and what each class of frame does. Every frame
that arrives goes through one operation, whichever command brings it. -/

namespace Sys2Proof.Machine

/-- The device number of a frame for all (R462). -/
def ringAll : Nat := 0xFFFFF

/-! ## Forwarding and acceptance (R465) -/

/-- Whether a frame is forwarded (R465). -/
def State.forwards (s : State) (m : RingMsg) : Bool :=
  s.edge.bypass == 3 && m.src != s.edge.devId && decide (2 ≤ m.ttl) && m.dst != s.edge.devId

/-- A frame goes on out of the other port, with TTL reduced (R465). -/
def State.ringForward (s : State) (m : RingMsg) : State :=
  if s.forwards m then
    let port := 1 - m.port
    { s with edge := { s.edge with tx := s.edge.tx ++ [{ port := port, msg := { m with port := port, ttl := m.ttl - 1 } }] } }
  else s

/-- Whether a frame is the first copy, by the source's highest SEQ (kept one higher, 0 for none) and the bitmap of the 64 below it; and the
pair after it (R465). A SEQ further below counts as a source that has started anew (DEDUCED, log entry 50). -/
def hear (seen : Nat × Nat) (seq : Nat) : Bool × (Nat × Nat) :=
  let (h, bm) := seen
  if h = 0 then (true, (seq + 1, 0))
  else if h ≤ seq then
    let d := seq + 1 - h
    (true, (seq + 1, ((bm * 2 + 1) * 2 ^ (d - 1)) % 2 ^ 64))
  else if seq + 1 = h then (false, seen)
  else
    let k := h - 2 - seq
    if 64 ≤ k then (true, (seq + 1, 0))
    else if bitAt bm k then (false, seen) else (true, (h, bm + 2 ^ k))

/-- A frame is tracked: whether it is new, and the machine with its SEQ noted (R465). -/
def State.hearFrame (s : State) (m : RingMsg) : Bool × State :=
  let r := hear (Table.get (0, 0) s.edge.seen m.src) m.seq
  (r.1, { s with edge := { s.edge with seen := Table.set (0, 0) s.edge.seen m.src r.2 } })

/-! ## HELLO and ACK (R463, R466, R468, R473) -/

/-- A HELLO (R463; the layout is log entry 51): the neighbour on the port, RING_BYPASS when it has changed; from the rack controller also
RING_VER, which the module's range, version 1 alone, holds or does not (R468). The neighbour that a changed one replaces is gone from the ring
(R405; DEDUCED, log entry 164). -/
def State.helloIn (s : State) (m : RingMsg) : State :=
  if m.src = rackController ∧ 8 ≤ m.payload.length then
    let ver := beAt m.payload 7 1
    let s := { s with edge := { s.edge with ringVer := ver } }
    if ver = 1 then s else s.updFn 0 fun t => { t with refuse := rAbiMismatch }
  else
    let dev := beAt m.payload 0 4 % 0x100000
    let was := Table.get 0 s.edge.neighbours m.port
    let s := { s with edge := { s.edge with neighbours := Table.set 0 s.edge.neighbours m.port (dev + 1) } }
    if was ≠ 0 ∧ was ≠ dev + 1 then (s.report causeRingBypass 0 dev epHeadframe none).ringGone (was - 1) else s

/-- An ACK (R463, R466): the alarm frames that it names need no resending, and waiting alarms go. -/
def State.ackIn (s : State) (m : RingMsg) : State :=
  let seqs := (chunks 4 m.payload).map ofBe
  let left := s.edge.alarms.filter fun a => !(seqs.contains a.2.seq)
  let freed := s.edge.alarms.length - left.length
  let s := { s with edge := { s.edge with alarms := left } }
  s.each (List.range freed) fun s _ => s.flushAlarms

/-! ## Replies -/

/-- A reply leaves when the module drives the ring (R468, R472). -/
def State.ringReply (s : State) (cls typ dst : Nat) (payload : List Byte) : State :=
  if s.ringOn then s.ringSend (s.ringMsg cls typ dst false payload) else s

/-- LOG PULL (R463): the records from the named time on, 45 to a frame; with none, one frame without records (DESIGN CHOICE, log
entry 57). -/
def State.logPullIn (s : State) (m : RingMsg) : State :=
  let oldest := beAt m.payload 0 8
  let rs := s.tally.log.filter fun r => decide (oldest ≤ r.time)
  let frames := if rs.isEmpty then [[]] else chunks 45 rs
  s.each frames fun s l => s.ringReply 4 2 m.src (l.flatMap Report.bytes)

/-- POWER STATUS (R463): PWR_STATUS goes back. -/
def State.powerStatusIn (s : State) (m : RingMsg) : State := s.ringReply 6 4 m.src (beBytes 4 (s.view 0 pwrStatus).toNat)

/-- REMOVE STATUS (R463). -/
def State.removeStatusIn (s : State) (m : RingMsg) : State := if s.ringOn then s.removeStatusTo m.src else s

/-! ## REG (R464, R467) -/

/-- Whether an offset answers: in AUX the headframe's pages alone (R467). -/
def State.regAnswers (s : State) (off : Nat) : Bool := s.hf.pwr != .aux || auxPage off

/-- The register in which a page records the refusal of a write (R15), outside the DEVICE page. -/
def refuseReg (off : Nat) : Option Nat :=
  match pageAt off with
  | some (.pwr, _) => some pwrLastRefuse
  | some (.assay, _) => some assayLastFault
  | some (.noc, _) => some nocLastRefuse
  | some (.wnd, _) => some wndLastRefuse
  | some (.ring, _) => some ringLastRefuse
  | some (.kvp, _) => some kvpLastRefuse
  | some (.pfx, _) => some pfxLastRefuse
  | some (.vault, _) => some vaultLastRefuse
  | some (.swap, _) => some swapLastRefuse
  | some (.coll, _) => some collLastRefuse
  | some (.adit, _) => some aditLastRefuse
  | some (.pelig, i) => some (peligLastRefuse i)
  | some (.merge, i) => some (coreLastRefuse (256 + i))
  | some (.shell, i) => some (coreLastRefuse i)
  | some (.plan, i) => some (planRefuse i)
  | _ => none

/-- A write by the ring with the code of its refusal, or NONE: the one that the write itself leaves in the page's register (R15, R464). -/
def State.codedWrite (s : State) (off : Nat) (v : Word) : Nat × State :=
  match refuseReg off with
  | some r =>
    let t := (s.wr r 0).hostWrite 0 off v
    let code := fld (t.rd r) 15 0
    if code = 0 then (rNone, t.wr r (s.rd r)) else (code, t)
  | none =>
    let old := (s.fn 0).refuse
    let t := (s.updFn 0 fun t => { t with refuse := rNone }).hostWrite 0 off v
    if off = devRmvCtrl ∧ bit v 0 then (t.hf.rmvCode, t.updFn 0 fun t => { t with refuse := old })
    else if (t.fn 0).refuse = rNone then (rNone, t.updFn 0 fun t => { t with refuse := old })
    else ((t.fn 0).refuse, t)

/-- One pair of a READ or WRITE: its reply record, and the machine after it (R464, R467). -/
def State.regPair (s : State) (write : Bool) (off : Nat) (v : Word) : List Byte × State :=
  let rec_ (value : Word) (code : Nat) : List Byte := beBytes 4 off ++ beBytes 4 value.toNat ++ beBytes 2 code ++ [0, 0]
  if !(s.regAnswers off) then (rec_ 0 (if write then rCapacity else rNone), s)
  else if write then
    let (code, t) := s.codedWrite off v
    (rec_ (t.view 0 off) code, t)
  else
    let (w, t) := s.readReg 0 off
    (rec_ w rNone, t)

/-- The pairs one after another. -/
def State.regPairs (s : State) (write : Bool) : List (Nat × Word) → List (List Byte) × State
  | [] => ([], s)
  | (off, v) :: rest =>
    let (b, t) := s.regPair write off v
    let (bs, u) := t.regPairs write rest
    (b :: bs, u)

/-- The pairs of a payload: offset and value, big-endian. -/
def pairsOf (payload : List Byte) : List (Nat × Word) := (chunks 8 payload).map fun b => (beAt b 0 4, BitVec.ofNat 32 (beAt b 4 4))

/-- A REPLY frame: the request's SEQ, FIRST, COUNT and the records (R464). -/
def replyPayload (seq first : Nat) (recs : List (List Byte)) : List Byte :=
  beBytes 4 seq ++ beBytes 2 first ++ beBytes 2 recs.length ++ recs.flatten

/-- REG READ or WRITE (R464): 1 to 180 pairs, answered in one or two REPLY frames of at most 121 records. Another payload is no request
(DEDUCED, log entry 58). -/
def State.regIn (s : State) (write : Bool) (m : RingMsg) : State :=
  let ps := pairsOf m.payload
  if m.payload.length % 8 ≠ 0 ∨ ps.length = 0 ∨ 180 < ps.length then s
  else
    let (recs, s) := s.regPairs write ps
    let s := s.ringReply 7 3 m.src (replyPayload m.seq 0 (recs.take 121))
    if 121 < recs.length then s.ringReply 7 3 m.src (replyPayload m.seq 121 (recs.drop 121)) else s

/-! ## Every frame -/

/-- Whether a frame is one that only the rack controller may send: POWER, REG, REMOVE, LOG PULL (R467). -/
def commanding (m : RingMsg) : Bool := m.cls == 6 || m.cls == 7 || m.cls == 8 || (m.cls == 4 && m.typ == 1)

/-- Whether the module acts on such a frame (R467). -/
def obeyed (m : RingMsg) : Bool := m.src == rackController && (m.cls == 6 || m.dst != ringAll)

/-- What an obeyed frame does, by its class and type (R423, R453, R463, R478, R479). -/
def State.obey (s : State) (m : RingMsg) : State :=
  match m.cls, m.typ with
  | 4, 1 => s.logPullIn m
  | 6, 1 => s.latchUp
  | 6, 2 => s.latchDown
  | 6, 3 => s.moduleReset
  | 6, 4 => s.powerStatusIn m
  | 7, 1 => s.regIn false m
  | 7, 2 => s.regIn true m
  | 8, 1 => s.rmvPrepare false
  | 8, 2 => s.rmvPrepare true
  | 8, 3 => s.rmvCancelNow
  | 8, 4 => s.removeStatusIn m
  | _, _ => s

/-- What a new frame does at this module (R463, R467, R468). -/
def State.frameAct (s : State) (m : RingMsg) : State :=
  if m.cls = 1 then s.helloIn m
  else if m.dst ≠ s.edge.devId ∧ m.dst ≠ ringAll then s
  else if s.edge.ringVer ≠ 1 then s.inc devRingDiscardCount 1
  else if m.cls = 2 then s.ackIn m
  else if commanding m then (if obeyed m then s.obey m else s.inc devRingDiscardCount 1)
  else s

/-- A frame arrives (R465): in every state from AUX on it is forwarded, and its first copy acts. -/
def State.ringFrame (s : State) (m : RingMsg) : State :=
  if s.hf.pwr = .off then s
  else
    let s := s.ringForward m
    if m.src = s.edge.devId then s
    else
      let r := s.hearFrame m
      if r.1 then r.2.frameAct m else r.2

/-- A frame of a class and type, brought by its own command. -/
def State.frameOf (s : State) (cls typ : Nat) (m : RingMsg) : State := if m.cls = cls ∧ m.typ = typ then s.ringFrame m else s

/-! ## Commands -/

/-- RING_FRAME_FORWARD (R465). -/
def execRingFrameForward (m : RingMsg) (s : State) : Host.Outcome State Fault Refusal := .next (s.ringFrame m)

/-- HELLO (R463, R468, R473). -/
def execHello (m : RingMsg) (s : State) : Host.Outcome State Fault Refusal := .next (if m.cls = 1 then s.ringFrame m else s)

/-- HELLO_TIMER (R463): every 100 ms, while the module drives its ports. -/
def execHelloTimer (s : State) : Host.Outcome State Fault Refusal :=
  .next (if s.edge.bypass = 3 ∧ s.edge.lastHello + 100000000 ≤ s.now then s.sendHellos else s)

/-- ACK (R466). -/
def execAck (m : RingMsg) (s : State) : Host.Outcome State Fault Refusal := .next (if m.cls = 2 then s.ringFrame m else s)

/-- An unacknowledged alarm frame leaves again, with the same SEQ, and is counted (R466). -/
def State.resendAlarm (s : State) (m : RingMsg) : State :=
  let outs : List RingOut := [{ port := 0, msg := m }, { port := 1, msg := { m with port := 1 } }]
  let edge := { s.edge with tx := s.edge.tx ++ outs }
  ({ s with edge := edge }).inc devRingRetxCount 1

/-- ALARM_RESEND (R466): every alarm frame sent 2 ms ago or earlier. -/
def execAlarmResend (s : State) : Host.Outcome State Fault Refusal :=
  .next (
    if !s.ringOn then s
    else
      let old (a : Nat × RingMsg) : Bool := decide (a.1 + 2000000 ≤ s.now)
      let due := s.edge.alarms.filter old
      let alarms := s.edge.alarms.map fun a => if old a then (s.now, a.2) else a
      ({ s with edge := { s.edge with alarms := alarms } }).each due fun s a => s.resendAlarm a.2)

/-- LOG_PULL (R463). -/
def execLogPull (m : RingMsg) (s : State) : Host.Outcome State Fault Refusal := .next (s.frameOf 4 1 m)

/-- POWER_UP_MSG (R423). -/
def execPowerUpMsg (m : RingMsg) (s : State) : Host.Outcome State Fault Refusal := .next (s.frameOf 6 1 m)

/-- POWER_DOWN_MSG (R423). -/
def execPowerDownMsg (m : RingMsg) (s : State) : Host.Outcome State Fault Refusal := .next (s.frameOf 6 2 m)

/-- POWER_RESET_MSG (R453). -/
def execPowerResetMsg (m : RingMsg) (s : State) : Host.Outcome State Fault Refusal := .next (s.frameOf 6 3 m)

/-- POWER_STATUS_MSG (R463). -/
def execPowerStatusMsg (m : RingMsg) (s : State) : Host.Outcome State Fault Refusal := .next (s.frameOf 6 4 m)

/-- REG_READ (R464). -/
def execRegRead (m : RingMsg) (s : State) : Host.Outcome State Fault Refusal := .next (s.frameOf 7 1 m)

/-- REG_WRITE (R464). -/
def execRegWrite (m : RingMsg) (s : State) : Host.Outcome State Fault Refusal := .next (s.frameOf 7 2 m)

/-- REMOVE_PREP (R478). -/
def execRemovePrep (m : RingMsg) (s : State) : Host.Outcome State Fault Refusal := .next (s.frameOf 8 1 m)

/-- REMOVE_PREP_FORCE (R478). -/
def execRemovePrepForce (m : RingMsg) (s : State) : Host.Outcome State Fault Refusal := .next (s.frameOf 8 2 m)

/-- REMOVE_CANCEL (R479). -/
def execRemoveCancel (m : RingMsg) (s : State) : Host.Outcome State Fault Refusal := .next (s.frameOf 8 3 m)

/-- REMOVE_STATUS (R463). -/
def execRemoveStatus (m : RingMsg) (s : State) : Host.Outcome State Fault Refusal := .next (s.frameOf 8 4 m)

end Sys2Proof.Machine
end

