-- ==== Sys2Proof/Machine/Dispatch.lean ====
section
/-! DEFINITION. The dispatch: one arm per command, each one call of its meaning. -/

namespace Sys2Proof.Machine

def exec (i : Instr) (s : State) : Host.Outcome State Fault Refusal :=
  match i with
  | .registerWrite f off v => Sys2Proof.Machine.execRegisterWrite f off v s
  | .reg64LowRead f off => Sys2Proof.Machine.execReg64LowRead f off s
  | .reg64LowWrite f off v => Sys2Proof.Machine.execReg64LowWrite f off v s
  | .reg64HighWrite f off v => Sys2Proof.Machine.execReg64HighWrite f off v s
  | .errInject f p v => Sys2Proof.Machine.execErrInject f p v s
  | .pageEnable f p on => Sys2Proof.Machine.execPageEnable f p on s
  | .pageQuiesce f p => Sys2Proof.Machine.execPageQuiesce f p s
  | .quiesced p => Sys2Proof.Machine.execQuiesced p s
  | .hostFenceSet f p => Sys2Proof.Machine.execHostFenceSet f p s
  | .hostFenceClear f p => Sys2Proof.Machine.execHostFenceClear f p s
  | .paceWindowEnd ep factor => Sys2Proof.Machine.execPaceWindowEnd ep factor s
  | .replanDaily => Sys2Proof.Machine.execReplanDaily s
  | .marginReplan orders => Sys2Proof.Machine.execMarginReplan orders s
  | .replan f => Sys2Proof.Machine.execReplan f s
  | .packetInject m => Sys2Proof.Machine.execPacketInject m s
  | .packetDeliver m => Sys2Proof.Machine.execPacketDeliver m s
  | .creditReturn src dest vc => Sys2Proof.Machine.execCreditReturn src dest vc s
  | .doorbell m => Sys2Proof.Machine.execDoorbell m s
  | .barrierArrive m => Sys2Proof.Machine.execBarrierArrive m s
  | .barrierRelease m => Sys2Proof.Machine.execBarrierRelease m s
  | .ctlCancel m => Sys2Proof.Machine.execCtlCancel m s
  | .fenceSet m => Sys2Proof.Machine.execFenceSet m s
  | .fenceClear m => Sys2Proof.Machine.execFenceClear m s
  | .faultNotice m => Sys2Proof.Machine.execFaultNotice m s
  | .ctlReserved m => Sys2Proof.Machine.execCtlReserved m s
  | .geomWrite f n v => Sys2Proof.Machine.execGeomWrite f n v s
  | .regionApply => Sys2Proof.Machine.execRegionApply s
  | .regionTimeoutExpiry => Sys2Proof.Machine.execRegionTimeoutExpiry s
  | .slotCommit f t slot v => Sys2Proof.Machine.execSlotCommit f t slot v s
  | .entryWrite f t slot entry v => Sys2Proof.Machine.execEntryWrite f t slot entry v s
  | .planStart t id => Sys2Proof.Machine.execPlanStart t id s
  | .entryRun t seam drained => Sys2Proof.Machine.execEntryRun t seam drained s
  | .resultPushResume t drained => Sys2Proof.Machine.execResultPushResume t drained s
  | .passEnd t seam => Sys2Proof.Machine.execPassEnd t seam s
  | .bankSwitch t => Sys2Proof.Machine.execBankSwitch t s
  | .refEnable t => Sys2Proof.Machine.execRefEnable t s
  | .refReady t => Sys2Proof.Machine.execRefReady t s
  | .refDisable t => Sys2Proof.Machine.execRefDisable t s
  | .refOff t => Sys2Proof.Machine.execRefOff t s
  | .refLost t => Sys2Proof.Machine.execRefLost t s
  | .refIdleExpiry t => Sys2Proof.Machine.execRefIdleExpiry t s
  | .prewarm t => Sys2Proof.Machine.execPrewarm t s
  | .refModeWrite f t v => Sys2Proof.Machine.execRefModeWrite f t v s
  | .calZero f t v => Sys2Proof.Machine.execCalZero f t v s
  | .calFull f t v => Sys2Proof.Machine.execCalFull f t v s
  | .calAbort f t v => Sys2Proof.Machine.execCalAbort f t v s
  | .calExclStart t => Sys2Proof.Machine.execCalExclStart t s
  | .calHeldStart t => Sys2Proof.Machine.execCalHeldStart t s
  | .calSample t => Sys2Proof.Machine.execCalSample t s
  | .calCommit t seam => Sys2Proof.Machine.execCalCommit t seam s
  | .calGroup => Sys2Proof.Machine.execCalGroup s
  | .calIntervalExpiry t => Sys2Proof.Machine.execCalIntervalExpiry t s
  | .calSlot t => Sys2Proof.Machine.execCalSlot t s
  | .calDeferExpiry t => Sys2Proof.Machine.execCalDeferExpiry t s
  | .calHoldTimeout t => Sys2Proof.Machine.execCalHoldTimeout t s
  | .calIntWrite f v => Sys2Proof.Machine.execCalIntWrite f v s
  | .refRowRestore bank => Sys2Proof.Machine.execRefRowRestore bank s
  | .dramHourCheck => Sys2Proof.Machine.execDramHourCheck s
  | .laneMarginCheck port lane margin => Sys2Proof.Machine.execLaneMarginCheck port lane margin s
  | .laneRetrain port lane => Sys2Proof.Machine.execLaneRetrain port lane s
  | .stepStart c => Sys2Proof.Machine.execStepStart c s
  | .descFetch c e => Sys2Proof.Machine.execDescFetch c e s
  | .dma c e => Sys2Proof.Machine.execDma c e s
  | .dma2d c e => Sys2Proof.Machine.execDma2d c e s
  | .fill c e => Sys2Proof.Machine.execFill c e s
  | .launch c e da => Sys2Proof.Machine.execLaunch c e da s
  | .accClear c e => Sys2Proof.Machine.execAccClear c e s
  | .accAdd c e => Sys2Proof.Machine.execAccAdd c e s
  | .accRead c e => Sys2Proof.Machine.execAccRead c e s
  | .scale c e => Sys2Proof.Machine.execScale c e s
  | .requant c e => Sys2Proof.Machine.execRequant c e s
  | .vbin c e => Sys2Proof.Machine.execVbin c e s
  | .vfma c e => Sys2Proof.Machine.execVfma c e s
  | .vcvt c e => Sys2Proof.Machine.execVcvt c e s
  | .vred c e => Sys2Proof.Machine.execVred c e s
  | .nlf c e => Sys2Proof.Machine.execNlf c e s
  | .norm c e => Sys2Proof.Machine.execNorm c e s
  | .xred c e => Sys2Proof.Machine.execXred c e s
  | .xredOperand root src group op len data => Sys2Proof.Machine.execXredOperand root src group op len data s
  | .xredResult c group fault data => Sys2Proof.Machine.execXredResult c group fault data s
  | .vtopk c e => Sys2Proof.Machine.execVtopk c e s
  | .barrier c e => Sys2Proof.Machine.execBarrier c e s
  | .cwait c e => Sys2Proof.Machine.execCwait c e s
  | .cwaitTimeout c => Sys2Proof.Machine.execCwaitTimeout c s
  | .cinc c e => Sys2Proof.Machine.execCinc c e s
  | .cincArrive c counter inc => Sys2Proof.Machine.execCincArrive c counter inc s
  | .wopen c e => Sys2Proof.Machine.execWopen c e s
  | .wclose c e => Sys2Proof.Machine.execWclose c e s
  | .wwait c e => Sys2Proof.Machine.execWwait c e s
  | .windowWriteArrive m => Sys2Proof.Machine.execWindowWriteArrive m s
  | .windowExpiry c base => Sys2Proof.Machine.execWindowExpiry c base s
  | .mma4 c e a b sa sb dst blocks fmt => Sys2Proof.Machine.execMma4 c e a b sa sb dst blocks fmt s
  | .pquant c e p ev dst keys blk => Sys2Proof.Machine.execPquant c e p ev dst keys blk s
  | .pmerge c e srcs dst finish => Sys2Proof.Machine.execPmerge c e srcs dst finish s
  | .cands c e stream src first count dst => Sys2Proof.Machine.execCands c e stream src first count dst s
  | .kvcmd c e => Sys2Proof.Machine.execKvcmd c e s
  | .descComplete c idx => Sys2Proof.Machine.execDescComplete c idx s
  | .redgrpWrite f t n v => Sys2Proof.Machine.execRedgrpWrite f t n v s
  | .spProtWrite f c v => Sys2Proof.Machine.execSpProtWrite f c v s
  | .reprotRegionDone c region e => Sys2Proof.Machine.execReprotRegionDone c region e s
  | .stepRerun c again => Sys2Proof.Machine.execStepRerun c again s
  | .tokenRetry stream => Sys2Proof.Machine.execTokenRetry stream s
  | .scrubRead c word e => Sys2Proof.Machine.execScrubRead c word e s
  | .progReloaded f c => Sys2Proof.Machine.execProgReloaded f c s
  | .poolGrantWrite f mc hi v => Sys2Proof.Machine.execPoolGrantWrite f mc hi v s
  | .poolProtWrite f mc hi v => Sys2Proof.Machine.execPoolProtWrite f mc hi v s
  | .poolRoWrite f mc hi v => Sys2Proof.Machine.execPoolRoWrite f mc hi v s
  | .stepWatchdogExpiry c => Sys2Proof.Machine.execStepWatchdogExpiry c s
  | .attend k => Sys2Proof.Machine.execAttend k s
  | .append k => Sys2Proof.Machine.execAppend k s
  | .copy k src dst by_ => Sys2Proof.Machine.execCopy k src dst by_ s
  | .kvcmdComplete c idx => Sys2Proof.Machine.execKvcmdComplete c idx s
  | .posmapCommit f v => Sys2Proof.Machine.execPosmapCommit f v s
  | .freeDead f v => Sys2Proof.Machine.execFreeDead f v s
  | .posmapInstall stream => Sys2Proof.Machine.execPosmapInstall stream s
  | .commit src d => Sys2Proof.Machine.execCommit src d s
  | .spillStart => Sys2Proof.Machine.execSpillStart s
  | .spillReload stream => Sys2Proof.Machine.execSpillReload stream s
  | .pcFail k pc => Sys2Proof.Machine.execPcFail k pc s
  | .dramError k pc count corrected => Sys2Proof.Machine.execDramError k pc count corrected s
  | .nodeInsert stream => Sys2Proof.Machine.execNodeInsert stream s
  | .nodeReady n => Sys2Proof.Machine.execNodeReady n s
  | .genEvict bank => Sys2Proof.Machine.execGenEvict bank s
  | .nodePin f => Sys2Proof.Machine.execNodePin f s
  | .nodeUnpin f => Sys2Proof.Machine.execNodeUnpin f s
  | .unpinAll f => Sys2Proof.Machine.execUnpinAll f s
  | .nodeFind f v => Sys2Proof.Machine.execNodeFind f v s
  | .pfxEnable f v => Sys2Proof.Machine.execPfxEnable f v s
  | .pfxDisable f v => Sys2Proof.Machine.execPfxDisable f v s
  | .ringDb f v => Sys2Proof.Machine.execRingDb f v s
  | .itemMalformed r => Sys2Proof.Machine.execItemMalformed r s
  | .itemReservedOpcode r => Sys2Proof.Machine.execItemReservedOpcode r s
  | .openStream r => Sys2Proof.Machine.execOpenStream r s
  | .closeStream r => Sys2Proof.Machine.execCloseStream r s
  | .classConfig r => Sys2Proof.Machine.execClassConfig r s
  | .appendTokens r => Sys2Proof.Machine.execAppendTokens r s
  | .generate r => Sys2Proof.Machine.execGenerate r s
  | .pause r => Sys2Proof.Machine.execPause r s
  | .resume r => Sys2Proof.Machine.execResume r s
  | .cancel r => Sys2Proof.Machine.execCancel r s
  | .cancelAck stream => Sys2Proof.Machine.execCancelAck stream s
  | .park r => Sys2Proof.Machine.execPark r s
  | .unpark r => Sys2Proof.Machine.execUnpark r s
  | .setSampler r => Sys2Proof.Machine.execSetSampler r s
  | .setMask r => Sys2Proof.Machine.execSetMask r s
  | .tokenEmbed stream => Sys2Proof.Machine.execTokenEmbed stream s
  | .tokenSample stream slices => Sys2Proof.Machine.execTokenSample stream slices s
  | .tokenReturn stream token => Sys2Proof.Machine.execTokenReturn stream token s
  | .mirrorAck stream slot dev => Sys2Proof.Machine.execMirrorAck stream slot dev s
  | .journalPage stream layer head page => Sys2Proof.Machine.execJournalPage stream layer head page s
  | .tokenRelease stream => Sys2Proof.Machine.execTokenRelease stream s
  | .deadlineMiss stream => Sys2Proof.Machine.execDeadlineMiss stream s
  | .winderIssue ready => Sys2Proof.Machine.execWinderIssue ready s
  | .classRecompute => Sys2Proof.Machine.execClassRecompute s
  | .heldRecordWrite ring => Sys2Proof.Machine.execHeldRecordWrite ring s
  | .evrHeadWrite f v => Sys2Proof.Machine.execEvrHeadWrite f v s
  | .evrTimeExpiry ring => Sys2Proof.Machine.execEvrTimeExpiry ring s
  | .ringReset f v => Sys2Proof.Machine.execRingReset f v s
  | .evrReset f v => Sys2Proof.Machine.execEvrReset f v s
  | .parkComplete stream manifests => Sys2Proof.Machine.execParkComplete stream manifests s
  | .parkFail stream => Sys2Proof.Machine.execParkFail stream s
  | .unparkVerify stream crcs manifests => Sys2Proof.Machine.execUnparkVerify stream crcs manifests s
  | .stage f v sl => Sys2Proof.Machine.execStage f v sl s
  | .load f v sl => Sys2Proof.Machine.execLoad f v sl s
  | .shadow f v sl => Sys2Proof.Machine.execShadow f v sl s
  | .inPlace f v sl => Sys2Proof.Machine.execInPlace f v sl s
  | .swapAbort f v => Sys2Proof.Machine.execSwapAbort f v s
  | .swapCommit f => Sys2Proof.Machine.execSwapCommit f s
  | .swapCommitAbort f => Sys2Proof.Machine.execSwapCommitAbort f s
  | .imageStreamEnd => Sys2Proof.Machine.execImageStreamEnd s
  | .copyRepair slot => Sys2Proof.Machine.execCopyRepair slot s
  | .programRow t mac bank row failing => Sys2Proof.Machine.execProgramRow t mac bank row failing s
  | .tempResume => Sys2Proof.Machine.execTempResume s
  | .tempWaitExpiry => Sys2Proof.Machine.execTempWaitExpiry s
  | .swapReport dev report gen => Sys2Proof.Machine.execSwapReport dev report gen s
  | .swapTimeoutExpiry => Sys2Proof.Machine.execSwapTimeoutExpiry s
  | .jobBarrierDrained => Sys2Proof.Machine.execJobBarrierDrained s
  | .flip => Sys2Proof.Machine.execFlip s
  | .layerDone dev layer => Sys2Proof.Machine.execLayerDone dev layer s
  | .layerFail dev layer => Sys2Proof.Machine.execLayerFail dev layer s
  | .rollback => Sys2Proof.Machine.execRollback s
  | .jobBarrierRelease => Sys2Proof.Machine.execJobBarrierRelease s
  | .swapComplete => Sys2Proof.Machine.execSwapComplete s
  | .bankRefresh t mac bank => Sys2Proof.Machine.execBankRefresh t mac bank s
  | .refreshRetry t mac bank => Sys2Proof.Machine.execRefreshRetry t mac bank s
  | .localise t seam results => Sys2Proof.Machine.execLocalise t seam results s
  | .standbyReport dev lost => Sys2Proof.Machine.execStandbyReport dev lost s
  | .seamSuspectTimeout t seam => Sys2Proof.Machine.execSeamSuspectTimeout t seam s
  | .checkClear f t v => Sys2Proof.Machine.execCheckClear f t v s
  | .spareProgram t spare bank => Sys2Proof.Machine.execSpareProgram t spare bank s
  | .spareMapIn t spare => Sys2Proof.Machine.execSpareMapIn t spare s
  | .buddyTakeover t => Sys2Proof.Machine.execBuddyTakeover t s
  | .mergeTakeover mc => Sys2Proof.Machine.execMergeTakeover mc s
  | .canaryModeWrite f t v => Sys2Proof.Machine.execCanaryModeWrite f t v s
  | .assayDue kind unit bank => Sys2Proof.Machine.execAssayDue kind unit bank s
  | .assaySlot kind unit bank failing rows => Sys2Proof.Machine.execAssaySlot kind unit bank failing rows s
  | .assayDeferExpiry kind unit bank => Sys2Proof.Machine.execAssayDeferExpiry kind unit bank s
  | .assayGo f v => Sys2Proof.Machine.execAssayGo f v s
  | .tallyWrite => Sys2Proof.Machine.execTallyWrite s
  | .clearTransient f => Sys2Proof.Machine.execClearTransient f s
  | .flush f => Sys2Proof.Machine.execFlush f s
  | .tallyFind f v => Sys2Proof.Machine.execTallyFind f v s
  | .alarmSecond => Sys2Proof.Machine.execAlarmSecond s
  | .portTrain port lanes rtt => Sys2Proof.Machine.execPortTrain port lanes rtt s
  | .cap port m => Sys2Proof.Machine.execCap port m s
  | .credit port returns => Sys2Proof.Machine.execCredit port returns s
  | .creditIdleTimer port => Sys2Proof.Machine.execCreditIdleTimer port s
  | .nak port seq => Sys2Proof.Machine.execNak port seq s
  | .laneMap port lanes seq => Sys2Proof.Machine.execLaneMap port lanes seq s
  | .flitReceive port fl => Sys2Proof.Machine.execFlitReceive port fl s
  | .write fl => Sys2Proof.Machine.execWrite fl s
  | .writeAck fl => Sys2Proof.Machine.execWriteAck fl s
  | .ctl fl => Sys2Proof.Machine.execCtl fl s
  | .chunk fl => Sys2Proof.Machine.execChunk fl s
  | .chunkAck fl => Sys2Proof.Machine.execChunkAck fl s
  | .store port fl => Sys2Proof.Machine.execStore port fl s
  | .ingress port fl => Sys2Proof.Machine.execIngress port fl s
  | .pathFail fl => Sys2Proof.Machine.execPathFail fl s
  | .echo fl => Sys2Proof.Machine.execEcho fl s
  | .echoReply fl rtt => Sys2Proof.Machine.execEchoReply fl rtt s
  | .replayTimeout port => Sys2Proof.Machine.execReplayTimeout port s
  | .laneFail port lane => Sys2Proof.Machine.execLaneFail port lane s
  | .linkSilenceTimeout port => Sys2Proof.Machine.execLinkSilenceTimeout port s
  | .retrainTimer port => Sys2Proof.Machine.execRetrainTimer port s
  | .retrain f port => Sys2Proof.Machine.execRetrain f port s
  | .laneOffWrite f port v => Sys2Proof.Machine.execLaneOffWrite f port v s
  | .aditCommit f => Sys2Proof.Machine.execAditCommit f s
  | .aditVerifyTimeout ep route => Sys2Proof.Machine.execAditVerifyTimeout ep route s
  | .revert f => Sys2Proof.Machine.execRevert f s
  | .disable f => Sys2Proof.Machine.execDisable f s
  | .routeRemeasure ep route rtt => Sys2Proof.Machine.execRouteRemeasure ep route rtt s
  | .mcHoldExpiry idx => Sys2Proof.Machine.execMcHoldExpiry idx s
  | .allReduce src cmd => Sys2Proof.Machine.execAllReduce src cmd s
  | .allGather src cmd => Sys2Proof.Machine.execAllGather src cmd s
  | .reduceScatter src cmd => Sys2Proof.Machine.execReduceScatter src cmd s
  | .allToAll src cmd => Sys2Proof.Machine.execAllToAll src cmd s
  | .multicast src cmd => Sys2Proof.Machine.execMulticast src cmd s
  | .mcResend id => Sys2Proof.Machine.execMcResend id s
  | .collFold id => Sys2Proof.Machine.execCollFold id s
  | .chunkTimeout id rank => Sys2Proof.Machine.execChunkTimeout id rank s
  | .collComplete id => Sys2Proof.Machine.execCollComplete id s
  | .grpCommit f => Sys2Proof.Machine.execGrpCommit f s
  | .busbarLoss => Sys2Proof.Machine.execBusbarLoss s
  | .brownout mv => Sys2Proof.Machine.execBrownout mv s
  | .busbarStable mv => Sys2Proof.Machine.execBusbarStable mv s
  | .phaseFault phase => Sys2Proof.Machine.execPhaseFault phase s
  | .pwrReqUp f => Sys2Proof.Machine.execPwrReqUp f s
  | .pwrReqDown f => Sys2Proof.Machine.execPwrReqDown f s
  | .powerUpSequence ok => Sys2Proof.Machine.execPowerUpSequence ok s
  | .drainEnd => Sys2Proof.Machine.execDrainEnd s
  | .drainTimeoutExpiry => Sys2Proof.Machine.execDrainTimeoutExpiry s
  | .powerDownSequence => Sys2Proof.Machine.execPowerDownSequence s
  | .vcoreStep => Sys2Proof.Machine.execVcoreStep s
  | .vcorePolicyTick => Sys2Proof.Machine.execVcorePolicyTick s
  | .thermalUpdate model power sensors inlet => Sys2Proof.Machine.execThermalUpdate model power sensors inlet s
  | .sensorRejoin sensor => Sys2Proof.Machine.execSensorRejoin sensor s
  | .refit f => Sys2Proof.Machine.execRefit f s
  | .thresholdAssert node which reduction => Sys2Proof.Machine.execThresholdAssert node which reduction s
  | .thresholdDeassert node which => Sys2Proof.Machine.execThresholdDeassert node which s
  | .powerOverLimit => Sys2Proof.Machine.execPowerOverLimit s
  | .graceExpiry => Sys2Proof.Machine.execGraceExpiry s
  | .throttleMark => Sys2Proof.Machine.execThrottleMark s
  | .throttleEnd => Sys2Proof.Machine.execThrottleEnd s
  | .throttleReleaseStep => Sys2Proof.Machine.execThrottleReleaseStep s
  | .thermalTrip comparator => Sys2Proof.Machine.execThermalTrip comparator s
  | .tripRearm comparator => Sys2Proof.Machine.execTripRearm comparator s
  | .energyWindow measured moduleW staticW pth => Sys2Proof.Machine.execEnergyWindow measured moduleW staticW pth s
  | .pgRecompute => Sys2Proof.Machine.execPgRecompute s
  | .pwrLimitWrite f v => Sys2Proof.Machine.execPwrLimitWrite f v s
  | .vfFlr vf => Sys2Proof.Machine.execVfFlr vf s
  | .pfReset => Sys2Proof.Machine.execPfReset s
  | .moduleReset => Sys2Proof.Machine.execModuleReset s
  | .negotiate f => Sys2Proof.Machine.execNegotiate f s
  | .rmvPrep f => Sys2Proof.Machine.execRmvPrep f s
  | .rmvPrepForce f => Sys2Proof.Machine.execRmvPrepForce f s
  | .rmvCancel f => Sys2Proof.Machine.execRmvCancel f s
  | .strapLatch straps => Sys2Proof.Machine.execStrapLatch straps s
  | .strapChange straps => Sys2Proof.Machine.execStrapChange straps s
  | .ringFrameForward m => Sys2Proof.Machine.execRingFrameForward m s
  | .hello m => Sys2Proof.Machine.execHello m s
  | .helloTimer => Sys2Proof.Machine.execHelloTimer s
  | .ack m => Sys2Proof.Machine.execAck m s
  | .alarmResend => Sys2Proof.Machine.execAlarmResend s
  | .logPull m => Sys2Proof.Machine.execLogPull m s
  | .powerUpMsg m => Sys2Proof.Machine.execPowerUpMsg m s
  | .powerDownMsg m => Sys2Proof.Machine.execPowerDownMsg m s
  | .powerResetMsg m => Sys2Proof.Machine.execPowerResetMsg m s
  | .powerStatusMsg m => Sys2Proof.Machine.execPowerStatusMsg m s
  | .regRead m => Sys2Proof.Machine.execRegRead m s
  | .regWrite m => Sys2Proof.Machine.execRegWrite m s
  | .removePrep m => Sys2Proof.Machine.execRemovePrep m s
  | .removePrepForce m => Sys2Proof.Machine.execRemovePrepForce m s
  | .removeCancel m => Sys2Proof.Machine.execRemoveCancel m s
  | .removeStatus m => Sys2Proof.Machine.execRemoveStatus m s
  | .sync port offset delay gm rate => Sys2Proof.Machine.execSync port offset delay gm rate s
  | .syncLoss => Sys2Proof.Machine.execSyncLoss s
  | .bypassClose => Sys2Proof.Machine.execBypassClose s
  | .bypassOpen mismatch => Sys2Proof.Machine.execBypassOpen mismatch s
  | .bypassRetry => Sys2Proof.Machine.execBypassRetry s
  | .prsntMate straps => Sys2Proof.Machine.execPrsntMate straps s
  | .prsntBreak => Sys2Proof.Machine.execPrsntBreak s
  | .pwrEnRise => Sys2Proof.Machine.execPwrEnRise s
  | .pwrEnFall => Sys2Proof.Machine.execPwrEnFall s
  | .attnButton => Sys2Proof.Machine.execAttnButton s
  | .calGainsWrite f t v => Sys2Proof.Machine.execCalGainsWrite f t v s
  | .stageComplete => Sys2Proof.Machine.execStageComplete s
  | .kvRestored k pc stream count => Sys2Proof.Machine.execKvRestored k pc stream count s
  | .d3hot f => Sys2Proof.Machine.execD3hot f s
  | .d0 f => Sys2Proof.Machine.execD0 f s

end Sys2Proof.Machine
end

