-- ==== Sys2Proof/Machine/Tick.lean ====
section
/-! DEFINITION. What a nanosecond of the timebase does by itself: the counter advances (R470), the counters of
held time count it, and flits move through the meshes (R31, R32, R38). -/

namespace Sys2Proof.Machine

/-- Whether a stream is held at the sampler: for a mask (R286), or while SMP_CTRL.ENABLE is 0. -/
def State.smpHeld (s : State) (t : Stream) : Bool :=
  t.maskWait || (t.smpHold && !(bit (s.rd smpCtrl) 0))

/-- STALL_NS of every stope that holds a push (R103). -/
def State.countStalls (s : State) : State :=
  s.each (s.stopes.filter fun p => !p.2.heldPush.isEmpty) fun s p => s.inc64 (planStallNsLo p.1) 1

/-- HOLD_NS by every packet in the arrival hold (R406), MASK_WAIT_NS by every stream held at the sampler (R286), and
ENERGY_HOLD_NS while issue is held (R277). -/
def State.countHolds (s : State) : State :=
  let s := s.inc64 windowHoldNsLo s.fab.hold.length
  let s := s.inc64 smpMaskWaitNsLo (s.wnd.streams.filter fun p => s.smpHeld p.2).length
  if s.wnd.energyHold then s.inc64 wndEnergyHoldNsLo 1 else s

/-- The flit slots of a nanosecond: two of the data network, with 63 slots that may pass over a lower channel, and one of the control
network, with 15 (R28, R31, R36, R38; a link's nominal rate, DESIGN CHOICE, log entry 132). -/
def Nets.advance (n : Nets) : Nets := { n with data := (n.data.slot 63).slot 63, ctl := n.ctl.slot 15 }

/-- One nanosecond passes with no command waiting (DESIGN CHOICE, log entry 2). -/
def State.tick (s : State) : State := 
  let t := s.countStalls.countHolds
  { t with now := s.now + 1, noc := { s.noc with nets := s.noc.nets.advance } }

end Sys2Proof.Machine
end

