-- ==== Sys2Proof/Safety.lean ====
section
/-! DEFINITION. What a sound state is, in the terms that statements use: the flat memory and the registers in
canonical form. -/

namespace Sys2Proof

open Sys2Proof.Machine

/-- The registers in canonical form: rising offsets, none at its reset value. -/
def Machine.Regs.wf (t : Table Word) : Bool := Table.wfBy resetWord t

/-- The flat memory, the registers, the page tables, the class table and the table of prefix nodes are in canonical form. -/
structure Machine.State.Inv (s : State) : Prop where
  mem : Memory.wf s.mem = true
  regs : Machine.Regs.wf s.regs = true
  ptes : Table.wf Pte.none s.kv.ptes = true
  classes : Table.wf Class.none s.wnd.classes = true
  nodes : (s.kv.nodes.map Prod.fst).Pairwise (· < ·)

/-- A command completes: `exec` answers a next state, and `P` holds of it. -/
def Machine.Gives (c : Instr) (s : State) (P : State → Prop) : Prop := ∃ t, exec c s = .next t ∧ P t

/-- Every register but those at the offsets listed reads as before. -/
def Machine.RegsKept (s t : State) (offs : List Nat) : Prop := ∀ o, o ∉ offs → t.rd o = s.rd o

/-- Nothing but stope `i` changed. -/
def Machine.StopeOnly (s t : State) (i : Nat) : Prop := (∀ j, j ≠ i → t.stope j = s.stope j) ∧ { t with stopes := s.stopes } = s

/-- Nothing but stope `i` and registers changed, and of the registers at most those listed. -/
def Machine.StopeRegs (s t : State) (i : Nat) (offs : List Nat) : Prop :=
  (∀ j, j ≠ i → t.stope j = s.stope j) ∧ RegsKept s t offs ∧ { t with stopes := s.stopes, regs := s.regs } = s

/-- A notice with a cause, from an endpoint, is on its way to the headframe behind the others. -/
def Machine.Noticed (s t : State) (cause ep : Nat) : Prop := ∃ x, t.noc.notices = s.noc.notices ++ [x] ∧ x.cause = cause ∧ x.source = ep

/-- The networks hold what they held but for notices sent, the flits that carry them and their sources' numbers. -/
def Machine.NocNotices (s t : State) : Prop := { t.noc with notices := s.noc.notices, nets := s.noc.nets } = s.noc

/-- Nothing but stope `i` changed, and what the headframe has charged for it. -/
def Machine.StopeCharged (s t : State) (i : Nat) : Prop :=
  (∀ j, j ≠ i → t.stope j = s.stope j) ∧ { t.hf with spent := s.hf.spent, charged := s.hf.charged } = s.hf ∧
    { t with stopes := s.stopes, hf := s.hf } = s

/-- Nothing but core `c` changed. -/
def Machine.CoreOnly (s t : State) (c : Nat) : Prop := (∀ j, j ≠ c → t.core j = s.core j) ∧ { t with cores := s.cores } = s

/-- Nothing but core `c` and registers changed, and of the registers at most those listed. -/
def Machine.CoreRegs (s t : State) (c : Nat) (offs : List Nat) : Prop :=
  (∀ j, j ≠ c → t.core j = s.core j) ∧ RegsKept s t offs ∧ { t with cores := s.cores, regs := s.regs } = s

/-- Every byte of the flat memory outside a range reads as before. -/
def Machine.MemKept (s t : State) (start len : Nat) : Prop := ∀ x, x < start ∨ start + len ≤ x → readByte t.mem x = readByte s.mem x

/-- Nothing but the KV page allocator, the walker and registers changed, and of the registers at most those listed. -/
def Machine.KvRegs (s t : State) (offs : List Nat) : Prop := RegsKept s t offs ∧ { t with kv := s.kv, regs := s.regs } = s

/-- Prefix node `n` became `x`, in the walker's table and in its reserved frame; no other node and no other byte changed. -/
def Machine.NodeOnly (s t : State) (n : Nat) (x : Node) : Prop :=
  t.pnode n = some x ∧ (∀ m, m ≠ n → t.pnode m = s.pnode m) ∧
    (∀ a, s.nodeAddr n = some a → t.rdMem a x.bytes.length = x.bytes ∧ MemKept s t a x.bytes.length) ∧
    (s.nodeAddr n = none → t.mem = s.mem) ∧ { t with kv := { t.kv with nodes := s.kv.nodes }, mem := s.mem } = s

/-- Nothing but stream `i` changed. -/
def Machine.StreamOnly (s t : State) (i : Nat) : Prop :=
  (∀ j, j ≠ i → t.stream j = s.stream j) ∧ { t with wnd := { t.wnd with streams := s.wnd.streams } } = s

/-- An event record goes to event ring `i`: at once to host memory, with PHASE, at the producer's place; or to the ring's held records when
the ring does not take it; or, with the module's hold full, behind the records that wait at their source. No other byte, and no other ring,
changes. -/
def Machine.Posted (s t : State) (i : Nat) (rec : Record) : Prop :=
  (s.evrReady i = true →
    let a := hostBase + (s.evr i).base.toNat + (s.evr i).tail % (s.evr i).size * 32
    t.rdMem a 32 = rec.bytes (s.evr i).phase ∧ MemKept s t a 32 ∧ (t.evr i).tail = ((s.evr i).tail + 1) % 0x10000 ∧
      (t.evr i).held = (s.evr i).held ∧ t.wnd.evWait = s.wnd.evWait) ∧
  (s.evrReady i = false → s.heldRecords < 4096 → s.wnd.evWait = [] →
    (t.evr i).held = (s.evr i).held ++ [rec] ∧ (t.evr i).tail = (s.evr i).tail ∧ t.wnd.evWait = s.wnd.evWait ∧ t.mem = s.mem) ∧
  (s.evrReady i = false → 4096 ≤ s.heldRecords ∨ s.wnd.evWait ≠ [] →
    t.wnd.evWait = s.wnd.evWait ++ [(i, rec)] ∧ t.evr i = s.evr i ∧ t.mem = s.mem) ∧
  ∀ j, j ≠ i → t.evr j = s.evr j

/-- The item at the head of stream `r`'s ring was consumed and counted, the stream is otherwise as given, and the decisions listed went to
the other modules; nothing else changed. -/
def Machine.Took (s t : State) (r : Nat) (it : Item) (x : Stream) (ds : List Decision) : Prop :=
  t.stream r = { x with head := ((s.stream r).head + it.n) % 4096 } ∧ (∀ j, j ≠ r → t.stream j = s.stream j) ∧
    t.rd64 ringItemCountLo = (s.rd64 ringItemCountLo + 1) % 2 ^ 64 ∧ RegsKept s t [ringItemCountLo, ringItemCountLo + 4] ∧
    t.wnd.decisions = s.wnd.decisions ++ ds ∧
    { t with regs := s.regs, wnd := { t.wnd with streams := s.wnd.streams, decisions := s.wnd.decisions } } = s

/-- The item at the head of ring `r` was consumed and refused with a code: HEAD passes it, LAST_REFUSE holds the code and the ring, a
REFUSED record with the item's opcode goes to the ring's event ring; no stream changes otherwise. -/
def Machine.Refused (s t : State) (r : Nat) (it : Item) (code : Nat) : Prop :=
  (t.ring r).head = ((s.ring r).head + it.n) % 4096 ∧ (t.ring r).tail = (s.ring r).tail ∧ (∀ j, j ≠ r → t.stream j = s.stream j) ∧
    { t.stream r with head := (s.stream r).head } = s.stream r ∧ t.rd ringLastRefuse = BitVec.ofNat 32 (code + r % 0x10000 * 0x10000) ∧
    Posted s t (if r = ctrlRing then s.wnd.ctrlEvr else (s.stream r).ringEvr)
      { typ := 3, flags := 0, code := code, stream := r, time := s.now, tag := if it.op = 0 then 0 else it.tag, data := BitVec.ofNat 64 it.op } ∧
    RegsKept s t [ringItemCountLo, ringItemCountLo + 4, ringLastRefuse] ∧
    { t with regs := s.regs, mem := s.mem, edge := { t.edge with msi := s.edge.msi },
             wnd := { t.wnd with streams := s.wnd.streams, evrs := s.wnd.evrs, evWait := s.wnd.evWait, ctrlHead := s.wnd.ctrlHead } } = s

/-- A report of this moment with the given cause and unit stands in the log. -/
def Machine.Logged (s t : State) (cause unit : Nat) : Prop :=
  ∃ r ∈ t.tally.log, r.cause = cause ∧ r.unit = unit ∧ r.time = s.now ∧ r.count = 1

/-- A report may have been made: beyond what a statement names, only the log, the alarm counters, event rings and the edge may differ. -/
def Machine.ReportKept (s t : State) (offs : List Nat) : Prop :=
  RegsKept s t ([tallyAlarmCountLo, tallyAlarmCountLo + 4, tallyLogOverwriteCount, tallyTraceDropCount] ++ offs) ∧
    t.wnd.streams = s.wnd.streams ∧ t.kv = s.kv ∧ t.swap = s.swap

/-- A descriptor with a length stands at the head of a core, reads and writes some ranges, and may issue: nothing holds it, and no word
that it reads is poisoned. -/
abbrev Machine.Heads (s : State) (c : Nat) (d : Desc) (r : Running) (rs ws : List Rng) : Prop :=
  (s.core c).fetched = some d ∧ (s.core c).run = some r ∧ d.len ≠ 0 ∧
    s.issueHolds c d { reads := rs, writes := ws, run := id } = false ∧ ∀ w ∈ rs.flatMap Rng.wordList, s.poisoned w = false

/-- The descriptor has issued: it has a scoreboard entry for each range and awaits what is given, less the packets of an earlier attempt that
have come back (R174), the fetch goes on, and no other core's descriptors move. -/
def Machine.IssuedOn (s t : State) (c : Nat) (d : Desc) (r : Running) (rs ws : List Rng) (a : Await) : Prop :=
  (t.core c).fetched = none ∧
    (t.core c).issued = (s.core c).issued ++
      [{ step := r.id, desc := d, sb := rs.map (·.entry false) ++ ws.map (·.entry true), await := a.less (s.core c).part.back,
         cause := (s.core c).part.cause, again := (s.core c).again }] ∧
    ∀ x, x ≠ c → (t.core x).issued = (s.core x).issued ∧ (t.core x).fetched = (s.core x).fetched

/-- Of the memories a core's range lies in, only the range changed: accumulators of its stope, or bytes of the flat memory; cores may
have lost poison and the sources of operand buffers. -/
def Machine.RangeOnly (s t : State) (c : Nat) (b : Rng) : Prop :=
  (b.space = 1 → t.mem = s.mem ∧ (∀ j, j ≠ c → t.stope j = s.stope j) ∧ { t.stope c with acc := (s.stope c).acc } = s.stope c ∧
    ∀ k, k < b.start ∨ b.start + 2 * b.words ≤ k → Table.get 0 (t.stope c).acc k = Table.get 0 (s.stope c).acc k) ∧
  (b.space ≠ 1 → t.stopes = s.stopes ∧ MemKept s t b.start (8 * b.words)) ∧ { t with mem := s.mem, cores := s.cores, stopes := s.stopes } = s

/-- A flit for port `q` went out with the next SEQ, or waits behind others of its LVC or for credit, or, where the port is down or does not
carry its opcode, went nowhere; no other port changed. -/
def Machine.FlitOut (s t : State) (q : Nat) (f : Flit) : Prop :=
  let y := s.port q
  (s.portReady q f = true → (∀ h ∈ y.held, h.lvc ≠ f.lvc) → portCarries q f.opcode = true →
    (t.port q).tx = y.tx ++ [{ f with seq := y.txSeq, ack := y.lastSeq }] ∧ (t.port q).held = y.held) ∧
  (y.isUp = true → portCarries q f.opcode = true → s.portReady q f = false ∨ (∃ h ∈ y.held, h.lvc = f.lvc) →
    t.port q = { y with held := y.held ++ [f] }) ∧
  (y.isUp = false ∨ portCarries q f.opcode = false → t.port q = y) ∧ ∀ p, p ≠ q → t.port p = s.port p

end Sys2Proof
end

