-- ==== Sys2Proof/Certificates/Slice0/Obligations.lean ====
section
/-! DEFINITION. The statements about the machine, chapter by chapter of the manual, each with its frame. -/

open Sys2Proof Sys2Proof.Machine

/-! ## Steps, registers and pages -/

/-- A step takes the command at the front of the queue and runs it on the state with the queue's rest. -/
def Obligations.StepRunsFrontCommand : Prop :=
  ∀ (c : Instr) (rest : List Instr) (s : State), step { s with pending := c :: rest } = exec c { s with pending := rest }

/-- On an empty queue a step is one nanosecond of the timebase (R470): the counter advances, both meshes have their flit slots (R31, R38), and
only counters of held time in the register file may move with it (DESIGN CHOICE, log entries 2 and 132). -/
def Obligations.EmptyQueueTicks : Prop :=
  ∀ s : State, s.pending = [] → ∃ t, step s = .next t ∧ t.now = s.now + 1 ∧ t.noc.nets = s.noc.nets.advance ∧
    { t with now := s.now, regs := s.regs, noc := { t.noc with nets := s.noc.nets } } = s

/-- R42, R455, R457: a function that may not write an offset changes nothing there, by no form of a register write and by none of the
PAGE_CTRL commands. -/
def Obligations.ForbiddenWritesDoNothing : Prop :=
  ∀ (s : State) (f : Nat),
    (∀ off v, s.mayWrite f off = false →
      exec (.registerWrite f off v) s = .next s ∧ exec (.reg64LowWrite f off v) s = .next s ∧
      exec (.reg64HighWrite f off v) s = .next s) ∧
    (∀ p, s.mayWrite f (regPageCtrl (pageBase p)) = false →
      (∀ on, exec (.pageEnable f p on) s = .next s) ∧ exec (.pageQuiesce f p) s = .next s ∧
      exec (.hostFenceSet f p) s = .next s ∧ exec (.hostFenceClear f p) s = .next s) ∧
    (∀ p v, s.mayWrite f (pageBase p + 0x01C) = false → exec (.errInject f p v) s = .next s)

/-- R6, R7, R10: a permitted write of a register of the pages WINDER, SAMPLER and STACK that is half of no 64-bit pair gives the register the
word that its fields make of the old word and the written one, leaves every other register but the page's RG_WRITE error and its event, and
leaves everything outside the register file but an MSI-X message. A read of the low word of a pair latches the high word as it then stands,
and the next read of the high word returns it; a write of the low word is held and changes no register; a write of SWAP_SRC's high word
commits both words at once. -/
def Obligations.RegisterWriteTakesFields : Prop :=
  (∀ (s : State) (f off i : Nat) (v : Word) (p : Page) (r : RegRow) (n : Nat),
     s.mayWrite f off = true → pageAt off = some (p, i) → p = .wnd ∨ p = .smp ∨ p = .stack →
     0x100 ≤ off % 0x1000 → isLow off = false → isHigh off = false → rowAt off = some (r, n) →
     Gives (.registerWrite f off v) s fun t =>
       t.rd off = (writeFields r.fields (s.rd off) v).1 ∧
       RegsKept s t [off, regErrStatus (pageBase off), regEvtStatus (pageBase off)] ∧
       { t with regs := s.regs, edge := { t.edge with msi := s.edge.msi } } = s) ∧
  (∀ (s : State) (f lo : Nat), isLow lo = true → isLow (lo + 4) = false → s.mapped f lo = true → s.mapped f (lo + 4) = true →
    Gives (.reg64LowRead f lo) s fun t =>
      (t.readReg f (lo + 4)).1 = s.view f (lo + 4) ∧ { t with edge := { t.edge with shadowHi := s.edge.shadowHi } } = s) ∧
  (∀ (s : State) (f lo : Nat) (v : Word), isLow lo = true → s.mayWrite f lo = true →
    Gives (.reg64LowWrite f lo v) s fun t => { t with edge := { t.edge with heldLo := s.edge.heldLo } } = s) ∧
  (∀ (s : State) (v w : Word), s.mayWrite 0 (swapSrcLo) = true →
    ∃ t, exec (.reg64LowWrite 0 swapSrcLo v) s = .next t ∧
      Gives (.reg64HighWrite 0 (swapSrcLo + 4) w) t fun u =>
        u.rd swapSrcLo = v ∧ u.rd (swapSrcLo + 4) = w ∧ RegsKept s u [swapSrcLo, swapSrcLo + 4])

/-- R47, R457: ERR_INJECT sets RG_WRITE; ENABLE takes the written bit; QUIESCE is asked of the block, which reports it once its work is
done; the host fence sets or clears the block's host-fence flag, and FENCE_SET for all four classes leaves for the block. Each leaves the
rest of the machine. -/
def Obligations.PageControlActs : Prop :=
  (∀ (s : State) (f p : Nat) (v : Word), s.mayWrite f (pageBase p + 0x01C) = true → bit v 31 = true →
    Gives (.errInject f p v) s fun t =>
      bit (t.rd (regErrStatus (pageBase p))) 31 = true ∧ RegsKept s t [regErrStatus (pageBase p), regEvtStatus (pageBase p)] ∧
      { t with regs := s.regs, edge := { t.edge with msi := s.edge.msi } } = s) ∧
  (∀ (s : State) (f p : Nat) (on : Bool), s.mayWrite f (regPageCtrl (pageBase p)) = true →
    Gives (.pageEnable f p on) s fun t =>
      bit (t.rd (regPageCtrl (pageBase p))) 0 = on ∧ RegsKept s t [regPageCtrl (pageBase p)] ∧ { t with regs := s.regs } = s) ∧
  (∀ (s : State) (f p : Nat), s.mayWrite f (regPageCtrl (pageBase p)) = true →
    Gives (.pageQuiesce f p) s fun t => t.quiescing p = true ∧ { t with noc := { t.noc with quiesce := s.noc.quiesce } } = s) ∧
  (∀ (s : State) (p : Nat), s.quiescing p = true → s.blockIdle p = true →
    Gives (.quiesced p) s fun t =>
      t.isQuiesced p = true ∧ { t with noc := { t.noc with quiesced := s.noc.quiesced, quiescedAt := s.noc.quiescedAt } } = s) ∧
  (∀ (s : State) (f p : Nat), s.mayWrite f (regPageCtrl (pageBase p)) = true →
    Gives (.hostFenceSet f p) s fun t =>
      (t.fence (blockPage p)).host = true ∧ (∀ q, q ≠ blockPage p → t.fence q = s.fence q) ∧
      (∃ m, t.noc.ctl = s.noc.ctl ++ [m] ∧ m.typ = 5 ∧ m.src = epHeadframe ∧ fld m.arg0 3 0 = 0xF) ∧
      { t with noc := { t.noc with fences := s.noc.fences, ctl := s.noc.ctl, nets := s.noc.nets } } = s) ∧
  (∀ (s : State) (f p : Nat), s.mayWrite f (regPageCtrl (pageBase p)) = true →
    Gives (.hostFenceClear f p) s fun t =>
      (t.fence (blockPage p)).host = false ∧ (t.fence (blockPage p)).causes = (s.fence (blockPage p)).causes ∧
      (∀ q, q ≠ blockPage p → t.fence q = s.fence q) ∧
      { t with noc := { t.noc with fences := s.noc.fences, ctl := s.noc.ctl, nets := s.noc.nets } } = s)

/-! ## The networks and the regions -/

/-- R28 to R33, R43: a packet offered to its router gets the region of the router's register and TIME_HINT, and BYTES bytes travel. It waits at
its source while its credit is out, its source is fenced or an earlier packet of its lane waits; else, where the router finds no fault with it, it
sets out with its credit taken, and its flits stand at its source's router; a packet that waited sets out the same way once its lane is free. A
packet in flight whose last flit has left the mesh arrives where the rim bus delivers it, and is else discarded. A drained packet's credit returns,
its sender's descriptor learns of it, and the next packet of the lane sets out. A packet that names no endpoint, is longer than 240 bytes or
crosses a region is discarded: counted, noticed to the headframe, and no flit enters the network. -/
def Obligations.PacketsTravel : Prop :=
  (∀ (s : State) (m : Packet),
    let n := s.stamped m
    n.timeHint = s.now % 0x10000 ∧ n.region = (if isRim m.src = true then m.region else (s.epRegion m.src).getD m.region) % 16 ∧
      n.payload.length = n.bytes ∧ n.bytes = m.bytes % 256) ∧
  (∀ (s : State) (m : Packet), (∀ w ∈ s.noc.held, w.packet ≠ m) → s.mustWait (s.stamped m) = true →
    exec (.packetInject m) s = .next { s with noc := { s.noc with held := s.noc.held ++ [{ packet := s.stamped m, owner := none }] } }) ∧
  (∀ (s : State) (m : Packet), (∀ w ∈ s.noc.held, w.packet ≠ m) → s.mustWait (s.stamped m) = false → s.routerCode (s.stamped m) = 0 →
    Gives (.packetInject m) s fun t =>
      let n := s.stamped m
      t.noc.creditUsed = s.noc.creditUsed ++ [(n.src, n.dest, n.vc)] ∧ t.noc.flight = s.noc.flight ++ [n] ∧
      t.noc.nets.data = s.dataWith n ∧
      { t with noc := { t.noc with creditUsed := s.noc.creditUsed, flight := s.noc.flight, nets := s.noc.nets } } = s) ∧
  (∀ (s : State) (w : Waiting), (s.noc.held.find? fun x => sameLane x.packet w.packet) = some w → s.creditTaken w.packet = false →
    s.injectFenced w.packet = false → s.routerCode (s.stamped w.packet) = 0 →
    Gives (.packetInject w.packet) s fun t =>
      let n := s.stamped w.packet
      t.noc.held = s.noc.held.erase w ∧ t.noc.creditUsed = s.noc.creditUsed ++ [(n.src, n.dest, n.vc)] ∧
      t.noc.flight = s.noc.flight ++ [n] ∧
      { t with noc := { t.noc with held := s.noc.held, creditUsed := s.noc.creditUsed, flight := s.noc.flight, nets := s.noc.nets } } = s) ∧
  (∀ (s : State) (m : Packet), m ∈ s.noc.flight → s.noc.nets.data.carries m.src m.dest m.vc = false → s.rimDelivers m = true →
    exec (.packetDeliver m) s = .next { s with noc := { s.noc with flight := s.noc.flight.erase m, arrived := s.noc.arrived ++ [m] } }) ∧
  (∀ (s : State) (m : Packet), m ∈ s.noc.flight → s.noc.nets.data.carries m.src m.dest m.vc = false → s.rimDelivers m = false →
    Gives (.packetDeliver m) s fun t =>
      t.noc.flight = s.noc.flight.erase m ∧ t.noc.arrived = s.noc.arrived ∧
      t.rd nocDiscardCount = s.rd nocDiscardCount + 1 ∧ t.rd nocViolationCount = s.rd nocViolationCount + 1 ∧
      RegsKept s t [nocDiscardCount, nocViolationCount] ∧ Noticed s t rRegionViolation m.src ∧
      { t with noc := s.noc, cores := s.cores, regs := s.regs } = s) ∧
  (∀ (s : State) (src dest vc : Nat), (src, dest, vc) ∈ s.noc.creditUsed →
    (∀ m ∈ s.noc.flight, m.src = src → m.dest = dest → m.vc ≠ vc) →
    Gives (.creditReturn src dest vc) s fun t =>
      (∀ m, m ∈ t.noc.arrived ↔ m ∈ s.noc.arrived ∧ ¬(m.src = src ∧ m.dest = dest ∧ m.vc = vc)) ∧
      ((∀ w ∈ s.noc.held, w.packet.src = src → w.packet.dest = dest → w.packet.vc ≠ vc) →
        t.noc.creditUsed = s.noc.creditUsed.erase (src, dest, vc) ∧ t.noc.flight = s.noc.flight ∧ t.noc.held = s.noc.held) ∧
      (∀ w, (s.noc.held.find? fun w => w.packet.src == src && w.packet.dest == dest && w.packet.vc == vc) = some w →
        (src, dest, vc) ∉ s.noc.creditUsed.erase (src, dest, vc) → s.injectFenced w.packet = false →
        s.routerCode (s.stamped w.packet) = 0 →
        t.noc.held = s.noc.held.erase w ∧ t.noc.flight = s.noc.flight ++ [s.stamped w.packet]) ∧
      { t with noc := s.noc, cores := s.cores, regs := s.regs } = s) ∧
  (∀ (s : State) (m : Packet), (∀ w ∈ s.noc.held, w.packet ≠ m) → s.mustWait (s.stamped m) = false →
    240 < m.bytes % 256 ∨ epExists (m.dest % 0x1000) = false →
     Gives (.packetInject m) s fun t =>
       t.rd nocDiscardCount = s.rd nocDiscardCount + 1 ∧ RegsKept s t [nocDiscardCount] ∧
       Noticed s t causeRouterDiscard (m.src % 0x1000) ∧
       t.noc.flight = s.noc.flight ∧ { t with noc := s.noc, cores := s.cores, regs := s.regs } = s) ∧
  (∀ (s : State) (m : Packet), (∀ w ∈ s.noc.held, w.packet ≠ m) → s.mustWait (s.stamped m) = false →
    s.routerCode (s.stamped m) = rRegionViolation →
     Gives (.packetInject m) s fun t =>
       t.rd nocDiscardCount = s.rd nocDiscardCount + 1 ∧ t.rd nocViolationCount = s.rd nocViolationCount + 1 ∧
       RegsKept s t [nocDiscardCount, nocViolationCount] ∧ Noticed s t rRegionViolation (m.src % 0x1000) ∧
       t.noc.flight = s.noc.flight ∧ { t with noc := s.noc, cores := s.cores, regs := s.regs } = s)

/-- R36, R37, R38, R45, R47, R488: a message acts once it has crossed the network. An accepted DOORBELL changes nothing but its own place in the network; an arrival at a barrier that still
lacks a member is noted at its root; a release lets the member's BARRIER go; a fence message from the headframe to one target sets or
clears exactly its classes there (a calibration run notes when sampling holds for it), and one from any other source, or with the reserved
ARGS, is discarded, counted and reported; a message of a reserved type is
discarded, counted and reported; a CANCEL takes the stream's steps off its target's queue. -/
def Obligations.ControlMessagesAct : Prop :=
  (∀ (s : State) (m : CtlMsg), s.ctlAccepts m = true → s.ctlUnderWay m = false →
    exec (.doorbell m) s = .next { s with noc := { s.noc with ctl := s.noc.ctl.erase m } }) ∧
  (∀ (s : State) (m : CtlMsg), s.ctlAccepts m = true → s.ctlUnderWay m = false → m.dest < 256 →
    (∃ i ∈ groupStopes (s.redgrp m.dest (argBarrier m.arg0).1), i ≠ m.src ∧
      ((argBarrier m.arg0).1, (argBarrier m.arg0).2, i) ∉ (s.core m.dest).barrierSeen) →
    Gives (.barrierArrive m) s fun t =>
      ((argBarrier m.arg0).1, (argBarrier m.arg0).2, m.src) ∈ (t.core m.dest).barrierSeen ∧
      (∀ c, c ≠ m.dest → t.core c = s.core c) ∧
      { t with cores := s.cores, noc := { t.noc with ctl := s.noc.ctl } } = s) ∧
  (∀ (s : State) (m : CtlMsg) (d : Issued) (rest : List Issued), s.ctlAccepts m = true → s.ctlUnderWay m = false → m.dest < 256 →
    (s.core m.dest).issued = d :: rest → d.await = .barrier (argBarrier m.arg0).1 (argBarrier m.arg0).2 →
    Gives (.barrierRelease m) s fun t =>
      (t.core m.dest).issued = { d with await := .nothing } :: rest ∧ (∀ c, c ≠ m.dest → t.core c = s.core c) ∧
      { t with cores := s.cores, noc := { t.noc with ctl := s.noc.ctl } } = s) ∧
  (∀ (s : State) (m : CtlMsg) (p : Nat), m.src = epHeadframe → m.args ≠ 3 → s.ctlUnderWay m = false → s.fencePages m = [p] →
    Gives (.fenceSet m) s fun t =>
      (t.fence p).classes = (s.fence p).classes ||| fld m.arg0 3 0 ∧ (∀ q, q ≠ p → t.fence q = s.fence q) ∧
      (∀ i, { t.stope i with cal := { (t.stope i).cal with holdSince := (s.stope i).cal.holdSince } } = s.stope i) ∧
      { t with stopes := s.stopes, noc := { t.noc with fences := s.noc.fences, ctl := s.noc.ctl } } = s) ∧
  (∀ (s : State) (m : CtlMsg) (p : Nat), m.src = epHeadframe → m.args ≠ 3 → s.ctlUnderWay m = false → s.fencePages m = [p] →
    Gives (.fenceClear m) s fun t =>
      (t.fence p).classes = (s.fence p).classes &&& (0xF ^^^ fld m.arg0 3 0) ∧ (∀ q, q ≠ p → t.fence q = s.fence q) ∧
      (∀ i, { t.stope i with cal := { (t.stope i).cal with holdSince := (s.stope i).cal.holdSince } } = s.stope i) ∧
      { t with stopes := s.stopes, noc := { t.noc with fences := s.noc.fences, ctl := s.noc.ctl } } = s) ∧
  (∀ (s : State) (m : CtlMsg), m.args = 3 ∨ m.typ = 0 ∨ 8 ≤ m.typ →
    Gives (.ctlReserved m) s fun t =>
      t.rd nocCtlDiscardCount = s.rd nocCtlDiscardCount + 1 ∧ RegsKept s t [nocCtlDiscardCount] ∧
      Noticed s t causeRouterDiscard m.src ∧
      { t with noc := s.noc, regs := s.regs } = s) ∧
  (∀ (s : State) (m : CtlMsg) (c : Nat), s.ctlAccepts m = true → s.ctlUnderWay m = false → (s.ctlTargets m).filterMap epCore = [c] → 256 ≤ c →
    s.streamPtes m.arg0.toNat = [] →
    Gives (.ctlCancel m) s fun t =>
      (∀ x ∈ (t.core c).queue, x.stream ≠ some m.arg0.toNat) ∧ (∀ d, d ≠ c → t.core d = s.core d) ∧
      (∀ w ∈ t.noc.held, w ∈ s.noc.held) ∧ { t with cores := s.cores, noc := { t.noc with ctl := s.noc.ctl, held := s.noc.held } } = s) ∧
  (∀ (s : State) (m : CtlMsg) (c : Instr), m.src ≠ epHeadframe ∨ m.args = 3 → s.ctlUnderWay m = false → c = .fenceSet m ∨ c = .fenceClear m →
     Gives c s fun t =>
       t.noc.fences = s.noc.fences ∧ t.rd nocCtlDiscardCount = s.rd nocCtlDiscardCount + 1 ∧ RegsKept s t [nocCtlDiscardCount] ∧
       Noticed s t causeRouterDiscard m.src ∧ { t with noc := s.noc, regs := s.regs } = s)

/-- R40, R41, R414, R482: a legal GEOM write with no change pending is held, with the region named in NOC_STATUS; a held change that has waited
REGION_TIMEOUT, its stopes not all quiesced, is abandoned with CAPACITY and TIMED_OUT and leaves every descriptor; one whose stopes have all
quiesced in that time, and that takes no port from an adit in use, is in force at once, in all four words. -/
def Obligations.RegionChangesAreHeld : Prop :=
  (∀ (s : State) (n : Nat) (v w : Word), n < 16 → s.mayWrite 0 (nocGeom n) = true →
    writeFields (match rowAt (nocGeom n) with
      | some (r, _) => r.fields
      | none => []) (s.rd (nocGeom n)) v = (w, false) → s.noc.pending = none →
    s.regionLegal n { geom := w, gate := s.stagedRegion (nocGate n), edge := s.stagedRegion (nocEdge n),
                      ports := s.stagedRegion (nocPorts n) } = true →
    Gives (.geomWrite 0 n v) s fun t =>
      t.noc.pending = some (n, w, s.stagedRegion (nocGate n), s.stagedRegion (nocEdge n), s.stagedRegion (nocPorts n)) ∧
      t.rd nocStatus = BitVec.ofNat 32 (1 + 2 * n) ∧ RegsKept s t [nocStatus] ∧ { t with noc := s.noc, regs := s.regs } = s) ∧
  (∀ (s : State) (n : Nat) (g ga e p : Word), n < 16 → s.noc.pending = some (n, g, ga, e, p) →
    s.quiescedInTime (changeStopes (s.region n) { geom := g, gate := ga, edge := e, ports := p }) = true →
    s.portsFree (s.region n) { geom := g, gate := ga, edge := e, ports := p } = true →
    Gives .regionApply s fun t =>
      t.noc.pending = none ∧ t.rd (nocGeom n) = g ∧ t.rd (nocGate n) = ga ∧ t.rd (nocEdge n) = e ∧ t.rd (nocPorts n) = p ∧
      RegsKept s t [nocGeom n, nocGate n, nocEdge n, nocPorts n, nocStatus]) ∧
  (∀ (s : State) (n : Nat) (g ga e p : Word), s.noc.pending = some (n, g, ga, e, p) →
    s.quiescedInTime (changeStopes (s.region n) { geom := g, gate := ga, edge := e, ports := p }) = false →
    s.noc.pendingSince + fld (s.rd nocRegionTimeout) 13 0 * 1000000 ≤ s.now →
    Gives .regionTimeoutExpiry s fun t =>
      t.noc.pending = none ∧ t.rd nocLastRefuse = BitVec.ofNat 32 rCapacity ∧ t.rd nocStatus = 0x20 ∧
      RegsKept s t [nocLastRefuse, nocStatus] ∧ { t with noc := s.noc, regs := s.regs } = s)

/-- R25: a monitor whose die has power, at the end of the 10 µs of its window, publishes its pace, in its page where it has one, with the time; its
next window starts later; nothing else moves but the pace history of R142 and a notice that R27 may ask for. -/
def Obligations.PaceIsPublished : Prop :=
  ∀ (s : State) (ep factor : Nat), s.hf.vcore ≠ 0 → s.paceStart ep + 10000 ≤ s.now →
    Gives (.paceWindowEnd ep factor) s fun t =>
      (∀ c, epCore ep = some c → t.rd (corePace c) = BitVec.ofNat 32 (factor % 0x10000) ∧ RegsKept s t [corePace c]) ∧
      (epCore ep = none → t.regs = s.regs) ∧
      Table.get { value := 0, time := 0 } t.noc.pace ep = { value := factor % 0x10000, time := s.now } ∧
      s.now < t.paceStart ep + 10000 ∧ t.paceStart ep % 100000 = s.paceStart ep % 100000 ∧
      (s.hf.plan.speed ≤ factor % 0x10000 → t.noc.notices = s.noc.notices) ∧
      { t with noc := s.noc, regs := s.regs, hf := { t.hf with paceHist := s.hf.paceHist } } = s

/-- R27: a published pace below the admitted speed factor sends PACE_LOW to the headframe; that notice, arrived, makes a re-plan due; and a due
re-plan adopts a plan with the next sequence number, at this time, with no cause left. -/
def Obligations.PaceLowReplans : Prop :=
  (∀ (s : State) (ep factor : Nat), s.hf.vcore ≠ 0 → s.paceStart ep + 10000 ≤ s.now → factor % 0x10000 < s.hf.plan.speed →
    Gives (.paceWindowEnd ep factor) s fun t => Noticed s t causePaceLow ep) ∧
  (∀ (s : State) (m : Notice), m.cause = causePaceLow → m.stream = none → s.noticeUnderWay m = false →
    Gives (.faultNotice m) s fun t => t.hf.causes = s.hf.causes ||| 2 ∧ { t.hf with causes := s.hf.causes } = s.hf) ∧
  (∀ (s : State) (orders : List Nat), s.hf.causes ≠ 0 →
    Gives (.marginReplan orders) s fun t =>
      t.hf.causes = 0 ∧ t.hf.plan.seq = (s.hf.plan.seq + 1) % 0x100000000 ∧ t.hf.plan.adopted = s.now ∧ t.hf.plan.cause = s.hf.causes)

/-! ## Plans, the reference buffer and conversion -/

/-- R89, R489: a write of SLOT_HDR stores the header without its reserved bits and makes the slot valid exactly when the plan passes its
check, and else records PLAN_INVALID in SLOT_STATE.CODE and, with the slot, in PLAN_REFUSE; a write of an entry stores it without its
reserved bits and clears VALID. -/
def Obligations.PlanSlotsCommit : Prop :=
  (∀ (s : State) (f i slot : Nat) (v : Word), slot < 24 → i < 256 → s.mayWrite f (planSlotHdr i slot) = true →
    Gives (.slotCommit f i slot v) s fun t =>
      let h := v &&& 0x0001FFFF
      let es := (List.range (min 16 (fld h 4 0))).map fun e => s.rd (planEntry i slot e)
      t.rd (planSlotHdr i slot) = h ∧ (t.slotValid i slot = true ↔ planCheck h es = .none) ∧
      (planCheck h es ≠ .none → t.rd (planSlotState i slot) = BitVec.ofNat 32 (rPlanInvalid * 0x10000) ∧
        fld (t.rd (planRefuse i)) 15 0 = rPlanInvalid ∧ fld (t.rd (planRefuse i)) 20 16 = slot) ∧
      (∀ j, j ≠ i → t.stope j = s.stope j) ∧ { t.stope i with tau := (s.stope i).tau } = s.stope i ∧
      RegsKept s t [planSlotHdr i slot, planSlotState i slot, planRefuse i, regErrStatus (planPage i), regEvtStatus (planPage i)] ∧
      { t with stopes := s.stopes, regs := s.regs, edge := { t.edge with msi := s.edge.msi } } = s) ∧
  (∀ (s : State) (f i slot e : Nat) (v : Word), slot < 24 → e < 16 → i < 256 → s.mayWrite f (planEntry i slot e) = true →
    Gives (.entryWrite f i slot e v) s fun t =>
      t.rd (planEntry i slot e) = v &&& 0x003FFFFF ∧ t.slotValid i slot = false ∧
      RegsKept s t [planEntry i slot e, planSlotState i slot, regErrStatus (planPage i), regEvtStatus (planPage i)] ∧
      { t with regs := s.regs, edge := { t.edge with msi := s.edge.msi } } = s)

/-- R68, R88, R97, R98: a plan passes its check exactly when no condition of R88 holds of its header or of any of its entries; an entry's
predecessor is the latest earlier entry of its phase. -/
def Obligations.PlanCheckIsR88 : Prop :=
  ∀ (h : Word) (es : List Word), es.length = fld h 4 0 →
    (planCheck h es = .none ↔
      1 ≤ fld h 4 0 ∧ fld h 4 0 ≤ 16 ∧ fld h 9 6 ≤ 9 ∧ (bit h 11 = true → bit h 5 = false ∧ fld h 16 12 ≠ 0) ∧
      (bit h 11 = false → fld h 16 12 = 0) ∧
      ∀ (n : Nat) (e : Word), es[n]? = some e →
        fld e 9 7 ≠ 7 ∧ fld e 15 10 ≠ 0 ∧ fld e 2 1 + 6 = fld h 9 6 + fld e 21 18 + fld e 9 7 ∧
        fld e 21 18 ≤ (if bit h 5 = true then 6 else 8) ∧ (bit h 5 = true → popcount 4 (fld e 6 3) = 1) ∧
        (bit h 11 = true → fld e 2 1 = 0 ∧ fld h 16 12 ≤ fld e 15 10) ∧ (bit h 10 = true → fld e 0 0 = 0) ∧
        (fld e 17 16 = 0 ∨
          ∃ (m : Nat) (p : Word), m < n ∧ es[m]? = some p ∧ fld p 0 0 = fld e 0 0 ∧
            (∀ (k : Nat) (q : Word), m < k → k < n → es[k]? = some q → fld q 0 0 ≠ fld e 0 0) ∧
            (fld e 17 16 = 1 ∧ fld e 21 18 = fld p 21 18 ∨ fld e 17 16 = 2 ∧ fld e 21 18 + 1 = fld p 21 18) ∧
            (bit h 5 = true → fld e 6 3 = fld p 6 3)))

/-- R99, R106, R108, R109, R111: the reference buffer warms on an enable, settles, takes a disable, goes OFF with its residues once no plan
runs, or at once where the stope has no region or no power, is disabled after REF_IDLE and enabled by a pre-warm within PREWARM_LEAD; a write of PLAN_CTRL that selects FORCE_ON enables it at
once. When the buffer leaves READY under fault, every running plan of the stope ends with REF_LOST and promotes nothing, no residue is kept,
and a notice with that cause goes to the headframe. -/
def Obligations.ReferenceBufferMoves : Prop :=
  (∀ (s : State) (i : Nat), s.refMode i ≠ 2 → (s.stope i).ref = .off → s.refAllowed i = true →
    Gives (.refEnable i) s fun t =>
      t.stope i = { s.stope i with ref := .warming, refDisable := false, refSince := s.now } ∧ StopeCharged s t i ∧
      (s.refMode i = 1 → t.hf = s.hf)) ∧
  (∀ (s : State) (i : Nat), (s.stope i).ref = .warming →
    Gives (.refReady i) s fun t => t.stope i = { s.stope i with ref := .ready, refSince := s.now } ∧ StopeOnly s t i) ∧
  (∀ (s : State) (i : Nat), s.refMode i ≠ 1 → (s.stope i).ref ≠ .off →
    Gives (.refDisable i) s fun t => t.stope i = { s.stope i with refDisable := true } ∧ StopeOnly s t i) ∧
  (∀ (s : State) (i : Nat), s.refMode i ≠ 1 → (s.stope i).ref ≠ .off →
    ((s.stope i).refDisable = true ∧ (∀ q ∈ (s.stope i).seqs, q.busy = false)) ∨ s.refAllowed i = false →
    Gives (.refOff i) s fun t =>
      t.stope i = { s.stope i with ref := .off, refDisable := false, refSince := s.now, residue := [], cal := (s.stope i).cal.restartGain } ∧
      StopeOnly s t i) ∧
  (∀ (s : State) (i : Nat), s.refMode i = 0 → (s.stope i).ref = .ready → (∀ q ∈ (s.stope i).seqs, q.busy = false) →
    (s.stope i).refSince + fld (s.rd (planRefIdle i)) 15 0 * 1000 ≤ s.now → s.lookAhead i = false →
    (s.calc i).phase ≠ .zero → (s.calc i).phase ≠ .full →
    Gives (.refIdleExpiry i) s fun t => t.stope i = { s.stope i with refDisable := true } ∧ StopeOnly s t i) ∧
  (∀ (s : State) (i : Nat), s.refMode i = 0 → s.lookAhead i = true → (s.stope i).ref = .off → s.refAllowed i = true →
    s.prewarmNeed (fld (s.rd (planPrewarmLead i)) 7 0 * 1000) ≤ s.unreserved →
    Gives (.prewarm i) s fun t =>
      t.stope i = { s.stope i with ref := .warming, refDisable := false, refSince := s.now } ∧
      (∀ j, j ≠ i → t.stope j = s.stope j) ∧ t.regs = s.regs ∧ t.mem = s.mem ∧ t.wnd = s.wnd ∧ t.cores = s.cores ∧ t.noc = s.noc) ∧
  (∀ (s : State) (f i : Nat) (v : Word), i < 256 → s.mayWrite f (planCtrl i) = true → fld v 3 2 = 1 → (s.stope i).ref = .off →
    s.refAllowed i = true →
    Gives (.refModeWrite f i v) s fun t =>
      t.rd (planCtrl i) &&& 0xF = v &&& 0xF ∧ t.stope i = { s.stope i with ref := .warming, refDisable := false, refSince := s.now } ∧
      StopeRegs s t i [planCtrl i]) ∧
  (∀ (s : State) (i : Nat), (s.stope i).ref = .ready →
     Gives (.refLost i) s fun t =>
       (t.stope i).ref = .warming ∧ (t.stope i).residue = [] ∧ (t.stope i).acc = (s.stope i).acc ∧
       (∀ k, k < 4 → ((t.stope i).seq k).busy = false) ∧
       (∀ k l, k < 4 → ((s.stope i).seq k).busy = true → (s.stope i).launch ((s.stope i).seq k).launch = some l →
         ∃ l', (t.stope i).launch l.id = some l' ∧ l'.ended = true ∧ l'.status = causeRefLost) ∧
       Noticed s t causeRefLost i ∧ NocNotices s t ∧
       (∀ j, j ≠ i → t.stope j = s.stope j) ∧ { t with stopes := s.stopes, noc := s.noc } = s)

/-- R107, R111, R114, R485: a launch whose waits have ended is refused with REF_COLD at a buffer that is not READY, which is counted, and
converts nothing; it runs where all checks pass; and with no plan running the stope switches to the bank that a held launch needs. -/
def Obligations.LaunchesMeetTheirChecks : Prop :=
  (∀ (s : State) (i id : Nat) (l : Launch), (s.stope i).launch id = some l → l.running = false → l.ended = false →
    s.launchFree i l = true → (s.stope i).ref ≠ .ready →
    Gives (.planStart i id) s fun t =>
      (t.stope i).launch id = some { l with running := false, ended := true, status := rRefCold, left := 0 } ∧
      { t.stope i with launches := (s.stope i).launches } = s.stope i ∧ t.rd (planRefColdCount i) = s.rd (planRefColdCount i) + 1 ∧
      StopeRegs s t i [planRefColdCount i, planRefuse i]) ∧
  (∀ (s : State) (i id : Nat) (l : Launch), (s.stope i).launch id = some l → l.running = false → l.ended = false →
    s.launchFree i l = true → s.launchCheck i l = 0 →
    Gives (.planStart i id) s fun t =>
      (t.stope i).launch id = some { l with running := true, left := l.seams } ∧
      (∀ k ∈ l.seamList, k < (s.stope i).seqs.length →
        ((t.stope i).seq k).busy = true ∧ ((t.stope i).seq k).entries = l.entries ∧ ((t.stope i).seq k).pos = 0) ∧
      (t.stope i).acc = (s.stope i).acc ∧ (t.stope i).queue = (s.stope i).queue ∧ StopeOnly s t i) ∧
  (∀ (s : State) (i : Nat) (l : Launch), (s.stope i).switchWait = some l → (∀ q ∈ (s.stope i).seqs, q.busy = false) →
    Gives (.bankSwitch i) s fun t => t.stope i = { s.stope i with bank := l.bank } ∧ StopeOnly s t i)

/-- R95, R96: a conversion's code and its residue add up to the sample, the code is a byte, and the residue is valid exactly for a code
that is not clipped, and then is at most half an LSB. -/
def Obligations.ConversionsRoundToNearest : Prop :=
  ∀ (v : Rat) (ctr now : Nat) (broken : Bool),
    let x := convert v ctr now broken
    ((x.code : Rat) - 128) + x.residue.value = v ∧ x.code ≤ 255 ∧ (x.residue.valid = true ↔ x.code ≠ 0 ∧ x.code ≠ 255) ∧
    (x.residue.valid = true → -(1 / 2) ≤ x.residue.value ∧ x.residue.value ≤ 1 / 2)

/-- R92, R102, R103: an entry converts on every macro of the seam; each pushes 128 tags while the queue has room for them all and holds
its push while fewer than 128 words are free, so that no tag is dropped, and the combine stage drains at most the words given; with nothing held
and nothing drained the tags stand in the queue, or are all held. When the combine stage drains, it takes the queue's front, and held pushes enter
behind in their order while there is room. -/
def Obligations.EntriesConvert : Prop :=
  (∀ (s : State) (i k n : Nat) (e : Word), s.entryFree i k = true → ((s.stope i).seq k).entries[((s.stope i).seq k).pos]? = some e →
    Gives (.entryRun i k n) s fun t =>
      ((t.stope i).seq k).pos = ((s.stope i).seq k).pos + 1 ∧ t.rd64 (planConvCountLo i) = (s.rd64 (planConvCountLo i) + 1) % 2 ^ 64 ∧
      (∃ d, d ≤ n ∧ (t.stope i).queue.length + ((t.stope i).heldPush.map fun g => g.2.2.length).sum + d =
        (s.stope i).queue.length + ((s.stope i).heldPush.map fun g => g.2.2.length).sum + 128 * ((s.stope i).converting k).length) ∧
      ((s.stope i).queue.length ≤ 8192 → (∀ g ∈ (s.stope i).heldPush, g.2.2.length = 128) → (t.stope i).queue.length ≤ 8192) ∧
      (n = 0 → (s.stope i).heldPush = [] → (s.stope i).queue.length + 128 * ((s.stope i).converting k).length ≤ 8192 →
        (t.stope i).heldPush = [] ∧
        ∃ tags, (t.stope i).queue = (s.stope i).queue ++ tags ∧ tags.length = 128 * ((s.stope i).converting k).length) ∧
      (n = 0 → (s.stope i).heldPush = [] → 8192 < (s.stope i).queue.length + 128 →
        (t.stope i).queue = (s.stope i).queue ∧ (t.stope i).heldPush.length = ((s.stope i).converting k).length) ∧
      (t.stope i).acc = (s.stope i).acc ∧ (∀ j, j ≠ i → t.stope j = s.stope j) ∧
      RegsKept s t [planConvCountLo i, planConvCountLo i + 4, planSatCountLo i, planSatCountLo i + 4, planCarryBreakCountLo i,
        planCarryBreakCountLo i + 4, planTintRaisedCount i] ∧
      { t with stopes := s.stopes, regs := s.regs, freeCtr := s.freeCtr } = s) ∧
  (∀ (s : State) (i n : Nat),
    Gives (.resultPushResume i n) s fun t =>
      ((t.stope i).queue, (t.stope i).heldPush) = pushHeld (s.stope i).heldPush ((s.stope i).queue.drop n) ∧
      (∃ m, (t.stope i).heldPush = (s.stope i).heldPush.drop m ∧
        (t.stope i).queue = (s.stope i).queue.drop n ++ ((s.stope i).heldPush.take m).flatMap (·.2.2)) ∧
      (∀ g gs, (s.stope i).heldPush = g :: gs → (s.stope i).queue.length - n + 128 ≤ 8192 → (t.stope i).heldPush.length ≤ gs.length) ∧
      (∀ g gs, (t.stope i).heldPush = g :: gs → 8192 < (t.stope i).queue.length + 128) ∧
      (t.stope i).acc = (s.stope i).acc ∧ StopeOnly s t i)

/-- R70, R172, R334, R335: at the end of a pass the combine stage drains the queue; where its checks pass, each data column that it converted is
promoted: its run, shifted by BASE_SHIFT and clamped, is added to its accumulator, and no other accumulator moves; where a check fails for the
first time the pass runs again from its first entry and promotes nothing; and where an uncorrectable error was met in the queue or the
accumulators, it is counted, every running plan of the stope ends and promotes nothing. -/
def Obligations.PassesPromote : Prop :=
  (∀ (s : State) (i k : Nat) (l : Launch),
    let u := s.updStope i fun t => t.drain t.queue.length
    s.passOver i k = true → k < 4 →
    (s.stope i).launch ((s.stope i).seq k).launch = some l → bitAt l.reruns k = false → u.failing i k l.tau = [] →
    ((s.stope i).seam k).mode = .checked → ((s.stope i).seam k).finalRerun = false →
    let q := (s.stope i).seq k
    let lim : Int := if bit q.hdr 5 = true then 1048572 else 262143
    Gives (.passEnd i ⟨k, false⟩) s fun t =>
      (∀ m c, 16 * k ≤ m → m < 16 * k + 16 → c ∈ passColumns q →
        Table.get 0 (t.stope i).acc (256 * m + c) = Table.get 0 (s.stope i).acc (256 * m + c) +
          BitVec.ofInt 32 (clampI (-lim) lim (Table.get 0 (u.stope i).narrow (256 * m + c) * (2 : Int) ^ fld q.hdr 9 6))) ∧
      (∀ m c, c < 256 → (m < 16 * k ∨ 16 * k + 16 ≤ m ∨ c ∉ passColumns q) →
        Table.get 0 (t.stope i).acc (256 * m + c) = Table.get 0 (s.stope i).acc (256 * m + c)) ∧
      StopeRegs s t i [shellSatCount i, checkSkipCount i]) ∧
  (∀ (s : State) (i k : Nat) (l : Launch),
    let u := s.updStope i fun t => t.drain t.queue.length
    s.passOver i k = true → (s.stope i).launch ((s.stope i).seq k).launch = some l → bitAt l.reruns k = false → u.failing i k l.tau ≠ [] →
    ((s.stope i).seam k).mode = .checked → ((s.stope i).seam k).finalRerun = false →
    Gives (.passEnd i ⟨k, false⟩) s fun t =>
      ((t.stope i).seq k).pos = 0 ∧ ((t.stope i).seq k).busy = true ∧ (t.stope i).acc = (s.stope i).acc ∧ (t.stope i).queue = [] ∧
      (t.stope i).launch l.id = some { l with reruns := l.reruns ||| 2 ^ k } ∧ StopeRegs s t i [checkSkipCount i]) ∧
  (∀ (s : State) (i k : Nat), s.passOver i k = true → (∀ x ∈ (s.core i).issued, x.await ≠ .launch ((s.stope i).seq k).launch) →
    Gives (.passEnd i ⟨k, true⟩) s fun t =>
      t.rd (coreUe i) = s.rd (coreUe i) + 1 ∧ (t.stope i).acc = (s.stope i).acc ∧ (∀ j, j < 4 → ((t.stope i).seq j).busy = false) ∧
      StopeRegs s t i [coreUe i]) ∧
  (∀ (s : State) (i k : Nat) (x : Issued), s.passOver i k = true →
    ((s.core i).issued.find? fun y => y.await == .launch ((s.stope i).seq k).launch) = some x →
    Gives (.passEnd i ⟨k, true⟩) s fun t =>
      t.rd (coreUe i) = s.rd (coreUe i) + 1 ∧ t.rd (coreLastFault i) = BitVec.ofNat 32 (causeAccUe + min x.desc.index 4095 * 0x10000) ∧
      Noticed s t causeAccUe (coreEp i) ∧ (t.stope i).acc = (s.stope i).acc ∧ (∀ j, j < 4 → ((t.stope i).seq j).busy = false) ∧
      RegsKept s t [coreUe i, coreLastFault i] ∧ t.mem = s.mem)

/-! ## Calibration and the margin plan -/

/-- R123: identity coefficients correct a code to its distance from 128, and a corrected code is the rounded product, ties to even,
within −128 to 127. -/
def Obligations.CodesAreCorrected : Prop :=
  (∀ code : Nat, code ≤ 255 → correct code 0x4000 = (code : Int) - 128) ∧
  (∀ (code : Nat) (coef : Word), -128 ≤ correct code coef ∧ correct code coef ≤ 127) ∧
  (∀ (code : Nat) (coef : Word) (n : Int), -128 < n → n < 127 →
    |(((code : Int) - 128 : Int) - ((BitVec.ofNat 16 (fld coef 31 16)).toInt : Rat) / 256) * ((fld coef 15 0 : Nat) / (16384 : Rat)) - (n : Rat)| < 1 / 2 →
    correct code coef = n)

/-- R125: at every gain and FS_CODE from 96 to 120 the full end takes the reference rows and pulses whose expected code is the largest not
above FS_CODE, of equal ones those with the most rows, then the fewest pulses; and that code is at least 96. -/
def Obligations.CalibrationPointsAreR125 : Prop :=
  ∀ g fs : Nat, g < 7 → 96 ≤ fs → fs ≤ 120 →
    let x := calPoint g fs
    let e (n p : Nat) : Rat := (12 * p * n : Nat) / gainStep g
    x.1 ∈ [2, 4, 6, 8] ∧ 1 ≤ x.2.1 ∧ x.2.1 ≤ 31 ∧ x.2.2 = e x.1 x.2.1 ∧ 96 ≤ x.2.2 ∧ x.2.2 ≤ fs ∧
    ∀ n p : Nat, n ∈ [2, 4, 6, 8] → 1 ≤ p → p ≤ 31 → e n p ≤ fs →
      e n p ≤ x.2.2 ∧ (e n p = x.2.2 → n < x.1 ∨ n = x.1 ∧ x.2.1 ≤ p)

/-- R129, R134, R148: CAL_ZERO starts at the zero end, CAL_FULL without a usable zero end too, each over CAL_GAINS; a write with a bad
FS_CODE only sets CMD_REFUSED; a command during a run is held; ABORT ends the run and the held command and changes no coefficient; an
EXCLUSIVE command that waits starts once the FENCE bit reads 1, and a held one once the run has ended. -/
def Obligations.CalibrationCommandsAct : Prop :=
  (∀ (s : State) (f i : Nat) (v : Word), i < 256 → s.mayWrite f (calCmd i) = true → fld v 9 3 = 0 → bit v 2 = false →
    (s.calc i).phase = .idle → (s.calc i).exclWait = none → fld (s.rd (calGains i)) 6 0 ≠ 0 →
    Gives (.calZero f i v) s fun t =>
      (t.calc i).phase = .zero ∧ (t.calc i).onlyZero = true ∧ (t.calc i).excl = false ∧ (t.calc i).gains = fld (s.rd (calGains i)) 6 0 ∧
      (t.stope i).coef = (s.stope i).coef ∧ StopeCharged s t i) ∧
  (∀ (s : State) (f i : Nat) (v : Word), i < 256 → s.mayWrite f (calCmd i) = true → 96 ≤ fld v 9 3 → fld v 9 3 ≤ 120 → bit v 2 = false →
    (s.calc i).phase = .idle → (s.calc i).exclWait = none → fld (s.rd (calGains i)) 6 0 ≠ 0 → s.zeroFresh i = false →
    Gives (.calFull f i v) s fun t =>
      (t.calc i).phase = .zero ∧ (t.calc i).onlyZero = false ∧ (t.calc i).fs = fld v 9 3 ∧
      (t.calc i).gains = fld (s.rd (calGains i)) 6 0 ∧ (t.stope i).coef = (s.stope i).coef ∧ StopeCharged s t i) ∧
  (∀ (s : State) (f i : Nat) (v : Word) (c : Instr), i < 256 → s.mayWrite f (calCmd i) = true → fld v 9 3 ≠ 0 →
    fld v 9 3 < 96 ∨ 120 < fld v 9 3 → c = .calZero f i v ∨ c = .calFull f i v ∨ c = .calAbort f i v →
    Gives c s fun t => t.calc i = { s.calc i with cmdRefused := true } ∧ { t.stope i with cal := s.calc i } = s.stope i ∧ StopeOnly s t i) ∧
  (∀ (s : State) (f i : Nat) (v : Word), i < 256 → s.mayWrite f (calCmd i) = true → fld v 9 3 = 0 → (s.calc i).phase ≠ .idle →
    Gives (.calFull f i v) s fun t =>
      t.calc i = { s.calc i with cmdRefused := false, heldCmd := some (setFld v 1 0 2) } ∧
      { t.stope i with cal := s.calc i } = s.stope i ∧ StopeOnly s t i) ∧
  (∀ (s : State) (f i : Nat) (v : Word), i < 256 → s.mayWrite f (calCmd i) = true → fld v 9 3 = 0 →
    Gives (.calAbort f i v) s fun t =>
      (t.calc i).phase = .idle ∧ (t.calc i).heldCmd = none ∧ (t.calc i).exclWait = none ∧ (t.calc i).gainValid = (s.calc i).gainValid ∧
      { t.stope i with cal := s.calc i } = s.stope i ∧ StopeOnly s t i) ∧
  (∀ (s : State) (i : Nat) (v : Word), (s.calc i).exclWait = some v → s.fenceBit (shellPage i) = true → (s.calc i).phase = .idle →
    fld v 1 0 = 1 → fld (s.rd (calGains i)) 6 0 ≠ 0 →
    Gives (.calExclStart i) s fun t =>
      (t.calc i).phase = .zero ∧ (t.calc i).excl = true ∧ (t.calc i).exclWait = none ∧ (t.stope i).coef = (s.stope i).coef ∧ StopeCharged s t i) ∧
  (∀ (s : State) (i : Nat) (v : Word), (s.calc i).heldCmd = some v → (s.calc i).phase = .idle → (s.calc i).exclWait = none →
    bit v 2 = false → fld v 1 0 = 1 → fld (s.rd (calGains i)) 6 0 ≠ 0 →
    Gives (.calHeldStart i) s fun t =>
      (t.calc i).phase = .zero ∧ (t.calc i).heldCmd = none ∧ (t.stope i).coef = (s.stope i).coef ∧ StopeCharged s t i)

/-- R126, R130, R133, R134: a sample is taken at the spacing of R126; a granted slot opens; a deferral that has run out forces slots; a
held sample restarts; a seam whose plans have ended takes its fresh coefficients, each column and gain, and no other coefficient moves. -/
def Obligations.CalibrationProceeds : Prop :=
  (∀ (s : State) (i : Nat), s.calFree i = true → (s.calc i).taken < 63 →
    Gives (.calSample i) s fun t =>
      (t.calc i).taken = (s.calc i).taken + 1 ∧ (t.calc i).lastSample = s.now ∧ { t.stope i with cal := s.calc i } = s.stope i ∧
      (∀ j, j ≠ i → t.stope j = s.stope j) ∧ ((s.calc i).excl = false → t.hf = s.hf) ∧
      { t with stopes := s.stopes, freeCtr := s.freeCtr, hf := s.hf } = s) ∧
  (∀ (s : State) (i : Nat), (∀ q ∈ (s.stope i).seqs, q.busy = false) → s.grantOpen (s.calc i).forced = true → (s.calc i).phase ≠ .idle →
    (s.calc i).excl = false →
    Gives (.calSlot i) s fun t =>
      t.calc i = { s.calc i with slotOpen := true, slotSince := s.now } ∧ t.hf.spent = s.hf.spent + s.slotCharge ∧ StopeCharged s t i) ∧
  (∀ (s : State) (i : Nat), (s.calc i).due = true → (s.calc i).phase ≠ .idle →
    (s.calc i).dueSince + fld (s.rd (calDefer i)) 15 0 * 1000000 ≤ s.now →
    Gives (.calDeferExpiry i) s fun t => t.calc i = { s.calc i with forced := true } ∧ StopeOnly s t i) ∧
  (∀ (s : State) (i h : Nat), (s.calc i).holdSince = some h → h + 100000 < s.now → (s.calc i).excl = false →
    Gives (.calHoldTimeout i) s fun t =>
      (t.calc i).taken = 0 ∧ (t.calc i).gain = (s.calc i).gain ∧ (t.calc i).phase = (s.calc i).phase ∧
      (t.stope i).coef = (s.stope i).coef ∧ StopeOnly s t i) ∧
  (∀ (s : State) (i k : Nat), (s.calc i).phase = .commit → k < 5 → (s.stope i).commitFree k = true → bitAt (s.calc i).committed k = false →
    (s.calc i).committed + 2 ^ k ≠ 31 →
    Gives (.calCommit i k) s fun t =>
      (∀ key w, (key, w) ∈ (s.calc i).fresh → (commitMacros k).contains (key / 2048) = true →
        (∀ w', (key, w') ∈ (s.calc i).fresh → w' = w) → Table.get 0x4000 (t.stope i).coef key = w) ∧
      (∀ key, (commitMacros k).contains (key / 2048) = false → Table.get 0x4000 (t.stope i).coef key = Table.get 0x4000 (s.stope i).coef key) ∧
      (t.calc i).committed = (s.calc i).committed + 2 ^ k ∧ (t.calc i).gainValid = (s.calc i).gainValid ∧ StopeOnly s t i)

/-- R131, R135, R139, R140, R143, R146, R446: a calibration falls due when its interval has passed, when a gain joins CAL_GAINS, and in every
stope when the reference rows of a bank whose common factor lies outside 0.98 to 1.02 are restored, which puts the bank's reference cells at +12; the headframe calibrates the next diagonal group
EXCLUSIVE; a host's CAL_INT asks for a re-plan; the hourly judgement of DRAM errors starts the next hour's counts at 0; and a plan 24 h old,
and REPLAN_NOW, make a re-plan due. -/
def Obligations.CalibrationFallsDue : Prop :=
  (∀ (s : State) (i : Nat), (s.calc i).due = false → (s.calc i).lastDone + s.hf.plan.calInterval * 60000000000 ≤ s.now →
    Gives (.calIntervalExpiry i) s fun t => t.calc i = { s.calc i with due := true, dueSince := s.now } ∧ StopeOnly s t i) ∧
  (∀ (s : State) (f i : Nat) (v : Word), i < 256 → s.mayWrite f (calGains i) = true → (s.calc i).due = false →
    fld v 6 0 &&& (0x7F ^^^ fld (s.rd (calGains i)) 6 0) ≠ 0 →
    Gives (.calGainsWrite f i v) s fun t =>
      (t.calc i).due = true ∧ fld (t.rd (calGains i)) 6 0 = fld v 6 0 ∧ StopeRegs s t i [calGains i]) ∧
  (∀ (s : State) (bank : Bool), s.factorOut bank = true →
    Gives (.refRowRestore bank) s fun t =>
      (∀ i, i < 256 → (t.calc i).due = true) ∧
      (∀ i m row c, m < 74 → 256 ≤ row → row < 264 → c < 256 → (t.stope i).cell m bank row c = 12) ∧
      (∀ i m row c, m < 74 → row < 256 → c < 256 → (t.stope i).cell m bank row c = (s.stope i).cell m bank row c) ∧
      { t with stopes := s.stopes } = s) ∧
  (∀ (s : State), s.hf.pwr = .cal → s.hf.calGroup = 0 →
    Gives .calGroup s fun t =>
      t.hf.calGroup = 1 ∧ { t.hf with calGroup := s.hf.calGroup, spent := s.hf.spent, charged := s.hf.charged } = s.hf ∧ (∀ i, i < 256 → (i % 16 + i / 16) % 16 ≠ 0 → t.stope i = s.stope i) ∧
      (∀ i, i < 256 → (i % 16 + i / 16) % 16 = 0 → (s.stopeRegion i).isSome = true → (s.calc i).phase = .idle →
        (s.calc i).exclWait = none → s.fenceBit (shellPage i) = false → (t.calc i).exclWait = some 6) ∧
      { t with stopes := s.stopes, hf := s.hf } = s) ∧
  (∀ (s : State) (f : Nat) (v : Word), s.mayWrite f hfCalInt = true → 15 ≤ fld v 9 0 → fld v 9 0 ≤ 720 →
    Gives (.calIntWrite f v) s fun t =>
      fld (t.rd hfCalInt) 9 0 = fld v 9 0 ∧ t.hf.causes = s.hf.causes ||| 0x100 ∧ RegsKept s t [hfCalInt, regErrStatus hfPage, regEvtStatus hfPage] ∧
      t.hf.plan = s.hf.plan) ∧
  (∀ (s : State), Gives .dramHourCheck s fun t => t.kv.ceHour = [] ∧ t.hf.plan = s.hf.plan ∧ t.stopes = s.stopes ∧ t.wnd = s.wnd) ∧
  (∀ s : State, s.hf.plan.adopted + 86400000000000 ≤ s.now →
    exec .replanDaily s = .next { s with hf := { s.hf with causes := s.hf.causes ||| 1 } }) ∧
  (∀ s : State,
    Gives (.replan 0) s fun t =>
      t.hf = { s.hf with causes := s.hf.causes ||| 0x100 } ∧ RegsKept s t [hfCtrl] ∧ { t with hf := s.hf, regs := s.regs } = s)

/-! ## Shell and merge cores -/

/-- R152, R153, R171: a core takes the next step of its queue, fetches the descriptors of a step in order from 16-byte aligned addresses,
and faults with DESC_INVALID, INDEX 4,095, at the 4,097th fetch; an issued descriptor whose work is done retires and is counted, and one that ended
with a cause faults its step. -/
def Obligations.StepsStartFetchAndComplete : Prop :=
  (∀ (s : State) (c : Nat) (x : Step) (rest : List Step), (s.core c).queue = x :: rest → (s.core c).run = none →
    s.enabled (coreBase c) = true → s.quiescing (coreBase c) = false → s.coreFenced c 0 = false → s.coldStep c x = false →
    Gives (.stepStart c) s fun t =>
      (t.core c).queue = rest ∧ (∃ r, (t.core c).run = some r ∧ r.step = x ∧ r.next = 0) ∧ (t.core c).issued = (s.core c).issued ∧
      CoreOnly s t c) ∧
  (∀ (s : State) (c : Nat) (r : Running), (s.core c).run = some r → (s.core c).fetched = none → (s.core c).rerun = none → r.next < 4096 →
    r.step.prog % 16 = 0 → r.step.prog + 16 * r.next + 16 ≤ s.progSize c →
    (let a := s.progBase c + (r.step.prog + 16 * r.next)
     s.poisoned (a / 8) = false → s.poisoned (a / 8 + 1) = false → opcodes.contains (fld (descOf r.next (s.rdMem a 16)).w0 6 0) = true →
     Gives (.descFetch c []) s fun t =>
       (t.core c).fetched = some (descOf r.next (s.rdMem a 16)) ∧ (∃ r', (t.core c).run = some r' ∧ r'.next = r.next + 1 ∧ r'.id = r.id) ∧
       CoreOnly s t c)) ∧
  (∀ (s : State) (c : Nat) (r : Running), (s.core c).run = some r → (s.core c).fetched = none → (s.core c).rerun = none → 4096 ≤ r.next →
    Gives (.descFetch c []) s fun t =>
      t.rd (coreLastFault c) = BitVec.ofNat 32 (causeDescInvalid + 4095 * 0x10000) ∧ (t.core c).run = none ∧
      Noticed s t causeDescInvalid (coreEp c) ∧ RegsKept s t [coreLastFault c] ∧
      { t with cores := s.cores, regs := s.regs, noc := s.noc } = s) ∧
  (∀ (s : State) (c : Nat) (x : Issued), ((s.core c).issued.find? fun i => i.desc.index == x.desc.index && s.ending c i != .atWork) = some x →
    (x.await = .nothing ∨ x.await = .packets 0) → x.cause = 0 →
    Gives (.descComplete c x.desc.index) s fun t =>
      (t.core c).issued = (s.core c).issued.erase x ∧ t.rd64 (coreDescCount c) = (s.rd64 (coreDescCount c) + 1) % 2 ^ 64 ∧
      CoreRegs s t c [coreDescCount c, coreDescCount c + 4]) ∧
  (∀ (s : State) (c code : Nat) (x : Issued), ((s.core c).issued.find? fun i => i.desc.index == x.desc.index && s.ending c i != .atWork) = some x →
    s.ending c x = .cause code → x.await = .nothing → 0x100 ≤ code → code < 0x10000 →
    Gives (.descComplete c x.desc.index) s fun t =>
      t.rd (coreLastFault c) = BitVec.ofNat 32 (code + min x.desc.index 4095 * 0x10000) ∧ Noticed s t code (coreEp c) ∧
      (∀ y ∈ (t.core c).issued, y.step ≠ x.step) ∧ RegsKept s t [coreLastFault c] ∧ t.mem = s.mem ∧ t.stopes = s.stopes)

/-- R11, R153, R156, R162: each opcode's descriptor, once judged sound, held by nothing and with no word it reads poisoned or refused, has its
scoreboard entries and its effect, and the fetch goes on; one judged bad, for its form, for what it meets at issue or for what it reads, has no
effect but its fault: LAST_FAULT takes the cause and the position, and the step ends. -/
def Obligations.DescriptorsIssueOrFault : Prop :=
  ∀ (s : State) (c : Nat) (d : Desc) (r : Running) (a b sa sb p ev src dst n k : Nat) (da srcs : List Nat) (fin : Bool)
    (cmd : Instr) (op : Nat) (j : State → Desc → Judged),
    (cmd, op, j) ∈ ([(.dma c [], 0x01, fun s d => s.dmaJudge c d), (.dma2d c [], 0x02, fun s d => s.dma2dJudge c d),
      (.fill c [], 0x03, fun s d => s.fillJudge c d), (.launch c [] da, 0x08, fun s d => s.launchJudge c da d),
      (.accClear c [], 0x09, fun s d => s.accClearJudge c d), (.accAdd c [], 0x0A, fun s d => s.accAddJudge c d),
      (.accRead c [], 0x0B, fun s d => s.accReadJudge c d), (.scale c [], 0x0C, fun s d => s.scaleJudge c d),
      (.requant c [], 0x0D, fun s d => s.requantJudge c d), (.vbin c [], 0x10, fun s d => s.vbinJudge c d),
      (.vfma c [], 0x11, fun s d => s.vfmaJudge c d), (.vcvt c [], 0x12, fun s d => s.vcvtJudge c d),
      (.vred c [], 0x13, fun s d => s.vredJudge c d), (.nlf c [], 0x14, fun s d => s.nlfJudge c d),
      (.norm c [], 0x15, fun s d => s.normJudge c d), (.xred c [], 0x16, fun s d => s.xredJudge c d),
      (.vtopk c [], 0x17, fun s d => s.vtopkJudge c d), (.barrier c [], 0x20, fun s d => s.barrierJudge c d),
      (.cwait c [], 0x21, fun s d => s.cwaitJudge c d), (.cinc c [], 0x22, fun _ d => cincJudge c d),
      (.wopen c [], 0x23, fun s d => s.wopenJudge c d), (.wclose c [], 0x24, fun s d => s.wcloseJudge c d),
      (.wwait c [], 0x25, fun s d => s.wwaitJudge c d), (.mma4 c [] a b sa sb dst n k, 0x30, fun s d => s.mma4Judge c a b sa sb dst n k d),
      (.pquant c [] p ev dst n k, 0x31, fun s d => s.pquantJudge c p ev dst n k d),
      (.pmerge c [] srcs dst fin, 0x32, fun s d => s.pmergeJudge c srcs dst fin d),
      (.cands c [] src a b n dst, 0x33, fun s d => s.candsJudge c src a b n dst d), (.kvcmd c [], 0x34, fun s d => s.kvcmdJudge c d)] :
      List (Instr × Nat × (State → Desc → Judged))) →
    (s.core c).fetched = some d → (s.core c).run = some r → fld d.w0 6 0 = op →
    (∀ x : Act, j s d = .act x → s.issueHolds c d x = false → (∀ w ∈ x.order (s.core c).part.sent, s.poisoned w = false) → x.refuse s = 0 →
      exec cmd s = .next ((x.effect (s.core c).part.sent (s.updCore c fun t =>
        { t with part := Machine.Part.none,
                 issued := t.issued ++ [{ step := r.id, desc := d, await := x.await.less t.part.back, cause := t.part.cause, again := t.again,
                                          sb := x.entries }] })).updCore c
          fun t => t.issueNext d.last)) ∧
    (∀ code : Nat, (j s d = .bad code ∨ j s d = .late code ∧ s.issueHolds c d Act.empty = false ∨
        ∃ x, j s d = .act x ∧ s.issueHolds c d x = false ∧ (∀ w ∈ x.order (s.core c).part.sent, s.poisoned w = false) ∧ x.refuse s = code ∧
          code ≠ 0) → code < 0x10000 →
      Gives cmd s fun t =>
        t.rd (coreLastFault c) = BitVec.ofNat 32 (code + min d.index 4095 * 0x10000) ∧ (t.core c).run = none ∧
        (t.core c).fetched = none ∧ t.mem = s.mem ∧ t.stopes = s.stopes ∧ RegsKept s t [coreLastFault c, coreLastRefuse c])

/-- R158: the local vector opcodes write what the table gives, element by element, to their destination alone: FILL its pattern, DMA and
DMA2D the source's words, VBIN and VFMA the operation of both operands, VCVT the converted elements, VRED the reduction, NLF the segment's
line, VTOPK the k largest with their indices. -/
def Obligations.VectorOpcodesCompute : Prop :=
  (∀ (s : State) (c : Nat) (d : Desc) (r : Running) (b : Rng), Heads s c d r [] [b] → fld d.w0 6 0 = 0x03 → d.func = 0 →
    s.dstRange c d.w3 d.len false = some b →
    Gives (.fill c []) s fun t =>
      t.rdRange c b = (List.replicate d.len (leBytes 4 d.w1.toNat ++ leBytes 4 d.w2.toNat)).flatten ∧ RangeOnly s t c b ∧
      IssuedOn s t c d r [] [b] .nothing) ∧
  (∀ (s : State) (c : Nat) (d : Desc) (r : Running) (src : Source) (b : Rng), Heads s c d r src.reads [b] → fld d.w0 6 0 = 0x01 →
    d.func = 0 → d.w2 = 0 → s.dmaSource c d.w1 d.len = some src → src.kv = none → spaceOf d.w3 ≠ 3 → spaceOf d.w3 ≠ 4 → spaceOf d.w3 ≠ 5 →
    s.dstRange c d.w3 d.len false = some b →
    Gives (.dma c []) s fun t => t.rdRange c b = src.bytes s ∧ RangeOnly s t c b ∧ IssuedOn s t c d r src.reads [b] .nothing) ∧
  (∀ (s : State) (c : Nat) (d : Desc) (r : Running) (a b : Rng), Heads s c d r [a] [b] → fld d.w0 6 0 = 0x02 → d.func = 0 →
    (let row := fld d.w2 11 0
     let stride := fld d.w2 31 12
     row ≠ 0 → d.len % row = 0 → s.rangeOf c d.w1 ((d.len / row - 1) * stride + row) = some a → a.isOb = false → spaceOf d.w3 ≠ 3 →
     spaceOf d.w3 ≠ 4 → spaceOf d.w3 ≠ 5 → s.dstRange c d.w3 d.len false = some b →
     Gives (.dma2d c []) s fun t =>
       t.rdRange c b = (List.range (d.len / row)).flatMap (fun i => ((s.rdRange c a).drop (8 * (i * stride))).take (8 * row)) ∧
       RangeOnly s t c b ∧ IssuedOn s t c d r [a] [b] .nothing)) ∧
  (∀ (s : State) (c : Nat) (d : Desc) (r : Running) (a b : Rng) (rs : List Rng) (ys : State → List Word) (f : Word → Word → Word),
    Heads s c d r (a :: rs) [b] → fld d.w0 6 0 = 0x10 → bitAt d.func 4 = false → vbinOp (bitsOf d.func 2 0) = some f →
    s.vecRange c d.w1 d.len = some a → s.secondOp c d = some (rs, ys) → s.dstRange c d.w3 d.len false = some b → b.space ≠ 1 → b.isOb = false →
    Gives (.vbin c []) s fun t =>
      t.rdLanes c b = ((s.rdLanes c a).zip (ys s)).map (fun p => f p.1 p.2) ∧ RangeOnly s t c b ∧ IssuedOn s t c d r (a :: rs) [b] .nothing) ∧
  (∀ (s : State) (c : Nat) (d : Desc) (r : Running) (a b : Rng) (rs : List Rng) (ys : State → List Word),
    Heads s c d r (a :: rs) [b] → (∀ w ∈ b.wordList, s.poisoned w = false) → fld d.w0 6 0 = 0x11 → bitsOf d.func 2 0 = 0 →
    bitAt d.func 4 = false → s.vecRange c d.w1 d.len = some a → s.secondOp c d = some (rs, ys) → s.dstRange c d.w3 d.len false = some b →
    b.space ≠ 1 → b.isOb = false →
    Gives (.vfma c []) s fun t =>
      t.rdLanes c b = (((s.rdLanes c a).zip (ys s)).zip (s.rdLanes c b)).map (fun p => fFma p.1.1 p.1.2 p.2) ∧ RangeOnly s t c b ∧
      IssuedOn s t c d r (a :: rs) [b] .nothing) ∧
  (∀ (s : State) (c : Nat) (d : Desc) (r : Running) (a b : Rng), Heads s c d r [a] [b] → fld d.w0 6 0 = 0x12 → d.func < 4 → d.w2 = 0 →
    s.vecRange c d.w1 d.len = some a → s.dstRange c d.w3 (vcvtWords d.func d.len) false = some b → b.space ≠ 1 → b.isOb = false →
    Gives (.vcvt c []) s fun t =>
      t.rdRange c b = padTo (8 * vcvtWords d.func d.len) (vcvtBytes d.func (s.rdRange c a)) ∧ RangeOnly s t c b ∧
      IssuedOn s t c d r [a] [b] .nothing) ∧
  (∀ (s : State) (c : Nat) (d : Desc) (r : Running) (a b : Rng), Heads s c d r [a] [b] → fld d.w0 6 0 = 0x13 → d.func < 4 → d.w2 = 0 →
    s.vecRange c d.w1 d.len = some a → s.dstRange c d.w3 1 false = some b → b.space ≠ 1 → b.isOb = false →
    Gives (.vred c []) s fun t =>
      (t.rdLanes c b).head? = some (vredValue d.func (s.rdLanes c a)) ∧ RangeOnly s { t with freeCtr := s.freeCtr } c b ∧
      IssuedOn s t c d r [a] [b] .nothing) ∧
  (∀ (s : State) (c : Nat) (d : Desc) (r : Running) (a q b : Rng), Heads s c d r [a, q] [b] → fld d.w0 6 0 = 0x14 → d.func = 0 →
    s.vecRange c d.w1 d.len = some a → s.vecRange c d.w2 257 = some q → s.dstRange c d.w3 d.len false = some b → b.space ≠ 1 → b.isOb = false →
    (let tab := s.rdLanes c q
     Gives (.nlf c []) s fun t =>
       t.rdLanes c b = (s.rdLanes c a).map (fun x =>
         nlfValue x (tab.getD (2 * nlfIndex x (tab.getD 0 0) (tab.getD 1 0) + 2) 0)
           (tab.getD (2 * nlfIndex x (tab.getD 0 0) (tab.getD 1 0) + 3) 0)) ∧
       RangeOnly s t c b ∧ IssuedOn s t c d r [a, q] [b] .nothing)) ∧
  (∀ (s : State) (c : Nat) (d : Desc) (r : Running) (a b : Rng), Heads s c d r [a] [b] → fld d.w0 6 0 = 0x17 → 0 < d.func → d.func ≤ 16 →
    d.w2 = 0 → s.vecRange c d.w1 d.len = some a → s.dstRange c d.w3 (min d.func (2 * d.len)) false = some b → b.space ≠ 1 → b.isOb = false →
    Gives (.vtopk c []) s fun t =>
      t.rdLanes c b = (topK d.func (s.rdLanes c a)).flatMap (fun p => [BitVec.ofNat 32 p.2, p.1]) ∧ RangeOnly s t c b ∧
      IssuedOn s t c d r [a] [b] .nothing)

/-- R71, R72, R90, R159, R160: ACC_CLEAR zeroes the accumulators named, with their counts; ACC_ADD adds modulo 2^32; ACC_READ copies them
out; SCALE forms the FP32 outputs; REQUANT packs the elements, and with DERIVE the scale records; a LAUNCH of a valid slot waits with the
plan and the input as they then stood, and of a slot that is not valid ends with PLAN_INVALID. -/
def Obligations.AccumulatorOpcodesCompute : Prop :=
  (∀ (s : State) (c : Nat) (d : Desc) (r : Running) (b : Rng), Heads s c d r [] [b] → fld d.w0 6 0 = 0x09 → d.func = 0 → d.w1 = 0 →
    d.w2 = 0 → s.rangeOf c d.w3 d.len = some b → b.space = 1 →
    Gives (.accClear c []) s fun t =>
      (∀ k, b.start ≤ k → k < b.start + 2 * b.words → Table.get 0 (t.stope c).acc k = 0 ∧ Table.get 0 (t.stope c).weight k = 0) ∧
      (∀ k, k < b.start ∨ b.start + 2 * b.words ≤ k → Table.get 0 (t.stope c).acc k = Table.get 0 (s.stope c).acc k) ∧
      (∀ j, j ≠ c → t.stope j = s.stope j) ∧ { t with stopes := s.stopes, cores := s.cores } = s ∧ IssuedOn s t c d r [] [b] .nothing) ∧
  (∀ (s : State) (c : Nat) (d : Desc) (r : Running) (a b : Rng), Heads s c d r [a] [b] → fld d.w0 6 0 = 0x0A → d.func = 0 → d.w2 = 0 →
    s.rangeOf c d.w1 d.len = some a → a.space = 0 → s.rangeOf c d.w3 d.len = some b → b.space = 1 →
    Gives (.accAdd c []) s fun t =>
      t.rdLanes c b = ((s.rdLanes c a).zip (s.rdLanes c b)).map (fun p => p.1 + p.2) ∧ RangeOnly s t c b ∧
      IssuedOn s t c d r [a] [b] .nothing) ∧
  (∀ (s : State) (c : Nat) (d : Desc) (r : Running) (a b : Rng), Heads s c d r [a] [b] → fld d.w0 6 0 = 0x0B → d.func = 0 → d.w2 = 0 →
    s.rangeOf c d.w1 d.len = some a → a.space = 1 → s.rangeOf c d.w3 d.len = some b → b.space = 0 →
    Gives (.accRead c []) s fun t =>
      t.rdRange c b = s.rdRange c a ∧ RangeOnly s t c b ∧ IssuedOn s t c d r [a] [b] .nothing) ∧
  (∀ (s : State) (c : Nat) (d : Desc) (r : Running) (a q b : Rng), Heads s c d r [a, q] [b] → fld d.w0 6 0 = 0x0C → d.func < 4 →
    s.rangeOf c d.w1 d.len = some a → a.space = 1 → s.rangeOf c d.w2 1 = some q → q.space = 0 → s.rangeOf c d.w3 d.len = some b → b.space = 0 →
    recordRefusal [leAt (s.rdRange c q) 0 2] = 0 →
    Gives (.scale c []) s fun t =>
      t.rdLanes c b = a.accs.map (fun i =>
        ((s.stope c).output (s.scaleBank c) i (leAt (s.rdRange c q) 0 1) (bitAt d.func 0) (bitAt d.func 1)).1) ∧
      MemKept s t b.start (8 * b.words) ∧ (t.stope c).acc = (s.stope c).acc ∧ IssuedOn s t c d r [a, q] [b] .nothing) ∧
  (∀ (s : State) (c : Nat) (d : Desc) (r : Running) (mode : Round) (a q b : Rng), Heads s c d r [a, q] [b] → fld d.w0 6 0 = 0x0D →
    roundOf (bitsOf d.func 1 0) = some mode → bitAt d.func 4 = true → s.rangeOf c d.w1 d.len = some a → a.space = 0 →
    s.rangeOf c d.w2 1 = some q → q.space = 0 → s.rangeOf c d.w3 (2 * cdiv (d.len + 2 * cdiv (2 * d.len) 256) 16) = some b → b.space = 0 →
    Gives (.requant c []) s fun t =>
      (let out := requantOut mode (bitAt d.func 2) (bitAt d.func 3) true (s.rdLanes c a) (s.rdRange c q)
       t.rdRange c b = out.1 ∧ t.stope c = { s.stope c with elemFlags := out.2 }) ∧
      RangeOnly s { t with stopes := s.stopes } c b ∧ (∀ j, j ≠ c → t.stope j = s.stope j) ∧ IssuedOn s t c d r [a, q] [b] .nothing) ∧
  (∀ (s : State) (c : Nat) (d : Desc) (r : Running) (a : Rng) (da : List Nat),
    let seams := maskBits 4 (bitsOf d.func 3 0)
    c < 256 → Heads s c d r [a] (seamRngs seams) →
    fld d.w0 6 0 = 0x08 → rsvAbove d.w2 6 = false → d.len = 16 * seams.length → fld d.w2 4 0 < 24 → spaceOf d.w1 = 0 →
    s.rangeOf c d.w1 d.len = some a → spaceOf d.w3 = 2 → addrOf d.w3 = 2048 * seams.headD 0 →
    Gives (.launch c [] da) s fun t =>
      (∃ l, (t.stope c).launches = (s.stope c).launches ++ [l] ∧ l.id = (s.stope c).nextLaunch ∧ l.seams = bitsOf d.func 3 0 ∧
        l.slot = fld d.w2 4 0 ∧ l.running = false ∧ (l.hdr, l.entries) = s.slotPlan c (fld d.w2 4 0) ∧
        l.levels = (List.range (256 * seams.length)).map (fun i => elemLevel (bit d.w2 5) (nibble (s.rdRange c a) i)) ∧
        (s.slotValid c (fld d.w2 4 0) = false → l.ended = true ∧ l.status = rPlanInvalid)) ∧
      (t.stope c).acc = (s.stope c).acc ∧ (∀ j, j ≠ c → t.stope j = s.stope j) ∧ RegsKept s t [planRefuse c] ∧ t.mem = s.mem ∧
      IssuedOn s t c d r [a] (seamRngs seams) (.launch (s.stope c).nextLaunch))

/-- R166, R167, R190, R191, R488: a member's XRED sends its operand to its root and waits; a BARRIER announces its member and waits; the
root takes the nth operand of each member into the nth reduction of the group, and with every operand there combines them in ascending stope
index; an operand from outside the group, or of another LEN, faults the reduction at every member; a result goes to the member's destination. A
CWAIT that is satisfied completes, and with CONSUME takes its target; one whose timeout has passed faults its step; an addition wraps no counter
but stays at 0xFFFF_FFFF with COUNTER_OVF set, and its waiters end with CNT_OVERFLOW. Which reduction an operand from outside faults is the
model's choice (log entry 141). -/
def Obligations.ReductionsAndCountersAct : Prop :=
  (∀ (s : State) (root src g op len : Nat) (data : List DWord), root < 256 →
    (groupValid (s.redgrp root g) = false ∨ src ∉ groupStopes (s.redgrp root g)) → (∀ x ∈ (s.core root).reductions, x.group ≠ g) →
    Gives (.xredOperand root src g op len data) s fun t =>
      (let ps := (groupStopes (s.redgrp root g)).map fun i => redPacket root i 4 []
       t.noc = (s.sendPackets ps).noc ∧ t.regs = (s.sendPackets ps).regs) ∧
      (t.core root).reductions = (s.core root).reductions ∧ { t with noc := s.noc, regs := s.regs, cores := s.cores } = s) ∧
  (∀ (s : State) (root src g op len : Nat) (data : List DWord), src ∈ groupStopes (s.redgrp root g) → groupValid (s.redgrp root g) = true →
    (let u := (s.core root).takeOperand g src op (data.take len)
     (∀ r, u.reductions.find? (fun r => r.group == g) = some r →
        r.faulty = false ∧ (r.started = false ∨ ∃ i ∈ groupStopes (s.redgrp root g), ∀ o ∈ r.operands, o.1 ≠ i)) →
     Gives (.xredOperand root src g op len data) s fun t =>
       t.core root = u ∧ u.seen g src = (s.core root).seen g src + 1 ∧
       ((s.core root).made g ≤ (s.core root).seen g src → u.reductions = (s.core root).reductions ++
         [{ group := g, num := (s.core root).seen g src, bad := false, step := 0, op := op, len := 0, started := false,
            operands := [(src, data.take len)] }]) ∧
       ((s.core root).seen g src < (s.core root).made g → u.reductions = (s.core root).reductions.map fun r =>
         if r.group == g && r.num == (s.core root).seen g src then
           { r with operands := r.operands ++ [(src, data.take len)], op := if r.started then r.op else op } else r) ∧
       CoreOnly s t root)) ∧
  (∀ (s : State) (root src g op len : Nat) (data : List DWord) (r : Reduction), root < 256 → src ∈ groupStopes (s.redgrp root g) →
    groupValid (s.redgrp root g) = true →
    (let u := (s.core root).takeOperand g src op (data.take len)
     let members := groupStopes (s.redgrp root g)
     let result := laneDs (combineOps r.op (members.filterMap fun i => (r.operands.find? fun o => o.1 == i).map fun o => o.2.flatMap dLanes))
     let ps := members.map fun i => if r.faulty then redPacket root i 4 [] else redPacket root i 3 result
     u.reductions.filter (fun r => r.group == g) = [r] →
     (r.faulty = true ∨ r.started = true ∧ ∀ i ∈ members, ∃ o ∈ r.operands, o.1 = i) →
     Gives (.xredOperand root src g op len data) s fun t =>
       t.noc = (s.sendPackets ps).noc ∧ t.regs = (s.sendPackets ps).regs ∧ (∀ x ∈ (t.core root).reductions, x.group ≠ g) ∧
       { t with noc := s.noc, regs := s.regs, cores := s.cores } = s)) ∧
  (∀ (s : State) (c g : Nat) (x : Issued) (data : List DWord) (b : Rng),
    (s.core c).issued.find? (fun i => i.awaitsGroup g) = some x → fld x.desc.w0 6 0 = 0x16 → s.rangeOf c x.desc.w3 x.desc.len = some b →
    b.space ≠ 1 → data.length = x.desc.len →
    Gives (.xredResult c g false data) s fun t =>
      t.rdRange c b = data.flatMap (fun y => leBytes 8 y.toNat) ∧
      (t.core c).issued = mapFirst (fun i => i.awaitsGroup g) (fun i => { i with await := .nothing, cause := 0 }) (s.core c).issued ∧
      RangeOnly s t c b) ∧
  (∀ (s : State) (c g : Nat) (x : Issued) (w : DWord) (a q b : Rng),
    (s.core c).issued.find? (fun i => i.awaitsGroup g) = some x → fld x.desc.w0 6 0 = 0x15 → s.rangeOf c x.desc.w1 x.desc.len = some a →
    s.rangeOf c x.desc.w2 x.desc.len = some q → s.rangeOf c x.desc.w3 x.desc.len = some b → b.space ≠ 1 →
    Gives (.xredResult c g false [w]) s fun t =>
      t.rdLanes c b = ((s.rdLanes c a).zip (s.rdLanes c q)).map (fun p =>
        normValue p.1 ((dLanes w).getD 0 0) ((dLanes w).getD 1 0)
          (2 * x.desc.len * (groupStopes (s.redgrp c (bitsOf x.desc.func 2 0))).length) (s.rd (shellNormEps c)) p.2 (bitAt x.desc.func 3)) ∧
      (t.core c).issued = mapFirst (fun i => i.awaitsGroup g) (fun i => { i with await := .nothing, cause := 0 }) (s.core c).issued ∧
      RangeOnly s t c b) ∧
  (∀ (s : State) (c g : Nat) (data : List DWord), (∃ x ∈ (s.core c).issued, x.awaitsGroup g = true) →
    Gives (.xredResult c g true data) s fun t =>
      (t.core c).issued =
        mapFirst (fun i => i.awaitsGroup g) (fun i => { i with await := .nothing, cause := causeGroupMismatch }) (s.core c).issued ∧
      { t.core c with issued := (s.core c).issued } = s.core c ∧ CoreOnly s t c) ∧
  (∀ (s : State) (c g : Nat) (data : List DWord), (∀ x ∈ (s.core c).issued, x.awaitsGroup g = false) →
    Gives (.xredResult c g true data) s fun t =>
      t.core c = { s.core c with redFaults := (s.core c).redFaults ++ [g] } ∧ CoreOnly s t c) ∧
  (∀ (s : State) (c k : Nat) (v : Word), k < 32 → (∀ x ∈ (s.core c).issued, x.awaitsCounter k = false) →
    Gives (.cincArrive c k v) s fun t =>
      t.rd (coreCounter c k) = (if 0xFFFFFFFF < (s.rd (coreCounter c k)).toNat + v.toNat then 0xFFFFFFFF else s.rd (coreCounter c k) + v) ∧
      (bit (t.rd (coreCounterOvf c)) k = (bit (s.rd (coreCounterOvf c)) k || decide (0xFFFFFFFF < (s.rd (coreCounter c k)).toNat + v.toNat))) ∧
      CoreRegs s t c [coreCounter c k, coreCounterOvf c]) ∧
  (∀ (s : State) (c k : Nat) (v : Word), k < 32 → (s.rd (coreCounter c k)).toNat + v.toNat ≤ 0xFFFFFFFF →
    Gives (.cincArrive c k v) s fun t =>
      (t.rd (coreCounter c k), (t.core c).issued) = wakeList k (s.rd (coreCounter c k) + v) (s.core c).issued ∧
      { t.core c with issued := (s.core c).issued } = s.core c ∧ CoreRegs s t c [coreCounter c k]) ∧
  (∀ (s : State) (c k : Nat) (v : Word), k < 32 → 0xFFFFFFFF < (s.rd (coreCounter c k)).toNat + v.toNat →
    Gives (.cincArrive c k v) s fun t =>
      t.rd (coreCounter c k) = 0xFFFFFFFF ∧ bit (t.rd (coreCounterOvf c)) k = true ∧
      (t.core c).issued = (s.core c).issued.map (fun i => if i.awaitsCounter k then { i with await := .nothing, cause := causeCntOverflow } else i) ∧
      CoreRegs s t c [coreCounter c k, coreCounterOvf c]) ∧
  (∀ (s : State) (c : Nat) (x : Issued) (k dl : Nat) (v : Word) (cons : Bool), x.await = .counter k v cons (some dl) → dl ≤ s.now →
    (s.core c).issued.find? (fun i => match i.await with | .counter _ _ _ (some e) => decide (e ≤ s.now) | _ => false) = some x →
    Gives (.cwaitTimeout c) s fun t =>
      t.rd (coreLastFault c) = BitVec.ofNat 32 (causeCwaitTimeout + min x.desc.index 4095 * 0x10000) ∧
      (t.core c).issued = (s.core c).issued.filter (fun i => i.step != x.step) ∧
      Noticed s t causeCwaitTimeout (coreEp c) ∧ RegsKept s t [coreLastFault c] ∧ t.mem = s.mem) ∧
  (∀ (s : State) (c : Nat) (d : Desc) (r : Running), (s.core c).fetched = some d → (s.core c).run = some r → fld d.w0 6 0 = 0x21 →
    d.func < 4 → rsvAbove d.w1 5 = false → rsvAbove d.w3 24 = false → s.issueHolds c d { reads := [], writes := [], run := id } = false →
    d.w2.toNat ≤ (s.rd (coreCounter c (fld d.w1 4 0))).toNat →
    Gives (.cwait c []) s fun t =>
      t.rd (coreCounter c (fld d.w1 4 0)) =
        (if bitAt d.func 0 then s.rd (coreCounter c (fld d.w1 4 0)) - d.w2 else s.rd (coreCounter c (fld d.w1 4 0))) ∧
      IssuedOn s t c d r [] [] .nothing ∧ CoreRegs s t c [coreCounter c (fld d.w1 4 0)]) ∧
  (∀ (s : State) (c : Nat) (d : Desc) (r : Running), (s.core c).fetched = some d → (s.core c).run = some r → fld d.w0 6 0 = 0x21 →
    d.func < 4 → rsvAbove d.w1 5 = false → rsvAbove d.w3 24 = false → s.issueHolds c d { reads := [], writes := [], run := id } = false →
    (s.rd (coreCounter c (fld d.w1 4 0))).toNat < d.w2.toNat → (bitAt d.func 1 = true ∨ fld d.w3 23 0 ≠ 0) →
    Gives (.cwait c []) s fun t =>
      IssuedOn s t c d r [] [] (.counter (fld d.w1 4 0) d.w2 (bitAt d.func 0)
        (if bitAt d.func 1 then none else some (s.now + fld d.w3 23 0 * 1000))) ∧ CoreOnly s t c) ∧
  (∀ (s : State) (c : Nat) (d : Desc) (r : Running), (s.core c).fetched = some d → (s.core c).run = some r → fld d.w0 6 0 = 0x20 →
    c < 256 → bitsOf d.func 4 3 = 0 → d.w1 = 0 → rsvAbove d.w2 8 = false → d.w3 = 0 → groupValid (s.redgrp c (bitsOf d.func 2 0)) = true →
    s.issueHolds c d { reads := [], writes := [], run := id } = false →
    Gives (.barrier c []) s fun t =>
      (∃ m, t.noc.ctl = s.noc.ctl ++ [m] ∧ m.typ = 2 ∧ m.src = c ∧ m.dest = groupRoot (s.redgrp c (bitsOf d.func 2 0)) ∧
        argBarrier m.arg0 = (bitsOf d.func 2 0, fld d.w2 7 0)) ∧
      IssuedOn s t c d r [] [] (.barrier (bitsOf d.func 2 0) (fld d.w2 7 0)) ∧
      { t with cores := s.cores, noc := { t.noc with ctl := s.noc.ctl, nets := s.noc.nets } } = s) ∧
  (∀ (s : State) (c : Nat) (d : Desc) (r : Running) (a b : Rng), c < 256 → Heads s c d r [a] [b] →
    fld d.w0 6 0 = 0x16 → d.w2 = 0 → d.len ≤ 30 → s.vecRange c d.w1 d.len = some a → s.dstRange c d.w3 d.len false = some b → b.space ≠ 1 →
    b.isOb = false →
    (let g := bitsOf d.func 2 0
     let root := groupRoot (s.redgrp c g)
     let m := redPacket c root 2 (laneDs (s.rdLanes c a))
     let u := (s.core c).startReduction g (bitsOf d.func 4 3) (laneDs (s.rdLanes c a)).length
     groupValid (s.redgrp c g) = true → g ∉ (s.core c).redFaults → s.routerCode (s.stamped { m with device := s.edge.devId }) = 0 →
     (root = c → ∀ q, u.reductions.find? (fun q => q.group == g) = some q →
       q.faulty = false ∧ ∃ i ∈ groupStopes (s.redgrp c g), ∀ o ∈ q.operands, o.1 ≠ i) →
     Gives (.xred c []) s fun t =>
       t.noc = (s.sendPackets [m]).noc ∧ (t.core c).reductions = (if root = c then u.reductions else (s.core c).reductions) ∧
       { t with noc := s.noc, cores := s.cores } = s ∧ IssuedOn s t c d r [] [b] (.xred g root)))

/-- R183 to R188: a WOPEN opens its window, with nothing arrived, when it completes; a delivered write of the die that lies in an open window
which admits its source is written whole and counted in ARRIVED, any other delivered one is discarded, counted and reported, and one that the
network has not delivered does nothing; WCLOSE closes its window when it completes, and the expiry closes the windows whose lifetime has passed,
counted, and ends the WWAITs on them; WWAIT completes at once on a target already reached. -/
def Obligations.WindowsAdmitWrites : Prop :=
  (∀ (s : State) (c : Nat) (m : Packet) (w : Window), epCore m.dest = some c → m ∈ s.noc.arrived →
    (let start := if c < 256 then s.spFor c + m.addr else if 0x200000 ≤ m.addr then poolBase + (m.addr - 0x200000) else coreMemBase (c - 256) + m.addr
     (s.core c).windows.find? (fun w => w.covers start m.payload.length &&
       w.admits m.device m.src (m.device == s.edge.devId && some m.region == s.coreRegion c) && s.mayLand c start m.payload.length) = some w →
     Gives (.windowWriteArrive m) s fun t =>
       t.rdMem start m.payload.length = m.payload ∧ MemKept s t start m.payload.length ∧
       (t.core c).windows = (s.core c).windows.map (fun x => if x.base == w.base then { x with arrived := w.arrived + m.payload.length } else x) ∧
       (w.counter = none → t.regs = s.regs ∧
         (t.core c).issued = (s.core c).issued.map (wakeWindow w.base (w.arrived + m.payload.length))) ∧
       t.noc.arrived = s.noc.arrived.erase m ∧
       { t with mem := s.mem, cores := s.cores, regs := s.regs, noc := { t.noc with arrived := s.noc.arrived } } = s)) ∧
  (∀ (s : State) (c : Nat) (m : Packet), epCore m.dest = some c → m ∈ s.noc.arrived →
    (let start := if c < 256 then s.spFor c + m.addr else if 0x200000 ≤ m.addr then poolBase + (m.addr - 0x200000) else coreMemBase (c - 256) + m.addr
     (s.core c).windows.find? (fun w => w.covers start m.payload.length &&
       w.admits m.device m.src (m.device == s.edge.devId && some m.region == s.coreRegion c) && s.mayLand c start m.payload.length) = none →
     Gives (.windowWriteArrive m) s fun t =>
       t.rd (coreWinRefused c) = s.rd (coreWinRefused c) + 1 ∧ RegsKept s t [coreWinRefused c] ∧ Noticed s t rWindowBounds (coreEp c) ∧
       t.mem = s.mem ∧ (∀ j, (t.core j).windows = (s.core j).windows) ∧ { t with cores := s.cores, regs := s.regs, noc := s.noc } = s)) ∧
  (∀ (s : State) (m : Packet), m ∉ s.noc.arrived → exec (.windowWriteArrive m) s = .next s) ∧
  (∀ (s : State) (c base : Nat) (d : Desc) (r : Running), (s.core c).fetched = some d → (s.core c).run = some r → fld d.w0 6 0 = 0x23 →
    bitAt d.func 4 = false → fld d.w3 31 29 = 0 → s.windowPlace c d.w1 d.len = some (base, true) → fld d.w2 31 12 < 32768 → d.len ≠ 0 →
    d.len % 2 = 0 → addrOf d.w1 % 2 = 0 → bitsOf d.func 1 0 ≠ 3 → (fld d.w3 23 0 = 0 ↔ bitAt d.func 2 = true) →
    (fld d.w2 11 0 ≠ 0 → bitsOf d.func 1 0 = 0) → (fld d.w2 31 12 ≠ 0 → bitsOf d.func 1 0 ≠ 2) → (fld d.w3 28 24 ≠ 0 → bitAt d.func 3 = true) →
    (∀ w ∈ (s.core c).allWindows, w.meets base (8 * d.len) = false) → s.openWindows < 256 →
    s.regionWindows ((s.coreRegion c).getD 0) < fld (s.rd (windowQuota ((s.coreRegion c).getD 0))) 8 0 →
    s.issueHolds c d { reads := [], writes := [], run := id } = false →
    Gives (.wopen c []) s fun t =>
      IssuedOn s t c d r [] [] (.wopen
        { base := base, len := 8 * d.len, mode := bitsOf d.func 1 0, device := fld d.w2 31 12, endpoint := fld d.w2 11 0,
          region := (s.coreRegion c).getD 0, expiry := none, counter := if bitAt d.func 3 then some (fld d.w3 28 24) else none, arrived := 0 }
        (if bitAt d.func 2 then none else some (fld d.w3 23 0 * 1000))) ∧
      (t.core c).windows = (s.core c).windows ∧ CoreOnly s t c) ∧
  (∀ (s : State) (c : Nat) (x : Issued) (w : Window) (life : Option Nat),
    ((s.core c).issued.find? fun i => i.desc.index == x.desc.index && s.ending c i != .atWork) = some x → x.await = .wopen w life → x.cause = 0 →
    (∀ h ∈ s.fab.hold, epCore h.flit.destEp ≠ some c) →
    Gives (.descComplete c x.desc.index) s fun t =>
      (t.core c).windows = (s.core c).windows ++ [{ w with arrived := 0, expiry := life.map (s.now + ·) }] ∧
      (t.core c).issued = (s.core c).issued.erase x ∧ t.rd64 (coreDescCount c) = (s.rd64 (coreDescCount c) + 1) % 2 ^ 64 ∧
      CoreRegs s t c [coreDescCount c, coreDescCount c + 4]) ∧
  (∀ (s : State) (c base : Nat) (ok : Bool) (d : Desc) (r : Running), (s.core c).fetched = some d → (s.core c).run = some r →
    fld d.w0 6 0 = 0x24 → d.func = 0 → d.w2 = 0 → d.w3 = 0 → s.windowPlace c d.w1 0 = some (base, ok) →
    s.issueHolds c d { reads := [], writes := [], run := id } = false →
    Gives (.wclose c []) s fun t =>
      IssuedOn s t c d r [] [] (.wclose base) ∧ (t.core c).windows = (s.core c).windows ∧ CoreOnly s t c) ∧
  (∀ (s : State) (c base : Nat) (x : Issued),
    ((s.core c).issued.find? fun i => i.desc.index == x.desc.index && s.ending c i != .atWork) = some x → x.await = .wclose base → x.cause = 0 →
    Gives (.descComplete c x.desc.index) s fun t =>
      (t.core c).windows = (s.core c).windows.filter (fun w => w.base != base) ∧
      t.rd64 (coreDescCount c) = (s.rd64 (coreDescCount c) + 1) % 2 ^ 64 ∧ CoreRegs s t c [coreDescCount c, coreDescCount c + 4]) ∧
  (∀ (s : State) (c base : Nat) (ok : Bool) (w : Window) (d : Desc) (r : Running), (s.core c).fetched = some d → (s.core c).run = some r →
    fld d.w0 6 0 = 0x25 → d.func = 0 → d.w3 = 0 → s.windowPlace c d.w1 0 = some (base, ok) →
    (s.core c).windows.find? (fun w => w.base == base) = some w → s.issueHolds c d { reads := [], writes := [], run := id } = false →
    Gives (.wwait c []) s fun t =>
      IssuedOn s t c d r [] [] (if d.w2.toNat ≤ w.arrived then .nothing else .window base d.w2.toNat) ∧ CoreOnly s t c) ∧
  (∀ (s : State) (c base a e : Nat) (w : Window), s.windowBase c (BitVec.ofNat 32 base) = some a → w ∈ (s.core c).windows → w.base = a →
    w.expiry = some e → e ≤ s.now →
    Gives (.windowExpiry c base) s fun t =>
      (∀ v, v ∈ (t.core c).windows ↔ v ∈ (s.core c).windows ∧ ¬(v.base = a ∧ ∃ e, v.expiry = some e ∧ e ≤ s.now)) ∧
      (∀ i ∈ (t.core c).issued, ∀ n, i.await ≠ .window a n) ∧
      t.rd (coreWinExpired c) = s.rd (coreWinExpired c) + 1 ∧ CoreRegs s t c [coreWinExpired c])

/-- R77, R78, R208, R216, R218, R283, R284, R286: the merge opcodes write their results to the destination that their command names: MMA4 its
block sums, PQUANT the packed weights, PMERGE the merged record, or finished the attention output, CANDS the slice's candidates under the
settings that the token's sampling starts with, and it waits while the stream's mask is awaited; KVCMD appends its command block to the stack's
queue and waits for the answer. The operands' layouts are the model's (DESIGN CHOICE, log entry 22). -/
def Obligations.MergeOpcodesCompute : Prop :=
  (∀ (s : State) (c a b sa sb dst n fmt : Nat) (d : Desc) (r : Running) (ra rb rx ry rd : Rng), Heads s c d r [ra, rb, rx, ry] [rd] →
    256 ≤ c → fld d.w0 6 0 = 0x30 → s.obRange c a (2 * n) = some ra → s.obRange c b (2 * n) = some rb →
    s.mcRange c sa (cdiv n 8) = some rx → s.mcRange c sb (cdiv n 8) = some ry → s.mcRange c dst 1 = some rd →
    (∀ y ∈ (s.rdRange c rx).take n ++ (s.rdRange c ry).take n, y ≠ 0xFF#8) →
    Gives (.mma4 c [] a b sa sb dst n fmt) s fun t =>
      (t.rdLanes c rd).head? = some (mma4Sum (s.rdRange c ra) (s.rdRange c rb) (s.rdRange c rx) (s.rdRange c ry) n (bitAt fmt 0) (bitAt fmt 1)) ∧
      RangeOnly s t c rd ∧ IssuedOn s t c d r [ra, rb, rx, ry] [rd] .nothing) ∧
  (∀ (s : State) (c p ev dst keys blk : Nat) (d : Desc) (r : Running) (rp re rd : Rng), Heads s c d r [rp, re] [rd] → 256 ≤ c →
    fld d.w0 6 0 = 0x31 → s.mcSource c p (cdiv keys 2) = some rp → s.mcSource c ev (cdiv keys 2) = some re →
    s.mcRange c dst (cdiv (17 * cdiv keys 32) 8) = some rd → (∀ y ∈ (s.rdRange c re).take (4 * keys), y ≠ 0xFF#8) →
    Gives (.pquant c [] p ev dst keys blk) s fun t =>
      t.rdRange c rd = padTo (8 * cdiv (17 * cdiv keys 32) 8) (pquantBytes (s.rdLanes c rp) (s.rdRange c re) keys (blk % 4)) ∧
      RangeOnly s t c rd ∧ IssuedOn s t c d r [rp, re] [rd] .nothing) ∧
  (∀ (s : State) (c dst : Nat) (srcs : List Nat) (d : Desc) (r : Running) (rs : List Rng) (rd : Rng), Heads s c d r rs [rd] → 256 ≤ c →
    fld d.w0 6 0 = 0x32 → srcs.mapM (fun w => s.mcRange c w 66) = some rs → s.mcRange c dst 66 = some rd →
    (∀ x ∈ rs, Partial.reserved (s.rdRange c x) = false) →
    Gives (.pmerge c [] srcs dst false) s fun t =>
      t.rdRange c rd = (foldPartials (rs.map fun x => Partial.ofBytes (s.rdRange c x))).bytes ∧ RangeOnly s t c rd ∧
      IssuedOn s t c d r rs [rd] .nothing) ∧
  (∀ (s : State) (c dst : Nat) (srcs : List Nat) (d : Desc) (r : Running) (rs : List Rng) (rd : Rng), Heads s c d r rs [rd] → 256 ≤ c →
    fld d.w0 6 0 = 0x32 → srcs.mapM (fun w => s.mcRange c w 66) = some rs → s.mcRange c dst 64 = some rd →
    (∀ x ∈ rs, Partial.reserved (s.rdRange c x) = false) →
    (let p := foldPartials (rs.map fun x => Partial.ofBytes (s.rdRange c x))
     Gives (.pmerge c [] srcs dst true) s fun t =>
       t.rdRange c rd = laneBytes p.finish ∧ (p.nan = false → RangeOnly s t c rd) ∧ MemKept s t rd.start (8 * rd.words) ∧
       (p.nan = true → Noticed s t causeCanaryNan (coreEp c)) ∧ IssuedOn s t c d r rs [rd] .nothing)) ∧
  (∀ (s : State) (c stream src first count dst : Nat) (d : Desc) (r : Running) (a b : Rng) (x : SmpNow), Heads s c d r [a] [b] → 256 ≤ c →
    fld d.w0 6 0 = 0x33 → s.mcRange c src (cdiv count 2) = some a → (s.stream stream).settings = some x →
    (let k := if isZero x.sampler.temp then 1 else if x.sampler.topK = 0 then 1024 else x.sampler.topK
     s.mcRange c dst (1 + min k count) = some b →
     Gives (.cands c [] stream src first count dst) s fun t =>
       t.rdRange c b = padTo (8 * (1 + min k count))
         (candBytes (x.slice ((s.stream stream).recent x.sampler.window) (fld (s.rd smpVocab) 23 0) first ((s.rdLanes c a).take count))) ∧
       t.stream stream = (s.stream stream).beginSampling ∧ (t.stream stream).smpNow = some x ∧ (∀ j, j ≠ stream → t.stream j = s.stream j) ∧
       RangeOnly s { t with wnd := { t.wnd with streams := s.wnd.streams } } c b ∧ IssuedOn s t c d r [a] [b] .nothing)) ∧
  (∀ (s : State) (c stream src first count dst : Nat) (d : Desc), (s.core c).fetched = some d → fld d.w0 6 0 = 0x33 →
    (s.stream stream).settings = none →
    Gives (.cands c [] stream src first count dst) s fun t =>
      t.stream stream = { s.stream stream with maskWait := true } ∧ StreamOnly s t stream) ∧
  (∀ (s : State) (c : Nat) (d : Desc) (r : Running) (a : Rng) (ws : List Rng), Heads s c d r [a] ws → fld d.w0 6 0 = 0x34 →
    bitsOf d.func 4 3 = 0 → d.w2 = 0 → s.rangeOf c d.w1 d.len = some a → a.space ≠ 1 → a.isOb = false →
    (let k := bitsOf d.func 2 0
     let n := replyWords (s.rdRange c a)
     ((n = 0 ∨ spaceOf d.w3 = 3) ∧ ws = [] ∨
       n ≠ 0 ∧ spaceOf d.w3 ≠ 3 ∧ ∃ b, s.dstRange c d.w3 n true = some b ∧ b.space ≠ 1 ∧ ws = [b]) →
     (n = 0 → (kvHdr (s.rdRange c a)).cmd = 2 → d.w3 = 0) → s.coreRegion c = s.epRegion (epStack k) →
     Gives (.kvcmd c []) s fun t =>
       Table.get [] t.kv.kvq k = Table.get [] s.kv.kvq k ++
         [{ core := c, step := r.id, index := d.index, bytes := s.rdRange c a, dst := d.w3, region := (s.coreRegion c).getD 0 }] ∧
       (∀ j, j ≠ k → Table.get [] t.kv.kvq j = Table.get [] s.kv.kvq j) ∧
       IssuedOn s t c d r [] ws .kvcmd ∧ { t with cores := s.cores, kv := { t.kv with kvq := s.kv.kvq } } = s))

/-- R10, R166, R170, R173, R174, R180, R181, R193, R196, R197, R347: the writes of the cores' protection and group registers, the re-encoding, the
scrubber, a re-run and the watchdog act as given: a reserved code of a group's rectangle leaves its field; a reduction group that leaves its region
is refused and keeps its value, and one that is taken counts its reductions afresh (log entry 139); a changed mode bit has its region re-encoded; a done region is off the list; a grant of a
granule that no core held comes without data; a re-run counts and puts its descriptor, or its LAUNCH, back, and a second mismatch faults the
step; a scrub read of the last word starts the next pass; a late step is reported once and cross-checked. -/
def Obligations.CoreMemoriesAreKept : Prop :=
  (∀ (s : State) (f i g : Nat) (v : Word), g < 8 → i < 256 → s.mayWrite f (shellRedgrp i g) = true →
    (let off := shellRedgrp i g
     let w := (writeFields (regFields off) (s.rd off) v).1
     (∀ lo ∈ [0, 5, 10, 15], fld w (lo + 4) lo = if bit v (lo + 4) = true then fld (s.rd off) (lo + 4) lo else fld v (lo + 4) lo) ∧
       fld w 30 20 = fld v 30 20)) ∧
  (∀ (s : State) (f i g : Nat) (v : Word), g < 8 → i < 256 → s.mayWrite f (shellRedgrp i g) = true → bit v 30 = true →
    (let off := shellRedgrp i g
     let w := (writeFields (regFields off) (s.rd off) v).1
     (s.stopeRegion i = none ∨ groupRoot w ∉ groupStopes w ∨ ∃ x ∈ groupStopes w, s.stopeRegion x ≠ s.stopeRegion i) →
     Gives (.redgrpWrite f i g v) s fun t =>
       t.rd off = s.rd off ∧ t.rd (coreLastRefuse i) = BitVec.ofNat 32 rRegionViolation ∧
       RegsKept s t [coreLastRefuse i, regErrStatus (pageBase off), regEvtStatus (pageBase off)] ∧
       { t with regs := s.regs, edge := { t.edge with msi := s.edge.msi } } = s)) ∧
  (∀ (s : State) (f i g : Nat) (v : Word), g < 8 → i < 256 → s.mayWrite f (shellRedgrp i g) = true →
    (let off := shellRedgrp i g
     let w := (writeFields (regFields off) (s.rd off) v).1
     (bit v 30 = true → (∃ n, s.stopeRegion i = some n) ∧ groupRoot w ∈ groupStopes w ∧
       ∀ x ∈ groupStopes w, s.stopeRegion x = s.stopeRegion i) →
     Gives (.redgrpWrite f i g v) s fun t =>
       t.rd off = w ∧ (∀ q ∈ (t.core i).reductions, q.group ≠ g) ∧ t.core i = (s.core i).newGroup g ∧
       (∀ j, j ≠ i → t.core j = s.core j) ∧ RegsKept s t [off, regErrStatus (pageBase off), regEvtStatus (pageBase off)] ∧
       { t with cores := s.cores, regs := s.regs, edge := { t.edge with msi := s.edge.msi } } = s)) ∧
  (∀ (s : State) (f c : Nat) (v : Word), c < 272 → s.mayWrite f (coreProt c) = true →
    Gives (.spProtWrite f c v) s fun t =>
      fld (t.rd (coreProt c)) 15 0 = fld v 15 0 ∧
      (∀ k, k ∈ (t.core c).reprot ↔ k < 80 ∧ (k ∈ (s.core c).reprot ∨ k < 16 ∧ bit (s.rd (coreProt c)) k ≠ bit v k)) ∧
      { t.core c with reprot := (s.core c).reprot } = s.core c ∧ CoreRegs s t c [coreProt c]) ∧
  (∀ (s : State) (c k : Nat), (s.core c).reprot.find? (fun r => decide (16 ≤ r) == decide (16 ≤ k)) = some k →
    Gives (.reprotRegionDone c k []) s fun t => t.core c = { s.core c with reprot := (s.core c).reprot.erase k } ∧ CoreOnly s t c) ∧
  (∀ (s : State) (f m half : Nat) (v : Word), m < 16 → half < 2 →
    s.mayWrite f (if half = 0 then mergePoolGrantLo m else mergePoolGrantHi m) = true →
    (∀ g x, g < 32 → x < 16 → bit v g = true → s.granted x (32 * half + g) = true → s.coreRegion (256 + x) = s.coreRegion (256 + m)) →
    Gives (.poolGrantWrite f m half v) s fun t =>
      t.rd (if half = 0 then mergePoolGrantLo m else mergePoolGrantHi m) = v ∧
      (∀ g x, g < 32 → x < 0x100000 → bit v g = true → s.granuleHeld (32 * half + g) = false →
        readByte t.mem (poolBase + (32 * half + g) * 0x100000 + x) = 0) ∧
      (∀ a, (∀ g, g < 32 → bit v g = true → s.granuleHeld (32 * half + g) = false →
          a < poolBase + (32 * half + g) * 0x100000 ∨ poolBase + (32 * half + g + 1) * 0x100000 ≤ a) → readByte t.mem a = readByte s.mem a) ∧
      RegsKept s t [if half = 0 then mergePoolGrantLo m else mergePoolGrantHi m] ∧ { t with regs := s.regs, mem := s.mem } = s) ∧
  (∀ (s : State) (f m half g x : Nat) (v : Word), m < 16 → half < 2 → g < 32 → x < 16 →
    s.mayWrite f (if half = 0 then mergePoolGrantLo m else mergePoolGrantHi m) = true → bit v g = true →
    s.granted x (32 * half + g) = true → s.coreRegion (256 + x) ≠ s.coreRegion (256 + m) →
    Gives (.poolGrantWrite f m half v) s fun t =>
      t.rd (coreLastRefuse (256 + m)) = BitVec.ofNat 32 rRegionViolation ∧ RegsKept s t [coreLastRefuse (256 + m)] ∧ { t with regs := s.regs } = s) ∧
  (∀ (s : State) (f m half : Nat) (v : Word), m < 16 → half < 2 →
    s.mayWrite f (if half = 0 then mergePoolProtLo m else mergePoolProtHi m) = true →
    Gives (.poolProtWrite f m half v) s fun t =>
      t.rd (if half = 0 then mergePoolProtLo 0 else mergePoolProtHi 0) = v ∧
      (∀ g, g < 32 → (16 + 32 * half + g ∈ (t.core 256).reprot ↔ 16 + 32 * half + g ∈ (s.core 256).reprot ∨
        bit (s.rd (if half = 0 then mergePoolProtLo 0 else mergePoolProtHi 0)) g ≠ bit v g)) ∧
      CoreRegs s t 256 [if half = 0 then mergePoolProtLo 0 else mergePoolProtHi 0]) ∧
  (∀ (s : State) (f m half : Nat) (v : Word), m < 16 → half < 2 → s.mayWrite f (if half = 0 then mergePoolRoLo m else mergePoolRoHi m) = true →
    Gives (.poolRoWrite f m half v) s fun t =>
      t.rd (if half = 0 then mergePoolRoLo 0 else mergePoolRoHi 0) = v ∧ { t.core 256 with roSource := (s.core 256).roSource } = s.core 256 ∧
      CoreRegs s t 256 [if half = 0 then mergePoolRoLo 0 else mergePoolRoHi 0]) ∧
  (∀ (s : State) (c w : Nat) (d : Desc) (r : Running), (s.core c).rerun = some (d, w) → (s.core c).run = some r →
    Gives (.stepRerun c false) s fun t =>
      (t.core c).fetched = some d ∧ (t.core c).rerun = none ∧ (t.core c).again = true ∧ t.rd (coreRerun c) = s.rd (coreRerun c) + 1 ∧
      (isObWord w = false → t.mem = s.mem) ∧ (isObWord w = true → t.mem = (s.refill c w).mem) ∧ CoreRegs s { t with mem := s.mem } c [coreRerun c]) ∧
  (∀ (s : State) (c w : Nat) (d : Desc) (r : Running), (s.core c).rerun = some (d, w) → (s.core c).run = some r →
    Gives (.stepRerun c true) s fun t =>
      (let cause := if isObWord w then causeObParity else if (s.markBad w).1 then causeSpWordBad else causeSpSparesOut
       t.rd (coreLastFault c) = BitVec.ofNat 32 (cause + min d.index 4095 * 0x10000) ∧
       (∃ x ∈ t.noc.notices, x.cause = cause ∧ x.source = coreEp c)) ∧
      (t.core c).run = none ∧ (t.core c).rerun = none ∧ (isObWord w = true → t.mem = s.mem)) ∧
  (∀ (s : State) (c : Nat) (i : Issued) (l : Launch), (s.core c).rerun = none → s.lostLaunch c = some (i, l) → (s.stope c).ref = .ready →
    Gives (.stepRerun c false) s fun t =>
      (t.stope c).launches = ((s.stope c).launches.filter fun x => x.id != l.id) ++
        [{ l with id := (s.stope c).nextLaunch, running := false, left := 0, ended := false, status := 0, reruns := 0 }] ∧
      t.rd (coreRerun c) = s.rd (coreRerun c) + 1 ∧ RegsKept s t [coreRerun c] ∧ (∀ j, j ≠ c → t.stope j = s.stope j ∧ t.core j = s.core j) ∧
      { t with stopes := s.stopes, cores := s.cores, regs := s.regs } = s) ∧
  (∀ (s : State) (c word : Nat), bit (s.rd (coreBase c + 0x100)) 0 = true →
    (s.memInUse c = false ∨ (s.core c).scrubLast + (if c < 256 then 50000 else 25000) ≤ s.now) → s.nextCorrect c (s.core c).scrubPos = some word →
    Gives (.scrubRead c word []) s fun t =>
      t.core c = { s.core c with scrubPos := if (s.nextCorrect c (word + 1)).isSome then word + 1 else 0, scrubLast := s.now } ∧
      (s.nextCorrect c (word + 1) = none → t.rd64 (coreScrubLast c) = s.now % 2 ^ 64) ∧
      CoreRegs s t c [coreScrubLast c, coreScrubLast c + 4]) ∧
  (∀ (s : State) (f c : Nat), s.mayWrite f (coreBase c + 0x100) = true →
    Gives (.progReloaded f c) s fun t =>
      t.core c = { s.core c with progLost := false } ∧ (∀ x ∈ (t.fence (coreBase c)).causes, x.1 ≠ 1) ∧ (∀ j, j ≠ c → t.core j = s.core j) ∧
      { t with cores := s.cores, noc := { t.noc with fences := s.noc.fences, ctl := s.noc.ctl, nets := s.noc.nets } } = s) ∧
  (∀ (s : State) (c : Nat) (r : Running),
    ((s.core c).run.toList ++ (s.core c).finishing).find?
      (fun r => !r.watched && decide (r.started + r.step.bound + fld (s.rd assayWatchMargin) 15 0 * 1000 ≤ s.now)) = some r →
    Gives (.stepWatchdogExpiry c) s fun t =>
      (∀ x ∈ (t.core c).run.toList ++ (t.core c).finishing, x.id = r.id → x.watched = true) ∧ Noticed s t causeStepLate (coreEp c) ∧
      (∃ d ∈ t.tally.due, d.kind = 3 ∧ d.unit = unitCore c ∧ d.forced = true) ∧ (∀ j, j ≠ c → t.core j = s.core j) ∧ NocNotices s t ∧
      { t with cores := s.cores, noc := s.noc, tally := { t.tally with due := s.tally.due } } = s)

/-! ## Attention and the KV stacks -/

/-- R198, R199, R208, R211, R212, R213, R214, R216, R240: a stack takes the command at the front of its queue. One that fails a check is
faulted with its cause and not acted on. ATTEND answers one record per row, and counts the command and its pages. APPEND writes the rows
of each token to its slot's element rows and scale bytes and stages the slots, in the page's own frame or in a new one. COPY by the
allocator or the cage engine copies a frame with its scale page; from any other endpoint it is
KVCMD_INVALID. The stack's answer reaches its place and ends the descriptor's wait, with its cause. -/
def Obligations.StackCommandsAct : Prop :=
  (∀ (s : State) (k : Nat) (c : KvCmd) (rest : List KvCmd) (cmd : Instr), Table.get [] s.kv.kvq k = c :: rest →
    (cmd = .attend k ∧ (kvHdr c.bytes).cmd ≠ 2 ∨ cmd = .append k ∧ (kvHdr c.bytes).cmd ≠ 1) → s.kvCheck k c ≠ 0 →
    Gives cmd s fun t =>
      t.rd (stackLastFault k) = BitVec.ofNat 32 (s.kvCheck k c) ∧
      t.kv = { s.kv with kvq := Table.set [] s.kv.kvq k rest,
                         replies := s.kv.replies ++
                           [{ core := c.core, step := c.step, index := c.index, dst := c.dst, bytes := [], cause := s.kvCheck k c, cmd := c.bytes }] } ∧
      KvRegs s t [stackLastFault k]) ∧
  (∀ (s : State) (k : Nat) (c : KvCmd) (rest : List KvCmd), Table.get [] s.kv.kvq k = c :: rest → (kvHdr c.bytes).cmd = 1 →
    s.kvCheck k c = 0 → (∀ p ∈ s.pagesRead k (kvHdr c.bytes), s.pageLost p.2 = false) →
    s.scaleReserved (kvHdr c.bytes) (s.pagesRead k (kvHdr c.bytes)) = false →
    (let recs := (List.range (kvHdr c.bytes).rows).map (s.attendRow k (kvHdr c.bytes) c.bytes)
     Gives (.attend k) s fun t =>
       t.kv.replies = s.kv.replies ++
         [{ core := c.core, step := c.step, index := c.index, dst := c.dst, bytes := recs.flatMap Partial.bytes, cause := 0, cmd := c.bytes }] ∧
       t.kv.kvq = Table.set [] s.kv.kvq k rest ∧ { t.kv with kvq := s.kv.kvq, replies := s.kv.replies } = s.kv ∧
       t.rd64 (stackCmdCountLo k) = (s.rd64 (stackCmdCountLo k) + 1) % 2 ^ 64 ∧
       t.rd64 (stackPagesReadLo k) = (s.rd64 (stackPagesReadLo k) + (s.pagesRead k (kvHdr c.bytes)).length) % 2 ^ 64 ∧
       KvRegs s t [stackCmdCountLo k, stackCmdCountLo k + 4, stackPagesReadLo k, stackPagesReadLo k + 4])) ∧
  (∀ (s : State) (k : Nat) (c : KvCmd) (rest : List KvCmd), Table.get [] s.kv.kvq k = c :: rest → (kvHdr c.bytes).cmd = 1 →
    s.kvCheck k c = 0 → (∃ p ∈ s.pagesRead k (kvHdr c.bytes), s.pageLost p.2 = true) →
    Gives (.attend k) s fun t =>
      t.rd (stackLastFault k) = BitVec.ofNat 32 causePcFail ∧ (∃ r, t.kv.replies = s.kv.replies ++ [r] ∧ r.cause = causePcFail ∧ r.bytes = []) ∧
      KvRegs s t [stackLastFault k]) ∧
  (∀ (s : State) (k : Nat) (c : KvCmd) (rest : List KvCmd), Table.get [] s.kv.kvq k = c :: rest → (kvHdr c.bytes).cmd = 2 →
    s.kvCheck k c = 0 →
    (let h := kvHdr c.bytes
     let p := s.pte (pteKey h.stream h.layer h.head (h.first / 256))
     let e := elemAddr p.stack p.frame
     let o := h.first % 256
     p.valid = true → p.spilled = false → s.pageLost p = false → s.frameRef p.stack p.frame ≤ 1 → p.frame < framesPerStack →
     Gives (.append k) s fun t =>
       (∀ x, (x < e + 64 * o ∨ e + 64 * (o + h.qtok) ≤ x) → (x < e + 0x4000 + 64 * o ∨ e + 0x4000 + 64 * (o + h.qtok) ≤ x) →
         (x < scaleAddr p.stack p.frame + 8 * o ∨ scaleAddr p.stack p.frame + 8 * (o + h.qtok) ≤ x) → readByte t.mem x = readByte s.mem x) ∧
       t.kv.refs = s.kv.refs ∧ t.rd64 (stackCmdCountLo k) = (s.rd64 (stackCmdCountLo k) + 1) % 2 ^ 64 ∧
       KvRegs s { t with mem := s.mem, cores := s.cores } [stackCmdCountLo k, stackCmdCountLo k + 4])) ∧
  (∀ (s : State) (k : Nat) (c : KvCmd) (rest : List KvCmd), Table.get [] s.kv.kvq k = c :: rest → (kvHdr c.bytes).cmd = 2 →
    s.kvCheck k c = 0 →
    (let h := kvHdr c.bytes
     let key := pteKey h.stream h.layer h.head (h.first / 256)
     let o := h.first % 256
     let v := if (s.pte key).spilled then (s.kvPop k rest).reloadPage c.region key else s.kvPop k rest
     let u := v.ownPage c.region key
     let p := u.2.pte key
     (v.pte key).spilled = false → ((v.pte key).valid = true → v.pageLost (v.pte key) = false) → u.1 = true → p.frame < framesPerStack →
     Gives (.append k) s fun t =>
       (∀ i, i < h.qtok →
         t.rdMem (elemAddr p.stack p.frame + 64 * (o + i)) 64 = storedElems (rowBytes c.bytes (2 * i)) ∧
         t.rdMem (elemAddr p.stack p.frame + 0x4000 + 64 * (o + i)) 64 = storedElems (rowBytes c.bytes (2 * i + 1)) ∧
         (∀ b g r, b < 4 → g < 2 → r = 2 * i + g →
           t.rdMem (scaleAddr p.stack p.frame + 8 * (o + i) + 4 * g + b) 1 =
             [BitVec.ofNat 8 (recExp (rowRecord c.bytes h.rows r) (b / 2))])) ∧
       (∀ i, i < h.qtok → o + i ∈ (t.pte key).staged) ∧ (t.pte key).frame = p.frame ∧ (t.pte key).stack = p.stack ∧
       (∀ key', key' ≠ key → t.pte key' = s.pte key') ∧ (∃ r, t.kv.replies = s.kv.replies ++ [r] ∧ r.cause = 0 ∧ r.index = c.index))) ∧
  (∀ (s : State) (k j f : Nat) (c : KvCmd) (rest : List KvCmd), Table.get [] s.kv.kvq k = c :: rest → (kvHdr c.bytes).cmd = 2 →
    s.kvCheck k c = 0 →
    (let h := kvHdr c.bytes
     let key := pteKey h.stream h.layer h.head (h.first / 256)
     let pref := s.preferred (keyLayer key) (keyHead key) (keyPage key)
     (s.pte key).valid = false → (s.pte key).spilled = false → s.chooseFrame c.region pref.1 pref.2 = some (j, f) →
     Gives (.append k) s fun t =>
       (t.pte key).valid = true ∧ (t.pte key).stagedOnly = true ∧ (t.pte key).stack = j ∧ (t.pte key).frame = f ∧
       (∀ i, i < h.qtok → h.first % 256 + i ∈ (t.pte key).staged) ∧ t.frameRef j f = 1 ∧
       (∀ key', key' ≠ key → t.pte key' = s.pte key'))) ∧
  (∀ (s : State) (k : Nat) (c : KvCmd) (rest : List KvCmd), Table.get [] s.kv.kvq k = c :: rest → (kvHdr c.bytes).cmd = 2 →
    s.kvCheck k c = 0 →
    (let h := kvHdr c.bytes
     let key := pteKey h.stream h.layer h.head (h.first / 256)
     (s.pte key).spilled = false → ((s.pte key).valid = true → s.pageLost (s.pte key) = false) →
     ((s.kvPop k rest).ownPage c.region key).1 = false →
     Gives (.append k) s fun t =>
       t.rd (stackLastFault k) = BitVec.ofNat 32 rCapacity ∧ t.mem = s.mem ∧ t.kv.ptes = s.kv.ptes ∧
       (∃ r, t.kv.replies = s.kv.replies ++ [r] ∧ r.cause = rCapacity))) ∧
  (∀ (s : State) (k src dst : Nat), src < framesPerStack → dst < framesPerStack →
    ∀ by_, by_ = epAlloc ∨ by_ = epCage →
    Gives (.copy k src dst by_) s fun t =>
      t.frameBytes k dst = s.frameBytes k src ∧
      (∀ x, (x < elemAddr k dst ∨ elemAddr k dst + 0x8000 ≤ x) → (x < scaleAddr k dst ∨ scaleAddr k dst + 0x800 ≤ x) →
        readByte t.mem x = readByte s.mem x) ∧
      t.rd64 (stackCmdCountLo k) = (s.rd64 (stackCmdCountLo k) + 1) % 2 ^ 64 ∧
      RegsKept s t [stackCmdCountLo k, stackCmdCountLo k + 4] ∧ { t with mem := s.mem, regs := s.regs, cores := s.cores } = s) ∧
  (∀ (s : State) (k src dst by_ : Nat), by_ ≠ epAlloc → by_ ≠ epCage →
    Gives (.copy k src dst by_) s fun t =>
      t.rd (stackLastFault k) = BitVec.ofNat 32 causeKvcmdInvalid ∧ RegsKept s t [stackLastFault k] ∧ { t with regs := s.regs } = s) ∧
  (∀ (s : State) (c idx : Nat) (x : Issued) (r : KvReply),
    s.kv.replies.find? (fun r => r.core == c && r.index == idx) = some r →
    (let waits := fun (i : Issued) => i.await == .kvcmd && i.desc.index == idx && i.step == r.step
     (s.core c).issued.find? waits = some x →
     (r.bytes = [] →
       Gives (.kvcmdComplete c idx) s fun t =>
         (t.core c).issued = mapFirst waits (fun _ => { x with await := .nothing, cause := r.cause }) (s.core c).issued ∧
         t.kv = { s.kv with replies := s.kv.replies.erase r } ∧ CoreOnly s { t with kv := s.kv } c) ∧
     (∀ b, spaceOf r.dst ≠ 3 → s.rangeOf c r.dst (r.bytes.length / 8) = some b → b.space ≠ 1 → r.bytes.length = 8 * b.words → r.bytes ≠ [] →
       Gives (.kvcmdComplete c idx) s fun t =>
         (t.core c).issued = mapFirst waits (fun _ => { x with await := .nothing, cause := r.cause }) (s.core c).issued ∧
         t.kv = { s.kv with replies := s.kv.replies.erase r } ∧ t.rdRange c b = r.bytes ∧ RangeOnly s { t with kv := s.kv } c b) ∧
     (spaceOf r.dst = 3 → r.bytes ≠ [] →
       Gives (.kvcmdComplete c idx) s fun t =>
         t.noc = (s.sendPackets (netPackets (epStack (bitsOf x.desc.func 2 0)) (fld r.dst 28 17) (16 * fld r.dst 16 0) r.bytes)).noc ∧
         t.kv = { s.kv with replies := s.kv.replies.erase r } ∧ t.mem = s.mem))) ∧
  (∀ (s : State) (c idx : Nat) (r : KvReply), s.kv.replies.find? (fun r => r.core == c && r.index == idx) = some r →
    (∀ i ∈ (s.core c).issued, i.await = .kvcmd → i.desc.index = idx → i.step ≠ r.step) →
    exec (.kvcmdComplete c idx) s = .next { s with kv := { s.kv with replies := s.kv.replies.erase r } })

/-- R206, R207, R225, R227, R228, R242, R243, R246, R247, R295, R362, R368, R374: a map commit is refused for a stream of another region, marked
bad where R243 says so, and else waits, goes to the job's modules once no token is in flight, and is installed then, with FREE_DEAD freeing the
pages that are all dead; a COMMIT takes the slots below the count out of the staged ones, and on a module that is not the ingress module each
decision of the ingress module takes effect on the streams that are open there, and one from elsewhere takes none; the ingress module learns what the
others tell it for its bounds (that the decisions and this come with COMMIT is the model's choice, log entry 147); spilling moves candidate pages to handles until HIGH_WATER, and a reload brings them back; a faulted pseudo-channel is marked and
reported, DRAM errors count, and restored KV lets its stream go on. -/
def Obligations.PagesMoveWithTheirStreams : Prop :=
  (∀ (s : State) (f : Nat) (v : Word) (cmd : Instr) (free : Bool), (cmd, free) ∈ [(.posmapCommit f v, bit v 1), (.freeDead f v, true)] →
    s.mayWrite f kvpPosmapCmd = true → bit v 0 = true →
    (let st := fld (s.rd kvpPosmapSel) 19 0
     let m := s.stagedMap st
     (f ≠ 0 → (s.stream st).state ≠ .free → s.vfRegion f ≠ some (s.stream st).region →
       Gives cmd s fun t =>
         t.rd kvpLastRefuse = BitVec.ofNat 32 rRegionViolation ∧ t.kv = { s.kv with posBad := false } ∧ KvRegs s t [kvpLastRefuse]) ∧
     ((f = 0 ∨ (s.stream st).state = .free ∨ s.vfRegion f = some (s.stream st).region) →
       (s.isIngress = false ∨ streamOk st = false ∨ (s.stream st).state = .free ∨ m.1.ok m.2 = false) →
       Gives cmd s fun t => t = { s with kv := { s.kv with posBad := true } }) ∧
     ((f = 0 ∨ s.vfRegion f = some (s.stream st).region) → s.isIngress = true → streamOk st = true → (s.stream st).state ≠ .free →
       m.1.ok m.2 = true →
       ((s.stream st).flying.isSome = true →
         Gives cmd s fun t => t = { s with kv := { s.kv with posBad := false, pending := s.kv.pending ++ [⟨st, m.1, free, false⟩] } }) ∧
       ((s.stream st).flying = none →
         Gives cmd s fun t =>
           t.kv = { s.kv with
             posBad := false
             pending := (s.kv.pending.map fun p => if p.stream = st then { p with sent := true } else p) ++ [⟨st, m.1, free, true⟩] } ∧
           t.wnd.decisions = s.wnd.decisions ++
             ((s.kv.pending.filter fun p => p.stream == st && !p.sent).map fun p => Decision.posmap st p.map p.free) ++ [.posmap st m.1 free] ∧
           { t with kv := s.kv, wnd := { t.wnd with decisions := s.wnd.decisions } } = s)))) ∧
  (∀ (s : State) (i : Nat) (p : PendMap), (s.kv.pending.find? fun p => p.stream == i) = some p →
    ((s.stream i).flying.isSome = true ∨ p.sent = false → exec (.posmapInstall i) s = .next s) ∧
    ((s.stream i).flying = none → p.sent = true →
      Gives (.posmapInstall i) s fun t =>
        t.stream i = { s.stream i with pos := p.map } ∧ StreamOnly s { t with kv := s.kv } i ∧ t.kv.pending = s.kv.pending.erase p ∧
        (∀ key, t.pte key =
          if p.free ∧ key ∈ (((s.setStream i { s.stream i with pos := p.map }).deadPages i).map (·.1)) then Pte.none else s.pte key) ∧
        { t.kv with pending := s.kv.pending, ptes := s.kv.ptes, refs := s.kv.refs } = s.kv)) ∧
  (∀ (s : State) (src i n g : Nat) (tokens : List Nat) (smp : Option Nat), s.isIngress = true → (s.stream i).state ≠ .free →
    Gives (.commit src (.commit i n tokens smp g)) s fun t =>
      t.stream i = { s.stream i with committed := max (s.stream i).committed n } ∧
      StreamOnly s { t with kv := s.kv, wnd := { t.wnd with mirrorTx := s.wnd.mirrorTx } } i ∧
      t.wnd.mirrorTx = s.wnd.mirrorTx ++ (if (s.cls (s.stream i).cls).kvprot = 1 ∧ (s.stream i).committed < n then
        [{ partner := fld (s.rd wndKvpPartner) 19 0, stream := i, start := (s.stream i).committed, stop := n, vc := 2,
           kv := s.slotsKv i (s.stream i).committed n }] else []) ∧
      (∀ key, t.pte key = if keyStream key = i then (s.pte key).commit (keyPage key) n else s.pte key) ∧
      { t.kv with ptes := s.kv.ptes } = s.kv) ∧
  (∀ (s : State) (i : Nat), s.isIngress = false → (s.stream i).state ≠ .free →
    (let x := s.stream i
     (∀ (n g : Nat) (tokens : List Nat) (smp : Option Nat), Gives (.commit s.wnd.job.ingressDev (.commit i n tokens smp g)) s fun t =>
       t.stream i = { x with committed := max x.committed n, history := x.history ++ tokens, pend := smp.toList, pendSampled := smp.isSome,
                             genCount := g, smpNow := none, flying := none } ∧
       (∀ key, t.pte key = if keyStream key = i then (s.pte key).commit (keyPage key) n else s.pte key) ∧
       StreamOnly s { t with kv := s.kv, wnd := { t.wnd with mirrorTx := s.wnd.mirrorTx } } i) ∧
     (Gives (.commit s.wnd.job.ingressDev (.closed i)) s fun t =>
       (t.stream i).state = .free ∧ (t.stream i).committed = 0 ∧ (∀ key, keyStream key = i → t.pte key = Pte.none) ∧
       (∀ key, keyStream key ≠ i → t.pte key = s.pte key) ∧ ∀ j, j ≠ i → t.stream j = s.stream j) ∧
     (Gives (.commit s.wnd.job.ingressDev (.cancel i)) s fun t =>
       t.stream i = { x with flying := none, smpNow := none, maskWait := false, smpHold := false } ∧
       (∀ key, keyStream key = i → (t.pte key).staged = []) ∧ (∀ r ∈ t.wnd.ready, r.stream ≠ some i) ∧ ∀ j, j ≠ i → t.stream j = s.stream j) ∧
     (Gives (.commit s.wnd.job.ingressDev (.retry i)) s fun t =>
       t.stream i = x ∧ (∀ key, keyStream key = i → (t.pte key).staged = []) ∧ (∀ c, i ∉ (t.core c).faulted) ∧
       ∀ j, j ≠ i → t.stream j = s.stream j) ∧
     (Gives (.commit s.wnd.job.ingressDev (.pause i)) s fun t => t.stream i = { x with state := .paused } ∧ StreamOnly s t i) ∧
     (Gives (.commit s.wnd.job.ingressDev (.resume i)) s fun t => t.stream i = { x with state := .idle } ∧ StreamOnly s t i) ∧
     (Gives (.commit s.wnd.job.ingressDev (.unpark i)) s fun t => t.stream i = { x with state := .unparking } ∧ StreamOnly s t i) ∧
     (∀ place, Gives (.commit s.wnd.job.ingressDev (.park i place)) s fun t =>
       t.stream i = { x with beforePark := x.state, state := .parking, parkTarget := place, parkTag := 0, parkBytes := s.parkVolume i } ∧
       t.swap.parkUsed = s.swap.parkUsed ++ (if place = 0 then [] else [(s.now, s.parkVolume i)]) ∧ StreamOnly s { t with swap := s.swap } i) ∧
     (∀ y, Gives (.commit s.wnd.job.ingressDev (.sampler i y)) s fun t => t.stream i = { x with sampler := y } ∧ StreamOnly s t i) ∧
     (∀ mode bytes, Gives (.commit s.wnd.job.ingressDev (.mask i mode bytes)) s fun t => t.stream i = x.setMask mode bytes ∧ StreamOnly s t i) ∧
     (∀ m free, exec (.commit s.wnd.job.ingressDev (.posmap i m free)) s = .next { s with kv := { s.kv with pending := s.kv.pending ++ [⟨i, m, free, true⟩] } }) ∧
     (∀ n page, Gives (.commit s.wnd.job.ingressDev (.node n i page)) s fun t =>
       (∃ y, t.pnode n = some y ∧ y.stream = i ∧ y.depth = page) ∧ (∀ m, m ≠ n → t.pnode m = s.pnode m) ∧ t.wnd = s.wnd) ∧
     (Gives (.commit s.wnd.job.ingressDev (.matched i [] [])) s fun t => t = s))) ∧
  (∀ (s : State) (i n : Nat) (y : Node) (tokens : List Nat), s.isIngress = false → (s.stream i).state ≠ .free → s.pnode n = some y →
    tokens.length = 256 → y.depth < 0x1000000 →
    (∀ fr ∈ y.frames, fr.1 < 2048 ∧ s.frameRef (fr.2 / 0x200000) (fr.2 % 0x200000) + y.frames.length < 65535) →
    Gives (.commit s.wnd.job.ingressDev (.matched i [n] tokens)) s fun t =>
      t.stream i = { s.stream i with committed := (s.stream i).committed + 256, history := (s.stream i).history ++ tokens, node := some n,
                                     matched := (s.stream i).matched ++ [n] } ∧
      (∀ j, j ≠ i → t.stream j = s.stream j) ∧ t.mem = s.mem ∧ t.regs = s.regs ∧ (∀ key, keyStream key ≠ i → t.pte key = s.pte key)) ∧
  (∀ (s : State) (i cls cust region : Nat) (bank : Bool), s.isIngress = false → (s.stream i).state = .free →
    Gives (.commit s.wnd.job.ingressDev (.opened i cls cust bank region none)) s fun t =>
      (let x := s.stream i
       t.stream i = { Stream.free with
         state := .idle, cls := cls, customer := cust, bank := bank, region := region, ringBase := x.ringBase, ringSize := x.ringSize,
         ringEvr := x.ringEvr, fn := x.fn, head := x.head, tail := x.tail, mirrorWait := x.mirrorWait,
         pos := openMap (s.rd kvpRopeDefBase) (fld (s.rd kvpRopeDefDims) 7 0) }) ∧ StreamOnly s t i) ∧
  (∀ (s : State) (c : Nat) (x : Machine.Class), s.isIngress = false → Gives (.commit s.wnd.job.ingressDev (.classTable c x)) s fun t =>
    t.cls c = x ∧ (∀ j, j ≠ c → t.cls j = s.cls j) ∧ { t with wnd := { t.wnd with classes := s.wnd.classes } } = s) ∧
  (∀ (s : State) (n : Nat) (x : Node), s.isIngress = false → s.pnode n = some x → (s.kv.nodes.map Prod.fst).Pairwise (· < ·) →
    Gives (.commit s.wnd.job.ingressDev (.evict n)) s fun t =>
      t.pnode n = none ∧ (∀ m, m ≠ n → t.pnode m = s.pnode m) ∧ t.kv.ptes = s.kv.ptes ∧ t.mem = s.mem ∧ (∀ i, n ∉ (t.stream i).matched)) ∧
  (∀ (s : State) (src : Nat) (v : JobView), s.isIngress = true →
    exec (.commit src (.view v)) s = .next (let u := s.each v.lost State.loseShard; { u with wnd := { u.wnd with view := some v } })) ∧
  (∀ (s : State) (src : Nat) (d : Decision), (s.isIngress = true ∧ (∀ i n ts smp g, d ≠ .commit i n ts smp g) ∧ (∀ v, d ≠ .view v) ∨
      s.isIngress = false ∧ (src ≠ s.wnd.job.ingressDev ∨
        ∃ i, d.stream = some i ∧ (s.stream i).state = .free ∧ ∀ a b c e f, d ≠ .opened i a b c e f)) →
    exec (.commit src d) s = .next s) ∧
  (∀ (s : State), (bit (s.rd kvpCtrl) 0 = false ∨ fld (s.rd kvpLowWater) 23 0 ≤ s.totalFree ∧ s.kv.spilling = false) →
    Gives .spillStart s fun t => t = { s with kv := { s.kv with spilling := false } }) ∧
  (∀ (s : State), bit (s.rd kvpCtrl) 0 = true → (s.totalFree < fld (s.rd kvpLowWater) 23 0 ∨ s.kv.spilling = true) →
    Gives .spillStart s fun t =>
      t.kv.spilling = decide (t.totalFree < fld (s.rd kvpHighWater) 23 0) ∧ (∀ key, key ∉ s.spillCandidates → t.pte key = s.pte key) ∧
      (∀ key ∈ s.spillCandidates, (t.pte key).spilled = true ∨ t.pte key = s.pte key) ∧ t.wnd = s.wnd ∧ t.stopes = s.stopes ∧ t.cores = s.cores) ∧
  (∀ (s : State) (key : Nat), bit (s.rd kvpCtrl) 0 = true → s.totalFree < fld (s.rd kvpLowWater) 23 0 →
    fld (s.rd kvpLowWater) 23 0 < fld (s.rd kvpHighWater) 23 0 → s.spillCandidates = [key] → s.spillTarget = some 2 →
    Gives .spillStart s fun t =>
      t.pte key = { s.pte key with spilled := true, handle := s.freshHandle } ∧
      t.rdMem (cageBase s.freshHandle) 0x8800 = s.frameBytes (s.pte key).stack (s.pte key).frame ∧
      t.frameRef (s.pte key).stack (s.pte key).frame = s.frameRef (s.pte key).stack (s.pte key).frame - 1 ∧
      t.rd kvpSpillCount = s.rd kvpSpillCount + 1 ∧ MemKept s t (cageBase s.freshHandle) 0x8800 ∧
      (∀ k, k ≠ key → t.pte k = s.pte k) ∧ KvRegs s { t with mem := s.mem } [kvpSpillCount]) ∧
  (∀ (s : State) (i : Nat),
    Gives (.spillReload i) s fun t =>
      (∀ key, keyStream key ≠ i → t.pte key = s.pte key) ∧ (i ∈ t.kv.reloading ↔ t.hasSpilled i = true) ∧
      (∀ j, j ≠ i → (j ∈ t.kv.reloading ↔ j ∈ s.kv.reloading)) ∧ t.wnd = s.wnd ∧ t.stopes = s.stopes) ∧
  (∀ (s : State) (i key k f : Nat), Table.wf Pte.none s.kv.ptes = true → ((s.streamPtes i).filter fun e => e.2.spilled) = [(key, s.pte key)] → (s.pte key).spilled = true →
    (let pref := s.preferred (keyLayer key) (keyHead key) (keyPage key)
     s.chooseFrame (s.stream i).region pref.1 pref.2 = some (k, f) → f < framesPerStack →
     Gives (.spillReload i) s fun t =>
       t.pte key = { s.pte key with frame := f, stack := k, spilled := false, handle := 0 } ∧
       t.frameBytes k f = s.rdMem (cageBase (s.pte key).handle) 0x8800 ∧ t.frameRef k f = 1 ∧ i ∉ t.kv.reloading ∧
       t.rd kvpReloadCount = s.rd kvpReloadCount + 1 ∧ (∀ x, x ≠ key → t.pte x = s.pte x) ∧
       (∀ x, (x < elemAddr k f ∨ elemAddr k f + 0x8000 ≤ x) → (x < scaleAddr k f ∨ scaleAddr k f + 0x800 ≤ x) →
         readByte t.mem x = readByte s.mem x) ∧
       KvRegs s { t with mem := s.mem, cores := s.cores } [kvpReloadCount])) ∧
  (∀ (s : State) (k pc : Nat), k < 8 → pc < 32 →
    (s.streamsOn k pc = [] →
      Gives (.pcFail k pc) s fun t =>
        t.rd (stackPcFail k) = s.rd (stackPcFail k) ||| BitVec.ofNat 32 (2 ^ pc) ∧
        t.rd (stackLastFault k) = BitVec.ofNat 32 causePcFail ∧
        (∃ x, t.noc.notices = s.noc.notices ++ [x] ∧ x.cause = causePcFail ∧ x.unit = unitPc k pc ∧ x.source = epStack k) ∧
        RegsKept s t [stackPcFail k, stackLastFault k] ∧ NocNotices s t ∧ { t with regs := s.regs, noc := s.noc } = s) ∧
    Gives (.pcFail k pc) s fun t =>
      ∀ i ∈ s.streamsOn k pc,
        ((s.cls (s.stream i).cls).kvprot = 1 ∨ (s.cls (s.stream i).cls).kvprot = 2 → t.stream i = { s.stream i with pcHold := true }) ∧
        ((s.cls (s.stream i).cls).kvprot ≠ 1 → (s.cls (s.stream i).cls).kvprot ≠ 2 →
          (t.stream i).flying = none ∧ (t.stream i).work = [] ∧ (t.stream i).state ≠ .active)) ∧
  (∀ (s : State) (k pc n : Nat), k < 8 → pc < 32 →
    Gives (.dramError k pc n true) s fun t =>
      t.rd (stackCeCount k) = s.rd (stackCeCount k) + BitVec.ofNat 32 n ∧
      Table.get 0 t.kv.ceHour (32 * k + pc) = Table.get 0 s.kv.ceHour (32 * k + pc) + n ∧
      (∀ x, x ≠ 32 * k + pc → Table.get 0 t.kv.ceHour x = Table.get 0 s.kv.ceHour x) ∧ { t.kv with ceHour := s.kv.ceHour } = s.kv ∧
      (Table.get 0 s.kv.ceHour (32 * k + pc) + n ≤ 1000 ∨ 1000 < Table.get 0 s.kv.ceHour (32 * k + pc) → KvRegs s t [stackCeCount k])) ∧
  (∀ (s : State) (k pc n : Nat), k < 8 → pc < 32 →
    Gives (.dramError k pc n false) s fun t =>
      t.rd (stackUeCount k) = s.rd (stackUeCount k) + BitVec.ofNat 32 n ∧ t.kv = s.kv ∧ t.mem = s.mem) ∧
  (∀ (s : State) (k pc i n : Nat), (s.stream i).state ≠ .free →
    Gives (.kvRestored k pc i n) s fun t =>
      (t.stream i).pcHold = false ∧ (t.stream i).flying = none ∧ (t.stream i).committed = min (s.stream i).committed n ∧
      (t.stream i).history = (s.stream i).history.take n ∧ (∀ x, x ≠ i → t.stream x = s.stream x) ∧
      (∃ x, t.noc.notices = s.noc.notices ++ [x] ∧ x.cause = causeKvRestored ∧ x.detail = n ∧ x.stream = some i) ∧
      ((∀ e ∈ s.streamPtes i, e.2.stagedOnly = false ∧ ¬ (e.2.stack = k ∧ e.2.frame % 32 = pc)) →
        StreamOnly s { t with kv := s.kv, noc := s.noc } i ∧ NocNotices s t ∧ t.kv.refs = s.kv.refs)) ∧
  (∀ (s : State) (k pc i n : Nat), (s.stream i).state = .free → exec (.kvRestored k pc i n) s = .next s) ∧
  (∀ (s : State) (k pc i n key j f : Nat), (s.stream i).state ≠ .free → s.streamPtes i = [(key, s.pte key)] →
    (let p := s.pte key
     let pref := s.preferred (keyLayer key) (keyHead key) (keyPage key)
     p.valid = true → p.spilled = false → p.stagedOnly = false → p.stack = k → p.frame % 32 = pc →
     s.chooseFrame (s.stream i).region pref.1 pref.2 = some (j, f) → f < framesPerStack →
     Gives (.kvRestored k pc i n) s fun t =>
       t.pte key = { p with staged := [], stack := j, frame := f } ∧ t.frameBytes j f = s.frameBytes k p.frame ∧
       (t.stream i).pcHold = false ∧ (∀ x, x ≠ i → t.stream x = s.stream x) ∧ t.regs = s.regs))

/-- R233, R234, R236, R237, R244: a block that follows the tree is inserted with its chained hash, its parent, its generation and its
tokens, at the head of its bucket, not READY; a full store evicts, or the insertion is skipped and counted; READY, PIN and UNPIN change their bit of one node; UNPIN_ALL clears PINNED of all; an
eviction by generation leaves no node of a replaced generation; NODE_FIND selects the last node of a stream of the writer's region; ENABLE
reserves the node frames or is refused with CAPACITY, and clearing it evicts every node. -/
def Obligations.PrefixNodesAct : Prop :=
  (∀ (s u : State) (i d : Nat) (toks : List Nat),
    (let st := s.stream i
     let gen := s.genOf (s.streamBank st)
     let blocks := (fullBlocks st.history).take (st.committed / 256)
     let known := (s.walk gen false blocks noNode gen).1
     let parent := known.getLast?.getD noNode
     s.treeActive = true → bit (s.rd pfxCtrl) 1 = true → known.length = d → blocks[d]? = some toks → s.kv.nodes.length ≤ 16777215 →
     (s.kv.nodes.length < s.nodeCap ∧ u = s) ∨
       (s.nodeCap ≤ s.kv.nodes.length ∧ ∃ v, s.evictionChoice = some v ∧ v ≠ parent ∧ u = s.evictNode v) →
     Gives (.nodeInsert i) s fun t =>
       (∃ x, t.pnode u.freeNode = some x ∧ x.hash = BitVec.ofNat 64 (blockHash ((blocks.take d).foldl blockHash gen) toks) ∧
         x.parent = parent ∧ x.depth = d ∧ x.gen = BitVec.ofNat 64 gen ∧ x.tokens = toks ∧ x.refs = 0 ∧
         x.children = 0 ∧ x.ready = false ∧ x.next = u.bucket x.hash.toNat ∧ t.bucket x.hash.toNat = u.freeNode ∧
         x.pinned = (st.pinRanges.any fun r => decide (r.1 ≤ 256 * d ∧ 256 * d + 256 ≤ r.2))) ∧
       (∀ y, u.pnode parent = some y → t.pnode parent = some { y with children := y.children + 1 }) ∧
       (∀ m, m ≠ u.freeNode → m ≠ parent → t.pnode m = u.pnode m) ∧
       t.stream i = { u.stream i with node := some u.freeNode } ∧ (∀ j, j ≠ i → t.stream j = u.stream j) ∧
       t.wnd.decisions = u.wnd.decisions ++ [.node u.freeNode i d])) ∧
  (∀ (s : State) (i : Nat),
    (let st := s.stream i
     let gen := s.genOf (s.streamBank st)
     let blocks := (fullBlocks st.history).take (st.committed / 256)
     let known := (s.walk gen false blocks noNode gen).1
     (s.treeActive = false ∨ bit (s.rd pfxCtrl) 1 = false ∨ known.length = blocks.length → exec (.nodeInsert i) s = .next s) ∧
     (s.treeActive = true → bit (s.rd pfxCtrl) 1 = true → known.length ≠ blocks.length → s.nodeCap ≤ s.kv.nodes.length →
       (s.evictionChoice = none → exec (.nodeInsert i) s = .next (s.inc pfxInsertSkipCount 1)) ∧
       (s.evictionChoice = some (known.getLast?.getD noNode) →
         exec (.nodeInsert i) s = .next (s.evictNode (known.getLast?.getD noNode)))))) ∧
  (∀ (s : State) (n : Nat) (x : Node), s.pnode n = some x →
    (Gives (.nodeReady n) s fun t => NodeOnly s t n { x with ready := true }) ∧
    (∀ f, s.mayWrite f pfxNodeCmd = true → s.nodeSel = n →
      (Gives (.nodePin f) s fun t => NodeOnly s t n { x with pinned := true }) ∧
      (Gives (.nodeUnpin f) s fun t => NodeOnly s t n { x with pinned := false }))) ∧
  (∀ (s : State) (f : Nat), s.pnode s.nodeSel = none → exec (.nodePin f) s = .next s ∧ exec (.nodeUnpin f) s = .next s) ∧
  (∀ (s : State) (f : Nat), s.mayWrite f pfxCtrl = true →
    Gives (.unpinAll f) s fun t =>
      (∀ n, t.pnode n = (s.pnode n).map fun x => { x with pinned := false }) ∧
      { t with kv := { t.kv with nodes := s.kv.nodes }, mem := s.mem } = s) ∧
  (∀ (s : State) (bank : Bool), (s.kv.nodes.map Prod.fst).Pairwise (· < ·) →
    Gives (.genEvict bank) s fun t =>
      (∀ n x, s.pnode n = some x → (bank, x.gen) ∈ s.kv.prevGen → t.pnode n = none) ∧
      (∀ n x, s.pnode n = some x → (bank, x.gen) ∉ s.kv.prevGen →
        ∃ y, t.pnode n = some y ∧
          { y with next := x.next, children := x.children, refs := x.refs, lastUse := x.lastUse, pinned := x.pinned } = x) ∧
      (∀ p ∈ t.kv.prevGen, p.1 ≠ bank) ∧
      ((∀ p ∈ s.wnd.streams, p.2.work = []) →
        (∀ n x, s.pnode n = some x → (bank, x.gen) ∉ s.kv.prevGen →
          ∃ y, t.pnode n = some y ∧ y.refs = x.refs ∧ y.lastUse = x.lastUse ∧ y.pinned = x.pinned) ∧
        RegsKept s t [pfxEvictCount] ∧ { t with kv := s.kv, regs := s.regs, mem := s.mem, wnd := s.wnd } = s)) ∧
  (∀ (s : State) (f : Nat) (v : Word), s.mayWrite f pfxNodeFind = true →
    (let st := s.stream (fld v 19 0)
     Gives (.nodeFind f v) s fun t =>
       t.rd pfxNodeSel = BitVec.ofNat 32 (if st.state ≠ .free ∧ (f = 0 ∨ s.vfRegion f = some st.region) then st.node.getD noNode else noNode) ∧
       RegsKept s t [pfxNodeSel] ∧ { t with regs := s.regs } = s)) ∧
  (∀ (s : State) (f : Nat) (v : Word), s.mayWrite f pfxCtrl = true → bit (s.rd pfxCtrl) 0 = false →
    (s.totalFree < fld (s.rd pfxNodeFrames) 19 0 →
      Gives (.pfxEnable f v) s fun t =>
        t.rd pfxLastRefuse = BitVec.ofNat 32 rCapacity ∧ bit (t.rd pfxCtrl) 0 = false ∧ RegsKept s t [pfxCtrl, pfxLastRefuse] ∧
        (bit v 2 = false → t.mem = s.mem ∧ t.kv = s.kv) ∧
        { t with regs := s.regs, mem := s.mem, kv := { t.kv with nodes := s.kv.nodes } } = s) ∧
    (fld (s.rd pfxNodeFrames) 19 0 ≤ s.totalFree →
      Gives (.pfxEnable f v) s fun t =>
        bit (t.rd pfxCtrl) 0 = true ∧ bit (t.rd pfxCtrl) 1 = bit v 1 ∧ t.kv.ptes = s.kv.ptes ∧
        (bit v 2 = false → t.mem = s.mem ∧ t.kv.nodes = s.kv.nodes) ∧
        s.kv.nodeFrames <+: t.kv.nodeFrames ∧ t.kv.nodeFrames.length ≤ s.kv.nodeFrames.length + fld (s.rd pfxNodeFrames) 19 0) ∧
    (Gives (.pfxEnable f v) s fun t => ∀ n, t.pnode n = (s.pnode n).map fun x => { x with pinned := x.pinned && !(bit v 2) })) ∧
  (∀ (s : State) (f : Nat) (v : Word), s.mayWrite f pfxCtrl = true → bit (s.rd pfxCtrl) 0 = true →
    Gives (.pfxEnable f v) s fun t =>
      bit (t.rd pfxCtrl) 0 = true ∧ bit (t.rd pfxCtrl) 1 = bit v 1 ∧ t.kv.nodeFrames = s.kv.nodeFrames ∧ RegsKept s t [pfxCtrl] ∧
      (∀ n, t.pnode n = (s.pnode n).map fun x => { x with pinned := x.pinned && !(bit v 2) })) ∧
  (∀ (s : State) (f : Nat) (v : Word), s.mayWrite f pfxCtrl = true →
    Gives (.pfxDisable f v) s fun t =>
      bit (t.rd pfxCtrl) 0 = false ∧ t.kv.nodes = [] ∧ t.kv.nodeFrames = [] ∧ t.kv.ptes = s.kv.ptes ∧
      RegsKept s t [pfxCtrl, pfxEvictCount])

/-- R204, R205, R216, R218: a score depends on the positions of query and key through their difference alone; a record that is empty
changes no fold, wherever it stands; and finish gives 0 for an empty record and the canonical quiet NaN for one with NAN. -/
def Obligations.PartialsFoldAndScoresRotate : Prop :=
  (∀ (phi : List Nat) (dims a c n : Nat) (q : QRow) (kv : KvSlot),
    score phi dims { q with pos := a + n } { kv with pos := c + n } = score phi dims { q with pos := a } { kv with pos := c }) ∧
  (∀ l : List Partial, (∀ p ∈ l, p.empty = true → p = Partial.none) → foldPartials l = foldPartials (l.filter fun p => !p.empty)) ∧
  (∀ p : Partial, p.empty = true → p.nan = false → ∀ w ∈ p.finish, w = 0) ∧
  (∀ p : Partial, p.nan = true → ∀ w ∈ p.finish, w = qnan)


/-! ## Streams, the winder, admission and sampling -/

/-- R251, R253, R255, R261, R264, R265, R266, R459: a doorbell moves TAIL, or is refused without a settled ABI, outside the function's
region, or beyond SIZE; a malformed item and a reserved encoding are consumed and refused with ABI_MISMATCH; RING_RESET discards and counts
the items of a ring; EVR_RESET discards and counts the held records, with the producer count 0 and PHASE 1; EVR_HEAD takes the host's
count; a held record is written once its ring takes it, and a record that waits at its source takes the room; and a ring raises its vector TIME µs after its oldest unsignalled record. -/
def Obligations.RingsTakeAndRefuse : Prop :=
  (∀ (s : State) (f : Nat) (v : Word), s.mayWrite f ringDb = true →
    (let r := fld v 19 0
     let tail := fld v 31 20
     let bad := (s.fn f).abiSel = 0 ∨ (r ≠ ctrlRing ∧ streamOk r = false)
     let code := if bad then rAbiMismatch else if s.ownsStream f r = false then rRegionViolation
       else if (s.ring r).size < (tail + 4096 - (s.ring r).head) % 4096 then rCapacity else 0
     (code ≠ 0 →
       Gives (.ringDb f v) s fun t =>
         t.rd ringLastRefuse = BitVec.ofNat 32 (code + r % 0x10000 * 0x10000) ∧ RegsKept s t [ringLastRefuse] ∧ { t with regs := s.regs } = s) ∧
     (code = 0 →
       Gives (.ringDb f v) s fun t =>
         (t.ring r).tail = tail ∧ (t.ring r).head = (s.ring r).head ∧ (t.ring r).base = (s.ring r).base ∧ (t.ring r).size = (s.ring r).size ∧
         (∀ j, j ≠ r → t.stream j = s.stream j) ∧
         { t with wnd := { t.wnd with streams := s.wnd.streams, ctrlTail := s.wnd.ctrlTail, ctrlFn := s.wnd.ctrlFn } } = s))) ∧
  (∀ (s : State) (r : Nat) (it : Item), s.item r = some it →
    (it.kind = .malformed → Gives (.itemMalformed r) s fun t => Refused s t r it rAbiMismatch) ∧
    (it.kind = .reserved → Gives (.itemReservedOpcode r) s fun t => Refused s t r it rAbiMismatch) ∧
    (it.kind = .ok → exec (.itemMalformed r) s = .next s ∧ exec (.itemReservedOpcode r) s = .next s)) ∧
  (∀ (s : State) (f : Nat) (v : Word), s.mayWrite f ringReset = true →
    (let r := fld v 19 0
     let code := if r ≠ ctrlRing ∧ streamOk r = false then rAbiMismatch else if s.ownsStream f r = false then rRegionViolation else 0
     (code ≠ 0 →
       Gives (.ringReset f v) s fun t =>
         t.rd ringLastRefuse = BitVec.ofNat 32 (code + r % 0x10000 * 0x10000) ∧ RegsKept s t [ringLastRefuse] ∧ { t with regs := s.regs } = s) ∧
     (code = 0 →
       Gives (.ringReset f v) s fun t =>
         (t.ring r).head = 0 ∧ (t.ring r).tail = 0 ∧ (t.stream r).work = (s.stream r).work ∧
         t.rd ringItemDiscardCount = s.rd ringItemDiscardCount + BitVec.ofNat 32 (s.itemsLeft (s.ring r)) ∧
         (∀ j, j ≠ r →
           t.stream j = { s.stream j with wantOpen := if (s.stream j).wantOpen = some r then none else (s.stream j).wantOpen }) ∧
         RegsKept s t [ringItemDiscardCount] ∧
         { t with regs := s.regs, wnd := { t.wnd with streams := s.wnd.streams, ctrlHead := s.wnd.ctrlHead, ctrlTail := s.wnd.ctrlTail } } = s))) ∧
  (∀ (s : State) (f : Nat) (v : Word), s.mayWrite f ringEvrReset = true →
    (let i := fld v 5 0
     Gives (.evrReset f v) s fun t =>
       t.evr i = { s.evr i with held := [], tail := 0, phase := true, unsignalled := 0, oldest := none } ∧
       (∀ j, j ≠ i → t.evr j = s.evr j) ∧
       t.rd ringEvtDiscardCount = s.rd ringEvtDiscardCount + BitVec.ofNat 32 (s.evr i).held.length ∧ RegsKept s t [ringEvtDiscardCount] ∧
       { t with regs := s.regs, wnd := { t.wnd with evrs := s.wnd.evrs } } = s)) ∧
  (∀ (s : State) (f : Nat) (v : Word), s.mayWrite f ringEvrHead = true →
    (let i := fld (s.rd ringEvrSel) 5 0
     Gives (.evrHeadWrite f v) s fun t =>
       t.evr i = { s.evr i with head := fld v 15 0 } ∧ (∀ j, j ≠ i → t.evr j = s.evr j) ∧
       { t with wnd := { t.wnd with evrs := s.wnd.evrs } } = s)) ∧
  (∀ (s : State) (i : Nat) (rec : Record) (rest : List Record), (s.evr i).held = rec :: rest → (s.evr i).roomy = true →
    s.dmaOn (s.evr i).fn = true → (∀ p ∈ s.wnd.streams, p.2.ringEvr = i → p.2.work = []) →
    (let a := hostBase + (s.evr i).base.toNat + (s.evr i).tail % (s.evr i).size * 32
     Gives (.heldRecordWrite i) s fun t =>
       t.rdMem a 32 = rec.bytes (s.evr i).phase ∧ MemKept s t a 32 ∧ (t.evr i).tail = ((s.evr i).tail + 1) % 0x10000 ∧
       rest <+: (t.evr i).held ∧ (∃ k, k ≤ 2 ∧ t.wnd.evWait = s.wnd.evWait.drop k) ∧
       (s.wnd.evWait = [] → (t.evr i).held = rest ∧ ∀ j, j ≠ i → t.evr j = s.evr j) ∧
       (∀ w ws, s.wnd.evWait = w :: ws → s.heldRecords < 4096 → w.1 ≠ i → (s.evr w.1).held ++ [w.2] <+: (t.evr w.1).held) ∧
       { t with mem := s.mem, edge := { t.edge with msi := s.edge.msi },
                wnd := { t.wnd with evrs := s.wnd.evrs, evWait := s.wnd.evWait } } = s)) ∧
  (∀ (s : State) (i n : Nat), (s.evr i).oldest = some n → n + (s.evr i).time * 1000 ≤ s.now →
    Gives (.evrTimeExpiry i) s fun t =>
      t.edge.msi = s.edge.msi ++ [((s.evr i).fn, (s.evr i).vector)] ∧ t.evr i = { s.evr i with unsignalled := 0, oldest := none } ∧
      (∀ j, j ≠ i → t.evr j = s.evr j) ∧
      { t with edge := { t.edge with msi := s.edge.msi }, wnd := { t.wnd with evrs := s.wnd.evrs } } = s)

/-- R249, R250, R256, R257, R258, R259, R264, R271, R272, R279, R281, R286, R290, R293, R294: each command of a submission ring, sound and at its
ring's head, is consumed and has the effect its table gives for the stream's state, or none, or is refused with CAPACITY; a command refused or
without effect changes nothing of its stream; an OPEN_STREAM whose parent has a token in flight stays in its ring. That a park to the vault or
to storage reserves its volume (log entry 127) is the model's reading. -/
def Obligations.StreamCommandsAct : Prop :=
  (∀ (s : State) (r : Nat) (it : Item), s.item r = some it → it.kind = .ok → r ≠ ctrlRing →
    (let x := s.stream r
     let c := it.arg 0x10 1
     let blocked := x.flying.isSome || x.cancelTag.isSome || s.evrBlocked x.ringEvr
     let u := s.freeParent r
     let resting := x.state = .paused ∨ x.state = .parking ∨ x.state = .parked ∨ x.state = .unparking
     let live := x.state = .idle ∨ x.state = .active
     let tokens := s.itemTokens it
     let noMatch := bitAt (it.arg 0x14 4) 0
     let pin := bitAt (it.arg 0x14 4) 1
     let pins := if pin then x.pinRanges ++ [(x.history.length + x.pend.length, x.history.length + x.pend.length + tokens.length)] else x.pinRanges
     let begun : Stream := { x with
       state := .active, work := [.generate (it.arg 0x10 4) it.tag], generating := true, budget := it.arg 0x10 4, genTag := it.tag,
       genCount := 0, itemStart := s.now }
     (it.op = 1 → bitAt (it.arg 0x14 4) 20 = false → x.state = .free → (s.cls c).admitted = true → s.classOpen c < (s.cls c).maxStreams →
       Gives (.openStream r) s fun t =>
         Took s t r it { Stream.free with
           state := .idle, cls := c, customer := it.arg 0x12 1, bank := bitAt (it.arg 0x11 1) 0, region := x.region,
           ringBase := x.ringBase, ringSize := x.ringSize, ringEvr := x.ringEvr, fn := x.fn, tail := x.tail, mirrorWait := x.mirrorWait,
           pos := openMap (s.rd kvpRopeDefBase) (fld (s.rd kvpRopeDefDims) 7 0) }
           [.opened r c (it.arg 0x12 1) (bitAt (it.arg 0x11 1) 0) x.region none]) ∧
     (∀ (p : Nat), it.op = 1 → s.parentOf r it = some (some p) → x.state = .free → (s.cls c).admitted = true →
       s.classOpen c < (s.cls c).maxStreams →
       ((s.stream p).flying = none → (s.stream p).cancelTag = none → Table.wf Pte.none s.kv.ptes = true →
         (∀ key ∈ s.sharedKeys p, (s.pte key).spilled = false ∧ s.frameRef (s.pte key).stack (s.pte key).frame < 60000) →
         ((s.sharedKeys p).map fun key => ((s.pte key).stack, (s.pte key).frame)).Nodup →
         Gives (.openStream r) s fun t =>
           (t.stream r).state = .idle ∧ (t.stream r).committed = (s.stream p).committed ∧ (t.stream r).pos = (s.stream p).pos ∧
           (t.stream r).sampler = (s.stream p).sampler ∧ (t.stream r).history = (s.stream p).history ∧
           (t.stream r).head = (x.head + it.n) % 4096 ∧ t.mem = s.mem ∧
           t.wnd.decisions = s.wnd.decisions ++ [.opened r c (it.arg 0x12 1) (bitAt (it.arg 0x11 1) 0) x.region (some p)] ∧
           ∀ key ∈ s.sharedKeys p,
             (t.pte (pteKey r (keyLayer key) (keyHead key) (keyPage key))).frame = (s.pte key).frame ∧
             (t.pte (pteKey r (keyLayer key) (keyHead key) (keyPage key))).stack = (s.pte key).stack ∧
             (t.pte (pteKey r (keyLayer key) (keyHead key) (keyPage key))).valid = true ∧
             t.frameRef (s.pte key).stack (s.pte key).frame = s.frameRef (s.pte key).stack (s.pte key).frame + 1) ∧
       ((s.stream p).flying.isSome = true ∨ (s.stream p).cancelTag.isSome = true →
         Gives (.openStream r) s fun t => StreamOnly s t p ∧ t.stream p = { s.stream p with wantOpen := some r }) ∧
       ((s.stream p).flying = none → (s.stream p).cancelTag = none →
         (let w := s.updStream p fun y => { y with wantOpen := none }
          (((w.consume r it).openNow r c (it.arg 0x12 1) (bitAt (it.arg 0x11 1) 0) (some p)).streamPtes r).length < (w.sharedKeys p).length →
          Gives (.openStream r) s fun t => Refused w.allocFail t r it rCapacity))) ∧
     (it.op = 1 → x.state ≠ .free ∨ (s.cls c).admitted = false ∨ (s.cls c).maxStreams ≤ s.classOpen c ∨ s.parentOf r it = none →
       (∀ j, u.stream j = { s.stream j with wantOpen := if (s.stream j).wantOpen = some r then none else (s.stream j).wantOpen }) ∧
       { u with wnd := { u.wnd with streams := s.wnd.streams } } = s ∧
       Gives (.openStream r) s fun t => Refused u t r it rCapacity) ∧
     (it.op = 2 → x.state ≠ .free → x.flying = none → x.cancelTag = none →
       Gives (.closeStream r) s fun t =>
         (t.stream r).state = .free ∧ (t.stream r).committed = 0 ∧ t.streamPtes r = [] ∧ (∀ j, j ≠ r → t.stream j = s.stream j) ∧
         (∀ key, keyStream key ≠ r → t.pte key = s.pte key) ∧ t.wnd.decisions = s.wnd.decisions ++ [.closed r]) ∧
     (it.op = 2 → x.state ≠ .free → x.flying.isSome = true ∨ x.cancelTag.isSome = true →
       Gives (.closeStream r) s fun t => Took s t r it { x with wantClose := some it.tag } []) ∧
     (∀ (cmd : Instr) (w : Work), (it.op = 4 ∧ cmd = .appendTokens r ∧ w = .append tokens noMatch pin it.tag) ∨
         (it.op = 5 ∧ cmd = .generate r ∧ w = .generate (it.arg 0x10 4) it.tag) →
       (resting → Gives cmd s fun t => Took s t r it { x with work := x.work ++ [w] } []) ∧
       (live → blocked = true → Gives cmd s fun t => Took s t r it { x with work := x.work ++ [w], state := .active } []) ∧
       (∀ b g rest, live → blocked = false → x.work = .generate b g :: rest → x.generating = true → x.emptyItem = none →
         Gives cmd s fun t => Took s t r it { x with work := x.work ++ [w], state := .active } [])) ∧
     (it.op = 4 → live → x.work = [] → blocked = false → s.treeActive = false ∨ noMatch = true →
       Gives (.appendTokens r) s fun t => Took s t r it { x with state := .idle, pend := x.pend ++ tokens, pinRanges := pins } []) ∧
     (it.op = 4 → live → x.work = [] → blocked = false → s.treeActive = true → noMatch = false →
       (s.matchHeld (s.streamBank x) = true →
         Gives (.appendTokens r) s fun t => Took s t r it { x with state := .active, work := [.append tokens noMatch pin it.tag] } []) ∧
       (s.matchHeld (s.streamBank x) = false →
         (let m := ((s.consume r it).updStream r fun y => { y with state := .active }).matchPrefix r tokens pin
          Gives (.appendTokens r) s fun t =>
            t.stream r = { m.2.stream r with state := .idle, pend := (m.2.stream r).pend ++ m.1, pinRanges := pins } ∧
            (∀ j, j ≠ r → t.stream j = m.2.stream j) ∧ { t with wnd := { t.wnd with streams := m.2.wnd.streams } } = m.2))) ∧
     (it.op = 5 → live → x.work = [] → blocked = false → x.generating = false →
       (begun.emptyItem = none → Gives (.generate r) s fun t => Took s t r it begun []) ∧
       (∀ reason, begun.emptyItem = some reason →
         Gives (.generate r) s fun t =>
           (reason = if it.arg 0x10 4 = 0 then donePrefill else doneFault) ∧
           Posted s t x.ringEvr { typ := 2, flags := 0, code := reason, stream := r, time := s.now, tag := it.tag, data := BitVec.ofNat 64 x.committed } ∧
           t.stream r = { begun with
             head := (x.head + it.n) % 4096, work := [], generating := false, budget := 0,
             state := if t.evrBlocked x.ringEvr then .active else .idle } ∧
           (∀ j, j ≠ r → t.stream j = s.stream j) ∧ RegsKept s t [ringItemCountLo, ringItemCountLo + 4])) ∧
     (it.op = 6 → x.state = .idle ∨ (x.state = .active ∧ x.flying = none ∧ x.cancelTag = none) →
       Gives (.pause r) s fun t => Took s t r it { x with state := .paused } [.pause r]) ∧
     (it.op = 6 → x.state = .active → x.flying.isSome = true ∨ x.cancelTag.isSome = true →
       Gives (.pause r) s fun t => Took s t r it { x with wantPause := true } []) ∧
     (it.op = 6 → resting → Gives (.pause r) s fun t => Took s t r it x []) ∧
     (it.op = 7 → x.state = .paused →
       (x.work = [] → Gives (.resume r) s fun t => Took s t r it { x with state := .idle } [.resume r]) ∧
       (x.work ≠ [] → blocked = true → Gives (.resume r) s fun t => Took s t r it { x with state := .active } [.resume r]) ∧
       (∀ b g rest, x.work = .generate b g :: rest → blocked = false →
         (let y : Stream := if x.generating then x else { x with generating := true, budget := b, genTag := g, genCount := 0, itemStart := s.now }
          y.emptyItem = none → Gives (.resume r) s fun t => Took s t r it { y with state := .active } [.resume r]))) ∧
     (it.op = 7 → x.state ≠ .paused → x.state ≠ .free → Gives (.resume r) s fun t => Took s t r it x []) ∧
     (it.op = 8 → x.cancelTag = none → x.state ≠ .free → x.state ≠ .parking → x.state ≠ .unparking → x.flying = none → x.work = [] →
       Gives (.cancel r) s fun t => Took s t r it x []) ∧
     (it.op = 8 → x.cancelTag = none → x.state = .parking ∨ x.state = .unparking →
       Gives (.cancel r) s fun t => Took s t r it { x with cancelHeld := some (x.cancelHeld.getD (it.tag, x.work.length)) } []) ∧
     (it.op = 8 → x.cancelTag = none → x.state ≠ .free → x.state ≠ .parking → x.state ≠ .unparking → x.flying.isSome = true ∨ x.work ≠ [] →
       Gives (.cancel r) s fun t =>
         (t.stream r).flying = none ∧ (t.stream r).work = [] ∧ (t.stream r).budget = 0 ∧ (t.stream r).cancelTag = some it.tag ∧
         (t.stream r).state = x.state ∧
         (∃ m ∈ t.noc.ctl, m.dest = 0xFFF ∧ m.typ = 4 ∧ m.arg0.toNat % 2 ^ 32 = r % 2 ^ 32 ∧ m.region = x.region) ∧
         t.wnd.decisions = s.wnd.decisions ++ [.cancel r] ∧ (∀ j, j ≠ r → t.stream j = s.stream j) ∧ t.mem = s.mem) ∧
     (x.cancelTag.isSome = true → exec (.cancel r) s = .next s) ∧
     (it.op = 9 → x.state = .idle ∨ x.state = .active ∨ x.state = .paused →
       (let target := if it.arg 0x10 1 = 3 then (s.cls x.cls).parkTarget else it.arg 0x10 1
        (s.hf.pwr = .drain ∨ s.parkPlace r target = none → Gives (.park r) s fun t => Refused s t r it rCapacity) ∧
        (∀ place, s.hf.pwr ≠ .drain → s.parkPlace r target = some place →
          (x.flying.isSome = true ∨ x.cancelTag.isSome = true →
            Gives (.park r) s fun t => Took s t r it { x with wantPark := some (x.wantPark.getD (target, it.tag)) } []) ∧
          (x.flying = none → x.cancelTag = none →
            Gives (.park r) s fun t =>
              t.swap.parkUsed = s.swap.parkUsed ++ (if place = 0 then [] else [(s.now, s.parkVolume r)]) ∧
              Took s { t with swap := { t.swap with parkUsed := s.swap.parkUsed } } r it
                { x with beforePark := x.state, state := .parking, parkTarget := place, parkTag := it.tag, parkBytes := s.parkVolume r }
                [.park r place])))) ∧
     (it.op = 9 → x.state = .parking ∨ x.state = .parked → Gives (.park r) s fun t => Took s t r it x []) ∧
     (it.op = 9 → x.state = .unparking → Gives (.park r) s fun t => Refused s t r it rCapacity) ∧
     (it.op = 0x0A → x.state = .parked → s.hf.pwr ≠ .drain →
       Gives (.unpark r) s fun t => Took s t r it { x with state := .unparking, parkTag := it.tag } [.unpark r]) ∧
     (it.op = 0x0A → x.state = .parked → s.hf.pwr = .drain → Gives (.unpark r) s fun t => Refused s t r it rCapacity) ∧
     (it.op = 0x0A → x.state ≠ .parked → x.state ≠ .free → Gives (.unpark r) s fun t => Took s t r it x []) ∧
     (it.op = 0x0B → x.state = .idle ∨ x.state = .active ∨ x.state = .paused →
       Gives (.setSampler r) s fun t =>
         Took s t r it { x with sampler := it.sampler x.sampler.seed } [.sampler r (it.sampler x.sampler.seed)]) ∧
     (it.op = 0x0B → x.state = .parking ∨ x.state = .parked ∨ x.state = .unparking → Gives (.setSampler r) s fun t => Refused s t r it rCapacity) ∧
     (it.op = 0x0C → x.state = .idle ∨ x.state = .active ∨ x.state = .paused →
       (let bytes := if it.arg 0x10 1 = 0 then [] else s.rdMem (hostBase + it.arg 0x18 8) 0x8000
        Gives (.setMask r) s fun t =>
          Took s t r it
            (if it.arg 0x10 1 = 3 then { x with maskMode := 3, mask := [], waitMasks := x.waitMasks ++ [bytes], maskWait := false }
             else { x with maskMode := it.arg 0x10 1, mask := bytes, waitMasks := [], maskWait := false })
            [.mask r (it.arg 0x10 1) bytes])) ∧
     (it.op = 0x0C → x.state = .parking ∨ x.state = .parked ∨ x.state = .unparking → Gives (.setMask r) s fun t => Refused s t r it rCapacity))) ∧
  (∀ (s : State) (r : Nat) (it : Item) (cmd : Instr), s.item r = some it → it.kind = .ok → r ≠ ctrlRing →
    (it.op, cmd) ∈ [(2, Instr.closeStream r), (4, .appendTokens r), (5, .generate r), (6, .pause r), (7, .resume r), (9, .park r),
      (8, .cancel r), (0x0A, .unpark r), (0x0B, .setSampler r), (0x0C, .setMask r)] → (s.stream r).state = .free →
    (s.stream r).cancelTag = none →
    Gives cmd s fun t => Refused s t r it rCapacity) ∧
  (∀ (s : State) (it : Item), s.item ctrlRing = some it → it.kind = .ok → it.op = 3 →
    (let i := it.arg 0x10 1
     (s.wnd.barrier = true → exec (.classConfig ctrlRing) s = .next s) ∧
     (s.wnd.barrier = false → Table.wf Class.none s.wnd.classes = true →
       (it.cls.maxStreams < s.classOpen i →
         Gives (.classConfig ctrlRing) s fun t =>
           t.rd wndLastRefuse = BitVec.ofNat 32 rCapacity ∧ t.wnd.classes = s.wnd.classes ∧
           Refused s (t.wr wndLastRefuse (s.rd wndLastRefuse)) ctrlRing it rCapacity) ∧
       (s.classOpen i ≤ it.cls.maxStreams → it.cls.maxStreams = 0 →
         Gives (.classConfig ctrlRing) s fun t =>
           t.cls i = Class.none ∧ t.wnd.decisions = s.wnd.decisions ++ [.classTable i Class.none] ∧
           t.wnd.ctrlHead = (s.wnd.ctrlHead + it.n) % 4096 ∧ t.wnd.streams = s.wnd.streams) ∧
       (s.classOpen i ≤ it.cls.maxStreams → it.cls.maxStreams ≠ 0 → it.cls.nodl = true →
         Gives (.classConfig ctrlRing) s fun t =>
           t.cls i = it.cls ∧ t.wnd.decisions = s.wnd.decisions ++ [.classTable i it.cls] ∧ t.wnd.ctrlHead = (s.wnd.ctrlHead + it.n) % 4096 ∧
           t.wnd.streams = s.wnd.streams) ∧
       (s.classOpen i ≤ it.cls.maxStreams → it.cls.maxStreams ≠ 0 → it.cls.nodl = false → s.admits i it.cls = true →
         Gives (.classConfig ctrlRing) s fun t =>
           (t.cls i).admitted = true ∧ (t.cls i).tokDl = it.cls.tokDl ∧ (t.cls i).ftDl = it.cls.ftDl ∧ (t.cls i).prio = it.cls.prio ∧
           (t.cls i).maxStreams = it.cls.maxStreams ∧ (t.cls i).atRisk = false ∧ t.wnd.decisions = s.wnd.decisions ++ [.classTable i it.cls] ∧
           t.wnd.streams = s.wnd.streams) ∧
       (s.classOpen i ≤ it.cls.maxStreams → it.cls.maxStreams ≠ 0 → it.cls.nodl = false → s.admits i it.cls = false →
         Gives (.classConfig ctrlRing) s fun t =>
           t.rd wndLastRefuse = BitVec.ofNat 32 rDeadline ∧ t.wnd.classes = s.wnd.classes ∧
           Posted s t s.wnd.ctrlEvr { typ := 3, flags := 0, code := rDeadline, stream := ctrlRing, time := s.now, tag := it.tag,
                                      data := BitVec.ofNat 64 (s.leastTok i it.cls + s.leastFt i it.cls * 0x100000000) }))))

/-- R175, R232, R246, R247, R262, R267, R273, R274, R277, R278, R280, R286, R295, R296, R297: a token starts only where nothing holds its stream,
with its release and deadline; the sampler's pick is held until the ingress module commits it, or told to the ingress module, which adds the
prefilled slots, makes the sampled token pending, lowers the budget and reports TOKEN_OUT; a retry and an acknowledged CANCEL leave no token in
flight sampled; a demoted token gains its deadline at its release; a miss is counted once, with a record at most every 10 ms; the winder issues
the first ready step, or holds without quanta. The handles of journaled pages and what a module knows of a token away from the ingress
module (log entry 153) are the model's choices. -/
def Obligations.TokensStartAndCommit : Prop :=
  (∀ (s : State) (i : Nat) (mapped : Bool),
    (let fl := s.newFlying i
     (s.mayEmbed i = true → mapped = true ∨ (s.stream i).matchWait = false →
       Gives (.tokenEmbed ⟨i, mapped⟩) s fun t =>
         t.stream i = { s.stream i with
           flying := some fl, matchWait := false, lastRelease := if fl.deadline.isSome then some fl.released else (s.stream i).lastRelease } ∧
         t.rd wndDemotedCount = s.rd wndDemotedCount + (if fl.demoted then 1 else 0) ∧ RegsKept s t [wndDemotedCount] ∧
         StreamOnly s { t with regs := s.regs } i) ∧
     (s.mayEmbed i = false ∨ (mapped = false ∧ (s.stream i).matchWait = true) → exec (.tokenEmbed ⟨i, mapped⟩) s = .next s))) ∧
  (∀ (s : State) (i slot n : Nat) (slices : List SliceCands) (fl : Option Flying), s.isSampler = true → (s.stream i).flying = fl →
    (s.isIngress = true ∧ ∃ f, fl = some f ∧ f.samples = true ∧ f.sampled = none ∧ n = f.slot + f.prefill) ∨
      (s.isIngress = false ∧ (s.stream i).state ≠ .free ∧ n = slot) →
    (let x := s.stream i
     let y := { x.beginSampling with smpHold := false }
     (bit (s.rd smpCtrl) 0 = false → Gives (.tokenSample i ⟨slot, slices⟩) s fun t => t.stream i = { x with smpHold := true } ∧ StreamOnly s t i) ∧
     (bit (s.rd smpCtrl) 0 = true → x.beginSampling.smpNow = none →
       Gives (.tokenSample i ⟨slot, slices⟩) s fun t => t.stream i = y ∧ StreamOnly s t i) ∧
     (∀ z v, bit (s.rd smpCtrl) 0 = true → x.beginSampling.smpNow = some z → z.pick s.vocab n slices = some v →
       (let k := x.beginSampling.sampledAs z v
        Gives (.tokenSample i ⟨slot, slices⟩) s fun t =>
          t.stream i = { y with flying := if s.isIngress then fl.map fun f => { f with sampled := some k } else x.flying } ∧
          t.wnd.told = s.wnd.told ++ (if s.isIngress then [] else [.token i slot (some k)]) ∧
          t.rd64 smpSampledLo = (s.rd64 smpSampledLo + 1) % 2 ^ 64 ∧
          t.rd smpGreedyCount = s.rd smpGreedyCount + (if isZero z.sampler.temp then 1 else 0) ∧
          t.rd smpStopCount = s.rd smpStopCount + (if s.isIngress = false ∧ (k.stop = true ∨ k.seq = true) then 1 else 0) ∧
          RegsKept s t [smpSampledLo, smpSampledLo + 4, smpGreedyCount, smpStopCount] ∧
          StreamOnly s { t with regs := s.regs, wnd := { t.wnd with told := s.wnd.told } } i)) ∧
     (∀ z, bit (s.rd smpCtrl) 0 = true → x.beginSampling.smpNow = some z → z.pick s.vocab n slices = none →
       Gives (.tokenSample i ⟨slot, slices⟩) s fun t =>
         t.rd smpMaskEmptyCount = s.rd smpMaskEmptyCount + 1 ∧
         (s.isIngress = false → t.stream i = { y with smpNow := none } ∧ t.wnd.told = s.wnd.told ++ [.token i slot none] ∧
           RegsKept s t [smpMaskEmptyCount]) ∧
         (s.isIngress = true → (t.stream i).flying = none ∧ ∀ key, keyStream key = i → (t.pte key).staged = []) ∧
         (∀ b g, s.isIngress = true → x.state = .active → x.work = [.generate b g] → x.wantClose = none → x.wantPause = false →
           x.wantPark = none → x.cancelTag = none →
           Posted s t x.ringEvr { typ := 2, flags := 0, code := 5, stream := i, time := s.now, tag := x.genTag,
                                  data := BitVec.ofNat 64 x.committed } ∧ (t.stream i).work = [])))) ∧
  (∀ (s : State) (i slot : Nat) (slices : List SliceCands),
    s.isSampler = false ∨ (s.isIngress = true ∧ ∀ f, (s.stream i).flying = some f → f.samples = false ∨ f.sampled.isSome = true) ∨
      (s.isIngress = false ∧ (s.stream i).state = .free) →
    exec (.tokenSample i ⟨slot, slices⟩) s = .next s) ∧
  (∀ (s : State) (i : Nat) (fl : Flying) (token : Option SampledTok), (s.stream i).flying = some fl → s.isIngress = true →
    (let x := s.stream i
     let n := fl.slot + fl.prefill
     let back := if s.isSampler then fl.sampled else token
     (∀ k b g rest, fl.samples = true → back = some k → fl.missed = true ∨ (∀ d, fl.deadline = some d → s.now ≤ d) →
       x.state = .active → x.generating = true → 1 < x.budget → k.stop = false → k.seq = false → x.wantClose = none → x.wantPause = false →
       x.wantPark = none → x.cancelTag = none → (∀ p ∈ s.kv.pending, p.stream ≠ i) → x.work = .generate b g :: rest →
       (let data : DWord := BitVec.ofNat 64 (k.token + n % 0x100000000 * 0x100000000)
        Gives (.tokenReturn i token) s fun t =>
          (t.stream i).committed = max x.committed n ∧ (t.stream i).flying = none ∧ (t.stream i).pend = k.token :: x.pend.drop fl.prefill ∧
          (t.stream i).history = x.history ++ x.pend.take fl.prefill ∧ (t.stream i).budget = x.budget - 1 ∧ (t.stream i).state = .active ∧
          (t.stream i).genCount = x.genCount + 1 ∧
          t.wnd.decisions = s.wnd.decisions ++ [.commit i n (x.pend.take fl.prefill) (some k.token) (x.genCount + 1)] ∧
          ((s.cls x.cls).kvprot ≠ 1 →
            Posted s t x.ringEvr { typ := 1, flags := 0, code := 0, stream := i, time := s.now, tag := x.genTag, data := data } ∧
            (t.stream i).mirrorWait = x.mirrorWait) ∧
          ((s.cls x.cls).kvprot = 1 → (t.stream i).mirrorWait = x.mirrorWait ++ [(n, x.genTag, data, [])] ∧ t.wnd.evrs = s.wnd.evrs ∧ t.mem = s.mem) ∧
          (∀ key, t.pte key = if keyStream key = i then (s.pte key).commit (keyPage key) n else s.pte key) ∧
          (∀ j, j ≠ i → t.stream j = s.stream j) ∧ t.regs = s.regs)) ∧
     (x.wantClose = none → fl.samples = false ∨ back.isSome = true →
       Gives (.tokenReturn i token) s fun t =>
         (t.stream i).flying = none ∧ max x.committed n ≤ (t.stream i).committed ∧
         s.wnd.decisions ++ [.commit i n (x.pend.take fl.prefill) (if fl.samples then back.map (·.token) else none)
           (if fl.samples then x.genCount + 1 else x.genCount)] <+: t.wnd.decisions) ∧
     (fl.samples = true → back = none → s.isSampler = false →
       Gives (.tokenReturn i token) s fun t => (t.stream i).flying = none ∧ ∀ key, keyStream key = i → (t.pte key).staged = []) ∧
     (fl.samples = true → back = none → s.isSampler = true → exec (.tokenReturn i token) s = .next s))) ∧
  (∀ (s : State) (i : Nat) (token : Option SampledTok), s.isIngress = false ∨ (s.stream i).flying = none →
    exec (.tokenReturn i token) s = .next s) ∧
  (∀ (s : State) (i : Nat) (told : Bool), s.hasFaulted i = true ∨ (told = true ∧ s.isIngress = true ∧ (s.stream i).flying.isSome = true) →
    Gives (.tokenRetry ⟨i, told⟩) s fun t =>
      (∀ fl, s.isIngress = true → (s.stream i).flying = some fl →
        t.stream i = { s.stream i with flying := some { fl with sampled := none, retried := true }, maskWait := false, smpHold := false } ∧
        t.wnd.decisions = s.wnd.decisions ++ [.retry i] ∧ t.wnd.told = s.wnd.told) ∧
      (s.isIngress = true → (s.stream i).flying = none → t.stream i = s.stream i ∧ t.wnd.decisions = s.wnd.decisions ∧ t.wnd.told = s.wnd.told) ∧
      (s.isIngress = false → t.stream i = s.stream i ∧ t.wnd.decisions = s.wnd.decisions ∧ t.wnd.told = s.wnd.told ++ [.faulted i]) ∧
      (∀ j, j ≠ i → t.stream j = s.stream j) ∧ (∀ r ∈ t.wnd.ready, r.stream ≠ some i) ∧ (∀ c, i ∉ (t.core c).faulted) ∧
      (∃ m ∈ t.noc.ctl, m.typ = 4 ∧ m.arg0 = BitVec.ofNat 32 i) ∧
      (∀ key, keyStream key = i → (t.pte key).staged = []) ∧ (∀ key, keyStream key ≠ i → t.pte key = s.pte key)) ∧
  (∀ (s : State) (i : Nat) (told : Bool), s.hasFaulted i = false → told = false ∨ s.isIngress = false ∨ (s.stream i).flying = none →
    exec (.tokenRetry ⟨i, told⟩) s = .next s) ∧
  (∀ (s : State) (i : Nat) (fl : Flying), (s.stream i).flying = some fl →
    (let c := s.cls (s.stream i).cls
     (fl.demoted = true → (s.stream i).genCount ≠ 0 ∨ fl.prefill ≤ c.maxPrefill → (s.stream i).committed ≤ c.maxCtx → fl.released ≤ s.now →
       Gives (.tokenRelease i) s fun t =>
         t.stream i = { s.stream i with
           flying := some { fl with
             demoted := false,
             deadline := some (if (s.stream i).genCount = 0 then (s.stream i).itemStart + c.ftDl * 1000 else fl.released + c.tokDl) },
           lastRelease := some fl.released } ∧ StreamOnly s t i) ∧
     (fl.demoted = false ∨ ((s.stream i).genCount = 0 ∧ c.maxPrefill < fl.prefill) ∨ c.maxCtx < (s.stream i).committed ∨ s.now < fl.released →
       exec (.tokenRelease i) s = .next s))) ∧
  (∀ (s : State) (i d : Nat) (fl : Flying), (s.stream i).flying = some fl → fl.deadline = some d → fl.missed = false → d < s.now →
    s.isIngress = true →
    (let x := s.stream i
     let quiet := match x.lastMiss with
       | some m => m + 10000000 ≤ s.now
       | none => True
     Gives (.deadlineMiss i) s fun t =>
       t.rd wndMissCount = s.rd wndMissCount + 1 ∧ RegsKept s t [wndMissCount] ∧ (∀ j, j ≠ i → t.stream j = s.stream j) ∧
       (quiet →
         t.stream i = { x with flying := some { fl with missed := true }, lastMiss := some s.now } ∧
         Posted s t x.ringEvr { typ := 5, flags := if fl.retried then 6 else 2, code := x.cls, stream := i, time := s.now,
                                tag := x.genTag, data := BitVec.ofNat 64 (min 0xFFFFFFFF (s.now - d)) }) ∧
       (¬ quiet → t.stream i = { x with flying := some { fl with missed := true } } ∧ StreamOnly s { t with regs := s.regs } i))) ∧
  (∀ (s : State) (i : Nat), (∀ fl, (s.stream i).flying = some fl → fl.missed = true ∨ (∀ d, fl.deadline = some d → s.now ≤ d)) →
    exec (.deadlineMiss i) s = .next s) ∧
  (∀ (s : State) (i slot dev : Nat),
    (let x := s.stream i
     let wait := x.mirrorWait.map fun m => if m.1 = slot then (m.1, m.2.1, m.2.2.1, m.2.2.2 ++ [dev]) else m
     Gives (.mirrorAck i slot dev) s fun t =>
       t.stream i = { x with mirrorWait := wait.dropWhile fun m => s.mirrorDone m.2.2.2 } ∧ t.regs = s.regs ∧
       (∀ j, j ≠ i → t.stream j = s.stream j) ∧
       ∀ n tag data acks rest, wait = (n, tag, data, acks) :: rest → s.mirrorDone acks = true →
         (∀ m ∈ rest.head?, s.mirrorDone m.2.2.2 = false) →
         Posted s t x.ringEvr { typ := 1, flags := 0, code := 0, stream := i, time := s.now, tag := tag, data := data })) ∧
  (∀ (s : State) (i layer head page : Nat),
    (let key := pteKey i layer head page
     let h := s.freshHandle
     (s.stream i).state ≠ .free → (s.cls (s.stream i).cls).kvprot = 2 → s.storeUp = true → (s.pte key).valid = true →
     256 * (page + 1) ≤ (s.stream i).committed → keyPage key = page → (∀ x ∈ (s.stream i).journaled, ¬ (x.1 = key ∧ x.2.2 = true)) →
     Gives (.journalPage i layer head page) s fun t =>
       t.rdMem (cageBase h) 0x8800 = (if (s.pte key).spilled then s.rdMem (cageBase (s.pte key).handle) 0x8800
         else s.frameBytes (s.pte key).stack (s.pte key).frame) ∧
       (key, (h, true)) ∈ (t.stream i).journaled ∧ t.kv.nextHandle = h % 0xFFFFFFFF + 1 ∧ MemKept s t (cageBase h) 0x8800 ∧
       { t with mem := s.mem, kv := { t.kv with nextHandle := s.kv.nextHandle }, wnd := { t.wnd with streams := s.wnd.streams } } = s)) ∧
  (∀ (s : State) (i : Nat) (tag : DWord), (s.stream i).cancelTag = some tag → s.cancelFlying i = false → (s.stream i).state = .active →
    (s.stream i).work = [] → (s.stream i).flying = none → (s.stream i).wantClose = none → (s.stream i).wantPause = false →
    (s.stream i).wantPark = none →
    Gives (.cancelAck i) s fun t =>
      t.stream i = { s.stream i with cancelTag := none, state := if t.evrBlocked (s.stream i).ringEvr then .active else .idle } ∧
      Posted s t (s.stream i).ringEvr { typ := 2, flags := 0, code := 2, stream := i, time := s.now, tag := tag,
                                        data := BitVec.ofNat 64 (s.stream i).committed } ∧
      (∀ key, keyStream key = i → (t.pte key).staged = []) ∧ ∀ j, j ≠ i → t.stream j = s.stream j) ∧
  (∀ (s : State) (i : Nat), (s.stream i).cancelTag = none ∨ s.cancelFlying i = true → exec (.cancelAck i) s = .next s) ∧
  (∀ (s : State) (rs : List StepReq),
    (let w := (({ s with wnd := { s.wnd with ready := s.wnd.ready ++ rs } } : State).each rs State.noteRemaining).updateHolds
     w.wnd.ready = s.wnd.ready ++ rs ∧ w.cores = s.cores ∧ w.hf = s.hf ∧ RegsKept s w [wndWheldCount] ∧
     (w.nextStep = none → exec (.winderIssue rs) s = .next w) ∧
     (∀ r, w.nextStep = some r → w.grantOpen r.reserved = true →
       Gives (.winderIssue rs) s fun t =>
         (t.core r.core).queue = (s.core r.core).queue ++
           [{ prog := r.prog, stream := r.stream, bank := (match r.stream with | some i => (s.stream i).bank | none => r.bank),
              converting := reqConverts r, bound := r.bound, missed := false }] ∧
         t.wnd.ready = (s.wnd.ready ++ rs).erase r ∧ t.rd64 wndIssuedLo = (s.rd64 wndIssuedLo + 1) % 2 ^ 64 ∧
         t.hf.spent = s.hf.spent + (s.stepCost r.cost).sum ∧ t.wnd.streams = w.wnd.streams ∧
         (∀ j, j ≠ r.core → t.core j = s.core j) ∧ RegsKept w t [wndIssuedLo, wndIssuedLo + 4]) ∧
     (∀ r, w.nextStep = some r → w.grantOpen r.reserved = false →
       Gives (.winderIssue rs) s fun t =>
         t.wnd.ready = s.wnd.ready ++ rs ∧ t.wnd.energyHold = true ∧ t.cores = s.cores ∧ t.hf.spent = s.hf.spent ∧ t.regs = w.regs))) ∧
  (∀ (s : State), s.isIngress = false → exec .classRecompute s = .next s) ∧
  (∀ (s : State) (i : Nat), s.isIngress = true →
    (let b := s.boundAt s.wnd.classes (s.factorP s.wnd.classes) i (s.cls i) false
     let bf := s.boundAt s.wnd.classes (s.factorP s.wnd.classes) i (s.cls i) true
     Table.wf Class.none s.wnd.classes = true → (s.cls i).admitted = true → (s.cls i).nodl = false →
     Gives .classRecompute s fun t =>
       t.cls i = { s.cls i with bound := boundReg b 1, ftBound := boundReg bf 1000,
                                atRisk := !(within b (s.cls i).tokDl) || !(within bf ((s.cls i).ftDl * 1000)) }))

/-- R246, R289 to R294: a park to DRAM that every module has completed stores the digest and frees nothing; one to the vault or to storage also
moves each page to a handle and frees a frame with no other holder; a failed park returns the stream at once with its pages in their
frames, frees its reservation and fails a prepare for removal; an UNPARK whose CRCs, digest and generation agree returns the stream, while any other leaves it PARKED; and a
CANCEL held over the move applies once it ends, to the items before it. The order of fields in the digest (log entry 32) is the model's choice. -/
def Obligations.ParkedStreamsReturn : Prop :=
  (∀ (s : State) (i : Nat) (ms : List (Nat × List Byte)), (s.stream i).state ≠ .parking ∨ ((s.stream i).parkTarget = 2 ∧ s.storeUp = false) →
    exec (.parkComplete i ms) s = .next s) ∧
  (∀ (s : State) (i : Nat) (ms : List (Nat × List Byte)), (s.stream i).state = .parking →
    ((s.stream i).parkTarget = 2 → s.storeUp = true) → (s.cls (s.stream i).cls).kvprot ≠ 2 ∨ s.storeUp = false →
    (s.stream i).cancelHeld = none → s.hf.rmvStep = 0 →
    (let x := s.stream i
     let crcs := (s.parkPages i).map fun e => (e.1, crc64 (s.pageData e.2))
     let gen := s.genOf (s.streamBank x)
     let digest := s.digestOf (s.manifest i (crcs.map (·.2)) (x.small gen)) ms
     Gives (.parkComplete i ms) s fun t =>
       (t.stream i).state = .parked ∧ (t.stream i).digest = digest ∧ (t.stream i).pageCrcs = crcs ∧ (t.stream i).parkGen = BitVec.ofNat 64 gen ∧
       (t.stream i).parkSmall = x.small gen ∧ (t.stream i).work = x.work ∧ (∀ j, j ≠ i → t.stream j = s.stream j) ∧
       (x.parkTarget = 0 → t.kv = s.kv ∧ t.swap = s.swap ∧ t.regs = s.regs ∧
         (s.isIngress = true →
           Posted s t x.ringEvr { typ := 7, flags := 0, code := 0, stream := i, time := s.now, tag := x.parkTag,
                                  data := BitVec.ofNat 64 (leAt digest 0 8) }) ∧
         (s.isIngress = false → t.wnd.evrs = s.wnd.evrs ∧ t.wnd.evWait = s.wnd.evWait ∧ t.mem = s.mem)) ∧
       (x.parkTarget = 1 → t.rd64 vaultWrittenLo = (s.rd64 vaultWrittenLo + x.parkBytes / 1000000) % 2 ^ 64 ∧
         RegsKept s t [vaultWrittenLo, vaultWrittenLo + 4] ∧ t.swap = s.swap) ∧
       (x.parkTarget = 2 → t.regs = s.regs ∧
         t.swap = { s.swap with parkUsed := dropReserve x.parkBytes s.swap.parkUsed }))) ∧
  (∀ (s : State) (i key : Nat) (ms : List (Nat × List Byte)), (s.stream i).state = .parking → (s.stream i).parkTarget ≠ 0 →
    ((s.stream i).parkTarget = 2 → s.storeUp = true) →
    (s.cls (s.stream i).cls).kvprot ≠ 2 → (s.stream i).cancelHeld = none → s.hf.rmvStep = 0 → s.parkPages i = [(key, s.pte key)] →
    (s.pte key).spilled = false →
    Gives (.parkComplete i ms) s fun t =>
      (t.stream i).state = .parked ∧ t.kv.nextHandle = s.freshHandle % 0xFFFFFFFF + 1 ∧ (∀ k, k ≠ key → t.pte k = s.pte k) ∧
      (s.frameRef (s.pte key).stack (s.pte key).frame = 1 →
        t.pte key = { s.pte key with spilled := true, handle := s.freshHandle } ∧ t.frameRef (s.pte key).stack (s.pte key).frame = 0) ∧
      (s.frameRef (s.pte key).stack (s.pte key).frame ≠ 1 →
        t.pte key = s.pte key ∧ t.frameRef (s.pte key).stack (s.pte key).frame = s.frameRef (s.pte key).stack (s.pte key).frame) ∧
      (s.isIngress = false → t.rdMem (cageBase s.freshHandle) 0x8800 = s.frameBytes (s.pte key).stack (s.pte key).frame ∧
        MemKept s t (cageBase s.freshHandle) 0x8800)) ∧
  (∀ (s : State) (i : Nat), (s.stream i).state ≠ .parking ∨ (s.stream i).parkTarget = 0 → exec (.parkFail i) s = .next s) ∧
  (∀ (s : State) (i : Nat), (s.stream i).state = .parking → (s.stream i).parkTarget ≠ 0 → s.hf.rmvStep = 1 → s.hf.rmvWait.contains i = true →
    Gives (.parkFail i) s fun t => t.hf = { s.hf with rmvStep := 5, rmvCode := causeParkFail, rmvWait := [] }) ∧
  (∀ (s : State) (i : Nat), (s.stream i).state = .parking → (s.stream i).parkTarget ≠ 0 → s.hf.rmvStep ≠ 1 →
    (let x := s.stream i
     let back : StreamState := if x.beforePark = .active ∨ x.beforePark = .paused then .paused else .idle
     Gives (.parkFail i) s fun t =>
       (∃ n ∈ t.noc.notices, n.cause = causeParkFail ∧ n.stream = some i) ∧
       t.swap = { s.swap with parkUsed := dropReserve x.parkBytes s.swap.parkUsed } ∧
       (x.cancelHeld = none → x.work = [] ∨ back = .paused →
         t.stream i = { x with state := back, digest := [] } ∧
         t.kv = s.kv ∧ (∃ n, t.noc.notices = s.noc.notices ++ [n] ∧ n.cause = causeParkFail ∧ n.stream = some i) ∧ NocNotices s t ∧
         (s.isIngress = true →
           Posted s t x.ringEvr { typ := 7, flags := 0, code := causeParkFail, stream := i, time := s.now, tag := x.parkTag, data := 0 }) ∧
         (s.isIngress = false → t.wnd.evrs = s.wnd.evrs ∧ t.mem = s.mem) ∧
         t.regs = s.regs ∧ ∀ j, j ≠ i → t.stream j = s.stream j) ∧
       (∀ tag n, x.cancelHeld = some (tag, n) → x.work ≠ [] →
         (t.stream i).cancelTag = some tag ∧ (t.stream i).work = x.work.drop n ∧ (t.stream i).cancelHeld = none ∧ (t.stream i).state = back ∧
         t.wnd.decisions = s.wnd.decisions ++ [.cancel i]))) ∧
  (∀ (s : State) (i : Nat) (crcs : List (Nat × Nat)) (ms : List (Nat × List Byte)), (s.stream i).state ≠ .unparking →
    exec (.unparkVerify i crcs ms) s = .next s) ∧
  (∀ (s : State) (i : Nat) (crcs : List (Nat × Nat)) (ms : List (Nat × List Byte)), (s.stream i).state = .unparking → (s.stream i).cancelHeld = none →
    (let x := s.stream i
     let back : StreamState := if x.beforePark = .active ∨ x.beforePark = .paused then .paused else .idle
     let seen := (s.parkPages i).map fun e => (e.1, match crcs.find? fun c => c.1 == e.1 with
       | some c => c.2
       | none => crc64 (s.pageData e.2))
     let digest := s.digestOf (s.manifest i (seen.map (·.2)) x.parkSmall) ms
     let gen := s.genOf (s.streamBank x)
     let good := gen = x.parkGen.toNat ∧ seen = x.pageCrcs ∧ (s.isIngress = true → digest = x.digest)
     (good → s.hasSpilled i = false → x.work = [] ∨ back = .paused →
       Gives (.unparkVerify i crcs ms) s fun t =>
         t.stream i = { x with state := back } ∧ t.kv = s.kv ∧ t.regs = s.regs ∧
         (s.isIngress = true →
           Posted s t x.ringEvr { typ := 7, flags := 8, code := 0, stream := i, time := s.now, tag := x.parkTag,
                                  data := BitVec.ofNat 64 (leAt x.digest 0 8) }) ∧
         (s.isIngress = false → t.wnd.evrs = s.wnd.evrs ∧ t.mem = s.mem) ∧
         ∀ j, j ≠ i → t.stream j = s.stream j) ∧
     (good → s.hasSpilled i = true → back = .paused →
       (let u := s.each ((s.streamPtes i).filter fun e => e.2.spilled) fun s e => s.reloadPage x.region e.1
        Gives (.unparkVerify i crcs ms) s fun t =>
          t.stream i = { x with state := back } ∧ (∀ key, t.pte key = u.pte key) ∧
          (i ∈ t.kv.reloading ∨ u.hasSpilled i = false) ∧ ∀ j, j ≠ i → t.stream j = s.stream j)) ∧
     (¬ good →
       Gives (.unparkVerify i crcs ms) s fun t =>
         (let cause := if gen ≠ x.parkGen.toNat then causeGenChanged else causeParkDigest
          t.stream i = { x with state := .parked } ∧ t.kv = s.kv ∧
          (∃ n, t.noc.notices = s.noc.notices ++ [n] ∧ n.cause = cause ∧ n.stream = some i) ∧ NocNotices s t ∧
          (s.isIngress = true →
            Posted s t x.ringEvr { typ := 7, flags := 8, code := cause, stream := i, time := s.now, tag := x.parkTag,
                                   data := BitVec.ofNat 64 (leAt x.digest 0 8) }) ∧
          (s.isIngress = false → t.wnd.evrs = s.wnd.evrs ∧ t.mem = s.mem) ∧
          ∀ j, j ≠ i → t.stream j = s.stream j))))

/-- R274, R283, R284, R286, R287: the winder's next step is one that may issue, and no other comes before it; the token picked is a candidate of
some slice, below VOCAB and permitted by the mask, at TEMP 0 one that no candidate outranks; with every candidate excluded none is picked; a
sampled token ends its item as a stop token when the sampler lists it, or as the end of a stop sequence; and a token keeps the settings and the
mask with which its sampling started. When a mask counts as used (log entry 152) is the model's choice. -/
def Obligations.WinderAndSamplerChoose : Prop :=
  (∀ (s : State) (r : StepReq), s.nextStep = some r →
    r ∈ s.wnd.ready ∧ s.mayIssue r = true ∧ ∀ x ∈ s.wnd.ready, s.mayIssue x = true → lexLess (s.issueKey x) (s.issueKey r) = false) ∧
  (∀ (t : SmpNow) (vocab slot v : Nat) (slices : List SliceCands), t.pick vocab slot slices = some v →
    v < vocab ∧ t.permits v = true ∧ ∃ x ∈ slices, ∃ z, (v, z) ∈ x.cands) ∧
  (∀ (t : SmpNow) (vocab slot v : Nat) (slices : List SliceCands), t.pick vocab slot slices = some v → isZero t.sampler.temp = true →
    (∀ x ∈ slices, ∀ c ∈ x.cands, isNan c.2 = false) → ∃ z, (∃ x ∈ slices, (v, z) ∈ x.cands) ∧
      ∀ x ∈ slices, ∀ c ∈ x.cands, c.1 < vocab → t.permits c.1 = true →
        ranksBelow z c.2 = false ∧ (ranksBelow c.2 z = false → v ≤ c.1)) ∧
  (∀ (t : SmpNow) (vocab slot : Nat) (slices : List SliceCands),
    (∀ x ∈ slices, ∀ c ∈ x.cands, vocab ≤ c.1 ∨ t.permits c.1 = false) → t.pick vocab slot slices = none) ∧
  (∀ (t : Stream) (x : SmpNow) (v : Nat),
    (t.sampledAs x v).token = v ∧ ((t.sampledAs x v).stop = true ↔ v ∈ x.sampler.stops) ∧
    ((t.sampledAs x v).seq = true ↔ ∃ q ∈ x.sampler.seqs, q <:+ t.genTokens ++ [v])) ∧
  (∀ t : Stream,
    (∀ x, t.smpNow = some x → t.beginSampling = t) ∧
    (t.smpNow = none → t.maskMode = 3 → t.waitMasks = [] → t.beginSampling = { t with maskWait := true }) ∧
    (∀ m ms, t.smpNow = none → t.maskMode = 3 → t.waitMasks = m :: ms →
      t.beginSampling = { t with waitMasks := ms, smpNow := some { sampler := t.sampler, mask := some m }, maskWait := false }) ∧
    (t.smpNow = none → t.maskMode = 1 →
      t.beginSampling = { t with maskMode := 0, mask := [], smpNow := some { sampler := t.sampler, mask := some t.mask }, maskWait := false }) ∧
    (t.smpNow = none → t.maskMode = 0 → t.beginSampling = { t with smpNow := some { sampler := t.sampler, mask := none }, maskWait := false }) ∧
    (t.smpNow = none → t.maskMode = 2 →
      t.beginSampling = { t with smpNow := some { sampler := t.sampler, mask := some t.mask }, maskWait := false }))


/-! ## Weight images, the vault and swaps -/

/-- R303, R307, R314, R318, R319, R321, R322, R324, R326, R328: a command for a source its MODE does not take is refused with ABI_MISMATCH, one
during another operation or with its needs unmet with CAPACITY, and one with a target outside the temperature window, without WAIT, with
TEMP_WINDOW, each changing nothing of the operation; with WAIT it holds; else STAGE takes its slice for the slot, and LOAD, SHADOW and IN_PLACE
take the copy of the slot whose stored digest matches, copy 0 first, or the storage endpoint's slice, or end when there is none; ABORT before
a barrier ends the operation, with the bank EMPTY where a row was programmed, and after it starts a rollback or does nothing; COMMIT starts
the barrier once every module has reported the same generation, is held before, and is refused with IMAGE_CONFLICT when they differ. -/
def Obligations.SwapCommandsStart : Prop :=
  (∀ (s : State) (f mode : Nat) (v : Word) (sl : ImageSlice) (cmd : Instr), s.mayWrite f swapCmd = true →
    (cmd, mode) ∈ [(Instr.stage f v sl, 1), (.load f v sl, 2), (.shadow f v sl, 3), (.inPlace f v sl, 4)] →
    (let src := fld v 11 10
     let n := fld v 9 4
     let okSrc := src ≠ 3 ∧ (mode = 1 → src ≠ 0) ∧ (mode ≠ 1 → src ≠ 1)
     let nodes := (if mode = 1 then [] else s.imageStopes) ++ (if mode = 1 ∨ bit v 12 then [264, 265] else [])
     let inside := ∀ k ∈ nodes, s.nodeWithin k 10 85 = true
     let code := if ¬ okSrc then rAbiMismatch else if s.swap.phase ≠ .idle ∨ s.swapNeeds mode v = false then rCapacity
       else if bit v 13 = false ∧ ¬ inside then rTempWindow else 0
     let there := mode ≠ 4 ∧ s.installed (s.swapTarget mode v) n = true
     (code ≠ 0 →
       Gives cmd s fun t =>
         t.rd swapLastRefuse = BitVec.ofNat 32 code ∧ t.swap = s.swap ∧ { t with regs := s.regs, edge := { t.edge with msi := s.edge.msi } } = s) ∧
     (code = 0 → inside → mode = 1 →
       Gives cmd s fun t =>
         t.swap.phase = .reading ∧ t.swap.mode = 1 ∧ t.swap.slot = n ∧ t.swap.staged = some sl ∧
         t.vslot n = { s.vslot n with staging := true } ∧ (∀ k, k ≠ n → t.vslot k = s.vslot k) ∧
         { t with regs := s.regs, edge := { t.edge with msi := s.edge.msi }, swap := s.swap } = s) ∧
     (∀ one, code = 0 → inside → mode ≠ 1 → src = 0 → ¬ there → s.copyMatches (s.vslot n) one = true →
       (one = true → s.copyMatches (s.vslot n) false = false) →
       Gives cmd s fun t =>
         t.swap.phase = .reading ∧ t.swap.mode = mode ∧ t.swap.slot = n ∧ t.swap.target = s.swapTarget mode v ∧
         t.swap.image = (s.vslot n).copy one ∧ t.swap.copyUsed = one ∧ t.swap.verified = false ∧ t.swap.wroteRow = false ∧ t.swap.rows = [] ∧
         t.swap.prev = s.bankRecord (s.swapTarget mode v) ∧ t.swap.commitAt = (if bit v 15 ∧ s.isIngress then some s.now else s.swap.commitAt) ∧
         { t with regs := s.regs, edge := { t.edge with msi := s.edge.msi }, swap := s.swap } = s) ∧
     (code = 0 → mode ≠ 1 → src = 0 → ¬ there → (∀ one, s.copyMatches (s.vslot n) one = false) →
       Gives cmd s fun t =>
         t.swap.phase = .idle ∧ t.swap.mode = 0 ∧ t.stopes = s.stopes ∧ t.swap.told = s.swap.told ++ [.outcome (s.copyFault (s.vslot n))]) ∧
     (∀ img, code = 0 → inside → mode ≠ 1 → src = 0 → there → (s.vslot n).copy0.or (s.vslot n).copy1 = some img →
       Gives cmd s fun t =>
         t.swap.mode = mode ∧ t.swap.image = some img ∧ t.swap.verified = true ∧ t.allDone = true ∧ t.stopes = s.stopes ∧
         t.bankRecord (s.swapTarget mode v) = some { slot := n, digest := imgDigest img, gen := BitVec.ofNat 64 (imgGen img) } ∧
         (mode = 2 → t.swap.phase = .reading ∧ t.swap.told = s.swap.told) ∧
         (mode = 3 → t.swap.phase = .ready ∧ t.swap.told = s.swap.told ++ [.prepared (imgGen img)])) ∧
     (code = 0 → inside → mode ≠ 1 → src = 2 → s.sliceOk sl = true →
       Gives cmd s fun t =>
         t.swap.phase = .reading ∧ t.swap.mode = mode ∧ t.swap.target = s.swapTarget mode v ∧ t.swap.image = some sl ∧ t.swap.verified = false ∧
         { t with regs := s.regs, edge := { t.edge with msi := s.edge.msi }, swap := s.swap } = s) ∧
     (code = 0 → mode ≠ 1 → src = 2 → s.sliceOk sl = false →
       Gives cmd s fun t =>
         t.swap.phase = .idle ∧ t.rd swapLastRefuse = BitVec.ofNat 32 rAbiMismatch ∧ t.swap.told = s.swap.told ++ [.outcome rAbiMismatch] ∧
         t.stopes = s.stopes) ∧
     (code = 0 → ¬ inside → mode = 1 ∨ (src = 2 ∧ s.sliceOk sl = true) ∨ (src = 0 ∧ ¬ there ∧ ∃ one, s.copyMatches (s.vslot n) one = true) →
       Gives cmd s fun t =>
         t.swap.phase = .tempHeld ∧ t.swap.heldFrom = .reading ∧ t.swap.holdSince = some s.now ∧ t.swap.mode = mode ∧
         (mode = 1 → t.swap.staged = some sl) ∧ (mode ≠ 1 → src = 2 → t.swap.image = some sl) ∧ t.stopes = s.stopes ∧ t.mem = s.mem))) ∧
  (∀ (s : State) (f : Nat) (v : Word), s.mayWrite f swapCmd = true →
    (let done (t : State) : Prop :=
       t.swap.phase = .idle ∧ t.swap.mode = 0 ∧ t.swap.told = s.swap.told ++ [.outcome rNone] ∧
       Posted s t (fld (s.rd ringModEvr) 5 0) { typ := 8, flags := 0, code := 2 + s.swap.mode * 16, stream := 0xFFFFF, time := s.now, tag := 0,
                                                 data := BitVec.ofNat 64 (if s.swap.target then 0x10000 else 0) } ∧
       (s.swap.mode = 1 → (t.vslot s.swap.slot).staging = false) ∧
       (s.swap.mode ≠ 1 → s.swap.wroteRow = true → ∀ i ∈ s.imageStopes, ∀ m, m < 72 → (t.stope i).bankState m s.swap.target = .empty) ∧
       (s.swap.mode = 1 ∨ s.swap.wroteRow = false → t.stopes = s.stopes ∧ t.bankRecord s.swap.target = s.bankRecord s.swap.target)
     let undo (t : State) : Prop :=
       (s.isIngress = true → t.wnd.decisions = s.wnd.decisions ++ [.rollback] ∧ t.swap.jobMode = 5 ∧ t.swap.layersLeft = s.swap.layersRight) ∧
       (s.isIngress = false → t.swap = { s.swap with told := s.swap.told ++ [.abortAsked] })
     let begun := s.swap.heldFrom ≠ .reading ∧ s.swap.heldFrom ≠ .ready
     (s.swap.phase = .reading ∨ s.swap.phase = .programming ∨ s.swap.phase = .ready → s.swap.flipped = false →
       Gives (.swapAbort f v) s done) ∧
     (s.swap.phase = .tempHeld → s.swap.mode ≠ 4 ∨ ¬ begun → Gives (.swapAbort f v) s done) ∧
     (s.swap.phase = .tempHeld → s.swap.mode = 4 → begun → Gives (.swapAbort f v) s undo) ∧
     (s.swap.phase = .barrier → s.swap.mode = 4 → Gives (.swapAbort f v) s undo) ∧
     (s.swap.phase = .barrier → s.swap.mode ≠ 4 → s.swap.flipped = false → s.swap.actionSent = false →
       Gives (.swapAbort f v) s fun t =>
         done t ∧ (s.isIngress = true → t.wnd.barrier = false ∧ t.wnd.decisions = s.wnd.decisions ++ [.swapEnd rNone])) ∧
     (s.swap.phase = .idle ∨ s.swap.phase = .rollback ∨
         (s.swap.phase = .barrier ∧ s.swap.mode ≠ 4 ∧ (s.swap.flipped = true ∨ s.swap.actionSent = true)) →
       Gives (.swapAbort f v) s fun t => { t with regs := s.regs, edge := { t.edge with msi := s.edge.msi } } = s))) ∧
  (∀ (s : State) (f : Nat), s.mayWrite f swapCommit = true → s.isIngress = true → s.swap.mode = 3 ∨ s.swap.mode = 4 →
    s.wnd.barrier = false → s.swap.phase ≠ .idle →
    (s.allReported = false ∨ s.swap.phase ≠ .ready ∨ s.swap.image = none →
      Gives (.swapCommit f) s fun t => t = { s with swap := { s.swap with commitAt := some (s.swap.commitAt.getD s.now) } }) ∧
    (∀ sl, s.swap.image = some sl → s.swap.phase = .ready → s.allReported = true → (∀ r ∈ s.swap.reports, r.2.2 = imgGen sl) →
      Gives (.swapCommit f) s fun t =>
        t = { s with swap := { s.swap with phase := .barrier, jobMode := s.swap.mode, commitAt := none, actionSent := false, acks := [] },
                     wnd := { s.wnd with barrier := true } }) ∧
    (∀ sl, s.swap.image = some sl → s.swap.phase = .ready → s.allReported = true → (∃ r ∈ s.swap.reports, r.2.2 ≠ imgGen sl) →
      Gives (.swapCommit f) s fun t =>
        t.swap.phase = .idle ∧ t.wnd.barrier = false ∧ t.rd swapLastRefuse = BitVec.ofNat 32 rImageConflict ∧
        t.wnd.decisions = s.wnd.decisions ++ [.swapEnd rImageConflict] ∧ t.swap.reports = [])) ∧
  (∀ (s : State) (f : Nat), s.isIngress = false ∨ s.swap.phase = .idle ∨ s.wnd.barrier = true ∨ (s.swap.mode ≠ 3 ∧ s.swap.mode ≠ 4) →
    exec (.swapCommit f) s = .next s) ∧
  (∀ (s : State) (f : Nat), s.mayWrite f swapCommit = true → s.isIngress = true → s.swap.phase ≠ .idle →
    (s.wnd.barrier = false → s.swap.phase = .reading ∨ s.swap.phase = .programming ∨ s.swap.phase = .ready → s.swap.flipped = false →
      Gives (.swapCommitAbort f) s fun t =>
        t.swap.phase = .idle ∧ t.swap.reports = [] ∧ t.wnd.decisions = s.wnd.decisions ++ [.swapEnd rNone]) ∧
    (s.wnd.barrier = true → s.swap.phase = .barrier → s.swap.mode = 4 →
      Gives (.swapCommitAbort f) s fun t => t.wnd.decisions = s.wnd.decisions ++ [.rollback] ∧ t.swap.jobMode = 5) ∧
    (s.wnd.barrier = true → s.swap.phase = .barrier → s.swap.mode ≠ 4 → s.swap.flipped = false → s.swap.actionSent = false →
      Gives (.swapCommitAbort f) s fun t =>
        t.swap.phase = .idle ∧ t.wnd.barrier = false ∧ t.wnd.decisions = s.wnd.decisions ++ [.swapEnd rNone])) ∧
  (∀ (s : State) (f : Nat), s.isIngress = false ∨ s.swap.phase = .idle → exec (.swapCommitAbort f) s = .next s)

/-- R303, R306, R307, R308, R310, R311, R313, R314, R315, R317, R318, R321, R325, R330: a streamed copy that is usable lets its operation go on, and
one that is not gives way to the other copy, or the operation ends; a storage slice is checked against SWAP_EXPECT; a staged slice that is
accepted and is the one expected is written twice with its record, another without one; an unusable copy is rewritten from a usable one; one
iteration of a row sets its passing cells to their levels and charges its energy, and the last row of a macro counts a pass and leaves its bank
VALID, or SUSPECT when a cell has not passed; a row outside the window holds its operation; a refresh takes the first means available; a
temperature hold ends after 10 ms within the window, or the operation ends FAILED. -/
def Obligations.ImagesAreCheckedAndProgrammed : Prop :=
  (∀ (s : State) (sl : ImageSlice), s.swap.image = some sl → s.swap.verified = false → s.swap.phase = .reading ∨ s.swap.phase = .programming →
    2 ≤ s.swap.mode →
    (let v := s.vslot s.swap.slot
     let one := s.swap.copyUsed
     let other := s.copyMatches v (!one)
     (s.swap.src ≠ 2 → s.copyUsable v one = true → s.swap.mode = 4 → s.swap.phase = .reading →
       Gives .imageStreamEnd s fun t =>
         t.swap.verified = true ∧ t.swap.phase = .ready ∧ t.swap.told = s.swap.told ++ [.armed (imgGen sl)] ∧
         (if one then (t.vslot s.swap.slot).ok1 else (t.vslot s.swap.slot).ok0) = true ∧ { t with swap := s.swap } = s) ∧
     (s.swap.src ≠ 2 → s.copyUsable v one = true → s.swap.mode ≠ 4 → s.allDone = false →
       Gives .imageStreamEnd s fun t =>
         t.swap.verified = true ∧ t.swap.phase = s.swap.phase ∧ t.swap.rows = s.swap.rows ∧ t.swap.told = s.swap.told ∧
         (if one then (t.vslot s.swap.slot).ok1 else (t.vslot s.swap.slot).ok0) = true ∧ { t with swap := s.swap } = s) ∧
     (s.swap.src ≠ 2 → s.copyUsable v one = true → s.swap.mode = 3 → s.allDone = true →
       Gives .imageStreamEnd s fun t =>
         t.swap.verified = true ∧ t.swap.phase = .ready ∧ t.swap.told = s.swap.told ++ [.prepared (imgGen sl)] ∧
         t.bankRecord s.swap.target = some { slot := s.swap.slot, digest := imgDigest sl, gen := BitVec.ofNat 64 (imgGen sl) }) ∧
     (s.swap.src ≠ 2 → s.copyUsable v one = false → s.swap.switched = false → other = true →
       Gives .imageStreamEnd s fun t =>
         t.swap.image = v.copy (!one) ∧ t.swap.copyUsed = (!one) ∧ t.swap.switched = true ∧ t.swap.verified = false ∧ t.swap.rows = [] ∧
         (if one then (t.vslot s.swap.slot).ok1 else (t.vslot s.swap.slot).ok0) = false ∧
         (s.swap.rows = [] → { t with swap := s.swap } = s) ∧
         (s.swap.rows ≠ [] → t.swap.phase = .reading ∧ ∀ i ∈ s.imageStopes, ∀ m, m < 72 → (t.stope i).bankState m s.swap.target = .empty)) ∧
     (s.swap.src ≠ 2 → s.copyUsable v one = false → s.swap.switched = true ∨ other = false →
       Gives .imageStreamEnd s fun t => t.swap.phase = .idle ∧ t.swap.mode = 0 ∧ t.swap.image = none) ∧
     (s.swap.src = 2 → s.sliceOk sl = true → imgDigest sl = s.expected → s.swap.mode = 4 → s.swap.phase = .reading →
       Gives .imageStreamEnd s fun t =>
         t.swap.verified = true ∧ t.swap.phase = .ready ∧ t.swap.told = s.swap.told ++ [.armed (imgGen sl)] ∧
         (s.swap.stageToo = true → t.vslot s.swap.slot =
           ⟨some sl, some sl, some { slot := s.swap.slot, digest := imgDigest sl, gen := BitVec.ofNat 64 (imgGen sl) }, true, true, false⟩) ∧
         (s.swap.stageToo = false → t.vslot s.swap.slot = v)) ∧
     (s.swap.src = 2 → s.sliceOk sl = false ∨ imgDigest sl ≠ s.expected →
       Gives .imageStreamEnd s fun t =>
         t.swap.phase = .idle ∧ t.rd swapLastRefuse = BitVec.ofNat 32 (if s.sliceOk sl then rImageConflict else rAbiMismatch)))) ∧
  (∀ (s : State), s.swap.image = none ∨ s.swap.verified = true ∨ (s.swap.phase ≠ .reading ∧ s.swap.phase ≠ .programming) ∨ s.swap.mode < 2 →
    exec .imageStreamEnd s = .next s) ∧
  (∀ (s : State) (sl : ImageSlice), s.swap.staged = some sl → s.swap.mode = 1 → s.swap.phase = .reading → s.nodeWithin 264 10 85 = true →
    s.nodeWithin 265 10 85 = true →
    (s.sliceOk sl = true → imgDigest sl = s.expected →
      Gives .stageComplete s fun t =>
        t.vslot s.swap.slot =
          ⟨some sl, some sl, some { slot := s.swap.slot, digest := imgDigest sl, gen := BitVec.ofNat 64 (imgGen sl) }, true, true, false⟩ ∧
        (∀ n, n ≠ s.swap.slot → t.vslot n = s.vslot n) ∧ t.swap.phase = .idle ∧ t.rd swapCount = s.rd swapCount + 1) ∧
    (s.sliceOk sl = true → imgDigest sl ≠ s.expected →
      Gives .stageComplete s fun t =>
        (t.vslot s.swap.slot).record = (s.vslot s.swap.slot).record ∧ t.rd swapLastRefuse = BitVec.ofNat 32 rImageConflict ∧
        t.rd vaultConflictCount = s.rd vaultConflictCount + 1 ∧ t.swap.phase = .idle) ∧
    (s.sliceOk sl = false →
      Gives .stageComplete s fun t =>
        t.vslot s.swap.slot = { s.vslot s.swap.slot with staging := false } ∧ t.rd swapLastRefuse = BitVec.ofNat 32 rAbiMismatch ∧
        t.swap.phase = .idle)) ∧
  (∀ (s : State), s.swap.staged = none ∨ s.swap.mode ≠ 1 ∨ s.swap.phase ≠ .reading ∨ s.nodeWithin 264 10 85 = false ∨
    s.nodeWithin 265 10 85 = false → exec .stageComplete s = .next s) ∧
  (∀ (s : State) (n : Nat) (one : Bool),
    (s.swap.phase = .idle → s.copyUsable (s.vslot n) one = true → s.copyUsable (s.vslot n) (!one) = false →
      s.nodeWithin 264 10 85 = true → s.nodeWithin 265 10 85 = true →
      Gives (.copyRepair n) s fun t =>
        (∀ b, (t.vslot n).copy b = (s.vslot n).copy one) ∧ (t.vslot n).ok0 = true ∧ (t.vslot n).ok1 = true ∧
        (t.vslot n).record = (s.vslot n).record ∧ t.rd vaultRepairCount = s.rd vaultRepairCount + 1 ∧ (∀ k, k ≠ n → t.vslot k = s.vslot k)) ∧
    (s.swap.phase ≠ .idle ∨ s.copyUsable (s.vslot n) false = s.copyUsable (s.vslot n) true ∨ s.nodeWithin 264 10 85 = false ∨
      s.nodeWithin 265 10 85 = false → exec (.copyRepair n) s = .next s)) ∧
  (∀ (s : State) (i m row : Nat) (bank : Bool) (failing : List Nat) (sl : ImageSlice), i < 256 → s.rowInSwap i m bank row = true →
    s.swap.image = some sl → (∀ c ∈ failing, c < 256) →
    (let first := (s.rowsOf i m).2.1 == 0
     let ready := (first = true → s.nodeWithin i 10 85 = true ∧ s.rowCharge ≤ s.unreserved) ∧ s.rowFree i first = true
     (ready → row < 255 →
       Gives (.programRow i m bank row failing) s fun t =>
         (∀ c, c < 256 → c ∉ failing → Table.get 0 (t.stope i).cells (cellKey m bank row c) = macLevel sl i m row c) ∧
         (∀ k, (∀ c, c < 256 → c ∉ failing → k ≠ cellKey m bank row c) →
           Table.get 0 (t.stope i).cells k = Table.get 0 (s.stope i).cells k) ∧
         ((failing = [] ∨ (s.rowsOf i m).2.1 < 15) → (t.stope i).bankState m bank = .programming ∧ t.hf.spent = s.hf.spent + s.rowCharge ∧
           t.mem = s.mem ∧ ∀ j, j ≠ i → t.stope j = s.stope j) ∧ t.swap.wroteRow = true ∧
         (failing = [] → t.rowsOf i m = (row + 1, 0, (s.rowsOf i m).2.2)) ∧
         (failing ≠ [] → (s.rowsOf i m).2.1 < 15 → t.rowsOf i m = (row, (s.rowsOf i m).2.1 + 1, (s.rowsOf i m).2.2)) ∧
         (failing ≠ [] → 15 ≤ (s.rowsOf i m).2.1 → t.rowsOf i m = (row + 1, 0, true))) ∧
     (ready → row = 255 → failing = [] → (s.rowsOf i m).2.2 = false → (s.stope i).passCount m bank < 7999999 →
       Gives (.programRow i m bank row failing) s fun t =>
         (t.stope i).bankState m bank = .valid ∧ (t.stope i).passCount m bank = (s.stope i).passCount m bank + 1 ∧ t.rowsOf i m = (256, 0, false) ∨
         t.swap.phase = .idle) ∧
     (ready → row = 255 → failing = [] → (s.rowsOf i m).2.2 = true →
       Gives (.programRow i m bank row failing) s fun t => (t.stope i).passCount m bank = (s.stope i).passCount m bank + 1) ∧
     (first = true → s.nodeWithin i 10 85 = false →
       Gives (.programRow i m bank row failing) s fun t =>
         t.swap.phase = .tempHeld ∧ t.swap.heldFrom = s.swap.phase ∧ t.swap.holdSince = some s.now ∧ t.stopes = s.stopes ∧ t.regs = s.regs) ∧
     (first = true → s.nodeWithin i 10 85 = true → s.unreserved < s.rowCharge → exec (.programRow i m bank row failing) s = .next s) ∧
     ((first = true → s.nodeWithin i 10 85 = true ∧ s.rowCharge ≤ s.unreserved) → s.rowFree i first = false → (s.stope i).ref ≠ .off →
       Gives (.programRow i m bank row failing) s fun t =>
         t.rowsOf i m = (if first then s.rowsOf i m else ((s.rowsOf i m).1, 0, (s.rowsOf i m).2.2)) ∧
         t.stopes = s.stopes ∧ { t with swap := { t.swap with rows := s.swap.rows } } = s))) ∧
  (∀ (s : State) (i m row : Nat) (bank : Bool) (failing : List Nat) (sl : ImageSlice), i < 256 → s.rowInSwap i m bank row = false →
    (∀ c ∈ failing, c < 256) →
    (let r := s.refreshOf (bankKey i m bank)
     let first := r.iters == 0
     (s.rowInRefresh i m bank row = false ∨ s.bankSlice bank = none → exec (.programRow i m bank row failing) s = .next s) ∧
     (s.rowInRefresh i m bank row = true → s.bankSlice bank = some sl → (first = true → s.nodeWithin i 10 85 = true ∧ s.rowCharge ≤ s.unreserved) →
       s.rowFree i first = true → (s.stope i).worn m bank = false → row < 255 → failing = [] ∨ r.iters < 15 →
       Gives (.programRow i m bank row failing) s fun t =>
         (∀ c, c < 256 → c ∉ failing →
           Table.get 0 (t.stope i).cells (cellKey m bank row c) = macLevel sl i ((s.stope i).logical m) row c) ∧
         t.refreshOf (bankKey i m bank) = (if failing = [] then { r with row := row + 1, iters := 0 } else { r with iters := r.iters + 1 }) ∧
         (t.stope i).bankState m bank = .programming ∧ t.hf.spent = s.hf.spent + s.rowCharge ∧ t.mem = s.mem ∧
         ∀ j, j ≠ i → t.stope j = s.stope j))) ∧
  (∀ (s : State) (i m : Nat) (bank : Bool) (cmd : Instr),
    (let r := s.refreshOf (bankKey i m bank)
     let serving := bank == (s.stope i).bank || (!(bit (s.rd (planCtrl i)) 0) && bank == bit (s.rd (planCtrl i)) 1)
     let key := bankKey i m bank
     (s.refreshDue i m bank = false → exec (.bankRefresh i m bank) s = .next s) ∧
     (r.means ≠ .held ∨ s.now < r.since + 1000000000 → exec (.refreshRetry i m bank) s = .next s) ∧
     ((cmd = .bankRefresh i m bank ∧ s.refreshDue i m bank = true) ∨
         (cmd = .refreshRetry i m bank ∧ r.means = .held ∧ r.since + 1000000000 ≤ s.now) →
       (serving = false →
         Gives cmd s fun t =>
           t.refreshOf key = { r with means := .inPlace, since := s.now } ∧
           (∀ k, k ≠ key → t.refreshOf k = s.refreshOf k) ∧ { t with swap := { t.swap with refresh := s.swap.refresh } } = s) ∧
       (∀ p, serving = true → s.freeSpare i false = some p →
         Gives cmd s fun t =>
           t.refreshOf key = { r with means := .spare, since := s.now } ∧
           (t.stope i).spare p = { target := m, used := true, live := false, refresh := true, ready := [] } ∧
           StopeOnly s { t with swap := { t.swap with refresh := s.swap.refresh } } i) ∧
       (serving = true → s.freeSpare i false = none → ((s.stope i).seam (seamOf m)).mode = .checked → (s.stope i).seams.length = 4 → seamOf m < 4 →
         Gives cmd s fun t =>
           t.refreshOf key = { r with means := if m < 64 then .recon else .unprotected, since := s.now } ∧
           (t.stope i).seam (seamOf m) = { (s.stope i).seam (seamOf m) with
             mode := if m < 64 then .recon else .unprotected, mac := m, mac2 := none, forRefresh := true } ∧
           StopeOnly s { t with swap := { t.swap with refresh := s.swap.refresh } } i) ∧
       (serving = true → s.freeSpare i false = none → ((s.stope i).seam (seamOf m)).mode ≠ .checked → s.tally.log.length < logCap →
         Gives cmd s fun t =>
           t.refreshOf key = { r with means := .held, since := s.now } ∧ Logged s t causeRefreshHeld (unitMacro i m) ∧ t.stopes = s.stopes)))) ∧
  (∀ (s : State),
    (let late := s.swap.phase = .tempHeld ∧ (∃ since, s.swap.inWindow = some since ∧ since + 10000000 ≤ s.now) ∧
       ∀ n ∈ s.swapNodes, s.nodeWithin n 13 82 = true
     (¬ late → exec .tempResume s = .next s) ∧
     (late → s.swap.image = none ∨ (s.swap.verified = false ∧ s.swap.heldFrom ≠ .rollback) →
       Gives .tempResume s fun t =>
         t = { s with swap := { s.swap with phase := s.swap.heldFrom, holdSince := none, inWindow := none }, hf := { s.hf with capShed := none } }) ∧
     (late → s.swap.heldFrom ≠ .tempHeld → Gives .tempResume s fun t => t.swap.phase ≠ .tempHeld ∧ t.hf.capShed = none))) ∧
  (∀ (s : State) (since : Nat), s.swap.phase = .tempHeld → s.swap.holdSince = some since →
    since + fld (s.rd swapTempWait) 17 0 * 1000000 ≤ s.now →
    (s.swap.heldFrom ≠ .barrier → s.swap.heldFrom ≠ .rollback →
      Gives .tempWaitExpiry s fun t =>
        t.swap.phase = .idle ∧ t.hf.capShed = none ∧ t.swap.told = s.swap.told ++ [.outcome rTempWindow] ∧
        Posted s t (fld (s.rd ringModEvr) 5 0) { typ := 8, flags := 0, code := 4 + s.swap.mode * 16, stream := 0xFFFFF, time := s.now, tag := 0,
                                                  data := BitVec.ofNat 64 (rTempWindow + (if s.swap.target then 0x10000 else 0)) }) ∧
    (s.swap.heldFrom = .barrier →
      Gives .tempWaitExpiry s fun t =>
        t.swap.phase = .barrier ∧ t.hf.capShed = none ∧
        (s.isIngress = true → .rollback ∈ t.wnd.decisions ∧ t.swap.jobMode = 5) ∧
        (s.isIngress = false → t.swap.told = s.swap.told ++ [.layerFail s.swap.layersDone])) ∧
    (s.swap.heldFrom = .rollback → Gives .tempWaitExpiry s fun t => t.swap.phase = .idle ∧ t.hf.capShed = none)) ∧
  (∀ (s : State), s.swap.phase ≠ .tempHeld ∨ s.swap.holdSince = none ∨
    (∀ since, s.swap.holdSince = some since → s.now < since + fld (s.rd swapTempWait) 17 0 * 1000000) → exec .tempWaitExpiry s = .next s)

/-- R113, R114, R306, R319, R320, R321, R323, R324: the ingress module notes each module's report and commits once all have come, ends the job's
operation at another module's outcome, aborts it at SWAP_TIMEOUT, sends the barrier action once no token is in flight, counts layers and
acknowledgements, starts a rollback at a failed layer, and releases the barrier when all have come; a module flips every stope once its
plans have ended, rolls back from the previous image, and at completion writes the bank's record and generations, makes calibration due and
reports COMPLETE. That another module's outcome before the barrier ends the job's operation (log entry 35) is the model's choice. -/
def Obligations.JobBarrierActs : Prop :=
  (∀ (s : State) (dev report gen : Nat),
    (let rs := (s.swap.reports.filter fun r => r.1 != dev) ++ [(dev, report, gen)]
     let all := ∀ d ∈ s.jobDevices, ∃ r ∈ rs, r.1 = d
     (s.isIngress = true → dev ∈ s.jobDevices → report ≤ 1 → s.wnd.barrier = false →
       (s.swap.commitAt = none ∨ s.swap.image = none ∨ s.swap.phase ≠ .ready ∨ ¬ all →
         Gives (.swapReport dev report gen) s fun t =>
           (dev, report, gen) ∈ t.swap.reports ∧ (∀ r ∈ t.swap.reports, r.1 = dev → r = (dev, report, gen)) ∧
           (∀ r ∈ s.swap.reports, r.1 ≠ dev → r ∈ t.swap.reports) ∧ { t with swap := { t.swap with reports := s.swap.reports } } = s) ∧
       (∀ sl, s.swap.commitAt.isSome = true → s.swap.image = some sl → s.swap.phase = .ready → all →
         ((∀ r ∈ rs, r.2.2 = imgGen sl) →
           Gives (.swapReport dev report gen) s fun t =>
             t.swap.phase = .barrier ∧ t.wnd.barrier = true ∧ t.swap.jobMode = s.swap.mode ∧ t.swap.commitAt = none ∧ t.swap.reports = rs) ∧
         ((∃ r ∈ rs, r.2.2 ≠ imgGen sl) →
           Gives (.swapReport dev report gen) s fun t =>
             t.swap.phase = .idle ∧ t.wnd.barrier = false ∧ t.wnd.decisions = s.wnd.decisions ++ [.swapEnd rImageConflict]))) ∧
     (s.isIngress = true → dev ∈ s.jobDevices → report = 2 → s.wnd.barrier = false →
       Gives (.swapReport dev report gen) s fun t =>
         t.swap.phase = .idle ∧ t.swap.reports = [] ∧ t.swap.commitAt = none ∧ t.wnd.decisions = s.wnd.decisions ++ [.swapEnd rNone]) ∧
     (s.isIngress = true → dev ∈ s.jobDevices → 3 ≤ report → s.wnd.barrier = true → s.swap.actionSent = true → dev ∉ s.swap.acks →
       Gives (.swapReport dev report gen) s fun t => t = { s with swap := { s.swap with acks := s.swap.acks ++ [dev] } }) ∧
     (s.isIngress = false ∨ dev ∉ s.jobDevices ∨ (report ≤ 2 ∧ s.wnd.barrier = true) ∨
         (3 ≤ report ∧ (s.wnd.barrier = false ∨ s.swap.actionSent = false ∨ dev ∈ s.swap.acks)) →
       exec (.swapReport dev report gen) s = .next s))) ∧
  (∀ (s : State),
    (let late := s.isIngress = true ∧ s.wnd.barrier = false ∧ s.allReported = false ∧
       ∃ since, s.swap.commitAt = some since ∧ since + fld (s.rd swapTimeout) 15 0 * 1000000 ≤ s.now
     (late →
       Gives .swapTimeoutExpiry s fun t =>
         t.swap.phase = .idle ∧ t.swap.commitAt = none ∧ t.swap.reports = [] ∧ Decision.swapEnd causeSwapTimeout ∈ t.wnd.decisions) ∧
     (¬ late → exec .swapTimeoutExpiry s = .next s))) ∧
  (∀ (s : State),
    (let now := s.isIngress = true ∧ s.wnd.barrier = true ∧ s.swap.actionSent = false ∧ s.swap.phase = .barrier ∧
       ∀ p ∈ s.wnd.streams, p.2.flying = none
     (now →
       Gives .jobBarrierDrained s fun t =>
         t.swap.actionSent = true ∧ t.wnd.decisions = s.wnd.decisions ++ [if s.swap.jobMode = 3 then .flip else .rewrite] ∧
         (s.swap.jobMode = 4 → ∀ d ∈ s.jobDevices, ∀ l, l < s.wnd.job.layers → (d, l) ∈ t.swap.layersLeft) ∧
         (s.swap.jobMode ≠ 4 → t.swap.layersLeft = []) ∧
         { t with wnd := { t.wnd with decisions := s.wnd.decisions },
                  swap := { t.swap with actionSent := false, layersLeft := s.swap.layersLeft } } = s) ∧
     (¬ now → exec .jobBarrierDrained s = .next s))) ∧
  (∀ (s : State),
    (let now := s.swap.mode = 3 ∧ (s.swap.phase = .ready ∨ s.swap.phase = .barrier) ∧ s.swap.flipped = false ∧
       ∀ i ∈ s.imageStopes, (s.stope i).allIdle = true
     (now →
       Gives .flip s fun t =>
         (∀ i ∈ s.imageStopes, bit (t.rd (planCtrl i)) 1 = s.swap.target ∧ bit (t.rd (planCtrl i)) 0 = bit (s.rd (planCtrl i)) 0) ∧
         t.swap.flipped = true ∧ t.swap.phase = .barrier ∧ RegsKept s t (s.imageStopes.map planCtrl) ∧
         (s.isIngress = true → t.swap.acks = s.swap.acks ++ [s.edge.devId]) ∧ (s.isIngress = false → t.swap.told = s.swap.told ++ [.flipped]) ∧
         { t with regs := s.regs, swap := s.swap } = s) ∧
     (¬ now → exec .flip s = .next s))) ∧
  (∀ (s : State) (dev layer : Nat),
    (let own := dev = s.edge.devId ∧ s.swap.mode = 4 ∧ (s.swap.phase = .barrier ∨ s.swap.phase = .rollback)
     let due := s.isIngress = true ∧ s.wnd.barrier = true ∧ (dev, layer) ∈ s.swap.layersLeft
     Gives (.layerDone dev layer) s fun t =>
       (own → t.swap.layersDone = s.swap.layersDone + 1) ∧ (¬ own → t.swap.layersDone = s.swap.layersDone) ∧
       (own → s.isIngress = false → t.swap.told = s.swap.told ++ [.layer layer]) ∧ (¬ own ∨ s.isIngress = true → t.swap.told = s.swap.told) ∧
       (due → t.swap.layersLeft = s.swap.layersLeft.erase (dev, layer) ∧ t.swap.layersRight = s.swap.layersRight ++ [(dev, layer)]) ∧
       (¬ due → t.swap.layersLeft = s.swap.layersLeft ∧ t.swap.layersRight = s.swap.layersRight) ∧
       { t with swap := { t.swap with layersDone := s.swap.layersDone, told := s.swap.told, layersLeft := s.swap.layersLeft,
                                      layersRight := s.swap.layersRight } } = s)) ∧
  (∀ (s : State) (dev layer : Nat),
    (let own := s.swap.mode = 4 ∧ s.swap.phase = .barrier
     let other := s.isIngress = true ∧ s.wnd.barrier = true ∧ s.swap.jobMode = 4 ∧ dev ∈ s.jobDevices
     (dev ≠ s.edge.devId → other →
       Gives (.layerFail dev layer) s fun t =>
         t.wnd.decisions = s.wnd.decisions ++ [.rollback] ∧ t.swap.jobMode = 5 ∧ t.swap.layersLeft = s.swap.layersRight ∧ t.swap.layersRight = [] ∧
         { t with wnd := s.wnd, swap := s.swap } = s) ∧
     (dev = s.edge.devId → own →
       Gives (.layerFail dev layer) s fun t =>
         (s.tally.log.length < logCap → Logged s t causeLayerFail 0) ∧
         (s.isIngress = true → .rollback ∈ t.wnd.decisions ∧ t.swap.jobMode = 5 ∧ t.swap.layersLeft = s.swap.layersRight) ∧
         (s.isIngress = false → t.swap = { s.swap with told := s.swap.told ++ [.layerFail layer] })) ∧
     ((dev ≠ s.edge.devId ∧ ¬ other) ∨ (dev = s.edge.devId ∧ ¬ own) → exec (.layerFail dev layer) s = .next s))) ∧
  (∀ (s : State),
    (let now := s.swap.mode = 4 ∧ (s.swap.phase = .barrier ∨ s.swap.phase = .ready ∨ s.swap.phase = .tempHeld)
     (¬ now → exec .rollback s = .next s) ∧
     (now → s.swap.rows = [] →
       Gives .rollback s fun t =>
         t.swap.phase = .idle ∧ t.bankRecord s.swap.target = s.swap.prev ∧ t.swap.told = s.swap.told ++ [.outcome rNone] ∧
         t.rd swapRollbackCount = s.rd swapRollbackCount + 1) ∧
     (∀ r sl, now → s.swap.prev = some r → s.slotSlice r.slot = some sl → s.swap.rows ≠ [] →
       (∃ p ∈ s.swap.rows, (s.stope (p.1 / 128)).worn (p.1 % 128) s.swap.target = false) →
       Gives .rollback s fun t =>
         t.swap.phase = .rollback ∧ t.swap.image = some sl ∧ t.swap.undo = s.swap.rows.map Prod.fst ∧ t.swap.rows = [] ∧
         t.rd swapRollbackCount = s.rd swapRollbackCount + 1 ∧ RegsKept s t [swapRollbackCount] ∧ { t with regs := s.regs, swap := s.swap } = s) ∧
     (now → (s.swap.prev.bind fun r => s.slotSlice r.slot) = none → s.swap.rows ≠ [] →
       Gives .rollback s fun t => t.swap.phase = .idle ∧ s.edge.devId ∈ t.wnd.sliceHold))) ∧
  (∀ (s : State),
    (let now := s.isIngress = true ∧ s.wnd.barrier = true ∧ s.swap.actionSent = true ∧
       (s.swap.jobMode = 3 → ∀ d ∈ s.jobDevices, d ∈ s.swap.acks) ∧ (s.swap.jobMode ≠ 3 → s.swap.layersLeft = [])
     (now →
       Gives .jobBarrierRelease s fun t =>
         t.wnd.barrier = false ∧ t.wnd.decisions = s.wnd.decisions ++ [.release] ∧ t.swap.reports = [] ∧ t.swap.acks = [] ∧ t.swap.jobMode = 0 ∧
         { t with wnd := { t.wnd with barrier := true, decisions := s.wnd.decisions }, swap := s.swap } = s) ∧
     (¬ now → exec .jobBarrierRelease s = .next s))) ∧
  (∀ (s : State) (sl : ImageSlice), s.swap.image = some sl →
    (let now := s.swap.verified = true ∧ s.wnd.barrier = false ∧
       ((s.swap.mode = 2 ∧ (s.swap.phase = .reading ∨ s.swap.phase = .programming) ∧ s.allDone = true) ∨
        (s.swap.mode = 3 ∧ s.swap.flipped = true) ∨ (s.swap.mode = 4 ∧ s.swap.phase = .barrier ∧ s.allDone = true))
     (now → imgGen sl < 2 ^ 64 →
       Gives .swapComplete s fun t =>
         t.bankRecord s.swap.target = some { slot := s.swap.slot, digest := imgDigest sl, gen := BitVec.ofNat 64 (imgGen sl) } ∧
         t.rd64 (if s.swap.target then swapBankGenBLo else swapBankGenALo) = imgGen sl ∧
         t.genOf s.swap.target = imgGen sl ∧ t.rd swapCount = s.rd swapCount + 1 ∧ t.swap.phase = .idle ∧
         (∀ i ∈ s.imageStopes, (t.calc i).due = true) ∧ t.kv.ptes = s.kv.ptes ∧ t.wnd.streams = s.wnd.streams) ∧
     (¬ now → exec .swapComplete s = .next s)))

/-- R112, R336 to R339, R342, R356, R369, R375: a localisation that finds every macro sound counts its passes, releases the launches and leaves the
seam one last re-run; one that finds one data macro failed twice makes it, or the one of its ADCs that failed, permanent, its bank SUSPECT, and the seam reconstructs it; two or more lose the
slice, whose stopes are fenced; a seam 10 s without a mismatch is no longer SUSPECT, nor is one whose CLEAR bit is written; and a standby
takes the lost shard's place. -/
def Obligations.FaultySeamsAreLocalised : Prop :=
  (∀ (s : State) (i k : Nat) (rs : List (Nat × Nat × List Nat)), k < 4 → (s.stope i).seams.length = 4 →
    (((s.stope i).seam k).mode ≠ .localising → exec (.localise i k rs) s = .next s) ∧
    (((s.stope i).seam k).mode = .localising → (∀ r ∈ rs, r.1 ∈ (s.stope i).converting k → r.2.1 = 0) →
      Gives (.localise i k rs) s fun t =>
        (t.stope i).seam k = { (s.stope i).seam k with mode := .checked, holdLaunches := false, finalRerun := true } ∧
        (∀ j, j ≠ k → (t.stope i).seam j = (s.stope i).seam j) ∧
        t.rd64 assayPassCountLo = (s.rd64 assayPassCountLo + (rs.filter fun r => decide (r.1 ∈ (s.stope i).converting k)).length) % 2 ^ 64 ∧
        RegsKept s t [assayPassCountLo, assayPassCountLo + 4] ∧ { t.stope i with seams := (s.stope i).seams } = s.stope i ∧
        (∀ j, j ≠ i → t.stope j = s.stope j) ∧
        { t with regs := s.regs, stopes := s.stopes, hf := { t.hf with spent := s.hf.spent, charged := s.hf.charged } } = s)) ∧
  (∀ (s : State) (i k m : Nat) (cols : List Nat), i < 256 → k < 4 → m < 64 → seamOf m = k → (s.stope i).seams.length = 4 →
    ((s.stope i).seam k).mode = .localising → m ∈ (s.stope i).converting k → (s.stope i).phys m = m → s.macroDead i m = false →
    s.tally.entries.length < tallyCap →
    Gives (.localise i k [(m, 2, cols)]) s fun t =>
      (∀ u ∈ (if cols.isEmpty then [unitMacro i m] else chargedUnits i (cols.map fun c => 256 * m + c % 256)), t.isPermanent u = true) ∧
      ((t.stope i).seam k).mode = .recon ∧ ((t.stope i).seam k).mac = m ∧
      ((t.stope i).seam k).holdLaunches = false ∧ t.rd assayFailCount = s.rd assayFailCount + 2 ∧
      ((s.stope i).bankState m (s.stope i).bank = .valid → (t.stope i).bankState m (s.stope i).bank = .suspect) ∧
      ((s.stope i).spare72.used = false → s.macroDead i 72 = false →
        ((s.stope i).spare73.used = true → (s.stope i).spare73.target ≠ m) →
        (t.stope i).spare72 = { target := m, used := true, live := false, refresh := false, ready := [] }) ∧
      ∀ j, j ≠ i → t.stope j = s.stope j) ∧
  (∀ (s : State) (i k m n r : Nat), i < 256 → k < 4 → m < 64 → n < 64 → m ≠ n → (s.stope i).seams.length = 4 →
    ((s.stope i).seam k).mode = .localising → m ∈ (s.stope i).converting k → n ∈ (s.stope i).converting k →
    (s.stope i).phys m = m → (s.stope i).phys n = n → s.macroDead i m = false → s.macroDead i n = false →
    s.tally.entries.length + 1 < tallyCap → s.stopeRegion i = some r →
    Gives (.localise i k [(m, 2, []), (n, 2, [])]) s fun t =>
      (∀ j ∈ s.sliceStopes r, (5, 15) ∈ (t.fence (shellPage j)).causes) ∧ s.edge.devId ∈ t.wnd.sliceHold ∧
      t.isPermanent (unitMacro i m) = true ∧ t.isPermanent (unitMacro i n) = true) ∧
  (∀ (s : State) (i k : Nat), k < 4 → (s.stope i).seams.length = 4 → ((s.stope i).seam k).mode = .suspect →
    (((s.stope i).seam k).lastMismatch + 10000000000 ≤ s.now →
      Gives (.seamSuspectTimeout i k) s fun t =>
        (t.stope i).seam k = { (s.stope i).seam k with mode := .checked } ∧ (∀ j, j ≠ k → (t.stope i).seam j = (s.stope i).seam j) ∧
        { t.stope i with seams := (s.stope i).seams } = s.stope i ∧ StopeOnly s t i) ∧
    (s.now < ((s.stope i).seam k).lastMismatch + 10000000000 → exec (.seamSuspectTimeout i k) s = .next s)) ∧
  (∀ (s : State) (f i : Nat) (v : Word), i < 256 → s.mayWrite f (checkCtrl i) = true → (s.stope i).seams.length = 4 →
    Gives (.checkClear f i v) s fun t =>
      (∀ k, k < 4 → (t.stope i).seam k =
        if bit v (6 + k) = true ∧ ((s.stope i).seam k).mode = .suspect then { (s.stope i).seam k with mode := .checked }
        else (s.stope i).seam k) ∧
      fld (t.rd (checkCtrl i)) 3 0 = fld v 3 0 ∧ fld (t.rd (checkCtrl i)) 9 6 = fld (s.rd (checkCtrl i)) 9 6 ∧
      (∀ j, j ≠ i → t.stope j = s.stope j) ∧ { t with regs := s.regs, stopes := s.stopes } = s) ∧
  (∀ (s : State) (dev lost : Nat), s.isIngress = true → lost ∈ s.wnd.sliceHold →
    Gives (.standbyReport dev lost) s fun t =>
      lost ∉ t.wnd.sliceHold ∧ (∀ d, d ≠ lost → (d ∈ t.wnd.sliceHold ↔ d ∈ s.wnd.sliceHold)) ∧
      t.wnd.job.devices = s.wnd.job.devices.map (fun d => if d = lost then dev else d) ∧
      { t with wnd := { t.wnd with sliceHold := s.wnd.sliceHold, job := s.wnd.job } } = s) ∧
  (∀ (s : State) (dev lost : Nat), s.isIngress = false ∨ lost ∉ s.wnd.sliceHold → exec (.standbyReport dev lost) s = .next s)

/-- R83, R175, R343, R346 to R350, R369: an assigned spare is programmed in the banks that its target holds, and a free one is assigned to a
permanent macro first; one that holds them all stands in between the seam's plans and the seam is checked again; a permanent shell core's work
goes to its buddy, a merge core's to its partner in the same region, its streams are retried, and no fence is left; and where the other core is
lost too, or belongs to another region, the slice is lost. -/
def Obligations.SparesAndPartnersTakeOver : Prop :=
  (∀ (s : State) (i p : Nat) (bank : Bool),
    (let x := (s.stope i).spare p
     let fits (y : Spare) : Prop := y.used = true ∧ y.live = false ∧ bank ∈ (s.stope i).heldBanks y.target ∧ bank ∉ y.ready ∧
       (s.refreshOf (bankKey i p bank)).means = .off ∧ (s.bankSlice bank).isSome = true
     let row : Refresh := { means := .stand, row := 0, iters := 0, failed := false, since := s.now }
     (p ≠ 72 → p ≠ 73 → exec (.spareProgram i p bank) s = .next s) ∧
     (p = 72 ∨ p = 73 → x.used = true ∨ s.freeSpare i false ≠ some p ∨ s.unserved i = none →
       (fits x → exec (.spareProgram i p bank) s = .next (s.setRefresh (bankKey i p bank) row)) ∧
       (¬ fits x → exec (.spareProgram i p bank) s = .next s)) ∧
     (∀ m, x.used = false → s.freeSpare i false = some p → s.unserved i = some m →
       (let y : Spare := { target := m, used := true, live := false, refresh := false, ready := [] }
        Gives (.spareProgram i p bank) s fun t =>
          (t.stope i).spare p = y ∧ (fits y → t.refreshOf (bankKey i p bank) = row) ∧ (¬ fits y → t.swap = s.swap) ∧
          StopeOnly s { t with swap := s.swap } i)))) ∧
  (∀ (s : State) (i p : Nat), p = 72 ∨ p = 73 →
    (let x := (s.stope i).spare p
     let k := seamOf x.target
     ((s.stope i).spareReady p = false ∨ ((s.stope i).seq k).busy = true → exec (.spareMapIn i p) s = .next s) ∧
     ((s.stope i).spareReady p = true → k < 4 → (s.stope i).seams.length = 4 → ((s.stope i).seq k).busy = false → s.tally.log.length < logCap →
       Gives (.spareMapIn i p) s fun t =>
         (t.stope i).spare p = { x with live := true } ∧
         (t.stope i).seam k = (if x.refresh then (s.stope i).seam k else ((s.stope i).seam k).covered x.target) ∧
         (x.refresh = false → ((s.stope i).seam k).mode = .recon ∨ ((s.stope i).seam k).mode = .unprotected →
           ((s.stope i).seam k).mac = x.target → ((s.stope i).seam k).mac2 = none → ((t.stope i).seam k).mode = .checked) ∧
         (∀ j, j ≠ k → (t.stope i).seam j = (s.stope i).seam j) ∧ Logged s t causeSpareActive (unitMacro i x.target) ∧
         (∀ j, j ≠ i → t.stope j = s.stope j) ∧ ReportKept s t []))) ∧
  (∀ (s : State) (i : Nat), i < 256 → s.isPermanent (unitCore i) = true → (s.core i).permanent = false →
    (let b := if i % 2 = 0 then i + 1 else i - 1
     ((s.core b).permanent = false → s.isPermanent (unitCore b) = false → s.tally.log.length < logCap →
       Gives (.buddyTakeover i) s fun t =>
         (t.core i).host = some b ∧ (t.core i).permanent = true ∧ (t.core i).queue = [] ∧ (t.core i).run = none ∧ (t.core i).issued = [] ∧
         (s.isIngress = true → ∀ x ∈ s.streamsAt i,
           (t.stream x).flying.isSome = (s.stream x).flying.isSome ∧ ∀ fl ∈ (t.stream x).flying, fl.retried = true) ∧
         (s.isIngress = false → ∀ x ∈ s.streamsAt i, .faulted x ∈ t.wnd.told) ∧
         (∀ x ∈ (t.fence (coreBase i)).causes, x.1 ≠ 2) ∧ Logged s t causeBuddyTakeover (unitCore i)) ∧
     (∀ r, (s.core b).permanent = true ∨ s.isPermanent (unitCore b) = true → s.stopeRegion i = some r →
       Gives (.buddyTakeover i) s fun t =>
         (t.core i).permanent = true ∧ (∀ j ∈ s.sliceStopes r, (5, 15) ∈ (t.fence (shellPage j)).causes) ∧
         s.edge.devId ∈ t.wnd.sliceHold))) ∧
  (∀ (s : State) (i : Nat), 256 ≤ i ∨ s.isPermanent (unitCore i) = false ∨ (s.core i).permanent = true → exec (.buddyTakeover i) s = .next s) ∧
  (∀ (s : State) (m : Nat), m < 16 → s.isPermanent (unitCore (256 + m)) = true → (s.core (256 + m)).permanent = false →
    (let p := 256 + (if m % 2 = 0 then m + 1 else m - 1)
     ((s.core p).permanent = false → s.isPermanent (unitCore p) = false → s.coreRegion (256 + m) ≠ none →
       s.coreRegion (256 + m) = s.coreRegion p → s.tally.log.length < logCap →
       Gives (.mergeTakeover m) s fun t =>
         (t.core (256 + m)).host = some p ∧ (t.core (256 + m)).permanent = true ∧ (t.core (256 + m)).queue = [] ∧
         (t.core (256 + m)).run = none ∧ Logged s t causeMergeTakeover (unitCore (256 + m))) ∧
     (∀ r, s.coreRegion (256 + m) = some r → s.coreRegion p ≠ some r ∨ (s.core p).permanent = true ∨ s.isPermanent (unitCore p) = true →
       Gives (.mergeTakeover m) s fun t =>
         (t.core (256 + m)).permanent = true ∧ (t.core (256 + m)).host = (s.core (256 + m)).host ∧
         (∀ j ∈ s.sliceStopes r, (5, 15) ∈ (t.fence (shellPage j)).causes) ∧ s.edge.devId ∈ t.wnd.sliceHold))) ∧
  (∀ (s : State) (m : Nat), 16 ≤ m ∨ s.isPermanent (unitCore (256 + m)) = false ∨ (s.core (256 + m)).permanent = true →
    exec (.mergeTakeover m) s = .next s)

/-- R108, R136, R137, R339, R353, R355 to R360, R375, R376, R443: LEARN to CHECK sets a learned channel's bounds from its extremes; an assay whose
cadence has passed falls due; a deferred one is forced and logged; a slot passes, retries, passes on the retry with a transient event, or makes
the units charged permanent; a cross-check retries the core charged; a DRIFT assay keeps its samples and the drift, and above 0.35 of a level
makes the bank due for refresh; a slot on a buffer that is OFF warms it first; and ASSAY_CMD orders an assay that fits, or is refused. How a
cell is measured, the percentile and the median (log entry 157) are the model's choices. -/
def Obligations.CanariesAndAssaysJudge : Prop :=
  (∀ (s : State) (f i : Nat) (v : Word), i < 256 → s.mayWrite f (checkCtrl i) = true →
    (let m : Rat := (fld (s.rd (checkCanaryMargin i)) 15 0 : Nat) / (256 : Rat)
     Gives (.canaryModeWrite f i v) s fun t =>
       t.canaryMode i = fld v 5 4 ∧ (∀ j, j ≠ i → t.stope j = s.stope j) ∧ { t with regs := s.regs, stopes := s.stopes } = s ∧
       (¬ (s.canaryMode i = 1 ∧ fld v 5 4 = 2) →
         { t.stope i with seams := (s.stope i).seams } = s.stope i) ∧
       (s.canaryMode i = 1 → fld v 5 4 = 2 → (((s.stope i).learn.map Prod.fst).Nodup) →
         (t.stope i).learn = [] ∧ (t.stope i).learnRun = [] ∧
         (∀ c lo hi, (c, lo, hi) ∈ (s.stope i).learn →
           (let a := fRat lo
            let b := fRat hi
            Table.get unlearned (t.stope i).canary c = bounds16 (ofRat (a - m * (b - a))) (ofRat (b + m * (b - a))))) ∧
         (∀ j, j ∉ (s.stope i).learn.map Prod.fst → Table.get unlearned (t.stope i).canary j = Table.get unlearned (s.stope i).canary j)))) ∧
  (∀ (s : State) (kind unit : Nat) (bank : Bool),
    (let due := bit (s.rd assayCtrl) 0 = true ∧ (kind ≠ 3 ∨ bit (s.rd assayCtrl) 1 = true) ∧ s.assayable kind unit bank = true ∧
       (∃ p, s.cadence kind unit = some p ∧ Table.get 0 s.tally.pastDone (assayKey kind unit bank) + p ≤ s.now) ∧
       ∀ d ∈ s.tally.due, ¬(d.kind = kind ∧ d.unit = unit ∧ d.bank = bank)
     (due →
       Gives (.assayDue kind unit bank) s fun t =>
         t = { s with tally := { s.tally with due := s.tally.due ++
           [{ kind := kind, unit := unit, bank := bank, since := s.now, forced := false, retry := false, requested := false }] } }) ∧
     (¬ due → exec (.assayDue kind unit bank) s = .next s))) ∧
  (∀ (s : State) (kind unit : Nat) (bank : Bool),
    (let late (d : Due) : Bool := d.kind == kind && d.unit == unit && d.bank == bank && !d.forced &&
       decide (d.since + fld (s.rd assayDefer) 15 0 * 1000000 ≤ s.now)
     (s.tally.due.any late = true → s.tally.log.length < logCap →
       Gives (.assayDeferExpiry kind unit bank) s fun t =>
         t.tally.due = s.tally.due.map (fun d => if late d then { d with forced := true } else d) ∧
         Logged s t causeAssayForced unit ∧ ReportKept s t []) ∧
     (s.tally.due.any late = false → exec (.assayDeferExpiry kind unit bank) s = .next s))) ∧
  (∀ (s : State) (kind unit : Nat) (bank : Bool) (failing rows : List Nat),
    (let same (x : Due) : Bool := x.kind == kind && x.unit == unit && x.bank == bank
     let i := unitStope unit
     let own := failing.filter fun x => (unitMacros unit).contains (x / 256)
     let done := assayKey kind unit bank
     let charged := if kind = 3 then failing.map unitCore else chargedUnits i own
     (s.tally.due.find? same = none → exec (.assaySlot kind unit bank failing rows) s = .next s) ∧
     (∀ d, s.tally.due.find? same = some d →
       (let warm := kind < 3 ∧ (s.stope i).ref = .off ∧ s.refMode i ≠ 2 ∧ (d.forced = true ∨ warmCost ≤ s.unreserved)
        (warm → exec (.assaySlot kind unit bank failing rows) s = .next (s.refEnable i)) ∧
        (¬ warm → s.slotFree d = false → exec (.assaySlot kind unit bank failing rows) s = .next s) ∧
        (kind = 0 ∨ kind = 1 ∨ kind = 3 → s.slotFree d = true →
          (charged = [] → d.retry = false →
            Gives (.assaySlot kind unit bank failing rows) s fun t =>
              t.tally.due = s.tally.due.filter (fun x => !(same x)) ∧ t.rd64 assayPassCountLo = (s.rd64 assayPassCountLo + 1) % 2 ^ 64 ∧
              Table.get 0 t.tally.pastDone done = s.now ∧ t.tally.entries = s.tally.entries ∧ t.stopes = s.stopes ∧
              t.hf.spent = s.hf.spent + s.slotCharge ∧
              (d.requested = true → t.tally.result = 1 ∧ t.tally.resultPending = false)) ∧
          (charged ≠ [] → d.retry = false →
            Gives (.assaySlot kind unit bank failing rows) s fun t =>
              t.tally.due = s.tally.due.map (fun x =>
                if same x then { d with unit := if kind = 3 then charged.headD d.unit else d.unit, retry := true } else x) ∧
              t.rd assayFailCount = s.rd assayFailCount + 1 ∧ t.tally.entries = s.tally.entries ∧ t.stopes = s.stopes) ∧
          (charged = [] → d.retry = true → s.tally.entries.length < tallyCap →
            Gives (.assaySlot kind unit bank failing rows) s fun t =>
              t.tally.due = s.tally.due.filter (fun x => !(same x)) ∧ t.rd assayRetryPassCount = s.rd assayRetryPassCount + 1 ∧
              (∃ e, t.tallyEntry unit = some e ∧
                (s.tallyEntry unit = none → e.cause = (if kind = 3 then causeXcheckFail else causeAssayFail) ∧ e.events = 1)) ∧
              (d.requested = true → t.tally.result = 2 ∧ t.tally.resultPending = false)) ∧
          (charged ≠ [] → d.retry = true → s.tally.entries.length + charged.length < tallyCap →
            (kind ≠ 3 → i < 256) → (kind = 3 → declarable unit = true) →
            Gives (.assaySlot kind unit bank failing rows) s fun t =>
              t.tally.due = s.tally.due.filter (fun x => !(same x)) ∧
              (∀ u ∈ (if kind = 3 then [unit] else charged), t.isPermanent u = true) ∧ t.rd assayFailCount = s.rd assayFailCount + 1 ∧
              (d.requested = true → t.tally.result = 3 ∧ t.tally.resultPending = false))) ∧
        (kind = 4 → s.slotFree d = true → failing = [] →
          Gives (.assaySlot kind unit bank failing rows) s fun t =>
            t.tally.due = s.tally.due.filter (fun x => !(same x)) ∧ t.rd64 assayPassCountLo = (s.rd64 assayPassCountLo + 1) % 2 ^ 64 ∧
            t.tally.entries = s.tally.entries) ∧
        (kind = 4 → s.slotFree d = true → failing ≠ [] →
          Gives (.assaySlot kind unit bank failing rows) s fun t =>
            t.tally.due = s.tally.due.filter (fun x => !(same x)) ∧ t.rd assayFailCount = s.rd assayFailCount + 1 ∧
            (s.tally.entries.length < tallyCap → ∃ e, t.tallyEntry unit = some e)) ∧
        (kind = 2 → s.slotFree d = true →
          Gives (.assaySlot kind unit bank failing rows) s fun t =>
            t.tally.due = s.tally.due.filter (fun x => !(same x)) ∧ t.rd64 assayPassCountLo = (s.rd64 assayPassCountLo + 1) % 2 ^ 64 ∧
            Table.get 0 t.tally.pastDone done = s.now ∧ t.tally.entries = s.tally.entries ∧
            (s.bankSlice bank = none → t.stopes = s.stopes) ∧
            ∀ sl, s.bankSlice bank = some sl →
              (let m := bitsOf unit 8 0
               let key := 2 * m + (if bank then 1 else 0)
               let cells := s.driftCells i m bank (rows.take 8) sl
               let u := s.updStope i fun x => { x with sampled := Table.set [] x.sampled key cells }
               Table.get [] (t.stope i).sampled key = cells ∧ (∀ j, j ≠ i → t.stope j = s.stope j) ∧
               ∀ k, cells ≠ [] → u.commonFactor bank = some k →
                 Table.get [] (t.stope i).drift key = Table.get [] (s.stope i).drift key ++ [(s.now, driftOf k cells)] ∧
                 (7 / 20 < driftOf k cells → (s.refreshOf (bankKey i m bank)).means = .off →
                   t.refreshOf (bankKey i m bank) = { Refresh.none with means := .due, since := s.now }) ∧
                 (driftOf k cells ≤ 7 / 20 → t.swap = s.swap))))))) ∧
  (∀ (s : State) (f : Nat) (v : Word), s.mayWrite f assayCmd = true →
    (let kind := fld v 1 0
     let unit := (s.rd assayUnit).toNat
     let bank := kind != 3 && (s.stope (unitStope unit)).bank
     (unitFits kind unit = true → s.ownsEp f (unitEp unit) = true →
       Gives (.assayGo f v) s fun t =>
         (∃ d ∈ t.tally.due, d.kind = kind ∧ d.unit = unit ∧ d.bank = bank ∧ d.requested = true) ∧ t.tally.resultPending = true ∧
         t.tally.result = 0 ∧ { t with regs := s.regs, tally := s.tally } = s) ∧
     (unitFits kind unit = false →
       Gives (.assayGo f v) s fun t => t.rd assayLastFault = BitVec.ofNat 32 rAbiMismatch ∧ t.tally = s.tally) ∧
     (unitFits kind unit = true → s.ownsEp f (unitEp unit) = false →
       Gives (.assayGo f v) s fun t => t.rd assayLastFault = BitVec.ofNat 32 rRegionViolation ∧ t.tally = s.tally)))

/-- R38, R51, R362 to R366, R370 to R373, R377, R484: pending changes of units not yet written in this second go into both copies under the next
SEQ, with a CRC that checks; CLEAR_TRANSIENT frees every TRANSIENT entry and keeps every PERMANENT one; FLUSH writes what is pending; TALLY_FIND
selects a unit's entry; a second's excess alarms leave in COALESCED records; a notice whose message has arrived is logged with its source's
time and number and counts against its unit; and a pseudo-channel's third event within 24 h fences it for good. What the CRC covers (log entry
162) is the model's choice. -/
def Obligations.TallyAndReportsKeepCount : Prop :=
  (∀ s : State,
    (let units := s.tally.dirty.filter fun u => Table.get 0 s.tally.lastWrite u != s.sec + 1
     let waiting := s.tally.dirty.filter fun u => !(units.contains u)
     let q := max s.tally.copy0.seq s.tally.copy1.seq + 1
     (units = [] → exec .tallyWrite s = .next s) ∧
     (units ≠ [] →
       Gives .tallyWrite s fun t =>
         t.tally.copy0.seq = q ∧ t.tally.copy1.seq = q ∧ t.tally.copy0.checks = true ∧ t.tally.copy1.checks = true ∧
         t.tally.copy0.ok = s.tally.copy0.ok ∧ t.tally.copy1.ok = s.tally.copy1.ok ∧
         (∀ e ∈ s.tally.entries, e.unit ∉ waiting → e ∈ t.tally.copy0.entries ∧ e ∈ t.tally.copy1.entries) ∧
         (waiting = [] → t.tally.copy0.entries = s.tally.entries ∧ t.tally.copy1.entries = s.tally.entries) ∧
         (∀ e ∈ t.tally.copy0.entries, e.unit ∈ waiting → e ∈ s.tally.copy0.entries) ∧
         t.tally.dirty = waiting ∧ (∀ u ∈ units, Table.get 0 t.tally.lastWrite u = s.sec + 1) ∧
         { t with tally := { t.tally with copy0 := s.tally.copy0, copy1 := s.tally.copy1, dirty := s.tally.dirty,
                                          lastWrite := s.tally.lastWrite } } = s))) ∧
  (∀ (s : State) (f : Nat), s.mayWrite f tallyCtrl = true →
    Gives (.clearTransient f) s fun t =>
      t.tally.entries = s.tally.entries.filter (fun e => e.state != 1) ∧ (∀ e ∈ s.tally.entries, e.state = 2 → e ∈ t.tally.entries) ∧
      t.tally.copy0 = s.tally.copy0 ∧ t.tally.copy1 = s.tally.copy1 ∧ { t with regs := s.regs, tally := s.tally } = s) ∧
  (∀ (s : State) (f : Nat), s.mayWrite f tallyCtrl = true →
    (s.tally.dirty ≠ [] →
      Gives (.flush f) s fun t =>
        t.tally.dirty = [] ∧ t.tally.copy0.entries = s.tally.entries ∧ t.tally.copy1.entries = s.tally.entries ∧
        t.tally.copy0.seq = max s.tally.copy0.seq s.tally.copy1.seq + 1 ∧ t.tally.copy1.seq = t.tally.copy0.seq ∧
        t.tally.copy0.checks = true ∧ t.tally.copy1.checks = true ∧
        t.tally.entries = s.tally.entries ∧ { t with regs := s.regs, tally := s.tally } = s) ∧
    (s.tally.dirty = [] → Gives (.flush f) s fun t => { t with regs := s.regs } = s)) ∧
  (∀ (s : State) (f n : Nat) (v : Word), s.mayWrite f tallyFind = true →
    (entryIndex v.toNat s.tally.entries = some n →
      Gives (.tallyFind f v) s fun t =>
        t.rd tallySel = BitVec.ofNat 32 (n % 0x10000) ∧ t.tally = { s.tally with notFound := false } ∧ RegsKept s t [tallySel] ∧
        { t with regs := s.regs, tally := s.tally } = s) ∧
    (entryIndex v.toNat s.tally.entries = none →
      exec (.tallyFind f v) s = .next { s with tally := { s.tally with notFound := true } })) ∧
  (∀ (s : State),
    (s.sec ≤ s.tally.second → exec .alarmSecond s = .next s) ∧
    (s.tally.second < s.sec → s.tally.log.length + s.tally.excess.length ≤ logCap →
      Gives .alarmSecond s fun t =>
        t.tally.second = s.sec ∧ t.tally.sent = [] ∧ t.tally.excess = [] ∧
        t.rd tallyAlarmCoalescedCount = s.rd tallyAlarmCoalescedCount + BitVec.ofNat 32 s.tally.excess.length ∧
        (∀ x ∈ s.tally.excess, ∃ r ∈ t.tally.log, r.coalesced = true ∧ r.source = x.1 ∧ r.cause = x.2.1 ∧ r.unit = x.2.2.1 ∧ r.count = x.2.2.2 ∧
          r.time = s.now) ∧
        ReportKept s t [tallyAlarmCoalescedCount])) ∧
  (∀ (s : State) (m : Notice), s.noticeUnderWay m = true → exec (.faultNotice m) s = .next s) ∧
  (∀ (s : State) (m : Notice), s.noticeUnderWay m = false → causeClass m.cause ≠ .trace → countsAgainst m.unit m.cause = false →
    m.cause ≠ causeSpSparesOut → s.tally.log.length < logCap →
    Gives (.faultNotice m) s fun t =>
      t.noc = { s.noc with notices := s.noc.notices.erase m } ∧ t.tally.entries = s.tally.entries ∧
      (∃ r ∈ t.tally.log, r.cause = m.cause ∧ r.unit = m.unit ∧ r.detail = m.detail ∧ r.time = m.time ∧ r.seq = m.seq ∧
        r.source = s.sourceId m.source ∧ r.cls = (causeClass m.cause).code) ∧ ReportKept s t []) ∧
  (∀ (s : State) (m : Notice), s.noticeUnderWay m = false → countsAgainst m.unit m.cause = true → m.cause ≠ causeSpSparesOut →
    s.tallyEntry m.unit = none → s.tally.entries.length < tallyCap →
    Gives (.faultNotice m) s fun t =>
      t.tallyEntry m.unit = some (TallyEntry.first m.unit m.cause m.detail (m.time, s.sourceId m.source, m.seq)) ∧ t.isPermanent m.unit = false) ∧
  (∀ (s : State) (m : Notice) (k pc : Nat) (e : TallyEntry), s.noticeUnderWay m = false → k < 8 → pc < 32 → m.unit = unitPc k pc →
    m.cause = causePcFail → s.tallyEntry m.unit = some e → e.state = 1 → m.time / secNs ∉ e.times →
    (e.event m.cause m.detail (m.time, s.sourceId m.source, m.seq)).third = true →
    Gives (.faultNotice m) s fun t =>
      t.isPermanent m.unit = true ∧ bit (t.rd (stackPcFence k)) pc = true ∧
      (∀ j, j ≠ pc → bit (t.rd (stackPcFence k)) j = bit (s.rd (stackPcFence k)) j))

/-- R386 to R394, R144, R362, R415: a port in training offers its usable lanes in its CAP flit; with a common version, the right peer and three
lanes it comes up at SEQ 0, else it is down, miswired, or short of lanes with LINK_DOWN once; a lane that fails leaves three, with a
replay, and a second one takes the link down with its replay buffer; NAK and a missing ACK replay; a lane below 40 % is retired; credit
lets held flits go and loses none. What each leaves alone when its condition fails is said too. That RETRAIN takes a port that is up down first
is the model's choice (log entry 24). -/
def Obligations.PortsTrainAndFail : Prop :=
  (∀ (s : State) (p lanes rtt : Nat),
    (let x := s.port p
     let ready := bit (s.rd (peligCtrl p)) 0 = true ∧ (x.state = .training ∨ (x.state = .down ∧ x.version = 0 ∧ x.lanesShort = false))
     (ready →
       Gives (.portTrain p lanes rtt) s fun t =>
         (∀ l, l < 4 → bitAt (t.port p).usable l = (bitAt lanes l && !(bitAt x.retired l) && !(bit (s.rd (peligCtrl p)) (3 + l)))) ∧
         { t.port p with usable := x.usable } =
           { x with state := .training, rtt := rtt, margin := [100, 100, 100, 100], linkTx := x.linkTx ++ [s.capBytes p (t.port p).usable] } ∧
         (∀ q, q ≠ p → t.port q = s.port q) ∧ { t with fab := { t.fab with ports := s.fab.ports } } = s) ∧
     (¬ready → exec (.portTrain p lanes rtt) s = .next s))) ∧
  (∀ (s : State) (p : Nat) (m : Caps),
    (let x := s.port p
     let peerOk : Bool := if portRole p = 0 then m.role == 0 && m.port == p && m.device != s.edge.devId else m.role == 3
     let active := x.usable &&& m.lanes % 16
     (x.state ≠ .training → exec (.cap p m) s = .next s) ∧
     (x.state = .training → m.verMax < 1 ∨ 1 < m.verMin →
       Gives (.cap p m) s fun t =>
         t.port p = { x with state := .down, since := s.now } ∧ t.rd (peligLastRefuse p) = BitVec.ofNat 32 rAbiMismatch ∧
         (∀ q, q ≠ p → t.port q = s.port q) ∧ RegsKept s t [peligLastRefuse p] ∧
         { t with regs := s.regs, fab := { t.fab with ports := s.fab.ports } } = s) ∧
     (x.state = .training → 1 ≤ m.verMax → m.verMin ≤ 1 → peerOk = false →
       Gives (.cap p m) s fun t => t = s.setPort p { x with state := .miswired, since := s.now }) ∧
     (x.state = .training → 1 ≤ m.verMax → m.verMin ≤ 1 → peerOk = true → popcount 4 active < 3 →
       Gives (.cap p m) s fun t =>
         t.port p = { x with state := .down, lanes := 0, lanesShort := true, since := s.now } ∧ (∀ q, q ≠ p → t.port q = s.port q) ∧
         (x.lanesShort = false → t.rd (peligLinkDownCount p) = s.rd (peligLinkDownCount p) + 1 ∧ Noticed s t causeLinkDown (epPort p) ∧
           NocNotices s t ∧ RegsKept s t [peligLinkDownCount p]) ∧
         (x.lanesShort = true → t.regs = s.regs ∧ t.noc = s.noc)) ∧
     (x.state = .training → 1 ≤ m.verMax → m.verMin ≤ 1 → peerOk = true → 3 ≤ popcount 4 active →
       Gives (.cap p m) s fun t =>
         (t.port p).state = (if popcount 4 active = 4 then .up else .degraded) ∧ (t.port p).lanes = active ∧ (t.port p).version = 1 ∧
         (t.port p).lanesShort = false ∧ (t.port p).txSeq = 0 ∧ (t.port p).rxSeq = 0 ∧ (t.port p).lastSeq = 0xFFF ∧
         (t.port p).peerDev = m.device ∧ (t.port p).peerPort = m.port ∧ (t.port p).replay = [] ∧
         (∀ i, i < 8 → (t.port p).credits.getD i 0 = m.credits.getD i 0) ∧
         (∀ q, q ≠ p → t.port q = s.port q) ∧ { t with fab := { t.fab with ports := s.fab.ports } } = s))) ∧
  (∀ (s : State) (p : Nat),
    (let due := (s.port p).lanesShort = true ∧ (s.port p).state = .down ∧ bit (s.rd (peligCtrl p)) 0 = true ∧
       bit (s.rd (peligCtrl p)) 1 = true ∧ (s.port p).since + 1000000000 ≤ s.now
     (due → exec (.retrainTimer p) s = .next (s.setPort p { s.port p with state := .training })) ∧
     (¬due → exec (.retrainTimer p) s = .next s))) ∧
  (∀ (s : State) (f p : Nat),
    (s.mayWrite f (peligCtrl p) = true → bit (s.rd (peligCtrl p)) 0 = true → (s.port p).isUp = false →
      exec (.retrain f p) s = .next (s.setPort p { s.port p with state := .training })) ∧
    (s.mayWrite f (peligCtrl p) = true → bit (s.rd (peligCtrl p)) 0 = true → (s.port p).isUp = true →
      Gives (.retrain f p) s fun t =>
        (t.port p).state = .training ∧ (t.port p).replay = [] ∧ (t.port p).held = [] ∧
        t.rd (peligLinkDownCount p) = s.rd (peligLinkDownCount p) + 1 ∧ (∃ n ∈ t.noc.notices, n.cause = causeLinkDown ∧ n.source = epPort p)) ∧
    (s.mayWrite f (peligCtrl p) = true → bit (s.rd (peligCtrl p)) 0 = false → (s.port p).isUp = false → exec (.retrain f p) s = .next s) ∧
    (s.mayWrite f (peligCtrl p) = false → exec (.retrain f p) s = .next s)) ∧
  (∀ (s : State) (p l : Nat), l < 4 →
    (let x := s.port p
     (x.isUp = false ∨ bitAt x.lanes l = false → exec (.laneFail p l) s = .next s) ∧
     (x.isUp = true → bitAt x.lanes l = true → 3 ≤ popcount 4 (x.lanes - 2 ^ l) →
       Gives (.laneFail p l) s fun t =>
         t.port p = { x with lanes := x.lanes - 2 ^ l, state := .degraded, tx := x.tx ++ x.replay,
                             linkTx := x.linkTx ++ [laneMapBytes (x.lanes - 2 ^ l) ((x.replay.head?.map (·.seq)).getD x.txSeq)] } ∧
         t.rd (peligDegradeCount p) = s.rd (peligDegradeCount p) + 1 ∧ RegsKept s t [peligDegradeCount p] ∧ NocNotices s t ∧
         (∃ n, t.noc.notices = s.noc.notices ++ [n] ∧ n.cause = causeLaneDegraded ∧ n.unit = unitLane p l) ∧
         (∀ q, q ≠ p → t.port q = s.port q)) ∧
     (x.isUp = true → bitAt x.lanes l = true → popcount 4 (x.lanes - 2 ^ l) < 3 →
       Gives (.laneFail p l) s fun t =>
         (t.port p).isUp = false ∧ (t.port p).replay = [] ∧ (t.port p).held = [] ∧
         t.rd (peligLinkDownCount p) = s.rd (peligLinkDownCount p) + 1 ∧ (∃ n ∈ t.noc.notices, n.cause = causeLinkDown ∧ n.source = epPort p)))) ∧
  (∀ (s : State) (p lanes seq : Nat),
    (let now := (s.port p).lanes &&& lanes % 16
     ((s.port p).isUp = true → 3 ≤ popcount 4 now →
       exec (.laneMap p lanes seq) s =
         .next (s.setPort p { s.port p with lanes := now, state := if popcount 4 now = 4 then .up else .degraded, lastGood := s.now })) ∧
     ((s.port p).isUp = false ∨ popcount 4 now < 3 → exec (.laneMap p lanes seq) s = .next s))) ∧
  (∀ (s : State) (f p : Nat) (v : Word),
    (let left := popcount 4 (15 - (15 &&& (fld v 6 3 ||| (s.port p).retired)))
     (s.mayWrite f (peligCtrl p) = true → 3 ≤ left →
       Gives (.laneOffWrite f p v) s fun t =>
         fld (t.rd (peligCtrl p)) 6 3 = fld v 6 3 ∧
         ((s.port p).isUp = true → ∀ l, l < 4 → bit v (3 + l) = true → bitAt (t.port p).lanes l = false) ∧
         ((s.port p).isUp = false → t.fab = s.fab ∧ RegsKept s t [peligCtrl p])) ∧
     (s.mayWrite f (peligCtrl p) = false ∨ left < 3 → exec (.laneOffWrite f p v) s = .next s))) ∧
  (∀ (s : State) (p l m : Nat), l < 4 → m < 256 → (s.port p).margin.length = 4 →
    Gives (.laneMarginCheck p l m) s fun t =>
      (t.port p).margin.getD l 0 = m ∧
      (m < 40 → bitAt (s.port p).retired l = false →
        bitAt (t.port p).retired l = true ∧ bitAt (t.port p).lanes l = (bitAt (s.port p).lanes l && !(s.port p).isUp) ∧
        t.hf.causes = s.hf.causes ||| 0x80) ∧
      (40 ≤ m ∨ bitAt (s.port p).retired l = true → (t.port p).retired = (s.port p).retired ∧ t.hf = s.hf ∧ t.regs = s.regs)) ∧
  (∀ (s : State) (p l : Nat), p < 24 → l < 4 →
    (let x := s.port p
     let due := x.margin.getD l 0 < 60 ∧ x.isUp = true ∧ bitAt x.retired l = false ∧ x.replay = [] ∧ x.held = [] ∧ x.lastAck + 1000000 ≤ s.now
     (due → Gives (.laneRetrain p l) s fun t =>
       (l < x.margin.length → (t.port p).margin.getD l 0 = 100) ∧ { t.port p with margin := x.margin, retired := x.retired } = x ∧
       (s.tallyEntry (unitLane p l) = none → s.tally.entries.length < tallyCap →
         ∃ e, t.tallyEntry (unitLane p l) = some e ∧ e.cause = causeLaneDegraded) ∧
       ∀ q, q ≠ p → t.port q = s.port q) ∧
     (¬due → exec (.laneRetrain p l) s = .next s))) ∧
  (∀ (s : State) (p : Nat) (rs : List Nat),
    (let x := s.port p
     let y := { x with credits := x.credits.zipIdx.map (fun c => c.1 + rs.getD c.2 0), lastGood := s.now }
     (x.isUp = true → x.held = [] → exec (.credit p rs) s = .next (s.setPort p y)) ∧
     (x.isUp = true →
       Gives (.credit p rs) s fun t =>
         ∃ sent, (t.port p).tx = x.tx ++ sent ∧ (t.port p).replay = x.replay ++ sent ∧
           (t.port p).held.length + sent.length = x.held.length ∧
           (∀ f ∈ (t.port p).held, f ∈ x.held ∧ t.portReady p f = false) ∧
           (∀ g ∈ sent, ∃ f ∈ x.held, g = { f with seq := g.seq, ack := x.lastSeq }) ∧ (∀ q, q ≠ p → t.port q = s.port q) ∧
           t.rd64 (peligFlitsTxLo p) = (s.rd64 (peligFlitsTxLo p) + sent.length) % 2 ^ 64) ∧
     (x.isUp = false → exec (.credit p rs) s = .next s))) ∧
  (∀ (s : State) (p : Nat),
    (let x := s.port p
     let due := x.isUp = true ∧ x.held = [] ∧ x.lastCredit + 500 ≤ s.now
     (due → exec (.creditIdleTimer p) s = .next (s.setPort p { x with
       owed := List.replicate 8 0, lastCredit := s.now, linkTx := x.linkTx ++ [creditBytes x.owed] })) ∧
     (¬due → exec (.creditIdleTimer p) s = .next s))) ∧
  (∀ (s : State) (p seq : Nat),
    (∀ (f : Flit) (a b : List Flit), p < 24 → (s.port p).isUp = true → (s.port p).replay = a ++ f :: b → f.seq = seq → (∀ g ∈ a, g.seq ≠ seq) →
      Gives (.nak p seq) s fun t =>
        (t.port p).tx = (s.port p).tx ++ f :: b ∧ (t.port p).replay = (s.port p).replay ∧
        t.rd (peligReplayCount p) = s.rd (peligReplayCount p) + 1 ∧ (∃ n ∈ t.noc.notices, n.cause = causeLinkReplay ∧ n.source = epPort p) ∧
        ∀ q, q ≠ p → t.port q = s.port q) ∧
    ((s.port p).isUp = true → (∀ g ∈ (s.port p).replay, g.seq ≠ seq) →
      exec (.nak p seq) s = .next (s.setPort p { s.port p with lastGood := s.now })) ∧
    ((s.port p).isUp = false → exec (.nak p seq) s = .next s)) ∧
  (∀ (s : State) (p : Nat),
    (let x := s.port p
     (∀ (f : Flit) (b : List Flit), p < 24 → x.isUp = true → x.replay = f :: b → x.lastAck + x.rtt + 2000 ≤ s.now →
       Gives (.replayTimeout p) s fun t =>
         (t.port p).tx = x.tx ++ f :: b ∧ (t.port p).replay = f :: b ∧ t.rd (peligReplayCount p) = s.rd (peligReplayCount p) + 1) ∧
     (x.isUp = false ∨ x.replay = [] ∨ s.now < x.lastAck + x.rtt + 2000 → exec (.replayTimeout p) s = .next s))) ∧
  (∀ (s : State) (p : Nat),
    (let x := s.port p
     let lost := x.lastGood + 10000 ≤ s.now ∨ (∃ y ∈ x.tries, 8 ≤ y.2) ∨ popcount 4 x.lanes < 3
     (x.isUp = true → lost →
       Gives (.linkSilenceTimeout p) s fun t =>
         (t.port p).state = (if bit (s.rd (peligCtrl p)) 1 && bit (s.rd (peligCtrl p)) 0 then .training else .down) ∧
         (t.port p).replay = [] ∧ (t.port p).held = [] ∧ t.rd (peligLinkDownCount p) = s.rd (peligLinkDownCount p) + 1) ∧
     (x.isUp = false ∨ ¬lost → exec (.linkSilenceTimeout p) s = .next s)))

/-- R379, R382, R384, R385, R390, R391, R399: a flit on the wire reads back as it was; on a port that is down none acts; one with a bad CRC is
counted and NAKed and changes no sequence; a LINK flit gives its ACK alone, and one whose FEC could not correct it is counted and NAKed; the next
DATA flit in order is accepted and counted, and kept for its operation, forwarded with PATH rewritten, or discarded; an earlier one only counts;
one ahead of its turn is NAKed. -/
def Obligations.FlitsArriveInOrder : Prop :=
  (∀ f : Flit, f.typ < 4 → f.lvc < 8 → f.seq < 4096 → f.ack < 4096 → f.path < 4096 → f.destEp < 4096 → f.srcEp < 4096 → f.opcode < 32 →
    f.units < 16 → f.addr < 0x20000 → f.e2e < 4096 → f.payload.length = 16 * f.units → f.crcOk = true → flitOf (flitBytes f) f.fecOk = f) ∧
  (∀ (s : State) (p : Nat) (f : Flit), (s.port p).isUp = false → exec (.flitReceive p f) s = .next s) ∧
  (∀ (s : State) (p : Nat) (f : Flit), (s.port p).isUp = true → f.crcOk = false →
    (let x := s.port p
     Gives (.flitReceive p f) s fun t =>
       t.rd (peligCrcErrCount p) = s.rd (peligCrcErrCount p) + 1 ∧ RegsKept s t [peligCrcErrCount p] ∧
       t.port p = (if x.nakSeq = some x.rxSeq ∧ s.now < x.nakTime + 2 * x.rtt then x
                   else { x with nakSeq := some x.rxSeq, nakTime := s.now, linkTx := x.linkTx ++ [nakBytes x.rxSeq] }) ∧
       (∀ q, q ≠ p → t.port q = s.port q) ∧ t.fab.inbox = s.fab.inbox)) ∧
  (∀ (s : State) (p : Nat) (f : Flit), (s.port p).isUp = true → f.crcOk = true → f.typ = 1 →
    Gives (.flitReceive p f) s fun t =>
      (t.port p).rxSeq = (s.port p).rxSeq ∧ (t.port p).lastGood = s.now ∧ t.fab.inbox = s.fab.inbox ∧ (∀ q, q ≠ p → t.port q = s.port q)) ∧
  (∀ (s : State) (p : Nat) (f : Flit), (s.port p).isUp = true → f.crcOk = true → f.typ ≠ 1 → f.fecOk = false →
    Gives (.flitReceive p f) s fun t =>
      t.rd (peligFecUncorrCount p) = s.rd (peligFecUncorrCount p) + 1 ∧ (t.port p).rxSeq = (s.port p).rxSeq ∧
      (t.port p).nakSeq = some (s.port p).rxSeq ∧ t.fab.inbox = s.fab.inbox ∧ (∀ q, q ≠ p → t.port q = s.port q)) ∧
  (∀ (s : State) (p : Nat) (f : Flit), (s.port p).isUp = true → f.crcOk = true → f.typ ≠ 1 → f.fecOk = true →
    f.seq = (s.port p).rxSeq →
    (let a := s.adit f.path
     let carried := f.typ = 0 ∧ f.rg = false ∧ opcodeKnown f.opcode = true ∧ portCarries p f.opcode = true
     (Gives (.flitReceive p f) s fun t =>
       (t.port p).rxSeq = ((s.port p).rxSeq + 1) % 4096 ∧ t.rd64 (peligFlitsRxLo p) = (s.rd64 (peligFlitsRxLo p) + 1) % 2 ^ 64) ∧
     (carried → portRole p ≠ 0 ∨ a.isLocal = true →
       Gives (.flitReceive p f) s fun t =>
         t.fab.inbox = s.fab.inbox ++ [(p, f)] ∧ (∀ q, q ≠ p → t.port q = s.port q) ∧
         RegsKept s t [peligFlitsRxLo p, peligFlitsRxLo p + 4, peligFlitsTxLo p, peligFlitsTxLo p + 4] ∧ t.mem = s.mem ∧
         t.fab.adits = s.fab.adits) ∧
     (carried → portRole p = 0 → a.valid = true → a.isLocal = false → f.opcode = 8 →
       Gives (.flitReceive p f) s fun t => t.fab.inbox = s.fab.inbox ++ [(p, f)] ∧ (∀ q, q ≠ p → t.port q = s.port q)) ∧
     (¬carried ∨ (portRole p = 0 ∧ a.valid = false) ∨ (portRole p = 0 ∧ a.transit = true ∧ f.opcode ≠ 8 ∧ a.inPort ≠ p) →
       Gives (.flitReceive p f) s fun t =>
         t.rd (peligDiscardCount p) = s.rd (peligDiscardCount p) + 1 ∧ t.fab.inbox = s.fab.inbox ∧ (∀ q, q ≠ p → t.port q = s.port q)) ∧
     (carried → portRole p = 0 → a.valid = true → a.transit = true → f.opcode ≠ 8 → a.inPort = p → rtPort a.routeA ≠ p →
       (let q := rtPort a.routeA
        let y := s.port q
        let g : Flit := { f with path := rtPath a.routeA }
        (s.portReady q g = true → y.held = [] → portCarries q f.opcode = true →
          Gives (.flitReceive p f) s fun t =>
            (t.port q).tx = y.tx ++ [{ g with seq := y.txSeq, ack := y.lastSeq }] ∧
            (t.port q).txSeq = (y.txSeq + 1) % 4096 ∧ (t.port q).credits = setAt y.credits f.lvc (· - 1) ∧
            (t.port q).replay = y.replay ++ [{ g with seq := y.txSeq, ack := y.lastSeq }] ∧ t.fab.inbox = s.fab.inbox) ∧
        (y.isUp = true → s.portReady q g = false ∨ (∃ h ∈ y.held, h.lvc = f.lvc) → portCarries q f.opcode = true →
          Gives (.flitReceive p f) s fun t => t.port q = { y with held := y.held ++ [g] } ∧ t.fab.inbox = s.fab.inbox) ∧
        (y.isUp = false →
          Gives (.flitReceive p f) s fun t => t.port q = y ∧ t.fab.inbox = s.fab.inbox))))) ∧
  (∀ (s : State) (p : Nat) (f : Flit), (s.port p).isUp = true → f.crcOk = true → f.typ ≠ 1 → f.fecOk = true → f.seq ≠ (s.port p).rxSeq →
    (((s.port p).rxSeq + 4096 - f.seq) % 4096 ≤ 2047 →
      Gives (.flitReceive p f) s fun t =>
        t.rd (peligReplayCount p) = s.rd (peligReplayCount p) + 1 ∧ (t.port p).rxSeq = (s.port p).rxSeq ∧ t.fab.inbox = s.fab.inbox) ∧
    (2047 < ((s.port p).rxSeq + 4096 - f.seq) % 4096 →
      Gives (.flitReceive p f) s fun t =>
        (t.port p).nakSeq = some (s.port p).rxSeq ∧ (t.port p).rxSeq = (s.port p).rxSeq ∧ t.fab.inbox = s.fab.inbox)) ∧
  (∀ (t : Port) (a b : List Flit) (f : Flit) (now : Nat), t.replay = a ++ f :: b → (∀ g ∈ a, g.seq ≠ f.seq) →
    (t.takeAck f.seq now).replay = b ∧ (t.takeAck f.seq now).lastAck = now)

/-- R385, R398, R400, R401, R404, R405, R416: a commit that R398 allows verifies each route, any other is refused; an echo answered in time makes
its route UP with its bound, and one that is late or not awaited changes nothing; an endpoint without an UP route is DOWN; 60 s after its last
measurement a route answers again, and its bound moves when it differs by more than 10 %; a failed active route switches to the other when
that is UP, else the endpoint goes DOWN and its packets are answered, and a failed route that is not active only stops being UP; REVERT returns
to route A; a TRANSIT endpoint passes PATH_FAIL upstream; an ECHO is answered. Which route a PATH_FAIL names (log entry 25) is the model's choice. -/
def Obligations.AditsVerifyAndSwitch : Prop :=
  (∀ (s : State) (f : Nat),
    (let ep := s.selEp
     let a := s.adit ep
     let q := rtPort a.routeA
     (s.mayWrite f aditCmd = true → s.aditCheck a = 0 → a.isLocal = true →
       Gives (.aditCommit f) s fun t =>
         t.adit ep = { a with state := .verifying, onB := false, aUp := false, bUp := false, aEcho := true, bEcho := rtHops a.routeB != 0,
                              echoAt := s.now, boundA := 0, boundB := 0, measuredA := s.now, measuredB := s.now, txE2e := 0, rxE2e := 0,
                              unacked := [], waiting := [], answered := [] } ∧
         (∀ e, e ≠ ep → t.adit e = s.adit e) ∧
         (s.portReady q (mkFlit 9 7 epHeadframe epHeadframe 0 []) = true → (s.port q).held = [] →
           ∃ g, (t.port q).tx = (s.port q).tx ++ [g] ∧ g.opcode = 9 ∧ g.path = rtPath a.routeA)) ∧
     (s.mayWrite f aditCmd = true → s.aditCheck a = 0 → a.isLocal = false → exec (.aditCommit f) s = .next s) ∧
     (s.mayWrite f aditCmd = true → s.aditCheck a ≠ 0 → exec (.aditCommit f) s = .next (s.refuse aditLastRefuse (s.aditCheck a))) ∧
     (s.mayWrite f aditCmd = false → exec (.aditCommit f) s = .next s) ∧
     ((s.region a.region).valid = true → bitAt (s.region a.region).portMask (rtPort a.routeA) = true → a.transit = false → rtHops a.routeB = 0 →
       rtPort a.routeA < 20 → rtHops a.routeA ≠ 0 → rtHops a.routeA ≤ 4 → a.peerDev < 32768 → a.peerDev ≠ s.edge.devId →
       s.aditCheck a = (if a.state = .down then 0 else rCapacity)))) ∧
  (∀ (s : State) (fl : Flit) (rtt : Nat),
    (let ep := fl.path
     let a := s.adit ep
     let b := fl.payload.headD 0 == 1
     let awaited := a.isLocal = true ∧ (if b then a.bEcho else a.aEcho) = true ∧ s.now ≤ a.echoAt + 1000000
     let x : Adit := if b then { a with bEcho := false, bUp := true, boundB := (rtt + 1) / 2 + 400 * rtHops a.routeB, measuredB := s.now,
                                        state := .up, onB := !a.aUp }
       else { a with aEcho := false, aUp := true, boundA := (rtt + 1) / 2 + 400 * rtHops a.routeA, measuredA := s.now, state := .up, onB := false }
     (awaited →
       Gives (.echoReply fl rtt) s fun t =>
         { t.adit ep with held := a.held, txE2e := a.txE2e, unacked := a.unacked } = x ∧ (a.held = [] → t.adit ep = x ∧ t.fab.ports = s.fab.ports) ∧
         (a.held ≠ [] → a.unacked.length < 2047 → (t.adit ep).held.length < a.held.length) ∧
         (∀ e, e ≠ ep → t.adit e = s.adit e) ∧ t.mem = s.mem) ∧
     (¬awaited → exec (.echoReply fl rtt) s = .next (s.takeFlit fl)))) ∧
  (∀ (s : State) (ep : Nat) (route : Bool),
    (let a := s.adit ep
     let due := a.echoAt + 1000000 ≤ s.now ∧ (if route then a.bEcho else a.aEcho) = true
     let x : Adit := if route then { a with bEcho := false } else { a with aEcho := false }
     (due →
       Gives (.aditVerifyTimeout ep route) s fun t =>
         t.adit ep = { x with state := if a.state = .verifying ∧ x.aEcho = false ∧ x.bEcho = false ∧ a.aUp = false ∧ a.bUp = false then .down else a.state } ∧
         (∀ e, e ≠ ep → t.adit e = s.adit e) ∧ { t with fab := { t.fab with adits := s.fab.adits } } = s) ∧
     (¬due → exec (.aditVerifyTimeout ep route) s = .next s))) ∧
  (∀ (s : State) (f : Nat),
    (let a := s.adit s.selEp
     let back := a.isLocal = true ∧ a.state = .up ∧ a.onB = true ∧ a.aUp = true
     (s.mayWrite f aditCmd = true → back →
       Gives (.revert f) s fun t =>
         (t.adit s.selEp).onB = false ∧ t.rd aditSwitchCount = s.rd aditSwitchCount + 1 ∧
         (∃ n ∈ t.noc.notices, n.cause = causePathSwitched ∧ n.detail = s.selEp)) ∧
     (s.mayWrite f aditCmd = false ∨ ¬back → exec (.revert f) s = .next s) ∧
     (s.mayWrite f aditCmd = true → a.isLocal = true → a.state ≠ .down →
       Gives (.disable f) s fun t =>
         (t.adit s.selEp).state = .down ∧ (t.adit s.selEp).unacked = [] ∧ (t.adit s.selEp).held = [] ∧ (t.adit s.selEp).aUp = false ∧
         (t.adit s.selEp).bUp = false ∧ ∀ e, e ≠ s.selEp → t.adit e = s.adit e) ∧
     (s.mayWrite f aditCmd = false ∨ a.isLocal = false ∨ a.state = .down → exec (.disable f) s = .next s))) ∧
  (∀ (s : State) (ep rtt : Nat) (route : Bool),
    (let a := s.adit ep
     let w := if route then a.routeB else a.routeA
     let old := if route then a.boundB else a.boundA
     let new := (rtt + 1) / 2 + 400 * rtHops w
     let due := a.isLocal = true ∧ a.state = .up ∧ rtHops w ≠ 0 ∧ (if route then a.measuredB else a.measuredA) + 60000000000 ≤ s.now
     let bound (b : Nat) : Adit := if route then { a with bUp := true, boundB := b, measuredB := s.now }
                                   else { a with aUp := true, boundA := b, measuredA := s.now }
     (due → old = 0 ∨ old < 10 * (max new old - min new old) →
       exec (.routeRemeasure ep route rtt) s = .next (s.setAdit ep (bound new))) ∧
     (due → old ≠ 0 → 10 * (max new old - min new old) ≤ old →
       exec (.routeRemeasure ep route rtt) s = .next (s.setAdit ep (bound old))) ∧
     (¬due → exec (.routeRemeasure ep route rtt) s = .next s))) ∧
  (∀ (s : State) (fl : Flit),
    (let ep := fl.path
     let a := s.adit ep
     let b := match fl.payload with
       | [] => a.onB
       | x :: _ => x == 1
     let counted := (s.takeFlit fl).inc aditPathFailCount 1
     (a.isLocal = true → a.state ≠ .up ∨ a.onB ≠ b →
       exec (.pathFail fl) s = .next (counted.setAdit ep (if b then { a with bUp := false } else { a with aUp := false }))) ∧
     (a.isLocal = true → a.state = .up → a.onB = b → (if b then a.aUp else a.bUp) = true →
       Gives (.pathFail fl) s fun t =>
         (t.adit ep).onB = !b ∧ (if b then (t.adit ep).bUp else (t.adit ep).aUp) = false ∧ (t.adit ep).state = .up ∧
         t.rd aditSwitchCount = s.rd aditSwitchCount + 1 ∧ t.rd aditPathFailCount = s.rd aditPathFailCount + 1 ∧
         ∃ n ∈ t.noc.notices, n.cause = causePathSwitched ∧ n.detail = ep) ∧
     (a.isLocal = true → a.state = .up → a.onB = b → (if b then a.aUp else a.bUp) = false →
       Gives (.pathFail fl) s fun t =>
         (t.adit ep).state = .down ∧ (t.adit ep).unacked = [] ∧ t.rd aditPathFailCount = s.rd aditPathFailCount + 1 ∧
         ∀ e, e ≠ ep → t.adit e = s.adit e) ∧
     (a.valid = true → a.transit = true →
       Gives (.pathFail fl) s fun t =>
         FlitOut s t a.inPort { mkFlit 8 0 0 0 0 [] with path := a.upPath } ∧ t.rd aditPathFailCount = s.rd aditPathFailCount + 1 ∧
         t.fab.adits = s.fab.adits ∧ t.mem = s.mem) ∧
     (a.valid = false → exec (.pathFail fl) s = .next counted))) ∧
  (∀ (s : State) (fl : Flit),
    (let a := s.adit fl.path
     (a.isLocal = true →
       Gives (.echo fl) s fun t =>
         FlitOut s t (rtPort a.active) { mkFlit 10 7 fl.srcEp fl.destEp 0 fl.payload with path := rtPath a.active } ∧
         t.fab.adits = s.fab.adits ∧ t.mem = s.mem) ∧
     (a.isLocal = false → exec (.echo fl) s = .next (s.takeFlit fl))))

/-- R186, R187, R379, R385, R400, R402, R403, R406: the next sequenced packet of an adit is written through a window, or refused, or held, and
answered with its status; behind a held packet of its adit it waits; an earlier one is only counted and answered again, any other discarded; a
CTL message of the region is injected; a held packet past MC_HOLD is refused; a WRITE_ACK record frees its packet; and storage and ingress
messages pass on their own ports alone. What an ingress message holds (log entry 28) is the model's choice. -/
def Obligations.FabricWritesMeetWindows : Prop :=
  (∀ (s : State) (fl : Flit),
    (let ep := fl.path
     let a := s.adit ep
     let f := { fl with opcode := 1 }
     let next := a.isLocal = true ∧ (a.rxE2e + 4096 - fl.e2e) % 4096 = 0 ∧ s.holds ep = false ∧ a.waiting = []
     let answered (t : State) (code : Nat) := (fl.e2e, code) ∈ (t.adit ep).answered ∧ (t.adit ep).rxE2e = (a.rxE2e + 1) % 4096 ∧
       ∀ e, e ≠ ep → t.adit e = s.adit e
     (next → epExists fl.destEp = false → Gives (.write fl) s fun t => answered t 3 ∧ t.mem = s.mem ∧ t.cores = s.cores) ∧
     (next → epExists fl.destEp = true → s.inRegion fl.destEp a.region = false →
       Gives (.write fl) s fun t => answered t 2 ∧ t.mem = s.mem ∧ t.cores = s.cores) ∧
     (next → epExists fl.destEp = true → s.inRegion fl.destEp a.region = true → epCore fl.destEp = none →
       Gives (.write fl) s fun t => answered t 0 ∧ t.mem = s.mem ∧ t.cores = s.cores) ∧
     (∀ c, next → epExists fl.destEp = true → s.inRegion fl.destEp a.region = true → epCore fl.destEp = some c →
       (let start := s.unitFlat c f.addr
        (∀ w, s.fabMeeting ep c f = .taken w →
          Gives (.write fl) s fun t =>
            t.rdMem start (flitData f).length = flitData f ∧ MemKept s t start (flitData f).length ∧ answered t 0 ∧ t.fab.hold = s.fab.hold) ∧
        (s.fabMeeting ep c f = .refused →
          Gives (.write fl) s fun t =>
            t.mem = s.mem ∧ answered t 1 ∧ t.rd (coreWinRefused c) = s.rd (coreWinRefused c) + 1 ∧ t.fab.hold = s.fab.hold) ∧
        (s.fabMeeting ep c f = .unopened → s.fab.hold.length < 64 →
          Gives (.write fl) s fun t =>
            t.fab.hold = s.fab.hold ++ [{ flit := f, since := s.now, ep := ep }] ∧ t.mem = s.mem ∧
            t.adit ep = { a with rxE2e := (a.rxE2e + 1) % 4096 } ∧ t.regs = s.regs) ∧
        (s.fabMeeting ep c f = .unopened → 64 ≤ s.fab.hold.length →
          Gives (.write fl) s fun t =>
            t.mem = s.mem ∧ answered t 1 ∧ t.rd windowHoldRefuseCount = s.rd windowHoldRefuseCount + 1 ∧
            t.rd (coreWinRefused c) = s.rd (coreWinRefused c) + 1 ∧ t.fab.hold = s.fab.hold))))) ∧
  (∀ (s : State) (fl : Flit) (op : Nat) (i : Instr), (op, i) ∈ [(1, Instr.write fl), (3, Instr.ctl fl)] →
    (let ep := fl.path
     let a := s.adit ep
     let behind := (a.rxE2e + 4096 - fl.e2e) % 4096
     (a.isLocal = true → behind = 0 → s.holds ep = true ∨ a.waiting ≠ [] →
       Gives i s fun t =>
         t.adit ep = { a with rxE2e := (a.rxE2e + 1) % 4096, waiting := a.waiting ++ [{ fl with opcode := op }] } ∧
         (∀ e, e ≠ ep → t.adit e = s.adit e) ∧ t.mem = s.mem ∧ t.regs = s.regs ∧ t.cores = s.cores ∧ t.noc = s.noc) ∧
     (a.isLocal = true → behind ≠ 0 → behind ≤ 2048 →
       Gives i s fun t =>
         t.rd aditDupDiscardCount = s.rd aditDupDiscardCount + 1 ∧ t.mem = s.mem ∧ t.fab.adits = s.fab.adits ∧ t.cores = s.cores ∧
         (∀ q ∈ a.answered.find? fun x => x.1 == fl.e2e,
           FlitOut s t (rtPort a.active) { mkFlit 2 0 epHeadframe epHeadframe 0 (leBytes 2 (q.1 + 0x1000 * q.2)) with path := rtPath a.active }) ∧
         (a.answered.find? (fun x => x.1 == fl.e2e) = none → t.fab.ports = s.fab.ports)) ∧
     (a.isLocal = false ∨ 2048 < behind → exec i s = .next (s.takeFlit fl)))) ∧
  (∀ (s : State) (fl : Flit),
    (let ep := fl.path
     let a := s.adit ep
     let m := ctlOf fl (epPort (rtPort a.active))
     a.isLocal = true → (a.rxE2e + 4096 - fl.e2e) % 4096 = 0 → s.holds ep = false → a.waiting = [] →
     (m.region = a.region →
       Gives (.ctl fl) s fun t => t.noc.ctl = s.noc.ctl ++ [m] ∧ (fl.e2e, 0) ∈ (t.adit ep).answered ∧ t.mem = s.mem) ∧
     (m.region ≠ a.region →
       Gives (.ctl fl) s fun t => t.noc.ctl = s.noc.ctl ∧ (fl.e2e, 2) ∈ (t.adit ep).answered ∧ t.mem = s.mem))) ∧
  (∀ (s : State) (i : Nat),
    (∀ (c : Nat) (h : Held), s.fab.hold[i]? = some h → h.since + fld (s.rd windowMcHold) 13 0 * 1000 ≤ s.now → epCore h.flit.destEp = some c →
      ((s.adit h.ep).waiting = [] →
        Gives (.mcHoldExpiry i) s fun t =>
          t.fab.hold = s.fab.hold.erase h ∧ t.rd windowHoldRefuseCount = s.rd windowHoldRefuseCount + 1 ∧
          t.rd (coreWinRefused c) = s.rd (coreWinRefused c) + 1 ∧ (h.flit.opcode ≠ 4 → (h.flit.e2e, 1) ∈ (t.adit h.ep).answered) ∧ t.mem = s.mem) ∧
      ((s.adit h.ep).waiting ≠ [] → (∀ x ∈ s.fab.hold.erase h, x.ep = h.ep → x.flit.opcode = 4) →
        Gives (.mcHoldExpiry i) s fun t => (t.adit h.ep).waiting.length < (s.adit h.ep).waiting.length)) ∧
    (s.fab.hold[i]? = none → exec (.mcHoldExpiry i) s = .next s) ∧
    (∀ h : Held, s.fab.hold[i]? = some h → s.now < h.since + fld (s.rd windowMcHold) 13 0 * 1000 → exec (.mcHoldExpiry i) s = .next s)) ∧
  (∀ (s : State) (fl : Flit),
    (let ep := fl.path
     let a := s.adit ep
     let recs := (chunks 2 (fl.payload.take 240)).map ofLe
     (∀ (g : Flit) (n code : Nat), a.isLocal = true → a.held = [] → n < 4096 → code < 16 → fl.payload = leBytes 2 (n + 0x1000 * code) →
       a.unacked.find? (fun f => f.e2e == n) = some g →
       Gives (.writeAck fl) s fun t =>
         t.adit ep = { a with unacked := a.unacked.erase g } ∧ (∀ e, e ≠ ep → t.adit e = s.adit e) ∧ t.mem = s.mem ∧ t.regs = s.regs) ∧
     (a.isLocal = true →
       Gives (.writeAck fl) s fun t =>
         (∀ g ∈ a.unacked, (∀ r ∈ recs, r % 0x1000 ≠ g.e2e) → g ∈ (t.adit ep).unacked) ∧
         (a.held = [] → a.unacked.Pairwise (fun g h => g.e2e ≠ h.e2e) → ∀ g ∈ (t.adit ep).unacked, ∀ r ∈ recs, r % 0x1000 ≠ g.e2e) ∧
         (∀ e, e ≠ ep → t.adit e = s.adit e) ∧ t.mem = s.mem) ∧
     (a.isLocal = false → exec (.writeAck fl) s = .next (s.takeFlit fl)))) ∧
  (∀ (s : State) (p : Nat) (fl : Flit),
    (portRole p = 1 →
      Gives (.store p fl) s fun t => t.fab.stored = s.fab.stored ++ [(p, fl)] ∧ { t with fab := { t.fab with stored := s.fab.stored, inbox := s.fab.inbox } } = s) ∧
    (portRole p ≠ 1 →
      Gives (.store p fl) s fun t =>
        t.rd (peligDiscardCount p) = s.rd (peligDiscardCount p) + 1 ∧ t.fab.stored = s.fab.stored ∧ RegsKept s t [peligDiscardCount p]) ∧
    (portRole p = 2 → 16 < fl.payload.length →
      (let a := hostBase + leAt fl.payload 0 8
       let bs := (fl.payload.drop 8).take 64
       Gives (.ingress p fl) s fun t => t.rdMem a bs.length = bs ∧ MemKept s t a bs.length ∧ t.regs = s.regs ∧ t.wnd = s.wnd)) ∧
    (portRole p = 2 → fl.payload.length ≤ 16 →
      exec (.ingress p fl) s = .next ((s.takeFlit fl).doorbell 0 (BitVec.ofNat 32 (leAt fl.payload 0 4)))) ∧
    (portRole p ≠ 2 →
      Gives (.ingress p fl) s fun t =>
        t.rd (peligDiscardCount p) = s.rd (peligDiscardCount p) + 1 ∧ t.mem = s.mem ∧ RegsKept s t [peligDiscardCount p]))

/-- R407 to R413: a command of its operation starts a collective with the group's next EPOCH, is over at once with COUNT 0, or is refused
with its code in LAST_REFUSE and its record; CHUNK_ACK settles a chunk or names refused packets; a member's third resend ends the
collective with LINK_DOWN; an old chunk is discarded and counted, one whose collective has not started is held, one that a window takes
is written, ABANDON ends a member's MULTICAST; REDUCE_SCATTER folds in ascending rank, and ALL_REDUCE then gathers the fold; MULTICAST resends
what was refused and at last reports MC_PARTIAL; a collective that is over leaves, counted, with its record; and a group is committed or refused.
What each leaves alone is said too. The code for a member's device ID outside R395's range (log entry 163) is the model's choice. -/
def Obligations.CollectivesRun : Prop :=
  (∀ (s : State) (src op : Nat) (cmd : List Byte) (i : Instr),
    (op, i) ∈ [(1, Instr.allReduce src cmd), (2, .allGather src cmd), (3, .reduceScatter src cmd), (4, .allToAll src cmd),
               (5, .multicast src cmd)] →
    (let k := collCmd cmd
     let g := s.group k.group
     (k.op ≠ op → exec i s = .next s) ∧
     (k.op = op → s.collCheck k = 0 → k.count ≠ 0 →
       Gives i s fun t =>
         (∃ c ∈ t.fab.colls, c.id = s.fab.nextColl ∧ c.op = op ∧ c.group = k.group ∧ c.epoch = g.epoch ∧ c.count = k.count ∧ c.tag = k.tag ∧
           c.status = 0) ∧ t.fab.nextColl = s.fab.nextColl + 1 ∧ (t.group k.group).epoch = (g.epoch + 1) % 0x10000) ∧
     (k.op = op → s.collCheck k = 0 → k.count = 0 →
       Gives i s fun t =>
         t.fab.colls = s.fab.colls ++ [s.newColl src k 0 true] ∧ (t.group k.group).epoch = (g.epoch + 1) % 0x10000 ∧
         t.regs = s.regs ∧ t.mem = s.mem) ∧
     (k.op = op → s.collCheck k ≠ 0 →
       Gives i s fun t =>
         t.fab.colls = s.fab.colls ++ [s.newColl src k (s.collCheck k) true] ∧ t.rd collLastRefuse = BitVec.ofNat 32 (s.collCheck k) ∧
         RegsKept s t [collLastRefuse] ∧ t.fab.groups = s.fab.groups ∧ t.mem = s.mem))) ∧
  (∀ (s : State) (fl : Flit),
    (let h := chunkHeadOf fl.payload
     (s.chunkColl h = none → exec (.chunkAck fl) s = .next (s.takeFlit fl)) ∧
     (∀ c, s.chunkColl h = some c → (c.members s).findIdx? (fun m => m.path == fl.path) = none →
       exec (.chunkAck fl) s = .next (s.takeFlit fl)) ∧
     (∀ c j, s.chunkColl h = some c → (c.members s).findIdx? (fun m => m.path == fl.path) = some j →
       (h.rank = c.rank s → h.phase = c.phase →
         Gives (.chunkAck fl) s fun t =>
           ∃ x ∈ t.fab.colls, x.id = c.id ∧ (j, h.phase, h.index) ∈ x.acks ∧
             (∀ p, p < 64 → bitAt (leAt fl.payload 16 8) p = true → (j, h.index, p) ∈ x.refused)) ∧
       (h.rank ≠ c.rank s ∨ h.phase ≠ c.phase → exec (.chunkAck fl) s = .next (s.takeFlit fl))))) ∧
  (∀ (s : State) (id j : Nat),
    (s.coll id = none → exec (.chunkTimeout id j) s = .next s) ∧
    (∀ c, s.coll id = some c →
      (let late := c.ended = false ∧ c.open_ j ≠ [] ∧ c.progress.getD j 0 + fld (s.rd collChunkTo) 15 0 * 1000 ≤ s.now
       (¬late → exec (.chunkTimeout id j) s = .next s) ∧
       (late → 3 ≤ c.resends.getD j 0 →
         Gives (.chunkTimeout id j) s fun t =>
           (∃ x, t.coll id = some x ∧ x.ended = true ∧ x.status = causeLinkDown ∧ j ∈ x.failed) ∧ t.regs = s.regs ∧ t.mem = s.mem) ∧
       (late → c.resends.getD j 0 < 3 → j < (c.members s).length →
         Gives (.chunkTimeout id j) s fun t =>
           (∃ x, t.coll id = some x ∧ x.ended = false ∧ x.resends = setAt c.resends j (· + 1)) ∧
           t.rd collChunkResendCount = s.rd collChunkResendCount + BitVec.ofNat 32 (c.open_ j).length) ∧
       (late → c.resends.getD j 0 < 3 → (c.members s).length ≤ j → exec (.chunkTimeout id j) s = .next s)))) ∧
  (∀ (s : State) (fl : Flit),
    (let f := { fl with opcode := 4 }
     let h := chunkHeadOf fl.payload
     let local_ := (s.adit fl.path).isLocal = true
     (¬local_ ∨ epCore fl.destEp = none → exec (.chunk fl) s = .next (s.takeFlit fl)) ∧
     (∀ c, local_ → epCore fl.destEp = some c → s.chunkColl h = none →
       (h.epoch < (s.group h.group).epoch →
         Gives (.chunk fl) s fun t =>
           t.rd collDupChunkCount = s.rd collDupChunkCount + (if h.packet = 0 then 1 else 0) ∧ t.mem = s.mem ∧ t.fab.colls = s.fab.colls) ∧
       ((s.group h.group).epoch ≤ h.epoch → s.fab.hold.length < 64 →
         Gives (.chunk fl) s fun t =>
           t.fab.hold = s.fab.hold ++ [{ flit := f, since := s.now, ep := fl.path }] ∧ t.mem = s.mem ∧ t.regs = s.regs) ∧
       ((s.group h.group).epoch ≤ h.epoch → 64 ≤ s.fab.hold.length →
         exec (.chunk fl) s = .next ((s.takeFlit fl).inc windowHoldRefuseCount 1))) ∧
     (∀ c k, local_ → epCore fl.destEp = some c → s.chunkColl h = some k →
       (let fresh := h.abandon = false ∧ k.expected s h.rank h.phase ≤ h.index ∧ (h.rank, h.phase, h.index, h.packet) ∉ k.got
        let inside := s.inRegion fl.destEp (s.adit fl.path).region
        (h.abandon = true → k.op = 5 →
          Gives (.chunk fl) s fun t =>
            (∃ x, t.coll k.id = some x ∧ x.ended = true ∧ x.status = causeMcPartial) ∧ t.mem = s.mem ∧ t.regs = s.regs) ∧
        (h.abandon = true → k.op ≠ 5 → exec (.chunk fl) s = .next (s.takeFlit fl)) ∧
        (h.abandon = false → h.index < k.expected s h.rank h.phase →
          Gives (.chunk fl) s fun t =>
            t.rd collDupChunkCount = s.rd collDupChunkCount + (if h.packet = 0 then 1 else 0) ∧ t.mem = s.mem ∧ t.fab.colls = s.fab.colls) ∧
        (h.abandon = false → k.expected s h.rank h.phase ≤ h.index → (h.rank, h.phase, h.index, h.packet) ∈ k.got ∨ inside = false →
          exec (.chunk fl) s = .next (s.takeFlit fl)) ∧
        (∀ w, fresh → inside = true → s.fabMeeting fl.path c f = .taken w →
          Gives (.chunk fl) s fun t =>
            t.rdMem (s.unitFlat c f.addr) (flitData f).length = flitData f ∧ MemKept s t (s.unitFlat c f.addr) (flitData f).length ∧
            ∃ x, t.coll k.id = some x ∧ (h.rank, h.phase, h.index, h.packet) ∈ x.got) ∧
        (fresh → inside = true → s.fabMeeting fl.path c f = .refused →
          Gives (.chunk fl) s fun t =>
            t.rd (coreWinRefused c) = s.rd (coreWinRefused c) + 1 ∧ t.mem = s.mem ∧ t.fab.hold = s.fab.hold ∧ t.fab.colls = s.fab.colls) ∧
        (fresh → inside = true → s.fabMeeting fl.path c f = .unopened → s.fab.hold.length < 64 →
          Gives (.chunk fl) s fun t =>
            t.fab.hold = s.fab.hold ++ [{ flit := f, since := s.now, ep := fl.path }] ∧ t.mem = s.mem ∧ t.regs = s.regs) ∧
        (fresh → inside = true → s.fabMeeting fl.path c f = .unopened → 64 ≤ s.fab.hold.length →
          Gives (.chunk fl) s fun t =>
            t.rd windowHoldRefuseCount = s.rd windowHoldRefuseCount + 1 ∧ t.rd (coreWinRefused c) = s.rd (coreWinRefused c) + 1 ∧
            t.mem = s.mem ∧ t.fab.hold = s.fab.hold))))) ∧
  (∀ (s : State) (id : Nat),
    (s.coll id = none → exec (.collFold id) s = .next s) ∧
    (∀ c, s.coll id = some c →
      (let due := c.ended = false ∧ c.folded = false ∧ (c.op = 1 ∨ c.op = 3) ∧ c.allIn s 0 = true ∧ c.allSent s = true
       (¬due ∨ (c.members s)[c.rank s]? = none → exec (.collFold id) s = .next s) ∧
       (∀ m, due → (c.members s)[c.rank s]? = some m →
         (let base := s.wordFlat m.endpoint m.wbase
          let n := (c.members s).length
          let r := foldBlocks c.typ ((List.range n).map fun j => s.rdMem (base + j * c.block n) (c.block n))
          (c.op = 3 →
            Gives (.collFold id) s fun t =>
              t.rdMem base r.length = r ∧ MemKept s t base r.length ∧ t.coll id = some { c with folded := true } ∧ t.regs = s.regs) ∧
          (c.op = 1 →
            Gives (.collFold id) s fun t =>
              (∃ x, t.coll id = some x ∧ x.folded = true ∧ x.phase = 1 ∧ x.acks = c.acks ∧ x.got = c.got ∧ x.ended = false) ∧
              (c.count % (16 * n) = 0 →
                t.rdMem base r.length = r ∧
                ((epCore m.endpoint).isSome = true → t.rdMem (base + c.count + c.rank s * c.block n) (c.block n) = r)))))))) ∧
  (∀ (s : State) (id : Nat),
    (s.coll id = none → exec (.mcResend id) s = .next s) ∧
    (∀ c, s.coll id = some c →
      (let due := c.ended = false ∧ c.op = 5 ∧ c.rank s = c.root ∧ c.refused ≠ [] ∧ c.allSent s = true
       (¬due → exec (.mcResend id) s = .next s) ∧
       (due → c.passes < fld (s.rd windowMcRetry) 3 0 →
         Gives (.mcResend id) s fun t =>
           (∃ x, t.coll id = some x ∧ x.refused = [] ∧ x.passes = c.passes + 1) ∧
           t.rd windowMcRetryCount = s.rd windowMcRetryCount + BitVec.ofNat 32 c.refused.length) ∧
       (due → fld (s.rd windowMcRetry) 3 0 ≤ c.passes →
         Gives (.mcResend id) s fun t =>
           (∃ x, t.coll id = some x ∧ x.ended = true ∧ x.status = causeMcPartial ∧ ∀ r ∈ c.refused, r.1 ∈ x.failed) ∧
           t.rd collMcPartialCount = s.rd collMcPartialCount + 1 ∧ ∃ n ∈ t.noc.notices, n.cause = causeMcPartial)))) ∧
  (∀ (s : State) (id : Nat),
    (s.coll id = none → exec (.collComplete id) s = .next s) ∧
    (∀ c, s.coll id = some c →
      (let over_ := c.ended = true ∨ c.finished s = true
       (¬over_ → exec (.collComplete id) s = .next s) ∧
       (over_ → epCore (fld c.cpl 28 17) = none → epCore c.owner = none ∨ bitAt c.cnt 7 = false →
         Gives (.collComplete id) s fun t =>
           t.coll id = none ∧ t.rd64 collDoneLo = (s.rd64 collDoneLo + 1) % 2 ^ 64 ∧ t.mem = s.mem) ∧
       (over_ → Gives (.collComplete id) s fun t => t.coll id = none) ∧
       (∀ k, over_ → epCore (fld c.cpl 28 17) = some k →
         (let bs := c.record s
          let start := s.unitFlat k (fld c.cpl 16 0)
          let met := s.meeting k start bs.length s.edge.devId epColl true
          (∀ w, met = .taken w → (∀ n ∈ w.counter, n < 32) →
            Gives (.collComplete id) s fun t =>
              t.coll id = none ∧ t.rd64 collDoneLo = (s.rd64 collDoneLo + 1) % 2 ^ 64 ∧ t.rdMem start bs.length = bs ∧ MemKept s t start bs.length) ∧
          ((∀ w, met ≠ .taken w) →
            Gives (.collComplete id) s fun t =>
              t.coll id = none ∧ t.rd64 collDoneLo = (s.rd64 collDoneLo + 1) % 2 ^ 64 ∧ t.mem = s.mem ∧
              t.rd (coreWinRefused k) = s.rd (coreWinRefused k) + 1)))))) ∧
  (∀ (s : State) (f : Nat),
    (let g := (grpOf (s.rd collGrpSel)).1
     let hdr := Table.get (0, 0, 0) s.fab.stagedHdr g
     let ms := (List.range hdr.1).map fun j => Table.get memberNone s.fab.stagedMem (4096 * g + j)
     let others := ((s.fab.groups.filter fun p => p.1 != g).map fun p => p.2.members.length).sum
     let known := ∀ m ∈ ms, deviceOk m.device = true
     let room := hdr.1 ≤ 4096 ∧ others + hdr.1 ≤ 16384 ∧ ∀ c ∈ s.fab.colls, c.group = g → c.ended = true
     let inside := ∀ m ∈ ms, if m.path = 0xFFF then s.inRegion m.endpoint hdr.2.2 = true
                             else (s.adit m.path).isLocal = true ∧ (s.adit m.path).region = hdr.2.2
     (s.mayWrite f collGrpCmd = false → exec (.grpCommit f) s = .next s) ∧
     (s.mayWrite f collGrpCmd = true → known → room → inside →
       exec (.grpCommit f) s = .next (s.setGroup g { valid := hdr.1 != 0, members := ms, rank := hdr.2.1, region := hdr.2.2, epoch := 0 })) ∧
     (s.mayWrite f collGrpCmd = true → known → room → ¬inside → exec (.grpCommit f) s = .next (s.refuse collLastRefuse rRegionViolation)) ∧
     (s.mayWrite f collGrpCmd = true → known → ¬room → exec (.grpCommit f) s = .next (s.refuse collLastRefuse rCapacity)) ∧
     (s.mayWrite f collGrpCmd = true → ¬known → exec (.grpCommit f) s = .next (s.refuse collLastRefuse rAbiMismatch))))

/-- R422 to R427, R478: PWR_REQ latches the last request from INIT onward; DOWN in READY begins DRAIN, with an ingress module's hold, and UP in
DRAIN returns at once; with UP latched and nothing holding it AUX becomes RAILS at step 1, each step that ends begins the next, step 12 waits for
the calibration and the REF assays, step 13 is READY, and DOWN during a step turns the sequence at its end; DRAIN ends when nothing is in flight or
at DRAIN_TIMEOUT, with every token in flight rolled back; and the last step down enters AUX, where no byte of a rail-fed memory and no open token is
left. That each command ends one step and begins the next (log entry 44) is the model's choice. -/
def Obligations.PowerSequencesRun : Prop :=
  (∀ (s : State) (f : Nat),
    (let x := s.endRemoval
     (s.pwrReqActs f = false ∨ s.hf.pwr = .ready → exec (.pwrReqUp f) s = .next s) ∧
     (s.pwrReqActs f = true → s.hf.pwr = .init ∨ s.hf.pwr = .cal ∨ (s.hf.pwr = .drain ∧ s.hf.downward = true) →
       exec (.pwrReqUp f) s = .next { x with hf := { x.hf with latched := 1 } }) ∧
     (s.pwrReqActs f = true → s.hf.pwr = .drain → s.hf.downward = false →
       exec (.pwrReqUp f) s = .next { x with hf := { x.hf with pwr := .ready, latched := 0 }, wnd := { x.wnd with drainHold := false } }) ∧
     (s.hf.rmvStep = 0 ∨ s.hf.rmvStep = 5 → x = s) ∧
     (s.hf.rmvStep ≠ 0 → s.hf.rmvStep ≠ 5 →
       x = { s with hf := { s.hf with rmvStep := 0, rmvCode := 0, rmvWait := [] }, edge := { s.edge with rmvRdy := false } }))) ∧
  (∀ (s : State) (f : Nat),
    (let x := s.abortSwap
     (s.pwrReqActs f = false → exec (.pwrReqDown f) s = .next s) ∧
     (s.pwrReqActs f = true → s.hf.pwr ≠ .ready → exec (.pwrReqDown f) s = .next { s with hf := { s.hf with latched := 2 } }) ∧
     (s.pwrReqActs f = true → s.hf.pwr = .ready →
       exec (.pwrReqDown f) s =
         .next { x with hf := { x.hf with pwr := .drain, latched := 2, drainSince := x.now }, wnd := { x.wnd with drainHold := x.isIngress } }) ∧
     (s.swap.phase = .idle → x = s))) ∧
  (∀ (s : State) (f : Nat), s.pwrReqActs f = true ↔
    s.mayWrite f pwrReq = true ∧ f = 0 ∧ (s.hf.pwr = .init ∨ s.hf.pwr = .cal ∨ s.hf.pwr = .ready ∨ s.hf.pwr = .drain)) ∧
  (∀ (s : State) (ok : Nat),
    (s.mayRise = true → exec (.powerUpSequence ok) s = .next { s with hf := { s.hf with step := 1, pwr := .rails } }) ∧
    (s.mayRise = false → s.hf.step = 0 ∨ s.hf.downward = true → exec (.powerUpSequence ok) s = .next s) ∧
    (∀ n, s.mayRise = false → s.hf.downward = false → s.hf.step = n → n ≠ 0 → n ≠ 12 → n ≠ 13 → s.hf.latched ≠ 2 →
      Gives (.powerUpSequence ok) s fun t =>
        t.hf.step = n + 1 ∧ t.hf.downward = false ∧ (n = 6 → t.hf.pwr = .init) ∧ (n = 11 → t.hf.pwr = .cal) ∧ (n = 5 → t.hf.vcore = 750) ∧
        (n = 9 → t.hf.trained = ok % 256 ∧ ∀ k, k < 8 → bitAt ok k = false → t.rd (stackPcFence k) = 0xFFFFFFFF ∧
          t.rd (stackPcFail k) = 0xFFFFFFFF) ∧
        (n = 8 → ∀ a, spBase 0 ≤ a → a < kvBase 0 0 → readByte t.mem a = unwritten)) ∧
    (∀ n, s.mayRise = false → s.hf.downward = false → s.hf.step = n → n ≠ 0 → n ≠ 13 → s.hf.latched = 2 →
      Gives (.powerUpSequence ok) s fun t => t.hf.downward = true ∧ t.hf.step = undoFrom n) ∧
    (let x := s.calProgress
     (s.mayRise = false → s.hf.downward = false → s.hf.step = 12 → s.hf.latched ≠ 2 →
       (x.calDone = false → exec (.powerUpSequence ok) s = .next x) ∧
       (x.calDone = true → exec (.powerUpSequence ok) s = .next { x with hf := { x.hf with step := 13 } })) ∧
     (s.hf.calGroup = 17 → bitAt s.hf.causes 9 = false →
       x.hf.calGroup = 18 ∧ (∀ i ∈ s.imageStopes, ∀ m, m < 74 → ∃ d ∈ x.tally.due, d.kind = 0 ∧ d.unit = unitMacro i m ∧ d.forced = true) ∧
       ∀ i ∈ s.imageStopes, i < 256 → ∀ c ∈ (x.fence (shellPage i)).causes, c.1 ≠ 3) ∧
     (s.hf.calGroup ≠ 17 ∨ bitAt s.hf.causes 9 = true → x = s)) ∧
    (s.mayRise = false → s.hf.downward = false → s.hf.step = 13 → s.hf.latched ≠ 2 →
      exec (.powerUpSequence ok) s =
        .next { s with hf := { s.hf with pwr := .ready, step := 0, latched := if s.hf.latched = 1 then 0 else s.hf.latched } }) ∧
    (s.mayRise = false → s.hf.downward = false → s.hf.step = 13 → s.hf.latched = 2 →
      Gives (.powerUpSequence ok) s fun t => t.hf.pwr = .drain ∧ t.hf.step = 0 ∧ t.hf.latched = 2 ∧ t.hf.drainSince = s.now)) ∧
  (∀ s : State,
    (let quiet := ∀ p ∈ s.wnd.streams, p.2.flying = none ∧ p.2.state ≠ .parking ∧ p.2.state ≠ .unparking
     let ended : Hf := { s.hf with step := 1, downward := true, rmvStep := if s.hf.rmvStep = 2 then 3 else s.hf.rmvStep }
     let late := s.hf.drainSince + fld (s.rd pwrDrainTimeout) 15 0 * 1000000 ≤ s.now
     (s.hf.pwr = .drain → s.hf.downward = false → quiet → exec .drainEnd s = .next { s with hf := ended }) ∧
     (s.hf.pwr ≠ .drain ∨ s.hf.downward = true ∨ ¬quiet → exec .drainEnd s = .next s) ∧
     (s.hf.pwr = .drain → s.hf.downward = false → late →
       Gives .drainTimeoutExpiry s fun t => t.hf = ended ∧ (∀ p ∈ s.wnd.streams, p.2 = s.stream p.1 → (t.stream p.1).flying = none)) ∧
     (s.hf.pwr ≠ .drain ∨ s.hf.downward = true ∨ ¬late → exec .drainTimeoutExpiry s = .next s))) ∧
  (∀ (s : State), s.hf.downward = false →
    (s.hf.rmvStep = 1 → s.rmvOpen = [] → s.hf.pwr = .ready → s.swap.phase = .idle →
      Gives .powerDownSequence s fun t =>
        t.hf = { s.hf with rmvStep := 2, rmvWait := [], pwr := .drain, latched := 2, drainSince := s.now }) ∧
    (s.hf.rmvStep = 1 → s.rmvOpen = [] → Gives .powerDownSequence s fun t => t.hf.rmvStep = 2 ∧ t.hf.rmvWait = []) ∧
    (s.hf.rmvStep ≠ 1 ∨ s.rmvOpen ≠ [] → exec .powerDownSequence s = .next s)) ∧
  (∀ (s : State) (n : Nat), s.hf.downward = true → s.hf.step = n → n < 10 →
    Gives .powerDownSequence s fun t =>
      t.hf.step = n + 1 ∧ t.hf.downward = true ∧ (n = 3 → t.hf.selfRefresh = true) ∧ (n = 6 → t.hf.vcore = 0) ∧ (n = 5 → t.hf.pwr = .rails) ∧
      (n = 1 → (∀ i, i < 256 → (3, 15) ∈ (t.fence (shellPage i)).causes) ∧ ∀ p, p < 24 → (3, 15) ∈ (t.fence (peligPage p)).causes) ∧
      (n = 4 → t.tally.dirty = [] ∧ t.tally.copy0.entries = s.tally.entries ∧ t.tally.copy1.entries = s.tally.entries)) ∧
  (∀ (s : State), s.hf.downward = true → s.hf.step = 10 →
    Gives .powerDownSequence s fun t =>
      t.hf.pwr = .aux ∧ t.hf.step = 0 ∧ t.hf.downward = false ∧ t.hf.vcore = 0 ∧ t.edge.link = 0 ∧
      (∀ c ∈ t.mem, volatileAt c.1 = false) ∧ (s.swap.phase = .idle → ∀ c ∈ s.mem, volatileAt c.1 = false → c ∈ t.mem) ∧
      (∀ p ∈ t.wnd.streams, p.2.state = .parked) ∧ t.wnd.ready = [] ∧ t.fab.hold = [] ∧ t.fab.colls = [] ∧
      (s.hf.rmvStep = 3 → t.hf.rmvStep = 4 ∧ t.edge.rmvRdy = true ∧ t.edge.bypass = 0)) ∧
  (∀ (s : State), s.hf.downward = true → 10 < s.hf.step → exec .powerDownSequence s = .next s)

/-- R419 to R421, R436: a busbar loss writes the tally's pending changes and turns the module off; a brownout counts, drops the module to
AUX without DRAIN and holds UP until the busbar is stable; a phase fault is kept and recorded, lowers L_eff by 25 W, and with its pair's
other stage takes the rail down; a trip drops the module to AUX, latched and counted, and holds UP until its comparator re-arms. -/
def Obligations.SuppliesDropTheModule : Prop :=
  (∀ s : State,
    (s.hf.pwr = .off → exec .busbarLoss s = .next s) ∧
    (s.hf.pwr ≠ .off →
      Gives .busbarLoss s fun t =>
        t.hf.pwr = .off ∧ t.tally.copy0.entries = s.tally.entries ∧ t.tally.copy1.entries = s.tally.entries ∧
        t.tally.copy0.seq = max s.tally.copy0.seq s.tally.copy1.seq + 1 ∧ t.tally.copy1.seq = t.tally.copy0.seq ∧ t.pending = s.pending ∧
        t.now = s.now ∧ t.rd thTripCount = s.rd thTripCount ∧ t.rd pwrBrownoutCount = s.rd pwrBrownoutCount)) ∧
  (∀ (s : State) (mv : Nat),
    (s.hf.pwr = .off ∨ (46000 ≤ mv ∧ mv ≤ 62000) → exec (.brownout mv) s = .next s) ∧
    (s.hf.pwr ≠ .off → mv < 46000 ∨ 62000 < mv →
      Gives (.brownout mv) s fun t =>
        t.hf.pwr = .aux ∧ t.hf.busHold = true ∧ t.rd pwrBrownoutCount = s.rd pwrBrownoutCount + 1 ∧
        t.rd pwrBusMv = BitVec.ofNat 32 (mv % 0x10000) ∧ t.mayRise = false)) ∧
  (∀ (s : State) (mv : Nat),
    (s.hf.pwr = .off ∨ mv < 48000 ∨ 60000 < mv → exec (.busbarStable mv) s = .next s) ∧
    (s.hf.pwr ≠ .off → 48000 ≤ mv → mv ≤ 60000 →
      exec (.busbarStable mv) s = .next { (s.wr pwrBusMv (BitVec.ofNat 32 mv)) with hf := { s.hf with busHold := false } })) ∧
  (∀ (s : State) (p : Nat),
    (32 ≤ p ∨ p ∈ s.hf.failedPhases → exec (.phaseFault p) s = .next s) ∧
    (p < 32 → p ∉ s.hf.failedPhases → p < 24 ∨ pairPhase p ∉ s.hf.failedPhases ∨ s.hf.pwr = .off ∨ s.hf.pwr = .aux →
      Gives (.phaseFault p) s fun t =>
        t.hf.failedPhases = s.hf.failedPhases ++ [p] ∧ t.hf.pwr = s.hf.pwr ∧
        (s.tally.log.length < logCap → Logged s t causePhaseFail (unitPhase p)) ∧
        (s.tallyEntry (unitPhase p) = none → s.tally.entries.length < tallyCap →
          ∃ e, t.tallyEntry (unitPhase p) = some e ∧ e.cause = causePhaseFail) ∧
        (s.hf.failedPhases = [] → p < 24 → t.leff = min (fld (s.rd pwrLimit) 15 0) 775) ∧ t.wnd.streams = s.wnd.streams) ∧
    (24 ≤ p → p < 32 → p ∉ s.hf.failedPhases → pairPhase p ∈ s.hf.failedPhases → s.hf.pwr ≠ .off → s.hf.pwr ≠ .aux →
      Gives (.phaseFault p) s fun t => t.hf.pwr = .aux ∧ t.rd pwrBrownoutCount = s.rd pwrBrownoutCount + 1)) ∧
  (∀ (s : State) (c : Nat),
    (let ts := if s.hf.tripped.contains c then s.hf.tripped else s.hf.tripped ++ [c]
     (12 ≤ c ∨ s.hf.pwr = .off → exec (.thermalTrip c) s = .next s) ∧
     (c < 12 → s.hf.pwr = .aux → exec (.thermalTrip c) s = .next { s with hf := { s.hf with tripped := ts } }) ∧
     (c < 12 → s.hf.pwr ≠ .off → s.hf.pwr ≠ .aux →
       Gives (.thermalTrip c) s fun t =>
         t.hf.pwr = .aux ∧ t.hf.tripped = ts ∧ c ∈ t.hf.tripped ∧ bit (t.rd thStatus) 2 = true ∧ t.rd thTripCount = s.rd thTripCount + 1 ∧
         (s.swap.phase = .idle → s.tally.log.length < logCap → Logged s t causeThermalTrip 0) ∧ t.mayRise = false) ∧
     exec (.tripRearm c) s = .next { s with hf := { s.hf with tripped := s.hf.tripped.filter fun x => x != c } }))

/-- R431 to R435, R437 to R440: every 100 µs an update gives every node a temperature not below the model's nor a healthy sensor's at it, and every
sensor its reading; a broken sensor rejoins after 60 s; REFIT clamps its factor; a threshold asserts and deasserts after 10 ms; T_WARN is counted and
reported, T_THROTTLE and 10 ms above L_eff open an episode with its REQUEST, or join the one that is open; GRACE enforces it or not; each 10 ms mark
above TARGET holds one more level; and with every cause ended it is over, and its levels are released highest first, one each 10 ms. -/
def Obligations.TemperaturesThrottle : Prop :=
  (∀ (s : State) (model power sensors : List Int) (inlet : Int),
    (s.perDue perThermal = false → exec (.thermalUpdate model power sensors inlet) s = .next s) ∧
    (s.perDue perThermal = true →
      Gives (.thermalUpdate model power sensors inlet) s fun t =>
        t.hf.inlet = inlet ∧ (∀ n, n < 40 → (t.sensor n).reading = sensors.getD n 0) ∧
        (∀ n, n < 280 → ∃ temp, t.node n = (s.node n).update n temp (power.getD n 0).toNat s.now ∧ model.getD n 0 ≤ temp ∧
          (∀ k, k < 40 → sensorNode k = n → (t.sensor k).broken = false → sensors.getD k 0 ≤ temp) ∧
          ((∀ k, k < 40 → sensorNode k ≠ n) → temp = model.getD n 0)))) ∧
  (∀ (s : State) (n : Nat),
    (let due := (s.sensor n).broken = true ∧ s.isPermanent (unitSensor n) = false ∧ (s.sensor n).goodSince + 60000000000 ≤ s.now
     (due → exec (.sensorRejoin n) s = .next (s.setSensor n { s.sensor n with broken := false, badSince := none })) ∧
     (¬due → exec (.sensorRejoin n) s = .next s))) ∧
  (∀ (s : State) (f : Nat),
    (s.mayWrite f thCtrl = true →
      Gives (.refit f) s fun t =>
        t.hf.refitFactor = max 11469 (min 32768 (Config.refitFactor s.freeCtr)) ∧ t.freeCtr = s.freeCtr + 1 ∧
        t.hf.refitClamp = (Config.refitFactor s.freeCtr != t.hf.refitFactor) ∧ t.rd thRefitCount = s.rd thRefitCount + 1) ∧
    (s.mayWrite f thCtrl = false → exec (.refit f) s = .next s)) ∧
  (∀ (s : State) (node which red : Nat),
    (let x := s.node node
     let risen := (∃ since, x.above.getD which none = some since ∧ since + 10000000 ≤ s.now) ∧ x.asserted.getD which false = false
     let fallen := (∃ since, x.below.getD which none = some since ∧ since + 10000000 ≤ s.now) ∧ x.asserted.getD which false = true
     let request (target : Nat) : Record :=
       { typ := 4, flags := 0, code := 0, stream := 0xFFFFF, time := s.now, tag := 0,
         data := BitVec.ofNat 64 (min 0xFFFF red + fld (s.rd thCtrl) 10 0 * 0x10000 + min 0xFFFF target * 0x100000000 + node * 0x1000000000000) }
     (risen →
       Gives (.thresholdAssert node which red) s fun t =>
         t.node node = { x with asserted := setAt x.asserted which (fun _ => true) } ∧ (∀ m, m ≠ node → t.node m = s.node m) ∧
         (which = 0 → t.rd thWarnCount = s.rd thWarnCount + 1 ∧ (s.tally.log.length < logCap → Logged s t causeThermalWarn 0) ∧
           t.hf.episode = s.hf.episode) ∧
         (which = 1 → s.hf.episode = none →
           t.hf.episode = some { nodes := [node], power := false, target := s.hf.moduleW - red, reduction := red, start := s.now,
                                 graceOver := false, enforced := false, lastMark := s.now, belowSince := none } ∧
           t.rd thThrottleCount = s.rd thThrottleCount + 1 ∧ Posted s t (fld (s.rd ringModEvr) 5 0) (request (s.hf.moduleW - red))) ∧
         (∀ e, which = 1 → s.hf.episode = some e →
           t.hf.episode = some { e with nodes := e.nodes ++ [node], target := min e.target (s.hf.moduleW - red), reduction := red } ∧
           t.rd thThrottleCount = s.rd thThrottleCount ∧
           Posted s t (fld (s.rd ringModEvr) 5 0) (request (min e.target (s.hf.moduleW - red)))) ∧
         (2 ≤ which → t.hf.episode = s.hf.episode ∧ t.regs = s.regs ∧ t.tally = s.tally)) ∧
     (¬risen → exec (.thresholdAssert node which red) s = .next s) ∧
     (fallen →
       Gives (.thresholdDeassert node which) s fun t =>
         t.node node = { x with asserted := setAt x.asserted which (fun _ => false) } ∧
         (∀ m, m ≠ node → t.node m = s.node m) ∧ (which ≠ 1 → t.hf.episode = s.hf.episode) ∧
         (∀ e, which = 1 → s.hf.episode = some e → ∃ y, t.hf.episode = some y ∧ node ∉ y.nodes ∧ (∀ m ∈ e.nodes, m ≠ node → m ∈ y.nodes) ∧
           y = { e with nodes := y.nodes }) ∧ t.regs = s.regs) ∧
     (¬fallen → exec (.thresholdDeassert node which) s = .next s))) ∧
  (∀ s : State,
    (let above := (∃ since, s.hf.overSince = some since ∧ since + 10000000 ≤ s.now) ∧ (s.hf.episode.map (·.power)).getD false = false
     let target := min s.hf.moduleW (97 * s.leff / 100)
     (¬above → exec .powerOverLimit s = .next s) ∧
     (above → s.hf.episode = none →
       Gives .powerOverLimit s fun t =>
         (∃ e, t.hf.episode = some e ∧ e.power = true ∧ e.nodes = [] ∧ e.target = target ∧ e.start = s.now ∧ e.enforced = false) ∧
         t.rd thThrottleCount = s.rd thThrottleCount + 1) ∧
     (∀ e, above → s.hf.episode = some e →
       Gives .powerOverLimit s fun t =>
         t.hf.episode = some { e with power := true, target := min e.target target, reduction := s.hf.moduleW - 97 * s.leff / 100,
                                      belowSince := none } ∧ t.rd thThrottleCount = s.rd thThrottleCount))) ∧
  (∀ s : State, s.hf.episode = none → ∀ i ∈ [Instr.graceExpiry, .throttleMark, .throttleEnd], exec i s = .next s) ∧
  (∀ (s : State) (e : Episode), s.hf.episode = some e →
    (let due := e.graceOver = false ∧ e.start + fld (s.rd thCtrl) 10 0 * 1000000 ≤ s.now
     (due → e.target < s.hf.moduleW →
       Gives .graceExpiry s fun t =>
         t.hf.episode = some { e with graceOver := true, enforced := true, lastMark := s.now } ∧
         (s.tally.log.length < logCap → Logged s t causeThrottleEnforced 0) ∧ (∀ w, t.capped w ≤ e.target)) ∧
     (due → s.hf.moduleW ≤ e.target →
       exec .graceExpiry s = .next { s with hf := { s.hf with episode := some { e with graceOver := true } } }) ∧
     (¬due → exec .graceExpiry s = .next s)) ∧
    (let due := e.enforced = true ∧ e.lastMark + 10000000 ≤ s.now
     let marked : State := { s with hf := { s.hf with episode := some { e with lastMark := s.now } } }
     (∀ l, due → e.target < s.hf.moduleW → s.nextLevel = some l →
       Gives .throttleMark s fun t =>
         t.wnd.heldLevels = s.wnd.heldLevels ++ [l] ∧ l ≠ 0 ∧ l ∉ s.wnd.heldLevels ∧ t.hf.episode = some { e with lastMark := s.now } ∧
         { t with hf := s.hf, wnd := { t.wnd with heldLevels := s.wnd.heldLevels } } = s) ∧
     (due → s.hf.moduleW ≤ e.target ∨ s.nextLevel = none → exec .throttleMark s = .next marked) ∧
     (¬due → exec .throttleMark s = .next s)) ∧
    (let past := ∃ since, e.belowSince = some since ∧ since + 10000000 ≤ s.now
     (e.nodes = [] → e.power = false ∨ past →
       Gives .throttleEnd s fun t =>
         t.hf.episode = none ∧ t.hf.releasing = true ∧ t.pcap = s.hf.capShed ∧ t.wnd.heldLevels = s.wnd.heldLevels ∧ t.regs = s.regs) ∧
     (e.nodes ≠ [] ∨ (e.power = true ∧ ¬past) → exec .throttleEnd s = .next s))) ∧
  (∀ s : State,
    (let due := s.hf.releasing = true ∧ s.perDue perRelease = true
     (¬due → exec .throttleReleaseStep s = .next s) ∧
     (due → s.wnd.heldLevels = [] → exec .throttleReleaseStep s = .next { s with hf := { s.hf with releasing := false } }) ∧
     (∀ l, due → l ∈ s.wnd.heldLevels → (∀ x ∈ s.wnd.heldLevels, l ≤ x) →
       Gives .throttleReleaseStep s fun t =>
         l ∉ t.wnd.heldLevels ∧ (∀ x ∈ s.wnd.heldLevels, x ≠ l → x ∈ t.wnd.heldLevels) ∧ t.perDue perRelease = false ∧
         { t with hf := { t.hf with releasing := s.hf.releasing, marks := s.hf.marks }, wnd := { t.wnd with heldLevels := s.wnd.heldLevels } } = s)))

/-- R421, R428, R429, R441, R443 to R445, R448: every 10 µs VCORE moves by at most 5 mV, toward the policy's target, which lies at or above the
plan's floor; PERF steps that target by the share of held windows every 10 ms; a window's end grants min(L_eff, P_th, P_cap) less the static power
and the deficit, never below 0, with no carry-over, and draws 35 µJ for each warm buffer; every 100 ms Pg is published when it moved by more than
2 %, and at once when PWR_LIMIT lowers L_eff. -/
def Obligations.EnergyIsBudgeted : Prop :=
  (∀ s : State,
    (s.hf.vcore = 0 ∨ s.perDue perVcore = false → exec .vcoreStep s = .next s) ∧
    (s.hf.vcore ≠ 0 → s.perDue perVcore = true →
      Gives .vcoreStep s fun t =>
        t.hf.vcore ≤ s.hf.vcore + 5 ∧ s.hf.vcore ≤ t.hf.vcore + 5 ∧
        (s.hf.vcore = cdiv s.vtarget 5 * 5 → t.hf.vcore = s.hf.vcore) ∧
        (s.hf.vcore < cdiv s.vtarget 5 * 5 → s.hf.vcore < t.hf.vcore ∧ t.hf.vcore ≤ cdiv s.vtarget 5 * 5) ∧
        s.hf.plan.vcoreFloor ≤ s.vtarget ∧ t.perDue perVcore = false ∧
        { t with hf := { t.hf with vcore := s.hf.vcore, marks := s.hf.marks } } = s)) ∧
  (∀ s : State,
    (let due := fld (s.rd pwrVcoreCtrl) 1 0 = 0 ∧ s.perDue perPolicy = true
     let held := (s.hf.heldWindows.filter id).length
     let aim (v : Nat) : State := { s.perMark perPolicy.1 with hf := { (s.perMark perPolicy.1).hf with vcoreTarget := v } }
     (¬due → exec .vcorePolicyTick s = .next s) ∧
     (due → 10 < held → exec .vcorePolicyTick s = .next (aim (s.vclamp (s.vtarget - 5)))) ∧
     (due → (∀ w ∈ s.hf.heldWindows, w = false) → exec .vcorePolicyTick s = .next (aim (s.vclamp (s.vtarget + 5)))) ∧
     (due → 1 ≤ held → held ≤ 10 → exec .vcorePolicyTick s = .next (aim s.vtarget)))) ∧
  (∀ (s : State) (measured : List Nat) (w st pth : Nat),
    (s.windowDue = false → exec (.energyWindow measured w st pth) s = .next s) ∧
    (s.windowDue = true →
      Gives (.energyWindow measured w st pth) s fun t =>
        t.hf.quantum = (t.capped (min s.leff pth) - st) * 1000 - t.hf.deficit ∧
        t.hf.deficit = min s.hf.quantum (ratCeil (s.hf.spent - ((s.hf.quantum : Nat) : Rat))) ∧
        t.hf.spent = standingCost * ((s.warmBuffers : Nat) : Rat) ∧ t.hf.moduleW = w ∧ t.hf.staticW = st ∧ t.hf.pth = pth ∧
        t.wnd.energyHold = false ∧ t.hf.heldThis = false ∧ (∀ c ∈ t.hf.corr, c ∈ s.hf.corr ∨ c = 0x4000 ∨ 0x2000 ≤ c ∧ c ≤ 0x8000) ∧
        t.rd64 pwrEnergyMjLo = (s.rd64 pwrEnergyMjLo + w) % 2 ^ 64 ∧ t.windowDue = false ∧
        (∀ e, s.hf.episode = some e → e.graceOver = true → e.enforced = false → e.target < w →
          ∃ x, t.hf.episode = some x ∧ x.enforced = true ∧ x.target = e.target) ∧
        (s.hf.episode = none →
          RegsKept s t [pwrEnergyMjLo, pwrEnergyMjLo + 4] ∧
          { t with regs := s.regs, hf := s.hf, wnd := { t.wnd with energyHold := s.wnd.energyHold } } = s))) ∧
  (∀ s : State,
    (let old := fld (s.rd hfPgW) 15 0
     let moved := 2 * old < 100 * ((s.pg : Int) - old).natAbs
     (s.perDue perPg = false → exec .pgRecompute s = .next s) ∧
     (s.perDue perPg = true → ¬moved → exec .pgRecompute s = .next (s.perMark perPg.1)) ∧
     (s.perDue perPg = true → moved → Gives .pgRecompute s fun t => t.rd hfPgW = BitVec.ofNat 32 s.pg ∧ t.perDue perPg = false) ∧
     (s.perDue perPg = true → moved → s.isIngress = false →
       exec .pgRecompute s = .next ((s.perMark perPg.1).wr hfPgW (BitVec.ofNat 32 s.pg))))) ∧
  (∀ (s : State) (f : Nat) (v : Word),
    (let x := s.storeReg f pwrLimit v
     (s.mayWrite f pwrLimit = false → exec (.pwrLimitWrite f v) s = .next s) ∧
     (s.mayWrite f pwrLimit = true → s.leff ≤ x.leff → exec (.pwrLimitWrite f v) s = .next x) ∧
     (s.mayWrite f pwrLimit = true → x.leff < s.leff →
       (Gives (.pwrLimitWrite f v) s fun t => t.rd hfPgW = BitVec.ofNat 32 x.pg ∧ t.rd pwrLimit = x.rd pwrLimit) ∧
       (s.isIngress = false → exec (.pwrLimitWrite f v) s = .next (x.wr hfPgW (BitVec.ofNat 32 x.pg)))) ∧
     (400 ≤ v.toNat → v.toNat ≤ 800 → fld (x.rd pwrLimit) 15 0 = v.toNat ∧ RegsKept s x [pwrLimit] ∧ { x with regs := s.regs } = s) ∧
     (fld v 15 0 < 400 ∨ 800 < fld v 15 0 → fld (x.rd pwrLimit) 15 0 = fld (s.rd pwrLimit) 15 0)))

/-- R450, R453, R458, R459, R476, R478, R479: an FLR takes the function's ABI selection and resets its rings; a reset of the physical function does
it to all and clears the MSI-X tables; a module reset is a counted fall to AUX that keeps the tally's copies and the install records; D3hot
stops the function's DMA; NEGOTIATE settles version 1, or is refused; a prepare for removal is refused outside READY, with FORCE latches
DOWN, without it parks the open streams first; and CANCEL ends it. A virtual function's writes do none of it. -/
def Obligations.ResetsAndRemovalAct : Prop :=
  (∀ (s : State) (f : Nat),
    (1 ≤ f → f ≤ 16 →
      Gives (.vfFlr f) s fun t =>
        (t.fn f).abiSel = 0 ∧ (∀ g, g ≠ f → t.fn g = s.fn g) ∧ (t.fn f).msix = (s.fn f).msix ∧
        (∀ i x, (i, x) ∈ s.wnd.evrs → s.evr i = x → x.fn = f →
          (t.evr i).held = [] ∧ (t.evr i).tail = 0 ∧ (t.evr i).phase = true ∧ (t.evr i).en = false) ∧
        (∀ i, (∀ x, (i, x) ∈ s.wnd.evrs → x.fn ≠ f) → t.evr i = s.evr i) ∧ t.hf = s.hf ∧ t.mem = s.mem ∧ t.tally = s.tally ∧ t.kv = s.kv ∧ t.now = s.now) ∧
    (f = 0 ∨ 16 < f → exec (.vfFlr f) s = .next s)) ∧
  (∀ s : State,
    Gives .pfReset s fun t =>
      (∀ f, f < 17 → (t.fn f).abiSel = 0 ∧ (t.fn f).msix = []) ∧ t.hf = s.hf ∧ t.mem = s.mem ∧ t.tally = s.tally ∧ t.kv = s.kv ∧
      t.swap = s.swap ∧ t.now = s.now) ∧
  (∀ s : State,
    (s.hf.pwr = .off → exec .moduleReset s = .next s) ∧
    (s.hf.pwr ≠ .off →
      Gives .moduleReset s fun t =>
        t.hf.pwr = .aux ∧ t.rd pwrBrownoutCount = s.rd pwrBrownoutCount + 1 ∧ t.tally.copy0.entries = s.tally.copy0.entries ∧
        t.tally.copy1.entries = s.tally.copy1.entries ∧
        (s.swap.phase = .idle → t.swap.bankA = s.swap.bankA ∧ t.swap.bankB = s.swap.bankB ∧ t.swap.slots = s.swap.slots) ∧
        t.now = s.now ∧ t.edge.bypass = 0 ∧ t.edge.devId = s.edge.devId ∧ t.wnd.streams = [] ∧ (∀ c ∈ t.mem, volatileAt c.1 = false))) ∧
  (∀ (s : State) (f : Nat),
    (exec (.d3hot f) s = .next (s.updFn f fun t => { t with d3 := true })) ∧ (exec (.d0 f) s = .next (s.updFn f fun t => { t with d3 := false })) ∧
    (∀ t, exec (.d3hot f) s = .next t → t.dmaOn f = false)) ∧
  (∀ (s : State) (f : Nat),
    (s.mayWrite f devAbiCtrl = false → exec (.negotiate f) s = .next s) ∧
    (s.mayWrite f devAbiCtrl = true →
      (s.fnStreams f = true → exec (.negotiate f) s = .next (s.setFn f { s.fn f with refuse := rCapacity })) ∧
      (s.fnStreams f = false → fld (s.fn f).abiHost 7 0 ≤ 1 → 1 ≤ fld (s.fn f).abiHost 15 8 →
        exec (.negotiate f) s = .next (s.setFn f { s.fn f with abiSel := 1 })) ∧
      (s.fnStreams f = false → 1 < fld (s.fn f).abiHost 7 0 ∨ fld (s.fn f).abiHost 15 8 = 0 →
        exec (.negotiate f) s = .next (s.setFn f { s.fn f with abiSel := 0, refuse := rAbiMismatch })))) ∧
  (∀ (s : State) (f : Nat), f ≠ 0 ∨ s.mayWrite f devRmvCtrl = false →
    ∀ i ∈ [Instr.rmvPrep f, .rmvPrepForce f, .rmvCancel f], exec i s = .next s) ∧
  (∀ (s : State) (i : Instr), i ∈ [Instr.rmvPrep 0, .attnButton, .rmvPrepForce 0] → i = .attnButton ∨ s.mayWrite 0 devRmvCtrl = true →
    (let free := s.hf.pwr = .ready ∧ (s.hf.rmvStep = 0 ∨ 5 ≤ s.hf.rmvStep)
     let force := i = .rmvPrepForce 0
     (¬free → exec i s = .next { s with hf := { s.hf with rmvCode := rCapacity } }) ∧
     (free → ¬force → s.storeValid = false → exec i s = .next { s with hf := { s.hf with rmvCode := rCapacity } }) ∧
     (free → force → Gives i s fun t => t.hf.rmvStep = 2 ∧ t.hf.pwr = .drain ∧ t.hf.latched = 2 ∧ t.hf.rmvCode = 0) ∧
     (free → force → s.swap.phase = .idle →
       Gives i s fun t =>
         t.hf = { s.hf with rmvStep := 2, rmvCode := 0, rmvWait := [], pwr := .drain, latched := 2, drainSince := s.now } ∧
         { t with hf := s.hf, wnd := { t.wnd with drainHold := s.wnd.drainHold } } = s) ∧
     (free → ¬force → s.storeValid = true → s.openStreams = [] → Gives i s fun t => t.hf.rmvStep = 2 ∧ t.hf.pwr = .drain ∧ t.hf.rmvCode = 0) ∧
     (free → ¬force → s.storeValid = true → s.isIngress = false → (∃ x ∈ s.openStreams, (s.stream x).state ≠ .free ∧ (s.stream x).state ≠ .parked) →
       exec i s = .next { s with hf := { s.hf with rmvStep := 1, rmvCode := 0, rmvWait := s.openStreams } }) ∧
     (free → ¬force → s.storeValid = true → s.isIngress = true →
       Gives i s fun t =>
         1 ≤ t.hf.rmvStep ∧
         ∀ x ∈ s.openStreams, (s.stream x).state ∈ [StreamState.idle, .active, .paused] → (s.stream x).flying.isSome = true →
           (t.stream x).wantPark = some ((s.stream x).wantPark.getD (2, 0))))) ∧
  (∀ (s : State), s.mayWrite 0 devRmvCtrl = true →
    (1 ≤ s.hf.rmvStep → s.hf.rmvStep ≤ 4 →
      Gives (.rmvCancel 0) s fun t =>
        t.hf.rmvStep = 0 ∧ t.hf.rmvWait = [] ∧ t.edge.rmvRdy = false ∧ (s.hf.pwr = .aux → t.hf.latched = 1) ∧
        (s.hf.pwr = .drain → s.hf.downward = false → t.hf.pwr = .ready)) ∧
    (s.hf.rmvStep = 0 ∨ 5 ≤ s.hf.rmvStep → exec (.rmvCancel 0) s = .next s))

/-- R405, R423, R462 to R468, R473, R478: a message on the wire reads back as it was; a frame for another module leaves the other port with TTL less
1; a copy already heard does nothing more, nor does a frame for another; a command from any source but the rack controller is discarded and counted;
the rack controller's POWER, REG, REMOVE and LOG PULL act and are answered; ACK ends the wait of its alarm frames, lets waiting alarms go, and an
unacknowledged one goes again every 2 ms; HELLO goes every 100 ms, and a changed neighbour raises RING_BYPASS. That a SEQ far below starts a source
anew (log entry 50), the layout of HELLO (log entry 51) and that the neighbour replaced is gone from the ring (log entry 164) are the model's. -/
def Obligations.RingFramesActOnce : Prop :=
  (∀ m : RingMsg, m.ver < 256 → m.cls < 256 → m.typ < 0x10000 → m.src < 0x100000 → m.dst < 0x100000 → m.seq < 2 ^ 32 → m.time < 2 ^ 64 →
    m.ttl < 256 → m.payload.length ≤ 1468 → ringMsgOf m.port (ringBytes m) = m) ∧
  (∀ (s : State) (m : RingMsg),
    (s.forwards m = true →
      s.ringForward m = { s with edge := { s.edge with tx := s.edge.tx ++
        [{ port := 1 - m.port, msg := { m with port := 1 - m.port, ttl := m.ttl - 1 } }] } }) ∧
    (s.forwards m = false → s.ringForward m = s) ∧
    (s.forwards m = true ↔ s.edge.bypass = 3 ∧ m.src ≠ s.edge.devId ∧ 2 ≤ m.ttl ∧ m.dst ≠ s.edge.devId)) ∧
  (∀ (s : State) (m : RingMsg),
    (let passed := s.ringForward m
     let h := hear (Table.get (0, 0) s.edge.seen m.src) m.seq
     let heard : State := { passed with edge := { passed.edge with seen := Table.set (0, 0) s.edge.seen m.src h.2 } }
     let on := s.hf.pwr ≠ .off
     let mine := m.dst = s.edge.devId ∨ m.dst = 0xFFFFF
     let ruled := m.src = rackController ∧ (m.cls = 6 ∨ m.dst ≠ 0xFFFFF)
     let commands := m.cls = 6 ∨ m.cls = 7 ∨ m.cls = 8 ∨ (m.cls = 4 ∧ m.typ = 1)
     (∀ c k i, (c, k, i) ∈ [(6, 1, Instr.powerUpMsg m), (6, 2, .powerDownMsg m), (6, 3, .powerResetMsg m),
         (6, 4, .powerStatusMsg m), (7, 1, .regRead m), (7, 2, .regWrite m), (8, 1, .removePrep m), (8, 2, .removePrepForce m),
         (8, 3, .removeCancel m), (8, 4, .removeStatus m), (4, 1, .logPull m)] →
       (m.cls = c → m.typ = k → exec i s = exec (.ringFrameForward m) s) ∧ (m.cls ≠ c ∨ m.typ ≠ k → exec i s = .next s)) ∧
     (m.cls = 1 → exec (.hello m) s = exec (.ringFrameForward m) s) ∧ (m.cls ≠ 1 → exec (.hello m) s = .next s) ∧
     (m.cls = 2 → exec (.ack m) s = exec (.ringFrameForward m) s) ∧ (m.cls ≠ 2 → exec (.ack m) s = .next s) ∧
     (¬on → exec (.ringFrameForward m) s = .next s) ∧
     (on → m.src = s.edge.devId → exec (.ringFrameForward m) s = .next passed) ∧
     (on → m.src ≠ s.edge.devId → h.1 = false ∨ (m.cls ≠ 1 ∧ ¬mine) → exec (.ringFrameForward m) s = .next heard) ∧
     (on → m.src ≠ s.edge.devId → h.1 = true → m.cls ≠ 1 → mine → s.edge.ringVer ≠ 1 ∨ (commands ∧ ¬ruled) →
       exec (.ringFrameForward m) s = .next (heard.inc devRingDiscardCount 1)) ∧
     (on → m.src ≠ s.edge.devId → h.1 = true → mine → s.edge.ringVer = 1 → commands → ruled →
       exec (.ringFrameForward m) s = .next (heard.obey m)) ∧
     (on → m.src ≠ s.edge.devId → h.1 = true → mine → s.edge.ringVer = 1 → m.cls ≠ 1 → m.cls ≠ 2 → ¬commands →
       exec (.ringFrameForward m) s = .next heard) ∧
     (on → m.src ≠ s.edge.devId → h.1 = true → mine → s.edge.ringVer = 1 → m.cls = 2 →
       (let left := s.edge.alarms.filter fun a => !(((chunks 4 m.payload).map ofBe).contains a.2.seq)
        Gives (.ack m) s fun t =>
          ∃ more, t.edge.alarms = left ++ more ∧ left.length + more.length ≤ s.edge.alarms.length ∧
            (left.length < s.edge.alarms.length → s.ringOn = true → left.length < 64 → s.edge.alarmWait ≠ [] → more ≠ []) ∧
            (s.edge.alarmWait = [] → more = [] ∧ t.edge.tx = passed.edge.tx) ∧ { t with edge := s.edge } = s)))) ∧
  (∀ (h seq : Nat) (bm : Nat), 0 < h → bm < 2 ^ 64 →
    (seq + 1 = h → (hear (h, bm) seq).1 = false) ∧ (h ≤ seq → (hear (h, bm) seq) = (true, seq + 1, ((bm * 2 + 1) * 2 ^ (seq - h)) % 2 ^ 64)) ∧
    (seq + 1 < h → h ≤ seq + 65 → (hear (h, bm) seq).1 = !(bitAt bm (h - 2 - seq)))) ∧
  (∀ (s : State) (m : RingMsg), s.hf.pwr ≠ .off → m.src ≠ s.edge.devId → m.dst = s.edge.devId →
    (hear (Table.get (0, 0) s.edge.seen m.src) m.seq).1 = true → s.edge.ringVer = 1 →
    (let heard : State := { s with edge := { s.edge with
       seen := Table.set (0, 0) s.edge.seen m.src (hear (Table.get (0, 0) s.edge.seen m.src) m.seq).2 } }
     let sent (cls typ : Nat) (p : List Byte) : List RingOut :=
       [{ port := 0, msg := s.ringMsg cls typ m.src false p }, { port := 1, msg := { s.ringMsg cls typ m.src false p with port := 1 } }]
     (m.src ≠ rackController → ∀ i c t, (c, t, i) ∈ [(6, 1, Instr.powerUpMsg m), (6, 2, .powerDownMsg m), (6, 3, .powerResetMsg m),
         (6, 4, .powerStatusMsg m), (7, 1, .regRead m), (7, 2, .regWrite m), (8, 1, .removePrep m), (8, 2, .removePrepForce m),
         (8, 3, .removeCancel m), (8, 4, .removeStatus m), (4, 1, .logPull m)] → m.cls = c → m.typ = t →
       exec i s = .next (heard.inc devRingDiscardCount 1)) ∧
     (m.src = rackController →
       (m.cls = 6 → m.typ = 1 → s.hf.pwr = .aux → s.hf.rmvStep = 0 →
         exec (.powerUpMsg m) s = .next { heard with hf := { s.hf with latched := 1 } }) ∧
       (m.cls = 6 → m.typ = 2 → s.hf.pwr = .ready → s.swap.phase = .idle →
         Gives (.powerDownMsg m) s fun t =>
           t.hf = { s.hf with pwr := .drain, latched := 2, drainSince := s.now } ∧
           { t with hf := s.hf, wnd := { t.wnd with drainHold := s.wnd.drainHold } } = heard) ∧
       (m.cls = 6 → m.typ = 3 → s.swap.phase = .idle →
         Gives (.powerResetMsg m) s fun t =>
           t.hf.pwr = .aux ∧ t.rd pwrBrownoutCount = s.rd pwrBrownoutCount + 1 ∧ t.tally.copy0.entries = s.tally.copy0.entries) ∧
       (m.cls = 6 → m.typ = 4 → s.edge.bypass = 3 →
         Gives (.powerStatusMsg m) s fun t =>
           t.edge.tx = s.edge.tx ++ sent 6 4 (beBytes 4 (s.view 0 pwrStatus).toNat) ∧ t.edge.txSeq = (s.edge.txSeq + 1) % 2 ^ 32 ∧
           { t with edge := s.edge } = s) ∧
       (m.cls = 8 → m.typ = 4 → s.edge.bypass = 3 →
         Gives (.removeStatus m) s fun t =>
           t.edge.tx = s.edge.tx ++ sent 8 4 (beBytes 4 (s.hf.rmvStep + s.hf.rmvCode * 0x10000)) ∧ { t with edge := s.edge } = s) ∧
       (∀ off : Nat, m.cls = 7 → m.typ = 1 → m.payload = beBytes 4 off ++ [0, 0, 0, 0] → off < 2 ^ 32 → isLow off = false → isHigh off = false →
         s.edge.bypass = 3 → s.hf.pwr = .ready →
         Gives (.regRead m) s fun t =>
           t.edge.tx = s.edge.tx ++ sent 7 3 (beBytes 4 m.seq ++ beBytes 2 0 ++ beBytes 2 1 ++ beBytes 4 off ++
             beBytes 4 (s.view 0 off).toNat ++ beBytes 2 rNone ++ [0, 0]) ∧ { t with edge := s.edge } = s) ∧
       (∀ off v : Nat, m.cls = 7 → m.typ = 2 → m.payload = beBytes 4 off ++ beBytes 4 v → off < 2 ^ 32 → v < 2 ^ 32 → s.edge.bypass = 3 →
         s.hf.pwr = .aux → auxPage off = false →
         Gives (.regWrite m) s fun t =>
           t.edge.tx = s.edge.tx ++ sent 7 3 (beBytes 4 m.seq ++ beBytes 2 0 ++ beBytes 2 1 ++ beBytes 4 off ++ beBytes 4 0 ++
             beBytes 2 rCapacity ++ [0, 0]) ∧ { t with edge := s.edge } = s) ∧
       (∀ v : Nat, m.cls = 7 → m.typ = 2 → m.payload = beBytes 4 hfReserve ++ beBytes 4 v → 1 ≤ v → v ≤ 20 → s.mayWrite 0 hfReserve = true →
         Gives (.regWrite m) s fun t => fld (t.rd hfReserve) 4 0 = v ∧ RegsKept s t [hfReserve] ∧ t.hf = s.hf ∧ t.mem = s.mem) ∧
       (m.cls = 8 → m.typ = 1 → s.hf.pwr ≠ .ready → exec (.removePrep m) s = .next { heard with hf := { s.hf with rmvCode := rCapacity } }) ∧
       (m.cls = 8 → m.typ = 1 → s.hf.pwr = .ready → s.hf.rmvStep = 0 → s.storeValid = true → s.openStreams = [] → s.swap.phase = .idle →
         Gives (.removePrep m) s fun t => t.hf.rmvStep = 2 ∧ t.hf.pwr = .drain) ∧
       (m.cls = 8 → m.typ = 2 → s.hf.pwr = .ready → s.hf.rmvStep = 0 → s.swap.phase = .idle →
         Gives (.removePrepForce m) s fun t => t.hf.rmvStep = 2 ∧ t.hf.pwr = .drain) ∧
       (m.cls = 8 → m.typ = 3 → s.hf.rmvStep = 4 → s.hf.pwr = .aux →
         Gives (.removeCancel m) s fun t => t.hf.rmvStep = 0 ∧ t.hf.latched = 1 ∧ t.edge.rmvRdy = false) ∧
       (m.cls = 4 → m.typ = 1 → s.edge.bypass = 3 →
         (let rs := s.tally.log.filter fun r => decide (beAt m.payload 0 8 ≤ r.time)
          rs ≠ [] → rs.length ≤ 45 →
          Gives (.logPull m) s fun t => t.edge.tx = s.edge.tx ++ sent 4 2 (rs.flatMap Report.bytes) ∧ { t with edge := s.edge } = s))) ∧
     (m.cls = 2 → s.edge.alarmWait = [] →
       Gives (.ack m) s fun t =>
         t.edge.alarms = s.edge.alarms.filter (fun a => !(((chunks 4 m.payload).map ofBe).contains a.2.seq)) ∧
         { t with edge := { t.edge with alarms := s.edge.alarms } } = heard))) ∧
  (∀ (s : State) (m : RingMsg), s.hf.pwr ≠ .off → m.src ≠ s.edge.devId → m.cls = 1 →
    (hear (Table.get (0, 0) s.edge.seen m.src) m.seq).1 = true →
    (let dev := beAt m.payload 0 4 % 0x100000
     let was := Table.get 0 s.edge.neighbours m.port
     let rack := m.src = rackController ∧ 8 ≤ m.payload.length
     let path := s.fab.adits.find? fun p => p.2.isLocal && p.2.peerDev == was - 1
     (¬rack → was ≠ 0 → was ≠ dev + 1 →
       Gives (.hello m) s fun t =>
         Table.get 0 t.edge.neighbours m.port = dev + 1 ∧ (s.tally.log.length < logCap → Logged s t causeRingBypass 0) ∧
         (path = none ∨ was - 1 ∈ s.fab.lostPeers → ReportKept s t [] ∧ t.fab.lostPeers = s.fab.lostPeers) ∧
         (path ≠ none → was - 1 ∉ s.fab.lostPeers →
           t.fab.lostPeers = s.fab.lostPeers ++ [was - 1] ∧ ∃ n ∈ t.noc.notices, n.cause = causeModuleLoss ∧ n.detail = was - 1)) ∧
     (¬rack → was = 0 ∨ was = dev + 1 →
       Gives (.hello m) s fun t =>
         Table.get 0 t.edge.neighbours m.port = dev + 1 ∧ { t with edge := s.edge } = s) ∧
     (rack →
       Gives (.hello m) s fun t =>
         t.edge.ringVer = beAt m.payload 7 1 ∧ (beAt m.payload 7 1 ≠ 1 → (t.fn 0).refuse = rAbiMismatch) ∧ { t with edge := s.edge } = s))) ∧
  (∀ s : State,
    (s.edge.bypass = 3 → s.edge.lastHello + 100000000 ≤ s.now →
      Gives .helloTimer s fun t =>
        (∃ a b, t.edge.tx = s.edge.tx ++ [a, b] ∧ a.port = 0 ∧ b.port = 1 ∧ a.msg.cls = 1 ∧ b.msg.cls = 1 ∧ a.msg.ttl = 1 ∧ b.msg.ttl = 1 ∧
          a.msg.src = s.edge.devId ∧ a.msg.seq = s.edge.txSeq ∧ b.msg.src = s.edge.devId) ∧ t.edge.lastHello = s.now ∧ { t with edge := s.edge } = s) ∧
    (s.edge.bypass ≠ 3 ∨ s.now < s.edge.lastHello + 100000000 → exec .helloTimer s = .next s)) ∧
  (∀ s : State,
    (let due := s.edge.alarms.filter fun a => decide (a.1 + 2000000 ≤ s.now)
     (s.ringOn = true →
       Gives .alarmResend s fun t =>
         t.edge.tx = s.edge.tx ++ due.flatMap (fun a => [{ port := 0, msg := a.2 }, { port := 1, msg := { a.2 with port := 1 } }]) ∧
         t.edge.alarms = s.edge.alarms.map (fun a => if a.1 + 2000000 ≤ s.now then (s.now, a.2) else a) ∧
         t.rd devRingRetxCount = s.rd devRingRetxCount + BitVec.ofNat 32 due.length ∧ RegsKept s t [devRingRetxCount] ∧
         { t with edge := s.edge, regs := s.regs } = s) ∧
     (s.ringOn = true → due = [] → exec .alarmResend s = .next s) ∧
     (s.ringOn = false → exec .alarmResend s = .next s)))

/-- R460, R469 to R474, R476, R477, R480: straps of odd parity give the module its device ID in AUX with the timebase at 0, others the
unassigned ID and a held UP; a change after the latch only shows; Syncs are followed, 16 within ±20 ns lock, their loss for 1 s is HOLDOVER;
the bypass opens with HELLO on both ports, or closes for 1 s on a mismatch; and the presence and power-enable pins act. The strap order (log entry
53), the 125 ms of a port whose Syncs stopped (log entry 54) and the request latched where PWR_EN is high (log entry 52) are the model's. -/
def Obligations.ModuleEdgeActs : Prop :=
  (∀ (s : State) (v : Nat),
    (s.hf.pwr = .off → ∀ i ∈ [Instr.strapLatch v, .prsntMate v],
      Gives i s fun t =>
        t.hf.pwr = .aux ∧ t.now = 0 ∧ t.edge.straps = v % 0x10000 ∧ t.edge.idChanged = false ∧
        (popcount 16 v % 2 = 1 →
          t.edge.devId = 64 * bitsOf v 8 0 + bitsOf v 14 9 ∧ t.edge.idBad = false ∧ bitAt t.edge.devLoc 15 = true) ∧
        (popcount 16 v % 2 = 0 → t.edge.devId = 0xFFFFD ∧ t.edge.idBad = true ∧ t.edge.devLoc = 0 ∧ t.mayRise = false) ∧
        t.mem = s.mem ∧ t.tally = s.tally ∧ t.swap = s.swap) ∧
    (s.hf.pwr ≠ .off → exec (.strapLatch v) s = .next s ∧
      exec (.prsntMate v) s = .next { s with edge := { s.edge with prsnt := true } }) ∧
    (s.hf.pwr ≠ .off → v % 0x10000 ≠ s.edge.straps →
      exec (.strapChange v) s = .next { s with edge := { s.edge with idChanged := true } }) ∧
    (s.hf.pwr = .off ∨ v % 0x10000 = s.edge.straps → exec (.strapChange v) s = .next s)) ∧
  (∀ s : State, exec .prsntBreak s = .next { s with edge := { s.edge with prsnt := false, ringUp := 0, link := 0 } }) ∧
  (∀ s : State,
    (let x : State := ({ s with edge := { s.edge with pwrEn := true } }).endRemoval
     (s.hf.pwr = .off ∨ s.hf.pwr = .ready → exec .pwrEnRise s = .next { s with edge := { s.edge with pwrEn := true } }) ∧
     (s.hf.pwr = .drain → s.hf.downward = false →
       exec .pwrEnRise s = .next { x with hf := { x.hf with pwr := .ready, latched := 0 }, wnd := { x.wnd with drainHold := false } }) ∧
     (s.hf.pwr = .aux ∨ s.hf.pwr = .rails ∨ s.hf.pwr = .init ∨ s.hf.pwr = .cal ∨ (s.hf.pwr = .drain ∧ s.hf.downward = true) →
       exec .pwrEnRise s = .next { x with hf := { x.hf with latched := 1 } }) ∧
     (s.hf.rmvStep = 0 → x = { s with edge := { s.edge with pwrEn := true } }))) ∧
  (∀ s : State,
    (s.hf.pwr = .off → exec .pwrEnFall s = .next { s with edge := { s.edge with pwrEn := false } }) ∧
    (s.hf.pwr = .aux → exec .pwrEnFall s = .next { s with edge := { s.edge with pwrEn := false }, hf := { s.hf with latched := 0 } }) ∧
    (s.hf.pwr = .rails ∨ s.hf.pwr = .init ∨ s.hf.pwr = .cal ∨ s.hf.pwr = .drain →
      exec .pwrEnFall s = .next { s with edge := { s.edge with pwrEn := false }, hf := { s.hf with latched := 2 } }) ∧
    (s.hf.pwr = .ready → Gives .pwrEnFall s fun t => t.hf.pwr = .drain ∧ t.hf.latched = 2 ∧ t.hf.drainSince = s.now ∧ t.edge.pwrEn = false) ∧
    (s.hf.pwr = .ready → s.swap.phase = .idle →
      Gives .pwrEnFall s fun t =>
        t.hf = { s.hf with pwr := .drain, latched := 2, drainSince := s.now } ∧ t.edge = { s.edge with pwrEn := false })) ∧
  (∀ s : State, exec .bypassClose s = .next { s with edge := { s.edge with bypass := 0 } }) ∧
  (∀ s : State,
    (s.mayOpen = true →
      Gives (.bypassOpen false) s fun t =>
        t.edge.bypass = 3 ∧ (∃ a b more, t.edge.tx = s.edge.tx ++ a :: b :: more ∧ a.msg.cls = 1 ∧ b.msg.cls = 1 ∧ a.port = 0 ∧ b.port = 1 ∧
          (s.edge.alarmWait = [] → more = [])) ∧ { t with edge := s.edge } = s) ∧
    (s.mayOpen = true → exec (.bypassOpen true) s =
      .next { s with edge := { s.edge with bypass := 0, bypassRetryAt := some (s.now + 1000000000) } }) ∧
    (∀ x, s.mayOpen = false → exec (.bypassOpen x) s = .next s) ∧
    (∀ at_, s.edge.bypassRetryAt = some at_ → at_ ≤ s.now →
      exec .bypassRetry s = .next { s with edge := { s.edge with bypass := 1, bypassRetryAt := none } }) ∧
    ((∀ at_, s.edge.bypassRetryAt = some at_ → s.now < at_) → exec .bypassRetry s = .next s)) ∧
  (∀ (s : State) (p delay gm : Nat) (o r : Int),
    (let heard := s.hf.pwr ≠ .off ∧ bit (s.rd timeCtrl) 8 = true ∧ s.follows p delay = true
     (heard → s.edge.timeState ≠ 0 ∨ -1000 ≤ o →
       Gives (.sync p o delay gm r) s fun t =>
         t.now = s.now ∧ t.rd timeOffsetNs = BitVec.ofInt 32 o ∧ t.rd timePathDelayNs = BitVec.ofNat 32 delay ∧ t.edge.lastSync = s.now ∧
         t.edge.timePort = p ∧
         (o.natAbs ≤ 20 → t.edge.goodSyncs = min 16 (s.edge.goodSyncs + 1) ∧ (15 ≤ s.edge.goodSyncs → t.edge.timeState = 2)) ∧
         (20 < o.natAbs → t.edge.goodSyncs = 0 ∧ t.edge.timeState = (if s.edge.timeState = 3 then 3 else 1)) ∧
         RegsKept s t [timeOffsetNs, timeRatePpb, timePathDelayNs, timeGmIdLo, timeGmIdLo + 4] ∧
         { t with edge := s.edge, regs := s.regs } = s) ∧
     (heard → s.edge.timeState = 0 → o < -1000 →
       Gives (.sync p o delay gm r) s fun t =>
         t.now = s.now + o.natAbs ∧ t.rd timeStepCount = s.rd timeStepCount + 1 ∧ t.edge.timePort = p ∧ t.edge.lastSync = t.now) ∧
     (¬heard → exec (.sync p o delay gm r) s = .next s))) ∧
  (∀ s : State,
    (let lost := s.edge.everLocked = true ∧ (s.edge.timeState = 1 ∨ s.edge.timeState = 2) ∧ s.edge.lastSync + 1000000000 ≤ s.now
     (lost → exec .syncLoss s = .next { s with edge := { s.edge with timeState := 3, goodSyncs := 0 } }) ∧
     (¬lost → exec .syncLoss s = .next s)))

/-! ## The whole machine -/

/-- R4, R6, R204, R229, R267: after reset the memory, the registers, the page tables, the class table and the prefix nodes are in canonical
form, no command waits, and the timebase is 0 in OFF. -/
def Obligations.ResetIsSound : Prop := State.reset.Inv ∧ State.reset.pending = [] ∧ State.reset.now = 0 ∧ State.reset.hf.pwr = .off

/-- R4, R6, R204, R229, R267: every step, whatever command stands in front or none, keeps the memory, the registers, the page tables, the
class table and the prefix nodes in canonical form: rising keys, and no entry that an unlisted key would read. -/
def Obligations.StepsKeepTheMachineSound : Prop := ∀ s t : State, s.Inv → step s = .next t → t.Inv
end

