-- ==== Sys2Proof/Laws/Tables.lean ====
section
/-! SUPPORT. Laws of the sparse tables and of the flat memory: reading after writing, and that every operation keeps the canonical
form. -/

namespace Sys2Proof.Machine

variable {α : Type}

@[simp] theorem Table.get_nil (d : α) (k : Nat) : Table.get d [] k = d := rfl

@[simp] theorem Table.get_put_same (d : α) (t : Table α) (k : Nat) (a : α) : Table.get d (Table.put t k a) k = a := by
  induction t with
  | nil => simp [Table.put, Table.get]
  | cons p t ih =>
    obtain ⟨i, b⟩ := p
    simp only [Table.put]
    split
    · simp [Table.get]
    · split
      · simp [Table.get]
      · simp [Table.get, *]

theorem Table.get_put_other (d : α) (t : Table α) {k j : Nat} (a : α) (h : j ≠ k) :
    Table.get d (Table.put t k a) j = Table.get d t j := by
  induction t with
  | nil => simp [Table.put, Table.get, h.symm]
  | cons p t ih =>
    obtain ⟨i, b⟩ := p
    simp only [Table.put]
    split
    · subst_vars; simp [Table.get, h.symm]
    · split
      · simp [Table.get, h.symm]
      · simp [Table.get, ih]

@[simp] theorem Table.get_del_same (d : α) (t : Table α) (k : Nat) : Table.get d (Table.del t k) k = d := by
  induction t with
  | nil => rfl
  | cons p t ih =>
    obtain ⟨i, b⟩ := p
    simp only [Table.del]
    split
    · exact ih
    · simp [Table.get, *]

theorem Table.get_del_other (d : α) (t : Table α) {k j : Nat} (h : j ≠ k) : Table.get d (Table.del t k) j = Table.get d t j := by
  induction t with
  | nil => rfl
  | cons p t ih =>
    obtain ⟨i, b⟩ := p
    simp only [Table.del]
    split
    · subst_vars; simp [Table.get, ih, h.symm]
    · simp [Table.get, ih]

variable [DecidableEq α]

@[simp] theorem Table.get_set_same (d : α) (t : Table α) (k : Nat) (a : α) : Table.get d (Table.set d t k a) k = a := by
  unfold Table.set; split <;> simp [*]

theorem Table.get_set_other (d e : α) (t : Table α) {k j : Nat} (a : α) (h : j ≠ k) :
    Table.get e (Table.set d t k a) j = Table.get e t j := by
  unfold Table.set
  split
  · exact Table.get_del_other _ _ h
  · exact Table.get_put_other _ _ _ h

theorem Table.get_set (d : α) (t : Table α) (k j : Nat) (a : α) :
    Table.get d (Table.set d t k a) j = if j = k then a else Table.get d t j := by
  split
  · subst_vars; simp
  · exact Table.get_set_other _ _ _ _ ‹_›

/-! ## The canonical form -/

theorem Table.wfBy_cons (d : Nat → α) (i : Nat) (a : α) (t : Table α) :
    Table.wfBy d ((i, a) :: t) = true ↔ a ≠ d i ∧ (∀ p ∈ t, i < p.1) ∧ Table.wfBy d t = true := by
  induction t generalizing i a with
  | nil => simp [Table.wfBy]
  | cons p t ih =>
    obtain ⟨j, b⟩ := p
    simp only [Table.wfBy, Bool.and_eq_true, decide_eq_true_eq, bne_iff_ne, ne_eq, List.mem_cons]
    rw [ih j b]
    constructor
    · rintro ⟨⟨hij, ha⟩, hb, hj, ht⟩
      refine ⟨ha, ?_, hb, hj, ht⟩
      rintro q (rfl | hq)
      · exact hij
      · exact hij.trans (hj q hq)
    · rintro ⟨ha, hall, hb, hj, ht⟩
      exact ⟨⟨hall _ (Or.inl rfl), ha⟩, hb, hj, ht⟩

omit [DecidableEq α] in
theorem Table.mem_put {t : Table α} {k : Nat} {a : α} {p : Nat × α} (h : p ∈ Table.put t k a) : p = (k, a) ∨ p ∈ t := by
  induction t with
  | nil => simpa [Table.put] using h
  | cons q t ih =>
    obtain ⟨i, b⟩ := q
    simp only [Table.put] at h
    split at h
    · rcases List.mem_cons.1 h with h | h <;> simp [h]
    · split at h
      · rcases List.mem_cons.1 h with h | h
        · exact .inl h
        · exact .inr h
      · rcases List.mem_cons.1 h with h | h
        · simp [h]
        · rcases ih h with h | h <;> simp [h]

omit [DecidableEq α] in
theorem Table.mem_del {t : Table α} {k : Nat} {p : Nat × α} (h : p ∈ Table.del t k) : p ∈ t := by
  induction t with
  | nil => simp [Table.del] at h
  | cons q t ih =>
    obtain ⟨i, b⟩ := q
    simp only [Table.del] at h
    split at h
    · exact List.mem_cons_of_mem _ (ih h)
    · rcases List.mem_cons.1 h with h | h
      · simp [h]
      · exact List.mem_cons_of_mem _ (ih h)

theorem Table.wfBy_put {d : Nat → α} {t : Table α} {k : Nat} {a : α} (ht : Table.wfBy d t = true) (ha : a ≠ d k) :
    Table.wfBy d (Table.put t k a) = true := by
  induction t with
  | nil => simpa [Table.put, Table.wfBy] using ha
  | cons p t ih =>
    obtain ⟨i, b⟩ := p
    obtain ⟨hb, hall, ht⟩ := (Table.wfBy_cons ..).1 ht
    simp only [Table.put]
    split
    · subst_vars; exact (Table.wfBy_cons ..).2 ⟨ha, hall, ht⟩
    · split
      · refine (Table.wfBy_cons ..).2 ⟨ha, ?_, (Table.wfBy_cons ..).2 ⟨hb, hall, ht⟩⟩
        intro q hq
        rcases List.mem_cons.1 hq with rfl | hq
        · assumption
        · have := hall q hq; omega
      · refine (Table.wfBy_cons ..).2 ⟨hb, ?_, ih ht⟩
        intro q hq
        rcases Table.mem_put hq with rfl | hq
        · show i < k; omega
        · exact hall q hq

theorem Table.wfBy_del {d : Nat → α} {t : Table α} {k : Nat} (ht : Table.wfBy d t = true) : Table.wfBy d (Table.del t k) = true := by
  induction t with
  | nil => exact ht
  | cons p t ih =>
    obtain ⟨i, b⟩ := p
    obtain ⟨hb, hall, ht⟩ := (Table.wfBy_cons ..).1 ht
    simp only [Table.del]
    split
    · exact ih ht
    · exact (Table.wfBy_cons ..).2 ⟨hb, fun q hq => hall q (Table.mem_del hq), ih ht⟩

theorem Table.wfBy_set {d : Nat → α} {t : Table α} {k : Nat} {a : α} (ht : Table.wfBy d t = true) :
    Table.wfBy d (Table.set (d k) t k a) = true := by
  unfold Table.set
  split
  · exact Table.wfBy_del ht
  · exact Table.wfBy_put ht ‹_›

theorem Table.wf_set {d : α} {t : Table α} {k : Nat} {a : α} (ht : Table.wf d t = true) : Table.wf d (Table.set d t k a) = true :=
  Table.wfBy_set (d := fun _ => d) ht

/-! ## The flat memory -/

@[simp] theorem readByte_writeByte_same (m : List Host.Cell) (a : Nat) (b : Byte) : readByte (writeByte m a b) a = b :=
  Table.get_set_same ..

theorem readByte_writeByte_other (m : List Host.Cell) {a c : Nat} (b : Byte) (h : c ≠ a) :
    readByte (writeByte m a b) c = readByte m c := Table.get_set_other _ _ _ _ h

/-- A write of bytes changes no byte outside its range. -/
theorem readByte_writeBytes_outside (bs : List Byte) (m : List Host.Cell) (a c : Nat) (h : c < a ∨ a + bs.length ≤ c) :
    readByte (writeBytes m a bs) c = readByte m c := by
  induction bs generalizing m a with
  | nil => rfl
  | cons b bs ih =>
    simp only [writeBytes, List.length_cons] at *
    rw [ih _ _ (by omega), readByte_writeByte_other _ _ (by omega)]

/-- A byte of the range holds what was written to it. -/
theorem readByte_writeBytes_inside (bs : List Byte) (m : List Host.Cell) (a i : Nat) (h : i < bs.length) :
    readByte (writeBytes m a bs) (a + i) = bs[i] := by
  induction bs generalizing m a i with
  | nil => simp at h
  | cons b bs ih =>
    simp only [writeBytes]
    cases i with
    | zero => rw [readByte_writeBytes_outside _ _ _ _ (by omega)]; simp
    | succ i =>
      have := ih (writeByte m a b) (a + 1) i (by simpa using h)
      rw [show a + (i + 1) = a + 1 + i by omega, this]; rfl

theorem Memory.wf_writeByte {m : List Host.Cell} {a : Nat} {b : Byte} (h : Memory.wf m = true) : Memory.wf (writeByte m a b) = true :=
  Table.wf_set h

theorem Memory.wf_writeBytes (bs : List Byte) {m : List Host.Cell} {a : Nat} (h : Memory.wf m = true) :
    Memory.wf (writeBytes m a bs) = true := by
  induction bs generalizing m a with
  | nil => exact h
  | cons b bs ih => exact ih (Memory.wf_writeByte h)

theorem Regs.wf_set {t : Table Word} {k : Nat} {v : Word} (h : Regs.wf t = true) : Regs.wf (Table.set (resetWord k) t k v) = true :=
  Table.wfBy_set h

end Sys2Proof.Machine
end

