-- ==== Sys2Proof/Laws/State.lean ====
section
/-! SUPPORT. Laws of the state's fields and tables: what each update leaves as it was, one lemma per field or table and per update,
and what reading after a write gives. -/

namespace Sys2Proof.Machine

variable (s : State)

/-! ### A record update of pending -/

@[simp] theorem State.with_pending_now (x : List Instr) : ({ s with pending := x }).now = s.now := rfl
@[simp] theorem State.with_pending_freeCtr (x : List Instr) : ({ s with pending := x }).freeCtr = s.freeCtr := rfl
@[simp] theorem State.with_pending_regs (x : List Instr) : ({ s with pending := x }).regs = s.regs := rfl
@[simp] theorem State.with_pending_mem (x : List Instr) : ({ s with pending := x }).mem = s.mem := rfl
@[simp] theorem State.with_pending_stopes (x : List Instr) : ({ s with pending := x }).stopes = s.stopes := rfl
@[simp] theorem State.with_pending_cores (x : List Instr) : ({ s with pending := x }).cores = s.cores := rfl
@[simp] theorem State.with_pending_noc (x : List Instr) : ({ s with pending := x }).noc = s.noc := rfl
@[simp] theorem State.with_pending_kv (x : List Instr) : ({ s with pending := x }).kv = s.kv := rfl
@[simp] theorem State.with_pending_wnd (x : List Instr) : ({ s with pending := x }).wnd = s.wnd := rfl
@[simp] theorem State.with_pending_swap (x : List Instr) : ({ s with pending := x }).swap = s.swap := rfl
@[simp] theorem State.with_pending_tally (x : List Instr) : ({ s with pending := x }).tally = s.tally := rfl
@[simp] theorem State.with_pending_fab (x : List Instr) : ({ s with pending := x }).fab = s.fab := rfl
@[simp] theorem State.with_pending_hf (x : List Instr) : ({ s with pending := x }).hf = s.hf := rfl
@[simp] theorem State.with_pending_edge (x : List Instr) : ({ s with pending := x }).edge = s.edge := rfl
@[simp] theorem State.with_pending_rd (x : List Instr) (j : Nat) : ({ s with pending := x }).rd j = s.rd j := rfl
@[simp] theorem State.with_pending_stope (x : List Instr) (j : Nat) : ({ s with pending := x }).stope j = s.stope j := rfl
@[simp] theorem State.with_pending_core (x : List Instr) (j : Nat) : ({ s with pending := x }).core j = s.core j := rfl
@[simp] theorem State.with_pending_stream (x : List Instr) (j : Nat) : ({ s with pending := x }).stream j = s.stream j := rfl
@[simp] theorem State.with_pending_cls (x : List Instr) (j : Nat) : ({ s with pending := x }).cls j = s.cls j := rfl
@[simp] theorem State.with_pending_evr (x : List Instr) (j : Nat) : ({ s with pending := x }).evr j = s.evr j := rfl
@[simp] theorem State.with_pending_port (x : List Instr) (j : Nat) : ({ s with pending := x }).port j = s.port j := rfl
@[simp] theorem State.with_pending_adit (x : List Instr) (j : Nat) : ({ s with pending := x }).adit j = s.adit j := rfl
@[simp] theorem State.with_pending_group (x : List Instr) (j : Nat) : ({ s with pending := x }).group j = s.group j := rfl
@[simp] theorem State.with_pending_fn (x : List Instr) (j : Nat) : ({ s with pending := x }).fn j = s.fn j := rfl
@[simp] theorem State.with_pending_vslot (x : List Instr) (j : Nat) : ({ s with pending := x }).vslot j = s.vslot j := rfl
@[simp] theorem State.with_pending_node (x : List Instr) (j : Nat) : ({ s with pending := x }).node j = s.node j := rfl
@[simp] theorem State.with_pending_sensor (x : List Instr) (j : Nat) : ({ s with pending := x }).sensor j = s.sensor j := rfl
@[simp] theorem State.with_pending_fence (x : List Instr) (j : Nat) : ({ s with pending := x }).fence j = s.fence j := rfl

/-! ### A record update of now -/

@[simp] theorem State.with_now_pending (x : Nat) : ({ s with now := x }).pending = s.pending := rfl
@[simp] theorem State.with_now_freeCtr (x : Nat) : ({ s with now := x }).freeCtr = s.freeCtr := rfl
@[simp] theorem State.with_now_regs (x : Nat) : ({ s with now := x }).regs = s.regs := rfl
@[simp] theorem State.with_now_mem (x : Nat) : ({ s with now := x }).mem = s.mem := rfl
@[simp] theorem State.with_now_stopes (x : Nat) : ({ s with now := x }).stopes = s.stopes := rfl
@[simp] theorem State.with_now_cores (x : Nat) : ({ s with now := x }).cores = s.cores := rfl
@[simp] theorem State.with_now_noc (x : Nat) : ({ s with now := x }).noc = s.noc := rfl
@[simp] theorem State.with_now_kv (x : Nat) : ({ s with now := x }).kv = s.kv := rfl
@[simp] theorem State.with_now_wnd (x : Nat) : ({ s with now := x }).wnd = s.wnd := rfl
@[simp] theorem State.with_now_swap (x : Nat) : ({ s with now := x }).swap = s.swap := rfl
@[simp] theorem State.with_now_tally (x : Nat) : ({ s with now := x }).tally = s.tally := rfl
@[simp] theorem State.with_now_fab (x : Nat) : ({ s with now := x }).fab = s.fab := rfl
@[simp] theorem State.with_now_hf (x : Nat) : ({ s with now := x }).hf = s.hf := rfl
@[simp] theorem State.with_now_edge (x : Nat) : ({ s with now := x }).edge = s.edge := rfl
@[simp] theorem State.with_now_rd (x : Nat) (j : Nat) : ({ s with now := x }).rd j = s.rd j := rfl
@[simp] theorem State.with_now_stope (x : Nat) (j : Nat) : ({ s with now := x }).stope j = s.stope j := rfl
@[simp] theorem State.with_now_core (x : Nat) (j : Nat) : ({ s with now := x }).core j = s.core j := rfl
@[simp] theorem State.with_now_stream (x : Nat) (j : Nat) : ({ s with now := x }).stream j = s.stream j := rfl
@[simp] theorem State.with_now_cls (x : Nat) (j : Nat) : ({ s with now := x }).cls j = s.cls j := rfl
@[simp] theorem State.with_now_evr (x : Nat) (j : Nat) : ({ s with now := x }).evr j = s.evr j := rfl
@[simp] theorem State.with_now_port (x : Nat) (j : Nat) : ({ s with now := x }).port j = s.port j := rfl
@[simp] theorem State.with_now_adit (x : Nat) (j : Nat) : ({ s with now := x }).adit j = s.adit j := rfl
@[simp] theorem State.with_now_group (x : Nat) (j : Nat) : ({ s with now := x }).group j = s.group j := rfl
@[simp] theorem State.with_now_fn (x : Nat) (j : Nat) : ({ s with now := x }).fn j = s.fn j := rfl
@[simp] theorem State.with_now_vslot (x : Nat) (j : Nat) : ({ s with now := x }).vslot j = s.vslot j := rfl
@[simp] theorem State.with_now_node (x : Nat) (j : Nat) : ({ s with now := x }).node j = s.node j := rfl
@[simp] theorem State.with_now_sensor (x : Nat) (j : Nat) : ({ s with now := x }).sensor j = s.sensor j := rfl
@[simp] theorem State.with_now_fence (x : Nat) (j : Nat) : ({ s with now := x }).fence j = s.fence j := rfl

/-! ### A record update of freeCtr -/

@[simp] theorem State.with_freeCtr_pending (x : Nat) : ({ s with freeCtr := x }).pending = s.pending := rfl
@[simp] theorem State.with_freeCtr_now (x : Nat) : ({ s with freeCtr := x }).now = s.now := rfl
@[simp] theorem State.with_freeCtr_regs (x : Nat) : ({ s with freeCtr := x }).regs = s.regs := rfl
@[simp] theorem State.with_freeCtr_mem (x : Nat) : ({ s with freeCtr := x }).mem = s.mem := rfl
@[simp] theorem State.with_freeCtr_stopes (x : Nat) : ({ s with freeCtr := x }).stopes = s.stopes := rfl
@[simp] theorem State.with_freeCtr_cores (x : Nat) : ({ s with freeCtr := x }).cores = s.cores := rfl
@[simp] theorem State.with_freeCtr_noc (x : Nat) : ({ s with freeCtr := x }).noc = s.noc := rfl
@[simp] theorem State.with_freeCtr_kv (x : Nat) : ({ s with freeCtr := x }).kv = s.kv := rfl
@[simp] theorem State.with_freeCtr_wnd (x : Nat) : ({ s with freeCtr := x }).wnd = s.wnd := rfl
@[simp] theorem State.with_freeCtr_swap (x : Nat) : ({ s with freeCtr := x }).swap = s.swap := rfl
@[simp] theorem State.with_freeCtr_tally (x : Nat) : ({ s with freeCtr := x }).tally = s.tally := rfl
@[simp] theorem State.with_freeCtr_fab (x : Nat) : ({ s with freeCtr := x }).fab = s.fab := rfl
@[simp] theorem State.with_freeCtr_hf (x : Nat) : ({ s with freeCtr := x }).hf = s.hf := rfl
@[simp] theorem State.with_freeCtr_edge (x : Nat) : ({ s with freeCtr := x }).edge = s.edge := rfl
@[simp] theorem State.with_freeCtr_rd (x : Nat) (j : Nat) : ({ s with freeCtr := x }).rd j = s.rd j := rfl
@[simp] theorem State.with_freeCtr_stope (x : Nat) (j : Nat) : ({ s with freeCtr := x }).stope j = s.stope j := rfl
@[simp] theorem State.with_freeCtr_core (x : Nat) (j : Nat) : ({ s with freeCtr := x }).core j = s.core j := rfl
@[simp] theorem State.with_freeCtr_stream (x : Nat) (j : Nat) : ({ s with freeCtr := x }).stream j = s.stream j := rfl
@[simp] theorem State.with_freeCtr_cls (x : Nat) (j : Nat) : ({ s with freeCtr := x }).cls j = s.cls j := rfl
@[simp] theorem State.with_freeCtr_evr (x : Nat) (j : Nat) : ({ s with freeCtr := x }).evr j = s.evr j := rfl
@[simp] theorem State.with_freeCtr_port (x : Nat) (j : Nat) : ({ s with freeCtr := x }).port j = s.port j := rfl
@[simp] theorem State.with_freeCtr_adit (x : Nat) (j : Nat) : ({ s with freeCtr := x }).adit j = s.adit j := rfl
@[simp] theorem State.with_freeCtr_group (x : Nat) (j : Nat) : ({ s with freeCtr := x }).group j = s.group j := rfl
@[simp] theorem State.with_freeCtr_fn (x : Nat) (j : Nat) : ({ s with freeCtr := x }).fn j = s.fn j := rfl
@[simp] theorem State.with_freeCtr_vslot (x : Nat) (j : Nat) : ({ s with freeCtr := x }).vslot j = s.vslot j := rfl
@[simp] theorem State.with_freeCtr_node (x : Nat) (j : Nat) : ({ s with freeCtr := x }).node j = s.node j := rfl
@[simp] theorem State.with_freeCtr_sensor (x : Nat) (j : Nat) : ({ s with freeCtr := x }).sensor j = s.sensor j := rfl
@[simp] theorem State.with_freeCtr_fence (x : Nat) (j : Nat) : ({ s with freeCtr := x }).fence j = s.fence j := rfl

/-! ### A record update of regs -/

@[simp] theorem State.with_regs_pending (x : Table Word) : ({ s with regs := x }).pending = s.pending := rfl
@[simp] theorem State.with_regs_now (x : Table Word) : ({ s with regs := x }).now = s.now := rfl
@[simp] theorem State.with_regs_freeCtr (x : Table Word) : ({ s with regs := x }).freeCtr = s.freeCtr := rfl
@[simp] theorem State.with_regs_mem (x : Table Word) : ({ s with regs := x }).mem = s.mem := rfl
@[simp] theorem State.with_regs_stopes (x : Table Word) : ({ s with regs := x }).stopes = s.stopes := rfl
@[simp] theorem State.with_regs_cores (x : Table Word) : ({ s with regs := x }).cores = s.cores := rfl
@[simp] theorem State.with_regs_noc (x : Table Word) : ({ s with regs := x }).noc = s.noc := rfl
@[simp] theorem State.with_regs_kv (x : Table Word) : ({ s with regs := x }).kv = s.kv := rfl
@[simp] theorem State.with_regs_wnd (x : Table Word) : ({ s with regs := x }).wnd = s.wnd := rfl
@[simp] theorem State.with_regs_swap (x : Table Word) : ({ s with regs := x }).swap = s.swap := rfl
@[simp] theorem State.with_regs_tally (x : Table Word) : ({ s with regs := x }).tally = s.tally := rfl
@[simp] theorem State.with_regs_fab (x : Table Word) : ({ s with regs := x }).fab = s.fab := rfl
@[simp] theorem State.with_regs_hf (x : Table Word) : ({ s with regs := x }).hf = s.hf := rfl
@[simp] theorem State.with_regs_edge (x : Table Word) : ({ s with regs := x }).edge = s.edge := rfl
@[simp] theorem State.with_regs_stope (x : Table Word) (j : Nat) : ({ s with regs := x }).stope j = s.stope j := rfl
@[simp] theorem State.with_regs_core (x : Table Word) (j : Nat) : ({ s with regs := x }).core j = s.core j := rfl
@[simp] theorem State.with_regs_stream (x : Table Word) (j : Nat) : ({ s with regs := x }).stream j = s.stream j := rfl
@[simp] theorem State.with_regs_cls (x : Table Word) (j : Nat) : ({ s with regs := x }).cls j = s.cls j := rfl
@[simp] theorem State.with_regs_evr (x : Table Word) (j : Nat) : ({ s with regs := x }).evr j = s.evr j := rfl
@[simp] theorem State.with_regs_port (x : Table Word) (j : Nat) : ({ s with regs := x }).port j = s.port j := rfl
@[simp] theorem State.with_regs_adit (x : Table Word) (j : Nat) : ({ s with regs := x }).adit j = s.adit j := rfl
@[simp] theorem State.with_regs_group (x : Table Word) (j : Nat) : ({ s with regs := x }).group j = s.group j := rfl
@[simp] theorem State.with_regs_fn (x : Table Word) (j : Nat) : ({ s with regs := x }).fn j = s.fn j := rfl
@[simp] theorem State.with_regs_vslot (x : Table Word) (j : Nat) : ({ s with regs := x }).vslot j = s.vslot j := rfl
@[simp] theorem State.with_regs_node (x : Table Word) (j : Nat) : ({ s with regs := x }).node j = s.node j := rfl
@[simp] theorem State.with_regs_sensor (x : Table Word) (j : Nat) : ({ s with regs := x }).sensor j = s.sensor j := rfl
@[simp] theorem State.with_regs_fence (x : Table Word) (j : Nat) : ({ s with regs := x }).fence j = s.fence j := rfl

/-! ### A record update of mem -/

@[simp] theorem State.with_mem_pending (x : List Host.Cell) : ({ s with mem := x }).pending = s.pending := rfl
@[simp] theorem State.with_mem_now (x : List Host.Cell) : ({ s with mem := x }).now = s.now := rfl
@[simp] theorem State.with_mem_freeCtr (x : List Host.Cell) : ({ s with mem := x }).freeCtr = s.freeCtr := rfl
@[simp] theorem State.with_mem_regs (x : List Host.Cell) : ({ s with mem := x }).regs = s.regs := rfl
@[simp] theorem State.with_mem_stopes (x : List Host.Cell) : ({ s with mem := x }).stopes = s.stopes := rfl
@[simp] theorem State.with_mem_cores (x : List Host.Cell) : ({ s with mem := x }).cores = s.cores := rfl
@[simp] theorem State.with_mem_noc (x : List Host.Cell) : ({ s with mem := x }).noc = s.noc := rfl
@[simp] theorem State.with_mem_kv (x : List Host.Cell) : ({ s with mem := x }).kv = s.kv := rfl
@[simp] theorem State.with_mem_wnd (x : List Host.Cell) : ({ s with mem := x }).wnd = s.wnd := rfl
@[simp] theorem State.with_mem_swap (x : List Host.Cell) : ({ s with mem := x }).swap = s.swap := rfl
@[simp] theorem State.with_mem_tally (x : List Host.Cell) : ({ s with mem := x }).tally = s.tally := rfl
@[simp] theorem State.with_mem_fab (x : List Host.Cell) : ({ s with mem := x }).fab = s.fab := rfl
@[simp] theorem State.with_mem_hf (x : List Host.Cell) : ({ s with mem := x }).hf = s.hf := rfl
@[simp] theorem State.with_mem_edge (x : List Host.Cell) : ({ s with mem := x }).edge = s.edge := rfl
@[simp] theorem State.with_mem_rd (x : List Host.Cell) (j : Nat) : ({ s with mem := x }).rd j = s.rd j := rfl
@[simp] theorem State.with_mem_stope (x : List Host.Cell) (j : Nat) : ({ s with mem := x }).stope j = s.stope j := rfl
@[simp] theorem State.with_mem_core (x : List Host.Cell) (j : Nat) : ({ s with mem := x }).core j = s.core j := rfl
@[simp] theorem State.with_mem_stream (x : List Host.Cell) (j : Nat) : ({ s with mem := x }).stream j = s.stream j := rfl
@[simp] theorem State.with_mem_cls (x : List Host.Cell) (j : Nat) : ({ s with mem := x }).cls j = s.cls j := rfl
@[simp] theorem State.with_mem_evr (x : List Host.Cell) (j : Nat) : ({ s with mem := x }).evr j = s.evr j := rfl
@[simp] theorem State.with_mem_port (x : List Host.Cell) (j : Nat) : ({ s with mem := x }).port j = s.port j := rfl
@[simp] theorem State.with_mem_adit (x : List Host.Cell) (j : Nat) : ({ s with mem := x }).adit j = s.adit j := rfl
@[simp] theorem State.with_mem_group (x : List Host.Cell) (j : Nat) : ({ s with mem := x }).group j = s.group j := rfl
@[simp] theorem State.with_mem_fn (x : List Host.Cell) (j : Nat) : ({ s with mem := x }).fn j = s.fn j := rfl
@[simp] theorem State.with_mem_vslot (x : List Host.Cell) (j : Nat) : ({ s with mem := x }).vslot j = s.vslot j := rfl
@[simp] theorem State.with_mem_node (x : List Host.Cell) (j : Nat) : ({ s with mem := x }).node j = s.node j := rfl
@[simp] theorem State.with_mem_sensor (x : List Host.Cell) (j : Nat) : ({ s with mem := x }).sensor j = s.sensor j := rfl
@[simp] theorem State.with_mem_fence (x : List Host.Cell) (j : Nat) : ({ s with mem := x }).fence j = s.fence j := rfl

/-! ### A record update of stopes -/

@[simp] theorem State.with_stopes_pending (x : Table Stope) : ({ s with stopes := x }).pending = s.pending := rfl
@[simp] theorem State.with_stopes_now (x : Table Stope) : ({ s with stopes := x }).now = s.now := rfl
@[simp] theorem State.with_stopes_freeCtr (x : Table Stope) : ({ s with stopes := x }).freeCtr = s.freeCtr := rfl
@[simp] theorem State.with_stopes_regs (x : Table Stope) : ({ s with stopes := x }).regs = s.regs := rfl
@[simp] theorem State.with_stopes_mem (x : Table Stope) : ({ s with stopes := x }).mem = s.mem := rfl
@[simp] theorem State.with_stopes_cores (x : Table Stope) : ({ s with stopes := x }).cores = s.cores := rfl
@[simp] theorem State.with_stopes_noc (x : Table Stope) : ({ s with stopes := x }).noc = s.noc := rfl
@[simp] theorem State.with_stopes_kv (x : Table Stope) : ({ s with stopes := x }).kv = s.kv := rfl
@[simp] theorem State.with_stopes_wnd (x : Table Stope) : ({ s with stopes := x }).wnd = s.wnd := rfl
@[simp] theorem State.with_stopes_swap (x : Table Stope) : ({ s with stopes := x }).swap = s.swap := rfl
@[simp] theorem State.with_stopes_tally (x : Table Stope) : ({ s with stopes := x }).tally = s.tally := rfl
@[simp] theorem State.with_stopes_fab (x : Table Stope) : ({ s with stopes := x }).fab = s.fab := rfl
@[simp] theorem State.with_stopes_hf (x : Table Stope) : ({ s with stopes := x }).hf = s.hf := rfl
@[simp] theorem State.with_stopes_edge (x : Table Stope) : ({ s with stopes := x }).edge = s.edge := rfl
@[simp] theorem State.with_stopes_rd (x : Table Stope) (j : Nat) : ({ s with stopes := x }).rd j = s.rd j := rfl
@[simp] theorem State.with_stopes_core (x : Table Stope) (j : Nat) : ({ s with stopes := x }).core j = s.core j := rfl
@[simp] theorem State.with_stopes_stream (x : Table Stope) (j : Nat) : ({ s with stopes := x }).stream j = s.stream j := rfl
@[simp] theorem State.with_stopes_cls (x : Table Stope) (j : Nat) : ({ s with stopes := x }).cls j = s.cls j := rfl
@[simp] theorem State.with_stopes_evr (x : Table Stope) (j : Nat) : ({ s with stopes := x }).evr j = s.evr j := rfl
@[simp] theorem State.with_stopes_port (x : Table Stope) (j : Nat) : ({ s with stopes := x }).port j = s.port j := rfl
@[simp] theorem State.with_stopes_adit (x : Table Stope) (j : Nat) : ({ s with stopes := x }).adit j = s.adit j := rfl
@[simp] theorem State.with_stopes_group (x : Table Stope) (j : Nat) : ({ s with stopes := x }).group j = s.group j := rfl
@[simp] theorem State.with_stopes_fn (x : Table Stope) (j : Nat) : ({ s with stopes := x }).fn j = s.fn j := rfl
@[simp] theorem State.with_stopes_vslot (x : Table Stope) (j : Nat) : ({ s with stopes := x }).vslot j = s.vslot j := rfl
@[simp] theorem State.with_stopes_node (x : Table Stope) (j : Nat) : ({ s with stopes := x }).node j = s.node j := rfl
@[simp] theorem State.with_stopes_sensor (x : Table Stope) (j : Nat) : ({ s with stopes := x }).sensor j = s.sensor j := rfl
@[simp] theorem State.with_stopes_fence (x : Table Stope) (j : Nat) : ({ s with stopes := x }).fence j = s.fence j := rfl

/-! ### A record update of cores -/

@[simp] theorem State.with_cores_pending (x : Table Core) : ({ s with cores := x }).pending = s.pending := rfl
@[simp] theorem State.with_cores_now (x : Table Core) : ({ s with cores := x }).now = s.now := rfl
@[simp] theorem State.with_cores_freeCtr (x : Table Core) : ({ s with cores := x }).freeCtr = s.freeCtr := rfl
@[simp] theorem State.with_cores_regs (x : Table Core) : ({ s with cores := x }).regs = s.regs := rfl
@[simp] theorem State.with_cores_mem (x : Table Core) : ({ s with cores := x }).mem = s.mem := rfl
@[simp] theorem State.with_cores_stopes (x : Table Core) : ({ s with cores := x }).stopes = s.stopes := rfl
@[simp] theorem State.with_cores_noc (x : Table Core) : ({ s with cores := x }).noc = s.noc := rfl
@[simp] theorem State.with_cores_kv (x : Table Core) : ({ s with cores := x }).kv = s.kv := rfl
@[simp] theorem State.with_cores_wnd (x : Table Core) : ({ s with cores := x }).wnd = s.wnd := rfl
@[simp] theorem State.with_cores_swap (x : Table Core) : ({ s with cores := x }).swap = s.swap := rfl
@[simp] theorem State.with_cores_tally (x : Table Core) : ({ s with cores := x }).tally = s.tally := rfl
@[simp] theorem State.with_cores_fab (x : Table Core) : ({ s with cores := x }).fab = s.fab := rfl
@[simp] theorem State.with_cores_hf (x : Table Core) : ({ s with cores := x }).hf = s.hf := rfl
@[simp] theorem State.with_cores_edge (x : Table Core) : ({ s with cores := x }).edge = s.edge := rfl
@[simp] theorem State.with_cores_rd (x : Table Core) (j : Nat) : ({ s with cores := x }).rd j = s.rd j := rfl
@[simp] theorem State.with_cores_stope (x : Table Core) (j : Nat) : ({ s with cores := x }).stope j = s.stope j := rfl
@[simp] theorem State.with_cores_stream (x : Table Core) (j : Nat) : ({ s with cores := x }).stream j = s.stream j := rfl
@[simp] theorem State.with_cores_cls (x : Table Core) (j : Nat) : ({ s with cores := x }).cls j = s.cls j := rfl
@[simp] theorem State.with_cores_evr (x : Table Core) (j : Nat) : ({ s with cores := x }).evr j = s.evr j := rfl
@[simp] theorem State.with_cores_port (x : Table Core) (j : Nat) : ({ s with cores := x }).port j = s.port j := rfl
@[simp] theorem State.with_cores_adit (x : Table Core) (j : Nat) : ({ s with cores := x }).adit j = s.adit j := rfl
@[simp] theorem State.with_cores_group (x : Table Core) (j : Nat) : ({ s with cores := x }).group j = s.group j := rfl
@[simp] theorem State.with_cores_fn (x : Table Core) (j : Nat) : ({ s with cores := x }).fn j = s.fn j := rfl
@[simp] theorem State.with_cores_vslot (x : Table Core) (j : Nat) : ({ s with cores := x }).vslot j = s.vslot j := rfl
@[simp] theorem State.with_cores_node (x : Table Core) (j : Nat) : ({ s with cores := x }).node j = s.node j := rfl
@[simp] theorem State.with_cores_sensor (x : Table Core) (j : Nat) : ({ s with cores := x }).sensor j = s.sensor j := rfl
@[simp] theorem State.with_cores_fence (x : Table Core) (j : Nat) : ({ s with cores := x }).fence j = s.fence j := rfl

/-! ### A record update of noc -/

@[simp] theorem State.with_noc_pending (x : Noc) : ({ s with noc := x }).pending = s.pending := rfl
@[simp] theorem State.with_noc_now (x : Noc) : ({ s with noc := x }).now = s.now := rfl
@[simp] theorem State.with_noc_freeCtr (x : Noc) : ({ s with noc := x }).freeCtr = s.freeCtr := rfl
@[simp] theorem State.with_noc_regs (x : Noc) : ({ s with noc := x }).regs = s.regs := rfl
@[simp] theorem State.with_noc_mem (x : Noc) : ({ s with noc := x }).mem = s.mem := rfl
@[simp] theorem State.with_noc_stopes (x : Noc) : ({ s with noc := x }).stopes = s.stopes := rfl
@[simp] theorem State.with_noc_cores (x : Noc) : ({ s with noc := x }).cores = s.cores := rfl
@[simp] theorem State.with_noc_kv (x : Noc) : ({ s with noc := x }).kv = s.kv := rfl
@[simp] theorem State.with_noc_wnd (x : Noc) : ({ s with noc := x }).wnd = s.wnd := rfl
@[simp] theorem State.with_noc_swap (x : Noc) : ({ s with noc := x }).swap = s.swap := rfl
@[simp] theorem State.with_noc_tally (x : Noc) : ({ s with noc := x }).tally = s.tally := rfl
@[simp] theorem State.with_noc_fab (x : Noc) : ({ s with noc := x }).fab = s.fab := rfl
@[simp] theorem State.with_noc_hf (x : Noc) : ({ s with noc := x }).hf = s.hf := rfl
@[simp] theorem State.with_noc_edge (x : Noc) : ({ s with noc := x }).edge = s.edge := rfl
@[simp] theorem State.with_noc_rd (x : Noc) (j : Nat) : ({ s with noc := x }).rd j = s.rd j := rfl
@[simp] theorem State.with_noc_stope (x : Noc) (j : Nat) : ({ s with noc := x }).stope j = s.stope j := rfl
@[simp] theorem State.with_noc_core (x : Noc) (j : Nat) : ({ s with noc := x }).core j = s.core j := rfl
@[simp] theorem State.with_noc_stream (x : Noc) (j : Nat) : ({ s with noc := x }).stream j = s.stream j := rfl
@[simp] theorem State.with_noc_cls (x : Noc) (j : Nat) : ({ s with noc := x }).cls j = s.cls j := rfl
@[simp] theorem State.with_noc_evr (x : Noc) (j : Nat) : ({ s with noc := x }).evr j = s.evr j := rfl
@[simp] theorem State.with_noc_port (x : Noc) (j : Nat) : ({ s with noc := x }).port j = s.port j := rfl
@[simp] theorem State.with_noc_adit (x : Noc) (j : Nat) : ({ s with noc := x }).adit j = s.adit j := rfl
@[simp] theorem State.with_noc_group (x : Noc) (j : Nat) : ({ s with noc := x }).group j = s.group j := rfl
@[simp] theorem State.with_noc_fn (x : Noc) (j : Nat) : ({ s with noc := x }).fn j = s.fn j := rfl
@[simp] theorem State.with_noc_vslot (x : Noc) (j : Nat) : ({ s with noc := x }).vslot j = s.vslot j := rfl
@[simp] theorem State.with_noc_node (x : Noc) (j : Nat) : ({ s with noc := x }).node j = s.node j := rfl
@[simp] theorem State.with_noc_sensor (x : Noc) (j : Nat) : ({ s with noc := x }).sensor j = s.sensor j := rfl

/-! ### A record update of kv -/

@[simp] theorem State.with_kv_pending (x : Kv) : ({ s with kv := x }).pending = s.pending := rfl
@[simp] theorem State.with_kv_now (x : Kv) : ({ s with kv := x }).now = s.now := rfl
@[simp] theorem State.with_kv_freeCtr (x : Kv) : ({ s with kv := x }).freeCtr = s.freeCtr := rfl
@[simp] theorem State.with_kv_regs (x : Kv) : ({ s with kv := x }).regs = s.regs := rfl
@[simp] theorem State.with_kv_mem (x : Kv) : ({ s with kv := x }).mem = s.mem := rfl
@[simp] theorem State.with_kv_stopes (x : Kv) : ({ s with kv := x }).stopes = s.stopes := rfl
@[simp] theorem State.with_kv_cores (x : Kv) : ({ s with kv := x }).cores = s.cores := rfl
@[simp] theorem State.with_kv_noc (x : Kv) : ({ s with kv := x }).noc = s.noc := rfl
@[simp] theorem State.with_kv_wnd (x : Kv) : ({ s with kv := x }).wnd = s.wnd := rfl
@[simp] theorem State.with_kv_swap (x : Kv) : ({ s with kv := x }).swap = s.swap := rfl
@[simp] theorem State.with_kv_tally (x : Kv) : ({ s with kv := x }).tally = s.tally := rfl
@[simp] theorem State.with_kv_fab (x : Kv) : ({ s with kv := x }).fab = s.fab := rfl
@[simp] theorem State.with_kv_hf (x : Kv) : ({ s with kv := x }).hf = s.hf := rfl
@[simp] theorem State.with_kv_edge (x : Kv) : ({ s with kv := x }).edge = s.edge := rfl
@[simp] theorem State.with_kv_rd (x : Kv) (j : Nat) : ({ s with kv := x }).rd j = s.rd j := rfl
@[simp] theorem State.with_kv_stope (x : Kv) (j : Nat) : ({ s with kv := x }).stope j = s.stope j := rfl
@[simp] theorem State.with_kv_core (x : Kv) (j : Nat) : ({ s with kv := x }).core j = s.core j := rfl
@[simp] theorem State.with_kv_stream (x : Kv) (j : Nat) : ({ s with kv := x }).stream j = s.stream j := rfl
@[simp] theorem State.with_kv_cls (x : Kv) (j : Nat) : ({ s with kv := x }).cls j = s.cls j := rfl
@[simp] theorem State.with_kv_evr (x : Kv) (j : Nat) : ({ s with kv := x }).evr j = s.evr j := rfl
@[simp] theorem State.with_kv_port (x : Kv) (j : Nat) : ({ s with kv := x }).port j = s.port j := rfl
@[simp] theorem State.with_kv_adit (x : Kv) (j : Nat) : ({ s with kv := x }).adit j = s.adit j := rfl
@[simp] theorem State.with_kv_group (x : Kv) (j : Nat) : ({ s with kv := x }).group j = s.group j := rfl
@[simp] theorem State.with_kv_fn (x : Kv) (j : Nat) : ({ s with kv := x }).fn j = s.fn j := rfl
@[simp] theorem State.with_kv_vslot (x : Kv) (j : Nat) : ({ s with kv := x }).vslot j = s.vslot j := rfl
@[simp] theorem State.with_kv_node (x : Kv) (j : Nat) : ({ s with kv := x }).node j = s.node j := rfl
@[simp] theorem State.with_kv_sensor (x : Kv) (j : Nat) : ({ s with kv := x }).sensor j = s.sensor j := rfl
@[simp] theorem State.with_kv_fence (x : Kv) (j : Nat) : ({ s with kv := x }).fence j = s.fence j := rfl

/-! ### A record update of wnd -/

@[simp] theorem State.with_wnd_pending (x : Wnd) : ({ s with wnd := x }).pending = s.pending := rfl
@[simp] theorem State.with_wnd_now (x : Wnd) : ({ s with wnd := x }).now = s.now := rfl
@[simp] theorem State.with_wnd_freeCtr (x : Wnd) : ({ s with wnd := x }).freeCtr = s.freeCtr := rfl
@[simp] theorem State.with_wnd_regs (x : Wnd) : ({ s with wnd := x }).regs = s.regs := rfl
@[simp] theorem State.with_wnd_mem (x : Wnd) : ({ s with wnd := x }).mem = s.mem := rfl
@[simp] theorem State.with_wnd_stopes (x : Wnd) : ({ s with wnd := x }).stopes = s.stopes := rfl
@[simp] theorem State.with_wnd_cores (x : Wnd) : ({ s with wnd := x }).cores = s.cores := rfl
@[simp] theorem State.with_wnd_noc (x : Wnd) : ({ s with wnd := x }).noc = s.noc := rfl
@[simp] theorem State.with_wnd_kv (x : Wnd) : ({ s with wnd := x }).kv = s.kv := rfl
@[simp] theorem State.with_wnd_swap (x : Wnd) : ({ s with wnd := x }).swap = s.swap := rfl
@[simp] theorem State.with_wnd_tally (x : Wnd) : ({ s with wnd := x }).tally = s.tally := rfl
@[simp] theorem State.with_wnd_fab (x : Wnd) : ({ s with wnd := x }).fab = s.fab := rfl
@[simp] theorem State.with_wnd_hf (x : Wnd) : ({ s with wnd := x }).hf = s.hf := rfl
@[simp] theorem State.with_wnd_edge (x : Wnd) : ({ s with wnd := x }).edge = s.edge := rfl
@[simp] theorem State.with_wnd_rd (x : Wnd) (j : Nat) : ({ s with wnd := x }).rd j = s.rd j := rfl
@[simp] theorem State.with_wnd_stope (x : Wnd) (j : Nat) : ({ s with wnd := x }).stope j = s.stope j := rfl
@[simp] theorem State.with_wnd_core (x : Wnd) (j : Nat) : ({ s with wnd := x }).core j = s.core j := rfl
@[simp] theorem State.with_wnd_port (x : Wnd) (j : Nat) : ({ s with wnd := x }).port j = s.port j := rfl
@[simp] theorem State.with_wnd_adit (x : Wnd) (j : Nat) : ({ s with wnd := x }).adit j = s.adit j := rfl
@[simp] theorem State.with_wnd_group (x : Wnd) (j : Nat) : ({ s with wnd := x }).group j = s.group j := rfl
@[simp] theorem State.with_wnd_fn (x : Wnd) (j : Nat) : ({ s with wnd := x }).fn j = s.fn j := rfl
@[simp] theorem State.with_wnd_vslot (x : Wnd) (j : Nat) : ({ s with wnd := x }).vslot j = s.vslot j := rfl
@[simp] theorem State.with_wnd_node (x : Wnd) (j : Nat) : ({ s with wnd := x }).node j = s.node j := rfl
@[simp] theorem State.with_wnd_sensor (x : Wnd) (j : Nat) : ({ s with wnd := x }).sensor j = s.sensor j := rfl
@[simp] theorem State.with_wnd_fence (x : Wnd) (j : Nat) : ({ s with wnd := x }).fence j = s.fence j := rfl

/-! ### A record update of swap -/

@[simp] theorem State.with_swap_pending (x : Swap) : ({ s with swap := x }).pending = s.pending := rfl
@[simp] theorem State.with_swap_now (x : Swap) : ({ s with swap := x }).now = s.now := rfl
@[simp] theorem State.with_swap_freeCtr (x : Swap) : ({ s with swap := x }).freeCtr = s.freeCtr := rfl
@[simp] theorem State.with_swap_regs (x : Swap) : ({ s with swap := x }).regs = s.regs := rfl
@[simp] theorem State.with_swap_mem (x : Swap) : ({ s with swap := x }).mem = s.mem := rfl
@[simp] theorem State.with_swap_stopes (x : Swap) : ({ s with swap := x }).stopes = s.stopes := rfl
@[simp] theorem State.with_swap_cores (x : Swap) : ({ s with swap := x }).cores = s.cores := rfl
@[simp] theorem State.with_swap_noc (x : Swap) : ({ s with swap := x }).noc = s.noc := rfl
@[simp] theorem State.with_swap_kv (x : Swap) : ({ s with swap := x }).kv = s.kv := rfl
@[simp] theorem State.with_swap_wnd (x : Swap) : ({ s with swap := x }).wnd = s.wnd := rfl
@[simp] theorem State.with_swap_tally (x : Swap) : ({ s with swap := x }).tally = s.tally := rfl
@[simp] theorem State.with_swap_fab (x : Swap) : ({ s with swap := x }).fab = s.fab := rfl
@[simp] theorem State.with_swap_hf (x : Swap) : ({ s with swap := x }).hf = s.hf := rfl
@[simp] theorem State.with_swap_edge (x : Swap) : ({ s with swap := x }).edge = s.edge := rfl
@[simp] theorem State.with_swap_rd (x : Swap) (j : Nat) : ({ s with swap := x }).rd j = s.rd j := rfl
@[simp] theorem State.with_swap_stope (x : Swap) (j : Nat) : ({ s with swap := x }).stope j = s.stope j := rfl
@[simp] theorem State.with_swap_core (x : Swap) (j : Nat) : ({ s with swap := x }).core j = s.core j := rfl
@[simp] theorem State.with_swap_stream (x : Swap) (j : Nat) : ({ s with swap := x }).stream j = s.stream j := rfl
@[simp] theorem State.with_swap_cls (x : Swap) (j : Nat) : ({ s with swap := x }).cls j = s.cls j := rfl
@[simp] theorem State.with_swap_evr (x : Swap) (j : Nat) : ({ s with swap := x }).evr j = s.evr j := rfl
@[simp] theorem State.with_swap_port (x : Swap) (j : Nat) : ({ s with swap := x }).port j = s.port j := rfl
@[simp] theorem State.with_swap_adit (x : Swap) (j : Nat) : ({ s with swap := x }).adit j = s.adit j := rfl
@[simp] theorem State.with_swap_group (x : Swap) (j : Nat) : ({ s with swap := x }).group j = s.group j := rfl
@[simp] theorem State.with_swap_fn (x : Swap) (j : Nat) : ({ s with swap := x }).fn j = s.fn j := rfl
@[simp] theorem State.with_swap_node (x : Swap) (j : Nat) : ({ s with swap := x }).node j = s.node j := rfl
@[simp] theorem State.with_swap_sensor (x : Swap) (j : Nat) : ({ s with swap := x }).sensor j = s.sensor j := rfl
@[simp] theorem State.with_swap_fence (x : Swap) (j : Nat) : ({ s with swap := x }).fence j = s.fence j := rfl

/-! ### A record update of tally -/

@[simp] theorem State.with_tally_pending (x : Tally) : ({ s with tally := x }).pending = s.pending := rfl
@[simp] theorem State.with_tally_now (x : Tally) : ({ s with tally := x }).now = s.now := rfl
@[simp] theorem State.with_tally_freeCtr (x : Tally) : ({ s with tally := x }).freeCtr = s.freeCtr := rfl
@[simp] theorem State.with_tally_regs (x : Tally) : ({ s with tally := x }).regs = s.regs := rfl
@[simp] theorem State.with_tally_mem (x : Tally) : ({ s with tally := x }).mem = s.mem := rfl
@[simp] theorem State.with_tally_stopes (x : Tally) : ({ s with tally := x }).stopes = s.stopes := rfl
@[simp] theorem State.with_tally_cores (x : Tally) : ({ s with tally := x }).cores = s.cores := rfl
@[simp] theorem State.with_tally_noc (x : Tally) : ({ s with tally := x }).noc = s.noc := rfl
@[simp] theorem State.with_tally_kv (x : Tally) : ({ s with tally := x }).kv = s.kv := rfl
@[simp] theorem State.with_tally_wnd (x : Tally) : ({ s with tally := x }).wnd = s.wnd := rfl
@[simp] theorem State.with_tally_swap (x : Tally) : ({ s with tally := x }).swap = s.swap := rfl
@[simp] theorem State.with_tally_fab (x : Tally) : ({ s with tally := x }).fab = s.fab := rfl
@[simp] theorem State.with_tally_hf (x : Tally) : ({ s with tally := x }).hf = s.hf := rfl
@[simp] theorem State.with_tally_edge (x : Tally) : ({ s with tally := x }).edge = s.edge := rfl
@[simp] theorem State.with_tally_rd (x : Tally) (j : Nat) : ({ s with tally := x }).rd j = s.rd j := rfl
@[simp] theorem State.with_tally_stope (x : Tally) (j : Nat) : ({ s with tally := x }).stope j = s.stope j := rfl
@[simp] theorem State.with_tally_core (x : Tally) (j : Nat) : ({ s with tally := x }).core j = s.core j := rfl
@[simp] theorem State.with_tally_stream (x : Tally) (j : Nat) : ({ s with tally := x }).stream j = s.stream j := rfl
@[simp] theorem State.with_tally_cls (x : Tally) (j : Nat) : ({ s with tally := x }).cls j = s.cls j := rfl
@[simp] theorem State.with_tally_evr (x : Tally) (j : Nat) : ({ s with tally := x }).evr j = s.evr j := rfl
@[simp] theorem State.with_tally_port (x : Tally) (j : Nat) : ({ s with tally := x }).port j = s.port j := rfl
@[simp] theorem State.with_tally_adit (x : Tally) (j : Nat) : ({ s with tally := x }).adit j = s.adit j := rfl
@[simp] theorem State.with_tally_group (x : Tally) (j : Nat) : ({ s with tally := x }).group j = s.group j := rfl
@[simp] theorem State.with_tally_fn (x : Tally) (j : Nat) : ({ s with tally := x }).fn j = s.fn j := rfl
@[simp] theorem State.with_tally_vslot (x : Tally) (j : Nat) : ({ s with tally := x }).vslot j = s.vslot j := rfl
@[simp] theorem State.with_tally_node (x : Tally) (j : Nat) : ({ s with tally := x }).node j = s.node j := rfl
@[simp] theorem State.with_tally_sensor (x : Tally) (j : Nat) : ({ s with tally := x }).sensor j = s.sensor j := rfl
@[simp] theorem State.with_tally_fence (x : Tally) (j : Nat) : ({ s with tally := x }).fence j = s.fence j := rfl

/-! ### A record update of fab -/

@[simp] theorem State.with_fab_pending (x : Fab) : ({ s with fab := x }).pending = s.pending := rfl
@[simp] theorem State.with_fab_now (x : Fab) : ({ s with fab := x }).now = s.now := rfl
@[simp] theorem State.with_fab_freeCtr (x : Fab) : ({ s with fab := x }).freeCtr = s.freeCtr := rfl
@[simp] theorem State.with_fab_regs (x : Fab) : ({ s with fab := x }).regs = s.regs := rfl
@[simp] theorem State.with_fab_mem (x : Fab) : ({ s with fab := x }).mem = s.mem := rfl
@[simp] theorem State.with_fab_stopes (x : Fab) : ({ s with fab := x }).stopes = s.stopes := rfl
@[simp] theorem State.with_fab_cores (x : Fab) : ({ s with fab := x }).cores = s.cores := rfl
@[simp] theorem State.with_fab_noc (x : Fab) : ({ s with fab := x }).noc = s.noc := rfl
@[simp] theorem State.with_fab_kv (x : Fab) : ({ s with fab := x }).kv = s.kv := rfl
@[simp] theorem State.with_fab_wnd (x : Fab) : ({ s with fab := x }).wnd = s.wnd := rfl
@[simp] theorem State.with_fab_swap (x : Fab) : ({ s with fab := x }).swap = s.swap := rfl
@[simp] theorem State.with_fab_tally (x : Fab) : ({ s with fab := x }).tally = s.tally := rfl
@[simp] theorem State.with_fab_hf (x : Fab) : ({ s with fab := x }).hf = s.hf := rfl
@[simp] theorem State.with_fab_edge (x : Fab) : ({ s with fab := x }).edge = s.edge := rfl
@[simp] theorem State.with_fab_rd (x : Fab) (j : Nat) : ({ s with fab := x }).rd j = s.rd j := rfl
@[simp] theorem State.with_fab_stope (x : Fab) (j : Nat) : ({ s with fab := x }).stope j = s.stope j := rfl
@[simp] theorem State.with_fab_core (x : Fab) (j : Nat) : ({ s with fab := x }).core j = s.core j := rfl
@[simp] theorem State.with_fab_stream (x : Fab) (j : Nat) : ({ s with fab := x }).stream j = s.stream j := rfl
@[simp] theorem State.with_fab_cls (x : Fab) (j : Nat) : ({ s with fab := x }).cls j = s.cls j := rfl
@[simp] theorem State.with_fab_evr (x : Fab) (j : Nat) : ({ s with fab := x }).evr j = s.evr j := rfl
@[simp] theorem State.with_fab_fn (x : Fab) (j : Nat) : ({ s with fab := x }).fn j = s.fn j := rfl
@[simp] theorem State.with_fab_vslot (x : Fab) (j : Nat) : ({ s with fab := x }).vslot j = s.vslot j := rfl
@[simp] theorem State.with_fab_node (x : Fab) (j : Nat) : ({ s with fab := x }).node j = s.node j := rfl
@[simp] theorem State.with_fab_sensor (x : Fab) (j : Nat) : ({ s with fab := x }).sensor j = s.sensor j := rfl
@[simp] theorem State.with_fab_fence (x : Fab) (j : Nat) : ({ s with fab := x }).fence j = s.fence j := rfl

/-! ### A record update of hf -/

@[simp] theorem State.with_hf_pending (x : Hf) : ({ s with hf := x }).pending = s.pending := rfl
@[simp] theorem State.with_hf_now (x : Hf) : ({ s with hf := x }).now = s.now := rfl
@[simp] theorem State.with_hf_freeCtr (x : Hf) : ({ s with hf := x }).freeCtr = s.freeCtr := rfl
@[simp] theorem State.with_hf_regs (x : Hf) : ({ s with hf := x }).regs = s.regs := rfl
@[simp] theorem State.with_hf_mem (x : Hf) : ({ s with hf := x }).mem = s.mem := rfl
@[simp] theorem State.with_hf_stopes (x : Hf) : ({ s with hf := x }).stopes = s.stopes := rfl
@[simp] theorem State.with_hf_cores (x : Hf) : ({ s with hf := x }).cores = s.cores := rfl
@[simp] theorem State.with_hf_noc (x : Hf) : ({ s with hf := x }).noc = s.noc := rfl
@[simp] theorem State.with_hf_kv (x : Hf) : ({ s with hf := x }).kv = s.kv := rfl
@[simp] theorem State.with_hf_wnd (x : Hf) : ({ s with hf := x }).wnd = s.wnd := rfl
@[simp] theorem State.with_hf_swap (x : Hf) : ({ s with hf := x }).swap = s.swap := rfl
@[simp] theorem State.with_hf_tally (x : Hf) : ({ s with hf := x }).tally = s.tally := rfl
@[simp] theorem State.with_hf_fab (x : Hf) : ({ s with hf := x }).fab = s.fab := rfl
@[simp] theorem State.with_hf_edge (x : Hf) : ({ s with hf := x }).edge = s.edge := rfl
@[simp] theorem State.with_hf_rd (x : Hf) (j : Nat) : ({ s with hf := x }).rd j = s.rd j := rfl
@[simp] theorem State.with_hf_stope (x : Hf) (j : Nat) : ({ s with hf := x }).stope j = s.stope j := rfl
@[simp] theorem State.with_hf_core (x : Hf) (j : Nat) : ({ s with hf := x }).core j = s.core j := rfl
@[simp] theorem State.with_hf_stream (x : Hf) (j : Nat) : ({ s with hf := x }).stream j = s.stream j := rfl
@[simp] theorem State.with_hf_cls (x : Hf) (j : Nat) : ({ s with hf := x }).cls j = s.cls j := rfl
@[simp] theorem State.with_hf_evr (x : Hf) (j : Nat) : ({ s with hf := x }).evr j = s.evr j := rfl
@[simp] theorem State.with_hf_port (x : Hf) (j : Nat) : ({ s with hf := x }).port j = s.port j := rfl
@[simp] theorem State.with_hf_adit (x : Hf) (j : Nat) : ({ s with hf := x }).adit j = s.adit j := rfl
@[simp] theorem State.with_hf_group (x : Hf) (j : Nat) : ({ s with hf := x }).group j = s.group j := rfl
@[simp] theorem State.with_hf_fn (x : Hf) (j : Nat) : ({ s with hf := x }).fn j = s.fn j := rfl
@[simp] theorem State.with_hf_vslot (x : Hf) (j : Nat) : ({ s with hf := x }).vslot j = s.vslot j := rfl
@[simp] theorem State.with_hf_fence (x : Hf) (j : Nat) : ({ s with hf := x }).fence j = s.fence j := rfl

/-! ### A record update of edge -/

@[simp] theorem State.with_edge_pending (x : Edge) : ({ s with edge := x }).pending = s.pending := rfl
@[simp] theorem State.with_edge_now (x : Edge) : ({ s with edge := x }).now = s.now := rfl
@[simp] theorem State.with_edge_freeCtr (x : Edge) : ({ s with edge := x }).freeCtr = s.freeCtr := rfl
@[simp] theorem State.with_edge_regs (x : Edge) : ({ s with edge := x }).regs = s.regs := rfl
@[simp] theorem State.with_edge_mem (x : Edge) : ({ s with edge := x }).mem = s.mem := rfl
@[simp] theorem State.with_edge_stopes (x : Edge) : ({ s with edge := x }).stopes = s.stopes := rfl
@[simp] theorem State.with_edge_cores (x : Edge) : ({ s with edge := x }).cores = s.cores := rfl
@[simp] theorem State.with_edge_noc (x : Edge) : ({ s with edge := x }).noc = s.noc := rfl
@[simp] theorem State.with_edge_kv (x : Edge) : ({ s with edge := x }).kv = s.kv := rfl
@[simp] theorem State.with_edge_wnd (x : Edge) : ({ s with edge := x }).wnd = s.wnd := rfl
@[simp] theorem State.with_edge_swap (x : Edge) : ({ s with edge := x }).swap = s.swap := rfl
@[simp] theorem State.with_edge_tally (x : Edge) : ({ s with edge := x }).tally = s.tally := rfl
@[simp] theorem State.with_edge_fab (x : Edge) : ({ s with edge := x }).fab = s.fab := rfl
@[simp] theorem State.with_edge_hf (x : Edge) : ({ s with edge := x }).hf = s.hf := rfl
@[simp] theorem State.with_edge_rd (x : Edge) (j : Nat) : ({ s with edge := x }).rd j = s.rd j := rfl
@[simp] theorem State.with_edge_stope (x : Edge) (j : Nat) : ({ s with edge := x }).stope j = s.stope j := rfl
@[simp] theorem State.with_edge_core (x : Edge) (j : Nat) : ({ s with edge := x }).core j = s.core j := rfl
@[simp] theorem State.with_edge_stream (x : Edge) (j : Nat) : ({ s with edge := x }).stream j = s.stream j := rfl
@[simp] theorem State.with_edge_cls (x : Edge) (j : Nat) : ({ s with edge := x }).cls j = s.cls j := rfl
@[simp] theorem State.with_edge_evr (x : Edge) (j : Nat) : ({ s with edge := x }).evr j = s.evr j := rfl
@[simp] theorem State.with_edge_port (x : Edge) (j : Nat) : ({ s with edge := x }).port j = s.port j := rfl
@[simp] theorem State.with_edge_adit (x : Edge) (j : Nat) : ({ s with edge := x }).adit j = s.adit j := rfl
@[simp] theorem State.with_edge_group (x : Edge) (j : Nat) : ({ s with edge := x }).group j = s.group j := rfl
@[simp] theorem State.with_edge_vslot (x : Edge) (j : Nat) : ({ s with edge := x }).vslot j = s.vslot j := rfl
@[simp] theorem State.with_edge_node (x : Edge) (j : Nat) : ({ s with edge := x }).node j = s.node j := rfl
@[simp] theorem State.with_edge_sensor (x : Edge) (j : Nat) : ({ s with edge := x }).sensor j = s.sensor j := rfl
@[simp] theorem State.with_edge_fence (x : Edge) (j : Nat) : ({ s with edge := x }).fence j = s.fence j := rfl

/-! ### The tables of one part beside each other -/

theorem Wnd.with_streams_classes (w : Wnd) (x : Table Stream) : ({ w with streams := x }).classes = w.classes := rfl
theorem Wnd.with_streams_evrs (w : Wnd) (x : Table Stream) : ({ w with streams := x }).evrs = w.evrs := rfl
theorem Wnd.with_classes_streams (w : Wnd) (x : Table Class) : ({ w with classes := x }).streams = w.streams := rfl
theorem Wnd.with_classes_evrs (w : Wnd) (x : Table Class) : ({ w with classes := x }).evrs = w.evrs := rfl
theorem Wnd.with_evrs_streams (w : Wnd) (x : Table EvRing) : ({ w with evrs := x }).streams = w.streams := rfl
theorem Wnd.with_evrs_classes (w : Wnd) (x : Table EvRing) : ({ w with evrs := x }).classes = w.classes := rfl
theorem Fab.with_ports_adits (w : Fab) (x : Table Port) : ({ w with ports := x }).adits = w.adits := rfl
theorem Fab.with_ports_groups (w : Fab) (x : Table Port) : ({ w with ports := x }).groups = w.groups := rfl
theorem Fab.with_adits_ports (w : Fab) (x : Table Adit) : ({ w with adits := x }).ports = w.ports := rfl
theorem Fab.with_adits_groups (w : Fab) (x : Table Adit) : ({ w with adits := x }).groups = w.groups := rfl
theorem Fab.with_groups_ports (w : Fab) (x : Table Group) : ({ w with groups := x }).ports = w.ports := rfl
theorem Fab.with_groups_adits (w : Fab) (x : Table Group) : ({ w with groups := x }).adits = w.adits := rfl
theorem Hf.with_nodes_sensors (w : Hf) (x : Table TNode) : ({ w with nodes := x }).sensors = w.sensors := rfl
theorem Hf.with_sensors_nodes (w : Hf) (x : Table Sensor) : ({ w with sensors := x }).nodes = w.nodes := rfl

/-! ### wr -/

@[simp] theorem State.wr_pending (o : Nat) (v : Word) : (s.wr o v).pending = s.pending := s.with_regs_pending _
@[simp] theorem State.wr_now (o : Nat) (v : Word) : (s.wr o v).now = s.now := s.with_regs_now _
@[simp] theorem State.wr_freeCtr (o : Nat) (v : Word) : (s.wr o v).freeCtr = s.freeCtr := s.with_regs_freeCtr _
@[simp] theorem State.wr_mem (o : Nat) (v : Word) : (s.wr o v).mem = s.mem := s.with_regs_mem _
@[simp] theorem State.wr_stopes (o : Nat) (v : Word) : (s.wr o v).stopes = s.stopes := s.with_regs_stopes _
@[simp] theorem State.wr_cores (o : Nat) (v : Word) : (s.wr o v).cores = s.cores := s.with_regs_cores _
@[simp] theorem State.wr_noc (o : Nat) (v : Word) : (s.wr o v).noc = s.noc := s.with_regs_noc _
@[simp] theorem State.wr_kv (o : Nat) (v : Word) : (s.wr o v).kv = s.kv := s.with_regs_kv _
@[simp] theorem State.wr_wnd (o : Nat) (v : Word) : (s.wr o v).wnd = s.wnd := s.with_regs_wnd _
@[simp] theorem State.wr_swap (o : Nat) (v : Word) : (s.wr o v).swap = s.swap := s.with_regs_swap _
@[simp] theorem State.wr_tally (o : Nat) (v : Word) : (s.wr o v).tally = s.tally := s.with_regs_tally _
@[simp] theorem State.wr_fab (o : Nat) (v : Word) : (s.wr o v).fab = s.fab := s.with_regs_fab _
@[simp] theorem State.wr_hf (o : Nat) (v : Word) : (s.wr o v).hf = s.hf := s.with_regs_hf _
@[simp] theorem State.wr_edge (o : Nat) (v : Word) : (s.wr o v).edge = s.edge := s.with_regs_edge _
@[simp] theorem State.wr_stope (o : Nat) (v : Word) (j : Nat) : (s.wr o v).stope j = s.stope j := s.with_regs_stope _ j
@[simp] theorem State.wr_core (o : Nat) (v : Word) (j : Nat) : (s.wr o v).core j = s.core j := s.with_regs_core _ j
@[simp] theorem State.wr_stream (o : Nat) (v : Word) (j : Nat) : (s.wr o v).stream j = s.stream j := s.with_regs_stream _ j
@[simp] theorem State.wr_cls (o : Nat) (v : Word) (j : Nat) : (s.wr o v).cls j = s.cls j := s.with_regs_cls _ j
@[simp] theorem State.wr_evr (o : Nat) (v : Word) (j : Nat) : (s.wr o v).evr j = s.evr j := s.with_regs_evr _ j
@[simp] theorem State.wr_port (o : Nat) (v : Word) (j : Nat) : (s.wr o v).port j = s.port j := s.with_regs_port _ j
@[simp] theorem State.wr_adit (o : Nat) (v : Word) (j : Nat) : (s.wr o v).adit j = s.adit j := s.with_regs_adit _ j
@[simp] theorem State.wr_group (o : Nat) (v : Word) (j : Nat) : (s.wr o v).group j = s.group j := s.with_regs_group _ j
@[simp] theorem State.wr_fn (o : Nat) (v : Word) (j : Nat) : (s.wr o v).fn j = s.fn j := s.with_regs_fn _ j
@[simp] theorem State.wr_vslot (o : Nat) (v : Word) (j : Nat) : (s.wr o v).vslot j = s.vslot j := s.with_regs_vslot _ j
@[simp] theorem State.wr_node (o : Nat) (v : Word) (j : Nat) : (s.wr o v).node j = s.node j := s.with_regs_node _ j
@[simp] theorem State.wr_sensor (o : Nat) (v : Word) (j : Nat) : (s.wr o v).sensor j = s.sensor j := s.with_regs_sensor _ j
@[simp] theorem State.wr_fence (o : Nat) (v : Word) (j : Nat) : (s.wr o v).fence j = s.fence j := s.with_regs_fence _ j

/-! ### inc -/

@[simp] theorem State.inc_pending (o n : Nat) : (s.inc o n).pending = s.pending := s.wr_pending ..
@[simp] theorem State.inc_now (o n : Nat) : (s.inc o n).now = s.now := s.wr_now ..
@[simp] theorem State.inc_freeCtr (o n : Nat) : (s.inc o n).freeCtr = s.freeCtr := s.wr_freeCtr ..
@[simp] theorem State.inc_mem (o n : Nat) : (s.inc o n).mem = s.mem := s.wr_mem ..
@[simp] theorem State.inc_stopes (o n : Nat) : (s.inc o n).stopes = s.stopes := s.wr_stopes ..
@[simp] theorem State.inc_cores (o n : Nat) : (s.inc o n).cores = s.cores := s.wr_cores ..
@[simp] theorem State.inc_noc (o n : Nat) : (s.inc o n).noc = s.noc := s.wr_noc ..
@[simp] theorem State.inc_kv (o n : Nat) : (s.inc o n).kv = s.kv := s.wr_kv ..
@[simp] theorem State.inc_wnd (o n : Nat) : (s.inc o n).wnd = s.wnd := s.wr_wnd ..
@[simp] theorem State.inc_swap (o n : Nat) : (s.inc o n).swap = s.swap := s.wr_swap ..
@[simp] theorem State.inc_tally (o n : Nat) : (s.inc o n).tally = s.tally := s.wr_tally ..
@[simp] theorem State.inc_fab (o n : Nat) : (s.inc o n).fab = s.fab := s.wr_fab ..
@[simp] theorem State.inc_hf (o n : Nat) : (s.inc o n).hf = s.hf := s.wr_hf ..
@[simp] theorem State.inc_edge (o n : Nat) : (s.inc o n).edge = s.edge := s.wr_edge ..
@[simp] theorem State.inc_stope (o n : Nat) (j : Nat) : (s.inc o n).stope j = s.stope j := s.wr_stope ..
@[simp] theorem State.inc_core (o n : Nat) (j : Nat) : (s.inc o n).core j = s.core j := s.wr_core ..
@[simp] theorem State.inc_stream (o n : Nat) (j : Nat) : (s.inc o n).stream j = s.stream j := s.wr_stream ..
@[simp] theorem State.inc_cls (o n : Nat) (j : Nat) : (s.inc o n).cls j = s.cls j := s.wr_cls ..
@[simp] theorem State.inc_evr (o n : Nat) (j : Nat) : (s.inc o n).evr j = s.evr j := s.wr_evr ..
@[simp] theorem State.inc_port (o n : Nat) (j : Nat) : (s.inc o n).port j = s.port j := s.wr_port ..
@[simp] theorem State.inc_adit (o n : Nat) (j : Nat) : (s.inc o n).adit j = s.adit j := s.wr_adit ..
@[simp] theorem State.inc_group (o n : Nat) (j : Nat) : (s.inc o n).group j = s.group j := s.wr_group ..
@[simp] theorem State.inc_fn (o n : Nat) (j : Nat) : (s.inc o n).fn j = s.fn j := s.wr_fn ..
@[simp] theorem State.inc_vslot (o n : Nat) (j : Nat) : (s.inc o n).vslot j = s.vslot j := s.wr_vslot ..
@[simp] theorem State.inc_node (o n : Nat) (j : Nat) : (s.inc o n).node j = s.node j := s.wr_node ..
@[simp] theorem State.inc_sensor (o n : Nat) (j : Nat) : (s.inc o n).sensor j = s.sensor j := s.wr_sensor ..
@[simp] theorem State.inc_fence (o n : Nat) (j : Nat) : (s.inc o n).fence j = s.fence j := s.wr_fence ..

/-! ### wr64 -/

@[simp] theorem State.wr64_pending (o n : Nat) : (s.wr64 o n).pending = s.pending := ((s.wr o _).wr_pending _ _).trans (s.wr_pending _ _)
@[simp] theorem State.wr64_now (o n : Nat) : (s.wr64 o n).now = s.now := ((s.wr o _).wr_now _ _).trans (s.wr_now _ _)
@[simp] theorem State.wr64_freeCtr (o n : Nat) : (s.wr64 o n).freeCtr = s.freeCtr := ((s.wr o _).wr_freeCtr _ _).trans (s.wr_freeCtr _ _)
@[simp] theorem State.wr64_mem (o n : Nat) : (s.wr64 o n).mem = s.mem := ((s.wr o _).wr_mem _ _).trans (s.wr_mem _ _)
@[simp] theorem State.wr64_stopes (o n : Nat) : (s.wr64 o n).stopes = s.stopes := ((s.wr o _).wr_stopes _ _).trans (s.wr_stopes _ _)
@[simp] theorem State.wr64_cores (o n : Nat) : (s.wr64 o n).cores = s.cores := ((s.wr o _).wr_cores _ _).trans (s.wr_cores _ _)
@[simp] theorem State.wr64_noc (o n : Nat) : (s.wr64 o n).noc = s.noc := ((s.wr o _).wr_noc _ _).trans (s.wr_noc _ _)
@[simp] theorem State.wr64_kv (o n : Nat) : (s.wr64 o n).kv = s.kv := ((s.wr o _).wr_kv _ _).trans (s.wr_kv _ _)
@[simp] theorem State.wr64_wnd (o n : Nat) : (s.wr64 o n).wnd = s.wnd := ((s.wr o _).wr_wnd _ _).trans (s.wr_wnd _ _)
@[simp] theorem State.wr64_swap (o n : Nat) : (s.wr64 o n).swap = s.swap := ((s.wr o _).wr_swap _ _).trans (s.wr_swap _ _)
@[simp] theorem State.wr64_tally (o n : Nat) : (s.wr64 o n).tally = s.tally := ((s.wr o _).wr_tally _ _).trans (s.wr_tally _ _)
@[simp] theorem State.wr64_fab (o n : Nat) : (s.wr64 o n).fab = s.fab := ((s.wr o _).wr_fab _ _).trans (s.wr_fab _ _)
@[simp] theorem State.wr64_hf (o n : Nat) : (s.wr64 o n).hf = s.hf := ((s.wr o _).wr_hf _ _).trans (s.wr_hf _ _)
@[simp] theorem State.wr64_edge (o n : Nat) : (s.wr64 o n).edge = s.edge := ((s.wr o _).wr_edge _ _).trans (s.wr_edge _ _)
@[simp] theorem State.wr64_stope (o n : Nat) (j : Nat) : (s.wr64 o n).stope j = s.stope j := ((s.wr o _).wr_stope _ _ j).trans (s.wr_stope _ _ j)
@[simp] theorem State.wr64_core (o n : Nat) (j : Nat) : (s.wr64 o n).core j = s.core j := ((s.wr o _).wr_core _ _ j).trans (s.wr_core _ _ j)
@[simp] theorem State.wr64_stream (o n : Nat) (j : Nat) : (s.wr64 o n).stream j = s.stream j := ((s.wr o _).wr_stream _ _ j).trans (s.wr_stream _ _ j)
@[simp] theorem State.wr64_cls (o n : Nat) (j : Nat) : (s.wr64 o n).cls j = s.cls j := ((s.wr o _).wr_cls _ _ j).trans (s.wr_cls _ _ j)
@[simp] theorem State.wr64_evr (o n : Nat) (j : Nat) : (s.wr64 o n).evr j = s.evr j := ((s.wr o _).wr_evr _ _ j).trans (s.wr_evr _ _ j)
@[simp] theorem State.wr64_port (o n : Nat) (j : Nat) : (s.wr64 o n).port j = s.port j := ((s.wr o _).wr_port _ _ j).trans (s.wr_port _ _ j)
@[simp] theorem State.wr64_adit (o n : Nat) (j : Nat) : (s.wr64 o n).adit j = s.adit j := ((s.wr o _).wr_adit _ _ j).trans (s.wr_adit _ _ j)
@[simp] theorem State.wr64_group (o n : Nat) (j : Nat) : (s.wr64 o n).group j = s.group j := ((s.wr o _).wr_group _ _ j).trans (s.wr_group _ _ j)
@[simp] theorem State.wr64_fn (o n : Nat) (j : Nat) : (s.wr64 o n).fn j = s.fn j := ((s.wr o _).wr_fn _ _ j).trans (s.wr_fn _ _ j)
@[simp] theorem State.wr64_vslot (o n : Nat) (j : Nat) : (s.wr64 o n).vslot j = s.vslot j := ((s.wr o _).wr_vslot _ _ j).trans (s.wr_vslot _ _ j)
@[simp] theorem State.wr64_node (o n : Nat) (j : Nat) : (s.wr64 o n).node j = s.node j := ((s.wr o _).wr_node _ _ j).trans (s.wr_node _ _ j)
@[simp] theorem State.wr64_sensor (o n : Nat) (j : Nat) : (s.wr64 o n).sensor j = s.sensor j := ((s.wr o _).wr_sensor _ _ j).trans (s.wr_sensor _ _ j)
@[simp] theorem State.wr64_fence (o n : Nat) (j : Nat) : (s.wr64 o n).fence j = s.fence j := ((s.wr o _).wr_fence _ _ j).trans (s.wr_fence _ _ j)

/-! ### inc64 -/

@[simp] theorem State.inc64_pending (o n : Nat) : (s.inc64 o n).pending = s.pending := s.wr64_pending ..
@[simp] theorem State.inc64_now (o n : Nat) : (s.inc64 o n).now = s.now := s.wr64_now ..
@[simp] theorem State.inc64_freeCtr (o n : Nat) : (s.inc64 o n).freeCtr = s.freeCtr := s.wr64_freeCtr ..
@[simp] theorem State.inc64_mem (o n : Nat) : (s.inc64 o n).mem = s.mem := s.wr64_mem ..
@[simp] theorem State.inc64_stopes (o n : Nat) : (s.inc64 o n).stopes = s.stopes := s.wr64_stopes ..
@[simp] theorem State.inc64_cores (o n : Nat) : (s.inc64 o n).cores = s.cores := s.wr64_cores ..
@[simp] theorem State.inc64_noc (o n : Nat) : (s.inc64 o n).noc = s.noc := s.wr64_noc ..
@[simp] theorem State.inc64_kv (o n : Nat) : (s.inc64 o n).kv = s.kv := s.wr64_kv ..
@[simp] theorem State.inc64_wnd (o n : Nat) : (s.inc64 o n).wnd = s.wnd := s.wr64_wnd ..
@[simp] theorem State.inc64_swap (o n : Nat) : (s.inc64 o n).swap = s.swap := s.wr64_swap ..
@[simp] theorem State.inc64_tally (o n : Nat) : (s.inc64 o n).tally = s.tally := s.wr64_tally ..
@[simp] theorem State.inc64_fab (o n : Nat) : (s.inc64 o n).fab = s.fab := s.wr64_fab ..
@[simp] theorem State.inc64_hf (o n : Nat) : (s.inc64 o n).hf = s.hf := s.wr64_hf ..
@[simp] theorem State.inc64_edge (o n : Nat) : (s.inc64 o n).edge = s.edge := s.wr64_edge ..
@[simp] theorem State.inc64_stope (o n : Nat) (j : Nat) : (s.inc64 o n).stope j = s.stope j := s.wr64_stope ..
@[simp] theorem State.inc64_core (o n : Nat) (j : Nat) : (s.inc64 o n).core j = s.core j := s.wr64_core ..
@[simp] theorem State.inc64_stream (o n : Nat) (j : Nat) : (s.inc64 o n).stream j = s.stream j := s.wr64_stream ..
@[simp] theorem State.inc64_cls (o n : Nat) (j : Nat) : (s.inc64 o n).cls j = s.cls j := s.wr64_cls ..
@[simp] theorem State.inc64_evr (o n : Nat) (j : Nat) : (s.inc64 o n).evr j = s.evr j := s.wr64_evr ..
@[simp] theorem State.inc64_port (o n : Nat) (j : Nat) : (s.inc64 o n).port j = s.port j := s.wr64_port ..
@[simp] theorem State.inc64_adit (o n : Nat) (j : Nat) : (s.inc64 o n).adit j = s.adit j := s.wr64_adit ..
@[simp] theorem State.inc64_group (o n : Nat) (j : Nat) : (s.inc64 o n).group j = s.group j := s.wr64_group ..
@[simp] theorem State.inc64_fn (o n : Nat) (j : Nat) : (s.inc64 o n).fn j = s.fn j := s.wr64_fn ..
@[simp] theorem State.inc64_vslot (o n : Nat) (j : Nat) : (s.inc64 o n).vslot j = s.vslot j := s.wr64_vslot ..
@[simp] theorem State.inc64_node (o n : Nat) (j : Nat) : (s.inc64 o n).node j = s.node j := s.wr64_node ..
@[simp] theorem State.inc64_sensor (o n : Nat) (j : Nat) : (s.inc64 o n).sensor j = s.sensor j := s.wr64_sensor ..
@[simp] theorem State.inc64_fence (o n : Nat) (j : Nat) : (s.inc64 o n).fence j = s.fence j := s.wr64_fence ..

/-! ### refuse -/

@[simp] theorem State.refuse_pending (o n : Nat) : (s.refuse o n).pending = s.pending := s.wr_pending ..
@[simp] theorem State.refuse_now (o n : Nat) : (s.refuse o n).now = s.now := s.wr_now ..
@[simp] theorem State.refuse_freeCtr (o n : Nat) : (s.refuse o n).freeCtr = s.freeCtr := s.wr_freeCtr ..
@[simp] theorem State.refuse_mem (o n : Nat) : (s.refuse o n).mem = s.mem := s.wr_mem ..
@[simp] theorem State.refuse_stopes (o n : Nat) : (s.refuse o n).stopes = s.stopes := s.wr_stopes ..
@[simp] theorem State.refuse_cores (o n : Nat) : (s.refuse o n).cores = s.cores := s.wr_cores ..
@[simp] theorem State.refuse_noc (o n : Nat) : (s.refuse o n).noc = s.noc := s.wr_noc ..
@[simp] theorem State.refuse_kv (o n : Nat) : (s.refuse o n).kv = s.kv := s.wr_kv ..
@[simp] theorem State.refuse_wnd (o n : Nat) : (s.refuse o n).wnd = s.wnd := s.wr_wnd ..
@[simp] theorem State.refuse_swap (o n : Nat) : (s.refuse o n).swap = s.swap := s.wr_swap ..
@[simp] theorem State.refuse_tally (o n : Nat) : (s.refuse o n).tally = s.tally := s.wr_tally ..
@[simp] theorem State.refuse_fab (o n : Nat) : (s.refuse o n).fab = s.fab := s.wr_fab ..
@[simp] theorem State.refuse_hf (o n : Nat) : (s.refuse o n).hf = s.hf := s.wr_hf ..
@[simp] theorem State.refuse_edge (o n : Nat) : (s.refuse o n).edge = s.edge := s.wr_edge ..
@[simp] theorem State.refuse_stope (o n : Nat) (j : Nat) : (s.refuse o n).stope j = s.stope j := s.wr_stope ..
@[simp] theorem State.refuse_core (o n : Nat) (j : Nat) : (s.refuse o n).core j = s.core j := s.wr_core ..
@[simp] theorem State.refuse_stream (o n : Nat) (j : Nat) : (s.refuse o n).stream j = s.stream j := s.wr_stream ..
@[simp] theorem State.refuse_cls (o n : Nat) (j : Nat) : (s.refuse o n).cls j = s.cls j := s.wr_cls ..
@[simp] theorem State.refuse_evr (o n : Nat) (j : Nat) : (s.refuse o n).evr j = s.evr j := s.wr_evr ..
@[simp] theorem State.refuse_port (o n : Nat) (j : Nat) : (s.refuse o n).port j = s.port j := s.wr_port ..
@[simp] theorem State.refuse_adit (o n : Nat) (j : Nat) : (s.refuse o n).adit j = s.adit j := s.wr_adit ..
@[simp] theorem State.refuse_group (o n : Nat) (j : Nat) : (s.refuse o n).group j = s.group j := s.wr_group ..
@[simp] theorem State.refuse_fn (o n : Nat) (j : Nat) : (s.refuse o n).fn j = s.fn j := s.wr_fn ..
@[simp] theorem State.refuse_vslot (o n : Nat) (j : Nat) : (s.refuse o n).vslot j = s.vslot j := s.wr_vslot ..
@[simp] theorem State.refuse_node (o n : Nat) (j : Nat) : (s.refuse o n).node j = s.node j := s.wr_node ..
@[simp] theorem State.refuse_sensor (o n : Nat) (j : Nat) : (s.refuse o n).sensor j = s.sensor j := s.wr_sensor ..
@[simp] theorem State.refuse_fence (o n : Nat) (j : Nat) : (s.refuse o n).fence j = s.fence j := s.wr_fence ..

/-! ### wrBit -/

@[simp] theorem State.wrBit_pending (o i : Nat) (b : Bool) : (s.wrBit o i b).pending = s.pending := s.wr_pending ..
@[simp] theorem State.wrBit_now (o i : Nat) (b : Bool) : (s.wrBit o i b).now = s.now := s.wr_now ..
@[simp] theorem State.wrBit_freeCtr (o i : Nat) (b : Bool) : (s.wrBit o i b).freeCtr = s.freeCtr := s.wr_freeCtr ..
@[simp] theorem State.wrBit_mem (o i : Nat) (b : Bool) : (s.wrBit o i b).mem = s.mem := s.wr_mem ..
@[simp] theorem State.wrBit_stopes (o i : Nat) (b : Bool) : (s.wrBit o i b).stopes = s.stopes := s.wr_stopes ..
@[simp] theorem State.wrBit_cores (o i : Nat) (b : Bool) : (s.wrBit o i b).cores = s.cores := s.wr_cores ..
@[simp] theorem State.wrBit_noc (o i : Nat) (b : Bool) : (s.wrBit o i b).noc = s.noc := s.wr_noc ..
@[simp] theorem State.wrBit_kv (o i : Nat) (b : Bool) : (s.wrBit o i b).kv = s.kv := s.wr_kv ..
@[simp] theorem State.wrBit_wnd (o i : Nat) (b : Bool) : (s.wrBit o i b).wnd = s.wnd := s.wr_wnd ..
@[simp] theorem State.wrBit_swap (o i : Nat) (b : Bool) : (s.wrBit o i b).swap = s.swap := s.wr_swap ..
@[simp] theorem State.wrBit_tally (o i : Nat) (b : Bool) : (s.wrBit o i b).tally = s.tally := s.wr_tally ..
@[simp] theorem State.wrBit_fab (o i : Nat) (b : Bool) : (s.wrBit o i b).fab = s.fab := s.wr_fab ..
@[simp] theorem State.wrBit_hf (o i : Nat) (b : Bool) : (s.wrBit o i b).hf = s.hf := s.wr_hf ..
@[simp] theorem State.wrBit_edge (o i : Nat) (b : Bool) : (s.wrBit o i b).edge = s.edge := s.wr_edge ..
@[simp] theorem State.wrBit_stope (o i : Nat) (b : Bool) (j : Nat) : (s.wrBit o i b).stope j = s.stope j := s.wr_stope ..
@[simp] theorem State.wrBit_core (o i : Nat) (b : Bool) (j : Nat) : (s.wrBit o i b).core j = s.core j := s.wr_core ..
@[simp] theorem State.wrBit_stream (o i : Nat) (b : Bool) (j : Nat) : (s.wrBit o i b).stream j = s.stream j := s.wr_stream ..
@[simp] theorem State.wrBit_cls (o i : Nat) (b : Bool) (j : Nat) : (s.wrBit o i b).cls j = s.cls j := s.wr_cls ..
@[simp] theorem State.wrBit_evr (o i : Nat) (b : Bool) (j : Nat) : (s.wrBit o i b).evr j = s.evr j := s.wr_evr ..
@[simp] theorem State.wrBit_port (o i : Nat) (b : Bool) (j : Nat) : (s.wrBit o i b).port j = s.port j := s.wr_port ..
@[simp] theorem State.wrBit_adit (o i : Nat) (b : Bool) (j : Nat) : (s.wrBit o i b).adit j = s.adit j := s.wr_adit ..
@[simp] theorem State.wrBit_group (o i : Nat) (b : Bool) (j : Nat) : (s.wrBit o i b).group j = s.group j := s.wr_group ..
@[simp] theorem State.wrBit_fn (o i : Nat) (b : Bool) (j : Nat) : (s.wrBit o i b).fn j = s.fn j := s.wr_fn ..
@[simp] theorem State.wrBit_vslot (o i : Nat) (b : Bool) (j : Nat) : (s.wrBit o i b).vslot j = s.vslot j := s.wr_vslot ..
@[simp] theorem State.wrBit_node (o i : Nat) (b : Bool) (j : Nat) : (s.wrBit o i b).node j = s.node j := s.wr_node ..
@[simp] theorem State.wrBit_sensor (o i : Nat) (b : Bool) (j : Nat) : (s.wrBit o i b).sensor j = s.sensor j := s.wr_sensor ..
@[simp] theorem State.wrBit_fence (o i : Nat) (b : Bool) (j : Nat) : (s.wrBit o i b).fence j = s.fence j := s.wr_fence ..

/-! ### wrMem -/

@[simp] theorem State.wrMem_pending (a : Nat) (bs : List Byte) : (s.wrMem a bs).pending = s.pending := s.with_mem_pending _
@[simp] theorem State.wrMem_now (a : Nat) (bs : List Byte) : (s.wrMem a bs).now = s.now := s.with_mem_now _
@[simp] theorem State.wrMem_freeCtr (a : Nat) (bs : List Byte) : (s.wrMem a bs).freeCtr = s.freeCtr := s.with_mem_freeCtr _
@[simp] theorem State.wrMem_regs (a : Nat) (bs : List Byte) : (s.wrMem a bs).regs = s.regs := s.with_mem_regs _
@[simp] theorem State.wrMem_stopes (a : Nat) (bs : List Byte) : (s.wrMem a bs).stopes = s.stopes := s.with_mem_stopes _
@[simp] theorem State.wrMem_cores (a : Nat) (bs : List Byte) : (s.wrMem a bs).cores = s.cores := s.with_mem_cores _
@[simp] theorem State.wrMem_noc (a : Nat) (bs : List Byte) : (s.wrMem a bs).noc = s.noc := s.with_mem_noc _
@[simp] theorem State.wrMem_kv (a : Nat) (bs : List Byte) : (s.wrMem a bs).kv = s.kv := s.with_mem_kv _
@[simp] theorem State.wrMem_wnd (a : Nat) (bs : List Byte) : (s.wrMem a bs).wnd = s.wnd := s.with_mem_wnd _
@[simp] theorem State.wrMem_swap (a : Nat) (bs : List Byte) : (s.wrMem a bs).swap = s.swap := s.with_mem_swap _
@[simp] theorem State.wrMem_tally (a : Nat) (bs : List Byte) : (s.wrMem a bs).tally = s.tally := s.with_mem_tally _
@[simp] theorem State.wrMem_fab (a : Nat) (bs : List Byte) : (s.wrMem a bs).fab = s.fab := s.with_mem_fab _
@[simp] theorem State.wrMem_hf (a : Nat) (bs : List Byte) : (s.wrMem a bs).hf = s.hf := s.with_mem_hf _
@[simp] theorem State.wrMem_edge (a : Nat) (bs : List Byte) : (s.wrMem a bs).edge = s.edge := s.with_mem_edge _
@[simp] theorem State.wrMem_rd (a : Nat) (bs : List Byte) (j : Nat) : (s.wrMem a bs).rd j = s.rd j := s.with_mem_rd _ j
@[simp] theorem State.wrMem_stope (a : Nat) (bs : List Byte) (j : Nat) : (s.wrMem a bs).stope j = s.stope j := s.with_mem_stope _ j
@[simp] theorem State.wrMem_core (a : Nat) (bs : List Byte) (j : Nat) : (s.wrMem a bs).core j = s.core j := s.with_mem_core _ j
@[simp] theorem State.wrMem_stream (a : Nat) (bs : List Byte) (j : Nat) : (s.wrMem a bs).stream j = s.stream j := s.with_mem_stream _ j
@[simp] theorem State.wrMem_cls (a : Nat) (bs : List Byte) (j : Nat) : (s.wrMem a bs).cls j = s.cls j := s.with_mem_cls _ j
@[simp] theorem State.wrMem_evr (a : Nat) (bs : List Byte) (j : Nat) : (s.wrMem a bs).evr j = s.evr j := s.with_mem_evr _ j
@[simp] theorem State.wrMem_port (a : Nat) (bs : List Byte) (j : Nat) : (s.wrMem a bs).port j = s.port j := s.with_mem_port _ j
@[simp] theorem State.wrMem_adit (a : Nat) (bs : List Byte) (j : Nat) : (s.wrMem a bs).adit j = s.adit j := s.with_mem_adit _ j
@[simp] theorem State.wrMem_group (a : Nat) (bs : List Byte) (j : Nat) : (s.wrMem a bs).group j = s.group j := s.with_mem_group _ j
@[simp] theorem State.wrMem_fn (a : Nat) (bs : List Byte) (j : Nat) : (s.wrMem a bs).fn j = s.fn j := s.with_mem_fn _ j
@[simp] theorem State.wrMem_vslot (a : Nat) (bs : List Byte) (j : Nat) : (s.wrMem a bs).vslot j = s.vslot j := s.with_mem_vslot _ j
@[simp] theorem State.wrMem_node (a : Nat) (bs : List Byte) (j : Nat) : (s.wrMem a bs).node j = s.node j := s.with_mem_node _ j
@[simp] theorem State.wrMem_sensor (a : Nat) (bs : List Byte) (j : Nat) : (s.wrMem a bs).sensor j = s.sensor j := s.with_mem_sensor _ j
@[simp] theorem State.wrMem_fence (a : Nat) (bs : List Byte) (j : Nat) : (s.wrMem a bs).fence j = s.fence j := s.with_mem_fence _ j

/-! ### wrW -/

@[simp] theorem State.wrW_pending (a : Nat) (v : Word) : (s.wrW a v).pending = s.pending := s.wrMem_pending ..
@[simp] theorem State.wrW_now (a : Nat) (v : Word) : (s.wrW a v).now = s.now := s.wrMem_now ..
@[simp] theorem State.wrW_freeCtr (a : Nat) (v : Word) : (s.wrW a v).freeCtr = s.freeCtr := s.wrMem_freeCtr ..
@[simp] theorem State.wrW_regs (a : Nat) (v : Word) : (s.wrW a v).regs = s.regs := s.wrMem_regs ..
@[simp] theorem State.wrW_stopes (a : Nat) (v : Word) : (s.wrW a v).stopes = s.stopes := s.wrMem_stopes ..
@[simp] theorem State.wrW_cores (a : Nat) (v : Word) : (s.wrW a v).cores = s.cores := s.wrMem_cores ..
@[simp] theorem State.wrW_noc (a : Nat) (v : Word) : (s.wrW a v).noc = s.noc := s.wrMem_noc ..
@[simp] theorem State.wrW_kv (a : Nat) (v : Word) : (s.wrW a v).kv = s.kv := s.wrMem_kv ..
@[simp] theorem State.wrW_wnd (a : Nat) (v : Word) : (s.wrW a v).wnd = s.wnd := s.wrMem_wnd ..
@[simp] theorem State.wrW_swap (a : Nat) (v : Word) : (s.wrW a v).swap = s.swap := s.wrMem_swap ..
@[simp] theorem State.wrW_tally (a : Nat) (v : Word) : (s.wrW a v).tally = s.tally := s.wrMem_tally ..
@[simp] theorem State.wrW_fab (a : Nat) (v : Word) : (s.wrW a v).fab = s.fab := s.wrMem_fab ..
@[simp] theorem State.wrW_hf (a : Nat) (v : Word) : (s.wrW a v).hf = s.hf := s.wrMem_hf ..
@[simp] theorem State.wrW_edge (a : Nat) (v : Word) : (s.wrW a v).edge = s.edge := s.wrMem_edge ..
@[simp] theorem State.wrW_rd (a : Nat) (v : Word) (j : Nat) : (s.wrW a v).rd j = s.rd j := s.wrMem_rd ..
@[simp] theorem State.wrW_stope (a : Nat) (v : Word) (j : Nat) : (s.wrW a v).stope j = s.stope j := s.wrMem_stope ..
@[simp] theorem State.wrW_core (a : Nat) (v : Word) (j : Nat) : (s.wrW a v).core j = s.core j := s.wrMem_core ..
@[simp] theorem State.wrW_stream (a : Nat) (v : Word) (j : Nat) : (s.wrW a v).stream j = s.stream j := s.wrMem_stream ..
@[simp] theorem State.wrW_cls (a : Nat) (v : Word) (j : Nat) : (s.wrW a v).cls j = s.cls j := s.wrMem_cls ..
@[simp] theorem State.wrW_evr (a : Nat) (v : Word) (j : Nat) : (s.wrW a v).evr j = s.evr j := s.wrMem_evr ..
@[simp] theorem State.wrW_port (a : Nat) (v : Word) (j : Nat) : (s.wrW a v).port j = s.port j := s.wrMem_port ..
@[simp] theorem State.wrW_adit (a : Nat) (v : Word) (j : Nat) : (s.wrW a v).adit j = s.adit j := s.wrMem_adit ..
@[simp] theorem State.wrW_group (a : Nat) (v : Word) (j : Nat) : (s.wrW a v).group j = s.group j := s.wrMem_group ..
@[simp] theorem State.wrW_fn (a : Nat) (v : Word) (j : Nat) : (s.wrW a v).fn j = s.fn j := s.wrMem_fn ..
@[simp] theorem State.wrW_vslot (a : Nat) (v : Word) (j : Nat) : (s.wrW a v).vslot j = s.vslot j := s.wrMem_vslot ..
@[simp] theorem State.wrW_node (a : Nat) (v : Word) (j : Nat) : (s.wrW a v).node j = s.node j := s.wrMem_node ..
@[simp] theorem State.wrW_sensor (a : Nat) (v : Word) (j : Nat) : (s.wrW a v).sensor j = s.sensor j := s.wrMem_sensor ..
@[simp] theorem State.wrW_fence (a : Nat) (v : Word) (j : Nat) : (s.wrW a v).fence j = s.fence j := s.wrMem_fence ..

/-! ### wrD -/

@[simp] theorem State.wrD_pending (a v : Nat) : (s.wrD a v).pending = s.pending := s.wrMem_pending ..
@[simp] theorem State.wrD_now (a v : Nat) : (s.wrD a v).now = s.now := s.wrMem_now ..
@[simp] theorem State.wrD_freeCtr (a v : Nat) : (s.wrD a v).freeCtr = s.freeCtr := s.wrMem_freeCtr ..
@[simp] theorem State.wrD_regs (a v : Nat) : (s.wrD a v).regs = s.regs := s.wrMem_regs ..
@[simp] theorem State.wrD_stopes (a v : Nat) : (s.wrD a v).stopes = s.stopes := s.wrMem_stopes ..
@[simp] theorem State.wrD_cores (a v : Nat) : (s.wrD a v).cores = s.cores := s.wrMem_cores ..
@[simp] theorem State.wrD_noc (a v : Nat) : (s.wrD a v).noc = s.noc := s.wrMem_noc ..
@[simp] theorem State.wrD_kv (a v : Nat) : (s.wrD a v).kv = s.kv := s.wrMem_kv ..
@[simp] theorem State.wrD_wnd (a v : Nat) : (s.wrD a v).wnd = s.wnd := s.wrMem_wnd ..
@[simp] theorem State.wrD_swap (a v : Nat) : (s.wrD a v).swap = s.swap := s.wrMem_swap ..
@[simp] theorem State.wrD_tally (a v : Nat) : (s.wrD a v).tally = s.tally := s.wrMem_tally ..
@[simp] theorem State.wrD_fab (a v : Nat) : (s.wrD a v).fab = s.fab := s.wrMem_fab ..
@[simp] theorem State.wrD_hf (a v : Nat) : (s.wrD a v).hf = s.hf := s.wrMem_hf ..
@[simp] theorem State.wrD_edge (a v : Nat) : (s.wrD a v).edge = s.edge := s.wrMem_edge ..
@[simp] theorem State.wrD_rd (a v : Nat) (j : Nat) : (s.wrD a v).rd j = s.rd j := s.wrMem_rd ..
@[simp] theorem State.wrD_stope (a v : Nat) (j : Nat) : (s.wrD a v).stope j = s.stope j := s.wrMem_stope ..
@[simp] theorem State.wrD_core (a v : Nat) (j : Nat) : (s.wrD a v).core j = s.core j := s.wrMem_core ..
@[simp] theorem State.wrD_stream (a v : Nat) (j : Nat) : (s.wrD a v).stream j = s.stream j := s.wrMem_stream ..
@[simp] theorem State.wrD_cls (a v : Nat) (j : Nat) : (s.wrD a v).cls j = s.cls j := s.wrMem_cls ..
@[simp] theorem State.wrD_evr (a v : Nat) (j : Nat) : (s.wrD a v).evr j = s.evr j := s.wrMem_evr ..
@[simp] theorem State.wrD_port (a v : Nat) (j : Nat) : (s.wrD a v).port j = s.port j := s.wrMem_port ..
@[simp] theorem State.wrD_adit (a v : Nat) (j : Nat) : (s.wrD a v).adit j = s.adit j := s.wrMem_adit ..
@[simp] theorem State.wrD_group (a v : Nat) (j : Nat) : (s.wrD a v).group j = s.group j := s.wrMem_group ..
@[simp] theorem State.wrD_fn (a v : Nat) (j : Nat) : (s.wrD a v).fn j = s.fn j := s.wrMem_fn ..
@[simp] theorem State.wrD_vslot (a v : Nat) (j : Nat) : (s.wrD a v).vslot j = s.vslot j := s.wrMem_vslot ..
@[simp] theorem State.wrD_node (a v : Nat) (j : Nat) : (s.wrD a v).node j = s.node j := s.wrMem_node ..
@[simp] theorem State.wrD_sensor (a v : Nat) (j : Nat) : (s.wrD a v).sensor j = s.sensor j := s.wrMem_sensor ..
@[simp] theorem State.wrD_fence (a v : Nat) (j : Nat) : (s.wrD a v).fence j = s.fence j := s.wrMem_fence ..

/-! ### setStope -/

@[simp] theorem State.setStope_pending (k : Nat) (t : Stope) : (s.setStope k t).pending = s.pending := s.with_stopes_pending _
@[simp] theorem State.setStope_now (k : Nat) (t : Stope) : (s.setStope k t).now = s.now := s.with_stopes_now _
@[simp] theorem State.setStope_freeCtr (k : Nat) (t : Stope) : (s.setStope k t).freeCtr = s.freeCtr := s.with_stopes_freeCtr _
@[simp] theorem State.setStope_regs (k : Nat) (t : Stope) : (s.setStope k t).regs = s.regs := s.with_stopes_regs _
@[simp] theorem State.setStope_mem (k : Nat) (t : Stope) : (s.setStope k t).mem = s.mem := s.with_stopes_mem _
@[simp] theorem State.setStope_cores (k : Nat) (t : Stope) : (s.setStope k t).cores = s.cores := s.with_stopes_cores _
@[simp] theorem State.setStope_noc (k : Nat) (t : Stope) : (s.setStope k t).noc = s.noc := s.with_stopes_noc _
@[simp] theorem State.setStope_kv (k : Nat) (t : Stope) : (s.setStope k t).kv = s.kv := s.with_stopes_kv _
@[simp] theorem State.setStope_wnd (k : Nat) (t : Stope) : (s.setStope k t).wnd = s.wnd := s.with_stopes_wnd _
@[simp] theorem State.setStope_swap (k : Nat) (t : Stope) : (s.setStope k t).swap = s.swap := s.with_stopes_swap _
@[simp] theorem State.setStope_tally (k : Nat) (t : Stope) : (s.setStope k t).tally = s.tally := s.with_stopes_tally _
@[simp] theorem State.setStope_fab (k : Nat) (t : Stope) : (s.setStope k t).fab = s.fab := s.with_stopes_fab _
@[simp] theorem State.setStope_hf (k : Nat) (t : Stope) : (s.setStope k t).hf = s.hf := s.with_stopes_hf _
@[simp] theorem State.setStope_edge (k : Nat) (t : Stope) : (s.setStope k t).edge = s.edge := s.with_stopes_edge _
@[simp] theorem State.setStope_rd (k : Nat) (t : Stope) (j : Nat) : (s.setStope k t).rd j = s.rd j := s.with_stopes_rd _ j
@[simp] theorem State.setStope_core (k : Nat) (t : Stope) (j : Nat) : (s.setStope k t).core j = s.core j := s.with_stopes_core _ j
@[simp] theorem State.setStope_stream (k : Nat) (t : Stope) (j : Nat) : (s.setStope k t).stream j = s.stream j := s.with_stopes_stream _ j
@[simp] theorem State.setStope_cls (k : Nat) (t : Stope) (j : Nat) : (s.setStope k t).cls j = s.cls j := s.with_stopes_cls _ j
@[simp] theorem State.setStope_evr (k : Nat) (t : Stope) (j : Nat) : (s.setStope k t).evr j = s.evr j := s.with_stopes_evr _ j
@[simp] theorem State.setStope_port (k : Nat) (t : Stope) (j : Nat) : (s.setStope k t).port j = s.port j := s.with_stopes_port _ j
@[simp] theorem State.setStope_adit (k : Nat) (t : Stope) (j : Nat) : (s.setStope k t).adit j = s.adit j := s.with_stopes_adit _ j
@[simp] theorem State.setStope_group (k : Nat) (t : Stope) (j : Nat) : (s.setStope k t).group j = s.group j := s.with_stopes_group _ j
@[simp] theorem State.setStope_fn (k : Nat) (t : Stope) (j : Nat) : (s.setStope k t).fn j = s.fn j := s.with_stopes_fn _ j
@[simp] theorem State.setStope_vslot (k : Nat) (t : Stope) (j : Nat) : (s.setStope k t).vslot j = s.vslot j := s.with_stopes_vslot _ j
@[simp] theorem State.setStope_node (k : Nat) (t : Stope) (j : Nat) : (s.setStope k t).node j = s.node j := s.with_stopes_node _ j
@[simp] theorem State.setStope_sensor (k : Nat) (t : Stope) (j : Nat) : (s.setStope k t).sensor j = s.sensor j := s.with_stopes_sensor _ j
@[simp] theorem State.setStope_fence (k : Nat) (t : Stope) (j : Nat) : (s.setStope k t).fence j = s.fence j := s.with_stopes_fence _ j

/-! ### updStope -/

@[simp] theorem State.updStope_pending (k : Nat) (f : Stope → Stope) : (s.updStope k f).pending = s.pending := s.setStope_pending ..
@[simp] theorem State.updStope_now (k : Nat) (f : Stope → Stope) : (s.updStope k f).now = s.now := s.setStope_now ..
@[simp] theorem State.updStope_freeCtr (k : Nat) (f : Stope → Stope) : (s.updStope k f).freeCtr = s.freeCtr := s.setStope_freeCtr ..
@[simp] theorem State.updStope_regs (k : Nat) (f : Stope → Stope) : (s.updStope k f).regs = s.regs := s.setStope_regs ..
@[simp] theorem State.updStope_mem (k : Nat) (f : Stope → Stope) : (s.updStope k f).mem = s.mem := s.setStope_mem ..
@[simp] theorem State.updStope_cores (k : Nat) (f : Stope → Stope) : (s.updStope k f).cores = s.cores := s.setStope_cores ..
@[simp] theorem State.updStope_noc (k : Nat) (f : Stope → Stope) : (s.updStope k f).noc = s.noc := s.setStope_noc ..
@[simp] theorem State.updStope_kv (k : Nat) (f : Stope → Stope) : (s.updStope k f).kv = s.kv := s.setStope_kv ..
@[simp] theorem State.updStope_wnd (k : Nat) (f : Stope → Stope) : (s.updStope k f).wnd = s.wnd := s.setStope_wnd ..
@[simp] theorem State.updStope_swap (k : Nat) (f : Stope → Stope) : (s.updStope k f).swap = s.swap := s.setStope_swap ..
@[simp] theorem State.updStope_tally (k : Nat) (f : Stope → Stope) : (s.updStope k f).tally = s.tally := s.setStope_tally ..
@[simp] theorem State.updStope_fab (k : Nat) (f : Stope → Stope) : (s.updStope k f).fab = s.fab := s.setStope_fab ..
@[simp] theorem State.updStope_hf (k : Nat) (f : Stope → Stope) : (s.updStope k f).hf = s.hf := s.setStope_hf ..
@[simp] theorem State.updStope_edge (k : Nat) (f : Stope → Stope) : (s.updStope k f).edge = s.edge := s.setStope_edge ..
@[simp] theorem State.updStope_rd (k : Nat) (f : Stope → Stope) (j : Nat) : (s.updStope k f).rd j = s.rd j := s.setStope_rd ..
@[simp] theorem State.updStope_core (k : Nat) (f : Stope → Stope) (j : Nat) : (s.updStope k f).core j = s.core j := s.setStope_core ..
@[simp] theorem State.updStope_stream (k : Nat) (f : Stope → Stope) (j : Nat) : (s.updStope k f).stream j = s.stream j := s.setStope_stream ..
@[simp] theorem State.updStope_cls (k : Nat) (f : Stope → Stope) (j : Nat) : (s.updStope k f).cls j = s.cls j := s.setStope_cls ..
@[simp] theorem State.updStope_evr (k : Nat) (f : Stope → Stope) (j : Nat) : (s.updStope k f).evr j = s.evr j := s.setStope_evr ..
@[simp] theorem State.updStope_port (k : Nat) (f : Stope → Stope) (j : Nat) : (s.updStope k f).port j = s.port j := s.setStope_port ..
@[simp] theorem State.updStope_adit (k : Nat) (f : Stope → Stope) (j : Nat) : (s.updStope k f).adit j = s.adit j := s.setStope_adit ..
@[simp] theorem State.updStope_group (k : Nat) (f : Stope → Stope) (j : Nat) : (s.updStope k f).group j = s.group j := s.setStope_group ..
@[simp] theorem State.updStope_fn (k : Nat) (f : Stope → Stope) (j : Nat) : (s.updStope k f).fn j = s.fn j := s.setStope_fn ..
@[simp] theorem State.updStope_vslot (k : Nat) (f : Stope → Stope) (j : Nat) : (s.updStope k f).vslot j = s.vslot j := s.setStope_vslot ..
@[simp] theorem State.updStope_node (k : Nat) (f : Stope → Stope) (j : Nat) : (s.updStope k f).node j = s.node j := s.setStope_node ..
@[simp] theorem State.updStope_sensor (k : Nat) (f : Stope → Stope) (j : Nat) : (s.updStope k f).sensor j = s.sensor j := s.setStope_sensor ..
@[simp] theorem State.updStope_fence (k : Nat) (f : Stope → Stope) (j : Nat) : (s.updStope k f).fence j = s.fence j := s.setStope_fence ..

/-! ### setCore -/

@[simp] theorem State.setCore_pending (k : Nat) (t : Core) : (s.setCore k t).pending = s.pending := s.with_cores_pending _
@[simp] theorem State.setCore_now (k : Nat) (t : Core) : (s.setCore k t).now = s.now := s.with_cores_now _
@[simp] theorem State.setCore_freeCtr (k : Nat) (t : Core) : (s.setCore k t).freeCtr = s.freeCtr := s.with_cores_freeCtr _
@[simp] theorem State.setCore_regs (k : Nat) (t : Core) : (s.setCore k t).regs = s.regs := s.with_cores_regs _
@[simp] theorem State.setCore_mem (k : Nat) (t : Core) : (s.setCore k t).mem = s.mem := s.with_cores_mem _
@[simp] theorem State.setCore_stopes (k : Nat) (t : Core) : (s.setCore k t).stopes = s.stopes := s.with_cores_stopes _
@[simp] theorem State.setCore_noc (k : Nat) (t : Core) : (s.setCore k t).noc = s.noc := s.with_cores_noc _
@[simp] theorem State.setCore_kv (k : Nat) (t : Core) : (s.setCore k t).kv = s.kv := s.with_cores_kv _
@[simp] theorem State.setCore_wnd (k : Nat) (t : Core) : (s.setCore k t).wnd = s.wnd := s.with_cores_wnd _
@[simp] theorem State.setCore_swap (k : Nat) (t : Core) : (s.setCore k t).swap = s.swap := s.with_cores_swap _
@[simp] theorem State.setCore_tally (k : Nat) (t : Core) : (s.setCore k t).tally = s.tally := s.with_cores_tally _
@[simp] theorem State.setCore_fab (k : Nat) (t : Core) : (s.setCore k t).fab = s.fab := s.with_cores_fab _
@[simp] theorem State.setCore_hf (k : Nat) (t : Core) : (s.setCore k t).hf = s.hf := s.with_cores_hf _
@[simp] theorem State.setCore_edge (k : Nat) (t : Core) : (s.setCore k t).edge = s.edge := s.with_cores_edge _
@[simp] theorem State.setCore_rd (k : Nat) (t : Core) (j : Nat) : (s.setCore k t).rd j = s.rd j := s.with_cores_rd _ j
@[simp] theorem State.setCore_stope (k : Nat) (t : Core) (j : Nat) : (s.setCore k t).stope j = s.stope j := s.with_cores_stope _ j
@[simp] theorem State.setCore_stream (k : Nat) (t : Core) (j : Nat) : (s.setCore k t).stream j = s.stream j := s.with_cores_stream _ j
@[simp] theorem State.setCore_cls (k : Nat) (t : Core) (j : Nat) : (s.setCore k t).cls j = s.cls j := s.with_cores_cls _ j
@[simp] theorem State.setCore_evr (k : Nat) (t : Core) (j : Nat) : (s.setCore k t).evr j = s.evr j := s.with_cores_evr _ j
@[simp] theorem State.setCore_port (k : Nat) (t : Core) (j : Nat) : (s.setCore k t).port j = s.port j := s.with_cores_port _ j
@[simp] theorem State.setCore_adit (k : Nat) (t : Core) (j : Nat) : (s.setCore k t).adit j = s.adit j := s.with_cores_adit _ j
@[simp] theorem State.setCore_group (k : Nat) (t : Core) (j : Nat) : (s.setCore k t).group j = s.group j := s.with_cores_group _ j
@[simp] theorem State.setCore_fn (k : Nat) (t : Core) (j : Nat) : (s.setCore k t).fn j = s.fn j := s.with_cores_fn _ j
@[simp] theorem State.setCore_vslot (k : Nat) (t : Core) (j : Nat) : (s.setCore k t).vslot j = s.vslot j := s.with_cores_vslot _ j
@[simp] theorem State.setCore_node (k : Nat) (t : Core) (j : Nat) : (s.setCore k t).node j = s.node j := s.with_cores_node _ j
@[simp] theorem State.setCore_sensor (k : Nat) (t : Core) (j : Nat) : (s.setCore k t).sensor j = s.sensor j := s.with_cores_sensor _ j
@[simp] theorem State.setCore_fence (k : Nat) (t : Core) (j : Nat) : (s.setCore k t).fence j = s.fence j := s.with_cores_fence _ j

/-! ### updCore -/

@[simp] theorem State.updCore_pending (k : Nat) (f : Core → Core) : (s.updCore k f).pending = s.pending := s.setCore_pending ..
@[simp] theorem State.updCore_now (k : Nat) (f : Core → Core) : (s.updCore k f).now = s.now := s.setCore_now ..
@[simp] theorem State.updCore_freeCtr (k : Nat) (f : Core → Core) : (s.updCore k f).freeCtr = s.freeCtr := s.setCore_freeCtr ..
@[simp] theorem State.updCore_regs (k : Nat) (f : Core → Core) : (s.updCore k f).regs = s.regs := s.setCore_regs ..
@[simp] theorem State.updCore_mem (k : Nat) (f : Core → Core) : (s.updCore k f).mem = s.mem := s.setCore_mem ..
@[simp] theorem State.updCore_stopes (k : Nat) (f : Core → Core) : (s.updCore k f).stopes = s.stopes := s.setCore_stopes ..
@[simp] theorem State.updCore_noc (k : Nat) (f : Core → Core) : (s.updCore k f).noc = s.noc := s.setCore_noc ..
@[simp] theorem State.updCore_kv (k : Nat) (f : Core → Core) : (s.updCore k f).kv = s.kv := s.setCore_kv ..
@[simp] theorem State.updCore_wnd (k : Nat) (f : Core → Core) : (s.updCore k f).wnd = s.wnd := s.setCore_wnd ..
@[simp] theorem State.updCore_swap (k : Nat) (f : Core → Core) : (s.updCore k f).swap = s.swap := s.setCore_swap ..
@[simp] theorem State.updCore_tally (k : Nat) (f : Core → Core) : (s.updCore k f).tally = s.tally := s.setCore_tally ..
@[simp] theorem State.updCore_fab (k : Nat) (f : Core → Core) : (s.updCore k f).fab = s.fab := s.setCore_fab ..
@[simp] theorem State.updCore_hf (k : Nat) (f : Core → Core) : (s.updCore k f).hf = s.hf := s.setCore_hf ..
@[simp] theorem State.updCore_edge (k : Nat) (f : Core → Core) : (s.updCore k f).edge = s.edge := s.setCore_edge ..
@[simp] theorem State.updCore_rd (k : Nat) (f : Core → Core) (j : Nat) : (s.updCore k f).rd j = s.rd j := s.setCore_rd ..
@[simp] theorem State.updCore_stope (k : Nat) (f : Core → Core) (j : Nat) : (s.updCore k f).stope j = s.stope j := s.setCore_stope ..
@[simp] theorem State.updCore_stream (k : Nat) (f : Core → Core) (j : Nat) : (s.updCore k f).stream j = s.stream j := s.setCore_stream ..
@[simp] theorem State.updCore_cls (k : Nat) (f : Core → Core) (j : Nat) : (s.updCore k f).cls j = s.cls j := s.setCore_cls ..
@[simp] theorem State.updCore_evr (k : Nat) (f : Core → Core) (j : Nat) : (s.updCore k f).evr j = s.evr j := s.setCore_evr ..
@[simp] theorem State.updCore_port (k : Nat) (f : Core → Core) (j : Nat) : (s.updCore k f).port j = s.port j := s.setCore_port ..
@[simp] theorem State.updCore_adit (k : Nat) (f : Core → Core) (j : Nat) : (s.updCore k f).adit j = s.adit j := s.setCore_adit ..
@[simp] theorem State.updCore_group (k : Nat) (f : Core → Core) (j : Nat) : (s.updCore k f).group j = s.group j := s.setCore_group ..
@[simp] theorem State.updCore_fn (k : Nat) (f : Core → Core) (j : Nat) : (s.updCore k f).fn j = s.fn j := s.setCore_fn ..
@[simp] theorem State.updCore_vslot (k : Nat) (f : Core → Core) (j : Nat) : (s.updCore k f).vslot j = s.vslot j := s.setCore_vslot ..
@[simp] theorem State.updCore_node (k : Nat) (f : Core → Core) (j : Nat) : (s.updCore k f).node j = s.node j := s.setCore_node ..
@[simp] theorem State.updCore_sensor (k : Nat) (f : Core → Core) (j : Nat) : (s.updCore k f).sensor j = s.sensor j := s.setCore_sensor ..
@[simp] theorem State.updCore_fence (k : Nat) (f : Core → Core) (j : Nat) : (s.updCore k f).fence j = s.fence j := s.setCore_fence ..

/-! ### setStream -/

@[simp] theorem State.setStream_pending (k : Nat) (t : Stream) : (s.setStream k t).pending = s.pending := s.with_wnd_pending _
@[simp] theorem State.setStream_now (k : Nat) (t : Stream) : (s.setStream k t).now = s.now := s.with_wnd_now _
@[simp] theorem State.setStream_freeCtr (k : Nat) (t : Stream) : (s.setStream k t).freeCtr = s.freeCtr := s.with_wnd_freeCtr _
@[simp] theorem State.setStream_regs (k : Nat) (t : Stream) : (s.setStream k t).regs = s.regs := s.with_wnd_regs _
@[simp] theorem State.setStream_mem (k : Nat) (t : Stream) : (s.setStream k t).mem = s.mem := s.with_wnd_mem _
@[simp] theorem State.setStream_stopes (k : Nat) (t : Stream) : (s.setStream k t).stopes = s.stopes := s.with_wnd_stopes _
@[simp] theorem State.setStream_cores (k : Nat) (t : Stream) : (s.setStream k t).cores = s.cores := s.with_wnd_cores _
@[simp] theorem State.setStream_noc (k : Nat) (t : Stream) : (s.setStream k t).noc = s.noc := s.with_wnd_noc _
@[simp] theorem State.setStream_kv (k : Nat) (t : Stream) : (s.setStream k t).kv = s.kv := s.with_wnd_kv _
@[simp] theorem State.setStream_swap (k : Nat) (t : Stream) : (s.setStream k t).swap = s.swap := s.with_wnd_swap _
@[simp] theorem State.setStream_tally (k : Nat) (t : Stream) : (s.setStream k t).tally = s.tally := s.with_wnd_tally _
@[simp] theorem State.setStream_fab (k : Nat) (t : Stream) : (s.setStream k t).fab = s.fab := s.with_wnd_fab _
@[simp] theorem State.setStream_hf (k : Nat) (t : Stream) : (s.setStream k t).hf = s.hf := s.with_wnd_hf _
@[simp] theorem State.setStream_edge (k : Nat) (t : Stream) : (s.setStream k t).edge = s.edge := s.with_wnd_edge _
@[simp] theorem State.setStream_rd (k : Nat) (t : Stream) (j : Nat) : (s.setStream k t).rd j = s.rd j := s.with_wnd_rd _ j
@[simp] theorem State.setStream_stope (k : Nat) (t : Stream) (j : Nat) : (s.setStream k t).stope j = s.stope j := s.with_wnd_stope _ j
@[simp] theorem State.setStream_core (k : Nat) (t : Stream) (j : Nat) : (s.setStream k t).core j = s.core j := s.with_wnd_core _ j
@[simp] theorem State.setStream_cls (k : Nat) (t : Stream) (j : Nat) : (s.setStream k t).cls j = s.cls j := congrArg (fun c => Table.get Class.none c j) (s.wnd.with_streams_classes _)
@[simp] theorem State.setStream_evr (k : Nat) (t : Stream) (j : Nat) : (s.setStream k t).evr j = s.evr j := congrArg (fun c => Table.get EvRing.reset c j) (s.wnd.with_streams_evrs _)
@[simp] theorem State.setStream_port (k : Nat) (t : Stream) (j : Nat) : (s.setStream k t).port j = s.port j := s.with_wnd_port _ j
@[simp] theorem State.setStream_adit (k : Nat) (t : Stream) (j : Nat) : (s.setStream k t).adit j = s.adit j := s.with_wnd_adit _ j
@[simp] theorem State.setStream_group (k : Nat) (t : Stream) (j : Nat) : (s.setStream k t).group j = s.group j := s.with_wnd_group _ j
@[simp] theorem State.setStream_fn (k : Nat) (t : Stream) (j : Nat) : (s.setStream k t).fn j = s.fn j := s.with_wnd_fn _ j
@[simp] theorem State.setStream_vslot (k : Nat) (t : Stream) (j : Nat) : (s.setStream k t).vslot j = s.vslot j := s.with_wnd_vslot _ j
@[simp] theorem State.setStream_node (k : Nat) (t : Stream) (j : Nat) : (s.setStream k t).node j = s.node j := s.with_wnd_node _ j
@[simp] theorem State.setStream_sensor (k : Nat) (t : Stream) (j : Nat) : (s.setStream k t).sensor j = s.sensor j := s.with_wnd_sensor _ j
@[simp] theorem State.setStream_fence (k : Nat) (t : Stream) (j : Nat) : (s.setStream k t).fence j = s.fence j := s.with_wnd_fence _ j

/-! ### updStream -/

@[simp] theorem State.updStream_pending (k : Nat) (f : Stream → Stream) : (s.updStream k f).pending = s.pending := s.setStream_pending ..
@[simp] theorem State.updStream_now (k : Nat) (f : Stream → Stream) : (s.updStream k f).now = s.now := s.setStream_now ..
@[simp] theorem State.updStream_freeCtr (k : Nat) (f : Stream → Stream) : (s.updStream k f).freeCtr = s.freeCtr := s.setStream_freeCtr ..
@[simp] theorem State.updStream_regs (k : Nat) (f : Stream → Stream) : (s.updStream k f).regs = s.regs := s.setStream_regs ..
@[simp] theorem State.updStream_mem (k : Nat) (f : Stream → Stream) : (s.updStream k f).mem = s.mem := s.setStream_mem ..
@[simp] theorem State.updStream_stopes (k : Nat) (f : Stream → Stream) : (s.updStream k f).stopes = s.stopes := s.setStream_stopes ..
@[simp] theorem State.updStream_cores (k : Nat) (f : Stream → Stream) : (s.updStream k f).cores = s.cores := s.setStream_cores ..
@[simp] theorem State.updStream_noc (k : Nat) (f : Stream → Stream) : (s.updStream k f).noc = s.noc := s.setStream_noc ..
@[simp] theorem State.updStream_kv (k : Nat) (f : Stream → Stream) : (s.updStream k f).kv = s.kv := s.setStream_kv ..
@[simp] theorem State.updStream_swap (k : Nat) (f : Stream → Stream) : (s.updStream k f).swap = s.swap := s.setStream_swap ..
@[simp] theorem State.updStream_tally (k : Nat) (f : Stream → Stream) : (s.updStream k f).tally = s.tally := s.setStream_tally ..
@[simp] theorem State.updStream_fab (k : Nat) (f : Stream → Stream) : (s.updStream k f).fab = s.fab := s.setStream_fab ..
@[simp] theorem State.updStream_hf (k : Nat) (f : Stream → Stream) : (s.updStream k f).hf = s.hf := s.setStream_hf ..
@[simp] theorem State.updStream_edge (k : Nat) (f : Stream → Stream) : (s.updStream k f).edge = s.edge := s.setStream_edge ..
@[simp] theorem State.updStream_rd (k : Nat) (f : Stream → Stream) (j : Nat) : (s.updStream k f).rd j = s.rd j := s.setStream_rd ..
@[simp] theorem State.updStream_stope (k : Nat) (f : Stream → Stream) (j : Nat) : (s.updStream k f).stope j = s.stope j := s.setStream_stope ..
@[simp] theorem State.updStream_core (k : Nat) (f : Stream → Stream) (j : Nat) : (s.updStream k f).core j = s.core j := s.setStream_core ..
@[simp] theorem State.updStream_cls (k : Nat) (f : Stream → Stream) (j : Nat) : (s.updStream k f).cls j = s.cls j := s.setStream_cls ..
@[simp] theorem State.updStream_evr (k : Nat) (f : Stream → Stream) (j : Nat) : (s.updStream k f).evr j = s.evr j := s.setStream_evr ..
@[simp] theorem State.updStream_port (k : Nat) (f : Stream → Stream) (j : Nat) : (s.updStream k f).port j = s.port j := s.setStream_port ..
@[simp] theorem State.updStream_adit (k : Nat) (f : Stream → Stream) (j : Nat) : (s.updStream k f).adit j = s.adit j := s.setStream_adit ..
@[simp] theorem State.updStream_group (k : Nat) (f : Stream → Stream) (j : Nat) : (s.updStream k f).group j = s.group j := s.setStream_group ..
@[simp] theorem State.updStream_fn (k : Nat) (f : Stream → Stream) (j : Nat) : (s.updStream k f).fn j = s.fn j := s.setStream_fn ..
@[simp] theorem State.updStream_vslot (k : Nat) (f : Stream → Stream) (j : Nat) : (s.updStream k f).vslot j = s.vslot j := s.setStream_vslot ..
@[simp] theorem State.updStream_node (k : Nat) (f : Stream → Stream) (j : Nat) : (s.updStream k f).node j = s.node j := s.setStream_node ..
@[simp] theorem State.updStream_sensor (k : Nat) (f : Stream → Stream) (j : Nat) : (s.updStream k f).sensor j = s.sensor j := s.setStream_sensor ..
@[simp] theorem State.updStream_fence (k : Nat) (f : Stream → Stream) (j : Nat) : (s.updStream k f).fence j = s.fence j := s.setStream_fence ..

/-! ### setCls -/

@[simp] theorem State.setCls_pending (k : Nat) (t : Class) : (s.setCls k t).pending = s.pending := s.with_wnd_pending _
@[simp] theorem State.setCls_now (k : Nat) (t : Class) : (s.setCls k t).now = s.now := s.with_wnd_now _
@[simp] theorem State.setCls_freeCtr (k : Nat) (t : Class) : (s.setCls k t).freeCtr = s.freeCtr := s.with_wnd_freeCtr _
@[simp] theorem State.setCls_regs (k : Nat) (t : Class) : (s.setCls k t).regs = s.regs := s.with_wnd_regs _
@[simp] theorem State.setCls_mem (k : Nat) (t : Class) : (s.setCls k t).mem = s.mem := s.with_wnd_mem _
@[simp] theorem State.setCls_stopes (k : Nat) (t : Class) : (s.setCls k t).stopes = s.stopes := s.with_wnd_stopes _
@[simp] theorem State.setCls_cores (k : Nat) (t : Class) : (s.setCls k t).cores = s.cores := s.with_wnd_cores _
@[simp] theorem State.setCls_noc (k : Nat) (t : Class) : (s.setCls k t).noc = s.noc := s.with_wnd_noc _
@[simp] theorem State.setCls_kv (k : Nat) (t : Class) : (s.setCls k t).kv = s.kv := s.with_wnd_kv _
@[simp] theorem State.setCls_swap (k : Nat) (t : Class) : (s.setCls k t).swap = s.swap := s.with_wnd_swap _
@[simp] theorem State.setCls_tally (k : Nat) (t : Class) : (s.setCls k t).tally = s.tally := s.with_wnd_tally _
@[simp] theorem State.setCls_fab (k : Nat) (t : Class) : (s.setCls k t).fab = s.fab := s.with_wnd_fab _
@[simp] theorem State.setCls_hf (k : Nat) (t : Class) : (s.setCls k t).hf = s.hf := s.with_wnd_hf _
@[simp] theorem State.setCls_edge (k : Nat) (t : Class) : (s.setCls k t).edge = s.edge := s.with_wnd_edge _
@[simp] theorem State.setCls_rd (k : Nat) (t : Class) (j : Nat) : (s.setCls k t).rd j = s.rd j := s.with_wnd_rd _ j
@[simp] theorem State.setCls_stope (k : Nat) (t : Class) (j : Nat) : (s.setCls k t).stope j = s.stope j := s.with_wnd_stope _ j
@[simp] theorem State.setCls_core (k : Nat) (t : Class) (j : Nat) : (s.setCls k t).core j = s.core j := s.with_wnd_core _ j
@[simp] theorem State.setCls_stream (k : Nat) (t : Class) (j : Nat) : (s.setCls k t).stream j = s.stream j := congrArg (fun c => Table.get Stream.free c j) (s.wnd.with_classes_streams _)
@[simp] theorem State.setCls_evr (k : Nat) (t : Class) (j : Nat) : (s.setCls k t).evr j = s.evr j := congrArg (fun c => Table.get EvRing.reset c j) (s.wnd.with_classes_evrs _)
@[simp] theorem State.setCls_port (k : Nat) (t : Class) (j : Nat) : (s.setCls k t).port j = s.port j := s.with_wnd_port _ j
@[simp] theorem State.setCls_adit (k : Nat) (t : Class) (j : Nat) : (s.setCls k t).adit j = s.adit j := s.with_wnd_adit _ j
@[simp] theorem State.setCls_group (k : Nat) (t : Class) (j : Nat) : (s.setCls k t).group j = s.group j := s.with_wnd_group _ j
@[simp] theorem State.setCls_fn (k : Nat) (t : Class) (j : Nat) : (s.setCls k t).fn j = s.fn j := s.with_wnd_fn _ j
@[simp] theorem State.setCls_vslot (k : Nat) (t : Class) (j : Nat) : (s.setCls k t).vslot j = s.vslot j := s.with_wnd_vslot _ j
@[simp] theorem State.setCls_node (k : Nat) (t : Class) (j : Nat) : (s.setCls k t).node j = s.node j := s.with_wnd_node _ j
@[simp] theorem State.setCls_sensor (k : Nat) (t : Class) (j : Nat) : (s.setCls k t).sensor j = s.sensor j := s.with_wnd_sensor _ j
@[simp] theorem State.setCls_fence (k : Nat) (t : Class) (j : Nat) : (s.setCls k t).fence j = s.fence j := s.with_wnd_fence _ j

/-! ### setEvr -/

@[simp] theorem State.setEvr_pending (k : Nat) (t : EvRing) : (s.setEvr k t).pending = s.pending := s.with_wnd_pending _
@[simp] theorem State.setEvr_now (k : Nat) (t : EvRing) : (s.setEvr k t).now = s.now := s.with_wnd_now _
@[simp] theorem State.setEvr_freeCtr (k : Nat) (t : EvRing) : (s.setEvr k t).freeCtr = s.freeCtr := s.with_wnd_freeCtr _
@[simp] theorem State.setEvr_regs (k : Nat) (t : EvRing) : (s.setEvr k t).regs = s.regs := s.with_wnd_regs _
@[simp] theorem State.setEvr_mem (k : Nat) (t : EvRing) : (s.setEvr k t).mem = s.mem := s.with_wnd_mem _
@[simp] theorem State.setEvr_stopes (k : Nat) (t : EvRing) : (s.setEvr k t).stopes = s.stopes := s.with_wnd_stopes _
@[simp] theorem State.setEvr_cores (k : Nat) (t : EvRing) : (s.setEvr k t).cores = s.cores := s.with_wnd_cores _
@[simp] theorem State.setEvr_noc (k : Nat) (t : EvRing) : (s.setEvr k t).noc = s.noc := s.with_wnd_noc _
@[simp] theorem State.setEvr_kv (k : Nat) (t : EvRing) : (s.setEvr k t).kv = s.kv := s.with_wnd_kv _
@[simp] theorem State.setEvr_swap (k : Nat) (t : EvRing) : (s.setEvr k t).swap = s.swap := s.with_wnd_swap _
@[simp] theorem State.setEvr_tally (k : Nat) (t : EvRing) : (s.setEvr k t).tally = s.tally := s.with_wnd_tally _
@[simp] theorem State.setEvr_fab (k : Nat) (t : EvRing) : (s.setEvr k t).fab = s.fab := s.with_wnd_fab _
@[simp] theorem State.setEvr_hf (k : Nat) (t : EvRing) : (s.setEvr k t).hf = s.hf := s.with_wnd_hf _
@[simp] theorem State.setEvr_edge (k : Nat) (t : EvRing) : (s.setEvr k t).edge = s.edge := s.with_wnd_edge _
@[simp] theorem State.setEvr_rd (k : Nat) (t : EvRing) (j : Nat) : (s.setEvr k t).rd j = s.rd j := s.with_wnd_rd _ j
@[simp] theorem State.setEvr_stope (k : Nat) (t : EvRing) (j : Nat) : (s.setEvr k t).stope j = s.stope j := s.with_wnd_stope _ j
@[simp] theorem State.setEvr_core (k : Nat) (t : EvRing) (j : Nat) : (s.setEvr k t).core j = s.core j := s.with_wnd_core _ j
@[simp] theorem State.setEvr_stream (k : Nat) (t : EvRing) (j : Nat) : (s.setEvr k t).stream j = s.stream j := congrArg (fun c => Table.get Stream.free c j) (s.wnd.with_evrs_streams _)
@[simp] theorem State.setEvr_cls (k : Nat) (t : EvRing) (j : Nat) : (s.setEvr k t).cls j = s.cls j := congrArg (fun c => Table.get Class.none c j) (s.wnd.with_evrs_classes _)
@[simp] theorem State.setEvr_port (k : Nat) (t : EvRing) (j : Nat) : (s.setEvr k t).port j = s.port j := s.with_wnd_port _ j
@[simp] theorem State.setEvr_adit (k : Nat) (t : EvRing) (j : Nat) : (s.setEvr k t).adit j = s.adit j := s.with_wnd_adit _ j
@[simp] theorem State.setEvr_group (k : Nat) (t : EvRing) (j : Nat) : (s.setEvr k t).group j = s.group j := s.with_wnd_group _ j
@[simp] theorem State.setEvr_fn (k : Nat) (t : EvRing) (j : Nat) : (s.setEvr k t).fn j = s.fn j := s.with_wnd_fn _ j
@[simp] theorem State.setEvr_vslot (k : Nat) (t : EvRing) (j : Nat) : (s.setEvr k t).vslot j = s.vslot j := s.with_wnd_vslot _ j
@[simp] theorem State.setEvr_node (k : Nat) (t : EvRing) (j : Nat) : (s.setEvr k t).node j = s.node j := s.with_wnd_node _ j
@[simp] theorem State.setEvr_sensor (k : Nat) (t : EvRing) (j : Nat) : (s.setEvr k t).sensor j = s.sensor j := s.with_wnd_sensor _ j
@[simp] theorem State.setEvr_fence (k : Nat) (t : EvRing) (j : Nat) : (s.setEvr k t).fence j = s.fence j := s.with_wnd_fence _ j

/-! ### setPort -/

@[simp] theorem State.setPort_pending (k : Nat) (t : Port) : (s.setPort k t).pending = s.pending := s.with_fab_pending _
@[simp] theorem State.setPort_now (k : Nat) (t : Port) : (s.setPort k t).now = s.now := s.with_fab_now _
@[simp] theorem State.setPort_freeCtr (k : Nat) (t : Port) : (s.setPort k t).freeCtr = s.freeCtr := s.with_fab_freeCtr _
@[simp] theorem State.setPort_regs (k : Nat) (t : Port) : (s.setPort k t).regs = s.regs := s.with_fab_regs _
@[simp] theorem State.setPort_mem (k : Nat) (t : Port) : (s.setPort k t).mem = s.mem := s.with_fab_mem _
@[simp] theorem State.setPort_stopes (k : Nat) (t : Port) : (s.setPort k t).stopes = s.stopes := s.with_fab_stopes _
@[simp] theorem State.setPort_cores (k : Nat) (t : Port) : (s.setPort k t).cores = s.cores := s.with_fab_cores _
@[simp] theorem State.setPort_noc (k : Nat) (t : Port) : (s.setPort k t).noc = s.noc := s.with_fab_noc _
@[simp] theorem State.setPort_kv (k : Nat) (t : Port) : (s.setPort k t).kv = s.kv := s.with_fab_kv _
@[simp] theorem State.setPort_wnd (k : Nat) (t : Port) : (s.setPort k t).wnd = s.wnd := s.with_fab_wnd _
@[simp] theorem State.setPort_swap (k : Nat) (t : Port) : (s.setPort k t).swap = s.swap := s.with_fab_swap _
@[simp] theorem State.setPort_tally (k : Nat) (t : Port) : (s.setPort k t).tally = s.tally := s.with_fab_tally _
@[simp] theorem State.setPort_hf (k : Nat) (t : Port) : (s.setPort k t).hf = s.hf := s.with_fab_hf _
@[simp] theorem State.setPort_edge (k : Nat) (t : Port) : (s.setPort k t).edge = s.edge := s.with_fab_edge _
@[simp] theorem State.setPort_rd (k : Nat) (t : Port) (j : Nat) : (s.setPort k t).rd j = s.rd j := s.with_fab_rd _ j
@[simp] theorem State.setPort_stope (k : Nat) (t : Port) (j : Nat) : (s.setPort k t).stope j = s.stope j := s.with_fab_stope _ j
@[simp] theorem State.setPort_core (k : Nat) (t : Port) (j : Nat) : (s.setPort k t).core j = s.core j := s.with_fab_core _ j
@[simp] theorem State.setPort_stream (k : Nat) (t : Port) (j : Nat) : (s.setPort k t).stream j = s.stream j := s.with_fab_stream _ j
@[simp] theorem State.setPort_cls (k : Nat) (t : Port) (j : Nat) : (s.setPort k t).cls j = s.cls j := s.with_fab_cls _ j
@[simp] theorem State.setPort_evr (k : Nat) (t : Port) (j : Nat) : (s.setPort k t).evr j = s.evr j := s.with_fab_evr _ j
@[simp] theorem State.setPort_adit (k : Nat) (t : Port) (j : Nat) : (s.setPort k t).adit j = s.adit j := congrArg (fun c => Table.get Adit.reset c j) (s.fab.with_ports_adits _)
@[simp] theorem State.setPort_group (k : Nat) (t : Port) (j : Nat) : (s.setPort k t).group j = s.group j := congrArg (fun c => Table.get Group.none c j) (s.fab.with_ports_groups _)
@[simp] theorem State.setPort_fn (k : Nat) (t : Port) (j : Nat) : (s.setPort k t).fn j = s.fn j := s.with_fab_fn _ j
@[simp] theorem State.setPort_vslot (k : Nat) (t : Port) (j : Nat) : (s.setPort k t).vslot j = s.vslot j := s.with_fab_vslot _ j
@[simp] theorem State.setPort_node (k : Nat) (t : Port) (j : Nat) : (s.setPort k t).node j = s.node j := s.with_fab_node _ j
@[simp] theorem State.setPort_sensor (k : Nat) (t : Port) (j : Nat) : (s.setPort k t).sensor j = s.sensor j := s.with_fab_sensor _ j
@[simp] theorem State.setPort_fence (k : Nat) (t : Port) (j : Nat) : (s.setPort k t).fence j = s.fence j := s.with_fab_fence _ j

/-! ### updPort -/

@[simp] theorem State.updPort_pending (k : Nat) (f : Port → Port) : (s.updPort k f).pending = s.pending := s.setPort_pending ..
@[simp] theorem State.updPort_now (k : Nat) (f : Port → Port) : (s.updPort k f).now = s.now := s.setPort_now ..
@[simp] theorem State.updPort_freeCtr (k : Nat) (f : Port → Port) : (s.updPort k f).freeCtr = s.freeCtr := s.setPort_freeCtr ..
@[simp] theorem State.updPort_regs (k : Nat) (f : Port → Port) : (s.updPort k f).regs = s.regs := s.setPort_regs ..
@[simp] theorem State.updPort_mem (k : Nat) (f : Port → Port) : (s.updPort k f).mem = s.mem := s.setPort_mem ..
@[simp] theorem State.updPort_stopes (k : Nat) (f : Port → Port) : (s.updPort k f).stopes = s.stopes := s.setPort_stopes ..
@[simp] theorem State.updPort_cores (k : Nat) (f : Port → Port) : (s.updPort k f).cores = s.cores := s.setPort_cores ..
@[simp] theorem State.updPort_noc (k : Nat) (f : Port → Port) : (s.updPort k f).noc = s.noc := s.setPort_noc ..
@[simp] theorem State.updPort_kv (k : Nat) (f : Port → Port) : (s.updPort k f).kv = s.kv := s.setPort_kv ..
@[simp] theorem State.updPort_wnd (k : Nat) (f : Port → Port) : (s.updPort k f).wnd = s.wnd := s.setPort_wnd ..
@[simp] theorem State.updPort_swap (k : Nat) (f : Port → Port) : (s.updPort k f).swap = s.swap := s.setPort_swap ..
@[simp] theorem State.updPort_tally (k : Nat) (f : Port → Port) : (s.updPort k f).tally = s.tally := s.setPort_tally ..
@[simp] theorem State.updPort_hf (k : Nat) (f : Port → Port) : (s.updPort k f).hf = s.hf := s.setPort_hf ..
@[simp] theorem State.updPort_edge (k : Nat) (f : Port → Port) : (s.updPort k f).edge = s.edge := s.setPort_edge ..
@[simp] theorem State.updPort_rd (k : Nat) (f : Port → Port) (j : Nat) : (s.updPort k f).rd j = s.rd j := s.setPort_rd ..
@[simp] theorem State.updPort_stope (k : Nat) (f : Port → Port) (j : Nat) : (s.updPort k f).stope j = s.stope j := s.setPort_stope ..
@[simp] theorem State.updPort_core (k : Nat) (f : Port → Port) (j : Nat) : (s.updPort k f).core j = s.core j := s.setPort_core ..
@[simp] theorem State.updPort_stream (k : Nat) (f : Port → Port) (j : Nat) : (s.updPort k f).stream j = s.stream j := s.setPort_stream ..
@[simp] theorem State.updPort_cls (k : Nat) (f : Port → Port) (j : Nat) : (s.updPort k f).cls j = s.cls j := s.setPort_cls ..
@[simp] theorem State.updPort_evr (k : Nat) (f : Port → Port) (j : Nat) : (s.updPort k f).evr j = s.evr j := s.setPort_evr ..
@[simp] theorem State.updPort_adit (k : Nat) (f : Port → Port) (j : Nat) : (s.updPort k f).adit j = s.adit j := s.setPort_adit ..
@[simp] theorem State.updPort_group (k : Nat) (f : Port → Port) (j : Nat) : (s.updPort k f).group j = s.group j := s.setPort_group ..
@[simp] theorem State.updPort_fn (k : Nat) (f : Port → Port) (j : Nat) : (s.updPort k f).fn j = s.fn j := s.setPort_fn ..
@[simp] theorem State.updPort_vslot (k : Nat) (f : Port → Port) (j : Nat) : (s.updPort k f).vslot j = s.vslot j := s.setPort_vslot ..
@[simp] theorem State.updPort_node (k : Nat) (f : Port → Port) (j : Nat) : (s.updPort k f).node j = s.node j := s.setPort_node ..
@[simp] theorem State.updPort_sensor (k : Nat) (f : Port → Port) (j : Nat) : (s.updPort k f).sensor j = s.sensor j := s.setPort_sensor ..
@[simp] theorem State.updPort_fence (k : Nat) (f : Port → Port) (j : Nat) : (s.updPort k f).fence j = s.fence j := s.setPort_fence ..

/-! ### setAdit -/

@[simp] theorem State.setAdit_pending (k : Nat) (t : Adit) : (s.setAdit k t).pending = s.pending := s.with_fab_pending _
@[simp] theorem State.setAdit_now (k : Nat) (t : Adit) : (s.setAdit k t).now = s.now := s.with_fab_now _
@[simp] theorem State.setAdit_freeCtr (k : Nat) (t : Adit) : (s.setAdit k t).freeCtr = s.freeCtr := s.with_fab_freeCtr _
@[simp] theorem State.setAdit_regs (k : Nat) (t : Adit) : (s.setAdit k t).regs = s.regs := s.with_fab_regs _
@[simp] theorem State.setAdit_mem (k : Nat) (t : Adit) : (s.setAdit k t).mem = s.mem := s.with_fab_mem _
@[simp] theorem State.setAdit_stopes (k : Nat) (t : Adit) : (s.setAdit k t).stopes = s.stopes := s.with_fab_stopes _
@[simp] theorem State.setAdit_cores (k : Nat) (t : Adit) : (s.setAdit k t).cores = s.cores := s.with_fab_cores _
@[simp] theorem State.setAdit_noc (k : Nat) (t : Adit) : (s.setAdit k t).noc = s.noc := s.with_fab_noc _
@[simp] theorem State.setAdit_kv (k : Nat) (t : Adit) : (s.setAdit k t).kv = s.kv := s.with_fab_kv _
@[simp] theorem State.setAdit_wnd (k : Nat) (t : Adit) : (s.setAdit k t).wnd = s.wnd := s.with_fab_wnd _
@[simp] theorem State.setAdit_swap (k : Nat) (t : Adit) : (s.setAdit k t).swap = s.swap := s.with_fab_swap _
@[simp] theorem State.setAdit_tally (k : Nat) (t : Adit) : (s.setAdit k t).tally = s.tally := s.with_fab_tally _
@[simp] theorem State.setAdit_hf (k : Nat) (t : Adit) : (s.setAdit k t).hf = s.hf := s.with_fab_hf _
@[simp] theorem State.setAdit_edge (k : Nat) (t : Adit) : (s.setAdit k t).edge = s.edge := s.with_fab_edge _
@[simp] theorem State.setAdit_rd (k : Nat) (t : Adit) (j : Nat) : (s.setAdit k t).rd j = s.rd j := s.with_fab_rd _ j
@[simp] theorem State.setAdit_stope (k : Nat) (t : Adit) (j : Nat) : (s.setAdit k t).stope j = s.stope j := s.with_fab_stope _ j
@[simp] theorem State.setAdit_core (k : Nat) (t : Adit) (j : Nat) : (s.setAdit k t).core j = s.core j := s.with_fab_core _ j
@[simp] theorem State.setAdit_stream (k : Nat) (t : Adit) (j : Nat) : (s.setAdit k t).stream j = s.stream j := s.with_fab_stream _ j
@[simp] theorem State.setAdit_cls (k : Nat) (t : Adit) (j : Nat) : (s.setAdit k t).cls j = s.cls j := s.with_fab_cls _ j
@[simp] theorem State.setAdit_evr (k : Nat) (t : Adit) (j : Nat) : (s.setAdit k t).evr j = s.evr j := s.with_fab_evr _ j
@[simp] theorem State.setAdit_port (k : Nat) (t : Adit) (j : Nat) : (s.setAdit k t).port j = s.port j := congrArg (fun c => Table.get Port.reset c j) (s.fab.with_adits_ports _)
@[simp] theorem State.setAdit_group (k : Nat) (t : Adit) (j : Nat) : (s.setAdit k t).group j = s.group j := congrArg (fun c => Table.get Group.none c j) (s.fab.with_adits_groups _)
@[simp] theorem State.setAdit_fn (k : Nat) (t : Adit) (j : Nat) : (s.setAdit k t).fn j = s.fn j := s.with_fab_fn _ j
@[simp] theorem State.setAdit_vslot (k : Nat) (t : Adit) (j : Nat) : (s.setAdit k t).vslot j = s.vslot j := s.with_fab_vslot _ j
@[simp] theorem State.setAdit_node (k : Nat) (t : Adit) (j : Nat) : (s.setAdit k t).node j = s.node j := s.with_fab_node _ j
@[simp] theorem State.setAdit_sensor (k : Nat) (t : Adit) (j : Nat) : (s.setAdit k t).sensor j = s.sensor j := s.with_fab_sensor _ j
@[simp] theorem State.setAdit_fence (k : Nat) (t : Adit) (j : Nat) : (s.setAdit k t).fence j = s.fence j := s.with_fab_fence _ j

/-! ### updAdit -/

@[simp] theorem State.updAdit_pending (k : Nat) (f : Adit → Adit) : (s.updAdit k f).pending = s.pending := s.setAdit_pending ..
@[simp] theorem State.updAdit_now (k : Nat) (f : Adit → Adit) : (s.updAdit k f).now = s.now := s.setAdit_now ..
@[simp] theorem State.updAdit_freeCtr (k : Nat) (f : Adit → Adit) : (s.updAdit k f).freeCtr = s.freeCtr := s.setAdit_freeCtr ..
@[simp] theorem State.updAdit_regs (k : Nat) (f : Adit → Adit) : (s.updAdit k f).regs = s.regs := s.setAdit_regs ..
@[simp] theorem State.updAdit_mem (k : Nat) (f : Adit → Adit) : (s.updAdit k f).mem = s.mem := s.setAdit_mem ..
@[simp] theorem State.updAdit_stopes (k : Nat) (f : Adit → Adit) : (s.updAdit k f).stopes = s.stopes := s.setAdit_stopes ..
@[simp] theorem State.updAdit_cores (k : Nat) (f : Adit → Adit) : (s.updAdit k f).cores = s.cores := s.setAdit_cores ..
@[simp] theorem State.updAdit_noc (k : Nat) (f : Adit → Adit) : (s.updAdit k f).noc = s.noc := s.setAdit_noc ..
@[simp] theorem State.updAdit_kv (k : Nat) (f : Adit → Adit) : (s.updAdit k f).kv = s.kv := s.setAdit_kv ..
@[simp] theorem State.updAdit_wnd (k : Nat) (f : Adit → Adit) : (s.updAdit k f).wnd = s.wnd := s.setAdit_wnd ..
@[simp] theorem State.updAdit_swap (k : Nat) (f : Adit → Adit) : (s.updAdit k f).swap = s.swap := s.setAdit_swap ..
@[simp] theorem State.updAdit_tally (k : Nat) (f : Adit → Adit) : (s.updAdit k f).tally = s.tally := s.setAdit_tally ..
@[simp] theorem State.updAdit_hf (k : Nat) (f : Adit → Adit) : (s.updAdit k f).hf = s.hf := s.setAdit_hf ..
@[simp] theorem State.updAdit_edge (k : Nat) (f : Adit → Adit) : (s.updAdit k f).edge = s.edge := s.setAdit_edge ..
@[simp] theorem State.updAdit_rd (k : Nat) (f : Adit → Adit) (j : Nat) : (s.updAdit k f).rd j = s.rd j := s.setAdit_rd ..
@[simp] theorem State.updAdit_stope (k : Nat) (f : Adit → Adit) (j : Nat) : (s.updAdit k f).stope j = s.stope j := s.setAdit_stope ..
@[simp] theorem State.updAdit_core (k : Nat) (f : Adit → Adit) (j : Nat) : (s.updAdit k f).core j = s.core j := s.setAdit_core ..
@[simp] theorem State.updAdit_stream (k : Nat) (f : Adit → Adit) (j : Nat) : (s.updAdit k f).stream j = s.stream j := s.setAdit_stream ..
@[simp] theorem State.updAdit_cls (k : Nat) (f : Adit → Adit) (j : Nat) : (s.updAdit k f).cls j = s.cls j := s.setAdit_cls ..
@[simp] theorem State.updAdit_evr (k : Nat) (f : Adit → Adit) (j : Nat) : (s.updAdit k f).evr j = s.evr j := s.setAdit_evr ..
@[simp] theorem State.updAdit_port (k : Nat) (f : Adit → Adit) (j : Nat) : (s.updAdit k f).port j = s.port j := s.setAdit_port ..
@[simp] theorem State.updAdit_group (k : Nat) (f : Adit → Adit) (j : Nat) : (s.updAdit k f).group j = s.group j := s.setAdit_group ..
@[simp] theorem State.updAdit_fn (k : Nat) (f : Adit → Adit) (j : Nat) : (s.updAdit k f).fn j = s.fn j := s.setAdit_fn ..
@[simp] theorem State.updAdit_vslot (k : Nat) (f : Adit → Adit) (j : Nat) : (s.updAdit k f).vslot j = s.vslot j := s.setAdit_vslot ..
@[simp] theorem State.updAdit_node (k : Nat) (f : Adit → Adit) (j : Nat) : (s.updAdit k f).node j = s.node j := s.setAdit_node ..
@[simp] theorem State.updAdit_sensor (k : Nat) (f : Adit → Adit) (j : Nat) : (s.updAdit k f).sensor j = s.sensor j := s.setAdit_sensor ..
@[simp] theorem State.updAdit_fence (k : Nat) (f : Adit → Adit) (j : Nat) : (s.updAdit k f).fence j = s.fence j := s.setAdit_fence ..

/-! ### setGroup -/

@[simp] theorem State.setGroup_pending (k : Nat) (t : Group) : (s.setGroup k t).pending = s.pending := s.with_fab_pending _
@[simp] theorem State.setGroup_now (k : Nat) (t : Group) : (s.setGroup k t).now = s.now := s.with_fab_now _
@[simp] theorem State.setGroup_freeCtr (k : Nat) (t : Group) : (s.setGroup k t).freeCtr = s.freeCtr := s.with_fab_freeCtr _
@[simp] theorem State.setGroup_regs (k : Nat) (t : Group) : (s.setGroup k t).regs = s.regs := s.with_fab_regs _
@[simp] theorem State.setGroup_mem (k : Nat) (t : Group) : (s.setGroup k t).mem = s.mem := s.with_fab_mem _
@[simp] theorem State.setGroup_stopes (k : Nat) (t : Group) : (s.setGroup k t).stopes = s.stopes := s.with_fab_stopes _
@[simp] theorem State.setGroup_cores (k : Nat) (t : Group) : (s.setGroup k t).cores = s.cores := s.with_fab_cores _
@[simp] theorem State.setGroup_noc (k : Nat) (t : Group) : (s.setGroup k t).noc = s.noc := s.with_fab_noc _
@[simp] theorem State.setGroup_kv (k : Nat) (t : Group) : (s.setGroup k t).kv = s.kv := s.with_fab_kv _
@[simp] theorem State.setGroup_wnd (k : Nat) (t : Group) : (s.setGroup k t).wnd = s.wnd := s.with_fab_wnd _
@[simp] theorem State.setGroup_swap (k : Nat) (t : Group) : (s.setGroup k t).swap = s.swap := s.with_fab_swap _
@[simp] theorem State.setGroup_tally (k : Nat) (t : Group) : (s.setGroup k t).tally = s.tally := s.with_fab_tally _
@[simp] theorem State.setGroup_hf (k : Nat) (t : Group) : (s.setGroup k t).hf = s.hf := s.with_fab_hf _
@[simp] theorem State.setGroup_edge (k : Nat) (t : Group) : (s.setGroup k t).edge = s.edge := s.with_fab_edge _
@[simp] theorem State.setGroup_rd (k : Nat) (t : Group) (j : Nat) : (s.setGroup k t).rd j = s.rd j := s.with_fab_rd _ j
@[simp] theorem State.setGroup_stope (k : Nat) (t : Group) (j : Nat) : (s.setGroup k t).stope j = s.stope j := s.with_fab_stope _ j
@[simp] theorem State.setGroup_core (k : Nat) (t : Group) (j : Nat) : (s.setGroup k t).core j = s.core j := s.with_fab_core _ j
@[simp] theorem State.setGroup_stream (k : Nat) (t : Group) (j : Nat) : (s.setGroup k t).stream j = s.stream j := s.with_fab_stream _ j
@[simp] theorem State.setGroup_cls (k : Nat) (t : Group) (j : Nat) : (s.setGroup k t).cls j = s.cls j := s.with_fab_cls _ j
@[simp] theorem State.setGroup_evr (k : Nat) (t : Group) (j : Nat) : (s.setGroup k t).evr j = s.evr j := s.with_fab_evr _ j
@[simp] theorem State.setGroup_port (k : Nat) (t : Group) (j : Nat) : (s.setGroup k t).port j = s.port j := congrArg (fun c => Table.get Port.reset c j) (s.fab.with_groups_ports _)
@[simp] theorem State.setGroup_adit (k : Nat) (t : Group) (j : Nat) : (s.setGroup k t).adit j = s.adit j := congrArg (fun c => Table.get Adit.reset c j) (s.fab.with_groups_adits _)
@[simp] theorem State.setGroup_fn (k : Nat) (t : Group) (j : Nat) : (s.setGroup k t).fn j = s.fn j := s.with_fab_fn _ j
@[simp] theorem State.setGroup_vslot (k : Nat) (t : Group) (j : Nat) : (s.setGroup k t).vslot j = s.vslot j := s.with_fab_vslot _ j
@[simp] theorem State.setGroup_node (k : Nat) (t : Group) (j : Nat) : (s.setGroup k t).node j = s.node j := s.with_fab_node _ j
@[simp] theorem State.setGroup_sensor (k : Nat) (t : Group) (j : Nat) : (s.setGroup k t).sensor j = s.sensor j := s.with_fab_sensor _ j
@[simp] theorem State.setGroup_fence (k : Nat) (t : Group) (j : Nat) : (s.setGroup k t).fence j = s.fence j := s.with_fab_fence _ j

/-! ### setFn -/

@[simp] theorem State.setFn_pending (k : Nat) (t : Fn) : (s.setFn k t).pending = s.pending := s.with_edge_pending _
@[simp] theorem State.setFn_now (k : Nat) (t : Fn) : (s.setFn k t).now = s.now := s.with_edge_now _
@[simp] theorem State.setFn_freeCtr (k : Nat) (t : Fn) : (s.setFn k t).freeCtr = s.freeCtr := s.with_edge_freeCtr _
@[simp] theorem State.setFn_regs (k : Nat) (t : Fn) : (s.setFn k t).regs = s.regs := s.with_edge_regs _
@[simp] theorem State.setFn_mem (k : Nat) (t : Fn) : (s.setFn k t).mem = s.mem := s.with_edge_mem _
@[simp] theorem State.setFn_stopes (k : Nat) (t : Fn) : (s.setFn k t).stopes = s.stopes := s.with_edge_stopes _
@[simp] theorem State.setFn_cores (k : Nat) (t : Fn) : (s.setFn k t).cores = s.cores := s.with_edge_cores _
@[simp] theorem State.setFn_noc (k : Nat) (t : Fn) : (s.setFn k t).noc = s.noc := s.with_edge_noc _
@[simp] theorem State.setFn_kv (k : Nat) (t : Fn) : (s.setFn k t).kv = s.kv := s.with_edge_kv _
@[simp] theorem State.setFn_wnd (k : Nat) (t : Fn) : (s.setFn k t).wnd = s.wnd := s.with_edge_wnd _
@[simp] theorem State.setFn_swap (k : Nat) (t : Fn) : (s.setFn k t).swap = s.swap := s.with_edge_swap _
@[simp] theorem State.setFn_tally (k : Nat) (t : Fn) : (s.setFn k t).tally = s.tally := s.with_edge_tally _
@[simp] theorem State.setFn_fab (k : Nat) (t : Fn) : (s.setFn k t).fab = s.fab := s.with_edge_fab _
@[simp] theorem State.setFn_hf (k : Nat) (t : Fn) : (s.setFn k t).hf = s.hf := s.with_edge_hf _
@[simp] theorem State.setFn_rd (k : Nat) (t : Fn) (j : Nat) : (s.setFn k t).rd j = s.rd j := s.with_edge_rd _ j
@[simp] theorem State.setFn_stope (k : Nat) (t : Fn) (j : Nat) : (s.setFn k t).stope j = s.stope j := s.with_edge_stope _ j
@[simp] theorem State.setFn_core (k : Nat) (t : Fn) (j : Nat) : (s.setFn k t).core j = s.core j := s.with_edge_core _ j
@[simp] theorem State.setFn_stream (k : Nat) (t : Fn) (j : Nat) : (s.setFn k t).stream j = s.stream j := s.with_edge_stream _ j
@[simp] theorem State.setFn_cls (k : Nat) (t : Fn) (j : Nat) : (s.setFn k t).cls j = s.cls j := s.with_edge_cls _ j
@[simp] theorem State.setFn_evr (k : Nat) (t : Fn) (j : Nat) : (s.setFn k t).evr j = s.evr j := s.with_edge_evr _ j
@[simp] theorem State.setFn_port (k : Nat) (t : Fn) (j : Nat) : (s.setFn k t).port j = s.port j := s.with_edge_port _ j
@[simp] theorem State.setFn_adit (k : Nat) (t : Fn) (j : Nat) : (s.setFn k t).adit j = s.adit j := s.with_edge_adit _ j
@[simp] theorem State.setFn_group (k : Nat) (t : Fn) (j : Nat) : (s.setFn k t).group j = s.group j := s.with_edge_group _ j
@[simp] theorem State.setFn_vslot (k : Nat) (t : Fn) (j : Nat) : (s.setFn k t).vslot j = s.vslot j := s.with_edge_vslot _ j
@[simp] theorem State.setFn_node (k : Nat) (t : Fn) (j : Nat) : (s.setFn k t).node j = s.node j := s.with_edge_node _ j
@[simp] theorem State.setFn_sensor (k : Nat) (t : Fn) (j : Nat) : (s.setFn k t).sensor j = s.sensor j := s.with_edge_sensor _ j
@[simp] theorem State.setFn_fence (k : Nat) (t : Fn) (j : Nat) : (s.setFn k t).fence j = s.fence j := s.with_edge_fence _ j

/-! ### updFn -/

@[simp] theorem State.updFn_pending (k : Nat) (f : Fn → Fn) : (s.updFn k f).pending = s.pending := s.setFn_pending ..
@[simp] theorem State.updFn_now (k : Nat) (f : Fn → Fn) : (s.updFn k f).now = s.now := s.setFn_now ..
@[simp] theorem State.updFn_freeCtr (k : Nat) (f : Fn → Fn) : (s.updFn k f).freeCtr = s.freeCtr := s.setFn_freeCtr ..
@[simp] theorem State.updFn_regs (k : Nat) (f : Fn → Fn) : (s.updFn k f).regs = s.regs := s.setFn_regs ..
@[simp] theorem State.updFn_mem (k : Nat) (f : Fn → Fn) : (s.updFn k f).mem = s.mem := s.setFn_mem ..
@[simp] theorem State.updFn_stopes (k : Nat) (f : Fn → Fn) : (s.updFn k f).stopes = s.stopes := s.setFn_stopes ..
@[simp] theorem State.updFn_cores (k : Nat) (f : Fn → Fn) : (s.updFn k f).cores = s.cores := s.setFn_cores ..
@[simp] theorem State.updFn_noc (k : Nat) (f : Fn → Fn) : (s.updFn k f).noc = s.noc := s.setFn_noc ..
@[simp] theorem State.updFn_kv (k : Nat) (f : Fn → Fn) : (s.updFn k f).kv = s.kv := s.setFn_kv ..
@[simp] theorem State.updFn_wnd (k : Nat) (f : Fn → Fn) : (s.updFn k f).wnd = s.wnd := s.setFn_wnd ..
@[simp] theorem State.updFn_swap (k : Nat) (f : Fn → Fn) : (s.updFn k f).swap = s.swap := s.setFn_swap ..
@[simp] theorem State.updFn_tally (k : Nat) (f : Fn → Fn) : (s.updFn k f).tally = s.tally := s.setFn_tally ..
@[simp] theorem State.updFn_fab (k : Nat) (f : Fn → Fn) : (s.updFn k f).fab = s.fab := s.setFn_fab ..
@[simp] theorem State.updFn_hf (k : Nat) (f : Fn → Fn) : (s.updFn k f).hf = s.hf := s.setFn_hf ..
@[simp] theorem State.updFn_rd (k : Nat) (f : Fn → Fn) (j : Nat) : (s.updFn k f).rd j = s.rd j := s.setFn_rd ..
@[simp] theorem State.updFn_stope (k : Nat) (f : Fn → Fn) (j : Nat) : (s.updFn k f).stope j = s.stope j := s.setFn_stope ..
@[simp] theorem State.updFn_core (k : Nat) (f : Fn → Fn) (j : Nat) : (s.updFn k f).core j = s.core j := s.setFn_core ..
@[simp] theorem State.updFn_stream (k : Nat) (f : Fn → Fn) (j : Nat) : (s.updFn k f).stream j = s.stream j := s.setFn_stream ..
@[simp] theorem State.updFn_cls (k : Nat) (f : Fn → Fn) (j : Nat) : (s.updFn k f).cls j = s.cls j := s.setFn_cls ..
@[simp] theorem State.updFn_evr (k : Nat) (f : Fn → Fn) (j : Nat) : (s.updFn k f).evr j = s.evr j := s.setFn_evr ..
@[simp] theorem State.updFn_port (k : Nat) (f : Fn → Fn) (j : Nat) : (s.updFn k f).port j = s.port j := s.setFn_port ..
@[simp] theorem State.updFn_adit (k : Nat) (f : Fn → Fn) (j : Nat) : (s.updFn k f).adit j = s.adit j := s.setFn_adit ..
@[simp] theorem State.updFn_group (k : Nat) (f : Fn → Fn) (j : Nat) : (s.updFn k f).group j = s.group j := s.setFn_group ..
@[simp] theorem State.updFn_vslot (k : Nat) (f : Fn → Fn) (j : Nat) : (s.updFn k f).vslot j = s.vslot j := s.setFn_vslot ..
@[simp] theorem State.updFn_node (k : Nat) (f : Fn → Fn) (j : Nat) : (s.updFn k f).node j = s.node j := s.setFn_node ..
@[simp] theorem State.updFn_sensor (k : Nat) (f : Fn → Fn) (j : Nat) : (s.updFn k f).sensor j = s.sensor j := s.setFn_sensor ..
@[simp] theorem State.updFn_fence (k : Nat) (f : Fn → Fn) (j : Nat) : (s.updFn k f).fence j = s.fence j := s.setFn_fence ..

/-! ### setVslot -/

@[simp] theorem State.setVslot_pending (k : Nat) (t : VSlot) : (s.setVslot k t).pending = s.pending := s.with_swap_pending _
@[simp] theorem State.setVslot_now (k : Nat) (t : VSlot) : (s.setVslot k t).now = s.now := s.with_swap_now _
@[simp] theorem State.setVslot_freeCtr (k : Nat) (t : VSlot) : (s.setVslot k t).freeCtr = s.freeCtr := s.with_swap_freeCtr _
@[simp] theorem State.setVslot_regs (k : Nat) (t : VSlot) : (s.setVslot k t).regs = s.regs := s.with_swap_regs _
@[simp] theorem State.setVslot_mem (k : Nat) (t : VSlot) : (s.setVslot k t).mem = s.mem := s.with_swap_mem _
@[simp] theorem State.setVslot_stopes (k : Nat) (t : VSlot) : (s.setVslot k t).stopes = s.stopes := s.with_swap_stopes _
@[simp] theorem State.setVslot_cores (k : Nat) (t : VSlot) : (s.setVslot k t).cores = s.cores := s.with_swap_cores _
@[simp] theorem State.setVslot_noc (k : Nat) (t : VSlot) : (s.setVslot k t).noc = s.noc := s.with_swap_noc _
@[simp] theorem State.setVslot_kv (k : Nat) (t : VSlot) : (s.setVslot k t).kv = s.kv := s.with_swap_kv _
@[simp] theorem State.setVslot_wnd (k : Nat) (t : VSlot) : (s.setVslot k t).wnd = s.wnd := s.with_swap_wnd _
@[simp] theorem State.setVslot_tally (k : Nat) (t : VSlot) : (s.setVslot k t).tally = s.tally := s.with_swap_tally _
@[simp] theorem State.setVslot_fab (k : Nat) (t : VSlot) : (s.setVslot k t).fab = s.fab := s.with_swap_fab _
@[simp] theorem State.setVslot_hf (k : Nat) (t : VSlot) : (s.setVslot k t).hf = s.hf := s.with_swap_hf _
@[simp] theorem State.setVslot_edge (k : Nat) (t : VSlot) : (s.setVslot k t).edge = s.edge := s.with_swap_edge _
@[simp] theorem State.setVslot_rd (k : Nat) (t : VSlot) (j : Nat) : (s.setVslot k t).rd j = s.rd j := s.with_swap_rd _ j
@[simp] theorem State.setVslot_stope (k : Nat) (t : VSlot) (j : Nat) : (s.setVslot k t).stope j = s.stope j := s.with_swap_stope _ j
@[simp] theorem State.setVslot_core (k : Nat) (t : VSlot) (j : Nat) : (s.setVslot k t).core j = s.core j := s.with_swap_core _ j
@[simp] theorem State.setVslot_stream (k : Nat) (t : VSlot) (j : Nat) : (s.setVslot k t).stream j = s.stream j := s.with_swap_stream _ j
@[simp] theorem State.setVslot_cls (k : Nat) (t : VSlot) (j : Nat) : (s.setVslot k t).cls j = s.cls j := s.with_swap_cls _ j
@[simp] theorem State.setVslot_evr (k : Nat) (t : VSlot) (j : Nat) : (s.setVslot k t).evr j = s.evr j := s.with_swap_evr _ j
@[simp] theorem State.setVslot_port (k : Nat) (t : VSlot) (j : Nat) : (s.setVslot k t).port j = s.port j := s.with_swap_port _ j
@[simp] theorem State.setVslot_adit (k : Nat) (t : VSlot) (j : Nat) : (s.setVslot k t).adit j = s.adit j := s.with_swap_adit _ j
@[simp] theorem State.setVslot_group (k : Nat) (t : VSlot) (j : Nat) : (s.setVslot k t).group j = s.group j := s.with_swap_group _ j
@[simp] theorem State.setVslot_fn (k : Nat) (t : VSlot) (j : Nat) : (s.setVslot k t).fn j = s.fn j := s.with_swap_fn _ j
@[simp] theorem State.setVslot_node (k : Nat) (t : VSlot) (j : Nat) : (s.setVslot k t).node j = s.node j := s.with_swap_node _ j
@[simp] theorem State.setVslot_sensor (k : Nat) (t : VSlot) (j : Nat) : (s.setVslot k t).sensor j = s.sensor j := s.with_swap_sensor _ j
@[simp] theorem State.setVslot_fence (k : Nat) (t : VSlot) (j : Nat) : (s.setVslot k t).fence j = s.fence j := s.with_swap_fence _ j

/-! ### setNode -/

@[simp] theorem State.setNode_pending (k : Nat) (t : TNode) : (s.setNode k t).pending = s.pending := s.with_hf_pending _
@[simp] theorem State.setNode_now (k : Nat) (t : TNode) : (s.setNode k t).now = s.now := s.with_hf_now _
@[simp] theorem State.setNode_freeCtr (k : Nat) (t : TNode) : (s.setNode k t).freeCtr = s.freeCtr := s.with_hf_freeCtr _
@[simp] theorem State.setNode_regs (k : Nat) (t : TNode) : (s.setNode k t).regs = s.regs := s.with_hf_regs _
@[simp] theorem State.setNode_mem (k : Nat) (t : TNode) : (s.setNode k t).mem = s.mem := s.with_hf_mem _
@[simp] theorem State.setNode_stopes (k : Nat) (t : TNode) : (s.setNode k t).stopes = s.stopes := s.with_hf_stopes _
@[simp] theorem State.setNode_cores (k : Nat) (t : TNode) : (s.setNode k t).cores = s.cores := s.with_hf_cores _
@[simp] theorem State.setNode_noc (k : Nat) (t : TNode) : (s.setNode k t).noc = s.noc := s.with_hf_noc _
@[simp] theorem State.setNode_kv (k : Nat) (t : TNode) : (s.setNode k t).kv = s.kv := s.with_hf_kv _
@[simp] theorem State.setNode_wnd (k : Nat) (t : TNode) : (s.setNode k t).wnd = s.wnd := s.with_hf_wnd _
@[simp] theorem State.setNode_swap (k : Nat) (t : TNode) : (s.setNode k t).swap = s.swap := s.with_hf_swap _
@[simp] theorem State.setNode_tally (k : Nat) (t : TNode) : (s.setNode k t).tally = s.tally := s.with_hf_tally _
@[simp] theorem State.setNode_fab (k : Nat) (t : TNode) : (s.setNode k t).fab = s.fab := s.with_hf_fab _
@[simp] theorem State.setNode_edge (k : Nat) (t : TNode) : (s.setNode k t).edge = s.edge := s.with_hf_edge _
@[simp] theorem State.setNode_rd (k : Nat) (t : TNode) (j : Nat) : (s.setNode k t).rd j = s.rd j := s.with_hf_rd _ j
@[simp] theorem State.setNode_stope (k : Nat) (t : TNode) (j : Nat) : (s.setNode k t).stope j = s.stope j := s.with_hf_stope _ j
@[simp] theorem State.setNode_core (k : Nat) (t : TNode) (j : Nat) : (s.setNode k t).core j = s.core j := s.with_hf_core _ j
@[simp] theorem State.setNode_stream (k : Nat) (t : TNode) (j : Nat) : (s.setNode k t).stream j = s.stream j := s.with_hf_stream _ j
@[simp] theorem State.setNode_cls (k : Nat) (t : TNode) (j : Nat) : (s.setNode k t).cls j = s.cls j := s.with_hf_cls _ j
@[simp] theorem State.setNode_evr (k : Nat) (t : TNode) (j : Nat) : (s.setNode k t).evr j = s.evr j := s.with_hf_evr _ j
@[simp] theorem State.setNode_port (k : Nat) (t : TNode) (j : Nat) : (s.setNode k t).port j = s.port j := s.with_hf_port _ j
@[simp] theorem State.setNode_adit (k : Nat) (t : TNode) (j : Nat) : (s.setNode k t).adit j = s.adit j := s.with_hf_adit _ j
@[simp] theorem State.setNode_group (k : Nat) (t : TNode) (j : Nat) : (s.setNode k t).group j = s.group j := s.with_hf_group _ j
@[simp] theorem State.setNode_fn (k : Nat) (t : TNode) (j : Nat) : (s.setNode k t).fn j = s.fn j := s.with_hf_fn _ j
@[simp] theorem State.setNode_vslot (k : Nat) (t : TNode) (j : Nat) : (s.setNode k t).vslot j = s.vslot j := s.with_hf_vslot _ j
@[simp] theorem State.setNode_sensor (k : Nat) (t : TNode) (j : Nat) : (s.setNode k t).sensor j = s.sensor j := congrArg (fun c => Table.get Sensor.reset c j) (s.hf.with_nodes_sensors _)
@[simp] theorem State.setNode_fence (k : Nat) (t : TNode) (j : Nat) : (s.setNode k t).fence j = s.fence j := s.with_hf_fence _ j

/-! ### setSensor -/

@[simp] theorem State.setSensor_pending (k : Nat) (t : Sensor) : (s.setSensor k t).pending = s.pending := s.with_hf_pending _
@[simp] theorem State.setSensor_now (k : Nat) (t : Sensor) : (s.setSensor k t).now = s.now := s.with_hf_now _
@[simp] theorem State.setSensor_freeCtr (k : Nat) (t : Sensor) : (s.setSensor k t).freeCtr = s.freeCtr := s.with_hf_freeCtr _
@[simp] theorem State.setSensor_regs (k : Nat) (t : Sensor) : (s.setSensor k t).regs = s.regs := s.with_hf_regs _
@[simp] theorem State.setSensor_mem (k : Nat) (t : Sensor) : (s.setSensor k t).mem = s.mem := s.with_hf_mem _
@[simp] theorem State.setSensor_stopes (k : Nat) (t : Sensor) : (s.setSensor k t).stopes = s.stopes := s.with_hf_stopes _
@[simp] theorem State.setSensor_cores (k : Nat) (t : Sensor) : (s.setSensor k t).cores = s.cores := s.with_hf_cores _
@[simp] theorem State.setSensor_noc (k : Nat) (t : Sensor) : (s.setSensor k t).noc = s.noc := s.with_hf_noc _
@[simp] theorem State.setSensor_kv (k : Nat) (t : Sensor) : (s.setSensor k t).kv = s.kv := s.with_hf_kv _
@[simp] theorem State.setSensor_wnd (k : Nat) (t : Sensor) : (s.setSensor k t).wnd = s.wnd := s.with_hf_wnd _
@[simp] theorem State.setSensor_swap (k : Nat) (t : Sensor) : (s.setSensor k t).swap = s.swap := s.with_hf_swap _
@[simp] theorem State.setSensor_tally (k : Nat) (t : Sensor) : (s.setSensor k t).tally = s.tally := s.with_hf_tally _
@[simp] theorem State.setSensor_fab (k : Nat) (t : Sensor) : (s.setSensor k t).fab = s.fab := s.with_hf_fab _
@[simp] theorem State.setSensor_edge (k : Nat) (t : Sensor) : (s.setSensor k t).edge = s.edge := s.with_hf_edge _
@[simp] theorem State.setSensor_rd (k : Nat) (t : Sensor) (j : Nat) : (s.setSensor k t).rd j = s.rd j := s.with_hf_rd _ j
@[simp] theorem State.setSensor_stope (k : Nat) (t : Sensor) (j : Nat) : (s.setSensor k t).stope j = s.stope j := s.with_hf_stope _ j
@[simp] theorem State.setSensor_core (k : Nat) (t : Sensor) (j : Nat) : (s.setSensor k t).core j = s.core j := s.with_hf_core _ j
@[simp] theorem State.setSensor_stream (k : Nat) (t : Sensor) (j : Nat) : (s.setSensor k t).stream j = s.stream j := s.with_hf_stream _ j
@[simp] theorem State.setSensor_cls (k : Nat) (t : Sensor) (j : Nat) : (s.setSensor k t).cls j = s.cls j := s.with_hf_cls _ j
@[simp] theorem State.setSensor_evr (k : Nat) (t : Sensor) (j : Nat) : (s.setSensor k t).evr j = s.evr j := s.with_hf_evr _ j
@[simp] theorem State.setSensor_port (k : Nat) (t : Sensor) (j : Nat) : (s.setSensor k t).port j = s.port j := s.with_hf_port _ j
@[simp] theorem State.setSensor_adit (k : Nat) (t : Sensor) (j : Nat) : (s.setSensor k t).adit j = s.adit j := s.with_hf_adit _ j
@[simp] theorem State.setSensor_group (k : Nat) (t : Sensor) (j : Nat) : (s.setSensor k t).group j = s.group j := s.with_hf_group _ j
@[simp] theorem State.setSensor_fn (k : Nat) (t : Sensor) (j : Nat) : (s.setSensor k t).fn j = s.fn j := s.with_hf_fn _ j
@[simp] theorem State.setSensor_vslot (k : Nat) (t : Sensor) (j : Nat) : (s.setSensor k t).vslot j = s.vslot j := s.with_hf_vslot _ j
@[simp] theorem State.setSensor_node (k : Nat) (t : Sensor) (j : Nat) : (s.setSensor k t).node j = s.node j := congrArg (fun c => Table.get TNode.reset c j) (s.hf.with_sensors_nodes _)
@[simp] theorem State.setSensor_fence (k : Nat) (t : Sensor) (j : Nat) : (s.setSensor k t).fence j = s.fence j := s.with_hf_fence _ j

/-! ### setFence -/

@[simp] theorem State.setFence_pending (k : Nat) (t : Fence) : (s.setFence k t).pending = s.pending := s.with_noc_pending _
@[simp] theorem State.setFence_now (k : Nat) (t : Fence) : (s.setFence k t).now = s.now := s.with_noc_now _
@[simp] theorem State.setFence_freeCtr (k : Nat) (t : Fence) : (s.setFence k t).freeCtr = s.freeCtr := s.with_noc_freeCtr _
@[simp] theorem State.setFence_regs (k : Nat) (t : Fence) : (s.setFence k t).regs = s.regs := s.with_noc_regs _
@[simp] theorem State.setFence_mem (k : Nat) (t : Fence) : (s.setFence k t).mem = s.mem := s.with_noc_mem _
@[simp] theorem State.setFence_stopes (k : Nat) (t : Fence) : (s.setFence k t).stopes = s.stopes := s.with_noc_stopes _
@[simp] theorem State.setFence_cores (k : Nat) (t : Fence) : (s.setFence k t).cores = s.cores := s.with_noc_cores _
@[simp] theorem State.setFence_kv (k : Nat) (t : Fence) : (s.setFence k t).kv = s.kv := s.with_noc_kv _
@[simp] theorem State.setFence_wnd (k : Nat) (t : Fence) : (s.setFence k t).wnd = s.wnd := s.with_noc_wnd _
@[simp] theorem State.setFence_swap (k : Nat) (t : Fence) : (s.setFence k t).swap = s.swap := s.with_noc_swap _
@[simp] theorem State.setFence_tally (k : Nat) (t : Fence) : (s.setFence k t).tally = s.tally := s.with_noc_tally _
@[simp] theorem State.setFence_fab (k : Nat) (t : Fence) : (s.setFence k t).fab = s.fab := s.with_noc_fab _
@[simp] theorem State.setFence_hf (k : Nat) (t : Fence) : (s.setFence k t).hf = s.hf := s.with_noc_hf _
@[simp] theorem State.setFence_edge (k : Nat) (t : Fence) : (s.setFence k t).edge = s.edge := s.with_noc_edge _
@[simp] theorem State.setFence_rd (k : Nat) (t : Fence) (j : Nat) : (s.setFence k t).rd j = s.rd j := s.with_noc_rd _ j
@[simp] theorem State.setFence_stope (k : Nat) (t : Fence) (j : Nat) : (s.setFence k t).stope j = s.stope j := s.with_noc_stope _ j
@[simp] theorem State.setFence_core (k : Nat) (t : Fence) (j : Nat) : (s.setFence k t).core j = s.core j := s.with_noc_core _ j
@[simp] theorem State.setFence_stream (k : Nat) (t : Fence) (j : Nat) : (s.setFence k t).stream j = s.stream j := s.with_noc_stream _ j
@[simp] theorem State.setFence_cls (k : Nat) (t : Fence) (j : Nat) : (s.setFence k t).cls j = s.cls j := s.with_noc_cls _ j
@[simp] theorem State.setFence_evr (k : Nat) (t : Fence) (j : Nat) : (s.setFence k t).evr j = s.evr j := s.with_noc_evr _ j
@[simp] theorem State.setFence_port (k : Nat) (t : Fence) (j : Nat) : (s.setFence k t).port j = s.port j := s.with_noc_port _ j
@[simp] theorem State.setFence_adit (k : Nat) (t : Fence) (j : Nat) : (s.setFence k t).adit j = s.adit j := s.with_noc_adit _ j
@[simp] theorem State.setFence_group (k : Nat) (t : Fence) (j : Nat) : (s.setFence k t).group j = s.group j := s.with_noc_group _ j
@[simp] theorem State.setFence_fn (k : Nat) (t : Fence) (j : Nat) : (s.setFence k t).fn j = s.fn j := s.with_noc_fn _ j
@[simp] theorem State.setFence_vslot (k : Nat) (t : Fence) (j : Nat) : (s.setFence k t).vslot j = s.vslot j := s.with_noc_vslot _ j
@[simp] theorem State.setFence_node (k : Nat) (t : Fence) (j : Nat) : (s.setFence k t).node j = s.node j := s.with_noc_node _ j
@[simp] theorem State.setFence_sensor (k : Nat) (t : Fence) (j : Nat) : (s.setFence k t).sensor j = s.sensor j := s.with_noc_sensor _ j

/-! ### notify -/

@[simp] theorem State.notify_pending (n : Notice) : (s.notify n).pending = s.pending := rfl
@[simp] theorem State.notify_now (n : Notice) : (s.notify n).now = s.now := rfl
@[simp] theorem State.notify_freeCtr (n : Notice) : (s.notify n).freeCtr = s.freeCtr := rfl
@[simp] theorem State.notify_regs (n : Notice) : (s.notify n).regs = s.regs := rfl
@[simp] theorem State.notify_mem (n : Notice) : (s.notify n).mem = s.mem := rfl
@[simp] theorem State.notify_stopes (n : Notice) : (s.notify n).stopes = s.stopes := rfl
@[simp] theorem State.notify_cores (n : Notice) : (s.notify n).cores = s.cores := rfl
@[simp] theorem State.notify_kv (n : Notice) : (s.notify n).kv = s.kv := rfl
@[simp] theorem State.notify_wnd (n : Notice) : (s.notify n).wnd = s.wnd := rfl
@[simp] theorem State.notify_swap (n : Notice) : (s.notify n).swap = s.swap := rfl
@[simp] theorem State.notify_tally (n : Notice) : (s.notify n).tally = s.tally := rfl
@[simp] theorem State.notify_fab (n : Notice) : (s.notify n).fab = s.fab := rfl
@[simp] theorem State.notify_hf (n : Notice) : (s.notify n).hf = s.hf := rfl
@[simp] theorem State.notify_edge (n : Notice) : (s.notify n).edge = s.edge := rfl
@[simp] theorem State.notify_rd (n : Notice) (j : Nat) : (s.notify n).rd j = s.rd j := rfl
@[simp] theorem State.notify_stope (n : Notice) (j : Nat) : (s.notify n).stope j = s.stope j := rfl
@[simp] theorem State.notify_core (n : Notice) (j : Nat) : (s.notify n).core j = s.core j := rfl
@[simp] theorem State.notify_stream (n : Notice) (j : Nat) : (s.notify n).stream j = s.stream j := rfl
@[simp] theorem State.notify_cls (n : Notice) (j : Nat) : (s.notify n).cls j = s.cls j := rfl
@[simp] theorem State.notify_evr (n : Notice) (j : Nat) : (s.notify n).evr j = s.evr j := rfl
@[simp] theorem State.notify_port (n : Notice) (j : Nat) : (s.notify n).port j = s.port j := rfl
@[simp] theorem State.notify_adit (n : Notice) (j : Nat) : (s.notify n).adit j = s.adit j := rfl
@[simp] theorem State.notify_group (n : Notice) (j : Nat) : (s.notify n).group j = s.group j := rfl
@[simp] theorem State.notify_fn (n : Notice) (j : Nat) : (s.notify n).fn j = s.fn j := rfl
@[simp] theorem State.notify_vslot (n : Notice) (j : Nat) : (s.notify n).vslot j = s.vslot j := rfl
@[simp] theorem State.notify_node (n : Notice) (j : Nat) : (s.notify n).node j = s.node j := rfl
@[simp] theorem State.notify_sensor (n : Notice) (j : Nat) : (s.notify n).sensor j = s.sensor j := rfl
@[simp] theorem State.notify_fence (n : Notice) (j : Nat) : (s.notify n).fence j = s.fence j := rfl

/-! ### send -/

@[simp] theorem State.send_pending (m : CtlMsg) : (s.send m).pending = s.pending := rfl
@[simp] theorem State.send_now (m : CtlMsg) : (s.send m).now = s.now := rfl
@[simp] theorem State.send_freeCtr (m : CtlMsg) : (s.send m).freeCtr = s.freeCtr := rfl
@[simp] theorem State.send_regs (m : CtlMsg) : (s.send m).regs = s.regs := rfl
@[simp] theorem State.send_mem (m : CtlMsg) : (s.send m).mem = s.mem := rfl
@[simp] theorem State.send_stopes (m : CtlMsg) : (s.send m).stopes = s.stopes := rfl
@[simp] theorem State.send_cores (m : CtlMsg) : (s.send m).cores = s.cores := rfl
@[simp] theorem State.send_kv (m : CtlMsg) : (s.send m).kv = s.kv := rfl
@[simp] theorem State.send_wnd (m : CtlMsg) : (s.send m).wnd = s.wnd := rfl
@[simp] theorem State.send_swap (m : CtlMsg) : (s.send m).swap = s.swap := rfl
@[simp] theorem State.send_tally (m : CtlMsg) : (s.send m).tally = s.tally := rfl
@[simp] theorem State.send_fab (m : CtlMsg) : (s.send m).fab = s.fab := rfl
@[simp] theorem State.send_hf (m : CtlMsg) : (s.send m).hf = s.hf := rfl
@[simp] theorem State.send_edge (m : CtlMsg) : (s.send m).edge = s.edge := rfl
@[simp] theorem State.send_rd (m : CtlMsg) (j : Nat) : (s.send m).rd j = s.rd j := rfl
@[simp] theorem State.send_stope (m : CtlMsg) (j : Nat) : (s.send m).stope j = s.stope j := rfl
@[simp] theorem State.send_core (m : CtlMsg) (j : Nat) : (s.send m).core j = s.core j := rfl
@[simp] theorem State.send_stream (m : CtlMsg) (j : Nat) : (s.send m).stream j = s.stream j := rfl
@[simp] theorem State.send_cls (m : CtlMsg) (j : Nat) : (s.send m).cls j = s.cls j := rfl
@[simp] theorem State.send_evr (m : CtlMsg) (j : Nat) : (s.send m).evr j = s.evr j := rfl
@[simp] theorem State.send_port (m : CtlMsg) (j : Nat) : (s.send m).port j = s.port j := rfl
@[simp] theorem State.send_adit (m : CtlMsg) (j : Nat) : (s.send m).adit j = s.adit j := rfl
@[simp] theorem State.send_group (m : CtlMsg) (j : Nat) : (s.send m).group j = s.group j := rfl
@[simp] theorem State.send_fn (m : CtlMsg) (j : Nat) : (s.send m).fn j = s.fn j := rfl
@[simp] theorem State.send_vslot (m : CtlMsg) (j : Nat) : (s.send m).vslot j = s.vslot j := rfl
@[simp] theorem State.send_node (m : CtlMsg) (j : Nat) : (s.send m).node j = s.node j := rfl
@[simp] theorem State.send_sensor (m : CtlMsg) (j : Nat) : (s.send m).sensor j = s.sensor j := rfl
@[simp] theorem State.send_fence (m : CtlMsg) (j : Nat) : (s.send m).fence j = s.fence j := rfl

/-! ### Reading after a write -/

@[simp] theorem State.rd_wr_same (o : Nat) (v : Word) : (s.wr o v).rd o = v := Table.get_set_same ..
theorem State.rd_wr_other {o j : Nat} (v : Word) (h : j ≠ o) : (s.wr o v).rd j = s.rd j := Table.get_set_other _ _ _ _ h
theorem State.rd_wr (o j : Nat) (v : Word) : (s.wr o v).rd j = if j = o then v else s.rd j := by
  split
  · subst_vars; simp
  · exact s.rd_wr_other v ‹_›
@[simp] theorem State.rd_inc_same (o n : Nat) : (s.inc o n).rd o = s.rd o + BitVec.ofNat 32 n := s.rd_wr_same ..
theorem State.rd_inc_other {o j : Nat} (n : Nat) (h : j ≠ o) : (s.inc o n).rd j = s.rd j := s.rd_wr_other _ h
@[simp] theorem State.rd_refuse_same (o n : Nat) : (s.refuse o n).rd o = BitVec.ofNat 32 (n % 0x10000) := s.rd_wr_same ..
theorem State.rd_refuse_other {o j : Nat} (n : Nat) (h : j ≠ o) : (s.refuse o n).rd j = s.rd j := s.rd_wr_other _ h
theorem State.rd_wrBit_other {o j : Nat} (i : Nat) (b : Bool) (h : j ≠ o) : (s.wrBit o i b).rd j = s.rd j := s.rd_wr_other _ h
theorem State.rd_wr64_other {o j : Nat} (n : Nat) (h : j ≠ o) (h4 : j ≠ o + 4) : (s.wr64 o n).rd j = s.rd j := by
  simp [State.wr64, State.rd_wr_other, h, h4]
theorem State.rd_inc64_other {o j : Nat} (n : Nat) (h : j ≠ o) (h4 : j ≠ o + 4) : (s.inc64 o n).rd j = s.rd j :=
  s.rd_wr64_other _ h h4
/-- A 64-bit pair reads as written, within its 64 bits (R6). -/
@[simp] theorem State.rd64_wr64 (o n : Nat) : (s.wr64 o n).rd64 o = n % 2 ^ 64 := by
  simp only [State.rd64, State.wr64, State.rd_wr_same, State.rd_wr_other _ _ (show o ≠ o + 4 by omega), BitVec.toNat_ofNat]
  omega
@[simp] theorem State.rd64_inc64 (o n : Nat) : (s.inc64 o n).rd64 o = (s.rd64 o + n) % 2 ^ 64 := s.rd64_wr64 ..
@[simp] theorem State.stope_setStope_same (k : Nat) (t : Stope) : (s.setStope k t).stope k = t := Table.get_set_same ..
theorem State.stope_setStope_other {k j : Nat} (t : Stope) (h : j ≠ k) : (s.setStope k t).stope j = s.stope j := Table.get_set_other _ _ _ _ h
@[simp] theorem State.stope_updStope_same (k : Nat) (f : Stope → Stope) : (s.updStope k f).stope k = f (s.stope k) := Table.get_set_same ..
theorem State.stope_updStope_other {k j : Nat} (f : Stope → Stope) (h : j ≠ k) : (s.updStope k f).stope j = s.stope j := Table.get_set_other _ _ _ _ h
@[simp] theorem State.core_setCore_same (k : Nat) (t : Core) : (s.setCore k t).core k = t := Table.get_set_same ..
theorem State.core_setCore_other {k j : Nat} (t : Core) (h : j ≠ k) : (s.setCore k t).core j = s.core j := Table.get_set_other _ _ _ _ h
@[simp] theorem State.core_updCore_same (k : Nat) (f : Core → Core) : (s.updCore k f).core k = f (s.core k) := Table.get_set_same ..
theorem State.core_updCore_other {k j : Nat} (f : Core → Core) (h : j ≠ k) : (s.updCore k f).core j = s.core j := Table.get_set_other _ _ _ _ h
@[simp] theorem State.stream_setStream_same (k : Nat) (t : Stream) : (s.setStream k t).stream k = t := Table.get_set_same ..
theorem State.stream_setStream_other {k j : Nat} (t : Stream) (h : j ≠ k) : (s.setStream k t).stream j = s.stream j := Table.get_set_other _ _ _ _ h
@[simp] theorem State.stream_updStream_same (k : Nat) (f : Stream → Stream) : (s.updStream k f).stream k = f (s.stream k) := Table.get_set_same ..
theorem State.stream_updStream_other {k j : Nat} (f : Stream → Stream) (h : j ≠ k) : (s.updStream k f).stream j = s.stream j := Table.get_set_other _ _ _ _ h
@[simp] theorem State.cls_setCls_same (k : Nat) (t : Class) : (s.setCls k t).cls k = t := Table.get_set_same ..
theorem State.cls_setCls_other {k j : Nat} (t : Class) (h : j ≠ k) : (s.setCls k t).cls j = s.cls j := Table.get_set_other _ _ _ _ h
@[simp] theorem State.evr_setEvr_same (k : Nat) (t : EvRing) : (s.setEvr k t).evr k = t := Table.get_set_same ..
theorem State.evr_setEvr_other {k j : Nat} (t : EvRing) (h : j ≠ k) : (s.setEvr k t).evr j = s.evr j := Table.get_set_other _ _ _ _ h
@[simp] theorem State.port_setPort_same (k : Nat) (t : Port) : (s.setPort k t).port k = t := Table.get_set_same ..
theorem State.port_setPort_other {k j : Nat} (t : Port) (h : j ≠ k) : (s.setPort k t).port j = s.port j := Table.get_set_other _ _ _ _ h
@[simp] theorem State.port_updPort_same (k : Nat) (f : Port → Port) : (s.updPort k f).port k = f (s.port k) := Table.get_set_same ..
theorem State.port_updPort_other {k j : Nat} (f : Port → Port) (h : j ≠ k) : (s.updPort k f).port j = s.port j := Table.get_set_other _ _ _ _ h
@[simp] theorem State.adit_setAdit_same (k : Nat) (t : Adit) : (s.setAdit k t).adit k = t := Table.get_set_same ..
theorem State.adit_setAdit_other {k j : Nat} (t : Adit) (h : j ≠ k) : (s.setAdit k t).adit j = s.adit j := Table.get_set_other _ _ _ _ h
@[simp] theorem State.adit_updAdit_same (k : Nat) (f : Adit → Adit) : (s.updAdit k f).adit k = f (s.adit k) := Table.get_set_same ..
theorem State.adit_updAdit_other {k j : Nat} (f : Adit → Adit) (h : j ≠ k) : (s.updAdit k f).adit j = s.adit j := Table.get_set_other _ _ _ _ h
@[simp] theorem State.group_setGroup_same (k : Nat) (t : Group) : (s.setGroup k t).group k = t := Table.get_set_same ..
theorem State.group_setGroup_other {k j : Nat} (t : Group) (h : j ≠ k) : (s.setGroup k t).group j = s.group j := Table.get_set_other _ _ _ _ h
@[simp] theorem State.fn_setFn_same (k : Nat) (t : Fn) : (s.setFn k t).fn k = t := Table.get_set_same ..
theorem State.fn_setFn_other {k j : Nat} (t : Fn) (h : j ≠ k) : (s.setFn k t).fn j = s.fn j := Table.get_set_other _ _ _ _ h
@[simp] theorem State.fn_updFn_same (k : Nat) (f : Fn → Fn) : (s.updFn k f).fn k = f (s.fn k) := Table.get_set_same ..
theorem State.fn_updFn_other {k j : Nat} (f : Fn → Fn) (h : j ≠ k) : (s.updFn k f).fn j = s.fn j := Table.get_set_other _ _ _ _ h
@[simp] theorem State.vslot_setVslot_same (k : Nat) (t : VSlot) : (s.setVslot k t).vslot k = t := Table.get_set_same ..
theorem State.vslot_setVslot_other {k j : Nat} (t : VSlot) (h : j ≠ k) : (s.setVslot k t).vslot j = s.vslot j := Table.get_set_other _ _ _ _ h
@[simp] theorem State.node_setNode_same (k : Nat) (t : TNode) : (s.setNode k t).node k = t := Table.get_set_same ..
theorem State.node_setNode_other {k j : Nat} (t : TNode) (h : j ≠ k) : (s.setNode k t).node j = s.node j := Table.get_set_other _ _ _ _ h
@[simp] theorem State.sensor_setSensor_same (k : Nat) (t : Sensor) : (s.setSensor k t).sensor k = t := Table.get_set_same ..
theorem State.sensor_setSensor_other {k j : Nat} (t : Sensor) (h : j ≠ k) : (s.setSensor k t).sensor j = s.sensor j := Table.get_set_other _ _ _ _ h
@[simp] theorem State.fence_setFence_same (k : Nat) (t : Fence) : (s.setFence k t).fence k = t := Table.get_set_same ..
theorem State.fence_setFence_other {k j : Nat} (t : Fence) (h : j ≠ k) : (s.setFence k t).fence j = s.fence j := Table.get_set_other _ _ _ _ h

/-! ### The invariant over the shared updates -/

variable {s}

/-- The invariant looks at the memory, the registers, the page tables, the nodes and the classes alone. -/
theorem State.Inv.congr {t : State} (h : s.Inv) (hm : t.mem = s.mem) (hr : t.regs = s.regs) (hk : t.kv = s.kv)
    (hc : t.wnd.classes = s.wnd.classes) : t.Inv :=
  ⟨hm ▸ h.mem, hr ▸ h.regs, hk ▸ h.ptes, hc ▸ h.classes, hk ▸ h.nodes⟩

theorem State.Inv.wr (h : s.Inv) (o : Nat) (v : Word) : (s.wr o v).Inv := ⟨h.mem, Regs.wf_set h.regs, h.ptes, h.classes, h.nodes⟩
theorem State.Inv.inc (h : s.Inv) (o n : Nat) : (s.inc o n).Inv := h.wr ..
theorem State.Inv.wr64 (h : s.Inv) (o n : Nat) : (s.wr64 o n).Inv := (h.wr ..).wr ..
theorem State.Inv.inc64 (h : s.Inv) (o n : Nat) : (s.inc64 o n).Inv := h.wr64 ..
theorem State.Inv.refuse (h : s.Inv) (o n : Nat) : (s.refuse o n).Inv := h.wr ..
theorem State.Inv.wrBit (h : s.Inv) (o i : Nat) (b : Bool) : (s.wrBit o i b).Inv := h.wr ..
theorem State.Inv.wrMem (h : s.Inv) (a : Nat) (bs : List Byte) : (s.wrMem a bs).Inv := ⟨Memory.wf_writeBytes bs h.mem, h.regs, h.ptes, h.classes, h.nodes⟩
theorem State.Inv.wrW (h : s.Inv) (a : Nat) (v : Word) : (s.wrW a v).Inv := h.wrMem ..
theorem State.Inv.wrD (h : s.Inv) (a v : Nat) : (s.wrD a v).Inv := h.wrMem ..
/-- A fold of updates that keep the invariant keeps it. -/
theorem State.Inv.each {α : Type} {f : State → α → State} (hf : ∀ s a, s.Inv → (f s a).Inv) (h : s.Inv) (l : List α) : (s.each l f).Inv := by
  induction l generalizing s with
  | nil => exact h
  | cons a l ih => exact ih (hf _ _ h)

end Sys2Proof.Machine
end

