-- ==== Sys2Proof/Laws/Bits.lean ====
section
/-! SUPPORT. Laws of bit fields: what a field of a word reads after a field has been replaced. -/

namespace Sys2Proof.Machine

theorem bitAt_eq_testBit (n i : Nat) : bitAt n i = n.testBit i := by
  rw [Nat.testBit_eq_decide_div_mod_eq]; simp [bitAt, beq_eq_decide]

theorem bit_eq_getLsbD (w : Word) (i : Nat) : bit w i = w.getLsbD i := by
  rw [bit, bitAt_eq_testBit, BitVec.getLsbD]

theorem bitsOf_testBit (v hi lo i : Nat) : (bitsOf v hi lo).testBit i = (decide (i < hi + 1 - lo) && v.testBit (lo + i)) := by
  rw [bitsOf, Nat.testBit_mod_two_pow, Nat.testBit_div_two_pow, Nat.add_comm i lo]

theorem getLsbD_setFld (w : Word) (hi lo v i : Nat) (hlo : lo ≤ hi) (h : i < 32) :
    (setFld w hi lo v).getLsbD i = if lo ≤ i ∧ i ≤ hi then v.testBit (i - lo) else w.getLsbD i := by
  have hm : ((2 ^ (hi + 1 - lo) - 1) * 2 ^ lo).testBit i = decide (lo ≤ i ∧ i ≤ hi) := by
    rw [Nat.mul_comm, Nat.testBit_two_pow_mul, Nat.testBit_two_pow_sub_one]
    by_cases h1 : lo ≤ i
    · simp [h1]; omega
    · simp [h1]
  have hv : (v % 2 ^ (hi + 1 - lo) * 2 ^ lo).testBit i = (decide (lo ≤ i ∧ i ≤ hi) && v.testBit (i - lo)) := by
    rw [Nat.mul_comm, Nat.testBit_two_pow_mul, Nat.testBit_mod_two_pow]
    by_cases h1 : lo ≤ i
    · have : (i - lo < hi + 1 - lo) ↔ i ≤ hi := by omega
      simp [h1, this]
    · simp [h1]
  simp only [setFld, BitVec.getLsbD_or, BitVec.getLsbD_and, BitVec.getLsbD_not, BitVec.getLsbD_ofNat, h, hm, hv]
  by_cases h2 : lo ≤ i ∧ i ≤ hi <;> simp [h2]

/-- A replaced field reads as written, within its width. -/
theorem fld_setFld_same (w : Word) (hi lo v : Nat) (hlo : lo ≤ hi) (hhi : hi < 32) :
    fld (setFld w hi lo v) hi lo = v % 2 ^ (hi + 1 - lo) := by
  apply Nat.eq_of_testBit_eq
  intro i
  rw [fld, bitsOf_testBit, Nat.testBit_mod_two_pow]
  by_cases h : i < hi + 1 - lo
  · have := getLsbD_setFld w hi lo v (lo + i) hlo (by omega)
    rw [BitVec.getLsbD] at this
    rw [this]
    simp [h, show lo + i ≤ hi by omega]
  · simp [h]

/-- A field beside the replaced one stays. -/
theorem fld_setFld_other (w : Word) (hi lo v a b : Nat) (hlo : lo ≤ hi) (hab : a < 32) (h : a < lo ∨ hi < b) :
    fld (setFld w hi lo v) a b = fld w a b := by
  apply Nat.eq_of_testBit_eq
  intro i
  rw [fld, bitsOf_testBit, fld, bitsOf_testBit]
  by_cases hi' : i < a + 1 - b
  · have := getLsbD_setFld w hi lo v (b + i) hlo (by omega)
    rw [BitVec.getLsbD, BitVec.getLsbD] at this
    rw [this, if_neg (by omega)]
  · simp [hi']

theorem bit_setFld_same (w : Word) (i v : Nat) (h : i < 32) : bit (setFld w i i v) i = v.testBit 0 := by
  rw [bit_eq_getLsbD, getLsbD_setFld _ _ _ _ _ (le_refl _) h]; simp

theorem bit_setFld_other (w : Word) (hi lo v i : Nat) (hlo : lo ≤ hi) (h : i < lo ∨ hi < i) :
    bit (setFld w hi lo v) i = bit w i := by
  by_cases hi' : i < 32
  · rw [bit_eq_getLsbD, getLsbD_setFld _ _ _ _ _ hlo hi', if_neg (by omega), bit_eq_getLsbD]
  · rw [bit_eq_getLsbD, bit_eq_getLsbD, BitVec.getLsbD_of_ge _ _ (by omega), BitVec.getLsbD_of_ge _ _ (by omega)]

/-- A register's bit after that bit is written. -/
@[simp] theorem State.bit_rd_wrBit (s : State) (o i : Nat) (b : Bool) (h : i < 32) : bit ((s.wrBit o i b).rd o) i = b := by
  rw [State.wrBit, State.rd_wr_same, bit_setFld_same _ _ _ h]; cases b <;> rfl

end Sys2Proof.Machine
end

