-- ==== Sys2Proof/WellFormed.lean ====
section
/-! DEFINITION. Well-formed commands: every index an operand carries names a unit, function, page or slot
that the part has (R18 to R21, R451, R454). -/

namespace Sys2Proof

open Sys2Proof.Machine

/-- A command is well-formed when every index it carries names something that exists on the part. -/
def Instr.wf : Instr → Bool
  | .registerWrite f off _ => f ≤ 16 && off < 0x4000000 && off % 4 == 0
  | .reg64LowRead f off => f ≤ 16 && off < 0x4000000 && off % 4 == 0
  | .reg64LowWrite f off _ => f ≤ 16 && off < 0x4000000 && off % 4 == 0
  | .reg64HighWrite f off _ => f ≤ 16 && off < 0x4000000 && off % 4 == 0
  | .errInject f p _ => f ≤ 16 && (pageAt p).isSome && p % 0x1000 == 0
  | .pageEnable f p _ => f ≤ 16 && (pageAt p).isSome && p % 0x1000 == 0
  | .pageQuiesce f p => f ≤ 16 && (pageAt p).isSome && p % 0x1000 == 0
  | .quiesced p => (pageAt p).isSome && p % 0x1000 == 0
  | .hostFenceSet f p => f ≤ 16 && (pageAt p).isSome && p % 0x1000 == 0
  | .hostFenceClear f p => f ≤ 16 && (pageAt p).isSome && p % 0x1000 == 0
  | .paceWindowEnd ep _ => ep < 4096
  | .replanDaily => true
  | .marginReplan orders => orders.all fun i => i < 256
  | .replan f => f ≤ 16
  | .packetInject _ => true
  | .packetDeliver _ => true
  | .creditReturn _ _ _ => true
  | .doorbell _ => true
  | .barrierArrive _ => true
  | .barrierRelease _ => true
  | .ctlCancel _ => true
  | .fenceSet _ => true
  | .fenceClear _ => true
  | .faultNotice _ => true
  | .ctlReserved _ => true
  | .geomWrite f n _ => f ≤ 16 && n < 16
  | .regionApply => true
  | .regionTimeoutExpiry => true
  | .slotCommit f s slot _ => f ≤ 16 && s < 256 && slot < 24
  | .entryWrite f s slot entry _ => f ≤ 16 && s < 256 && slot < 24 && entry < 16
  | .planStart s _ => s < 256
  | .entryRun s seam _ => s < 256 && seam < 4
  | .resultPushResume s _ => s < 256
  | .passEnd s e => s < 256 && e.seam < 4
  | .bankSwitch s => s < 256
  | .refEnable s => s < 256
  | .refReady s => s < 256
  | .refDisable s => s < 256
  | .refOff s => s < 256
  | .refLost s => s < 256
  | .refIdleExpiry s => s < 256
  | .prewarm s => s < 256
  | .refModeWrite f s _ => f ≤ 16 && s < 256
  | .calZero f s _ => f ≤ 16 && s < 256
  | .calFull f s _ => f ≤ 16 && s < 256
  | .calAbort f s _ => f ≤ 16 && s < 256
  | .calExclStart s => s < 256
  | .calHeldStart s => s < 256
  | .calSample s => s < 256
  | .calCommit s seam => s < 256 && seam < 4
  | .calGroup => true
  | .calIntervalExpiry s => s < 256
  | .calSlot s => s < 256
  | .calDeferExpiry s => s < 256
  | .calHoldTimeout s => s < 256
  | .calIntWrite f _ => f ≤ 16
  | .refRowRestore _ => true
  | .dramHourCheck => true
  | .laneMarginCheck port lane _ => port < 24 && lane < 4
  | .laneRetrain port lane => port < 24 && lane < 4
  | .stepStart c => c < 272
  | .descFetch c _ => c < 272
  | .dma c _ => c < 272
  | .dma2d c _ => c < 272
  | .fill c _ => c < 272
  | .launch c _ _ => c < 272
  | .accClear c _ => c < 272
  | .accAdd c _ => c < 272
  | .accRead c _ => c < 272
  | .scale c _ => c < 272
  | .requant c _ => c < 272
  | .vbin c _ => c < 272
  | .vfma c _ => c < 272
  | .vcvt c _ => c < 272
  | .vred c _ => c < 272
  | .nlf c _ => c < 272
  | .norm c _ => c < 272
  | .xred c _ => c < 272
  | .xredOperand root src _ _ _ _ => root < 256 && src < 256
  | .xredResult c _ _ _ => c < 272
  | .vtopk c _ => c < 272
  | .barrier c _ => c < 272
  | .cwait c _ => c < 272
  | .cwaitTimeout c => c < 272
  | .cinc c _ => c < 272
  | .cincArrive c counter _ => c < 272 && counter < 32
  | .wopen c _ => c < 272
  | .wclose c _ => c < 272
  | .wwait c _ => c < 272
  | .windowWriteArrive _ => true
  | .windowExpiry c _ => c < 272
  | .mma4 c _ _ _ _ _ _ _ _ => c < 272
  | .pquant c _ p _ _ _ _ => c < 272 && (pageAt p).isSome && p % 0x1000 == 0
  | .pmerge c _ _ _ _ => c < 272
  | .cands c _ stream _ _ _ _ => c < 272 && stream < 16384
  | .kvcmd c _ => c < 272
  | .descComplete c _ => c < 272
  | .redgrpWrite f s i _ => f ≤ 16 && s < 256 && i < 8
  | .spProtWrite f c _ => f ≤ 16 && c < 272
  | .reprotRegionDone c region _ => c < 272 && (region < 16 || (c == 256 && region < 80))
  | .stepRerun c _ => c < 272
  | .tokenRetry x => x.stream < 16384
  | .scrubRead c word _ => c < 272 && word < 262144
  | .progReloaded f c => f ≤ 16 && c < 272
  | .poolGrantWrite f mc hi _ => f ≤ 16 && mc < 16 && hi < 2
  | .poolProtWrite f mc hi _ => f ≤ 16 && mc < 16 && hi < 2
  | .poolRoWrite f mc hi _ => f ≤ 16 && mc < 16 && hi < 2
  | .stepWatchdogExpiry c => c < 272
  | .attend k => k < 8
  | .append k => k < 8
  | .copy k _ _ _ => k < 8
  | .kvcmdComplete c _ => c < 272
  | .posmapCommit f _ => f ≤ 16
  | .freeDead f _ => f ≤ 16
  | .posmapInstall stream => stream < 16384
  | .commit _ d => d.stream.all fun i => i < 16384
  | .spillStart => true
  | .spillReload stream => stream < 16384
  | .pcFail k pc => k < 8 && pc < 32
  | .dramError k pc _ _ => k < 8 && pc < 32
  | .nodeInsert stream => stream < 16384
  | .nodeReady _ => true
  | .genEvict _ => true
  | .nodePin f => f ≤ 16
  | .nodeUnpin f => f ≤ 16
  | .unpinAll f => f ≤ 16
  | .nodeFind f _ => f ≤ 16
  | .pfxEnable f _ => f ≤ 16
  | .pfxDisable f _ => f ≤ 16
  | .ringDb f _ => f ≤ 16
  | .itemMalformed r => (r < 16384 || r == 0xFFFFF)
  | .itemReservedOpcode r => (r < 16384 || r == 0xFFFFF)
  | .openStream r => (r < 16384 || r == 0xFFFFF)
  | .closeStream r => (r < 16384 || r == 0xFFFFF)
  | .classConfig r => (r < 16384 || r == 0xFFFFF)
  | .appendTokens r => (r < 16384 || r == 0xFFFFF)
  | .generate r => (r < 16384 || r == 0xFFFFF)
  | .pause r => (r < 16384 || r == 0xFFFFF)
  | .resume r => (r < 16384 || r == 0xFFFFF)
  | .cancel r => (r < 16384 || r == 0xFFFFF)
  | .cancelAck stream => stream < 16384
  | .park r => (r < 16384 || r == 0xFFFFF)
  | .unpark r => (r < 16384 || r == 0xFFFFF)
  | .setSampler r => (r < 16384 || r == 0xFFFFF)
  | .setMask r => (r < 16384 || r == 0xFFFFF)
  | .tokenEmbed x => x.stream < 16384
  | .tokenSample stream _ => stream < 16384
  | .tokenReturn stream _ => stream < 16384
  | .mirrorAck stream _ _ => stream < 16384
  | .journalPage stream _ _ _ => stream < 16384
  | .tokenRelease stream => stream < 16384
  | .deadlineMiss stream => stream < 16384
  | .winderIssue _ => true
  | .classRecompute => true
  | .heldRecordWrite ring => ring < 64
  | .evrHeadWrite f _ => f ≤ 16
  | .evrTimeExpiry ring => ring < 64
  | .ringReset f _ => f ≤ 16
  | .evrReset f _ => f ≤ 16
  | .parkComplete stream _ => stream < 16384
  | .parkFail stream => stream < 16384
  | .unparkVerify stream _ _ => stream < 16384
  | .stage f _ _ => f ≤ 16
  | .load f _ _ => f ≤ 16
  | .shadow f _ _ => f ≤ 16
  | .inPlace f _ _ => f ≤ 16
  | .swapAbort f _ => f ≤ 16
  | .swapCommit f => f ≤ 16
  | .swapCommitAbort f => f ≤ 16
  | .imageStreamEnd => true
  | .copyRepair slot => slot < 64
  | .programRow s mac _ row _ => s < 256 && mac < 74 && row < 256
  | .tempResume => true
  | .tempWaitExpiry => true
  | .swapReport _ _ _ => true
  | .swapTimeoutExpiry => true
  | .jobBarrierDrained => true
  | .flip => true
  | .layerDone _ _ => true
  | .layerFail _ _ => true
  | .rollback => true
  | .jobBarrierRelease => true
  | .swapComplete => true
  | .bankRefresh s mac _ => s < 256 && mac < 74
  | .refreshRetry s mac _ => s < 256 && mac < 74
  | .localise s seam _ => s < 256 && seam < 4
  | .standbyReport _ _ => true
  | .seamSuspectTimeout s seam => s < 256 && seam < 4
  | .checkClear f s _ => f ≤ 16 && s < 256
  | .spareProgram s spare _ => s < 256 && (spare == 72 || spare == 73)
  | .spareMapIn s spare => s < 256 && (spare == 72 || spare == 73)
  | .buddyTakeover s => s < 256
  | .mergeTakeover mc => mc < 16
  | .canaryModeWrite f s _ => f ≤ 16 && s < 256
  | .assayDue kind _ _ => kind < 5
  | .assaySlot kind _ _ _ rows => kind < 5 && (kind != 2 || (rows.length == 8 && rows.all fun r => r < 256))
  | .assayDeferExpiry kind _ _ => kind < 5
  | .assayGo f _ => f ≤ 16
  | .tallyWrite => true
  | .clearTransient f => f ≤ 16
  | .flush f => f ≤ 16
  | .tallyFind f _ => f ≤ 16
  | .alarmSecond => true
  | .portTrain port _ _ => port < 24
  | .cap port _ => port < 24
  | .credit port _ => port < 24
  | .creditIdleTimer port => port < 24
  | .nak port _ => port < 24
  | .laneMap port _ _ => port < 24
  | .flitReceive port _ => port < 24
  | .write _ => true
  | .writeAck _ => true
  | .ctl _ => true
  | .chunk _ => true
  | .chunkAck _ => true
  | .store port _ => port < 24
  | .ingress port _ => port < 24
  | .pathFail _ => true
  | .echo _ => true
  | .echoReply _ _ => true
  | .replayTimeout port => port < 24
  | .laneFail port lane => port < 24 && lane < 4
  | .linkSilenceTimeout port => port < 24
  | .retrainTimer port => port < 24
  | .retrain f port => f ≤ 16 && port < 24
  | .laneOffWrite f port _ => f ≤ 16 && port < 24
  | .aditCommit f => f ≤ 16
  | .aditVerifyTimeout ep _ => ep < 4096
  | .revert f => f ≤ 16
  | .disable f => f ≤ 16
  | .routeRemeasure ep _ _ => ep < 4096
  | .mcHoldExpiry _ => true
  | .allReduce _ _ => true
  | .allGather _ _ => true
  | .reduceScatter _ _ => true
  | .allToAll _ _ => true
  | .multicast _ _ => true
  | .mcResend _ => true
  | .collFold _ => true
  | .chunkTimeout _ _ => true
  | .collComplete _ => true
  | .grpCommit f => f ≤ 16
  | .busbarLoss => true
  | .brownout _ => true
  | .busbarStable _ => true
  | .phaseFault phase => phase < 32
  | .pwrReqUp f => f ≤ 16
  | .pwrReqDown f => f ≤ 16
  | .powerUpSequence _ => true
  | .drainEnd => true
  | .drainTimeoutExpiry => true
  | .powerDownSequence => true
  | .vcoreStep => true
  | .vcorePolicyTick => true
  | .thermalUpdate _ _ _ _ => true
  | .sensorRejoin sensor => sensor < 40
  | .refit f => f ≤ 16
  | .thresholdAssert node which _ => node < 280 && which < 3
  | .thresholdDeassert node which => node < 280 && which < 3
  | .powerOverLimit => true
  | .graceExpiry => true
  | .throttleMark => true
  | .throttleEnd => true
  | .throttleReleaseStep => true
  | .thermalTrip comparator => comparator < 12
  | .tripRearm comparator => comparator < 12
  | .energyWindow _ _ _ _ => true
  | .pgRecompute => true
  | .pwrLimitWrite f _ => f ≤ 16
  | .vfFlr vf => 1 ≤ vf && vf ≤ 16
  | .pfReset => true
  | .moduleReset => true
  | .negotiate f => f ≤ 16
  | .rmvPrep f => f ≤ 16
  | .rmvPrepForce f => f ≤ 16
  | .rmvCancel f => f ≤ 16
  | .strapLatch _ => true
  | .strapChange _ => true
  | .ringFrameForward _ => true
  | .hello _ => true
  | .helloTimer => true
  | .ack _ => true
  | .alarmResend => true
  | .logPull _ => true
  | .powerUpMsg _ => true
  | .powerDownMsg _ => true
  | .powerResetMsg _ => true
  | .powerStatusMsg _ => true
  | .regRead _ => true
  | .regWrite _ => true
  | .removePrep _ => true
  | .removePrepForce _ => true
  | .removeCancel _ => true
  | .removeStatus _ => true
  | .sync port _ _ _ _ => port < 2
  | .syncLoss => true
  | .bypassClose => true
  | .bypassOpen _ => true
  | .bypassRetry => true
  | .prsntMate _ => true
  | .prsntBreak => true
  | .pwrEnRise => true
  | .pwrEnFall => true
  | .attnButton => true
  | .calGainsWrite f s _ => f ≤ 16 && s < 256
  | .stageComplete => true
  | .kvRestored k pc stream _ => k < 8 && pc < 32 && stream < 16384
  | .d3hot f => f ≤ 16
  | .d0 f => f ≤ 16

end Sys2Proof
end

