-- ==== Sys2Proof/Tests/Slice0.lean ====
section
/-! SUPPORT. Small tests: the reset state, refused ill-formed commands, single steps against the manual, and a witness for the
hypotheses of every statement. -/

namespace Sys2Proof.Machine

set_option Elab.async false

open Sys2Proof

/-! One ill-formed command for each kind of check; `Instr.wf` refuses every one. -/

theorem test_wf_function : Instr.wf (.replan 17) = false := by decide
theorem test_wf_offset_misaligned : Instr.wf (.registerWrite 0 2 0) = false := by decide
theorem test_wf_offset_beyond_bar0 : Instr.wf (.registerWrite 0 0x4000000 0) = false := by decide
theorem test_wf_page_misaligned : Instr.wf (.quiesced 4) = false := by decide
theorem test_wf_endpoint : Instr.wf (.paceWindowEnd 4096 0) = false := by decide
theorem test_wf_region : Instr.wf (.geomWrite 0 16 0) = false := by decide
theorem test_wf_slot : Instr.wf (.slotCommit 0 0 24 0) = false := by decide
theorem test_wf_entry : Instr.wf (.entryWrite 0 0 0 16 0) = false := by decide
theorem test_wf_stope : Instr.wf (.bankSwitch 256) = false := by decide
theorem test_wf_seam : Instr.wf (.passEnd 0 ⟨4, false⟩) = false := by decide
theorem test_wf_port : Instr.wf (.laneRetrain 24 0) = false := by decide
theorem test_wf_lane : Instr.wf (.laneRetrain 0 4) = false := by decide
theorem test_wf_core : Instr.wf (.stepStart 272) = false := by decide
theorem test_wf_root : Instr.wf (.xredOperand 256 0 0 0 0 []) = false := by decide
theorem test_wf_counter : Instr.wf (.cincArrive 0 32 0) = false := by decide
theorem test_wf_stream : Instr.wf (.tokenRetry ⟨16384, false⟩) = false := by decide
theorem test_wf_redgrp : Instr.wf (.redgrpWrite 0 0 8 0) = false := by decide
theorem test_wf_protection_region : Instr.wf (.reprotRegionDone 0 16 []) = false := by decide
theorem test_wf_word : Instr.wf (.scrubRead 0 262144 []) = false := by decide
theorem test_wf_merge_core : Instr.wf (.mergeTakeover 16) = false := by decide
theorem test_wf_pool_half : Instr.wf (.poolGrantWrite 0 0 2 0) = false := by decide
theorem test_wf_stack : Instr.wf (.attend 8) = false := by decide
theorem test_wf_pseudo_channel : Instr.wf (.pcFail 0 32) = false := by decide
theorem test_wf_submission_ring : Instr.wf (.openStream 16384) = false := by decide
theorem test_wf_event_ring : Instr.wf (.heldRecordWrite 64) = false := by decide
theorem test_wf_vault_slot : Instr.wf (.copyRepair 64) = false := by decide
theorem test_wf_macro : Instr.wf (.bankRefresh 0 74 false) = false := by decide
theorem test_wf_row : Instr.wf (.programRow 0 0 false 256 []) = false := by decide
theorem test_wf_spare : Instr.wf (.spareMapIn 0 71) = false := by decide
theorem test_wf_assay_kind : Instr.wf (.assayDue 5 0 false) = false := by decide
theorem test_wf_phase : Instr.wf (.phaseFault 32) = false := by decide
theorem test_wf_sensor : Instr.wf (.sensorRejoin 40) = false := by decide
theorem test_wf_node : Instr.wf (.thresholdAssert 280 0 0) = false := by decide
theorem test_wf_threshold : Instr.wf (.thresholdDeassert 0 3) = false := by decide
theorem test_wf_comparator : Instr.wf (.tripRearm 12) = false := by decide
theorem test_wf_flr_of_physical_function : Instr.wf (.vfFlr 0) = false := by decide
theorem test_wf_virtual_function : Instr.wf (.vfFlr 17) = false := by decide
theorem test_wf_sync_port : Instr.wf (.sync 2 0 0 0 0) = false := by decide
theorem test_wf_register_write : Instr.wf (.registerWrite 0 4 0) = true := by decide
theorem test_wf_control_ring : Instr.wf (.openStream 0xFFFFF) = true := by decide

/-- A row of no register. -/
def noRow : RegRow × Nat := ({ off := 0, count := 0, stride := 0, inner := 0, step := 0, reset := 0, firstOnly := false, fields := [] }, 0)

/-- A packet from a source to a destination. -/
def aPacket (src dest : Nat) : Packet :=
  { dest := dest, src := src, vc := 0, region := 0, bytes := 8, opcode := 1, timeHint := 0, addr := 0, payload := [1, 2, 3, 4, 5, 6, 7, 8], device := 0 }

/-- A control message of a type, from a source to one endpoint. -/
def aCtl (dest src typ args : Nat) (a0 : Word) : CtlMsg :=
  { dest := dest, args := args, region := 0, typ := typ, timeHint := 0, src := src, arg0 := a0, arg1 := 0 }

/-- A notice with a cause. -/
def aNotice (cause : Nat) : Notice := { cause := cause, unit := 0, detail := 0, source := epHeadframe, stream := none, region := 0, time := 0, seq := 0 }

/-- The machine after reset, with a change to its networks. -/
def withNoc (f : Noc → Noc) : State := { State.reset with noc := f State.reset.noc }

/-- The machine READY, with VCORE up, in every role; region 0 is the whole die. -/
def small : State :=
  let s := State.reset
  { s with now := 1000000, hf := { s.hf with pwr := .ready, vcore := 750 }, wnd := { s.wnd with roles := 7 } }

/-- A descriptor of all zeros that awaits something. -/
def anIssued (a : Await) : Issued :=
  { step := 0, desc := { index := 0, w0 := 0, w1 := 0, w2 := 0, w3 := 0 }, sb := [], await := a, cause := 0, again := false }

/-- A step of a stream. -/
def aStep (st : Option Nat) : Step := { prog := 0, stream := st, bank := false, converting := false, bound := 0, missed := false }

/-- The machine above with some control messages on their way. -/
def smallCtl (m : CtlMsg) : State := { small with noc := { small.noc with ctl := [m] } }

/-- A launch of seam 0 of stope 0, waiting, of a slot with no entries. -/
def aLaunch : Launch :=
  { id := 1, seams := 1, slot := 0, bank := false, format := false, da := [0], stream := none, index := 0, running := false, left := 0, ended := false,
    status := 0, reruns := 0, hdr := 0x108, entries := [], levels := [], tau := (0, 0) }

/-- The small machine with a change to stope 0. -/
def withStope (f : Stope → Stope) : State := small.setStope 0 (f Stope.reset)

/-- Sequencer 0 running launch 1 with the entries given. -/
def running (es : List Word) (pos : Nat) : Seq := { Seq.idle with busy := true, launch := 1, hdr := 0x108, entries := es, pos := pos }

/-- Stope 0's calibration engine in a state. -/
def withCal (f : Cal → Cal) : State := withStope fun t => { t with cal := f Cal.reset }

/-- The machine above with one gain named in CAL_GAINS. -/
def gainOne (s : State) : State := s.wr (calGains 0) 1

/-- A descriptor. -/
def aDesc (op func len : Nat) (w1 w2 w3 : Word) : Desc :=
  { index := 0, w0 := BitVec.ofNat 32 (op + 512 * func + 16384 * len), w1 := w1, w2 := w2, w3 := w3 }

/-- A step in progress. -/
def aRun : Running := { id := 1, step := aStep none, next := 1, lastSeen := false, started := 0, fetchRetry := false, watched := false }

/-- The machine with one core as given. -/
def coreWith (c : Nat) (f : Core → Core) : State := small.setCore c (f Core.reset)

/-- A descriptor at the head of a core. -/
def atHead (c : Nat) (d : Desc) : State := coreWith c fun t => { t with fetched := some d, run := some aRun }

/-- Words of stope 0's scratchpad. -/
def spRng (a n : Nat) : Rng := { space := 0, start := spBase 0 + 8 * a, words := n }

/-- Words of merge core 0's memory. -/
def mcRng (a n : Nat) : Rng := { space := 2, start := coreMemBase 0 + 8 * a, words := n }

/-- Words of merge core 0's operand buffer. -/
def obRng (b a n : Nat) : Rng := { space := 2, start := obBase 0 b + 8 * a, words := n }

/-- A window on the first words of stope 0's scratchpad. -/
def aWindow (e : Option Nat) : Window :=
  { base := spBase 0, len := 256, mode := 3, device := 0, endpoint := 0, region := 0, expiry := e, counter := none, arrived := 0 }

/-- The bytes of a stack command on stream 0's first page: one token, one head. -/
def kvBytes (cmd rows : Nat) : List Byte :=
  [BitVec.ofNat 8 cmd, 0, 1, 1] ++ List.replicate 16 0 ++ [1] ++ List.replicate 43 0 ++ List.replicate (64 * rows) 0x18 ++
    (List.replicate rows [0x7F, 0]).flatten ++ List.replicate (16 - 2 * rows) 0

/-- The machine above with its stacks trained and stream 0 idle. -/
def kvSmall : State := { small with hf := { small.hf with trained := 255 } }.setStream 0 { Stream.free with state := .idle }

/-- A page in a frame. -/
def aPage (k f : Nat) : Pte := { Pte.none with frame := f, stack := k, valid := true }

/-- A command of merge core 0. -/
def aKvCmd (cmd rows : Nat) : KvCmd := { core := 256, step := 0, index := 0, bytes := kvBytes cmd rows, dst := 0xC8000000, region := 0 }

/-- That command at the front of stack 0's queue, on a machine as given. -/
def kvQueued (s : State) (cmd rows : Nat) : State := { s with kv := { s.kv with kvq := [(0, [aKvCmd cmd rows])] } }

/-- The machine above with stream 0's first page in frame 64 of stack 0. -/
def kvPage : State := (kvSmall.setPte 0 (aPage 0 64)).setFrameRef 0 64 1

/-- A machine whose core waits for a stack. -/
def kvWaits (bs : List Byte) : State :=
  let s := coreWith 256 fun t => { t with issued := [anIssued .kvcmd] }
  { s with kv := { s.kv with replies := [{ core := 256, step := 0, index := 0, cmd := [], dst := 0xC8000000, bytes := bs, cause := 0 }] } }

/-- A position map. -/
def aMap : PosMap := { base := 0x461C4000, dims := 0, segs := [{ first := 0, last := 0xFFFFFFFF, offset := 0 }], phi := [] }

/-- A token in flight. -/
def aFly : Flying :=
  { slot := 0, token := 0, prefill := 0, samples := false, sampled := none, deadline := none, demoted := false, released := 0, retried := false,
    remaining := 0, atRisk := false, missed := false }

/-- A node of the tree. -/
def aNode : Node :=
  { hash := 5, parent := noNode, depth := 0, next := noNode, refs := 0, children := 0, ready := false, pinned := true, lastUse := 0, gen := 0,
    tokens := List.replicate 256 1, stream := 0, frames := [] }

/-- The machine above with that node. -/
def withNode : State := { kvSmall with kv := { kvSmall.kv with nodes := [(0, aNode)] } }

/-- The machine above with a prefix tree of one frame, and 256 committed tokens of stream 0. -/
def treeSmall : State :=
  let s := ((kvSmall.wr pfxCtrl 3).wr pfxNodeFrames 1).setStream 0 { Stream.free with state := .idle, committed := 256, history := List.replicate 256 7 }
  { s with kv := { s.kv with nodeFrames := [32] } }

/-- Stream 0 in flight, its page on pseudo-channel 0 of stack 0, in a class of a protection. -/
def kvProt (k : Nat) : State :=
  let s := kvPage.updStream 0 (fun t => { t with state := .active, flying := some aFly })
  { s with wnd := { s.wnd with classes := [(0, { Class.none with kvprot := k, prio := 1 })] } }

/-- The first entry of an item: its opcode and its bytes from 0x10 on. -/
def itemBytes (op : Nat) (args : List Byte) : List Byte := [BitVec.ofNat 8 op] ++ List.replicate 15 0 ++ args ++ List.replicate (48 - args.length) 0

/-- A sound item of one entry. -/
def anItem (op : Nat) (args : List Byte) : Item := { kind := .ok, n := 1, first := itemBytes op args, rest := [] }

/-- The machine above, READY for service, with one class that admits every stream. -/
def serving : State := { kvSmall with wnd := { kvSmall.wnd with classes := [(0, { Class.none with admitted := true, maxStreams := 9, nodl := true, maxCtx := 999 })] } }

/-- A stream whose ring holds one item. -/
def submit (x : Stream) (op : Nat) (args : List Byte) : State :=
  (serving.setStream 0 { x with ringBase := 0x1000, tail := 1 }).wrMem (hostBase + 0x1000) (itemBytes op args)

/-- A stream in a state. -/
def inState (x : StreamState) : Stream := { Stream.free with state := x }

/-- The control ring with one item. -/
def submitCtrl (args : List Byte) : State :=
  let b := itemBytes 3 args
  let s := { serving with wnd := { serving.wnd with ctrlBase := 0x1000, ctrlTail := 1 } }
  s.wrMem (hostBase + 0x1000) (setAt (setAt (setAt b 4 fun _ => 0xFF) 5 fun _ => 0xFF) 6 fun _ => 0x0F)

/-- The control ring's item. -/
def ctrlItem (args : List Byte) : Item := { kind := .ok, n := 1, first := (submitCtrl args).rdMem (hostBase + 0x1000) 64, rest := [] }

/-- An event record. -/
def aRecord : Record := { typ := 1, flags := 0, code := 0, stream := 0, time := 5, tag := 0, data := 7 }

/-- A stream that generates, with a token in flight. -/
def inFlight (f : Flying → Flying) : Stream :=
  { Stream.free with state := .active, generating := true, budget := 5, work := [.generate 5 0], pend := [3], flying := some (f { aFly with samples := true, prefill := 1 }) }

/-- A machine with a bound table of one row, at full pace. -/
def withBounds (s : State) : State :=
  { s with wnd := { s.wnd with job := { s.wnd.job with bounds := [{ ctx := 4096, c := 10, a := 10, u := 1, v := 1, e := 1, cp := [(4096, (5, 5))] }] } },
           hf := { s.hf with plan := { s.hf.plan with speed := 0x4000 } } }

/-- A step that is ready. -/
def aReq : StepReq := { core := 1, prog := 0, stream := none, bank := false, cost := [0], bound := 5, remaining := 0, reserved := false, first := false, token := none }

/-- One slice's answer. -/
def aSlice : SliceCands := { m := 0x3F800000, l := 0x3F800000, cands := [(2, 0x3F000000), (1, 0x3F800000)] }

/-- The header of a sound slice up to its DIGEST field. -/
def headA : List Byte :=
  [0x53, 0x4C, 0x4E, 0x49, 0, 1, 0, 0] ++ List.replicate 12 0 ++ [0xFD, 0xFF, 0x0F, 0, 0, 0, 0, 3, 0, 0, 0, 0]

/-- What follows its DIGEST field: zeros, and the entries of LEVELS, COLUMNS and a PLANS section of no bytes. -/
def headB : List Byte :=
  List.replicate 192 0 ++ [1, 0, 0, 0, 1, 0, 0, 0, 0, 0, 0, 0x20, 0, 0, 0, 0] ++ [2, 0, 0, 0, 1, 0, 2, 0, 0, 0, 0, 1, 0, 0, 0, 0] ++
    [5, 0, 0, 0, 1, 0x10, 2, 0, 0, 0, 0, 0, 0, 0, 0, 0]

/-- The slice's bytes with a digest: every cell and every scale zero. -/
@[irreducible] def bigRaw (d : List Byte) : List Byte := headA ++ (d ++ (headB ++ List.replicate 553651920 0))

theorem ofLe_zeros (n : Nat) : ofLe (List.replicate n 0) = 0 := by
  induction n with
  | zero => rfl
  | succ n ih => rw [List.replicate_succ, ofLe, ih]; rfl

theorem headA_length : headA.length = 32 := by decide +kernel
theorem headB_length : headB.length = 240 := by decide +kernel

theorem bigRaw_length {d : List Byte} (h : d.length = 32) : (bigRaw d).length = 553652224 := by
  unfold bigRaw
  rw [List.length_append, List.length_append, List.length_append, List.length_replicate, headA_length, headB_length, h]

theorem bigRaw_low (d : List Byte) {o n : Nat} (h : o + n ≤ 32) : leAt (bigRaw d) o n = leAt headA o n := by
  unfold leAt bigRaw
  have := headA_length
  rw [List.drop_append_of_le_length (by omega), List.take_append_of_le_length (by rw [List.length_drop]; omega)]

theorem bigRaw_mid {d : List Byte} (hd : d.length = 32) {o n : Nat} (h : o + n ≤ 240) : leAt (bigRaw d) (64 + o) n = leAt headB o n := by
  unfold leAt bigRaw
  have := headA_length
  have := headB_length
  rw [← List.append_assoc, List.drop_append, List.drop_of_length_le (by rw [List.length_append]; omega), List.nil_append, List.length_append,
    show 64 + o - (headA.length + d.length) = o by omega, List.drop_append_of_le_length (by omega), List.take_append_of_le_length (by rw [List.length_drop]; omega)]

theorem bigRaw_high {d : List Byte} (hd : d.length = 32) {o n : Nat} (h : 304 ≤ o) : leAt (bigRaw d) o n = 0 := by
  unfold leAt bigRaw
  have := headA_length
  have := headB_length
  rw [← List.append_assoc, ← List.append_assoc, List.drop_append, List.drop_of_length_le (by rw [List.length_append, List.length_append]; omega), List.nil_append,
    List.drop_replicate, List.take_replicate, ofLe_zeros]

theorem bigRaw_digest {d : List Byte} (hd : d.length = 32) : ((bigRaw d).drop 0x20).take 32 = d := by
  unfold bigRaw
  have := headA_length
  rw [List.drop_append, List.drop_of_length_le (by omega), List.nil_append, show 32 - headA.length = 0 by omega, List.drop_zero,
    List.take_append_of_le_length (by omega), List.take_of_length_le (by omega)]

theorem bigRaw_rest {d : List Byte} (hd : d.length = 32) : (bigRaw d).drop 64 = headB ++ List.replicate 553651920 0 := by
  unfold bigRaw
  have := headA_length
  rw [← List.append_assoc, List.drop_append, List.drop_of_length_le (by rw [List.length_append]; omega), List.nil_append, List.length_append,
    show 64 - (headA.length + d.length) = 0 by omega, List.drop_zero]

theorem bigRaw_front {d : List Byte} : (bigRaw d).take 32 = headA := by
  unfold bigRaw
  have := headA_length
  rw [List.take_append_of_le_length (by omega), List.take_of_length_le (by omega)]

theorem shaRound_length (v : List (BitVec 32)) (x : BitVec 32 × BitVec 32) (h : v.length = 8) : (shaRound v x).length = 8 := by
  unfold shaRound
  split
  · rfl
  · exact h

theorem foldl_length {α β : Type} (f : List β → α → List β) (hf : ∀ v x, v.length = 8 → (f v x).length = 8) (l : List α) (v : List β)
    (h : v.length = 8) : (l.foldl f v).length = 8 := by
  induction l generalizing v with
  | nil => exact h
  | cons x l ih => exact ih _ (hf v x h)

theorem shaBlock_length (h : List (BitVec 32)) (b : List Byte) (e : h.length = 8) : (shaBlock h b).length = 8 := by
  unfold shaBlock
  simp only [List.length_map, List.length_zip, foldl_length _ shaRound_length _ _ e, e, Nat.min_self]

theorem leBytes_length (n v : Nat) : (leBytes n v).length = n := by
  induction n generalizing v with
  | zero => rfl
  | succ n ih => simp [leBytes, ih]

theorem sha256_length (m : List Byte) : (sha256 m).length = 32 := by
  unfold sha256
  simp only [List.length_flatMap, beBytes, List.length_reverse, leBytes_length, List.map_const', List.sum_replicate_nat,
    foldl_length _ shaBlock_length _ shaInit rfl]

/-- The digest of that slice: its DIGEST field counts as zero. -/
def bigDigest : List Byte := sha256 (bigRaw (List.replicate 32 0))
theorem bigDigest_length : bigDigest.length = 32 := sha256_length _

/-- A sound slice of 553652224 bytes. -/
def bigImg : ImageSlice := { noSlice with raw := bigRaw bigDigest }

theorem bigImg_digest : imgDigest bigImg = bigDigest := by
  show sha256 ((bigRaw bigDigest).take 32 ++ List.replicate 32 0 ++ (bigRaw bigDigest).drop 64) = bigDigest
  rw [bigRaw_front, bigRaw_rest bigDigest_length, bigDigest]
  unfold bigRaw
  rw [List.append_assoc]

theorem bigImg_stored : imgStored bigImg = bigDigest := bigRaw_digest bigDigest_length

theorem bigImg_table : secTable bigImg = [(1, 4096, 536870912), (2, 536875008, 16777216), (5, 553652224, 0)] := by
  have hn : leAt bigImg.raw 27 1 = 3 := (bigRaw_low bigDigest (o := 27) (n := 1) (by decide)).trans (by decide +kernel)
  have g (n : Nat) (hn : n < 3) : (leAt bigImg.raw (0x100 + 16 * n) 2, leAt bigImg.raw (0x104 + 16 * n) 4 * 4096, leAt bigImg.raw (0x108 + 16 * n) 8) =
      (leAt headB (192 + 16 * n) 2, leAt headB (196 + 16 * n) 4 * 4096, leAt headB (200 + 16 * n) 8) := by
    rw [show 0x100 + 16 * n = 64 + (192 + 16 * n) by omega, show 0x104 + 16 * n = 64 + (196 + 16 * n) by omega,
      show 0x108 + 16 * n = 64 + (200 + 16 * n) by omega]
    exact congr (congrArg Prod.mk (bigRaw_mid bigDigest_length (o := 192 + 16 * n) (n := 2) (by omega)))
      (congr (congrArg Prod.mk (congrArg (· * 4096) (bigRaw_mid bigDigest_length (o := 196 + 16 * n) (n := 4) (by omega))))
        (bigRaw_mid bigDigest_length (o := 200 + 16 * n) (n := 8) (by omega)))
  unfold secTable
  rw [hn]
  have : (List.range 3).map (fun n => (leAt bigImg.raw (0x100 + 16 * n) 2, leAt bigImg.raw (0x104 + 16 * n) 4 * 4096, leAt bigImg.raw (0x108 + 16 * n) 8)) =
      (List.range 3).map fun n => (leAt headB (192 + 16 * n) 2, leAt headB (196 + 16 * n) 4 * 4096, leAt headB (200 + 16 * n) 8) :=
    List.map_congr_left fun n h => g n (List.mem_range.mp h)
  rw [this]
  decide +kernel

theorem bigImg_low (o n : Nat) (h : o + n ≤ 32) : leAt bigImg.raw o n = leAt headA o n := bigRaw_low bigDigest h
theorem bigImg_mid (o n : Nat) (h : o + n ≤ 240) : leAt bigImg.raw (64 + o) n = leAt headB o n := bigRaw_mid bigDigest_length h
theorem bigImg_high (o n : Nat) (h : 304 ≤ o) : leAt bigImg.raw o n = 0 := bigRaw_high bigDigest_length h

theorem bigImg_zeros : imgZeros bigImg = true := by
  have hs : secOff bigImg 2 = 536875008 := by unfold secOff secAt; rw [bigImg_table]; decide +kernel
  have ht : (bigImg.raw.drop 64).take 192 = List.replicate 192 0 := by
    rw [show bigImg.raw.drop 64 = _ from bigRaw_rest bigDigest_length, List.take_append_of_le_length (by rw [headB_length]; decide)]; decide +kernel
  unfold imgZeros imgDevice imgVocab
  rw [bigImg_low 6 2 (by decide), bigImg_low 0x14 4 (by decide), bigImg_low 0x1A 1 (by decide), bigImg_low 0x1B 1 (by decide),
    bigImg_low 0x1C 4 (by decide), ht, hs]
  rw [Bool.and_eq_true, Bool.and_eq_true]
  refine ⟨⟨by decide +kernel, ?_⟩, ?_⟩
  · rw [List.all_eq_true]
    intro n hn
    rw [show leAt headA 0x1B 1 = 3 by decide +kernel, List.mem_range] at hn
    rw [show 0x102 + 16 * n = 64 + (194 + 16 * n) by omega, bigImg_mid _ _ (by omega)]
    have : n = 0 ∨ n = 1 ∨ n = 2 := by omega
    rcases this with rfl | rfl | rfl <;> decide +kernel
  · rw [List.all_eq_true]
    intro n _
    rw [bigImg_high _ _ (by omega)]
    rfl

theorem bigImg_sound (s : State) (h : s.edge.devId = 0xFFFFD) : s.sliceOk bigImg = true := by
  have hl : bigImg.raw.length = 553652224 := bigRaw_length bigDigest_length
  unfold State.sliceOk imgDevice imgElem secLen secAt
  rw [bigImg_zeros, bigImg_table, hl, h, bigImg_low 0 4 (by decide), bigImg_low 4 1 (by decide), bigImg_low 5 1 (by decide), bigImg_low 0x14 4 (by decide),
    bigImg_low 0x18 1 (by decide), bigImg_low 0x19 1 (by decide), bigImg_low 0x1B 1 (by decide)]
  decide +kernel

/-- A copy of that slice is usable beside a record of its digest. -/
theorem bigImg_usable (s : State) (v : VSlot) (one : Bool) (h : s.edge.devId = 0xFFFFD) (h3 : s.hf.vaultOk = 3) (hc : v.copy one = some bigImg) (g : DWord)
    (hr : v.record = some { slot := 0, digest := bigDigest, gen := g }) : s.copyUsable v one = true := by
  unfold State.copyUsable State.copySound VSlot.matching
  have hd (d : Nat) (hd : d < 2) : s.dieOk d = true := by
    unfold State.dieOk
    rw [h3]
    have : d = 0 ∨ d = 1 := by omega
    rcases this with rfl | rfl <;> decide
  have hread : s.copyRead one bigImg = true := by
    unfold State.copyRead
    simp only [hd _ (Nat.mod_lt _ (by decide : 0 < 2)), stripeDie]
    simp
  rw [hc, hr]
  simp only [hread, bigImg_sound s h, bigImg_digest, bigImg_stored, beq_self_eq_true, Bool.and_self]

theorem leBytes_ofLe (l : List Byte) : leBytes l.length (ofLe l) = l := by
  induction l with
  | nil => rfl
  | cons b l ih =>
    have hb := b.isLt
    simp only [List.length_cons, ofLe, leBytes]
    rw [show (b.toNat + 256 * ofLe l) / 256 = ofLe l by omega, ih]
    congr 1
    apply BitVec.eq_of_toNat_eq
    rw [BitVec.toNat_ofNat]
    omega

theorem ofLe_lt (l : List Byte) : ofLe l < 256 ^ l.length := by
  induction l with
  | nil => decide
  | cons b l ih =>
    have hb := b.isLt
    simp only [ofLe, List.length_cons, Nat.pow_succ]
    omega

/-- A machine whose SWAP_EXPECT registers hold a digest. -/
def expecting (s : State) (d : List Byte) : State :=
  (List.range 8).foldl (fun s i => s.wr (swapExpect i) (BitVec.ofNat 32 (leAt d (4 * i) 4))) s

theorem expecting_expected (s : State) (d : List Byte) (h : d.length = 32) : (expecting s d).expected = d := by
  have r (i : Nat) (hi : i < 8) : (expecting s d).rd (swapExpect i) = BitVec.ofNat 32 (leAt d (4 * i) 4) := by
    unfold expecting
    simp only [show List.range 8 = [0, 1, 2, 3, 4, 5, 6, 7] from rfl, List.foldl_cons, List.foldl_nil, State.rd_wr, swapExpect]
    have : i = 0 ∨ i = 1 ∨ i = 2 ∨ i = 3 ∨ i = 4 ∨ i = 5 ∨ i = 6 ∨ i = 7 := by omega
    rcases this with rfl | rfl | rfl | rfl | rfl | rfl | rfl | rfl <;> simp
  have b (i : Nat) (hi : i < 8) : leBytes 4 ((expecting s d).rd (swapExpect i)).toNat = (d.drop (4 * i)).take 4 := by
    have hlen : ((d.drop (4 * i)).take 4).length = 4 := by rw [List.length_take, List.length_drop]; omega
    have hlt := ofLe_lt ((d.drop (4 * i)).take 4)
    rw [hlen] at hlt
    rw [r i hi, BitVec.toNat_ofNat, leAt, Nat.mod_eq_of_lt (by simpa using hlt)]
    have := leBytes_ofLe ((d.drop (4 * i)).take 4)
    rwa [hlen] at this
  have key (k : Nat) (hk : k ≤ 8) : ((List.range k).flatMap fun i => leBytes 4 ((expecting s d).rd (swapExpect i)).toNat) = d.take (4 * k) := by
    induction k with
    | zero => rfl
    | succ k ih =>
      rw [List.range_succ, List.flatMap_append, ih (by omega), List.flatMap_singleton, b k (by omega), Nat.mul_succ, List.take_add]
  exact (key 8 (by decide)).trans (List.take_of_length_le (by omega))

/-- A slot whose copy 0 is that slice, with its record, and whose copy 1 is missing. -/
def bigSlot : VSlot := { copy0 := some bigImg, copy1 := none, record := some { slot := 0, digest := bigDigest, gen := 0 }, ok0 := true, ok1 := false, staging := false }

/-- A digest that is not that slice's. -/
def otherDigest : List Byte := if bigDigest = List.replicate 32 0 then List.replicate 32 1 else List.replicate 32 0

theorem otherDigest_length : otherDigest.length = 32 := by unfold otherDigest; split <;> rfl

theorem otherDigest_ne : bigDigest ≠ otherDigest := by
  unfold otherDigest
  split
  · rename_i h; rw [h]; decide
  · assumption

theorem bigSlot_slice (s : State) (n : Nat) (h : s.edge.devId = 0xFFFFD) (h3 : s.hf.vaultOk = 3) (hv : s.vslot n = bigSlot) : s.slotSlice n = some bigImg := by
  unfold State.slotSlice
  simp only [hv]
  exact if_pos (bigImg_usable s bigSlot false h h3 rfl 0 rfl)

/-- A slice of 64 zero bytes. -/
def anImg : ImageSlice := { noSlice with raw := List.replicate 64 0 }

/-- A slot that holds that slice twice, with a record of its stored digest. -/
def aSlot : VSlot := { copy0 := some anImg, copy1 := some anImg, record := some { slot := 0, digest := List.replicate 32 0, gen := 0 }, ok0 := false, ok1 := false, staging := false }

/-- The machine with one stope in a region, all of the swap's nodes at 25 °C, nothing charged, and its swap logic as given. -/
def withSwap (f : Swap → Swap) : State :=
  { small.wr (nocGeom 0) 1 with
    now := 5000000000000, hf := { small.hf with vaultOk := 3, corr := [0, 0, 0, 0, 0, 0, 0, 0, 0], nodes := [(0, { TNode.reset with temp := 6400 }), (264, { TNode.reset with temp := 6400 }), (265, { TNode.reset with temp := 6400 })] },
    swap := f { Swap.reset with slots := [(0, aSlot)] } }

/-- An operation of a mode, in a phase. -/
def anOp (mode : Nat) (p : SwapPhase) (w : Swap) : Swap := { w with mode := mode, phase := p, image := some anImg }

/-- That machine with the reference buffer of stope 0 READY. -/
def withRow (f : Swap → Swap) : State := (withSwap f).setStope 0 { Stope.reset with ref := .ready }

/-- A row's charge is within that machine's grant. -/
theorem withRow_charge (f : Swap → Swap) : (withRow f).rowCharge ≤ (withRow f).unreserved := by
  have h1 : (withRow f).rowCharge = 0 := by
    show Config.rowCost * (((0 : Nat) : Rat) / 16384) = 0
    simp
  have h2 : (withRow f).unreserved = 0 := by
    show ((0 : Nat) : Rat) - 0 - ((0 : Nat) : Rat) * (fld ((withRow f).rd hfReserve) 4 0 : Nat) / 100 = 0
    simp
  rw [h1, h2]

/-- That machine with the job's barrier in force. -/
def atBarrier (f : Swap → Swap) : State := { withSwap f with wnd := { (withSwap f).wnd with barrier := true, job := { noJob with devices := [0, 7], layers := 2 } } }

/-- That machine with stope 0 changed. -/
def withSeam (f : Stope → Stope) : State := (withSwap id).setStope 0 (f { Stope.reset with ref := .ready })

/-- That machine with seam 0 of stope 0 in a mode. -/
def seamIn (m : SeamMode) (at_ : Nat) : State := withSeam fun t => t.updSeam 0 fun g => { g with mode := m, lastMismatch := at_, holdLaunches := true }

/-- A tally entry of a unit. -/
def anEntry (u st : Nat) : TallyEntry :=
  { unit := u, state := st, cause := causePcFail, events := 2, detail := 0, t0 := 4990, t1 := 4980, t2 := 0, permTime := 0, stamp := (4990, 0, 0) }

/-- A machine whose tally holds a unit permanent. -/
def withDead (u : Nat) (s : State) : State := { s with tally := { s.tally with entries := [anEntry u 2] } }

/-- A due assay of a kind on macro 0 of stope 0. -/
def aDue (kind : Nat) : Due := { kind := kind, unit := unitMacro 0 0, bank := false, since := 0, forced := true, retry := false, requested := true }

/-- That machine with one due assay. -/
def withDue (d : Due) : State := { withSeam id with tally := { Tally.reset with due := [d] } }

/-- The spare 72 with its target's bank A programmed. -/
def spareSet (t : Stope) : Stope :=
  ((t.setSpare 72 { Spare.free with used := true, ready := [false] }).setBank 0 false .valid).setBank 72 false .valid

/-- Bank A holds a sound slice, and the spare 72 is assigned. -/
def bankABig : State :=
  (withSwap (fun w => { w with slots := [(0, bigSlot)], bankA := some { slot := 0, digest := bigDigest, gen := 0 } })).setStope 0 ((Stope.reset.setSpare 72 { Spare.free with used := true }).setBank 0 false .valid)

theorem bankABig_slice : (bankABig.bankSlice false).isSome = true := by
  unfold State.bankSlice
  rw [show bankABig.bankRecord false = some { slot := 0, digest := bigDigest, gen := 0 } from rfl, Option.bind_some,
    bigSlot_slice bankABig 0 rfl rfl rfl, Option.isSome_some]

/-- A port that is up on four lanes. -/
def aPort : Port :=
  { Port.reset with state := .up, lanes := 15, usable := 15, version := 1, margin := [100, 100, 100, 100], rtt := 100, credits := List.replicate 8 5 }

/-- The machine with some ports. -/
def withPorts (l : Table Port) : State := let s := withSwap id; { s with fab := { s.fab with ports := l } }

/-- The machine with port 0, enabled and retraining. -/
def onPort (t : Port) : State := (withPorts [(0, t)]).wr (peligCtrl 0) 3

/-- What the peer of port 0 offers. -/
def someCaps : Caps := { verMin := 1, verMax := 1, role := 0, device := 9, port := 0, lanes := 15, credits := List.replicate 8 5 }

/-- A flit of an opcode on path 5 with 16 bytes. -/
def aFlit (op : Nat) (bs : List Byte) : Flit := { mkFlit op 1 0 0x400 0 bs with path := 5 }

/-- A LOCAL endpoint to device 9, its route A on port 3. -/
def anAdit : Adit := { Adit.reset with kind := 1, peer := 9, routeA := 131299, state := .up, aUp := true }

/-- A TRANSIT endpoint from port 3 to port 4. -/
def aTransit : Adit := { Adit.reset with kind := 195, routeA := 131300 }

/-- The machine with ports 3 and 4 up and path endpoint 5 selected, and a window on stope 0's core. -/
def withAdit (a : Adit) : State :=
  let s := (withPorts [(3, aPort), (4, aPort)]).wr aditSel 5
  { s with fab := { s.fab with adits := [(5, a)] } }.setCore 0 { Core.reset with windows := [aWindow none] }

/-- A collective of an operation between this module, rank 0, and device 9. -/
def aColl (op : Nat) : Coll :=
  { id := 1, op := op, typ := 0, group := 1, epoch := 4, chunk := 1, count := 32, src := 0, cpl := 0, cnt := 0, tag := 6, root := 0, owner := 0,
    phase := 0, next := [0, 1], resends := [0, 0], progress := [0, 0], acks := [], got := [], refused := [], passes := 0, folded := false,
    failed := [], status := 0, ended := false }

/-- The machine above with that group and some collectives. -/
def withColls (l : List Coll) : State :=
  let s := (withAdit anAdit).wr collCtrl 1
  let g : Group := { valid := true, members := [{ device := 0xFFFFD, path := 0xFFF, endpoint := 0, wbase := 0 }, { device := 9, path := 5, endpoint := 0, wbase := 0 }],
                     rank := 0, region := 0, epoch := 4 }
  { s with fab := { s.fab with groups := [(1, g)], colls := l, nextColl := 2 } }

/-- A collective command of an operation on that group. -/
def collBytes (op count : Nat) : List Byte := [BitVec.ofNat 8 op, 0, 1, 1] ++ leBytes 4 count ++ List.replicate 56 0

/-- A CHUNK packet from device 9. -/
def aChunk : Flit := aFlit 4 (chunkHead 1 0 4 1 0 0 0 0 ++ List.replicate 16 7)

/-- The machine with its headframe changed. -/
def withHf (f : Hf → Hf) : State := let s := withSwap id; { s with hf := f s.hf }

/-- The machine in a power state, at a step of its sequence. -/
def inPower (p : PwrState) (n : Nat) (down : Bool) (last : Nat) : State :=
  (withHf fun h => { h with pwr := p, step := n, downward := down, latched := last }).wrMem (spBase 0) [5]

/-- An episode that node 3 holds open. -/
def anEpisode : Episode :=
  { nodes := [3], power := false, target := 100, reduction := 20, start := 0, graceOver := false, enforced := false, lastMark := 0, belowSince := none }

/-- A machine that is no ingress module, its re-fit factor 0. -/
def unlit : State := { withHf (fun h => { h with refitFactor := 0 }) with wnd := { small.wnd with roles := 2 } }

theorem unlit_pg : unlit.pg = 0 := by
  have h : ((Config.designPower : Nat) : Rat) * (97 - max 40 (((unlit.hf.inlet : Int) : Rat) / 256)) /
      (57 * (((unlit.hf.refitFactor : Nat) : Rat) / 16384)) = 0 := by
    rw [show unlit.hf.refitFactor = 0 from rfl]
    simp
  unfold State.pg
  simp only [h]
  decide +kernel

/-- The machine with its module edge changed. -/
def withEdge (f : Edge → Edge) : State := let s := withSwap id; { s with edge := f s.edge }

/-- The machine whose bypass is OPEN, in a power state. -/
def onRing (p : PwrState) : State := let s := withEdge fun e => { e with bypass := 3 }; { s with hf := { s.hf with pwr := p } }

/-- The machine in a power state, its prepare for removal at a step. -/
def removing (p : PwrState) (n : Nat) : State := withHf fun h => { h with pwr := p, rmvStep := n }

/-- The machine as no ingress module, with one open stream and a storage endpoint. -/
def withOpen : State := let s := ((withSwap id).wr wndStoreEp 0x1005).setStream 0 (inState .idle); { s with wnd := { s.wnd with roles := 2 } }

/-- A frame of the rack controller to this module. -/
def aMsg (cls typ : Nat) (p : List Byte) : RingMsg :=
  { port := 0, ver := 1, cls := cls, typ := typ, src := rackController, dst := 0xFFFFD, seq := 5, time := 0, ackReq := false, ttl := 1, payload := p }

/-- That machine with its grant overspent. -/
def poorRow : State := let s := withRow (anOp 2 .reading); { s with hf := { s.hf with spent := 5 } }

/-- A row's charge is above that machine's grant. -/
theorem poorRow_charge : poorRow.unreserved < poorRow.rowCharge := by
  have h1 : poorRow.rowCharge = 0 := by
    show Config.rowCost * (((0 : Nat) : Rat) / 16384) = 0
    simp
  have h2 : poorRow.unreserved = -5 := by
    show ((0 : Nat) : Rat) - 5 - ((0 : Nat) : Rat) * (fld (poorRow.rd hfReserve) 4 0 : Nat) / 100 = -5
    simp
  rw [h1, h2]
  decide +kernel

/-- The machine whose bank A holds the big slice, with macro 0's refresh of it in place. -/
def bankARefresh : State :=
  (withSwap (fun w => { w with slots := [(0, bigSlot)], bankA := some { slot := 0, digest := bigDigest, gen := 0 },
                               refresh := [(bankKey 0 0 false, { Refresh.none with means := .inPlace, iters := 1 })] })).setStope 0 { Stope.reset with ref := .ready }

theorem bankARefresh_slice : bankARefresh.bankSlice false = some bigImg := by
  unfold State.bankSlice
  rw [show bankARefresh.bankRecord false = some { slot := 0, digest := bigDigest, gen := 0 } from rfl, Option.bind_some, bigSlot_slice bankARefresh 0 rfl rfl rfl]

theorem unlit_pg_wr : (unlit.wr hfPgW 100).pg = 0 := by
  have h : ((Config.designPower : Nat) : Rat) * (97 - max 40 ((((unlit.wr hfPgW 100).hf.inlet : Int) : Rat) / 256)) /
      (57 * ((((unlit.wr hfPgW 100).hf.refitFactor : Nat) : Rat) / 16384)) = 0 := by
    rw [show (unlit.wr hfPgW 100).hf.refitFactor = 0 from rfl]
    simp
  unfold State.pg
  simp only [h]
  decide +kernel

/-- A third event within the 24 h. -/
theorem anEntry_third :
    ((anEntry (unitPc 2 5) 1).event causePcFail 0 (0, (withSwap id).sourceId epHeadframe, 0)).third = true := by
  simp [TallyEntry.third, TallyEntry.event, TallyEntry.noteLast, anEntry, TallyEntry.times, List.mergeSort]

/-- The hypotheses of EmptyQueueTicks can be met, clause by clause. -/
theorem witness_EmptyQueueTicks :
    ∃ s : State, s.pending = [] :=
  ⟨State.reset, by decide +kernel⟩

/-- The hypotheses of ForbiddenWritesDoNothing can be met, clause by clause. -/
theorem witness_ForbiddenWritesDoNothing :
    (∃ s : State, ∃ f : Nat, ∃ off : Nat, s.mayWrite f off = false) ∧
    (∃ s : State, ∃ f : Nat, ∃ p : Nat, s.mayWrite f (regPageCtrl (pageBase p)) = false) ∧
    (∃ s : State, ∃ f : Nat, ∃ p : Nat, s.mayWrite f (regPageCtrl (pageBase p)) = false) ∧
    (∃ s : State, ∃ f : Nat, ∃ p : Nat, (s.mayWrite f (pageBase p + 0x01C) = false)) :=
  ⟨⟨State.reset, nocPage, nocPage, by decide +kernel⟩,
   ⟨State.reset, nocPage, nocPage, by decide +kernel⟩,
   ⟨State.reset, nocPage, nocPage, by decide +kernel⟩,
   ⟨State.reset, nocPage, nocPage, by decide +kernel⟩⟩

/-- The hypotheses of RegisterWriteTakesFields can be met, clause by clause. -/
theorem witness_RegisterWriteTakesFields :
    (∃ s : State, ∃ f : Nat, ∃ off : Nat, ∃ i : Nat, ∃ p : Page, ∃ r : RegRow, ∃ n : Nat, s.mayWrite f off = true ∧ (pageAt off = some (p, i)) ∧
      (p = .wnd ∨ p = .smp ∨ p = .stack) ∧ (0x100 ≤ off % 0x1000) ∧ isLow off = false ∧ isHigh off = false ∧ (rowAt off = some (r, n))) ∧
    (∃ s : State, ∃ f : Nat, ∃ lo : Nat, isLow lo = true ∧ (isLow (lo + 4) = false) ∧ s.mapped f lo = true ∧ (s.mapped f (lo + 4) = true)) ∧
    (∃ s : State, ∃ f : Nat, ∃ lo : Nat, isLow lo = true ∧ s.mayWrite f lo = true) ∧
    (∃ s : State, s.mayWrite 0 (swapSrcLo) = true) :=
  ⟨⟨State.reset, 0, wndPage + 0x100, 0, .wnd, ((rowAt (wndPage + 0x100)).getD noRow).1, 0, by decide +kernel⟩,
   ⟨State.reset, 0, swapSrcLo, by decide +kernel⟩,
   ⟨State.reset, 0, swapSrcLo, by decide +kernel⟩,
   ⟨State.reset, by decide +kernel⟩⟩

/-- The hypotheses of PageControlActs can be met, clause by clause. -/
theorem witness_PageControlActs :
    (∃ s : State, ∃ f : Nat, ∃ p : Nat, ∃ v : Word, (s.mayWrite f (pageBase p + 0x01C) = true) ∧ bit v 31 = true) ∧
    (∃ s : State, ∃ f : Nat, ∃ p : Nat, s.mayWrite f (regPageCtrl (pageBase p)) = true) ∧
    (∃ s : State, ∃ f : Nat, ∃ p : Nat, s.mayWrite f (regPageCtrl (pageBase p)) = true) ∧
    (∃ s : State, ∃ p : Nat, s.quiescing p = true ∧ s.blockIdle p = true) :=
  ⟨⟨State.reset, 0, 0, 0x80000000, by decide +kernel⟩,
   ⟨State.reset, 0, 0, by decide +kernel⟩,
   ⟨State.reset, 0, 0, by decide +kernel⟩,
   ⟨withNoc (fun n => { n with quiesce := [shellPage 0] }), shellPage 0, by decide +kernel⟩⟩

/-- The hypotheses of PacketsTravel can be met, clause by clause. -/
theorem witness_PacketsTravel :
    (∃ s : State, ∃ m : Packet, ((∀ w ∈ s.noc.held, w.packet ≠ m)) ∧ s.mustWait (s.stamped m) = true) ∧
    (∃ s : State, ∃ m : Packet, ((∀ w ∈ s.noc.held, w.packet ≠ m)) ∧ s.mustWait (s.stamped m) = false ∧ s.routerCode (s.stamped m) = 0) ∧
    (∃ s : State, ∃ w : Waiting, ((s.noc.held.find? fun x => sameLane x.packet w.packet) = some w) ∧ s.creditTaken w.packet = false ∧
      s.injectFenced w.packet = false ∧ s.routerCode (s.stamped w.packet) = 0) ∧
    (∃ s : State, ∃ m : Packet, (m ∈ s.noc.flight) ∧ s.noc.nets.data.carries m.src m.dest m.vc = false ∧ s.rimDelivers m = true) ∧
    (∃ s : State, ∃ m : Packet, (m ∈ s.noc.flight) ∧ s.noc.nets.data.carries m.src m.dest m.vc = false ∧ s.rimDelivers m = false) ∧
    (∃ s : State, ∃ src : Nat, ∃ dest : Nat, ∃ vc : Nat, ((src, dest, vc) ∈ s.noc.creditUsed) ∧
      ((∀ m ∈ s.noc.flight, m.src = src → m.dest = dest → m.vc ≠ vc))) ∧
    (∃ s : State, ∃ m : Packet, ((∀ w ∈ s.noc.held, w.packet ≠ m)) ∧ s.mustWait (s.stamped m) = false ∧
      (240 < m.bytes % 256 ∨ epExists (m.dest % 0x1000) = false)) ∧
    (∃ s : State, ∃ m : Packet, ((∀ w ∈ s.noc.held, w.packet ≠ m)) ∧ s.mustWait (s.stamped m) = false ∧ s.routerCode (s.stamped m) = rRegionViolation) :=
  ⟨⟨{ small with noc := { small.noc with creditUsed := [(0, 17, 0)] } }, aPacket 0 17, by decide +kernel⟩,
   ⟨small, aPacket 0 17, by decide +kernel⟩,
   ⟨{ small with noc := { small.noc with held := [{ packet := aPacket 0 17, owner := none }] } }, { packet := aPacket 0 17, owner := none },
    by decide +kernel⟩,
   ⟨{ small with noc := { small.noc with flight := [aPacket 0 17] } }, aPacket 0 17, by decide +kernel⟩,
   ⟨{ small with noc := { small.noc with flight := [{ aPacket 0 17 with region := 3 }] } }, { aPacket 0 17 with region := 3 }, by decide +kernel⟩,
   ⟨{ small with noc := { small.noc with creditUsed := [(0, 17, 0)] } }, 0, 17, 0, by decide +kernel⟩,
   ⟨small, { aPacket 0 17 with bytes := 241 }, by decide +kernel⟩,
   ⟨{ small with noc := { small.noc with held := [{ packet := aPacket 0 17, owner := none }] } }, aPacket 300 17, by decide +kernel⟩⟩

/-- The hypotheses of ControlMessagesAct can be met, clause by clause. -/
theorem witness_ControlMessagesAct :
    (∃ s : State, ∃ m : CtlMsg, s.ctlAccepts m = true ∧ s.ctlUnderWay m = false) ∧
    (∃ s : State, ∃ m : CtlMsg, s.ctlAccepts m = true ∧ s.ctlUnderWay m = false ∧ m.dest < 256 ∧
      ((∃ i ∈ groupStopes (s.redgrp m.dest (argBarrier m.arg0).1), i ≠ m.src ∧
      ((argBarrier m.arg0).1, (argBarrier m.arg0).2, i) ∉ (s.core m.dest).barrierSeen))) ∧
    (∃ s : State, ∃ m : CtlMsg, ∃ d : Issued, ∃ rest : List Issued, s.ctlAccepts m = true ∧ s.ctlUnderWay m = false ∧ m.dest < 256 ∧
      ((s.core m.dest).issued = d :: rest) ∧ d.await = .barrier (argBarrier m.arg0).1 (argBarrier m.arg0).2) ∧
    (∃ s : State, ∃ m : CtlMsg, ∃ p : Nat, m.src = epHeadframe ∧ m.args ≠ 3 ∧ s.ctlUnderWay m = false ∧ s.fencePages m = [p]) ∧
    (∃ m : CtlMsg, (m.args = 3 ∨ m.typ = 0 ∨ 8 ≤ m.typ)) ∧
    (∃ s : State, ∃ m : CtlMsg, ∃ c : Nat, s.ctlAccepts m = true ∧ s.ctlUnderWay m = false ∧ (s.ctlTargets m).filterMap epCore = [c] ∧ 256 ≤ c ∧
      s.streamPtes m.arg0.toNat = []) ∧
    (∃ s : State, ∃ m : CtlMsg, ∃ c : Instr, (m.src ≠ epHeadframe ∨ m.args = 3) ∧ s.ctlUnderWay m = false ∧ (c = .fenceSet m ∨ c = .fenceClear m)) :=
  ⟨⟨smallCtl (aCtl 0 epHost 1 1 0), aCtl 0 epHost 1 1 0, by decide +kernel⟩,
   ⟨smallCtl (aCtl 0 epHost 1 1 0), aCtl 0 epHost 1 1 0, by decide +kernel⟩,
   ⟨(smallCtl (aCtl 1 0 3 1 0)).setCore 1 { Core.reset with issued := [anIssued (.barrier 0 0)] }, aCtl 1 0 3 1 0, anIssued (.barrier 0 0), [],
    by decide +kernel⟩,
   ⟨smallCtl (aCtl 0 epHost 1 1 0), aCtl 0 epHeadframe 5 1 3, shellPage 0, by decide +kernel⟩,
   ⟨aCtl 0 epHost 8 1 3, by decide +kernel⟩,
   ⟨smallCtl (aCtl 0 epHost 1 1 0), aCtl 0x400 epHost 7 1 5, 256, by decide +kernel⟩,
   ⟨smallCtl (aCtl 0 epHost 1 1 0), aCtl 0 epHost 5 1 3, .fenceSet (aCtl 0 epHost 5 1 3), by decide +kernel⟩⟩

/-- The hypotheses of RegionChangesAreHeld can be met, clause by clause. -/
theorem witness_RegionChangesAreHeld :
    (∃ s : State, ∃ n : Nat, ∃ v : Word, ∃ w : Word, n < 16 ∧ s.mayWrite 0 (nocGeom n) = true ∧ (writeFields (match rowAt (nocGeom n) with
      | some (r, _) => r.fields
      | none => []) (s.rd (nocGeom n)) v = (w, false)) ∧ s.noc.pending = none ∧
        (s.regionLegal n { geom := w, gate := s.stagedRegion (nocGate n), edge := s.stagedRegion (nocEdge n), ports := s.stagedRegion (nocPorts n) } = true)) ∧
    (∃ s : State, ∃ n : Nat, ∃ g : Word, ∃ ga : Word, ∃ e : Word, ∃ p : Word, n < 16 ∧ (s.noc.pending = some (n, g, ga, e, p)) ∧
      (s.quiescedInTime (changeStopes (s.region n) { geom := g, gate := ga, edge := e, ports := p }) = true) ∧
      (s.portsFree (s.region n) { geom := g, gate := ga, edge := e, ports := p } = true)) ∧
    (∃ s : State, ∃ n : Nat, ∃ g : Word, ∃ ga : Word, ∃ e : Word, ∃ p : Word, (s.noc.pending = some (n, g, ga, e, p)) ∧
      (s.quiescedInTime (changeStopes (s.region n) { geom := g, gate := ga, edge := e, ports := p }) = false) ∧
      (s.noc.pendingSince + fld (s.rd nocRegionTimeout) 13 0 * 1000000 ≤ s.now)) :=
  ⟨⟨small, 0, 0xF7801, 0xF7801, by decide +kernel⟩,
   ⟨{ small with noc := { small.noc with pending := some (0, 0, 0, 0, 0), quiesced := (List.range 256).map shellPage } }, 0, 0, 0, 0, 0,
    by decide +kernel⟩,
   ⟨{ small with now := 20000000000, noc := { small.noc with pending := some (0, 0, 0, 0, 0) } }, 0, 0, 0, 0, 0, by decide +kernel⟩⟩

/-- The hypotheses of PaceIsPublished can be met, clause by clause. -/
theorem witness_PaceIsPublished :
    ∃ s : State, ∃ ep : Nat, s.hf.vcore ≠ 0 ∧ (s.paceStart ep + 10000 ≤ s.now) :=
  ⟨small, 0, by decide +kernel⟩

/-- The hypotheses of PaceLowReplans can be met, clause by clause. -/
theorem witness_PaceLowReplans :
    (∃ s : State, ∃ ep : Nat, ∃ factor : Nat, s.hf.vcore ≠ 0 ∧ (s.paceStart ep + 10000 ≤ s.now) ∧ (factor % 0x10000 < s.hf.plan.speed)) ∧
    (∃ s : State, ∃ m : Notice, m.cause = causePaceLow ∧ m.stream = none ∧ s.noticeUnderWay m = false) ∧
    (∃ s : State, s.hf.causes ≠ 0) :=
  ⟨⟨{ small with hf := { small.hf with plan := { small.hf.plan with speed := 0x4000 } } }, 0x3FFF, 0x3FFF, by decide +kernel⟩,
   ⟨{ small with hf := { small.hf with plan := { small.hf.plan with speed := 0x4000 } } }, aNotice causePaceLow, by decide +kernel⟩,
   ⟨{ small with hf := { small.hf with causes := 2 }, wnd := { small.wnd with roles := 0 } }, by decide +kernel⟩⟩

/-- The hypotheses of PlanSlotsCommit can be met, clause by clause. -/
theorem witness_PlanSlotsCommit :
    (∃ s : State, ∃ f : Nat, ∃ i : Nat, ∃ slot : Nat, slot < 24 ∧ i < 256 ∧ s.mayWrite f (planSlotHdr i slot) = true) ∧
    (∃ s : State, ∃ f : Nat, ∃ i : Nat, ∃ slot : Nat, ∃ e : Nat, slot < 24 ∧ e < 16 ∧ i < 256 ∧ s.mayWrite f (planEntry i slot e) = true) :=
  ⟨⟨small, 0, 0, 0, by decide +kernel⟩,
   ⟨small, 0, 0, 0, 0, by decide +kernel⟩⟩

/-- The hypotheses of PlanCheckIsR88 can be met, clause by clause. -/
theorem witness_PlanCheckIsR88 :
    ∃ h : Word, ∃ es : List Word, es.length = fld h 4 0 :=
  ⟨0x108, [0, 0, 0, 0, 0, 0, 0, 0], by decide +kernel⟩

/-- The hypotheses of ReferenceBufferMoves can be met, clause by clause. -/
theorem witness_ReferenceBufferMoves :
    (∃ s : State, ∃ i : Nat, s.refMode i ≠ 2 ∧ (s.stope i).ref = .off ∧ s.refAllowed i = true) ∧
    (∃ s : State, ∃ i : Nat, (s.stope i).ref = .warming) ∧
    (∃ s : State, ∃ i : Nat, s.refMode i ≠ 1 ∧ (s.stope i).ref ≠ .off) ∧
    (∃ s : State, ∃ i : Nat, s.refMode i ≠ 1 ∧ (s.stope i).ref ≠ .off ∧ (((s.stope i).refDisable = true ∧
      (∀ q ∈ (s.stope i).seqs, q.busy = false)) ∨ s.refAllowed i = false)) ∧
    (∃ s : State, ∃ i : Nat, s.refMode i = 0 ∧ (s.stope i).ref = .ready ∧ ((∀ q ∈ (s.stope i).seqs, q.busy = false)) ∧
      ((s.stope i).refSince + fld (s.rd (planRefIdle i)) 15 0 * 1000 ≤ s.now) ∧ s.lookAhead i = false ∧ (s.calc i).phase ≠ .zero ∧
      (s.calc i).phase ≠ .full) ∧
    (∃ s : State, ∃ i : Nat, s.refMode i = 0 ∧ s.lookAhead i = true ∧ (s.stope i).ref = .off ∧ s.refAllowed i = true ∧
      (s.prewarmNeed (fld (s.rd (planPrewarmLead i)) 7 0 * 1000) ≤ s.unreserved)) ∧
    (∃ s : State, ∃ f : Nat, ∃ i : Nat, ∃ v : Word, i < 256 ∧ s.mayWrite f (planCtrl i) = true ∧ fld v 3 2 = 1 ∧ (s.stope i).ref = .off ∧
      s.refAllowed i = true) ∧
    (∃ s : State, ∃ i : Nat, (s.stope i).ref = .ready) :=
  ⟨⟨small, 0, by decide +kernel⟩,
   ⟨withStope (fun t => { t with ref := .warming }), 0, by decide +kernel⟩,
   ⟨withStope (fun t => { t with ref := .warming }), 0, by decide +kernel⟩,
   ⟨withStope (fun t => { t with ref := .ready, refDisable := true }), 0, by decide +kernel⟩,
   ⟨withStope (fun t => { t with ref := .ready }), 0, by decide +kernel⟩,
   ⟨{ (small.setCore 0 { Core.reset with queue := [{ aStep none with converting := true }] }) with hf := { small.hf with quantum := 1000 } }, 0,
    by decide +kernel⟩,
   ⟨small, 0, 0, 4, by decide +kernel⟩,
   ⟨withStope (fun t => { t with ref := .ready }), 0, by decide +kernel⟩⟩

/-- The hypotheses of LaunchesMeetTheirChecks can be met, clause by clause. -/
theorem witness_LaunchesMeetTheirChecks :
    (∃ s : State, ∃ i : Nat, ∃ id : Nat, ∃ l : Launch, (s.stope i).launch id = some l ∧ l.running = false ∧ l.ended = false ∧ s.launchFree i l = true ∧
      (s.stope i).ref ≠ .ready) ∧
    (∃ s : State, ∃ i : Nat, ∃ id : Nat, ∃ l : Launch, (s.stope i).launch id = some l ∧ l.running = false ∧ l.ended = false ∧ s.launchFree i l = true ∧
      s.launchCheck i l = 0) ∧
    (∃ s : State, ∃ i : Nat, ∃ l : Launch, (s.stope i).switchWait = some l ∧ ((∀ q ∈ (s.stope i).seqs, q.busy = false))) :=
  ⟨⟨withStope (fun t => { t with launches := [aLaunch] }), 0, 1, aLaunch, by decide +kernel⟩,
   ⟨withStope (fun t => { t with ref := .ready, launches := [aLaunch], banks := (List.range 74).map (fun m => (2 * m, .valid)) }), 0, 1, aLaunch,
    by decide +kernel⟩,
   ⟨withStope (fun t => { t with launches := [{ aLaunch with bank := true }] }), 0, { aLaunch with bank := true }, by decide +kernel⟩⟩

/-- The hypotheses of ConversionsRoundToNearest can be met, clause by clause. -/
theorem witness_ConversionsRoundToNearest :
    ∃ v : Rat, ∃ ctr : Nat, ∃ now : Nat, ∃ broken : Bool, let x := convert v ctr now broken
    x.residue.valid = true :=
  ⟨1 / 4, 0, 0, false, by decide +kernel⟩

/-- The hypotheses of EntriesConvert can be met, clause by clause. -/
theorem witness_EntriesConvert :
    ∃ s : State, ∃ i : Nat, ∃ k : Nat, ∃ e : Word, s.entryFree i k = true ∧ (((s.stope i).seq k).entries[((s.stope i).seq k).pos]? = some e) :=
  ⟨withStope (fun t => { t with ref := .ready, seqs := [running [0x00000400] 0, Seq.idle, Seq.idle, Seq.idle], launches := [{ aLaunch with running := true }] }),
    0, 0, 0x00000400, by decide +kernel⟩

/-- The hypotheses of PassesPromote can be met, clause by clause. -/
theorem witness_PassesPromote :
    (∃ s : State, ∃ i : Nat, ∃ k : Nat, ∃ l : Launch, let u := s.updStope i fun t => t.drain t.queue.length
    s.passOver i k = true ∧ k < 4 ∧ (s.stope i).launch ((s.stope i).seq k).launch = some l ∧ bitAt l.reruns k = false ∧ u.failing i k l.tau = [] ∧
      ((s.stope i).seam k).mode = .checked ∧ ((s.stope i).seam k).finalRerun = false) ∧
    (∃ s : State, ∃ i : Nat, ∃ k : Nat, ∃ l : Launch, let u := s.updStope i fun t => t.drain t.queue.length
    s.passOver i k = true ∧ (s.stope i).launch ((s.stope i).seq k).launch = some l ∧ bitAt l.reruns k = false ∧ u.failing i k l.tau ≠ [] ∧
      ((s.stope i).seam k).mode = .checked ∧ ((s.stope i).seam k).finalRerun = false) ∧
    (∃ s : State, ∃ i : Nat, ∃ k : Nat, s.passOver i k = true ∧ ((∀ x ∈ (s.core i).issued, x.await ≠ .launch ((s.stope i).seq k).launch))) ∧
    (∃ s : State, ∃ i : Nat, ∃ k : Nat, ∃ x : Issued, s.passOver i k = true ∧
      (((s.core i).issued.find? fun y => y.await == .launch ((s.stope i).seq k).launch) = some x)) :=
  ⟨⟨withStope (fun t => { t with ref := .ready, seqs := [running [0x00000400] 1, Seq.idle, Seq.idle, Seq.idle], launches := [{ aLaunch with running := true }], narrow := [(0, 5), (2, 0x7FFFFFFF)] }),
    0, 0, { aLaunch with running := true }, by decide +kernel⟩,
   ⟨withStope (fun t => { t with ref := .ready, seqs := [running [0x00000400] 1, Seq.idle, Seq.idle, Seq.idle], launches := [{ aLaunch with running := true }], check := [(0, 5)] }),
    0, 0, { aLaunch with running := true }, by decide +kernel⟩,
   ⟨withStope (fun t => { t with ref := .ready, seqs := [running [0x00000400] 1, Seq.idle, Seq.idle, Seq.idle], launches := [{ aLaunch with running := true }], narrow := [(0, 5), (2, 0x7FFFFFFF)] }),
    0, 0, by decide +kernel⟩,
   ⟨(withStope (fun t => { t with ref := .ready, seqs := [running [0x00000400] 1, Seq.idle, Seq.idle, Seq.idle], launches := [{ aLaunch with running := true }] })).updCore 0 fun t => { t with issued := [anIssued (.launch 1)] },
    0, 0, anIssued (.launch 1), by decide +kernel⟩⟩

/-- The hypotheses of CodesAreCorrected can be met, clause by clause. -/
theorem witness_CodesAreCorrected :
    (∃ code : Nat, code ≤ 255) ∧
    (∃ code : Nat, ∃ coef : Word, ∃ n : Int, (-128 < n) ∧ n < 127 ∧ (|(((code : Int) - 128 : Int) - ((BitVec.ofNat 16 (fld coef 31 16)).toInt : Rat) / 256) * ((fld coef 15 0 : Nat) / (16384 : Rat)) - (n : Rat)| < 1 / 2)) :=
  ⟨⟨255, by decide +kernel⟩,
   ⟨255, 0, 0, by decide +kernel⟩⟩

/-- The hypotheses of CalibrationPointsAreR125 can be met, clause by clause. -/
theorem witness_CalibrationPointsAreR125 :
    (∃ g : Nat, ∃ fs : Nat, g < 7 ∧ 96 ≤ fs ∧ fs ≤ 120) ∧
    (∃ g : Nat, ∃ fs : Nat, g < 7 ∧ 96 ≤ fs ∧ fs ≤ 120 ∧ (let e (n p : Nat) : Rat := (12 * p * n : Nat) / gainStep g
    ∃ n : Nat, ∃ p : Nat, (n ∈ [2, 4, 6, 8]) ∧ 1 ≤ p ∧ p ≤ 31 ∧ e n p ≤ fs)) ∧
    (∃ g : Nat, ∃ fs : Nat, g < 7 ∧ 96 ≤ fs ∧ fs ≤ 120 ∧ (let x := calPoint g fs
    let e (n p : Nat) : Rat := (12 * p * n : Nat) / gainStep g
    ∃ n : Nat, ∃ p : Nat, (n ∈ [2, 4, 6, 8]) ∧ 1 ≤ p ∧ p ≤ 31 ∧ e n p ≤ fs ∧ e n p = x.2.2)) :=
  ⟨⟨0, 96, by decide +kernel⟩,
   ⟨0, 96, by decide +kernel, by decide +kernel, by decide +kernel, 2, 1, by decide +kernel⟩,
   ⟨5, 96, by decide +kernel, by decide +kernel, by decide +kernel, 2, 2, by decide +kernel⟩⟩

/-- The hypotheses of CalibrationCommandsAct can be met, clause by clause. -/
theorem witness_CalibrationCommandsAct :
    (∃ s : State, ∃ f : Nat, ∃ i : Nat, ∃ v : Word, i < 256 ∧ s.mayWrite f (calCmd i) = true ∧ fld v 9 3 = 0 ∧ bit v 2 = false ∧ (s.calc i).phase = .idle ∧
      (s.calc i).exclWait = none ∧ fld (s.rd (calGains i)) 6 0 ≠ 0) ∧
    (∃ s : State, ∃ f : Nat, ∃ i : Nat, ∃ v : Word, i < 256 ∧ s.mayWrite f (calCmd i) = true ∧ 96 ≤ fld v 9 3 ∧ fld v 9 3 ≤ 120 ∧ bit v 2 = false ∧
      (s.calc i).phase = .idle ∧ (s.calc i).exclWait = none ∧ fld (s.rd (calGains i)) 6 0 ≠ 0 ∧ s.zeroFresh i = false) ∧
    (∃ s : State, ∃ f : Nat, ∃ i : Nat, ∃ v : Word, ∃ c : Instr, i < 256 ∧ s.mayWrite f (calCmd i) = true ∧ fld v 9 3 ≠ 0 ∧
      (fld v 9 3 < 96 ∨ 120 < fld v 9 3) ∧ (c = .calZero f i v ∨ c = .calFull f i v ∨ c = .calAbort f i v)) ∧
    (∃ s : State, ∃ f : Nat, ∃ i : Nat, ∃ v : Word, i < 256 ∧ s.mayWrite f (calCmd i) = true ∧ fld v 9 3 = 0 ∧ (s.calc i).phase ≠ .idle) ∧
    (∃ s : State, ∃ f : Nat, ∃ i : Nat, ∃ v : Word, i < 256 ∧ s.mayWrite f (calCmd i) = true ∧ fld v 9 3 = 0) ∧
    (∃ s : State, ∃ i : Nat, ∃ v : Word, (s.calc i).exclWait = some v ∧ s.fenceBit (shellPage i) = true ∧ (s.calc i).phase = .idle ∧ fld v 1 0 = 1 ∧
      fld (s.rd (calGains i)) 6 0 ≠ 0) ∧
    (∃ s : State, ∃ i : Nat, ∃ v : Word, (s.calc i).heldCmd = some v ∧ (s.calc i).phase = .idle ∧ (s.calc i).exclWait = none ∧ bit v 2 = false ∧
      fld v 1 0 = 1 ∧ fld (s.rd (calGains i)) 6 0 ≠ 0) :=
  ⟨⟨gainOne small, 0, 0, 1, by decide +kernel⟩,
   ⟨gainOne small, 0, 0, 2 + 96 * 8, by decide +kernel⟩,
   ⟨gainOne small, 0, 0, 2 + 95 * 8, .calFull 0 0 (2 + 95 * 8), by decide +kernel⟩,
   ⟨withCal (fun c => { c with phase := .zero }), 0, 0, 1, by decide +kernel⟩,
   ⟨gainOne small, 0, 0, 1, by decide +kernel⟩,
   ⟨(gainOne (withCal (fun c => { c with exclWait := some 5 }))).setFence (shellPage 0) { classes := 2, host := true, causes := [] }, 0, 5,
    by decide +kernel⟩,
   ⟨gainOne (withCal (fun c => { c with heldCmd := some 1 })), 0, 1, by decide +kernel⟩⟩

/-- The hypotheses of CalibrationProceeds can be met, clause by clause. -/
theorem witness_CalibrationProceeds :
    (∃ s : State, ∃ i : Nat, s.calFree i = true ∧ (s.calc i).taken < 63) ∧
    (∃ s : State, ∃ i : Nat, ((∀ q ∈ (s.stope i).seqs, q.busy = false)) ∧ s.grantOpen (s.calc i).forced = true ∧ (s.calc i).phase ≠ .idle ∧
      (s.calc i).excl = false) ∧
    (∃ s : State, ∃ i : Nat, (s.calc i).due = true ∧ (s.calc i).phase ≠ .idle ∧ ((s.calc i).dueSince + fld (s.rd (calDefer i)) 15 0 * 1000000 ≤ s.now)) ∧
    (∃ s : State, ∃ i : Nat, ∃ h : Nat, (s.calc i).holdSince = some h ∧ (h + 100000 < s.now) ∧ (s.calc i).excl = false) ∧
    (∃ s : State, ∃ i : Nat, ∃ k : Nat, (s.calc i).phase = .commit ∧ k < 5 ∧ (s.stope i).commitFree k = true ∧ bitAt (s.calc i).committed k = false ∧
      ((s.calc i).committed + 2 ^ k ≠ 31)) :=
  ⟨⟨withCal (fun c => { c with phase := .zero, slotOpen := true, slotSince := 1000000 }) |>.updStope 0 fun t => { t with ref := .ready }, 0,
    by decide +kernel⟩,
   ⟨{ withCal (fun c => { c with phase := .zero }) with hf := { small.hf with quantum := 1000 } }, 0, by decide +kernel⟩,
   ⟨{ withCal (fun c => { c with phase := .zero, due := true }) with now := 10000000000000 }, 0, by decide +kernel⟩,
   ⟨withCal (fun c => { c with phase := .full, holdSince := some 0 }), 0, 0, by decide +kernel⟩,
   ⟨withCal (fun c => { c with phase := .commit, fresh := [(0, 0x4000)] }), 0, 0, by decide +kernel⟩⟩

/-- The hypotheses of CalibrationFallsDue can be met, clause by clause. -/
theorem witness_CalibrationFallsDue :
    (∃ s : State, ∃ i : Nat, (s.calc i).due = false ∧ ((s.calc i).lastDone + s.hf.plan.calInterval * 60000000000 ≤ s.now)) ∧
    (∃ s : State, ∃ f : Nat, ∃ i : Nat, ∃ v : Word, i < 256 ∧ s.mayWrite f (calGains i) = true ∧ (s.calc i).due = false ∧
      (fld v 6 0 &&& (0x7F ^^^ fld (s.rd (calGains i)) 6 0) ≠ 0)) ∧
    (∃ s : State, ∃ bank : Bool, s.factorOut bank = true) ∧
    (∃ s : State, s.hf.pwr = .cal ∧ s.hf.calGroup = 0) ∧
    (∃ s : State, ∃ f : Nat, ∃ v : Word, s.mayWrite f hfCalInt = true ∧ 15 ≤ fld v 9 0 ∧ fld v 9 0 ≤ 720) ∧
    (∃ s : State, (s.hf.plan.adopted + 86400000000000 ≤ s.now)) :=
  ⟨⟨{ small with now := 1000000000000000 }, 0, by decide +kernel⟩,
   ⟨gainOne small, 0, 0, 0x7F, by decide +kernel⟩,
   ⟨withStope fun t => { t with sampled := [(0, [(9, 3)])] }, false, by decide +kernel⟩,
   ⟨{ small with hf := { small.hf with pwr := .cal } }, by decide +kernel⟩,
   ⟨{ small with now := 1000000000000000 }, 0, 0x7F, by decide +kernel⟩,
   ⟨{ small with now := 1000000000000000 }, by decide +kernel⟩⟩

/-- The hypotheses of StepsStartFetchAndComplete can be met, clause by clause. -/
theorem witness_StepsStartFetchAndComplete :
    (∃ s : State, ∃ c : Nat, ∃ x : Step, ∃ rest : List Step, ((s.core c).queue = x :: rest) ∧ (s.core c).run = none ∧ s.enabled (coreBase c) = true ∧
      s.quiescing (coreBase c) = false ∧ s.coreFenced c 0 = false ∧ s.coldStep c x = false) ∧
    (∃ s : State, ∃ c : Nat, ∃ r : Running, (s.core c).run = some r ∧ (s.core c).fetched = none ∧ (s.core c).rerun = none ∧ r.next < 4096 ∧ (r.step.prog % 16 = 0) ∧ (r.step.prog + 16 * r.next + 16 ≤ s.progSize c) ∧ (let a := s.progBase c + (r.step.prog + 16 * r.next)
    (s.poisoned (a / 8) = false) ∧ (s.poisoned (a / 8 + 1) = false) ∧ opcodes.contains (fld (descOf r.next (s.rdMem a 16)).w0 6 0) = true)) ∧
    (∃ s : State, ∃ c : Nat, ∃ r : Running, (s.core c).run = some r ∧ (s.core c).fetched = none ∧ (s.core c).rerun = none ∧ 4096 ≤ r.next) ∧
    (∃ s : State, ∃ c : Nat, ∃ x : Issued, (((s.core c).issued.find? fun i => i.desc.index == x.desc.index && s.ending c i != .atWork) = some x) ∧
      ((x.await = .nothing ∨ x.await = .packets 0)) ∧ x.cause = 0) ∧
    (∃ s : State, ∃ c : Nat, ∃ code : Nat, ∃ x : Issued, (((s.core c).issued.find? fun i => i.desc.index == x.desc.index && s.ending c i != .atWork) = some x) ∧ s.ending c x = .cause code ∧ x.await = .nothing ∧ 0x100 ≤ code ∧ code < 0x10000) :=
  ⟨⟨coreWith 0 (fun t => { t with queue := [aStep none] }), 0, aStep none, [], by decide +kernel⟩,
   ⟨((coreWith 0 (fun t => { t with run := some aRun })).wrMem (spBase 0 + 16) [0x83, 0, 1, 0]), 0, aRun, by decide +kernel⟩,
   ⟨coreWith 0 (fun t => { t with run := some { aRun with next := 4096 } }), 0, { aRun with next := 4096 }, by decide +kernel⟩,
   ⟨coreWith 0 (fun t => { t with issued := [anIssued .nothing] }), 0, anIssued .nothing, by decide +kernel⟩,
   ⟨coreWith 0 fun t => { t with issued := [{ anIssued .nothing with cause := 0x101 }] }, 0, 0x101, { anIssued .nothing with cause := 0x101 },
    by decide +kernel⟩⟩

/-- The hypotheses of DescriptorsIssueOrFault can be met, clause by clause. -/
theorem witness_DescriptorsIssueOrFault :
    (∃ s : State, ∃ c : Nat, ∃ d : Desc, ∃ r : Running, ∃ a : Nat, ∃ b : Nat, ∃ sa : Nat, ∃ sb : Nat, ∃ p : Nat, ∃ ev : Nat, ∃ src : Nat, ∃ dst : Nat,
      ∃ n : Nat, ∃ k : Nat, ∃ da : List Nat, ∃ srcs : List Nat, ∃ fin : Bool, ∃ cmd : Instr, ∃ op : Nat,
      ∃ j : State → Desc → Judged, ((cmd, op, j) ∈ ([(.dma c [], 0x01, fun s d => s.dmaJudge c d), (.dma2d c [], 0x02, fun s d => s.dma2dJudge c d),
      (.fill c [], 0x03, fun s d => s.fillJudge c d), (.launch c [] da, 0x08, fun s d => s.launchJudge c da d),
      (.accClear c [], 0x09, fun s d => s.accClearJudge c d), (.accAdd c [], 0x0A, fun s d => s.accAddJudge c d),
      (.accRead c [], 0x0B, fun s d => s.accReadJudge c d), (.scale c [], 0x0C, fun s d => s.scaleJudge c d),
      (.requant c [], 0x0D, fun s d => s.requantJudge c d), (.vbin c [], 0x10, fun s d => s.vbinJudge c d),
      (.vfma c [], 0x11, fun s d => s.vfmaJudge c d), (.vcvt c [], 0x12, fun s d => s.vcvtJudge c d),
      (.vred c [], 0x13, fun s d => s.vredJudge c d), (.nlf c [], 0x14, fun s d => s.nlfJudge c d),
      (.norm c [], 0x15, fun s d => s.normJudge c d), (.xred c [], 0x16, fun s d => s.xredJudge c d),
      (.vtopk c [], 0x17, fun s d => s.vtopkJudge c d), (.barrier c [], 0x20, fun s d => s.barrierJudge c d),
      (.cwait c [], 0x21, fun s d => s.cwaitJudge c d), (.cinc c [], 0x22, fun _ d => cincJudge c d),
      (.wopen c [], 0x23, fun s d => s.wopenJudge c d), (.wclose c [], 0x24, fun s d => s.wcloseJudge c d),
      (.wwait c [], 0x25, fun s d => s.wwaitJudge c d), (.mma4 c [] a b sa sb dst n k, 0x30, fun s d => s.mma4Judge c a b sa sb dst n k d),
      (.pquant c [] p ev dst n k, 0x31, fun s d => s.pquantJudge c p ev dst n k d),
      (.pmerge c [] srcs dst fin, 0x32, fun s d => s.pmergeJudge c srcs dst fin d),
      (.cands c [] src a b n dst, 0x33, fun s d => s.candsJudge c src a b n dst d), (.kvcmd c [], 0x34, fun s d => s.kvcmdJudge c d)] :
      List (Instr × Nat × (State → Desc → Judged)))) ∧ (s.core c).fetched = some d ∧ (s.core c).run = some r ∧ fld d.w0 6 0 = op ∧
        ∃ x : Act, j s d = .act x ∧ s.issueHolds c d x = false ∧ ((∀ w ∈ x.order (s.core c).part.sent, s.poisoned w = false)) ∧ x.refuse s = 0) ∧
    (∃ s : State, ∃ c : Nat, ∃ d : Desc, ∃ r : Running, ∃ a : Nat, ∃ b : Nat, ∃ sa : Nat, ∃ sb : Nat, ∃ p : Nat, ∃ ev : Nat, ∃ src : Nat, ∃ dst : Nat,
      ∃ n : Nat, ∃ k : Nat, ∃ da : List Nat, ∃ srcs : List Nat, ∃ fin : Bool, ∃ cmd : Instr, ∃ op : Nat,
      ∃ j : State → Desc → Judged, ((cmd, op, j) ∈ ([(.dma c [], 0x01, fun s d => s.dmaJudge c d), (.dma2d c [], 0x02, fun s d => s.dma2dJudge c d),
      (.fill c [], 0x03, fun s d => s.fillJudge c d), (.launch c [] da, 0x08, fun s d => s.launchJudge c da d),
      (.accClear c [], 0x09, fun s d => s.accClearJudge c d), (.accAdd c [], 0x0A, fun s d => s.accAddJudge c d),
      (.accRead c [], 0x0B, fun s d => s.accReadJudge c d), (.scale c [], 0x0C, fun s d => s.scaleJudge c d),
      (.requant c [], 0x0D, fun s d => s.requantJudge c d), (.vbin c [], 0x10, fun s d => s.vbinJudge c d),
      (.vfma c [], 0x11, fun s d => s.vfmaJudge c d), (.vcvt c [], 0x12, fun s d => s.vcvtJudge c d),
      (.vred c [], 0x13, fun s d => s.vredJudge c d), (.nlf c [], 0x14, fun s d => s.nlfJudge c d),
      (.norm c [], 0x15, fun s d => s.normJudge c d), (.xred c [], 0x16, fun s d => s.xredJudge c d),
      (.vtopk c [], 0x17, fun s d => s.vtopkJudge c d), (.barrier c [], 0x20, fun s d => s.barrierJudge c d),
      (.cwait c [], 0x21, fun s d => s.cwaitJudge c d), (.cinc c [], 0x22, fun _ d => cincJudge c d),
      (.wopen c [], 0x23, fun s d => s.wopenJudge c d), (.wclose c [], 0x24, fun s d => s.wcloseJudge c d),
      (.wwait c [], 0x25, fun s d => s.wwaitJudge c d), (.mma4 c [] a b sa sb dst n k, 0x30, fun s d => s.mma4Judge c a b sa sb dst n k d),
      (.pquant c [] p ev dst n k, 0x31, fun s d => s.pquantJudge c p ev dst n k d),
      (.pmerge c [] srcs dst fin, 0x32, fun s d => s.pmergeJudge c srcs dst fin d),
      (.cands c [] src a b n dst, 0x33, fun s d => s.candsJudge c src a b n dst d), (.kvcmd c [], 0x34, fun s d => s.kvcmdJudge c d)] :
      List (Instr × Nat × (State → Desc → Judged)))) ∧ (s.core c).fetched = some d ∧ (s.core c).run = some r ∧ fld d.w0 6 0 = op ∧
        ∃ code : Nat, ((j s d = .bad code ∨ j s d = .late code ∧ s.issueHolds c d Act.empty = false ∨
        ∃ x, j s d = .act x ∧ s.issueHolds c d x = false ∧ (∀ w ∈ x.order (s.core c).part.sent, s.poisoned w = false) ∧ x.refuse s = code ∧
          code ≠ 0)) ∧ code < 0x10000) :=
  ⟨⟨atHead 0 (aDesc 0x03 0 0 0 0 0), 0, aDesc 0x03 0 0 0 0 0, aRun, 0, 0, 0, 0, 0, 0, 0, 0, 0, 0, [], [], false, .fill 0 [], 3,
    fun s d => s.fillJudge 0 d, ⟨by simp, by decide +kernel, by decide +kernel, by decide +kernel, Act.empty, rfl, by decide +kernel,
    by decide +kernel, rfl⟩⟩,
   ⟨atHead 0 (aDesc 0x03 1 0 0 0 0), 0, aDesc 0x03 1 0 0 0 0, aRun, 0, 0, 0, 0, 0, 0, 0, 0, 0, 0, [], [], false, .fill 0 [], 3,
    fun s d => s.fillJudge 0 d, ⟨by simp, by decide +kernel, by decide +kernel, by decide +kernel, rAbiMismatch, .inl rfl, by decide +kernel⟩⟩⟩

/-- The hypotheses of VectorOpcodesCompute can be met, clause by clause. -/
theorem witness_VectorOpcodesCompute :
    (∃ s : State, ∃ c : Nat, ∃ d : Desc, ∃ r : Running, ∃ b : Rng, (Heads s c d r [] [b]) ∧ fld d.w0 6 0 = 0x03 ∧ d.func = 0 ∧
      s.dstRange c d.w3 d.len false = some b) ∧
    (∃ s : State, ∃ c : Nat, ∃ d : Desc, ∃ r : Running, ∃ src : Source, ∃ b : Rng, (Heads s c d r src.reads [b]) ∧ fld d.w0 6 0 = 0x01 ∧ d.func = 0 ∧
      d.w2 = 0 ∧ s.dmaSource c d.w1 d.len = some src ∧ src.kv = none ∧ spaceOf d.w3 ≠ 3 ∧ spaceOf d.w3 ≠ 4 ∧ spaceOf d.w3 ≠ 5 ∧
      s.dstRange c d.w3 d.len false = some b) ∧
    (∃ s : State, ∃ c : Nat, ∃ d : Desc, ∃ r : Running, ∃ a : Rng, ∃ b : Rng, (Heads s c d r [a] [b]) ∧ fld d.w0 6 0 = 0x02 ∧ d.func = 0 ∧ (let row := fld d.w2 11 0
    let stride := fld d.w2 31 12
    row ≠ 0 ∧ (d.len % row = 0) ∧ (s.rangeOf c d.w1 ((d.len / row - 1) * stride + row) = some a) ∧ a.isOb = false ∧ spaceOf d.w3 ≠ 3 ∧
      spaceOf d.w3 ≠ 4 ∧ spaceOf d.w3 ≠ 5 ∧ s.dstRange c d.w3 d.len false = some b)) ∧
    (∃ s : State, ∃ c : Nat, ∃ d : Desc, ∃ r : Running, ∃ a : Rng, ∃ b : Rng, ∃ rs : List Rng, ∃ ys : State → List Word,
      ∃ f : Word → Word → Word, (Heads s c d r (a :: rs) [b]) ∧ fld d.w0 6 0 = 0x10 ∧ bitAt d.func 4 = false ∧ vbinOp (bitsOf d.func 2 0) = some f ∧
      s.vecRange c d.w1 d.len = some a ∧ (s.secondOp c d = some (rs, ys)) ∧ s.dstRange c d.w3 d.len false = some b ∧ b.space ≠ 1 ∧ b.isOb = false) ∧
    (∃ s : State, ∃ c : Nat, ∃ d : Desc, ∃ r : Running, ∃ a : Rng, ∃ b : Rng, ∃ rs : List Rng, ∃ ys : State → List Word, (Heads s c d r (a :: rs) [b]) ∧
      ((∀ w ∈ b.wordList, s.poisoned w = false)) ∧ fld d.w0 6 0 = 0x11 ∧ bitsOf d.func 2 0 = 0 ∧ bitAt d.func 4 = false ∧
      s.vecRange c d.w1 d.len = some a ∧ (s.secondOp c d = some (rs, ys)) ∧ s.dstRange c d.w3 d.len false = some b ∧ b.space ≠ 1 ∧ b.isOb = false) ∧
    (∃ s : State, ∃ c : Nat, ∃ d : Desc, ∃ r : Running, ∃ a : Rng, ∃ b : Rng, (Heads s c d r [a] [b]) ∧ fld d.w0 6 0 = 0x12 ∧ d.func < 4 ∧ d.w2 = 0 ∧
      s.vecRange c d.w1 d.len = some a ∧ s.dstRange c d.w3 (vcvtWords d.func d.len) false = some b ∧ b.space ≠ 1 ∧ b.isOb = false) ∧
    (∃ s : State, ∃ c : Nat, ∃ d : Desc, ∃ r : Running, ∃ a : Rng, ∃ b : Rng, (Heads s c d r [a] [b]) ∧ fld d.w0 6 0 = 0x13 ∧ d.func < 4 ∧ d.w2 = 0 ∧
      s.vecRange c d.w1 d.len = some a ∧ s.dstRange c d.w3 1 false = some b ∧ b.space ≠ 1 ∧ b.isOb = false) ∧
    (∃ s : State, ∃ c : Nat, ∃ d : Desc, ∃ r : Running, ∃ a : Rng, ∃ q : Rng, ∃ b : Rng, (Heads s c d r [a, q] [b]) ∧ fld d.w0 6 0 = 0x14 ∧ d.func = 0 ∧
      s.vecRange c d.w1 d.len = some a ∧ s.vecRange c d.w2 257 = some q ∧ s.dstRange c d.w3 d.len false = some b ∧ b.space ≠ 1 ∧ b.isOb = false) ∧
    (∃ s : State, ∃ c : Nat, ∃ d : Desc, ∃ r : Running, ∃ a : Rng, ∃ b : Rng, (Heads s c d r [a] [b]) ∧ fld d.w0 6 0 = 0x17 ∧ 0 < d.func ∧ d.func ≤ 16 ∧
      d.w2 = 0 ∧ s.vecRange c d.w1 d.len = some a ∧ (s.dstRange c d.w3 (min d.func (2 * d.len)) false = some b) ∧ b.space ≠ 1 ∧ b.isOb = false) :=
  ⟨⟨atHead 0 (aDesc 0x03 0 2 5 6 16), 0, aDesc 0x03 0 2 5 6 16, aRun, spRng 16 2, by decide +kernel⟩,
   ⟨(atHead 0 (aDesc 0x01 0 2 32 0 16)).wrMem (spBase 0 + 256) [1, 2, 3], 0, aDesc 0x01 0 2 32 0 16, aRun,
    { reads := [spRng 32 2], kv := none, bytes := fun t => t.rdRange 0 (spRng 32 2), pieces := [((spRng 32 2).start, 8 * (spRng 32 2).words)] },
    spRng 16 2, ⟨by decide +kernel, by decide +kernel, by decide +kernel, by decide +kernel, rfl, rfl, by decide +kernel, by decide +kernel,
    by decide +kernel, by decide +kernel⟩⟩,
   ⟨(atHead 0 (aDesc 0x02 0 4 32 0x4002 16)).wrMem (spBase 0 + 256) [1, 2, 3], 0, aDesc 0x02 0 4 32 0x4002 16, aRun, spRng 32 6, spRng 16 4,
    by decide +kernel⟩,
   ⟨(atHead 0 (aDesc 0x10 0 2 32 48 16)).wrMem (spBase 0 + 256) [0, 0, 0x80, 0x3F], 0, aDesc 0x10 0 2 32 48 16, aRun, spRng 32 2, spRng 16 2,
    [spRng 48 2], fun t => t.rdLanes 0 (spRng 48 2), fAdd, ⟨by decide +kernel, by decide +kernel, by decide +kernel, rfl, by decide +kernel, rfl,
    by decide +kernel, by decide +kernel, by decide +kernel⟩⟩,
   ⟨(atHead 0 (aDesc 0x11 8 2 32 0x3F800000 16)).wrMem (spBase 0 + 256) [0, 0, 0x80, 0x3F], 0, aDesc 0x11 8 2 32 0x3F800000 16, aRun, spRng 32 2,
    spRng 16 2, [], fun _ => List.replicate 4 0x3F800000, ⟨by decide +kernel, by decide +kernel, by decide +kernel, by decide +kernel,
    by decide +kernel, by decide +kernel, rfl, by decide +kernel, by decide +kernel, by decide +kernel⟩⟩,
   ⟨(atHead 0 (aDesc 0x12 1 3 32 0 16)).wrMem (spBase 0 + 256) [0, 0, 0x80, 0x3F], 0, aDesc 0x12 1 3 32 0 16, aRun, spRng 32 3, spRng 16 2,
    by decide +kernel⟩,
   ⟨(atHead 0 (aDesc 0x13 1 2 32 0 16)).wrMem (spBase 0 + 256) [0, 0, 0x80, 0x3F], 0, aDesc 0x13 1 2 32 0 16, aRun, spRng 32 2, spRng 16 1,
    by decide +kernel⟩,
   ⟨(atHead 0 (aDesc 0x14 0 2 32 64 16)).wrMem (spBase 0 + 256) [0, 0, 0x80, 0x3F], 0, aDesc 0x14 0 2 32 64 16, aRun, spRng 32 2, spRng 64 257,
    spRng 16 2, by decide +kernel⟩,
   ⟨(atHead 0 (aDesc 0x17 2 2 32 0 16)).wrMem (spBase 0 + 256) [0, 0, 0x80, 0x3F], 0, aDesc 0x17 2 2 32 0 16, aRun, spRng 32 2, spRng 16 2,
    by decide +kernel⟩⟩

/-- The hypotheses of AccumulatorOpcodesCompute can be met, clause by clause. -/
theorem witness_AccumulatorOpcodesCompute :
    (∃ s : State, ∃ c : Nat, ∃ d : Desc, ∃ r : Running, ∃ b : Rng, (Heads s c d r [] [b]) ∧ fld d.w0 6 0 = 0x09 ∧ d.func = 0 ∧ d.w1 = 0 ∧ d.w2 = 0 ∧
      s.rangeOf c d.w3 d.len = some b ∧ b.space = 1) ∧
    (∃ s : State, ∃ c : Nat, ∃ d : Desc, ∃ r : Running, ∃ a : Rng, ∃ b : Rng, (Heads s c d r [a] [b]) ∧ fld d.w0 6 0 = 0x0A ∧ d.func = 0 ∧ d.w2 = 0 ∧
      s.rangeOf c d.w1 d.len = some a ∧ a.space = 0 ∧ s.rangeOf c d.w3 d.len = some b ∧ b.space = 1) ∧
    (∃ s : State, ∃ c : Nat, ∃ d : Desc, ∃ r : Running, ∃ a : Rng, ∃ b : Rng, (Heads s c d r [a] [b]) ∧ fld d.w0 6 0 = 0x0B ∧ d.func = 0 ∧ d.w2 = 0 ∧
      s.rangeOf c d.w1 d.len = some a ∧ a.space = 1 ∧ s.rangeOf c d.w3 d.len = some b ∧ b.space = 0) ∧
    (∃ s : State, ∃ c : Nat, ∃ d : Desc, ∃ r : Running, ∃ a : Rng, ∃ q : Rng, ∃ b : Rng, (Heads s c d r [a, q] [b]) ∧ fld d.w0 6 0 = 0x0C ∧ d.func < 4 ∧
      s.rangeOf c d.w1 d.len = some a ∧ a.space = 1 ∧ s.rangeOf c d.w2 1 = some q ∧ q.space = 0 ∧ s.rangeOf c d.w3 d.len = some b ∧ b.space = 0 ∧
      (recordRefusal [leAt (s.rdRange c q) 0 2] = 0)) ∧
    (∃ s : State, ∃ c : Nat, ∃ d : Desc, ∃ r : Running, ∃ mode : Round, ∃ a : Rng, ∃ q : Rng, ∃ b : Rng, (Heads s c d r [a, q] [b]) ∧ fld d.w0 6 0 = 0x0D ∧
      roundOf (bitsOf d.func 1 0) = some mode ∧ bitAt d.func 4 = true ∧ s.rangeOf c d.w1 d.len = some a ∧ a.space = 0 ∧ s.rangeOf c d.w2 1 = some q ∧
      q.space = 0 ∧ (s.rangeOf c d.w3 (2 * cdiv (d.len + 2 * cdiv (2 * d.len) 256) 16) = some b) ∧ b.space = 0) ∧
    (∃ s : State, ∃ c : Nat, ∃ d : Desc, ∃ r : Running, ∃ a : Rng, let seams := maskBits 4 (bitsOf d.func 3 0)
    c < 256 ∧ (Heads s c d r [a] (seamRngs seams)) ∧ fld d.w0 6 0 = 0x08 ∧ rsvAbove d.w2 6 = false ∧ (d.len = 16 * seams.length) ∧ fld d.w2 4 0 < 24 ∧
      spaceOf d.w1 = 0 ∧ s.rangeOf c d.w1 d.len = some a ∧ spaceOf d.w3 = 2 ∧ (addrOf d.w3 = 2048 * seams.headD 0)) :=
  ⟨⟨(atHead 0 (aDesc 0x09 0 2 0 0 0x40000010)).updStope 0 (fun t => { t with acc := [(30, 1), (33, 5)], weight := [(33, 5)] }), 0,
    aDesc 0x09 0 2 0 0 0x40000010, aRun, { space := 1, start := 32, words := 2 }, by decide +kernel⟩,
   ⟨((atHead 0 (aDesc 0x0A 0 2 32 0 0x40000010)).wrMem (spBase 0 + 256) [255, 255, 255, 255, 7]).updStope 0 (fun t => { t with acc := [(30, 1), (32, 1), (33, 5)] }),
    0, aDesc 0x0A 0 2 32 0 0x40000010, aRun, spRng 32 2, { space := 1, start := 32, words := 2 }, by decide +kernel⟩,
   ⟨(atHead 0 (aDesc 0x0B 0 2 0x40000010 0 16)).updStope 0 (fun t => { t with acc := [(30, 1), (33, 5)] }), 0, aDesc 0x0B 0 2 0x40000010 0 16, aRun,
    { space := 1, start := 32, words := 2 }, spRng 16 2, by decide +kernel⟩,
   ⟨((atHead 0 (aDesc 0x0C 0 2 0x40000010 64 16)).wrMem (spBase 0 + 512) [127]).updStope 0 (fun t => { t with acc := [(30, 1), (33, 5)] }), 0,
    aDesc 0x0C 0 2 0x40000010 64 16, aRun, { space := 1, start := 32, words := 2 }, spRng 64 1, spRng 16 2, by decide +kernel⟩,
   ⟨(atHead 0 (aDesc 0x0D 16 2 32 64 16)).wrMem (spBase 0 + 256) [0, 0, 0x80, 0x3F], 0, aDesc 0x0D 16 2 32 64 16, aRun, .rneFeed, spRng 32 2,
    spRng 64 1, spRng 16 2, by decide +kernel⟩,
   ⟨(atHead 0 (aDesc 0x08 2 16 32 3 0x40000800)).wrMem (spBase 0 + 256) [0x12], 0, aDesc 0x08 2 16 32 3 0x40000800, aRun, spRng 32 16,
    by decide +kernel⟩⟩

/-- The hypotheses of ReductionsAndCountersAct can be met, clause by clause. -/
theorem witness_ReductionsAndCountersAct :
    (∃ s : State, ∃ root : Nat, ∃ src : Nat, ∃ g : Nat, root < 256 ∧ ((groupValid (s.redgrp root g) = false ∨ src ∉ groupStopes (s.redgrp root g))) ∧
      ((∀ x ∈ (s.core root).reductions, x.group ≠ g))) ∧
    (∃ s : State, ∃ root : Nat, ∃ src : Nat, ∃ g : Nat, ∃ op : Nat, ∃ len : Nat, ∃ data : List DWord, (src ∈ groupStopes (s.redgrp root g)) ∧ groupValid (s.redgrp root g) = true ∧ (let u := (s.core root).takeOperand g src op (data.take len)
    ((∀ r, u.reductions.find? (fun r => r.group == g) = some r →
        r.faulty = false ∧ (r.started = false ∨ ∃ i ∈ groupStopes (s.redgrp root g), ∀ o ∈ r.operands, o.1 ≠ i))))) ∧
    (∃ s : State, ∃ root : Nat, ∃ src : Nat, ∃ g : Nat, ∃ op : Nat, ∃ len : Nat, ∃ data : List DWord, ∃ r : Reduction, root < 256 ∧ (src ∈ groupStopes (s.redgrp root g)) ∧ groupValid (s.redgrp root g) = true ∧ (let u := (s.core root).takeOperand g src op (data.take len)
    let members := groupStopes (s.redgrp root g)
    (u.reductions.filter (fun r => r.group == g) = [r]) ∧ ((r.faulty = true ∨ r.started = true ∧ ∀ i ∈ members, ∃ o ∈ r.operands, o.1 = i)))) ∧
    (∃ s : State, ∃ c : Nat, ∃ g : Nat, ∃ x : Issued, ∃ data : List DWord, ∃ b : Rng, ((s.core c).issued.find? (fun i => i.awaitsGroup g) = some x) ∧
      fld x.desc.w0 6 0 = 0x16 ∧ s.rangeOf c x.desc.w3 x.desc.len = some b ∧ b.space ≠ 1 ∧ data.length = x.desc.len) ∧
    (∃ s : State, ∃ c : Nat, ∃ g : Nat, ∃ x : Issued, ∃ a : Rng, ∃ q : Rng, ∃ b : Rng, ((s.core c).issued.find? (fun i => i.awaitsGroup g) = some x) ∧
      fld x.desc.w0 6 0 = 0x15 ∧ s.rangeOf c x.desc.w1 x.desc.len = some a ∧ s.rangeOf c x.desc.w2 x.desc.len = some q ∧
      s.rangeOf c x.desc.w3 x.desc.len = some b ∧ b.space ≠ 1) ∧
    (∃ s : State, ∃ c : Nat, ∃ g : Nat, ((∃ x ∈ (s.core c).issued, x.awaitsGroup g = true))) ∧
    (∃ s : State, ∃ c : Nat, ∃ g : Nat, ((∀ x ∈ (s.core c).issued, x.awaitsGroup g = false))) ∧
    (∃ s : State, ∃ c : Nat, ∃ k : Nat, k < 32 ∧ ((∀ x ∈ (s.core c).issued, x.awaitsCounter k = false))) ∧
    (∃ s : State, ∃ c : Nat, ∃ k : Nat, ∃ v : Word, k < 32 ∧ ((s.rd (coreCounter c k)).toNat + v.toNat ≤ 0xFFFFFFFF)) ∧
    (∃ s : State, ∃ c : Nat, ∃ k : Nat, ∃ v : Word, k < 32 ∧ (0xFFFFFFFF < (s.rd (coreCounter c k)).toNat + v.toNat)) ∧
    (∃ s : State, ∃ c : Nat, ∃ x : Issued, ∃ k : Nat, ∃ dl : Nat, ∃ v : Word, ∃ cons : Bool, x.await = .counter k v cons (some dl) ∧ dl ≤ s.now ∧
      ((s.core c).issued.find? (fun i => match i.await with | .counter _ _ _ (some e) => decide (e ≤ s.now) | _ => false) = some x)) ∧
    (∃ s : State, ∃ c : Nat, ∃ d : Desc, ∃ r : Running, (s.core c).fetched = some d ∧ (s.core c).run = some r ∧ fld d.w0 6 0 = 0x21 ∧ d.func < 4 ∧
      rsvAbove d.w1 5 = false ∧ rsvAbove d.w3 24 = false ∧ (s.issueHolds c d { reads := [], writes := [], run := id } = false) ∧
      d.w2.toNat ≤ (s.rd (coreCounter c (fld d.w1 4 0))).toNat) ∧
    (∃ s : State, ∃ c : Nat, ∃ d : Desc, ∃ r : Running, (s.core c).fetched = some d ∧ (s.core c).run = some r ∧ fld d.w0 6 0 = 0x21 ∧ d.func < 4 ∧
      rsvAbove d.w1 5 = false ∧ rsvAbove d.w3 24 = false ∧ (s.issueHolds c d { reads := [], writes := [], run := id } = false) ∧
      (s.rd (coreCounter c (fld d.w1 4 0))).toNat < d.w2.toNat ∧ ((bitAt d.func 1 = true ∨ fld d.w3 23 0 ≠ 0))) ∧
    (∃ s : State, ∃ c : Nat, ∃ d : Desc, ∃ r : Running, (s.core c).fetched = some d ∧ (s.core c).run = some r ∧ fld d.w0 6 0 = 0x20 ∧ c < 256 ∧
      bitsOf d.func 4 3 = 0 ∧ d.w1 = 0 ∧ rsvAbove d.w2 8 = false ∧ d.w3 = 0 ∧ groupValid (s.redgrp c (bitsOf d.func 2 0)) = true ∧
      (s.issueHolds c d { reads := [], writes := [], run := id } = false)) ∧
    (∃ s : State, ∃ c : Nat, ∃ d : Desc, ∃ r : Running, ∃ a : Rng, ∃ b : Rng, c < 256 ∧ (Heads s c d r [a] [b]) ∧ fld d.w0 6 0 = 0x16 ∧ d.w2 = 0 ∧ d.len ≤ 30 ∧ s.vecRange c d.w1 d.len = some a ∧ s.dstRange c d.w3 d.len false = some b ∧ b.space ≠ 1 ∧ b.isOb = false ∧ (let g := bitsOf d.func 2 0
    let root := groupRoot (s.redgrp c g)
    let m := redPacket c root 2 (laneDs (s.rdLanes c a))
    let u := (s.core c).startReduction g (bitsOf d.func 4 3) (laneDs (s.rdLanes c a)).length
    groupValid (s.redgrp c g) = true ∧ (g ∉ (s.core c).redFaults) ∧ (s.routerCode (s.stamped { m with device := s.edge.devId }) = 0) ∧
      ((root = c → ∀ q, u.reductions.find? (fun q => q.group == g) = some q →
       q.faulty = false ∧ ∃ i ∈ groupStopes (s.redgrp c g), ∀ o ∈ q.operands, o.1 ≠ i)))) :=
  ⟨⟨small.wr (shellRedgrp 1 0) 0x40100401, 1, 1, 1, by decide +kernel⟩,
   ⟨small.wr (shellRedgrp 1 0) 0x40100401, 1, 1, 0, 1, 1, [7], by decide +kernel⟩,
   ⟨(small.wr (shellRedgrp 1 0) 0x40100401).updCore 1 fun t => t.startReduction 0 0 1, 1, 1, 0, 0, 1, [7],
    { group := 0, num := 0, bad := false, step := 0, op := 0, len := 1, started := true, operands := [(1, [7])] }, by decide +kernel⟩,
   ⟨coreWith 0 (fun t => { t with issued := [{ anIssued (.xred 0 1) with desc := aDesc 0x16 0 1 0 0 16 }] }), 0, 0,
    { anIssued (.xred 0 1) with desc := aDesc 0x16 0 1 0 0 16 }, [7], spRng 16 1, by decide +kernel⟩,
   ⟨coreWith 0 (fun t => { t with issued := [{ anIssued (.xred 0 1) with desc := aDesc 0x15 0 1 32 48 16 }] }), 0, 0,
    { anIssued (.xred 0 1) with desc := aDesc 0x15 0 1 32 48 16 }, spRng 32 1, spRng 48 1, spRng 16 1, by decide +kernel⟩,
   ⟨coreWith 0 (fun t => { t with issued := [{ anIssued (.xred 0 1) with desc := aDesc 0x16 0 1 0 0 16 }] }), 0, 0, by decide +kernel⟩,
   ⟨small.wr (shellRedgrp 1 0) 0x40100401, 1, 1, by decide +kernel⟩,
   ⟨small.wr (shellRedgrp 1 0) 0x40100401, 1, 1, by decide +kernel⟩,
   ⟨small.wr (shellRedgrp 1 0) 0x40100401, 1, 1, 5, by decide +kernel⟩,
   ⟨small.wr (coreCounter 0 3) 0xFFFFFFFF, 0, 3, 5, by decide +kernel⟩,
   ⟨coreWith 0 (fun t => { t with issued := [anIssued (.counter 1 5 false (some 100))] }), 0, anIssued (.counter 1 5 false (some 100)), 1, 100, 5,
    false, by decide +kernel⟩,
   ⟨(atHead 0 (aDesc 0x21 1 0 3 2 0)).wr (coreCounter 0 3) 2, 0, aDesc 0x21 1 0 3 2 0, aRun, by decide +kernel⟩,
   ⟨(atHead 0 (aDesc 0x21 2 0 3 2 0)).wr (coreCounter 0 3) 1, 0, aDesc 0x21 2 0 3 2 0, aRun, by decide +kernel⟩,
   ⟨(atHead 0 (aDesc 0x20 0 0 0 4 0)).wr (shellRedgrp 0 0) 0x40000400, 0, aDesc 0x20 0 0 0 4 0, aRun, by decide +kernel⟩,
   ⟨(atHead 0 (aDesc 0x16 0 1 32 0 16)).wr (shellRedgrp 0 0) 0x40100400, 0, aDesc 0x16 0 1 32 0 16, aRun, spRng 32 1, spRng 16 1, by decide +kernel⟩⟩

/-- The hypotheses of WindowsAdmitWrites can be met, clause by clause. -/
theorem witness_WindowsAdmitWrites :
    (∃ s : State, ∃ c : Nat, ∃ m : Packet, ∃ w : Window, epCore m.dest = some c ∧ (m ∈ s.noc.arrived) ∧ (let start := if c < 256 then s.spFor c + m.addr else if 0x200000 ≤ m.addr then poolBase + (m.addr - 0x200000) else coreMemBase (c - 256) + m.addr
    ((s.core c).windows.find? (fun w => w.covers start m.payload.length &&
       w.admits m.device m.src (m.device == s.edge.devId && some m.region == s.coreRegion c) && s.mayLand c start m.payload.length) = some w))) ∧
    (∃ s : State, ∃ c : Nat, ∃ m : Packet, epCore m.dest = some c ∧ (m ∈ s.noc.arrived) ∧ (let start := if c < 256 then s.spFor c + m.addr else if 0x200000 ≤ m.addr then poolBase + (m.addr - 0x200000) else coreMemBase (c - 256) + m.addr
    ((s.core c).windows.find? (fun w => w.covers start m.payload.length &&
       w.admits m.device m.src (m.device == s.edge.devId && some m.region == s.coreRegion c) && s.mayLand c start m.payload.length) = none))) ∧
    (∃ s : State, ∃ m : Packet, (m ∉ s.noc.arrived)) ∧
    (∃ s : State, ∃ c : Nat, ∃ base : Nat, ∃ d : Desc, ∃ r : Running, (s.core c).fetched = some d ∧ (s.core c).run = some r ∧ fld d.w0 6 0 = 0x23 ∧
      bitAt d.func 4 = false ∧ fld d.w3 31 29 = 0 ∧ (s.windowPlace c d.w1 d.len = some (base, true)) ∧ fld d.w2 31 12 < 32768 ∧ d.len ≠ 0 ∧
      (d.len % 2 = 0) ∧ (addrOf d.w1 % 2 = 0) ∧ bitsOf d.func 1 0 ≠ 3 ∧ ((fld d.w3 23 0 = 0 ↔ bitAt d.func 2 = true)) ∧
      ((fld d.w2 11 0 ≠ 0 → bitsOf d.func 1 0 = 0)) ∧ ((fld d.w2 31 12 ≠ 0 → bitsOf d.func 1 0 ≠ 2)) ∧
      ((fld d.w3 28 24 ≠ 0 → bitAt d.func 3 = true)) ∧ ((∀ w ∈ (s.core c).allWindows, w.meets base (8 * d.len) = false)) ∧ s.openWindows < 256 ∧
      s.regionWindows ((s.coreRegion c).getD 0) < fld (s.rd (windowQuota ((s.coreRegion c).getD 0))) 8 0 ∧
      (s.issueHolds c d { reads := [], writes := [], run := id } = false)) ∧
    (∃ s : State, ∃ c : Nat, ∃ x : Issued, ∃ w : Window, ∃ life : Option Nat, (((s.core c).issued.find? fun i => i.desc.index == x.desc.index && s.ending c i != .atWork) = some x) ∧ x.await = .wopen w life ∧ x.cause = 0 ∧ ((∀ h ∈ s.fab.hold, epCore h.flit.destEp ≠ some c))) ∧
    (∃ s : State, ∃ c : Nat, ∃ base : Nat, ∃ ok : Bool, ∃ d : Desc, ∃ r : Running, (s.core c).fetched = some d ∧ (s.core c).run = some r ∧
      fld d.w0 6 0 = 0x24 ∧ d.func = 0 ∧ d.w2 = 0 ∧ d.w3 = 0 ∧ (s.windowPlace c d.w1 0 = some (base, ok)) ∧
      (s.issueHolds c d { reads := [], writes := [], run := id } = false)) ∧
    (∃ s : State, ∃ c : Nat, ∃ base : Nat, ∃ x : Issued, (((s.core c).issued.find? fun i => i.desc.index == x.desc.index && s.ending c i != .atWork) = some x) ∧ x.await = .wclose base ∧ x.cause = 0) ∧
    (∃ s : State, ∃ c : Nat, ∃ base : Nat, ∃ ok : Bool, ∃ w : Window, ∃ d : Desc, ∃ r : Running, (s.core c).fetched = some d ∧ (s.core c).run = some r ∧
      fld d.w0 6 0 = 0x25 ∧ d.func = 0 ∧ d.w3 = 0 ∧ (s.windowPlace c d.w1 0 = some (base, ok)) ∧
      ((s.core c).windows.find? (fun w => w.base == base) = some w) ∧ (s.issueHolds c d { reads := [], writes := [], run := id } = false)) ∧
    (∃ s : State, ∃ c : Nat, ∃ base : Nat, ∃ a : Nat, ∃ e : Nat, ∃ w : Window, s.windowBase c (BitVec.ofNat 32 base) = some a ∧ (w ∈ (s.core c).windows) ∧
      w.base = a ∧ w.expiry = some e ∧ e ≤ s.now) :=
  ⟨⟨let s := coreWith 0 (fun t => { t with windows := [aWindow none] }); { s with noc := { s.noc with arrived := [{ aPacket 1 0 with device := small.edge.devId }] } },
    0, { aPacket 1 0 with device := small.edge.devId }, aWindow none, by decide +kernel⟩,
   ⟨{ small with noc := { small.noc with arrived := [aPacket 1 0] } }, 0, aPacket 1 0, by decide +kernel⟩,
   ⟨coreWith 0 (fun t => { t with windows := [aWindow none] }), { aPacket 1 0 with device := small.edge.devId }, by decide +kernel⟩,
   ⟨atHead 0 (aDesc 0x23 6 2 16 0 0), 0, spBase 0 + 128, aDesc 0x23 6 2 16 0 0, aRun, by decide +kernel⟩,
   ⟨coreWith 0 (fun t => { t with issued := [anIssued (.wopen (aWindow none) (some 5))] }), 0, anIssued (.wopen (aWindow none) (some 5)), aWindow none,
    some 5, by decide +kernel⟩,
   ⟨atHead 0 (aDesc 0x24 0 2 16 0 0), 0, spBase 0 + 128, true, aDesc 0x24 0 2 16 0 0, aRun, by decide +kernel⟩,
   ⟨coreWith 0 (fun t => { t with windows := [aWindow none], issued := [anIssued (.wclose (spBase 0))] }), 0, spBase 0, anIssued (.wclose (spBase 0)),
    by decide +kernel⟩,
   ⟨(atHead 0 (aDesc 0x25 0 2 0 8 0)).updCore 0 (fun t => { t with windows := [aWindow none] }), 0, spBase 0, true, aWindow none, aDesc 0x25 0 2 0 8 0,
    aRun, by decide +kernel⟩,
   ⟨coreWith 0 (fun t => { t with windows := [aWindow (some 5)] }), 0, 0, spBase 0, 5, aWindow (some 5), by decide +kernel⟩⟩

/-- The hypotheses of MergeOpcodesCompute can be met, clause by clause. -/
theorem witness_MergeOpcodesCompute :
    (∃ s : State, ∃ c : Nat, ∃ a : Nat, ∃ b : Nat, ∃ sa : Nat, ∃ sb : Nat, ∃ dst : Nat, ∃ n : Nat, ∃ d : Desc, ∃ r : Running, ∃ ra : Rng, ∃ rb : Rng,
      ∃ rx : Rng, ∃ ry : Rng, ∃ rd : Rng, (Heads s c d r [ra, rb, rx, ry] [rd]) ∧ 256 ≤ c ∧ fld d.w0 6 0 = 0x30 ∧ (s.obRange c a (2 * n) = some ra) ∧
      (s.obRange c b (2 * n) = some rb) ∧ s.mcRange c sa (cdiv n 8) = some rx ∧ s.mcRange c sb (cdiv n 8) = some ry ∧ s.mcRange c dst 1 = some rd ∧
      ((∀ y ∈ (s.rdRange c rx).take n ++ (s.rdRange c ry).take n, y ≠ 0xFF#8))) ∧
    (∃ s : State, ∃ c : Nat, ∃ p : Nat, ∃ ev : Nat, ∃ dst : Nat, ∃ keys : Nat, ∃ d : Desc, ∃ r : Running, ∃ rp : Rng, ∃ re : Rng,
      ∃ rd : Rng, (Heads s c d r [rp, re] [rd]) ∧ 256 ≤ c ∧ fld d.w0 6 0 = 0x31 ∧ s.mcSource c p (cdiv keys 2) = some rp ∧
      s.mcSource c ev (cdiv keys 2) = some re ∧ (s.mcRange c dst (cdiv (17 * cdiv keys 32) 8) = some rd) ∧
      ((∀ y ∈ (s.rdRange c re).take (4 * keys), y ≠ 0xFF#8))) ∧
    (∃ s : State, ∃ c : Nat, ∃ dst : Nat, ∃ srcs : List Nat, ∃ d : Desc, ∃ r : Running, ∃ rs : List Rng, ∃ rd : Rng, (Heads s c d r rs [rd]) ∧ 256 ≤ c ∧
      fld d.w0 6 0 = 0x32 ∧ (srcs.mapM (fun w => s.mcRange c w 66) = some rs) ∧ s.mcRange c dst 66 = some rd ∧
      ((∀ x ∈ rs, Partial.reserved (s.rdRange c x) = false))) ∧
    (∃ s : State, ∃ c : Nat, ∃ dst : Nat, ∃ srcs : List Nat, ∃ d : Desc, ∃ r : Running, ∃ rs : List Rng, ∃ rd : Rng, (Heads s c d r rs [rd]) ∧ 256 ≤ c ∧
      fld d.w0 6 0 = 0x32 ∧ (srcs.mapM (fun w => s.mcRange c w 66) = some rs) ∧ s.mcRange c dst 64 = some rd ∧
      ((∀ x ∈ rs, Partial.reserved (s.rdRange c x) = false))) ∧
    (∃ s : State, ∃ c : Nat, ∃ stream : Nat, ∃ src : Nat, ∃ count : Nat, ∃ dst : Nat, ∃ d : Desc, ∃ r : Running, ∃ a : Rng, ∃ b : Rng, ∃ x : SmpNow, (Heads s c d r [a] [b]) ∧ 256 ≤ c ∧ fld d.w0 6 0 = 0x33 ∧ s.mcRange c src (cdiv count 2) = some a ∧ (s.stream stream).settings = some x ∧ (let k := if isZero x.sampler.temp then 1 else if x.sampler.topK = 0 then 1024 else x.sampler.topK
    (s.mcRange c dst (1 + min k count) = some b))) ∧
    (∃ s : State, ∃ c : Nat, ∃ stream : Nat, ∃ d : Desc, (s.core c).fetched = some d ∧ fld d.w0 6 0 = 0x33 ∧ (s.stream stream).settings = none) ∧
    (∃ s : State, ∃ c : Nat, ∃ d : Desc, ∃ r : Running, ∃ a : Rng, ∃ ws : List Rng, (Heads s c d r [a] ws) ∧ fld d.w0 6 0 = 0x34 ∧ bitsOf d.func 4 3 = 0 ∧ d.w2 = 0 ∧ s.rangeOf c d.w1 d.len = some a ∧ a.space ≠ 1 ∧ a.isOb = false ∧ (let k := bitsOf d.func 2 0
    let n := replyWords (s.rdRange c a)
    (((n = 0 ∨ spaceOf d.w3 = 3) ∧ ws = [] ∨
       n ≠ 0 ∧ spaceOf d.w3 ≠ 3 ∧ ∃ b, s.dstRange c d.w3 n true = some b ∧ b.space ≠ 1 ∧ ws = [b])) ∧
         ((n = 0 → (kvHdr (s.rdRange c a)).cmd = 2 → d.w3 = 0)) ∧ s.coreRegion c = s.epRegion (epStack k))) :=
  ⟨⟨(atHead 256 (aDesc 0x30 0 1 0 0 0)).wrMem (coreMemBase 0 + 128) [127], 256, 0xC0000000, 0xC0000000, 0xC8000010, 0xC8000010, 0xC8000010, 8,
    aDesc 0x30 0 1 0 0 0, aRun, { space := 2, start := 55340232221128654848, words := 16 },
    { space := 2, start := 55340232221128654848, words := 16 }, mcRng 16 1, mcRng 16 1, mcRng 16 1, by decide +kernel⟩,
   ⟨(atHead 256 (aDesc 0x31 0 1 0 0 0)).wrMem (coreMemBase 0 + 128) [0, 0, 0x80, 0x3F], 256, 0xC0000000, 0xC0000000, 0xC8000010, 8,
    aDesc 0x31 0 1 0 0 0, aRun, { space := 2, start := 55340232221128654848, words := 4 }, { space := 2, start := 55340232221128654848, words := 4 },
    mcRng 16 3, by decide +kernel⟩,
   ⟨atHead 256 (aDesc 0x32 0 1 0 0 0), 256, 0xC8000010, [0xC8000000, 0xC8000100], aDesc 0x32 0 1 0 0 0, aRun,
    [{ space := 2, start := 36893488147419103232, words := 66 }, { space := 2, start := 36893488147419105280, words := 66 }],
    { space := 2, start := 36893488147419103360, words := 66 }, by decide +kernel⟩,
   ⟨atHead 256 (aDesc 0x32 0 1 0 0 0), 256, 0xC8000010, [0xC8000000, 0xC8000100], aDesc 0x32 0 1 0 0 0, aRun,
    [{ space := 2, start := 36893488147419103232, words := 66 }, { space := 2, start := 36893488147419105280, words := 66 }],
    { space := 2, start := 36893488147419103360, words := 64 }, by decide +kernel⟩,
   ⟨(atHead 256 (aDesc 0x33 0 1 0 0 0)).wrMem (coreMemBase 0 + 128) [0, 0, 0x80, 0x3F, 0, 0, 0x80, 0x40], 256, 0, 0xC8000010, 2, 0xC8000030,
    aDesc 0x33 0 1 0 0 0, aRun, mcRng 16 1, mcRng 48 2, { sampler := Sampler.default, mask := none }, by decide +kernel⟩,
   ⟨(atHead 256 (aDesc 0x33 0 1 0 0 0)).setStream 0 { Stream.free with maskMode := 3 }, 256, 0, aDesc 0x33 0 1 0 0 0, by decide +kernel⟩,
   ⟨(atHead 256 (aDesc 0x34 2 8 0xC8000010 0 0)).wrMem (coreMemBase 0 + 128) [2], 256, aDesc 0x34 2 8 0xC8000010 0 0, aRun, mcRng 16 8, [],
    by decide +kernel⟩⟩

/-- The hypotheses of CoreMemoriesAreKept can be met, clause by clause. -/
theorem witness_CoreMemoriesAreKept :
    (∃ s : State, ∃ f : Nat, ∃ i : Nat, ∃ g : Nat, g < 8 ∧ i < 256 ∧ s.mayWrite f (shellRedgrp i g) = true ∧ ∃ lo : Nat, (lo ∈ [0, 5, 10, 15])) ∧
    (∃ s : State, ∃ f : Nat, ∃ i : Nat, ∃ g : Nat, g < 8 ∧ i < 256 ∧ s.mayWrite f (shellRedgrp i g) = true) ∧
    (∃ s : State, ∃ f : Nat, ∃ i : Nat, ∃ g : Nat, ∃ v : Word, g < 8 ∧ i < 256 ∧ s.mayWrite f (shellRedgrp i g) = true ∧ bit v 30 = true ∧ (let off := shellRedgrp i g
    let w := (writeFields (regFields off) (s.rd off) v).1
    ((s.stopeRegion i = none ∨ groupRoot w ∉ groupStopes w ∨ ∃ x ∈ groupStopes w, s.stopeRegion x ≠ s.stopeRegion i)))) ∧
    (∃ s : State, ∃ f : Nat, ∃ i : Nat, ∃ g : Nat, ∃ v : Word, g < 8 ∧ i < 256 ∧ s.mayWrite f (shellRedgrp i g) = true ∧ (let off := shellRedgrp i g
    let w := (writeFields (regFields off) (s.rd off) v).1
    ((bit v 30 = true → (∃ n, s.stopeRegion i = some n) ∧ groupRoot w ∈ groupStopes w ∧
       ∀ x ∈ groupStopes w, s.stopeRegion x = s.stopeRegion i)))) ∧
    (∃ s : State, ∃ f : Nat, ∃ c : Nat, c < 272 ∧ s.mayWrite f (coreProt c) = true) ∧
    (∃ s : State, ∃ c : Nat, ∃ k : Nat, ((s.core c).reprot.find? (fun r => decide (16 ≤ r) == decide (16 ≤ k)) = some k)) ∧
    (∃ s : State, ∃ f : Nat, ∃ m : Nat, ∃ half : Nat, ∃ v : Word, m < 16 ∧ half < 2 ∧
      (s.mayWrite f (if half = 0 then mergePoolGrantLo m else mergePoolGrantHi m) = true) ∧
      ((∀ g x, g < 32 → x < 16 → bit v g = true → s.granted x (32 * half + g) = true → s.coreRegion (256 + x) = s.coreRegion (256 + m)))) ∧
    (∃ s : State, ∃ f : Nat, ∃ m : Nat, ∃ half : Nat, ∃ g : Nat, ∃ x : Nat, ∃ v : Word, m < 16 ∧ half < 2 ∧ g < 32 ∧ x < 16 ∧
      (s.mayWrite f (if half = 0 then mergePoolGrantLo m else mergePoolGrantHi m) = true) ∧ bit v g = true ∧ (s.granted x (32 * half + g) = true) ∧
      (s.coreRegion (256 + x) ≠ s.coreRegion (256 + m))) ∧
    (∃ s : State, ∃ f : Nat, ∃ m : Nat, ∃ half : Nat, m < 16 ∧ half < 2 ∧
      (s.mayWrite f (if half = 0 then mergePoolProtLo m else mergePoolProtHi m) = true)) ∧
    (∃ s : State, ∃ f : Nat, ∃ m : Nat, ∃ half : Nat, m < 16 ∧ half < 2 ∧ (s.mayWrite f (if half = 0 then mergePoolRoLo m else mergePoolRoHi m) = true)) ∧
    (∃ s : State, ∃ c : Nat, ∃ w : Nat, ∃ d : Desc, ∃ r : Running, ((s.core c).rerun = some (d, w)) ∧ (s.core c).run = some r) ∧
    (∃ s : State, ∃ c : Nat, ∃ i : Issued, ∃ l : Launch, (s.core c).rerun = none ∧ (s.lostLaunch c = some (i, l)) ∧ (s.stope c).ref = .ready) ∧
    (∃ s : State, ∃ c : Nat, ∃ word : Nat, (bit (s.rd (coreBase c + 0x100)) 0 = true) ∧
      ((s.memInUse c = false ∨ (s.core c).scrubLast + (if c < 256 then 50000 else 25000) ≤ s.now)) ∧ s.nextCorrect c (s.core c).scrubPos = some word) ∧
    (∃ s : State, ∃ f : Nat, ∃ c : Nat, (s.mayWrite f (coreBase c + 0x100) = true)) ∧
    (∃ s : State, ∃ c : Nat, ∃ r : Running, (((s.core c).run.toList ++ (s.core c).finishing).find?
      (fun r => !r.watched && decide (r.started + r.step.bound + fld (s.rd assayWatchMargin) 15 0 * 1000 ≤ s.now)) = some r)) :=
  ⟨⟨small.wr (nocGeom 0) 0, 0, 0, 0, by decide +kernel, by decide +kernel, by decide +kernel, 0, by decide +kernel⟩,
   ⟨small.wr (nocGeom 0) 0, 0, 0, 0, by decide +kernel⟩,
   ⟨small.wr (nocGeom 0) 0, 0, 0, 0, 0x40000400, by decide +kernel⟩,
   ⟨small.wr (nocGeom 0) 0, 0, 0, 0, 0x00000400, by decide +kernel, by decide +kernel, by decide +kernel, fun h => absurd h (by decide +kernel)⟩,
   ⟨small.wr (nocGeom 0) 0, 0, 0, by decide +kernel⟩,
   ⟨coreWith 0 (fun t => { t with reprot := [3] }), 0, 3, by decide +kernel⟩,
   ⟨small.wr (nocGeom 0) 0, 0, 0, 0, 0x40000400, by decide +kernel, by decide +kernel, by decide +kernel, fun g x hg hx => (show ∀ g < 32, ∀ x < 16,
    bit 0x40000400 g = true → (small.wr (nocGeom 0) 0).granted x (32 * 0 + g) = true → (small.wr (nocGeom 0) 0).coreRegion (256 + x) = (small.wr (nocGeom 0) 0).coreRegion (256 + 0) from by decide +kernel) g hg x hx⟩,
   ⟨(small.wr (nocEdge 0) 0x1FF).wr (mergePoolGrantLo 1) 1, 0, 0, 0, 0, 1, 1, by decide +kernel⟩,
   ⟨small.wr (nocGeom 0) 0, 0, 0, 0, by decide +kernel⟩,
   ⟨small.wr (nocGeom 0) 0, 0, 0, 0, by decide +kernel⟩,
   ⟨coreWith 0 (fun t => { t with rerun := some (aDesc 3 0 1 0 0 0, spBase 0 / 8), run := some aRun }), 0, spBase 0 / 8, aDesc 3 0 1 0 0 0, aRun,
    by decide +kernel⟩,
   ⟨(withStope (fun t => { t with ref := .ready, launches := [{ aLaunch with ended := true, status := causeRefLost }] })).updCore 0 fun t => { t with issued := [anIssued (.launch 1)] },
    0, anIssued (.launch 1), { aLaunch with ended := true, status := causeRefLost }, by decide +kernel⟩,
   ⟨small.wr (nocGeom 0) 0, 0, 0, by decide +kernel⟩,
   ⟨small.wr (nocGeom 0) 0, 0, 0, by decide +kernel⟩,
   ⟨coreWith 0 (fun t => { t with rerun := some (aDesc 3 0 1 0 0 0, spBase 0 / 8), run := some aRun }), 0, aRun, by decide +kernel⟩⟩

/-- The hypotheses of StackCommandsAct can be met, clause by clause. -/
theorem witness_StackCommandsAct :
    (∃ s : State, ∃ k : Nat, ∃ c : KvCmd, ∃ rest : List KvCmd, ∃ cmd : Instr, (Table.get [] s.kv.kvq k = c :: rest) ∧ ((cmd = .attend k ∧
      (kvHdr c.bytes).cmd ≠ 2 ∨ cmd = .append k ∧ (kvHdr c.bytes).cmd ≠ 1)) ∧ s.kvCheck k c ≠ 0) ∧
    (∃ s : State, ∃ k : Nat, ∃ c : KvCmd, ∃ rest : List KvCmd, (Table.get [] s.kv.kvq k = c :: rest) ∧ (kvHdr c.bytes).cmd = 1 ∧ s.kvCheck k c = 0 ∧
      ((∀ p ∈ s.pagesRead k (kvHdr c.bytes), s.pageLost p.2 = false)) ∧ s.scaleReserved (kvHdr c.bytes) (s.pagesRead k (kvHdr c.bytes)) = false) ∧
    (∃ s : State, ∃ k : Nat, ∃ c : KvCmd, ∃ rest : List KvCmd, (Table.get [] s.kv.kvq k = c :: rest) ∧ (kvHdr c.bytes).cmd = 1 ∧ s.kvCheck k c = 0 ∧
      ((∃ p ∈ s.pagesRead k (kvHdr c.bytes), s.pageLost p.2 = true))) ∧
    (∃ s : State, ∃ k : Nat, ∃ c : KvCmd, ∃ rest : List KvCmd, (Table.get [] s.kv.kvq k = c :: rest) ∧ (kvHdr c.bytes).cmd = 2 ∧ s.kvCheck k c = 0 ∧ (let h := kvHdr c.bytes
    let p := s.pte (pteKey h.stream h.layer h.head (h.first / 256))
    p.valid = true ∧ p.spilled = false ∧ s.pageLost p = false ∧ s.frameRef p.stack p.frame ≤ 1 ∧ p.frame < framesPerStack)) ∧
    (∃ s : State, ∃ k : Nat, ∃ c : KvCmd, ∃ rest : List KvCmd, (Table.get [] s.kv.kvq k = c :: rest) ∧ (kvHdr c.bytes).cmd = 2 ∧ s.kvCheck k c = 0 ∧ (let h := kvHdr c.bytes
    let key := pteKey h.stream h.layer h.head (h.first / 256)
    let v := if (s.pte key).spilled then (s.kvPop k rest).reloadPage c.region key else s.kvPop k rest
    let u := v.ownPage c.region key
    let p := u.2.pte key
    (v.pte key).spilled = false ∧ (((v.pte key).valid = true → v.pageLost (v.pte key) = false)) ∧ u.1 = true ∧ p.frame < framesPerStack)) ∧
    (∃ s : State, ∃ k : Nat, ∃ j : Nat, ∃ f : Nat, ∃ c : KvCmd, ∃ rest : List KvCmd, (Table.get [] s.kv.kvq k = c :: rest) ∧ (kvHdr c.bytes).cmd = 2 ∧ s.kvCheck k c = 0 ∧ (let h := kvHdr c.bytes
    let key := pteKey h.stream h.layer h.head (h.first / 256)
    let pref := s.preferred (keyLayer key) (keyHead key) (keyPage key)
    (s.pte key).valid = false ∧ (s.pte key).spilled = false ∧ (s.chooseFrame c.region pref.1 pref.2 = some (j, f)))) ∧
    (∃ s : State, ∃ k : Nat, ∃ c : KvCmd, ∃ rest : List KvCmd, (Table.get [] s.kv.kvq k = c :: rest) ∧ (kvHdr c.bytes).cmd = 2 ∧ s.kvCheck k c = 0 ∧ (let h := kvHdr c.bytes
    let key := pteKey h.stream h.layer h.head (h.first / 256)
    (s.pte key).spilled = false ∧ (((s.pte key).valid = true → s.pageLost (s.pte key) = false)) ∧ ((s.kvPop k rest).ownPage c.region key).1 = false)) ∧
    (∃ src : Nat, ∃ dst : Nat, src < framesPerStack ∧ dst < framesPerStack ∧ ∃ by_ : Nat, (by_ = epAlloc ∨ by_ = epCage)) ∧
    (∃ by_ : Nat, by_ ≠ epAlloc ∧ by_ ≠ epCage) ∧
    (∃ s : State, ∃ c : Nat, ∃ idx : Nat, ∃ x : Issued, ∃ r : KvReply, (s.kv.replies.find? (fun r => r.core == c && r.index == idx) = some r) ∧ (let waits := fun (i : Issued) => i.await == .kvcmd && i.desc.index == idx && i.step == r.step
    ((s.core c).issued.find? waits = some x) ∧ r.bytes = [])) ∧
    (∃ s : State, ∃ c : Nat, ∃ idx : Nat, ∃ x : Issued, ∃ r : KvReply, (s.kv.replies.find? (fun r => r.core == c && r.index == idx) = some r) ∧ (let waits := fun (i : Issued) => i.await == .kvcmd && i.desc.index == idx && i.step == r.step
    ((s.core c).issued.find? waits = some x) ∧ ∃ b : Rng, spaceOf r.dst ≠ 3 ∧ (s.rangeOf c r.dst (r.bytes.length / 8) = some b) ∧ b.space ≠ 1 ∧
      (r.bytes.length = 8 * b.words) ∧ r.bytes ≠ [])) ∧
    (∃ s : State, ∃ c : Nat, ∃ idx : Nat, ∃ x : Issued, ∃ r : KvReply, (s.kv.replies.find? (fun r => r.core == c && r.index == idx) = some r) ∧ (let waits := fun (i : Issued) => i.await == .kvcmd && i.desc.index == idx && i.step == r.step
    ((s.core c).issued.find? waits = some x) ∧ spaceOf r.dst = 3 ∧ r.bytes ≠ [])) ∧
    (∃ s : State, ∃ c : Nat, ∃ idx : Nat, ∃ r : KvReply, (s.kv.replies.find? (fun r => r.core == c && r.index == idx) = some r) ∧
      ((∀ i ∈ (s.core c).issued, i.await = .kvcmd → i.desc.index = idx → i.step ≠ r.step))) :=
  ⟨⟨kvQueued kvSmall 7 1, 0, aKvCmd 7 1, [], .attend 0, by decide +kernel⟩,
   ⟨kvQueued kvPage 1 1, 0, aKvCmd 1 1, [], by decide +kernel⟩,
   ⟨((kvQueued kvPage 1 1).wr (stackPcFail 0) 1).updStream 0 fun t => { t with committed := 5, pos := aMap }, 0, aKvCmd 1 1, [], by decide +kernel⟩,
   ⟨kvQueued kvPage 2 2, 0, aKvCmd 2 2, [], by decide +kernel⟩,
   ⟨kvQueued kvPage 2 2, 0, aKvCmd 2 2, [], by decide +kernel⟩,
   ⟨kvQueued kvSmall 2 2, 0, 0, 0, aKvCmd 2 2, [], by decide +kernel⟩,
   ⟨let s := kvQueued kvSmall 2 2; { s with hf := { s.hf with trained := 0 } }, 0, aKvCmd 2 2, [], by decide +kernel⟩,
   ⟨64, 65, by decide +kernel, by decide +kernel, epAlloc, by decide +kernel⟩,
   ⟨0, by decide +kernel⟩,
   ⟨kvWaits [], 256, 0, anIssued .kvcmd, { core := 256, step := 0, index := 0, cmd := [], dst := 0xC8000000, bytes := [], cause := 0 },
    by decide +kernel⟩,
   ⟨kvWaits (List.replicate 8 7), 256, 0, anIssued .kvcmd,
    { core := 256, step := 0, index := 0, cmd := [], dst := 0xC8000000, bytes := List.replicate 8 7, cause := 0 }, by decide +kernel,
    by decide +kernel, mcRng 0 1, by decide +kernel⟩,
   ⟨let s := kvWaits []; { s with kv := { s.kv with replies := [{ core := 256, step := 0, index := 0, cmd := [], dst := 0x60000000, bytes := List.replicate 8 7, cause := 0 }] } },
    256, 0, anIssued .kvcmd, { core := 256, step := 0, index := 0, cmd := [], dst := 0x60000000, bytes := List.replicate 8 7, cause := 0 },
    by decide +kernel⟩,
   ⟨(kvWaits []).setCore 256 Core.reset, 256, 0, { core := 256, step := 0, index := 0, cmd := [], dst := 0xC8000000, bytes := [], cause := 0 },
    by decide +kernel⟩⟩

/-- The hypotheses of PagesMoveWithTheirStreams can be met, clause by clause. -/
theorem witness_PagesMoveWithTheirStreams :
    (∃ s : State, ∃ f : Nat, ∃ v : Word, ∃ cmd : Instr, ∃ free : Bool, ((cmd, free) ∈ [(.posmapCommit f v, bit v 1), (.freeDead f v, true)]) ∧ s.mayWrite f kvpPosmapCmd = true ∧ bit v 0 = true ∧ (let st := fld (s.rd kvpPosmapSel) 19 0
    f ≠ 0 ∧ (s.stream st).state ≠ .free ∧ s.vfRegion f ≠ some (s.stream st).region)) ∧
    (∃ s : State, ∃ f : Nat, ∃ v : Word, ∃ cmd : Instr, ∃ free : Bool, ((cmd, free) ∈ [(.posmapCommit f v, bit v 1), (.freeDead f v, true)]) ∧ s.mayWrite f kvpPosmapCmd = true ∧ bit v 0 = true ∧ (let st := fld (s.rd kvpPosmapSel) 19 0
    let m := s.stagedMap st
    ((f = 0 ∨ (s.stream st).state = .free ∨ s.vfRegion f = some (s.stream st).region)) ∧
      ((s.isIngress = false ∨ streamOk st = false ∨ (s.stream st).state = .free ∨ m.1.ok m.2 = false)))) ∧
    (∃ s : State, ∃ f : Nat, ∃ v : Word, ∃ cmd : Instr, ∃ free : Bool, ((cmd, free) ∈ [(.posmapCommit f v, bit v 1), (.freeDead f v, true)]) ∧ s.mayWrite f kvpPosmapCmd = true ∧ bit v 0 = true ∧ (let st := fld (s.rd kvpPosmapSel) 19 0
    let m := s.stagedMap st
    ((f = 0 ∨ s.vfRegion f = some (s.stream st).region)) ∧ s.isIngress = true ∧ streamOk st = true ∧ (s.stream st).state ≠ .free ∧ m.1.ok m.2 = true ∧
      (s.stream st).flying.isSome = true)) ∧
    (∃ s : State, ∃ f : Nat, ∃ v : Word, ∃ cmd : Instr, ∃ free : Bool, ((cmd, free) ∈ [(.posmapCommit f v, bit v 1), (.freeDead f v, true)]) ∧ s.mayWrite f kvpPosmapCmd = true ∧ bit v 0 = true ∧ (let st := fld (s.rd kvpPosmapSel) 19 0
    let m := s.stagedMap st
    ((f = 0 ∨ s.vfRegion f = some (s.stream st).region)) ∧ s.isIngress = true ∧ streamOk st = true ∧ (s.stream st).state ≠ .free ∧ m.1.ok m.2 = true ∧
      (s.stream st).flying = none)) ∧
    (∃ s : State, ∃ i : Nat, ∃ p : PendMap, ((s.kv.pending.find? fun p => p.stream == i) = some p) ∧ ((s.stream i).flying.isSome = true ∨ p.sent = false)) ∧
    (∃ s : State, ∃ i : Nat, ∃ p : PendMap, ((s.kv.pending.find? fun p => p.stream == i) = some p) ∧ (s.stream i).flying = none ∧ p.sent = true) ∧
    (∃ s : State, ∃ i : Nat, s.isIngress = true ∧ (s.stream i).state ≠ .free) ∧
    (∃ s : State, ∃ i : Nat, s.isIngress = false ∧ (s.stream i).state ≠ .free) ∧
    (∃ s : State, ∃ i : Nat, s.isIngress = false ∧ (s.stream i).state ≠ .free) ∧
    (∃ s : State, ∃ i : Nat, s.isIngress = false ∧ (s.stream i).state ≠ .free) ∧
    (∃ s : State, ∃ i : Nat, s.isIngress = false ∧ (s.stream i).state ≠ .free) ∧
    (∃ s : State, ∃ i : Nat, s.isIngress = false ∧ (s.stream i).state ≠ .free) ∧
    (∃ s : State, ∃ i : Nat, s.isIngress = false ∧ (s.stream i).state ≠ .free) ∧
    (∃ s : State, ∃ i : Nat, s.isIngress = false ∧ (s.stream i).state ≠ .free) ∧
    (∃ s : State, ∃ i : Nat, ∃ n : Nat, ∃ y : Node, ∃ tokens : List Nat, s.isIngress = false ∧ (s.stream i).state ≠ .free ∧ s.pnode n = some y ∧
      tokens.length = 256 ∧ y.depth < 0x1000000 ∧ ((∀ fr ∈ y.frames, fr.1 < 2048 ∧
      s.frameRef (fr.2 / 0x200000) (fr.2 % 0x200000) + y.frames.length < 65535))) ∧
    (∃ s : State, ∃ i : Nat, s.isIngress = false ∧ (s.stream i).state = .free) ∧
    (∃ s : State, s.isIngress = false) ∧
    (∃ s : State, ∃ n : Nat, ∃ x : Node, s.isIngress = false ∧ s.pnode n = some x ∧ ((s.kv.nodes.map Prod.fst).Pairwise (· < ·))) ∧
    (∃ s : State, s.isIngress = true) ∧
    (∃ s : State, ∃ src : Nat, ∃ d : Decision, ((s.isIngress = true ∧ (∀ i n ts smp g, d ≠ .commit i n ts smp g) ∧ (∀ v, d ≠ .view v) ∨
      s.isIngress = false ∧ (src ≠ s.wnd.job.ingressDev ∨
        ∃ i, d.stream = some i ∧ (s.stream i).state = .free ∧ ∀ a b c e f, d ≠ .opened i a b c e f)))) ∧
    (∃ s : State, ((bit (s.rd kvpCtrl) 0 = false ∨ fld (s.rd kvpLowWater) 23 0 ≤ s.totalFree ∧ s.kv.spilling = false))) ∧
    (∃ s : State, bit (s.rd kvpCtrl) 0 = true ∧ ((s.totalFree < fld (s.rd kvpLowWater) 23 0 ∨ s.kv.spilling = true))) ∧
    (∃ s : State, ∃ key : Nat, bit (s.rd kvpCtrl) 0 = true ∧ s.totalFree < fld (s.rd kvpLowWater) 23 0 ∧
      fld (s.rd kvpLowWater) 23 0 < fld (s.rd kvpHighWater) 23 0 ∧ s.spillCandidates = [key] ∧ s.spillTarget = some 2) ∧
    (∃ s : State, ∃ i : Nat, ∃ key : Nat, ∃ k : Nat, ∃ f : Nat, Table.wf Pte.none s.kv.ptes = true ∧ (((s.streamPtes i).filter fun e => e.2.spilled) = [(key, s.pte key)]) ∧ (s.pte key).spilled = true ∧ (let pref := s.preferred (keyLayer key) (keyHead key) (keyPage key)
    (s.chooseFrame (s.stream i).region pref.1 pref.2 = some (k, f)) ∧ f < framesPerStack)) ∧
    (∃ s : State, ∃ k : Nat, ∃ pc : Nat, k < 8 ∧ pc < 32 ∧ s.streamsOn k pc = []) ∧
    (∃ k : Nat, ∃ pc : Nat, k < 8 ∧ pc < 32) ∧
    (∃ k : Nat, ∃ pc : Nat, k < 8 ∧ pc < 32) ∧
    (∃ s : State, ∃ i : Nat, (s.stream i).state ≠ .free) ∧
    (∃ s : State, ∃ i : Nat, (s.stream i).state = .free) ∧
    (∃ s : State, ∃ k : Nat, ∃ pc : Nat, ∃ i : Nat, ∃ key : Nat, ∃ j : Nat, ∃ f : Nat, (s.stream i).state ≠ .free ∧ (s.streamPtes i = [(key, s.pte key)]) ∧ (let p := s.pte key
    let pref := s.preferred (keyLayer key) (keyHead key) (keyPage key)
    p.valid = true ∧ p.spilled = false ∧ p.stagedOnly = false ∧ p.stack = k ∧ (p.frame % 32 = pc) ∧
      (s.chooseFrame (s.stream i).region pref.1 pref.2 = some (j, f)) ∧ f < framesPerStack)) :=
  ⟨⟨kvSmall, 5, 3, .posmapCommit 5 3, true, by decide +kernel⟩,
   ⟨kvSmall, 0, 3, .freeDead 0 3, true, by decide +kernel⟩,
   ⟨let s := kvSmall.updStream 0 (fun t => { t with flying := some aFly }); { s with kv := { s.kv with stagedMaps := [(0, { words := [(1, 0xFFFFFFFF), (64, 0x461C4000), (65, 0x100)] })] } },
    0, 3, .posmapCommit 0 3, true, by decide +kernel⟩,
   ⟨{ kvSmall with kv := { kvSmall.kv with stagedMaps := [(0, { words := [(1, 0xFFFFFFFF), (64, 0x461C4000), (65, 0x100)] })] } }, 0, 3, .freeDead 0 3,
    true, by decide +kernel⟩,
   ⟨let s := kvSmall.updStream 0 (fun t => { t with flying := some aFly }); { s with kv := { s.kv with pending := [{ stream := 0, map := aMap, free := true, sent := false }] } },
    0, { stream := 0, map := aMap, free := true, sent := false }, by decide +kernel⟩,
   ⟨{ kvPage with kv := { kvPage.kv with pending := [{ stream := 0, map := aMap, free := true, sent := true }] } }, 0,
    { stream := 0, map := aMap, free := true, sent := true }, by decide +kernel⟩,
   ⟨kvSmall, 0, by decide +kernel⟩,
   ⟨{ kvSmall with wnd := { kvSmall.wnd with roles := 6 } }, 0, by decide +kernel⟩,
   ⟨{ kvSmall with wnd := { kvSmall.wnd with roles := 6 } }, 0, by decide +kernel⟩,
   ⟨{ kvSmall with wnd := { kvSmall.wnd with roles := 6 } }, 0, by decide +kernel⟩,
   ⟨{ kvSmall with wnd := { kvSmall.wnd with roles := 2 } }, 0, by decide +kernel⟩,
   ⟨{ kvSmall with wnd := { kvSmall.wnd with roles := 2 } }, 0, by decide +kernel⟩,
   ⟨{ kvSmall with wnd := { kvSmall.wnd with roles := 6 } }, 0, by decide +kernel⟩,
   ⟨{ kvSmall with wnd := { kvSmall.wnd with roles := 6 } }, 0, by decide +kernel⟩,
   ⟨{ withNode with wnd := { kvSmall.wnd with roles := 2 } }, 0, 0, aNode, List.replicate 256 1, by decide +kernel⟩,
   ⟨{ kvSmall with wnd := { kvSmall.wnd with roles := 6 } }, 5, by decide +kernel⟩,
   ⟨{ kvSmall with wnd := { kvSmall.wnd with roles := 2 } }, by decide +kernel⟩,
   ⟨{ withNode with wnd := { kvSmall.wnd with roles := 2 } }, 0, aNode, by decide +kernel⟩,
   ⟨serving, by decide +kernel⟩,
   ⟨kvSmall, 0, .closed 0, .inl ⟨by decide +kernel, by rintro _ _ _ _ _ ⟨⟩, by rintro _ ⟨⟩⟩⟩,
   ⟨kvSmall, by decide +kernel⟩,
   ⟨((({ small with regs := [] }.setStream 0 { Stream.free with state := .paused }).setPte 0 (aPage 0 64)).setFrameRef 0 64 1).wr wndStoreEp 0x1000,
    by decide +kernel⟩,
   ⟨((({ small with regs := [] }.setStream 0 { Stream.free with state := .paused }).setPte 0 (aPage 0 64)).setFrameRef 0 64 1).wr wndStoreEp 0x1000, 0,
    by decide +kernel⟩,
   ⟨kvSmall.setPte 0 { aPage 0 64 with spilled := true, handle := 1 }, 0, 0, 0, 0, by decide +kernel⟩,
   ⟨kvSmall, 5, 5, by decide +kernel⟩,
   ⟨5, 5, by decide +kernel⟩,
   ⟨5, 5, by decide +kernel⟩,
   ⟨kvSmall, 0, by decide +kernel⟩,
   ⟨kvSmall, 5, by decide +kernel⟩,
   ⟨kvPage, 0, 0, 0, 0, 0, 0, by decide +kernel⟩⟩

/-- The hypotheses of PrefixNodesAct can be met, clause by clause. -/
theorem witness_PrefixNodesAct :
    (∃ s : State, ∃ u : State, ∃ i : Nat, ∃ d : Nat, ∃ toks : List Nat, let st := s.stream i
    let gen := s.genOf (s.streamBank st)
    let blocks := (fullBlocks st.history).take (st.committed / 256)
    let known := (s.walk gen false blocks noNode gen).1
    let parent := known.getLast?.getD noNode
    s.treeActive = true ∧ bit (s.rd pfxCtrl) 1 = true ∧ known.length = d ∧ (blocks[d]? = some toks) ∧ s.kv.nodes.length ≤ 16777215 ∧
      ((s.kv.nodes.length < s.nodeCap ∧ u = s) ∨
       (s.nodeCap ≤ s.kv.nodes.length ∧ ∃ v, s.evictionChoice = some v ∧ v ≠ parent ∧ u = s.evictNode v))) ∧
    (∃ s : State, ∃ i : Nat, let st := s.stream i
    let gen := s.genOf (s.streamBank st)
    let blocks := (fullBlocks st.history).take (st.committed / 256)
    let known := (s.walk gen false blocks noNode gen).1
    (s.treeActive = false ∨ bit (s.rd pfxCtrl) 1 = false ∨ known.length = blocks.length)) ∧
    (∃ s : State, ∃ i : Nat, let st := s.stream i
    let gen := s.genOf (s.streamBank st)
    let blocks := (fullBlocks st.history).take (st.committed / 256)
    let known := (s.walk gen false blocks noNode gen).1
    s.treeActive = true ∧ bit (s.rd pfxCtrl) 1 = true ∧ known.length ≠ blocks.length ∧ s.nodeCap ≤ s.kv.nodes.length ∧ s.evictionChoice = none) ∧
    (∃ s : State, ∃ i : Nat, let st := s.stream i
    let gen := s.genOf (s.streamBank st)
    let blocks := (fullBlocks st.history).take (st.committed / 256)
    let known := (s.walk gen false blocks noNode gen).1
    s.treeActive = true ∧ bit (s.rd pfxCtrl) 1 = true ∧ known.length ≠ blocks.length ∧ s.nodeCap ≤ s.kv.nodes.length ∧
      (s.evictionChoice = some (known.getLast?.getD noNode))) ∧
    (∃ s : State, ∃ n : Nat, ∃ x : Node, s.pnode n = some x) ∧
    (∃ s : State, ∃ n : Nat, ∃ x : Node, s.pnode n = some x ∧ ∃ f : Nat, s.mayWrite f pfxNodeCmd = true ∧ s.nodeSel = n) ∧
    (∃ s : State, s.pnode s.nodeSel = none) ∧
    (∃ s : State, ∃ f : Nat, s.mayWrite f pfxCtrl = true) ∧
    (∃ s : State, ((s.kv.nodes.map Prod.fst).Pairwise (· < ·))) ∧
    (∃ s : State, ∃ f : Nat, s.mayWrite f pfxNodeFind = true) ∧
    (∃ s : State, ∃ f : Nat, s.mayWrite f pfxCtrl = true ∧ bit (s.rd pfxCtrl) 0 = false ∧ s.totalFree < fld (s.rd pfxNodeFrames) 19 0) ∧
    (∃ s : State, ∃ f : Nat, s.mayWrite f pfxCtrl = true ∧ bit (s.rd pfxCtrl) 0 = false ∧ fld (s.rd pfxNodeFrames) 19 0 ≤ s.totalFree) ∧
    (∃ s : State, ∃ f : Nat, s.mayWrite f pfxCtrl = true ∧ bit (s.rd pfxCtrl) 0 = false) ∧
    (∃ s : State, ∃ f : Nat, s.mayWrite f pfxCtrl = true ∧ bit (s.rd pfxCtrl) 0 = true) ∧
    (∃ s : State, ∃ f : Nat, s.mayWrite f pfxCtrl = true) :=
  ⟨⟨treeSmall, treeSmall, 0, 0, List.replicate 256 7, by decide +kernel⟩,
   ⟨treeSmall, 1, by decide +kernel⟩,
   ⟨let s := treeSmall.wr pfxNodeFrames 0; { s with kv := { s.kv with nodeFrames := [] } }, 0, by decide +kernel⟩,
   ⟨let s := treeSmall.wr pfxNodeFrames 0; { s with kv := { s.kv with nodeFrames := [], nodes := [(noNode, { aNode with pinned := false })] } }, 0,
    by decide +kernel⟩,
   ⟨withNode, 0, aNode, by decide +kernel⟩,
   ⟨withNode, 0, aNode, by decide +kernel, 0, by decide +kernel⟩,
   ⟨treeSmall, by decide +kernel⟩,
   ⟨treeSmall, 0, by decide +kernel⟩,
   ⟨treeSmall, by decide +kernel⟩,
   ⟨treeSmall, 0, by decide +kernel⟩,
   ⟨small.wr pfxNodeFrames 9, 0, by decide +kernel⟩,
   ⟨withNode, 0, by decide +kernel⟩,
   ⟨withNode, 0, by decide +kernel⟩,
   ⟨treeSmall, 0, by decide +kernel⟩,
   ⟨treeSmall, 0, by decide +kernel⟩⟩

/-- The hypotheses of PartialsFoldAndScoresRotate can be met, clause by clause. -/
theorem witness_PartialsFoldAndScoresRotate :
    (∃ l : List Partial, ((∀ p ∈ l, p.empty = true → p = Partial.none))) ∧
    (∃ p : Partial, p.empty = true ∧ p.nan = false ∧ ∃ w : Word, (w ∈ p.finish)) ∧
    (∃ p : Partial, p.nan = true ∧ ∃ w : Word, (w ∈ p.finish)) :=
  ⟨⟨[Partial.none], by decide +kernel⟩,
   ⟨Partial.none, by decide +kernel, by decide +kernel, 0, by decide +kernel⟩,
   ⟨{ Partial.none with nan := true, o := [0] }, by decide +kernel, qnan, by decide +kernel⟩⟩

/-- The hypotheses of RingsTakeAndRefuse can be met, clause by clause. -/
theorem witness_RingsTakeAndRefuse :
    (∃ s : State, ∃ f : Nat, ∃ v : Word, s.mayWrite f ringDb = true ∧ (let r := fld v 19 0
    let tail := fld v 31 20
    let bad := (s.fn f).abiSel = 0 ∨ (r ≠ ctrlRing ∧ streamOk r = false)
    let code := if bad then rAbiMismatch else if s.ownsStream f r = false then rRegionViolation
       else if (s.ring r).size < (tail + 4096 - (s.ring r).head) % 4096 then rCapacity else 0
    code ≠ 0)) ∧
    (∃ s : State, ∃ f : Nat, ∃ v : Word, s.mayWrite f ringDb = true ∧ (let r := fld v 19 0
    let tail := fld v 31 20
    let bad := (s.fn f).abiSel = 0 ∨ (r ≠ ctrlRing ∧ streamOk r = false)
    let code := if bad then rAbiMismatch else if s.ownsStream f r = false then rRegionViolation
       else if (s.ring r).size < (tail + 4096 - (s.ring r).head) % 4096 then rCapacity else 0
    code = 0)) ∧
    (∃ s : State, ∃ r : Nat, ∃ it : Item, s.item r = some it ∧ it.kind = .malformed) ∧
    (∃ s : State, ∃ r : Nat, ∃ it : Item, s.item r = some it ∧ it.kind = .reserved) ∧
    (∃ s : State, ∃ r : Nat, ∃ it : Item, s.item r = some it ∧ it.kind = .ok) ∧
    (∃ s : State, ∃ f : Nat, ∃ v : Word, s.mayWrite f ringReset = true ∧ (let r := fld v 19 0
    let code := if r ≠ ctrlRing ∧ streamOk r = false then rAbiMismatch else if s.ownsStream f r = false then rRegionViolation else 0
    code ≠ 0)) ∧
    (∃ s : State, ∃ f : Nat, ∃ v : Word, s.mayWrite f ringReset = true ∧ (let r := fld v 19 0
    let code := if r ≠ ctrlRing ∧ streamOk r = false then rAbiMismatch else if s.ownsStream f r = false then rRegionViolation else 0
    code = 0)) ∧
    (∃ s : State, ∃ f : Nat, s.mayWrite f ringEvrReset = true) ∧
    (∃ s : State, ∃ f : Nat, s.mayWrite f ringEvrHead = true) ∧
    (∃ s : State, ∃ i : Nat, ∃ rec : Record, ∃ rest : List Record, ((s.evr i).held = rec :: rest) ∧ (s.evr i).roomy = true ∧ s.dmaOn (s.evr i).fn = true ∧
      ((∀ p ∈ s.wnd.streams, p.2.ringEvr = i → p.2.work = []))) ∧
    (∃ s : State, ∃ i : Nat, ∃ n : Nat, (s.evr i).oldest = some n ∧ (n + (s.evr i).time * 1000 ≤ s.now)) :=
  ⟨⟨small, 0, 0x00100000, by decide +kernel⟩,
   ⟨small.updFn 0 (fun t => { t with abiSel := 1 }), 0, 0x00100000, by decide +kernel⟩,
   ⟨submit (inState .idle) 0 [], 0, { anItem 0 [] with kind := .malformed }, by decide +kernel⟩,
   ⟨submit (inState .idle) 0x0D [], 0, { anItem 0x0D [] with kind := .reserved }, by decide +kernel⟩,
   ⟨submit (inState .idle) 6 [], 0, anItem 6 [], by decide +kernel⟩,
   ⟨submit (inState .idle) 0 [], 5, 0x00100000, by decide +kernel⟩,
   ⟨small, 0, 0x00100000, by decide +kernel⟩,
   ⟨small, 0, by decide +kernel⟩,
   ⟨small, 0, by decide +kernel⟩,
   ⟨small.setEvr 1 { EvRing.reset with en := true, held := [aRecord] }, 1, aRecord, [], by decide +kernel⟩,
   ⟨small.setEvr 1 { EvRing.reset with en := true, oldest := some 5 }, 1, 5, by decide +kernel⟩⟩

/-- The hypotheses of StreamCommandsAct can be met, clause by clause. -/
theorem witness_StreamCommandsAct :
    (∃ s : State, ∃ r : Nat, ∃ it : Item, s.item r = some it ∧ it.kind = .ok ∧ r ≠ ctrlRing ∧ (let x := s.stream r
    let c := it.arg 0x10 1
    it.op = 1 ∧ bitAt (it.arg 0x14 4) 20 = false ∧ x.state = .free ∧ (s.cls c).admitted = true ∧ s.classOpen c < (s.cls c).maxStreams)) ∧
    (∃ s : State, ∃ r : Nat, ∃ it : Item, s.item r = some it ∧ it.kind = .ok ∧ r ≠ ctrlRing ∧ (let x := s.stream r
    let c := it.arg 0x10 1
    ∃ p : Nat, it.op = 1 ∧ s.parentOf r it = some (some p) ∧ x.state = .free ∧ (s.cls c).admitted = true ∧ s.classOpen c < (s.cls c).maxStreams ∧
      (s.stream p).flying = none ∧ (s.stream p).cancelTag = none ∧ Table.wf Pte.none s.kv.ptes = true ∧
      ((∀ key ∈ s.sharedKeys p, (s.pte key).spilled = false ∧ s.frameRef (s.pte key).stack (s.pte key).frame < 60000)) ∧
      (((s.sharedKeys p).map fun key => ((s.pte key).stack, (s.pte key).frame)).Nodup))) ∧
    (∃ s : State, ∃ r : Nat, ∃ it : Item, s.item r = some it ∧ it.kind = .ok ∧ r ≠ ctrlRing ∧ (let x := s.stream r
    let c := it.arg 0x10 1
    ∃ p : Nat, it.op = 1 ∧ s.parentOf r it = some (some p) ∧ x.state = .free ∧ (s.cls c).admitted = true ∧ s.classOpen c < (s.cls c).maxStreams ∧
      ((s.stream p).flying.isSome = true ∨ (s.stream p).cancelTag.isSome = true))) ∧
    (∃ s : State, ∃ r : Nat, ∃ it : Item, s.item r = some it ∧ it.kind = .ok ∧ r ≠ ctrlRing ∧ (let x := s.stream r
    let c := it.arg 0x10 1
    ∃ p : Nat, it.op = 1 ∧ s.parentOf r it = some (some p) ∧ x.state = .free ∧ (s.cls c).admitted = true ∧ s.classOpen c < (s.cls c).maxStreams ∧ (s.stream p).flying = none ∧ (s.stream p).cancelTag = none ∧ (let w := s.updStream p fun y => { y with wantOpen := none }
    (((w.consume r it).openNow r c (it.arg 0x12 1) (bitAt (it.arg 0x11 1) 0) (some p)).streamPtes r).length < (w.sharedKeys p).length))) ∧
    (∃ s : State, ∃ r : Nat, ∃ it : Item, s.item r = some it ∧ it.kind = .ok ∧ r ≠ ctrlRing ∧ (let x := s.stream r
    let c := it.arg 0x10 1
    it.op = 1 ∧ (x.state ≠ .free ∨ (s.cls c).admitted = false ∨ (s.cls c).maxStreams ≤ s.classOpen c ∨ s.parentOf r it = none))) ∧
    (∃ s : State, ∃ r : Nat, ∃ it : Item, s.item r = some it ∧ it.kind = .ok ∧ r ≠ ctrlRing ∧ (let x := s.stream r
    let c := it.arg 0x10 1
    it.op = 1 ∧ (x.state ≠ .free ∨ (s.cls c).admitted = false ∨ (s.cls c).maxStreams ≤ s.classOpen c ∨ s.parentOf r it = none))) ∧
    (∃ s : State, ∃ r : Nat, ∃ it : Item, s.item r = some it ∧ it.kind = .ok ∧ r ≠ ctrlRing ∧ (let x := s.stream r
    it.op = 2 ∧ x.state ≠ .free ∧ x.flying = none ∧ x.cancelTag = none)) ∧
    (∃ s : State, ∃ r : Nat, ∃ it : Item, s.item r = some it ∧ it.kind = .ok ∧ r ≠ ctrlRing ∧ (let x := s.stream r
    it.op = 2 ∧ x.state ≠ .free ∧ (x.flying.isSome = true ∨ x.cancelTag.isSome = true))) ∧
    (∃ s : State, ∃ r : Nat, ∃ it : Item, s.item r = some it ∧ it.kind = .ok ∧ r ≠ ctrlRing ∧ (let x := s.stream r
    let resting := x.state = .paused ∨ x.state = .parking ∨ x.state = .parked ∨ x.state = .unparking
    let tokens := s.itemTokens it
    let noMatch := bitAt (it.arg 0x14 4) 0
    let pin := bitAt (it.arg 0x14 4) 1
    ∃ cmd : Instr, ∃ w : Work, ((it.op = 4 ∧ cmd = .appendTokens r ∧ w = .append tokens noMatch pin it.tag) ∨
         (it.op = 5 ∧ cmd = .generate r ∧ w = .generate (it.arg 0x10 4) it.tag)) ∧ (resting))) ∧
    (∃ s : State, ∃ r : Nat, ∃ it : Item, s.item r = some it ∧ it.kind = .ok ∧ r ≠ ctrlRing ∧ (let x := s.stream r
    let blocked := x.flying.isSome || x.cancelTag.isSome || s.evrBlocked x.ringEvr
    let live := x.state = .idle ∨ x.state = .active
    let tokens := s.itemTokens it
    let noMatch := bitAt (it.arg 0x14 4) 0
    let pin := bitAt (it.arg 0x14 4) 1
    ∃ cmd : Instr, ∃ w : Work, ((it.op = 4 ∧ cmd = .appendTokens r ∧ w = .append tokens noMatch pin it.tag) ∨
         (it.op = 5 ∧ cmd = .generate r ∧ w = .generate (it.arg 0x10 4) it.tag)) ∧ (live) ∧ blocked = true)) ∧
    (∃ s : State, ∃ r : Nat, ∃ it : Item, s.item r = some it ∧ it.kind = .ok ∧ r ≠ ctrlRing ∧ (let x := s.stream r
    let blocked := x.flying.isSome || x.cancelTag.isSome || s.evrBlocked x.ringEvr
    let live := x.state = .idle ∨ x.state = .active
    let tokens := s.itemTokens it
    let noMatch := bitAt (it.arg 0x14 4) 0
    let pin := bitAt (it.arg 0x14 4) 1
    ∃ cmd : Instr, ∃ w : Work, ((it.op = 4 ∧ cmd = .appendTokens r ∧ w = .append tokens noMatch pin it.tag) ∨
         (it.op = 5 ∧ cmd = .generate r ∧ w = .generate (it.arg 0x10 4) it.tag)) ∧ ∃ b : Nat, ∃ g : DWord, ∃ rest : List Work, (live) ∧
           blocked = false ∧ (x.work = .generate b g :: rest) ∧ x.generating = true ∧ x.emptyItem = none)) ∧
    (∃ s : State, ∃ r : Nat, ∃ it : Item, s.item r = some it ∧ it.kind = .ok ∧ r ≠ ctrlRing ∧ (let x := s.stream r
    let blocked := x.flying.isSome || x.cancelTag.isSome || s.evrBlocked x.ringEvr
    let live := x.state = .idle ∨ x.state = .active
    let noMatch := bitAt (it.arg 0x14 4) 0
    it.op = 4 ∧ (live) ∧ x.work = [] ∧ blocked = false ∧ (s.treeActive = false ∨ noMatch = true))) ∧
    (∃ s : State, ∃ r : Nat, ∃ it : Item, s.item r = some it ∧ it.kind = .ok ∧ r ≠ ctrlRing ∧ (let x := s.stream r
    let blocked := x.flying.isSome || x.cancelTag.isSome || s.evrBlocked x.ringEvr
    let live := x.state = .idle ∨ x.state = .active
    let noMatch := bitAt (it.arg 0x14 4) 0
    it.op = 4 ∧ (live) ∧ x.work = [] ∧ blocked = false ∧ s.treeActive = true ∧ noMatch = false ∧ s.matchHeld (s.streamBank x) = true)) ∧
    (∃ s : State, ∃ r : Nat, ∃ it : Item, s.item r = some it ∧ it.kind = .ok ∧ r ≠ ctrlRing ∧ (let x := s.stream r
    let blocked := x.flying.isSome || x.cancelTag.isSome || s.evrBlocked x.ringEvr
    let live := x.state = .idle ∨ x.state = .active
    let noMatch := bitAt (it.arg 0x14 4) 0
    it.op = 4 ∧ (live) ∧ x.work = [] ∧ blocked = false ∧ s.treeActive = true ∧ noMatch = false ∧ s.matchHeld (s.streamBank x) = false)) ∧
    (∃ s : State, ∃ r : Nat, ∃ it : Item, s.item r = some it ∧ it.kind = .ok ∧ r ≠ ctrlRing ∧ (let x := s.stream r
    let blocked := x.flying.isSome || x.cancelTag.isSome || s.evrBlocked x.ringEvr
    let live := x.state = .idle ∨ x.state = .active
    let begun : Stream := { x with state := .active, work := [.generate (it.arg 0x10 4) it.tag], generating := true, budget := it.arg 0x10 4, genTag := it.tag, genCount := 0, itemStart := s.now }
    it.op = 5 ∧ (live) ∧ x.work = [] ∧ blocked = false ∧ x.generating = false ∧ begun.emptyItem = none)) ∧
    (∃ s : State, ∃ r : Nat, ∃ it : Item, s.item r = some it ∧ it.kind = .ok ∧ r ≠ ctrlRing ∧ (let x := s.stream r
    let blocked := x.flying.isSome || x.cancelTag.isSome || s.evrBlocked x.ringEvr
    let live := x.state = .idle ∨ x.state = .active
    let begun : Stream := { x with state := .active, work := [.generate (it.arg 0x10 4) it.tag], generating := true, budget := it.arg 0x10 4, genTag := it.tag, genCount := 0, itemStart := s.now }
    it.op = 5 ∧ (live) ∧ x.work = [] ∧ blocked = false ∧ x.generating = false ∧ ∃ reason : Nat, begun.emptyItem = some reason)) ∧
    (∃ s : State, ∃ r : Nat, ∃ it : Item, s.item r = some it ∧ it.kind = .ok ∧ r ≠ ctrlRing ∧ (let x := s.stream r
    it.op = 6 ∧ (x.state = .idle ∨ (x.state = .active ∧ x.flying = none ∧ x.cancelTag = none)))) ∧
    (∃ s : State, ∃ r : Nat, ∃ it : Item, s.item r = some it ∧ it.kind = .ok ∧ r ≠ ctrlRing ∧ (let x := s.stream r
    it.op = 6 ∧ x.state = .active ∧ (x.flying.isSome = true ∨ x.cancelTag.isSome = true))) ∧
    (∃ s : State, ∃ r : Nat, ∃ it : Item, s.item r = some it ∧ it.kind = .ok ∧ r ≠ ctrlRing ∧ (let x := s.stream r
    let resting := x.state = .paused ∨ x.state = .parking ∨ x.state = .parked ∨ x.state = .unparking
    it.op = 6 ∧ (resting))) ∧
    (∃ s : State, ∃ r : Nat, ∃ it : Item, s.item r = some it ∧ it.kind = .ok ∧ r ≠ ctrlRing ∧ (let x := s.stream r
    it.op = 7 ∧ x.state = .paused ∧ x.work = [])) ∧
    (∃ s : State, ∃ r : Nat, ∃ it : Item, s.item r = some it ∧ it.kind = .ok ∧ r ≠ ctrlRing ∧ (let x := s.stream r
    let blocked := x.flying.isSome || x.cancelTag.isSome || s.evrBlocked x.ringEvr
    it.op = 7 ∧ x.state = .paused ∧ x.work ≠ [] ∧ blocked = true)) ∧
    (∃ s : State, ∃ r : Nat, ∃ it : Item, s.item r = some it ∧ it.kind = .ok ∧ r ≠ ctrlRing ∧ (let x := s.stream r
    let blocked := x.flying.isSome || x.cancelTag.isSome || s.evrBlocked x.ringEvr
    it.op = 7 ∧ x.state = .paused ∧ ∃ b : Nat, ∃ g : DWord, ∃ rest : List Work, (x.work = .generate b g :: rest) ∧ blocked = false ∧ (let y : Stream := if x.generating then x else { x with generating := true, budget := b, genTag := g, genCount := 0, itemStart := s.now }
    y.emptyItem = none))) ∧
    (∃ s : State, ∃ r : Nat, ∃ it : Item, s.item r = some it ∧ it.kind = .ok ∧ r ≠ ctrlRing ∧ (let x := s.stream r
    it.op = 7 ∧ x.state ≠ .paused ∧ x.state ≠ .free)) ∧
    (∃ s : State, ∃ r : Nat, ∃ it : Item, s.item r = some it ∧ it.kind = .ok ∧ r ≠ ctrlRing ∧ (let x := s.stream r
    it.op = 8 ∧ x.cancelTag = none ∧ x.state ≠ .free ∧ x.state ≠ .parking ∧ x.state ≠ .unparking ∧ x.flying = none ∧ x.work = [])) ∧
    (∃ s : State, ∃ r : Nat, ∃ it : Item, s.item r = some it ∧ it.kind = .ok ∧ r ≠ ctrlRing ∧ (let x := s.stream r
    it.op = 8 ∧ x.cancelTag = none ∧ (x.state = .parking ∨ x.state = .unparking))) ∧
    (∃ s : State, ∃ r : Nat, ∃ it : Item, s.item r = some it ∧ it.kind = .ok ∧ r ≠ ctrlRing ∧ (let x := s.stream r
    it.op = 8 ∧ x.cancelTag = none ∧ x.state ≠ .free ∧ x.state ≠ .parking ∧ x.state ≠ .unparking ∧ (x.flying.isSome = true ∨ x.work ≠ []))) ∧
    (∃ s : State, ∃ r : Nat, ∃ it : Item, s.item r = some it ∧ it.kind = .ok ∧ r ≠ ctrlRing ∧ (let x := s.stream r
    x.cancelTag.isSome = true)) ∧
    (∃ s : State, ∃ r : Nat, ∃ it : Item, s.item r = some it ∧ it.kind = .ok ∧ r ≠ ctrlRing ∧ (let x := s.stream r
    it.op = 9 ∧ (x.state = .idle ∨ x.state = .active ∨ x.state = .paused) ∧ (let target := if it.arg 0x10 1 = 3 then (s.cls x.cls).parkTarget else it.arg 0x10 1
    (s.hf.pwr = .drain ∨ s.parkPlace r target = none)))) ∧
    (∃ s : State, ∃ r : Nat, ∃ it : Item, s.item r = some it ∧ it.kind = .ok ∧ r ≠ ctrlRing ∧ (let x := s.stream r
    it.op = 9 ∧ (x.state = .idle ∨ x.state = .active ∨ x.state = .paused) ∧ (let target := if it.arg 0x10 1 = 3 then (s.cls x.cls).parkTarget else it.arg 0x10 1
    ∃ place : Nat, s.hf.pwr ≠ .drain ∧ s.parkPlace r target = some place ∧ (x.flying.isSome = true ∨ x.cancelTag.isSome = true)))) ∧
    (∃ s : State, ∃ r : Nat, ∃ it : Item, s.item r = some it ∧ it.kind = .ok ∧ r ≠ ctrlRing ∧ (let x := s.stream r
    it.op = 9 ∧ (x.state = .idle ∨ x.state = .active ∨ x.state = .paused) ∧ (let target := if it.arg 0x10 1 = 3 then (s.cls x.cls).parkTarget else it.arg 0x10 1
    ∃ place : Nat, s.hf.pwr ≠ .drain ∧ s.parkPlace r target = some place ∧ x.flying = none ∧ x.cancelTag = none))) ∧
    (∃ s : State, ∃ r : Nat, ∃ it : Item, s.item r = some it ∧ it.kind = .ok ∧ r ≠ ctrlRing ∧ (let x := s.stream r
    it.op = 9 ∧ (x.state = .parking ∨ x.state = .parked))) ∧
    (∃ s : State, ∃ r : Nat, ∃ it : Item, s.item r = some it ∧ it.kind = .ok ∧ r ≠ ctrlRing ∧ (let x := s.stream r
    it.op = 9 ∧ x.state = .unparking)) ∧
    (∃ s : State, ∃ r : Nat, ∃ it : Item, s.item r = some it ∧ it.kind = .ok ∧ r ≠ ctrlRing ∧ (let x := s.stream r
    it.op = 0x0A ∧ x.state = .parked ∧ s.hf.pwr ≠ .drain)) ∧
    (∃ s : State, ∃ r : Nat, ∃ it : Item, s.item r = some it ∧ it.kind = .ok ∧ r ≠ ctrlRing ∧ (let x := s.stream r
    it.op = 0x0A ∧ x.state = .parked ∧ s.hf.pwr = .drain)) ∧
    (∃ s : State, ∃ r : Nat, ∃ it : Item, s.item r = some it ∧ it.kind = .ok ∧ r ≠ ctrlRing ∧ (let x := s.stream r
    it.op = 0x0A ∧ x.state ≠ .parked ∧ x.state ≠ .free)) ∧
    (∃ s : State, ∃ r : Nat, ∃ it : Item, s.item r = some it ∧ it.kind = .ok ∧ r ≠ ctrlRing ∧ (let x := s.stream r
    it.op = 0x0B ∧ (x.state = .idle ∨ x.state = .active ∨ x.state = .paused))) ∧
    (∃ s : State, ∃ r : Nat, ∃ it : Item, s.item r = some it ∧ it.kind = .ok ∧ r ≠ ctrlRing ∧ (let x := s.stream r
    it.op = 0x0B ∧ (x.state = .parking ∨ x.state = .parked ∨ x.state = .unparking))) ∧
    (∃ s : State, ∃ r : Nat, ∃ it : Item, s.item r = some it ∧ it.kind = .ok ∧ r ≠ ctrlRing ∧ (let x := s.stream r
    it.op = 0x0C ∧ (x.state = .idle ∨ x.state = .active ∨ x.state = .paused))) ∧
    (∃ s : State, ∃ r : Nat, ∃ it : Item, s.item r = some it ∧ it.kind = .ok ∧ r ≠ ctrlRing ∧ (let x := s.stream r
    it.op = 0x0C ∧ (x.state = .parking ∨ x.state = .parked ∨ x.state = .unparking))) ∧
    (∃ s : State, ∃ r : Nat, ∃ it : Item, ∃ cmd : Instr, s.item r = some it ∧ it.kind = .ok ∧ r ≠ ctrlRing ∧
      ((it.op, cmd) ∈ [(2, Instr.closeStream r), (4, .appendTokens r), (5, .generate r), (6, .pause r), (7, .resume r), (9, .park r),
      (8, .cancel r), (0x0A, .unpark r), (0x0B, .setSampler r), (0x0C, .setMask r)]) ∧ (s.stream r).state = .free ∧ (s.stream r).cancelTag = none) ∧
    (∃ s : State, ∃ it : Item, s.item ctrlRing = some it ∧ it.kind = .ok ∧ it.op = 3 ∧ s.wnd.barrier = true) ∧
    (∃ s : State, ∃ it : Item, s.item ctrlRing = some it ∧ it.kind = .ok ∧ it.op = 3 ∧ (let i := it.arg 0x10 1
    s.wnd.barrier = false ∧ Table.wf Class.none s.wnd.classes = true ∧ it.cls.maxStreams < s.classOpen i)) ∧
    (∃ s : State, ∃ it : Item, s.item ctrlRing = some it ∧ it.kind = .ok ∧ it.op = 3 ∧ (let i := it.arg 0x10 1
    s.wnd.barrier = false ∧ Table.wf Class.none s.wnd.classes = true ∧ s.classOpen i ≤ it.cls.maxStreams ∧ it.cls.maxStreams = 0)) ∧
    (∃ s : State, ∃ it : Item, s.item ctrlRing = some it ∧ it.kind = .ok ∧ it.op = 3 ∧ (let i := it.arg 0x10 1
    s.wnd.barrier = false ∧ Table.wf Class.none s.wnd.classes = true ∧ s.classOpen i ≤ it.cls.maxStreams ∧ it.cls.maxStreams ≠ 0 ∧
      it.cls.nodl = true)) ∧
    (∃ s : State, ∃ it : Item, s.item ctrlRing = some it ∧ it.kind = .ok ∧ it.op = 3 ∧ (let i := it.arg 0x10 1
    s.wnd.barrier = false ∧ Table.wf Class.none s.wnd.classes = true ∧ s.classOpen i ≤ it.cls.maxStreams ∧ it.cls.maxStreams ≠ 0 ∧
      it.cls.nodl = false ∧ s.admits i it.cls = true)) ∧
    (∃ s : State, ∃ it : Item, s.item ctrlRing = some it ∧ it.kind = .ok ∧ it.op = 3 ∧ (let i := it.arg 0x10 1
    s.wnd.barrier = false ∧ Table.wf Class.none s.wnd.classes = true ∧ s.classOpen i ≤ it.cls.maxStreams ∧ it.cls.maxStreams ≠ 0 ∧
      it.cls.nodl = false ∧ s.admits i it.cls = false)) :=
  ⟨⟨submit Stream.free 1 [], 0, anItem 1 [], by decide +kernel⟩,
   ⟨(submit Stream.free 1 [0, 0, 0, 0, 1, 0, 0x10]).setStream 1 (inState .idle), 0, anItem 1 [0, 0, 0, 0, 1, 0, 0x10], by decide +kernel,
    by decide +kernel, by decide +kernel, 1, by decide +kernel⟩,
   ⟨(submit Stream.free 1 [0, 0, 0, 0, 1, 0, 0x10]).setStream 1 (inFlight id), 0, anItem 1 [0, 0, 0, 0, 1, 0, 0x10], by decide +kernel,
    by decide +kernel, by decide +kernel, 1, by decide +kernel⟩,
   ⟨let s := (((submit Stream.free 1 [0, 0, 0, 0, 1, 0, 0x10]).setStream 1 { inState .idle with committed := 5, history := List.replicate 5 1 }).setPte (pteKey 1 0 0 0) (aPage 0 64)).setFrameRef 0 64 65535; { s with hf := { s.hf with trained := 0 } },
    0, anItem 1 [0, 0, 0, 0, 1, 0, 0x10], by decide +kernel, by decide +kernel, by decide +kernel, 1, by decide +kernel⟩,
   ⟨submit (inState .idle) 1 [], 0, anItem 1 [], by decide +kernel⟩,
   ⟨submit (inState .idle) 1 [], 0, anItem 1 [], by decide +kernel⟩,
   ⟨submit (inState .idle) 2 [], 0, anItem 2 [], by decide +kernel⟩,
   ⟨submit (inFlight id) 2 [], 0, anItem 2 [], by decide +kernel⟩,
   ⟨submit (inState .paused) 4 [], 0, anItem 4 [], by decide +kernel, by decide +kernel, by decide +kernel, .appendTokens 0, .append [] false false 0,
    by decide +kernel⟩,
   ⟨submit (inFlight id) 4 [], 0, anItem 4 [], by decide +kernel, by decide +kernel, by decide +kernel, .appendTokens 0, .append [] false false 0,
    by decide +kernel⟩,
   ⟨submit { inFlight id with flying := none } 4 [], 0, anItem 4 [], by decide +kernel, by decide +kernel, by decide +kernel, .appendTokens 0,
    .append [] false false 0, by decide +kernel, 5, 0, [], by decide +kernel⟩,
   ⟨submit (inState .idle) 4 [], 0, anItem 4 [], by decide +kernel⟩,
   ⟨let s := ((submit (inState .idle) 4 []).wr pfxCtrl 3).wr pfxNodeFrames 1; { s with kv := { s.kv with nodeFrames := [32], prevGen := [(false, 0)] } },
    0, anItem 4 [], by decide +kernel⟩,
   ⟨let s := ((submit (inState .idle) 4 []).wr pfxCtrl 3).wr pfxNodeFrames 1; { s with kv := { s.kv with nodeFrames := [32] } }, 0, anItem 4 [],
    by decide +kernel⟩,
   ⟨submit { inState .idle with pend := [4] } 5 [3], 0, anItem 5 [3], by decide +kernel⟩,
   ⟨submit (inState .idle) 5 [3], 0, anItem 5 [3], by decide +kernel, by decide +kernel, by decide +kernel, by decide +kernel, by decide +kernel,
    by decide +kernel, by decide +kernel, by decide +kernel, doneFault, by decide +kernel⟩,
   ⟨submit (inState .idle) 6 [], 0, anItem 6 [], by decide +kernel⟩,
   ⟨submit (inFlight id) 6 [], 0, anItem 6 [], by decide +kernel⟩,
   ⟨submit (inState .parked) 6 [], 0, anItem 6 [], by decide +kernel⟩,
   ⟨submit (inState .paused) 7 [], 0, anItem 7 [], by decide +kernel⟩,
   ⟨submit { inFlight id with state := .paused } 7 [], 0, anItem 7 [], by decide +kernel⟩,
   ⟨submit { inFlight id with state := .paused, flying := none } 7 [], 0, anItem 7 [], by decide +kernel, by decide +kernel, by decide +kernel,
    by decide +kernel, by decide +kernel, 5, 0, [], by decide +kernel⟩,
   ⟨submit (inState .idle) 7 [], 0, anItem 7 [], by decide +kernel⟩,
   ⟨submit (inState .idle) 8 [], 0, anItem 8 [], by decide +kernel⟩,
   ⟨submit (inState .parking) 8 [], 0, anItem 8 [], by decide +kernel⟩,
   ⟨submit (inFlight id) 8 [], 0, anItem 8 [], by decide +kernel⟩,
   ⟨submit { inState .active with cancelTag := some 5 } 8 [], 0, anItem 8 [], by decide +kernel⟩,
   ⟨submit (inState .idle) 9 [2], 0, anItem 9 [2], by decide +kernel⟩,
   ⟨submit (inFlight id) 9 [], 0, anItem 9 [], by decide +kernel, by decide +kernel, by decide +kernel, by decide +kernel, by decide +kernel, 0,
    by decide +kernel⟩,
   ⟨(submit (inState .idle) 9 [1]).wr vaultParkBudget 1, 0, anItem 9 [1], by decide +kernel, by decide +kernel, by decide +kernel, by decide +kernel,
    by decide +kernel, 1, by decide +kernel⟩,
   ⟨submit (inState .parked) 9 [], 0, anItem 9 [], by decide +kernel⟩,
   ⟨submit (inState .unparking) 9 [], 0, anItem 9 [], by decide +kernel⟩,
   ⟨submit (inState .parked) 0x0A [], 0, anItem 0x0A [], by decide +kernel⟩,
   ⟨let s := submit (inState .parked) 0x0A []; { s with hf := { s.hf with pwr := .drain } }, 0, anItem 0x0A [], by decide +kernel⟩,
   ⟨submit (inState .idle) 0x0A [], 0, anItem 0x0A [], by decide +kernel⟩,
   ⟨submit (inState .idle) 0x0B [0, 0, 0, 0, 0, 0, 0, 0, 0, 0, 0, 0, 0, 0, 0x80, 0x3F], 0,
    anItem 0x0B [0, 0, 0, 0, 0, 0, 0, 0, 0, 0, 0, 0, 0, 0, 0x80, 0x3F], by decide +kernel⟩,
   ⟨submit (inState .parked) 0x0B [0, 0, 0, 0, 0, 0, 0, 0, 0, 0, 0, 0, 0, 0, 0x80, 0x3F], 0,
    anItem 0x0B [0, 0, 0, 0, 0, 0, 0, 0, 0, 0, 0, 0, 0, 0, 0x80, 0x3F], by decide +kernel⟩,
   ⟨submit (inState .idle) 0x0C [], 0, anItem 0x0C [], by decide +kernel⟩,
   ⟨submit (inState .parked) 0x0C [], 0, anItem 0x0C [], by decide +kernel⟩,
   ⟨submit Stream.free 6 [], 0, anItem 6 [], .pause 0, by decide +kernel⟩,
   ⟨let s := submitCtrl [0, 8]; { s with wnd := { s.wnd with barrier := true } }, ctrlItem [0, 8], by decide +kernel⟩,
   ⟨submitCtrl [0, 8], ctrlItem [0, 8], by decide +kernel⟩,
   ⟨submitCtrl [1, 8], ctrlItem [1, 8], by decide +kernel⟩,
   ⟨submitCtrl [1, 8, 0, 0, 1], ctrlItem [1, 8, 0, 0, 1], by decide +kernel⟩,
   ⟨withBounds ((submitCtrl [1, 0, 0, 0, 1, 0, 0, 0, 0, 0, 0, 0x40, 0, 0, 0, 0x40]).wr hfPgW 1000),
    ctrlItem [1, 0, 0, 0, 1, 0, 0, 0, 0, 0, 0, 0x40, 0, 0, 0, 0x40], by decide +kernel⟩,
   ⟨submitCtrl [1, 0, 0, 0, 1, 0, 0, 0, 1, 0, 0, 0, 1], ctrlItem [1, 0, 0, 0, 1, 0, 0, 0, 1, 0, 0, 0, 1], by decide +kernel⟩⟩

/-- The hypotheses of TokensStartAndCommit can be met, clause by clause. -/
theorem witness_TokensStartAndCommit :
    (∃ s : State, ∃ i : Nat, ∃ mapped : Bool, s.mayEmbed i = true ∧ (mapped = true ∨ (s.stream i).matchWait = false)) ∧
    (∃ s : State, ∃ i : Nat, ∃ mapped : Bool, (s.mayEmbed i = false ∨ (mapped = false ∧ (s.stream i).matchWait = true))) ∧
    (∃ s : State, ∃ i : Nat, ∃ slot : Nat, ∃ n : Nat, ∃ fl : Option Flying, s.isSampler = true ∧ (s.stream i).flying = fl ∧ ((s.isIngress = true ∧
      ∃ f, fl = some f ∧ f.samples = true ∧ f.sampled = none ∧ n = f.slot + f.prefill) ∨
      (s.isIngress = false ∧ (s.stream i).state ≠ .free ∧ n = slot)) ∧ bit (s.rd smpCtrl) 0 = false) ∧
    (∃ s : State, ∃ i : Nat, ∃ slot : Nat, ∃ n : Nat, ∃ fl : Option Flying, s.isSampler = true ∧ (s.stream i).flying = fl ∧ ((s.isIngress = true ∧
      ∃ f, fl = some f ∧ f.samples = true ∧ f.sampled = none ∧ n = f.slot + f.prefill) ∨
      (s.isIngress = false ∧ (s.stream i).state ≠ .free ∧ n = slot)) ∧ (let x := s.stream i
    bit (s.rd smpCtrl) 0 = true ∧ x.beginSampling.smpNow = none)) ∧
    (∃ s : State, ∃ i : Nat, ∃ slot : Nat, ∃ n : Nat, ∃ slices : List SliceCands, ∃ fl : Option Flying, s.isSampler = true ∧ (s.stream i).flying = fl ∧
      ((s.isIngress = true ∧ ∃ f, fl = some f ∧ f.samples = true ∧ f.sampled = none ∧ n = f.slot + f.prefill) ∨
      (s.isIngress = false ∧ (s.stream i).state ≠ .free ∧ n = slot)) ∧ (let x := s.stream i
    ∃ z : SmpNow, ∃ v : Nat, bit (s.rd smpCtrl) 0 = true ∧ x.beginSampling.smpNow = some z ∧ z.pick s.vocab n slices = some v)) ∧
    (∃ s : State, ∃ i : Nat, ∃ slot : Nat, ∃ n : Nat, ∃ slices : List SliceCands, ∃ fl : Option Flying, s.isSampler = true ∧ (s.stream i).flying = fl ∧
      ((s.isIngress = true ∧ ∃ f, fl = some f ∧ f.samples = true ∧ f.sampled = none ∧ n = f.slot + f.prefill) ∨
      (s.isIngress = false ∧ (s.stream i).state ≠ .free ∧ n = slot)) ∧ (let x := s.stream i
    ∃ z : SmpNow, bit (s.rd smpCtrl) 0 = true ∧ x.beginSampling.smpNow = some z ∧ z.pick s.vocab n slices = none)) ∧
    (∃ s : State, ∃ i : Nat, (s.isSampler = false ∨ (s.isIngress = true ∧
      ∀ f, (s.stream i).flying = some f → f.samples = false ∨ f.sampled.isSome = true) ∨
      (s.isIngress = false ∧ (s.stream i).state = .free))) ∧
    (∃ s : State, ∃ i : Nat, ∃ fl : Flying, ∃ token : Option SampledTok, (s.stream i).flying = some fl ∧ s.isIngress = true ∧ (let x := s.stream i
    let back := if s.isSampler then fl.sampled else token
    ∃ k : SampledTok, ∃ b : Nat, ∃ g : DWord, ∃ rest : List Work, fl.samples = true ∧ back = some k ∧
      (fl.missed = true ∨ (∀ d, fl.deadline = some d → s.now ≤ d)) ∧ x.state = .active ∧ x.generating = true ∧ 1 < x.budget ∧ k.stop = false ∧
      k.seq = false ∧ x.wantClose = none ∧ x.wantPause = false ∧ x.wantPark = none ∧ x.cancelTag = none ∧ ((∀ p ∈ s.kv.pending, p.stream ≠ i)) ∧
      (x.work = .generate b g :: rest))) ∧
    (∃ s : State, ∃ i : Nat, ∃ fl : Flying, ∃ token : Option SampledTok, (s.stream i).flying = some fl ∧ s.isIngress = true ∧ (let x := s.stream i
    let back := if s.isSampler then fl.sampled else token
    x.wantClose = none ∧ (fl.samples = false ∨ back.isSome = true))) ∧
    (∃ s : State, ∃ i : Nat, ∃ fl : Flying, ∃ token : Option SampledTok, (s.stream i).flying = some fl ∧ s.isIngress = true ∧ (let back := if s.isSampler then fl.sampled else token
    fl.samples = true ∧ back = none ∧ s.isSampler = false)) ∧
    (∃ s : State, ∃ i : Nat, ∃ fl : Flying, ∃ token : Option SampledTok, (s.stream i).flying = some fl ∧ s.isIngress = true ∧ (let back := if s.isSampler then fl.sampled else token
    fl.samples = true ∧ back = none ∧ s.isSampler = true)) ∧
    (∃ s : State, ∃ i : Nat, (s.isIngress = false ∨ (s.stream i).flying = none)) ∧
    (∃ s : State, ∃ i : Nat, ∃ told : Bool, (s.hasFaulted i = true ∨ (told = true ∧ s.isIngress = true ∧ (s.stream i).flying.isSome = true))) ∧
    (∃ s : State, ∃ i : Nat, ∃ told : Bool, s.hasFaulted i = false ∧ (told = false ∨ s.isIngress = false ∨ (s.stream i).flying = none)) ∧
    (∃ s : State, ∃ i : Nat, ∃ fl : Flying, (s.stream i).flying = some fl ∧ (let c := s.cls (s.stream i).cls
    fl.demoted = true ∧ ((s.stream i).genCount ≠ 0 ∨ fl.prefill ≤ c.maxPrefill) ∧ (s.stream i).committed ≤ c.maxCtx ∧ fl.released ≤ s.now)) ∧
    (∃ s : State, ∃ i : Nat, ∃ fl : Flying, (s.stream i).flying = some fl ∧ (let c := s.cls (s.stream i).cls
    (fl.demoted = false ∨ ((s.stream i).genCount = 0 ∧ c.maxPrefill < fl.prefill) ∨ c.maxCtx < (s.stream i).committed ∨ s.now < fl.released))) ∧
    (∃ s : State, ∃ i : Nat, ∃ d : Nat, ∃ fl : Flying, (s.stream i).flying = some fl ∧ fl.deadline = some d ∧ fl.missed = false ∧ d < s.now ∧
      s.isIngress = true) ∧
    (∃ s : State, ∃ i : Nat, ((∀ fl, (s.stream i).flying = some fl → fl.missed = true ∨ (∀ d, fl.deadline = some d → s.now ≤ d)))) ∧
    (∃ s : State, ∃ i : Nat, ∃ layer : Nat, ∃ head : Nat, ∃ page : Nat, let key := pteKey i layer head page
    (s.stream i).state ≠ .free ∧ (s.cls (s.stream i).cls).kvprot = 2 ∧ s.storeUp = true ∧ (s.pte key).valid = true ∧
      (256 * (page + 1) ≤ (s.stream i).committed) ∧ keyPage key = page ∧ ((∀ x ∈ (s.stream i).journaled, ¬ (x.1 = key ∧ x.2.2 = true)))) ∧
    (∃ s : State, ∃ i : Nat, ∃ tag : DWord, (s.stream i).cancelTag = some tag ∧ s.cancelFlying i = false ∧ (s.stream i).state = .active ∧
      (s.stream i).work = [] ∧ (s.stream i).flying = none ∧ (s.stream i).wantClose = none ∧ (s.stream i).wantPause = false ∧
      (s.stream i).wantPark = none) ∧
    (∃ s : State, ∃ i : Nat, ((s.stream i).cancelTag = none ∨ s.cancelFlying i = true)) ∧
    (∃ s : State, ∃ rs : List StepReq, let w := (({ s with wnd := { s.wnd with ready := s.wnd.ready ++ rs } } : State).each rs State.noteRemaining).updateHolds
    w.nextStep = none) ∧
    (∃ s : State, ∃ rs : List StepReq, let w := (({ s with wnd := { s.wnd with ready := s.wnd.ready ++ rs } } : State).each rs State.noteRemaining).updateHolds
    ∃ r : StepReq, w.nextStep = some r ∧ w.grantOpen r.reserved = true) ∧
    (∃ s : State, ∃ rs : List StepReq, let w := (({ s with wnd := { s.wnd with ready := s.wnd.ready ++ rs } } : State).each rs State.noteRemaining).updateHolds
    ∃ r : StepReq, w.nextStep = some r ∧ w.grantOpen r.reserved = false) ∧
    (∃ s : State, s.isIngress = false) ∧
    (∃ s : State, ∃ i : Nat, s.isIngress = true ∧ Table.wf Class.none s.wnd.classes = true ∧ (s.cls i).admitted = true ∧ (s.cls i).nodl = false) :=
  ⟨⟨serving.setStream 0 { inState .active with generating := true, pend := [3], budget := 2 }, 0, true, by decide +kernel⟩,
   ⟨serving.setStream 0 { inState .active with generating := true, pend := [3], budget := 2 }, 1, true, by decide +kernel⟩,
   ⟨(serving.wr smpCtrl 0).setStream 0 (inFlight id), 0, 0, 1, some { aFly with samples := true, prefill := 1 }, by decide +kernel⟩,
   ⟨(serving.wr smpCtrl 1).setStream 0 { inFlight id with maskMode := 3 }, 0, 0, 1, some { aFly with samples := true, prefill := 1 },
    by decide +kernel⟩,
   ⟨((serving.wr smpVocab 4).wr smpCtrl 1).setStream 0 (inFlight id), 0, 0, 1, [aSlice], some { aFly with samples := true, prefill := 1 },
    by decide +kernel, by decide +kernel, by decide +kernel, { sampler := Sampler.default, mask := none }, 1, by decide +kernel⟩,
   ⟨(serving.wr smpCtrl 1).setStream 0 (inFlight id), 0, 0, 1, [], some { aFly with samples := true, prefill := 1 }, by decide +kernel,
    by decide +kernel, by decide +kernel, { sampler := Sampler.default, mask := none }, by decide +kernel⟩,
   ⟨serving.setStream 0 { inState .active with generating := true, pend := [3], budget := 2 }, 0, by decide +kernel⟩,
   ⟨serving.setStream 0 (inFlight fun x => { x with sampled := some { token := 1, stop := false, seq := false } }), 0,
    { aFly with samples := true, prefill := 1, sampled := some { token := 1, stop := false, seq := false } }, none, by decide +kernel,
    by decide +kernel, { token := 1, stop := false, seq := false }, 5, 0, [], by decide +kernel⟩,
   ⟨serving.setStream 0 (inFlight fun x => { x with sampled := some { token := 1, stop := false, seq := false } }), 0,
    { aFly with samples := true, prefill := 1, sampled := some { token := 1, stop := false, seq := false } }, none, by decide +kernel⟩,
   ⟨let s := serving.setStream 0 (inFlight id); { s with wnd := { s.wnd with roles := 1 } }, 0, { aFly with samples := true, prefill := 1 }, none,
    by decide +kernel⟩,
   ⟨serving.setStream 0 (inFlight id), 0, { aFly with samples := true, prefill := 1 }, none, by decide +kernel⟩,
   ⟨serving, 0, by decide +kernel⟩,
   ⟨(serving.wr smpVocab 4).setStream 0 (inFlight id), 0, true, by decide +kernel⟩,
   ⟨serving.setStream 0 { inState .active with generating := true, pend := [3], budget := 2 }, 0, true, by decide +kernel⟩,
   ⟨serving.setStream 0 { inFlight (fun x => { x with demoted := true }) with genCount := 1 }, 0,
    { aFly with samples := true, prefill := 1, demoted := true }, by decide +kernel⟩,
   ⟨(serving.wr smpVocab 4).setStream 0 (inFlight id), 0, { aFly with samples := true, prefill := 1 }, by decide +kernel⟩,
   ⟨serving.setStream 0 (inFlight fun x => { x with deadline := some 5 }), 0, 5, { aFly with samples := true, prefill := 1, deadline := some 5 },
    by decide +kernel⟩,
   ⟨serving.setStream 0 { inState .active with generating := true, pend := [3], budget := 2 }, 0, by decide +kernel⟩,
   ⟨let s := kvPage.updStream 0 (fun t => { t with committed := 256 }); (({ s with wnd := { s.wnd with classes := [(0, { Class.none with kvprot := 2 })] } }).wr wndStoreEp 0x1000).updAdit 0 (fun a => { a with state := .up }),
    0, 0, 0, 0, by decide +kernel⟩,
   ⟨serving.setStream 0 { inState .active with cancelTag := some 5 }, 0, 5, by decide +kernel⟩,
   ⟨serving.setStream 0 { inState .active with generating := true, pend := [3], budget := 2 }, 0, by decide +kernel⟩,
   ⟨serving, [], by decide +kernel⟩,
   ⟨{ serving with hf := { serving.hf with quantum := 1000 } }, [aReq], aReq, by decide +kernel⟩,
   ⟨{ serving with hf := { serving.hf with quantum := 0, spent := 5 } }, [aReq], aReq, by decide +kernel⟩,
   ⟨{ small with wnd := { small.wnd with roles := 6 } }, by decide +kernel⟩,
   ⟨withBounds { serving with wnd := { serving.wnd with classes := [(0, { Class.none with admitted := true, maxStreams := 9, maxCtx := 999, tokDl := 1000 })] } },
    0, by decide +kernel⟩⟩

/-- The hypotheses of ParkedStreamsReturn can be met, clause by clause. -/
theorem witness_ParkedStreamsReturn :
    (∃ s : State, ∃ i : Nat, ((s.stream i).state ≠ .parking ∨ ((s.stream i).parkTarget = 2 ∧ s.storeUp = false))) ∧
    (∃ s : State, ∃ i : Nat, (s.stream i).state = .parking ∧ (((s.stream i).parkTarget = 2 → s.storeUp = true)) ∧
      ((s.cls (s.stream i).cls).kvprot ≠ 2 ∨ s.storeUp = false) ∧ (s.stream i).cancelHeld = none ∧ s.hf.rmvStep = 0) ∧
    (∃ s : State, ∃ i : Nat, ∃ key : Nat, (s.stream i).state = .parking ∧ (s.stream i).parkTarget ≠ 0 ∧
      (((s.stream i).parkTarget = 2 → s.storeUp = true)) ∧ (s.cls (s.stream i).cls).kvprot ≠ 2 ∧ (s.stream i).cancelHeld = none ∧ s.hf.rmvStep = 0 ∧
      (s.parkPages i = [(key, s.pte key)]) ∧ (s.pte key).spilled = false) ∧
    (∃ s : State, ∃ i : Nat, ((s.stream i).state ≠ .parking ∨ (s.stream i).parkTarget = 0)) ∧
    (∃ s : State, ∃ i : Nat, (s.stream i).state = .parking ∧ (s.stream i).parkTarget ≠ 0 ∧ s.hf.rmvStep = 1 ∧ s.hf.rmvWait.contains i = true) ∧
    (∃ s : State, ∃ i : Nat, (s.stream i).state = .parking ∧ (s.stream i).parkTarget ≠ 0 ∧ s.hf.rmvStep ≠ 1) ∧
    (∃ s : State, ∃ i : Nat, (s.stream i).state ≠ .unparking) ∧
    (∃ s : State, ∃ i : Nat, ∃ crcs : List (Nat × Nat), ∃ ms : List (Nat × List Byte), (s.stream i).state = .unparking ∧ (s.stream i).cancelHeld = none ∧ (let x := s.stream i
    let back : StreamState := if x.beforePark = .active ∨ x.beforePark = .paused then .paused else .idle
    let seen := (s.parkPages i).map fun e => (e.1, match crcs.find? fun c => c.1 == e.1 with
       | some c => c.2
       | none => crc64 (s.pageData e.2))
    let digest := s.digestOf (s.manifest i (seen.map (·.2)) x.parkSmall) ms
    let gen := s.genOf (s.streamBank x)
    let good := gen = x.parkGen.toNat ∧ seen = x.pageCrcs ∧ (s.isIngress = true → digest = x.digest)
    (good) ∧ s.hasSpilled i = false ∧ (x.work = [] ∨ back = .paused))) ∧
    (∃ s : State, ∃ i : Nat, ∃ crcs : List (Nat × Nat), ∃ ms : List (Nat × List Byte), (s.stream i).state = .unparking ∧ (s.stream i).cancelHeld = none ∧ (let x := s.stream i
    let back : StreamState := if x.beforePark = .active ∨ x.beforePark = .paused then .paused else .idle
    let seen := (s.parkPages i).map fun e => (e.1, match crcs.find? fun c => c.1 == e.1 with
       | some c => c.2
       | none => crc64 (s.pageData e.2))
    let digest := s.digestOf (s.manifest i (seen.map (·.2)) x.parkSmall) ms
    let gen := s.genOf (s.streamBank x)
    let good := gen = x.parkGen.toNat ∧ seen = x.pageCrcs ∧ (s.isIngress = true → digest = x.digest)
    (good) ∧ s.hasSpilled i = true ∧ back = .paused)) ∧
    (∃ s : State, ∃ i : Nat, ∃ crcs : List (Nat × Nat), ∃ ms : List (Nat × List Byte), (s.stream i).state = .unparking ∧ (s.stream i).cancelHeld = none ∧ (let x := s.stream i
    let seen := (s.parkPages i).map fun e => (e.1, match crcs.find? fun c => c.1 == e.1 with
       | some c => c.2
       | none => crc64 (s.pageData e.2))
    let digest := s.digestOf (s.manifest i (seen.map (·.2)) x.parkSmall) ms
    let gen := s.genOf (s.streamBank x)
    let good := gen = x.parkGen.toNat ∧ seen = x.pageCrcs ∧ (s.isIngress = true → digest = x.digest)
    (¬ good))) :=
  ⟨⟨serving.setStream 0 { inState .parking with beforePark := .idle }, 1, by decide +kernel⟩,
   ⟨serving.setStream 0 { inState .parking with beforePark := .idle }, 0, by decide +kernel⟩,
   ⟨((kvPage.setStream 0 { inState .parking with parkTarget := 2, committed := 5 }).wr wndStoreEp 0x1000).updAdit 0 (fun a => { a with state := .up }),
    0, 0, by decide +kernel⟩,
   ⟨serving.setStream 0 { inState .parking with beforePark := .idle }, 0, by decide +kernel⟩,
   ⟨let s := serving.setStream 0 { inState .parking with parkTarget := 2 }; { s with hf := { s.hf with rmvStep := 1, rmvWait := [0] } }, 0,
    by decide +kernel⟩,
   ⟨((kvPage.setStream 0 { inState .parking with parkTarget := 2, committed := 5 }).wr wndStoreEp 0x1000).updAdit 0 (fun a => { a with state := .up }),
    0, by decide +kernel⟩,
   ⟨serving, 0, by decide +kernel⟩,
   ⟨serving.setStream 0 { inState .unparking with beforePark := .idle, digest := serving.digestOf (serving.manifest 0 [] []) [] }, 0, [], [],
    by decide +kernel⟩,
   ⟨(serving.setStream 0 { inState .unparking with beforePark := .active, pageCrcs := [(0, 7)], digest := serving.digestOf (serving.manifest 0 [7] []) [] }).setPte 0 { aPage 0 64 with spilled := true },
    0, [(0, 7)], [], by decide +kernel⟩,
   ⟨serving.setStream 0 { inState .unparking with parkGen := 5 }, 0, [], [], by decide +kernel⟩⟩

/-- The hypotheses of WinderAndSamplerChoose can be met, clause by clause. -/
theorem witness_WinderAndSamplerChoose :
    (∃ s : State, ∃ r : StepReq, s.nextStep = some r) ∧
    (∃ s : State, ∃ r : StepReq, s.nextStep = some r ∧ ∃ x : StepReq, (x ∈ s.wnd.ready) ∧ s.mayIssue x = true) ∧
    (∃ t : SmpNow, ∃ vocab : Nat, ∃ slot : Nat, ∃ v : Nat, ∃ slices : List SliceCands, t.pick vocab slot slices = some v) ∧
    (∃ t : SmpNow, ∃ vocab : Nat, ∃ slot : Nat, ∃ v : Nat, ∃ slices : List SliceCands, t.pick vocab slot slices = some v ∧ isZero t.sampler.temp = true ∧
      ((∀ x ∈ slices, ∀ c ∈ x.cands, isNan c.2 = false))) ∧
    (∃ t : SmpNow, ∃ vocab : Nat, ∃ slices : List SliceCands, ((∀ x ∈ slices, ∀ c ∈ x.cands, vocab ≤ c.1 ∨ t.permits c.1 = false))) ∧
    (∃ t : Stream, ∃ x : SmpNow, t.smpNow = some x) ∧
    (∃ t : Stream, t.smpNow = none ∧ t.maskMode = 3 ∧ t.waitMasks = []) ∧
    (∃ t : Stream, ∃ m : List Byte, ∃ ms : List (List Byte), t.smpNow = none ∧ t.maskMode = 3 ∧ (t.waitMasks = m :: ms)) ∧
    (∃ t : Stream, t.smpNow = none ∧ t.maskMode = 1) ∧
    (∃ t : Stream, t.smpNow = none ∧ t.maskMode = 0) ∧
    (∃ t : Stream, t.smpNow = none ∧ t.maskMode = 2) :=
  ⟨⟨{ small with wnd := { small.wnd with ready := [aReq] } }, aReq, by decide +kernel⟩,
   ⟨{ small with wnd := { small.wnd with ready := [aReq] } }, aReq, by decide +kernel, aReq, by decide +kernel⟩,
   ⟨{ sampler := Sampler.default, mask := none }, 4, 0, 1, [aSlice], by decide +kernel⟩,
   ⟨{ sampler := { Sampler.default with temp := 0 }, mask := none }, 4, 0, 1, [aSlice], by decide +kernel⟩,
   ⟨{ sampler := Sampler.default, mask := none }, 1, [aSlice], by decide +kernel⟩,
   ⟨{ Stream.free with smpNow := some { sampler := Sampler.default, mask := none } }, { sampler := Sampler.default, mask := none }, by decide +kernel⟩,
   ⟨{ Stream.free with maskMode := 3 }, by decide +kernel⟩,
   ⟨{ Stream.free with maskMode := 3, waitMasks := [[1], [2]] }, [1], [[2]], by decide +kernel⟩,
   ⟨{ Stream.free with maskMode := 1 }, by decide +kernel⟩,
   ⟨Stream.free, by decide +kernel⟩,
   ⟨{ Stream.free with maskMode := 2 }, by decide +kernel⟩⟩

/-- The hypotheses of SwapCommandsStart can be met, clause by clause. -/
theorem witness_SwapCommandsStart :
    (∃ s : State, ∃ f : Nat, ∃ mode : Nat, ∃ v : Word, ∃ sl : ImageSlice, ∃ cmd : Instr, s.mayWrite f swapCmd = true ∧ ((cmd, mode) ∈ [(Instr.stage f v sl, 1), (.load f v sl, 2), (.shadow f v sl, 3), (.inPlace f v sl, 4)]) ∧ (let src := fld v 11 10
    let okSrc := src ≠ 3 ∧ (mode = 1 → src ≠ 0) ∧ (mode ≠ 1 → src ≠ 1)
    let nodes := (if mode = 1 then [] else s.imageStopes) ++ (if mode = 1 ∨ bit v 12 then [264, 265] else [])
    let inside := ∀ k ∈ nodes, s.nodeWithin k 10 85 = true
    let code := if ¬ okSrc then rAbiMismatch else if s.swap.phase ≠ .idle ∨ s.swapNeeds mode v = false then rCapacity
       else if bit v 13 = false ∧ ¬ inside then rTempWindow else 0
    code ≠ 0)) ∧
    (∃ s : State, ∃ f : Nat, ∃ mode : Nat, ∃ v : Word, ∃ sl : ImageSlice, ∃ cmd : Instr, s.mayWrite f swapCmd = true ∧ ((cmd, mode) ∈ [(Instr.stage f v sl, 1), (.load f v sl, 2), (.shadow f v sl, 3), (.inPlace f v sl, 4)]) ∧ (let src := fld v 11 10
    let okSrc := src ≠ 3 ∧ (mode = 1 → src ≠ 0) ∧ (mode ≠ 1 → src ≠ 1)
    let nodes := (if mode = 1 then [] else s.imageStopes) ++ (if mode = 1 ∨ bit v 12 then [264, 265] else [])
    let inside := ∀ k ∈ nodes, s.nodeWithin k 10 85 = true
    let code := if ¬ okSrc then rAbiMismatch else if s.swap.phase ≠ .idle ∨ s.swapNeeds mode v = false then rCapacity
       else if bit v 13 = false ∧ ¬ inside then rTempWindow else 0
    code = 0 ∧ (inside) ∧ mode = 1)) ∧
    (∃ s : State, ∃ f : Nat, ∃ mode : Nat, ∃ v : Word, ∃ sl : ImageSlice, ∃ cmd : Instr, s.mayWrite f swapCmd = true ∧ ((cmd, mode) ∈ [(Instr.stage f v sl, 1), (.load f v sl, 2), (.shadow f v sl, 3), (.inPlace f v sl, 4)]) ∧ (let src := fld v 11 10
    let n := fld v 9 4
    let okSrc := src ≠ 3 ∧ (mode = 1 → src ≠ 0) ∧ (mode ≠ 1 → src ≠ 1)
    let nodes := (if mode = 1 then [] else s.imageStopes) ++ (if mode = 1 ∨ bit v 12 then [264, 265] else [])
    let inside := ∀ k ∈ nodes, s.nodeWithin k 10 85 = true
    let code := if ¬ okSrc then rAbiMismatch else if s.swap.phase ≠ .idle ∨ s.swapNeeds mode v = false then rCapacity
       else if bit v 13 = false ∧ ¬ inside then rTempWindow else 0
    let there := mode ≠ 4 ∧ s.installed (s.swapTarget mode v) n = true
    ∃ one : Bool, code = 0 ∧ (inside) ∧ mode ≠ 1 ∧ src = 0 ∧ (¬ there) ∧ s.copyMatches (s.vslot n) one = true ∧
      ((one = true → s.copyMatches (s.vslot n) false = false)))) ∧
    (∃ s : State, ∃ f : Nat, ∃ mode : Nat, ∃ v : Word, ∃ sl : ImageSlice, ∃ cmd : Instr, s.mayWrite f swapCmd = true ∧ ((cmd, mode) ∈ [(Instr.stage f v sl, 1), (.load f v sl, 2), (.shadow f v sl, 3), (.inPlace f v sl, 4)]) ∧ (let src := fld v 11 10
    let n := fld v 9 4
    let okSrc := src ≠ 3 ∧ (mode = 1 → src ≠ 0) ∧ (mode ≠ 1 → src ≠ 1)
    let nodes := (if mode = 1 then [] else s.imageStopes) ++ (if mode = 1 ∨ bit v 12 then [264, 265] else [])
    let inside := ∀ k ∈ nodes, s.nodeWithin k 10 85 = true
    let code := if ¬ okSrc then rAbiMismatch else if s.swap.phase ≠ .idle ∨ s.swapNeeds mode v = false then rCapacity
       else if bit v 13 = false ∧ ¬ inside then rTempWindow else 0
    let there := mode ≠ 4 ∧ s.installed (s.swapTarget mode v) n = true
    code = 0 ∧ mode ≠ 1 ∧ src = 0 ∧ (¬ there) ∧ ((∀ one, s.copyMatches (s.vslot n) one = false)))) ∧
    (∃ s : State, ∃ f : Nat, ∃ mode : Nat, ∃ v : Word, ∃ sl : ImageSlice, ∃ cmd : Instr, s.mayWrite f swapCmd = true ∧ ((cmd, mode) ∈ [(Instr.stage f v sl, 1), (.load f v sl, 2), (.shadow f v sl, 3), (.inPlace f v sl, 4)]) ∧ (let src := fld v 11 10
    let n := fld v 9 4
    let okSrc := src ≠ 3 ∧ (mode = 1 → src ≠ 0) ∧ (mode ≠ 1 → src ≠ 1)
    let nodes := (if mode = 1 then [] else s.imageStopes) ++ (if mode = 1 ∨ bit v 12 then [264, 265] else [])
    let inside := ∀ k ∈ nodes, s.nodeWithin k 10 85 = true
    let code := if ¬ okSrc then rAbiMismatch else if s.swap.phase ≠ .idle ∨ s.swapNeeds mode v = false then rCapacity
       else if bit v 13 = false ∧ ¬ inside then rTempWindow else 0
    let there := mode ≠ 4 ∧ s.installed (s.swapTarget mode v) n = true
    ∃ img : ImageSlice, code = 0 ∧ (inside) ∧ mode ≠ 1 ∧ src = 0 ∧ (there) ∧ (s.vslot n).copy0.or (s.vslot n).copy1 = some img)) ∧
    (∃ s : State, ∃ f : Nat, ∃ mode : Nat, ∃ v : Word, ∃ sl : ImageSlice, ∃ cmd : Instr, s.mayWrite f swapCmd = true ∧ ((cmd, mode) ∈ [(Instr.stage f v sl, 1), (.load f v sl, 2), (.shadow f v sl, 3), (.inPlace f v sl, 4)]) ∧ (let src := fld v 11 10
    let okSrc := src ≠ 3 ∧ (mode = 1 → src ≠ 0) ∧ (mode ≠ 1 → src ≠ 1)
    let nodes := (if mode = 1 then [] else s.imageStopes) ++ (if mode = 1 ∨ bit v 12 then [264, 265] else [])
    let inside := ∀ k ∈ nodes, s.nodeWithin k 10 85 = true
    let code := if ¬ okSrc then rAbiMismatch else if s.swap.phase ≠ .idle ∨ s.swapNeeds mode v = false then rCapacity
       else if bit v 13 = false ∧ ¬ inside then rTempWindow else 0
    code = 0 ∧ (inside) ∧ mode ≠ 1 ∧ src = 2 ∧ s.sliceOk sl = true)) ∧
    (∃ s : State, ∃ f : Nat, ∃ mode : Nat, ∃ v : Word, ∃ sl : ImageSlice, ∃ cmd : Instr, s.mayWrite f swapCmd = true ∧ ((cmd, mode) ∈ [(Instr.stage f v sl, 1), (.load f v sl, 2), (.shadow f v sl, 3), (.inPlace f v sl, 4)]) ∧ (let src := fld v 11 10
    let okSrc := src ≠ 3 ∧ (mode = 1 → src ≠ 0) ∧ (mode ≠ 1 → src ≠ 1)
    let nodes := (if mode = 1 then [] else s.imageStopes) ++ (if mode = 1 ∨ bit v 12 then [264, 265] else [])
    let inside := ∀ k ∈ nodes, s.nodeWithin k 10 85 = true
    let code := if ¬ okSrc then rAbiMismatch else if s.swap.phase ≠ .idle ∨ s.swapNeeds mode v = false then rCapacity
       else if bit v 13 = false ∧ ¬ inside then rTempWindow else 0
    code = 0 ∧ mode ≠ 1 ∧ src = 2 ∧ s.sliceOk sl = false)) ∧
    (∃ s : State, ∃ f : Nat, ∃ mode : Nat, ∃ v : Word, ∃ sl : ImageSlice, ∃ cmd : Instr, s.mayWrite f swapCmd = true ∧ ((cmd, mode) ∈ [(Instr.stage f v sl, 1), (.load f v sl, 2), (.shadow f v sl, 3), (.inPlace f v sl, 4)]) ∧ (let src := fld v 11 10
    let n := fld v 9 4
    let okSrc := src ≠ 3 ∧ (mode = 1 → src ≠ 0) ∧ (mode ≠ 1 → src ≠ 1)
    let nodes := (if mode = 1 then [] else s.imageStopes) ++ (if mode = 1 ∨ bit v 12 then [264, 265] else [])
    let inside := ∀ k ∈ nodes, s.nodeWithin k 10 85 = true
    let code := if ¬ okSrc then rAbiMismatch else if s.swap.phase ≠ .idle ∨ s.swapNeeds mode v = false then rCapacity
       else if bit v 13 = false ∧ ¬ inside then rTempWindow else 0
    let there := mode ≠ 4 ∧ s.installed (s.swapTarget mode v) n = true
    code = 0 ∧ (¬ inside) ∧ (mode = 1 ∨ (src = 2 ∧ s.sliceOk sl = true) ∨ (src = 0 ∧ ¬ there ∧ ∃ one, s.copyMatches (s.vslot n) one = true)))) ∧
    (∃ s : State, ∃ f : Nat, s.mayWrite f swapCmd = true ∧ (s.swap.phase = .reading ∨ s.swap.phase = .programming ∨ s.swap.phase = .ready) ∧
      s.swap.flipped = false) ∧
    (∃ s : State, ∃ f : Nat, s.mayWrite f swapCmd = true ∧ (let begun := s.swap.heldFrom ≠ .reading ∧ s.swap.heldFrom ≠ .ready
    s.swap.phase = .tempHeld ∧ (s.swap.mode ≠ 4 ∨ ¬ begun))) ∧
    (∃ s : State, ∃ f : Nat, s.mayWrite f swapCmd = true ∧ (let begun := s.swap.heldFrom ≠ .reading ∧ s.swap.heldFrom ≠ .ready
    s.swap.phase = .tempHeld ∧ s.swap.mode = 4 ∧ (begun))) ∧
    (∃ s : State, ∃ f : Nat, s.mayWrite f swapCmd = true ∧ s.swap.phase = .barrier ∧ s.swap.mode = 4) ∧
    (∃ s : State, ∃ f : Nat, s.mayWrite f swapCmd = true ∧ s.swap.phase = .barrier ∧ s.swap.mode ≠ 4 ∧ s.swap.flipped = false ∧ s.swap.actionSent = false) ∧
    (∃ s : State, ∃ f : Nat, s.mayWrite f swapCmd = true ∧ (s.swap.phase = .idle ∨ s.swap.phase = .rollback ∨
         (s.swap.phase = .barrier ∧ s.swap.mode ≠ 4 ∧ (s.swap.flipped = true ∨ s.swap.actionSent = true)))) ∧
    (∃ s : State, ∃ f : Nat, s.mayWrite f swapCommit = true ∧ s.isIngress = true ∧ (s.swap.mode = 3 ∨ s.swap.mode = 4) ∧ s.wnd.barrier = false ∧
      s.swap.phase ≠ .idle ∧ (s.allReported = false ∨ s.swap.phase ≠ .ready ∨ s.swap.image = none)) ∧
    (∃ s : State, ∃ f : Nat, s.mayWrite f swapCommit = true ∧ s.isIngress = true ∧ (s.swap.mode = 3 ∨ s.swap.mode = 4) ∧ s.wnd.barrier = false ∧
      s.swap.phase ≠ .idle ∧ ∃ sl : ImageSlice, s.swap.image = some sl ∧ s.swap.phase = .ready ∧ s.allReported = true ∧
      ((∀ r ∈ s.swap.reports, r.2.2 = imgGen sl))) ∧
    (∃ s : State, ∃ f : Nat, s.mayWrite f swapCommit = true ∧ s.isIngress = true ∧ (s.swap.mode = 3 ∨ s.swap.mode = 4) ∧ s.wnd.barrier = false ∧
      s.swap.phase ≠ .idle ∧ ∃ sl : ImageSlice, s.swap.image = some sl ∧ s.swap.phase = .ready ∧ s.allReported = true ∧
      ((∃ r ∈ s.swap.reports, r.2.2 ≠ imgGen sl))) ∧
    (∃ s : State, (s.isIngress = false ∨ s.swap.phase = .idle ∨ s.wnd.barrier = true ∨ (s.swap.mode ≠ 3 ∧ s.swap.mode ≠ 4))) ∧
    (∃ s : State, ∃ f : Nat, s.mayWrite f swapCommit = true ∧ s.isIngress = true ∧ s.swap.phase ≠ .idle ∧ s.wnd.barrier = false ∧
      (s.swap.phase = .reading ∨ s.swap.phase = .programming ∨ s.swap.phase = .ready) ∧ s.swap.flipped = false) ∧
    (∃ s : State, ∃ f : Nat, s.mayWrite f swapCommit = true ∧ s.isIngress = true ∧ s.swap.phase ≠ .idle ∧ s.wnd.barrier = true ∧ s.swap.phase = .barrier ∧
      s.swap.mode = 4) ∧
    (∃ s : State, ∃ f : Nat, s.mayWrite f swapCommit = true ∧ s.isIngress = true ∧ s.swap.phase ≠ .idle ∧ s.wnd.barrier = true ∧ s.swap.phase = .barrier ∧
      s.swap.mode ≠ 4 ∧ s.swap.flipped = false ∧ s.swap.actionSent = false) ∧
    (∃ s : State, (s.isIngress = false ∨ s.swap.phase = .idle)) :=
  ⟨⟨withSwap id, 0, 2, 0xC00, anImg, Instr.load 0 0xC00 anImg, by decide +kernel⟩,
   ⟨withSwap id, 0, 1, 0x401, anImg, Instr.stage 0 0x401 anImg, by decide +kernel⟩,
   ⟨withSwap id, 0, 2, 0x00A, anImg, Instr.load 0 0x00A anImg, by decide +kernel, by decide +kernel, false, by decide +kernel⟩,
   ⟨withSwap id, 0, 2, 0x01A, anImg, Instr.load 0 0x01A anImg, by decide +kernel⟩,
   ⟨(withSwap fun w => { w with bankB := some { slot := 0, digest := List.replicate 32 0, gen := 0 } }).setStope 0 (imageMacros.foldl (fun t m => t.setBank m true .valid) Stope.reset),
    0, 2, 0x00A, anImg, Instr.load 0 0x00A anImg, by decide +kernel, by decide +kernel, anImg, by decide +kernel⟩,
   ⟨withSwap id, 0, 3, 0x803, bigImg, .shadow 0 0x803 bigImg, by decide +kernel, by simp, rfl, by decide +kernel, by decide, rfl, bigImg_sound _ rfl⟩,
   ⟨withSwap id, 0, 3, 0x803, anImg, Instr.shadow 0 0x803 anImg, by decide +kernel⟩,
   ⟨let s := withSwap id; { s with hf := { s.hf with nodes := [(264, { TNode.reset with temp := 25600 })] } }, 0, 1, 0x2401, anImg,
    Instr.stage 0 0x2401 anImg, by decide +kernel⟩,
   ⟨withSwap (fun w => { anOp 2 .reading w with wroteRow := true }), 0, by decide +kernel⟩,
   ⟨withSwap fun w => { anOp 2 .tempHeld w with heldFrom := .reading }, 0, by decide +kernel⟩,
   ⟨withSwap fun w => { anOp 4 .tempHeld w with heldFrom := .barrier }, 0, by decide +kernel⟩,
   ⟨withSwap (anOp 4 .barrier), 0, by decide +kernel⟩,
   ⟨withSwap (anOp 3 .barrier), 0, by decide +kernel⟩,
   ⟨withSwap id, 0, by decide +kernel⟩,
   ⟨withSwap (anOp 3 .ready), 0, by decide +kernel⟩,
   ⟨withSwap (fun w => { anOp 3 .ready w with reports := [(State.reset.edge.devId, 0, 0)] }), 0, by decide +kernel, by decide +kernel,
    by decide +kernel, by decide +kernel, by decide +kernel, anImg, by decide +kernel⟩,
   ⟨withSwap (fun w => { anOp 3 .ready w with reports := [(State.reset.edge.devId, 0, 5)] }), 0, by decide +kernel, by decide +kernel,
    by decide +kernel, by decide +kernel, by decide +kernel, anImg, by decide +kernel⟩,
   ⟨withSwap id, by decide +kernel⟩,
   ⟨withSwap (fun w => { anOp 2 .reading w with wroteRow := true }), 0, by decide +kernel⟩,
   ⟨atBarrier (anOp 4 .barrier), 0, by decide +kernel⟩,
   ⟨atBarrier (anOp 3 .barrier), 0, by decide +kernel⟩,
   ⟨withSwap id, by decide +kernel⟩⟩

/-- The hypotheses of ImagesAreCheckedAndProgrammed can be met, clause by clause. -/
theorem witness_ImagesAreCheckedAndProgrammed :
    (∃ s : State, ∃ sl : ImageSlice, s.swap.image = some sl ∧ s.swap.verified = false ∧ (s.swap.phase = .reading ∨ s.swap.phase = .programming) ∧ 2 ≤ s.swap.mode ∧ (let v := s.vslot s.swap.slot
    let one := s.swap.copyUsed
    s.swap.src ≠ 2 ∧ s.copyUsable v one = true ∧ s.swap.mode = 4 ∧ s.swap.phase = .reading)) ∧
    (∃ s : State, ∃ sl : ImageSlice, s.swap.image = some sl ∧ s.swap.verified = false ∧ (s.swap.phase = .reading ∨ s.swap.phase = .programming) ∧ 2 ≤ s.swap.mode ∧ (let v := s.vslot s.swap.slot
    let one := s.swap.copyUsed
    s.swap.src ≠ 2 ∧ s.copyUsable v one = true ∧ s.swap.mode ≠ 4 ∧ s.allDone = false)) ∧
    (∃ s : State, ∃ sl : ImageSlice, s.swap.image = some sl ∧ s.swap.verified = false ∧ (s.swap.phase = .reading ∨ s.swap.phase = .programming) ∧ 2 ≤ s.swap.mode ∧ (let v := s.vslot s.swap.slot
    let one := s.swap.copyUsed
    s.swap.src ≠ 2 ∧ s.copyUsable v one = true ∧ s.swap.mode = 3 ∧ s.allDone = true)) ∧
    (∃ s : State, ∃ sl : ImageSlice, s.swap.image = some sl ∧ s.swap.verified = false ∧ (s.swap.phase = .reading ∨ s.swap.phase = .programming) ∧ 2 ≤ s.swap.mode ∧ (let v := s.vslot s.swap.slot
    let one := s.swap.copyUsed
    let other := s.copyMatches v (!one)
    s.swap.src ≠ 2 ∧ s.copyUsable v one = false ∧ s.swap.switched = false ∧ other = true)) ∧
    (∃ s : State, ∃ sl : ImageSlice, s.swap.image = some sl ∧ s.swap.verified = false ∧ (s.swap.phase = .reading ∨ s.swap.phase = .programming) ∧ 2 ≤ s.swap.mode ∧ (let v := s.vslot s.swap.slot
    let one := s.swap.copyUsed
    let other := s.copyMatches v (!one)
    s.swap.src ≠ 2 ∧ s.copyUsable v one = false ∧ (s.swap.switched = true ∨ other = false))) ∧
    (∃ s : State, ∃ sl : ImageSlice, s.swap.image = some sl ∧ s.swap.verified = false ∧ (s.swap.phase = .reading ∨ s.swap.phase = .programming) ∧
      2 ≤ s.swap.mode ∧ s.swap.src = 2 ∧ s.sliceOk sl = true ∧ imgDigest sl = s.expected ∧ s.swap.mode = 4 ∧ s.swap.phase = .reading) ∧
    (∃ s : State, ∃ sl : ImageSlice, s.swap.image = some sl ∧ s.swap.verified = false ∧ (s.swap.phase = .reading ∨ s.swap.phase = .programming) ∧
      2 ≤ s.swap.mode ∧ s.swap.src = 2 ∧ (s.sliceOk sl = false ∨ imgDigest sl ≠ s.expected)) ∧
    (∃ s : State, (s.swap.image = none ∨ s.swap.verified = true ∨ (s.swap.phase ≠ .reading ∧ s.swap.phase ≠ .programming) ∨ s.swap.mode < 2)) ∧
    (∃ s : State, ∃ sl : ImageSlice, s.swap.staged = some sl ∧ s.swap.mode = 1 ∧ s.swap.phase = .reading ∧ s.nodeWithin 264 10 85 = true ∧
      s.nodeWithin 265 10 85 = true ∧ s.sliceOk sl = true ∧ imgDigest sl = s.expected) ∧
    (∃ s : State, ∃ sl : ImageSlice, s.swap.staged = some sl ∧ s.swap.mode = 1 ∧ s.swap.phase = .reading ∧ s.nodeWithin 264 10 85 = true ∧
      s.nodeWithin 265 10 85 = true ∧ s.sliceOk sl = true ∧ imgDigest sl ≠ s.expected) ∧
    (∃ s : State, ∃ sl : ImageSlice, s.swap.staged = some sl ∧ s.swap.mode = 1 ∧ s.swap.phase = .reading ∧ s.nodeWithin 264 10 85 = true ∧
      s.nodeWithin 265 10 85 = true ∧ s.sliceOk sl = false) ∧
    (∃ s : State, (s.swap.staged = none ∨ s.swap.mode ≠ 1 ∨ s.swap.phase ≠ .reading ∨ s.nodeWithin 264 10 85 = false ∨
    s.nodeWithin 265 10 85 = false)) ∧
    (∃ s : State, ∃ n : Nat, ∃ one : Bool, s.swap.phase = .idle ∧ s.copyUsable (s.vslot n) one = true ∧ (s.copyUsable (s.vslot n) (!one) = false) ∧
      s.nodeWithin 264 10 85 = true ∧ s.nodeWithin 265 10 85 = true) ∧
    (∃ s : State, ∃ n : Nat, (s.swap.phase ≠ .idle ∨ s.copyUsable (s.vslot n) false = s.copyUsable (s.vslot n) true ∨ s.nodeWithin 264 10 85 = false ∨
      s.nodeWithin 265 10 85 = false)) ∧
    (∃ s : State, ∃ i : Nat, ∃ m : Nat, ∃ row : Nat, ∃ bank : Bool, ∃ failing : List Nat, ∃ sl : ImageSlice, i < 256 ∧ s.rowInSwap i m bank row = true ∧ s.swap.image = some sl ∧ ((∀ c ∈ failing, c < 256)) ∧ (let first := (s.rowsOf i m).2.1 == 0
    let ready := (first = true → s.nodeWithin i 10 85 = true ∧ s.rowCharge ≤ s.unreserved) ∧ s.rowFree i first = true
    (ready) ∧ row < 255)) ∧
    (∃ s : State, ∃ i : Nat, ∃ m : Nat, ∃ row : Nat, ∃ bank : Bool, ∃ failing : List Nat, ∃ sl : ImageSlice, i < 256 ∧ s.rowInSwap i m bank row = true ∧ s.swap.image = some sl ∧ ((∀ c ∈ failing, c < 256)) ∧ (let first := (s.rowsOf i m).2.1 == 0
    let ready := (first = true → s.nodeWithin i 10 85 = true ∧ s.rowCharge ≤ s.unreserved) ∧ s.rowFree i first = true
    (ready) ∧ row = 255 ∧ failing = [] ∧ (s.rowsOf i m).2.2 = false ∧ (s.stope i).passCount m bank < 7999999)) ∧
    (∃ s : State, ∃ i : Nat, ∃ m : Nat, ∃ row : Nat, ∃ bank : Bool, ∃ failing : List Nat, ∃ sl : ImageSlice, i < 256 ∧ s.rowInSwap i m bank row = true ∧ s.swap.image = some sl ∧ ((∀ c ∈ failing, c < 256)) ∧ (let first := (s.rowsOf i m).2.1 == 0
    let ready := (first = true → s.nodeWithin i 10 85 = true ∧ s.rowCharge ≤ s.unreserved) ∧ s.rowFree i first = true
    (ready) ∧ row = 255 ∧ failing = [] ∧ (s.rowsOf i m).2.2 = true)) ∧
    (∃ s : State, ∃ i : Nat, ∃ m : Nat, ∃ row : Nat, ∃ bank : Bool, ∃ failing : List Nat, ∃ sl : ImageSlice, i < 256 ∧ s.rowInSwap i m bank row = true ∧ s.swap.image = some sl ∧ ((∀ c ∈ failing, c < 256)) ∧ (let first := (s.rowsOf i m).2.1 == 0
    first = true ∧ s.nodeWithin i 10 85 = false)) ∧
    (∃ s : State, ∃ i : Nat, ∃ m : Nat, ∃ row : Nat, ∃ bank : Bool, ∃ failing : List Nat, ∃ sl : ImageSlice, i < 256 ∧ s.rowInSwap i m bank row = true ∧ s.swap.image = some sl ∧ ((∀ c ∈ failing, c < 256)) ∧ (let first := (s.rowsOf i m).2.1 == 0
    first = true ∧ s.nodeWithin i 10 85 = true ∧ s.unreserved < s.rowCharge)) ∧
    (∃ s : State, ∃ i : Nat, ∃ m : Nat, ∃ row : Nat, ∃ bank : Bool, ∃ failing : List Nat, ∃ sl : ImageSlice, i < 256 ∧ s.rowInSwap i m bank row = true ∧ s.swap.image = some sl ∧ ((∀ c ∈ failing, c < 256)) ∧ (let first := (s.rowsOf i m).2.1 == 0
    ((first = true → s.nodeWithin i 10 85 = true ∧ s.rowCharge ≤ s.unreserved)) ∧ s.rowFree i first = false ∧ (s.stope i).ref ≠ .off)) ∧
    (∃ s : State, ∃ i : Nat, ∃ m : Nat, ∃ row : Nat, ∃ bank : Bool, ∃ failing : List Nat, i < 256 ∧ s.rowInSwap i m bank row = false ∧
      ((∀ c ∈ failing, c < 256)) ∧ (s.rowInRefresh i m bank row = false ∨ s.bankSlice bank = none)) ∧
    (∃ s : State, ∃ i : Nat, ∃ m : Nat, ∃ row : Nat, ∃ bank : Bool, ∃ failing : List Nat, ∃ sl : ImageSlice, i < 256 ∧ s.rowInSwap i m bank row = false ∧ ((∀ c ∈ failing, c < 256)) ∧ (let r := s.refreshOf (bankKey i m bank)
    let first := r.iters == 0
    s.rowInRefresh i m bank row = true ∧ s.bankSlice bank = some sl ∧ ((first = true → s.nodeWithin i 10 85 = true ∧ s.rowCharge ≤ s.unreserved)) ∧
      s.rowFree i first = true ∧ (s.stope i).worn m bank = false ∧ row < 255 ∧ (failing = [] ∨ r.iters < 15))) ∧
    (∃ s : State, ∃ i : Nat, ∃ m : Nat, ∃ bank : Bool, s.refreshDue i m bank = false) ∧
    (∃ s : State, ∃ i : Nat, ∃ m : Nat, ∃ bank : Bool, let r := s.refreshOf (bankKey i m bank)
    (r.means ≠ .held ∨ s.now < r.since + 1000000000)) ∧
    (∃ s : State, ∃ i : Nat, ∃ m : Nat, ∃ bank : Bool, ∃ cmd : Instr, let r := s.refreshOf (bankKey i m bank)
    let serving := bank == (s.stope i).bank || (!(bit (s.rd (planCtrl i)) 0) && bank == bit (s.rd (planCtrl i)) 1)
    ((cmd = .bankRefresh i m bank ∧ s.refreshDue i m bank = true) ∨
         (cmd = .refreshRetry i m bank ∧ r.means = .held ∧ r.since + 1000000000 ≤ s.now)) ∧ serving = false) ∧
    (∃ s : State, ∃ i : Nat, ∃ m : Nat, ∃ bank : Bool, ∃ cmd : Instr, let r := s.refreshOf (bankKey i m bank)
    let serving := bank == (s.stope i).bank || (!(bit (s.rd (planCtrl i)) 0) && bank == bit (s.rd (planCtrl i)) 1)
    ((cmd = .bankRefresh i m bank ∧ s.refreshDue i m bank = true) ∨
         (cmd = .refreshRetry i m bank ∧ r.means = .held ∧ r.since + 1000000000 ≤ s.now)) ∧ ∃ p : Nat, serving = true ∧ s.freeSpare i false = some p) ∧
    (∃ s : State, ∃ i : Nat, ∃ m : Nat, ∃ bank : Bool, ∃ cmd : Instr, let r := s.refreshOf (bankKey i m bank)
    let serving := bank == (s.stope i).bank || (!(bit (s.rd (planCtrl i)) 0) && bank == bit (s.rd (planCtrl i)) 1)
    ((cmd = .bankRefresh i m bank ∧ s.refreshDue i m bank = true) ∨
         (cmd = .refreshRetry i m bank ∧ r.means = .held ∧ r.since + 1000000000 ≤ s.now)) ∧ serving = true ∧ s.freeSpare i false = none ∧
           ((s.stope i).seam (seamOf m)).mode = .checked ∧ (s.stope i).seams.length = 4 ∧ seamOf m < 4) ∧
    (∃ s : State, ∃ i : Nat, ∃ m : Nat, ∃ bank : Bool, ∃ cmd : Instr, let r := s.refreshOf (bankKey i m bank)
    let serving := bank == (s.stope i).bank || (!(bit (s.rd (planCtrl i)) 0) && bank == bit (s.rd (planCtrl i)) 1)
    ((cmd = .bankRefresh i m bank ∧ s.refreshDue i m bank = true) ∨
         (cmd = .refreshRetry i m bank ∧ r.means = .held ∧ r.since + 1000000000 ≤ s.now)) ∧ serving = true ∧ s.freeSpare i false = none ∧
           ((s.stope i).seam (seamOf m)).mode ≠ .checked ∧ s.tally.log.length < logCap) ∧
    (∃ s : State, let late := (s.swap.phase = .tempHeld ∧ (∃ since, s.swap.inWindow = some since ∧ since + 10000000 ≤ s.now) ∧
       ∀ n ∈ s.swapNodes, s.nodeWithin n 13 82 = true)
    (¬ late)) ∧
    (∃ s : State, let late := (s.swap.phase = .tempHeld ∧ (∃ since, s.swap.inWindow = some since ∧ since + 10000000 ≤ s.now) ∧
       ∀ n ∈ s.swapNodes, s.nodeWithin n 13 82 = true)
    (late) ∧ (s.swap.image = none ∨ (s.swap.verified = false ∧ s.swap.heldFrom ≠ .rollback))) ∧
    (∃ s : State, let late := (s.swap.phase = .tempHeld ∧ (∃ since, s.swap.inWindow = some since ∧ since + 10000000 ≤ s.now) ∧
       ∀ n ∈ s.swapNodes, s.nodeWithin n 13 82 = true)
    (late) ∧ s.swap.heldFrom ≠ .tempHeld) ∧
    (∃ s : State, ∃ since : Nat, s.swap.phase = .tempHeld ∧ s.swap.holdSince = some since ∧ (since + fld (s.rd swapTempWait) 17 0 * 1000000 ≤ s.now) ∧
      s.swap.heldFrom ≠ .barrier ∧ s.swap.heldFrom ≠ .rollback) ∧
    (∃ s : State, ∃ since : Nat, s.swap.phase = .tempHeld ∧ s.swap.holdSince = some since ∧ (since + fld (s.rd swapTempWait) 17 0 * 1000000 ≤ s.now) ∧
      s.swap.heldFrom = .barrier) ∧
    (∃ s : State, ∃ since : Nat, s.swap.phase = .tempHeld ∧ s.swap.holdSince = some since ∧ (since + fld (s.rd swapTempWait) 17 0 * 1000000 ≤ s.now) ∧
      s.swap.heldFrom = .rollback) ∧
    (∃ s : State, (s.swap.phase ≠ .tempHeld ∨ s.swap.holdSince = none ∨
    (∀ since, s.swap.holdSince = some since → s.now < since + fld (s.rd swapTempWait) 17 0 * 1000000))) :=
  ⟨⟨withSwap (fun w => { w with slots := [(0, bigSlot)], image := some bigImg, mode := 4, phase := .reading }), bigImg, rfl, rfl, .inl rfl,
    by decide +kernel, by decide +kernel, bigImg_usable _ _ _ rfl rfl rfl 0 rfl, rfl, rfl⟩,
   ⟨withSwap (fun w => { w with slots := [(0, bigSlot)], image := some bigImg, mode := 2, phase := .programming }), bigImg, rfl, rfl, .inr rfl,
    by decide +kernel, by decide +kernel, bigImg_usable _ _ _ rfl rfl rfl 0 rfl, by decide +kernel, by decide +kernel⟩,
   ⟨withSwap (fun w => { w with slots := [(0, bigSlot)], image := some bigImg, mode := 3, phase := .programming, rows := imageMacros.map fun m => (m, (256, 0, false)) }),
    bigImg, rfl, rfl, .inr rfl, by decide +kernel, by decide +kernel, bigImg_usable _ _ _ rfl rfl rfl 0 rfl, rfl, by decide +kernel⟩,
   ⟨withSwap (anOp 4 .reading), anImg, by decide +kernel⟩,
   ⟨withSwap (fun w => { anOp 2 .reading w with switched := true }), anImg, by decide +kernel⟩,
   ⟨expecting (withSwap (fun w => { anOp 4 .reading w with image := some bigImg, src := 2 })) bigDigest, bigImg, rfl, rfl, .inl rfl, by decide +kernel,
    rfl, bigImg_sound _ rfl, bigImg_digest.trans (expecting_expected _ _ bigDigest_length).symm, rfl, rfl⟩,
   ⟨withSwap (fun w => { anOp 2 .reading w with src := 2 }), anImg, by decide +kernel⟩,
   ⟨withSwap (fun w => { anOp 1 .reading w with staged := some anImg }), by decide +kernel⟩,
   ⟨expecting (withSwap (fun w => { anOp 1 .reading w with staged := some bigImg })) bigDigest, bigImg, ⟨rfl, rfl, rfl, by decide +kernel,
    by decide +kernel, bigImg_sound _ rfl, bigImg_digest.trans (expecting_expected _ _ bigDigest_length).symm⟩⟩,
   ⟨expecting (withSwap (fun w => { anOp 1 .reading w with staged := some bigImg })) otherDigest, bigImg, ⟨rfl, rfl, rfl, by decide +kernel,
    by decide +kernel, bigImg_sound _ rfl,
    fun h => otherDigest_ne (bigImg_digest.symm.trans (h.trans (expecting_expected _ _ otherDigest_length)))⟩⟩,
   ⟨withSwap (fun w => { anOp 1 .reading w with staged := some anImg }), anImg, by decide +kernel⟩,
   ⟨withSwap (anOp 4 .reading), by decide +kernel⟩,
   ⟨withSwap (fun w => { w with slots := [(0, bigSlot)] }), 0, false, ⟨rfl, bigImg_usable _ _ _ rfl rfl rfl 0 rfl, rfl, by decide +kernel,
    by decide +kernel⟩⟩,
   ⟨withSwap (anOp 4 .reading), 0, by decide +kernel⟩,
   ⟨withRow (anOp 2 .reading), 0, 0, 0, false, [1], anImg, by decide, by decide +kernel, by decide +kernel, by decide, ⟨fun _ => ⟨by decide +kernel,
    withRow_charge _⟩, by decide +kernel⟩, by decide⟩,
   ⟨withRow (fun w => { anOp 2 .reading w with rows := [(0, (255, 0, false))] }), 0, 0, 255, false, [], anImg, by decide, by decide +kernel,
    by decide +kernel, by decide, ⟨fun _ => ⟨by decide +kernel, withRow_charge _⟩, by decide +kernel⟩, by decide +kernel⟩,
   ⟨withRow (fun w => { anOp 2 .reading w with rows := [(0, (255, 0, true))] }), 0, 0, 255, false, [], anImg, by decide, by decide +kernel,
    by decide +kernel, by decide, ⟨fun _ => ⟨by decide +kernel, withRow_charge _⟩, by decide +kernel⟩, by decide +kernel⟩,
   ⟨let s := withRow (anOp 2 .reading); { s with hf := { s.hf with nodes := [(0, { TNode.reset with temp := 25600 })] } }, 0, 0, 0, false, [1], anImg,
    by decide +kernel⟩,
   ⟨poorRow, 0, 0, 0, false, [1], anImg, by decide, by decide +kernel, by decide +kernel, by decide, by decide +kernel, by decide +kernel,
    poorRow_charge⟩,
   ⟨(withSwap (fun w => { anOp 2 .reading w with rows := [(0, (0, 1, false))] })).setStope 0 { Stope.reset with ref := .warming }, 0, 0, 0, false, [1],
    anImg, by decide +kernel⟩,
   ⟨withSwap (anOp 4 .reading), 0, 0, 0, false, [1], by decide +kernel⟩,
   ⟨bankARefresh, 0, 0, 0, false, [], bigImg, by decide, by decide +kernel, by decide, by decide +kernel, bankARefresh_slice,
    fun h => absurd h (by decide +kernel), by decide +kernel, by decide +kernel, by decide, .inl rfl⟩,
   ⟨withSwap id, 0, 0, false, by decide +kernel⟩,
   ⟨withSwap id, 0, 0, false, by decide +kernel⟩,
   ⟨withSwap (fun w => { w with refresh := [(bankKey 0 0 true, { Refresh.none with means := .due })] }), 0, 0, true, .bankRefresh 0 0 true,
    by decide +kernel⟩,
   ⟨withSwap (fun w => { w with refresh := [(bankKey 0 0 false, { Refresh.none with means := .due })] }), 0, 0, false, .bankRefresh 0 0 false,
    by decide +kernel, 72, by decide +kernel⟩,
   ⟨(withSwap (fun w => { w with refresh := [(bankKey 0 0 false, { Refresh.none with means := .due })] })).setStope 0 (([72, 73].foldl (fun t p => t.setSpare p { Spare.free with used := true }) Stope.reset)),
    0, 0, false, .bankRefresh 0 0 false, by decide +kernel⟩,
   ⟨(withSwap (fun w => { w with refresh := [(bankKey 0 0 false, { Refresh.none with means := .due })] })).setStope 0 (([72, 73].foldl (fun t p => t.setSpare p { Spare.free with used := true }) Stope.reset).updSeam 0 fun g => { g with mode := .recon }),
    0, 0, false, .bankRefresh 0 0 false, by decide +kernel⟩,
   ⟨withSwap (anOp 4 .reading), by decide +kernel⟩,
   ⟨withSwap (fun w => { anOp 2 .tempHeld w with inWindow := some 0, heldFrom := .reading }), by decide +kernel⟩,
   ⟨withSwap (fun w => { anOp 2 .tempHeld w with inWindow := some 0, heldFrom := .reading }), by decide +kernel⟩,
   ⟨withSwap (fun w => { anOp 2 .tempHeld w with holdSince := some 0, heldFrom := .reading }), 0, by decide +kernel⟩,
   ⟨withSwap (fun w => { anOp 4 .tempHeld w with holdSince := some 0, heldFrom := .barrier }), 0, by decide +kernel⟩,
   ⟨withSwap (fun w => { anOp 4 .tempHeld w with holdSince := some 0, heldFrom := .rollback }), 0, by decide +kernel⟩,
   ⟨withSwap (anOp 4 .reading), by decide +kernel⟩⟩

/-- The hypotheses of JobBarrierActs can be met, clause by clause. -/
theorem witness_JobBarrierActs :
    (∃ s : State, ∃ dev : Nat, ∃ report : Nat, ∃ gen : Nat, let rs := (s.swap.reports.filter fun r => r.1 != dev) ++ [(dev, report, gen)]
    let all := ∀ d ∈ s.jobDevices, ∃ r ∈ rs, r.1 = d
    s.isIngress = true ∧ (dev ∈ s.jobDevices) ∧ report ≤ 1 ∧ s.wnd.barrier = false ∧
      (s.swap.commitAt = none ∨ s.swap.image = none ∨ s.swap.phase ≠ .ready ∨ ¬ all)) ∧
    (∃ s : State, ∃ dev : Nat, ∃ report : Nat, ∃ gen : Nat, let rs := (s.swap.reports.filter fun r => r.1 != dev) ++ [(dev, report, gen)]
    let all := ∀ d ∈ s.jobDevices, ∃ r ∈ rs, r.1 = d
    s.isIngress = true ∧ (dev ∈ s.jobDevices) ∧ report ≤ 1 ∧ s.wnd.barrier = false ∧ ∃ sl : ImageSlice, s.swap.commitAt.isSome = true ∧
      s.swap.image = some sl ∧ s.swap.phase = .ready ∧ (all) ∧ ((∀ r ∈ rs, r.2.2 = imgGen sl))) ∧
    (∃ s : State, ∃ dev : Nat, ∃ report : Nat, ∃ gen : Nat, let rs := (s.swap.reports.filter fun r => r.1 != dev) ++ [(dev, report, gen)]
    let all := ∀ d ∈ s.jobDevices, ∃ r ∈ rs, r.1 = d
    s.isIngress = true ∧ (dev ∈ s.jobDevices) ∧ report ≤ 1 ∧ s.wnd.barrier = false ∧ ∃ sl : ImageSlice, s.swap.commitAt.isSome = true ∧
      s.swap.image = some sl ∧ s.swap.phase = .ready ∧ (all) ∧ ((∃ r ∈ rs, r.2.2 ≠ imgGen sl))) ∧
    (∃ s : State, ∃ dev : Nat, ∃ report : Nat, s.isIngress = true ∧ (dev ∈ s.jobDevices) ∧ report = 2 ∧ s.wnd.barrier = false) ∧
    (∃ s : State, ∃ dev : Nat, ∃ report : Nat, s.isIngress = true ∧ (dev ∈ s.jobDevices) ∧ 3 ≤ report ∧ s.wnd.barrier = true ∧ s.swap.actionSent = true ∧
      (dev ∉ s.swap.acks)) ∧
    (∃ s : State, ∃ dev : Nat, ∃ report : Nat, (s.isIngress = false ∨ dev ∉ s.jobDevices ∨ (report ≤ 2 ∧ s.wnd.barrier = true) ∨
         (3 ≤ report ∧ (s.wnd.barrier = false ∨ s.swap.actionSent = false ∨ dev ∈ s.swap.acks)))) ∧
    (∃ s : State, let late := (s.isIngress = true ∧ s.wnd.barrier = false ∧ s.allReported = false ∧
       ∃ since, s.swap.commitAt = some since ∧ since + fld (s.rd swapTimeout) 15 0 * 1000000 ≤ s.now)
    (late)) ∧
    (∃ s : State, let late := (s.isIngress = true ∧ s.wnd.barrier = false ∧ s.allReported = false ∧
       ∃ since, s.swap.commitAt = some since ∧ since + fld (s.rd swapTimeout) 15 0 * 1000000 ≤ s.now)
    (¬ late)) ∧
    (∃ s : State, let now := (s.isIngress = true ∧ s.wnd.barrier = true ∧ s.swap.actionSent = false ∧ s.swap.phase = .barrier ∧
       ∀ p ∈ s.wnd.streams, p.2.flying = none)
    (now)) ∧
    (∃ s : State, let now := (s.isIngress = true ∧ s.wnd.barrier = true ∧ s.swap.actionSent = false ∧ s.swap.phase = .barrier ∧
       ∀ p ∈ s.wnd.streams, p.2.flying = none)
    (¬ now)) ∧
    (∃ s : State, let now := (s.swap.mode = 3 ∧ (s.swap.phase = .ready ∨ s.swap.phase = .barrier) ∧ s.swap.flipped = false ∧
       ∀ i ∈ s.imageStopes, (s.stope i).allIdle = true)
    (now)) ∧
    (∃ s : State, let now := (s.swap.mode = 3 ∧ (s.swap.phase = .ready ∨ s.swap.phase = .barrier) ∧ s.swap.flipped = false ∧
       ∀ i ∈ s.imageStopes, (s.stope i).allIdle = true)
    (¬ now)) ∧
    (∃ s : State, ∃ dev : Nat, let other := s.isIngress = true ∧ s.wnd.barrier = true ∧ s.swap.jobMode = 4 ∧ dev ∈ s.jobDevices
    dev ≠ s.edge.devId ∧ (other)) ∧
    (∃ s : State, ∃ dev : Nat, let own := s.swap.mode = 4 ∧ s.swap.phase = .barrier
    dev = s.edge.devId ∧ (own)) ∧
    (∃ s : State, ∃ dev : Nat, let own := s.swap.mode = 4 ∧ s.swap.phase = .barrier
    let other := s.isIngress = true ∧ s.wnd.barrier = true ∧ s.swap.jobMode = 4 ∧ dev ∈ s.jobDevices
    ((dev ≠ s.edge.devId ∧ ¬ other) ∨ (dev = s.edge.devId ∧ ¬ own))) ∧
    (∃ s : State, let now := s.swap.mode = 4 ∧ (s.swap.phase = .barrier ∨ s.swap.phase = .ready ∨ s.swap.phase = .tempHeld)
    (¬ now)) ∧
    (∃ s : State, let now := s.swap.mode = 4 ∧ (s.swap.phase = .barrier ∨ s.swap.phase = .ready ∨ s.swap.phase = .tempHeld)
    (now) ∧ s.swap.rows = []) ∧
    (∃ s : State, let now := s.swap.mode = 4 ∧ (s.swap.phase = .barrier ∨ s.swap.phase = .ready ∨ s.swap.phase = .tempHeld)
    ∃ r : Install, ∃ sl : ImageSlice, (now) ∧ s.swap.prev = some r ∧ s.slotSlice r.slot = some sl ∧ s.swap.rows ≠ [] ∧
      ((∃ p ∈ s.swap.rows, (s.stope (p.1 / 128)).worn (p.1 % 128) s.swap.target = false))) ∧
    (∃ s : State, let now := s.swap.mode = 4 ∧ (s.swap.phase = .barrier ∨ s.swap.phase = .ready ∨ s.swap.phase = .tempHeld)
    (now) ∧ ((s.swap.prev.bind fun r => s.slotSlice r.slot) = none) ∧ s.swap.rows ≠ []) ∧
    (∃ s : State, let now := (s.isIngress = true ∧ s.wnd.barrier = true ∧ s.swap.actionSent = true ∧
       (s.swap.jobMode = 3 → ∀ d ∈ s.jobDevices, d ∈ s.swap.acks) ∧ (s.swap.jobMode ≠ 3 → s.swap.layersLeft = []))
    (now)) ∧
    (∃ s : State, let now := (s.isIngress = true ∧ s.wnd.barrier = true ∧ s.swap.actionSent = true ∧
       (s.swap.jobMode = 3 → ∀ d ∈ s.jobDevices, d ∈ s.swap.acks) ∧ (s.swap.jobMode ≠ 3 → s.swap.layersLeft = []))
    (¬ now)) ∧
    (∃ s : State, ∃ sl : ImageSlice, s.swap.image = some sl ∧ (let now := (s.swap.verified = true ∧ s.wnd.barrier = false ∧
       ((s.swap.mode = 2 ∧ (s.swap.phase = .reading ∨ s.swap.phase = .programming) ∧ s.allDone = true) ∨
        (s.swap.mode = 3 ∧ s.swap.flipped = true) ∨ (s.swap.mode = 4 ∧ s.swap.phase = .barrier ∧ s.allDone = true)))
    (now) ∧ (imgGen sl < 2 ^ 64))) ∧
    (∃ s : State, ∃ sl : ImageSlice, s.swap.image = some sl ∧ (let now := (s.swap.verified = true ∧ s.wnd.barrier = false ∧
       ((s.swap.mode = 2 ∧ (s.swap.phase = .reading ∨ s.swap.phase = .programming) ∧ s.allDone = true) ∨
        (s.swap.mode = 3 ∧ s.swap.flipped = true) ∨ (s.swap.mode = 4 ∧ s.swap.phase = .barrier ∧ s.allDone = true)))
    (¬ now))) :=
  ⟨⟨withSwap (fun w => { w with reports := [(State.reset.edge.devId, 0, 1)] }), State.reset.edge.devId, 1, State.reset.edge.devId, by decide +kernel⟩,
   ⟨withSwap (fun w => { anOp 3 .ready w with commitAt := some 0 }), State.reset.edge.devId, 1, 0, by decide +kernel, by decide +kernel,
    by decide +kernel, by decide +kernel, anImg, by decide +kernel⟩,
   ⟨withSwap (fun w => { anOp 3 .ready w with commitAt := some 0 }), State.reset.edge.devId, 1, State.reset.edge.devId, by decide +kernel,
    by decide +kernel, by decide +kernel, by decide +kernel, anImg, by decide +kernel⟩,
   ⟨withSwap (fun w => { w with reports := [(State.reset.edge.devId, 0, 1)] }), State.reset.edge.devId, 2, by decide +kernel⟩,
   ⟨atBarrier (fun w => { anOp 3 .barrier w with actionSent := true }), 7, State.reset.edge.devId, by decide +kernel⟩,
   ⟨withSwap (fun w => { w with reports := [(State.reset.edge.devId, 0, 1)] }), State.reset.edge.devId, State.reset.edge.devId, by decide +kernel⟩,
   ⟨withSwap (fun w => { anOp 3 .ready w with commitAt := some 0 }), by decide +kernel⟩,
   ⟨withSwap (fun w => { w with reports := [(State.reset.edge.devId, 0, 1)] }), by decide +kernel⟩,
   ⟨atBarrier (fun w => { anOp 4 .barrier w with jobMode := 4 }), by decide +kernel⟩,
   ⟨withSwap (fun w => { w with reports := [(State.reset.edge.devId, 0, 1)] }), by decide +kernel⟩,
   ⟨atBarrier (fun w => { anOp 3 .barrier w with actionSent := true }), by decide +kernel⟩,
   ⟨withSwap (fun w => { w with reports := [(State.reset.edge.devId, 0, 1)] }), by decide +kernel⟩,
   ⟨atBarrier (fun w => { anOp 4 .barrier w with jobMode := 4 }), 7, by decide +kernel⟩,
   ⟨atBarrier (fun w => { anOp 4 .barrier w with jobMode := 4 }), State.reset.edge.devId, by decide +kernel⟩,
   ⟨withSwap (fun w => { w with reports := [(State.reset.edge.devId, 0, 1)] }), State.reset.edge.devId, by decide +kernel⟩,
   ⟨withSwap (fun w => { w with reports := [(State.reset.edge.devId, 0, 1)] }), by decide +kernel⟩,
   ⟨atBarrier (fun w => { anOp 4 .barrier w with jobMode := 4 }), by decide +kernel⟩,
   ⟨withSwap (fun w => { w with slots := [(0, bigSlot)], mode := 4, phase := .barrier, prev := some { slot := 0, digest := bigDigest, gen := 0 }, rows := [(0, (256, 0, false))] }),
    { slot := 0, digest := bigDigest, gen := 0 }, bigImg, ⟨rfl, .inl rfl⟩, rfl, bigSlot_slice _ _ rfl rfl rfl, by decide +kernel, by decide +kernel⟩,
   ⟨withSwap (fun w => { anOp 4 .barrier w with rows := [(0, (5, 0, false))] }), by decide +kernel⟩,
   ⟨atBarrier (fun w => { anOp 3 .barrier w with actionSent := true }), by decide +kernel⟩,
   ⟨withSwap (fun w => { w with reports := [(State.reset.edge.devId, 0, 1)] }), by decide +kernel⟩,
   ⟨withSwap (fun w => { anOp 3 .barrier w with flipped := true, verified := true }), anImg, by decide +kernel⟩,
   ⟨atBarrier (fun w => { anOp 3 .barrier w with actionSent := true }), anImg, by decide +kernel⟩⟩

/-- The hypotheses of FaultySeamsAreLocalised can be met, clause by clause. -/
theorem witness_FaultySeamsAreLocalised :
    (∃ s : State, ∃ i : Nat, ∃ k : Nat, k < 4 ∧ (s.stope i).seams.length = 4 ∧ ((s.stope i).seam k).mode ≠ .localising) ∧
    (∃ s : State, ∃ i : Nat, ∃ k : Nat, ∃ rs : List (Nat × Nat × List Nat), k < 4 ∧ (s.stope i).seams.length = 4 ∧
      ((s.stope i).seam k).mode = .localising ∧ ((∀ r ∈ rs, r.1 ∈ (s.stope i).converting k → r.2.1 = 0))) ∧
    (∃ s : State, ∃ i : Nat, ∃ k : Nat, ∃ m : Nat, i < 256 ∧ k < 4 ∧ m < 64 ∧ seamOf m = k ∧ (s.stope i).seams.length = 4 ∧
      ((s.stope i).seam k).mode = .localising ∧ (m ∈ (s.stope i).converting k) ∧ (s.stope i).phys m = m ∧ s.macroDead i m = false ∧
      s.tally.entries.length < tallyCap) ∧
    (∃ s : State, ∃ i : Nat, ∃ k : Nat, ∃ m : Nat, ∃ n : Nat, ∃ r : Nat, i < 256 ∧ k < 4 ∧ m < 64 ∧ n < 64 ∧ m ≠ n ∧ (s.stope i).seams.length = 4 ∧
      ((s.stope i).seam k).mode = .localising ∧ (m ∈ (s.stope i).converting k) ∧ (n ∈ (s.stope i).converting k) ∧ (s.stope i).phys m = m ∧
      (s.stope i).phys n = n ∧ s.macroDead i m = false ∧ s.macroDead i n = false ∧ (s.tally.entries.length + 1 < tallyCap) ∧
      s.stopeRegion i = some r) ∧
    (∃ s : State, ∃ i : Nat, ∃ k : Nat, k < 4 ∧ (s.stope i).seams.length = 4 ∧ ((s.stope i).seam k).mode = .suspect ∧
      (((s.stope i).seam k).lastMismatch + 10000000000 ≤ s.now)) ∧
    (∃ s : State, ∃ i : Nat, ∃ k : Nat, k < 4 ∧ (s.stope i).seams.length = 4 ∧ ((s.stope i).seam k).mode = .suspect ∧
      (s.now < ((s.stope i).seam k).lastMismatch + 10000000000)) ∧
    (∃ s : State, ∃ f : Nat, ∃ i : Nat, i < 256 ∧ s.mayWrite f (checkCtrl i) = true ∧ (s.stope i).seams.length = 4) ∧
    (∃ s : State, ∃ lost : Nat, s.isIngress = true ∧ (lost ∈ s.wnd.sliceHold)) ∧
    (∃ s : State, ∃ lost : Nat, (s.isIngress = false ∨ lost ∉ s.wnd.sliceHold)) :=
  ⟨⟨seamIn .suspect 0, 0, 0, by decide +kernel⟩,
   ⟨seamIn .localising 0, 0, 0, [(0, 0, []), (65, 0, [])], by decide +kernel⟩,
   ⟨seamIn .localising 0, 0, 0, 0, by decide +kernel⟩,
   ⟨seamIn .localising 0, 0, 0, 0, 1, 0, by decide +kernel⟩,
   ⟨seamIn .suspect 0, 0, 0, by decide +kernel⟩,
   ⟨seamIn .suspect 4999999999999, 0, 0, by decide +kernel⟩,
   ⟨seamIn .localising 0, 0, 0, by decide +kernel⟩,
   ⟨{ withSwap id with wnd := { (withSwap id).wnd with sliceHold := [7, 8], job := { noJob with devices := [7, 9] } } }, 7, by decide +kernel⟩,
   ⟨seamIn .localising 0, 0, by decide +kernel⟩⟩

/-- The hypotheses of SparesAndPartnersTakeOver can be met, clause by clause. -/
theorem witness_SparesAndPartnersTakeOver :
    (∃ p : Nat, p ≠ 72 ∧ p ≠ 73) ∧
    (∃ s : State, ∃ i : Nat, ∃ p : Nat, ∃ bank : Bool, let x := (s.stope i).spare p
    let fits (y : Spare) : Prop := (y.used = true ∧ y.live = false ∧ bank ∈ (s.stope i).heldBanks y.target ∧ bank ∉ y.ready ∧
       (s.refreshOf (bankKey i p bank)).means = .off ∧ (s.bankSlice bank).isSome = true)
    (p = 72 ∨ p = 73) ∧ (x.used = true ∨ s.freeSpare i false ≠ some p ∨ s.unserved i = none) ∧ (fits x)) ∧
    (∃ s : State, ∃ i : Nat, ∃ p : Nat, ∃ bank : Bool, let x := (s.stope i).spare p
    let fits (y : Spare) : Prop := (y.used = true ∧ y.live = false ∧ bank ∈ (s.stope i).heldBanks y.target ∧ bank ∉ y.ready ∧
       (s.refreshOf (bankKey i p bank)).means = .off ∧ (s.bankSlice bank).isSome = true)
    (p = 72 ∨ p = 73) ∧ (x.used = true ∨ s.freeSpare i false ≠ some p ∨ s.unserved i = none) ∧ (¬ fits x)) ∧
    (∃ s : State, ∃ i : Nat, ∃ p : Nat, let x := (s.stope i).spare p
    ∃ m : Nat, x.used = false ∧ s.freeSpare i false = some p ∧ s.unserved i = some m) ∧
    (∃ s : State, ∃ i : Nat, ∃ p : Nat, (p = 72 ∨ p = 73) ∧ (let x := (s.stope i).spare p
    let k := seamOf x.target
    ((s.stope i).spareReady p = false ∨ ((s.stope i).seq k).busy = true))) ∧
    (∃ s : State, ∃ i : Nat, ∃ p : Nat, (p = 72 ∨ p = 73) ∧ (let x := (s.stope i).spare p
    let k := seamOf x.target
    (s.stope i).spareReady p = true ∧ k < 4 ∧ (s.stope i).seams.length = 4 ∧ ((s.stope i).seq k).busy = false ∧ s.tally.log.length < logCap)) ∧
    (∃ s : State, ∃ i : Nat, i < 256 ∧ s.isPermanent (unitCore i) = true ∧ (s.core i).permanent = false ∧ (let b := if i % 2 = 0 then i + 1 else i - 1
    (s.core b).permanent = false ∧ s.isPermanent (unitCore b) = false ∧ s.tally.log.length < logCap)) ∧
    (∃ s : State, ∃ i : Nat, i < 256 ∧ s.isPermanent (unitCore i) = true ∧ (s.core i).permanent = false ∧ (let b := if i % 2 = 0 then i + 1 else i - 1
    ∃ r : Nat, ((s.core b).permanent = true ∨ s.isPermanent (unitCore b) = true) ∧ s.stopeRegion i = some r)) ∧
    (∃ s : State, ∃ i : Nat, (256 ≤ i ∨ s.isPermanent (unitCore i) = false ∨ (s.core i).permanent = true)) ∧
    (∃ s : State, ∃ m : Nat, m < 16 ∧ (s.isPermanent (unitCore (256 + m)) = true) ∧ ((s.core (256 + m)).permanent = false) ∧ (let p := 256 + (if m % 2 = 0 then m + 1 else m - 1)
    (s.core p).permanent = false ∧ s.isPermanent (unitCore p) = false ∧ (s.coreRegion (256 + m) ≠ none) ∧ (s.coreRegion (256 + m) = s.coreRegion p) ∧
      s.tally.log.length < logCap)) ∧
    (∃ s : State, ∃ m : Nat, m < 16 ∧ (s.isPermanent (unitCore (256 + m)) = true) ∧ ((s.core (256 + m)).permanent = false) ∧ (let p := 256 + (if m % 2 = 0 then m + 1 else m - 1)
    ∃ r : Nat, (s.coreRegion (256 + m) = some r) ∧ (s.coreRegion p ≠ some r ∨ (s.core p).permanent = true ∨ s.isPermanent (unitCore p) = true))) ∧
    (∃ s : State, ∃ m : Nat, (16 ≤ m ∨ s.isPermanent (unitCore (256 + m)) = false ∨ (s.core (256 + m)).permanent = true)) :=
  ⟨⟨0, by decide +kernel⟩,
   ⟨bankABig, 0, 72, false, .inl rfl, .inl rfl, by decide +kernel, by decide +kernel, by decide +kernel, by decide +kernel, by decide +kernel,
    bankABig_slice⟩,
   ⟨withSeam (fun t => (spareSet t).updSeam 0 fun g => { g with mode := .recon, mac := 0 }), 0, 72, false, by decide +kernel⟩,
   ⟨withDead (unitMacro 0 5) (withSeam id), 0, 72, 5, by decide +kernel⟩,
   ⟨withSeam (fun t => (spareSet t).updSeam 0 fun g => { g with mode := .recon, mac := 0 }), 72, 72, by decide +kernel⟩,
   ⟨withSeam (fun t => (spareSet t).updSeam 0 fun g => { g with mode := .recon, mac := 0 }), 0, 72, by decide +kernel⟩,
   ⟨withDead (unitCore 0) (withSeam id), 0, by decide +kernel⟩,
   ⟨(withDead (unitCore 0) (withSeam id)).setCore 1 { Core.reset with permanent := true }, 0, by decide +kernel, by decide +kernel, by decide +kernel,
    0, by decide +kernel⟩,
   ⟨withSeam (fun t => (spareSet t).updSeam 0 fun g => { g with mode := .recon, mac := 0 }), 0, by decide +kernel⟩,
   ⟨withDead (unitCore 256) (withSeam id), 0, by decide +kernel⟩,
   ⟨(withDead (unitCore 256) (withSeam id)).wr (nocEdge 0) 0x100, 0, by decide +kernel, by decide +kernel, by decide +kernel, 0, by decide +kernel⟩,
   ⟨withSeam (fun t => (spareSet t).updSeam 0 fun g => { g with mode := .recon, mac := 0 }), 0, by decide +kernel⟩⟩

/-- The hypotheses of CanariesAndAssaysJudge can be met, clause by clause. -/
theorem witness_CanariesAndAssaysJudge :
    (∃ s : State, ∃ f : Nat, ∃ i : Nat, i < 256 ∧ s.mayWrite f (checkCtrl i) = true) ∧
    (∃ s : State, ∃ kind : Nat, ∃ unit : Nat, ∃ bank : Bool, let due := (bit (s.rd assayCtrl) 0 = true ∧ (kind ≠ 3 ∨ bit (s.rd assayCtrl) 1 = true) ∧ s.assayable kind unit bank = true ∧
       (∃ p, s.cadence kind unit = some p ∧ Table.get 0 s.tally.pastDone (assayKey kind unit bank) + p ≤ s.now) ∧
       ∀ d ∈ s.tally.due, ¬(d.kind = kind ∧ d.unit = unit ∧ d.bank = bank))
    (due)) ∧
    (∃ s : State, ∃ kind : Nat, ∃ unit : Nat, ∃ bank : Bool, let due := (bit (s.rd assayCtrl) 0 = true ∧ (kind ≠ 3 ∨ bit (s.rd assayCtrl) 1 = true) ∧ s.assayable kind unit bank = true ∧
       (∃ p, s.cadence kind unit = some p ∧ Table.get 0 s.tally.pastDone (assayKey kind unit bank) + p ≤ s.now) ∧
       ∀ d ∈ s.tally.due, ¬(d.kind = kind ∧ d.unit = unit ∧ d.bank = bank))
    (¬ due)) ∧
    (∃ s : State, ∃ kind : Nat, ∃ unit : Nat, ∃ bank : Bool, let late (d : Due) : Bool := (d.kind == kind && d.unit == unit && d.bank == bank && !d.forced &&
       decide (d.since + fld (s.rd assayDefer) 15 0 * 1000000 ≤ s.now))
    s.tally.due.any late = true ∧ s.tally.log.length < logCap) ∧
    (∃ s : State, ∃ kind : Nat, ∃ unit : Nat, ∃ bank : Bool, let late (d : Due) : Bool := (d.kind == kind && d.unit == unit && d.bank == bank && !d.forced &&
       decide (d.since + fld (s.rd assayDefer) 15 0 * 1000000 ≤ s.now))
    s.tally.due.any late = false) ∧
    (∃ s : State, ∃ kind : Nat, ∃ unit : Nat, ∃ bank : Bool, let same (x : Due) : Bool := x.kind == kind && x.unit == unit && x.bank == bank
    (s.tally.due.find? same = none)) ∧
    (∃ s : State, ∃ kind : Nat, ∃ unit : Nat, ∃ bank : Bool, let same (x : Due) : Bool := x.kind == kind && x.unit == unit && x.bank == bank
    let i := unitStope unit
    ∃ d : Due, (s.tally.due.find? same = some d) ∧ (let warm := kind < 3 ∧ (s.stope i).ref = .off ∧ s.refMode i ≠ 2 ∧ (d.forced = true ∨ warmCost ≤ s.unreserved)
    (warm))) ∧
    (∃ s : State, ∃ kind : Nat, ∃ unit : Nat, ∃ bank : Bool, let same (x : Due) : Bool := x.kind == kind && x.unit == unit && x.bank == bank
    let i := unitStope unit
    ∃ d : Due, (s.tally.due.find? same = some d) ∧ (let warm := kind < 3 ∧ (s.stope i).ref = .off ∧ s.refMode i ≠ 2 ∧ (d.forced = true ∨ warmCost ≤ s.unreserved)
    (¬ warm) ∧ s.slotFree d = false)) ∧
    (∃ s : State, ∃ kind : Nat, ∃ unit : Nat, ∃ bank : Bool, ∃ failing : List Nat, ∃ rows : List Nat, let same (x : Due) : Bool := x.kind == kind && x.unit == unit && x.bank == bank
    let i := unitStope unit
    let own := failing.filter fun x => (unitMacros unit).contains (x / 256)
    let charged := if kind = 3 then failing.map unitCore else chargedUnits i own
    ∃ d : Due, (s.tally.due.find? same = some d) ∧ (kind = 0 ∨ kind = 1 ∨ kind = 3) ∧ s.slotFree d = true ∧ charged = [] ∧ d.retry = false) ∧
    (∃ s : State, ∃ kind : Nat, ∃ unit : Nat, ∃ bank : Bool, ∃ failing : List Nat, ∃ rows : List Nat, let same (x : Due) : Bool := x.kind == kind && x.unit == unit && x.bank == bank
    let i := unitStope unit
    let own := failing.filter fun x => (unitMacros unit).contains (x / 256)
    let charged := if kind = 3 then failing.map unitCore else chargedUnits i own
    ∃ d : Due, (s.tally.due.find? same = some d) ∧ (kind = 0 ∨ kind = 1 ∨ kind = 3) ∧ s.slotFree d = true ∧ charged ≠ [] ∧ d.retry = false) ∧
    (∃ s : State, ∃ kind : Nat, ∃ unit : Nat, ∃ bank : Bool, ∃ failing : List Nat, let same (x : Due) : Bool := x.kind == kind && x.unit == unit && x.bank == bank
    let i := unitStope unit
    let own := failing.filter fun x => (unitMacros unit).contains (x / 256)
    let charged := if kind = 3 then failing.map unitCore else chargedUnits i own
    ∃ d : Due, (s.tally.due.find? same = some d) ∧ (kind = 0 ∨ kind = 1 ∨ kind = 3) ∧ s.slotFree d = true ∧ charged = [] ∧ d.retry = true ∧
      s.tally.entries.length < tallyCap) ∧
    (∃ s : State, ∃ kind : Nat, ∃ unit : Nat, ∃ bank : Bool, ∃ failing : List Nat, let same (x : Due) : Bool := x.kind == kind && x.unit == unit && x.bank == bank
    let i := unitStope unit
    let own := failing.filter fun x => (unitMacros unit).contains (x / 256)
    let charged := if kind = 3 then failing.map unitCore else chargedUnits i own
    ∃ d : Due, (s.tally.due.find? same = some d) ∧ (kind = 0 ∨ kind = 1 ∨ kind = 3) ∧ s.slotFree d = true ∧ charged ≠ [] ∧ d.retry = true ∧
      (s.tally.entries.length + charged.length < tallyCap) ∧ ((kind ≠ 3 → i < 256)) ∧ ((kind = 3 → declarable unit = true))) ∧
    (∃ s : State, ∃ kind : Nat, ∃ unit : Nat, ∃ bank : Bool, ∃ failing : List Nat, let same (x : Due) : Bool := x.kind == kind && x.unit == unit && x.bank == bank
    ∃ d : Due, (s.tally.due.find? same = some d) ∧ kind = 4 ∧ s.slotFree d = true ∧ failing = []) ∧
    (∃ s : State, ∃ kind : Nat, ∃ unit : Nat, ∃ bank : Bool, ∃ failing : List Nat, let same (x : Due) : Bool := x.kind == kind && x.unit == unit && x.bank == bank
    ∃ d : Due, (s.tally.due.find? same = some d) ∧ kind = 4 ∧ s.slotFree d = true ∧ failing ≠ []) ∧
    (∃ s : State, ∃ kind : Nat, ∃ unit : Nat, ∃ bank : Bool, let same (x : Due) : Bool := x.kind == kind && x.unit == unit && x.bank == bank
    ∃ d : Due, (s.tally.due.find? same = some d) ∧ kind = 2 ∧ s.slotFree d = true) ∧
    (∃ s : State, ∃ f : Nat, ∃ v : Word, s.mayWrite f assayCmd = true ∧ (let kind := fld v 1 0
    let unit := (s.rd assayUnit).toNat
    unitFits kind unit = true ∧ s.ownsEp f (unitEp unit) = true)) ∧
    (∃ s : State, ∃ f : Nat, ∃ v : Word, s.mayWrite f assayCmd = true ∧ (let kind := fld v 1 0
    let unit := (s.rd assayUnit).toNat
    unitFits kind unit = false)) ∧
    (∃ s : State, ∃ f : Nat, ∃ v : Word, s.mayWrite f assayCmd = true ∧ (let kind := fld v 1 0
    let unit := (s.rd assayUnit).toNat
    unitFits kind unit = true ∧ s.ownsEp f (unitEp unit) = false)) :=
  ⟨⟨(withSeam (fun t => { t with learn := [(3, 0, 0x3F800000)] })).wr (checkCtrl 0) 0x10, 0, 0, by decide +kernel⟩,
   ⟨(withSeam (fun t => { t with learn := [(3, 0, 0x3F800000)] })).wr (checkCtrl 0) 0x10, 0, unitMacro 0 0, false, by decide +kernel⟩,
   ⟨(withSeam (fun t => { t with learn := [(3, 0, 0x3F800000)] })).wr (checkCtrl 0) 0x10, 0, 0, false, by decide +kernel⟩,
   ⟨withDue { aDue 0 with forced := false }, 0, unitMacro 0 0, false, by decide +kernel⟩,
   ⟨(withSeam (fun t => { t with learn := [(3, 0, 0x3F800000)] })).wr (checkCtrl 0) 0x10, 0, 0, false, by decide +kernel⟩,
   ⟨(withSeam (fun t => { t with learn := [(3, 0, 0x3F800000)] })).wr (checkCtrl 0) 0x10, 0, 0, false, by decide +kernel⟩,
   ⟨(withDue (aDue 0)).setStope 0 Stope.reset, 0, unitMacro 0 0, false, aDue 0, by decide +kernel⟩,
   ⟨(withDue (aDue 0)).setStope 0 { Stope.reset with ref := .warming }, 0, unitMacro 0 0, false, aDue 0, by decide +kernel⟩,
   ⟨withDue (aDue 0), 0, unitMacro 0 0, false, [256], [256], aDue 0, by decide +kernel⟩,
   ⟨withDue (aDue 0), 0, unitMacro 0 0, false, [5], [256], aDue 0, by decide +kernel⟩,
   ⟨withDue { aDue 0 with retry := true }, 0, unitMacro 0 0, false, [256], { aDue 0 with retry := true }, by decide +kernel⟩,
   ⟨withDue { aDue 0 with retry := true }, 0, unitMacro 0 0, false, [5], { aDue 0 with retry := true }, by decide +kernel⟩,
   ⟨withDue (aDue 4), 4, unitMacro 0 0, false, [], aDue 4, by decide +kernel⟩,
   ⟨withDue (aDue 4), 4, unitMacro 0 0, false, [5], aDue 4, by decide +kernel⟩,
   ⟨withDue (aDue 2), 2, unitMacro 0 0, false, aDue 2, by decide +kernel⟩,
   ⟨(withSeam id).wr assayUnit 0x10000000, 0, 0, by decide +kernel⟩,
   ⟨(withSeam (fun t => { t with learn := [(3, 0, 0x3F800000)] })).wr (checkCtrl 0) 0x10, 0, 0, by decide +kernel⟩,
   ⟨(withSeam id).wr assayUnit 0x10000000, 3, 0, by decide +kernel⟩⟩

/-- The hypotheses of TallyAndReportsKeepCount can be met, clause by clause. -/
theorem witness_TallyAndReportsKeepCount :
    (∃ s : State, let units := s.tally.dirty.filter fun u => Table.get 0 s.tally.lastWrite u != s.sec + 1
    units = []) ∧
    (∃ s : State, let units := s.tally.dirty.filter fun u => Table.get 0 s.tally.lastWrite u != s.sec + 1
    units ≠ []) ∧
    (∃ s : State, ∃ f : Nat, s.mayWrite f tallyCtrl = true) ∧
    (∃ s : State, ∃ f : Nat, s.mayWrite f tallyCtrl = true ∧ s.tally.dirty ≠ []) ∧
    (∃ s : State, ∃ f : Nat, s.mayWrite f tallyCtrl = true ∧ s.tally.dirty = []) ∧
    (∃ s : State, ∃ f : Nat, ∃ n : Nat, ∃ v : Word, s.mayWrite f tallyFind = true ∧ entryIndex v.toNat s.tally.entries = some n) ∧
    (∃ s : State, ∃ f : Nat, ∃ v : Word, s.mayWrite f tallyFind = true ∧ entryIndex v.toNat s.tally.entries = none) ∧
    (∃ s : State, s.sec ≤ s.tally.second) ∧
    (∃ s : State, s.tally.second < s.sec ∧ (s.tally.log.length + s.tally.excess.length ≤ logCap)) ∧
    (∃ s : State, ∃ m : Notice, s.noticeUnderWay m = true) ∧
    (∃ s : State, ∃ m : Notice, s.noticeUnderWay m = false ∧ causeClass m.cause ≠ .trace ∧ countsAgainst m.unit m.cause = false ∧
      m.cause ≠ causeSpSparesOut ∧ s.tally.log.length < logCap) ∧
    (∃ s : State, ∃ m : Notice, s.noticeUnderWay m = false ∧ countsAgainst m.unit m.cause = true ∧ m.cause ≠ causeSpSparesOut ∧
      s.tallyEntry m.unit = none ∧ s.tally.entries.length < tallyCap) ∧
    (∃ s : State, ∃ m : Notice, ∃ k : Nat, ∃ pc : Nat, ∃ e : TallyEntry, s.noticeUnderWay m = false ∧ k < 8 ∧ pc < 32 ∧ m.unit = unitPc k pc ∧
      m.cause = causePcFail ∧ s.tallyEntry m.unit = some e ∧ e.state = 1 ∧ (m.time / secNs ∉ e.times) ∧
      ((e.event m.cause m.detail (m.time, s.sourceId m.source, m.seq)).third = true)) :=
  ⟨⟨{ withSwap id with tally := { Tally.reset with dirty := [5], lastWrite := [(5, 5001)] } }, by decide +kernel⟩,
   ⟨{ withSwap id with tally := { Tally.reset with dirty := [unitMacro 0 0], entries := [anEntry (unitMacro 0 0) 2] } }, by decide +kernel⟩,
   ⟨{ withSwap id with tally := { Tally.reset with dirty := [unitMacro 0 0], entries := [anEntry (unitMacro 0 0) 2] } }, 0, by decide +kernel⟩,
   ⟨{ withSwap id with tally := { Tally.reset with dirty := [unitMacro 0 0], entries := [anEntry (unitMacro 0 0) 2] } }, 0, by decide +kernel⟩,
   ⟨{ withSwap id with tally := { Tally.reset with entries := [anEntry (unitMacro 0 0) 2, anEntry (unitMacro 0 1) 1] } }, 0, by decide +kernel⟩,
   ⟨{ withSwap id with tally := { Tally.reset with dirty := [unitMacro 0 0], entries := [anEntry (unitMacro 0 0) 2] } }, 0, 0, 0x10000000,
    by decide +kernel⟩,
   ⟨{ withSwap id with tally := { Tally.reset with dirty := [unitMacro 0 0], entries := [anEntry (unitMacro 0 0) 2] } }, 0, 0, by decide +kernel⟩,
   ⟨State.reset, by decide +kernel⟩,
   ⟨{ withSwap id with tally := { Tally.reset with dirty := [unitMacro 0 0], entries := [anEntry (unitMacro 0 0) 2] } }, by decide +kernel⟩,
   ⟨{ withSwap id with noc := { small.noc with notices := [{ aNotice causePaceLow with source := 5 }] } }.enterCtl (noticeMsg { aNotice causePaceLow with source := 5 }),
    { aNotice causePaceLow with source := 5 }, by decide +kernel⟩,
   ⟨{ withSwap id with tally := { Tally.reset with dirty := [unitMacro 0 0], entries := [anEntry (unitMacro 0 0) 2] } }, aNotice causePaceLow,
    by decide +kernel⟩,
   ⟨{ withSwap id with tally := { Tally.reset with dirty := [unitMacro 0 0], entries := [anEntry (unitMacro 0 0) 2] } },
    { aNotice causePcFail with unit := unitPc 2 5 }, by decide +kernel⟩,
   ⟨{ withSwap id with tally := { Tally.reset with entries := [anEntry (unitPc 2 5) 1] } }, { aNotice causePcFail with unit := unitPc 2 5 }, 2, 5,
    anEntry (unitPc 2 5) 1, by decide +kernel, by decide +kernel, by decide +kernel, by decide +kernel, by decide +kernel, by decide +kernel,
    by decide +kernel, by decide +kernel, anEntry_third⟩⟩

/-- The hypotheses of PortsTrainAndFail can be met, clause by clause. -/
theorem witness_PortsTrainAndFail :
    (∃ s : State, ∃ p : Nat, let x := s.port p
    let ready := bit (s.rd (peligCtrl p)) 0 = true ∧ (x.state = .training ∨ (x.state = .down ∧ x.version = 0 ∧ x.lanesShort = false))
    (ready)) ∧
    (∃ s : State, ∃ p : Nat, let x := s.port p
    let ready := bit (s.rd (peligCtrl p)) 0 = true ∧ (x.state = .training ∨ (x.state = .down ∧ x.version = 0 ∧ x.lanesShort = false))
    (¬ready)) ∧
    (∃ s : State, ∃ p : Nat, let x := s.port p
    x.state ≠ .training) ∧
    (∃ s : State, ∃ p : Nat, ∃ m : Caps, let x := s.port p
    x.state = .training ∧ (m.verMax < 1 ∨ 1 < m.verMin)) ∧
    (∃ s : State, ∃ p : Nat, ∃ m : Caps, let x := s.port p
    let peerOk : Bool := if portRole p = 0 then m.role == 0 && m.port == p && m.device != s.edge.devId else m.role == 3
    x.state = .training ∧ 1 ≤ m.verMax ∧ m.verMin ≤ 1 ∧ peerOk = false) ∧
    (∃ s : State, ∃ p : Nat, ∃ m : Caps, let x := s.port p
    let peerOk : Bool := if portRole p = 0 then m.role == 0 && m.port == p && m.device != s.edge.devId else m.role == 3
    let active := x.usable &&& m.lanes % 16
    x.state = .training ∧ 1 ≤ m.verMax ∧ m.verMin ≤ 1 ∧ peerOk = true ∧ popcount 4 active < 3) ∧
    (∃ s : State, ∃ p : Nat, ∃ m : Caps, let x := s.port p
    let peerOk : Bool := if portRole p = 0 then m.role == 0 && m.port == p && m.device != s.edge.devId else m.role == 3
    let active := x.usable &&& m.lanes % 16
    x.state = .training ∧ 1 ≤ m.verMax ∧ m.verMin ≤ 1 ∧ peerOk = true ∧ 3 ≤ popcount 4 active) ∧
    (∃ s : State, ∃ p : Nat, let due := ((s.port p).lanesShort = true ∧ (s.port p).state = .down ∧ bit (s.rd (peligCtrl p)) 0 = true ∧
       bit (s.rd (peligCtrl p)) 1 = true ∧ (s.port p).since + 1000000000 ≤ s.now)
    (due)) ∧
    (∃ s : State, ∃ p : Nat, let due := ((s.port p).lanesShort = true ∧ (s.port p).state = .down ∧ bit (s.rd (peligCtrl p)) 0 = true ∧
       bit (s.rd (peligCtrl p)) 1 = true ∧ (s.port p).since + 1000000000 ≤ s.now)
    (¬due)) ∧
    (∃ s : State, ∃ f : Nat, ∃ p : Nat, s.mayWrite f (peligCtrl p) = true ∧ bit (s.rd (peligCtrl p)) 0 = true ∧ (s.port p).isUp = false) ∧
    (∃ s : State, ∃ f : Nat, ∃ p : Nat, s.mayWrite f (peligCtrl p) = true ∧ bit (s.rd (peligCtrl p)) 0 = true ∧ (s.port p).isUp = true) ∧
    (∃ s : State, ∃ f : Nat, ∃ p : Nat, s.mayWrite f (peligCtrl p) = true ∧ bit (s.rd (peligCtrl p)) 0 = false ∧ (s.port p).isUp = false) ∧
    (∃ s : State, ∃ f : Nat, ∃ p : Nat, s.mayWrite f (peligCtrl p) = false) ∧
    (∃ s : State, ∃ p : Nat, ∃ l : Nat, l < 4 ∧ (let x := s.port p
    (x.isUp = false ∨ bitAt x.lanes l = false))) ∧
    (∃ s : State, ∃ p : Nat, ∃ l : Nat, l < 4 ∧ (let x := s.port p
    x.isUp = true ∧ bitAt x.lanes l = true ∧ (3 ≤ popcount 4 (x.lanes - 2 ^ l)))) ∧
    (∃ s : State, ∃ p : Nat, ∃ l : Nat, l < 4 ∧ (let x := s.port p
    x.isUp = true ∧ bitAt x.lanes l = true ∧ (popcount 4 (x.lanes - 2 ^ l) < 3))) ∧
    (∃ s : State, ∃ p : Nat, ∃ lanes : Nat, let now := (s.port p).lanes &&& lanes % 16
    (s.port p).isUp = true ∧ 3 ≤ popcount 4 now) ∧
    (∃ s : State, ∃ p : Nat, ∃ lanes : Nat, let now := (s.port p).lanes &&& lanes % 16
    ((s.port p).isUp = false ∨ popcount 4 now < 3)) ∧
    (∃ s : State, ∃ f : Nat, ∃ p : Nat, ∃ v : Word, let left := popcount 4 (15 - (15 &&& (fld v 6 3 ||| (s.port p).retired)))
    s.mayWrite f (peligCtrl p) = true ∧ 3 ≤ left) ∧
    (∃ s : State, ∃ f : Nat, ∃ p : Nat, ∃ v : Word, let left := popcount 4 (15 - (15 &&& (fld v 6 3 ||| (s.port p).retired)))
    (s.mayWrite f (peligCtrl p) = false ∨ left < 3)) ∧
    (∃ s : State, ∃ p : Nat, ∃ l : Nat, ∃ m : Nat, l < 4 ∧ m < 256 ∧ (s.port p).margin.length = 4) ∧
    (∃ s : State, ∃ p : Nat, ∃ l : Nat, p < 24 ∧ l < 4 ∧ (let x := s.port p
    let due := x.margin.getD l 0 < 60 ∧ x.isUp = true ∧ bitAt x.retired l = false ∧ x.replay = [] ∧ x.held = [] ∧ x.lastAck + 1000000 ≤ s.now
    (due))) ∧
    (∃ s : State, ∃ p : Nat, ∃ l : Nat, p < 24 ∧ l < 4 ∧ (let x := s.port p
    let due := x.margin.getD l 0 < 60 ∧ x.isUp = true ∧ bitAt x.retired l = false ∧ x.replay = [] ∧ x.held = [] ∧ x.lastAck + 1000000 ≤ s.now
    (¬due))) ∧
    (∃ s : State, ∃ p : Nat, let x := s.port p
    x.isUp = true ∧ x.held = []) ∧
    (∃ s : State, ∃ p : Nat, let x := s.port p
    x.isUp = true) ∧
    (∃ s : State, ∃ p : Nat, let x := s.port p
    x.isUp = false) ∧
    (∃ s : State, ∃ p : Nat, let x := s.port p
    let due := x.isUp = true ∧ x.held = [] ∧ x.lastCredit + 500 ≤ s.now
    (due)) ∧
    (∃ s : State, ∃ p : Nat, let x := s.port p
    let due := x.isUp = true ∧ x.held = [] ∧ x.lastCredit + 500 ≤ s.now
    (¬due)) ∧
    (∃ s : State, ∃ p : Nat, ∃ seq : Nat, ∃ f : Flit, ∃ a : List Flit, ∃ b : List Flit, p < 24 ∧ (s.port p).isUp = true ∧
      ((s.port p).replay = a ++ f :: b) ∧ f.seq = seq ∧ ((∀ g ∈ a, g.seq ≠ seq))) ∧
    (∃ s : State, ∃ p : Nat, ∃ seq : Nat, (s.port p).isUp = true ∧ ((∀ g ∈ (s.port p).replay, g.seq ≠ seq))) ∧
    (∃ s : State, ∃ p : Nat, (s.port p).isUp = false) ∧
    (∃ s : State, ∃ p : Nat, let x := s.port p
    ∃ f : Flit, ∃ b : List Flit, p < 24 ∧ x.isUp = true ∧ (x.replay = f :: b) ∧ (x.lastAck + x.rtt + 2000 ≤ s.now)) ∧
    (∃ s : State, ∃ p : Nat, let x := s.port p
    (x.isUp = false ∨ x.replay = [] ∨ s.now < x.lastAck + x.rtt + 2000)) ∧
    (∃ s : State, ∃ p : Nat, let x := s.port p
    let lost := x.lastGood + 10000 ≤ s.now ∨ (∃ y ∈ x.tries, 8 ≤ y.2) ∨ popcount 4 x.lanes < 3
    x.isUp = true ∧ (lost)) ∧
    (∃ s : State, ∃ p : Nat, let x := s.port p
    let lost := x.lastGood + 10000 ≤ s.now ∨ (∃ y ∈ x.tries, 8 ≤ y.2) ∨ popcount 4 x.lanes < 3
    (x.isUp = false ∨ ¬lost)) :=
  ⟨⟨onPort { Port.reset with state := .training }, 0, by decide +kernel⟩,
   ⟨onPort { Port.reset with lanesShort := true }, 0, by decide +kernel⟩,
   ⟨onPort { Port.reset with state := .training }, 2, by decide +kernel⟩,
   ⟨onPort { Port.reset with state := .training }, 0, { someCaps with verMin := 2, verMax := 3 }, by decide +kernel⟩,
   ⟨onPort { Port.reset with state := .training }, 0, { someCaps with port := 1 }, by decide +kernel⟩,
   ⟨onPort { Port.reset with state := .training }, 0, { someCaps with lanes := 3 }, by decide +kernel⟩,
   ⟨onPort { Port.reset with state := .training, usable := 15 }, 0, someCaps, by decide +kernel⟩,
   ⟨onPort { Port.reset with lanesShort := true }, 0, by decide +kernel⟩,
   ⟨onPort { Port.reset with state := .training }, 0, by decide +kernel⟩,
   ⟨onPort { Port.reset with state := .training }, 0, 0, by decide +kernel⟩,
   ⟨onPort { aPort with replay := [aFlit 1 []] }, 0, 0, by decide +kernel⟩,
   ⟨(withPorts [(0, Port.reset)]).wr (peligCtrl 0) 0, 0, 0, by decide +kernel⟩,
   ⟨onPort { Port.reset with state := .training }, 2, 0, by decide +kernel⟩,
   ⟨onPort { Port.reset with state := .training }, 0, 0, by decide +kernel⟩,
   ⟨onPort { aPort with replay := [aFlit 1 []] }, 0, 0, by decide +kernel⟩,
   ⟨onPort { aPort with lanes := 7, replay := [aFlit 1 []] }, 0, 0, by decide +kernel⟩,
   ⟨onPort { aPort with replay := [aFlit 1 []] }, 0, 14, by decide +kernel⟩,
   ⟨onPort { Port.reset with state := .training }, 0, 0, by decide +kernel⟩,
   ⟨onPort { Port.reset with state := .training }, 0, 0, 0x10, by decide +kernel⟩,
   ⟨onPort { Port.reset with state := .training }, 0, 0, 0x18, by decide +kernel⟩,
   ⟨onPort { Port.reset with state := .training }, 0, 0, 0, by decide +kernel⟩,
   ⟨onPort { aPort with margin := [100, 50, 100, 100] }, 0, 1, by decide +kernel⟩,
   ⟨onPort { Port.reset with state := .training }, 0, 0, by decide +kernel⟩,
   ⟨onPort { aPort with replay := [aFlit 1 []] }, 0, by decide +kernel⟩,
   ⟨onPort { aPort with replay := [aFlit 1 []] }, 0, by decide +kernel⟩,
   ⟨onPort { Port.reset with state := .training }, 0, by decide +kernel⟩,
   ⟨onPort { aPort with replay := [aFlit 1 []] }, 0, by decide +kernel⟩,
   ⟨onPort { Port.reset with state := .training }, 0, by decide +kernel⟩,
   ⟨onPort { aPort with replay := [aFlit 1 []] }, 0, 0, aFlit 1 [], [], [], by decide +kernel⟩,
   ⟨onPort { aPort with replay := [aFlit 1 []] }, 0, 2, by decide +kernel⟩,
   ⟨onPort { Port.reset with state := .training }, 0, by decide +kernel⟩,
   ⟨onPort { aPort with replay := [aFlit 1 []] }, 0, aFlit 1 [], [], by decide +kernel⟩,
   ⟨onPort { Port.reset with state := .training }, 0, by decide +kernel⟩,
   ⟨onPort { aPort with replay := [aFlit 1 []] }, 0, by decide +kernel⟩,
   ⟨onPort { Port.reset with state := .training }, 0, by decide +kernel⟩⟩

/-- The hypotheses of FlitsArriveInOrder can be met, clause by clause. -/
theorem witness_FlitsArriveInOrder :
    (∃ f : Flit, f.typ < 4 ∧ f.lvc < 8 ∧ f.seq < 4096 ∧ f.ack < 4096 ∧ f.path < 4096 ∧ f.destEp < 4096 ∧ f.srcEp < 4096 ∧ f.opcode < 32 ∧ f.units < 16 ∧
      f.addr < 0x20000 ∧ f.e2e < 4096 ∧ (f.payload.length = 16 * f.units) ∧ f.crcOk = true) ∧
    (∃ s : State, ∃ p : Nat, (s.port p).isUp = false) ∧
    (∃ s : State, ∃ p : Nat, ∃ f : Flit, (s.port p).isUp = true ∧ f.crcOk = false) ∧
    (∃ s : State, ∃ p : Nat, ∃ f : Flit, (s.port p).isUp = true ∧ f.crcOk = true ∧ f.typ = 1) ∧
    (∃ s : State, ∃ p : Nat, ∃ f : Flit, (s.port p).isUp = true ∧ f.crcOk = true ∧ f.typ ≠ 1 ∧ f.fecOk = false) ∧
    (∃ s : State, ∃ p : Nat, ∃ f : Flit, (s.port p).isUp = true ∧ f.crcOk = true ∧ f.typ ≠ 1 ∧ f.fecOk = true ∧ f.seq = (s.port p).rxSeq) ∧
    (∃ s : State, ∃ p : Nat, ∃ f : Flit, (s.port p).isUp = true ∧ f.crcOk = true ∧ f.typ ≠ 1 ∧ f.fecOk = true ∧ f.seq = (s.port p).rxSeq ∧ (let a := s.adit f.path
    let carried := f.typ = 0 ∧ f.rg = false ∧ opcodeKnown f.opcode = true ∧ portCarries p f.opcode = true
    (carried) ∧ (portRole p ≠ 0 ∨ a.isLocal = true))) ∧
    (∃ s : State, ∃ p : Nat, ∃ f : Flit, (s.port p).isUp = true ∧ f.crcOk = true ∧ f.typ ≠ 1 ∧ f.fecOk = true ∧ f.seq = (s.port p).rxSeq ∧ (let a := s.adit f.path
    let carried := f.typ = 0 ∧ f.rg = false ∧ opcodeKnown f.opcode = true ∧ portCarries p f.opcode = true
    (carried) ∧ portRole p = 0 ∧ a.valid = true ∧ a.isLocal = false ∧ f.opcode = 8)) ∧
    (∃ s : State, ∃ p : Nat, ∃ f : Flit, (s.port p).isUp = true ∧ f.crcOk = true ∧ f.typ ≠ 1 ∧ f.fecOk = true ∧ f.seq = (s.port p).rxSeq ∧ (let a := s.adit f.path
    let carried := f.typ = 0 ∧ f.rg = false ∧ opcodeKnown f.opcode = true ∧ portCarries p f.opcode = true
    (¬carried ∨ (portRole p = 0 ∧ a.valid = false) ∨ (portRole p = 0 ∧ a.transit = true ∧ f.opcode ≠ 8 ∧ a.inPort ≠ p)))) ∧
    (∃ s : State, ∃ p : Nat, ∃ f : Flit, (s.port p).isUp = true ∧ f.crcOk = true ∧ f.typ ≠ 1 ∧ f.fecOk = true ∧ f.seq = (s.port p).rxSeq ∧ (let a := s.adit f.path
    let carried := f.typ = 0 ∧ f.rg = false ∧ opcodeKnown f.opcode = true ∧ portCarries p f.opcode = true
    (carried) ∧ portRole p = 0 ∧ a.valid = true ∧ a.transit = true ∧ f.opcode ≠ 8 ∧ a.inPort = p ∧ rtPort a.routeA ≠ p ∧ (let q := rtPort a.routeA
    let y := s.port q
    let g : Flit := { f with path := rtPath a.routeA }
    s.portReady q g = true ∧ y.held = [] ∧ portCarries q f.opcode = true))) ∧
    (∃ s : State, ∃ p : Nat, ∃ f : Flit, (s.port p).isUp = true ∧ f.crcOk = true ∧ f.typ ≠ 1 ∧ f.fecOk = true ∧ f.seq = (s.port p).rxSeq ∧ (let a := s.adit f.path
    let carried := f.typ = 0 ∧ f.rg = false ∧ opcodeKnown f.opcode = true ∧ portCarries p f.opcode = true
    (carried) ∧ portRole p = 0 ∧ a.valid = true ∧ a.transit = true ∧ f.opcode ≠ 8 ∧ a.inPort = p ∧ rtPort a.routeA ≠ p ∧ (let q := rtPort a.routeA
    let y := s.port q
    let g : Flit := { f with path := rtPath a.routeA }
    y.isUp = true ∧ (s.portReady q g = false ∨ (∃ h ∈ y.held, h.lvc = f.lvc)) ∧ portCarries q f.opcode = true))) ∧
    (∃ s : State, ∃ p : Nat, ∃ f : Flit, (s.port p).isUp = true ∧ f.crcOk = true ∧ f.typ ≠ 1 ∧ f.fecOk = true ∧ f.seq = (s.port p).rxSeq ∧ (let a := s.adit f.path
    let carried := f.typ = 0 ∧ f.rg = false ∧ opcodeKnown f.opcode = true ∧ portCarries p f.opcode = true
    (carried) ∧ portRole p = 0 ∧ a.valid = true ∧ a.transit = true ∧ f.opcode ≠ 8 ∧ a.inPort = p ∧ rtPort a.routeA ≠ p ∧ (let q := rtPort a.routeA
    let y := s.port q
    y.isUp = false))) ∧
    (∃ s : State, ∃ p : Nat, ∃ f : Flit, (s.port p).isUp = true ∧ f.crcOk = true ∧ f.typ ≠ 1 ∧ f.fecOk = true ∧ f.seq ≠ (s.port p).rxSeq ∧
      (((s.port p).rxSeq + 4096 - f.seq) % 4096 ≤ 2047)) ∧
    (∃ s : State, ∃ p : Nat, ∃ f : Flit, (s.port p).isUp = true ∧ f.crcOk = true ∧ f.typ ≠ 1 ∧ f.fecOk = true ∧ f.seq ≠ (s.port p).rxSeq ∧
      (2047 < ((s.port p).rxSeq + 4096 - f.seq) % 4096)) ∧
    (∃ t : Port, ∃ a : List Flit, ∃ b : List Flit, ∃ f : Flit, (t.replay = a ++ f :: b) ∧ ((∀ g ∈ a, g.seq ≠ f.seq))) :=
  ⟨⟨{ aFlit 1 (List.replicate 16 7) with seq := 9, ack := 8, e2e := 5, addr := 0x1FFFF }, by decide +kernel⟩,
   ⟨onPort aPort, 3, by decide +kernel⟩,
   ⟨onPort aPort, 0, { aFlit 1 [] with crcOk := false }, by decide +kernel⟩,
   ⟨onPort aPort, 0, { aFlit 1 [] with typ := 1 }, by decide +kernel⟩,
   ⟨onPort aPort, 0, { aFlit 1 [] with fecOk := false }, by decide +kernel⟩,
   ⟨onPort aPort, 0, aFlit 1 (List.replicate 16 7), by decide +kernel⟩,
   ⟨withAdit anAdit, 3, aFlit 1 (List.replicate 16 7), by decide +kernel⟩,
   ⟨withAdit aTransit, 3, aFlit 8 [], by decide +kernel⟩,
   ⟨onPort aPort, 0, aFlit 1 (List.replicate 16 7), by decide +kernel⟩,
   ⟨withAdit aTransit, 3, aFlit 1 (List.replicate 16 7), by decide +kernel⟩,
   ⟨let s := withAdit aTransit; { s with fab := { s.fab with ports := [(3, aPort), (4, { aPort with credits := List.replicate 8 0 })] } }, 3,
    aFlit 1 [], by decide +kernel⟩,
   ⟨let s := withAdit aTransit; { s with fab := { s.fab with ports := [(3, aPort)] } }, 3, aFlit 1 [], by decide +kernel⟩,
   ⟨onPort aPort, 0, { aFlit 1 [] with seq := 4095 }, by decide +kernel⟩,
   ⟨onPort aPort, 0, { aFlit 1 (List.replicate 16 7) with seq := 9, ack := 8, e2e := 5, addr := 0x1FFFF }, by decide +kernel⟩,
   ⟨{ aPort with replay := [aFlit 1 [], { aFlit 1 [] with seq := 1 }] }, [], [{ aFlit 1 [] with seq := 1 }], aFlit 1 [], by decide +kernel⟩⟩

/-- The hypotheses of AditsVerifyAndSwitch can be met, clause by clause. -/
theorem witness_AditsVerifyAndSwitch :
    (∃ s : State, ∃ f : Nat, let ep := s.selEp
    let a := s.adit ep
    s.mayWrite f aditCmd = true ∧ s.aditCheck a = 0 ∧ a.isLocal = true) ∧
    (∃ s : State, ∃ f : Nat, let ep := s.selEp
    let a := s.adit ep
    s.mayWrite f aditCmd = true ∧ s.aditCheck a = 0 ∧ a.isLocal = false) ∧
    (∃ s : State, ∃ f : Nat, let ep := s.selEp
    let a := s.adit ep
    s.mayWrite f aditCmd = true ∧ s.aditCheck a ≠ 0) ∧
    (∃ s : State, ∃ f : Nat, s.mayWrite f aditCmd = false) ∧
    (∃ s : State, let ep := s.selEp
    let a := s.adit ep
    (s.region a.region).valid = true ∧ bitAt (s.region a.region).portMask (rtPort a.routeA) = true ∧ a.transit = false ∧ rtHops a.routeB = 0 ∧
      rtPort a.routeA < 20 ∧ rtHops a.routeA ≠ 0 ∧ rtHops a.routeA ≤ 4 ∧ a.peerDev < 32768 ∧ a.peerDev ≠ s.edge.devId) ∧
    (∃ s : State, ∃ fl : Flit, let ep := fl.path
    let a := s.adit ep
    let b := fl.payload.headD 0 == 1
    let awaited := a.isLocal = true ∧ (if b then a.bEcho else a.aEcho) = true ∧ s.now ≤ a.echoAt + 1000000
    (awaited)) ∧
    (∃ s : State, ∃ fl : Flit, let ep := fl.path
    let a := s.adit ep
    let b := fl.payload.headD 0 == 1
    let awaited := a.isLocal = true ∧ (if b then a.bEcho else a.aEcho) = true ∧ s.now ≤ a.echoAt + 1000000
    (¬awaited)) ∧
    (∃ s : State, ∃ ep : Nat, ∃ route : Bool, let a := s.adit ep
    let due := a.echoAt + 1000000 ≤ s.now ∧ (if route then a.bEcho else a.aEcho) = true
    (due)) ∧
    (∃ s : State, ∃ ep : Nat, ∃ route : Bool, let a := s.adit ep
    let due := a.echoAt + 1000000 ≤ s.now ∧ (if route then a.bEcho else a.aEcho) = true
    (¬due)) ∧
    (∃ s : State, ∃ f : Nat, let a := s.adit s.selEp
    let back := a.isLocal = true ∧ a.state = .up ∧ a.onB = true ∧ a.aUp = true
    s.mayWrite f aditCmd = true ∧ (back)) ∧
    (∃ s : State, ∃ f : Nat, let a := s.adit s.selEp
    let back := a.isLocal = true ∧ a.state = .up ∧ a.onB = true ∧ a.aUp = true
    (s.mayWrite f aditCmd = false ∨ ¬back)) ∧
    (∃ s : State, ∃ f : Nat, let a := s.adit s.selEp
    s.mayWrite f aditCmd = true ∧ a.isLocal = true ∧ a.state ≠ .down) ∧
    (∃ s : State, ∃ f : Nat, let a := s.adit s.selEp
    (s.mayWrite f aditCmd = false ∨ a.isLocal = false ∨ a.state = .down)) ∧
    (∃ s : State, ∃ ep : Nat, ∃ rtt : Nat, ∃ route : Bool, let a := s.adit ep
    let w := if route then a.routeB else a.routeA
    let old := if route then a.boundB else a.boundA
    let new := (rtt + 1) / 2 + 400 * rtHops w
    let due := a.isLocal = true ∧ a.state = .up ∧ rtHops w ≠ 0 ∧ (if route then a.measuredB else a.measuredA) + 60000000000 ≤ s.now
    (due) ∧ (old = 0 ∨ old < 10 * (max new old - min new old))) ∧
    (∃ s : State, ∃ ep : Nat, ∃ rtt : Nat, ∃ route : Bool, let a := s.adit ep
    let w := if route then a.routeB else a.routeA
    let old := if route then a.boundB else a.boundA
    let new := (rtt + 1) / 2 + 400 * rtHops w
    let due := a.isLocal = true ∧ a.state = .up ∧ rtHops w ≠ 0 ∧ (if route then a.measuredB else a.measuredA) + 60000000000 ≤ s.now
    (due) ∧ old ≠ 0 ∧ (10 * (max new old - min new old) ≤ old)) ∧
    (∃ s : State, ∃ ep : Nat, ∃ route : Bool, let a := s.adit ep
    let w := if route then a.routeB else a.routeA
    let due := a.isLocal = true ∧ a.state = .up ∧ rtHops w ≠ 0 ∧ (if route then a.measuredB else a.measuredA) + 60000000000 ≤ s.now
    (¬due)) ∧
    (∃ s : State, ∃ fl : Flit, let ep := fl.path
    let a := s.adit ep
    let b := match fl.payload with
       | [] => a.onB
       | x :: _ => x == 1
    a.isLocal = true ∧ (a.state ≠ .up ∨ a.onB ≠ b)) ∧
    (∃ s : State, ∃ fl : Flit, let ep := fl.path
    let a := s.adit ep
    let b := match fl.payload with
       | [] => a.onB
       | x :: _ => x == 1
    a.isLocal = true ∧ a.state = .up ∧ a.onB = b ∧ (if b then a.aUp else a.bUp) = true) ∧
    (∃ s : State, ∃ fl : Flit, let ep := fl.path
    let a := s.adit ep
    let b := match fl.payload with
       | [] => a.onB
       | x :: _ => x == 1
    a.isLocal = true ∧ a.state = .up ∧ a.onB = b ∧ (if b then a.aUp else a.bUp) = false) ∧
    (∃ s : State, ∃ fl : Flit, let ep := fl.path
    let a := s.adit ep
    a.valid = true ∧ a.transit = true) ∧
    (∃ s : State, ∃ fl : Flit, let ep := fl.path
    let a := s.adit ep
    a.valid = false) ∧
    (∃ s : State, ∃ fl : Flit, let a := s.adit fl.path
    a.isLocal = true) ∧
    (∃ s : State, ∃ fl : Flit, let a := s.adit fl.path
    a.isLocal = false) :=
  ⟨⟨withAdit { anAdit with state := .down }, 0, by decide +kernel⟩,
   ⟨withAdit aTransit, 0, by decide +kernel⟩,
   ⟨withAdit anAdit, 0, by decide +kernel⟩,
   ⟨withAdit { anAdit with state := .down }, 5, by decide +kernel⟩,
   ⟨withAdit { anAdit with state := .down }, by decide +kernel⟩,
   ⟨withAdit { anAdit with state := .verifying, aEcho := true, echoAt := 5000000000000 }, aFlit 10 [0], by decide +kernel⟩,
   ⟨withAdit { anAdit with state := .down }, aFlit 10 [0], by decide +kernel⟩,
   ⟨withAdit { anAdit with state := .verifying, aEcho := true, aUp := false }, 5, false, by decide +kernel⟩,
   ⟨withAdit { anAdit with state := .down }, 0, true, by decide +kernel⟩,
   ⟨withAdit { anAdit with onB := true }, 0, by decide +kernel⟩,
   ⟨withAdit { anAdit with state := .down }, 0, by decide +kernel⟩,
   ⟨withAdit anAdit, 0, by decide +kernel⟩,
   ⟨withAdit { anAdit with state := .down }, 0, by decide +kernel⟩,
   ⟨withAdit anAdit, 5, 0, false, by decide +kernel⟩,
   ⟨withAdit { anAdit with boundA := 500 }, 5, 200, false, by decide +kernel⟩,
   ⟨withAdit { anAdit with state := .down }, 0, true, by decide +kernel⟩,
   ⟨withAdit { anAdit with state := .down }, aFlit 10 [0], by decide +kernel⟩,
   ⟨withAdit { anAdit with onB := true }, aFlit 8 [], by decide +kernel⟩,
   ⟨withAdit anAdit, aFlit 10 [0], by decide +kernel⟩,
   ⟨withAdit aTransit, aFlit 10 [0], by decide +kernel⟩,
   ⟨State.reset, aFlit 10 [0], by decide +kernel⟩,
   ⟨withAdit { anAdit with state := .down }, aFlit 10 [0], by decide +kernel⟩,
   ⟨withAdit aTransit, aFlit 10 [0], by decide +kernel⟩⟩

/-- The hypotheses of FabricWritesMeetWindows can be met, clause by clause. -/
theorem witness_FabricWritesMeetWindows :
    (∃ s : State, ∃ fl : Flit, let ep := fl.path
    let a := s.adit ep
    let next := a.isLocal = true ∧ (a.rxE2e + 4096 - fl.e2e) % 4096 = 0 ∧ s.holds ep = false ∧ a.waiting = []
    (next) ∧ epExists fl.destEp = false) ∧
    (∃ s : State, ∃ fl : Flit, let ep := fl.path
    let a := s.adit ep
    let next := a.isLocal = true ∧ (a.rxE2e + 4096 - fl.e2e) % 4096 = 0 ∧ s.holds ep = false ∧ a.waiting = []
    (next) ∧ epExists fl.destEp = true ∧ s.inRegion fl.destEp a.region = false) ∧
    (∃ s : State, ∃ fl : Flit, let ep := fl.path
    let a := s.adit ep
    let next := a.isLocal = true ∧ (a.rxE2e + 4096 - fl.e2e) % 4096 = 0 ∧ s.holds ep = false ∧ a.waiting = []
    (next) ∧ epExists fl.destEp = true ∧ s.inRegion fl.destEp a.region = true ∧ epCore fl.destEp = none) ∧
    (∃ s : State, ∃ fl : Flit, let ep := fl.path
    let a := s.adit ep
    let f := { fl with opcode := 1 }
    let next := a.isLocal = true ∧ (a.rxE2e + 4096 - fl.e2e) % 4096 = 0 ∧ s.holds ep = false ∧ a.waiting = []
    ∃ c : Nat, (next) ∧ epExists fl.destEp = true ∧ s.inRegion fl.destEp a.region = true ∧ epCore fl.destEp = some c ∧
      ∃ w : Window, s.fabMeeting ep c f = .taken w) ∧
    (∃ s : State, ∃ fl : Flit, let ep := fl.path
    let a := s.adit ep
    let f := { fl with opcode := 1 }
    let next := a.isLocal = true ∧ (a.rxE2e + 4096 - fl.e2e) % 4096 = 0 ∧ s.holds ep = false ∧ a.waiting = []
    ∃ c : Nat, (next) ∧ epExists fl.destEp = true ∧ s.inRegion fl.destEp a.region = true ∧ epCore fl.destEp = some c ∧
      s.fabMeeting ep c f = .refused) ∧
    (∃ s : State, ∃ fl : Flit, let ep := fl.path
    let a := s.adit ep
    let f := { fl with opcode := 1 }
    let next := a.isLocal = true ∧ (a.rxE2e + 4096 - fl.e2e) % 4096 = 0 ∧ s.holds ep = false ∧ a.waiting = []
    ∃ c : Nat, (next) ∧ epExists fl.destEp = true ∧ s.inRegion fl.destEp a.region = true ∧ epCore fl.destEp = some c ∧
      s.fabMeeting ep c f = .unopened ∧ s.fab.hold.length < 64) ∧
    (∃ s : State, ∃ fl : Flit, let ep := fl.path
    let a := s.adit ep
    let f := { fl with opcode := 1 }
    let next := a.isLocal = true ∧ (a.rxE2e + 4096 - fl.e2e) % 4096 = 0 ∧ s.holds ep = false ∧ a.waiting = []
    ∃ c : Nat, (next) ∧ epExists fl.destEp = true ∧ s.inRegion fl.destEp a.region = true ∧ epCore fl.destEp = some c ∧
      s.fabMeeting ep c f = .unopened ∧ 64 ≤ s.fab.hold.length) ∧
    (∃ s : State, ∃ fl : Flit, ∃ op : Nat, ∃ i : Instr, ((op, i) ∈ [(1, Instr.write fl), (3, Instr.ctl fl)]) ∧ (let ep := fl.path
    let a := s.adit ep
    let behind := (a.rxE2e + 4096 - fl.e2e) % 4096
    a.isLocal = true ∧ behind = 0 ∧ (s.holds ep = true ∨ a.waiting ≠ []))) ∧
    (∃ s : State, ∃ fl : Flit, ∃ op : Nat, ∃ i : Instr, ((op, i) ∈ [(1, Instr.write fl), (3, Instr.ctl fl)]) ∧ (let ep := fl.path
    let a := s.adit ep
    let behind := (a.rxE2e + 4096 - fl.e2e) % 4096
    a.isLocal = true ∧ behind ≠ 0 ∧ behind ≤ 2048)) ∧
    (∃ s : State, ∃ fl : Flit, ∃ op : Nat, ∃ i : Instr, ((op, i) ∈ [(1, Instr.write fl), (3, Instr.ctl fl)]) ∧ (let ep := fl.path
    let a := s.adit ep
    let behind := (a.rxE2e + 4096 - fl.e2e) % 4096
    (a.isLocal = false ∨ 2048 < behind))) ∧
    (∃ s : State, ∃ fl : Flit, let ep := fl.path
    let a := s.adit ep
    let m := ctlOf fl (epPort (rtPort a.active))
    a.isLocal = true ∧ ((a.rxE2e + 4096 - fl.e2e) % 4096 = 0) ∧ s.holds ep = false ∧ a.waiting = [] ∧ m.region = a.region) ∧
    (∃ s : State, ∃ fl : Flit, let ep := fl.path
    let a := s.adit ep
    let m := ctlOf fl (epPort (rtPort a.active))
    a.isLocal = true ∧ ((a.rxE2e + 4096 - fl.e2e) % 4096 = 0) ∧ s.holds ep = false ∧ a.waiting = [] ∧ m.region ≠ a.region) ∧
    (∃ s : State, ∃ i : Nat, ∃ c : Nat, ∃ h : Held, (s.fab.hold[i]? = some h) ∧ (h.since + fld (s.rd windowMcHold) 13 0 * 1000 ≤ s.now) ∧
      epCore h.flit.destEp = some c ∧ (s.adit h.ep).waiting = []) ∧
    (∃ s : State, ∃ i : Nat, ∃ c : Nat, ∃ h : Held, (s.fab.hold[i]? = some h) ∧ (h.since + fld (s.rd windowMcHold) 13 0 * 1000 ≤ s.now) ∧
      epCore h.flit.destEp = some c ∧ (s.adit h.ep).waiting ≠ [] ∧ ((∀ x ∈ s.fab.hold.erase h, x.ep = h.ep → x.flit.opcode = 4))) ∧
    (∃ s : State, ∃ i : Nat, (s.fab.hold[i]? = none)) ∧
    (∃ s : State, ∃ i : Nat, ∃ h : Held, (s.fab.hold[i]? = some h) ∧ (s.now < h.since + fld (s.rd windowMcHold) 13 0 * 1000)) ∧
    (∃ s : State, ∃ fl : Flit, let ep := fl.path
    let a := s.adit ep
    ∃ g : Flit, ∃ n : Nat, ∃ code : Nat, a.isLocal = true ∧ a.held = [] ∧ n < 4096 ∧ code < 16 ∧ (fl.payload = leBytes 2 (n + 0x1000 * code)) ∧
      (a.unacked.find? (fun f => f.e2e == n) = some g)) ∧
    (∃ s : State, ∃ fl : Flit, let ep := fl.path
    let a := s.adit ep
    a.isLocal = true) ∧
    (∃ s : State, ∃ fl : Flit, let ep := fl.path
    let a := s.adit ep
    a.isLocal = false) ∧
    (∃ p : Nat, portRole p = 1) ∧
    (∃ p : Nat, portRole p ≠ 1) ∧
    (∃ p : Nat, ∃ fl : Flit, portRole p = 2 ∧ 16 < fl.payload.length) ∧
    (∃ p : Nat, ∃ fl : Flit, portRole p = 2 ∧ fl.payload.length ≤ 16) ∧
    (∃ p : Nat, portRole p ≠ 2) :=
  ⟨⟨withAdit anAdit, { aFlit 1 (List.replicate 16 7) with destEp := 0x200 }, by decide +kernel⟩,
   ⟨(withAdit anAdit).wr (nocGeom 0) 0x37801, { aFlit 1 (List.replicate 16 7) with destEp := 255 }, by decide +kernel⟩,
   ⟨withAdit anAdit, { aFlit 1 (List.replicate 16 7) with destEp := epCage }, by decide +kernel⟩,
   ⟨withAdit anAdit, { aFlit 1 (List.replicate 16 7) with destEp := 0 }, 0, by decide +kernel, by decide +kernel, by decide +kernel, by decide +kernel,
    aWindow none, by decide +kernel⟩,
   ⟨withAdit anAdit, { aFlit 1 (List.replicate 32 7) with addr := 15 }, 0, by decide +kernel⟩,
   ⟨withAdit anAdit, { aFlit 1 (List.replicate 16 7) with addr := 100 }, 0, by decide +kernel⟩,
   ⟨let s := withAdit anAdit; { s with fab := { s.fab with hold := List.replicate 64 { flit := aFlit 1 [], since := 0, ep := 4 } } }.setCore 0 Core.reset,
    { aFlit 1 (List.replicate 16 7) with destEp := 0 }, 0, by decide +kernel⟩,
   ⟨let s := withAdit anAdit; { s with fab := { s.fab with hold := [{ flit := aFlit 1 [], since := 0, ep := 5 }] } }, aFlit 1 (List.replicate 16 7), 1,
    .write (aFlit 1 (List.replicate 16 7)), by decide +kernel⟩,
   ⟨withAdit { anAdit with rxE2e := 3 }, aFlit 1 (List.replicate 16 7), 1, .write (aFlit 1 (List.replicate 16 7)), by decide +kernel⟩,
   ⟨withAdit { anAdit with rxE2e := 4095 }, { aFlit 1 (List.replicate 16 7) with e2e := 1 }, 1, .write { aFlit 1 (List.replicate 16 7) with e2e := 1 },
    by decide +kernel⟩,
   ⟨withAdit anAdit, aFlit 3 (List.replicate 16 0), by decide +kernel⟩,
   ⟨withAdit anAdit, aFlit 1 (List.replicate 16 7), by decide +kernel⟩,
   ⟨let s := withAdit anAdit; { s with fab := { s.fab with hold := [{ flit := aFlit 1 [], since := 0, ep := 5 }] } }, 0, 0,
    { flit := aFlit 1 [], since := 0, ep := 5 }, by decide +kernel⟩,
   ⟨let s := withAdit { anAdit with waiting := [aFlit 1 []] }; { s with fab := { s.fab with hold := [{ flit := { aFlit 1 [] with destEp := 0 }, since := 0, ep := 5 }] } },
    0, 0, { flit := { aFlit 1 [] with destEp := 0 }, since := 0, ep := 5 }, by decide +kernel⟩,
   ⟨withAdit anAdit, 0, by decide +kernel⟩,
   ⟨let s := withAdit anAdit; { s with fab := { s.fab with hold := [{ flit := aFlit 1 [], since := 5000000000000, ep := 5 }] } }, 0,
    { flit := aFlit 1 [], since := 5000000000000, ep := 5 }, by decide +kernel⟩,
   ⟨withAdit { anAdit with unacked := [{ aFlit 1 [] with e2e := 4 }] }, aFlit 2 [4, 0], { aFlit 1 [] with e2e := 4 }, 4, 0, by decide +kernel⟩,
   ⟨withAdit anAdit, aFlit 1 (List.replicate 16 7), by decide +kernel⟩,
   ⟨State.reset, aFlit 1 (List.replicate 16 7), by decide +kernel⟩,
   ⟨20, by decide +kernel⟩,
   ⟨0, by decide +kernel⟩,
   ⟨22, { aFlit 1 (List.replicate 32 7) with addr := 15 }, by decide +kernel⟩,
   ⟨22, aFlit 1 (List.replicate 16 7), by decide +kernel⟩,
   ⟨0, by decide +kernel⟩⟩

/-- The hypotheses of CollectivesRun can be met, clause by clause. -/
theorem witness_CollectivesRun :
    (∃ s : State, ∃ src : Nat, ∃ op : Nat, ∃ cmd : List Byte, ∃ i : Instr, ((op, i) ∈ [(1, Instr.allReduce src cmd), (2, .allGather src cmd), (3, .reduceScatter src cmd), (4, .allToAll src cmd),
               (5, .multicast src cmd)]) ∧ (let k := collCmd cmd
    k.op ≠ op)) ∧
    (∃ s : State, ∃ src : Nat, ∃ op : Nat, ∃ cmd : List Byte, ∃ i : Instr, ((op, i) ∈ [(1, Instr.allReduce src cmd), (2, .allGather src cmd), (3, .reduceScatter src cmd), (4, .allToAll src cmd),
               (5, .multicast src cmd)]) ∧ (let k := collCmd cmd
    k.op = op ∧ s.collCheck k = 0 ∧ k.count ≠ 0)) ∧
    (∃ s : State, ∃ src : Nat, ∃ op : Nat, ∃ cmd : List Byte, ∃ i : Instr, ((op, i) ∈ [(1, Instr.allReduce src cmd), (2, .allGather src cmd), (3, .reduceScatter src cmd), (4, .allToAll src cmd),
               (5, .multicast src cmd)]) ∧ (let k := collCmd cmd
    k.op = op ∧ s.collCheck k = 0 ∧ k.count = 0)) ∧
    (∃ s : State, ∃ src : Nat, ∃ op : Nat, ∃ cmd : List Byte, ∃ i : Instr, ((op, i) ∈ [(1, Instr.allReduce src cmd), (2, .allGather src cmd), (3, .reduceScatter src cmd), (4, .allToAll src cmd),
               (5, .multicast src cmd)]) ∧ (let k := collCmd cmd
    k.op = op ∧ s.collCheck k ≠ 0)) ∧
    (∃ s : State, ∃ fl : Flit, let h := chunkHeadOf fl.payload
    s.chunkColl h = none) ∧
    (∃ s : State, ∃ fl : Flit, let h := chunkHeadOf fl.payload
    ∃ c : Coll, s.chunkColl h = some c ∧ ((c.members s).findIdx? (fun m => m.path == fl.path) = none)) ∧
    (∃ s : State, ∃ fl : Flit, let h := chunkHeadOf fl.payload
    ∃ c : Coll, ∃ j : Nat, s.chunkColl h = some c ∧ ((c.members s).findIdx? (fun m => m.path == fl.path) = some j) ∧ h.rank = c.rank s ∧
      h.phase = c.phase) ∧
    (∃ s : State, ∃ fl : Flit, let h := chunkHeadOf fl.payload
    ∃ c : Coll, ∃ j : Nat, s.chunkColl h = some c ∧ ((c.members s).findIdx? (fun m => m.path == fl.path) = some j) ∧
      (h.rank ≠ c.rank s ∨ h.phase ≠ c.phase)) ∧
    (∃ s : State, ∃ id : Nat, s.coll id = none) ∧
    (∃ s : State, ∃ id : Nat, ∃ j : Nat, ∃ c : Coll, s.coll id = some c ∧ (let late := c.ended = false ∧ c.open_ j ≠ [] ∧ c.progress.getD j 0 + fld (s.rd collChunkTo) 15 0 * 1000 ≤ s.now
    (¬late))) ∧
    (∃ s : State, ∃ id : Nat, ∃ j : Nat, ∃ c : Coll, s.coll id = some c ∧ (let late := c.ended = false ∧ c.open_ j ≠ [] ∧ c.progress.getD j 0 + fld (s.rd collChunkTo) 15 0 * 1000 ≤ s.now
    (late) ∧ 3 ≤ c.resends.getD j 0)) ∧
    (∃ s : State, ∃ id : Nat, ∃ j : Nat, ∃ c : Coll, s.coll id = some c ∧ (let late := c.ended = false ∧ c.open_ j ≠ [] ∧ c.progress.getD j 0 + fld (s.rd collChunkTo) 15 0 * 1000 ≤ s.now
    (late) ∧ c.resends.getD j 0 < 3 ∧ j < (c.members s).length)) ∧
    (∃ s : State, ∃ id : Nat, ∃ j : Nat, ∃ c : Coll, s.coll id = some c ∧ (let late := c.ended = false ∧ c.open_ j ≠ [] ∧ c.progress.getD j 0 + fld (s.rd collChunkTo) 15 0 * 1000 ≤ s.now
    (late) ∧ c.resends.getD j 0 < 3 ∧ (c.members s).length ≤ j)) ∧
    (∃ s : State, ∃ fl : Flit, let local_ := (s.adit fl.path).isLocal = true
    (¬local_ ∨ epCore fl.destEp = none)) ∧
    (∃ s : State, ∃ fl : Flit, let h := chunkHeadOf fl.payload
    let local_ := (s.adit fl.path).isLocal = true
    ∃ c : Nat, (local_) ∧ epCore fl.destEp = some c ∧ s.chunkColl h = none ∧ h.epoch < (s.group h.group).epoch) ∧
    (∃ s : State, ∃ fl : Flit, let h := chunkHeadOf fl.payload
    let local_ := (s.adit fl.path).isLocal = true
    ∃ c : Nat, (local_) ∧ epCore fl.destEp = some c ∧ s.chunkColl h = none ∧ (s.group h.group).epoch ≤ h.epoch ∧ s.fab.hold.length < 64) ∧
    (∃ s : State, ∃ fl : Flit, let h := chunkHeadOf fl.payload
    let local_ := (s.adit fl.path).isLocal = true
    ∃ c : Nat, (local_) ∧ epCore fl.destEp = some c ∧ s.chunkColl h = none ∧ (s.group h.group).epoch ≤ h.epoch ∧ 64 ≤ s.fab.hold.length) ∧
    (∃ s : State, ∃ fl : Flit, let h := chunkHeadOf fl.payload
    let local_ := (s.adit fl.path).isLocal = true
    ∃ c : Nat, ∃ k : Coll, (local_) ∧ epCore fl.destEp = some c ∧ s.chunkColl h = some k ∧ h.abandon = true ∧ k.op = 5) ∧
    (∃ s : State, ∃ fl : Flit, let h := chunkHeadOf fl.payload
    let local_ := (s.adit fl.path).isLocal = true
    ∃ c : Nat, ∃ k : Coll, (local_) ∧ epCore fl.destEp = some c ∧ s.chunkColl h = some k ∧ h.abandon = true ∧ k.op ≠ 5) ∧
    (∃ s : State, ∃ fl : Flit, let h := chunkHeadOf fl.payload
    let local_ := (s.adit fl.path).isLocal = true
    ∃ c : Nat, ∃ k : Coll, (local_) ∧ epCore fl.destEp = some c ∧ s.chunkColl h = some k ∧ h.abandon = false ∧ h.index < k.expected s h.rank h.phase) ∧
    (∃ s : State, ∃ fl : Flit, let h := chunkHeadOf fl.payload
    let local_ := (s.adit fl.path).isLocal = true
    ∃ c : Nat, ∃ k : Coll, (local_) ∧ epCore fl.destEp = some c ∧ s.chunkColl h = some k ∧ (let inside := s.inRegion fl.destEp (s.adit fl.path).region
    h.abandon = false ∧ k.expected s h.rank h.phase ≤ h.index ∧ ((h.rank, h.phase, h.index, h.packet) ∈ k.got ∨ inside = false))) ∧
    (∃ s : State, ∃ fl : Flit, let f := { fl with opcode := 4 }
    let h := chunkHeadOf fl.payload
    let local_ := (s.adit fl.path).isLocal = true
    ∃ c : Nat, ∃ k : Coll, (local_) ∧ epCore fl.destEp = some c ∧ s.chunkColl h = some k ∧ (let fresh := h.abandon = false ∧ k.expected s h.rank h.phase ≤ h.index ∧ (h.rank, h.phase, h.index, h.packet) ∉ k.got
    let inside := s.inRegion fl.destEp (s.adit fl.path).region
    ∃ w : Window, (fresh) ∧ inside = true ∧ s.fabMeeting fl.path c f = .taken w)) ∧
    (∃ s : State, ∃ fl : Flit, let f := { fl with opcode := 4 }
    let h := chunkHeadOf fl.payload
    let local_ := (s.adit fl.path).isLocal = true
    ∃ c : Nat, ∃ k : Coll, (local_) ∧ epCore fl.destEp = some c ∧ s.chunkColl h = some k ∧ (let fresh := h.abandon = false ∧ k.expected s h.rank h.phase ≤ h.index ∧ (h.rank, h.phase, h.index, h.packet) ∉ k.got
    let inside := s.inRegion fl.destEp (s.adit fl.path).region
    (fresh) ∧ inside = true ∧ s.fabMeeting fl.path c f = .refused)) ∧
    (∃ s : State, ∃ fl : Flit, let f := { fl with opcode := 4 }
    let h := chunkHeadOf fl.payload
    let local_ := (s.adit fl.path).isLocal = true
    ∃ c : Nat, ∃ k : Coll, (local_) ∧ epCore fl.destEp = some c ∧ s.chunkColl h = some k ∧ (let fresh := h.abandon = false ∧ k.expected s h.rank h.phase ≤ h.index ∧ (h.rank, h.phase, h.index, h.packet) ∉ k.got
    let inside := s.inRegion fl.destEp (s.adit fl.path).region
    (fresh) ∧ inside = true ∧ s.fabMeeting fl.path c f = .unopened ∧ s.fab.hold.length < 64)) ∧
    (∃ s : State, ∃ fl : Flit, let f := { fl with opcode := 4 }
    let h := chunkHeadOf fl.payload
    let local_ := (s.adit fl.path).isLocal = true
    ∃ c : Nat, ∃ k : Coll, (local_) ∧ epCore fl.destEp = some c ∧ s.chunkColl h = some k ∧ (let fresh := h.abandon = false ∧ k.expected s h.rank h.phase ≤ h.index ∧ (h.rank, h.phase, h.index, h.packet) ∉ k.got
    let inside := s.inRegion fl.destEp (s.adit fl.path).region
    (fresh) ∧ inside = true ∧ s.fabMeeting fl.path c f = .unopened ∧ 64 ≤ s.fab.hold.length)) ∧
    (∃ s : State, ∃ id : Nat, s.coll id = none) ∧
    (∃ s : State, ∃ id : Nat, ∃ c : Coll, s.coll id = some c ∧ (let due := c.ended = false ∧ c.folded = false ∧ (c.op = 1 ∨ c.op = 3) ∧ c.allIn s 0 = true ∧ c.allSent s = true
    (¬due ∨ (c.members s)[c.rank s]? = none))) ∧
    (∃ s : State, ∃ id : Nat, ∃ c : Coll, s.coll id = some c ∧ (let due := c.ended = false ∧ c.folded = false ∧ (c.op = 1 ∨ c.op = 3) ∧ c.allIn s 0 = true ∧ c.allSent s = true
    ∃ m : Member, (due) ∧ ((c.members s)[c.rank s]? = some m) ∧ c.op = 3)) ∧
    (∃ s : State, ∃ id : Nat, ∃ c : Coll, s.coll id = some c ∧ (let due := c.ended = false ∧ c.folded = false ∧ (c.op = 1 ∨ c.op = 3) ∧ c.allIn s 0 = true ∧ c.allSent s = true
    ∃ m : Member, (due) ∧ ((c.members s)[c.rank s]? = some m) ∧ c.op = 1)) ∧
    (∃ s : State, ∃ id : Nat, ∃ c : Coll, s.coll id = some c ∧ (let due := c.ended = false ∧ c.op = 5 ∧ c.rank s = c.root ∧ c.refused ≠ [] ∧ c.allSent s = true
    (¬due))) ∧
    (∃ s : State, ∃ id : Nat, ∃ c : Coll, s.coll id = some c ∧ (let due := c.ended = false ∧ c.op = 5 ∧ c.rank s = c.root ∧ c.refused ≠ [] ∧ c.allSent s = true
    (due) ∧ c.passes < fld (s.rd windowMcRetry) 3 0)) ∧
    (∃ s : State, ∃ id : Nat, ∃ c : Coll, s.coll id = some c ∧ (let due := c.ended = false ∧ c.op = 5 ∧ c.rank s = c.root ∧ c.refused ≠ [] ∧ c.allSent s = true
    (due) ∧ fld (s.rd windowMcRetry) 3 0 ≤ c.passes)) ∧
    (∃ s : State, ∃ id : Nat, ∃ c : Coll, s.coll id = some c ∧ (let over_ := c.ended = true ∨ c.finished s = true
    (¬over_))) ∧
    (∃ s : State, ∃ id : Nat, ∃ c : Coll, s.coll id = some c ∧ (let over_ := c.ended = true ∨ c.finished s = true
    (over_) ∧ epCore (fld c.cpl 28 17) = none ∧ (epCore c.owner = none ∨ bitAt c.cnt 7 = false))) ∧
    (∃ s : State, ∃ id : Nat, ∃ c : Coll, s.coll id = some c ∧ (let over_ := c.ended = true ∨ c.finished s = true
    (over_))) ∧
    (∃ s : State, ∃ id : Nat, ∃ c : Coll, s.coll id = some c ∧ (let over_ := c.ended = true ∨ c.finished s = true
    ∃ k : Nat, (over_) ∧ epCore (fld c.cpl 28 17) = some k ∧ (let bs := c.record s
    let start := s.unitFlat k (fld c.cpl 16 0)
    let met := s.meeting k start bs.length s.edge.devId epColl true
    ∃ w : Window, met = .taken w ∧ ((∀ n ∈ w.counter, n < 32))))) ∧
    (∃ s : State, ∃ id : Nat, ∃ c : Coll, s.coll id = some c ∧ (let over_ := c.ended = true ∨ c.finished s = true
    ∃ k : Nat, (over_) ∧ epCore (fld c.cpl 28 17) = some k ∧ (let bs := c.record s
    let start := s.unitFlat k (fld c.cpl 16 0)
    let met := s.meeting k start bs.length s.edge.devId epColl true
    ((∀ w, met ≠ .taken w))))) ∧
    (∃ s : State, ∃ f : Nat, s.mayWrite f collGrpCmd = false) ∧
    (∃ s : State, ∃ f : Nat, let g := (grpOf (s.rd collGrpSel)).1
    let hdr := Table.get (0, 0, 0) s.fab.stagedHdr g
    let ms := (List.range hdr.1).map fun j => Table.get memberNone s.fab.stagedMem (4096 * g + j)
    let others := ((s.fab.groups.filter fun p => p.1 != g).map fun p => p.2.members.length).sum
    let known := ∀ m ∈ ms, deviceOk m.device = true
    let room := hdr.1 ≤ 4096 ∧ others + hdr.1 ≤ 16384 ∧ ∀ c ∈ s.fab.colls, c.group = g → c.ended = true
    let inside := (∀ m ∈ ms, if m.path = 0xFFF then s.inRegion m.endpoint hdr.2.2 = true
                             else (s.adit m.path).isLocal = true ∧ (s.adit m.path).region = hdr.2.2)
    s.mayWrite f collGrpCmd = true ∧ (known) ∧ (room) ∧ (inside)) ∧
    (∃ s : State, ∃ f : Nat, let g := (grpOf (s.rd collGrpSel)).1
    let hdr := Table.get (0, 0, 0) s.fab.stagedHdr g
    let ms := (List.range hdr.1).map fun j => Table.get memberNone s.fab.stagedMem (4096 * g + j)
    let others := ((s.fab.groups.filter fun p => p.1 != g).map fun p => p.2.members.length).sum
    let known := ∀ m ∈ ms, deviceOk m.device = true
    let room := hdr.1 ≤ 4096 ∧ others + hdr.1 ≤ 16384 ∧ ∀ c ∈ s.fab.colls, c.group = g → c.ended = true
    let inside := (∀ m ∈ ms, if m.path = 0xFFF then s.inRegion m.endpoint hdr.2.2 = true
                             else (s.adit m.path).isLocal = true ∧ (s.adit m.path).region = hdr.2.2)
    s.mayWrite f collGrpCmd = true ∧ (known) ∧ (room) ∧ (¬inside)) ∧
    (∃ s : State, ∃ f : Nat, let g := (grpOf (s.rd collGrpSel)).1
    let hdr := Table.get (0, 0, 0) s.fab.stagedHdr g
    let ms := (List.range hdr.1).map fun j => Table.get memberNone s.fab.stagedMem (4096 * g + j)
    let others := ((s.fab.groups.filter fun p => p.1 != g).map fun p => p.2.members.length).sum
    let known := ∀ m ∈ ms, deviceOk m.device = true
    let room := hdr.1 ≤ 4096 ∧ others + hdr.1 ≤ 16384 ∧ ∀ c ∈ s.fab.colls, c.group = g → c.ended = true
    s.mayWrite f collGrpCmd = true ∧ (known) ∧ (¬room)) ∧
    (∃ s : State, ∃ f : Nat, let g := (grpOf (s.rd collGrpSel)).1
    let hdr := Table.get (0, 0, 0) s.fab.stagedHdr g
    let ms := (List.range hdr.1).map fun j => Table.get memberNone s.fab.stagedMem (4096 * g + j)
    let known := ∀ m ∈ ms, deviceOk m.device = true
    s.mayWrite f collGrpCmd = true ∧ (¬known)) :=
  ⟨⟨withColls [], 0, 1, collBytes 3 0, .allReduce 0 (collBytes 3 0), by decide +kernel⟩,
   ⟨withColls [], 0, 1, collBytes 1 32, .allReduce 0 (collBytes 1 32), by decide +kernel⟩,
   ⟨withColls [], 0, 3, collBytes 3 0, .reduceScatter 0 (collBytes 3 0), by decide +kernel⟩,
   ⟨(withColls []).wr collCtrl 0, 0, 1, collBytes 1 32, .allReduce 0 (collBytes 1 32), by decide +kernel⟩,
   ⟨withColls [], aFlit 5 (chunkHead 1 0 4 0 0 0 0 0 ++ [3] ++ List.replicate 15 0), by decide +kernel⟩,
   ⟨withColls [aColl 2], { aChunk with path := 7 }, aColl 2, by decide +kernel⟩,
   ⟨withColls [aColl 2], aFlit 5 (chunkHead 1 0 4 0 0 0 0 0 ++ [3] ++ List.replicate 15 0), aColl 2, 1, by decide +kernel⟩,
   ⟨withColls [aColl 2], aChunk, aColl 2, 1, by decide +kernel⟩,
   ⟨withColls [], 0, by decide +kernel⟩,
   ⟨withColls [aColl 2], 1, 0, aColl 2, by decide +kernel⟩,
   ⟨withColls [{ aColl 2 with resends := [0, 3] }], 1, 1, { aColl 2 with resends := [0, 3] }, by decide +kernel⟩,
   ⟨withColls [aColl 2], 1, 1, aColl 2, by decide +kernel⟩,
   ⟨withColls [{ aColl 2 with next := [0, 1, 1] }], 1, 2, { aColl 2 with next := [0, 1, 1] }, by decide +kernel⟩,
   ⟨State.reset, aFlit 5 (chunkHead 1 0 4 0 0 0 0 0 ++ [3] ++ List.replicate 15 0), by decide +kernel⟩,
   ⟨withColls [], aFlit 4 (chunkHead 1 0 3 1 0 0 0 0 ++ List.replicate 16 7), 0, by decide +kernel⟩,
   ⟨withColls [], aFlit 5 (chunkHead 1 0 4 0 0 0 0 0 ++ [3] ++ List.replicate 15 0), 0, by decide +kernel⟩,
   ⟨let s := withColls []; { s with fab := { s.fab with hold := List.replicate 64 { flit := aFlit 1 [], since := 0, ep := 4 } } }, aChunk, 0,
    by decide +kernel⟩,
   ⟨withColls [aColl 5], aFlit 4 (chunkHead 1 0 4 1 0 0 0 1 ++ List.replicate 16 7), 0, aColl 5, by decide +kernel⟩,
   ⟨withColls [aColl 2], aFlit 4 (chunkHead 1 0 4 1 0 0 0 1 ++ List.replicate 16 7), 0, aColl 2, by decide +kernel⟩,
   ⟨withColls [{ aColl 3 with got := [(1, 0, 0, 0)], acks := [(1, 0, 0)] }], aChunk, 0, { aColl 3 with got := [(1, 0, 0, 0)], acks := [(1, 0, 0)] },
    by decide +kernel⟩,
   ⟨withColls [aColl 2], { aChunk with destEp := 5 }, 5, aColl 2, by decide +kernel⟩,
   ⟨withColls [aColl 2], aFlit 5 (chunkHead 1 0 4 0 0 0 0 0 ++ [3] ++ List.replicate 15 0), 0, aColl 2, by decide +kernel, by decide +kernel,
    by decide +kernel, aWindow none, by decide +kernel⟩,
   ⟨withColls [aColl 2], { aFlit 4 (chunkHead 1 0 4 1 0 0 0 0 ++ List.replicate 32 7) with addr := 15 }, 0, aColl 2, by decide +kernel⟩,
   ⟨withColls [aColl 2], { aChunk with addr := 100 }, 0, aColl 2, by decide +kernel⟩,
   ⟨let s := withColls [aColl 2]; { s with fab := { s.fab with hold := List.replicate 64 { flit := aFlit 1 [], since := 0, ep := 4 } } },
    { aChunk with addr := 100 }, 0, aColl 2, by decide +kernel⟩,
   ⟨withColls [], 0, by decide +kernel⟩,
   ⟨withColls [aColl 2], 1, aColl 2, by decide +kernel⟩,
   ⟨withColls [{ aColl 3 with got := [(1, 0, 0, 0)], acks := [(1, 0, 0)] }], 1, { aColl 3 with got := [(1, 0, 0, 0)], acks := [(1, 0, 0)] },
    by decide +kernel, { device := 0xFFFFD, path := 0xFFF, endpoint := 0, wbase := 0 }, by decide +kernel⟩,
   ⟨withColls [{ aColl 1 with got := [(1, 0, 0, 0)], acks := [(1, 0, 0)] }], 1, { aColl 1 with got := [(1, 0, 0, 0)], acks := [(1, 0, 0)] },
    by decide +kernel, { device := 0xFFFFD, path := 0xFFF, endpoint := 0, wbase := 0 }, by decide +kernel⟩,
   ⟨withColls [aColl 2], 1, aColl 2, by decide +kernel⟩,
   ⟨(withColls [{ aColl 5 with refused := [(1, 0, 0)], acks := [(1, 0, 0)] }]).wr windowMcRetry 3, 1,
    { aColl 5 with refused := [(1, 0, 0)], acks := [(1, 0, 0)] }, by decide +kernel⟩,
   ⟨(withColls [{ aColl 5 with refused := [(1, 0, 0)], acks := [(1, 0, 0)] }]).wr windowMcRetry 0, 1,
    { aColl 5 with refused := [(1, 0, 0)], acks := [(1, 0, 0)] }, by decide +kernel⟩,
   ⟨withColls [aColl 2], 1, aColl 2, by decide +kernel⟩,
   ⟨withColls [{ aColl 2 with ended := true, cpl := 0x08200000 }], 1, { aColl 2 with ended := true, cpl := 0x08200000 }, by decide +kernel⟩,
   ⟨withColls [{ aColl 2 with ended := true }], 1, { aColl 2 with ended := true }, by decide +kernel⟩,
   ⟨withColls [{ aColl 2 with ended := true }], 1, { aColl 2 with ended := true }, by decide +kernel, 0, by decide +kernel, by decide +kernel,
    aWindow none, by decide +kernel⟩,
   ⟨(withColls [{ aColl 2 with ended := true }]).setCore 0 Core.reset, 1, { aColl 2 with ended := true }, by decide +kernel, 0, by decide +kernel,
    by decide +kernel, fun w h => absurd (h.symm.trans (show _ = Meeting.unopened from by decide +kernel)) nofun⟩,
   ⟨State.reset.wr (regOwner (pageBase collGrpCmd)) 0x105, 1, by decide +kernel⟩,
   ⟨withColls [], 0, by decide +kernel⟩,
   ⟨let s := (withColls []).wr collGrpSel 1; { s with fab := { s.fab with stagedHdr := [(1, (1, 0, 0))], stagedMem := [(4096, { device := 9, path := 7, endpoint := 0, wbase := 0 })] } },
    0, by decide +kernel⟩,
   ⟨(withColls [aColl 2]).wr collGrpSel 1, 0, by decide +kernel⟩,
   ⟨let s := (withColls []).wr collGrpSel 1; { s with fab := { s.fab with stagedHdr := [(1, (1, 0, 0))], stagedMem := [(4096, { device := 32768, path := 5, endpoint := 0, wbase := 0 })] } },
    0, by decide +kernel⟩⟩

/-- The hypotheses of PowerSequencesRun can be met, clause by clause. -/
theorem witness_PowerSequencesRun :
    (∃ s : State, ∃ f : Nat, (s.pwrReqActs f = false ∨ s.hf.pwr = .ready)) ∧
    (∃ s : State, ∃ f : Nat, s.pwrReqActs f = true ∧ (s.hf.pwr = .init ∨ s.hf.pwr = .cal ∨ (s.hf.pwr = .drain ∧ s.hf.downward = true))) ∧
    (∃ s : State, ∃ f : Nat, s.pwrReqActs f = true ∧ s.hf.pwr = .drain ∧ s.hf.downward = false) ∧
    (∃ s : State, (s.hf.rmvStep = 0 ∨ s.hf.rmvStep = 5)) ∧
    (∃ s : State, s.hf.rmvStep ≠ 0 ∧ s.hf.rmvStep ≠ 5) ∧
    (∃ s : State, ∃ f : Nat, s.pwrReqActs f = false) ∧
    (∃ s : State, ∃ f : Nat, s.pwrReqActs f = true ∧ s.hf.pwr ≠ .ready) ∧
    (∃ s : State, ∃ f : Nat, s.pwrReqActs f = true ∧ s.hf.pwr = .ready) ∧
    (∃ s : State, s.swap.phase = .idle) ∧
    (∃ s : State, s.mayRise = true) ∧
    (∃ s : State, s.mayRise = false ∧ (s.hf.step = 0 ∨ s.hf.downward = true)) ∧
    (∃ s : State, ∃ n : Nat, s.mayRise = false ∧ s.hf.downward = false ∧ s.hf.step = n ∧ n ≠ 0 ∧ n ≠ 12 ∧ n ≠ 13 ∧ s.hf.latched ≠ 2) ∧
    (∃ s : State, ∃ n : Nat, s.mayRise = false ∧ s.hf.downward = false ∧ s.hf.step = n ∧ n ≠ 0 ∧ n ≠ 13 ∧ s.hf.latched = 2) ∧
    (∃ s : State, let x := s.calProgress
    s.mayRise = false ∧ s.hf.downward = false ∧ s.hf.step = 12 ∧ s.hf.latched ≠ 2 ∧ x.calDone = false) ∧
    (∃ s : State, let x := s.calProgress
    s.mayRise = false ∧ s.hf.downward = false ∧ s.hf.step = 12 ∧ s.hf.latched ≠ 2 ∧ x.calDone = true) ∧
    (∃ s : State, s.hf.calGroup = 17 ∧ bitAt s.hf.causes 9 = false) ∧
    (∃ s : State, s.hf.calGroup = 17 ∧ bitAt s.hf.causes 9 = false ∧ ∃ i : Nat, (i ∈ s.imageStopes) ∧ ∃ m : Nat, m < 74) ∧
    (∃ s : State, let x := s.calProgress
    s.hf.calGroup = 17 ∧ bitAt s.hf.causes 9 = false ∧ ∃ i : Nat, (i ∈ s.imageStopes) ∧ i < 256 ∧
      ∃ c : Nat × Nat, (c ∈ (x.fence (shellPage i)).causes)) ∧
    (∃ s : State, (s.hf.calGroup ≠ 17 ∨ bitAt s.hf.causes 9 = true)) ∧
    (∃ s : State, s.mayRise = false ∧ s.hf.downward = false ∧ s.hf.step = 13 ∧ s.hf.latched ≠ 2) ∧
    (∃ s : State, s.mayRise = false ∧ s.hf.downward = false ∧ s.hf.step = 13 ∧ s.hf.latched = 2) ∧
    (∃ s : State, let quiet := ∀ p ∈ s.wnd.streams, p.2.flying = none ∧ p.2.state ≠ .parking ∧ p.2.state ≠ .unparking
    s.hf.pwr = .drain ∧ s.hf.downward = false ∧ (quiet)) ∧
    (∃ s : State, let quiet := ∀ p ∈ s.wnd.streams, p.2.flying = none ∧ p.2.state ≠ .parking ∧ p.2.state ≠ .unparking
    (s.hf.pwr ≠ .drain ∨ s.hf.downward = true ∨ ¬quiet)) ∧
    (∃ s : State, let late := s.hf.drainSince + fld (s.rd pwrDrainTimeout) 15 0 * 1000000 ≤ s.now
    s.hf.pwr = .drain ∧ s.hf.downward = false ∧ (late)) ∧
    (∃ s : State, let late := s.hf.drainSince + fld (s.rd pwrDrainTimeout) 15 0 * 1000000 ≤ s.now
    (s.hf.pwr ≠ .drain ∨ s.hf.downward = true ∨ ¬late)) ∧
    (∃ s : State, s.hf.downward = false ∧ s.hf.rmvStep = 1 ∧ s.rmvOpen = [] ∧ s.hf.pwr = .ready ∧ s.swap.phase = .idle) ∧
    (∃ s : State, s.hf.downward = false ∧ s.hf.rmvStep = 1 ∧ s.rmvOpen = []) ∧
    (∃ s : State, s.hf.downward = false ∧ (s.hf.rmvStep ≠ 1 ∨ s.rmvOpen ≠ [])) ∧
    (∃ s : State, ∃ n : Nat, s.hf.downward = true ∧ s.hf.step = n ∧ n < 10) ∧
    (∃ s : State, s.hf.downward = true ∧ s.hf.step = 10) ∧
    (∃ s : State, s.hf.downward = true ∧ 10 < s.hf.step) :=
  ⟨⟨withHf id, 1, by decide +kernel⟩,
   ⟨inPower .init 7 false 1, 0, by decide +kernel⟩,
   ⟨{ inPower .drain 0 false 2 with wnd := { small.wnd with drainHold := true } }, 0, by decide +kernel⟩,
   ⟨withHf id, by decide +kernel⟩,
   ⟨removing .ready 1, by decide +kernel⟩,
   ⟨withHf id, 1, by decide +kernel⟩,
   ⟨inPower .init 7 false 1, 0, by decide +kernel⟩,
   ⟨withHf id, 0, by decide +kernel⟩,
   ⟨withHf id, by decide +kernel⟩,
   ⟨inPower .aux 0 false 1, by decide +kernel⟩,
   ⟨withHf id, by decide +kernel⟩,
   ⟨inPower .rails 9 false 1, 9, by decide +kernel⟩,
   ⟨inPower .rails 5 false 2, 5, by decide +kernel⟩,
   ⟨inPower .cal 12 false 1, by decide +kernel⟩,
   ⟨let s := inPower .cal 12 false 1; { s with hf := { s.hf with calGroup := 18 } }, by decide +kernel⟩,
   ⟨let s := inPower .cal 12 false 1; { s with hf := { s.hf with calGroup := 17 } }, by decide +kernel⟩,
   ⟨let s := inPower .cal 12 false 1; { s with hf := { s.hf with calGroup := 17 } }, by decide +kernel, by decide +kernel, 0, by decide +kernel, 73,
    by decide +kernel⟩,
   ⟨let s := (inPower .cal 12 false 1).fenceFor (shellPage 0) 0 1; { s with hf := { s.hf with calGroup := 17 } }, by decide +kernel, by decide +kernel,
    0, by decide +kernel, by decide +kernel, (0, 1), by decide +kernel⟩,
   ⟨withHf id, by decide +kernel⟩,
   ⟨inPower .cal 13 false 1, by decide +kernel⟩,
   ⟨inPower .cal 13 false 2, by decide +kernel⟩,
   ⟨{ inPower .drain 0 false 2 with wnd := { small.wnd with drainHold := true } }, by decide +kernel⟩,
   ⟨withHf id, by decide +kernel⟩,
   ⟨{ inPower .drain 0 false 2 with wnd := { small.wnd with drainHold := true } }, by decide +kernel⟩,
   ⟨withHf id, by decide +kernel⟩,
   ⟨removing .ready 1, by decide +kernel⟩,
   ⟨removing .ready 1, by decide +kernel⟩,
   ⟨withHf id, by decide +kernel⟩,
   ⟨inPower .drain 4 true 2, 4, by decide +kernel⟩,
   ⟨(inPower .rails 10 true 2).setStream 0 (inFlight id), by decide +kernel⟩,
   ⟨inPower .drain 11 true 2, by decide +kernel⟩⟩

/-- The hypotheses of SuppliesDropTheModule can be met, clause by clause. -/
theorem witness_SuppliesDropTheModule :
    (∃ s : State, s.hf.pwr = .off) ∧
    (∃ s : State, s.hf.pwr ≠ .off) ∧
    (∃ s : State, ∃ mv : Nat, (s.hf.pwr = .off ∨ (46000 ≤ mv ∧ mv ≤ 62000))) ∧
    (∃ s : State, ∃ mv : Nat, s.hf.pwr ≠ .off ∧ (mv < 46000 ∨ 62000 < mv)) ∧
    (∃ s : State, ∃ mv : Nat, (s.hf.pwr = .off ∨ mv < 48000 ∨ 60000 < mv)) ∧
    (∃ s : State, ∃ mv : Nat, s.hf.pwr ≠ .off ∧ 48000 ≤ mv ∧ mv ≤ 60000) ∧
    (∃ s : State, ∃ p : Nat, (32 ≤ p ∨ p ∈ s.hf.failedPhases)) ∧
    (∃ s : State, ∃ p : Nat, p < 32 ∧ (p ∉ s.hf.failedPhases) ∧ (p < 24 ∨ pairPhase p ∉ s.hf.failedPhases ∨ s.hf.pwr = .off ∨ s.hf.pwr = .aux)) ∧
    (∃ s : State, ∃ p : Nat, 24 ≤ p ∧ p < 32 ∧ (p ∉ s.hf.failedPhases) ∧ (pairPhase p ∈ s.hf.failedPhases) ∧ s.hf.pwr ≠ .off ∧ s.hf.pwr ≠ .aux) ∧
    (∃ s : State, ∃ c : Nat, (12 ≤ c ∨ s.hf.pwr = .off)) ∧
    (∃ s : State, ∃ c : Nat, c < 12 ∧ s.hf.pwr = .aux) ∧
    (∃ s : State, ∃ c : Nat, c < 12 ∧ s.hf.pwr ≠ .off ∧ s.hf.pwr ≠ .aux) :=
  ⟨⟨State.reset, by decide +kernel⟩,
   ⟨{ withHf id with tally := { Tally.reset with dirty := [5], entries := [anEntry 5 2] } }, by decide +kernel⟩,
   ⟨{ withHf id with tally := { Tally.reset with dirty := [5], entries := [anEntry 5 2] } }, 48000, by decide +kernel⟩,
   ⟨{ withHf id with tally := { Tally.reset with dirty := [5], entries := [anEntry 5 2] } }, 45999, by decide +kernel⟩,
   ⟨{ withHf id with tally := { Tally.reset with dirty := [5], entries := [anEntry 5 2] } }, 45999, by decide +kernel⟩,
   ⟨{ withHf id with tally := { Tally.reset with dirty := [5], entries := [anEntry 5 2] } }, 48000, by decide +kernel⟩,
   ⟨{ withHf id with tally := { Tally.reset with dirty := [5], entries := [anEntry 5 2] } }, 45999, by decide +kernel⟩,
   ⟨{ withHf id with tally := { Tally.reset with dirty := [5], entries := [anEntry 5 2] } }, 23, by decide +kernel⟩,
   ⟨withHf (fun h => { h with failedPhases := [25] }), 24, by decide +kernel⟩,
   ⟨{ withHf id with tally := { Tally.reset with dirty := [5], entries := [anEntry 5 2] } }, 45999, by decide +kernel⟩,
   ⟨inPower .aux 0 false 0, 11, by decide +kernel⟩,
   ⟨{ withHf id with tally := { Tally.reset with dirty := [5], entries := [anEntry 5 2] } }, 11, by decide +kernel⟩⟩

/-- The hypotheses of TemperaturesThrottle can be met, clause by clause. -/
theorem witness_TemperaturesThrottle :
    (∃ s : State, s.perDue perThermal = false) ∧
    (∃ s : State, s.perDue perThermal = true) ∧
    (∃ s : State, ∃ n : Nat, let due := (s.sensor n).broken = true ∧ s.isPermanent (unitSensor n) = false ∧ (s.sensor n).goodSince + 60000000000 ≤ s.now
    (due)) ∧
    (∃ s : State, ∃ n : Nat, let due := (s.sensor n).broken = true ∧ s.isPermanent (unitSensor n) = false ∧ (s.sensor n).goodSince + 60000000000 ≤ s.now
    (¬due)) ∧
    (∃ s : State, ∃ f : Nat, s.mayWrite f thCtrl = true) ∧
    (∃ s : State, ∃ f : Nat, s.mayWrite f thCtrl = false) ∧
    (∃ s : State, ∃ node : Nat, ∃ which : Nat, let x := s.node node
    let risen := (∃ since, x.above.getD which none = some since ∧ since + 10000000 ≤ s.now) ∧ x.asserted.getD which false = false
    (risen)) ∧
    (∃ s : State, ∃ node : Nat, ∃ which : Nat, let x := s.node node
    let risen := (∃ since, x.above.getD which none = some since ∧ since + 10000000 ≤ s.now) ∧ x.asserted.getD which false = false
    (¬risen)) ∧
    (∃ s : State, ∃ node : Nat, ∃ which : Nat, let x := s.node node
    let fallen := (∃ since, x.below.getD which none = some since ∧ since + 10000000 ≤ s.now) ∧ x.asserted.getD which false = true
    (fallen)) ∧
    (∃ s : State, ∃ node : Nat, ∃ which : Nat, let x := s.node node
    let fallen := (∃ since, x.below.getD which none = some since ∧ since + 10000000 ≤ s.now) ∧ x.asserted.getD which false = true
    (¬fallen)) ∧
    (∃ s : State, let above := (∃ since, s.hf.overSince = some since ∧ since + 10000000 ≤ s.now) ∧ (s.hf.episode.map (·.power)).getD false = false
    (¬above)) ∧
    (∃ s : State, let above := (∃ since, s.hf.overSince = some since ∧ since + 10000000 ≤ s.now) ∧ (s.hf.episode.map (·.power)).getD false = false
    (above) ∧ s.hf.episode = none) ∧
    (∃ s : State, let above := (∃ since, s.hf.overSince = some since ∧ since + 10000000 ≤ s.now) ∧ (s.hf.episode.map (·.power)).getD false = false
    ∃ e : Episode, (above) ∧ s.hf.episode = some e) ∧
    (∃ s : State, s.hf.episode = none ∧ ∃ i : Instr, (i ∈ [Instr.graceExpiry, .throttleMark, .throttleEnd])) ∧
    (∃ s : State, ∃ e : Episode, s.hf.episode = some e ∧ (let due := e.graceOver = false ∧ e.start + fld (s.rd thCtrl) 10 0 * 1000000 ≤ s.now
    (due) ∧ e.target < s.hf.moduleW)) ∧
    (∃ s : State, ∃ e : Episode, s.hf.episode = some e ∧ (let due := e.graceOver = false ∧ e.start + fld (s.rd thCtrl) 10 0 * 1000000 ≤ s.now
    (due) ∧ s.hf.moduleW ≤ e.target)) ∧
    (∃ s : State, ∃ e : Episode, s.hf.episode = some e ∧ (let due := e.graceOver = false ∧ e.start + fld (s.rd thCtrl) 10 0 * 1000000 ≤ s.now
    (¬due))) ∧
    (∃ s : State, ∃ e : Episode, s.hf.episode = some e ∧ (let due := e.enforced = true ∧ e.lastMark + 10000000 ≤ s.now
    ∃ l : Nat, (due) ∧ e.target < s.hf.moduleW ∧ s.nextLevel = some l)) ∧
    (∃ s : State, ∃ e : Episode, s.hf.episode = some e ∧ (let due := e.enforced = true ∧ e.lastMark + 10000000 ≤ s.now
    (due) ∧ (s.hf.moduleW ≤ e.target ∨ s.nextLevel = none))) ∧
    (∃ s : State, ∃ e : Episode, s.hf.episode = some e ∧ (let due := e.enforced = true ∧ e.lastMark + 10000000 ≤ s.now
    (¬due))) ∧
    (∃ s : State, ∃ e : Episode, s.hf.episode = some e ∧ (let past := ∃ since, e.belowSince = some since ∧ since + 10000000 ≤ s.now
    e.nodes = [] ∧ (e.power = false ∨ past))) ∧
    (∃ s : State, ∃ e : Episode, s.hf.episode = some e ∧ (let past := ∃ since, e.belowSince = some since ∧ since + 10000000 ≤ s.now
    (e.nodes ≠ [] ∨ (e.power = true ∧ ¬past)))) ∧
    (∃ s : State, let due := s.hf.releasing = true ∧ s.perDue perRelease = true
    (¬due)) ∧
    (∃ s : State, let due := s.hf.releasing = true ∧ s.perDue perRelease = true
    (due) ∧ s.wnd.heldLevels = []) ∧
    (∃ s : State, let due := s.hf.releasing = true ∧ s.perDue perRelease = true
    ∃ l : Nat, (due) ∧ (l ∈ s.wnd.heldLevels) ∧ ((∀ x ∈ s.wnd.heldLevels, l ≤ x))) :=
  ⟨⟨withHf fun h => { h with marks := [(4, 5000000000000)] }, by decide +kernel⟩,
   ⟨withHf id, by decide +kernel⟩,
   ⟨(withHf id).setSensor 4 { Sensor.reset with broken := true }, 4, by decide +kernel⟩,
   ⟨(withHf id).setSensor 4 { Sensor.reset with broken := true }, 0, by decide +kernel⟩,
   ⟨(withHf id).setSensor 4 { Sensor.reset with broken := true }, 0, by decide +kernel⟩,
   ⟨(withHf id).setSensor 4 { Sensor.reset with broken := true }, 4, by decide +kernel⟩,
   ⟨(withHf id).setNode 3 { TNode.reset with above := [none, some 0, none] }, 3, 1, by decide +kernel⟩,
   ⟨(withHf id).setSensor 4 { Sensor.reset with broken := true }, 4, 4, by decide +kernel⟩,
   ⟨(withHf (fun h => { h with episode := some anEpisode })).setNode 3 { TNode.reset with below := [none, some 0, none], asserted := [false, true, false] },
    3, 1, by decide +kernel⟩,
   ⟨(withHf id).setSensor 4 { Sensor.reset with broken := true }, 4, 4, by decide +kernel⟩,
   ⟨(withHf id).setSensor 4 { Sensor.reset with broken := true }, by decide +kernel⟩,
   ⟨withHf (fun h => { h with overSince := some 0 }), by decide +kernel⟩,
   ⟨withHf fun h => { h with overSince := some 0, episode := some anEpisode }, anEpisode, by decide +kernel⟩,
   ⟨withHf id, by decide +kernel, .graceExpiry, by decide +kernel⟩,
   ⟨withHf (fun h => { h with episode := some anEpisode, moduleW := 120 }), anEpisode, by decide +kernel⟩,
   ⟨(withHf (fun h => { h with episode := some anEpisode })).setNode 3 { TNode.reset with below := [none, some 0, none], asserted := [false, true, false] },
    anEpisode, by decide +kernel⟩,
   ⟨withHf (fun h => { h with episode := some { anEpisode with start := 5000000000000 } }), { anEpisode with start := 5000000000000 },
    by decide +kernel⟩,
   ⟨{ withHf (fun h => { h with episode := some { anEpisode with enforced := true }, moduleW := 120 }) with wnd := { small.wnd with streams := [(0, inFlight id)], classes := [(0, { Class.none with prio := 7 })] } },
    { nodes := [3],   power := false,   target := 100,   reduction := 20,   start := 0,   graceOver := false,   enforced := true,   lastMark := 0,   belowSince := none },
    by decide +kernel, 7, by decide +kernel⟩,
   ⟨withHf fun h => { h with episode := some { anEpisode with enforced := true }, moduleW := 120 }, { anEpisode with enforced := true },
    by decide +kernel⟩,
   ⟨(withHf (fun h => { h with episode := some anEpisode })).setNode 3 { TNode.reset with below := [none, some 0, none], asserted := [false, true, false] },
    anEpisode, by decide +kernel⟩,
   ⟨withHf (fun h => { h with episode := some { anEpisode with nodes := [] } }), { anEpisode with nodes := [] }, by decide +kernel⟩,
   ⟨(withHf (fun h => { h with episode := some anEpisode })).setNode 3 { TNode.reset with below := [none, some 0, none], asserted := [false, true, false] },
    anEpisode, by decide +kernel⟩,
   ⟨(withHf id).setSensor 4 { Sensor.reset with broken := true }, by decide +kernel⟩,
   ⟨withHf fun h => { h with releasing := true }, by decide +kernel⟩,
   ⟨{ withHf (fun h => { h with releasing := true }) with wnd := { small.wnd with heldLevels := [7, 6] } }, 6, by decide +kernel⟩⟩

/-- The hypotheses of EnergyIsBudgeted can be met, clause by clause. -/
theorem witness_EnergyIsBudgeted :
    (∃ s : State, (s.hf.vcore = 0 ∨ s.perDue perVcore = false)) ∧
    (∃ s : State, s.hf.vcore ≠ 0 ∧ s.perDue perVcore = true) ∧
    (∃ s : State, let due := fld (s.rd pwrVcoreCtrl) 1 0 = 0 ∧ s.perDue perPolicy = true
    (¬due)) ∧
    (∃ s : State, let due := fld (s.rd pwrVcoreCtrl) 1 0 = 0 ∧ s.perDue perPolicy = true
    let held := (s.hf.heldWindows.filter id).length
    (due) ∧ 10 < held) ∧
    (∃ s : State, let due := fld (s.rd pwrVcoreCtrl) 1 0 = 0 ∧ s.perDue perPolicy = true
    (due) ∧ ((∀ w ∈ s.hf.heldWindows, w = false))) ∧
    (∃ s : State, let due := fld (s.rd pwrVcoreCtrl) 1 0 = 0 ∧ s.perDue perPolicy = true
    let held := (s.hf.heldWindows.filter id).length
    (due) ∧ 1 ≤ held ∧ held ≤ 10) ∧
    (∃ s : State, s.windowDue = false) ∧
    (∃ s : State, s.windowDue = true) ∧
    (∃ s : State, s.perDue perPg = false) ∧
    (∃ s : State, let old := fld (s.rd hfPgW) 15 0
    let moved := 2 * old < 100 * ((s.pg : Int) - old).natAbs
    s.perDue perPg = true ∧ (¬moved)) ∧
    (∃ s : State, let old := fld (s.rd hfPgW) 15 0
    let moved := 2 * old < 100 * ((s.pg : Int) - old).natAbs
    s.perDue perPg = true ∧ (moved)) ∧
    (∃ s : State, let old := fld (s.rd hfPgW) 15 0
    let moved := 2 * old < 100 * ((s.pg : Int) - old).natAbs
    s.perDue perPg = true ∧ (moved) ∧ s.isIngress = false) ∧
    (∃ s : State, ∃ f : Nat, s.mayWrite f pwrLimit = false) ∧
    (∃ s : State, ∃ f : Nat, ∃ v : Word, let x := s.storeReg f pwrLimit v
    s.mayWrite f pwrLimit = true ∧ s.leff ≤ x.leff) ∧
    (∃ s : State, ∃ f : Nat, ∃ v : Word, let x := s.storeReg f pwrLimit v
    s.mayWrite f pwrLimit = true ∧ x.leff < s.leff) ∧
    (∃ s : State, ∃ f : Nat, ∃ v : Word, let x := s.storeReg f pwrLimit v
    s.mayWrite f pwrLimit = true ∧ x.leff < s.leff ∧ s.isIngress = false) ∧
    (∃ v : Word, 400 ≤ v.toNat ∧ v.toNat ≤ 800) ∧
    (∃ v : Word, (fld v 15 0 < 400 ∨ 800 < fld v 15 0)) :=
  ⟨⟨State.reset, by decide +kernel⟩,
   ⟨withHf id, by decide +kernel⟩,
   ⟨(withHf id).wr pwrVcoreCtrl 1, by decide +kernel⟩,
   ⟨withHf (fun h => { h with heldWindows := List.replicate 11 true }), by decide +kernel⟩,
   ⟨withHf id, by decide +kernel⟩,
   ⟨withHf fun h => { h with heldWindows := [true, false] }, by decide +kernel⟩,
   ⟨withHf fun h => { h with marks := [(5, 5000000000000)] }, by decide +kernel⟩,
   ⟨withHf id, by decide +kernel⟩,
   ⟨withHf fun h => { h with marks := (List.range 9).map fun k => (k, 5000000000000) }, by decide +kernel⟩,
   ⟨unlit, by decide +kernel, by simp only [unlit_pg]; decide +kernel⟩,
   ⟨unlit.wr hfPgW 100, by decide +kernel, by simp only [unlit_pg_wr]; decide +kernel⟩,
   ⟨unlit.wr hfPgW 100, by decide +kernel, by simp only [unlit_pg_wr]; decide +kernel, by decide +kernel⟩,
   ⟨withHf id, 1, by decide +kernel⟩,
   ⟨withHf id, 0, 0, by decide +kernel⟩,
   ⟨withHf id, 0, 500, by decide +kernel⟩,
   ⟨unlit.wr hfPgW 100, 0, 500, by decide +kernel⟩,
   ⟨500, by decide +kernel⟩,
   ⟨0, by decide +kernel⟩⟩

/-- The hypotheses of ResetsAndRemovalAct can be met, clause by clause. -/
theorem witness_ResetsAndRemovalAct :
    (∃ f : Nat, 1 ≤ f ∧ f ≤ 16) ∧
    (∃ f : Nat, (f = 0 ∨ 16 < f)) ∧
    (∃ s : State, s.hf.pwr = .off) ∧
    (∃ s : State, s.hf.pwr ≠ .off) ∧
    (∃ s : State, ∃ f : Nat, ∃ t : State, exec (.d3hot f) s = .next t) ∧
    (∃ s : State, ∃ f : Nat, s.mayWrite f devAbiCtrl = false) ∧
    (∃ s : State, ∃ f : Nat, s.mayWrite f devAbiCtrl = true ∧ s.fnStreams f = true) ∧
    (∃ s : State, ∃ f : Nat, s.mayWrite f devAbiCtrl = true ∧ s.fnStreams f = false ∧ fld (s.fn f).abiHost 7 0 ≤ 1 ∧ 1 ≤ fld (s.fn f).abiHost 15 8) ∧
    (∃ s : State, ∃ f : Nat, s.mayWrite f devAbiCtrl = true ∧ s.fnStreams f = false ∧ (1 < fld (s.fn f).abiHost 7 0 ∨ fld (s.fn f).abiHost 15 8 = 0)) ∧
    (∃ s : State, ∃ f : Nat, (f ≠ 0 ∨ s.mayWrite f devRmvCtrl = false) ∧ ∃ i : Instr, (i ∈ [Instr.rmvPrep f, .rmvPrepForce f, .rmvCancel f])) ∧
    (∃ s : State, ∃ i : Instr, (i ∈ [Instr.rmvPrep 0, .attnButton, .rmvPrepForce 0]) ∧ (i = .attnButton ∨ s.mayWrite 0 devRmvCtrl = true) ∧ (let free := s.hf.pwr = .ready ∧ (s.hf.rmvStep = 0 ∨ 5 ≤ s.hf.rmvStep)
    (¬free))) ∧
    (∃ s : State, ∃ i : Instr, (i ∈ [Instr.rmvPrep 0, .attnButton, .rmvPrepForce 0]) ∧ (i = .attnButton ∨ s.mayWrite 0 devRmvCtrl = true) ∧ (let free := s.hf.pwr = .ready ∧ (s.hf.rmvStep = 0 ∨ 5 ≤ s.hf.rmvStep)
    let force := i = .rmvPrepForce 0
    (free) ∧ (¬force) ∧ s.storeValid = false)) ∧
    (∃ s : State, ∃ i : Instr, (i ∈ [Instr.rmvPrep 0, .attnButton, .rmvPrepForce 0]) ∧ (i = .attnButton ∨ s.mayWrite 0 devRmvCtrl = true) ∧ (let free := s.hf.pwr = .ready ∧ (s.hf.rmvStep = 0 ∨ 5 ≤ s.hf.rmvStep)
    let force := i = .rmvPrepForce 0
    (free) ∧ (force))) ∧
    (∃ s : State, ∃ i : Instr, (i ∈ [Instr.rmvPrep 0, .attnButton, .rmvPrepForce 0]) ∧ (i = .attnButton ∨ s.mayWrite 0 devRmvCtrl = true) ∧ (let free := s.hf.pwr = .ready ∧ (s.hf.rmvStep = 0 ∨ 5 ≤ s.hf.rmvStep)
    let force := i = .rmvPrepForce 0
    (free) ∧ (force) ∧ s.swap.phase = .idle)) ∧
    (∃ s : State, ∃ i : Instr, (i ∈ [Instr.rmvPrep 0, .attnButton, .rmvPrepForce 0]) ∧ (i = .attnButton ∨ s.mayWrite 0 devRmvCtrl = true) ∧ (let free := s.hf.pwr = .ready ∧ (s.hf.rmvStep = 0 ∨ 5 ≤ s.hf.rmvStep)
    let force := i = .rmvPrepForce 0
    (free) ∧ (¬force) ∧ s.storeValid = true ∧ s.openStreams = [])) ∧
    (∃ s : State, ∃ i : Instr, (i ∈ [Instr.rmvPrep 0, .attnButton, .rmvPrepForce 0]) ∧ (i = .attnButton ∨ s.mayWrite 0 devRmvCtrl = true) ∧ (let free := s.hf.pwr = .ready ∧ (s.hf.rmvStep = 0 ∨ 5 ≤ s.hf.rmvStep)
    let force := i = .rmvPrepForce 0
    (free) ∧ (¬force) ∧ s.storeValid = true ∧ s.isIngress = false ∧ ((∃ x ∈ s.openStreams, (s.stream x).state ≠ .free ∧
      (s.stream x).state ≠ .parked)))) ∧
    (∃ s : State, ∃ i : Instr, (i ∈ [Instr.rmvPrep 0, .attnButton, .rmvPrepForce 0]) ∧ (i = .attnButton ∨ s.mayWrite 0 devRmvCtrl = true) ∧ (let free := s.hf.pwr = .ready ∧ (s.hf.rmvStep = 0 ∨ 5 ≤ s.hf.rmvStep)
    let force := i = .rmvPrepForce 0
    (free) ∧ (¬force) ∧ s.storeValid = true ∧ s.isIngress = true)) ∧
    (∃ s : State, s.mayWrite 0 devRmvCtrl = true ∧ 1 ≤ s.hf.rmvStep ∧ s.hf.rmvStep ≤ 4) ∧
    (∃ s : State, s.mayWrite 0 devRmvCtrl = true ∧ (s.hf.rmvStep = 0 ∨ 5 ≤ s.hf.rmvStep)) :=
  ⟨⟨2, by decide +kernel⟩,
   ⟨0, by decide +kernel⟩,
   ⟨State.reset, by decide +kernel⟩,
   ⟨inPower .ready 0 false 0, by decide +kernel⟩,
   ⟨State.reset, 0, _, rfl⟩,
   ⟨State.reset.wr (regOwner (pageBase devAbiCtrl)) 0x105, 1, by decide +kernel⟩,
   ⟨withOpen, 2, by decide +kernel⟩,
   ⟨(withSwap id).updFn 0 (fun t => { t with abiHost := 0x201 }), 0, by decide +kernel⟩,
   ⟨inPower .ready 0 false 0, 2, by decide +kernel⟩,
   ⟨State.reset, 1, by decide +kernel, .rmvPrep 1, by decide +kernel⟩,
   ⟨removing .ready 2, .rmvPrep 0, by decide +kernel⟩,
   ⟨withSwap id, .rmvPrep 0, by decide +kernel⟩,
   ⟨withSwap id, .rmvPrepForce 0, by decide +kernel⟩,
   ⟨withSwap id, .rmvPrepForce 0, by decide +kernel⟩,
   ⟨(withSwap id).wr wndStoreEp 0x1005, .rmvPrep 0, by decide +kernel⟩,
   ⟨withOpen, .rmvPrep 0, by decide +kernel⟩,
   ⟨(withSwap id).wr wndStoreEp 0x1005, .rmvPrep 0, by decide +kernel⟩,
   ⟨removing .ready 2, by decide +kernel⟩,
   ⟨inPower .ready 0 false 0, by decide +kernel⟩⟩

/-- The hypotheses of RingFramesActOnce can be met, clause by clause. -/
theorem witness_RingFramesActOnce :
    (∃ m : RingMsg, m.ver < 256 ∧ m.cls < 256 ∧ m.typ < 0x10000 ∧ m.src < 0x100000 ∧ m.dst < 0x100000 ∧ (m.seq < 2 ^ 32) ∧ (m.time < 2 ^ 64) ∧
      m.ttl < 256 ∧ m.payload.length ≤ 1468) ∧
    (∃ s : State, ∃ m : RingMsg, s.forwards m = true) ∧
    (∃ s : State, ∃ m : RingMsg, s.forwards m = false) ∧
    (∃ s : State, ∃ m : RingMsg, ∃ c : Nat, ∃ k : Nat, ∃ i : Instr, ((c, k, i) ∈ [(6, 1, Instr.powerUpMsg m), (6, 2, .powerDownMsg m), (6, 3, .powerResetMsg m),
         (6, 4, .powerStatusMsg m), (7, 1, .regRead m), (7, 2, .regWrite m), (8, 1, .removePrep m), (8, 2, .removePrepForce m),
         (8, 3, .removeCancel m), (8, 4, .removeStatus m), (4, 1, .logPull m)]) ∧ m.cls = c ∧ m.typ = k) ∧
    (∃ s : State, ∃ m : RingMsg, ∃ c : Nat, ∃ k : Nat, ∃ i : Instr, ((c, k, i) ∈ [(6, 1, Instr.powerUpMsg m), (6, 2, .powerDownMsg m), (6, 3, .powerResetMsg m),
         (6, 4, .powerStatusMsg m), (7, 1, .regRead m), (7, 2, .regWrite m), (8, 1, .removePrep m), (8, 2, .removePrepForce m),
         (8, 3, .removeCancel m), (8, 4, .removeStatus m), (4, 1, .logPull m)]) ∧ (m.cls ≠ c ∨ m.typ ≠ k)) ∧
    (∃ m : RingMsg, m.cls = 1) ∧
    (∃ m : RingMsg, m.cls ≠ 1) ∧
    (∃ m : RingMsg, m.cls = 2) ∧
    (∃ m : RingMsg, m.cls ≠ 2) ∧
    (∃ s : State, let on := s.hf.pwr ≠ .off
    (¬on)) ∧
    (∃ s : State, ∃ m : RingMsg, let on := s.hf.pwr ≠ .off
    (on) ∧ m.src = s.edge.devId) ∧
    (∃ s : State, ∃ m : RingMsg, let h := hear (Table.get (0, 0) s.edge.seen m.src) m.seq
    let on := s.hf.pwr ≠ .off
    let mine := m.dst = s.edge.devId ∨ m.dst = 0xFFFFF
    (on) ∧ m.src ≠ s.edge.devId ∧ (h.1 = false ∨ (m.cls ≠ 1 ∧ ¬mine))) ∧
    (∃ s : State, ∃ m : RingMsg, let h := hear (Table.get (0, 0) s.edge.seen m.src) m.seq
    let on := s.hf.pwr ≠ .off
    let mine := m.dst = s.edge.devId ∨ m.dst = 0xFFFFF
    let ruled := m.src = rackController ∧ (m.cls = 6 ∨ m.dst ≠ 0xFFFFF)
    let commands := m.cls = 6 ∨ m.cls = 7 ∨ m.cls = 8 ∨ (m.cls = 4 ∧ m.typ = 1)
    (on) ∧ m.src ≠ s.edge.devId ∧ h.1 = true ∧ m.cls ≠ 1 ∧ (mine) ∧ (s.edge.ringVer ≠ 1 ∨ (commands ∧ ¬ruled))) ∧
    (∃ s : State, ∃ m : RingMsg, let h := hear (Table.get (0, 0) s.edge.seen m.src) m.seq
    let on := s.hf.pwr ≠ .off
    let mine := m.dst = s.edge.devId ∨ m.dst = 0xFFFFF
    let ruled := m.src = rackController ∧ (m.cls = 6 ∨ m.dst ≠ 0xFFFFF)
    let commands := m.cls = 6 ∨ m.cls = 7 ∨ m.cls = 8 ∨ (m.cls = 4 ∧ m.typ = 1)
    (on) ∧ m.src ≠ s.edge.devId ∧ h.1 = true ∧ (mine) ∧ s.edge.ringVer = 1 ∧ (commands) ∧ (ruled)) ∧
    (∃ s : State, ∃ m : RingMsg, let h := hear (Table.get (0, 0) s.edge.seen m.src) m.seq
    let on := s.hf.pwr ≠ .off
    let mine := m.dst = s.edge.devId ∨ m.dst = 0xFFFFF
    let commands := m.cls = 6 ∨ m.cls = 7 ∨ m.cls = 8 ∨ (m.cls = 4 ∧ m.typ = 1)
    (on) ∧ m.src ≠ s.edge.devId ∧ h.1 = true ∧ (mine) ∧ s.edge.ringVer = 1 ∧ m.cls ≠ 1 ∧ m.cls ≠ 2 ∧ (¬commands)) ∧
    (∃ s : State, ∃ m : RingMsg, let h := hear (Table.get (0, 0) s.edge.seen m.src) m.seq
    let on := s.hf.pwr ≠ .off
    let mine := m.dst = s.edge.devId ∨ m.dst = 0xFFFFF
    (on) ∧ m.src ≠ s.edge.devId ∧ h.1 = true ∧ (mine) ∧ s.edge.ringVer = 1 ∧ m.cls = 2) ∧
    (∃ h : Nat, ∃ seq : Nat, ∃ bm : Nat, 0 < h ∧ (bm < 2 ^ 64) ∧ (seq + 1 = h)) ∧
    (∃ h : Nat, ∃ seq : Nat, ∃ bm : Nat, 0 < h ∧ (bm < 2 ^ 64) ∧ h ≤ seq) ∧
    (∃ h : Nat, ∃ seq : Nat, ∃ bm : Nat, 0 < h ∧ (bm < 2 ^ 64) ∧ (seq + 1 < h) ∧ (h ≤ seq + 65)) ∧
    (∃ s : State, ∃ m : RingMsg, s.hf.pwr ≠ .off ∧ m.src ≠ s.edge.devId ∧ m.dst = s.edge.devId ∧
      ((hear (Table.get (0, 0) s.edge.seen m.src) m.seq).1 = true) ∧ s.edge.ringVer = 1 ∧ m.src ≠ rackController ∧ ∃ i : Instr, ∃ c : Nat,
      ∃ t : Nat, ((c, t, i) ∈ [(6, 1, Instr.powerUpMsg m), (6, 2, .powerDownMsg m), (6, 3, .powerResetMsg m),
         (6, 4, .powerStatusMsg m), (7, 1, .regRead m), (7, 2, .regWrite m), (8, 1, .removePrep m), (8, 2, .removePrepForce m),
         (8, 3, .removeCancel m), (8, 4, .removeStatus m), (4, 1, .logPull m)]) ∧ m.cls = c ∧ m.typ = t) ∧
    (∃ s : State, ∃ m : RingMsg, s.hf.pwr ≠ .off ∧ m.src ≠ s.edge.devId ∧ m.dst = s.edge.devId ∧
      ((hear (Table.get (0, 0) s.edge.seen m.src) m.seq).1 = true) ∧ s.edge.ringVer = 1 ∧ m.src = rackController ∧ m.cls = 6 ∧ m.typ = 1 ∧
      s.hf.pwr = .aux ∧ s.hf.rmvStep = 0) ∧
    (∃ s : State, ∃ m : RingMsg, s.hf.pwr ≠ .off ∧ m.src ≠ s.edge.devId ∧ m.dst = s.edge.devId ∧
      ((hear (Table.get (0, 0) s.edge.seen m.src) m.seq).1 = true) ∧ s.edge.ringVer = 1 ∧ m.src = rackController ∧ m.cls = 6 ∧ m.typ = 2 ∧
      s.hf.pwr = .ready ∧ s.swap.phase = .idle) ∧
    (∃ s : State, ∃ m : RingMsg, s.hf.pwr ≠ .off ∧ m.src ≠ s.edge.devId ∧ m.dst = s.edge.devId ∧
      ((hear (Table.get (0, 0) s.edge.seen m.src) m.seq).1 = true) ∧ s.edge.ringVer = 1 ∧ m.src = rackController ∧ m.cls = 6 ∧ m.typ = 3 ∧
      s.swap.phase = .idle) ∧
    (∃ s : State, ∃ m : RingMsg, s.hf.pwr ≠ .off ∧ m.src ≠ s.edge.devId ∧ m.dst = s.edge.devId ∧
      ((hear (Table.get (0, 0) s.edge.seen m.src) m.seq).1 = true) ∧ s.edge.ringVer = 1 ∧ m.src = rackController ∧ m.cls = 6 ∧ m.typ = 4 ∧
      s.edge.bypass = 3) ∧
    (∃ s : State, ∃ m : RingMsg, s.hf.pwr ≠ .off ∧ m.src ≠ s.edge.devId ∧ m.dst = s.edge.devId ∧
      ((hear (Table.get (0, 0) s.edge.seen m.src) m.seq).1 = true) ∧ s.edge.ringVer = 1 ∧ m.src = rackController ∧ m.cls = 8 ∧ m.typ = 4 ∧
      s.edge.bypass = 3) ∧
    (∃ s : State, ∃ m : RingMsg, s.hf.pwr ≠ .off ∧ m.src ≠ s.edge.devId ∧ m.dst = s.edge.devId ∧
      ((hear (Table.get (0, 0) s.edge.seen m.src) m.seq).1 = true) ∧ s.edge.ringVer = 1 ∧ m.src = rackController ∧ ∃ off : Nat, m.cls = 7 ∧
      m.typ = 1 ∧ (m.payload = beBytes 4 off ++ [0, 0, 0, 0]) ∧ (off < 2 ^ 32) ∧ isLow off = false ∧ isHigh off = false ∧ s.edge.bypass = 3 ∧
      s.hf.pwr = .ready) ∧
    (∃ s : State, ∃ m : RingMsg, s.hf.pwr ≠ .off ∧ m.src ≠ s.edge.devId ∧ m.dst = s.edge.devId ∧
      ((hear (Table.get (0, 0) s.edge.seen m.src) m.seq).1 = true) ∧ s.edge.ringVer = 1 ∧ m.src = rackController ∧ ∃ off : Nat, ∃ v : Nat, m.cls = 7 ∧
      m.typ = 2 ∧ (m.payload = beBytes 4 off ++ beBytes 4 v) ∧ (off < 2 ^ 32) ∧ (v < 2 ^ 32) ∧ s.edge.bypass = 3 ∧ s.hf.pwr = .aux ∧
      auxPage off = false) ∧
    (∃ s : State, ∃ m : RingMsg, s.hf.pwr ≠ .off ∧ m.src ≠ s.edge.devId ∧ m.dst = s.edge.devId ∧
      ((hear (Table.get (0, 0) s.edge.seen m.src) m.seq).1 = true) ∧ s.edge.ringVer = 1 ∧ m.src = rackController ∧ ∃ v : Nat, m.cls = 7 ∧ m.typ = 2 ∧
      (m.payload = beBytes 4 hfReserve ++ beBytes 4 v) ∧ 1 ≤ v ∧ v ≤ 20 ∧ s.mayWrite 0 hfReserve = true) ∧
    (∃ s : State, ∃ m : RingMsg, s.hf.pwr ≠ .off ∧ m.src ≠ s.edge.devId ∧ m.dst = s.edge.devId ∧
      ((hear (Table.get (0, 0) s.edge.seen m.src) m.seq).1 = true) ∧ s.edge.ringVer = 1 ∧ m.src = rackController ∧ m.cls = 8 ∧ m.typ = 1 ∧
      s.hf.pwr ≠ .ready) ∧
    (∃ s : State, ∃ m : RingMsg, s.hf.pwr ≠ .off ∧ m.src ≠ s.edge.devId ∧ m.dst = s.edge.devId ∧
      ((hear (Table.get (0, 0) s.edge.seen m.src) m.seq).1 = true) ∧ s.edge.ringVer = 1 ∧ m.src = rackController ∧ m.cls = 8 ∧ m.typ = 1 ∧
      s.hf.pwr = .ready ∧ s.hf.rmvStep = 0 ∧ s.storeValid = true ∧ s.openStreams = [] ∧ s.swap.phase = .idle) ∧
    (∃ s : State, ∃ m : RingMsg, s.hf.pwr ≠ .off ∧ m.src ≠ s.edge.devId ∧ m.dst = s.edge.devId ∧
      ((hear (Table.get (0, 0) s.edge.seen m.src) m.seq).1 = true) ∧ s.edge.ringVer = 1 ∧ m.src = rackController ∧ m.cls = 8 ∧ m.typ = 2 ∧
      s.hf.pwr = .ready ∧ s.hf.rmvStep = 0 ∧ s.swap.phase = .idle) ∧
    (∃ s : State, ∃ m : RingMsg, s.hf.pwr ≠ .off ∧ m.src ≠ s.edge.devId ∧ m.dst = s.edge.devId ∧
      ((hear (Table.get (0, 0) s.edge.seen m.src) m.seq).1 = true) ∧ s.edge.ringVer = 1 ∧ m.src = rackController ∧ m.cls = 8 ∧ m.typ = 3 ∧
      s.hf.rmvStep = 4 ∧ s.hf.pwr = .aux) ∧
    (∃ s : State, ∃ m : RingMsg, s.hf.pwr ≠ .off ∧ m.src ≠ s.edge.devId ∧ m.dst = s.edge.devId ∧ ((hear (Table.get (0, 0) s.edge.seen m.src) m.seq).1 = true) ∧ s.edge.ringVer = 1 ∧ m.src = rackController ∧ m.cls = 4 ∧ m.typ = 1 ∧ s.edge.bypass = 3 ∧ (let rs := s.tally.log.filter fun r => decide (beAt m.payload 0 8 ≤ r.time)
    rs ≠ [] ∧ rs.length ≤ 45)) ∧
    (∃ s : State, ∃ m : RingMsg, s.hf.pwr ≠ .off ∧ m.src ≠ s.edge.devId ∧ m.dst = s.edge.devId ∧
      ((hear (Table.get (0, 0) s.edge.seen m.src) m.seq).1 = true) ∧ s.edge.ringVer = 1 ∧ m.cls = 2 ∧ s.edge.alarmWait = []) ∧
    (∃ s : State, ∃ m : RingMsg, s.hf.pwr ≠ .off ∧ m.src ≠ s.edge.devId ∧ m.cls = 1 ∧ ((hear (Table.get (0, 0) s.edge.seen m.src) m.seq).1 = true) ∧ (let dev := beAt m.payload 0 4 % 0x100000
    let was := Table.get 0 s.edge.neighbours m.port
    let rack := m.src = rackController ∧ 8 ≤ m.payload.length
    (¬rack) ∧ was ≠ 0 ∧ (was ≠ dev + 1))) ∧
    (∃ s : State, ∃ m : RingMsg, s.hf.pwr ≠ .off ∧ m.src ≠ s.edge.devId ∧ m.cls = 1 ∧ ((hear (Table.get (0, 0) s.edge.seen m.src) m.seq).1 = true) ∧ (let dev := beAt m.payload 0 4 % 0x100000
    let was := Table.get 0 s.edge.neighbours m.port
    let rack := m.src = rackController ∧ 8 ≤ m.payload.length
    (¬rack) ∧ (was = 0 ∨ was = dev + 1))) ∧
    (∃ s : State, ∃ m : RingMsg, s.hf.pwr ≠ .off ∧ m.src ≠ s.edge.devId ∧ m.cls = 1 ∧ ((hear (Table.get (0, 0) s.edge.seen m.src) m.seq).1 = true) ∧ (let rack := m.src = rackController ∧ 8 ≤ m.payload.length
    (rack))) ∧
    (∃ s : State, s.edge.bypass = 3 ∧ (s.edge.lastHello + 100000000 ≤ s.now)) ∧
    (∃ s : State, (s.edge.bypass ≠ 3 ∨ s.now < s.edge.lastHello + 100000000)) ∧
    (∃ s : State, s.ringOn = true) ∧
    (∃ s : State, let due := s.edge.alarms.filter fun a => decide (a.1 + 2000000 ≤ s.now)
    s.ringOn = true ∧ due = []) ∧
    (∃ s : State, s.ringOn = false) :=
  ⟨⟨{ aMsg 7 1 [1, 2, 3] with ackReq := true, time := 0xFFFFFFFFFFFFFFFF, ttl := 80 }, by decide +kernel⟩,
   ⟨withEdge (fun e => { e with bypass := 3, seen := [(9, (6, 1))] }), { aMsg 7 1 [] with src := 9, dst := 8, ttl := 2 }, by decide +kernel⟩,
   ⟨withEdge (fun e => { e with bypass := 3, seen := [(9, (6, 1))] }),
    { aMsg 7 1 [1, 2, 3] with ackReq := true, time := 0xFFFFFFFFFFFFFFFF, ttl := 80 }, by decide +kernel⟩,
   ⟨onRing .ready, aMsg 6 1 [], 6, 1, .powerUpMsg (aMsg 6 1 []), by decide +kernel⟩,
   ⟨onRing .ready, aMsg 6 2 [], 6, 1, .powerUpMsg (aMsg 6 2 []), by decide +kernel⟩,
   ⟨{ aMsg 1 1 (beBytes 4 9 ++ [0, 0, 0, 1]) with src := 9 }, by decide +kernel⟩,
   ⟨{ aMsg 7 1 [1, 2, 3] with ackReq := true, time := 0xFFFFFFFFFFFFFFFF, ttl := 80 }, by decide +kernel⟩,
   ⟨aMsg 2 1 (beBytes 4 7), by decide +kernel⟩,
   ⟨{ aMsg 7 1 [1, 2, 3] with ackReq := true, time := 0xFFFFFFFFFFFFFFFF, ttl := 80 }, by decide +kernel⟩,
   ⟨State.reset, by decide +kernel⟩,
   ⟨onRing .ready, { aMsg 7 1 [] with src := 0xFFFFD }, by decide +kernel⟩,
   ⟨withEdge (fun e => { e with bypass := 3, seen := [(9, (6, 1))] }), { aMsg 7 1 [] with src := 9, dst := 8, ttl := 2 }, by decide +kernel⟩,
   ⟨onRing .ready, { aMsg 8 2 [] with src := 9 }, by decide +kernel⟩,
   ⟨withEdge (fun e => { e with bypass := 3, seen := [(9, (6, 1))] }),
    { aMsg 7 1 [1, 2, 3] with ackReq := true, time := 0xFFFFFFFFFFFFFFFF, ttl := 80 }, by decide +kernel⟩,
   ⟨onRing .ready, aMsg 3 1 [], by decide +kernel⟩,
   ⟨withEdge (fun e => { e with bypass := 3, seen := [(9, (6, 1))] }), aMsg 2 1 (beBytes 4 7), by decide +kernel⟩,
   ⟨6, 5, 6, by decide +kernel⟩,
   ⟨6, 6, 6, by decide +kernel⟩,
   ⟨6, 3, 6, by decide +kernel⟩,
   ⟨onRing .ready, { aMsg 6 1 [] with src := 9 }, by decide +kernel, by decide +kernel, by decide +kernel, by decide +kernel, by decide +kernel,
    by decide +kernel, .powerUpMsg { aMsg 6 1 [] with src := 9 }, 6, 1, by decide +kernel⟩,
   ⟨onRing .aux, aMsg 6 1 [], by decide +kernel⟩,
   ⟨withEdge (fun e => { e with bypass := 3, seen := [(9, (6, 1))] }), aMsg 6 2 [], by decide +kernel⟩,
   ⟨withEdge (fun e => { e with bypass := 3, seen := [(9, (6, 1))] }), aMsg 6 3 [], by decide +kernel⟩,
   ⟨withEdge (fun e => { e with bypass := 3, seen := [(9, (6, 1))] }), aMsg 6 4 [], by decide +kernel⟩,
   ⟨withEdge (fun e => { e with bypass := 3, seen := [(9, (6, 1))] }), aMsg 8 4 [], by decide +kernel⟩,
   ⟨withEdge (fun e => { e with bypass := 3, seen := [(9, (6, 1))] }), aMsg 7 1 (beBytes 4 hfReserve ++ [0, 0, 0, 0]), by decide +kernel,
    by decide +kernel, by decide +kernel, by decide +kernel, by decide +kernel, by decide +kernel, hfReserve, by decide +kernel⟩,
   ⟨onRing .aux, aMsg 7 2 (beBytes 4 wndStoreEp ++ beBytes 4 7), by decide +kernel, by decide +kernel, by decide +kernel, by decide +kernel,
    by decide +kernel, by decide +kernel, wndStoreEp, 7, by decide +kernel⟩,
   ⟨withEdge (fun e => { e with bypass := 3, seen := [(9, (6, 1))] }), aMsg 7 2 (beBytes 4 hfReserve ++ beBytes 4 7), by decide +kernel,
    by decide +kernel, by decide +kernel, by decide +kernel, by decide +kernel, by decide +kernel, 7, by decide +kernel⟩,
   ⟨onRing .aux, aMsg 8 1 [], by decide +kernel⟩,
   ⟨(onRing .ready).wr wndStoreEp 0x1005, aMsg 8 1 [], by decide +kernel⟩,
   ⟨withEdge (fun e => { e with bypass := 3, seen := [(9, (6, 1))] }), aMsg 8 2 [], by decide +kernel⟩,
   ⟨{ removing .aux 4 with edge := (onRing .aux).edge }, aMsg 8 3 [], by decide +kernel⟩,
   ⟨{ onRing .ready with tally := { Tally.reset with log := [{ cls := 0, coalesced := false, cause := 5, unit := 6, time := 9, source := 1, seq := 2, detail := 0, count := 1 }] } },
    aMsg 4 1 (beBytes 8 9), by decide +kernel⟩,
   ⟨withEdge (fun e => { e with bypass := 3, seen := [(9, (6, 1))] }), aMsg 2 1 (beBytes 4 7), by decide +kernel⟩,
   ⟨withEdge (fun e => { e with neighbours := [(0, 4)] }), { aMsg 1 1 (beBytes 4 9 ++ [0, 0, 0, 1]) with src := 9 }, by decide +kernel⟩,
   ⟨onRing .ready, { aMsg 1 1 (beBytes 4 9 ++ [0, 0, 0, 1]) with src := 9 }, by decide +kernel⟩,
   ⟨withEdge (fun e => { e with bypass := 3, seen := [(9, (6, 1))] }), aMsg 1 1 (beBytes 4 9 ++ [0, 0, 0, 2]), by decide +kernel⟩,
   ⟨withEdge (fun e => { e with bypass := 3, seen := [(9, (6, 1))] }), by decide +kernel⟩,
   ⟨withEdge (fun e => { e with alarms := [(0, { aMsg 3 1 [] with seq := 7 }), (0, { aMsg 3 1 [] with seq := 8 })] }), by decide +kernel⟩,
   ⟨withEdge (fun e => { e with bypass := 3, seen := [(9, (6, 1))] }), by decide +kernel⟩,
   ⟨withEdge (fun e => { e with bypass := 3, seen := [(9, (6, 1))] }), by decide +kernel⟩,
   ⟨withEdge (fun e => { e with alarms := [(0, { aMsg 3 1 [] with seq := 7 }), (0, { aMsg 3 1 [] with seq := 8 })] }), by decide +kernel⟩⟩

/-- The hypotheses of ModuleEdgeActs can be met, clause by clause. -/
theorem witness_ModuleEdgeActs :
    (∃ s : State, ∃ v : Nat, s.hf.pwr = .off ∧ ∃ i : Instr, (i ∈ [Instr.strapLatch v, .prsntMate v])) ∧
    (∃ s : State, s.hf.pwr ≠ .off) ∧
    (∃ s : State, ∃ v : Nat, s.hf.pwr ≠ .off ∧ (v % 0x10000 ≠ s.edge.straps)) ∧
    (∃ s : State, ∃ v : Nat, (s.hf.pwr = .off ∨ v % 0x10000 = s.edge.straps)) ∧
    (∃ s : State, (s.hf.pwr = .off ∨ s.hf.pwr = .ready)) ∧
    (∃ s : State, s.hf.pwr = .drain ∧ s.hf.downward = false) ∧
    (∃ s : State, (s.hf.pwr = .aux ∨ s.hf.pwr = .rails ∨ s.hf.pwr = .init ∨ s.hf.pwr = .cal ∨ (s.hf.pwr = .drain ∧ s.hf.downward = true))) ∧
    (∃ s : State, s.hf.rmvStep = 0) ∧
    (∃ s : State, s.hf.pwr = .off) ∧
    (∃ s : State, s.hf.pwr = .aux) ∧
    (∃ s : State, (s.hf.pwr = .rails ∨ s.hf.pwr = .init ∨ s.hf.pwr = .cal ∨ s.hf.pwr = .drain)) ∧
    (∃ s : State, s.hf.pwr = .ready) ∧
    (∃ s : State, s.hf.pwr = .ready ∧ s.swap.phase = .idle) ∧
    (∃ s : State, s.mayOpen = true) ∧
    (∃ s : State, s.mayOpen = false) ∧
    (∃ s : State, ∃ at_ : Nat, s.edge.bypassRetryAt = some at_ ∧ at_ ≤ s.now) ∧
    (∃ s : State, ((∀ at_, s.edge.bypassRetryAt = some at_ → s.now < at_))) ∧
    (∃ s : State, ∃ p : Nat, ∃ delay : Nat, ∃ o : Int, let heard := s.hf.pwr ≠ .off ∧ bit (s.rd timeCtrl) 8 = true ∧ s.follows p delay = true
    (heard) ∧ (s.edge.timeState ≠ 0 ∨ -1000 ≤ o)) ∧
    (∃ s : State, ∃ p : Nat, ∃ delay : Nat, ∃ o : Int, let heard := s.hf.pwr ≠ .off ∧ bit (s.rd timeCtrl) 8 = true ∧ s.follows p delay = true
    (heard) ∧ s.edge.timeState = 0 ∧ (o < -1000)) ∧
    (∃ s : State, ∃ p : Nat, ∃ delay : Nat, let heard := s.hf.pwr ≠ .off ∧ bit (s.rd timeCtrl) 8 = true ∧ s.follows p delay = true
    (¬heard)) ∧
    (∃ s : State, let lost := s.edge.everLocked = true ∧ (s.edge.timeState = 1 ∨ s.edge.timeState = 2) ∧ s.edge.lastSync + 1000000000 ≤ s.now
    (lost)) ∧
    (∃ s : State, let lost := s.edge.everLocked = true ∧ (s.edge.timeState = 1 ∨ s.edge.timeState = 2) ∧ s.edge.lastSync + 1000000000 ≤ s.now
    (¬lost)) :=
  ⟨⟨inPower .off 0 false 0, 5, rfl, .strapLatch 5, by decide +kernel⟩,
   ⟨withEdge id, by decide +kernel⟩,
   ⟨withEdge id, 0x8641, by decide +kernel⟩,
   ⟨inPower .off 0 false 0, 0x8641, by decide +kernel⟩,
   ⟨inPower .off 0 false 0, by decide +kernel⟩,
   ⟨inPower .drain 0 false 2, by decide +kernel⟩,
   ⟨removing .aux 0, by decide +kernel⟩,
   ⟨inPower .off 0 false 0, by decide +kernel⟩,
   ⟨inPower .off 0 false 0, by decide +kernel⟩,
   ⟨removing .aux 0, by decide +kernel⟩,
   ⟨inPower .rails 5 false 1, by decide +kernel⟩,
   ⟨withEdge id, by decide +kernel⟩,
   ⟨withEdge id, by decide +kernel⟩,
   ⟨withEdge (fun e => { e with devLoc := 0x8000 }), by decide +kernel⟩,
   ⟨inPower .off 0 false 0, by decide +kernel⟩,
   ⟨withEdge (fun e => { e with bypassRetryAt := some 5 }), 5, by decide +kernel⟩,
   ⟨inPower .off 0 false 0, by decide +kernel⟩,
   ⟨withEdge id, 0x8641, 0x8641, 20, by decide +kernel⟩,
   ⟨withEdge id, 0x8641, 0x8641, -1001, by decide +kernel⟩,
   ⟨inPower .off 0 false 0, 0x8641, 0x8641, by decide +kernel⟩,
   ⟨withEdge (fun e => { e with everLocked := true, timeState := 2 }), by decide +kernel⟩,
   ⟨inPower .off 0 false 0, by decide +kernel⟩⟩

/-- The hypotheses of StepsKeepTheMachineSound can be met, clause by clause. -/
theorem witness_StepsKeepTheMachineSound :
    ∃ s : State, ∃ t : State, (s.Inv) ∧ step s = .next t :=
  ⟨{ small with pending := [.d3hot 3] }, _, { mem := by decide +kernel, regs := by decide +kernel, ptes := by decide +kernel, classes := by decide +kernel, nodes := List.Pairwise.nil },
    rfl⟩

end Sys2Proof.Machine
end

namespace Sys2Proof.Machine

section
set_option Elab.async false

/-! ## What keeps the canonical form: record updates, branches, and what a command or a partial operation answers -/

section
variable {s : State}

theorem State.Inv.with_pending {x : List Instr} (h : s.Inv) : ({ s with pending := x } : State).Inv := h.congr rfl rfl rfl rfl
theorem State.Inv.with_now {x : Nat} (h : s.Inv) : ({ s with now := x } : State).Inv := h.congr rfl rfl rfl rfl
theorem State.Inv.with_freeCtr {x : Nat} (h : s.Inv) : ({ s with freeCtr := x } : State).Inv := h.congr rfl rfl rfl rfl
theorem State.Inv.with_stopes {x : Table Stope} (h : s.Inv) : ({ s with stopes := x } : State).Inv := h.congr rfl rfl rfl rfl
theorem State.Inv.with_cores {x : Table Core} (h : s.Inv) : ({ s with cores := x } : State).Inv := h.congr rfl rfl rfl rfl
theorem State.Inv.with_noc {x : Noc} (h : s.Inv) : ({ s with noc := x } : State).Inv := h.congr rfl rfl rfl rfl
theorem State.Inv.with_swap {x : Swap} (h : s.Inv) : ({ s with swap := x } : State).Inv := h.congr rfl rfl rfl rfl
theorem State.Inv.with_tally {x : Tally} (h : s.Inv) : ({ s with tally := x } : State).Inv := h.congr rfl rfl rfl rfl
theorem State.Inv.with_fab {x : Fab} (h : s.Inv) : ({ s with fab := x } : State).Inv := h.congr rfl rfl rfl rfl
theorem State.Inv.with_hf {x : Hf} (h : s.Inv) : ({ s with hf := x } : State).Inv := h.congr rfl rfl rfl rfl
theorem State.Inv.with_edge {x : Edge} (h : s.Inv) : ({ s with edge := x } : State).Inv := h.congr rfl rfl rfl rfl
theorem State.Inv.with_wnd {x : Wnd} (h : s.Inv) (hc : x.classes = s.wnd.classes := by rfl) : ({ s with wnd := x } : State).Inv :=
  h.congr rfl rfl rfl hc
theorem State.Inv.with_kv {x : Kv} (h : s.Inv) (hp : x.ptes = s.kv.ptes := by rfl) (hn : x.nodes = s.kv.nodes := by rfl) :
    ({ s with kv := x } : State).Inv :=
  ⟨h.mem, h.regs, hp ▸ h.ptes, h.classes, hn ▸ h.nodes⟩
theorem State.Inv.with_mem {x : List Host.Cell} (h : s.Inv) (hm : Memory.wf x = true) : ({ s with mem := x } : State).Inv :=
  ⟨hm, h.regs, h.ptes, h.classes, h.nodes⟩

/-- Several parts replaced at once, and none of the five tables among them. -/
theorem State.Inv.same {t : State} (h : s.Inv) (hm : t.mem = s.mem := by rfl) (hr : t.regs = s.regs := by rfl)
    (hp : t.kv.ptes = s.kv.ptes := by rfl) (hc : t.wnd.classes = s.wnd.classes := by rfl)
    (hn : t.kv.nodes = s.kv.nodes := by rfl) : t.Inv :=
  ⟨hm ▸ h.mem, hr ▸ h.regs, hp ▸ h.ptes, hc ▸ h.classes, hn ▸ h.nodes⟩

theorem State.Inv.ite {c : Prop} [Decidable c] {a b : State} (ha : a.Inv) (hb : b.Inv) : (if c then a else b).Inv := by
  split
  · exact ha
  · exact hb

theorem State.Inv.ite_snd {α : Type} {c : Prop} [Decidable c] {p q : α × State} (hp : p.2.Inv) (hq : q.2.Inv) :
    (if c then p else q).2.Inv := by
  split
  · exact hp
  · exact hq

theorem State.Inv.snd {α : Type} {a : α} (h : s.Inv) : (a, s).2.Inv := h

/-- The state of a pair, once the pair is known. -/
theorem State.Inv.of_snd {α : Type} {p : α × State} {a : α} (h : p.2.Inv) (e : p = (a, s)) : s.Inv := by
  subst e; exact h

/-- A command's answer: it completes, in canonical form. -/
def Kept (o : Host.Outcome State Fault Refusal) : Prop := ∃ t, o = .next t ∧ t.Inv

theorem Kept.next (h : s.Inv) : Kept (.next s) := ⟨s, rfl, h⟩
theorem Kept.ite {c : Prop} [Decidable c] {a b : Host.Outcome State Fault Refusal} (ha : Kept a) (hb : Kept b) :
    Kept (if c then a else b) := by
  split
  · exact ha
  · exact hb

/-- A partial operation's answer, where it gives one, is in canonical form. -/
def KeptSome (o : Option State) : Prop := ∀ t, o = some t → t.Inv

theorem KeptSome.some (h : s.Inv) : KeptSome (some s) := fun _ e => Option.some.inj e ▸ h
theorem KeptSome.none : KeptSome none := fun _ e => nomatch e
theorem KeptSome.ite {c : Prop} [Decidable c] {a b : Option State} (ha : KeptSome a) (hb : KeptSome b) :
    KeptSome (if c then a else b) := by
  split
  · exact ha
  · exact hb

/-- A fold that carries a state beside other data keeps its canonical form. -/
theorem State.Inv.foldl_snd {α β : Type} {f : β × State → α → β × State} {l : List α} {p : β × State}
    (hf : ∀ p a, p.2.Inv → (f p a).2.Inv) (h : p.2.Inv) : (l.foldl f p).2.Inv := by
  induction l generalizing p with
  | nil => exact h
  | cons a l ih => exact ih (hf _ _ h)

/-- Placing an entry keeps the keys rising. -/
theorem Table.keys_put {α : Type} {t : Table α} {k : Nat} {a : α} (h : (t.map Prod.fst).Pairwise (· < ·)) :
    ((Table.put t k a).map Prod.fst).Pairwise (· < ·) := by
  induction t with
  | nil => simp [Table.put]
  | cons p t ih =>
    obtain ⟨i, b⟩ := p
    obtain ⟨hlt, ht⟩ := List.pairwise_cons.1 h
    simp only [Table.put]
    split
    · next e => subst e; exact h
    · split
      · next hk =>
        refine List.pairwise_cons.2 ⟨fun j hj => ?_, h⟩
        rcases List.mem_cons.1 hj with rfl | hj
        · exact hk
        · exact hk.trans (hlt j hj)
      · refine List.pairwise_cons.2 ⟨fun j hj => ?_, ih ht⟩
        obtain ⟨q, hq, rfl⟩ := List.mem_map.1 hj
        rcases Table.mem_put hq with rfl | hq
        · show i < k; omega
        · exact hlt _ (List.mem_map_of_mem hq)

/-- Dropping an entry leaves a sublist. -/
theorem Table.del_sublist {α : Type} (t : Table α) (k : Nat) : (Table.del t k).Sublist t := by
  induction t with
  | nil => exact .slnil
  | cons p t ih =>
    obtain ⟨i, b⟩ := p
    simp only [Table.del]
    split
    · exact ih.cons _
    · exact ih.cons_cons _

/-- Keeping some entries of a canonical table leaves it canonical. -/
theorem Table.wfBy_filter {α : Type} [DecidableEq α] {d : Nat → α} {t : Table α} (q : Nat × α → Bool) (h : Table.wfBy d t = true) :
    Table.wfBy d (t.filter q) = true := by
  induction t with
  | nil => rfl
  | cons p t ih =>
    obtain ⟨i, a⟩ := p
    obtain ⟨ha, hlt, ht⟩ := (Table.wfBy_cons ..).1 h
    rw [List.filter_cons]
    split
    · exact (Table.wfBy_cons ..).2 ⟨ha, fun p hp => hlt p (List.mem_filter.1 hp).1, ih ht⟩
    · exact ih ht


/-! ### Machine/Ops.lean -/

theorem State.Inv.setStope {i : Nat} {t : Stope} (h : s.Inv) : (s.setStope i t).Inv := .with_stopes h
theorem State.Inv.updStope {i : Nat} {f : Stope → Stope} (h : s.Inv) : (s.updStope i f).Inv := .setStope h
theorem State.Inv.setCore {c : Nat} {t : Core} (h : s.Inv) : (s.setCore c t).Inv := .with_cores h
theorem State.Inv.updCore {c : Nat} {f : Core → Core} (h : s.Inv) : (s.updCore c f).Inv := .setCore h
theorem State.Inv.setStream {i : Nat} {t : Stream} (h : s.Inv) : (s.setStream i t).Inv := .with_wnd h
theorem State.Inv.updStream {i : Nat} {f : Stream → Stream} (h : s.Inv) : (s.updStream i f).Inv := .setStream h
theorem State.Inv.setCls {i : Nat} {t : Class} (h : s.Inv) : (s.setCls i t).Inv :=
  ⟨h.mem, h.regs, h.ptes, Table.wf_set h.classes, h.nodes⟩
theorem State.Inv.setEvr {i : Nat} {t : EvRing} (h : s.Inv) : (s.setEvr i t).Inv := .with_wnd h
theorem State.Inv.setPort {i : Nat} {t : Port} (h : s.Inv) : (s.setPort i t).Inv := .with_fab h
theorem State.Inv.updPort {i : Nat} {f : Port → Port} (h : s.Inv) : (s.updPort i f).Inv := .setPort h
theorem State.Inv.setAdit {i : Nat} {t : Adit} (h : s.Inv) : (s.setAdit i t).Inv := .with_fab h
theorem State.Inv.updAdit {i : Nat} {f : Adit → Adit} (h : s.Inv) : (s.updAdit i f).Inv := .setAdit h
theorem State.Inv.setGroup {i : Nat} {t : Group} (h : s.Inv) : (s.setGroup i t).Inv := .with_fab h
theorem State.Inv.setFn {i : Nat} {t : Fn} (h : s.Inv) : (s.setFn i t).Inv := .with_edge h
theorem State.Inv.updFn {i : Nat} {f : Fn → Fn} (h : s.Inv) : (s.updFn i f).Inv := .setFn h
theorem State.Inv.setVslot {i : Nat} {t : VSlot} (h : s.Inv) : (s.setVslot i t).Inv := .with_swap h
theorem State.Inv.setNode {i : Nat} {t : TNode} (h : s.Inv) : (s.setNode i t).Inv := .with_hf h
theorem State.Inv.setSensor {i : Nat} {t : Sensor} (h : s.Inv) : (s.setSensor i t).Inv := .with_hf h
theorem State.Inv.setFence {p : Nat} {t : Fence} (h : s.Inv) : (s.setFence p t).Inv := .with_noc h
theorem State.Inv.draw (h : s.Inv) : (s.draw).2.Inv := .with_freeCtr h
theorem State.Inv.announce {d : Decision} (h : s.Inv) : (s.announce d).Inv := .with_wnd h
theorem State.Inv.tell {m : Told} (h : s.Inv) : (s.tell m).Inv := .with_wnd h
theorem State.Inv.overwritten {start len : Nat} (h : s.Inv) : (s.overwritten start len).Inv := .each (fun _ _ h => .updCore h) h _
theorem State.Inv.enterData {m : Packet} (h : s.Inv) : (s.enterData m).Inv := .with_noc h
theorem State.Inv.enterCtl {m : CtlMsg} (h : s.Inv) : (s.enterCtl m).Inv := .with_noc h
theorem State.Inv.nextSeq {src : Nat} (h : s.Inv) : (s.nextSeq src).2.Inv := .with_noc h
theorem State.Inv.notify {n : Notice} (h : s.Inv) : (s.notify n).Inv := .enterCtl (.with_noc (.nextSeq h))
theorem State.Inv.send {m : CtlMsg} (h : s.Inv) : (s.send m).Inv := .enterCtl (.with_noc h)
theorem State.Inv.sendFence {p ep old new : Nat} (h : s.Inv) : (s.sendFence p ep old new).Inv := .ite (.ite h (.send h)) (.send (.ite h (.send h)))
theorem State.Inv.fenceFor {p cause classes : Nat} (h : s.Inv) : (s.fenceFor p cause classes).Inv := .sendFence (.setFence h)
theorem State.Inv.unfence {p cause : Nat} (h : s.Inv) : (s.unfence p cause).Inv := .sendFence (.setFence h)
theorem State.Inv.holdShard {d : Nat} (h : s.Inv) : (s.holdShard d).Inv := .ite h (.with_wnd h)
theorem State.Inv.loseShard {d : Nat} (h : s.Inv) : (s.loseShard d).Inv := .ite (.holdShard h) h
theorem State.Inv.perMark {k : Nat} (h : s.Inv) : (s.perMark k).Inv := .with_hf h

/-! ### Machine/Flags.lean -/

theorem State.Inv.msi {f vector : Nat} (h : s.Inv) : (s.msi f vector).Inv := .with_edge h
theorem State.Inv.rgWrite {f page : Nat} (h : s.Inv) : (s.rgWrite f page).Inv :=
  .ite (.wrBit h ..) (.ite (.ite (.wrBit (.wrBit h ..) ..) (.msi (.wrBit (.wrBit h ..) ..))) (.wrBit h ..))
theorem State.Inv.storeReg {f off : Nat} {v : Word} (h : s.Inv) : (s.storeReg f off v).Inv := by
  unfold State.storeReg
  split
  · exact .ite (.rgWrite (.wr h ..)) (.wr h ..)
  · exact .ite h (.rgWrite h)

/-! ### Machine/Events.lean -/

theorem State.Inv.writeRecord {i : Nat} {rec : Record} (h : s.Inv) : (s.writeRecord i rec).Inv :=
  .ite (.msi (.setEvr (.wrMem h ..))) (.setEvr (.wrMem h ..))
theorem State.Inv.holdRecord {i : Nat} {rec : Record} (h : s.Inv) : (s.holdRecord i rec).Inv := .setEvr h
theorem State.Inv.post {i : Nat} {rec : Record} (h : s.Inv) : (s.post i rec).Inv := .ite (.writeRecord h) (.ite (.holdRecord h) (.with_wnd h))
theorem State.Inv.admitWaiting (h : s.Inv) : (s.admitWaiting).Inv := by
  unfold State.admitWaiting
  split
  · exact .ite (.holdRecord (.with_wnd h)) h
  · exact h
theorem State.Inv.streamEvent {stream typ flags code : Nat} {tag data : DWord} (h : s.Inv) : (s.streamEvent stream typ flags code tag data).Inv :=
  .post h
theorem State.Inv.classEvent {typ flags code : Nat} {tag data : DWord} (h : s.Inv) : (s.classEvent typ flags code tag data).Inv := .post h
theorem State.Inv.moduleEvent {typ code stream : Nat} {data : DWord} (h : s.Inv) : (s.moduleEvent typ code stream data).Inv := .post h
theorem State.Inv.heldWrite {ring : Nat} (h : s.Inv) : (s.heldWrite ring).Inv := by
  unfold State.heldWrite
  split
  · exact .ite (.admitWaiting (.writeRecord (.setEvr (.admitWaiting h)))) (.admitWaiting h)
  · exact .admitWaiting h
theorem execEvrTimeExpiry_kept {ring : Nat} (h : s.Inv) : Kept (execEvrTimeExpiry ring s) := by
  unfold execEvrTimeExpiry
  refine .next ?_
  split
  · exact .ite (.msi (.setEvr h)) h
  · exact h

/-! ### Machine/Reports.lean -/

theorem State.Inv.ringSend {m : RingMsg} (h : s.Inv) : (s.ringSend m).Inv := .with_edge h
theorem State.Inv.logRecord {r : Report} (h : s.Inv) : (s.logRecord r).Inv := by
  unfold State.logRecord
  refine .ite ?_ (.with_tally h)
  refine .inc ?_ ..
  exact .with_tally h
theorem State.Inv.sendAlarm {rs : List Report} (h : s.Inv) : (s.sendAlarm rs).Inv := .with_edge (.ringSend h)
theorem State.Inv.flushAlarms (h : s.Inv) : (s.flushAlarms).Inv := .ite (.sendAlarm (.with_edge h)) h
theorem State.Inv.ringAlarm {r : Report} (h : s.Inv) : (s.ringAlarm r).Inv := .flushAlarms (.with_edge h)
theorem State.Inv.ringTrace {r : Report} (h : s.Inv) : (s.ringTrace r).Inv := .ite h (.ite (.inc h ..) (.ringSend h))
theorem State.Inv.hostReport {r : Report} {stream : Option Nat} (h : s.Inv) : (s.hostReport r stream).Inv := by
  unfold State.hostReport
  dsimp only
  split
  · exact .ite (.streamEvent (.moduleEvent h)) (.moduleEvent h)
  · exact .moduleEvent h
theorem State.Inv.reportAt {time q cause unit detail ep : Nat} {stream : Option Nat} (h : s.Inv) :
    (s.reportAt time q cause unit detail ep stream).Inv := by
  unfold State.reportAt
  dsimp only
  split
  · refine .ite ?_ ?_
    · exact .hostReport (.ringAlarm (.with_tally (.with_tally (.logRecord (.inc64 h ..)))))
    · exact .with_tally (.with_tally (.logRecord (.inc64 h ..)))
  · exact .ite (.hostReport (.logRecord h)) (.logRecord h)
  · exact .ite (.ringTrace (.logRecord h)) h
theorem State.Inv.report {cause unit detail ep : Nat} {stream : Option Nat} (h : s.Inv) : (s.report cause unit detail ep stream).Inv :=
  .reportAt (.nextSeq h)
theorem State.Inv.putTally {e : TallyEntry} (h : s.Inv) : (s.putTally e).Inv := .with_tally h
theorem State.Inv.permanentEffect {unit : Nat} (h : s.Inv) : (s.permanentEffect unit).Inv := by
  unfold State.permanentEffect
  split
  · exact .updPort h
  · exact .wr h ..
  · exact .setSensor h
  · exact h
theorem State.Inv.declarePermanent {unit : Nat} (h : s.Inv) : (s.declarePermanent unit).Inv := by
  unfold State.declarePermanent
  split
  · exact .ite h (.permanentEffect (.putTally h))
  · exact h
theorem State.Inv.countAt {x : Nat × Nat × Nat} {unit cause detail : Nat} {again : Bool} (h : s.Inv) :
    (s.countAt x unit cause detail again).Inv := by
  unfold State.countAt
  extract_lets tally s₁
  have h₁ : s₁.Inv := by
    dsimp only [s₁]
    split
    · exact .ite (.inc (.putTally h) ..) (.putTally h)
    · refine .ite (.putTally h) ?_
      split
      · exact .putTally (.with_tally h)
      · exact .notify (.with_tally h)
  split
  · exact .ite (.declarePermanent h₁) h₁
  · exact h₁
theorem State.Inv.countEvent {unit cause detail : Nat} {again : Bool} (h : s.Inv) : (s.countEvent unit cause detail again).Inv := .countAt h
theorem State.Inv.takeNotice {n : Notice} (h : s.Inv) : (s.takeNotice n).Inv := .with_noc h
theorem State.Inv.replanCause {b : Nat} (h : s.Inv) : (s.replanCause b).Inv := .with_hf h

/-! ### Machine/Energy.lean -/

theorem State.Inv.charge {k : Nat} {uj : ℚ} (h : s.Inv) : (s.charge k uj).Inv := .with_hf h
theorem State.Inv.holdEnergy (h : s.Inv) : (s.holdEnergy).Inv := .same h

/-! ### Machine/Pages.lean -/

theorem State.Inv.errInject {f p : Nat} {v : Word} (h : s.Inv) : (s.errInject f p v).Inv := .ite (.rgWrite h) h
theorem State.Inv.pageEnable {f p : Nat} {on : Bool} (h : s.Inv) : (s.pageEnable f p on).Inv := .ite (.wrBit h ..) h
theorem State.Inv.askQuiesce {p : Nat} (h : s.Inv) : (s.askQuiesce p).Inv := .ite h (.with_noc h)
theorem State.Inv.pruneQuiesced (h : s.Inv) : (s.pruneQuiesced).Inv := .with_noc h
theorem State.Inv.dropQuiesce {p : Nat} (h : s.Inv) : (s.dropQuiesce p).Inv := .pruneQuiesced (.with_noc h)
theorem State.Inv.hostFence {p : Nat} (h : s.Inv) : (s.hostFence p).Inv := .send (.setFence h)
theorem State.Inv.hostUnfence {p : Nat} (h : s.Inv) : (s.hostUnfence p).Inv := .sendFence (.setFence h)
theorem execErrInject_kept {f p : Nat} {v : Word} (h : s.Inv) : Kept (execErrInject f p v s) := .next (.errInject h)
theorem execPageEnable_kept {f p : Nat} {on : Bool} (h : s.Inv) : Kept (execPageEnable f p on s) := .next (.pageEnable h)
theorem execPageQuiesce_kept {f p : Nat} (h : s.Inv) : Kept (execPageQuiesce f p s) := .next (.ite (.askQuiesce h) h)
theorem execQuiesced_kept {p : Nat} (h : s.Inv) : Kept (execQuiesced p s) := .next (.ite (.with_noc h) h)
theorem execHostFenceSet_kept {f p : Nat} (h : s.Inv) : Kept (execHostFenceSet f p s) := .next (.ite (.hostFence h) h)
theorem execHostFenceClear_kept {f p : Nat} (h : s.Inv) : Kept (execHostFenceClear f p s) := .next (.ite (.hostUnfence h) h)
theorem State.Inv.publishPace {ep factor : Nat} (h : s.Inv) : (s.publishPace ep factor).Inv := by
  unfold State.publishPace
  dsimp only
  split
  · refine .wr ?_ ..
    exact .same h
  · exact .same h
theorem execPaceWindowEnd_kept {ep factor : Nat} (h : s.Inv) : Kept (execPaceWindowEnd ep factor s) :=
  .next (.ite h (.ite (.notify (.publishPace h)) (.publishPace h)))

/-! ### Machine/Net.lean -/

theorem State.Inv.settle {src dest code : Nat} (h : s.Inv) : (s.settle src dest code).Inv := by
  unfold State.settle
  split
  · exact .updCore h
  · exact h
theorem State.Inv.refusePacket {src dest code : Nat} (h : s.Inv) : (s.refusePacket src dest code).Inv := by
  unfold State.refusePacket
  split
  · exact .updCore h
  · exact h
theorem State.Inv.discardPacket {m : Packet} {code : Nat} (h : s.Inv) : (s.discardPacket m code).Inv :=
  .settle (.with_noc (.notify (.ite (.inc (.inc h ..) ..) (.inc h ..))))
theorem State.Inv.setOut {m : Packet} (h : s.Inv) : (s.setOut m).Inv := .enterData (.with_noc h)
theorem State.Inv.injectFor {owner : Option (Nat × Nat × Nat)} {m : Packet} (h : s.Inv) : (s.injectFor owner m).Inv :=
  .ite (.with_noc h) (.ite (.discardPacket h) (.setOut h))
theorem State.Inv.inject {m : Packet} (h : s.Inv) : (s.inject m).Inv := .injectFor h
theorem State.Inv.releaseHeld {src dest vc : Nat} (h : s.Inv) : (s.releaseHeld src dest vc).Inv := by
  unfold State.releaseHeld
  split
  · exact .ite h (.ite (.discardPacket (.with_noc h)) (.setOut (.with_noc h)))
  · exact h
theorem execPacketInject_kept {m : Packet} (h : s.Inv) : Kept (execPacketInject m s) := .next (.ite (.releaseHeld h) (.inject h))
theorem execPacketDeliver_kept {m : Packet} (h : s.Inv) : Kept (execPacketDeliver m s) :=
  .next (.ite (.ite (.with_noc (.with_noc h)) (.discardPacket (.with_noc h))) h)
theorem execCreditReturn_kept {src dest vc : Nat} (h : s.Inv) : Kept (execCreditReturn src dest vc s) :=
  .next (.ite (.releaseHeld (.settle (.with_noc h))) h)
theorem State.Inv.takeCtl {m : CtlMsg} (h : s.Inv) : (s.takeCtl m).Inv := .with_noc h
theorem State.Inv.discardCtl {m : CtlMsg} (h : s.Inv) : (s.discardCtl m).Inv := .notify (.inc h ..)
theorem onArrival_kept {m : CtlMsg} {act : State → State} (hact : ∀ t, t.Inv → (act t).Inv) (h : s.Inv) : Kept (s.onArrival m act) :=
  .next (.ite h (hact _ (.takeCtl h)))
theorem execDoorbell_kept {m : CtlMsg} (h : s.Inv) : Kept (execDoorbell m s) :=
  onArrival_kept (fun _ h => .ite h (.discardCtl h)) h
theorem execBarrierArrive_kept {m : CtlMsg} (h : s.Inv) : Kept (execBarrierArrive m s) :=
  onArrival_kept (fun _ h => .ite (.ite (.each (fun _ _ h => .send h) (.updCore h) _) (.updCore h)) (.discardCtl h)) h
theorem execBarrierRelease_kept {m : CtlMsg} (h : s.Inv) : Kept (execBarrierRelease m s) :=
  onArrival_kept (fun _ h => .ite (.updCore h) (.discardCtl h)) h
theorem execCtlReserved_kept {m : CtlMsg} (h : s.Inv) : Kept (execCtlReserved m s) := .next (.ite (.discardCtl (.takeCtl h)) h)
theorem State.Inv.noteHold {p : Nat} (h : s.Inv) : (s.noteHold p).Inv := by
  unfold State.noteHold
  split
  · exact .ite (.updStope h) h
  · exact h
theorem execFenceSet_kept {m : CtlMsg} (h : s.Inv) : Kept (execFenceSet m s) :=
  onArrival_kept (fun _ h => .ite (.each (fun _ _ h => .noteHold (.setFence h)) h _) (.discardCtl h)) h
theorem execFenceClear_kept {m : CtlMsg} (h : s.Inv) : Kept (execFenceClear m s) :=
  onArrival_kept (fun _ h => .ite (.each (fun _ _ h => .noteHold (.setFence h)) h _) (.discardCtl h)) h
theorem State.Inv.stageRegionWord {off : Nat} {v : Word} (h : s.Inv) : (s.stageRegionWord off v).Inv := by
  unfold State.stageRegionWord
  split
  · exact .with_noc h
  · exact h
theorem State.Inv.dropStaged {n : Nat} (h : s.Inv) : (s.dropStaged n).Inv := .with_noc h
theorem State.Inv.geomWrite {f n : Nat} {v : Word} (h : s.Inv) : (s.geomWrite f n v).Inv := by
  unfold State.geomWrite
  refine .ite h ?_
  refine .ite ?_ ?_
  · refine .refuse ?_ ..
    exact .dropStaged (.ite (.rgWrite h) h)
  · refine .ite ?_ ?_
    · refine .refuse ?_ ..
      exact .dropStaged (.ite (.rgWrite h) h)
    · refine .wr ?_ ..
      exact .with_noc (.dropStaged (.ite (.rgWrite h) h))
theorem execGeomWrite_kept {f n : Nat} {v : Word} (h : s.Inv) : Kept (execGeomWrite f n v s) := .next (.geomWrite h)
theorem State.Inv.rezoneStope {i : Nat} {was now : Option Nat} (h : s.Inv) : (s.rezoneStope i was now).Inv := by
  unfold State.rezoneStope
  dsimp only
  split
  · exact .ite (.fenceFor (.updStope (.ite (.updCore h) h))) (.ite (.updCore h) h)
  · exact .ite (.unfence (.ite (.updCore h) h)) (.ite (.updCore h) h)
theorem execRegionApply_kept (h : s.Inv) : Kept (execRegionApply s) := by
  unfold execRegionApply
  refine .next ?_
  split
  · exact h
  · refine .ite ?_ h
    refine .pruneQuiesced ?_
    refine .each (fun _ _ h => ?_) ?_ _
    · exact .rezoneStope h
    · refine .wr ?_ ..
      exact .with_noc (.wr (.wr (.wr (.wr h ..) ..) ..) ..)
theorem execRegionTimeoutExpiry_kept (h : s.Inv) : Kept (execRegionTimeoutExpiry s) := by
  unfold execRegionTimeoutExpiry
  refine .next ?_
  split
  · exact h
  · refine .ite h ?_
    refine .ite ?_ h
    refine .pruneQuiesced ?_
    refine .wr ?_ ..
    refine .refuse ?_ ..
    exact .with_noc h

/-! ### Machine/Plans.lean -/

theorem State.Inv.setTau {i n : Nat} (h : s.Inv) : (s.setTau i n).Inv := by
  unfold State.setTau
  exact .updStope h
theorem State.Inv.retau {i : Nat} (h : s.Inv) : (s.retau i).Inv := .each (fun _ _ h => .setTau h) h _
theorem State.Inv.refusePlan {i slot code : Nat} {fault : PlanFault} (h : s.Inv) : (s.refusePlan i slot code fault).Inv := .wr (.wr h ..) ..
theorem State.Inv.commitSlot {i slot : Nat} (h : s.Inv) : (s.commitSlot i slot).Inv := by
  unfold State.commitSlot
  dsimp only
  split
  · exact .setTau (.wr h ..)
  · exact .refusePlan h
theorem State.Inv.installPlan {i slot : Nat} {w : Word} {es : List Word} (h : s.Inv) : (s.installPlan i slot w es).Inv := by
  unfold State.installPlan
  dsimp only
  split
  · refine .commitSlot ?_
    refine .wr ?_ ..
    exact .each (fun _ _ h => .wr h ..) h _
  · refine .refusePlan ?_
    refine .wr ?_ ..
    exact .each (fun _ _ h => .wr h ..) h _
theorem State.Inv.slotCommit {f i slot : Nat} {v : Word} (h : s.Inv) : (s.slotCommit f i slot v).Inv :=
  .ite h (.commitSlot (.ite (.wr h ..) (.rgWrite (.wr h ..))))
theorem State.Inv.entryWrite {f i slot entry : Nat} {v : Word} (h : s.Inv) : (s.entryWrite f i slot entry v).Inv := by
  unfold State.entryWrite
  refine .ite h ?_
  refine .wrBit ?_ ..
  exact .ite (.wr h ..) (.rgWrite (.wr h ..))
theorem execSlotCommit_kept {f i slot : Nat} {v : Word} (h : s.Inv) : Kept (execSlotCommit f i slot v s) := .next (.slotCommit h)
theorem execEntryWrite_kept {f i slot entry : Nat} {v : Word} (h : s.Inv) : Kept (execEntryWrite f i slot entry v s) := .next (.entryWrite h)

/-! ### Machine/Convert.lean -/

theorem State.Inv.refWarm {i : Nat} (h : s.Inv) : (s.refWarm i).Inv := .ite (.updStope h) h
theorem State.Inv.refEnable {i : Nat} (h : s.Inv) : (s.refEnable i).Inv := .ite (.charge (.refWarm h)) h
theorem State.Inv.refStop {i : Nat} (h : s.Inv) : (s.refStop i).Inv := .ite h (.updStope h)
theorem execRefEnable_kept {i : Nat} (h : s.Inv) : Kept (execRefEnable i s) := by
  unfold execRefEnable
  refine .next ?_
  split
  · exact h
  · exact .refWarm h
  · exact .refEnable h
theorem execRefReady_kept {i : Nat} (h : s.Inv) : Kept (execRefReady i s) := .next (.ite (.updStope h) h)
theorem execRefDisable_kept {i : Nat} (h : s.Inv) : Kept (execRefDisable i s) := .next (.ite h (.refStop h))
theorem execRefOff_kept {i : Nat} (h : s.Inv) : Kept (execRefOff i s) := .next (.ite (.ite (.refWarm (.updStope h)) (.updStope h)) h)
theorem execRefIdleExpiry_kept {i : Nat} (h : s.Inv) : Kept (execRefIdleExpiry i s) := .next (.ite (.refStop h) h)
theorem execPrewarm_kept {i : Nat} (h : s.Inv) : Kept (execPrewarm i s) := .next (.ite (.refEnable h) h)
theorem State.Inv.refModeEffect {i : Nat} (h : s.Inv) : (s.refModeEffect i).Inv := by
  unfold State.refModeEffect
  split
  · exact .refWarm h
  · exact .refStop h
  · exact h
theorem State.Inv.planCtrlWrite {f i : Nat} {v : Word} (h : s.Inv) : (s.planCtrlWrite f i v).Inv := .ite (.refModeEffect (.storeReg h)) h
theorem execRefModeWrite_kept {f i : Nat} {v : Word} (h : s.Inv) : Kept (execRefModeWrite f i v s) := .next (.planCtrlWrite h)
theorem execPlanStart_kept {i id : Nat} (h : s.Inv) : Kept (execPlanStart i id s) := by
  unfold execPlanStart
  refine .next ?_
  split
  · exact h
  · exact .ite (.ite (.updStope h) (.ite (.wr (.inc (.updStope h) ..) ..) (.updStope h))) h
theorem execBankSwitch_kept {i : Nat} (h : s.Inv) : Kept (execBankSwitch i s) := by
  unfold execBankSwitch
  refine .next ?_
  split
  · exact .ite (.updStope h) h
  · exact h
theorem State.Inv.countTags {i : Nat} {tags : List (Word × Bool × Bool)} (h : s.Inv) : (s.countTags i tags).Inv := .inc64 (.inc64 h ..) ..
theorem execEntryRun_kept {i k drained : Nat} (h : s.Inv) : Kept (execEntryRun i k drained s) := by
  unfold execEntryRun
  refine .next ?_
  refine .ite ?_ h
  dsimp only
  split
  · exact h
  · refine .ite ?_ ?_
    · refine .inc ?_ ..
      refine .inc64 ?_ ..
      exact .countTags (.setStope (.with_freeCtr h))
    · refine .inc64 ?_ ..
      exact .countTags (.setStope (.with_freeCtr h))
theorem execResultPushResume_kept {i drained : Nat} (h : s.Inv) : Kept (execResultPushResume i drained s) := .next (.updStope h)
theorem State.Inv.promoteSeam {i k : Nat} (h : s.Inv) : (s.promoteSeam i k).Inv := .inc (.setStope h) ..
theorem State.Inv.endSeam {i k : Nat} (h : s.Inv) : (s.endSeam i k).Inv := .updStope h
theorem State.Inv.nextPass {i k : Nat} (h : s.Inv) : (s.nextPass i k).Inv := .ite (.updStope (.updStope h)) (.endSeam (.updStope h))
theorem State.Inv.rerunPass {i k : Nat} (h : s.Inv) : (s.rerunPass i k).Inv := .updStope h
theorem State.Inv.seamNotice {i k cause detail : Nat} (h : s.Inv) : (s.seamNotice i k cause detail).Inv := .notify h
theorem State.Inv.passFailed {i k col : Nat} {l : Launch} (h : s.Inv) : (s.passFailed i k col l).Inv := by
  unfold State.passFailed
  refine .ite (.nextPass (.promoteSeam (.updStope h))) ?_
  refine .ite (.seamNotice (.nextPass (.promoteSeam (.updStope h)))) ?_
  exact .ite (.seamNotice (.rerunPass (.updStope h))) (.rerunPass (.updStope h))
theorem State.Inv.passPassed {i k : Nat} {l : Launch} (h : s.Inv) : (s.passPassed i k l).Inv := by
  unfold State.passPassed
  refine .ite (.countEvent (.updStope (.nextPass (.promoteSeam h)))) ?_
  exact .ite (.updStope (.seamNotice (.inc (.nextPass (.promoteSeam h)) ..))) (.nextPass (.promoteSeam h))
theorem State.Inv.passEnd {i k : Nat} (h : s.Inv) : (s.passEnd i k).Inv := by
  unfold State.passEnd
  dsimp only
  split
  · exact .endSeam (.updStope h)
  · split
    · exact .passPassed (.ite (.inc (.updStope h) ..) (.updStope (.inc (.updStope h) ..)))
    · exact .passFailed (.ite (.inc (.updStope h) ..) (.updStope (.inc (.updStope h) ..)))
theorem execRefLost_kept {i : Nat} (h : s.Inv) : Kept (execRefLost i s) := .next (.ite (.notify (.updStope h)) h)
theorem State.Inv.cancelPlans {i stream : Nat} (h : s.Inv) : (s.cancelPlans i stream).Inv := .updStope h

/-! ### Machine/Cores.lean -/

theorem State.Inv.setPoison {w : Nat} (h : s.Inv) : (s.setPoison w).Inv := .ite h (.updCore h)
theorem State.Inv.clearPoison {ws : List Nat} (h : s.Inv) : (s.clearPoison ws).Inv := by
  unfold State.clearPoison
  split
  · exact h
  · exact .ite h (.updCore h)
theorem State.Inv.wrRange {c : Nat} {r : Rng} {bs : List Byte} (h : s.Inv) : (s.wrRange c r bs).Inv :=
  .ite (.updStope h) (.overwritten (.clearPoison (.wrMem h ..)))
theorem State.Inv.dropHeld {c id : Nat} (h : s.Inv) : (s.dropHeld c id).Inv := .with_noc h
theorem State.Inv.dropStepOn {c id : Nat} (h : s.Inv) : (s.dropStepOn c id).Inv := .dropHeld (.updCore h)
theorem State.Inv.stepFault {c id index cause : Nat} (h : s.Inv) : (s.stepFault c id index cause).Inv := .notify (.updCore (.dropStepOn (.wr h ..)))
theorem State.Inv.coreRefuse {c index code : Nat} (h : s.Inv) : (s.coreRefuse c index code).Inv := .wr h ..
theorem State.Inv.markBad {w : Nat} (h : s.Inv) : (s.markBad w).2.Inv := by
  unfold State.markBad
  refine .ite_snd ?_ h
  dsimp only
  split
  · exact .putTally (.countEvent (.setPoison (.updCore (.ite (.wr h ..) (.wr h ..)))))
  · exact .countEvent (.setPoison (.updCore (.ite (.wr h ..) (.wr h ..))))
theorem State.Inv.roRepair {c w : Nat} {page : Nat × Nat} (h : s.Inv) : (s.roRepair c w page).Inv :=
  .ite (.notify (.inc (.clearPoison h) ..)) (.inc (.wrMem (.clearPoison h) ..) ..)
theorem State.Inv.readError {c w kind : Nat} {again : Bool} (h : s.Inv) : (s.readError c w kind again).2.Inv := by
  unfold State.readError
  split
  · exact .inc h ..
  · exact .inc h ..
  · split
    · exact .roRepair h
    · exact .setPoison (.inc h ..)
  · split
    · dsimp only
      split
      · exact .inc h ..
      · exact .inc h ..
    · split
      · exact .roRepair h
      · dsimp only
        split
        · exact .markBad (.inc h ..)
        · exact .inc h ..
  · exact .inc h ..
theorem State.Inv.readErrors {c : Nat} {again : Bool} {es : List (Nat × Nat)} (h : s.Inv) : (s.readErrors c again es).2.Inv := by
  induction es generalizing s with
  | nil => exact h
  | cons e es ih =>
    unfold State.readErrors
    split
    · next t he => exact ih (.of_snd (.readError h) he)
    · exact .readError h
theorem State.Inv.checkReads {c : Nat} {ws : List Nat} {e : List ReadErr} (h : s.Inv) : (s.checkReads c ws e).2.Inv := .readErrors h
/-- An act that keeps the canonical form: in its effect, and in the packets it sends. -/
structure Act.Keeps (a : Act) : Prop where
  run : ∀ t : State, t.Inv → (a.run t).Inv
  send : ∀ n go, a.send = some (n, go) → ∀ i j, ∀ t : State, t.Inv → (go i j t).Inv

/-- A judgement whose act, if it has one, keeps the canonical form. -/
def Judged.Keeps (j : Judged) : Prop := ∀ a, j = .act a → a.Keeps
theorem State.Inv.issueFault {c id index code : Nat} (h : s.Inv) : (s.issueFault c id index code).Inv := .stepFault (.ite (.coreRefuse h) h)
theorem Act.Keeps.sendUpTo {a : Act} {sent upTo : Nat} (ha : a.Keeps) (h : s.Inv) : (a.sendUpTo sent upTo s).Inv := by
  unfold Act.sendUpTo
  split
  · next n go e => exact ha.send n go e _ _ _ h
  · exact h
theorem Act.Keeps.effect {a : Act} {sent : Nat} (ha : a.Keeps) (h : s.Inv) : (a.effect sent s).Inv := by
  unfold Act.effect
  split
  · next n go e => exact ha.send n go e _ _ _ h
  · exact ha.run _ h
theorem State.Inv.issue {c op : Nat} {e : List ReadErr} {judge : State → Desc → Judged} (hj : ∀ t d, (judge t d).Keeps) (h : s.Inv) :
    (s.issue c op e judge).Inv := by
  unfold State.issue
  split
  · next d r _ _ =>
    refine .ite h ?_
    split
    · exact .issueFault h
    · exact .ite h (.issueFault h)
    · next a ha =>
      have ha : a.Keeps := hj s d a ha
      refine .ite h ?_
      dsimp only
      split
      · next he =>
        have h := State.Inv.of_snd (.checkReads h) he
        exact .stepFault (ha.sendUpTo (.ite (.updStope h) h))
      · next he => exact .updCore (ha.sendUpTo (.of_snd (.checkReads h) he))
      · next he =>
        have h := State.Inv.of_snd (.checkReads h) he
        exact .ite (.updCore (ha.effect (.updCore h))) (.issueFault h)
  · exact h

/-! ### Judgements -/

/-- An act that sends no packets of its own keeps the form when its effect does. -/
theorem Act.Keeps.local {a : Act} (hr : ∀ t : State, t.Inv → (a.run t).Inv) (hs : a.send = none := by rfl) : a.Keeps :=
  ⟨hr, fun n go e => by rw [hs] at e; cases e⟩

theorem Act.Keeps.empty : Act.empty.Keeps := .local fun _ h => h

theorem Judged.Keeps.bad {n : Nat} : (Judged.bad n).Keeps := fun _ e => nomatch e
theorem Judged.Keeps.late {n : Nat} : (Judged.late n).Keeps := fun _ e => nomatch e
theorem Judged.Keeps.act {a : Act} (h : a.Keeps) : (Judged.act a).Keeps := fun _ e => Judged.act.inj e ▸ h
theorem Judged.Keeps.ite {c : Prop} [Decidable c] {a b : Judged} (ha : a.Keeps) (hb : b.Keeps) : (if c then a else b).Keeps := by
  split
  · exact ha
  · exact hb

/-- A judgement made in the common way keeps the form when its act does. -/
theorem Judged.Keeps.judgeWith {rsv : Bool} {d : Desc} {o : Option Act} (h : ∀ a ∈ o, a.Keeps) : (judgeWith rsv d o).Keeps := by
  unfold Machine.judgeWith
  refine .ite .bad ?_
  split
  · exact .bad
  · next a => exact .ite (.act .empty) (.act (h a rfl))

theorem keeps_none : ∀ a ∈ (none : Option Act), a.Keeps := fun _ e => nomatch e
theorem keeps_some {a : Act} (h : a.Keeps) : ∀ b ∈ some a, b.Keeps := fun _ e => Option.some.inj e ▸ h
theorem keeps_map {α : Type} {f : α → Act} {o : Option α} (h : ∀ x, (f x).Keeps) : ∀ a ∈ o.map f, a.Keeps := by
  rintro a ha
  obtain ⟨x, -, rfl⟩ := Option.map_eq_some_iff.1 ha
  exact h x

/-! ### Machine/PortTx.lean -/

theorem State.Inv.portEmit {p : Nat} {f : Flit} (h : s.Inv) : (s.portEmit p f).Inv := .inc64 (.setPort h) ..
theorem State.Inv.portSend {p : Nat} {f : Flit} (h : s.Inv) : (s.portSend p f).Inv := .ite h (.ite (.portEmit h) (.updPort h))
theorem State.Inv.portFlush {p n : Nat} (h : s.Inv) : (s.portFlush p n).Inv := by
  induction n generalizing s with
  | zero => exact h
  | succ n ih =>
    unfold State.portFlush
    split
    · exact ih (.portEmit (.updPort h))
    · exact h
theorem State.Inv.portFlushAll {p : Nat} (h : s.Inv) : (s.portFlushAll p).Inv := .portFlush h
theorem State.Inv.linkSend {p : Nat} {payload : List Byte} (h : s.Inv) : (s.linkSend p payload).Inv := .updPort h
theorem State.Inv.routeSend {route : Word} {f : Flit} (h : s.Inv) : (s.routeSend route f).Inv := .portSend h
theorem State.Inv.aditSend {ep : Nat} {f : Flit} (h : s.Inv) : (s.aditSend ep f).Inv := .routeSend h
theorem State.Inv.aditPump {ep n : Nat} (h : s.Inv) : (s.aditPump ep n).Inv := by
  induction n generalizing s with
  | zero => exact h
  | succ n ih =>
    unfold State.aditPump
    dsimp only
    split
    · exact .ite (ih (.aditSend (.setAdit h))) h
    · exact h
theorem State.Inv.fabSend {ep : Nat} {fs : List Flit} (h : s.Inv) : (s.fabSend ep fs).Inv := .aditPump (.updAdit h)

/-! ### Machine/CollTx.lean -/

theorem State.Inv.updColl {id : Nat} {f : Coll → Coll} (h : s.Inv) : (s.updColl id f).Inv := .with_fab h
theorem State.Inv.sendChunk {c : Coll} {m : Member} {j k : Nat} (h : s.Inv) : (s.sendChunk c m j k).Inv := .each (fun _ _ h => .aditSend h) h _
theorem State.Inv.fillMember {id j n : Nat} (h : s.Inv) : (s.fillMember id j n).Inv := by
  induction n generalizing s with
  | zero => exact h
  | succ n ih =>
    unfold State.fillMember
    split
    · exact h
    · split
      · exact h
      · exact .ite h (ih (.updColl (.sendChunk h)))
theorem State.Inv.fillColl {id : Nat} (h : s.Inv) : (s.fillColl id).Inv := by
  unfold State.fillColl
  split
  · exact h
  · exact .each (fun _ _ h => .fillMember h) h _
theorem State.Inv.resendMember {id j : Nat} (h : s.Inv) : (s.resendMember id j).Inv := by
  unfold State.resendMember
  split
  · exact h
  · split
    · refine .updColl ?_
      refine .inc ?_ ..
      exact .each (fun _ _ h => .sendChunk h) h _
    · exact h
theorem State.Inv.collSwitched {path : Nat} (h : s.Inv) : (s.collSwitched path).Inv := .each (fun _ _ h => .resendMember h) h _
theorem State.Inv.collDown {path : Nat} (h : s.Inv) : (s.collDown path).Inv := by
  unfold State.collDown
  refine .each (fun _ _ h => ?_) h _
  split
  · exact h
  · exact .ite h (.updColl h)

/-! ### Machine/Adits.lean -/

theorem State.Inv.fabNotice {cause detail ep region : Nat} (h : s.Inv) : (s.fabNotice cause detail ep region).Inv := .notify h
theorem State.Inv.fabSettle {path srcEp code : Nat} (h : s.Inv) : (s.fabSettle path srcEp code).Inv := by
  unfold State.fabSettle
  split
  · exact h
  · exact .updCore h
theorem State.Inv.peerGone {peer region : Nat} (h : s.Inv) : (s.peerGone peer region).Inv := .ite h (.loseShard (.fabNotice (.with_fab h)))
theorem State.Inv.ringGone {dev : Nat} (h : s.Inv) : (s.ringGone dev).Inv := by
  unfold State.ringGone
  split
  · exact .peerGone h
  · exact h
theorem State.Inv.aditDown {ep : Nat} (h : s.Inv) : (s.aditDown ep).Inv :=
  .ite (.peerGone (.collDown (.each (fun _ _ h => .fabSettle h) (.setAdit h) _))) (.collDown (.each (fun _ _ h => .fabSettle h) (.setAdit h) _))
theorem State.Inv.aditSwitch {ep : Nat} (h : s.Inv) : (s.aditSwitch ep).Inv :=
  .collSwitched (.aditPump (.each (fun _ _ h => .aditSend h) (.fabNotice (.inc (.setAdit h) ..)) _))
theorem State.Inv.routeFail {ep : Nat} {routeB : Bool} (h : s.Inv) : (s.routeFail ep routeB).Inv :=
  .ite (.setAdit h) (.ite (.aditSwitch (.setAdit h)) (.aditDown (.setAdit h)))
theorem State.Inv.sendPathFail {a : Adit} (h : s.Inv) : (s.sendPathFail a).Inv := .portSend h
theorem State.Inv.routesLost {p : Nat} (h : s.Inv) : (s.routesLost p).Inv :=
  .each (fun _ _ h => .ite (.ite (.routeFail (.ite (.routeFail h) h)) (.ite (.routeFail h) h)) (.ite (.sendPathFail h) h)) h _
theorem State.Inv.linkDown {p : Nat} (h : s.Inv) : (s.linkDown p).Inv := .routesLost (.fabNotice (.inc (.updPort h) ..))
theorem execPortTrain_kept {port lanes rtt : Nat} (h : s.Inv) : Kept (execPortTrain port lanes rtt s) := .next (.ite (.linkSend (.setPort h)) h)
theorem execCap_kept {port : Nat} {m : Caps} (h : s.Inv) : Kept (execCap port m s) := by
  unfold execCap
  refine .next ?_
  refine .ite h ?_
  exact .ite (.refuse (.setPort h) ..) (.ite (.setPort h) (.ite (.ite (.setPort h) (.fabNotice (.inc (.setPort h) ..))) (.setPort h)))
theorem execRetrainTimer_kept {port : Nat} (h : s.Inv) : Kept (execRetrainTimer port s) := .next (.ite (.setPort h) h)
theorem State.Inv.retrainPort {p : Nat} (h : s.Inv) : (s.retrainPort p).Inv := .ite (.updPort (.ite (.linkDown h) h)) (.ite (.linkDown h) h)
theorem execRetrain_kept {f port : Nat} (h : s.Inv) : Kept (execRetrain f port s) := .next (.ite (.retrainPort h) h)
theorem State.Inv.loseLane {p lane : Nat} (h : s.Inv) : (s.loseLane p lane).Inv :=
  .ite h (.ite (.linkDown h) (.notify (.inc (.linkSend (.setPort h)) ..)))
theorem execLaneFail_kept {port lane : Nat} (h : s.Inv) : Kept (execLaneFail port lane s) := .next (.loseLane h)
theorem execLaneMap_kept {port lanes _seq : Nat} (h : s.Inv) : Kept (execLaneMap port lanes _seq s) := .next (.ite (.setPort h) h)
theorem State.Inv.laneOff {p v : Nat} (h : s.Inv) : (s.laneOff p v).Inv := .ite (.each (fun _ _ h => .loseLane h) (.wr h ..) _) h
theorem execLaneOffWrite_kept {f port : Nat} {v : Word} (h : s.Inv) : Kept (execLaneOffWrite f port v s) := .next (.ite (.laneOff h) h)
theorem execLaneMarginCheck_kept {port lane margin : Nat} (h : s.Inv) : Kept (execLaneMarginCheck port lane margin s) :=
  .next (.ite (.replanCause (.loseLane (.updPort (.updPort h)))) (.updPort h))
theorem execLaneRetrain_kept {port lane : Nat} (h : s.Inv) : Kept (execLaneRetrain port lane s) := .next (.ite (.countEvent (.setPort h)) h)
theorem State.Inv.replay {p seq : Nat} (h : s.Inv) : (s.replay p seq).Inv :=
  .ite h (.ite (.countEvent (.fabNotice (.inc (.setPort h) ..))) (.fabNotice (.inc (.setPort h) ..)))
theorem execCredit_kept {port : Nat} {returns : List Nat} (h : s.Inv) : Kept (execCredit port returns s) :=
  .next (.ite (.portFlushAll (.updPort h)) h)
theorem execCreditIdleTimer_kept {port : Nat} (h : s.Inv) : Kept (execCreditIdleTimer port s) := .next (.ite (.linkSend (.setPort h)) h)
theorem execNak_kept {port seq : Nat} (h : s.Inv) : Kept (execNak port seq s) := .next (.ite (.replay (.updPort h)) h)
theorem execReplayTimeout_kept {port : Nat} (h : s.Inv) : Kept (execReplayTimeout port s) := by
  unfold execReplayTimeout
  refine .next ?_
  dsimp only
  split
  · exact .ite (.replay h) h
  · exact h
theorem execLinkSilenceTimeout_kept {port : Nat} (h : s.Inv) : Kept (execLinkSilenceTimeout port s) := .next (.ite (.linkDown h) h)
theorem State.Inv.sendNak {p : Nat} (h : s.Inv) : (s.sendNak p).Inv := .ite h (.linkSend (.setPort h))
theorem State.Inv.deliverFlit {p : Nat} {f : Flit} (h : s.Inv) : (s.deliverFlit p f).Inv :=
  .ite (.inc h ..) (.ite (.with_fab h) (.ite (.inc h ..) (.ite (.with_fab h) (.ite (.with_fab h) (.ite (.inc h ..) (.routeSend h))))))
theorem execFlitReceive_kept {port : Nat} {fl : Flit} (h : s.Inv) : Kept (execFlitReceive port fl s) := by
  unfold execFlitReceive
  refine .next ?_
  refine .ite h ?_
  refine .ite (.sendNak (.inc h ..)) ?_
  refine .ite (.portFlushAll (.updPort h)) ?_
  refine .ite (.sendNak (.inc (.portFlushAll (.updPort h)) ..)) ?_
  refine .ite ?_ ?_
  · exact .deliverFlit (.inc64 (.setPort (.portFlushAll (.updPort h))) ..)
  · exact .ite (.inc (.portFlushAll (.updPort h)) ..) (.sendNak (.portFlushAll (.updPort h)))
theorem State.Inv.sendEcho {ep : Nat} {routeB : Bool} (h : s.Inv) : (s.sendEcho ep routeB).Inv := .routeSend h
theorem State.Inv.aditCommitSel (h : s.Inv) : (s.aditCommitSel).Inv :=
  .ite (.refuse h ..) (.ite h (.ite (.sendEcho (.sendEcho (.with_fab (.setAdit h)))) (.sendEcho (.with_fab (.setAdit h)))))
theorem execAditCommit_kept {f : Nat} (h : s.Inv) : Kept (execAditCommit f s) := .next (.ite (.aditCommitSel h) h)
theorem State.Inv.aditSettled {ep : Nat} (h : s.Inv) : (s.aditSettled ep).Inv := .ite (.setAdit h) h
theorem execEchoReply_kept {fl : Flit} {rtt : Nat} (h : s.Inv) : Kept (execEchoReply fl rtt s) :=
  .next (.ite (.with_fab h) (.aditPump (.setAdit (.with_fab h))))
theorem execAditVerifyTimeout_kept {ep : Nat} {route : Bool} (h : s.Inv) : Kept (execAditVerifyTimeout ep route s) :=
  .next (.ite (.aditSettled (.setAdit h)) h)
theorem State.Inv.revertSel (h : s.Inv) : (s.revertSel).Inv := .ite (.aditSwitch h) h
theorem execRevert_kept {f : Nat} (h : s.Inv) : Kept (execRevert f s) := .next (.ite (.revertSel h) h)
theorem State.Inv.disableSel (h : s.Inv) : (s.disableSel).Inv := .ite (.aditDown h) h
theorem execDisable_kept {f : Nat} (h : s.Inv) : Kept (execDisable f s) := .next (.ite (.disableSel h) h)
theorem execRouteRemeasure_kept {ep : Nat} {route : Bool} {rtt : Nat} (h : s.Inv) : Kept (execRouteRemeasure ep route rtt s) :=
  .next (.ite (.setAdit h) h)
theorem State.Inv.takeFlit {fl : Flit} (h : s.Inv) : (s.takeFlit fl).Inv := .with_fab h
theorem execPathFail_kept {fl : Flit} (h : s.Inv) : Kept (execPathFail fl s) :=
  .next (.ite (.inc (.takeFlit h) ..) (.ite (.sendPathFail (.inc (.takeFlit h) ..)) (.routeFail (.inc (.takeFlit h) ..))))
theorem execEcho_kept {fl : Flit} (h : s.Inv) : Kept (execEcho fl s) := .next (.ite (.aditSend (.takeFlit h)) (.takeFlit h))
theorem State.Inv.ackRecord {ep rec16 : Nat} (h : s.Inv) : (s.ackRecord ep rec16).Inv := by
  unfold State.ackRecord
  dsimp only
  split
  · exact .fabSettle (.setAdit h)
  · exact h
theorem execWriteAck_kept {fl : Flit} (h : s.Inv) : Kept (execWriteAck fl s) :=
  .next (.ite (.takeFlit h) (.aditPump (.each (fun _ _ h => .ackRecord h) (.takeFlit h) _)))
theorem execStore_kept {port : Nat} {fl : Flit} (h : s.Inv) : Kept (execStore port fl s) :=
  .next (.ite (.with_fab (.takeFlit h)) (.inc (.takeFlit h) ..))

/-! ### Machine/Calib.lean -/

theorem State.Inv.updCal {i : Nat} {f : Cal → Cal} (h : s.Inv) : (s.updCal i f).Inv := .updStope h
theorem State.Inv.calStart {i : Nat} {zeroOnly excl : Bool} {fs : Nat} (h : s.Inv) : (s.calStart i zeroOnly excl fs).Inv := by
  unfold State.calStart
  exact .updCal (.refEnable h)
theorem State.Inv.calAct {i : Nat} {v : Word} (h : s.Inv) : (s.calAct i v).Inv := .ite (.updCal h) (.ite (.updCal h) (.calStart h))
theorem State.Inv.calStop {i : Nat} (h : s.Inv) : (s.calStop i).Inv := .updCal h
theorem State.Inv.calCmdWrite {f i : Nat} {v : Word} (h : s.Inv) : (s.calCmdWrite f i v).Inv := by
  unfold State.calCmdWrite
  refine .ite h ?_
  refine .ite (.updCal h) ?_
  dsimp only
  split
  · exact .updCal h
  · exact .calStop (.updCal h)
  · exact .calAct (.updCal h)
theorem execCalZero_kept {f i : Nat} {v : Word} (h : s.Inv) : Kept (execCalZero f i v s) := .next (.calCmdWrite h)
theorem execCalFull_kept {f i : Nat} {v : Word} (h : s.Inv) : Kept (execCalFull f i v s) := .next (.calCmdWrite h)
theorem execCalAbort_kept {f i : Nat} {v : Word} (h : s.Inv) : Kept (execCalAbort f i v s) := .next (.calCmdWrite h)
theorem execCalExclStart_kept {i : Nat} (h : s.Inv) : Kept (execCalExclStart i s) := by
  unfold execCalExclStart
  refine .next ?_
  split
  · exact .ite (.calStart (.updCal h)) h
  · exact h
theorem execCalHeldStart_kept {i : Nat} (h : s.Inv) : Kept (execCalHeldStart i s) := by
  unfold execCalHeldStart
  refine .next ?_
  split
  · exact .ite (.calAct (.updCal h)) h
  · exact h
theorem State.Inv.calResults {i g : Nat} (h : s.Inv) : (s.calResults i g).Inv := by
  unfold State.calResults
  refine .wr ?_ ..
  exact .each (fun _ _ h => .notify h) (.inc (.updCal h) ..) _
theorem State.Inv.calAdvance {i : Nat} (h : s.Inv) : (s.calAdvance i).Inv :=
  .ite h (.ite (.updCal h) (.ite (.updCal h) (.ite (.updCal h) (.ite (.updCal h) (.updCal (.each (fun _ _ h => .calResults h) h _))))))
theorem execCalSample_kept {i : Nat} (h : s.Inv) : Kept (execCalSample i s) :=
  .next (.ite (.calAdvance (.setStope (.with_freeCtr (.ite (.charge h) h)))) (.ite (.refEnable h) h))
theorem execCalSlot_kept {i : Nat} (h : s.Inv) : Kept (execCalSlot i s) :=
  .next (.ite (.ite (.updCal (.ite (.calStart (.charge h)) (.charge h))) (.ite (.calStart (.charge h)) (.charge h))) h)
theorem execCalDeferExpiry_kept {i : Nat} (h : s.Inv) : Kept (execCalDeferExpiry i s) := .next (.ite (.updCal (.ite (.calStart h) h)) h)
theorem execCalHoldTimeout_kept {i : Nat} (h : s.Inv) : Kept (execCalHoldTimeout i s) := by
  unfold execCalHoldTimeout
  refine .next ?_
  split
  · exact .ite (.updCal h) h
  · exact h
theorem State.Inv.calDue {i : Nat} (h : s.Inv) : (s.calDue i).Inv := .ite h (.updCal h)
theorem State.Inv.judgeInterval {i : Nat} (h : s.Inv) : (s.judgeInterval i).Inv := by
  unfold State.judgeInterval
  refine .ite ?_ ?_
  · exact .each (fun _ _ h => .updCal h) (.with_hf (.replanCause (.wr h ..))) _
  · exact .ite (.each (fun _ _ h => .updCal h) (.with_hf (.replanCause (.wr h ..))) _) h
theorem State.Inv.calFinish {i : Nat} (h : s.Inv) : (s.calFinish i).Inv :=
  .judgeInterval (.ite (.replanCause (.retau (.inc (.wr (.wr64 (.updCal h) ..) ..) ..))) (.retau (.inc (.wr (.wr64 (.updCal h) ..) ..) ..)))
theorem execCalCommit_kept {i k : Nat} (h : s.Inv) : Kept (execCalCommit i k s) := .next (.ite (.ite (.calFinish (.updStope h)) (.updStope h)) h)
theorem execCalGroup_kept (h : s.Inv) : Kept (execCalGroup s) :=
  .next (.ite h (.ite (.replanCause (.with_hf h)) (.each (fun _ _ h => .calAct h) (.with_hf h) _)))
theorem execCalIntervalExpiry_kept {i : Nat} (h : s.Inv) : Kept (execCalIntervalExpiry i s) := .next (.ite (.calDue h) h)
theorem State.Inv.calIntWrite {f : Nat} {v : Word} (h : s.Inv) : (s.calIntWrite f v).Inv :=
  .ite (.ite (.each (fun _ _ h => .updCal h) (.replanCause (.with_hf (.storeReg h))) _) (.storeReg h)) h
theorem execCalIntWrite_kept {f : Nat} {v : Word} (h : s.Inv) : Kept (execCalIntWrite f v s) := .next (.calIntWrite h)
theorem State.Inv.calGainsWrite {f i : Nat} {v : Word} (h : s.Inv) : (s.calGainsWrite f i v).Inv :=
  .ite h (.ite (.storeReg h) (.ite (.calDue (.storeReg h)) (.calDue (.updCal (.storeReg h)))))
theorem execCalGainsWrite_kept {f i : Nat} {v : Word} (h : s.Inv) : Kept (execCalGainsWrite f i v s) := .next (.calGainsWrite h)
theorem execRefRowRestore_kept {bank : Bool} (h : s.Inv) : Kept (execRefRowRestore bank s) :=
  .next (.ite (.each (fun _ _ h => .calDue h) (.each (fun _ _ h => .updStope h) h _) _) h)
theorem State.Inv.dramHour {k : Nat} (h : s.Inv) : (s.dramHour k).Inv := by
  unfold State.dramHour
  extract_lets n worst quiet old new kv hf s₁ s₂ s₃
  have h₁ : s₁.Inv := ⟨h.mem, h.regs, h.ptes, h.classes, h.nodes⟩
  have h₂ : s₂.Inv := .ite h₁ (.replanCause h₁)
  have h₃ : s₃.Inv := .each (fun _ _ h => .wr h ..) h₂ _
  clear_value s₃
  exact .each (fun _ _ h => .with_tally h) h₃ _
theorem execDramHourCheck_kept (h : s.Inv) : Kept (execDramHourCheck s) := by
  unfold execDramHourCheck
  extract_lets t
  have ht : t.Inv := .each (fun _ _ h => .dramHour h) h _
  clear_value t
  exact .next (.with_kv ht)

/-! ### Machine/KvAlloc.lean -/

theorem State.Inv.setFrameRef {k f n : Nat} (h : s.Inv) : (s.setFrameRef k f n).Inv := .with_kv h
theorem State.Inv.allocFail (h : s.Inv) : (s.allocFail).Inv := .refuse (.inc h ..) ..
theorem State.Inv.takeFrame {region k pc : Nat} (h : s.Inv) : (s.takeFrame region k pc).2.Inv := by
  unfold State.takeFrame
  split
  · exact .setFrameRef h
  · exact .allocFail h
theorem State.Inv.takeCopy {region k : Nat} {pref : Nat × Nat} (h : s.Inv) : (s.takeCopy region k pref).2.Inv := by
  unfold State.takeCopy
  dsimp only
  split
  · exact .setFrameRef h
  · exact .allocFail h
theorem State.Inv.dropRef {k f : Nat} (h : s.Inv) : (s.dropRef k f).Inv := .setFrameRef h
theorem State.Inv.tookHandle {n : Nat} (h : s.Inv) : (s.tookHandle n).Inv := .with_kv h
theorem State.Inv.putFrame {k f : Nat} {bs : List Byte} (h : s.Inv) : (s.putFrame k f bs).Inv :=
  .overwritten (.overwritten (.wrMem (.wrMem h ..) ..))
theorem State.Inv.copyFrame {k src dst : Nat} (h : s.Inv) : (s.copyFrame k src dst).Inv := .putFrame h
theorem State.Inv.issueCopy {k src dst : Nat} (h : s.Inv) : (s.issueCopy k src dst).Inv := .inc64 (.copyFrame h) ..
theorem State.Inv.setPte {key : Nat} {p : Pte} (h : s.Inv) : (s.setPte key p).Inv :=
  ⟨h.mem, h.regs, Table.wf_set h.ptes, h.classes, h.nodes⟩
theorem State.Inv.releasePage {key : Nat} (h : s.Inv) : (s.releasePage key).Inv := .setPte (.ite (.dropRef h) h)
theorem State.Inv.ownPage {region key : Nat} (h : s.Inv) : (s.ownPage region key).2.Inv := by
  unfold State.ownPage
  dsimp only
  split
  · split
    · next he => exact .setPte (.of_snd (.takeFrame h) he)
    · next he => exact .of_snd (.takeFrame h) he
  · split
    · split
      · next he => exact .inc64 (.dropRef (.setPte (.issueCopy (.of_snd (.takeCopy h) he)))) ..
      · next he => exact .of_snd (.takeCopy h) he
    · exact h
theorem State.Inv.shareFrame {region key k f : Nat} (h : s.Inv) : (s.shareFrame region key k f).2.Inv := by
  unfold State.shareFrame
  split
  · exact .setFrameRef h
  · split
    · next he => exact .inc64 (.issueCopy (.of_snd (.takeCopy h) he)) ..
    · next he => exact .of_snd (.takeCopy h) he
theorem State.Inv.mirrorSlots {stream start count : Nat} (h : s.Inv) : (s.mirrorSlots stream start count).Inv := .ite (.with_wnd h) h
theorem State.Inv.commitStream {stream count : Nat} (h : s.Inv) : (s.commitStream stream count).Inv := by
  unfold State.commitStream
  exact .updStream (.each (fun _ _ h => .setPte h) (.mirrorSlots h) _)
theorem State.Inv.rollbackStream {stream : Nat} (h : s.Inv) : (s.rollbackStream stream).Inv :=
  .each (fun _ _ h => .ite (.releasePage h) (.setPte h)) h _
theorem State.Inv.chargeVault {n : Nat} (h : s.Inv) : (s.chargeVault n).Inv := by
  unfold State.chargeVault
  refine .inc64 ?_ ..
  exact .with_swap h
theorem State.Inv.spillPage {key : Nat} (h : s.Inv) : (s.spillPage key).Inv := by
  unfold State.spillPage
  split
  · exact h
  · refine .inc ?_ ..
    exact .tookHandle (.setPte (.dropRef (.ite (.chargeVault (.wrMem h ..)) (.wrMem h ..))))
theorem State.Inv.reloadPage {region key : Nat} (h : s.Inv) : (s.reloadPage region key).Inv := by
  unfold State.reloadPage
  dsimp only
  split
  · next he => exact .inc (.setPte (.putFrame (.of_snd (.takeFrame h) he))) ..
  · next he => exact .of_snd (.takeFrame h) he

/-! ### Machine/KvStack.lean -/

theorem State.Inv.kvReply {c : KvCmd} {bytes : List Byte} {cause : Nat} (h : s.Inv) : (s.kvReply c bytes cause).Inv := .with_kv h
theorem State.Inv.stackFault {k : Nat} {c : KvCmd} {cause : Nat} (h : s.Inv) : (s.stackFault k c cause).Inv := .kvReply (.wr h ..)
theorem State.Inv.kvPop {k : Nat} {rest : List KvCmd} (h : s.Inv) : (s.kvPop k rest).Inv := .with_kv h
theorem State.Inv.attend {k : Nat} {c : KvCmd} (h : s.Inv) : (s.attend k c).Inv :=
  .ite (.stackFault h) (.ite (.stackFault h) (.kvReply (.inc64 (.inc64 h ..) ..)))
theorem State.Inv.appendKv {k : Nat} {c : KvCmd} (h : s.Inv) : (s.appendKv k c).Inv := by
  unfold State.appendKv
  extract_lets hd key s₁
  have h₁ : s₁.Inv := .ite (.reloadPage h) h
  refine .ite (.stackFault h₁) (.ite (.stackFault h₁) ?_)
  split
  · next he => exact .stackFault (.of_snd (.ownPage h₁) he)
  · next he =>
    have h := State.Inv.of_snd (.ownPage h₁) he
    refine .kvReply (.inc64 (.setPte (.each (fun _ _ h => ?_) h _)) ..)
    exact .wrMem (.wrMem (.wrMem (.overwritten (.overwritten (.overwritten h))) ..) ..) ..
theorem State.Inv.runKv {k : Nat} {append : Bool} (h : s.Inv) : (s.runKv k append).Inv := by
  unfold State.runKv
  split
  · exact h
  · exact .ite h (.ite (.stackFault (.kvPop h)) (.ite (.appendKv (.kvPop h)) (.attend (.kvPop h))))
theorem execAttend_kept {k : Nat} (h : s.Inv) : Kept (execAttend k s) := .next (.runKv h)
theorem execAppend_kept {k : Nat} (h : s.Inv) : Kept (execAppend k s) := .next (.runKv h)
theorem execCopy_kept {k src dst by_ : Nat} (h : s.Inv) : Kept (execCopy k src dst by_ s) := .next (.ite (.issueCopy h) (.wr h ..))
theorem State.Inv.faultStream {i : Nat} (h : s.Inv) : (s.faultStream i).Inv :=
  .ite (.streamEvent (.setStream (.rollbackStream h))) (.setStream (.rollbackStream h))
theorem execPcFail_kept {k pc : Nat} (h : s.Inv) : Kept (execPcFail k pc s) :=
  .next (.each (fun _ _ h => .ite (.updStream (.notify h)) (.faultStream (.notify h))) (.notify (.wr (.wrBit h ..) ..)) _)
theorem execDramError_kept {k pc count : Nat} {corrected : Bool} (h : s.Inv) : Kept (execDramError k pc count corrected s) := by
  unfold execDramError
  refine .next ?_
  refine .ite ?_ (.countEvent (.inc h ..))
  refine .ite ?_ ?_
  · refine .countEvent ?_
    refine .inc ?_ ..
    exact .with_kv h
  · refine .inc ?_ ..
    exact .with_kv h
theorem State.Inv.restorePage {region key : Nat} (h : s.Inv) : (s.restorePage region key).Inv := by
  unfold State.restorePage
  dsimp only
  split
  · next he => exact .setPte (.dropRef (.putFrame (.of_snd (.takeFrame h) he)))
  · next he => exact .of_snd (.takeFrame h) he
theorem execKvRestored_kept {k pc stream count : Nat} (h : s.Inv) : Kept (execKvRestored k pc stream count s) :=
  .next (.ite h (.notify (.setStream (.each (fun _ _ h => .restorePage h) (.rollbackStream h) _))))

/-! ### Machine/Paging.lean -/

theorem State.Inv.sendMaps {i : Nat} (h : s.Inv) : (s.sendMaps i).Inv := .ite h (.with_kv (.each (fun _ _ h => .announce h) h _))
theorem State.Inv.commitMap {f : Nat} {freeDead : Bool} (h : s.Inv) : (s.commitMap f freeDead).Inv := by
  unfold State.commitMap
  refine .ite ?_ ?_
  · refine .refuse ?_ ..
    exact .with_kv h
  · exact .ite (.with_kv (.with_kv h)) (.sendMaps (.with_kv (.with_kv h)))
theorem execPosmapCommit_kept {f : Nat} {v : Word} (h : s.Inv) : Kept (execPosmapCommit f v s) := .next (.ite (.commitMap h) h)
theorem execFreeDead_kept {f : Nat} {v : Word} (h : s.Inv) : Kept (execFreeDead f v s) := .next (.ite (.commitMap h) h)
theorem execPosmapInstall_kept {stream : Nat} (h : s.Inv) : Kept (execPosmapInstall stream s) := by
  unfold execPosmapInstall
  refine .next ?_
  split
  · exact h
  · exact .ite h (.ite (.each (fun _ _ h => .releasePage h) (.updStream (.with_kv h)) _) (.updStream (.with_kv h)))
theorem execSpillStart_kept (h : s.Inv) : Kept (execSpillStart s) :=
  .next (.ite (.with_kv (.each (fun _ _ h => .ite (.spillPage h) h) h _)) (.with_kv h))
theorem execSpillReload_kept {stream : Nat} (h : s.Inv) : Kept (execSpillReload stream s) := .next (.with_kv (.each (fun _ _ h => .reloadPage h) h _))

/-! ### Machine/Tree.lean -/

/-- A node placed in, or taken out of, the walker's table leaves its keys rising. -/
theorem State.Inv.setNodeEntry {n : Nat} {x : Node} (h : s.Inv) : ({ s with kv := { s.kv with nodes := Table.put s.kv.nodes n x } } : State).Inv :=
  ⟨h.mem, h.regs, h.ptes, h.classes, Table.keys_put h.nodes⟩
theorem State.Inv.delNode {n : Nat} (h : s.Inv) : ({ s with kv := { s.kv with nodes := Table.del s.kv.nodes n } } : State).Inv :=
  ⟨h.mem, h.regs, h.ptes, h.classes, h.nodes.sublist ((Table.del_sublist _ _).map _)⟩
theorem State.Inv.putNode {n : Nat} {x : Node} (h : s.Inv) : (s.putNode n x).Inv := by
  have h₁ := h.setNodeEntry (n := n) (x := x)
  unfold State.putNode
  dsimp only
  split
  · exact h₁.wrMem ..
  · exact h₁
theorem State.Inv.updNode {n : Nat} {f : Node → Node} (h : s.Inv) : (s.updNode n f).Inv := by
  unfold State.updNode
  split
  · exact .putNode h
  · exact h
theorem State.Inv.setBucket {b n : Nat} (h : s.Inv) : (s.setBucket b n).Inv := .with_kv h
theorem State.Inv.holdFrames {stream : Nat} {x : Node} (h : s.Inv) : (s.holdFrames stream x).2.Inv := by
  unfold State.holdFrames
  refine .foldl_snd (fun acc fr h => ?_) h
  dsimp only
  split
  · next he => exact .setPte (.of_snd (.shareFrame h) he)
  · next he => exact .of_snd (.shareFrame h) he
theorem State.Inv.commitMatched {stream n : Nat} {tokens : List Nat} (h : s.Inv) : (s.commitMatched stream n tokens).Inv := by
  unfold State.commitMatched
  exact .updStream (.mirrorSlots h)
theorem holdNode_kept {stream n : Nat} {x : Node} (h : s.Inv) : KeptSome (s.holdNode stream n x) := by
  unfold State.holdNode
  split
  · next he => exact .some (.commitMatched (.updNode (.of_snd (.holdFrames h) he)))
  · exact .none
theorem State.Inv.holdNodes {stream : Nat} {ns : List Nat} (h : s.Inv) : (s.holdNodes stream ns).2.Inv := by
  induction ns generalizing s with
  | nil => exact h
  | cons n ns ih =>
    unfold State.holdNodes
    split
    · next t he =>
      obtain ⟨x, -, hx⟩ := Option.bind_eq_some_iff.1 he
      exact ih (holdNode_kept h t hx)
    · exact h
theorem State.Inv.matchPrefix {stream : Nat} {tokens : List Nat} {pin : Bool} (h : s.Inv) : (s.matchPrefix stream tokens pin).2.Inv := by
  unfold State.matchPrefix
  refine .ite_snd h ?_
  extract_lets hash blocks
  dsimp only
  exact .ite (.inc64 (.inc (.inc64 (.ite (.each (fun _ _ h => .updNode h) (.ite (.holdNodes h) (.updStream (.announce (.holdNodes h)))) _)
    (.ite (.holdNodes h) (.updStream (.announce (.holdNodes h))))) ..) ..) ..)
    (.inc (.inc64 (.ite (.each (fun _ _ h => .updNode h) (.ite (.holdNodes h) (.updStream (.announce (.holdNodes h)))) _)
    (.ite (.holdNodes h) (.updStream (.announce (.holdNodes h))))) ..) ..)
theorem State.Inv.unlinkNode {n : Nat} {x : Node} (h : s.Inv) : (s.unlinkNode n x).Inv := by
  unfold State.unlinkNode
  refine .ite (.setBucket h) ?_
  split
  · exact .putNode h
  · exact h
theorem State.Inv.dropHolders {n : Nat} (h : s.Inv) : (s.dropHolders n).Inv := .each (fun _ _ h => .updStream h) h _
theorem State.Inv.unmapNode {n : Nat} {x : Node} (h : s.Inv) : (s.unmapNode n x).Inv := by
  have h₁ : (s.each x.frames fun s fr => s.dropRef (fr.2 / 0x200000) (fr.2 % 0x200000)).Inv := .each (fun _ _ h => .dropRef h) h _
  exact .dropHolders (.delNode h₁)
theorem State.Inv.evictNode {n : Nat} (h : s.Inv) : (s.evictNode n).Inv := by
  unfold State.evictNode
  split
  · exact h
  · refine .inc ?_ ..
    refine .announce ?_
    refine .unmapNode ?_
    split
    · exact .wrMem (.updNode (.unlinkNode h)) ..
    · exact .updNode (.unlinkNode h)
theorem State.Inv.nodeHolds {stream page : Nat} (h : s.Inv) : (s.nodeHolds stream page).2.Inv := by
  unfold State.nodeHolds
  refine .foldl_snd (fun acc e h => ?_) h
  split
  · next he => exact .of_snd (.shareFrame h) he
  · next he => exact .of_snd (.shareFrame h) he
theorem State.Inv.mapNode {n stream page : Nat} (h : s.Inv) : (s.mapNode n stream page).Inv := .setNodeEntry (.nodeHolds h)
theorem execNodeInsert_kept {stream : Nat} (h : s.Inv) : Kept (execNodeInsert stream s) := by
  unfold execNodeInsert
  refine .next ?_
  refine .ite h ?_
  dsimp only
  split
  · exact .inc h ..
  · exact .ite (.ite (.evictNode h) h) (.announce (.updStream (.updNode (.setBucket (.putNode (.nodeHolds (.ite (.evictNode h) h)))))))
theorem execNodeReady_kept {n : Nat} (h : s.Inv) : Kept (execNodeReady n s) := .next (.updNode h)
theorem State.Inv.genEvict {bank : Bool} (h : s.Inv) : (s.genEvict bank).Inv := .with_kv (.each (fun _ _ h => .evictNode h) h _)
theorem State.Inv.pinNode {pin : Bool} (h : s.Inv) : (s.pinNode pin).Inv := .updNode h
theorem execNodePin_kept {f : Nat} (h : s.Inv) : Kept (execNodePin f s) := .next (.ite (.pinNode h) h)
theorem execNodeUnpin_kept {f : Nat} (h : s.Inv) : Kept (execNodeUnpin f s) := .next (.ite (.pinNode h) h)
theorem State.Inv.unpinNodes (h : s.Inv) : (s.unpinNodes).Inv := .each (fun _ _ h => .updNode h) h _
theorem execUnpinAll_kept {f : Nat} (h : s.Inv) : Kept (execUnpinAll f s) := .next (.ite (.unpinNodes h) h)
theorem State.Inv.nodeFindWrite {f : Nat} {v : Word} (h : s.Inv) : (s.nodeFindWrite f v).Inv := .wr h ..
theorem execNodeFind_kept {f : Nat} {v : Word} (h : s.Inv) : Kept (execNodeFind f v s) := .next (.ite (.nodeFindWrite h) h)
theorem State.Inv.pfxOthers {v : Word} (h : s.Inv) : (s.pfxOthers v).Inv := .ite (.unpinNodes (.wrBit h ..)) (.wrBit h ..)
theorem State.Inv.reserveFrames {region n : Nat} (h : s.Inv) : (s.reserveFrames region n).Inv := by
  induction n generalizing s with
  | zero => exact h
  | succ n ih =>
    unfold State.reserveFrames
    split
    · next he => exact ih (.with_kv (.of_snd (.takeFrame h) he))
    · next he => exact .of_snd (.takeFrame h) he
theorem State.Inv.pfxEnableNow {f : Nat} {v : Word} (h : s.Inv) : (s.pfxEnableNow f v).Inv :=
  .ite (.pfxOthers h) (.ite (.refuse (.pfxOthers h) ..) (.reserveFrames (.wrBit (.pfxOthers h) ..)))
theorem State.Inv.pfxDisableNow {v : Word} (h : s.Inv) : (s.pfxDisableNow v).Inv :=
  .with_kv (.each (fun _ _ h => .dropRef h) (.each (fun _ _ h => .evictNode h) (.wrBit (.pfxOthers h) ..) _) _)
theorem execPfxEnable_kept {f : Nat} {v : Word} (h : s.Inv) : Kept (execPfxEnable f v s) := .next (.ite (.pfxEnableNow h) h)
theorem execPfxDisable_kept {f : Nat} {v : Word} (h : s.Inv) : Kept (execPfxDisable f v s) := .next (.ite (.pfxDisableNow h) h)

/-! ### Machine/Rings.lean -/

theorem State.Inv.setRing {r head tail fn : Nat} (h : s.Inv) : (s.setRing r head tail fn).Inv := .ite (.with_wnd h) (.updStream h)
theorem State.Inv.consume {r : Nat} {it : Item} (h : s.Inv) : (s.consume r it).Inv := .inc64 (.setRing h) ..
theorem State.Inv.ringRefuse {r code : Nat} (h : s.Inv) : (s.ringRefuse r code).Inv := .wr h ..
theorem State.Inv.refusedEvent {r code : Nat} {tag data : DWord} (h : s.Inv) : (s.refusedEvent r code tag data).Inv :=
  .ite (.classEvent h) (.streamEvent h)
theorem State.Inv.refuseItem {r : Nat} {it : Item} {code : Nat} (h : s.Inv) : (s.refuseItem r it code).Inv :=
  .refusedEvent (.ringRefuse (.consume h))
theorem State.Inv.onItem {r op : Nat} {f : Item → State} (hf : ∀ it, (f it).Inv) (h : s.Inv) : (s.onItem r op f).Inv := by
  unfold State.onItem
  split
  · refine .ite h ?_
    split
    · exact hf _
    · exact .refuseItem h
    · exact h
  · exact h
theorem execItemMalformed_kept {r : Nat} (h : s.Inv) : Kept (execItemMalformed r s) := by
  unfold execItemMalformed
  refine .next ?_
  split
  · exact .ite (.refuseItem h) h
  · exact h
theorem execItemReservedOpcode_kept {r : Nat} (h : s.Inv) : Kept (execItemReservedOpcode r s) := by
  unfold execItemReservedOpcode
  refine .next ?_
  split
  · exact .ite (.refuseItem h) h
  · exact h
theorem State.Inv.claim {f r : Nat} (h : s.Inv) : (s.claim f r).Inv := .ite (.updStream h) h
theorem State.Inv.doorbell {f : Nat} {v : Word} (h : s.Inv) : (s.doorbell f v).Inv :=
  .ite (.ringRefuse h) (.ite (.ringRefuse h) (.ite (.ringRefuse h) (.claim (.setRing h))))
theorem execRingDb_kept {f : Nat} {v : Word} (h : s.Inv) : Kept (execRingDb f v s) := .next (.ite (.doorbell h) h)
theorem State.Inv.freeParent {r : Nat} (h : s.Inv) : (s.freeParent r).Inv := .each (fun _ _ h => .updStream h) h _
theorem State.Inv.resetRing {r : Nat} (h : s.Inv) : (s.resetRing r).Inv := .freeParent (.setRing (.inc h ..))
theorem State.Inv.ringResetWrite {f : Nat} {v : Word} (h : s.Inv) : (s.ringResetWrite f v).Inv :=
  .ite h (.ite (.ringRefuse h) (.ite (.ringRefuse h) (.resetRing h)))
theorem execRingReset_kept {f : Nat} {v : Word} (h : s.Inv) : Kept (execRingReset f v s) := .next (.ringResetWrite h)
theorem State.Inv.resetEvr {i : Nat} (h : s.Inv) : (s.resetEvr i).Inv := .setEvr (.inc h ..)
theorem execEvrReset_kept {f : Nat} {v : Word} (h : s.Inv) : Kept (execEvrReset f v s) := .next (.ite (.resetEvr h) h)
theorem State.Inv.evrHeadWrite {f : Nat} {v : Word} (h : s.Inv) : (s.evrHeadWrite f v).Inv := .ite (.setEvr h) h
theorem execEvrHeadWrite_kept {f : Nat} {v : Word} (h : s.Inv) : Kept (execEvrHeadWrite f v s) := .next (.evrHeadWrite h)
theorem execIngress_kept {port : Nat} {fl : Flit} (h : s.Inv) : Kept (execIngress port fl s) :=
  .next (.ite (.inc (.takeFlit h) ..) (.ite (.doorbell (.takeFlit h)) (.wrMem (.takeFlit h) ..)))

/-! ### Machine/Classes.lean -/

theorem State.Inv.recomputeClass {events : Bool} {i : Nat} (h : s.Inv) : (State.recomputeClass events s i).Inv :=
  .ite (.inc (.classEvent (.setCls h)) ..) (.setCls h)
theorem State.Inv.recomputeWith {events : Bool} (h : s.Inv) : (s.recomputeWith events).Inv := .each (fun _ _ h => .recomputeClass h) (.wr h ..) _
theorem State.Inv.recompute (h : s.Inv) : (s.recompute).Inv := .recomputeWith h
theorem State.Inv.replanBounds (h : s.Inv) : (s.replanBounds).Inv := .recomputeWith h
theorem execClassRecompute_kept (h : s.Inv) : Kept (execClassRecompute s) := .next (.ite (.recompute h) h)
theorem State.Inv.installClass {i : Nat} {c : Class} (h : s.Inv) : (s.installClass i c).Inv := .recompute (.announce (.setCls h))
theorem execClassConfig_kept {r : Nat} (h : s.Inv) : Kept (execClassConfig r s) := by
  refine .next (.ite h (.onItem (fun it => ?_) h))
  refine .ite (.refuse (.refuseItem h) ..) (.ite (.installClass (.consume h)) (.ite (.installClass (.consume h)) ?_))
  exact .refuse (.refusedEvent (.ringRefuse (.consume h))) ..

/-! ### Machine/Canary.lean -/

theorem State.Inv.orderAssay {kind unit : Nat} {bank : Bool} (h : s.Inv) : (s.orderAssay kind unit bank).Inv := .ite h (.with_tally h)
theorem State.Inv.canaryNotice {i cause channel : Nat} {bank : Bool} {stream : Option Nat} (h : s.Inv) :
    (s.canaryNotice i cause channel bank stream).Inv :=
  .ite h (.orderAssay (.notify (.updStope h)))
theorem State.Inv.canaryFlags {i : Nat} {flags : List Nat} (h : s.Inv) : (s.canaryFlags i flags).Inv := .updStope h
theorem State.Inv.canarySee {i first : Nat} {bank : Bool} {ys : List Word} {flags : List Nat} {stream : Option Nat} (h : s.Inv) :
    (s.canarySee i first bank ys flags stream).Inv := by
  unfold State.canarySee
  extract_lets mode t ranged els s₁ nans s₂ s₃ runs finRuns out bad s₄ s₅
  clear_value nans out bad
  have h₃ : s₃.Inv := by
    dsimp only [s₃]
    split
    · exact .canaryNotice (.inc (.inc (.canaryFlags h) ..) ..)
    · exact .inc (.inc (.canaryFlags h) ..) ..
  refine .ite ?_ (.ite (.updStope h₃) h₃)
  have h₅ : s₅.Inv := by
    dsimp only [s₅]
    split
    · exact .canaryNotice (.inc (.inc h₃ ..) ..)
    · exact .inc (.inc h₃ ..) ..
  split
  · exact .canaryNotice h₅
  · exact h₅
theorem State.Inv.setBounds {i : Nat} (h : s.Inv) : (s.setBounds i).Inv := by
  unfold State.setBounds
  exact .updStope h

/-! ### Machine/Vector.lean -/

theorem State.Inv.sendFor {owner : Option (Nat × Nat × Nat)} {ps : List Packet} (h : s.Inv) : (s.sendFor owner ps).Inv :=
  .each (fun _ _ h => .injectFor h) h _
theorem State.Inv.sendPackets {ps : List Packet} (h : s.Inv) : (s.sendPackets ps).Inv := .sendFor h
theorem State.Inv.noteFill {c : Nat} {r : Rng} {src : Source} (h : s.Inv) : (s.noteFill c r src).Inv := by
  unfold State.noteFill
  refine .ite (.updCore h) ?_
  refine .ite ?_ h
  split
  · exact .updCore h
  · exact h
/-- A copy's act keeps the form where its effect and its packets do. -/
theorem judgeCopy_keeps {rsv : Bool} {d : Desc} {o : Option (Nat ⊕ Act)} (h : ∀ a, o = some (.inr a) → a.Keeps) :
    (judgeCopy rsv d o).Keeps := by
  unfold judgeCopy
  refine .ite .bad ?_
  split
  · exact .bad
  · exact .ite (.act .empty) .late
  · exact .ite (.act .empty) (.act (h _ rfl))
theorem copyJudge_keeps {c n : Nat} {d : Desc} {src : Source} {allowFab : Bool} {w2 : Word} {a : Act}
    (ha : s.copyJudge c d src n allowFab w2 = some (.inr a)) : a.Keeps := by
  unfold State.copyJudge at ha
  split at ha
  · dsimp only at ha
    split at ha
    · cases ha
    · cases ha
      exact ⟨fun _ h => h, fun _ _ e _ _ _ h => by cases e; exact .sendFor h⟩
  · dsimp only at ha
    split at ha
    · cases ha
    · split at ha
      · cases ha
      · split at ha
        · cases ha
        · cases ha
          exact ⟨fun _ h => h, fun _ _ e _ _ _ h => by cases e; exact .fabSend h⟩
  · split at ha
    split at ha
    · cases ha
    · split at ha
      · cases ha
      · split at ha
        · cases ha
        · cases ha
          exact .local fun _ h => .overwritten (.wrMem h ..)
  · split at ha
    · cases ha
      exact .local fun _ h => .noteFill (.wrRange h)
    · cases ha
theorem dmaJudge_keeps {c : Nat} {d : Desc} : (s.dmaJudge c d).Keeps := by
  unfold State.dmaJudge
  dsimp only
  split
  · exact judgeCopy_keeps nofun
  · split
    · exact .ite (judgeCopy_keeps nofun) (judgeCopy_keeps fun _ => copyJudge_keeps)
    · exact judgeCopy_keeps fun _ => copyJudge_keeps
theorem execDma_kept {c : Nat} {e : List ReadErr} (h : s.Inv) : Kept (execDma c e s) := .next (.issue (fun _ _ => dmaJudge_keeps) h)
theorem dma2dJudge_keeps {c : Nat} {d : Desc} : (s.dma2dJudge c d).Keeps := by
  unfold State.dma2dJudge
  dsimp only
  split
  · exact judgeCopy_keeps nofun
  · refine judgeCopy_keeps fun a ha => ?_
    split at ha
    · exact copyJudge_keeps ha
    · cases ha
theorem execDma2d_kept {c : Nat} {e : List ReadErr} (h : s.Inv) : Kept (execDma2d c e s) := .next (.issue (fun _ _ => dma2dJudge_keeps) h)
theorem fillJudge_keeps {c : Nat} {d : Desc} : (s.fillJudge c d).Keeps := .judgeWith (keeps_map fun _ => .local fun _ h => .wrRange h)
theorem execFill_kept {c : Nat} {e : List ReadErr} (h : s.Inv) : Kept (execFill c e s) := .next (.issue (fun _ _ => fillJudge_keeps) h)
theorem State.Inv.makeLaunch {c : Nat} {r : Running} {d : Desc} {seams da : List Nat} {bs : List Byte} (h : s.Inv) :
    (s.makeLaunch c r d seams da bs).Inv :=
  .ite (.wr (.setStope h) ..) (.setStope h)
theorem launchJudge_keeps {c : Nat} {da : List Nat} {d : Desc} : (s.launchJudge c da d).Keeps := by
  unfold State.launchJudge
  refine .judgeWith fun a ha => ?_
  split at ha
  · cases ha
  · obtain ⟨r, -, rfl⟩ := Option.map_eq_some_iff.1 ha
    refine .local fun t h => ?_
    dsimp only
    split
    · exact .makeLaunch h
    · exact h
theorem execLaunch_kept {c : Nat} {e : List ReadErr} {da : List Nat} (h : s.Inv) : Kept (execLaunch c e da s) :=
  .next (.issue (fun _ _ => launchJudge_keeps) h)
theorem accClearJudge_keeps {c : Nat} {d : Desc} : (s.accClearJudge c d).Keeps := by
  refine .judgeWith (keeps_map fun _ => .local fun _ h => ?_)
  dsimp only
  exact .updStope h
theorem execAccClear_kept {c : Nat} {e : List ReadErr} (h : s.Inv) : Kept (execAccClear c e s) := .next (.issue (fun _ _ => accClearJudge_keeps) h)
theorem accAddJudge_keeps {c : Nat} {d : Desc} : (s.accAddJudge c d).Keeps := by
  unfold State.accAddJudge
  refine .judgeWith ?_
  split
  · exact keeps_some (.local fun _ h => .wrRange h)
  · exact keeps_none
theorem execAccAdd_kept {c : Nat} {e : List ReadErr} (h : s.Inv) : Kept (execAccAdd c e s) := .next (.issue (fun _ _ => accAddJudge_keeps) h)
theorem accReadJudge_keeps {c : Nat} {d : Desc} : (s.accReadJudge c d).Keeps := by
  unfold State.accReadJudge
  refine .judgeWith ?_
  split
  · exact keeps_some (.local fun _ h => .wrRange h)
  · exact keeps_none
theorem execAccRead_kept {c : Nat} {e : List ReadErr} (h : s.Inv) : Kept (execAccRead c e s) := .next (.issue (fun _ _ => accReadJudge_keeps) h)
theorem scaleJudge_keeps {c : Nat} {d : Desc} : (s.scaleJudge c d).Keeps := by
  unfold State.scaleJudge
  refine .judgeWith ?_
  split
  · exact keeps_some (.local fun _ h => .canarySee (.wrRange h))
  · exact keeps_none
theorem execScale_kept {c : Nat} {e : List ReadErr} (h : s.Inv) : Kept (execScale c e s) := .next (.issue (fun _ _ => scaleJudge_keeps) h)
theorem requantJudge_keeps {c : Nat} {d : Desc} : (s.requantJudge c d).Keeps := by
  unfold State.requantJudge
  refine .judgeWith ?_
  split
  · exact keeps_some (.local fun _ h => .canaryFlags (.wrRange h))
  · exact keeps_none
theorem execRequant_kept {c : Nat} {e : List ReadErr} (h : s.Inv) : Kept (execRequant c e s) := .next (.issue (fun _ _ => requantJudge_keeps) h)
theorem vbinJudge_keeps {c : Nat} {d : Desc} : (s.vbinJudge c d).Keeps := by
  unfold State.vbinJudge
  refine .judgeWith ?_
  split
  · exact keeps_some (.local fun _ h => .wrRange h)
  · exact keeps_none
theorem execVbin_kept {c : Nat} {e : List ReadErr} (h : s.Inv) : Kept (execVbin c e s) := .next (.issue (fun _ _ => vbinJudge_keeps) h)
theorem vfmaJudge_keeps {c : Nat} {d : Desc} : (s.vfmaJudge c d).Keeps := by
  unfold State.vfmaJudge
  refine .judgeWith ?_
  split
  · exact keeps_some (.local fun _ h => .wrRange h)
  · exact keeps_none
theorem execVfma_kept {c : Nat} {e : List ReadErr} (h : s.Inv) : Kept (execVfma c e s) := .next (.issue (fun _ _ => vfmaJudge_keeps) h)
theorem vcvtJudge_keeps {c : Nat} {d : Desc} : (s.vcvtJudge c d).Keeps := by
  unfold State.vcvtJudge
  refine .judgeWith ?_
  split
  · exact keeps_some (.local fun _ h => .wrRange h)
  · exact keeps_none
theorem execVcvt_kept {c : Nat} {e : List ReadErr} (h : s.Inv) : Kept (execVcvt c e s) := .next (.issue (fun _ _ => vcvtJudge_keeps) h)
theorem vredJudge_keeps {c : Nat} {d : Desc} : (s.vredJudge c d).Keeps := by
  unfold State.vredJudge
  refine .judgeWith ?_
  split
  · exact keeps_some (.local fun _ h => .wrRange (.with_freeCtr h))
  · exact keeps_none
theorem execVred_kept {c : Nat} {e : List ReadErr} (h : s.Inv) : Kept (execVred c e s) := .next (.issue (fun _ _ => vredJudge_keeps) h)
theorem nlfJudge_keeps {c : Nat} {d : Desc} : (s.nlfJudge c d).Keeps := by
  unfold State.nlfJudge
  refine .judgeWith ?_
  split
  · exact keeps_some (.local fun _ h => .wrRange h)
  · exact keeps_none
theorem execNlf_kept {c : Nat} {e : List ReadErr} (h : s.Inv) : Kept (execNlf c e s) := .next (.issue (fun _ _ => nlfJudge_keeps) h)
theorem vtopkJudge_keeps {c : Nat} {d : Desc} : (s.vtopkJudge c d).Keeps := by
  unfold State.vtopkJudge
  refine .judgeWith ?_
  split
  · split
    · exact keeps_none
    · split
      · exact keeps_some (.local fun _ h => h)
      · exact keeps_some (.local fun _ h => .wrRange h)
  · exact keeps_none
theorem execVtopk_kept {c : Nat} {e : List ReadErr} (h : s.Inv) : Kept (execVtopk c e s) := .next (.issue (fun _ _ => vtopkJudge_keeps) h)

/-! ### Machine/Steps.lean -/

theorem execStepStart_kept {c : Nat} (h : s.Inv) : Kept (execStepStart c s) := by
  unfold execStepStart
  refine .next ?_
  split
  · exact .ite h (.ite (.ite h (.inc (.updCore h) ..)) (.updCore h))
  · exact h
theorem State.Inv.fetchErrors {c : Nat} {e : List (Nat × Nat)} (h : s.Inv) : (s.fetchErrors c e).Inv := by
  unfold State.fetchErrors
  refine .each (fun _ _ h => ?_) h _
  split
  · exact .inc h ..
  · exact .inc h ..
  · exact .setPoison (.inc h ..)
  · exact .inc h ..
theorem execDescFetch_kept {c : Nat} {e : List ReadErr} (h : s.Inv) : Kept (execDescFetch c e s) := by
  unfold execDescFetch
  refine .next ?_
  split
  · refine .ite (.stepFault h) ?_
    refine .ite (.stepFault h) ?_
    refine .ite (.updCore (.fetchErrors h)) ?_
    exact .ite (.fenceFor (.stepFault (.updCore (.fetchErrors h)))) (.ite (.updCore (.fetchErrors h)) (.stepFault (.fetchErrors h)))
  · exact h
theorem State.Inv.passLost {i k : Nat} (h : s.Inv) : (s.passLost i k).Inv := by
  unfold State.passLost
  dsimp only
  split
  · exact .stepFault (.updStope (.inc h ..))
  · exact .updStope (.inc h ..)
theorem execPassEnd_kept {i : Nat} {e : SeamEnd} (h : s.Inv) : Kept (execPassEnd i e s) := .next (.ite (.ite (.passLost h) (.passEnd h)) h)
theorem State.Inv.refill {c w : Nat} (h : s.Inv) : (s.refill c w).Inv := by
  unfold State.refill
  dsimp only
  split
  · exact .wrMem h ..
  · exact h
theorem State.Inv.relaunch {c : Nat} {i : Issued} {l : Launch} (h : s.Inv) : (s.relaunch c i l).Inv := .inc (.updCore (.setStope h)) ..
theorem execStepRerun_kept {c : Nat} {again : Bool} (h : s.Inv) : Kept (execStepRerun c again s) := by
  unfold execStepRerun
  refine .next ?_
  split
  · refine .ite ?_ ?_
    · exact .ite (.stepFault (.inc (.inc h ..) ..)) (.stepFault (.markBad (.inc (.inc h ..) ..)))
    · exact .updCore (.ite (.refill (.inc h ..)) (.inc h ..))
  · split
    · exact .ite (.relaunch h) h
    · exact h
theorem State.Inv.forceAssay {kind unit : Nat} {bank : Bool} (h : s.Inv) : (s.forceAssay kind unit bank).Inv := .with_tally (.orderAssay h)
theorem execStepWatchdogExpiry_kept {c : Nat} (h : s.Inv) : Kept (execStepWatchdogExpiry c s) := by
  unfold execStepWatchdogExpiry
  refine .next ?_
  dsimp only
  split
  · exact h
  · exact .forceAssay (.notify (.updCore h))
theorem State.Inv.dropStreamCore {c stream : Nat} (h : s.Inv) : (s.dropStreamCore c stream).Inv := by
  unfold State.dropStreamCore
  exact .updCore (.each (fun _ _ h => .dropStepOn h) h _)
theorem State.Inv.dropStreamOn {c stream : Nat} (h : s.Inv) : (s.dropStreamOn c stream).Inv :=
  .ite (.cancelPlans (.dropStreamCore h)) (.dropStreamCore h)
theorem State.Inv.dropStreamAll {stream : Nat} (h : s.Inv) : (s.dropStreamAll stream).Inv :=
  .each (fun _ _ h => .cancelPlans h) (.each (fun _ _ h => .dropStreamCore h) h _) _

/-! ### Machine/Reduce.lean -/

theorem State.Inv.endReduction {root g : Nat} {r : Reduction} {fault : Bool} {data : List DWord} (h : s.Inv) :
    (s.endReduction root g r fault data).Inv :=
  .sendPackets (.updCore h)
theorem State.Inv.tryReduce {root g : Nat} (h : s.Inv) : (s.tryReduce root g).Inv := by
  unfold State.tryReduce
  split
  · exact h
  · exact .ite (.endReduction h) (.ite (.endReduction h) h)
theorem State.Inv.endReductions {root g n : Nat} (h : s.Inv) : (s.endReductions root g n).Inv := by
  induction n generalizing s with
  | zero => exact h
  | succ n ih => exact ih (.tryReduce h)
theorem State.Inv.settleGroup {root g : Nat} (h : s.Inv) : (s.settleGroup root g).Inv := .endReductions h
theorem State.Inv.sendOperand {c g op : Nat} {data : List DWord} (h : s.Inv) : (s.sendOperand c g op data).Inv :=
  .ite (.settleGroup (.sendPackets (.ite (.updCore h) (.ite (.updCore h) h)))) (.sendPackets (.ite (.updCore h) (.ite (.updCore h) h)))
theorem xredJudge_keeps {c : Nat} {d : Desc} : (s.xredJudge c d).Keeps := by
  unfold State.xredJudge
  refine .judgeWith ?_
  split
  · split
    · exact keeps_none
    · exact keeps_some (.local fun _ h => .sendOperand h)
  · exact keeps_none
theorem execXred_kept {c : Nat} {e : List ReadErr} (h : s.Inv) : Kept (execXred c e s) := .next (.issue (fun _ _ => xredJudge_keeps) h)
theorem normJudge_keeps {c : Nat} {d : Desc} : (s.normJudge c d).Keeps := by
  unfold State.normJudge
  refine .judgeWith ?_
  split
  · split
    · exact keeps_none
    · exact keeps_some (.local fun _ h => .sendOperand h)
  · exact keeps_none
theorem execNorm_kept {c : Nat} {e : List ReadErr} (h : s.Inv) : Kept (execNorm c e s) := .next (.issue (fun _ _ => normJudge_keeps) h)
theorem execXredOperand_kept {root src group op len : Nat} {data : List DWord} (h : s.Inv) : Kept (execXredOperand root src group op len data s) :=
  .next (.settleGroup (.updCore h))
theorem State.Inv.reduceResult {c : Nat} {d : Desc} {data : List DWord} (h : s.Inv) : (s.reduceResult c d data).Inv := by
  unfold State.reduceResult
  split
  · exact h
  · refine .ite (.wrRange h) ?_
    dsimp only
    split
    · exact .wrRange h
    · exact h
theorem execXredResult_kept {c group : Nat} {fault : Bool} {data : List DWord} (h : s.Inv) : Kept (execXredResult c group fault data s) := by
  unfold execXredResult
  refine .next ?_
  split
  · exact .ite (.updCore h) h
  · exact .updCore (.ite h (.reduceResult h))
theorem barrierJudge_keeps {c : Nat} {d : Desc} : (s.barrierJudge c d).Keeps :=
  .ite .bad (.ite .bad (.act (.local fun _ h => .send h)))
theorem execBarrier_kept {c : Nat} {e : List ReadErr} (h : s.Inv) : Kept (execBarrier c e s) := .next (.issue (fun _ _ => barrierJudge_keeps) h)
theorem State.Inv.wakeCounter {c k : Nat} (h : s.Inv) : (s.wakeCounter c k).Inv := .wr (.updCore h) ..
theorem State.Inv.addCounter {c k : Nat} {n : Word} (h : s.Inv) : (s.addCounter c k n).Inv :=
  .ite (.updCore (.wrBit (.wr h ..) ..)) (.wakeCounter (.wr h ..))
theorem cwaitJudge_keeps {c : Nat} {d : Desc} : (s.cwaitJudge c d).Keeps :=
  .ite .bad (.ite (.act (.local fun _ h => .ite (.wr h ..) h)) (.ite .late (.act (.local fun _ h => h))))
theorem execCwait_kept {c : Nat} {e : List ReadErr} (h : s.Inv) : Kept (execCwait c e s) := .next (.issue (fun _ _ => cwaitJudge_keeps) h)
theorem execCwaitTimeout_kept {c : Nat} (h : s.Inv) : Kept (execCwaitTimeout c s) := by
  unfold execCwaitTimeout
  refine .next ?_
  dsimp only
  split
  · exact .stepFault h
  · exact h
theorem cincJudge_keeps {c : Nat} {d : Desc} : (cincJudge c d).Keeps := by
  refine .ite .bad ?_
  split
  · exact .bad
  · exact .ite (.act (.local fun _ h => .addCounter h)) (.act (.local fun _ h => .sendFor h))
theorem execCinc_kept {c : Nat} {e : List ReadErr} (h : s.Inv) : Kept (execCinc c e s) := .next (.issue (fun _ _ => cincJudge_keeps) h)
theorem execCincArrive_kept {c counter : Nat} {inc : Word} (h : s.Inv) : Kept (execCincArrive c counter inc s) := .next (.ite (.addCounter h) h)

/-! ### Machine/Windows.lean -/

theorem State.Inv.landWrite {c : Nat} {w : Window} {start : Nat} {bs : List Byte} (h : s.Inv) : (s.landWrite c w start bs).Inv := by
  unfold State.landWrite
  dsimp only
  split
  · exact .addCounter (.updCore (.overwritten (.clearPoison (.wrMem h ..))))
  · exact .updCore (.overwritten (.clearPoison (.wrMem h ..)))
theorem State.Inv.refuseWrite {c stamp : Nat} (h : s.Inv) : (s.refuseWrite c stamp).Inv := .notify (.inc h ..)
theorem execWindowWriteArrive_kept {m : Packet} (h : s.Inv) : Kept (execWindowWriteArrive m s) := by
  unfold execWindowWriteArrive
  refine .next ?_
  refine .ite h ?_
  dsimp only
  split
  · exact .with_noc h
  · split
    · exact .landWrite (.with_noc h)
    · exact .refusePacket (.refuseWrite (.with_noc h))
theorem State.Inv.sendChunkAck {ep : Nat} {x : ChunkHead} {refused : Nat} (h : s.Inv) : (s.sendChunkAck ep x refused).Inv := .aditSend h
theorem State.Inv.chunkWritten {ep : Nat} {x : ChunkHead} (h : s.Inv) : (s.chunkWritten ep x).Inv := by
  unfold State.chunkWritten
  split
  · exact h
  · dsimp only
    split
    · exact .ite (.sendChunkAck (.updColl h)) (.updColl h)
    · exact .updColl h
theorem State.Inv.chunkRefused {ep : Nat} {x : ChunkHead} (h : s.Inv) : (s.chunkRefused ep x).Inv := by
  unfold State.chunkRefused
  split
  · exact .ite (.sendChunkAck h) h
  · exact h
theorem State.Inv.fabAnswer {ep e2e status : Nat} (h : s.Inv) : (s.fabAnswer ep e2e status).Inv := .aditSend (.updAdit h)
theorem State.Inv.fabTake {ep c : Nat} {w : Window} {f : Flit} (h : s.Inv) : (s.fabTake ep c w f).Inv :=
  .ite (.chunkWritten (.landWrite h)) (.fabAnswer (.landWrite h))
theorem State.Inv.fabRefuse {ep c : Nat} {f : Flit} (h : s.Inv) : (s.fabRefuse ep c f).Inv :=
  .ite (.chunkRefused (.refuseWrite h)) (.fabAnswer (.refuseWrite h))
theorem State.Inv.fabWrite {ep c : Nat} {f : Flit} (h : s.Inv) : (s.fabWrite ep c f).Inv := by
  unfold State.fabWrite
  split
  · exact .fabTake h
  · exact .fabRefuse h
  · exact .ite (.with_fab h) (.fabRefuse (.inc h ..))
theorem State.Inv.fabProcess {ep : Nat} {f : Flit} (h : s.Inv) : (s.fabProcess ep f).Inv := by
  unfold State.fabProcess
  refine .ite (.ite (.fabAnswer h) (.fabAnswer (.send h))) ?_
  refine .ite (.fabAnswer h) ?_
  refine .ite (.fabAnswer h) ?_
  split
  · exact .fabWrite h
  · exact .fabAnswer h
theorem State.Inv.drainWaiting {ep n : Nat} (h : s.Inv) : (s.drainWaiting ep n).Inv := by
  induction n generalizing s with
  | zero => exact h
  | succ n ih =>
    unfold State.drainWaiting
    split
    · exact .ite h (ih (.fabProcess (.updAdit h)))
    · exact h
theorem State.Inv.fabArrive {f : Flit} (h : s.Inv) : (s.fabArrive f).Inv := by
  unfold State.fabArrive
  refine .ite h ?_
  refine .ite (.ite (.updAdit (.setAdit h)) (.fabProcess (.setAdit h))) ?_
  refine .ite ?_ h
  dsimp only
  split
  · exact .aditSend (.inc h ..)
  · exact .inc h ..
theorem execWrite_kept {fl : Flit} (h : s.Inv) : Kept (execWrite fl s) := .next (.fabArrive (.takeFlit h))
theorem execCtl_kept {fl : Flit} (h : s.Inv) : Kept (execCtl fl s) := .next (.fabArrive (.takeFlit h))
theorem State.Inv.leaveHold {x : Held} {act : State → State} (hact : ∀ t, t.Inv → (act t).Inv) (h : s.Inv) : (s.leaveHold x act).Inv := by
  have h₁ := hact _ (h.with_fab (x := { s.fab with hold := s.fab.hold.erase x }))
  exact .ite h₁ (.drainWaiting h₁)
theorem execMcHoldExpiry_kept {idx : Nat} (h : s.Inv) : Kept (execMcHoldExpiry idx s) := by
  refine .next ?_
  split
  · refine .ite (.leaveHold (fun _ h => ?_) h) h
    split
    · exact .fabRefuse (.inc h ..)
    · exact h
  · exact h
theorem State.Inv.releaseHold {c : Nat} (h : s.Inv) : (s.releaseHold c).Inv := by
  unfold State.releaseHold
  refine .each (fun _ _ h => ?_) h _
  split
  · exact .ite h (.leaveHold (fun _ h => .fabTake h) h)
  · exact h
theorem execChunk_kept {fl : Flit} (h : s.Inv) : Kept (execChunk fl s) := by
  unfold execChunk
  refine .next ?_
  refine .ite (.takeFlit h) ?_
  split
  · refine .ite (.ite (.updColl (.takeFlit h)) (.takeFlit h)) ?_
    refine .ite (.ite (.sendChunkAck (.inc (.takeFlit h) ..)) (.takeFlit h)) ?_
    exact .ite (.takeFlit h) (.ite (.takeFlit h) (.fabWrite (.takeFlit h)))
  · exact .ite (.ite (.sendChunkAck (.inc (.takeFlit h) ..)) (.takeFlit h)) (.ite (.with_fab (.takeFlit h)) (.inc (.takeFlit h) ..))
  · exact .takeFlit h
theorem wopenJudge_keeps {c : Nat} {d : Desc} : (s.wopenJudge c d).Keeps := by
  unfold State.wopenJudge
  refine .ite .bad ?_
  split
  · exact .bad
  · exact .ite .bad (.ite .bad (.ite .late (.ite .late (.act (.local fun _ h => h)))))
theorem execWopen_kept {c : Nat} {e : List ReadErr} (h : s.Inv) : Kept (execWopen c e s) := .next (.issue (fun _ _ => wopenJudge_keeps) h)
theorem wcloseJudge_keeps {c : Nat} {d : Desc} : (s.wcloseJudge c d).Keeps := by
  unfold State.wcloseJudge
  refine .ite .bad ?_
  split
  · exact .bad
  · exact .act (.local fun _ h => h)
theorem execWclose_kept {c : Nat} {e : List ReadErr} (h : s.Inv) : Kept (execWclose c e s) := .next (.issue (fun _ _ => wcloseJudge_keeps) h)
theorem wwaitJudge_keeps {c : Nat} {d : Desc} : (s.wwaitJudge c d).Keeps := by
  unfold State.wwaitJudge
  refine .ite .bad ?_
  split
  · exact .bad
  · split
    · exact .late
    · exact .act (.local fun _ h => h)
theorem execWwait_kept {c : Nat} {e : List ReadErr} (h : s.Inv) : Kept (execWwait c e s) := .next (.issue (fun _ _ => wwaitJudge_keeps) h)
theorem execWindowExpiry_kept {c base : Nat} (h : s.Inv) : Kept (execWindowExpiry c base s) := by
  unfold execWindowExpiry
  refine .next ?_
  split
  · exact h
  · exact .ite (.inc (.updCore h) ..) h

/-! ### Machine/Coll.lean -/

theorem State.Inv.copyOwn {c : Coll} {phase : Nat} (h : s.Inv) : (s.copyOwn c phase).Inv := by
  unfold State.copyOwn
  split
  · exact h
  · split
    · exact h
    · dsimp only
      split
      · exact .landWrite h
      · exact .wrMem h ..
theorem State.Inv.startColl {src op : Nat} {cmd : List Byte} (h : s.Inv) : (s.startColl src op cmd).Inv := by
  unfold State.startColl
  extract_lets k code c fab s₁ g s₂ s₃ s₄
  have h₁ : s₁.Inv := .with_fab h
  refine .ite h (.ite (.refuse h₁ ..) ?_)
  have h₃ : s₃.Inv := .ite (.setGroup h₁) (.copyOwn (.setGroup h₁))
  refine .ite (.setGroup h₁) ?_
  split
  · exact .releaseHold (.fillColl h₃)
  · exact .fillColl h₃
theorem execAllReduce_kept {src : Nat} {cmd : List Byte} (h : s.Inv) : Kept (execAllReduce src cmd s) := .next (.startColl h)
theorem execAllGather_kept {src : Nat} {cmd : List Byte} (h : s.Inv) : Kept (execAllGather src cmd s) := .next (.startColl h)
theorem execReduceScatter_kept {src : Nat} {cmd : List Byte} (h : s.Inv) : Kept (execReduceScatter src cmd s) := .next (.startColl h)
theorem execAllToAll_kept {src : Nat} {cmd : List Byte} (h : s.Inv) : Kept (execAllToAll src cmd s) := .next (.startColl h)
theorem execMulticast_kept {src : Nat} {cmd : List Byte} (h : s.Inv) : Kept (execMulticast src cmd s) := .next (.startColl h)
theorem execChunkAck_kept {fl : Flit} (h : s.Inv) : Kept (execChunkAck fl s) := by
  unfold execChunkAck
  refine .next ?_
  dsimp only
  split
  · exact .takeFlit h
  · split
    · exact .takeFlit h
    · exact .ite (.takeFlit h) (.fillMember (.updColl (.takeFlit h)))
theorem execChunkTimeout_kept {id rank : Nat} (h : s.Inv) : Kept (execChunkTimeout id rank s) := by
  unfold execChunkTimeout
  refine .next ?_
  split
  · exact h
  · exact .ite h (.ite (.updColl h) (.resendMember h))
theorem execCollFold_kept {id : Nat} (h : s.Inv) : Kept (execCollFold id s) := by
  unfold execCollFold
  refine .next ?_
  split
  · exact h
  · refine .ite h ?_
    split
    · exact h
    · exact .ite (.updColl (.wrMem h ..)) (.fillColl (.copyOwn (.updColl (.updColl (.wrMem h ..)))))
theorem execMcResend_kept {id : Nat} (h : s.Inv) : Kept (execMcResend id s) := by
  unfold execMcResend
  refine .next ?_
  split
  · exact h
  · refine .ite h ?_
    refine .ite ?_ ?_
    · refine .each (fun _ _ h => ?_) (.updColl (.inc h ..)) _
      split
      · exact .each (fun _ _ h => .aditSend h) h _
      · exact h
    · refine .updColl ?_
      refine .each (fun _ _ h => ?_) (.fabNotice (.inc h ..)) _
      split
      · exact .aditSend h
      · exact h
theorem execCollComplete_kept {id : Nat} (h : s.Inv) : Kept (execCollComplete id s) := by
  unfold execCollComplete
  refine .next ?_
  split
  · exact h
  · next c _ =>
    extract_lets bs fab s₁ s₂
    refine .ite h ?_
    have h₂ : s₂.Inv := .inc64 (.with_fab h) ..
    split
    · exact h₂
    · extract_lets start s₃
      have h₃ : s₃.Inv := by
        dsimp only [s₃]
        split
        · exact .landWrite h₂
        · exact .refuseWrite h₂
      split
      · exact .ite (.addCounter h₃) h₃
      · exact h₃
theorem State.Inv.grpCommitSel (h : s.Inv) : (s.grpCommitSel).Inv := .ite (.refuse h ..) (.ite (.refuse h ..) (.ite (.refuse h ..) (.setGroup h)))
theorem execGrpCommit_kept {f : Nat} (h : s.Inv) : Kept (execGrpCommit f s) := .next (.ite (.grpCommitSel h) h)

/-! ### Machine/Complete.lean -/

theorem State.Inv.openWindow {c : Nat} {w : Window} {life : Option Nat} (h : s.Inv) : (s.openWindow c w life).Inv := .releaseHold (.updCore h)
theorem State.Inv.completeWork {c : Nat} {i : Issued} (h : s.Inv) : (s.completeWork c i).Inv := by
  unfold State.completeWork
  split
  · exact .updStope h
  · exact .openWindow h
  · exact .updCore h
  · exact h
theorem State.Inv.reissueCold {c : Nat} {r : Running} (h : s.Inv) : (s.reissueCold c r).Inv := .updCore (.refEnable (.inc (.dropStepOn h) ..))
theorem State.Inv.endWithCause {c : Nat} {i : Issued} {code : Nat} (h : s.Inv) : (s.endWithCause c i code).Inv := by
  unfold State.endWithCause
  split
  · exact .ite (.reissueCold h) (.issueFault h)
  · exact .issueFault h
theorem execDescComplete_kept {c idx : Nat} (h : s.Inv) : Kept (execDescComplete c idx s) := by
  unfold execDescComplete
  refine .next ?_
  split
  · exact h
  · split
    · exact .inc64 (.updCore (.completeWork h)) ..
    · exact .updCore (.completeWork h)
    · exact .endWithCause (.completeWork h)
    · exact h

/-! ### Machine/MergeOps.lean -/

theorem mma4Judge_keeps {c : Nat} {a b sa sb dst blocks fmt : Nat} {d : Desc} : (s.mma4Judge c a b sa sb dst blocks fmt d).Keeps := by
  unfold State.mma4Judge
  refine .judgeWith ?_
  split
  · exact keeps_none
  · split
    · exact keeps_some (.local fun _ h => .wrRange h)
    · exact keeps_none
theorem execMma4_kept {c : Nat} {e : List ReadErr} {a b sa sb dst blocks fmt : Nat} (h : s.Inv) : Kept (execMma4 c e a b sa sb dst blocks fmt s) :=
  .next (.issue (fun _ _ => mma4Judge_keeps) h)
theorem pquantJudge_keeps {c : Nat} {p ev dst keys blk : Nat} {d : Desc} : (s.pquantJudge c p ev dst keys blk d).Keeps := by
  unfold State.pquantJudge
  refine .judgeWith ?_
  split
  · exact keeps_none
  · split
    · exact keeps_some (.local fun _ h => .wrRange h)
    · exact keeps_none
theorem execPquant_kept {c : Nat} {e : List ReadErr} {p ev dst keys blk : Nat} (h : s.Inv) : Kept (execPquant c e p ev dst keys blk s) :=
  .next (.issue (fun _ _ => pquantJudge_keeps) h)
theorem pmergeJudge_keeps {c : Nat} {srcs : List Nat} {dst : Nat} {finish : Bool} {d : Desc} : (s.pmergeJudge c srcs dst finish d).Keeps := by
  unfold State.pmergeJudge
  refine .judgeWith ?_
  split
  · exact keeps_none
  · split
    · exact keeps_some (.local fun _ h => .ite (.wrRange (.ite (.notify h) h)) (.wrRange h))
    · exact keeps_none
theorem execPmerge_kept {c : Nat} {e : List ReadErr} {srcs : List Nat} {dst : Nat} {finish : Bool} (h : s.Inv) :
    Kept (execPmerge c e srcs dst finish s) :=
  .next (.issue (fun _ _ => pmergeJudge_keeps) h)
theorem candsJudge_keeps {c : Nat} {stream src first count dst : Nat} {d : Desc} : (s.candsJudge c stream src first count dst d).Keeps := by
  unfold State.candsJudge
  refine .judgeWith ?_
  split
  · exact keeps_none
  · split
    · exact keeps_some (.local fun _ h => .updStream (.wrRange h))
    · exact keeps_none
theorem execCands_kept {c : Nat} {e : List ReadErr} {stream src first count dst : Nat} (h : s.Inv) :
    Kept (execCands c e stream src first count dst s) :=
  .next (.ite (.updStream h) (.issue (fun _ _ => candsJudge_keeps) h))
theorem kvcmdJudge_keeps {c : Nat} {d : Desc} : (s.kvcmdJudge c d).Keeps := by
  unfold State.kvcmdJudge
  refine .ite .bad ?_
  split
  · exact .bad
  · exact .ite (.act .empty) (.ite .bad (.ite .late (.act (.local fun _ h => .with_kv h))))
theorem execKvcmd_kept {c : Nat} {e : List ReadErr} (h : s.Inv) : Kept (execKvcmd c e s) := .next (.issue (fun _ _ => kvcmdJudge_keeps) h)
theorem State.Inv.noteReply {c k : Nat} {r : KvReply} {b : Rng} (h : s.Inv) : (s.noteReply c k r b).Inv := .ite (.updCore h) (.ite (.updCore h) h)
theorem State.Inv.placeReply {c k : Nat} {r : KvReply} (h : s.Inv) : (s.placeReply c k r).Inv := by
  unfold State.placeReply
  refine .ite h ?_
  refine .ite (.sendPackets h) ?_
  split
  · exact .noteReply (.wrRange h)
  · exact h
theorem execKvcmdComplete_kept {c idx : Nat} (h : s.Inv) : Kept (execKvcmdComplete c idx s) := by
  unfold execKvcmdComplete
  refine .next ?_
  split
  · exact h
  · dsimp only
    split
    · exact .with_kv h
    · exact .placeReply (.updCore (.with_kv h))

/-! ### Machine/Streams.lean -/

theorem State.Inv.streamDone {i reason : Nat} {tag : DWord} (h : s.Inv) : (s.streamDone i reason tag).Inv := .streamEvent h
theorem State.Inv.endItem {i reason : Nat} (h : s.Inv) : (s.endItem i reason).Inv := .streamDone (.updStream h)
theorem State.Inv.appendNow {i : Nat} {tokens : List Nat} {noMatch pin : Bool} (h : s.Inv) : (s.appendNow i tokens noMatch pin).Inv := by
  unfold State.appendNow
  refine .updStream ?_
  split
  · exact h
  · refine .matchPrefix ?_
    exact h
theorem State.Inv.startItem {i budget : Nat} {tag : DWord} (h : s.Inv) : (s.startItem i budget tag).Inv := .updStream h
theorem State.Inv.workOn {i n : Nat} (h : s.Inv) : (s.workOn i n).Inv := by
  induction n generalizing s with
  | zero => exact h
  | succ n ih =>
    unfold State.workOn
    refine .ite h ?_
    split
    · exact .updStream h
    · exact .ite (.updStream h) (ih (.appendNow (.updStream h)))
    · next b tag _ _ =>
      extract_lets s₁ s₂
      have h₂ : s₂.Inv := .ite (.updStream h) (.startItem (.updStream h))
      split
      · exact ih (.endItem h₂)
      · exact h₂
theorem State.Inv.workAll {p : Stream → Bool} (h : s.Inv) : (s.workAll p).Inv := .each (fun _ _ h => .workOn h) h _
theorem execGenEvict_kept {bank : Bool} (h : s.Inv) : Kept (execGenEvict bank s) := .next (.workAll (.genEvict h))
theorem execHeldRecordWrite_kept {ring : Nat} (h : s.Inv) : Kept (execHeldRecordWrite ring s) := .next (.workAll (.heldWrite h))
theorem State.Inv.sharePage {parent child key : Nat} (h : s.Inv) : (s.sharePage parent child key).Inv := by
  unfold State.sharePage
  extract_lets region s₁ p
  have h₁ : s₁.Inv := .ite (.reloadPage h) h
  refine .ite h₁ ?_
  split
  · next he => exact .setPte (.of_snd (.shareFrame h₁) he)
  · next he => exact .of_snd (.shareFrame h₁) he
theorem State.Inv.openHere {i cls customer : Nat} {bank : Bool} {region : Nat} {parent : Option Nat} (h : s.Inv) :
    (s.openHere i cls customer bank region parent).Inv := by
  unfold State.openHere
  dsimp only
  split
  · exact .setStream h
  · exact .mirrorSlots (.each (fun _ _ h => .sharePage h) (.setStream h) _)
theorem State.Inv.openNow {i cls customer : Nat} {bank : Bool} {parent : Option Nat} (h : s.Inv) : (s.openNow i cls customer bank parent).Inv :=
  .announce (.openHere h)
theorem State.Inv.dropHolds {i : Nat} (h : s.Inv) : (s.dropHolds i).Inv := by
  unfold State.dropHolds
  exact .with_kv (.each (fun _ _ h => .updNode h) (.each (fun _ _ h => .releasePage h) (.rollbackStream h) _) _)
theorem State.Inv.freeContext {i : Nat} (h : s.Inv) : (s.freeContext i).Inv := .setStream h
theorem State.Inv.closeNow {i : Nat} {tag : DWord} (h : s.Inv) : (s.closeNow i tag).Inv := .announce (.freeContext (.streamDone (.dropHolds h)))
theorem State.Inv.parkRefused {i : Nat} (h : s.Inv) : (s.parkRefused i).Inv := .ite (.with_hf h) h
theorem State.Inv.parkHere {i place : Nat} {tag : DWord} (h : s.Inv) : (s.parkHere i place tag).Inv := by
  unfold State.parkHere
  exact .updStream (.ite h (.with_swap h))
theorem State.Inv.startPark {i target : Nat} {tag : DWord} (h : s.Inv) : (s.startPark i target tag).Inv := by
  unfold State.startPark
  split
  · exact .parkRefused (.refusedEvent h)
  · exact .announce (.parkHere h)
theorem State.Inv.pauseNow {r : Nat} (h : s.Inv) : (s.pauseNow r).Inv := .announce (.updStream h)
theorem State.Inv.boundary {i : Nat} (h : s.Inv) : (s.boundary i).Inv := by
  unfold State.boundary
  dsimp only
  split
  · exact .closeNow (.sendMaps h)
  · split
    · exact .workOn (.startPark (.updStream (.ite (.pauseNow (.sendMaps h)) (.sendMaps h))))
    · exact .workOn (.updStream (.ite (.pauseNow (.sendMaps h)) (.sendMaps h)))
theorem State.Inv.onStream {r op : Nat} {f : State → Item → State} (hf : ∀ t it, t.Inv → (f t it).Inv) (h : s.Inv) :
    (s.onStream r op f).Inv :=
  .onItem (fun _ => .ite (.refuseItem h) (hf _ _ (.consume h))) h
theorem execOpenStream_kept {r : Nat} (h : s.Inv) : Kept (execOpenStream r s) := by
  refine .next (.onItem (fun it => ?_) h)
  refine .ite (.refuseItem (.freeParent h)) ?_
  split
  · exact .refuseItem (.freeParent h)
  · exact .openNow (.consume h)
  · exact .ite (.updStream h) (.ite (.refuseItem (.allocFail (.updStream h))) (.openNow (.consume (.updStream h))))
theorem execCloseStream_kept {r : Nat} (h : s.Inv) : Kept (execCloseStream r s) :=
  .next (.onStream (fun _ _ h => .ite (.updStream h) (.closeNow h)) h)
theorem State.Inv.addWork {r : Nat} {w : Work} (h : s.Inv) : (s.addWork r w).Inv := .workOn (.updStream h)
theorem execAppendTokens_kept {r : Nat} (h : s.Inv) : Kept (execAppendTokens r s) := .next (.onStream (fun _ _ h => .addWork h) h)
theorem execGenerate_kept {r : Nat} (h : s.Inv) : Kept (execGenerate r s) := .next (.onStream (fun _ _ h => .addWork h) h)
theorem execPause_kept {r : Nat} (h : s.Inv) : Kept (execPause r s) := by
  refine .next (.onStream (fun t it h => ?_) h)
  split
  · exact .pauseNow h
  · exact .ite (.updStream h) (.pauseNow h)
  · exact h
theorem execResume_kept {r : Nat} (h : s.Inv) : Kept (execResume r s) :=
  .next (.onStream (fun _ _ h => .ite (.workOn (.announce (.updStream h))) h) h)
theorem State.Inv.sendCancel {i : Nat} (h : s.Inv) : (s.sendCancel i).Inv := .each (fun _ _ h => .send h) (.send (.with_wnd h)) _
theorem State.Inv.startCancel {i : Nat} {tag : DWord} {n : Nat} (h : s.Inv) : (s.startCancel i tag n).Inv := .announce (.sendCancel (.updStream h))
theorem execCancel_kept {r : Nat} (h : s.Inv) : Kept (execCancel r s) :=
  .next (.ite h (.onStream (fun _ _ h => .ite (.updStream h) (.ite h (.startCancel h))) h))
theorem execCancelAck_kept {stream : Nat} (h : s.Inv) : Kept (execCancelAck stream s) := by
  unfold execCancelAck
  refine .next ?_
  split
  · exact .ite h (.boundary (.streamDone (.updStream (.rollbackStream h))))
  · exact h
theorem execCtlCancel_kept {m : CtlMsg} (h : s.Inv) : Kept (execCtlCancel m s) :=
  onArrival_kept (fun _ h => .ite (.rollbackStream (.each (fun _ _ h => .dropStreamOn h) h _)) (.discardCtl h)) h
theorem execPark_kept {r : Nat} (h : s.Inv) : Kept (execPark r s) := by
  refine .next (.onItem (fun it => ?_) h)
  have hstart : ∀ target, (if s.hf.pwr = .drain ∨ (s.parkPlace r target).isNone then s.refuseItem r it rCapacity
      else if (s.stream r).flying.isSome ∨ (s.stream r).cancelTag.isSome then
        (s.consume r it).updStream r fun t => { t with wantPark := some (t.wantPark.getD (target, it.tag)) }
      else (s.consume r it).startPark r target it.tag).Inv :=
    fun _ => .ite (.refuseItem h) (.ite (.updStream (.consume h)) (.startPark (.consume h)))
  dsimp only
  split
  · exact .consume h
  · exact .consume h
  · exact hstart _
  · exact hstart _
  · exact hstart _
  · exact .refuseItem h
theorem execUnpark_kept {r : Nat} (h : s.Inv) : Kept (execUnpark r s) := by
  refine .next (.onItem (fun it => ?_) h)
  split
  · exact .refuseItem h
  · exact .ite (.refuseItem h) (.announce (.updStream (.consume h)))
  · exact .consume h
theorem execSetSampler_kept {r : Nat} (h : s.Inv) : Kept (execSetSampler r s) :=
  .next (.onItem (fun _ => .ite (.announce (.updStream (.consume h))) (.refuseItem h)) h)
theorem execSetMask_kept {r : Nat} (h : s.Inv) : Kept (execSetMask r s) :=
  .next (.onItem (fun _ => .ite (.announce (.updStream (.consume h))) (.refuseItem h)) h)
theorem execTokenEmbed_kept {x : NextToken} (h : s.Inv) : Kept (execTokenEmbed x s) := .next (.ite (.ite (.inc (.updStream h) ..) (.updStream h)) h)
theorem execTokenRelease_kept {stream : Nat} (h : s.Inv) : Kept (execTokenRelease stream s) := by
  unfold execTokenRelease
  refine .next ?_
  dsimp only
  split
  · exact .ite (.updStream h) h
  · exact h
theorem State.Inv.missDeadline {i : Nat} {fl : Flying} (h : s.Inv) : (s.missDeadline i fl).Inv := by
  unfold State.missDeadline
  split
  · exact .ite h (.ite (.streamEvent (.updStream (.updStream (.inc h ..)))) (.updStream (.inc h ..)))
  · exact h
theorem execDeadlineMiss_kept {stream : Nat} (h : s.Inv) : Kept (execDeadlineMiss stream s) := by
  unfold execDeadlineMiss
  refine .next ?_
  split
  · exact .missDeadline h
  · exact h
theorem State.Inv.maskEmpty {i : Nat} (h : s.Inv) : (s.maskEmpty i).Inv := .boundary (.endItem (.updStream (.rollbackStream (.dropStreamAll h))))
theorem State.Inv.sampleToken {i slot : Nat} {slices : List SliceCands} (h : s.Inv) : (s.sampleToken i slot slices).2.Inv := by
  unfold State.sampleToken
  refine .ite_snd (.snd (.updStream h)) ?_
  dsimp only
  split
  · exact .setStream h
  · split
    · exact .inc (.setStream h) ..
    · exact .ite (.inc (.inc64 (.setStream h) ..) ..) (.inc64 (.setStream h) ..)
theorem execTokenSample_kept {stream : Nat} {x : SlotCands} (h : s.Inv) : Kept (execTokenSample stream x s) := by
  refine .next (.ite h (.ite ?_ (.ite h ?_)))
  · split
    · refine .ite h ?_
      split
      · next he => exact .of_snd (.sampleToken h) he
      · next he => exact .maskEmpty (.of_snd (.sampleToken h) he)
      · next he => exact .updStream (.of_snd (.sampleToken h) he)
    · exact h
  · split
    · next he => exact .of_snd (.sampleToken h) he
    · next he => exact .tell (.updStream (.of_snd (.sampleToken h) he))
    · next he =>
      have h := State.Inv.of_snd (.sampleToken h) he
      exact .tell (.ite (.inc h ..) h)
theorem State.Inv.commitToken {i : Nat} {fl : Flying} {sampled : Option Nat} (h : s.Inv) : (s.commitToken i fl sampled).Inv := by
  unfold State.commitToken
  exact .updStream (.announce (.commitStream h))
theorem State.Inv.tokenOut {i slot : Nat} {tag data : DWord} (h : s.Inv) : (s.tokenOut i slot tag data).Inv := .ite (.updStream h) (.streamEvent h)
theorem State.Inv.commitSampled {i : Nat} {fl : Flying} {k : SampledTok} (h : s.Inv) : (s.commitSampled i fl k).Inv := by
  unfold State.commitSampled
  refine .ite ?_ ?_
  · refine .endItem ?_
    refine .ite ?_ (.tokenOut (.with_wnd (.updStream (.commitToken h))))
    refine .inc ?_ ..
    exact .tokenOut (.with_wnd (.updStream (.commitToken h)))
  · exact .ite (.endItem (.tokenOut (.with_wnd (.updStream (.commitToken h))))) (.tokenOut (.with_wnd (.updStream (.commitToken h))))
theorem execTokenReturn_kept {stream : Nat} {token : Option SampledTok} (h : s.Inv) : Kept (execTokenReturn stream token s) := by
  unfold execTokenReturn
  refine .next ?_
  split
  · refine .ite h ?_
    refine .ite (.boundary (.endItem (.commitToken (.missDeadline h)))) ?_
    split
    · exact .boundary (.commitSampled (.missDeadline h))
    · exact .ite h (.maskEmpty h)
  · exact h
theorem State.Inv.discardWork {stream : Nat} (h : s.Inv) : (s.discardWork stream).Inv :=
  .each (fun _ _ h => .updCore h) (.sendCancel (.rollbackStream (.dropStreamAll h))) _
theorem State.Inv.retryStream {stream : Nat} (h : s.Inv) : (s.retryStream stream).Inv := by
  unfold State.retryStream
  refine .ite (.tell (.discardWork h)) ?_
  split
  · exact .announce (.updStream (.discardWork h))
  · exact .discardWork h
theorem execTokenRetry_kept {x : FaultedToken} (h : s.Inv) : Kept (execTokenRetry x s) := .next (.ite (.retryStream h) h)
theorem State.Inv.flushMirror {i n : Nat} (h : s.Inv) : (s.flushMirror i n).Inv := by
  induction n generalizing s with
  | zero => exact h
  | succ n ih =>
    unfold State.flushMirror
    split
    · exact .ite (ih (.streamEvent (.updStream h))) h
    · exact h
theorem execMirrorAck_kept {stream slot dev : Nat} (h : s.Inv) : Kept (execMirrorAck stream slot dev s) := .next (.flushMirror (.updStream h))
theorem State.Inv.journalKey {i key : Nat} (h : s.Inv) : (s.journalKey i key).Inv := by
  unfold State.journalKey
  exact .updStream (.tookHandle (.wrMem h ..))
theorem execJournalPage_kept {stream layer head page : Nat} (h : s.Inv) : Kept (execJournalPage stream layer head page s) :=
  .next (.ite (.journalKey h) h)

/-! ### Machine/Decide.lean -/

theorem State.Inv.actCommit {i count : Nat} {tokens : List Nat} {sampled : Option Nat} {genCount : Nat} (h : s.Inv) :
    (s.actCommit i count tokens sampled genCount).Inv :=
  .updStream (.commitStream h)
theorem State.Inv.actCancel {i : Nat} (h : s.Inv) : (s.actCancel i).Inv := .updStream (.discardWork h)
theorem State.Inv.actMatched {i : Nat} {tokens ns : List Nat} (h : s.Inv) : (s.actMatched i tokens ns).Inv := by
  unfold State.actMatched
  refine .each (fun _ _ h => ?_) h _
  split
  · exact .commitMatched (.holdFrames h)
  · exact h
theorem State.Inv.actOnStream {i : Nat} {d : Decision} (h : s.Inv) : (s.actOnStream i d).Inv := by
  unfold State.actOnStream
  split
  · exact .freeContext (.dropHolds h)
  · exact .actCommit h
  · exact .actCancel h
  · exact .discardWork h
  · exact .updStream h
  · exact .updStream h
  · exact .parkHere h
  · exact .updStream h
  · exact .updStream h
  · exact .updStream h
  · exact .with_kv h
  · exact .actMatched h
  · exact .mapNode h
  · exact h
theorem State.Inv.actOn {d : Decision} (h : s.Inv) : (s.actOn d).Inv := by
  unfold State.actOn
  split
  · exact .ite (.openHere h) h
  · exact .setCls h
  · split
    · exact .unmapNode h
    · exact h
  · split
    · exact .ite h (.actOnStream h)
    · exact h
theorem State.Inv.learn {v : JobView} (h : s.Inv) : (s.learn v).Inv := .with_wnd (.each (fun _ _ h => .loseShard h) h _)
theorem execCommit_kept {src : Nat} {d : Decision} (h : s.Inv) : Kept (execCommit src d s) := by
  unfold execCommit
  refine .next ?_
  refine .ite (.ite (.actOn h) h) ?_
  split
  · exact .ite h (.commitStream h)
  · exact .learn h
  · exact h

/-! ### Machine/Spares.lean -/

theorem State.Inv.faultTokens {region : Nat} (h : s.Inv) : (s.faultTokens region).Inv :=
  .each (fun _ _ h => .each (fun _ _ h => .stepFault h) h _) h _
theorem State.Inv.sliceLost {region unit : Nat} (h : s.Inv) : (s.sliceLost region unit).Inv :=
  .holdShard (.with_tally (.report (.faultTokens (.each (fun _ _ h => .fenceFor h) h _))))
theorem State.Inv.setRefresh {key : Nat} {r : Refresh} (h : s.Inv) : (s.setRefresh key r).Inv := .with_swap h
theorem State.Inv.dropRefreshSpare {i p : Nat} (h : s.Inv) : (s.dropRefreshSpare i p).Inv := .ite h (.each (fun _ _ h => .ite (.setRefresh h) h) h _)
theorem State.Inv.assignSpare {i m : Nat} (h : s.Inv) : (s.assignSpare i m).Inv := by
  unfold State.assignSpare
  refine .ite h ?_
  split
  · exact .updStope (.dropRefreshSpare h)
  · exact .report h
theorem State.Inv.macroLost {i unitMac : Nat} (h : s.Inv) : (s.macroLost i unitMac).Inv := by
  unfold State.macroLost
  refine .ite h ?_
  dsimp only
  split
  · exact .ite (.assignSpare (.ite h (.updStope h))) (.sliceLost (.ite h (.updStope h)))
  · refine .ite (.sliceLost (.ite h (.updStope h))) ?_
    exact .ite (.assignSpare (.updStope (.ite h (.updStope h)))) (.assignSpare (.updStope (.ite h (.updStope h))))
  · exact .ite (.assignSpare (.report (.updStope (.ite h (.updStope h))))) (.assignSpare (.report (.updStope (.ite h (.updStope h)))))
theorem State.Inv.unitLost {unit : Nat} (h : s.Inv) : (s.unitLost unit).Inv := by
  unfold State.unitLost
  split
  · exact .macroLost h
  · exact .macroLost h
  · exact .sliceLost h
  · exact h
theorem State.Inv.countUnitAt {x : Nat × Nat × Nat} {unit cause detail : Nat} {again : Bool} (h : s.Inv) :
    (s.countUnitAt x unit cause detail again).Inv :=
  .ite (.unitLost (.countAt h)) (.countAt h)
theorem State.Inv.countUnit {unit cause detail : Nat} {again : Bool} (h : s.Inv) : (s.countUnit unit cause detail again).Inv := .countUnitAt h
theorem State.Inv.coreLost {unit detail : Nat} (h : s.Inv) : (s.coreLost unit detail).Inv := .declarePermanent (.countEvent h)
theorem execFaultNotice_kept {m : Notice} (h : s.Inv) : Kept (execFaultNotice m s) := by
  unfold execFaultNotice
  refine .ite (.next h) (.next ?_)
  have h₁ : (s.takeNotice m).Inv := .takeNotice h
  refine .reportAt (.ite (.coreLost ?_) ?_)
  · exact .ite (.replanCause (.ite (.countUnitAt h₁) h₁)) (.ite (.countUnitAt h₁) h₁)
  · exact .ite (.replanCause (.ite (.countUnitAt h₁) h₁)) (.ite (.countUnitAt h₁) h₁)

/-! ### Machine/Images.lean -/

theorem State.Inv.setRecord {bank : Bool} {r : Option Install} (h : s.Inv) : (s.setRecord bank r).Inv := .with_swap h
theorem State.Inv.swapDone {outcome code : Nat} (h : s.Inv) : (s.swapDone outcome code).Inv := .moduleEvent h
theorem State.Inv.endSwap {outcome code : Nat} (h : s.Inv) : (s.endSwap outcome code).Inv := by
  unfold State.endSwap
  extract_lets s₁ s₂ s₃ s₄ sw s₅
  have h₁ : s₁.Inv := .swapDone h
  have h₂ : s₂.Inv := .ite (.inc h₁ ..) h₁
  have h₃ : s₃.Inv := .ite (.refuse h₂ ..) h₂
  have h₄ : s₄.Inv := .ite (.inc h₃ ..) h₃
  have h₅ : s₅.Inv := .ite h₄ (.with_swap h₄)
  exact h₅.same
theorem State.Inv.restoreBank (h : s.Inv) : (s.restoreBank).Inv := by
  unfold State.restoreBank
  refine .ite h ?_
  refine .wr64 ?_ ..
  exact .setRecord (.each (fun _ _ h => .updStope h) h _)
theorem State.Inv.dropSwap {outcome code : Nat} (h : s.Inv) : (s.dropSwap outcome code).Inv := .endSwap (.ite (.setVslot h) (.restoreBank h))
theorem State.Inv.tellSwap {m : SwapMsg} (h : s.Inv) : (s.tellSwap m).Inv := .with_swap h
theorem State.Inv.setRows {i m : Nat} {x : Nat × Nat × Bool} (h : s.Inv) : (s.setRows i m x).Inv := .with_swap h
theorem State.Inv.swapAdvance (h : s.Inv) : (s.swapAdvance).Inv := by
  unfold State.swapAdvance
  split
  · exact h
  · refine .ite (.ite (.endSwap (.setRecord h)) h) ?_
    exact .ite h (.ite (.tellSwap (.with_swap h)) (.ite (.tellSwap (.with_swap (.setRecord h))) (.ite (.setRecord h) h)))
theorem State.Inv.macroProgrammed {i m : Nat} {bank failed : Bool} {sl : ImageSlice} (h : s.Inv) : (s.macroProgrammed i m bank failed sl).Inv :=
  .ite (.macroLost (.ite (.report (.wr (.updStope h) ..)) (.wr (.updStope h) ..))) (.ite (.report (.wr (.updStope h) ..)) (.wr (.updStope h) ..))
theorem State.Inv.refreshDone {i m : Nat} {bank : Bool} (h : s.Inv) : (s.refreshDone i m bank).Inv := by
  unfold State.refreshDone
  dsimp only
  split
  · exact .updStope (.setRefresh h)
  · exact .updStope (.setRefresh h)
  · exact .updStope (.setRefresh h)
  · exact .updStope (.setRefresh h)
  · exact .setRefresh h
theorem State.Inv.countCells {i m row : Nat} {failing : List Nat} (h : s.Inv) : (s.countCells i m row failing).Inv := by
  unfold State.countCells
  split
  · exact .countEvent h
  · exact h
theorem State.Inv.swapRow {i m : Nat} {bank : Bool} {row : Nat} {failing : List Nat} {sl : ImageSlice} (h : s.Inv) :
    (s.swapRow i m bank row failing sl).Inv := by
  unfold State.swapRow
  refine .ite ?_ ?_
  · refine .swapAdvance ?_
    refine .macroProgrammed ?_
    exact .ite (.setRows (.with_swap (.updStope (.charge h)))) (.countCells (.setRows (.with_swap (.updStope (.charge h)))))
  · exact .ite (.setRows (.with_swap (.updStope (.charge h)))) (.countCells (.setRows (.with_swap (.updStope (.charge h)))))
theorem State.Inv.refreshRow {i m : Nat} {bank : Bool} {row : Nat} {failing : List Nat} {sl : ImageSlice} (h : s.Inv) :
    (s.refreshRow i m bank row failing sl).Inv := by
  unfold State.refreshRow
  refine .ite ?_ ?_
  · exact .refreshDone (.macroProgrammed (.ite (.setRefresh (.updStope (.charge h))) (.countCells (.setRefresh (.updStope (.charge h))))))
  · exact .ite (.setRefresh (.updStope (.charge h))) (.countCells (.setRefresh (.updStope (.charge h))))
theorem State.Inv.holdTemp {ns : List Nat} (h : s.Inv) : (s.holdTemp ns).Inv := .same (.draw h)
theorem State.Inv.restartRow {job : RowJob} {i m : Nat} {bank : Bool} (h : s.Inv) : (s.restartRow job i m bank).Inv := by
  unfold State.restartRow
  split
  · exact .setRows h
  · exact .setRefresh h
theorem execProgramRow_kept {i m : Nat} {bank : Bool} {row : Nat} {failing : List Nat} (h : s.Inv) :
    Kept (execProgramRow i m bank row failing s) := by
  unfold execProgramRow
  refine .next ?_
  dsimp only
  split
  · refine .ite (.ite (.holdTemp h) h) ?_
    exact .ite h (.ite (.ite (.ite (.refEnable h) h) (.restartRow (.ite (.refEnable h) h))) (.ite (.swapRow h) (.ite h (.refreshRow h))))
  · exact h

/-! ### Machine/Swaps.lean -/

theorem State.Inv.swapRefuse {code : Nat} (h : s.Inv) : (s.swapRefuse code).Inv := .ite (.inc (.refuse h ..) ..) (.refuse h ..)
theorem State.Inv.beginSwap {mode : Nat} {v : Word} (h : s.Inv) : (s.beginSwap mode v).Inv := .with_swap h
theorem State.Inv.markDone (h : s.Inv) : (s.markDone).Inv := .each (fun _ _ h => .each (fun _ _ h => .setRows h) h _) h _
theorem State.Inv.openSource {sl : ImageSlice} (h : s.Inv) : (s.openSource sl).Inv :=
  .ite (.ite (.with_swap h) (.dropSwap h)) (.ite (.with_swap h) (.ite (.with_swap h) (.ite (.dropSwap (.report h)) (.dropSwap h))))
theorem State.Inv.swapStart {mode : Nat} {v : Word} {sl : ImageSlice} (h : s.Inv) : (s.swapStart mode v sl).Inv := by
  unfold State.swapStart
  extract_lets src t inside vs t₁ sw₁ sw₂ t₂ t₃ sw₃ t₄
  refine .ite (.swapRefuse h) (.ite (.swapRefuse h) (.ite (.swapRefuse h) ?_))
  have h₁ : t.Inv := .beginSwap h
  have h₃ : t₃.Inv := .ite (.with_swap (.setVslot h₁)) (.ite (.swapAdvance (.markDone (.with_swap h₁))) (.openSource h₁))
  have h₄ : t₄.Inv := .ite (.with_swap h₃) h₃
  exact .ite h₄ (.holdTemp h₄)
theorem State.Inv.endJob {outcome code : Nat} (h : s.Inv) : (s.endJob outcome code).Inv :=
  .ite (.with_swap (.announce h)) (.dropSwap (.with_swap (.announce h)))
theorem State.Inv.tryCommit (h : s.Inv) : (s.tryCommit).Inv := by
  unfold State.tryCommit
  split
  · exact .ite h (.ite (.endJob h) (.same h))
  · exact h
theorem State.Inv.startRollback (h : s.Inv) : (s.startRollback).Inv := .with_swap (.announce h)
theorem State.Inv.abortSwap (h : s.Inv) : (s.abortSwap).Inv := by
  unfold State.abortSwap
  have h₁ : (s.announce (.swapEnd rNone)).Inv := .announce h
  split
  · exact h
  · exact h
  · exact .ite (.ite (.startRollback h) (.tellSwap h)) (.ite h (.dropSwap (.ite h₁.same h)))
  · exact .ite (.ite (.startRollback h) (.tellSwap h)) (.dropSwap h)
  · exact .ite h (.dropSwap h)
theorem State.Inv.swapCmdWrite {f : Nat} {v : Word} {sl : ImageSlice} (h : s.Inv) : (s.swapCmdWrite f v sl).Inv := by
  unfold State.swapCmdWrite
  refine .ite h ?_
  dsimp only
  split
  · exact .storeReg h
  · exact .abortSwap (.storeReg h)
  · exact .swapRefuse (.storeReg h)
  · exact .swapRefuse (.storeReg h)
  · exact .swapStart (.storeReg h)
theorem execStage_kept {f : Nat} {v : Word} {sl : ImageSlice} (h : s.Inv) : Kept (execStage f v sl s) := .next (.swapCmdWrite h)
theorem execLoad_kept {f : Nat} {v : Word} {sl : ImageSlice} (h : s.Inv) : Kept (execLoad f v sl s) := .next (.swapCmdWrite h)
theorem execShadow_kept {f : Nat} {v : Word} {sl : ImageSlice} (h : s.Inv) : Kept (execShadow f v sl s) := .next (.swapCmdWrite h)
theorem execInPlace_kept {f : Nat} {v : Word} {sl : ImageSlice} (h : s.Inv) : Kept (execInPlace f v sl s) := .next (.swapCmdWrite h)
theorem execSwapAbort_kept {f : Nat} {v : Word} (h : s.Inv) : Kept (execSwapAbort f v s) := .next (.swapCmdWrite h)
theorem State.Inv.commitWrite {f : Nat} (h : s.Inv) : (s.commitWrite f).Inv := .ite (.tryCommit (.with_swap h)) h
theorem State.Inv.commitAbort {f : Nat} (h : s.Inv) : (s.commitAbort f).Inv := .ite (.ite (.abortSwap h) (.abortSwap (.with_swap (.announce h)))) h
theorem execSwapCommit_kept {f : Nat} (h : s.Inv) : Kept (execSwapCommit f s) := .next (.commitWrite h)
theorem execSwapCommitAbort_kept {f : Nat} (h : s.Inv) : Kept (execSwapCommitAbort f s) := .next (.commitAbort h)
theorem State.Inv.writeCopies {n : Nat} {sl : ImageSlice} (h : s.Inv) : (s.writeCopies n sl).Inv := .inc64 (.setVslot h) ..
theorem State.Inv.recordSlot {n : Nat} {sl : ImageSlice} (h : s.Inv) : (s.recordSlot n sl).Inv := .setVslot h
theorem execStageComplete_kept (h : s.Inv) : Kept (execStageComplete s) := by
  unfold execStageComplete
  refine .next ?_
  split
  · exact .ite h (.ite (.dropSwap h) (.ite (.endSwap (.recordSlot (.writeCopies h))) (.dropSwap (.setVslot (.writeCopies h)))))
  · exact h
theorem State.Inv.discardRows (h : s.Inv) : (s.discardRows).Inv := .ite h (.with_swap (.each (fun _ _ h => .updStope h) h _))
theorem State.Inv.markCopy {n : Nat} {one ok : Bool} (h : s.Inv) : (s.markCopy n one ok).Inv := .setVslot h
theorem execImageStreamEnd_kept (h : s.Inv) : Kept (execImageStreamEnd s) := by
  unfold execImageStreamEnd
  refine .next ?_
  dsimp only
  split
  · refine .ite h ?_
    refine .ite ?_ ?_
    · exact .ite (.dropSwap h) (.ite (.dropSwap h) (.swapAdvance (.with_swap (.ite (.recordSlot (.writeCopies h)) h))))
    · refine .ite (.swapAdvance (.with_swap (.markCopy h))) ?_
      refine .ite (.with_swap (.discardRows (.markCopy h))) ?_
      exact .ite (.dropSwap (.report (.discardRows (.markCopy h)))) (.dropSwap (.discardRows (.markCopy h)))
  · exact h
theorem execCopyRepair_kept {slot : Nat} (h : s.Inv) : Kept (execCopyRepair slot s) := by
  unfold execCopyRepair
  refine .next ?_
  refine .ite h ?_
  split
  · exact .report (.inc64 (.inc (.setVslot h) ..) ..)
  · exact h
theorem execTempResume_kept (h : s.Inv) : Kept (execTempResume s) := by
  unfold execTempResume
  refine .next ?_
  split
  · exact .ite (.swapAdvance (.same h)) h
  · exact h
theorem State.Inv.ownLayerFail {layer : Nat} (h : s.Inv) : (s.ownLayerFail layer).Inv := .ite (.startRollback (.report h)) (.tellSwap (.report h))
theorem State.Inv.rollbackLost (h : s.Inv) : (s.rollbackLost).Inv := .endSwap (.sliceLost h)
theorem execTempWaitExpiry_kept (h : s.Inv) : Kept (execTempWaitExpiry s) := by
  unfold execTempWaitExpiry
  refine .next ?_
  split
  · refine .ite ?_ h
    split
    · exact .ownLayerFail (.same h)
    · exact .rollbackLost h
    · exact .dropSwap h
  · exact h
theorem execSwapReport_kept {dev report gen : Nat} (h : s.Inv) : Kept (execSwapReport dev report gen s) :=
  .next (.ite h (.ite (.ite h (.tryCommit (.with_swap h))) (.ite (.ite h (.endJob h)) (.ite (.with_swap h) h))))
theorem execSwapTimeoutExpiry_kept (h : s.Inv) : Kept (execSwapTimeoutExpiry s) := by
  unfold execSwapTimeoutExpiry
  refine .next ?_
  split
  · exact .ite (.endJob (.report h)) h
  · exact h
theorem execJobBarrierDrained_kept (h : s.Inv) : Kept (execJobBarrierDrained s) := .next (.ite (.with_swap (.announce h)) h)
theorem execFlip_kept (h : s.Inv) : Kept (execFlip s) := by
  unfold execFlip
  refine .next ?_
  refine .ite ?_ ?_
  · refine .ite ?_ ?_
    · exact .with_swap (.with_swap (.each (fun _ _ h => .wrBit h ..) h _))
    · exact .tellSwap (.with_swap (.each (fun _ _ h => .wrBit h ..) h _))
  · exact h
theorem execLayerDone_kept {dev layer : Nat} (h : s.Inv) : Kept (execLayerDone dev layer s) := by
  unfold execLayerDone
  refine .next ?_
  refine .ite ?_ ?_
  · exact .with_swap (.ite (.tellSwap (.ite (.with_swap h) h)) (.ite (.with_swap h) h))
  · exact .ite (.tellSwap (.ite (.with_swap h) h)) (.ite (.with_swap h) h)
theorem execLayerFail_kept {dev layer : Nat} (h : s.Inv) : Kept (execLayerFail dev layer s) :=
  .next (.ite (.ite (.ownLayerFail h) h) (.ite (.startRollback h) h))
theorem execRollback_kept (h : s.Inv) : Kept (execRollback s) := by
  unfold execRollback
  refine .next ?_
  refine .ite h ?_
  dsimp only
  split
  · exact .swapAdvance (.with_swap (.inc h ..))
  · exact .ite (.endSwap (.setRecord (.inc h ..))) (.rollbackLost (.inc h ..))
theorem execJobBarrierRelease_kept (h : s.Inv) : Kept (execJobBarrierRelease s) := by
  have h₁ : (s.announce .release).Inv := .announce h
  exact .next (.ite (.same h₁) h)
theorem State.Inv.installSlice {sl : ImageSlice} (h : s.Inv) : (s.installSlice sl).Inv := by
  unfold State.installSlice
  refine .with_wnd ?_
  refine .wr ?_ ..
  refine .wr ?_ ..
  refine .wr ?_ ..
  exact .each (fun _ _ h => .calGainsWrite h) (.each (fun _ _ h => .wrMem h ..) (.each (fun _ _ h => .ite h (.installPlan h)) h _) _) _
theorem State.Inv.completeBank {sl : ImageSlice} (h : s.Inv) : (s.completeBank sl).Inv := by
  unfold State.completeBank
  refine .each (fun _ _ h => ?_) ?_ _
  · exact .calDue (.updStope h)
  · refine .wr64 ?_ ..
    refine .wr64 ?_ ..
    exact .with_kv (.installSlice (.setRecord h))
theorem execSwapComplete_kept (h : s.Inv) : Kept (execSwapComplete s) := by
  unfold execSwapComplete
  refine .next ?_
  dsimp only
  split
  · exact .ite (.endSwap (.completeBank h)) h
  · exact h
theorem State.Inv.startRefresh {i m : Nat} {bank : Bool} (h : s.Inv) : (s.startRefresh i m bank).Inv := by
  unfold State.startRefresh
  refine .ite (.setRefresh h) ?_
  split
  · exact .setRefresh (.updStope h)
  · exact .ite (.setRefresh (.updStope h)) (.report (.setRefresh h))
theorem execBankRefresh_kept {i m : Nat} {bank : Bool} (h : s.Inv) : Kept (execBankRefresh i m bank s) := .next (.ite (.startRefresh h) h)
theorem execRefreshRetry_kept {i m : Nat} {bank : Bool} (h : s.Inv) : Kept (execRefreshRetry i m bank s) := .next (.ite (.startRefresh h) h)
theorem execSpareProgram_kept {i p : Nat} {bank : Bool} (h : s.Inv) : Kept (execSpareProgram i p bank s) := by
  unfold execSpareProgram
  extract_lets x s₁ t y
  refine .next (.ite h ?_)
  have h₁ : s₁.Inv := by
    refine .ite ?_ h
    split
    · exact .updStope h
    · exact h
  exact .ite (.setRefresh h₁) h₁
theorem execSpareMapIn_kept {i p : Nat} (h : s.Inv) : Kept (execSpareMapIn i p s) := .next (.ite (.report (.updStope h)) h)

/-! ### Machine/Margin.lean -/

theorem State.Inv.writeFloors {fl : List Nat} (h : s.Inv) : (s.writeFloors fl).Inv := .each (fun _ _ h => .wr (.wr h ..) ..) h _
theorem State.Inv.setFloors (h : s.Inv) : (s.setFloors).Inv := by
  unfold State.setFloors
  refine .each (fun _ _ h => ?_) h _
  split
  · exact .ite (.report (.with_hf h)) (.with_hf h)
  · exact h
theorem State.Inv.adopt (h : s.Inv) : (s.adopt).Inv := .writeFloors (.with_hf (.setFloors (.each (fun _ _ h => .updStope h) h _)))
theorem execMarginReplan_kept {orders : List Nat} (h : s.Inv) : Kept (execMarginReplan orders s) :=
  .next (.ite h (.ite (.replanBounds (.each (fun _ _ h => .calDue h) (.adopt h) _)) (.each (fun _ _ h => .calDue h) (.adopt h) _)))
theorem execReplanDaily_kept (h : s.Inv) : Kept (execReplanDaily s) := .next (.ite (.replanCause h) h)
theorem State.Inv.hfCtrlWrite {f : Nat} {v : Word} (h : s.Inv) : (s.hfCtrlWrite f v).Inv := .ite (.ite (.replanCause (.storeReg h)) (.storeReg h)) h
theorem execReplan_kept {f : Nat} (h : s.Inv) : Kept (execReplan f s) := .next (.hfCtrlWrite h)

/-! ### Machine/Storage.lean -/

theorem State.Inv.redgrpWrite {f i g : Nat} {v : Word} (h : s.Inv) : (s.redgrpWrite f i g v).Inv := by
  unfold State.redgrpWrite
  refine .ite h ?_
  refine .ite ?_ ?_
  · refine .refuse ?_ ..
    exact .ite (.rgWrite h) h
  · refine .updCore ?_
    refine .wr ?_ ..
    exact .ite (.rgWrite h) h
theorem execRedgrpWrite_kept {f i g : Nat} {v : Word} (h : s.Inv) : Kept (execRedgrpWrite f i g v s) := .next (.redgrpWrite h)
theorem State.Inv.protWrite {f c : Nat} {v : Word} (h : s.Inv) : (s.protWrite f c v).Inv := .ite h (.updCore (.storeReg h))
theorem execSpProtWrite_kept {f c : Nat} {v : Word} (h : s.Inv) : Kept (execSpProtWrite f c v s) := .next (.protWrite h)
theorem State.Inv.oldCheck {c : Nat} {correct : Bool} {x : ReadErr} (h : s.Inv) : (s.oldCheck c correct x).Inv := by
  unfold State.oldCheck
  refine .ite ?_ (.setPoison (.inc h ..))
  split
  · exact .inc h ..
  · exact .inc h ..
  · exact .inc h ..
  · exact .setPoison (.inc h ..)
theorem execReprotRegionDone_kept {c region : Nat} {e : List ReadErr} (h : s.Inv) : Kept (execReprotRegionDone c region e s) :=
  .next (.ite (.each (fun _ _ h => .oldCheck h) (.updCore h) _) h)
theorem execScrubRead_kept {c word : Nat} {e : List ReadErr} (h : s.Inv) : Kept (execScrubRead c word e s) := by
  unfold execScrubRead
  refine .next ?_
  extract_lets t due flat s₁
  refine .ite ?_ h
  have h₁ : s₁.Inv := by
    refine .each (fun _ _ h => ?_) h _
    split
    · exact .inc h ..
    · exact .inc h ..
    · exact .setPoison (.inc h ..)
  split
  · exact .updCore h₁
  · exact .wr64 (.updCore h₁) ..
theorem State.Inv.progReload {c : Nat} (h : s.Inv) : (s.progReload c).Inv := .unfence (.updCore h)
theorem execProgReloaded_kept {f c : Nat} (h : s.Inv) : Kept (execProgReloaded f c s) := .next (.ite (.progReload h) h)
theorem State.Inv.clearGranule {g : Nat} (h : s.Inv) : (s.clearGranule g).Inv := .with_mem h (Table.wfBy_filter _ h.mem)
theorem State.Inv.poolGrantWrite {f m half : Nat} {v : Word} (h : s.Inv) : (s.poolGrantWrite f m half v).Inv := by
  unfold State.poolGrantWrite
  refine .ite h ?_
  refine .ite (.refuse h ..) ?_
  refine .wr ?_ ..
  exact .each (fun _ _ h => .clearGranule h) h _
theorem execPoolGrantWrite_kept {f m half : Nat} {v : Word} (h : s.Inv) : Kept (execPoolGrantWrite f m half v s) := .next (.poolGrantWrite h)
theorem State.Inv.poolProtWrite {f m half : Nat} {v : Word} (h : s.Inv) : (s.poolProtWrite f m half v).Inv := .ite h (.updCore (.wr h ..))
theorem execPoolProtWrite_kept {f m half : Nat} {v : Word} (h : s.Inv) : Kept (execPoolProtWrite f m half v s) := .next (.poolProtWrite h)
theorem State.Inv.poolRoWrite {f m half : Nat} {v : Word} (h : s.Inv) : (s.poolRoWrite f m half v).Inv := .ite h (.updCore (.wr h ..))
theorem execPoolRoWrite_kept {f m half : Nat} {v : Word} (h : s.Inv) : Kept (execPoolRoWrite f m half v s) := .next (.poolRoWrite h)

/-! ### Machine/Seams.lean -/

theorem State.Inv.localResult {i : Nat} {r : Nat × Nat × List Nat} (h : s.Inv) : (s.localResult i r).Inv := by
  unfold State.localResult
  dsimp only
  split
  · exact .inc64 (.charge h) ..
  · exact .each (fun _ _ h => .countEvent h) (.report (.inc (.inc (.charge h) ..) ..)) _
  · exact .each (fun _ _ h => .countEvent h) (.report (.inc (.charge h) ..)) _
theorem State.Inv.suspectBank {i m : Nat} {bank : Bool} (h : s.Inv) : (s.suspectBank i m bank).Inv := .ite (.updStope h) h
theorem execLocalise_kept {i k : Nat} {results : List (Nat × Nat × List Nat)} (h : s.Inv) : Kept (execLocalise i k results s) := by
  unfold execLocalise
  refine .next ?_
  refine .ite h ?_
  dsimp only
  split
  · exact .each (fun _ _ h => .suspectBank h) (.updStope (.each (fun _ _ h => .localResult h) h _)) _
  · exact .macroLost (.updStope (.each (fun _ _ h => .suspectBank h) (.updStope (.each (fun _ _ h => .localResult h) h _)) _))
  · exact .sliceLost (.each (fun _ _ h => .suspectBank h) (.updStope (.each (fun _ _ h => .localResult h) h _)) _)
theorem execSeamSuspectTimeout_kept {i k : Nat} (h : s.Inv) : Kept (execSeamSuspectTimeout i k s) := .next (.ite (.updStope h) h)
theorem execStandbyReport_kept {dev lost : Nat} (h : s.Inv) : Kept (execStandbyReport dev lost s) := .next (.ite (.with_wnd h) h)
theorem State.Inv.checkCtrlWrite {f i : Nat} {v : Word} (h : s.Inv) : (s.checkCtrlWrite f i v).Inv :=
  .ite h (.ite (.setBounds (.updStope (.storeReg h))) (.updStope (.storeReg h)))
theorem execCheckClear_kept {f i : Nat} {v : Word} (h : s.Inv) : Kept (execCheckClear f i v s) := .next (.checkCtrlWrite h)
theorem execCanaryModeWrite_kept {f i : Nat} {v : Word} (h : s.Inv) : Kept (execCanaryModeWrite f i v s) := .next (.checkCtrlWrite h)
theorem State.Inv.loadPrograms {c : Nat} (h : s.Inv) : (s.loadPrograms c).Inv := .each (fun _ _ h => .wrMem h ..) h _
theorem State.Inv.takeover {c host cause : Nat} (h : s.Inv) : (s.takeover c host cause).Inv := by
  unfold State.takeover
  refine .ite ?_ ?_
  · exact .recompute (.report (.unfence (.loadPrograms (.updCore (.each (fun _ _ h => .retryStream h) (.fenceFor h) _)))))
  · exact .report (.unfence (.loadPrograms (.updCore (.each (fun _ _ h => .retryStream h) (.fenceFor h) _))))
theorem execBuddyTakeover_kept {i : Nat} (h : s.Inv) : Kept (execBuddyTakeover i s) := .next (.ite h (.ite (.sliceLost (.updCore h)) (.takeover h)))
theorem execMergeTakeover_kept {m : Nat} (h : s.Inv) : Kept (execMergeTakeover m s) := .next (.ite h (.ite (.sliceLost (.updCore h)) (.takeover h)))
theorem execAssayDue_kept {kind unit : Nat} {bank : Bool} (h : s.Inv) : Kept (execAssayDue kind unit bank s) := by
  unfold execAssayDue
  refine .next ?_
  dsimp only
  split
  · exact .ite (.orderAssay h) h
  · exact h
theorem execAssayDeferExpiry_kept {kind unit : Nat} {bank : Bool} (h : s.Inv) : Kept (execAssayDeferExpiry kind unit bank s) :=
  .next (.ite (.report (.with_tally h)) h)
theorem State.Inv.assayEnd {d : Due} {outcome col : Nat} (h : s.Inv) : (s.assayEnd d outcome col).Inv := .with_tally h
theorem State.Inv.assayRetry {d : Due} {charged : List Nat} {col : Nat} (h : s.Inv) : (s.assayRetry d charged col).Inv := by
  unfold State.assayRetry
  refine .report ?_
  refine .inc ?_ ..
  exact .with_tally h
theorem State.Inv.assayJudge {d : Due} {charged : List Nat} {col : Nat} (h : s.Inv) : (s.assayJudge d charged col).Inv := by
  unfold State.assayJudge
  dsimp only
  split
  · exact .assayEnd (.inc64 h ..)
  · exact .assayEnd (.countUnit (.inc h ..))
  · exact .assayRetry h
  · refine .assayEnd ?_
    refine .ite (.each (fun _ _ h => .countUnit h) (.report (.inc h ..)) _) ?_
    exact .each (fun _ _ h => .suspectBank h) (.each (fun _ _ h => .countUnit h) (.report (.inc h ..)) _) _
theorem State.Inv.driftResult {d : Due} {rows : List Nat} {sl : ImageSlice} (h : s.Inv) : (s.driftResult d rows sl).Inv := by
  unfold State.driftResult
  extract_lets i m key cells s₁
  have h₁ : s₁.Inv := .updStope (.with_freeCtr h)
  split
  · exact h₁
  · extract_lets drift s₂ s₃ r s₄
    have h₂ : s₂.Inv := .ite h₁ (.updStope h₁)
    have h₃ : s₃.Inv := .ite (.replanCause h₂) h₂
    have h₄ : s₄.Inv := .ite (.setRefresh h₃) h₃
    exact .ite h₃ (.report (.replanCause h₄))
theorem execAssaySlot_kept {kind unit : Nat} {bank : Bool} {failing rows : List Nat} (h : s.Inv) :
    Kept (execAssaySlot kind unit bank failing rows s) := by
  unfold execAssaySlot
  refine .next ?_
  split
  · exact h
  · next d _ =>
    extract_lets i s₁ s₂ own s₃ s₄
    refine .ite (.refEnable h) (.ite h ?_)
    have h₂ : s₂.Inv := .ite (.inc (.charge h) ..) (.charge h)
    split
    · refine .assayEnd ?_
      dsimp only [s₄]
      split
      · exact .driftResult (.inc64 h₂ ..)
      · exact .inc64 h₂ ..
    · exact .assayJudge h₂
    · exact .ite (.assayEnd (.inc64 h₂ ..)) (.assayEnd (.countUnit (.inc h₂ ..)))
    · exact .assayJudge h₂
theorem State.Inv.assayCmdWrite {f : Nat} {v : Word} (h : s.Inv) : (s.assayCmdWrite f v).Inv :=
  .ite h (.ite (.storeReg h) (.ite (.refuse (.storeReg h) ..) (.ite (.refuse (.storeReg h) ..) (.with_tally (.orderAssay (.storeReg h))))))
theorem execAssayGo_kept {f : Nat} {v : Word} (h : s.Inv) : Kept (execAssayGo f v s) := .next (.assayCmdWrite h)
theorem State.Inv.writeTally {units : List Nat} (h : s.Inv) : (s.writeTally units).Inv := .with_tally h
theorem execTallyWrite_kept (h : s.Inv) : Kept (execTallyWrite s) := .next (.ite h (.writeTally h))
theorem State.Inv.tallyCtrlWrite {f : Nat} {v : Word} (h : s.Inv) : (s.tallyCtrlWrite f v).Inv :=
  .ite h (.ite (.writeTally (.ite (.with_tally (.storeReg h)) (.storeReg h))) (.ite (.with_tally (.storeReg h)) (.storeReg h)))
theorem execClearTransient_kept {f : Nat} (h : s.Inv) : Kept (execClearTransient f s) := .next (.tallyCtrlWrite h)
theorem execFlush_kept {f : Nat} (h : s.Inv) : Kept (execFlush f s) := .next (.tallyCtrlWrite h)
theorem State.Inv.tallyFindWrite {f : Nat} {v : Word} (h : s.Inv) : (s.tallyFindWrite f v).Inv := by
  unfold State.tallyFindWrite
  refine .ite h ?_
  split
  · exact .with_tally (.wr h ..)
  · exact .with_tally h
theorem execTallyFind_kept {f : Nat} {v : Word} (h : s.Inv) : Kept (execTallyFind f v s) := .next (.tallyFindWrite h)
theorem State.Inv.coalesced {x : Nat × Nat × Nat × Nat} (h : s.Inv) : (s.coalesced x).Inv := by
  unfold State.coalesced
  exact .hostReport (.ringAlarm (.logRecord (.inc (.nextSeq h) ..)))
theorem execAlarmSecond_kept (h : s.Inv) : Kept (execAlarmSecond s) := .next (.ite (.with_tally (.each (fun _ _ h => .coalesced h) h _)) h)

/-! ### Machine/Thermal.lean -/

theorem State.Inv.breakSensor {n : Nat} (h : s.Inv) : (s.breakSensor n).Inv := .countUnit (.report (.setSensor h))
theorem State.Inv.senseOne {res : Nat → ℤ} {n : Nat} {reading : ℤ} (h : s.Inv) : (s.senseOne res n reading).Inv :=
  .ite (.breakSensor (.setSensor h)) (.setSensor h)
theorem State.Inv.refitNow (h : s.Inv) : (s.refitNow).Inv := by
  unfold State.refitNow
  refine .ite ?_ ?_
  · refine .report ?_
    refine .report ?_
    refine .inc ?_ ..
    exact .with_hf (.draw h)
  · refine .report ?_
    refine .inc ?_ ..
    exact .with_hf (.draw h)
theorem State.Inv.watchMedian (h : s.Inv) : (s.watchMedian).Inv := by
  unfold State.watchMedian
  refine .ite (.with_hf h) ?_
  split
  · exact .with_hf h
  · exact .ite (.refitNow h) h
theorem State.Inv.tempDue {i : Nat} (h : s.Inv) : (s.tempDue i).Inv := .ite (.calDue h) h
theorem State.Inv.watchWindow (h : s.Inv) : (s.watchWindow).Inv := .ite (.with_swap h) h
theorem State.Inv.setInlet {inlet : ℤ} (h : s.Inv) : (s.setInlet inlet).Inv := .ite (.report (.with_hf h)) (.with_hf h)
theorem execThermalUpdate_kept {model power sensors : List ℤ} {inlet : ℤ} (h : s.Inv) : Kept (execThermalUpdate model power sensors inlet s) := by
  unfold execThermalUpdate
  refine .next ?_
  refine .ite h ?_
  refine .watchWindow ?_
  refine .each (fun _ _ h => ?_) (.each (fun _ _ h => .setNode h) (.watchMedian (.each (fun _ _ h => .senseOne h) (.setInlet (.perMark h)) _)) _) _
  exact .tempDue h
theorem execSensorRejoin_kept {n : Nat} (h : s.Inv) : Kept (execSensorRejoin n s) := .next (.ite (.setSensor h) h)
theorem State.Inv.thCtrlWrite {f : Nat} {v : Word} (h : s.Inv) : (s.thCtrlWrite f v).Inv := .ite (.ite (.refitNow (.storeReg h)) (.storeReg h)) h
theorem execRefit_kept {f : Nat} (h : s.Inv) : Kept (execRefit f s) := .next (.thCtrlWrite h)
theorem State.Inv.throttleRecord {power : Bool} {phase reduction target node : Nat} (h : s.Inv) :
    (s.throttleRecord power phase reduction target node).Inv :=
  .moduleEvent h
theorem State.Inv.throttle {node : Option Nat} {reduction : Nat} (h : s.Inv) : (s.throttle node reduction).Inv := by
  unfold State.throttle
  refine .throttleRecord ?_
  split
  · exact .with_hf h
  · refine .inc ?_ ..
    exact .with_hf h
theorem State.Inv.assertAt {node which : Nat} (h : s.Inv) : (s.assertAt node which).Inv := .setNode h
theorem execThresholdAssert_kept {node which reduction : Nat} (h : s.Inv) : Kept (execThresholdAssert node which reduction s) := by
  unfold execThresholdAssert
  refine .next ?_
  dsimp only
  split
  · refine .ite h ?_
    split
    · exact .report (.inc (.assertAt h) ..)
    · exact .throttle (.assertAt h)
    · exact .assertAt h
  · exact h
theorem execThresholdDeassert_kept {node which : Nat} (h : s.Inv) : Kept (execThresholdDeassert node which s) := by
  unfold execThresholdDeassert
  refine .next ?_
  dsimp only
  split
  · exact .ite h (.ite (.with_hf (.setNode h)) (.setNode h))
  · exact h
theorem execPowerOverLimit_kept (h : s.Inv) : Kept (execPowerOverLimit s) := by
  unfold execPowerOverLimit
  refine .next ?_
  split
  · exact .ite h (.throttle h)
  · exact h
theorem State.Inv.enforce {e : Episode} (h : s.Inv) : (s.enforce e).Inv := by
  unfold State.enforce
  exact .report (.throttleRecord (.with_hf h))
theorem execGraceExpiry_kept (h : s.Inv) : Kept (execGraceExpiry s) := by
  unfold execGraceExpiry
  refine .next ?_
  split
  · exact .ite h (.ite (.enforce h) (.with_hf h))
  · exact h
theorem execThrottleMark_kept (h : s.Inv) : Kept (execThrottleMark s) := by
  unfold execThrottleMark
  refine .next ?_
  split
  · refine .ite h ?_
    refine .ite ?_ (.with_hf h)
    split
    · exact .with_wnd (.with_hf h)
    · exact .with_hf h
  · exact h
theorem execThrottleEnd_kept (h : s.Inv) : Kept (execThrottleEnd s) := by
  unfold execThrottleEnd
  refine .next ?_
  split
  · exact .ite h (.with_hf (.throttleRecord h))
  · exact h
theorem execThrottleReleaseStep_kept (h : s.Inv) : Kept (execThrottleReleaseStep s) := by
  unfold execThrottleReleaseStep
  have h₁ : (s.perMark perRelease.1).Inv := .perMark h
  refine .next (.ite h ?_)
  split
  · exact .with_hf h
  · exact h₁.same
theorem execVcoreStep_kept (h : s.Inv) : Kept (execVcoreStep s) := .next (.ite h (.with_hf (.perMark h)))
theorem execVcorePolicyTick_kept (h : s.Inv) : Kept (execVcorePolicyTick s) := .next (.ite h (.with_hf (.perMark h)))
theorem State.Inv.endWindow {measured : List Nat} (h : s.Inv) : (s.endWindow measured).Inv := .same h
theorem State.Inv.judgePower {demand : ℚ} (h : s.Inv) : (s.judgePower demand).Inv := by
  unfold State.judgePower
  dsimp only
  split
  · exact .ite (.enforce (.with_hf (.with_hf h))) (.with_hf (.with_hf h))
  · exact .with_hf h
theorem execEnergyWindow_kept {measured : List Nat} {moduleW staticW pth : Nat} (h : s.Inv) :
    Kept (execEnergyWindow measured moduleW staticW pth s) := by
  unfold execEnergyWindow
  refine .next ?_
  refine .ite h ?_
  refine .charge ?_
  refine .with_hf ?_
  refine .judgePower ?_
  refine .inc64 ?_ ..
  exact .with_hf (.endWindow (.perMark h))
theorem State.Inv.publishPg (h : s.Inv) : (s.publishPg).Inv := .ite (.recompute (.wr h ..)) (.wr h ..)
theorem execPgRecompute_kept (h : s.Inv) : Kept (execPgRecompute s) := .next (.ite h (.ite (.publishPg (.perMark h)) (.perMark h)))
theorem State.Inv.pwrLimitWrite {f : Nat} {v : Word} (h : s.Inv) : (s.pwrLimitWrite f v).Inv :=
  .ite (.ite (.publishPg (.storeReg h)) (.storeReg h)) h
theorem execPwrLimitWrite_kept {f : Nat} {v : Word} (h : s.Inv) : Kept (execPwrLimitWrite f v s) := .next (.pwrLimitWrite h)

/-! ### Machine/Power.lean -/

theorem State.Inv.cutSwap (h : s.Inv) : (s.cutSwap).Inv := .ite h (.dropSwap h)
theorem State.Inv.railsOff (h : s.Inv) : (s.railsOff).Inv := by
  unfold State.railsOff
  extract_lets s₁ s₂ s₃ s₄ s₅
  have h₂ : s₂.Inv := .each (fun _ _ h => .updStope h) (.cutSwap h) _
  have h₃ : s₃.Inv := .each (fun _ _ h => .updCore h) h₂ _
  have h₄ : s₄.Inv := .each (fun _ _ h => .updPort h) h₃ _
  have h₅ : s₅.Inv := .each (fun _ _ h => .updAdit h) h₄ _
  clear_value s₅
  exact ⟨Table.wfBy_filter _ h₅.mem, h₅.regs, Table.wfBy_filter _ h₅.ptes, h₅.classes, List.Pairwise.nil⟩
theorem State.Inv.removeStatusTo {dst : Nat} (h : s.Inv) : (s.removeStatusTo dst).Inv := .ringSend h
theorem State.Inv.rmvReady (h : s.Inv) : (s.rmvReady).Inv := .ite (.removeStatusTo (.same h)) h
theorem State.Inv.enterAux (h : s.Inv) : (s.enterAux).Inv := by
  unfold State.enterAux
  have h₁ : s.railsOff.Inv := .railsOff h
  exact .rmvReady (.each (fun _ _ h => .wr h ..) h₁.same _)
theorem State.Inv.failRemoval {code : Nat} (h : s.Inv) : (s.failRemoval code).Inv := .ite (.with_hf h) h
theorem State.Inv.fallToAux {code : Nat} (h : s.Inv) : (s.fallToAux code).Inv := .enterAux (.failRemoval h)
theorem State.Inv.restart (h : s.Inv) : (s.restart).Inv := by
  have h₁ : s.cutSwap.Inv := .cutSwap h
  exact ⟨Table.wfBy_filter _ h₁.mem, Table.wfBy_filter _ h₁.regs, rfl, rfl, List.Pairwise.nil⟩
theorem State.Inv.moduleReset (h : s.Inv) : (s.moduleReset).Inv := .ite h (.with_hf (.restart (.inc h ..)))
theorem execBusbarLoss_kept (h : s.Inv) : Kept (execBusbarLoss s) := .next (.ite h (.restart (.writeTally h)))
theorem execBrownout_kept {mv : Nat} (h : s.Inv) : Kept (execBrownout mv s) :=
  .next (.ite h (.ite (.with_hf (.inc (.wr h ..) ..)) (.fallToAux (.with_hf (.inc (.wr h ..) ..)))))
theorem execBusbarStable_kept {mv : Nat} (h : s.Inv) : Kept (execBusbarStable mv s) := .next (.ite h (.with_hf (.wr h ..)))
theorem execPhaseFault_kept {phase : Nat} (h : s.Inv) : Kept (execPhaseFault phase s) := by
  unfold execPhaseFault
  refine .next ?_
  refine .ite h ?_
  refine .ite ?_ (.countEvent (.report (.with_hf h)))
  refine .fallToAux ?_
  refine .inc ?_ ..
  exact .countEvent (.report (.with_hf h))
theorem State.Inv.endRemoval (h : s.Inv) : (s.endRemoval).Inv := .ite h (.same h)
theorem State.Inv.latchUp (h : s.Inv) : (s.latchUp).Inv := by
  unfold State.latchUp
  split
  · exact h
  · exact h
  · exact .ite (.with_hf (.endRemoval h)) (.same (.endRemoval h))
  · exact .with_hf (.endRemoval h)
theorem State.Inv.latchDown (h : s.Inv) : (s.latchDown).Inv := by
  unfold State.latchDown
  split
  · exact h
  · exact .with_hf h
  · exact .same (.abortSwap h)
  · exact .with_hf h
theorem State.Inv.rmvProgress (h : s.Inv) : (s.rmvProgress).Inv := .ite (.latchDown (.with_hf h)) h
theorem State.Inv.rmvParkEnd {i cause : Nat} (h : s.Inv) : (s.rmvParkEnd i cause).Inv := .ite (.with_hf h) (.rmvProgress h)
theorem State.Inv.pwrReqWrite {f : Nat} {v : Word} (h : s.Inv) : (s.pwrReqWrite f v).Inv := by
  unfold State.pwrReqWrite
  refine .ite ?_ h
  split
  · exact .latchUp h
  · exact .latchDown h
  · exact h
theorem execPwrReqUp_kept {f : Nat} (h : s.Inv) : Kept (execPwrReqUp f s) := .next (.pwrReqWrite h)
theorem execPwrReqDown_kept {f : Nat} (h : s.Inv) : Kept (execPwrReqDown f s) := .next (.pwrReqWrite h)
theorem State.Inv.takeEntries {es : List TallyEntry} (h : s.Inv) : (s.takeEntries es).Inv := .with_tally h
theorem State.Inv.loadTally {read0 read1 : Bool} (h : s.Inv) : (s.loadTally read0 read1).Inv := by
  unfold State.loadTally
  refine .ite ?_ ?_
  · exact .ite (.report (.takeEntries (.with_tally (.with_tally h)))) (.takeEntries (.with_tally h))
  · refine .ite (.takeEntries (.with_tally (.with_tally h))) ?_
    exact .ite (.takeEntries (.with_tally (.with_tally h))) (.takeEntries (.with_tally h))
theorem State.Inv.selfTest (h : s.Inv) : (s.selfTest).Inv := .each (fun _ _ h => .sendFence h) (.with_mem h (Table.wfBy_filter _ h.mem)) _
theorem State.Inv.stackUntrained {k : Nat} (h : s.Inv) : (s.stackUntrained k).Inv := by
  unfold State.stackUntrained
  exact .report (.wr (.wr h ..) ..)
theorem State.Inv.checkRecords (h : s.Inv) : (s.checkRecords).Inv := by
  unfold State.checkRecords
  refine .each (fun _ _ h => ?_) h _
  split
  · exact .ite h (.each (fun _ _ h => .updStope h) h _)
  · exact h
theorem State.Inv.beginCal (h : s.Inv) : (s.beginCal).Inv := .each (fun _ _ h => .refEnable (.fenceFor h)) (.with_hf h) _
theorem State.Inv.beginUp {n : Nat} (h : s.Inv) : (s.beginUp n).Inv := by
  unfold State.beginUp
  dsimp only
  split
  · exact .with_hf (.with_hf h)
  · exact .with_hf (.with_hf h)
  · exact .beginCal (.with_hf h)
  · exact .with_hf h
theorem State.Inv.orderRefs (h : s.Inv) : (s.orderRefs).Inv := .same h
theorem State.Inv.calProgress (h : s.Inv) : (s.calProgress).Inv := .ite (.orderRefs (.each (fun _ _ h => .unfence h) h _)) h
theorem State.Inv.finishUp {n ok : Nat} (h : s.Inv) : (s.finishUp n ok).Inv := by
  unfold State.finishUp
  split
  · exact .with_hf h
  · exact .with_hf (.loadTally h)
  · exact .selfTest h
  · exact .each (fun _ _ h => .stackUntrained h) (.with_hf h) _
  · exact .checkRecords (.with_hf h)
  · exact .with_edge h
  · exact .with_hf h
  · exact h
theorem State.Inv.beginDown {n : Nat} (h : s.Inv) : (s.beginDown n).Inv := .with_hf h
theorem execPowerUpSequence_kept {ok : Nat} (h : s.Inv) : Kept (execPowerUpSequence ok s) := by
  unfold execPowerUpSequence
  refine .next ?_
  refine .ite (.beginUp h) ?_
  refine .ite h ?_
  refine .ite (.ite (.calProgress h) h) ?_
  refine .ite ?_ ?_
  · exact .ite (.latchDown (.finishUp (.ite (.calProgress h) h))) (.finishUp (.ite (.calProgress h) h))
  · exact .ite (.beginDown (.finishUp (.ite (.calProgress h) h))) (.beginUp (.finishUp (.ite (.calProgress h) h)))
theorem State.Inv.endDrain (h : s.Inv) : (s.endDrain).Inv := .beginDown (.ite (.with_hf h) h)
theorem execDrainEnd_kept (h : s.Inv) : Kept (execDrainEnd s) := .next (.ite (.endDrain h) h)
theorem State.Inv.rollTokens (h : s.Inv) : (s.rollTokens).Inv := .each (fun _ _ h => .updStream (.rollbackStream (.dropStreamAll h))) h _
theorem execDrainTimeoutExpiry_kept (h : s.Inv) : Kept (execDrainTimeoutExpiry s) := .next (.ite (.endDrain (.rollTokens h)) h)
theorem State.Inv.fenceAll (h : s.Inv) : (s.fenceAll).Inv :=
  .each (fun _ _ h => .refStop (.calStop h)) (.each (fun _ _ h => .fenceFor h) (.each (fun _ _ h => .fenceFor h) h _) _) _
theorem State.Inv.doDown {n : Nat} (h : s.Inv) : (s.doDown n).Inv := by
  unfold State.doDown
  split
  · exact .fenceAll h
  · exact .with_hf h
  · exact .writeTally h
  · exact .with_hf h
  · exact .with_hf h
  · exact .enterAux h
  · exact h
theorem execPowerDownSequence_kept (h : s.Inv) : Kept (execPowerDownSequence s) :=
  .next (.ite (.rmvProgress h) (.ite (.beginDown (.doDown h)) (.doDown h)))
theorem execThermalTrip_kept {comparator : Nat} (h : s.Inv) : Kept (execThermalTrip comparator s) := by
  unfold execThermalTrip
  refine .next ?_
  refine .ite h ?_
  refine .ite (.with_hf h) ?_
  refine .report ?_
  refine .inc ?_ ..
  refine .wrBit ?_ ..
  exact .fallToAux (.with_hf h)
theorem execTripRearm_kept {comparator : Nat} (h : s.Inv) : Kept (execTripRearm comparator s) := .next (.with_hf h)

/-! ### Machine/Module.lean -/

theorem State.Inv.fnReset {f : Nat} (h : s.Inv) : (s.fnReset f).Inv := by
  unfold State.fnReset
  refine .each (fun _ _ h => ?_)
    (.ite (.resetRing (.each (fun _ _ h => .resetRing h) (.updFn h) _)) (.each (fun _ _ h => .resetRing h) (.updFn h) _)) _
  exact .setEvr (.resetEvr h)
theorem execVfFlr_kept {vf : Nat} (h : s.Inv) : Kept (execVfFlr vf s) := .next (.ite (.fnReset h) h)
theorem execPfReset_kept (h : s.Inv) : Kept (execPfReset s) := .next (.each (fun _ _ h => .updFn (.fnReset h)) h _)
theorem execModuleReset_kept (h : s.Inv) : Kept (execModuleReset s) := .next (.moduleReset h)
theorem execD3hot_kept {f : Nat} (h : s.Inv) : Kept (execD3hot f s) := .next (.updFn h)
theorem execD0_kept {f : Nat} (h : s.Inv) : Kept (execD0 f s) := .next (.updFn h)
theorem State.Inv.negotiateWrite {f : Nat} (h : s.Inv) : (s.negotiateWrite f).Inv := .ite (.updFn h) (.ite (.updFn h) (.updFn h))
theorem execNegotiate_kept {f : Nat} (h : s.Inv) : Kept (execNegotiate f s) := .next (.ite (.negotiateWrite h) h)
theorem State.Inv.parkForRemoval {i : Nat} (h : s.Inv) : (s.parkForRemoval i).Inv := by
  unfold State.parkForRemoval
  dsimp only
  split
  · exact .ite (.updStream h) (.startPark h)
  · exact .ite (.updStream h) (.startPark h)
  · exact .ite (.updStream h) (.startPark h)
  · exact h
theorem State.Inv.rmvPrepare {force : Bool} (h : s.Inv) : (s.rmvPrepare force).Inv :=
  .ite (.with_hf h) (.ite (.latchDown (.with_hf h)) (.rmvProgress (.ite (.each (fun _ _ h => .parkForRemoval h) (.with_hf h) _) (.with_hf h))))
theorem State.Inv.rmvCancelNow (h : s.Inv) : (s.rmvCancelNow).Inv := .ite (.latchUp (.endRemoval h)) h
theorem State.Inv.rmvWrite {f : Nat} {v : Word} (h : s.Inv) : (s.rmvWrite f v).Inv :=
  .ite h (.ite (.rmvCancelNow (.ite (.rmvPrepare h) h)) (.ite (.rmvPrepare h) h))
theorem execRmvPrep_kept {f : Nat} (h : s.Inv) : Kept (execRmvPrep f s) := .next (.rmvWrite h)
theorem execRmvPrepForce_kept {f : Nat} (h : s.Inv) : Kept (execRmvPrepForce f s) := .next (.rmvWrite h)
theorem execRmvCancel_kept {f : Nat} (h : s.Inv) : Kept (execRmvCancel f s) := .next (.rmvWrite h)
theorem execAttnButton_kept (h : s.Inv) : Kept (execAttnButton s) := .next (.rmvPrepare h)
theorem State.Inv.vauxUp {straps : Nat} (h : s.Inv) : (s.vauxUp straps).Inv := .ite h (.ite (.latchUp (.same h)) (.same h))
theorem execStrapLatch_kept {straps : Nat} (h : s.Inv) : Kept (execStrapLatch straps s) := .next (.vauxUp h)
theorem execStrapChange_kept {straps : Nat} (h : s.Inv) : Kept (execStrapChange straps s) := .next (.ite h (.with_edge h))
theorem execPrsntMate_kept {straps : Nat} (h : s.Inv) : Kept (execPrsntMate straps s) := .next (.vauxUp (.with_edge h))
theorem execPrsntBreak_kept (h : s.Inv) : Kept (execPrsntBreak s) := .next (.with_edge h)
theorem execPwrEnRise_kept (h : s.Inv) : Kept (execPwrEnRise s) := .next (.latchUp (.with_edge h))
theorem execPwrEnFall_kept (h : s.Inv) : Kept (execPwrEnFall s) := .next (.latchDown (.with_edge h))
theorem State.Inv.sendHello {port : Nat} (h : s.Inv) : (s.sendHello port).Inv := .with_edge h
theorem State.Inv.sendHellos (h : s.Inv) : (s.sendHellos).Inv := .with_edge (.sendHello (.sendHello h))
theorem execBypassClose_kept (h : s.Inv) : Kept (execBypassClose s) := .next (.with_edge h)
theorem execBypassOpen_kept {mismatch : Bool} (h : s.Inv) : Kept (execBypassOpen mismatch s) :=
  .next (.ite h (.ite (.with_edge h) (.flushAlarms (.sendHellos (.with_edge h)))))
theorem execBypassRetry_kept (h : s.Inv) : Kept (execBypassRetry s) := by
  unfold execBypassRetry
  refine .next ?_
  split
  · exact .ite (.with_edge h) h
  · exact h
theorem State.Inv.timeStep {offset : ℤ} (h : s.Inv) : (s.timeStep offset).Inv := .ite (.with_now (.inc h ..)) h
theorem execSync_kept {port : Nat} {offset : ℤ} {delay gm : Nat} {rate : ℤ} (h : s.Inv) : Kept (execSync port offset delay gm rate s) :=
  .next (.ite h (.with_edge (.wr64 (.wr (.wr (.wr (.timeStep h) ..) ..) ..) ..)))
theorem execSyncLoss_kept (h : s.Inv) : Kept (execSyncLoss s) := .next (.ite (.with_edge h) h)
theorem State.Inv.timeCtrlWrite {f : Nat} {v : Word} (h : s.Inv) : (s.timeCtrlWrite f v).Inv :=
  .ite (.ite (.storeReg h) (.with_edge (.storeReg h))) h

/-! ### Machine/Park.lean -/

theorem State.Inv.parkDone {i flags code : Nat} {digest : List Byte} (h : s.Inv) : (s.parkDone i flags code digest).Inv := .ite h (.streamEvent h)
theorem State.Inv.afterMove {i : Nat} (h : s.Inv) : (s.afterMove i).Inv := by
  unfold State.afterMove
  dsimp only
  split
  · exact .ite (.workOn (.updStream h)) (.startCancel (.updStream h))
  · exact .workOn (.updStream h)
theorem State.Inv.movePage {key : Nat} (h : s.Inv) : (s.movePage key).Inv :=
  .ite h (.ite (.setPte (.dropRef (.tookHandle (.wrMem h ..)))) (.tookHandle (.wrMem h ..)))
theorem State.Inv.freeReserve {i : Nat} (h : s.Inv) : (s.freeReserve i).Inv := .with_swap h
theorem execParkComplete_kept {stream : Nat} {manifests : List (Nat × List Byte)} (h : s.Inv) : Kept (execParkComplete stream manifests s) := by
  unfold execParkComplete
  refine .next ?_
  extract_lets t pages crcs gen small digest s₁ s₂ s₃
  refine .ite h ?_
  have h₁ : s₁.Inv := .ite (.each (fun _ _ h => .journalKey h) h _) h
  have h₂ : s₂.Inv := .ite h₁ (.each (fun _ _ h => .movePage h) h₁ _)
  have h₃ : s₃.Inv := .ite (.inc64 h₂ ..) (.ite (.freeReserve h₂) h₂)
  exact .rmvParkEnd (.afterMove (.parkDone (.updStream (.draw h₃))))
theorem execParkFail_kept {stream : Nat} (h : s.Inv) : Kept (execParkFail stream s) :=
  .next (.ite h (.rmvParkEnd (.afterMove (.parkDone (.notify (.updStream (.freeReserve h)))))))
theorem execUnparkVerify_kept {stream : Nat} {crcs : List (Nat × Nat)} {manifests : List (Nat × List Byte)} (h : s.Inv) :
    Kept (execUnparkVerify stream crcs manifests s) := by
  unfold execUnparkVerify
  refine .next ?_
  refine .ite h ?_
  refine .ite (.afterMove (.parkDone (.notify (.updStream h)))) ?_
  refine .afterMove ?_
  exact .parkDone (.updStream (.ite (.with_kv (.each (fun _ _ h => .reloadPage h) h _)) (.each (fun _ _ h => .reloadPage h) h _)))

/-! ### Machine/Winder.lean -/

theorem State.Inv.noteRemaining {r : StepReq} (h : s.Inv) : (s.noteRemaining r).Inv := by
  unfold State.noteRemaining
  split
  · exact .updStream h
  · exact h
theorem State.Inv.holdStream {risky near : List Nat} {i : Nat} (h : s.Inv) : (s.holdStream risky near i).Inv :=
  .ite (.inc (.updStream h) ..) (.updStream h)
theorem State.Inv.updateHolds (h : s.Inv) : (s.updateHolds).Inv := .each (fun _ _ h => .holdStream h) h _
theorem State.Inv.issueStep {r : StepReq} (h : s.Inv) : (s.issueStep r).Inv := by
  unfold State.issueStep
  refine .inc64 ?_ ..
  refine .updCore ?_
  split
  · exact .with_wnd (.with_wnd (.each (fun _ _ h => .charge h) h _))
  · exact .with_wnd (.each (fun _ _ h => .charge h) h _)
theorem execWinderIssue_kept {ready : List StepReq} (h : s.Inv) : Kept (execWinderIssue ready s) := by
  unfold execWinderIssue
  refine .next ?_
  dsimp only
  split
  · refine .ite ?_ ?_
    · exact .issueStep (.updateHolds (.each (fun _ _ h => .noteRemaining h) (.with_wnd h) _))
    · exact .holdEnergy (.updateHolds (.each (fun _ _ h => .noteRemaining h) (.with_wnd h) _))
  · exact .updateHolds (.each (fun _ _ h => .noteRemaining h) (.with_wnd h) _)

/-! ### Machine/HostWrite.lean -/

theorem State.Inv.readReg {f off : Nat} (h : s.Inv) : (s.readReg f off).2.Inv := by
  unfold State.readReg
  split
  · exact .with_edge h
  · split
    · split
      · exact .with_edge h
      · exact h
    · exact h
theorem State.Inv.setPair {f lo v : Nat} (h : s.Inv) : (s.setPair f lo v).Inv :=
  .ite (.with_wnd h) (.ite (.ite h (.setEvr h)) (.ite (.ite (.claim (.updStream h)) h) (.ite (.wr64 h ..) h)))
theorem State.Inv.holdLow {f off : Nat} {v : Word} (h : s.Inv) : (s.holdLow f off v).Inv := .ite h (.with_edge h)
theorem State.Inv.commitHigh {f off : Nat} {v : Word} (h : s.Inv) : (s.commitHigh f off v).Inv := .setPair (.with_edge h)
theorem State.Inv.fieldsOf {f off : Nat} {old v : Word} (h : s.Inv) : (s.fieldsOf f off old v).2.Inv := by
  unfold State.fieldsOf
  exact .ite (.rgWrite h) h
theorem State.Inv.pageCtrlWrite {f off : Nat} {v : Word} (h : s.Inv) : (s.pageCtrlWrite f off v).Inv := by
  unfold State.pageCtrlWrite
  refine .ite ?_ ?_
  · exact .hostFence (.ite (.askQuiesce (.pageEnable h)) (.dropQuiesce (.pageEnable h)))
  · exact .hostUnfence (.ite (.askQuiesce (.pageEnable h)) (.dropQuiesce (.pageEnable h)))
theorem State.Inv.ctrlCfgWrite {f : Nat} {v : Word} (h : s.Inv) : (s.ctrlCfgWrite f v).Inv := by
  unfold State.ctrlCfgWrite
  split
  next he => exact .with_wnd (.of_snd (.fieldsOf h) he)
theorem State.Inv.swCfgWrite {f : Nat} {v : Word} (h : s.Inv) : (s.swCfgWrite f v).Inv := by
  unfold State.swCfgWrite
  refine .ite ?_ h
  split
  next he => exact .claim (.updStream (.of_snd (.fieldsOf h) he))
theorem State.Inv.evrCfgWrite {f : Nat} {v : Word} (h : s.Inv) : (s.evrCfgWrite f v).Inv := by
  unfold State.evrCfgWrite
  extract_lets i r
  split
  next he => exact .setEvr (.of_snd (.fieldsOf h) he)
theorem State.Inv.evrModWrite {v : Word} (h : s.Inv) : (s.evrModWrite v).Inv := .setEvr h
theorem State.Inv.posmapWrite {n : Nat} {v : Word} (h : s.Inv) : (s.posmapWrite n v).Inv := .with_kv h
theorem State.Inv.waterWrite {f off : Nat} {v : Word} (h : s.Inv) : (s.waterWrite f off v).Inv := .ite h (.storeReg h)
theorem State.Inv.grpDataWrite {n : Nat} {v : Word} (h : s.Inv) : (s.grpDataWrite n v).Inv := .ite (.ite (.with_fab h) h) (.with_fab h)
theorem State.Inv.quotaWrite {f off : Nat} {v : Word} (h : s.Inv) : (s.quotaWrite f off v).Inv := by
  unfold State.quotaWrite
  exact .ite h (.storeReg h)
theorem State.Inv.aditWordWrite {f off : Nat} {v : Word} (h : s.Inv) : (s.aditWordWrite f off v).Inv := .setAdit (.fieldsOf h)
theorem State.Inv.aditCmdWrite {v : Word} (h : s.Inv) : (s.aditCmdWrite v).Inv := by
  unfold State.aditCmdWrite
  refine .ite ?_ ?_
  · exact .disableSel (.ite (.revertSel (.ite (.aditCommitSel h) h)) (.ite (.aditCommitSel h) h))
  · exact .ite (.revertSel (.ite (.aditCommitSel h) h)) (.ite (.aditCommitSel h) h)
theorem State.Inv.portCtrlWrite {p : Nat} {v : Word} (h : s.Inv) : (s.portCtrlWrite p v).Inv := by
  unfold State.portCtrlWrite
  refine .ite ?_ ?_
  · refine .ite (.linkDown (.laneOff (.wrBit (.wrBit h ..) ..))) ?_
    exact .ite (.updPort (.laneOff (.wrBit (.wrBit h ..) ..))) (.laneOff (.wrBit (.wrBit h ..) ..))
  · exact .ite (.retrainPort (.laneOff (.wrBit (.wrBit h ..) ..))) (.laneOff (.wrBit (.wrBit h ..) ..))
theorem State.Inv.coreCtrlWrite {f c : Nat} {v : Word} (h : s.Inv) : (s.coreCtrlWrite f c v).Inv := .ite (.progReload (.storeReg h)) (.storeReg h)
theorem State.Inv.counterWrite {c k : Nat} {v : Word} (h : s.Inv) : (s.counterWrite c k v).Inv := .wakeCounter (.wr h ..)
theorem State.Inv.canaryDataWrite {i : Nat} {v : Word} (h : s.Inv) : (s.canaryDataWrite i v).Inv := .ite h (.updStope h)
theorem pfxWrite_kept {f o : Nat} {v : Word} (h : s.Inv) : KeptSome (s.pfxWrite f o v) := by
  unfold State.pfxWrite
  split
  · exact .some (.ite (.pfxEnableNow h) (.pfxDisableNow h))
  · refine .ite ?_ ?_
    · exact .some h
    · exact .none
  · exact .some (.ite (.pinNode (.ite (.pinNode h) h)) (.ite (.pinNode h) h))
  · exact .some (.nodeFindWrite h)
  · exact .none
theorem writeDev_kept {f o : Nat} {v : Word} (h : s.Inv) : KeptSome (s.writeDev f o v) := by
  unfold State.writeDev
  split
  · exact .some (.updFn h)
  · exact .some (.ite (.negotiateWrite h) h)
  · exact .some (.rmvWrite h)
  · refine .ite ?_ ?_
    · exact .none
    · exact .some h
  · exact .none
theorem writeNoc_kept {f off : Nat} {v : Word} (h : s.Inv) : KeptSome (s.writeNoc f off v) := by
  unfold State.writeNoc
  refine .ite ?_ ?_
  · exact .none
  · exact .some (.ite (.geomWrite h) (.stageRegionWord h))
theorem writeRing_kept {f o : Nat} {v : Word} (h : s.Inv) : KeptSome (s.writeRing f o v) := by
  unfold State.writeRing
  split
  · exact .some (.doorbell h)
  · exact .some (.ringResetWrite h)
  · exact .some (.ctrlCfgWrite h)
  · exact .some (.evrCfgWrite h)
  · exact .some (.evrModWrite h)
  · exact .some (.evrHeadWrite h)
  · exact .some (.resetEvr h)
  · exact .none
theorem writeKvp_kept {f off : Nat} {v : Word} (h : s.Inv) : KeptSome (s.writeKvp f off v) := by
  unfold State.writeKvp
  split
  · exact .some (.waterWrite h)
  · exact .some (.waterWrite h)
  · exact .some (.posmapWrite h)
  · exact .some (.posmapWrite h)
  · exact .some (.posmapWrite h)
  · exact .some (.ite (.commitMap h) h)
  · exact .none
theorem writeSwap_kept {f o : Nat} {v : Word} (h : s.Inv) : KeptSome (s.writeSwap f o v) := by
  unfold State.writeSwap
  split
  · exact .some (.swapCmdWrite h)
  · exact .some (.ite (.commitAbort (.ite (.commitWrite h) h)) (.ite (.commitWrite h) h))
  · exact .none
theorem writeColl_kept {o : Nat} {v : Word} (h : s.Inv) : KeptSome (s.writeColl o v) := by
  unfold State.writeColl
  split
  · exact .some (.grpDataWrite h)
  · exact .some (.grpDataWrite h)
  · exact .some (.grpDataWrite h)
  · exact .some (.ite (.grpCommitSel h) h)
  · exact .none
theorem writeAdit_kept {f off : Nat} {v : Word} (h : s.Inv) : KeptSome (s.writeAdit f off v) := by
  unfold State.writeAdit
  split
  · exact .some (.aditWordWrite h)
  · exact .some (.aditWordWrite h)
  · exact .some (.aditWordWrite h)
  · exact .some (.aditWordWrite h)
  · exact .some (.aditCmdWrite h)
  · exact .none
theorem writeCore_kept {f c o : Nat} {v : Word} (h : s.Inv) : KeptSome (s.writeCore f c o v) := by
  unfold State.writeCore
  refine .ite (.some (.counterWrite h)) (.ite (.some (.redgrpWrite h)) ?_)
  split
  · exact .some (.coreCtrlWrite h)
  · exact .some (.protWrite h)
  · exact .ite .none (.some (.poolGrantWrite h))
  · exact .ite .none (.some (.poolGrantWrite h))
  · exact .ite .none (.some (.poolProtWrite h))
  · exact .ite .none (.some (.poolProtWrite h))
  · exact .ite .none (.some (.poolRoWrite h))
  · exact .ite .none (.some (.poolRoWrite h))
  · exact .none
theorem writePlan_kept {f i o : Nat} {v : Word} (h : s.Inv) : KeptSome (s.writePlan f i o v) := by
  unfold State.writePlan
  refine .ite ?_ ?_
  · refine .ite ?_ ?_
    · exact .some (.slotCommit h)
    · refine .ite ?_ ?_
      · exact .some (.entryWrite h)
      · exact .none
  · refine .ite ?_ ?_
    · exact .some (.planCtrlWrite h)
    · exact .none
theorem writeCal_kept {f i o : Nat} {v : Word} (h : s.Inv) : KeptSome (s.writeCal f i o v) := by
  unfold State.writeCal
  split
  · exact .some (.calCmdWrite h)
  · exact .some (.calGainsWrite h)
  · exact .none
theorem writeCheck_kept {f i o : Nat} {v : Word} (h : s.Inv) : KeptSome (s.writeCheck f i o v) := by
  unfold State.writeCheck
  split
  · exact .some (.checkCtrlWrite h)
  · exact .some (.retau (.storeReg h))
  · exact .some (.canaryDataWrite h)
  · exact .none
theorem writePage_kept {f : Nat} {p : Page} {i off : Nat} {v : Word} (h : s.Inv) : KeptSome (s.writePage f p i off v) := by
  unfold State.writePage
  dsimp only
  split
  · exact .ite (.some (.updFn h)) .none
  · exact writeDev_kept h
  · exact .ite (.some (.hfCtrlWrite h)) (.ite (.some (.calIntWrite h)) .none)
  · exact .ite (.some (.thCtrlWrite h)) .none
  · exact .ite (.some (.pwrReqWrite h)) (.ite (.some (.pwrLimitWrite h)) .none)
  · exact .ite (.some (.tallyCtrlWrite h)) (.ite (.some (.tallyFindWrite h)) .none)
  · exact .ite (.some (.assayCmdWrite h)) .none
  · exact .ite (.some (.timeCtrlWrite h)) .none
  · exact writeNoc_kept h
  · exact writeRing_kept h
  · exact writeKvp_kept h
  · exact pfxWrite_kept h
  · exact .ite (.some h) .none
  · exact writeSwap_kept h
  · exact writeColl_kept h
  · exact .ite (.some (.quotaWrite h)) .none
  · exact writeAdit_kept h
  · exact .ite (.some (.portCtrlWrite h)) .none
  · exact writeCore_kept h
  · exact .ite (.some (.swCfgWrite h)) .none
  · exact writeCore_kept h
  · exact writePlan_kept h
  · exact writeCal_kept h
  · exact writeCheck_kept h
  · exact .none
  · exact .none
  · exact .none
  · exact .none
theorem State.Inv.hostWrite {f off : Nat} {v : Word} (h : s.Inv) : (s.hostWrite f off v).Inv := by
  unfold State.hostWrite
  refine .ite h ?_
  split
  · exact h
  · refine .ite (.ite (.pageCtrlWrite h) (.ite (.errInject h) (.storeReg h))) (.ite (.holdLow h) (.ite (.commitHigh h) ?_))
    split
    · next he => exact writePage_kept h _ he
    · exact .storeReg h
theorem execRegisterWrite_kept {f off : Nat} {v : Word} (h : s.Inv) : Kept (execRegisterWrite f off v s) := .next (.hostWrite h)
theorem execReg64LowRead_kept {f off : Nat} (h : s.Inv) : Kept (execReg64LowRead f off s) := .next (.ite (.readReg h) h)
theorem execReg64LowWrite_kept {f off : Nat} {v : Word} (h : s.Inv) : Kept (execReg64LowWrite f off v s) := .next (.ite (.holdLow h) h)
theorem execReg64HighWrite_kept {f off : Nat} {v : Word} (h : s.Inv) : Kept (execReg64HighWrite f off v s) := .next (.ite (.commitHigh h) h)

/-! ### Machine/Ring.lean -/

theorem State.Inv.ringForward {m : RingMsg} (h : s.Inv) : (s.ringForward m).Inv := .ite (.with_edge h) h
theorem State.Inv.hearFrame {m : RingMsg} (h : s.Inv) : (s.hearFrame m).2.Inv := .with_edge h
theorem State.Inv.helloIn {m : RingMsg} (h : s.Inv) : (s.helloIn m).Inv :=
  .ite (.ite (.with_edge h) (.updFn (.with_edge h))) (.ite (.ringGone (.report (.with_edge h))) (.with_edge h))
theorem State.Inv.ackIn {m : RingMsg} (h : s.Inv) : (s.ackIn m).Inv := .each (fun _ _ h => .flushAlarms h) (.with_edge h) _
theorem State.Inv.ringReply {cls typ dst : Nat} {payload : List Byte} (h : s.Inv) : (s.ringReply cls typ dst payload).Inv := .ite (.ringSend h) h
theorem State.Inv.logPullIn {m : RingMsg} (h : s.Inv) : (s.logPullIn m).Inv := .each (fun _ _ h => .ringReply h) h _
theorem State.Inv.powerStatusIn {m : RingMsg} (h : s.Inv) : (s.powerStatusIn m).Inv := .ringReply h
theorem State.Inv.removeStatusIn {m : RingMsg} (h : s.Inv) : (s.removeStatusIn m).Inv := .ite (.removeStatusTo h) h
theorem State.Inv.codedWrite {off : Nat} {v : Word} (h : s.Inv) : (s.codedWrite off v).2.Inv := by
  unfold State.codedWrite
  split
  · exact .ite_snd (.snd (.wr (.hostWrite (.wr h ..)) ..)) (.snd (.hostWrite (.wr h ..)))
  · exact .ite_snd (.snd (.updFn (.hostWrite (.updFn h)))) (.ite_snd (.snd (.updFn (.hostWrite (.updFn h)))) (.snd (.hostWrite (.updFn h))))
theorem State.Inv.regPair {write : Bool} {off : Nat} {v : Word} (h : s.Inv) : (s.regPair write off v).2.Inv := by
  unfold State.regPair
  split
  · exact h
  · split
    · exact .codedWrite h
    · exact .readReg h
theorem State.Inv.regPairs {write : Bool} {ps : List (Nat × Word)} (h : s.Inv) : (s.regPairs write ps).2.Inv := by
  induction ps generalizing s with
  | nil => exact h
  | cons p ps ih => exact ih (.regPair h)
theorem State.Inv.regIn {write : Bool} {m : RingMsg} (h : s.Inv) : (s.regIn write m).Inv :=
  .ite h (.ite (.ringReply (.ringReply (.regPairs h))) (.ringReply (.regPairs h)))
theorem State.Inv.obey {m : RingMsg} (h : s.Inv) : (s.obey m).Inv := by
  unfold State.obey
  split
  · exact .logPullIn h
  · exact .latchUp h
  · exact .latchDown h
  · exact .moduleReset h
  · exact .powerStatusIn h
  · exact .regIn h
  · exact .regIn h
  · exact .rmvPrepare h
  · exact .rmvPrepare h
  · exact .rmvCancelNow h
  · exact .removeStatusIn h
  · exact h
theorem State.Inv.frameAct {m : RingMsg} (h : s.Inv) : (s.frameAct m).Inv :=
  .ite (.helloIn h) (.ite h (.ite (.inc h ..) (.ite (.ackIn h) (.ite (.ite (.obey h) (.inc h ..)) h))))
theorem State.Inv.ringFrame {m : RingMsg} (h : s.Inv) : (s.ringFrame m).Inv :=
  .ite h (.ite (.ringForward h) (.ite (.frameAct (.hearFrame (.ringForward h))) (.hearFrame (.ringForward h))))
theorem State.Inv.frameOf {cls typ : Nat} {m : RingMsg} (h : s.Inv) : (s.frameOf cls typ m).Inv := .ite (.ringFrame h) h
theorem execRingFrameForward_kept {m : RingMsg} (h : s.Inv) : Kept (execRingFrameForward m s) := .next (.ringFrame h)
theorem execHello_kept {m : RingMsg} (h : s.Inv) : Kept (execHello m s) := .next (.ite (.ringFrame h) h)
theorem execHelloTimer_kept (h : s.Inv) : Kept (execHelloTimer s) := .next (.ite (.sendHellos h) h)
theorem execAck_kept {m : RingMsg} (h : s.Inv) : Kept (execAck m s) := .next (.ite (.ringFrame h) h)
theorem State.Inv.resendAlarm {m : RingMsg} (h : s.Inv) : (s.resendAlarm m).Inv := by
  unfold State.resendAlarm
  refine .inc ?_ ..
  exact .with_edge h
theorem execAlarmResend_kept (h : s.Inv) : Kept (execAlarmResend s) := .next (.ite h (.each (fun _ _ h => .resendAlarm h) (.with_edge h) _))
theorem execLogPull_kept {m : RingMsg} (h : s.Inv) : Kept (execLogPull m s) := .next (.frameOf h)
theorem execPowerUpMsg_kept {m : RingMsg} (h : s.Inv) : Kept (execPowerUpMsg m s) := .next (.frameOf h)
theorem execPowerDownMsg_kept {m : RingMsg} (h : s.Inv) : Kept (execPowerDownMsg m s) := .next (.frameOf h)
theorem execPowerResetMsg_kept {m : RingMsg} (h : s.Inv) : Kept (execPowerResetMsg m s) := .next (.frameOf h)
theorem execPowerStatusMsg_kept {m : RingMsg} (h : s.Inv) : Kept (execPowerStatusMsg m s) := .next (.frameOf h)
theorem execRegRead_kept {m : RingMsg} (h : s.Inv) : Kept (execRegRead m s) := .next (.frameOf h)
theorem execRegWrite_kept {m : RingMsg} (h : s.Inv) : Kept (execRegWrite m s) := .next (.frameOf h)
theorem execRemovePrep_kept {m : RingMsg} (h : s.Inv) : Kept (execRemovePrep m s) := .next (.frameOf h)
theorem execRemovePrepForce_kept {m : RingMsg} (h : s.Inv) : Kept (execRemovePrepForce m s) := .next (.frameOf h)
theorem execRemoveCancel_kept {m : RingMsg} (h : s.Inv) : Kept (execRemoveCancel m s) := .next (.frameOf h)
theorem execRemoveStatus_kept {m : RingMsg} (h : s.Inv) : Kept (execRemoveStatus m s) := .next (.frameOf h)

/-! ### Machine/Dispatch.lean -/

theorem exec_kept (h : s.Inv) : ∀ i, Kept (exec i s)
  | .registerWrite .. => execRegisterWrite_kept h
  | .reg64LowRead .. => execReg64LowRead_kept h
  | .reg64LowWrite .. => execReg64LowWrite_kept h
  | .reg64HighWrite .. => execReg64HighWrite_kept h
  | .errInject .. => execErrInject_kept h
  | .pageEnable .. => execPageEnable_kept h
  | .pageQuiesce .. => execPageQuiesce_kept h
  | .quiesced .. => execQuiesced_kept h
  | .hostFenceSet .. => execHostFenceSet_kept h
  | .hostFenceClear .. => execHostFenceClear_kept h
  | .paceWindowEnd .. => execPaceWindowEnd_kept h
  | .replanDaily => execReplanDaily_kept h
  | .marginReplan .. => execMarginReplan_kept h
  | .replan .. => execReplan_kept h
  | .packetInject .. => execPacketInject_kept h
  | .packetDeliver .. => execPacketDeliver_kept h
  | .creditReturn .. => execCreditReturn_kept h
  | .doorbell .. => execDoorbell_kept h
  | .barrierArrive .. => execBarrierArrive_kept h
  | .barrierRelease .. => execBarrierRelease_kept h
  | .ctlCancel .. => execCtlCancel_kept h
  | .fenceSet .. => execFenceSet_kept h
  | .fenceClear .. => execFenceClear_kept h
  | .faultNotice .. => execFaultNotice_kept h
  | .ctlReserved .. => execCtlReserved_kept h
  | .geomWrite .. => execGeomWrite_kept h
  | .regionApply => execRegionApply_kept h
  | .regionTimeoutExpiry => execRegionTimeoutExpiry_kept h
  | .slotCommit .. => execSlotCommit_kept h
  | .entryWrite .. => execEntryWrite_kept h
  | .planStart .. => execPlanStart_kept h
  | .entryRun .. => execEntryRun_kept h
  | .resultPushResume .. => execResultPushResume_kept h
  | .passEnd .. => execPassEnd_kept h
  | .bankSwitch .. => execBankSwitch_kept h
  | .refEnable .. => execRefEnable_kept h
  | .refReady .. => execRefReady_kept h
  | .refDisable .. => execRefDisable_kept h
  | .refOff .. => execRefOff_kept h
  | .refLost .. => execRefLost_kept h
  | .refIdleExpiry .. => execRefIdleExpiry_kept h
  | .prewarm .. => execPrewarm_kept h
  | .refModeWrite .. => execRefModeWrite_kept h
  | .calZero .. => execCalZero_kept h
  | .calFull .. => execCalFull_kept h
  | .calAbort .. => execCalAbort_kept h
  | .calExclStart .. => execCalExclStart_kept h
  | .calHeldStart .. => execCalHeldStart_kept h
  | .calSample .. => execCalSample_kept h
  | .calCommit .. => execCalCommit_kept h
  | .calGroup => execCalGroup_kept h
  | .calIntervalExpiry .. => execCalIntervalExpiry_kept h
  | .calSlot .. => execCalSlot_kept h
  | .calDeferExpiry .. => execCalDeferExpiry_kept h
  | .calHoldTimeout .. => execCalHoldTimeout_kept h
  | .calIntWrite .. => execCalIntWrite_kept h
  | .refRowRestore .. => execRefRowRestore_kept h
  | .dramHourCheck => execDramHourCheck_kept h
  | .laneMarginCheck .. => execLaneMarginCheck_kept h
  | .laneRetrain .. => execLaneRetrain_kept h
  | .stepStart .. => execStepStart_kept h
  | .descFetch .. => execDescFetch_kept h
  | .dma .. => execDma_kept h
  | .dma2d .. => execDma2d_kept h
  | .fill .. => execFill_kept h
  | .launch .. => execLaunch_kept h
  | .accClear .. => execAccClear_kept h
  | .accAdd .. => execAccAdd_kept h
  | .accRead .. => execAccRead_kept h
  | .scale .. => execScale_kept h
  | .requant .. => execRequant_kept h
  | .vbin .. => execVbin_kept h
  | .vfma .. => execVfma_kept h
  | .vcvt .. => execVcvt_kept h
  | .vred .. => execVred_kept h
  | .nlf .. => execNlf_kept h
  | .norm .. => execNorm_kept h
  | .xred .. => execXred_kept h
  | .xredOperand .. => execXredOperand_kept h
  | .xredResult .. => execXredResult_kept h
  | .vtopk .. => execVtopk_kept h
  | .barrier .. => execBarrier_kept h
  | .cwait .. => execCwait_kept h
  | .cwaitTimeout .. => execCwaitTimeout_kept h
  | .cinc .. => execCinc_kept h
  | .cincArrive .. => execCincArrive_kept h
  | .wopen .. => execWopen_kept h
  | .wclose .. => execWclose_kept h
  | .wwait .. => execWwait_kept h
  | .windowWriteArrive .. => execWindowWriteArrive_kept h
  | .windowExpiry .. => execWindowExpiry_kept h
  | .mma4 .. => execMma4_kept h
  | .pquant .. => execPquant_kept h
  | .pmerge .. => execPmerge_kept h
  | .cands .. => execCands_kept h
  | .kvcmd .. => execKvcmd_kept h
  | .descComplete .. => execDescComplete_kept h
  | .redgrpWrite .. => execRedgrpWrite_kept h
  | .spProtWrite .. => execSpProtWrite_kept h
  | .reprotRegionDone .. => execReprotRegionDone_kept h
  | .stepRerun .. => execStepRerun_kept h
  | .tokenRetry .. => execTokenRetry_kept h
  | .scrubRead .. => execScrubRead_kept h
  | .progReloaded .. => execProgReloaded_kept h
  | .poolGrantWrite .. => execPoolGrantWrite_kept h
  | .poolProtWrite .. => execPoolProtWrite_kept h
  | .poolRoWrite .. => execPoolRoWrite_kept h
  | .stepWatchdogExpiry .. => execStepWatchdogExpiry_kept h
  | .attend .. => execAttend_kept h
  | .append .. => execAppend_kept h
  | .copy .. => execCopy_kept h
  | .kvcmdComplete .. => execKvcmdComplete_kept h
  | .posmapCommit .. => execPosmapCommit_kept h
  | .freeDead .. => execFreeDead_kept h
  | .posmapInstall .. => execPosmapInstall_kept h
  | .commit .. => execCommit_kept h
  | .spillStart => execSpillStart_kept h
  | .spillReload .. => execSpillReload_kept h
  | .pcFail .. => execPcFail_kept h
  | .dramError .. => execDramError_kept h
  | .nodeInsert .. => execNodeInsert_kept h
  | .nodeReady .. => execNodeReady_kept h
  | .genEvict .. => execGenEvict_kept h
  | .nodePin .. => execNodePin_kept h
  | .nodeUnpin .. => execNodeUnpin_kept h
  | .unpinAll .. => execUnpinAll_kept h
  | .nodeFind .. => execNodeFind_kept h
  | .pfxEnable .. => execPfxEnable_kept h
  | .pfxDisable .. => execPfxDisable_kept h
  | .ringDb .. => execRingDb_kept h
  | .itemMalformed .. => execItemMalformed_kept h
  | .itemReservedOpcode .. => execItemReservedOpcode_kept h
  | .openStream .. => execOpenStream_kept h
  | .closeStream .. => execCloseStream_kept h
  | .classConfig .. => execClassConfig_kept h
  | .appendTokens .. => execAppendTokens_kept h
  | .generate .. => execGenerate_kept h
  | .pause .. => execPause_kept h
  | .resume .. => execResume_kept h
  | .cancel .. => execCancel_kept h
  | .cancelAck .. => execCancelAck_kept h
  | .park .. => execPark_kept h
  | .unpark .. => execUnpark_kept h
  | .setSampler .. => execSetSampler_kept h
  | .setMask .. => execSetMask_kept h
  | .tokenEmbed .. => execTokenEmbed_kept h
  | .tokenSample .. => execTokenSample_kept h
  | .tokenReturn .. => execTokenReturn_kept h
  | .mirrorAck .. => execMirrorAck_kept h
  | .journalPage .. => execJournalPage_kept h
  | .tokenRelease .. => execTokenRelease_kept h
  | .deadlineMiss .. => execDeadlineMiss_kept h
  | .winderIssue .. => execWinderIssue_kept h
  | .classRecompute => execClassRecompute_kept h
  | .heldRecordWrite .. => execHeldRecordWrite_kept h
  | .evrHeadWrite .. => execEvrHeadWrite_kept h
  | .evrTimeExpiry .. => execEvrTimeExpiry_kept h
  | .ringReset .. => execRingReset_kept h
  | .evrReset .. => execEvrReset_kept h
  | .parkComplete .. => execParkComplete_kept h
  | .parkFail .. => execParkFail_kept h
  | .unparkVerify .. => execUnparkVerify_kept h
  | .stage .. => execStage_kept h
  | .load .. => execLoad_kept h
  | .shadow .. => execShadow_kept h
  | .inPlace .. => execInPlace_kept h
  | .swapAbort .. => execSwapAbort_kept h
  | .swapCommit .. => execSwapCommit_kept h
  | .swapCommitAbort .. => execSwapCommitAbort_kept h
  | .imageStreamEnd => execImageStreamEnd_kept h
  | .copyRepair .. => execCopyRepair_kept h
  | .programRow .. => execProgramRow_kept h
  | .tempResume => execTempResume_kept h
  | .tempWaitExpiry => execTempWaitExpiry_kept h
  | .swapReport .. => execSwapReport_kept h
  | .swapTimeoutExpiry => execSwapTimeoutExpiry_kept h
  | .jobBarrierDrained => execJobBarrierDrained_kept h
  | .flip => execFlip_kept h
  | .layerDone .. => execLayerDone_kept h
  | .layerFail .. => execLayerFail_kept h
  | .rollback => execRollback_kept h
  | .jobBarrierRelease => execJobBarrierRelease_kept h
  | .swapComplete => execSwapComplete_kept h
  | .bankRefresh .. => execBankRefresh_kept h
  | .refreshRetry .. => execRefreshRetry_kept h
  | .localise .. => execLocalise_kept h
  | .standbyReport .. => execStandbyReport_kept h
  | .seamSuspectTimeout .. => execSeamSuspectTimeout_kept h
  | .checkClear .. => execCheckClear_kept h
  | .spareProgram .. => execSpareProgram_kept h
  | .spareMapIn .. => execSpareMapIn_kept h
  | .buddyTakeover .. => execBuddyTakeover_kept h
  | .mergeTakeover .. => execMergeTakeover_kept h
  | .canaryModeWrite .. => execCanaryModeWrite_kept h
  | .assayDue .. => execAssayDue_kept h
  | .assaySlot .. => execAssaySlot_kept h
  | .assayDeferExpiry .. => execAssayDeferExpiry_kept h
  | .assayGo .. => execAssayGo_kept h
  | .tallyWrite => execTallyWrite_kept h
  | .clearTransient .. => execClearTransient_kept h
  | .flush .. => execFlush_kept h
  | .tallyFind .. => execTallyFind_kept h
  | .alarmSecond => execAlarmSecond_kept h
  | .portTrain .. => execPortTrain_kept h
  | .cap .. => execCap_kept h
  | .credit .. => execCredit_kept h
  | .creditIdleTimer .. => execCreditIdleTimer_kept h
  | .nak .. => execNak_kept h
  | .laneMap _ _ seq => execLaneMap_kept (_seq := seq) h
  | .flitReceive .. => execFlitReceive_kept h
  | .write .. => execWrite_kept h
  | .writeAck .. => execWriteAck_kept h
  | .ctl .. => execCtl_kept h
  | .chunk .. => execChunk_kept h
  | .chunkAck .. => execChunkAck_kept h
  | .store .. => execStore_kept h
  | .ingress .. => execIngress_kept h
  | .pathFail .. => execPathFail_kept h
  | .echo .. => execEcho_kept h
  | .echoReply .. => execEchoReply_kept h
  | .replayTimeout .. => execReplayTimeout_kept h
  | .laneFail .. => execLaneFail_kept h
  | .linkSilenceTimeout .. => execLinkSilenceTimeout_kept h
  | .retrainTimer .. => execRetrainTimer_kept h
  | .retrain .. => execRetrain_kept h
  | .laneOffWrite .. => execLaneOffWrite_kept h
  | .aditCommit .. => execAditCommit_kept h
  | .aditVerifyTimeout .. => execAditVerifyTimeout_kept h
  | .revert .. => execRevert_kept h
  | .disable .. => execDisable_kept h
  | .routeRemeasure .. => execRouteRemeasure_kept h
  | .mcHoldExpiry .. => execMcHoldExpiry_kept h
  | .allReduce .. => execAllReduce_kept h
  | .allGather .. => execAllGather_kept h
  | .reduceScatter .. => execReduceScatter_kept h
  | .allToAll .. => execAllToAll_kept h
  | .multicast .. => execMulticast_kept h
  | .mcResend .. => execMcResend_kept h
  | .collFold .. => execCollFold_kept h
  | .chunkTimeout .. => execChunkTimeout_kept h
  | .collComplete .. => execCollComplete_kept h
  | .grpCommit .. => execGrpCommit_kept h
  | .busbarLoss => execBusbarLoss_kept h
  | .brownout .. => execBrownout_kept h
  | .busbarStable .. => execBusbarStable_kept h
  | .phaseFault .. => execPhaseFault_kept h
  | .pwrReqUp .. => execPwrReqUp_kept h
  | .pwrReqDown .. => execPwrReqDown_kept h
  | .powerUpSequence .. => execPowerUpSequence_kept h
  | .drainEnd => execDrainEnd_kept h
  | .drainTimeoutExpiry => execDrainTimeoutExpiry_kept h
  | .powerDownSequence => execPowerDownSequence_kept h
  | .vcoreStep => execVcoreStep_kept h
  | .vcorePolicyTick => execVcorePolicyTick_kept h
  | .thermalUpdate .. => execThermalUpdate_kept h
  | .sensorRejoin .. => execSensorRejoin_kept h
  | .refit .. => execRefit_kept h
  | .thresholdAssert .. => execThresholdAssert_kept h
  | .thresholdDeassert .. => execThresholdDeassert_kept h
  | .powerOverLimit => execPowerOverLimit_kept h
  | .graceExpiry => execGraceExpiry_kept h
  | .throttleMark => execThrottleMark_kept h
  | .throttleEnd => execThrottleEnd_kept h
  | .throttleReleaseStep => execThrottleReleaseStep_kept h
  | .thermalTrip .. => execThermalTrip_kept h
  | .tripRearm .. => execTripRearm_kept h
  | .energyWindow .. => execEnergyWindow_kept h
  | .pgRecompute => execPgRecompute_kept h
  | .pwrLimitWrite .. => execPwrLimitWrite_kept h
  | .vfFlr .. => execVfFlr_kept h
  | .pfReset => execPfReset_kept h
  | .moduleReset => execModuleReset_kept h
  | .negotiate .. => execNegotiate_kept h
  | .rmvPrep .. => execRmvPrep_kept h
  | .rmvPrepForce .. => execRmvPrepForce_kept h
  | .rmvCancel .. => execRmvCancel_kept h
  | .strapLatch .. => execStrapLatch_kept h
  | .strapChange .. => execStrapChange_kept h
  | .ringFrameForward .. => execRingFrameForward_kept h
  | .hello .. => execHello_kept h
  | .helloTimer => execHelloTimer_kept h
  | .ack .. => execAck_kept h
  | .alarmResend => execAlarmResend_kept h
  | .logPull .. => execLogPull_kept h
  | .powerUpMsg .. => execPowerUpMsg_kept h
  | .powerDownMsg .. => execPowerDownMsg_kept h
  | .powerResetMsg .. => execPowerResetMsg_kept h
  | .powerStatusMsg .. => execPowerStatusMsg_kept h
  | .regRead .. => execRegRead_kept h
  | .regWrite .. => execRegWrite_kept h
  | .removePrep .. => execRemovePrep_kept h
  | .removePrepForce .. => execRemovePrepForce_kept h
  | .removeCancel .. => execRemoveCancel_kept h
  | .removeStatus .. => execRemoveStatus_kept h
  | .sync .. => execSync_kept h
  | .syncLoss => execSyncLoss_kept h
  | .bypassClose => execBypassClose_kept h
  | .bypassOpen .. => execBypassOpen_kept h
  | .bypassRetry => execBypassRetry_kept h
  | .prsntMate .. => execPrsntMate_kept h
  | .prsntBreak => execPrsntBreak_kept h
  | .pwrEnRise => execPwrEnRise_kept h
  | .pwrEnFall => execPwrEnFall_kept h
  | .attnButton => execAttnButton_kept h
  | .calGainsWrite .. => execCalGainsWrite_kept h
  | .stageComplete => execStageComplete_kept h
  | .kvRestored .. => execKvRestored_kept h
  | .d3hot .. => execD3hot_kept h
  | .d0 .. => execD0_kept h

/-! ### Machine/Tick.lean -/

theorem State.Inv.countStalls (h : s.Inv) : (s.countStalls).Inv := .each (fun _ _ h => .inc64 h ..) h _
theorem State.Inv.countHolds (h : s.Inv) : (s.countHolds).Inv := .ite (.inc64 (.inc64 (.inc64 h ..) ..) ..) (.inc64 (.inc64 h ..) ..)
theorem State.Inv.tick (h : s.Inv) : (s.tick).Inv := .same (.countHolds (.countStalls h))

/-! ### Machine/Step.lean -/

theorem step_kept (h : s.Inv) : Kept (step s) := by
  unfold step
  split
  · exact exec_kept (.with_pending h) _
  · exact .next (.tick h)

end

/-- Settles O60: whatever a step does keeps the canonical form (`step_kept`), and the state it gives is the one it is said to give. -/
theorem stepsKeepTheMachineSound : Obligations.StepsKeepTheMachineSound := by
  intro s t h ht
  obtain ⟨u, hu, hInv⟩ := step_kept h
  obtain rfl : u = t := Host.Outcome.next.inj (hu.symm.trans ht)
  exact hInv

/-- Settles O59: after reset every one of the five tables is empty. -/
theorem resetIsSound : Obligations.ResetIsSound :=
  ⟨⟨rfl, rfl, rfl, rfl, List.Pairwise.nil⟩, rfl, rfl, rfl⟩

end
end Sys2Proof.Machine

namespace Sys2Proof.Machine

set_option Elab.async false

/-! ## O24: a CANDS whose stream waits for its mask neither issues nor faults -/

/-- While a stream waits for its token's mask, a CANDS for it stays where it is, whatever its form (R286). -/
theorem exec_cands_of_no_settings {s : State} {c stream src first count dst : Nat} {e : List ReadErr} {d : Desc}
    (hset : (s.stream stream).settings = none) (hd : (s.core c).fetched = some d) (hop : d.op = 0x33) :
    exec (.cands c e stream src first count dst) s = .next (s.updStream stream Stream.beginSampling) := by
  show execCands c e stream src first count dst s = _
  simp [execCands, hset, hd, hop]

/-- A CANDS descriptor of no length. -/
def candsDesc : Desc := { index := 0, w0 := 0x33, w1 := 0, w2 := 0, w3 := 0 }

/-- The step that it belongs to. -/
def candsRun : Running :=
  { id := 1, step := { prog := 0, stream := some 0, bank := false, converting := false, bound := 0, missed := false }, next := 1,
    lastSeen := false, started := 0, fetchRetry := false, watched := false }

/-- Merge core 0 with that CANDS at its head; stream 0 takes a mask a token (WAIT) and has none. -/
def candsWaiting : State :=
  { State.reset with
      cores := [(256, { Core.reset with fetched := some candsDesc, run := some candsRun })],
      wnd := { Wnd.reset with streams := [(0, { Stream.free with maskMode := 3 })] } }

/-- Its source, in no address space, makes it bad. -/
theorem candsJudge_candsWaiting : candsWaiting.candsJudge 256 0 0xFFFFFFFF 0 1 0 candsDesc = .bad causeDescInvalid := rfl

/-- Refutes O24: a CANDS judged bad for its form does not fault while its stream waits for its token's mask; it stays at the core's head. -/
theorem not_descriptorsIssueOrFault : ¬ Obligations.DescriptorsIssueOrFault := by
  intro h
  obtain ⟨-, hbad⟩ := h candsWaiting 256 candsDesc candsRun 0xFFFFFFFF 0 0 0 0 0 0 0 1 0 [] [] false (.cands 256 [] 0 0xFFFFFFFF 0 1 0) 0x33
    (fun s d => s.candsJudge 256 0 0xFFFFFFFF 0 1 0 d) (by simp) rfl rfl rfl
  obtain ⟨t, ht, -, -, hfetched, -⟩ := hbad causeDescInvalid (.inl candsJudge_candsWaiting) (by decide)
  have hexec : exec (.cands 256 [] 0 0xFFFFFFFF 0 1 0) candsWaiting = .next (candsWaiting.updStream 0 Stream.beginSampling) :=
    exec_cands_of_no_settings rfl (d := candsDesc) rfl rfl
  obtain rfl := Host.Outcome.next.inj (hexec.symm.trans ht)
  have hstays : ((candsWaiting.updStream 0 Stream.beginSampling).core 256).fetched = some candsDesc := by rw [State.updStream_core]; rfl
  rw [hfetched] at hstays
  cases hstays

/-! ## O4: what a register write stores, and the two words of a pair -/

/-- A search for a key finds the entry just placed under it. -/
theorem Table.find?_put {α : Type} (t : Table α) (k : Nat) (a : α) : (Table.put t k a).find? (fun p => p.1 == k) = some (k, a) := by
  induction t with
  | nil => simp [Table.put]
  | cons p t ih =>
    obtain ⟨i, b⟩ := p
    simp only [Table.put]
    split
    · simp
    · next hne =>
      split
      · simp
      · simpa [show ¬ i = k from hne] using ih

/-- Nothing changed but a page's RG_WRITE error, its event and the message that goes with it. -/
structure RgOnly (s t : State) (page : Nat) : Prop where
  regs : RegsKept s t [regErrStatus page, regEvtStatus page]
  frame : { t with regs := s.regs, edge := { t.edge with msi := s.edge.msi } } = s

theorem RgOnly.refl (s : State) (page : Nat) : RgOnly s s page := ⟨fun _ _ => rfl, rfl⟩

theorem State.rgWrite_rgOnly (s : State) (f page : Nat) : RgOnly s (s.rgWrite f page) page := by
  have h₁ : RgOnly s (s.wrBit (regErrStatus page) 31 true) page := ⟨fun o ho => s.rd_wrBit_other _ _ fun e => ho (by simp [e]), rfl⟩
  have h₂ : RgOnly s ((s.wrBit (regErrStatus page) 31 true).wrBit (regEvtStatus page) 0 true) page :=
    ⟨fun o ho => ((s.wrBit _ 31 true).rd_wrBit_other _ _ fun e => ho (by simp [e])).trans (h₁.regs o ho), rfl⟩
  unfold State.rgWrite
  dsimp only
  split
  · exact h₁
  · split
    · split
      · exact h₂
      · exact ⟨h₂.regs, rfl⟩
    · exact h₁

theorem State.ite_rgWrite_rgOnly (s : State) (f page : Nat) (rg : Bool) : RgOnly s (if rg then s.rgWrite f page else s) page := by
  split
  · exact s.rgWrite_rgOnly f page
  · exact .refl s page

/-- A register past its page's common ones is not ERR_STATUS or EVT_STATUS. -/
theorem ne_common_of_own {off : Nat} (h : 0x100 ≤ off % 0x1000) : off ≠ regErrStatus (pageBase off) ∧ off ≠ regEvtStatus (pageBase off) := by
  simp only [regErrStatus, regEvtStatus, pageBase]
  omega

theorem State.storeReg_of_row {s : State} {f off n : Nat} {v : Word} {r : RegRow} (hr : rowAt off = some (r, n)) (hh : homeOff off = off) :
    s.storeReg f off v = (let t := s.wr off (writeFields r.fields (s.rd off) v).1
      if (writeFields r.fields (s.rd off) v).2 || v &&& rgMask off != 0 then t.rgWrite f (pageBase off) else t) := by
  simp only [State.storeReg, hr, hh]

/-- A plain store: the register takes its fields, and at most RG_WRITE is set beside it. -/
theorem State.storeReg_spec {s : State} {f off n : Nat} {v : Word} {r : RegRow} (hr : rowAt off = some (r, n)) (hh : homeOff off = off)
    (hown : 0x100 ≤ off % 0x1000) :
    (s.storeReg f off v).rd off = (writeFields r.fields (s.rd off) v).1 ∧
      RegsKept s (s.storeReg f off v) [off, regErrStatus (pageBase off), regEvtStatus (pageBase off)] ∧
      { s.storeReg f off v with regs := s.regs, edge := { (s.storeReg f off v).edge with msi := s.edge.msi } } = s := by
  rw [State.storeReg_of_row hr hh]
  obtain ⟨hregs, hframe⟩ := (s.wr off (writeFields r.fields (s.rd off) v).1).ite_rgWrite_rgOnly f (pageBase off)
    ((writeFields r.fields (s.rd off) v).2 || v &&& rgMask off != 0)
  refine ⟨(hregs off (by simp [ne_common_of_own hown])).trans (s.rd_wr_same ..), fun o ho => ?_, ?_⟩
  · obtain ⟨hoff, ho⟩ := not_or.1 (mt List.mem_cons.2 ho)
    exact (hregs o ho).trans (s.rd_wr_other _ hoff)
  · exact congrArg (fun t : State => { t with regs := s.regs }) hframe

/-- A write that is permitted and goes to no common register, no pair and no register with a meaning of its own is a plain store. -/
theorem State.hostWrite_eq_storeReg {s : State} {f off i : Nat} {v : Word} {p : Page} (hmay : s.mayWrite f off = true)
    (hp : pageAt off = some (p, i)) (hown : 0x100 ≤ off % 0x1000) (hlo : isLow off = false) (hhi : isHigh off = false)
    (hw : s.writePage f p i off v = none) : s.hostWrite f off v = s.storeReg f off v := by
  simp [State.hostWrite, hmay, hp, Nat.not_lt.2 hown, hlo, hhi, hw]

theorem homeOff_of_ne_merge {off i : Nat} {p : Page} (hp : pageAt off = some (p, i)) (h : p ≠ .merge) : homeOff off = off := by
  unfold homeOff
  split
  · next e => exact absurd (Prod.mk.inj (Option.some.inj (hp.symm.trans e))).1 h
  · rfl

/-- The pages WINDER, SAMPLER and STACK give no register a meaning of its own. -/
theorem State.writePage_plain {s : State} {f i off : Nat} {v : Word} {p : Page} (h : p = .wnd ∨ p = .smp ∨ p = .stack) :
    s.writePage f p i off v = none := by
  rcases h with rfl | rfl | rfl
  · rfl
  · rfl
  · rfl

/-- The low word's read latches the high word. -/
theorem State.readReg_low {s : State} {f lo : Nat} (hlo : isLow lo = true) (hm : s.mapped f lo = true) :
    (s.readReg f lo).2 = { s with edge := { s.edge with shadowHi := Table.put s.edge.shadowHi (pairKey f lo) (s.view f (lo + 4)) } } := by
  simp [State.readReg, hlo, hm]

/-- The high word's read returns what is latched. -/
theorem State.readReg_high {s : State} {f lo k : Nat} {x : Word} (hlo : isLow lo = true) (hhi : isLow (lo + 4) = false)
    (hm : s.mapped f (lo + 4) = true) (hx : (s.edge.shadowHi.find? fun p => p.1 == pairKey f lo) = some (k, x)) :
    (s.readReg f (lo + 4)).1 = x := by
  simp [State.readReg, isHigh, hlo, hhi, hm, hx]

/-- The high word's write commits the low word that is held. -/
theorem State.commitHigh_of_held {s : State} {f lo : Nat} {w : Word} {x : Nat × Word}
    (hx : (s.edge.heldLo.find? fun p => p.1 == pairKey f lo) = some x) :
    s.commitHigh f (lo + 4) w =
      { s with edge := { s.edge with heldLo := Table.del s.edge.heldLo (pairKey f lo) } }.setPair f lo (w.toNat * 0x100000000 + x.2.toNat) := by
  simp [State.commitHigh, hx]

theorem isLow_swapSrcLo : isLow swapSrcLo = true := by decide +kernel
theorem isHigh_swapSrcHi : isHigh (swapSrcLo + 4) = true := by decide +kernel
theorem State.mayWrite_swapSrcHi (s : State) : s.mayWrite 0 (swapSrcLo + 4) = true := rfl

theorem State.holdLow_swapSrc (s : State) (f : Nat) (v : Word) :
    s.holdLow f swapSrcLo v = { s with edge := { s.edge with heldLo := Table.put s.edge.heldLo (pairKey f swapSrcLo) v } } :=
  if_neg (by decide +kernel)

theorem State.setPair_swapSrc (s : State) (f v : Nat) : s.setPair f swapSrcLo v = s.wr64 swapSrcLo v := rfl

/-- A pair written with a high and a low word reads them back. -/
theorem State.rd_wr64_words (s : State) (lo : Nat) (v w : Word) :
    (s.wr64 lo (w.toNat * 0x100000000 + v.toNat)).rd lo = v ∧ (s.wr64 lo (w.toNat * 0x100000000 + v.toNat)).rd (lo + 4) = w := by
  have hv := v.isLt
  refine ⟨?_, ?_⟩
  · rw [State.wr64, State.rd_wr_other _ _ (by omega), State.rd_wr_same]
    apply BitVec.eq_of_toNat_eq
    rw [BitVec.toNat_ofNat]
    omega
  · rw [State.wr64, State.rd_wr_same]
    apply BitVec.eq_of_toNat_eq
    rw [BitVec.toNat_ofNat]
    omega

/-- Settles O4: a plain store takes the fields; the low word's read or write only latches or holds a word of the pair, which the next access
to the high word finds. -/
theorem registerWriteTakesFields : Obligations.RegisterWriteTakesFields := by
  refine ⟨fun s f off i v p r n hmay hp hpage hown hlo hhi hr => ?_, fun s f lo hlo hhi hm hm4 => ?_, fun s f lo v hlo hmay => ?_,
    fun s v w hmay => ?_⟩
  · have hplain : p ≠ .merge := by rintro rfl; simp at hpage
    refine ⟨_, rfl, ?_⟩
    rw [State.hostWrite_eq_storeReg hmay hp hown hlo hhi (State.writePage_plain hpage)]
    exact State.storeReg_spec hr (homeOff_of_ne_merge hp hplain) hown
  · refine ⟨_, rfl, ?_⟩
    rw [if_pos hlo, State.readReg_low hlo hm]
    refine ⟨State.readReg_high hlo hhi ?_ (Table.find?_put ..), rfl⟩
    exact hm4
  · refine ⟨_, rfl, ?_⟩
    rw [if_pos (by simp [hlo, hmay]), State.holdLow]
    split
    · rfl
    · rfl
  · refine ⟨_, rfl, _, rfl, ?_⟩
    rw [if_pos (Bool.and_eq_true_iff.2 ⟨isLow_swapSrcLo, hmay⟩),
      if_pos (Bool.and_eq_true_iff.2 ⟨isHigh_swapSrcHi, State.mayWrite_swapSrcHi _⟩),
      State.holdLow_swapSrc, State.commitHigh_of_held (Table.find?_put ..), State.setPair_swapSrc]
    obtain ⟨hrdLo, hrdHi⟩ := State.rd_wr64_words s swapSrcLo v w
    refine ⟨hrdLo, hrdHi, fun o ho => ?_⟩
    simp only [List.mem_cons, List.not_mem_nil, not_or, or_false] at ho
    exact s.rd_wr64_other _ ho.1 ho.2

/-! ## O30: the registers of the cores -/

theorem pageAt_shell {i k : Nat} (hi : i < 256) (hk : k < 0x1000) : pageAt (shellPage i + k) = some (.shell, i) := by
  have hn : (shellPage i + k) / 0x1000 = 0x100 + 4 * i := by simp only [shellPage]; omega
  have hge : ¬ shellPage i + k < 0x10000 := by simp only [shellPage]; omega
  have h4 : (0x100 + 4 * i) % 4 = 0 := by omega
  have hidx : (0x100 + 4 * i - 0x100) / 4 = i := by omega
  simp only [pageAt, hn, hge, h4, hidx, if_false]
  repeat rw [if_neg (by omega)]
  rw [if_pos (by omega)]

theorem pageAt_merge {m k : Nat} (hm : m < 16) (hk : k < 0x1000) : pageAt (mergePage m + k) = some (.merge, m) := by
  have hn : (mergePage m + k) / 0x1000 = 0x30 + m := by simp only [mergePage]; omega
  have hge : ¬ mergePage m + k < 0x10000 := by simp only [mergePage]; omega
  have hidx : 0x30 + m - 0x30 = m := by omega
  simp only [pageAt, hn, hge, hidx, if_false]
  repeat rw [if_neg (by omega)]
  rw [if_pos (by omega)]

theorem coreBase_mod (c : Nat) : coreBase c % 0x1000 = 0 := by
  simp only [coreBase, shellPage, mergePage]
  split <;> omega

/-- The fields of a reduction group's register (R166): the rectangle's corners, the root and VALID. -/
def redgrpFields : List Field :=
  [⟨4, 0, .rw, .rangeRg 0 15⟩, ⟨9, 5, .rw, .rangeRg 0 15⟩, ⟨14, 10, .rw, .rangeRg 0 15⟩, ⟨19, 15, .rw, .rangeRg 0 15⟩,
    ⟨29, 20, .rw, .any⟩, ⟨30, 30, .rw, .any⟩]

theorem regFields_redgrp {i g : Nat} (hi : i < 256) (hg : g < 8) : regFields (shellRedgrp i g) = redgrpFields := by
  have hoff : shellRedgrp i g = shellPage i + (0x180 + 4 * g) := by simp only [shellRedgrp]; omega
  have hmod : shellRedgrp i g % 0x1000 = 0x180 + 4 * g := by simp only [shellRedgrp, shellPage]; omega
  have hrow : ∀ g < 8, findRow shellRows (0x180 + 4 * g) = some (⟨0x180, 8, 4, 1, 4, 0x00000000, false, redgrpFields⟩, g) := by decide
  simp only [regFields, rowAt, hmod, show ¬ 0x180 + 4 * g < 0x100 by omega, if_false]
  rw [hoff, pageAt_shell hi (by omega)]
  simp only [Page.rows, hrow g hg]

/-- The row of SP_PROT and of CORE_PROT (R170, R179). -/
def protRow : RegRow := ⟨0x10C, 1, 4, 1, 4, 0x0000FFFF, false, [⟨15, 0, .rw, .any⟩]⟩

theorem coreProt_mod (c : Nat) : coreProt c % 0x1000 = 0x10C := by
  have := coreBase_mod c
  simp only [coreProt]
  omega

theorem pageAt_coreProt {c : Nat} (hc : c < 272) : pageAt (coreProt c) = some (.shell, c) ∨ pageAt (coreProt c) = some (.merge, c - 256) := by
  simp only [coreProt, coreBase]
  split
  · exact .inl (pageAt_shell ‹_› (by omega))
  · exact .inr (pageAt_merge (by omega) (by omega))

theorem rowAt_coreProt {c : Nat} (hc : c < 272) : rowAt (coreProt c) = some (protRow, 0) := by
  unfold rowAt
  rw [coreProt_mod]
  rcases pageAt_coreProt hc with h | h
  · rw [h]; rfl
  · rw [h]; rfl

theorem homeOff_coreProt {c : Nat} (hc : c < 272) : homeOff (coreProt c) = coreProt c := by
  unfold homeOff
  rw [coreProt_mod]
  rcases pageAt_coreProt hc with h | h
  · rw [h]
  · rw [h]; rfl

/-! ### What a field takes -/

theorem fld_lt (w : Word) (hi lo : Nat) : fld w hi lo < 2 ^ (hi + 1 - lo) := Nat.mod_lt _ (Nat.two_pow_pos _)

theorem Field.write_any (hi lo : Nat) (acc : Word × Bool) (v : Word) :
    (⟨hi, lo, .rw, .any⟩ : Field).write acc v = (setFld acc.1 hi lo (fld v hi lo), acc.2) := rfl

theorem fld_write_any (hi lo : Nat) (acc : Word × Bool) (v : Word) (hlo : lo ≤ hi) (hhi : hi < 32) :
    fld ((⟨hi, lo, .rw, .any⟩ : Field).write acc v).1 hi lo = fld v hi lo := by
  rw [Field.write_any, fld_setFld_same _ _ _ _ hlo hhi, Nat.mod_eq_of_lt (fld_lt ..)]

/-- A write of a field leaves the fields beside it. -/
theorem fld_write_other (fd : Field) (acc : Word × Bool) (v : Word) {a b : Nat} (hlo : fd.lo ≤ fd.hi) (ha : a < 32) (h : a < fd.lo ∨ fd.hi < b) :
    fld (fd.write acc v).1 a b = fld acc.1 a b := by
  unfold Field.write
  dsimp only
  split
  · split
    · exact fld_setFld_other _ _ _ _ _ _ hlo ha h
    · rfl
  · exact fld_setFld_other _ _ _ _ _ _ hlo ha h
  · rfl

/-- A code's top bit makes it 16 or more. -/
theorem bit_top_iff (v : Word) (lo : Nat) : bit v (lo + 4) = true ↔ 16 ≤ fld v (lo + 4) lo := by
  simp only [bit, bitAt, fld, bitsOf, beq_iff_eq, show lo + 4 + 1 - lo = 5 by omega, Nat.pow_add, ← Nat.div_div_eq_div_mul]
  omega

/-- A reserved code leaves the field of a rectangle (R10). -/
theorem fld_write_code (lo : Nat) (acc : Word × Bool) (v : Word) (hlo : lo + 4 < 32) :
    fld ((⟨lo + 4, lo, .rw, .rangeRg 0 15⟩ : Field).write acc v).1 (lo + 4) lo =
      if bit v (lo + 4) = true then fld acc.1 (lo + 4) lo else fld v (lo + 4) lo := by
  rw [if_congr (bit_top_iff v lo) rfl rfl]
  have hv := fld_lt v (lo + 4) lo
  rw [show lo + 4 + 1 - lo = 5 by omega] at hv
  simp only [Field.write, Chk.accepts, decide_eq_true_eq]
  by_cases hok : fld v (lo + 4) lo ≤ 15
  · rw [if_pos ⟨Nat.zero_le _, hok⟩, if_neg (by omega), fld_setFld_same _ _ _ _ (by omega) hlo, Nat.mod_eq_of_lt (fld_lt ..)]
  · rw [if_neg (by omega), if_pos (by omega)]

/-- Two adjacent fields that agree make one that agrees. -/
theorem fld_eq_of_parts {w v : Word} {hi lo k : Nat} (hlo : lo ≤ k) (hhi : k < hi) (h₁ : fld w k lo = fld v k lo)
    (h₂ : fld w hi (k + 1) = fld v hi (k + 1)) : fld w hi lo = fld v hi lo := by
  apply Nat.eq_of_testBit_eq
  intro i
  have e₁ := congrArg (Nat.testBit · i) h₁
  have e₂ := congrArg (Nat.testBit · (i - (k + 1 - lo))) h₂
  simp only [fld, bitsOf_testBit] at e₁ e₂ ⊢
  by_cases h : lo + i ≤ k
  · simpa [show i < hi + 1 - lo by omega, show i < k + 1 - lo by omega] using e₁
  · by_cases hi' : i < hi + 1 - lo
    · rw [show k + 1 + (i - (k + 1 - lo)) = lo + i by omega] at e₂
      simpa only [hi', show i - (k + 1 - lo) < hi + 1 - (k + 1) by omega, decide_true, Bool.true_and] using e₂
    · simp [hi']

/-- Fields beside a place leave it. -/
theorem fld_writes_other {fs : List Field} {acc : Word × Bool} {v : Word} {a b : Nat} (ha : a < 32)
    (h : ∀ fd ∈ fs, fd.lo ≤ fd.hi ∧ (a < fd.lo ∨ fd.hi < b)) : fld (fs.foldl (fun acc fd => fd.write acc v) acc).1 a b = fld acc.1 a b := by
  induction fs generalizing acc with
  | nil => rfl
  | cons fd fs ih =>
    obtain ⟨hfd, hfs⟩ := List.forall_mem_cons.1 h
    rw [List.foldl_cons, ih hfs, fld_write_other _ _ _ hfd.1 ha hfd.2]

/-- What one field among others beside it takes. -/
theorem fld_writeFields (pre post : List Field) (fd : Field) (old v : Word) (hhi : fd.hi < 32)
    (h : ∀ x ∈ pre ++ post, x.lo ≤ x.hi ∧ (fd.hi < x.lo ∨ x.hi < fd.lo)) :
    ∃ acc : Word × Bool, fld acc.1 fd.hi fd.lo = fld old fd.hi fd.lo ∧
      fld (writeFields (pre ++ fd :: post) old v).1 fd.hi fd.lo = fld (fd.write acc v).1 fd.hi fd.lo := by
  obtain ⟨hpre, hpost⟩ := List.forall_mem_append.1 h
  refine ⟨pre.foldl (fun acc fd => fd.write acc v) (old, false), fld_writes_other hhi hpre, ?_⟩
  rw [writeFields, List.foldl_append, List.foldl_cons, fld_writes_other hhi hpost]

/-- A reserved code of a group's rectangle leaves its field; another is taken. -/
theorem fld_redgrp_code (n : Nat) (old v : Word) (hn : n < 4) :
    fld (writeFields redgrpFields old v).1 (5 * n + 4) (5 * n) =
      if bit v (5 * n + 4) = true then fld old (5 * n + 4) (5 * n) else fld v (5 * n + 4) (5 * n) := by
  have hsplit : ∀ n < 4, redgrpFields = redgrpFields.take n ++ ⟨5 * n + 4, 5 * n, .rw, .rangeRg 0 15⟩ :: redgrpFields.drop (n + 1) := by decide
  have hbeside : ∀ n < 4, ∀ x ∈ redgrpFields.take n ++ redgrpFields.drop (n + 1),
      x.lo ≤ x.hi ∧ (5 * n + 4 < x.lo ∨ x.hi < 5 * n) := by decide
  obtain ⟨acc, hacc, hw⟩ := fld_writeFields _ _ ⟨5 * n + 4, 5 * n, .rw, .rangeRg 0 15⟩ old v (show 5 * n + 4 < 32 by omega) (hbeside n hn)
  rw [hsplit n hn]
  exact hw.trans ((fld_write_code (5 * n) acc v (by omega)).trans (by rw [hacc]))

/-- The root and VALID of a group's register are the written ones. -/
theorem fld_redgrp_root (old v : Word) : fld (writeFields redgrpFields old v).1 30 20 = fld v 30 20 := by
  refine fld_eq_of_parts (k := 29) (by omega) (by omega) ?_ ?_
  · obtain ⟨acc, -, hw⟩ := fld_writeFields (redgrpFields.take 4) (redgrpFields.drop 5) ⟨29, 20, .rw, .any⟩ old v (by decide) (by decide)
    exact hw.trans (fld_write_any 29 20 acc v (by omega) (by omega))
  · obtain ⟨acc, -, hw⟩ := fld_writeFields (redgrpFields.take 5) (redgrpFields.drop 6) ⟨30, 30, .rw, .any⟩ old v (by decide) (by decide)
    exact hw.trans (fld_write_any 30 30 acc v (by omega) (by omega))

/-- A bit of a field, as a bit of the word. -/
theorem bit_eq_testBit_fld (w : Word) {hi lo i : Nat} (hlo : lo ≤ i) (hi' : i ≤ hi) : bit w i = (fld w hi lo).testBit (i - lo) := by
  rw [fld, bitsOf_testBit, bit, bitAt_eq_testBit, show lo + (i - lo) = i by omega]
  simp [show i - lo < hi + 1 - lo by omega]

theorem groupValid_redgrp (old v : Word) : groupValid (writeFields redgrpFields old v).1 = bit v 30 := by
  rw [groupValid, bit_eq_testBit_fld _ (show 20 ≤ 30 by omega) (le_refl 30), fld_redgrp_root,
    ← bit_eq_testBit_fld _ (show 20 ≤ 30 by omega) (le_refl 30)]

/-! ### Reduction groups (R166) -/

theorem RgOnly.core {s t : State} {page : Nat} (h : RgOnly s t page) (j : Nat) : t.core j = s.core j := by
  have hcores : t.cores = s.cores := by
    have := congrArg State.cores h.frame
    exact this
  rw [State.core, hcores, State.core]

/-- Which region holds a stope is in the region registers alone. -/
theorem State.stopeRegion_congr {s t : State} (h : ∀ n < 16, t.region n = s.region n) (i : Nat) : t.stopeRegion i = s.stopeRegion i := by
  have hregions : t.regions = s.regions := List.filter_congr fun n hn => by rw [h n (List.mem_range.1 hn)]
  rw [State.stopeRegion, State.stopeRegion, hregions]
  refine List.find?_congr fun n hn => ?_
  rw [h n (List.mem_range.1 (List.mem_of_mem_filter hn))]

theorem RgOnly.stopeRegion {s t : State} {page : Nat} (h : RgOnly s t page) (hp : page % 0x1000 = 0) (i : Nat) :
    t.stopeRegion i = s.stopeRegion i := by
  refine State.stopeRegion_congr (fun n hn => ?_) i
  have hkept : ∀ o, 0x200 ≤ o % 0x1000 → t.rd o = s.rd o := fun o ho => h.regs o (by
    simp only [List.mem_cons, List.not_mem_nil, or_false, not_or, regErrStatus, regEvtStatus]
    omega)
  simp only [State.region, nocGeom, nocGate, nocEdge, nocPorts, nocPage]
  congr 1
  · exact hkept _ (by omega)
  · exact hkept _ (by omega)
  · exact hkept _ (by omega)
  · exact hkept _ (by omega)

/-- A group of a stope that leaves the stope's region, or whose root it does not hold (R166). -/
def State.GroupOutside (s : State) (i : Nat) (w : Word) : Prop :=
  s.stopeRegion i = none ∨ groupRoot w ∉ groupStopes w ∨ ∃ x ∈ groupStopes w, s.stopeRegion x ≠ s.stopeRegion i

/-- A group's register written: RG_WRITE where it sets, then the refusal or the new group. -/
theorem State.redgrpWrite_cases {s : State} {f i g : Nat} {v w : Word} (hg : g < 8) (hi : i < 256) (hmay : s.mayWrite f (shellRedgrp i g) = true)
    (hw : w = (writeFields (regFields (shellRedgrp i g)) (s.rd (shellRedgrp i g)) v).1) :
    ∃ u, RgOnly s u (pageBase (shellRedgrp i g)) ∧
      (bit v 30 = true ∧ s.GroupOutside i w → s.redgrpWrite f i g v = u.refuse (coreLastRefuse i) rRegionViolation) ∧
      (¬ (bit v 30 = true ∧ s.GroupOutside i w) → s.redgrpWrite f i g v = (u.wr (shellRedgrp i g) w).updCore i fun t => t.newGroup g) := by
  have hu := s.ite_rgWrite_rgOnly f (pageBase (shellRedgrp i g)) (writeFields (regFields (shellRedgrp i g)) (s.rd (shellRedgrp i g)) v).2
  generalize hdef : (if (writeFields (regFields (shellRedgrp i g)) (s.rd (shellRedgrp i g)) v).2 = true then
    s.rgWrite f (pageBase (shellRedgrp i g)) else s) = u at hu
  have hreg : ∀ x, u.stopeRegion x = s.stopeRegion x := hu.stopeRegion (by simp only [pageBase]; omega)
  have hvalid : groupValid w = bit v 30 := by rw [hw, regFields_redgrp hi hg, groupValid_redgrp]
  have hbad : (groupValid w && ((u.stopeRegion i).isNone || !((groupStopes w).contains (groupRoot w)) ||
      (groupStopes w).any fun x => u.stopeRegion x != u.stopeRegion i)) = true ↔ bit v 30 = true ∧ s.GroupOutside i w := by
    simp [hvalid, hreg, State.GroupOutside, or_assoc]
  have heq : s.redgrpWrite f i g v = if (groupValid w && ((u.stopeRegion i).isNone || !((groupStopes w).contains (groupRoot w)) ||
      (groupStopes w).any fun x => u.stopeRegion x != u.stopeRegion i)) = true then u.refuse (coreLastRefuse i) rRegionViolation
      else (u.wr (shellRedgrp i g) w).updCore i fun t => t.newGroup g := by
    rw [State.redgrpWrite, if_neg (by simp [hmay]; omega)]
    dsimp only
    rw [hdef, ← hw]
  exact ⟨u, hu, fun h => heq.trans (if_pos (hbad.2 h)), fun h => heq.trans (if_neg (mt hbad.1 h))⟩

theorem shellRedgrp_own {i g : Nat} (hg : g < 8) : 0x100 ≤ shellRedgrp i g % 0x1000 := by
  simp only [shellRedgrp, shellPage]
  omega

theorem shellRedgrp_ne_lastRefuse {i g : Nat} (hg : g < 8) : shellRedgrp i g ≠ coreLastRefuse i := by
  have := coreBase_mod i
  simp only [shellRedgrp, shellPage, coreLastRefuse]
  omega

/-- A group outside its region is refused, and its register keeps its value. -/
theorem redgrpWrite_refuses {s : State} {f i g : Nat} {v : Word} (hg : g < 8) (hi : i < 256) (hmay : s.mayWrite f (shellRedgrp i g) = true)
    (hv : bit v 30 = true) (hout : s.GroupOutside i (writeFields (regFields (shellRedgrp i g)) (s.rd (shellRedgrp i g)) v).1) :
    Gives (.redgrpWrite f i g v) s fun t =>
      t.rd (shellRedgrp i g) = s.rd (shellRedgrp i g) ∧ t.rd (coreLastRefuse i) = BitVec.ofNat 32 rRegionViolation ∧
      RegsKept s t [coreLastRefuse i, regErrStatus (pageBase (shellRedgrp i g)), regEvtStatus (pageBase (shellRedgrp i g))] ∧
      { t with regs := s.regs, edge := { t.edge with msi := s.edge.msi } } = s := by
  obtain ⟨u, hu, hrefused, -⟩ := State.redgrpWrite_cases hg hi hmay rfl
  refine ⟨_, rfl, ?_⟩
  rw [hrefused ⟨hv, hout⟩]
  have hkept : RegsKept s (u.refuse (coreLastRefuse i) rRegionViolation)
      [coreLastRefuse i, regErrStatus (pageBase (shellRedgrp i g)), regEvtStatus (pageBase (shellRedgrp i g))] := fun o ho => by
    obtain ⟨hne, ho⟩ := not_or.1 (mt List.mem_cons.2 ho)
    exact (u.rd_refuse_other _ hne).trans (hu.regs o ho)
  refine ⟨hkept _ ?_, u.rd_refuse_same .., hkept, hu.frame⟩
  simp [ne_common_of_own (shellRedgrp_own hg), shellRedgrp_ne_lastRefuse hg]

/-- A group that is taken counts its reductions afresh. -/
theorem redgrpWrite_takes {s : State} {f i g : Nat} {v : Word} (hg : g < 8) (hi : i < 256) (hmay : s.mayWrite f (shellRedgrp i g) = true)
    (hin : bit v 30 = true → ¬ s.GroupOutside i (writeFields (regFields (shellRedgrp i g)) (s.rd (shellRedgrp i g)) v).1) :
    Gives (.redgrpWrite f i g v) s fun t =>
      t.rd (shellRedgrp i g) = (writeFields (regFields (shellRedgrp i g)) (s.rd (shellRedgrp i g)) v).1 ∧
      (∀ q ∈ (t.core i).reductions, q.group ≠ g) ∧ t.core i = (s.core i).newGroup g ∧ (∀ j, j ≠ i → t.core j = s.core j) ∧
      RegsKept s t [shellRedgrp i g, regErrStatus (pageBase (shellRedgrp i g)), regEvtStatus (pageBase (shellRedgrp i g))] ∧
      { t with cores := s.cores, regs := s.regs, edge := { t.edge with msi := s.edge.msi } } = s := by
  obtain ⟨u, hu, -, htaken⟩ := State.redgrpWrite_cases hg hi hmay rfl
  refine ⟨_, rfl, ?_⟩
  rw [htaken fun h => hin h.1 h.2]
  have hcore : ((u.wr (shellRedgrp i g) (writeFields (regFields (shellRedgrp i g)) (s.rd (shellRedgrp i g)) v).1).updCore i
      fun t => t.newGroup g).core i = (s.core i).newGroup g := by
    rw [State.core_updCore_same, State.wr_core, hu.core]
  refine ⟨by rw [State.updCore_rd, State.rd_wr_same], ?_, hcore, fun j hj => ?_, fun o ho => ?_, ?_⟩
  · rw [hcore]
    intro q hq
    simpa using (List.mem_filter.1 hq).2
  · rw [State.core_updCore_other _ _ hj, State.wr_core, hu.core]
  · obtain ⟨hne, ho⟩ := not_or.1 (mt List.mem_cons.2 ho)
    rw [State.updCore_rd, State.rd_wr_other _ _ hne, hu.regs o ho]
  · exact congrArg (fun t : State => { t with cores := s.cores }) hu.frame

/-! ### Protection masks and the pool (R170, R180, R181, R197) -/

/-- A register and a core written. -/
theorem coreRegs_wr_updCore (s : State) (o : Nat) (v : Word) (c : Nat) (f : Core → Core) : CoreRegs s ((s.wr o v).updCore c f) c [o] := by
  refine ⟨fun j hj => ?_, fun x hx => ?_, rfl⟩
  · rw [State.core_updCore_other _ _ hj, State.wr_core]
  · rw [State.updCore_rd, State.rd_wr_other _ _ fun e => hx (by simp [e])]

theorem Core.mem_reencode (t : Core) (rs : List Nat) (k : Nat) : k ∈ (t.reencode rs).reprot ↔ k < 80 ∧ (k ∈ t.reprot ∨ k ∈ rs) := by
  simp [Core.reencode]

theorem storeReg_coreProt {s : State} {f c : Nat} {v : Word} (hc : c < 272) :
    s.storeReg f (coreProt c) v = s.wr (coreProt c) (setFld (s.rd (coreProt c)) 15 0 (fld v 15 0)) := by
  have hrg : rgMask (coreProt c) = 0 := by simp only [rgMask, coreProt_mod]; decide
  rw [State.storeReg_of_row (rowAt_coreProt hc) (homeOff_coreProt hc), hrg]
  exact if_neg (by simp [protRow, writeFields, Field.write_any])

theorem fld_prot (w v : Word) : fld (setFld w 15 0 (fld v 15 0)) 15 0 = fld v 15 0 := by
  rw [fld_setFld_same _ _ _ _ (by omega) (by omega), Nat.mod_eq_of_lt (fld_lt v 15 0)]

theorem bit_prot (w v : Word) {k : Nat} (hk : k < 16) : bit (setFld w 15 0 (fld v 15 0)) k = bit v k := by
  rw [bit_eq_testBit_fld _ (Nat.zero_le k) (show k ≤ 15 by omega), fld_prot, ← bit_eq_testBit_fld _ (Nat.zero_le k) (show k ≤ 15 by omega)]

/-- SP_PROT or CORE_PROT: the mode bits are the written ones, and a region whose bit changed is on the list. -/
theorem spProtWrite_gives {s : State} {f c : Nat} {v : Word} (hc : c < 272) (hmay : s.mayWrite f (coreProt c) = true) :
    Gives (.spProtWrite f c v) s fun t =>
      fld (t.rd (coreProt c)) 15 0 = fld v 15 0 ∧
      (∀ k, k ∈ (t.core c).reprot ↔ k < 80 ∧ (k ∈ (s.core c).reprot ∨ k < 16 ∧ bit (s.rd (coreProt c)) k ≠ bit v k)) ∧
      { t.core c with reprot := (s.core c).reprot } = s.core c ∧ CoreRegs s t c [coreProt c] := by
  refine ⟨_, rfl, ?_⟩
  rw [State.protWrite, if_neg (by simp [hmay]), storeReg_coreProt hc]
  refine ⟨?_, fun k => ?_, ?_, coreRegs_wr_updCore ..⟩
  · rw [State.updCore_rd, State.rd_wr_same, fld_prot]
  · rw [State.core_updCore_same, Core.mem_reencode, State.wr_core, State.rd_wr_same]
    refine and_congr_right fun _ => or_congr_right ?_
    rw [List.mem_filter, List.mem_range]
    exact and_congr_right fun hk => by rw [bit_prot _ _ hk, bne_iff_ne]
  · rw [State.core_updCore_same, State.wr_core]
    rfl

/-- A core's pool masks exist, and the function may write the one named: the write is not ignored. -/
theorem pool_not_ignored {s : State} {f m half lo hi : Nat} (hm : m < 16) (hh : half < 2) (hmay : s.mayWrite f (poolReg lo hi half) = true) :
    ¬ (16 ≤ m ∨ 2 ≤ half ∨ (!(s.mayWrite f (poolReg lo hi half))) = true) := by
  simp only [hmay, Bool.not_true, Bool.false_eq_true, or_false]
  omega

/-- POOL_PROT: the granules whose mode changes are on merge core 0's list. -/
theorem poolProtWrite_gives {s : State} {f m half : Nat} {v : Word} (hm : m < 16) (hh : half < 2)
    (hmay : s.mayWrite f (poolReg (mergePoolProtLo m) (mergePoolProtHi m) half) = true) :
    Gives (.poolProtWrite f m half v) s fun t =>
      t.rd (poolReg (mergePoolProtLo 0) (mergePoolProtHi 0) half) = v ∧
      (∀ g, g < 32 → (16 + 32 * half + g ∈ (t.core 256).reprot ↔ 16 + 32 * half + g ∈ (s.core 256).reprot ∨
        bit (s.rd (poolReg (mergePoolProtLo 0) (mergePoolProtHi 0) half)) g ≠ bit v g)) ∧
      CoreRegs s t 256 [poolReg (mergePoolProtLo 0) (mergePoolProtHi 0) half] := by
  refine ⟨_, rfl, ?_⟩
  rw [State.poolProtWrite, if_neg (pool_not_ignored hm hh hmay)]
  refine ⟨?_, fun g hg => ?_, coreRegs_wr_updCore ..⟩
  · rw [State.updCore_rd, State.rd_wr_same]
  · rw [State.core_updCore_same, Core.mem_reencode, State.wr_core, and_iff_right (by omega)]
    refine or_congr_right ?_
    simp [hg]

/-- POOL_RO: the register, and source records that go. -/
theorem poolRoWrite_gives {s : State} {f m half : Nat} {v : Word} (hm : m < 16) (hh : half < 2)
    (hmay : s.mayWrite f (poolReg (mergePoolRoLo m) (mergePoolRoHi m) half) = true) :
    Gives (.poolRoWrite f m half v) s fun t =>
      t.rd (poolReg (mergePoolRoLo 0) (mergePoolRoHi 0) half) = v ∧ { t.core 256 with roSource := (s.core 256).roSource } = s.core 256 ∧
      CoreRegs s t 256 [poolReg (mergePoolRoLo 0) (mergePoolRoHi 0) half] := by
  refine ⟨_, rfl, ?_⟩
  rw [State.poolRoWrite, if_neg (pool_not_ignored hm hh hmay)]
  refine ⟨?_, ?_, coreRegs_wr_updCore ..⟩
  · rw [State.updCore_rd, State.rd_wr_same]
  · rw [State.core_updCore_same, State.wr_core]

/-- Entries dropped by their keys. -/
theorem Table.get_filter_key {α : Type} (d : α) (t : Table α) (q : Nat → Bool) (k : Nat) :
    Table.get d (t.filter fun p => !(q p.1)) k = if q k then d else Table.get d t k := by
  induction t with
  | nil => simp
  | cons p t ih =>
    obtain ⟨i, a⟩ := p
    by_cases hk : i = k
    · subst hk
      by_cases hq : q i = true
      · simp [hq, ih]
      · simp [hq, Table.get]
    · by_cases hq : q i = true
      · simp [hq, ih, Table.get, hk]
      · simp [hq, ih, Table.get, hk]

/-- Whether a byte lies in a granule of the pool. -/
def inGranule (g a : Nat) : Bool := decide (poolBase + g * 0x100000 ≤ a ∧ a < poolBase + g * 0x100000 + 0x100000)

/-- Granules cleared: their bytes read 0, every other byte as before, and nothing else changed. -/
theorem State.each_clearGranule (s : State) (gs : List Nat) :
    (∀ a, readByte (s.each gs fun s g => s.clearGranule g).mem a = if gs.any (inGranule · a) then 0 else readByte s.mem a) ∧
      { s.each gs (fun s g => s.clearGranule g) with mem := s.mem } = s := by
  induction gs generalizing s with
  | nil => exact ⟨fun _ => rfl, rfl⟩
  | cons g gs ih =>
    obtain ⟨hmem, hframe⟩ := ih (s.clearGranule g)
    refine ⟨fun a => (hmem a).trans ?_, congrArg (fun t : State => { t with mem := s.mem }) hframe⟩
    have hg : readByte (s.clearGranule g).mem a = if inGranule g a then 0 else readByte s.mem a := Table.get_filter_key 0 s.mem (inGranule g) a
    rw [hg, List.any_cons]
    cases inGranule g a <;> cases gs.any (inGranule · a) <;> rfl

/-- The granules that a grant gives and no core held. -/
def State.freshGranules (s : State) (half : Nat) (v : Word) : List Nat :=
  (((List.range 32).map fun i => (32 * half + i, bit v i)).filter fun p => p.2 && !(s.granuleHeld p.1)).map (·.1)

theorem State.mem_freshGranules (s : State) (half : Nat) (v : Word) (x : Nat) :
    x ∈ s.freshGranules half v ↔ ∃ g < 32, bit v g = true ∧ s.granuleHeld (32 * half + g) = false ∧ x = 32 * half + g := by
  simp only [State.freshGranules, List.mem_map, List.mem_filter, List.mem_range, Bool.and_eq_true, Bool.not_eq_true']
  constructor
  · rintro ⟨-, ⟨⟨g, hg, rfl⟩, hv, hheld⟩, rfl⟩
    exact ⟨g, hg, hv, hheld, rfl⟩
  · rintro ⟨g, hg, hv, hheld, rfl⟩
    exact ⟨_, ⟨⟨g, hg, rfl⟩, hv, hheld⟩, rfl⟩

/-- A grant of a granule that a core of another region holds (R180). -/
def State.GrantConflict (s : State) (m half : Nat) (v : Word) : Prop :=
  ∃ g x, g < 32 ∧ x < 16 ∧ bit v g = true ∧ s.granted x (32 * half + g) = true ∧ s.coreRegion (256 + x) ≠ s.coreRegion (256 + m)

/-- POOL_GRANT: refused on a conflict, else the fresh granules lose their data and the register is written. -/
theorem State.poolGrantWrite_cases {s : State} {f m half : Nat} {v : Word} (hm : m < 16) (hh : half < 2)
    (hmay : s.mayWrite f (poolReg (mergePoolGrantLo m) (mergePoolGrantHi m) half) = true) :
    (s.GrantConflict m half v → s.poolGrantWrite f m half v = s.refuse (coreLastRefuse (256 + m)) rRegionViolation) ∧
    (¬ s.GrantConflict m half v → s.poolGrantWrite f m half v = (s.each (s.freshGranules half v) fun s g => s.clearGranule g).wr
      (poolReg (mergePoolGrantLo m) (mergePoolGrantHi m) half) v) := by
  have hconflict : (((List.range 32).map fun i => (32 * half + i, bit v i)).any fun p => p.2 && (List.range 16).any fun x =>
      s.granted x p.1 && s.coreRegion (256 + x) != s.coreRegion (256 + m)) = true ↔ s.GrantConflict m half v := by
    simp only [State.GrantConflict, List.any_eq_true, List.mem_map, List.mem_range, Bool.and_eq_true, bne_iff_ne]
    constructor
    · rintro ⟨-, ⟨g, hg, rfl⟩, hv, x, hx, hheld, hr⟩
      exact ⟨g, x, hg, hx, hv, hheld, hr⟩
    · rintro ⟨g, x, hg, hx, hv, hheld, hr⟩
      exact ⟨_, ⟨g, hg, rfl⟩, hv, x, hx, hheld, hr⟩
  rw [State.poolGrantWrite, if_neg (pool_not_ignored hm hh hmay)]
  exact ⟨fun h => if_pos (hconflict.2 h), fun h => if_neg (mt hconflict.1 h)⟩

theorem poolGrantWrite_refuses {s : State} {f m half : Nat} {v : Word} (hm : m < 16) (hh : half < 2)
    (hmay : s.mayWrite f (poolReg (mergePoolGrantLo m) (mergePoolGrantHi m) half) = true) (hc : s.GrantConflict m half v) :
    Gives (.poolGrantWrite f m half v) s fun t =>
      t.rd (coreLastRefuse (256 + m)) = BitVec.ofNat 32 rRegionViolation ∧ RegsKept s t [coreLastRefuse (256 + m)] ∧
      { t with regs := s.regs } = s := by
  refine ⟨_, rfl, ?_⟩
  rw [(State.poolGrantWrite_cases hm hh hmay).1 hc]
  exact ⟨s.rd_refuse_same .., fun o ho => s.rd_refuse_other _ fun e => ho (by simp [e]), rfl⟩

theorem poolGrantWrite_grants {s : State} {f m half : Nat} {v : Word} (hm : m < 16) (hh : half < 2)
    (hmay : s.mayWrite f (poolReg (mergePoolGrantLo m) (mergePoolGrantHi m) half) = true) (hc : ¬ s.GrantConflict m half v) :
    Gives (.poolGrantWrite f m half v) s fun t =>
      t.rd (poolReg (mergePoolGrantLo m) (mergePoolGrantHi m) half) = v ∧
      (∀ g x, g < 32 → x < 0x100000 → bit v g = true → s.granuleHeld (32 * half + g) = false →
        readByte t.mem (poolBase + (32 * half + g) * 0x100000 + x) = 0) ∧
      (∀ a, (∀ g, g < 32 → bit v g = true → s.granuleHeld (32 * half + g) = false →
          a < poolBase + (32 * half + g) * 0x100000 ∨ poolBase + (32 * half + g + 1) * 0x100000 ≤ a) → readByte t.mem a = readByte s.mem a) ∧
      RegsKept s t [poolReg (mergePoolGrantLo m) (mergePoolGrantHi m) half] ∧ { t with regs := s.regs, mem := s.mem } = s := by
  refine ⟨_, rfl, ?_⟩
  rw [(State.poolGrantWrite_cases hm hh hmay).2 hc]
  obtain ⟨hmem, hframe⟩ := s.each_clearGranule (s.freshGranules half v)
  have hregs : (s.each (s.freshGranules half v) fun s g => s.clearGranule g).regs = s.regs := by
    have := congrArg State.regs hframe
    exact this
  refine ⟨State.rd_wr_same .., fun g x hg hx hv hheld => (hmem _).trans (if_pos ?_), fun a ha => (hmem a).trans (if_neg ?_), fun o ho => ?_,
    congrArg (fun t : State => { t with regs := s.regs }) hframe⟩
  · refine List.any_eq_true.2 ⟨_, (s.mem_freshGranules ..).2 ⟨g, hg, hv, hheld, rfl⟩, ?_⟩
    simp only [inGranule, decide_eq_true_eq]
    omega
  · intro hany
    obtain ⟨y, hy, hin⟩ := List.any_eq_true.1 hany
    obtain ⟨g, hg, hv, hheld, rfl⟩ := (s.mem_freshGranules ..).1 hy
    have := ha g hg hv hheld
    simp only [inGranule, decide_eq_true_eq] at hin
    omega
  · rw [State.rd_wr_other _ _ fun e => ho (by simp [e]), State.rd, hregs, State.rd]

/-- A region that is done is off the list. -/
theorem reprotRegionDone_gives {s : State} {c k : Nat} (h : (s.core c).reprot.find? (fun r => decide (16 ≤ r) == decide (16 ≤ k)) = some k) :
    Gives (.reprotRegionDone c k []) s fun t => t.core c = { s.core c with reprot := (s.core c).reprot.erase k } ∧ CoreOnly s t c := by
  refine ⟨s.updCore c fun t => { t with reprot := t.reprot.erase k }, congrArg Host.Outcome.next (if_pos h), ?_⟩
  exact ⟨s.core_updCore_same .., fun j hj => s.core_updCore_other _ hj, rfl⟩

/-! ### Re-runs and the faults they end in (R172, R174, R178) -/

theorem State.dropHeld_core (s : State) (c id j : Nat) : (s.dropHeld c id).core j = s.core j := rfl
theorem State.dropStepOn_core_same (s : State) (c id : Nat) : (s.dropStepOn c id).core c = (s.core c).dropStep id := by
  rw [State.dropStepOn, State.dropHeld_core, State.core_updCore_same]
theorem State.dropStepOn_rd (s : State) (c id o : Nat) : (s.dropStepOn c id).rd o = s.rd o := rfl
theorem State.dropStepOn_mem (s : State) (c id : Nat) : (s.dropStepOn c id).mem = s.mem := rfl

/-- A step that runs faults: LAST_FAULT, a notice, and the step is off its core. -/
theorem State.stepFault_ends {s : State} {c index cause : Nat} {r : Running} (hrun : (s.core c).run = some r) (hc : cause < 0x10000) :
    (s.stepFault c r.id index cause).rd (coreLastFault c) = BitVec.ofNat 32 (cause + min index 4095 * 0x10000) ∧
      (∃ x ∈ (s.stepFault c r.id index cause).noc.notices, x.cause = cause ∧ x.source = coreEp c) ∧
      ((s.stepFault c r.id index cause).core c).run = none ∧ ((s.stepFault c r.id index cause).core c).rerun = none ∧
      (s.stepFault c r.id index cause).mem = s.mem := by
  unfold State.stepFault
  dsimp only
  rw [State.notify_rd, State.updCore_rd, State.dropStepOn_rd, State.rd_wr_same, Nat.mod_eq_of_lt hc, State.notify_core, State.core_updCore_same,
    State.dropStepOn_core_same, State.wr_core, State.notify_mem, State.updCore_mem, State.dropStepOn_mem, State.wr_mem]
  refine ⟨rfl, ⟨_, List.mem_append_right _ (List.mem_singleton.2 rfl), rfl, rfl⟩, ?_, ?_, rfl⟩
  · simp [Core.dropStep, hrun]
  · simp [Core.dropStep, hrun]

theorem State.permanentEffect_cores (s : State) (u : Nat) : (s.permanentEffect u).cores = s.cores := by
  unfold State.permanentEffect
  split
  · rfl
  · rfl
  · rfl
  · rfl

theorem State.declarePermanent_cores (s : State) (u : Nat) : (s.declarePermanent u).cores = s.cores := by
  unfold State.declarePermanent
  split
  · split
    · rfl
    · exact State.permanentEffect_cores ..
  · rfl

/-- The tally's count leaves the cores. -/
theorem State.countAt_cores (s : State) (x : Nat × Nat × Nat) (u cause detail : Nat) (again : Bool) :
    (s.countAt x u cause detail again).cores = s.cores := by
  unfold State.countAt
  extract_lets tally s₁
  have h₁ : s₁.cores = s.cores := by
    dsimp only [s₁]
    split
    · split
      · rfl
      · rfl
    · split
      · rfl
      · split
        · rfl
        · rfl
  split
  · split
    · exact (State.declarePermanent_cores ..).trans h₁
    · exact h₁
  · exact h₁

theorem State.updCore_run {s : State} {k : Nat} {f : Core → Core} (c : Nat) (hf : ∀ t, (f t).run = t.run := by intro; rfl) :
    ((s.updCore k f).core c).run = (s.core c).run := by
  by_cases h : c = k
  · subst h
    rw [State.core_updCore_same, hf]
  · rw [State.core_updCore_other _ _ h]

theorem State.setPoison_run (s : State) (w c : Nat) : ((s.setPoison w).core c).run = (s.core c).run := by
  unfold State.setPoison
  split
  · rfl
  · exact State.updCore_run c

/-- A word marked bad leaves the cores' steps running. -/
theorem State.markBad_run (s : State) (w c : Nat) : ((s.markBad w).2.core c).run = (s.core c).run := by
  unfold State.markBad
  extract_lets k pool used s₁ s₂ u s₃
  by_cases hu : used < (if pool then 512 else 64)
  · rw [if_pos hu]
    have h₁ : (s₁.core c).run = (s.core c).run := by
      dsimp only [s₁]
      split
      · rfl
      · rfl
    have h₂ : (s₂.core c).run = (s.core c).run := (State.setPoison_run ..).trans ((State.updCore_run c).trans h₁)
    have hcores : s₃.cores = s₂.cores := State.countAt_cores ..
    have h₃ : (s₃.core c).run = (s.core c).run := by
      rw [State.core, hcores]
      exact h₂
    clear_value s₃
    dsimp only
    split
    · exact h₃
    · exact h₃
  · rw [if_neg hu]

/-- Whether a spare is free is in the registers of used spares alone. -/
theorem State.markBad_fst_congr {s t : State} (h : ∀ o, o % 0x1000 = 0x134 ∨ o % 0x1000 = 0x174 → t.rd o = s.rd o) (w : Nat) :
    (t.markBad w).1 = (s.markBad w).1 := by
  have hfst : ∀ u : State, (u.markBad w).1 = decide ((if isPoolWord w then fld (u.rd (mergePoolSpareUsed 0)) 9 0
      else fld (u.rd (coreSpareUsed (wordCore w))) 6 0) < (if isPoolWord w then 512 else 64)) := fun u => by
    unfold State.markBad
    dsimp only
    by_cases hu : (if isPoolWord w then fld (u.rd (mergePoolSpareUsed 0)) 9 0 else fld (u.rd (coreSpareUsed (wordCore w))) 6 0) <
        (if isPoolWord w then 512 else 64)
    · rw [if_pos hu, decide_eq_true hu]
    · rw [if_neg hu, decide_eq_false hu]
  have hcore : coreSpareUsed (wordCore w) % 0x1000 = 0x134 := by
    have := coreBase_mod (wordCore w)
    simp only [coreSpareUsed]
    omega
  rw [hfst, hfst, h _ (.inl hcore), h _ (.inr (by decide))]

theorem coreRerun_mod (c : Nat) : coreRerun c % 0x1000 = 0x130 := by
  have := coreBase_mod c
  simp only [coreRerun]
  omega

theorem coreParity_mod (c : Nat) : coreParity c % 0x1000 = 0x12C := by
  have := coreBase_mod c
  simp only [coreParity]
  omega

/-- A fill is made again from memory and the page tables: registers do not change what it brings. -/
theorem State.refill_inc (s : State) (o n c w : Nat) : ((s.inc o n).refill c w) = ((s.refill c w).inc o n) := by
  have hcore : (s.inc o n).core c = s.core c := s.wr_core ..
  unfold State.refill
  dsimp only
  rw [hcore]
  split
  · rfl
  · rfl

/-- A fill made again changes the memory alone. -/
theorem State.refill_eq (s : State) (c w : Nat) : s.refill c w = { s with mem := (s.refill c w).mem } := by
  unfold State.refill
  dsimp only
  split
  · rfl
  · rfl

/-- The memory once a stopped descriptor's operand buffer, if its word lies in one, is filled again. -/
def State.rerunMem (s : State) (c w : Nat) : List Host.Cell := if isObWord w then (s.refill c w).mem else s.mem

theorem State.exec_stepRerun {s : State} {c w : Nat} {d : Desc} {r : Running} (hre : (s.core c).rerun = some (d, w))
    (hrun : (s.core c).run = some r) :
    exec (.stepRerun c false) s = .next ((({ s with mem := s.rerunMem c w } : State).inc (coreRerun c) 1).updCore c
      fun t => { t with rerun := none, fetched := some d, again := true }) := by
  have hfill : (if isObWord w then (s.inc (coreRerun c) 1).refill c w else s.inc (coreRerun c) 1) =
      ({ s with mem := s.rerunMem c w } : State).inc (coreRerun c) 1 := by
    unfold State.rerunMem
    split
    · rw [State.refill_inc, ← State.refill_eq]
    · rfl
  show execStepRerun c false s = _
  rw [← hfill, execStepRerun, hre, hrun]
  rfl

/-- Beside the memory, a counter advanced and a core's state changed are all that moved. -/
theorem coreRegs_mem_inc_updCore (s : State) (m : List Host.Cell) (o n c : Nat) (f : Core → Core) :
    CoreRegs s { (({ s with mem := m } : State).inc o n).updCore c f with mem := s.mem } c [o] := by
  refine ⟨fun j hj => ?_, fun x hx => State.rd_inc_other _ _ fun e => hx (by simp [e]), rfl⟩
  exact (State.core_updCore_other _ _ hj).trans (State.wr_core ..)

/-- The stopped descriptor goes back to the head of its core, and is a re-run from now on. -/
theorem stepRerun_gives {s : State} {c w : Nat} {d : Desc} {r : Running} (hre : (s.core c).rerun = some (d, w)) (hrun : (s.core c).run = some r) :
    Gives (.stepRerun c false) s fun t =>
      (t.core c).fetched = some d ∧ (t.core c).rerun = none ∧ (t.core c).again = true ∧ t.rd (coreRerun c) = s.rd (coreRerun c) + 1 ∧
      (isObWord w = false → t.mem = s.mem) ∧ (isObWord w = true → t.mem = (s.refill c w).mem) ∧
      CoreRegs s { t with mem := s.mem } c [coreRerun c] := by
  refine ⟨_, State.exec_stepRerun hre hrun, ?_⟩
  dsimp only
  rw [State.core_updCore_same, State.updCore_rd, State.rd_inc_same, State.updCore_mem]
  exact ⟨rfl, rfl, rfl, rfl, fun h => if_neg (by simp [h]), fun h => if_pos h, coreRegs_mem_inc_updCore ..⟩

/-- A second mismatch faults the step: in an operand buffer by parity, elsewhere with the word bad, or with no spare left. -/
theorem stepRerun_faults {s : State} {c w : Nat} {d : Desc} {r : Running} (hre : (s.core c).rerun = some (d, w)) (hrun : (s.core c).run = some r) :
    Gives (.stepRerun c true) s fun t =>
      (let cause := if isObWord w then causeObParity else if (s.markBad w).1 then causeSpWordBad else causeSpSparesOut
       t.rd (coreLastFault c) = BitVec.ofNat 32 (cause + min d.index 4095 * 0x10000) ∧
       (∃ x ∈ t.noc.notices, x.cause = cause ∧ x.source = coreEp c)) ∧
      (t.core c).run = none ∧ (t.core c).rerun = none ∧ (isObWord w = true → t.mem = s.mem) := by
  have hexec : exec (.stepRerun c true) s = .next (let u := (s.inc (coreRerun c) 1).inc (coreParity c) 1
      if isObWord w then u.stepFault c r.id d.index causeObParity
      else (u.markBad w).2.stepFault c r.id d.index (if (u.markBad w).1 then causeSpWordBad else causeSpSparesOut)) := by
    show execStepRerun c true s = _
    rw [execStepRerun, hre, hrun]
    rfl
  have hu : (((s.inc (coreRerun c) 1).inc (coreParity c) 1).core c).run = some r := hrun
  have hspare : (((s.inc (coreRerun c) 1).inc (coreParity c) 1).markBad w).1 = (s.markBad w).1 := State.markBad_fst_congr (fun o ho => by
    have hre := coreRerun_mod c
    have hpar := coreParity_mod c
    rw [State.rd_inc_other _ _ (by rintro rfl; omega), State.rd_inc_other _ _ (by rintro rfl; omega)]) w
  refine ⟨_, hexec, ?_⟩
  dsimp only
  by_cases hob : isObWord w = true
  · obtain ⟨hrd, hnote, hoff, hre, hmem⟩ := State.stepFault_ends (index := d.index) (cause := causeObParity) hu (by decide)
    rw [if_pos hob, if_pos hob]
    have hkept : ((s.inc (coreRerun c) 1).inc (coreParity c) 1).mem = s.mem := (State.wr_mem ..).trans (State.wr_mem ..)
    exact ⟨⟨hrd, hnote⟩, hoff, hre, fun _ => hmem.trans hkept⟩
  · have hcause : (if (s.markBad w).1 = true then causeSpWordBad else causeSpSparesOut) < 0x10000 := by
      split
      · decide
      · decide
    obtain ⟨hrd, hnote, hoff, hre, -⟩ := State.stepFault_ends (index := d.index) ((State.markBad_run _ w c).trans hu) hcause
    rw [if_neg hob, if_neg hob, hspare]
    exact ⟨⟨hrd, hnote⟩, hoff, hre, fun h => absurd h hob⟩

/-- A stope set, its core's state changed and a counter advanced are all that moved. -/
theorem State.setStope_updCore_inc (s : State) (c o n : Nat) (x : Stope) (f : Core → Core) :
    (((s.setStope c x).updCore c f).inc o n).stope c = x ∧ (((s.setStope c x).updCore c f).inc o n).rd o = s.rd o + BitVec.ofNat 32 n ∧
      RegsKept s (((s.setStope c x).updCore c f).inc o n) [o] ∧
      (∀ j, j ≠ c → (((s.setStope c x).updCore c f).inc o n).stope j = s.stope j ∧
        (((s.setStope c x).updCore c f).inc o n).core j = s.core j) ∧
      { ((s.setStope c x).updCore c f).inc o n with stopes := s.stopes, cores := s.cores, regs := s.regs } = s := by
  refine ⟨s.stope_setStope_same .., State.rd_inc_same .., fun p hp => State.rd_inc_other _ _ fun e => hp (by simp [e]),
    fun j hj => ⟨?_, ?_⟩, rfl⟩
  · exact s.stope_setStope_other _ hj
  · exact (State.wr_core ..).trans ((State.core_updCore_other _ _ hj).trans (s.setStope_core ..))

/-- A lost LAUNCH runs again on the same operands. -/
theorem stepRerun_relaunches {s : State} {c : Nat} {i : Issued} {l : Launch} (hre : (s.core c).rerun = none)
    (hl : s.lostLaunch c = some (i, l)) (href : (s.stope c).ref = .ready) :
    Gives (.stepRerun c false) s fun t =>
      (t.stope c).launches = ((s.stope c).launches.filter fun x => x.id != l.id) ++
        [{ l with id := (s.stope c).nextLaunch, running := false, left := 0, ended := false, status := 0, reruns := 0 }] ∧
      t.rd (coreRerun c) = s.rd (coreRerun c) + 1 ∧ RegsKept s t [coreRerun c] ∧
      (∀ j, j ≠ c → t.stope j = s.stope j ∧ t.core j = s.core j) ∧
      { t with stopes := s.stopes, cores := s.cores, regs := s.regs } = s := by
  have hexec : exec (.stepRerun c false) s = .next (s.relaunch c i l) := by
    show execStepRerun c false s = _
    rw [execStepRerun, hre]
    dsimp only
    rw [hl]
    exact congrArg Host.Outcome.next (if_pos href)
  refine ⟨_, hexec, ?_⟩
  obtain ⟨hstope, hrerun, hregs, hothers, hframe⟩ := s.setStope_updCore_inc c (coreRerun c) 1 _ _
  exact ⟨congrArg Stope.launches hstope, hrerun, hregs, hothers, hframe⟩

/-! ### The scrubber, a program's reload and the watchdog (R173, R193, R347) -/

theorem coreRegs_updCore (s : State) (c : Nat) (f : Core → Core) (offs : List Nat) : CoreRegs s (s.updCore c f) c offs :=
  ⟨fun _ hj => s.core_updCore_other _ hj, fun _ _ => s.updCore_rd .., rfl⟩

theorem coreRegs_updCore_wr64 (s : State) (c o n : Nat) (f : Core → Core) : CoreRegs s ((s.updCore c f).wr64 o n) c [o, o + 4] := by
  refine ⟨fun j hj => (State.wr64_core ..).trans (s.core_updCore_other _ hj), fun x hx => ?_, rfl⟩
  rw [State.rd_wr64_other _ _ (fun e => hx (by simp [e])) (fun e => hx (by simp [e])), State.updCore_rd]

/-- A scrub read that meets no error moves on, and after the last word keeps the time of the pass. -/
theorem scrubRead_gives {s : State} {c word : Nat} (hon : bit (s.rd (coreBase c + 0x100)) 0 = true)
    (hdue : s.memInUse c = false ∨ (s.core c).scrubLast + (if c < 256 then 50000 else 25000) ≤ s.now)
    (hnext : s.nextCorrect c (s.core c).scrubPos = some word) :
    Gives (.scrubRead c word []) s fun t =>
      t.core c = { s.core c with scrubPos := if (s.nextCorrect c (word + 1)).isSome then word + 1 else 0, scrubLast := s.now } ∧
      (s.nextCorrect c (word + 1) = none → t.rd64 (coreScrubLast c) = s.now % 2 ^ 64) ∧
      CoreRegs s t c [coreScrubLast c, coreScrubLast c + 4] := by
  refine ⟨_, congrArg Host.Outcome.next (if_pos ?_), ?_⟩
  · simpa [hon, hnext] using hdue
  · dsimp only [List.filter_nil, State.each, List.foldl_nil]
    cases s.nextCorrect c (word + 1) with
    | some _ => exact ⟨s.core_updCore_same .., nofun, coreRegs_updCore ..⟩
    | none => exact ⟨(State.wr64_core ..).trans (s.core_updCore_same ..), fun _ => State.rd64_wr64 .., coreRegs_updCore_wr64 ..⟩

theorem State.sendFence_fence (s : State) (p ep old new q : Nat) : (s.sendFence p ep old new).fence q = s.fence q := by
  unfold State.sendFence
  dsimp only
  split
  · split
    · rfl
    · rfl
  · split
    · rfl
    · rfl

theorem State.sendFence_frame (s : State) (p ep old new : Nat) :
    { s.sendFence p ep old new with noc := { (s.sendFence p ep old new).noc with ctl := s.noc.ctl, nets := s.noc.nets } } = s := by
  unfold State.sendFence
  dsimp only
  split
  · split
    · rfl
    · rfl
  · split
    · rfl
    · rfl

/-- A cause of the headframe's that it drops is off the block; beside the fence there are only messages. -/
theorem State.unfence_spec (s : State) (p cause : Nat) :
    (∀ x ∈ ((s.unfence p cause).fence p).causes, x.1 ≠ cause) ∧
      { s.unfence p cause with noc := { (s.unfence p cause).noc with fences := s.noc.fences, ctl := s.noc.ctl, nets := s.noc.nets } } = s := by
  unfold State.unfence
  dsimp only
  refine ⟨fun x hx => ?_, congrArg (fun t : State => { t with noc := { t.noc with fences := s.noc.fences } }) (State.sendFence_frame ..)⟩
  rw [State.sendFence_fence, State.fence_setFence_same] at hx
  simpa using (List.mem_filter.1 hx).2

theorem progReloaded_gives {s : State} {f c : Nat} (hmay : s.mayWrite f (coreBase c + 0x100) = true) :
    Gives (.progReloaded f c) s fun t =>
      t.core c = { s.core c with progLost := false } ∧ (∀ x ∈ (t.fence (coreBase c)).causes, x.1 ≠ 1) ∧
      (∀ j, j ≠ c → t.core j = s.core j) ∧
      { t with cores := s.cores, noc := { t.noc with fences := s.noc.fences, ctl := s.noc.ctl, nets := s.noc.nets } } = s := by
  refine ⟨_, congrArg Host.Outcome.next (if_pos hmay), ?_⟩
  unfold State.progReload
  obtain ⟨hcauses, hframe⟩ := (s.updCore c fun t => { t with progLost := false }).unfence_spec (coreBase c) 1
  have hcores : ((s.updCore c fun t => { t with progLost := false }).unfence (coreBase c) 1).cores =
      (s.updCore c fun t => { t with progLost := false }).cores := by
    have h := congrArg State.cores hframe
    exact h
  refine ⟨?_, hcauses, fun j hj => ?_, congrArg (fun t : State => { t with cores := s.cores }) hframe⟩
  · rw [State.core, hcores]
    exact s.core_updCore_same ..
  · rw [State.core, hcores]
    exact s.core_updCore_other _ hj

/-- An assay that is forced is due, and forced. -/
theorem State.forceAssay_due (s : State) (kind unit : Nat) (bank : Bool) :
    ∃ d ∈ (s.forceAssay kind unit bank).tally.due, d.kind = kind ∧ d.unit = unit ∧ d.forced = true := by
  obtain ⟨d, hd, hmatch⟩ : ∃ d ∈ (s.orderAssay kind unit bank).tally.due, (d.kind == kind && d.unit == unit && d.bank == bank) = true := by
    unfold State.orderAssay
    split
    · next h => exact List.any_eq_true.1 h
    · exact ⟨_, List.mem_append_right _ (List.mem_singleton.2 rfl), by simp⟩
  refine ⟨{ d with forced := true }, List.mem_map.2 ⟨d, hd, if_pos hmatch⟩, ?_, ?_, rfl⟩
  · simp only [Bool.and_eq_true, beq_iff_eq] at hmatch
    exact hmatch.1.1
  · simp only [Bool.and_eq_true, beq_iff_eq] at hmatch
    exact hmatch.1.2

theorem State.forceAssay_frame (s : State) (kind unit : Nat) (bank : Bool) :
    { s.forceAssay kind unit bank with tally := { (s.forceAssay kind unit bank).tally with due := s.tally.due } } = s := by
  unfold State.forceAssay State.orderAssay
  split
  · rfl
  · rfl

/-- A step whose watchdog has expired is marked, the step being named by its identity. -/
def Running.markWatched (id : Nat) (x : Running) : Running := if x.id == id then { x with watched := true } else x

theorem Running.markWatched_watched {id : Nat} {x : Running} (h : (x.markWatched id).id = id) : (x.markWatched id).watched = true := by
  unfold Running.markWatched at h ⊢
  by_cases hid : x.id = id
  · rw [if_pos (beq_iff_eq.2 hid)]
  · rw [if_neg (by simpa using hid)] at h
    exact absurd h hid

/-- A core with the steps of an identity marked, running or finishing. -/
def Core.markWatched (id : Nat) (t : Core) : Core :=
  { t with run := t.run.map (Running.markWatched id), finishing := t.finishing.map (Running.markWatched id) }

theorem Core.markWatched_watched (id : Nat) (t : Core) :
    ∀ x ∈ (t.markWatched id).run.toList ++ (t.markWatched id).finishing, x.id = id → x.watched = true := by
  intro x hx hid
  obtain ⟨y, rfl⟩ : ∃ y, Running.markWatched id y = x := by
    rcases List.mem_append.1 hx with hrun | hfin
    · rw [Option.mem_toList] at hrun
      obtain ⟨y, -, hy⟩ := Option.map_eq_some_iff.1 hrun
      exact ⟨y, hy⟩
    · obtain ⟨y, -, hy⟩ := List.mem_map.1 hfin
      exact ⟨y, hy⟩
  exact Running.markWatched_watched hid

theorem State.forceAssay_noc (s : State) (kind unit : Nat) (bank : Bool) : (s.forceAssay kind unit bank).noc = s.noc := by
  have h := congrArg State.noc (s.forceAssay_frame kind unit bank)
  exact h

theorem State.forceAssay_core (s : State) (kind unit : Nat) (bank : Bool) (j : Nat) : (s.forceAssay kind unit bank).core j = s.core j := by
  have h := congrArg (fun t : State => t.core j) (s.forceAssay_frame kind unit bank)
  exact h

/-- A core's state changed, a notice sent and a check forced: nothing else moves. -/
theorem State.updCore_notify_forceAssay (s : State) (c kind unit : Nat) (f : Core → Core) (n : Notice) :
    Noticed s (((s.updCore c f).notify n).forceAssay kind unit false) n.cause n.source ∧
      NocNotices s (((s.updCore c f).notify n).forceAssay kind unit false) ∧
      { ((s.updCore c f).notify n).forceAssay kind unit false with
        cores := s.cores, noc := s.noc,
        tally := { (((s.updCore c f).notify n).forceAssay kind unit false).tally with due := s.tally.due } } = s := by
  have hnoc := ((s.updCore c f).notify n).forceAssay_noc kind unit false
  refine ⟨?_, ?_, congrArg (fun t : State => { t with cores := s.cores, noc := s.noc })
    (((s.updCore c f).notify n).forceAssay_frame kind unit false)⟩
  · rw [Noticed, hnoc]
    exact ⟨_, rfl, rfl, rfl⟩
  · rw [NocNotices, hnoc]
    rfl

/-- The first late step is reported once, and its core's cross-check forced. -/
theorem stepWatchdogExpiry_gives {s : State} {c : Nat} {r : Running} (hlate : ((s.core c).run.toList ++ (s.core c).finishing).find?
      (fun r => !r.watched && decide (r.started + r.step.bound + fld (s.rd assayWatchMargin) 15 0 * 1000 ≤ s.now)) = some r) :
    Gives (.stepWatchdogExpiry c) s fun t =>
      (∀ x ∈ (t.core c).run.toList ++ (t.core c).finishing, x.id = r.id → x.watched = true) ∧ Noticed s t causeStepLate (coreEp c) ∧
      (∃ d ∈ t.tally.due, d.kind = 3 ∧ d.unit = unitCore c ∧ d.forced = true) ∧
      (∀ j, j ≠ c → t.core j = s.core j) ∧ NocNotices s t ∧
      { t with cores := s.cores, noc := s.noc, tally := { t.tally with due := s.tally.due } } = s := by
  have hexec : exec (.stepWatchdogExpiry c) s = .next (((s.updCore c (Core.markWatched r.id)).notify
      { cause := causeStepLate, unit := unitCore c, detail := r.next, source := coreEp c, stream := r.step.stream,
        region := (s.coreRegion c).getD 0, time := 0, seq := 0 }).forceAssay 3 (unitCore c) false) := by
    show execStepWatchdogExpiry c s = _
    unfold execStepWatchdogExpiry
    dsimp only
    rw [hlate]
    rfl
  refine ⟨_, hexec, ?_⟩
  obtain ⟨hnoticed, hnoc, hframe⟩ := s.updCore_notify_forceAssay c 3 (unitCore c) (Core.markWatched r.id)
    { cause := causeStepLate, unit := unitCore c, detail := r.next, source := coreEp c, stream := r.step.stream,
      region := (s.coreRegion c).getD 0, time := 0, seq := 0 }
  refine ⟨?_, hnoticed, State.forceAssay_due .., fun j hj => ?_, hnoc, hframe⟩
  · rw [State.forceAssay_core, State.notify_core, State.core_updCore_same]
    exact Core.markWatched_watched r.id (s.core c)
  · rw [State.forceAssay_core, State.notify_core, State.core_updCore_other _ _ hj]

/-! ### The clauses together -/

/-- A reserved code of a group's rectangle leaves its field, and the root and the mark are as written. -/
theorem redgrp_fields {i g : Nat} (hg : g < 8) (hi : i < 256) (old v : Word) :
    (∀ lo ∈ [0, 5, 10, 15], fld (writeFields (regFields (shellRedgrp i g)) old v).1 (lo + 4) lo =
        if bit v (lo + 4) = true then fld old (lo + 4) lo else fld v (lo + 4) lo) ∧
      fld (writeFields (regFields (shellRedgrp i g)) old v).1 30 20 = fld v 30 20 := by
  rw [regFields_redgrp hi hg]
  refine ⟨fun lo hlo => ?_, fld_redgrp_root old v⟩
  obtain ⟨n, hn, rfl⟩ : ∃ n, n < 4 ∧ lo = 5 * n := by
    have hcodes : ∀ lo ∈ [0, 5, 10, 15], ∃ n, n < 4 ∧ lo = 5 * n := by decide
    exact hcodes lo hlo
  exact fld_redgrp_code n old v hn

theorem State.not_groupOutside {s : State} {i : Nat} {w : Word} (hregion : ∃ n, s.stopeRegion i = some n) (hroot : groupRoot w ∈ groupStopes w)
    (hall : ∀ x ∈ groupStopes w, s.stopeRegion x = s.stopeRegion i) : ¬ s.GroupOutside i w := by
  obtain ⟨n, hn⟩ := hregion
  rintro (hnone | hout | ⟨x, hx, hne⟩)
  · rw [hn] at hnone
    nomatch hnone
  · exact hout hroot
  · exact hne (hall x hx)

/-- Settles O30: the fields of REDGRP and its two outcomes, the protection writes with their re-encoding, the pool's grants, the re-runs,
the scrubber, the program's reload and the watchdog, each by its own lemma. -/
theorem coreMemoriesAreKept : Obligations.CoreMemoriesAreKept := by
  unfold Obligations.CoreMemoriesAreKept
  refine ⟨?fields, ?groupRefused, ?groupTaken, ?spProt, ?reprot, ?grant, ?grantRefused, ?poolProt, ?poolRo, ?rerun, ?rerunFault, ?relaunch,
    ?scrub, ?reload, ?watchdog⟩
  case fields => exact fun s f i g v hg hi hmay => redgrp_fields hg hi _ v
  case groupRefused => exact fun s f i g v hg hi hmay hv hout => redgrpWrite_refuses hg hi hmay hv hout
  case groupTaken =>
    intro s f i g v hg hi hmay off w hin
    refine redgrpWrite_takes hg hi hmay fun hv => ?_
    obtain ⟨hregion, hroot, hall⟩ := hin hv
    exact State.not_groupOutside hregion hroot hall
  case spProt => exact fun s f c v hc hmay => spProtWrite_gives hc hmay
  case reprot => exact fun s c k hk => reprotRegionDone_gives hk
  case grant =>
    intro s f m half v hm hh hmay hfree
    refine poolGrantWrite_grants hm hh hmay ?_
    rintro ⟨g, x, hg, hx, hbit, hgranted, hregion⟩
    exact hregion (hfree g x hg hx hbit hgranted)
  case grantRefused =>
    exact fun s f m half g x v hm hh hg hx hmay hbit hgranted hregion =>
      poolGrantWrite_refuses hm hh hmay ⟨g, x, hg, hx, hbit, hgranted, hregion⟩
  case poolProt => exact fun s f m half v hm hh hmay => poolProtWrite_gives hm hh hmay
  case poolRo => exact fun s f m half v hm hh hmay => poolRoWrite_gives hm hh hmay
  case rerun => exact fun s c w d r hre hrun => stepRerun_gives hre hrun
  case rerunFault => exact fun s c w d r hre hrun => stepRerun_faults hre hrun
  case relaunch => exact fun s c i l hre hl href => stepRerun_relaunches hre hl href
  case scrub => exact fun s c word hon hdue hnext => scrubRead_gives hon hdue hnext
  case reload => exact fun s f c hmay => progReloaded_gives hmay
  case watchdog => exact fun s c r hlate => stepWatchdogExpiry_gives hlate

end Sys2Proof.Machine

namespace Sys2Proof.Machine

/-! ## O3: a write that is not permitted (R42, R455, R457) -/

/-- Settles O3: every form of a write asks first whether the function may write there, and gives the state back where it may not. -/
theorem forbiddenWritesDoNothing : Obligations.ForbiddenWritesDoNothing := by
  unfold Obligations.ForbiddenWritesDoNothing
  intro s f
  refine ⟨fun off v hmay => ⟨?write, ?low, ?high⟩, fun p hmay => ⟨fun on => ?enable, ?quiesce, ?fenceSet, ?fenceClear⟩,
    fun p v hmay => ?inject⟩
  case write => exact congrArg Host.Outcome.next (if_pos (by rw [hmay]; rfl))
  case low => exact congrArg Host.Outcome.next (if_neg (by simp [hmay]))
  case high => exact congrArg Host.Outcome.next (if_neg (by simp [hmay]))
  case enable => exact congrArg Host.Outcome.next (if_neg (by simp [hmay]))
  case quiesce => exact congrArg Host.Outcome.next (if_neg (by simp [hmay]))
  case fenceSet => exact congrArg Host.Outcome.next (if_neg (by simp [hmay]))
  case fenceClear => exact congrArg Host.Outcome.next (if_neg (by simp [hmay]))
  case inject => exact congrArg Host.Outcome.next (if_neg (by simp [hmay]))

/-! ## O46: what a report leaves alone (R51, R370 to R373) -/

/-- A reflexive and transitive relation that every step of a fold keeps holds from its start to its end. -/
theorem State.each_rel {α : Type} {R : State → State → Prop} {f : State → α → State} (hrefl : ∀ s, R s s)
    (htrans : ∀ s t u, R s t → R t u → R s u) (hf : ∀ s a, R s (f s a)) (s : State) (l : List α) : R s (s.each l f) := by
  induction l generalizing s with
  | nil => exact hrefl s
  | cons a l ih => exact htrans _ _ _ (hf s a) (ih (f s a))

/-- The machine without what an alarm's records move: host memory, the event rings, the edge, and the alarms of the second. -/
def State.unposted (s : State) : State :=
  { s with mem := [], edge := Edge.reset, wnd := { s.wnd with evrs := [], evWait := [] },
           tally := { s.tally with sent := [], excess := [], lastAlarm := none } }

/-- The machine without what a report moves: the registers, the log, and what its records move. -/
def State.unreported (s : State) : State :=
  { s.unposted with regs := [], tally := { s.unposted.tally with log := [] } }

theorem State.writeRecord_unposted (s : State) (i : Nat) (rec : Record) : (s.writeRecord i rec).unposted = s.unposted := by
  unfold State.writeRecord
  dsimp only
  split
  · rfl
  · rfl

theorem State.post_unposted (s : State) (i : Nat) (rec : Record) : (s.post i rec).unposted = s.unposted := by
  unfold State.post
  split
  · exact s.writeRecord_unposted i rec
  · split
    · rfl
    · rfl

theorem State.hostReport_unposted (s : State) (r : Report) (stream : Option Nat) : (s.hostReport r stream).unposted = s.unposted := by
  unfold State.hostReport
  extract_lets d u
  have hu : u.unposted = s.unposted := s.post_unposted ..
  cases stream with
  | none => exact hu
  | some i =>
    dsimp only
    split
    · exact (u.post_unposted ..).trans hu
    · exact hu

theorem State.ringAlarm_unposted (s : State) (r : Report) : (s.ringAlarm r).unposted = s.unposted := by
  unfold State.ringAlarm State.flushAlarms
  split
  · rfl
  · rfl

/-- The counters that a report may advance (R372, R377). -/
def reportCounters : List Nat := [tallyAlarmCountLo, tallyAlarmCountLo + 4, tallyLogOverwriteCount, tallyTraceDropCount]

/-- Nothing moved but what a report moves, and of the registers its counters alone. -/
structure Reported (s t : State) : Prop where
  regs : RegsKept s t reportCounters
  frame : t.unreported = s.unreported

section
variable {s t u : State}

theorem Reported.trans (h : Reported s t) (h' : Reported t u) : Reported s u :=
  ⟨fun o ho => (h'.regs o ho).trans (h.regs o ho), h'.frame.trans h.frame⟩

/-- What a report does not move reads as before. -/
theorem Reported.field {α : Type} (h : Reported s t) (π : State → α) (hπ : ∀ x : State, π x.unreported = π x) : π t = π s :=
  (hπ t).symm.trans ((congrArg π h.frame).trans (hπ s))

/-- What an event record does not move reads as before. -/
theorem field_of_unposted {α : Type} (h : t.unposted = s.unposted) (π : State → α) (hπ : ∀ x : State, π x.unposted = π x) : π t = π s :=
  (hπ t).symm.trans ((congrArg π h).trans (hπ s))

theorem Reported.of_unposted (h : t.unposted = s.unposted) : Reported s t :=
  ⟨fun o _ => field_of_unposted h (·.rd o) fun _ => rfl,
    congrArg (fun x : State => { x with regs := [], tally := { x.tally with log := [] } }) h⟩

theorem Reported.of_wr {o : Nat} {v : Word} (ho : o ∈ reportCounters) : Reported s (s.wr o v) :=
  ⟨fun _ hx => s.rd_wr_other _ fun e => hx (e ▸ ho), rfl⟩

end

theorem State.logRecord_reported (s : State) (r : Report) : Reported s (s.logRecord r) := by
  unfold State.logRecord
  dsimp only
  split
  · exact ⟨(Reported.of_wr (s := { s with tally := { s.tally with log := _ } }) (by simp [reportCounters])).regs, rfl⟩
  · exact ⟨fun _ _ => rfl, rfl⟩

theorem State.inc64_alarmCount_reported (s : State) : Reported s (s.inc64 tallyAlarmCountLo 1) :=
  (Reported.of_wr (by simp [reportCounters])).trans (Reported.of_wr (by simp [reportCounters]))

theorem State.ringTrace_reported (s : State) (r : Report) : Reported s (s.ringTrace r) := by
  unfold State.ringTrace
  split
  · exact .of_unposted rfl
  · split
    · exact .of_wr (by simp [reportCounters])
    · exact .of_unposted rfl

/-- The record of a report (R371). -/
def State.reportOf (s : State) (time q cause unit detail ep : Nat) : Report :=
  { cls := (causeClass cause).code, coalesced := false, cause := cause, unit := unit, time := time, source := s.sourceId ep, seq := q,
    detail := detail, count := 1 }

/-- An ALARM or a LOG is logged, an ALARM counted before; what follows moves neither the registers nor the log. -/
theorem State.reportAt_logs (s : State) {time q cause unit detail ep : Nat} {stream : Option Nat} (h : causeClass cause ≠ .trace) :
    ∃ u, (u = s ∨ u = s.inc64 tallyAlarmCountLo 1) ∧
      (s.reportAt time q cause unit detail ep stream).unposted = (u.logRecord (s.reportOf time q cause unit detail ep)).unposted := by
  unfold State.reportAt State.reportOf
  cases hc : causeClass cause with
  | alarm =>
    refine ⟨_, .inr rfl, ?_⟩
    dsimp only
    split
    · exact (State.hostReport_unposted ..).trans (State.ringAlarm_unposted ..)
    · rfl
  | log =>
    refine ⟨_, .inl rfl, ?_⟩
    dsimp only
    split
    · exact State.hostReport_unposted ..
    · rfl
  | trace => exact absurd hc h

theorem State.reportAt_reported (s : State) (time q cause unit detail ep : Nat) (stream : Option Nat) :
    Reported s (s.reportAt time q cause unit detail ep stream) := by
  by_cases hc : causeClass cause = .trace
  · simp only [State.reportAt, hc]
    split
    · exact (s.logRecord_reported _).trans (State.ringTrace_reported ..)
    · exact .of_unposted rfl
  · obtain ⟨u, hu, heq⟩ := s.reportAt_logs (stream := stream) hc
    have hcount : Reported s u := by
      rcases hu with rfl | rfl
      · exact .of_unposted rfl
      · exact s.inc64_alarmCount_reported
    exact (hcount.trans (u.logRecord_reported _)).trans (.of_unposted heq)

/-! ### The log (R372) -/

theorem mem_insertReport {x r : Report} {l : List Report} : x ∈ insertReport r l ↔ x = r ∨ x ∈ l := by
  induction l with
  | nil => simp [insertReport]
  | cons y l ih =>
    unfold insertReport
    split
    · simp
    · simp [ih, or_left_comm]

theorem length_insertReport (r : Report) (l : List Report) : (insertReport r l).length = l.length + 1 := by
  induction l with
  | nil => rfl
  | cons y l ih =>
    unfold insertReport
    split
    · rfl
    · simp [ih]

/-- A log with room takes the record and loses none. -/
theorem State.logRecord_log {s : State} (r : Report) (h : s.tally.log.length < logCap) :
    (s.logRecord r).tally.log = insertReport r s.tally.log := by
  unfold State.logRecord
  exact congrArg (fun t : State => t.tally.log) (if_neg (by rw [length_insertReport]; omega))

theorem State.reportAt_log {s : State} {time q cause unit detail ep : Nat} {stream : Option Nat} (h : causeClass cause ≠ .trace)
    (hroom : s.tally.log.length < logCap) :
    (s.reportAt time q cause unit detail ep stream).tally.log = insertReport (s.reportOf time q cause unit detail ep) s.tally.log := by
  obtain ⟨u, hu, heq⟩ := s.reportAt_logs (stream := stream) h
  have htally : u.tally = s.tally := by
    rcases hu with rfl | rfl
    · rfl
    · exact s.inc64_tally ..
  rw [field_of_unposted heq (·.tally.log) fun _ => rfl, State.logRecord_log _ (by rwa [htally]), htally]

/-! ### Coalesced alarms (R372) -/

/-- Whether a record stands for the alarms of a source, cause and unit beyond a second's 64. -/
def Report.Coalesces (r : Report) (now : Nat) (x : Nat × Nat × Nat × Nat) : Prop :=
  r.coalesced = true ∧ r.source = x.1 ∧ r.cause = x.2.1 ∧ r.unit = x.2.2.1 ∧ r.count = x.2.2.2 ∧ r.time = now

/-- A COALESCED record is counted and logged; what follows moves neither the registers nor the log. -/
theorem State.coalesced_logs (s : State) (x : Nat × Nat × Nat × Nat) :
    ∃ r : Report, r.Coalesces s.now x ∧
      (s.coalesced x).unposted = (((s.nextSeq x.1).2.inc tallyAlarmCoalescedCount 1).logRecord r).unposted :=
  ⟨_, ⟨rfl, rfl, rfl, rfl, rfl, rfl⟩, (State.hostReport_unposted ..).trans (State.ringAlarm_unposted ..)⟩

theorem ReportKept.trans {s t u : State} {offs : List Nat} (h : ReportKept s t offs) (h' : ReportKept t u offs) : ReportKept s u offs := by
  obtain ⟨hregs, hstreams, hkv, hswap⟩ := h
  obtain ⟨hregs', hstreams', hkv', hswap'⟩ := h'
  exact ⟨fun o ho => (hregs' o ho).trans (hregs o ho), hstreams'.trans hstreams, hkv'.trans hkv, hswap'.trans hswap⟩

/-- A report alone stays within what a statement allows a report. -/
theorem Reported.kept {s t : State} (h : Reported s t) (offs : List Nat) : ReportKept s t offs :=
  ⟨fun o ho => h.regs o fun hc => ho (List.mem_append_left offs hc), h.field (·.wnd.streams) fun _ => rfl, h.field (·.kv) fun _ => rfl,
    h.field (·.swap) fun _ => rfl⟩

/-- What a COALESCED record leaves alone. -/
theorem State.coalesced_kept (s : State) (x : Nat × Nat × Nat × Nat) :
    ReportKept s (s.coalesced x) [tallyAlarmCoalescedCount] ∧ (s.coalesced x).now = s.now := by
  obtain ⟨r, -, heq⟩ := s.coalesced_logs x
  have hcount : ReportKept s ((s.nextSeq x.1).2.inc tallyAlarmCoalescedCount 1) [tallyAlarmCoalescedCount] :=
    ⟨fun o ho => State.rd_inc_other _ _ fun e => ho (by simp [e]), rfl, rfl, rfl⟩
  have hlog := State.logRecord_reported ((s.nextSeq x.1).2.inc tallyAlarmCoalescedCount 1) r
  have hall := hlog.trans (.of_unposted heq)
  exact ⟨hcount.trans (hall.kept _), (hall.field (·.now) fun _ => rfl).trans rfl⟩

theorem State.coalesced_count (s : State) (x : Nat × Nat × Nat × Nat) :
    (s.coalesced x).rd tallyAlarmCoalescedCount = s.rd tallyAlarmCoalescedCount + BitVec.ofNat 32 1 := by
  obtain ⟨r, -, heq⟩ := s.coalesced_logs x
  have hlog := State.logRecord_reported ((s.nextSeq x.1).2.inc tallyAlarmCoalescedCount 1) r
  exact ((hlog.trans (.of_unposted heq)).regs _ (by decide)).trans (State.rd_inc_same ..)

theorem State.coalesced_log {s : State} (x : Nat × Nat × Nat × Nat) (hroom : s.tally.log.length < logCap) :
    ∃ r : Report, r.Coalesces s.now x ∧ (s.coalesced x).tally.log = insertReport r s.tally.log := by
  obtain ⟨r, hr, heq⟩ := s.coalesced_logs x
  exact ⟨r, hr, (field_of_unposted heq (·.tally.log) fun _ => rfl).trans (State.logRecord_log r hroom)⟩

/-- The records of a second's excess alarms: what they leave alone. -/
theorem State.each_coalesced_kept (s : State) (xs : List (Nat × Nat × Nat × Nat)) :
    ReportKept s (s.each xs State.coalesced) [tallyAlarmCoalescedCount] ∧ (s.each xs State.coalesced).now = s.now :=
  State.each_rel (R := fun s t => ReportKept s t [tallyAlarmCoalescedCount] ∧ t.now = s.now)
    (fun _ => ⟨⟨fun _ _ => rfl, rfl, rfl, rfl⟩, rfl⟩)
    (fun _ _ _ ⟨hkept, hnow⟩ ⟨hkept', hnow'⟩ => ⟨hkept.trans hkept', hnow'.trans hnow⟩) State.coalesced_kept s xs

theorem State.each_coalesced_count (s : State) (xs : List (Nat × Nat × Nat × Nat)) :
    (s.each xs State.coalesced).rd tallyAlarmCoalescedCount = s.rd tallyAlarmCoalescedCount + BitVec.ofNat 32 xs.length := by
  induction xs generalizing s with
  | nil => exact (BitVec.add_zero _).symm
  | cons x xs ih =>
    refine (ih (s.coalesced x)).trans ?_
    rw [s.coalesced_count, List.length_cons, BitVec.ofNat_add, add_assoc, add_comm (BitVec.ofNat 32 xs.length)]

/-- With room for all of them, the log keeps what it held and takes a record for every entry. -/
theorem State.each_coalesced_log {s : State} {xs : List (Nat × Nat × Nat × Nat)} (hroom : s.tally.log.length + xs.length ≤ logCap) :
    (∀ r ∈ s.tally.log, r ∈ (s.each xs State.coalesced).tally.log) ∧
      ∀ x ∈ xs, ∃ r ∈ (s.each xs State.coalesced).tally.log, r.Coalesces s.now x := by
  induction xs generalizing s with
  | nil => exact ⟨fun _ hr => hr, nofun⟩
  | cons x xs ih =>
    rw [List.length_cons] at hroom
    obtain ⟨r, hr, hlog⟩ := State.coalesced_log (s := s) x (by omega)
    obtain ⟨hkeep, hnew⟩ := ih (s := s.coalesced x) (by rw [hlog, length_insertReport]; omega)
    rw [hlog] at hkeep
    refine ⟨fun y hy => hkeep y (mem_insertReport.2 (.inr hy)), fun y hy => ?_⟩
    rcases List.mem_cons.1 hy with rfl | hy
    · exact ⟨r, hkeep r (mem_insertReport.2 (.inl rfl)), hr⟩
    · rw [(s.coalesced_kept x).2] at hnew
      exact hnew y hy

theorem alarmSecond_gives {s : State} (hlate : s.tally.second < s.sec) (hroom : s.tally.log.length + s.tally.excess.length ≤ logCap) :
    Gives .alarmSecond s fun t =>
      t.tally.second = s.sec ∧ t.tally.sent = [] ∧ t.tally.excess = [] ∧
      t.rd tallyAlarmCoalescedCount = s.rd tallyAlarmCoalescedCount + BitVec.ofNat 32 s.tally.excess.length ∧
      (∀ x ∈ s.tally.excess, ∃ r ∈ t.tally.log, r.coalesced = true ∧ r.source = x.1 ∧ r.cause = x.2.1 ∧ r.unit = x.2.2.1 ∧ r.count = x.2.2.2 ∧
        r.time = s.now) ∧
      ReportKept s t [tallyAlarmCoalescedCount] :=
  ⟨_, congrArg Host.Outcome.next (if_pos hlate), rfl, rfl, rfl, s.each_coalesced_count _, (State.each_coalesced_log hroom).2,
    (s.each_coalesced_kept _).1⟩

/-! ### Writes of the tally's copies (R365, R366, R377) -/

/-- Every unit that a write names was written in this second. -/
theorem get_foldl_set {l : Table Nat} {units : List Nat} {k v : Nat} (h : k ∈ units ∨ Table.get 0 l k = v) :
    Table.get 0 (units.foldl (fun l u => Table.set 0 l u v) l) k = v := by
  induction units generalizing l with
  | nil => simpa using h
  | cons u units ih =>
    refine ih ?_
    rw [Table.get_set]
    by_cases hk : k = u
    · exact .inr (if_pos hk)
    · rw [if_neg hk]
      exact h.imp_left fun hm => (List.mem_cons.1 hm).resolve_left hk

theorem State.mem_copyAfter_of_written {s : State} {old : List TallyEntry} {waiting : List Nat} {e : TallyEntry} (he : e ∈ s.tally.entries)
    (hw : e.unit ∉ waiting) : e ∈ s.copyAfter old waiting :=
  List.mem_append_left _ (List.mem_filterMap.2 ⟨e, he, if_neg (by simpa using hw)⟩)

theorem State.copyAfter_nil (s : State) (old : List TallyEntry) : s.copyAfter old [] = s.tally.entries := by
  simp [State.copyAfter]

/-- A unit whose change waits keeps what the copy held. -/
theorem State.mem_old_of_waiting {s : State} {old : List TallyEntry} {waiting : List Nat} {e : TallyEntry} (he : e ∈ s.copyAfter old waiting)
    (hw : e.unit ∈ waiting) : e ∈ old := by
  rcases List.mem_append.1 he with he | he
  · obtain ⟨x, -, hx⟩ := List.mem_filterMap.1 he
    split at hx
    · exact List.mem_of_find?_eq_some hx
    · next hn =>
      obtain rfl := Option.some.inj hx
      exact absurd hw (by simpa using hn)
  · exact (List.mem_filter.1 he).1

theorem tallyCopy_checks (seq : Nat) (ok : Bool) (es : List TallyEntry) : (tallyCopy seq ok es).checks = true := beq_self_eq_true _

/-- A write of some units' changes: both copies under the next SEQ, with what waits kept as it was. -/
theorem State.writeTally_spec (s : State) (units : List Nat) :
    let waiting := s.tally.dirty.filter fun u => !(units.contains u)
    let q := max s.tally.copy0.seq s.tally.copy1.seq + 1
    let t := s.writeTally units
    t.tally.copy0.seq = q ∧ t.tally.copy1.seq = q ∧ t.tally.copy0.checks = true ∧ t.tally.copy1.checks = true ∧
      t.tally.copy0.ok = s.tally.copy0.ok ∧ t.tally.copy1.ok = s.tally.copy1.ok ∧
      (∀ e ∈ s.tally.entries, e.unit ∉ waiting → e ∈ t.tally.copy0.entries ∧ e ∈ t.tally.copy1.entries) ∧
      (waiting = [] → t.tally.copy0.entries = s.tally.entries ∧ t.tally.copy1.entries = s.tally.entries) ∧
      (∀ e ∈ t.tally.copy0.entries, e.unit ∈ waiting → e ∈ s.tally.copy0.entries) ∧
      t.tally.dirty = waiting ∧ (∀ u ∈ units, Table.get 0 t.tally.lastWrite u = s.sec + 1) ∧
      { t with tally := { t.tally with copy0 := s.tally.copy0, copy1 := s.tally.copy1, dirty := s.tally.dirty,
                                       lastWrite := s.tally.lastWrite } } = s := by
  intro waiting q t
  refine ⟨rfl, rfl, tallyCopy_checks .., tallyCopy_checks .., rfl, rfl, fun e he hw => ?_, fun hw => ?_, fun e he hw => ?_, rfl,
    fun u hu => get_foldl_set (.inl hu), rfl⟩
  · exact ⟨State.mem_copyAfter_of_written he hw, State.mem_copyAfter_of_written he hw⟩
  · show s.copyAfter s.tally.copy0.entries waiting = _ ∧ s.copyAfter s.tally.copy1.entries waiting = _
    rw [hw]
    exact ⟨s.copyAfter_nil _, s.copyAfter_nil _⟩
  · exact State.mem_old_of_waiting he hw

theorem exec_tallyWrite (s : State) : exec .tallyWrite s = .next (
    if (s.tally.dirty.filter fun u => Table.get 0 s.tally.lastWrite u != s.sec + 1) = [] then s
    else s.writeTally (s.tally.dirty.filter fun u => Table.get 0 s.tally.lastWrite u != s.sec + 1)) :=
  congrArg Host.Outcome.next (if_congr List.isEmpty_iff rfl rfl)

theorem rowAt_tallyCtrl : rowAt tallyCtrl = some (⟨0x100, 1, 4, 1, 4, 0x00000000, false,
    [⟨0, 0, .w1s, .any⟩, ⟨1, 1, .w1s, .any⟩, ⟨2, 2, .rw, .any⟩]⟩, 0) := by decide

/-- A store of TALLY_CTRL writes that register and raises nothing. -/
theorem State.storeReg_tallyCtrl (s : State) (f : Nat) (v : Word) :
    ∃ w, s.storeReg f tallyCtrl v = s.wr tallyCtrl w := by
  rw [State.storeReg_of_row rowAt_tallyCtrl (by decide)]
  refine ⟨_, if_neg ?_⟩
  have hmask : rgMask tallyCtrl = 0 := by decide
  rw [hmask]
  simp [writeFields, Field.write, Chk.accepts]

/-- The command bits of a write of TALLY_CTRL that keeps the other fields. -/
theorem bit_tallyCtrl_cmd (w : Word) {c i : Nat} (hi : i < 2) : bit (setFld w 1 0 c) i = c.testBit i := by
  rw [bit_eq_getLsbD, getLsbD_setFld _ _ _ _ _ (by omega) (by omega), if_pos (by omega), Nat.sub_zero]

/-- CLEAR_TRANSIENT drops TRANSIENT entries alone, and leaves the copies to a later write (R366, R377). -/
theorem clearTransient_gives {s : State} {f : Nat} (hmay : s.mayWrite f tallyCtrl = true) :
    Gives (.clearTransient f) s fun t =>
      t.tally.entries = s.tally.entries.filter (fun e => e.state != 1) ∧ (∀ e ∈ s.tally.entries, e.state = 2 → e ∈ t.tally.entries) ∧
      t.tally.copy0 = s.tally.copy0 ∧ t.tally.copy1 = s.tally.copy1 ∧ { t with regs := s.regs, tally := s.tally } = s := by
  obtain ⟨w, hw⟩ := s.storeReg_tallyCtrl f (setFld (s.rd tallyCtrl) 1 0 1)
  have hclear : bit (setFld (s.rd tallyCtrl) 1 0 1) 0 = true := bit_tallyCtrl_cmd _ (by omega)
  have hflush : bit (setFld (s.rd tallyCtrl) 1 0 1) 1 = false := bit_tallyCtrl_cmd _ (by omega)
  refine ⟨_, rfl, ?_⟩
  rw [State.tallyCtrlWrite, if_neg (by simp [hmay])]
  dsimp only
  rw [hw, if_pos hclear, if_neg (by simp [hflush])]
  exact ⟨rfl, fun e he h2 => List.mem_filter.2 ⟨he, by simp [h2]⟩, rfl, rfl, rfl⟩

/-- FLUSH writes every change that waits, and without one it writes nothing. -/
theorem State.tallyCtrlWrite_flush {s : State} {f : Nat} (hmay : s.mayWrite f tallyCtrl = true) :
    ∃ w, s.tallyCtrlWrite f (setFld (s.rd tallyCtrl) 1 0 2) =
      if s.tally.dirty = [] then s.wr tallyCtrl w else (s.wr tallyCtrl w).writeTally s.tally.dirty := by
  obtain ⟨w, hw⟩ := s.storeReg_tallyCtrl f (setFld (s.rd tallyCtrl) 1 0 2)
  have hclear : ¬ bit (setFld (s.rd tallyCtrl) 1 0 2) 0 = true := by
    rw [bit_tallyCtrl_cmd _ (by omega)]
    decide
  have hflush : bit (setFld (s.rd tallyCtrl) 1 0 2) 1 = true := bit_tallyCtrl_cmd _ (by omega)
  refine ⟨w, ?_⟩
  rw [State.tallyCtrlWrite, if_neg (by simp [hmay])]
  dsimp only
  rw [hw, if_neg hclear, State.wr_tally]
  by_cases hd : s.tally.dirty = []
  · rw [if_pos hd, if_neg (by simp [hd])]
  · rw [if_neg hd, if_pos (by simp [hflush, hd])]

theorem flush_gives {s : State} {f : Nat} (hmay : s.mayWrite f tallyCtrl = true) :
    (s.tally.dirty ≠ [] →
      Gives (.flush f) s fun t =>
        t.tally.dirty = [] ∧ t.tally.copy0.entries = s.tally.entries ∧ t.tally.copy1.entries = s.tally.entries ∧
        t.tally.copy0.seq = max s.tally.copy0.seq s.tally.copy1.seq + 1 ∧ t.tally.copy1.seq = t.tally.copy0.seq ∧
        t.tally.copy0.checks = true ∧ t.tally.copy1.checks = true ∧
        t.tally.entries = s.tally.entries ∧ { t with regs := s.regs, tally := s.tally } = s) ∧
    (s.tally.dirty = [] → Gives (.flush f) s fun t => { t with regs := s.regs } = s) := by
  obtain ⟨w, hw⟩ := State.tallyCtrlWrite_flush hmay
  refine ⟨fun hd => ⟨_, congrArg Host.Outcome.next (hw.trans (if_neg hd)), ?_⟩,
    fun hd => ⟨_, congrArg Host.Outcome.next (hw.trans (if_pos hd)), rfl⟩⟩
  have hnone : (s.wr tallyCtrl w).tally.dirty.filter (fun u => !(s.tally.dirty.contains u)) = [] := by simp [State.wr_tally]
  obtain ⟨hseq0, hseq1, hck0, hck1, -, -, -, hentries, -, hdirty, -⟩ := (s.wr tallyCtrl w).writeTally_spec s.tally.dirty
  obtain ⟨he0, he1⟩ := hentries hnone
  exact ⟨hdirty.trans hnone, he0, he1, hseq0, hseq1.trans hseq0.symm, hck0, hck1, rfl, rfl⟩

theorem tallyFind_gives {s : State} {f n : Nat} {v : Word} (hmay : s.mayWrite f tallyFind = true) (hn : entryIndex v.toNat s.tally.entries = some n) :
    Gives (.tallyFind f v) s fun t =>
      t.rd tallySel = BitVec.ofNat 32 (n % 0x10000) ∧ t.tally = { s.tally with notFound := false } ∧ RegsKept s t [tallySel] ∧
      { t with regs := s.regs, tally := s.tally } = s := by
  refine ⟨_, rfl, ?_⟩
  rw [State.tallyFindWrite, if_neg (by simp [hmay]), hn]
  exact ⟨s.rd_wr_same .., rfl, fun o ho => s.rd_wr_other _ fun e => ho (by simp [e]), rfl⟩

theorem exec_tallyFind_missing {s : State} {f : Nat} {v : Word} (hmay : s.mayWrite f tallyFind = true)
    (hn : entryIndex v.toNat s.tally.entries = none) :
    exec (.tallyFind f v) s = .next { s with tally := { s.tally with notFound := true } } := by
  refine congrArg Host.Outcome.next ?_
  rw [State.tallyFindWrite, if_neg (by simp [hmay]), hn]

/-! ### A unit's entry (R362 to R364) -/

theorem find?_putEntry (e : TallyEntry) (l : List TallyEntry) : (putEntry e l).find? (fun x => x.unit == e.unit) = some e := by
  induction l with
  | nil => simp [putEntry]
  | cons x l ih =>
    unfold putEntry
    split
    · simp
    · next hne => simpa [hne] using ih

theorem State.tallyEntry_putTally (s : State) {e : TallyEntry} {unit : Nat} (h : e.unit = unit) : (s.putTally e).tallyEntry unit = some e :=
  h ▸ find?_putEntry ..

theorem State.unit_of_tallyEntry {s : State} {unit : Nat} {e : TallyEntry} (h : s.tallyEntry unit = some e) : e.unit = unit := by
  simpa using List.find?_some h

theorem State.isPermanent_of_tallyEntry {s : State} {unit : Nat} {e : TallyEntry} (h : s.tallyEntry unit = some e) :
    s.isPermanent unit = (e.state == 2) := by
  rw [State.isPermanent, h]

/-- The first event of a unit makes its entry, and nothing permanent. -/
theorem State.countAt_first {s : State} {unit : Nat} {x : Nat × Nat × Nat} {cause detail : Nat} (hnone : s.tallyEntry unit = none)
    (hroom : s.tally.entries.length < tallyCap) :
    s.countAt x unit cause detail false = s.putTally (TallyEntry.first unit cause detail x) := by
  have hput : (s.putTally (TallyEntry.first unit cause detail x)).tallyEntry unit = some (TallyEntry.first unit cause detail x) :=
    s.tallyEntry_putTally rfl
  have hthird : (TallyEntry.first unit cause detail x).third = false := by simp [TallyEntry.first, TallyEntry.third]
  simp only [State.countAt, hnone, if_pos hroom, hput, hthird, Bool.or_false, Bool.and_false, Bool.false_eq_true, if_false]

@[simp] theorem TallyEntry.event_unit (e : TallyEntry) (cause detail : Nat) (x : Nat × Nat × Nat) : (e.event cause detail x).unit = e.unit := by
  unfold TallyEntry.event TallyEntry.noteLast
  dsimp only
  split
  · rfl
  · rfl

@[simp] theorem TallyEntry.event_state (e : TallyEntry) (cause detail : Nat) (x : Nat × Nat × Nat) : (e.event cause detail x).state = e.state := by
  unfold TallyEntry.event TallyEntry.noteLast
  dsimp only
  split
  · rfl
  · rfl

/-- The third event within 24 h makes a unit permanent (R363). -/
theorem State.countAt_third {s : State} {unit : Nat} {x : Nat × Nat × Nat} {cause detail : Nat} {e : TallyEntry}
    (he : s.tallyEntry unit = some e) (hnew : x.1 / secNs ∉ e.times) (hdecl : declarable unit = true)
    (hthird : (e.event cause detail x).third = true) :
    s.countAt x unit cause detail false = (s.putTally (e.event cause detail x)).declarePermanent unit := by
  have hput := s.tallyEntry_putTally ((e.event_unit cause detail x).trans (State.unit_of_tallyEntry he))
  have hcontains : e.times.contains (x.1 / secNs) = false := by simpa using hnew
  simp only [State.countAt, he, hcontains, hput, hthird, hdecl, Bool.false_eq_true, if_false, Bool.true_or, Bool.and_true, if_true]

/-- A transient unit that is declared permanent keeps its entry, now permanent, and the effect on its block follows. -/
theorem State.declarePermanent_of_transient {s : State} {unit : Nat} {e : TallyEntry} (he : s.tallyEntry unit = some e) (hstate : e.state = 1) :
    s.declarePermanent unit = (s.putTally { e with state := 2, permTime := s.sec }).permanentEffect unit := by
  simp [State.declarePermanent, he, hstate]

/-! ### A pseudo-channel's unit (R361) -/

theorem unitPc_fields {k pc : Nat} (hk : k < 8) (hpc : pc < 32) :
    unitType (unitPc k pc) = 7 ∧ bitsOf (unitPc k pc) 2 0 = k ∧ bitsOf (unitPc k pc) 7 3 = pc := by
  simp only [unitType, unitPc, bitsOf]
  omega

theorem bit_or_twoPow (w : Word) {i : Nat} (hi : i < 32) (j : Nat) : bit (w ||| BitVec.ofNat 32 (2 ^ i)) j = (bit w j || decide (i = j)) := by
  rw [bit_eq_getLsbD, bit_eq_getLsbD, BitVec.getLsbD_or, BitVec.getLsbD_ofNat, Nat.testBit_two_pow]
  by_cases hj : i = j
  · simp [← hj, hi]
  · simp [hj]

/-! ### Notices at the headframe (R37, R38, R371) -/

theorem countsAgainst_paceLow (unit : Nat) : countsAgainst unit causePaceLow = false := by
  unfold countsAgainst
  split <;> rfl

/-- A notice that counts against no unit is reported; one of PACE_LOW notes its cause of a re-plan before (R27). -/
theorem exec_faultNotice_uncounted {s : State} {m : Notice} (harrived : s.noticeUnderWay m = false)
    (hcount : countsAgainst m.unit m.cause = false) (hcause : m.cause ≠ causeSpSparesOut) :
    exec (.faultNotice m) s = .next
      ((if m.cause = causePaceLow then (s.takeNotice m).replanCause 1 else s.takeNotice m).reportAt m.time m.seq m.cause m.unit m.detail
        m.source m.stream) := by
  show execFaultNotice m s = _
  simp only [execFaultNotice, harrived, hcount, hcause, Bool.false_eq_true, if_false]

/-- A notice that counts against its unit is reported after it has counted. -/
theorem exec_faultNotice_counted {s : State} {m : Notice} (harrived : s.noticeUnderWay m = false)
    (hcount : countsAgainst m.unit m.cause = true) (hcause : m.cause ≠ causeSpSparesOut) :
    exec (.faultNotice m) s = .next
      (((s.takeNotice m).countUnitAt (m.time, s.sourceId m.source, m.seq) m.unit m.cause m.detail false).reportAt m.time m.seq m.cause m.unit
        m.detail m.source m.stream) := by
  have hpace : m.cause ≠ causePaceLow := fun e => by simp [e, countsAgainst_paceLow] at hcount
  show execFaultNotice m s = _
  simp only [execFaultNotice, harrived, hcount, hcause, hpace, Bool.false_eq_true, if_false, if_true]
  rfl

theorem State.tallyEntry_congr {s t : State} (h : t.tally.entries = s.tally.entries) (unit : Nat) : t.tallyEntry unit = s.tallyEntry unit := by
  rw [State.tallyEntry, h, State.tallyEntry]

/-- A unit's entry is what counting made it: the report that follows leaves it. -/
theorem State.tallyEntry_reportAt (s : State) (time q cause unit detail ep : Nat) (stream : Option Nat) (u : Nat) :
    (s.reportAt time q cause unit detail ep stream).tallyEntry u = s.tallyEntry u :=
  State.tallyEntry_congr ((s.reportAt_reported ..).field (·.tally.entries) fun _ => rfl) u

/-- An event that leaves its unit transient has no further consequence. -/
theorem State.countUnitAt_of_transient {s t : State} {x : Nat × Nat × Nat} {unit cause detail : Nat}
    (ht : s.countAt x unit cause detail false = t) (hperm : t.isPermanent unit = false) :
    s.countUnitAt x unit cause detail false = t := by
  simp [State.countUnitAt, ht, hperm]

theorem faultNotice_logs {s : State} {m : Notice} (harrived : s.noticeUnderWay m = false) (hclass : causeClass m.cause ≠ .trace)
    (hcount : countsAgainst m.unit m.cause = false) (hcause : m.cause ≠ causeSpSparesOut) (hroom : s.tally.log.length < logCap) :
    Gives (.faultNotice m) s fun t =>
      t.noc = { s.noc with notices := s.noc.notices.erase m } ∧ t.tally.entries = s.tally.entries ∧
      (∃ r ∈ t.tally.log, r.cause = m.cause ∧ r.unit = m.unit ∧ r.detail = m.detail ∧ r.time = m.time ∧ r.seq = m.seq ∧
        r.source = s.sourceId m.source ∧ r.cls = (causeClass m.cause).code) ∧ ReportKept s t [] := by
  refine ⟨_, exec_faultNotice_uncounted harrived hcount hcause, ?_⟩
  obtain ⟨hf, hu⟩ : ∃ hf, (if m.cause = causePaceLow then (s.takeNotice m).replanCause 1 else s.takeNotice m) =
      { s.takeNotice m with hf := hf } := by
    split
    · exact ⟨_, rfl⟩
    · exact ⟨_, rfl⟩
  rw [hu]
  have hrep := State.reportAt_reported { s.takeNotice m with hf := hf } m.time m.seq m.cause m.unit m.detail m.source m.stream
  refine ⟨hrep.field (·.noc) fun _ => rfl, hrep.field (·.tally.entries) fun _ => rfl, ?_, hrep.kept []⟩
  rw [State.reportAt_log (s := { s.takeNotice m with hf := hf }) hclass hroom]
  exact ⟨_, mem_insertReport.2 (.inl rfl), rfl, rfl, rfl, rfl, rfl, rfl, rfl⟩

theorem faultNotice_counts_first {s : State} {m : Notice} (harrived : s.noticeUnderWay m = false)
    (hcount : countsAgainst m.unit m.cause = true) (hcause : m.cause ≠ causeSpSparesOut) (hnone : s.tallyEntry m.unit = none)
    (hroom : s.tally.entries.length < tallyCap) :
    Gives (.faultNotice m) s fun t =>
      t.tallyEntry m.unit = some (TallyEntry.first m.unit m.cause m.detail (m.time, s.sourceId m.source, m.seq)) ∧
        t.isPermanent m.unit = false := by
  have hentry : ((s.takeNotice m).putTally (TallyEntry.first m.unit m.cause m.detail (m.time, s.sourceId m.source, m.seq))).tallyEntry m.unit =
      some (TallyEntry.first m.unit m.cause m.detail (m.time, s.sourceId m.source, m.seq)) := State.tallyEntry_putTally _ rfl
  have hcounted := State.countUnitAt_of_transient (State.countAt_first (s := s.takeNotice m) hnone hroom)
    (State.isPermanent_of_tallyEntry hentry)
  refine ⟨_, exec_faultNotice_counted harrived hcount hcause, ?_⟩
  rw [hcounted]
  have hafter := (State.tallyEntry_reportAt _ m.time m.seq m.cause m.unit m.detail m.source m.stream m.unit).trans hentry
  exact ⟨hafter, State.isPermanent_of_tallyEntry hafter⟩

/-- A pseudo-channel that becomes permanent is fenced (R363). -/
theorem State.declarePermanent_pc {s : State} {k pc : Nat} {e : TallyEntry} (hk : k < 8) (hpc : pc < 32)
    (he : s.tallyEntry (unitPc k pc) = some e) (hstate : e.state = 1) :
    ∃ u : State, u.isPermanent (unitPc k pc) = true ∧
      s.declarePermanent (unitPc k pc) = u.wr (stackPcFence k) (s.rd (stackPcFence k) ||| BitVec.ofNat 32 (2 ^ pc)) := by
  obtain ⟨htype, hbits_k, hbits_pc⟩ := unitPc_fields hk hpc
  have hunit := State.unit_of_tallyEntry he
  have hentry := s.tallyEntry_putTally (e := { e with state := 2, permTime := s.sec }) hunit
  refine ⟨_, State.isPermanent_of_tallyEntry hentry, ?_⟩
  rw [State.declarePermanent_of_transient he hstate]
  unfold State.permanentEffect
  rw [htype, hbits_k, hbits_pc]
  rfl

/-- A pseudo-channel's third event declares it permanent; no spare is behind it (R363). -/
theorem State.countUnitAt_pc_third {s : State} {k pc cause detail : Nat} {x : Nat × Nat × Nat} {e : TallyEntry} (hk : k < 8) (hpc : pc < 32)
    (he : s.tallyEntry (unitPc k pc) = some e) (hstate : e.state = 1) (hnew : x.1 / secNs ∉ e.times)
    (hthird : (e.event cause detail x).third = true) :
    ∃ u : State, u.isPermanent (unitPc k pc) = true ∧
      s.countUnitAt x (unitPc k pc) cause detail false =
        u.wr (stackPcFence k) (s.rd (stackPcFence k) ||| BitVec.ofNat 32 (2 ^ pc)) := by
  have htype := (unitPc_fields hk hpc).1
  have hdecl : declarable (unitPc k pc) = true := by simp [declarable, htype]
  have hevent := s.tallyEntry_putTally ((e.event_unit cause detail x).trans (State.unit_of_tallyEntry he))
  obtain ⟨u, hperm, hdeclared⟩ := State.declarePermanent_pc hk hpc hevent ((e.event_state ..).trans hstate)
  have hlost : ∀ t : State, t.unitLost (unitPc k pc) = t := fun t => by simp [State.unitLost, htype]
  refine ⟨u, hperm, ?_⟩
  rw [State.countUnitAt, State.countAt_third he hnew hdecl hthird, hdeclared]
  simp only [hlost, ite_self]
  rfl

theorem stackPcFence_not_reportCounter (k : Nat) : stackPcFence k ∉ reportCounters := fun h => by
  have hlow : ∀ o ∈ reportCounters, o < 0x40000 := by decide
  have hk := hlow _ h
  simp only [stackPcFence, stackPage] at hk
  omega

theorem faultNotice_fences_pc {s : State} {m : Notice} {k pc : Nat} {e : TallyEntry} (harrived : s.noticeUnderWay m = false) (hk : k < 8)
    (hpc : pc < 32) (hunit : m.unit = unitPc k pc) (hcause : m.cause = causePcFail) (he : s.tallyEntry m.unit = some e) (hstate : e.state = 1)
    (hnew : m.time / secNs ∉ e.times) (hthird : (e.event m.cause m.detail (m.time, s.sourceId m.source, m.seq)).third = true) :
    Gives (.faultNotice m) s fun t =>
      t.isPermanent m.unit = true ∧ bit (t.rd (stackPcFence k)) pc = true ∧
      (∀ j, j ≠ pc → bit (t.rd (stackPcFence k)) j = bit (s.rd (stackPcFence k)) j) := by
  have hcount : countsAgainst m.unit m.cause = true := by simp [countsAgainst, hunit, hcause, (unitPc_fields hk hpc).1]
  refine ⟨_, exec_faultNotice_counted harrived hcount (by rw [hcause]; decide), ?_⟩
  rw [hunit] at he ⊢
  obtain ⟨u, hperm, hcounted⟩ := State.countUnitAt_pc_third (s := s.takeNotice m) hk hpc he hstate hnew hthird
  rw [hcounted]
  have hrep := State.reportAt_reported (u.wr (stackPcFence k) ((s.takeNotice m).rd (stackPcFence k) ||| BitVec.ofNat 32 (2 ^ pc)))
    m.time m.seq m.cause (unitPc k pc) m.detail m.source m.stream
  rw [hrep.regs _ (stackPcFence_not_reportCounter k), State.rd_wr_same]
  refine ⟨(hrep.field (·.isPermanent (unitPc k pc)) fun _ => rfl).trans hperm, ?_, fun j hj => ?_⟩
  · rw [bit_or_twoPow _ hpc]
    simp
  · rw [bit_or_twoPow _ hpc, decide_eq_false (Ne.symm hj), Bool.or_false]
    rfl

/-! ### The clauses together -/

/-- Settles O46: the writes of the tally's copies and its three commands, the second's COALESCED records, and a notice that is under way, that
is only reported, that is a unit's first event, or a pseudo-channel's third, each by its own lemma. -/
theorem tallyAndReportsKeepCount : Obligations.TallyAndReportsKeepCount := by
  unfold Obligations.TallyAndReportsKeepCount
  refine ⟨?write, ?clear, ?flush, ?find, ?second, ?underWay, ?logs, ?first, ?third⟩
  case write =>
    intro s units waiting q
    refine ⟨fun h => (exec_tallyWrite s).trans (congrArg _ (if_pos h)), fun h => ⟨_, (exec_tallyWrite s).trans (congrArg _ (if_neg h)), ?_⟩⟩
    exact s.writeTally_spec units
  case clear => exact fun s f hmay => clearTransient_gives hmay
  case flush => exact fun s f hmay => flush_gives hmay
  case find => exact fun s f n v hmay => ⟨tallyFind_gives hmay, exec_tallyFind_missing hmay⟩
  case second => exact fun s => ⟨fun h => congrArg _ (if_neg (Nat.not_lt.2 h)), alarmSecond_gives⟩
  case underWay => exact fun s m h => if_pos h
  case logs => exact fun s m => faultNotice_logs
  case first => exact fun s m => faultNotice_counts_first
  case third => exact fun s m k pc e => faultNotice_fences_pc

/-! ## O10: a low pace and its re-plan (R27, R145, R146) -/

theorem State.notify_noticed (s : State) (n : Notice) : Noticed s (s.notify n) n.cause n.source := ⟨_, rfl, rfl, rfl⟩

theorem State.publishPace_notices (s : State) (ep factor : Nat) : (s.publishPace ep factor).noc.notices = s.noc.notices := by
  unfold State.publishPace
  dsimp only
  split
  · rfl
  · rfl

theorem State.publishPace_plan (s : State) (ep factor : Nat) : (s.publishPace ep factor).hf.plan = s.hf.plan := by
  unfold State.publishPace
  dsimp only
  split
  · rfl
  · rfl

theorem paceWindowEnd_notices_low {s : State} {ep factor : Nat} (hon : s.hf.vcore ≠ 0) (hover : s.paceStart ep + 10000 ≤ s.now)
    (hlow : factor % 0x10000 < s.hf.plan.speed) :
    Gives (.paceWindowEnd ep factor) s fun t => Noticed s t causePaceLow ep := by
  refine ⟨_, congrArg Host.Outcome.next ((if_neg (by omega)).trans (if_pos (by rwa [State.publishPace_plan]))), ?_⟩
  obtain ⟨n, hn, hcause, hep⟩ := State.notify_noticed (s.publishPace ep (factor % 0x10000))
    (mkNotice causePaceLow (epUnit ep) (factor % 0x10000) ep (((s.publishPace ep (factor % 0x10000)).epRegion ep).getD 0))
  exact ⟨n, hn.trans (by rw [s.publishPace_notices]), hcause, hep⟩

theorem State.reportAt_hf (s : State) (time q cause unit detail ep : Nat) (stream : Option Nat) :
    (s.reportAt time q cause unit detail ep stream).hf = s.hf :=
  (s.reportAt_reported ..).field (·.hf) fun _ => rfl

theorem faultNotice_paceLow {s : State} {m : Notice} (hcause : m.cause = causePaceLow) (harrived : s.noticeUnderWay m = false) :
    Gives (.faultNotice m) s fun t => t.hf.causes = s.hf.causes ||| 2 ∧ { t.hf with causes := s.hf.causes } = s.hf := by
  have hcount : countsAgainst m.unit m.cause = false := hcause ▸ countsAgainst_paceLow m.unit
  refine ⟨_, exec_faultNotice_uncounted harrived hcount (by rw [hcause]; decide), ?_⟩
  have hhf := ((s.takeNotice m).replanCause 1).reportAt_hf m.time m.seq m.cause m.unit m.detail m.source m.stream
  rw [if_pos hcause]
  dsimp only
  rw [hhf]
  exact ⟨rfl, rfl⟩

/-! ### What adopting a plan leaves of the headframe -/

theorem State.report_hf (s : State) (cause unit detail ep : Nat) (stream : Option Nat) : (s.report cause unit detail ep stream).hf = s.hf :=
  State.reportAt_hf ..

theorem State.report_now (s : State) (cause unit detail ep : Nat) (stream : Option Nat) : (s.report cause unit detail ep stream).now = s.now :=
  (State.reportAt_reported ..).field (·.now) fun _ => rfl

/-- A fold that leaves the headframe alone at every step leaves it alone. -/
theorem State.each_hf {α : Type} {f : State → α → State} (hf : ∀ s a, (f s a).hf = s.hf) (s : State) (l : List α) : (s.each l f).hf = s.hf :=
  State.each_rel (R := fun s t => t.hf = s.hf) (fun _ => rfl) (fun _ _ _ h h' => h'.trans h) hf s l

/-- The time, the causes of a re-plan and the plan's number are as they were. -/
structure PlanKept (s t : State) : Prop where
  now : t.now = s.now
  causes : t.hf.causes = s.hf.causes
  seq : t.hf.plan.seq = s.hf.plan.seq

theorem PlanKept.trans {s t u : State} (h : PlanKept s t) (h' : PlanKept t u) : PlanKept s u :=
  ⟨h'.now.trans h.now, h'.causes.trans h.causes, h'.seq.trans h.seq⟩

theorem State.report_planKept (s : State) (cause unit detail ep : Nat) (stream : Option Nat) :
    PlanKept s (s.report cause unit detail ep stream) :=
  ⟨s.report_now .., congrArg Hf.causes (s.report_hf ..), congrArg (fun h : Hf => h.plan.seq) (s.report_hf ..)⟩

theorem State.setFloors_planKept (s : State) : PlanKept s s.setFloors := by
  unfold State.setFloors
  refine State.each_rel (R := PlanKept) (fun _ => ⟨rfl, rfl, rfl⟩) (fun _ _ _ => PlanKept.trans) (fun s g => ?_) s _
  dsimp only
  split
  · next a _ =>
    generalize floorOf a Config.adcNoise = nh
    obtain ⟨n, high⟩ := nh
    dsimp only
    split
    · refine PlanKept.trans ?_ (State.report_planKept ..)
      exact ⟨rfl, rfl, rfl⟩
    · exact ⟨rfl, rfl, rfl⟩
  · exact ⟨rfl, rfl, rfl⟩

theorem State.setIntervals_planKept (s : State) : PlanKept s (s.each (s.stopes.map (·.1)) fun s i => s.updStope i Stope.setIntervals) := by
  refine State.each_rel (R := PlanKept) (fun _ => ⟨rfl, rfl, rfl⟩) (fun _ _ _ => PlanKept.trans) (fun s i => ?_) s _
  exact ⟨rfl, rfl, rfl⟩

theorem State.writeFloors_hf (s : State) (fl : List Nat) : (s.writeFloors fl).hf = s.hf :=
  State.each_hf (fun _ _ => (State.wr_hf ..).trans (State.wr_hf ..)) s _

/-- A plan adopted has the next number, this time and the causes that led to it, and leaves none. -/
theorem State.adopt_hf (s : State) :
    s.adopt.hf.causes = 0 ∧ s.adopt.hf.plan.seq = (s.hf.plan.seq + 1) % 0x100000000 ∧ s.adopt.hf.plan.adopted = s.now ∧
      s.adopt.hf.plan.cause = s.hf.causes := by
  obtain ⟨hnow, hcauses, hseq⟩ := s.setIntervals_planKept.trans (State.setFloors_planKept _)
  unfold State.adopt
  dsimp only
  generalize floorVcore _ _ = va
  obtain ⟨v, a⟩ := va
  dsimp only
  rw [State.writeFloors_hf]
  dsimp only
  exact ⟨rfl, congrArg (fun q => (q + 1) % 0x100000000) hseq, hnow, hcauses⟩

theorem State.calDue_hf (s : State) (i : Nat) : (s.calDue i).hf = s.hf := by
  unfold State.calDue
  split
  · rfl
  · exact State.updStope_hf ..

theorem State.recomputeClass_hf (events : Bool) (s : State) (i : Nat) : (State.recomputeClass events s i).hf = s.hf := by
  unfold State.recomputeClass
  dsimp only
  split
  · exact (State.inc_hf ..).trans ((field_of_unposted (State.post_unposted ..) (·.hf) fun _ => rfl).trans (State.setCls_hf ..))
  · exact State.setCls_hf ..

theorem State.replanBounds_hf (s : State) : s.replanBounds.hf = s.hf :=
  (State.each_hf (State.recomputeClass_hf _) _ _).trans (State.wr_hf ..)

theorem marginReplan_adopts {s : State} (orders : List Nat) (hdue : s.hf.causes ≠ 0) :
    Gives (.marginReplan orders) s fun t =>
      t.hf.causes = 0 ∧ t.hf.plan.seq = (s.hf.plan.seq + 1) % 0x100000000 ∧ t.hf.plan.adopted = s.now ∧ t.hf.plan.cause = s.hf.causes := by
  have hhf : ∀ u : State, u.hf = s.adopt.hf → (if u.isIngress then u.replanBounds else u).hf = s.adopt.hf := fun u hu => by
    split
    · exact u.replanBounds_hf.trans hu
    · exact hu
  refine ⟨_, congrArg Host.Outcome.next (if_neg hdue), ?_⟩
  dsimp only
  rw [hhf _ (State.each_hf State.calDue_hf _ _)]
  exact s.adopt_hf

/-- Settles O10: a low pace sends its notice, the notice sets its cause, and a re-plan takes up every cause. -/
theorem paceLowReplans : Obligations.PaceLowReplans :=
  ⟨fun _ _ _ => paceWindowEnd_notices_low, fun _ _ hcause _ => faultNotice_paceLow hcause, fun _ orders => marginReplan_adopts orders⟩

/-! ## O7: messages of the control network (R36 to R38, R45, R47, R192, R488) -/

/-- A message that has crossed the network acts. -/
theorem State.ite_arrived {s t : State} {m : CtlMsg} (harrived : s.ctlUnderWay m = false) : (if s.ctlUnderWay m = true then s else t) = t :=
  if_neg (by simp [harrived])

theorem exec_doorbell_accepted {s : State} {m : CtlMsg} (haccepts : s.ctlAccepts m = true) (harrived : s.ctlUnderWay m = false) :
    exec (.doorbell m) s = .next { s with noc := { s.noc with ctl := s.noc.ctl.erase m } } :=
  congrArg Host.Outcome.next ((State.ite_arrived harrived).trans (if_pos haccepts))

/-! ### Barriers (R488) -/

/-- One core changed and a message taken: what that leaves alone. -/
theorem State.updCore_takeCtl (s : State) (m : CtlMsg) (c : Nat) (f : Core → Core) :
    ((s.takeCtl m).updCore c f).core c = f (s.core c) ∧ (∀ d, d ≠ c → ((s.takeCtl m).updCore c f).core d = s.core d) ∧
      { (s.takeCtl m).updCore c f with
        cores := s.cores, noc := { ((s.takeCtl m).updCore c f).noc with ctl := s.noc.ctl } } = s :=
  ⟨State.core_updCore_same .., fun _ hd => State.core_updCore_other _ _ hd, rfl⟩

/-- An arrival at a barrier that lacks another member is noted at its root. -/
theorem barrierArrive_notes {s : State} {m : CtlMsg} (haccepts : s.ctlAccepts m = true) (harrived : s.ctlUnderWay m = false)
    (hdest : m.dest < 256)
    (hlacks : ∃ i ∈ groupStopes (s.redgrp m.dest (argBarrier m.arg0).1), i ≠ m.src ∧
      ((argBarrier m.arg0).1, (argBarrier m.arg0).2, i) ∉ (s.core m.dest).barrierSeen) :
    Gives (.barrierArrive m) s fun t =>
      ((argBarrier m.arg0).1, (argBarrier m.arg0).2, m.src) ∈ (t.core m.dest).barrierSeen ∧
      (∀ c, c ≠ m.dest → t.core c = s.core c) ∧
      { t with cores := s.cores, noc := { t.noc with ctl := s.noc.ctl } } = s := by
  refine ⟨_, congrArg Host.Outcome.next ((State.ite_arrived harrived).trans (if_pos (by simp [haccepts, hdest]))), ?_⟩
  generalize argBarrier m.arg0 = b at hlacks ⊢
  obtain ⟨g, id⟩ := b
  dsimp only at hlacks ⊢
  generalize hseen : (s.core m.dest).barrierSeen ++ _ = seen
  have hnoted : (g, id, m.src) ∈ seen := by
    rw [← hseen]
    by_cases h : (g, id, m.src) ∈ (s.core m.dest).barrierSeen
    · exact List.mem_append_left _ h
    · simp [h]
  have hall : ¬ (groupStopes (s.redgrp m.dest g)).all (fun i => seen.contains (g, id, i)) = true := by
    obtain ⟨i, hi, hsrc, hnot⟩ := hlacks
    have hmissing : (g, id, i) ∉ seen := by
      rw [← hseen]
      split
      · simpa using hnot
      · simp [hnot, hsrc]
    intro h
    exact hmissing (by simpa using List.all_eq_true.1 h i hi)
  rw [if_neg hall]
  obtain ⟨hcore, hother, hframe⟩ := s.updCore_takeCtl m m.dest fun c => { c with barrierSeen := seen }
  exact ⟨by rw [hcore]; exact hnoted, hother, hframe⟩

/-- A release lets the BARRIER at a member's head go. -/
theorem barrierRelease_lets_go {s : State} {m : CtlMsg} {d : Issued} {rest : List Issued} (haccepts : s.ctlAccepts m = true)
    (harrived : s.ctlUnderWay m = false) (hdest : m.dest < 256) (hissued : (s.core m.dest).issued = d :: rest)
    (hawait : d.await = .barrier (argBarrier m.arg0).1 (argBarrier m.arg0).2) :
    Gives (.barrierRelease m) s fun t =>
      (t.core m.dest).issued = { d with await := .nothing } :: rest ∧ (∀ c, c ≠ m.dest → t.core c = s.core c) ∧
      { t with cores := s.cores, noc := { t.noc with ctl := s.noc.ctl } } = s := by
  refine ⟨_, congrArg Host.Outcome.next ((State.ite_arrived harrived).trans (if_pos (by simp [haccepts, hdest]))), ?_⟩
  obtain ⟨hcore, hother, hframe⟩ := s.updCore_takeCtl m m.dest fun c => { c with
    issued := mapFirst (fun i => i.await == .barrier (argBarrier m.arg0).1 (argBarrier m.arg0).2) (fun i => { i with await := .nothing }) c.issued }
  refine ⟨(congrArg Core.issued hcore).trans ?_, hother, hframe⟩
  dsimp only
  rw [hissued]
  exact if_pos (by simp [hawait])

/-! ### Fences at their targets (R47) -/

/-- What noting a hold of sampling moves: one field of a stope's calibration. -/
theorem State.noteHold_spec (s : State) (p : Nat) :
    (s.noteHold p).noc = s.noc ∧
      (∀ i, { (s.noteHold p).stope i with cal := { ((s.noteHold p).stope i).cal with holdSince := (s.stope i).cal.holdSince } } = s.stope i) ∧
      { s.noteHold p with stopes := s.stopes } = s := by
  unfold State.noteHold
  split
  · next i _ =>
    dsimp only
    split
    · refine ⟨State.updStope_noc .., fun j => ?_, rfl⟩
      by_cases hj : j = i
      · subst hj
        rw [State.stope_updStope_same]
      · rw [State.stope_updStope_other _ _ hj]
    · exact ⟨rfl, fun _ => rfl, rfl⟩
  · exact ⟨rfl, fun _ => rfl, rfl⟩

/-- A block's classes set: that block's fence alone, and what noting a hold moves. -/
theorem State.setFence_noteHold_spec (s : State) (p : Nat) (x : Fence) :
    ((s.setFence p x).noteHold p).fence p = x ∧ (∀ q, q ≠ p → ((s.setFence p x).noteHold p).fence q = s.fence q) ∧
      (∀ i, { ((s.setFence p x).noteHold p).stope i with
        cal := { (((s.setFence p x).noteHold p).stope i).cal with holdSince := (s.stope i).cal.holdSince } } = s.stope i) ∧
      { (s.setFence p x).noteHold p with stopes := s.stopes, noc := { ((s.setFence p x).noteHold p).noc with fences := s.noc.fences } } = s := by
  obtain ⟨hnoc, hstope, hframe⟩ := (s.setFence p x).noteHold_spec p
  have hfence : ∀ q, ((s.setFence p x).noteHold p).fence q = (s.setFence p x).fence q := fun q => by rw [State.fence, hnoc, State.fence]
  refine ⟨(hfence p).trans (s.fence_setFence_same ..), fun q hq => (hfence q).trans (s.fence_setFence_other _ hq), hstope, ?_⟩
  rw [hnoc]
  exact congrArg (fun t : State => { t with noc := s.noc }) hframe

/-- A fence message's command, by what it makes of the classes of a block (R47). -/
theorem fence_gives {s : State} {m : CtlMsg} {p : Nat} {c : Instr} (classes : Nat → Nat)
    (hc : exec c s = s.onArrival m fun t =>
      if m.src = epHeadframe ∧ m.args ≠ 3 then
        t.each (s.fencePages m) fun t p => (t.setFence p { t.fence p with classes := classes (t.fence p).classes }).noteHold p
      else t.discardCtl m)
    (hsrc : m.src = epHeadframe) (hargs : m.args ≠ 3) (harrived : s.ctlUnderWay m = false) (hpages : s.fencePages m = [p]) :
    Gives c s fun t =>
      (t.fence p).classes = classes (s.fence p).classes ∧ (∀ q, q ≠ p → t.fence q = s.fence q) ∧
      (∀ i, { t.stope i with cal := { (t.stope i).cal with holdSince := (s.stope i).cal.holdSince } } = s.stope i) ∧
      { t with stopes := s.stopes, noc := { t.noc with fences := s.noc.fences, ctl := s.noc.ctl } } = s := by
  refine ⟨_, hc.trans (congrArg Host.Outcome.next ((State.ite_arrived harrived).trans (if_pos ⟨hsrc, hargs⟩))), ?_⟩
  rw [hpages]
  obtain ⟨hfence, hother, hstope, hframe⟩ :=
    (s.takeCtl m).setFence_noteHold_spec p { (s.takeCtl m).fence p with classes := classes ((s.takeCtl m).fence p).classes }
  exact ⟨congrArg Fence.classes hfence, hother, hstope, congrArg (fun t : State => { t with noc := { t.noc with ctl := s.noc.ctl } }) hframe⟩

/-! ### What is discarded (R36, R37, R47) -/

theorem State.discardCtl_takeCtl (s : State) (m : CtlMsg) :
    ((s.takeCtl m).discardCtl m).noc.fences = s.noc.fences ∧
      ((s.takeCtl m).discardCtl m).rd nocCtlDiscardCount = s.rd nocCtlDiscardCount + 1 ∧
      RegsKept s ((s.takeCtl m).discardCtl m) [nocCtlDiscardCount] ∧ Noticed s ((s.takeCtl m).discardCtl m) causeRouterDiscard m.src ∧
      { (s.takeCtl m).discardCtl m with noc := s.noc, regs := s.regs } = s :=
  ⟨rfl, (s.takeCtl m).rd_inc_same .., fun _ ho => (s.takeCtl m).rd_inc_other _ fun e => ho (by simp [e]), ⟨_, rfl, rfl, rfl⟩, rfl⟩

/-- A fence message from another source than the headframe, or with the reserved ARGS, is discarded. -/
theorem fence_discards {s : State} {m : CtlMsg} {c : Instr} (hbad : m.src ≠ epHeadframe ∨ m.args = 3) (harrived : s.ctlUnderWay m = false)
    (hc : c = .fenceSet m ∨ c = .fenceClear m) :
    Gives c s fun t =>
      t.noc.fences = s.noc.fences ∧ t.rd nocCtlDiscardCount = s.rd nocCtlDiscardCount + 1 ∧ RegsKept s t [nocCtlDiscardCount] ∧
      Noticed s t causeRouterDiscard m.src ∧ { t with noc := s.noc, regs := s.regs } = s := by
  have hnot : ¬ (m.src = epHeadframe ∧ m.args ≠ 3) := by tauto
  have hexec : exec c s = .next ((s.takeCtl m).discardCtl m) := by
    rcases hc with rfl | rfl
    · exact congrArg Host.Outcome.next ((State.ite_arrived harrived).trans (if_neg hnot))
    · exact congrArg Host.Outcome.next ((State.ite_arrived harrived).trans (if_neg hnot))
  exact ⟨_, hexec, s.discardCtl_takeCtl m⟩

/-! ### CANCEL at a merge core (R37, R192) -/

/-- Nothing but one core moved, and waiting packets may be gone. -/
structure CoreHeldOnly (c : Nat) (s t : State) : Prop where
  core : ∀ d, d ≠ c → t.core d = s.core d
  held : ∀ w ∈ t.noc.held, w ∈ s.noc.held
  frame : { t with cores := s.cores, noc := { t.noc with held := s.noc.held } } = s

theorem CoreHeldOnly.trans {c : Nat} {s t u : State} (h : CoreHeldOnly c s t) (h' : CoreHeldOnly c t u) : CoreHeldOnly c s u :=
  ⟨fun d hd => (h'.core d hd).trans (h.core d hd), fun w hw => h.held w (h'.held w hw),
    (congrArg (fun x : State => { x with cores := s.cores, noc := { x.noc with held := s.noc.held } }) h'.frame).trans h.frame⟩

theorem State.updCore_coreHeldOnly (s : State) (c : Nat) (f : Core → Core) : CoreHeldOnly c s (s.updCore c f) :=
  ⟨fun _ hd => s.core_updCore_other _ hd, fun _ hw => hw, rfl⟩

theorem State.dropHeld_coreHeldOnly (s : State) (c id : Nat) : CoreHeldOnly c s (s.dropHeld c id) :=
  ⟨fun _ _ => rfl, fun _ hw => (List.mem_filter.1 hw).1, rfl⟩

theorem State.dropStreamCore_coreHeldOnly (s : State) (c stream : Nat) : CoreHeldOnly c s (s.dropStreamCore c stream) := by
  unfold State.dropStreamCore
  refine CoreHeldOnly.trans ?_ (State.updCore_coreHeldOnly ..)
  refine State.each_rel (R := CoreHeldOnly c) (fun _ => ⟨fun _ _ => rfl, fun _ hw => hw, rfl⟩) (fun _ _ _ => CoreHeldOnly.trans)
    (fun s id => ?_) s _
  exact (s.updCore_coreHeldOnly c _).trans (State.dropHeld_coreHeldOnly ..)

theorem State.dropStreamCore_queue (s : State) (c stream : Nat) : ∀ x ∈ ((s.dropStreamCore c stream).core c).queue, x.stream ≠ some stream := by
  intro x hx
  rw [State.dropStreamCore, State.core_updCore_same] at hx
  simpa using (List.mem_filter.1 hx).2

/-- A stream without pages has nothing to roll back. -/
theorem State.rollbackStream_of_no_pages {s : State} {stream : Nat} (h : s.streamPtes stream = []) : s.rollbackStream stream = s := by
  rw [State.rollbackStream, h]
  rfl

theorem ctlCancel_merge {s : State} {m : CtlMsg} {c : Nat} (haccepts : s.ctlAccepts m = true) (harrived : s.ctlUnderWay m = false)
    (htarget : (s.ctlTargets m).filterMap epCore = [c]) (hmerge : 256 ≤ c) (hpages : s.streamPtes m.arg0.toNat = []) :
    Gives (.ctlCancel m) s fun t =>
      (∀ x ∈ (t.core c).queue, x.stream ≠ some m.arg0.toNat) ∧ (∀ d, d ≠ c → t.core d = s.core d) ∧
      (∀ w ∈ t.noc.held, w ∈ s.noc.held) ∧ { t with cores := s.cores, noc := { t.noc with ctl := s.noc.ctl, held := s.noc.held } } = s := by
  have hdrop := (s.takeCtl m).dropStreamCore_coreHeldOnly c m.arg0.toNat
  have hkv : ((s.takeCtl m).dropStreamCore c m.arg0.toNat).kv = s.kv := by
    have h := congrArg State.kv hdrop.frame
    exact h
  have hexec : exec (.ctlCancel m) s = .next ((s.takeCtl m).dropStreamCore c m.arg0.toNat) := by
    refine congrArg Host.Outcome.next ((State.ite_arrived harrived).trans ((if_pos haccepts).trans ?_))
    rw [htarget]
    refine (State.rollbackStream_of_no_pages ?_).trans (if_neg (Nat.not_lt.2 hmerge))
    rw [← hpages]
    show State.streamPtes (State.dropStreamOn (s.takeCtl m) c m.arg0.toNat) _ = _
    rw [State.dropStreamOn, if_neg (Nat.not_lt.2 hmerge), State.streamPtes, hkv, State.streamPtes]
  refine ⟨_, hexec, (s.takeCtl m).dropStreamCore_queue c _, hdrop.core, hdrop.held, ?_⟩
  exact congrArg (fun t : State => { t with noc := { t.noc with ctl := s.noc.ctl } }) hdrop.frame

/-- Settles O7: a message acts once it has arrived, each kind by its own lemma; what may not act is discarded. -/
theorem controlMessagesAct : Obligations.ControlMessagesAct := by
  unfold Obligations.ControlMessagesAct
  refine ⟨?doorbell, ?arrive, ?release, ?set, ?clear, ?reserved, ?cancel, ?foreign⟩
  case doorbell => exact fun s m => exec_doorbell_accepted
  case arrive => exact fun s m => barrierArrive_notes
  case release => exact fun s m d rest => barrierRelease_lets_go
  case set => exact fun s m p => fence_gives (fun x => x ||| fld m.arg0 3 0) rfl
  case clear => exact fun s m p => fence_gives (fun x => x &&& (0xF ^^^ fld m.arg0 3 0)) rfl
  case reserved =>
    intro s m hreserved
    obtain ⟨-, hcount, hregs, hnoticed, hframe⟩ := s.discardCtl_takeCtl m
    exact ⟨_, congrArg Host.Outcome.next (if_pos hreserved), hcount, hregs, hnoticed, hframe⟩
  case cancel => exact fun s m c => ctlCancel_merge
  case foreign => exact fun s m c => fence_discards

/-! ## O8: region changes (R39 to R44, R414, R482) -/

/-- A legal write of GEOM, with no change pending, holds the change and names its region. -/
theorem geomWrite_holds {s : State} {n : Nat} {v w : Word} (hn : n < 16) (hmay : s.mayWrite 0 (nocGeom n) = true)
    (hw : writeFields (regFields (nocGeom n)) (s.rd (nocGeom n)) v = (w, false)) (hpending : s.noc.pending = none)
    (hlegal : s.regionLegal n { geom := w, gate := s.stagedRegion (nocGate n), edge := s.stagedRegion (nocEdge n),
                                ports := s.stagedRegion (nocPorts n) } = true) :
    Gives (.geomWrite 0 n v) s fun t =>
      t.noc.pending = some (n, w, s.stagedRegion (nocGate n), s.stagedRegion (nocEdge n), s.stagedRegion (nocPorts n)) ∧
      t.rd nocStatus = BitVec.ofNat 32 (1 + 2 * n) ∧ RegsKept s t [nocStatus] ∧ { t with noc := s.noc, regs := s.regs } = s := by
  have hexec : s.geomWrite 0 n v = ({ s.dropStaged n with noc := { (s.dropStaged n).noc with
      pending := some (n, w, s.stagedRegion (nocGate n), s.stagedRegion (nocEdge n), s.stagedRegion (nocPorts n)),
      pendingSince := s.now } } : State).wr nocStatus (BitVec.ofNat 32 (1 + 2 * n)) := by
    rw [State.geomWrite, if_neg (by simp [hmay]; omega)]
    dsimp only
    generalize hfields : writeFields _ (s.rd (nocGeom n)) v = wrg
    obtain rfl : wrg = (w, false) := hfields.symm.trans hw
    dsimp only
    rw [if_neg Bool.false_ne_true, if_neg (by simp [State.dropStaged, hpending])]
    refine if_neg ?_
    show ¬ (!(s.regionLegal n _)) = true
    rw [hlegal]
    decide
  refine ⟨_, congrArg Host.Outcome.next hexec, rfl, State.rd_wr_same .., fun o ho => State.rd_wr_other _ _ fun e => ho (by simp [e]), rfl⟩

@[simp] theorem State.pruneQuiesced_rd (s : State) (o : Nat) : s.pruneQuiesced.rd o = s.rd o := rfl

/-- A change whose stopes have not all quiesced by REGION_TIMEOUT is abandoned. -/
theorem regionTimeout_abandons {s : State} {n : Nat} {g ga e p : Word} (hpending : s.noc.pending = some (n, g, ga, e, p))
    (hnot : s.quiescedInTime (changeStopes (s.region n) { geom := g, gate := ga, edge := e, ports := p }) = false)
    (hlate : s.noc.pendingSince + fld (s.rd nocRegionTimeout) 13 0 * 1000000 ≤ s.now) :
    Gives .regionTimeoutExpiry s fun t =>
      t.noc.pending = none ∧ t.rd nocLastRefuse = BitVec.ofNat 32 rCapacity ∧ t.rd nocStatus = 0x20 ∧
      RegsKept s t [nocLastRefuse, nocStatus] ∧ { t with noc := s.noc, regs := s.regs } = s := by
  have hexec : exec .regionTimeoutExpiry s =
      .next ((({ s with noc := { s.noc with pending := none } }.refuse nocLastRefuse rCapacity).wr nocStatus 0x20).pruneQuiesced) := by
    refine congrArg Host.Outcome.next ?_
    rw [hpending]
    dsimp only
    rw [if_neg (by simp [hnot]), if_pos hlate]
  have hapart : nocLastRefuse ≠ nocStatus := by decide
  refine ⟨_, hexec, rfl, ?_, ?_, fun o ho => ?_, rfl⟩
  · rw [State.pruneQuiesced_rd, State.rd_wr_other _ _ hapart, State.rd_refuse_same]
    rfl
  · rw [State.pruneQuiesced_rd, State.rd_wr_same]
  · simp only [List.mem_cons, List.not_mem_nil, or_false, not_or] at ho
    rw [State.pruneQuiesced_rd, State.rd_wr_other _ _ ho.2, State.rd_refuse_other _ _ ho.1]
    rfl

/-! ### What a stope's new region moves (R44) -/

/-- The registers and a held region change are as they were. -/
structure RegsPendingKept (s t : State) : Prop where
  regs : t.regs = s.regs
  pending : t.noc.pending = s.noc.pending

theorem RegsPendingKept.trans {s t u : State} (h : RegsPendingKept s t) (h' : RegsPendingKept t u) : RegsPendingKept s u :=
  ⟨h'.regs.trans h.regs, h'.pending.trans h.pending⟩

theorem State.sendFence_regsPendingKept (s : State) (p ep old new : Nat) : RegsPendingKept s (s.sendFence p ep old new) := by
  have hregs := congrArg State.regs (s.sendFence_frame p ep old new)
  have hpending := congrArg (fun t : State => t.noc.pending) (s.sendFence_frame p ep old new)
  exact ⟨hregs, hpending⟩

theorem State.fenceFor_regsPendingKept (s : State) (p cause classes : Nat) : RegsPendingKept s (s.fenceFor p cause classes) := by
  refine RegsPendingKept.trans ?_ (State.sendFence_regsPendingKept (s.setFence p _) ..)
  exact ⟨rfl, rfl⟩

theorem State.unfence_regsPendingKept (s : State) (p cause : Nat) : RegsPendingKept s (s.unfence p cause) := by
  refine RegsPendingKept.trans ?_ (State.sendFence_regsPendingKept (s.setFence p _) ..)
  exact ⟨rfl, rfl⟩

theorem State.rezoneStope_regsPendingKept (s : State) (i : Nat) (was now : Option Nat) : RegsPendingKept s (s.rezoneStope i was now) := by
  unfold State.rezoneStope
  extract_lets u
  have hu : RegsPendingKept s u := by
    dsimp only [u]
    split
    · exact ⟨rfl, rfl⟩
    · exact ⟨rfl, rfl⟩
  refine hu.trans ?_
  split
  · split
    · refine RegsPendingKept.trans ?_ (State.fenceFor_regsPendingKept ..)
      exact ⟨rfl, rfl⟩
    · exact ⟨rfl, rfl⟩
  · split
    · exact u.unfence_regsPendingKept ..
    · exact ⟨rfl, rfl⟩

/-- The four words of a region in force, and NOC_STATUS cleared (R41, R482). -/
def State.withRegion (s : State) (n : Nat) (g ga e p : Word) : State :=
  (((((s.wr (nocGeom n) g).wr (nocGate n) ga).wr (nocEdge n) e).wr (nocPorts n) p)).wr nocStatus 0

theorem State.withRegion_words {s : State} {n : Nat} (g ga e p : Word) :
    (s.withRegion n g ga e p).rd (nocGeom n) = g ∧ (s.withRegion n g ga e p).rd (nocGate n) = ga ∧
      (s.withRegion n g ga e p).rd (nocEdge n) = e ∧ (s.withRegion n g ga e p).rd (nocPorts n) = p ∧
      RegsKept s (s.withRegion n g ga e p) [nocGeom n, nocGate n, nocEdge n, nocPorts n, nocStatus] := by
  have hapart : nocGeom n ≠ nocGate n ∧ nocGeom n ≠ nocEdge n ∧ nocGeom n ≠ nocPorts n ∧ nocGeom n ≠ nocStatus ∧
      nocGate n ≠ nocEdge n ∧ nocGate n ≠ nocPorts n ∧ nocGate n ≠ nocStatus ∧ nocEdge n ≠ nocPorts n ∧ nocEdge n ≠ nocStatus ∧ nocPorts n ≠ nocStatus := by
    unfold nocGeom nocGate nocEdge nocPorts nocStatus nocPage
    omega
  refine ⟨?_, ?_, ?_, ?_, fun o ho => ?_⟩
  · simp [State.withRegion, State.rd_wr, hapart]
  · simp [State.withRegion, State.rd_wr, hapart]
  · simp [State.withRegion, State.rd_wr, hapart]
  · simp [State.withRegion, State.rd_wr, hapart]
  · simp only [List.mem_cons, List.not_mem_nil, or_false, not_or] at ho
    simp [State.withRegion, State.rd_wr, ho]

/-- The machine with a held change in force: the region's words, and what the change does to each of its stopes (R41, R44). -/
def State.applyRegion (s : State) (n : Nat) (g ga e p : Word) : State :=
  (({ s.withRegion n g ga e p with noc := { s.noc with pending := none } } : State).each
    ((changeStopes (s.region n) { geom := g, gate := ga, edge := e, ports := p }).map fun i => (i, s.stopeRegion i))
    fun s x => s.rezoneStope x.1 x.2 (s.stopeRegion x.1)).pruneQuiesced

theorem exec_regionApply_quiesced {s : State} {n : Nat} {g ga e p : Word} (hpending : s.noc.pending = some (n, g, ga, e, p))
    (hquiesced : s.quiescedInTime (changeStopes (s.region n) { geom := g, gate := ga, edge := e, ports := p }) = true)
    (hports : s.portsFree (s.region n) { geom := g, gate := ga, edge := e, ports := p } = true) :
    exec .regionApply s = .next (s.applyRegion n g ga e p) := by
  refine congrArg Host.Outcome.next ?_
  rw [hpending]
  exact if_pos ⟨hquiesced, hports⟩

/-- What the change does to its stopes moves no register and leaves no change pending. -/
theorem State.applyRegion_spec (s : State) (n : Nat) (g ga e p : Word) :
    (s.applyRegion n g ga e p).noc.pending = none ∧ ∀ o, (s.applyRegion n g ga e p).rd o = (s.withRegion n g ga e p).rd o := by
  obtain ⟨hregs, hnone⟩ := State.each_rel (R := RegsPendingKept) (fun _ => ⟨rfl, rfl⟩) (fun _ _ _ => RegsPendingKept.trans)
    (fun s (x : Nat × Option Nat) => s.rezoneStope_regsPendingKept x.1 x.2 (s.stopeRegion x.1))
    { s.withRegion n g ga e p with noc := { s.noc with pending := none } }
    ((changeStopes (s.region n) { geom := g, gate := ga, edge := e, ports := p }).map fun i => (i, s.stopeRegion i))
  exact ⟨hnone, fun o => congrArg (fun r => Table.get (resetWord o) r o) hregs⟩

/-- A change whose stopes have quiesced, and that takes no port in use, is in force at once. -/
theorem regionApply_applies {s : State} {n : Nat} {g ga e p : Word} (hpending : s.noc.pending = some (n, g, ga, e, p))
    (hquiesced : s.quiescedInTime (changeStopes (s.region n) { geom := g, gate := ga, edge := e, ports := p }) = true)
    (hports : s.portsFree (s.region n) { geom := g, gate := ga, edge := e, ports := p } = true) :
    Gives .regionApply s fun t =>
      t.noc.pending = none ∧ t.rd (nocGeom n) = g ∧ t.rd (nocGate n) = ga ∧ t.rd (nocEdge n) = e ∧ t.rd (nocPorts n) = p ∧
      RegsKept s t [nocGeom n, nocGate n, nocEdge n, nocPorts n, nocStatus] := by
  obtain ⟨hnone, hrd⟩ := s.applyRegion_spec n g ga e p
  refine ⟨_, exec_regionApply_quiesced hpending hquiesced hports, hnone, ?_⟩
  unfold RegsKept
  simp only [hrd]
  exact State.withRegion_words g ga e p

/-- Settles O8: a legal write is held; the timeout abandons what has not quiesced; what has quiesced in time is in force at once. -/
theorem regionChangesAreHeld : Obligations.RegionChangesAreHeld :=
  ⟨fun _ _ _ _ => geomWrite_holds, fun _ _ _ _ _ _ _ => regionApply_applies, fun _ _ _ _ _ _ => regionTimeout_abandons⟩

end Sys2Proof.Machine

namespace Sys2Proof.Machine

/-! ## Byte strings: lanes, pieces and packed elements (R198, R487) -/

@[simp] theorem length_leBytes (n v : Nat) : (leBytes n v).length = n := by
  induction n generalizing v with
  | zero => rfl
  | succ n ih => simp [leBytes, ih]

theorem ofLe_leBytes (n v : Nat) : ofLe (leBytes n v) = v % 256 ^ n := by
  induction n generalizing v with
  | zero => simp [leBytes, ofLe, Nat.mod_one]
  | succ n ih =>
    have hbyte : (BitVec.ofNat 8 v).toNat = v % 256 := BitVec.toNat_ofNat ..
    rw [leBytes, ofLe, ih, hbyte, pow_succ', Nat.mod_mul]

/-- A non-empty list's first piece, and the pieces of the rest. -/
theorem chunks_eq_cons {α : Type} {n : Nat} {l : List α} (hn : 0 < n) (hl : l ≠ []) : chunks n l = l.take n :: chunks n (l.drop n) := by
  have hpos : 0 < l.length := List.length_pos_iff.2 hl
  have hcount : cdiv l.length n = cdiv (l.drop n).length n + 1 := by
    rw [cdiv, cdiv, if_neg hn.ne', if_neg hn.ne', List.length_drop]
    obtain hle | hlt := Nat.le_total n l.length
    · rw [← Nat.add_div_right _ hn]
      congr 1
      omega
    · rw [Nat.sub_eq_zero_of_le hlt, Nat.div_eq_of_lt (by omega : 0 + n - 1 < n)]
      exact Nat.div_eq_of_lt_le (by omega) (by omega)
  rw [chunks, hcount, List.range_succ_eq_map, List.map_cons, List.map_map, chunks]
  refine congrArg₂ List.cons (by simp) (List.map_congr_left fun i _ => ?_)
  rw [Function.comp_apply, List.drop_drop]
  congr 2
  rw [Nat.succ_mul, Nat.add_comm]

@[simp] theorem chunks_nil {α : Type} (n : Nat) : chunks n ([] : List α) = [] := by
  have h0 : cdiv 0 n = 0 := by
    unfold cdiv
    split
    · rfl
    · exact Nat.div_eq_of_lt (by omega)
  simp [chunks, h0]

/-- The pieces of a list make it up. -/
theorem chunks_flatten {α : Type} {n : Nat} (hn : 0 < n) (l : List α) : (chunks n l).flatten = l := by
  induction hlen : l.length using Nat.strong_induction_on generalizing l with
  | _ k ih =>
    by_cases hl : l = []
    · simp [hl]
    · have hpos : 0 < l.length := List.length_pos_iff.2 hl
      rw [chunks_eq_cons hn hl, List.flatten_cons, ih _ (by rw [List.length_drop]; omega) _ rfl, List.take_append_drop]

@[simp] theorem length_chunks {α : Type} (n : Nat) (l : List α) : (chunks n l).length = cdiv l.length n := by simp [chunks]

theorem length_le_of_mem_chunks {α : Type} {n : Nat} {l x : List α} (h : x ∈ chunks n l) : x.length ≤ n := by
  obtain ⟨i, -, rfl⟩ := List.mem_map.1 h
  exact List.length_take_le ..

@[simp] theorem length_laneBytes (ws : List Word) : (laneBytes ws).length = 4 * ws.length := by
  simp [laneBytes, Nat.mul_comm]

/-- The first lane of a string, and the lanes of the rest. -/
theorem lanes_leBytes_append (w : Word) (bs : List Byte) : lanes (leBytes 4 w.toNat ++ bs) = w :: lanes bs := by
  have hne : leBytes 4 w.toNat ++ bs ≠ [] := List.append_ne_nil_of_left_ne_nil (by simp [leBytes]) _
  have hw : BitVec.ofNat 32 (ofLe (leBytes 4 w.toNat)) = w := by
    rw [ofLe_leBytes, Nat.mod_eq_of_lt (show w.toNat < 256 ^ 4 from w.isLt), BitVec.ofNat_toNat, BitVec.setWidth_eq]
  rw [lanes, chunks_eq_cons (by decide) hne, List.take_left' (by simp), List.drop_left' (by simp), List.map_cons, hw]
  rfl

@[simp] theorem lanes_laneBytes (ws : List Word) : lanes (laneBytes ws) = ws := by
  induction ws with
  | nil => simp [lanes, laneBytes]
  | cons w ws ih =>
    have hcons : laneBytes (w :: ws) = leBytes 4 w.toNat ++ laneBytes ws := List.flatMap_cons
    rw [hcons, lanes_leBytes_append, ih]

/-- The lanes of a string of whole lanes spell it. -/
theorem laneBytes_lanes {bs : List Byte} {n : Nat} (h : bs.length = 4 * n) : laneBytes (lanes bs) = bs := by
  have hbyte (b : List Byte) (hb : b.length = 4) : leBytes 4 (BitVec.ofNat 32 (ofLe b)).toNat = b := by
    match b, hb with
    | [b0, b1, b2, b3], _ =>
      have h0 := b0.isLt
      have h1 := b1.isLt
      have h2 := b2.isLt
      have h3 := b3.isLt
      simp only [ofLe, leBytes, BitVec.toNat_ofNat, List.cons.injEq, ← BitVec.toNat_inj, and_true]
      omega
  induction n generalizing bs with
  | zero => simp [List.length_eq_zero_iff.1 h, lanes, laneBytes]
  | succ n ih =>
    have hne : bs ≠ [] := List.ne_nil_of_length_pos (by omega)
    have hhead := hbyte (bs.take 4) (by rw [List.length_take]; omega)
    have htail := ih (bs := bs.drop 4) (by rw [List.length_drop]; omega)
    rw [lanes, chunks_eq_cons (by decide) hne, List.map_cons]
    calc laneBytes (BitVec.ofNat 32 (ofLe (bs.take 4)) :: lanes (bs.drop 4))
        = leBytes 4 (BitVec.ofNat 32 (ofLe (bs.take 4))).toNat ++ laneBytes (lanes (bs.drop 4)) := List.flatMap_cons
      _ = bs := by rw [hhead, htail, List.take_append_drop]

theorem length_lanes {bs : List Byte} {n : Nat} (h : bs.length = 4 * n) : (lanes bs).length = n := by
  have := congrArg List.length (laneBytes_lanes h)
  rw [length_laneBytes] at this
  omega

@[simp] theorem length_padTo (n : Nat) (bs : List Byte) : (padTo n bs).length = max n bs.length := by
  rw [padTo, List.length_append, List.length_replicate]
  omega

@[simp] theorem length_packNibbles : ∀ xs : List Nat, (packNibbles xs).length = cdiv xs.length 2
  | [] => rfl
  | [_] => by simp [packNibbles, cdiv]
  | a :: b :: xs => by
    rw [packNibbles, List.length_cons, length_packNibbles xs]
    simp only [cdiv, List.length_cons, OfNat.ofNat_ne_zero, if_false]
    omega

@[simp] theorem length_readBytes (m : List Host.Cell) (a n : Nat) : (readBytes m a n).length = n := by simp [readBytes]

/-- The bytes of a range read as they were written. -/
theorem readBytes_writeBytes_same {n : Nat} (m : List Host.Cell) (a : Nat) {bs : List Byte} (h : bs.length = n) :
    readBytes (writeBytes m a bs) a n = bs := by
  refine List.ext_getElem (by simp [h]) fun i hi hi' => ?_
  simp only [readBytes, List.getElem_map, List.getElem_range]
  exact readByte_writeBytes_inside bs m a i hi'

end Sys2Proof.Machine

namespace Sys2Proof.Machine

/-! ## Ranges of a core: what a write leaves, and what is read after it (R155, R172, R178) -/

@[simp] theorem State.length_rdRange (s : State) (c : Nat) (r : Rng) : (s.rdRange c r).length = 8 * r.words := by
  unfold State.rdRange
  split
  · simp
    omega
  · exact length_readBytes ..

@[simp] theorem State.length_rdLanes (s : State) (c : Nat) (r : Rng) : (s.rdLanes c r).length = 2 * r.words :=
  length_lanes (by rw [State.length_rdRange]; omega)

/-- A range's bytes are those of its lanes. -/
theorem State.rdRange_eq_laneBytes (s : State) (c : Nat) (r : Rng) : s.rdRange c r = laneBytes (s.rdLanes c r) :=
  (laneBytes_lanes (n := 2 * r.words) (by rw [State.length_rdRange]; omega)).symm

/-- The same descriptors are issued and fetched on every core. -/
structure IssuesKept (s t : State) : Prop where
  issued : ∀ x, (t.core x).issued = (s.core x).issued
  fetched : ∀ x, (t.core x).fetched = (s.core x).fetched

theorem IssuesKept.of_cores {s t : State} (h : t.cores = s.cores) : IssuesKept s t :=
  ⟨fun x => congrArg (fun k => (Table.get Core.reset k x).issued) h, fun x => congrArg (fun k => (Table.get Core.reset k x).fetched) h⟩

theorem IssuesKept.refl (s : State) : IssuesKept s s := .of_cores rfl

theorem IssuesKept.trans {s t u : State} (h : IssuesKept s t) (h' : IssuesKept t u) : IssuesKept s u :=
  ⟨fun x => (h'.issued x).trans (h.issued x), fun x => (h'.fetched x).trans (h.fetched x)⟩

theorem IssuesKept.updCore (s : State) (c : Nat) {f : Core → Core} (hi : ∀ t, (f t).issued = t.issued) (hf : ∀ t, (f t).fetched = t.fetched) :
    IssuesKept s (s.updCore c f) := by
  refine ⟨fun x => ?_, fun x => ?_⟩
  · by_cases hx : x = c
    · rw [hx, State.core_updCore_same, hi]
    · rw [State.core_updCore_other _ _ hx]
  · by_cases hx : x = c
    · rw [hx, State.core_updCore_same, hf]
    · rw [State.core_updCore_other _ _ hx]

/-- Cores alone changed, and none of their descriptors. -/
structure CoresTouched (s t : State) : Prop where
  issues : IssuesKept s t
  rest : { t with cores := s.cores } = s

theorem CoresTouched.refl (s : State) : CoresTouched s s := ⟨.refl s, rfl⟩

theorem CoresTouched.trans {s t u : State} (h : CoresTouched s t) (h' : CoresTouched t u) : CoresTouched s u :=
  ⟨h.issues.trans h'.issues, (congrArg (fun x : State => { x with cores := s.cores }) h'.rest).trans h.rest⟩

theorem CoresTouched.updCore (s : State) (c : Nat) {f : Core → Core} (hi : ∀ t, (f t).issued = t.issued) (hf : ∀ t, (f t).fetched = t.fetched) :
    CoresTouched s (s.updCore c f) := ⟨.updCore s c hi hf, rfl⟩

theorem State.clearPoison_coresTouched (s : State) (ws : List Nat) : CoresTouched s (s.clearPoison ws) := by
  unfold State.clearPoison
  split
  · exact .refl s
  · split
    · exact .refl s
    · exact .updCore s _ (fun _ => rfl) fun _ => rfl

theorem State.overwritten_coresTouched (s : State) (start len : Nat) : CoresTouched s (s.overwritten start len) := by
  refine State.each_rel .refl (fun _ _ _ => .trans) (fun s c => ?_) s _
  exact .updCore s c (fun _ => rfl) fun _ => rfl

/-- A write to memory changes it and, of the cores, only poison and the sources of operand buffers. -/
theorem State.wrRange_mem (s : State) (c : Nat) {r : Rng} (bs : List Byte) (h : r.space ≠ 1) :
    CoresTouched (s.wrMem r.start bs) (s.wrRange c r bs) := by
  rw [State.wrRange, if_neg h]
  exact (State.clearPoison_coresTouched ..).trans (State.overwritten_coresTouched ..)

/-- The accumulators with lanes put in from one on. -/
def putLanes (acc : Table Word) (start : Nat) (ws : List Word) : Table Word :=
  ws.zipIdx.foldl (fun a x => Table.set 0 a (start + x.2) x.1) acc

/-- A write to accumulators puts its lanes in. -/
theorem State.wrRange_acc (s : State) (c : Nat) {r : Rng} (bs : List Byte) (h : r.space = 1) :
    s.wrRange c r bs = s.updStope c fun t => { t with acc := putLanes t.acc r.start (lanes bs) } := if_pos h

theorem State.wrRange_issuesKept (s : State) (c : Nat) (r : Rng) (bs : List Byte) : IssuesKept s (s.wrRange c r bs) := by
  by_cases h : r.space = 1
  · rw [s.wrRange_acc c bs h]
    exact .of_cores rfl
  · have hmem : IssuesKept s (s.wrMem r.start bs) := .of_cores rfl
    exact hmem.trans (s.wrRange_mem c bs h).issues

theorem State.wrRange_mem_eq (s : State) (c : Nat) {r : Rng} (bs : List Byte) (h : r.space ≠ 1) :
    (s.wrRange c r bs).mem = writeBytes s.mem r.start bs := congrArg State.mem (s.wrRange_mem c bs h).rest

theorem State.wrRange_stope (s : State) (c : Nat) {r : Rng} (bs : List Byte) (h : r.space ≠ 1) (j : Nat) :
    (s.wrRange c r bs).stope j = s.stope j := by
  have hstopes := congrArg State.stopes (s.wrRange_mem c bs h).rest
  exact congrArg (fun x => Table.get Stope.reset x j) hstopes

/-- An accumulator reads as put in, or as before. -/
theorem get_putLanes (acc : Table Word) (start : Nat) (ws : List Word) (k : Nat) :
    Table.get 0 (putLanes acc start ws) k = if h : start ≤ k ∧ k - start < ws.length then ws[k - start] else Table.get 0 acc k := by
  induction ws using List.reverseRecOn with
  | nil => simp [putLanes]
  | append_singleton ws w ih =>
    rw [putLanes, List.zipIdx_append, List.foldl_append, ← putLanes]
    simp only [List.zipIdx_cons, List.zipIdx_nil, List.foldl_cons, List.foldl_nil, Nat.zero_add, Table.get_set, ih, List.length_append,
      List.length_singleton, List.getElem_append]
    by_cases hk : k = start + ws.length
    · subst hk
      simp
    · rw [if_neg hk]
      split
      · rw [dif_pos (by omega), dif_pos (by omega)]
      · rw [dif_neg (by omega)]

/-- A range reads as written. -/
theorem State.rdRange_wrRange (s : State) (c : Nat) (r : Rng) {bs : List Byte} (hlen : bs.length = 8 * r.words) :
    (s.wrRange c r bs).rdRange c r = bs := by
  by_cases h : r.space = 1
  · have hlanes : (lanes bs).length = 2 * r.words := length_lanes (by omega)
    have hacc : (List.range (2 * r.words)).map (fun i => Table.get 0 ((s.wrRange c r bs).stope c).acc (r.start + i)) = lanes bs := by
      refine List.ext_getElem (by simp [hlanes]) fun i hi hi' => ?_
      rw [List.getElem_map, List.getElem_range, s.wrRange_acc c bs h, State.stope_updStope_same, get_putLanes, dif_pos (by omega)]
      simp
    rw [State.rdRange, if_pos h]
    calc (List.range (2 * r.words)).flatMap (fun i => leBytes 4 (Table.get 0 ((s.wrRange c r bs).stope c).acc (r.start + i)).toNat)
        = laneBytes ((List.range (2 * r.words)).map fun i => Table.get 0 ((s.wrRange c r bs).stope c).acc (r.start + i)) :=
          by rw [laneBytes, List.flatMap_map]
      _ = bs := by rw [hacc, laneBytes_lanes (n := 2 * r.words) (by omega)]
  · rw [State.rdRange, if_neg h, State.rdMem, s.wrRange_mem_eq c bs h]
    exact readBytes_writeBytes_same s.mem r.start hlen

/-- The lanes of a range read as written. -/
theorem State.rdLanes_wrRange (s : State) (c : Nat) (r : Rng) {ws : List Word} (hlen : ws.length = 2 * r.words) :
    (s.wrRange c r (laneBytes ws)).rdLanes c r = ws := by
  rw [State.rdLanes, s.rdRange_wrRange c r (by rw [length_laneBytes]; omega), lanes_laneBytes]

/-- A write of a range's length moves nothing beside the range. -/
theorem State.wrRange_rangeOnly (s : State) (c : Nat) (r : Rng) {bs : List Byte} (hlen : bs.length = 8 * r.words) :
    RangeOnly s (s.wrRange c r bs) c r := by
  by_cases h : r.space = 1
  · rw [s.wrRange_acc c bs h]
    refine ⟨fun _ => ⟨rfl, fun j hj => s.stope_updStope_other _ hj, ?_, fun k hk => ?_⟩, fun hne => absurd h hne, rfl⟩
    · rw [State.stope_updStope_same]
    · have hlanes : (lanes bs).length = 2 * r.words := length_lanes (by omega)
      rw [State.stope_updStope_same, get_putLanes, dif_neg (by omega)]
  · have hw := (s.wrRange_mem c bs h).rest
    have hstopes := congrArg State.stopes hw
    have hrest := congrArg (fun t : State => { t with mem := s.mem, cores := s.cores, stopes := s.stopes }) hw
    refine ⟨fun he => absurd he h, fun _ => ⟨hstopes, fun x hx => ?_⟩, hrest⟩
    rw [s.wrRange_mem_eq c bs h]
    exact readByte_writeBytes_outside bs s.mem r.start x (by omega)

/-! ## Issue: a descriptor at the head of its core, with clean reads (R153, R162, R172) -/

/-- The machine with a descriptor's scoreboard entries made, before its effect. -/
def State.withIssued (s : State) (c : Nat) (d : Desc) (r : Running) (a : Act) : State :=
  s.updCore c fun t =>
    { t with part := Part.none,
             issued := t.issued ++ [{ step := r.id, desc := d, sb := a.entries, await := a.await.less (s.core c).part.back,
                                      cause := (s.core c).part.cause, again := t.again }] }

/-- The machine once the descriptor has issued: its effect is there, and the next fetch follows. -/
def State.afterIssue (s : State) (c : Nat) (d : Desc) (r : Running) (a : Act) : State :=
  (a.run (s.withIssued c d r a)).updCore c fun t => t.issueNext d.last

/-- The descriptor that heads a core has a length. -/
theorem Heads.len_ne_zero {s : State} {c : Nat} {d : Desc} {r : Running} {rs ws : List Rng} (h : Heads s c d r rs ws) : d.len ≠ 0 := by
  obtain ⟨-, -, hlen, -, -⟩ := h
  exact hlen

/-- The step of the descriptor that heads a core runs. -/
theorem Heads.run_eq {s : State} {c : Nat} {d : Desc} {r : Running} {rs ws : List Rng} (h : Heads s c d r rs ws) : (s.core c).run = some r := by
  obtain ⟨-, hrun, -, -, -⟩ := h
  exact hrun

/-- Reads of words that are not poisoned and met no error are fine. -/
theorem State.checkReads_clean {s : State} {c : Nat} {ws : List Nat} (h : ∀ w ∈ ws, s.poisoned w = false) : s.checkReads c ws [] = (.fine, s) := by
  have hnone : s.readFaults ws [] = [] := by
    simp only [State.readFaults, List.filter_nil, List.map_nil, List.append_nil, List.flatMap_eq_nil_iff]
    intro w hw
    simp [h w hw]
  rw [State.checkReads, hnone]
  rfl

/-- A descriptor that heads its core and that its judge lets act issues. -/
theorem State.issue_acts {s : State} {c op : Nat} {d : Desc} {r : Running} {a : Act} {judge : State → Desc → Judged}
    (h : Heads s c d r a.reads a.writes) (hop : fld d.w0 6 0 = op) (hjudge : judge s d = .act a)
    (halso : a.also.flatMap Rng.wordList = [] := by rfl) (hwords : a.words = none := by rfl) (hsend : a.send = none := by rfl)
    (hrefuse : a.refuse s = 0 := by rfl) : s.issue c op [] judge = s.afterIssue c d r a := by
  obtain ⟨hfetched, hrun, -, hfree, hclean⟩ := h
  have hread : s.checkReads c (a.order (s.core c).part.sent) [] = (.fine, s) := by
    refine State.checkReads_clean fun w hw => hclean w ?_
    have := List.mem_of_mem_drop hw
    rwa [hwords, Option.getD_none, List.flatMap_append, halso, List.append_nil] at this
  have hholds : s.issueHolds c d a = false := hfree
  unfold State.issue
  rw [hfetched, hrun]
  dsimp only
  rw [if_neg (not_not.2 (show d.op = op from hop)), hjudge]
  dsimp only
  rw [hholds, if_neg Bool.false_ne_true, hread]
  dsimp only
  rw [if_pos hrefuse, Act.effect, hsend]
  rfl

section
variable (s : State) (c : Nat) (d : Desc) (r : Running) (a : Act)

@[simp] theorem State.withIssued_run : ((s.withIssued c d r a).core c).run = (s.core c).run := by
  rw [State.withIssued, State.core_updCore_same]
@[simp] theorem State.withIssued_stope (j : Nat) : (s.withIssued c d r a).stope j = s.stope j := rfl
@[simp] theorem State.withIssued_stream (j : Nat) : (s.withIssued c d r a).stream j = s.stream j := rfl
@[simp] theorem State.withIssued_rd (o : Nat) : (s.withIssued c d r a).rd o = s.rd o := rfl
@[simp] theorem State.withIssued_rdRange (j : Nat) (b : Rng) : (s.withIssued c d r a).rdRange j b = s.rdRange j b := rfl
@[simp] theorem State.withIssued_rdLanes (j : Nat) (b : Rng) : (s.withIssued c d r a).rdLanes j b = s.rdLanes j b := rfl
theorem State.withIssued_rest : { s.withIssued c d r a with cores := s.cores } = s := rfl

/-- Once a descriptor has issued, all but the cores stands as its effect left it. -/
theorem State.afterIssue_rest : { s.afterIssue c d r a with cores := s.cores } = { a.run (s.withIssued c d r a) with cores := s.cores } := rfl
theorem State.afterIssue_stope (j : Nat) : (s.afterIssue c d r a).stope j = (a.run (s.withIssued c d r a)).stope j := rfl

end

/-- Where the effect keeps the cores' descriptors, the descriptor has issued. -/
theorem State.afterIssue_issuedOn {s : State} {c : Nat} {d : Desc} {r : Running} {a : Act} {rs ws : List Rng}
    (hkept : IssuesKept (s.withIssued c d r a) (a.run (s.withIssued c d r a)))
    (hentries : a.entries = rs.map (·.entry false) ++ ws.map (·.entry true) := by rfl) :
    IssuedOn s (s.afterIssue c d r a) c d r rs ws a.await := by
  have hnext (t : Core) : (t.issueNext d.last).fetched = none ∧ (t.issueNext d.last).issued = t.issued := by
    unfold Core.issueNext
    dsimp only
    split
    · split
      · exact ⟨rfl, rfl⟩
      · exact ⟨rfl, rfl⟩
    · exact ⟨rfl, rfl⟩
  refine ⟨?_, ?_, fun x hx => ⟨?_, ?_⟩⟩
  · rw [State.afterIssue, State.core_updCore_same, (hnext _).1]
  · rw [State.afterIssue, State.core_updCore_same, (hnext _).2, hkept.issued, State.withIssued, State.core_updCore_same, hentries]
  · rw [State.afterIssue, State.core_updCore_other _ _ hx, hkept.issued, State.withIssued, State.core_updCore_other _ _ hx]
  · rw [State.afterIssue, State.core_updCore_other _ _ hx, hkept.fetched, State.withIssued, State.core_updCore_other _ _ hx]

/-- What an effect on a range leaves alone stays so for the whole issue. -/
theorem RangeOnly.afterIssue {s : State} {c : Nat} {d : Desc} {r : Running} {a : Act} {b : Rng}
    (h : RangeOnly (s.withIssued c d r a) (a.run (s.withIssued c d r a)) c b) : RangeOnly s (s.afterIssue c d r a) c b := by
  obtain ⟨hacc, hmem, hrest⟩ := h
  exact ⟨hacc, hmem, congrArg (fun t : State => { t with cores := s.cores }) hrest⟩

/-- A descriptor that writes one range: once it has issued, the range holds what was written, nothing beside it moved. -/
theorem State.afterIssue_wrRange {s : State} {c : Nat} {d : Desc} {r : Running} {a : Act} {b : Rng} (f : State → List Byte)
    (hrun : ∀ t, a.run t = t.wrRange c b (f t)) (hlen : (f (s.withIssued c d r a)).length = 8 * b.words) :
    (s.afterIssue c d r a).rdRange c b = f (s.withIssued c d r a) ∧ RangeOnly s (s.afterIssue c d r a) c b ∧
      IssuesKept (s.withIssued c d r a) (a.run (s.withIssued c d r a)) := by
  have hwrite := hrun (s.withIssued c d r a)
  refine ⟨?_, .afterIssue ?_, ?_⟩
  · exact (congrArg (fun t : State => t.rdRange c b) hwrite).trans (State.rdRange_wrRange _ _ _ hlen)
  · rw [hwrite]
    exact State.wrRange_rangeOnly _ _ _ hlen
  · rw [hwrite]
    exact State.wrRange_issuesKept ..

/-- A descriptor whose effect leaves bytes in a range of memory. -/
theorem State.afterIssue_mem {s : State} {c : Nat} {d : Desc} {r : Running} {a : Act} {b : Rng} {bs : List Byte}
    (hspace : b.space ≠ 1) (hlen : bs.length = 8 * b.words) (hmem : (a.run (s.withIssued c d r a)).mem = writeBytes s.mem b.start bs) :
    (s.afterIssue c d r a).rdRange c b = bs ∧ MemKept s (s.afterIssue c d r a) b.start (8 * b.words) := by
  have hafter : (s.afterIssue c d r a).mem = writeBytes s.mem b.start bs := hmem
  refine ⟨?_, fun x hx => ?_⟩
  · rw [State.rdRange, if_neg hspace, State.rdMem, hafter, readBytes_writeBytes_same _ _ hlen]
  · rw [hafter, readByte_writeBytes_outside _ _ _ _ (by omega)]

/-- With its form and its ranges good and its length not 0, a descriptor acts. -/
theorem judgeWith_acts {d : Desc} {a : Act} (hlen : d.len ≠ 0) : judgeWith false d (some a) = .act a := if_neg hlen

end Sys2Proof.Machine

namespace Sys2Proof.Machine

/-! ## O12: the plan check (R68, R88, R97, R98) -/

/-- The first match of some first entries, latest first, is its latest match. -/
theorem find?_reverse_take {α : Type} (p : α → Bool) (l : List α) (n : Nat) (a : α) :
    (l.take n).reverse.find? p = some a ↔
      ∃ m, m < n ∧ l[m]? = some a ∧ p a = true ∧ ∀ k q, m < k → k < n → l[k]? = some q → p q = false := by
  induction n with
  | zero => simp
  | succ n ih =>
    rw [List.take_add_one, List.reverse_append, List.find?_append]
    cases hx : l[n]? with
    | none =>
      have hlen : l.length ≤ n := List.getElem?_eq_none_iff.1 hx
      simp only [Option.toList_none, List.reverse_nil, List.find?_nil, Option.none_or, ih]
      constructor
      · rintro ⟨m, hm, ha, hp, hlater⟩
        refine ⟨m, by omega, ha, hp, fun k q hk hkn hq => hlater k q hk ?_ hq⟩
        have := (List.getElem?_eq_some_iff.1 hq).1
        omega
      · rintro ⟨m, -, ha, hp, hlater⟩
        have := (List.getElem?_eq_some_iff.1 ha).1
        exact ⟨m, by omega, ha, hp, fun k q hk hkn => hlater k q hk (by omega)⟩
    | some x =>
      simp only [Option.toList_some, List.reverse_singleton, List.find?_singleton]
      by_cases hp : p x = true
      · simp only [hp, if_true, Option.some_or, Option.some.injEq]
        constructor
        · rintro rfl
          exact ⟨n, by omega, hx, hp, fun k q hk hkn => by omega⟩
        · rintro ⟨m, hm, ha, -, hlater⟩
          obtain hmn | rfl : m < n ∨ m = n := by omega
          · exact absurd hp (by rw [hlater n x hmn (by omega) hx]; decide)
          · exact Option.some.inj (hx.symm.trans ha)
      · simp only [hp, Bool.false_eq_true, if_false, Option.none_or, ih]
        constructor
        · rintro ⟨m, hm, ha, hpa, hlater⟩
          refine ⟨m, by omega, ha, hpa, fun k q hk hkn hq => ?_⟩
          obtain hkn | rfl : k < n ∨ k = n := by omega
          · exact hlater k q hk hkn hq
          · obtain rfl := Option.some.inj (hx.symm.trans hq)
            exact Bool.eq_false_iff.2 hp
        · rintro ⟨m, hm, ha, hpa, hlater⟩
          have hmn : m ≠ n := by
            rintro rfl
            obtain rfl := Option.some.inj (hx.symm.trans ha)
            exact hp hpa
          exact ⟨m, by omega, ha, hpa, fun k q hk hkn => hlater k q hk (by omega)⟩

/-- A list has no bad entry where none is bad after those before it. -/
theorem firstBad_eq_none_iff (h : Word) (es earlier : List Word) (n : Nat) :
    firstBad h es earlier n = none ↔ ∀ k e, es[k]? = some e → entBad h e ((es.take k).reverse ++ earlier) = false := by
  induction es generalizing earlier n with
  | nil => simp [firstBad]
  | cons x xs ih =>
    rw [firstBad]
    constructor
    · intro hnone k e he
      by_cases hx : entBad h x earlier = true
      · simp [hx] at hnone
      · rw [if_neg hx, ih] at hnone
        cases k with
        | zero =>
          obtain rfl := Option.some.inj he
          exact Bool.eq_false_iff.2 hx
        | succ k => simpa using hnone k e he
    · intro hall
      have hx : entBad h x earlier = false := hall 0 x rfl
      rw [if_neg (by simp [hx]), ih]
      intro k e he
      simpa using hall (k + 1) e he

/-- A header breaks R88 by no condition of its own. -/
theorem hdrBad_eq_false_iff (h : Word) :
    hdrBad h = false ↔ 1 ≤ fld h 4 0 ∧ fld h 4 0 ≤ 16 ∧ fld h 9 6 ≤ 9 ∧ (bit h 11 = true → bit h 5 = false ∧ fld h 16 12 ≠ 0) ∧
      (bit h 11 = false → fld h 16 12 = 0) := by
  simp only [hdrBad, Bool.or_eq_false_iff, beq_eq_false_iff_ne, decide_eq_false_iff_not, Nat.not_lt, Bool.and_eq_false_imp,
    bne_eq_false_iff_eq, Bool.not_eq_true', and_assoc]
  simp only [hdrLength, hdrBaseShift, hdrRef, hdrSegmented, hdrPulses, imp_and, Nat.one_le_iff_ne_zero, ne_eq, and_assoc]

/-- An entry's CARRY is legal: it carries nothing, or from a predecessor of the same SHIFT, or of one more (R97, R98). -/
theorem carryOk_iff (h e : Word) (earlier : List Word) :
    carryOk h e earlier = true ↔ fld e 17 16 = 0 ∨ ∃ p, predecessor e earlier = some p ∧
      (fld e 17 16 = 1 ∧ fld e 21 18 = fld p 21 18 ∨ fld e 17 16 = 2 ∧ fld e 21 18 + 1 = fld p 21 18) ∧
      (bit h 5 = true → fld e 6 3 = fld p 6 3) := by
  have hlt : fld e 17 16 < 4 := fld_lt e 17 16
  unfold carryOk entCarry
  obtain h0 | h3 | h12 : fld e 17 16 = 0 ∨ fld e 17 16 = 3 ∨ fld e 17 16 = 1 ∨ fld e 17 16 = 2 := by omega
  · simp [h0]
  · simp [h3]
  · cases predecessor e earlier with
    | none => rcases h12 with h1 | h2 <;> simp [*]
    | some p => rcases h12 with h1 | h2 <;> simp [*, entShift, entMask, hdrSegmented, or_iff_not_imp_left]

/-- An entry breaks R88 by no condition, given the header and the earlier entries. -/
theorem entBad_eq_false_iff (h e : Word) (earlier : List Word) :
    entBad h e earlier = false ↔
      fld e 9 7 ≠ 7 ∧ fld e 15 10 ≠ 0 ∧ fld e 2 1 + 6 = fld h 9 6 + fld e 21 18 + fld e 9 7 ∧
        fld e 21 18 ≤ (if bit h 5 = true then 6 else 8) ∧ (bit h 5 = true → popcount 4 (fld e 6 3) = 1) ∧
        (bit h 11 = true → fld e 2 1 = 0 ∧ fld h 16 12 ≤ fld e 15 10) ∧ (bit h 10 = true → fld e 0 0 = 0) ∧
        carryOk h e earlier = true := by
  have hphase : fld e 0 0 < 2 := fld_lt e 0 0
  have hone : entPhase e ≠ 1 ↔ entPhase e = 0 := by
    unfold entPhase
    omega
  simp only [entBad, Bool.or_eq_false_iff, beq_eq_false_iff_ne, decide_eq_false_iff_not, Nat.not_lt, bne_eq_false_iff_eq,
    Bool.and_eq_false_imp, Bool.not_eq_false', hone, and_assoc]
  simp only [entGain, entTint, entShift, entPlane, entMask, entPhase, hdrSegmented, hdrBaseShift, hdrRef, hdrPulses, hdrSweep]
  exact and_congr_right' (and_congr_right' and_left_comm)

/-- Settles O12: the check walks the entries with those before them, latest first, and each condition of R88 is one disjunct of it. -/
theorem planCheckIsR88 : Obligations.PlanCheckIsR88 := by
  intro h es hlen
  have hcheck : planCheck h es = .none ↔ hdrBad h = false ∧ firstBad h es [] 0 = none := by
    rw [planCheck, hdrLength, ← hlen, List.take_length]
    cases hdrBad h with
    | true => simp
    | false => cases firstBad h es [] 0 <;> simp
  have hcarry (n : Nat) (e : Word) : carryOk h e (es.take n).reverse = true ↔ fld e 17 16 = 0 ∨
      ∃ (m : Nat) (p : Word), m < n ∧ es[m]? = some p ∧ fld p 0 0 = fld e 0 0 ∧
        (∀ (k : Nat) (q : Word), m < k → k < n → es[k]? = some q → fld q 0 0 ≠ fld e 0 0) ∧
        (fld e 17 16 = 1 ∧ fld e 21 18 = fld p 21 18 ∨ fld e 17 16 = 2 ∧ fld e 21 18 + 1 = fld p 21 18) ∧
        (bit h 5 = true → fld e 6 3 = fld p 6 3) := by
    simp only [carryOk_iff, predecessor, find?_reverse_take, entPhase, beq_iff_eq, beq_eq_false_iff_ne]
    refine or_congr_right ⟨?_, ?_⟩
    · rintro ⟨p, ⟨m, hm, hp, hphase, hlater⟩, hshift, hmask⟩
      exact ⟨m, p, hm, hp, hphase, hlater, hshift, hmask⟩
    · rintro ⟨m, p, hm, hp, hphase, hlater, hshift, hmask⟩
      exact ⟨p, ⟨m, hm, hp, hphase, hlater⟩, hshift, hmask⟩
  rw [hcheck, hdrBad_eq_false_iff, firstBad_eq_none_iff]
  simp only [List.append_nil, entBad_eq_false_iff, hcarry, and_assoc]

end Sys2Proof.Machine

namespace Sys2Proof.Machine

/-! ## O17: the end of a pass (R70, R172, R334, R335) -/

/-! ### Sequencers, seams and launches of a stope -/

/-- An entry of a list changed at one place. -/
theorem getD_setAt {α : Type} (l : List α) (i j : Nat) (f : α → α) (d : α) :
    (setAt l i f).getD j d = if j = i ∧ j < l.length then f (l.getD j d) else l.getD j d := by
  by_cases hj : j < l.length
  · by_cases hi : j = i
    · subst hi
      simp [setAt, List.getD_eq_getElem?_getD, hj]
    · simp [setAt, List.getD_eq_getElem?_getD, hj, hi]
  · simp [setAt, List.getD_eq_getElem?_getD, hj]

theorem Stope.seq_updSeq (t : Stope) (k j : Nat) (f : Seq → Seq) :
    (t.updSeq k f).seq j = if j = k ∧ j < t.seqs.length then f (t.seq j) else t.seq j := getD_setAt ..

theorem Stope.seam_updSeam (t : Stope) (k j : Nat) (f : Seam → Seam) :
    (t.updSeam k f).seam j = if j = k ∧ j < t.seams.length then f (t.seam j) else t.seam j := getD_setAt ..

/-- A sequencer that is busy is one of the stope's. -/
theorem Stope.lt_of_busy {t : Stope} {k : Nat} (h : (t.seq k).busy = true) : k < t.seqs.length := by
  by_contra hk
  have : t.seq k = Seq.idle := List.getD_eq_default _ _ (by omega)
  rw [this] at h
  exact Bool.false_ne_true h

/-- A launch updated is found as updated. -/
theorem Stope.launch_updLaunch {t : Stope} {id : Nat} {l : Launch} {f : Launch → Launch} (hid : ∀ l, (f l).id = l.id) (h : t.launch id = some l) :
    (t.updLaunch id f).launch id = some (f l) := by
  have hl : (l.id == id) = true := List.find?_some (p := fun l : Launch => l.id == id) h
  have hsame : (fun l : Launch => l.id == id) ∘ (fun l => if l.id == id then f l else l) = fun l => l.id == id := by
    funext x
    rw [Function.comp_apply]
    split
    · rw [hid]
    · rfl
  rw [Stope.launch, Stope.updLaunch, List.find?_map, hsame, ← Stope.launch, h, Option.map_some, if_pos hl]

/-! ### What the parts of a pass's end leave of a stope -/

/-- Only a stope's runs changed. -/
def RunsOnly (t u : Stope) : Prop := { u with narrow := t.narrow, check := t.check, recon := t.recon, runFlags := t.runFlags } = t

theorem RunsOnly.trans {t u v : Stope} (h : RunsOnly t u) (h' : RunsOnly u v) : RunsOnly t v := by
  unfold RunsOnly at *
  have hback := congrArg (fun x : Stope => { x with narrow := t.narrow, check := t.check, recon := t.recon, runFlags := t.runFlags }) h'
  exact hback.trans h

theorem Stope.combine_runsOnly (t : Stope) (w : Word) : RunsOnly t (t.combine w) := by
  unfold Stope.combine
  extract_lets
  split
  · extract_lets
    split
    · split
      · rfl
      · rfl
    · rfl
  · rfl

/-- The combine stage changes the runs and takes words off the queue. -/
theorem Stope.drain_runsOnly (t : Stope) (n : Nat) : RunsOnly { t with queue := t.queue.drop n } (t.drain n) := by
  have hfold (ws : List Word) (u : Stope) : RunsOnly u (ws.foldl Stope.combine u) := by
    induction ws generalizing u with
    | nil => rfl
    | cons w ws ih => exact (u.combine_runsOnly w).trans (ih _)
  exact hfold _ _

theorem Stope.clearRuns_runsOnly (t : Stope) (k : Nat) : RunsOnly t (t.clearRuns k) := rfl

/-- A drained stope: the queue is empty, and sequencers, seams, launches and accumulators are as they were. -/
theorem Stope.drain_all (t : Stope) :
    (t.drain t.queue.length).queue = [] ∧ (t.drain t.queue.length).seqs = t.seqs ∧ (t.drain t.queue.length).seams = t.seams ∧
    (t.drain t.queue.length).launches = t.launches ∧ (t.drain t.queue.length).acc = t.acc := by
  have h := t.drain_runsOnly t.queue.length
  have hqueue := congrArg Stope.queue h
  have hseqs := congrArg Stope.seqs h
  have hseams := congrArg Stope.seams h
  have hlaunches := congrArg Stope.launches h
  have hacc := congrArg Stope.acc h
  exact ⟨hqueue.trans List.drop_length, hseqs, hseams, hlaunches, hacc⟩

/-! ### Frames of a stope and of registers -/

theorem RegsKept.mono {s t : State} {l l' : List Nat} (h : RegsKept s t l) (hl : l ⊆ l') : RegsKept s t l' := fun o ho => h o fun hm => ho (hl hm)

theorem StopeRegs.mono {s t : State} {i : Nat} {l l' : List Nat} (h : StopeRegs s t i l) (hl : l ⊆ l') : StopeRegs s t i l' := by
  obtain ⟨hstopes, hregs, hrest⟩ := h
  exact ⟨hstopes, RegsKept.mono hregs hl, hrest⟩

theorem StopeRegs.refl (s : State) (i : Nat) (l : List Nat) : StopeRegs s s i l := ⟨fun _ _ => rfl, fun _ _ => rfl, rfl⟩

theorem StopeRegs.trans {s t u : State} {i : Nat} {l : List Nat} (h : StopeRegs s t i l) (h' : StopeRegs t u i l) : StopeRegs s u i l := by
  obtain ⟨hstopes, hregs, hrest⟩ := h
  obtain ⟨hstopes', hregs', hrest'⟩ := h'
  have hback := congrArg (fun x : State => { x with stopes := s.stopes, regs := s.regs }) hrest'
  exact ⟨fun j hj => (hstopes' j hj).trans (hstopes j hj), fun o ho => (hregs' o ho).trans (hregs o ho), hback.trans hrest⟩

theorem StopeRegs.updStope (s : State) (i : Nat) (f : Stope → Stope) (l : List Nat) : StopeRegs s (s.updStope i f) i l :=
  ⟨fun _ hj => s.stope_updStope_other f hj, fun _ _ => rfl, rfl⟩

theorem StopeRegs.setStope (s : State) (i : Nat) (t : Stope) (l : List Nat) : StopeRegs s (s.setStope i t) i l :=
  ⟨fun _ hj => s.stope_setStope_other t hj, fun _ _ => rfl, rfl⟩

theorem StopeRegs.inc (s : State) {i o : Nat} (n : Nat) {l : List Nat} (ho : o ∈ l) : StopeRegs s (s.inc o n) i l :=
  ⟨fun _ _ => rfl, fun _ hx => s.rd_inc_other n fun he => hx (he ▸ ho), rfl⟩

/-! ### Promotion (R70) -/

/-- What a column's promotion adds to its accumulator. -/
def Stope.promotion (t : Stope) (k m c : Nat) (h : Word) : Int :=
  clampI (-promoteLimit h) (promoteLimit h)
    ((if (t.seam k).mode = .recon ∧ (t.seam k).mac = m then Table.get 0 t.recon (256 * m + c) else Table.get 0 t.narrow (256 * m + c)) *
      (2 : Int) ^ hdrBaseShift h)

/-- One column of a seam's promotion, with the clamps counted. -/
def promoteStep (k : Nat) (h : Word) (x : Stope × Nat) (cell : Nat × Nat) : Stope × Nat :=
  let y := x.1.promote k cell.1 cell.2 h
  (y.1, x.2 + (if y.2 then 1 else 0))

/-- The accumulators that a seam's pass promotes to. -/
def promotedCells (k : Nat) (cols : List Nat) : List (Nat × Nat) := (List.range 16).flatMap fun j => cols.map fun c => (16 * k + j, c)

theorem mem_promotedCells {k m c : Nat} {cols : List Nat} : (m, c) ∈ promotedCells k cols ↔ 16 * k ≤ m ∧ m < 16 * k + 16 ∧ c ∈ cols := by
  simp only [promotedCells, List.mem_flatMap, List.mem_range, List.mem_map, Prod.mk.injEq]
  constructor
  · rintro ⟨j, hj, c', hc', rfl, rfl⟩
    exact ⟨by omega, by omega, hc'⟩
  · rintro ⟨hlo, hhi, hc⟩
    exact ⟨m - 16 * k, by omega, c, hc, by omega, rfl⟩

theorem nodup_promotedCells (k : Nat) {cols : List Nat} (h : cols.Nodup) : (promotedCells k cols).Nodup := by
  refine List.nodup_flatMap.2 ⟨fun j _ => h.map fun a b he => (Prod.mk.inj he).2, ?_⟩
  refine List.nodup_range.imp fun {a b} hab => ?_
  rw [Function.onFun, List.disjoint_left]
  rintro ⟨m, c⟩ ha hb
  obtain ⟨_, -, hma⟩ := List.mem_map.1 ha
  obtain ⟨_, -, hmb⟩ := List.mem_map.1 hb
  have := (Prod.mk.inj hma).1.trans (Prod.mk.inj hmb).1.symm
  omega

theorem nodup_passColumns (q : Seq) : (passColumns q).Nodup := List.nodup_range.filter _

theorem lt_of_mem_passColumns {q : Seq} {c : Nat} (h : c ∈ passColumns q) : c < 256 := List.mem_range.1 (List.mem_filter.1 h).1

/-- Each of the columns promoted, and no other, has its promotion added. -/
theorem acc_foldl_promoteStep (k : Nat) (h : Word) (cells : List (Nat × Nat)) (hnodup : cells.Nodup) (hcol : ∀ x ∈ cells, x.2 < 256)
    (t : Stope) (n m c : Nat) (hc : c < 256) :
    Table.get 0 (cells.foldl (promoteStep k h) (t, n)).1.acc (256 * m + c) =
      if (m, c) ∈ cells then Table.get 0 t.acc (256 * m + c) + BitVec.ofInt 32 (t.promotion k m c h) else Table.get 0 t.acc (256 * m + c) := by
  induction cells generalizing t n with
  | nil => rfl
  | cons x cells ih =>
    obtain ⟨hx, hnodup⟩ := List.nodup_cons.1 hnodup
    have hxc : x.2 < 256 := hcol x List.mem_cons_self
    have hacc : (promoteStep k h (t, n) x).1.acc =
        Table.set 0 t.acc (256 * x.1 + x.2) (Table.get 0 t.acc (256 * x.1 + x.2) + BitVec.ofInt 32 (t.promotion k x.1 x.2 h)) := rfl
    have hsame : (promoteStep k h (t, n) x).1.promotion k m c h = t.promotion k m c h := rfl
    rw [List.foldl_cons, ← Prod.mk.eta (p := promoteStep k h (t, n) x), ih hnodup (fun y hy => hcol y (List.mem_cons_of_mem _ hy)), hacc, hsame,
      Table.get_set]
    by_cases he : (m, c) = x
    · subst he
      rw [if_neg hx, if_pos rfl, if_pos List.mem_cons_self]
    · have hkey : 256 * m + c ≠ 256 * x.1 + x.2 := fun hk => he (Prod.ext (by dsimp only; omega) (by dsimp only; omega))
      rw [if_neg hkey]
      simp only [List.mem_cons, he, false_or]

theorem State.promoteSeam_stopeRegs (s : State) (i k : Nat) : StopeRegs s (s.promoteSeam i k) i [shellSatCount i] :=
  StopeRegs.trans (.setStope ..) (.inc _ _ List.mem_cons_self)

/-- A seam's promotion adds to each accumulator of its pass. -/
theorem State.acc_promoteSeam (s : State) (i k m c : Nat) (hc : c < 256) :
    Table.get 0 ((s.promoteSeam i k).stope i).acc (256 * m + c) =
      if 16 * k ≤ m ∧ m < 16 * k + 16 ∧ c ∈ passColumns ((s.stope i).seq k) then
        Table.get 0 (s.stope i).acc (256 * m + c) + BitVec.ofInt 32 ((s.stope i).promotion k m c ((s.stope i).seq k).hdr)
      else Table.get 0 (s.stope i).acc (256 * m + c) := by
  have hcells : ∀ x ∈ promotedCells k (passColumns ((s.stope i).seq k)), x.2 < 256 := fun x hx => by
    obtain ⟨-, -, hc⟩ := mem_promotedCells.1 (show (x.1, x.2) ∈ _ from hx)
    exact lt_of_mem_passColumns hc
  have hfold : (s.promoteSeam i k).stope i = ((promotedCells k (passColumns ((s.stope i).seq k))).foldl
      (promoteStep k ((s.stope i).seq k).hdr) (s.stope i, 0)).1 := s.stope_setStope_same i _
  rw [hfold, acc_foldl_promoteStep _ _ _ (nodup_promotedCells k (nodup_passColumns _)) hcells _ _ _ _ hc]
  exact if_congr mem_promotedCells rfl rfl

/-! ### What follows a promotion (R84, R85) -/

theorem State.endSeam_acc (s : State) (i k : Nat) : ((s.endSeam i k).stope i).acc = (s.stope i).acc := by
  have hfree (l : List Nat) (t : Stope) : (l.foldl (fun t k => t.updSeq k fun _ => Seq.idle) t).acc = t.acc := by
    induction l generalizing t with
    | nil => rfl
    | cons k l ih => exact ih _
  rw [State.endSeam, State.stope_updStope_same]
  extract_lets id t v
  have hv : v.acc = (s.stope i).acc := by
    dsimp only [v]
    split
    · split
      · exact hfree ..
      · rfl
    · rfl
  split
  · exact hv
  · exact hv

theorem State.nextPass_acc (s : State) (i k : Nat) : ((s.nextPass i k).stope i).acc = (s.stope i).acc := by
  have hclear : ((s.updStope i fun t => (t.dropResidues k).clearRuns k).stope i).acc = (s.stope i).acc := by
    rw [State.stope_updStope_same]
    rfl
  unfold State.nextPass
  dsimp only
  split
  · rw [State.stope_updStope_same]
    exact hclear
  · exact (State.endSeam_acc ..).trans hclear

theorem State.nextPass_stopeRegs (s : State) (i k : Nat) : StopeRegs s (s.nextPass i k) i [] := by
  unfold State.nextPass
  dsimp only
  split
  · exact StopeRegs.trans (.updStope ..) (.updStope ..)
  · exact StopeRegs.trans (.updStope ..) (.updStope ..)

/-! ### The verdict of a pass -/

/-- The machine once a pass's columns are checked: the skips are counted, and the τ used is in SEAM_STATE. -/
def State.passChecked (s : State) (i k : Nat) (l : Launch) : State :=
  let cols := passColumns ((s.stope i).seq k)
  let t := s.inc (checkSkipCount i) (cols.filter (s.checkSkipped i k)).length
  if (cols.filter fun c => !(t.checkSkipped i k c)).isEmpty then t
  else t.updStope i fun t => t.updSeam k fun g => { g with tauLast := max l.tau.1 l.tau.2 }

/-- The machine with a stope's queue drained. -/
def State.queueDrained (s : State) (i : Nat) : State := s.updStope i fun t => t.drain t.queue.length

theorem State.queueDrained_stope (s : State) (i : Nat) : (s.queueDrained i).stope i = (s.stope i).drain (s.stope i).queue.length :=
  s.stope_updStope_same i _

theorem State.queueDrained_seq (s : State) (i k : Nat) : ((s.queueDrained i).stope i).seq k = (s.stope i).seq k := by
  obtain ⟨-, hseqs, -⟩ := (s.stope i).drain_all
  rw [State.queueDrained_stope, Stope.seq, hseqs, Stope.seq]

theorem State.queueDrained_seam (s : State) (i k : Nat) : ((s.queueDrained i).stope i).seam k = (s.stope i).seam k := by
  obtain ⟨-, -, hseams, -⟩ := (s.stope i).drain_all
  rw [State.queueDrained_stope, Stope.seam, hseams, Stope.seam]

theorem State.queueDrained_launch (s : State) (i id : Nat) : ((s.queueDrained i).stope i).launch id = (s.stope i).launch id := by
  obtain ⟨-, -, -, hlaunches, -⟩ := (s.stope i).drain_all
  rw [State.queueDrained_stope, Stope.launch, hlaunches, Stope.launch]

/-- A pass's end goes by the columns that fail. -/
theorem State.passEnd_eq {s : State} {i k : Nat} {l : Launch} (hl : (s.stope i).launch ((s.stope i).seq k).launch = some l) :
    s.passEnd i k = match (s.queueDrained i).failing i k l.tau with
      | [] => ((s.queueDrained i).passChecked i k l).passPassed i k l
      | c :: _ => ((s.queueDrained i).passChecked i k l).passFailed i k c l := by
  have hdrained : ((s.queueDrained i).stope i).launch (((s.queueDrained i).stope i).seq k).launch = some l := by
    rw [State.queueDrained_seq, State.queueDrained_launch, hl]
  unfold State.passEnd
  rw [← State.queueDrained]
  generalize s.queueDrained i = u at *
  dsimp only
  rw [hdrained]
  rfl

/-- The check itself moves the count of skips, and of its stope a seam's last τ. -/
theorem State.passChecked_stope (s : State) (i k : Nat) (l : Launch) :
    (s.passChecked i k l).stope i = s.stope i ∨
    (s.passChecked i k l).stope i = (s.stope i).updSeam k fun g => { g with tauLast := max l.tau.1 l.tau.2 } := by
  unfold State.passChecked
  dsimp only
  split
  · exact .inl rfl
  · exact .inr (State.stope_updStope_same ..)

theorem State.passChecked_stopeRegs (s : State) (i k : Nat) (l : Launch) : StopeRegs s (s.passChecked i k l) i [checkSkipCount i] := by
  unfold State.passChecked
  dsimp only
  split
  · exact .inc _ _ List.mem_cons_self
  · exact StopeRegs.trans (.inc _ _ List.mem_cons_self) (.updStope ..)

/-- A seam checked keeps its mode and what it does with a re-run. -/
theorem State.passChecked_seam (s : State) (i k : Nat) (l : Launch) :
    (((s.passChecked i k l).stope i).seam k).mode = ((s.stope i).seam k).mode ∧
    (((s.passChecked i k l).stope i).seam k).finalRerun = ((s.stope i).seam k).finalRerun := by
  obtain h | h := s.passChecked_stope i k l
  · rw [h]
    exact ⟨rfl, rfl⟩
  · rw [h, Stope.seam_updSeam]
    split
    · exact ⟨rfl, rfl⟩
    · exact ⟨rfl, rfl⟩

/-- Of a stope, the check moves the seams alone. -/
theorem State.passChecked_rest (s : State) (i k : Nat) (l : Launch) :
    { (s.passChecked i k l).stope i with seams := (s.stope i).seams } = s.stope i := by
  obtain h | h := s.passChecked_stope i k l
  · rw [h]
  · rw [h]
    rfl

/-! ### A pass whose checks pass, and one that fails for the first time (R70, R334, R335) -/

theorem exec_passEnd {s : State} {i k : Nat} (hover : s.passOver i k = true) : exec (.passEnd i ⟨k, false⟩) s = .next (s.passEnd i k) :=
  congrArg Host.Outcome.next (if_pos hover)

theorem exec_passEnd_lost {s : State} {i k : Nat} (hover : s.passOver i k = true) : exec (.passEnd i ⟨k, true⟩) s = .next (s.passLost i k) :=
  congrArg Host.Outcome.next (if_pos hover)

/-- A pass is over only on a busy sequencer. -/
theorem State.busy_of_passOver {s : State} {i k : Nat} (hover : s.passOver i k = true) : ((s.stope i).seq k).busy = true := by
  simp only [State.passOver, Bool.and_eq_true] at hover
  obtain ⟨⟨⟨⟨hbusy, -⟩, -⟩, -⟩, -⟩ := hover
  exact hbusy

/-- The machine once a pass's queue is drained and its columns are checked. -/
def State.passJudged (s : State) (i k : Nat) (l : Launch) : State := (s.queueDrained i).passChecked i k l

/-- Of what a pass's verdict goes by, the check moves nothing. -/
theorem State.passJudged_kept (s : State) (i k : Nat) (l : Launch) :
    ((s.passJudged i k l).stope i).acc = (s.stope i).acc ∧ ((s.passJudged i k l).stope i).seqs = (s.stope i).seqs ∧
    ((s.passJudged i k l).stope i).launches = (s.stope i).launches ∧ ((s.passJudged i k l).stope i).queue = [] ∧
    ((s.passJudged i k l).stope i).narrow = ((s.queueDrained i).stope i).narrow ∧
    (((s.passJudged i k l).stope i).seam k).mode = ((s.stope i).seam k).mode ∧
    (((s.passJudged i k l).stope i).seam k).finalRerun = ((s.stope i).seam k).finalRerun := by
  have hrest := (s.queueDrained i).passChecked_rest i k l
  obtain ⟨hmode, hfinal⟩ := (s.queueDrained i).passChecked_seam i k l
  obtain ⟨hqueue, hseqs, -, hlaunches, hacc⟩ := (s.stope i).drain_all
  rw [← State.queueDrained_stope] at hqueue hseqs hlaunches hacc
  rw [State.queueDrained_seam] at hmode hfinal
  have hacc' := congrArg Stope.acc hrest
  have hseqs' := congrArg Stope.seqs hrest
  have hlaunches' := congrArg Stope.launches hrest
  have hqueue' := congrArg Stope.queue hrest
  have hnarrow' := congrArg Stope.narrow hrest
  dsimp only at hacc' hseqs' hlaunches' hqueue' hnarrow'
  rw [State.passJudged]
  exact ⟨hacc'.trans hacc, hseqs'.trans hseqs, hlaunches'.trans hlaunches, hqueue'.trans hqueue, hnarrow', hmode, hfinal⟩

theorem State.passJudged_stopeRegs (s : State) (i k : Nat) (l : Launch) : StopeRegs s (s.passJudged i k l) i [checkSkipCount i] :=
  StopeRegs.trans (.updStope ..) (State.passChecked_stopeRegs ..)

/-- A pass that passes at its first run is promoted, and the next one begins. -/
theorem State.passPassed_eq {s : State} {i k : Nat} {l : Launch} (hfinal : ((s.stope i).seam k).finalRerun = false)
    (hfirst : bitAt l.reruns k = false) : s.passPassed i k l = (s.promoteSeam i k).nextPass i k := by
  unfold State.passPassed
  dsimp only
  rw [hfinal, hfirst, if_neg Bool.false_ne_true, if_neg Bool.false_ne_true]

/-- A checked seam's pass that fails for the first time runs again. -/
theorem State.passFailed_eq {s : State} {i k col : Nat} {l : Launch} (hmode : ((s.stope i).seam k).mode = .checked)
    (hfinal : ((s.stope i).seam k).finalRerun = false) (hfirst : bitAt l.reruns k = false) :
    s.passFailed i k col l = (s.updStope i fun t => t.updLaunch l.id fun l => { l with reruns := l.reruns ||| 2 ^ k }).rerunPass i k := by
  unfold State.passFailed
  dsimp only
  rw [hmode, hfinal, hfirst, if_neg (by decide), if_neg Bool.false_ne_true, if_neg Bool.false_ne_true]

theorem State.passEnd_of_pass {s : State} {i k : Nat} {l : Launch} (hl : (s.stope i).launch ((s.stope i).seq k).launch = some l)
    (hpass : (s.queueDrained i).failing i k l.tau = []) : s.passEnd i k = (s.passJudged i k l).passPassed i k l := by
  rw [State.passEnd_eq hl, hpass, State.passJudged]

theorem State.passEnd_of_fail {s : State} {i k col : Nat} {cols : List Nat} {l : Launch}
    (hl : (s.stope i).launch ((s.stope i).seq k).launch = some l) (hfail : (s.queueDrained i).failing i k l.tau = col :: cols) :
    s.passEnd i k = (s.passJudged i k l).passFailed i k col l := by
  rw [State.passEnd_eq hl, hfail, State.passJudged]

theorem passEnd_promotes {s : State} {i k : Nat} {l : Launch} (hover : s.passOver i k = true)
    (hl : (s.stope i).launch ((s.stope i).seq k).launch = some l) (hfirst : bitAt l.reruns k = false)
    (hpass : (s.queueDrained i).failing i k l.tau = []) (hmode : ((s.stope i).seam k).mode = .checked)
    (hfinal : ((s.stope i).seam k).finalRerun = false) :
    Gives (.passEnd i ⟨k, false⟩) s fun t =>
      (∀ m c, 16 * k ≤ m → m < 16 * k + 16 → c ∈ passColumns ((s.stope i).seq k) →
        Table.get 0 (t.stope i).acc (256 * m + c) = Table.get 0 (s.stope i).acc (256 * m + c) +
          BitVec.ofInt 32 (clampI (-promoteLimit ((s.stope i).seq k).hdr) (promoteLimit ((s.stope i).seq k).hdr)
            (Table.get 0 ((s.queueDrained i).stope i).narrow (256 * m + c) * (2 : Int) ^ fld ((s.stope i).seq k).hdr 9 6))) ∧
      (∀ m c, c < 256 → (m < 16 * k ∨ 16 * k + 16 ≤ m ∨ c ∉ passColumns ((s.stope i).seq k)) →
        Table.get 0 (t.stope i).acc (256 * m + c) = Table.get 0 (s.stope i).acc (256 * m + c)) ∧
      StopeRegs s t i [shellSatCount i, checkSkipCount i] := by
  obtain ⟨hacc, hseqs, -, -, hnarrow, hmode', hfinal'⟩ := s.passJudged_kept i k l
  have hframe := s.passJudged_stopeRegs i k l
  have hexec : exec (.passEnd i ⟨k, false⟩) s = .next (((s.passJudged i k l).promoteSeam i k).nextPass i k) := by
    rw [exec_passEnd hover, State.passEnd_of_pass hl hpass, State.passPassed_eq (hfinal'.trans hfinal) hfirst]
  generalize s.passJudged i k l = u at *
  have hseq : (u.stope i).seq k = (s.stope i).seq k := by rw [Stope.seq, hseqs, Stope.seq]
  have hgain (m c : Nat) : (u.stope i).promotion k m c ((s.stope i).seq k).hdr =
      clampI (-promoteLimit ((s.stope i).seq k).hdr) (promoteLimit ((s.stope i).seq k).hdr)
        (Table.get 0 ((s.queueDrained i).stope i).narrow (256 * m + c) * (2 : Int) ^ fld ((s.stope i).seq k).hdr 9 6) := by
    rw [Stope.promotion, hmode'.trans hmode, if_neg (fun h => nomatch h.1), hnarrow, hdrBaseShift]
  have hkeys (m c : Nat) (hc : c < 256) := u.acc_promoteSeam i k m c hc
  rw [← State.nextPass_acc, hseq, hacc] at hkeys
  refine ⟨_, hexec, fun m c hlo hhi hc => ?_, fun m c hc hout => ?_, ?_⟩
  · rw [hkeys m c (lt_of_mem_passColumns hc), if_pos ⟨hlo, hhi, hc⟩, hgain]
  · have hnot : ¬(16 * k ≤ m ∧ m < 16 * k + 16 ∧ c ∈ passColumns ((s.stope i).seq k)) := by
      rintro ⟨hlo, hhi, hmem⟩
      obtain h | h | h := hout
      · omega
      · omega
      · exact h hmem
    rw [hkeys m c hc, if_neg hnot]
  · exact (hframe.mono (by simp)).trans (((u.promoteSeam_stopeRegs i k).mono (by simp)).trans ((State.nextPass_stopeRegs ..).mono (by simp)))

theorem passEnd_reruns {s : State} {i k : Nat} {l : Launch} (hover : s.passOver i k = true)
    (hl : (s.stope i).launch ((s.stope i).seq k).launch = some l) (hfirst : bitAt l.reruns k = false)
    (hfails : (s.queueDrained i).failing i k l.tau ≠ []) (hmode : ((s.stope i).seam k).mode = .checked)
    (hfinal : ((s.stope i).seam k).finalRerun = false) :
    Gives (.passEnd i ⟨k, false⟩) s fun t =>
      ((t.stope i).seq k).pos = 0 ∧ ((t.stope i).seq k).busy = true ∧ (t.stope i).acc = (s.stope i).acc ∧ (t.stope i).queue = [] ∧
      (t.stope i).launch l.id = some { l with reruns := l.reruns ||| 2 ^ k } ∧ StopeRegs s t i [checkSkipCount i] := by
  obtain ⟨hacc, hseqs, hlaunches, hqueue, -, hmode', hfinal'⟩ := s.passJudged_kept i k l
  have hframe := s.passJudged_stopeRegs i k l
  obtain ⟨col, cols, hcols⟩ := List.exists_cons_of_ne_nil hfails
  have hexec : exec (.passEnd i ⟨k, false⟩) s =
      .next (((s.passJudged i k l).updStope i fun t => t.updLaunch l.id fun l => { l with reruns := l.reruns ||| 2 ^ k }).rerunPass i k) := by
    rw [exec_passEnd hover, State.passEnd_of_fail hl hcols, State.passFailed_eq (hmode'.trans hmode) (hfinal'.trans hfinal) hfirst]
  generalize s.passJudged i k l = u at *
  have hseq : (u.stope i).seq k = (s.stope i).seq k := by rw [Stope.seq, hseqs, Stope.seq]
  have hbusy : ((u.stope i).seq k).busy = true := by rw [hseq, State.busy_of_passOver hover]
  have hid : l.id = ((s.stope i).seq k).launch := beq_iff_eq.1 (List.find?_some (p := fun l : Launch => l.id == ((s.stope i).seq k).launch) hl)
  have hlaunch : (u.stope i).launch l.id = some l := by rw [Stope.launch, hlaunches, ← Stope.launch, hid, hl]
  have hafter : ((u.updStope i fun t => t.updLaunch l.id fun l => { l with reruns := l.reruns ||| 2 ^ k }).rerunPass i k).stope i =
      ((((u.stope i).updLaunch l.id fun l => { l with reruns := l.reruns ||| 2 ^ k }).dropResidues k).clearRuns k).updSeq k
        fun q => { q with pos := 0 } := by
    rw [State.rerunPass, State.stope_updStope_same, State.stope_updStope_same]
  have hseq' := Stope.seq_updSeq ((((u.stope i).updLaunch l.id fun l => { l with reruns := l.reruns ||| 2 ^ k }).dropResidues k).clearRuns k) k k
    fun q => { q with pos := 0 }
  rw [if_pos ⟨rfl, Stope.lt_of_busy hbusy⟩] at hseq'
  refine ⟨_, hexec, ?_, ?_, ?_, ?_, ?_, hframe.trans (StopeRegs.trans (.updStope ..) (.updStope ..))⟩
  · rw [hafter, hseq']
  · rw [hafter, hseq']
    exact hbusy
  · rw [hafter]
    exact hacc
  · rw [hafter]
    exact hqueue
  · rw [hafter]
    exact Stope.launch_updLaunch (f := fun l => { l with reruns := l.reruns ||| 2 ^ k }) (fun _ => rfl) hlaunch

/-! ### An uncorrectable error at the end of a pass (R172) -/

/-- One seam's plan ends without promotion. -/
def Stope.discardPlan (status : Nat) (t : Stope) (k : Nat) : Stope :=
  let id := (t.seq k).launch
  let t := (t.clearRuns k).dropResidues k
  if (t.seq k).busy then (t.updSeq k fun _ => Seq.idle).endLaunch id status else t

theorem Stope.discardPlan_acc (status : Nat) (t : Stope) (k : Nat) : (t.discardPlan status k).acc = t.acc := by
  unfold Stope.discardPlan
  dsimp only
  split
  · rfl
  · rfl

/-- A plan ended frees its sequencer, and no other. -/
theorem Stope.discardPlan_busy (status : Nat) (t : Stope) (k j : Nat) :
    ((t.discardPlan status k).seq j).busy = ((t.seq j).busy && j != k) := by
  unfold Stope.discardPlan
  dsimp only
  have hcleared : ((t.clearRuns k).dropResidues k).seq = t.seq := rfl
  split
  · have hended (u : Stope) (id : Nat) : (u.endLaunch id status).seq j = u.seq j := rfl
    rw [hended, Stope.seq_updSeq, hcleared]
    have hlength : ((t.clearRuns k).dropResidues k).seqs.length = t.seqs.length := rfl
    rw [hlength]
    by_cases hj : j = k
    · subst hj
      by_cases hlen : j < t.seqs.length
      · rw [if_pos ⟨rfl, hlen⟩]
        simp [Seq.idle]
      · have hidle : t.seq j = Seq.idle := List.getD_eq_default _ _ (by omega)
        rw [if_neg fun h => hlen h.2, hidle]
        rfl
    · rw [if_neg fun h => hj h.1]
      simp [hj]
  · next hidle =>
    rw [hcleared] at hidle ⊢
    by_cases hj : j = k
    · subst hj
      simp [hidle]
    · simp [hj]

theorem Stope.foldl_discardPlan (status : Nat) (ks : List Nat) (t : Stope) :
    (ks.foldl (Stope.discardPlan status) t).acc = t.acc ∧
    ∀ j, ((ks.foldl (Stope.discardPlan status) t).seq j).busy = ((t.seq j).busy && !ks.contains j) := by
  induction ks generalizing t with
  | nil => exact ⟨rfl, fun j => by simp⟩
  | cons k ks ih =>
    obtain ⟨hacc, hbusy⟩ := ih (t.discardPlan status k)
    refine ⟨hacc.trans (t.discardPlan_acc status k), fun j => ?_⟩
    rw [List.foldl_cons, hbusy, Stope.discardPlan_busy, List.contains_cons, Bool.not_or, Bool.and_assoc]
    rfl

/-- With every seam's plan discarded, no sequencer is busy and the accumulators stand. -/
theorem Stope.discardPlans_all (t : Stope) (status : Nat) :
    (t.discardPlans [0, 1, 2, 3] status).acc = t.acc ∧ ∀ j, j < 4 → ((t.discardPlans [0, 1, 2, 3] status).seq j).busy = false := by
  have hfold (t' : Stope) := Stope.foldl_discardPlan status [0, 1, 2, 3] t'
  obtain ⟨hacc, hbusy⟩ := hfold { t with
    queue := t.queue.filter fun w => !([0, 1, 2, 3].contains (seamOf (fld w 31 25))),
    heldPush := t.heldPush.filter fun g => !([0, 1, 2, 3].contains g.1) }
  refine ⟨hacc, fun j hj => (hbusy j).trans ?_⟩
  have hmem : [0, 1, 2, 3].contains j = true := by
    simp only [List.contains_iff_mem, List.mem_cons, List.not_mem_nil, or_false]
    omega
  rw [hmem, Bool.not_true, Bool.and_false]

/-- The machine once an error at a pass's end is counted and the running plans are discarded. -/
def State.plansLost (s : State) (i : Nat) : State := (s.inc (coreUe i) 1).updStope i fun t => t.discardPlans [0, 1, 2, 3] causeRefLost

theorem State.plansLost_kept (s : State) (i : Nat) :
    (s.plansLost i).rd (coreUe i) = s.rd (coreUe i) + 1 ∧ ((s.plansLost i).stope i).acc = (s.stope i).acc ∧
    (∀ j, j < 4 → (((s.plansLost i).stope i).seq j).busy = false) ∧ StopeRegs s (s.plansLost i) i [coreUe i] := by
  have hstope : (s.plansLost i).stope i = (s.stope i).discardPlans [0, 1, 2, 3] causeRefLost := State.stope_updStope_same ..
  obtain ⟨hacc, hbusy⟩ := (s.stope i).discardPlans_all causeRefLost
  refine ⟨?_, ?_, ?_, ?_⟩
  · rw [State.plansLost, State.updStope_rd]
    exact s.rd_inc_same ..
  · rw [hstope, hacc]
  · rw [hstope]
    exact hbusy
  · rw [State.plansLost]
    exact StopeRegs.trans (.inc s 1 List.mem_cons_self) (.updStope ..)

theorem State.passLost_eq (s : State) (i k : Nat) :
    s.passLost i k = match (s.core i).issued.find? fun x => x.await == .launch ((s.stope i).seq k).launch with
      | some x => (s.plansLost i).stepFault i x.step x.desc.index causeAccUe
      | none => s.plansLost i := rfl

theorem State.dropStepOn_notices (s : State) (c id : Nat) : (s.dropStepOn c id).noc.notices = s.noc.notices := rfl
theorem State.dropStepOn_stopes (s : State) (c id : Nat) : (s.dropStepOn c id).stopes = s.stopes := rfl

/-- What a step's fault writes and tells, and what it leaves. -/
theorem State.stepFault_kept (s : State) (c id index : Nat) {cause : Nat} (hc : cause < 0x10000) :
    (s.stepFault c id index cause).rd (coreLastFault c) = BitVec.ofNat 32 (cause + min index 4095 * 0x10000) ∧
    RegsKept s (s.stepFault c id index cause) [coreLastFault c] ∧ Noticed s (s.stepFault c id index cause) cause (coreEp c) ∧
    (s.stepFault c id index cause).stopes = s.stopes ∧ (s.stepFault c id index cause).mem = s.mem := by
  have hnotices (t : State) (f : Core → Core) : (t.updCore c f).noc.notices = t.noc.notices := rfl
  unfold State.stepFault
  dsimp only
  refine ⟨?_, fun o ho => ?_, ?_, ?_, ?_⟩
  · rw [State.notify_rd, State.updCore_rd, State.dropStepOn_rd, State.rd_wr_same, Nat.mod_eq_of_lt hc]
  · rw [State.notify_rd, State.updCore_rd, State.dropStepOn_rd, State.rd_wr_other _ _ (by simpa using ho)]
  · obtain ⟨x, hx, hcause, hsource⟩ := State.notify_noticed (((s.wr (coreLastFault c) (BitVec.ofNat 32 (cause % 0x10000 + min index 4095 * 0x10000))).dropStepOn
      c id).updCore c fun t => { t with faulted := (t.faulted ++ (((s.core c).stepOf id).bind fun r => r.step.stream).toList).dedup })
      { cause := cause, unit := unitCore c, detail := min index 4095, source := coreEp c, stream := ((s.core c).stepOf id).bind fun r => r.step.stream,
        region := (State.coreRegion _ c).getD 0, time := 0, seq := 0 }
    rw [hnotices, State.dropStepOn_notices] at hx
    exact ⟨x, hx, hcause, hsource⟩
  · rw [State.notify_stopes, State.updCore_stopes, State.dropStepOn_stopes, State.wr_stopes]
  · rw [State.notify_mem, State.updCore_mem, State.dropStepOn_mem, State.wr_mem]

theorem passEnd_lost {s : State} {i k : Nat} (hover : s.passOver i k = true)
    (hnone : ∀ x ∈ (s.core i).issued, x.await ≠ .launch ((s.stope i).seq k).launch) :
    Gives (.passEnd i ⟨k, true⟩) s fun t =>
      t.rd (coreUe i) = s.rd (coreUe i) + 1 ∧ (t.stope i).acc = (s.stope i).acc ∧ (∀ j, j < 4 → ((t.stope i).seq j).busy = false) ∧
      StopeRegs s t i [coreUe i] := by
  have hfind : ((s.core i).issued.find? fun x => x.await == .launch ((s.stope i).seq k).launch) = none :=
    List.find?_eq_none.2 fun x hx => by simpa using hnone x hx
  have hexec : exec (.passEnd i ⟨k, true⟩) s = .next (s.plansLost i) := by rw [exec_passEnd_lost hover, State.passLost_eq, hfind]
  exact ⟨_, hexec, s.plansLost_kept i⟩

theorem passEnd_faults {s : State} {i k : Nat} {x : Issued} (hover : s.passOver i k = true)
    (hfind : ((s.core i).issued.find? fun y => y.await == .launch ((s.stope i).seq k).launch) = some x) :
    Gives (.passEnd i ⟨k, true⟩) s fun t =>
      t.rd (coreUe i) = s.rd (coreUe i) + 1 ∧ t.rd (coreLastFault i) = BitVec.ofNat 32 (causeAccUe + min x.desc.index 4095 * 0x10000) ∧
      Noticed s t causeAccUe (coreEp i) ∧ (t.stope i).acc = (s.stope i).acc ∧ (∀ j, j < 4 → ((t.stope i).seq j).busy = false) ∧
      RegsKept s t [coreUe i, coreLastFault i] ∧ t.mem = s.mem := by
  have hexec : exec (.passEnd i ⟨k, true⟩) s = .next ((s.plansLost i).stepFault i x.step x.desc.index causeAccUe) := by
    rw [exec_passEnd_lost hover, State.passLost_eq, hfind]
  obtain ⟨hue, hacc, hbusy, -, hregs, hrest⟩ := s.plansLost_kept i
  obtain ⟨hfault, hregs', hnoticed, hstopes, hmem⟩ := (s.plansLost i).stepFault_kept i x.step x.desc.index (cause := causeAccUe) (by decide)
  have hstope : ((s.plansLost i).stepFault i x.step x.desc.index causeAccUe).stope i = (s.plansLost i).stope i := by
    rw [State.stope, hstopes, State.stope]
  have hplace : coreUe i ∉ [coreLastFault i] := by
    simp [coreUe, coreLastFault]
  refine ⟨_, hexec, (hregs' _ hplace).trans hue, hfault, hnoticed, ?_, ?_, fun o ho => ?_, hmem⟩
  · rw [hstope, hacc]
  · rw [hstope]
    exact hbusy
  · simp only [List.mem_cons, List.not_mem_nil, or_false, not_or] at ho
    exact (hregs' o (by simpa using ho.2)).trans (hregs o (by simpa using ho.1))

/-- Settles O17: the four ways in which a checked seam's pass ends, each by what its verdict leads to. -/
theorem passesPromote : Obligations.PassesPromote := by
  unfold Obligations.PassesPromote
  refine ⟨?_, ?_, fun _ _ _ => passEnd_lost, fun _ _ _ _ => passEnd_faults⟩
  · exact fun s i k l hover _ hl hfirst hpass hmode hfinal => passEnd_promotes hover hl hfirst hpass hmode hfinal
  · exact fun s i k l hover hl hfirst hfails hmode hfinal => passEnd_reruns hover hl hfirst hfails hmode hfinal

end Sys2Proof.Machine

namespace Sys2Proof.Machine

/-! ## O26: the accumulator opcodes, SCALE, REQUANT and LAUNCH (R71, R72, R90, R159, R160) -/

/-! ### ACC_CLEAR, ACC_ADD and ACC_READ (R71, R158) -/

theorem Rng.mem_accs (r : Rng) (k : Nat) : k ∈ r.accs ↔ r.start ≤ k ∧ k < r.start + 2 * r.words := by
  simp only [Rng.accs, List.mem_map, List.mem_range]
  constructor
  · rintro ⟨i, hi, rfl⟩
    omega
  · rintro ⟨hlo, hhi⟩
    exact ⟨k - r.start, by omega, by omega⟩

/-- Entries dropped from a table read as its default. -/
theorem get_foldl_set_default {α : Type} [DecidableEq α] (d : α) (keys : List Nat) (t : Table α) (k : Nat) :
    Table.get d (keys.foldl (fun m i => Table.set d m i d) t) k = if k ∈ keys then d else Table.get d t k := by
  induction keys generalizing t with
  | nil => simp
  | cons i keys ih =>
    rw [List.foldl_cons, ih, Table.get_set]
    by_cases hk : k ∈ keys
    · rw [if_pos hk, if_pos (List.mem_cons_of_mem _ hk)]
    · simp [hk]

/-- What ACC_CLEAR does. -/
abbrev accClearAct (c : Nat) (b : Rng) : Act :=
  { reads := [], writes := [b],
    run := fun t => t.updStope c fun x =>
      { x with acc := b.accs.foldl (fun m i => Table.set 0 m i 0) x.acc, weight := b.accs.foldl (fun m i => Table.set 0 m i 0) x.weight,
               accFlags := b.accs.foldl (fun m i => Table.set 0 m i 0) x.accFlags } }

theorem State.accClearJudge_acts {s : State} {c : Nat} {d : Desc} {b : Rng} (hlen : d.len ≠ 0) (hfunc : d.func = 0) (hw1 : d.w1 = 0) (hw2 : d.w2 = 0)
    (hb : s.rangeOf c d.w3 d.len = some b) (hspace : b.space = 1) : s.accClearJudge c d = .act (accClearAct c b) := by
  unfold State.accClearJudge
  rw [hfunc, hw1, hw2, hb, Option.filter_some_pos (by simp [hspace]), Option.map_some]
  exact judgeWith_acts hlen

theorem accClear_gives {s : State} {c : Nat} {d : Desc} {r : Running} {b : Rng} (h : Heads s c d r [] [b]) (hop : fld d.w0 6 0 = 0x09)
    (hfunc : d.func = 0) (hw1 : d.w1 = 0) (hw2 : d.w2 = 0) (hb : s.rangeOf c d.w3 d.len = some b) (hspace : b.space = 1) :
    Gives (.accClear c []) s fun t =>
      (∀ k, b.start ≤ k → k < b.start + 2 * b.words → Table.get 0 (t.stope c).acc k = 0 ∧ Table.get 0 (t.stope c).weight k = 0) ∧
      (∀ k, k < b.start ∨ b.start + 2 * b.words ≤ k → Table.get 0 (t.stope c).acc k = Table.get 0 (s.stope c).acc k) ∧
      (∀ j, j ≠ c → t.stope j = s.stope j) ∧ { t with stopes := s.stopes, cores := s.cores } = s ∧ IssuedOn s t c d r [] [b] .nothing := by
  have hacts := State.accClearJudge_acts h.len_ne_zero hfunc hw1 hw2 hb hspace
  have hexec : exec (.accClear c []) s = .next (s.afterIssue c d r (accClearAct c b)) :=
    congrArg Host.Outcome.next (State.issue_acts (judge := fun s d => s.accClearJudge c d) h hop hacts)
  refine ⟨_, hexec, fun k hlo hhi => ?_, fun k hk => ?_, fun j hj => ?_, ?_,
    State.afterIssue_issuedOn (.of_cores rfl)⟩
  · have hmem : k ∈ b.accs := (b.mem_accs k).2 ⟨hlo, hhi⟩
    rw [State.afterIssue_stope, accClearAct, State.stope_updStope_same, get_foldl_set_default, get_foldl_set_default, if_pos hmem]
    exact ⟨rfl, if_pos hmem⟩
  · have hmem : k ∉ b.accs := fun hm => by
      have := (b.mem_accs k).1 hm
      omega
    rw [State.afterIssue_stope, accClearAct, State.stope_updStope_same, get_foldl_set_default, if_neg hmem, State.withIssued_stope]
  · rw [State.afterIssue_stope, accClearAct, State.stope_updStope_other _ _ hj, State.withIssued_stope]
  · exact congrArg (fun t : State => { t with stopes := s.stopes }) (s.afterIssue_rest c d r (accClearAct c b))

/-- What ACC_ADD does. -/
abbrev accAddAct (c : Nat) (a b : Rng) : Act :=
  { reads := [a], writes := [b], also := [b],
    run := fun t => t.wrRange c b (laneBytes (((t.rdLanes c a).zip (t.rdLanes c b)).map fun p => p.1 + p.2)) }

theorem State.accAddJudge_acts {s : State} {c : Nat} {d : Desc} {a b : Rng} (hlen : d.len ≠ 0) (hfunc : d.func = 0) (hw2 : d.w2 = 0)
    (ha : s.rangeOf c d.w1 d.len = some a) (haspace : a.space = 0) (hb : s.rangeOf c d.w3 d.len = some b) (hbspace : b.space = 1) :
    s.accAddJudge c d = .act (accAddAct c a b) := by
  unfold State.accAddJudge
  rw [hfunc, hw2, ha, hb, Option.filter_some_pos (by simp [haspace]), Option.filter_some_pos (by simp [hbspace])]
  exact judgeWith_acts hlen

/-- A range is as long as the address word's count says. -/
theorem State.rangeOf_words {s : State} {c n : Nat} {w : Word} {r : Rng} (h : s.rangeOf c w n = some r) : r.words = n := by
  revert h
  unfold State.rangeOf
  dsimp only
  split
  · split
    · exact fun h => Option.some.inj h ▸ rfl
    · exact fun h => nomatch h
  · split
    · exact fun h => Option.some.inj h ▸ rfl
    · exact fun h => nomatch h
  · split
    · exact fun h => nomatch h
    · split
      · split
        · exact fun h => Option.some.inj h ▸ rfl
        · exact fun h => nomatch h
      · split
        · exact fun h => Option.some.inj h ▸ rfl
        · exact fun h => nomatch h
      · split
        · exact fun h => Option.some.inj h ▸ rfl
        · exact fun h => nomatch h
      · exact fun h => nomatch h
  · exact fun h => nomatch h

theorem accAdd_gives {s : State} {c : Nat} {d : Desc} {r : Running} {a b : Rng} (h : Heads s c d r [a] [b]) (hop : fld d.w0 6 0 = 0x0A)
    (hfunc : d.func = 0) (hw2 : d.w2 = 0) (ha : s.rangeOf c d.w1 d.len = some a) (haspace : a.space = 0)
    (hb : s.rangeOf c d.w3 d.len = some b) (hbspace : b.space = 1) :
    Gives (.accAdd c []) s fun t =>
      t.rdLanes c b = ((s.rdLanes c a).zip (s.rdLanes c b)).map (fun p => p.1 + p.2) ∧ RangeOnly s t c b ∧ IssuedOn s t c d r [a] [b] .nothing := by
  have hacts := State.accAddJudge_acts h.len_ne_zero hfunc hw2 ha haspace hb hbspace
  have halso : b.wordList = [] := if_pos hbspace
  have hwords : a.words = b.words := (State.rangeOf_words ha).trans (State.rangeOf_words hb).symm
  obtain ⟨hbytes, honly, hkept⟩ := State.afterIssue_wrRange (s := s) (d := d) (r := r) (a := accAddAct c a b) _ (fun _ => rfl)
    (by simp [hwords]; omega)
  have hexec : exec (.accAdd c []) s = .next (s.afterIssue c d r (accAddAct c a b)) :=
    congrArg Host.Outcome.next (State.issue_acts (judge := fun s d => s.accAddJudge c d) h hop hacts (halso := by simp [halso]))
  refine ⟨_, hexec, ?_, honly, State.afterIssue_issuedOn hkept⟩
  rw [State.rdLanes, hbytes, lanes_laneBytes, State.withIssued_rdLanes, State.withIssued_rdLanes]

/-- What ACC_READ does. -/
abbrev accReadAct (c : Nat) (a b : Rng) : Act := { reads := [a], writes := [b], run := fun t => t.wrRange c b (t.rdRange c a) }

theorem State.accReadJudge_acts {s : State} {c : Nat} {d : Desc} {a b : Rng} (hlen : d.len ≠ 0) (hfunc : d.func = 0) (hw2 : d.w2 = 0)
    (ha : s.rangeOf c d.w1 d.len = some a) (haspace : a.space = 1) (hb : s.rangeOf c d.w3 d.len = some b) (hbspace : b.space = 0) :
    s.accReadJudge c d = .act (accReadAct c a b) := by
  unfold State.accReadJudge
  rw [hfunc, hw2, ha, hb, Option.filter_some_pos (by simp [haspace]), Option.filter_some_pos (by simp [hbspace])]
  exact judgeWith_acts hlen

theorem accRead_gives {s : State} {c : Nat} {d : Desc} {r : Running} {a b : Rng} (h : Heads s c d r [a] [b]) (hop : fld d.w0 6 0 = 0x0B)
    (hfunc : d.func = 0) (hw2 : d.w2 = 0) (ha : s.rangeOf c d.w1 d.len = some a) (haspace : a.space = 1)
    (hb : s.rangeOf c d.w3 d.len = some b) (hbspace : b.space = 0) :
    Gives (.accRead c []) s fun t => t.rdRange c b = s.rdRange c a ∧ RangeOnly s t c b ∧ IssuedOn s t c d r [a] [b] .nothing := by
  have hacts := State.accReadJudge_acts h.len_ne_zero hfunc hw2 ha haspace hb hbspace
  obtain ⟨hbytes, honly, hkept⟩ := State.afterIssue_wrRange (s := s) (d := d) (r := r) (a := accReadAct c a b) _ (fun _ => rfl)
    (by rw [State.length_rdRange, State.rangeOf_words ha, State.rangeOf_words hb])
  have hexec : exec (.accRead c []) s = .next (s.afterIssue c d r (accReadAct c a b)) :=
    congrArg Host.Outcome.next (State.issue_acts (judge := fun s d => s.accReadJudge c d) h hop hacts)
  exact ⟨_, hexec, hbytes, honly, State.afterIssue_issuedOn hkept⟩

/-! ### SCALE (R72) -/

/-- What the canary unit never moves: the memory, the cores and a stope's accumulators. -/
structure CanaryKept (i : Nat) (s t : State) : Prop where
  mem : t.mem = s.mem
  cores : t.cores = s.cores
  acc : (t.stope i).acc = (s.stope i).acc

theorem CanaryKept.trans {i : Nat} {s t u : State} (h : CanaryKept i s t) (h' : CanaryKept i t u) : CanaryKept i s u :=
  ⟨h'.mem.trans h.mem, h'.cores.trans h.cores, h'.acc.trans h.acc⟩

theorem CanaryKept.inc {i o n : Nat} (s : State) : CanaryKept i s (s.inc o n) := ⟨rfl, rfl, rfl⟩

theorem CanaryKept.updStope {i : Nat} (s : State) {f : Stope → Stope} (hf : ∀ t, (f t).acc = t.acc) : CanaryKept i s (s.updStope i f) :=
  ⟨rfl, rfl, (congrArg Stope.acc (s.stope_updStope_same i f)).trans (hf _)⟩

theorem State.orderAssay_kept (s : State) (i kind unit : Nat) (bank : Bool) : CanaryKept i s (s.orderAssay kind unit bank) := by
  unfold State.orderAssay
  split
  · exact ⟨rfl, rfl, rfl⟩
  · exact ⟨rfl, rfl, rfl⟩

theorem State.canaryNotice_kept (s : State) (i cause channel : Nat) (bank : Bool) (stream : Option Nat) :
    CanaryKept i s (s.canaryNotice i cause channel bank stream) := by
  have hnotify (t : State) (n : Notice) : CanaryKept i t (t.notify n) := ⟨t.notify_mem n, t.notify_cores n, by rw [t.notify_stope]⟩
  unfold State.canaryNotice
  dsimp only
  split
  · exact ⟨rfl, rfl, rfl⟩
  · refine CanaryKept.trans (CanaryKept.trans ?_ (hnotify _ _)) (State.orderAssay_kept ..)
    exact .updStope s fun _ => rfl

theorem State.canarySee_kept (s : State) (i first : Nat) (bank : Bool) (ys : List Word) (flags : List Nat) (stream : Option Nat) :
    CanaryKept i s (s.canarySee i first bank ys flags stream) := by
  have hflags (x : List Nat) : CanaryKept i s (s.canaryFlags i x) := .updStope s fun _ => rfl
  unfold State.canarySee
  extract_lets mode t ranged els u nans v w runs finRuns out bad x y
  have hv : CanaryKept i s v := ((hflags _).trans (.inc _)).trans (.inc _)
  have hw : CanaryKept i s w := by
    dsimp only [w]
    clear_value nans v
    split
    · exact hv.trans (State.canaryNotice_kept ..)
    · exact hv
  have hx : CanaryKept i s x := (hw.trans (.inc _)).trans (.inc _)
  have hy : CanaryKept i s y := by
    dsimp only [y]
    clear_value out x
    split
    · exact hx.trans (State.canaryNotice_kept ..)
    · exact hx
  clear_value bad y
  split
  · split
    · exact hy.trans (State.canaryNotice_kept ..)
    · exact hy
  · split
    · exact hw.trans (.updStope _ fun _ => rfl)
    · exact hw

theorem State.withIssued_scaleBank (s : State) (c : Nat) (d : Desc) (r : Running) (a : Act) :
    (s.withIssued c d r a).scaleBank c = s.scaleBank c := by
  unfold State.scaleBank
  rw [State.withIssued_run]
  rfl

/-- What SCALE does. -/
abbrev scaleAct (c : Nat) (d : Desc) (a q b : Rng) : Act :=
  { reads := [a, q], writes := [b], refuse := fun t => recordRefusal [leAt (t.rdRange c q) 0 2],
    run := fun t =>
      let bank := t.scaleBank c
      let ea := leAt (t.rdRange c q) 0 1
      let x := t.stope c
      let out := a.accs.map fun i => x.output bank i ea (bitAt d.func 0) (bitAt d.func 1)
      let flags := a.accs.zip out |>.map fun p => Table.get 0 x.accFlags p.1 ||| flag p.2.2 3
      let stream := (t.core c).run.bind fun r => r.step.stream
      (t.wrRange c b (laneBytes (out.map (·.1)))).canarySee c a.start bank (out.map (·.1)) flags stream }

/-- The outputs of a SCALE, each with whether it saturated (R72). -/
def State.scaleOuts (s : State) (c : Nat) (d : Desc) (a q : Rng) : List (Word × Bool) :=
  a.accs.map fun i => (s.stope c).output (s.scaleBank c) i (leAt (s.rdRange c q) 0 1) (bitAt d.func 0) (bitAt d.func 1)

theorem State.withIssued_scaleOuts (s : State) (c : Nat) (d e : Desc) (r : Running) (x : Act) (a q : Rng) :
    (s.withIssued c d r x).scaleOuts c e a q = s.scaleOuts c e a q := by
  unfold State.scaleOuts
  rw [State.withIssued_scaleBank]
  rfl

/-- SCALE writes its outputs, and the canary unit sees them. -/
theorem scaleAct_run (c : Nat) (d : Desc) (a q b : Rng) (t : State) :
    ∃ flags stream, (scaleAct c d a q b).run t = (t.wrRange c b (laneBytes ((t.scaleOuts c d a q).map (·.1)))).canarySee c a.start
      (t.scaleBank c) ((t.scaleOuts c d a q).map (·.1)) flags stream := ⟨_, _, rfl⟩

theorem State.scaleJudge_acts {s : State} {c : Nat} {d : Desc} {a q b : Rng} (hlen : d.len ≠ 0) (hfunc : d.func < 4)
    (ha : s.rangeOf c d.w1 d.len = some a) (haspace : a.space = 1) (hq : s.rangeOf c d.w2 1 = some q) (hqspace : q.space = 0)
    (hb : s.rangeOf c d.w3 d.len = some b) (hbspace : b.space = 0) : s.scaleJudge c d = .act (scaleAct c d a q b) := by
  unfold State.scaleJudge
  rw [Nat.div_eq_of_lt hfunc, ha, hq, hb, Option.filter_some_pos (by simp [haspace]), Option.filter_some_pos (by simp [hqspace]),
    Option.filter_some_pos (by simp [hbspace])]
  exact judgeWith_acts hlen

theorem scale_gives {s : State} {c : Nat} {d : Desc} {r : Running} {a q b : Rng} (h : Heads s c d r [a, q] [b]) (hop : fld d.w0 6 0 = 0x0C)
    (hfunc : d.func < 4) (ha : s.rangeOf c d.w1 d.len = some a) (haspace : a.space = 1) (hq : s.rangeOf c d.w2 1 = some q) (hqspace : q.space = 0)
    (hb : s.rangeOf c d.w3 d.len = some b) (hbspace : b.space = 0) (hrecord : recordRefusal [leAt (s.rdRange c q) 0 2] = 0) :
    Gives (.scale c []) s fun t =>
      t.rdLanes c b = a.accs.map (fun i =>
        ((s.stope c).output (s.scaleBank c) i (leAt (s.rdRange c q) 0 1) (bitAt d.func 0) (bitAt d.func 1)).1) ∧
      MemKept s t b.start (8 * b.words) ∧ (t.stope c).acc = (s.stope c).acc ∧ IssuedOn s t c d r [a, q] [b] .nothing := by
  have hacts := State.scaleJudge_acts h.len_ne_zero hfunc ha haspace hq hqspace hb hbspace
  have hexec : exec (.scale c []) s = .next (s.afterIssue c d r (scaleAct c d a q b)) :=
    congrArg Host.Outcome.next (State.issue_acts (judge := fun s d => s.scaleJudge c d) h hop hacts (hrefuse := hrecord))
  have houts : (laneBytes ((s.scaleOuts c d a q).map (·.1))).length = 8 * b.words := by
    rw [length_laneBytes, List.length_map, State.scaleOuts, List.length_map, Rng.accs, List.length_map, List.length_range,
      State.rangeOf_words ha, State.rangeOf_words hb]
    omega
  have hbmem : b.space ≠ 1 := by omega
  obtain ⟨flags, stream, hrun⟩ := scaleAct_run c d a q b (s.withIssued c d r (scaleAct c d a q b))
  rw [State.withIssued_scaleOuts] at hrun
  have hkept : CanaryKept c ((s.withIssued c d r (scaleAct c d a q b)).wrRange c b (laneBytes ((s.scaleOuts c d a q).map (·.1))))
      ((scaleAct c d a q b).run (s.withIssued c d r (scaleAct c d a q b))) := by
    rw [hrun]
    exact State.canarySee_kept ..
  obtain ⟨hbytes, hmem⟩ := State.afterIssue_mem hbmem houts (hkept.mem.trans (State.wrRange_mem_eq _ c _ hbmem))
  refine ⟨_, hexec, ?_, hmem, ?_, State.afterIssue_issuedOn ((State.wrRange_issuesKept ..).trans (.of_cores hkept.cores))⟩
  · rw [State.rdLanes, hbytes, lanes_laneBytes, State.scaleOuts, List.map_map]
    rfl
  · rw [State.afterIssue_stope, hkept.acc, State.wrRange_stope _ _ _ hbmem, State.withIssued_stope]

/-! ### REQUANT (R74, R75, R159) -/

theorem length_quantRun (e2m1 : Bool) (mode : Round) (e : Int) (xs : List Word) (r : Word) : (quantRun e2m1 mode e xs r).length = xs.length := by
  induction xs generalizing r with
  | nil => rfl
  | cons x xs ih => rw [quantRun, List.length_cons, List.length_cons, ih]

/-- A requantisation gives one element for each of its inputs. -/
@[simp] theorem length_quantRuns (e2m1 : Bool) (mode : Round) {n : Nat} (hn : 0 < n) (exps : Nat → Int) (xs : List Word) :
    (quantRuns e2m1 mode n exps xs).length = xs.length := by
  have hruns (l : List (List Word)) (k : Nat) :
      ((l.zipIdx k).flatMap fun p => quantRun e2m1 mode (exps p.2) p.1 0).length = l.flatten.length := by
    induction l generalizing k with
    | nil => rfl
    | cons x l ih =>
      rw [List.zipIdx_cons, List.flatMap_cons, List.length_append, ih, length_quantRun, List.flatten_cons, List.length_append]
  rw [quantRuns, hruns, chunks_flatten hn]

/-- REQUANT with DERIVE writes its elements and its records, padded to 16 bytes. -/
theorem length_requantOut (mode : Round) (e2m1 seg : Bool) (xs : List Word) (w2 : List Byte) :
    (requantOut mode e2m1 seg true xs w2).1.length = 16 * cdiv (cdiv xs.length 2 + 2 * cdiv xs.length 256) 16 := by
  have hrecs (f : Nat → Nat) (n : Nat) : ((List.range n).flatMap fun i => leBytes 2 (f i)).length = 2 * n := by
    simp [List.length_flatMap, Nat.mul_comm]
  rw [requantOut]
  dsimp only
  rw [List.length_append, List.length_replicate, List.length_append, length_packNibbles, List.length_map, length_quantRuns _ _ (by decide)]
  rw [if_pos rfl, hrecs]
  generalize cdiv xs.length 2 + 2 * cdiv xs.length 256 = n
  simp only [cdiv, OfNat.ofNat_ne_zero, if_false]
  omega

/-- What REQUANT with DERIVE does. -/
abbrev requantAct (c : Nat) (d : Desc) (mode : Round) (a q b : Rng) : Act :=
  { reads := [a, q], writes := [b],
    run := fun t =>
      let out := requantOut mode (bitAt d.func 2) (bitAt d.func 3) true (t.rdLanes c a) (t.rdRange c q)
      (t.wrRange c b out.1).canaryFlags c out.2 }

theorem State.requantJudge_acts {s : State} {c : Nat} {d : Desc} {mode : Round} {a q b : Rng} (hlen : d.len ≠ 0)
    (hmode : roundOf (bitsOf d.func 1 0) = some mode) (hderive : bitAt d.func 4 = true)
    (ha : s.rangeOf c d.w1 d.len = some a) (haspace : a.space = 0) (hq : s.rangeOf c d.w2 1 = some q) (hqspace : q.space = 0)
    (hb : s.rangeOf c d.w3 (2 * cdiv (d.len + 2 * cdiv (2 * d.len) 256) 16) = some b) (hbspace : b.space = 0) :
    s.requantJudge c d = .act (requantAct c d mode a q b) := by
  unfold State.requantJudge
  simp only [hderive, if_true]
  rw [hmode, ha, hq, Nat.mul_comm (cdiv (d.len + 2 * cdiv (2 * d.len) 256) 16) 2, hb, Option.filter_some_pos (by simp [haspace]),
    Option.filter_some_pos (by simp [hqspace]), Option.filter_some_pos (by simp [hbspace])]
  exact judgeWith_acts hlen

theorem requant_gives {s : State} {c : Nat} {d : Desc} {r : Running} {mode : Round} {a q b : Rng} (h : Heads s c d r [a, q] [b])
    (hop : fld d.w0 6 0 = 0x0D) (hmode : roundOf (bitsOf d.func 1 0) = some mode) (hderive : bitAt d.func 4 = true)
    (ha : s.rangeOf c d.w1 d.len = some a) (haspace : a.space = 0) (hq : s.rangeOf c d.w2 1 = some q) (hqspace : q.space = 0)
    (hb : s.rangeOf c d.w3 (2 * cdiv (d.len + 2 * cdiv (2 * d.len) 256) 16) = some b) (hbspace : b.space = 0) :
    Gives (.requant c []) s fun t =>
      (let out := requantOut mode (bitAt d.func 2) (bitAt d.func 3) true (s.rdLanes c a) (s.rdRange c q)
       t.rdRange c b = out.1 ∧ t.stope c = { s.stope c with elemFlags := out.2 }) ∧
      RangeOnly s { t with stopes := s.stopes } c b ∧ (∀ j, j ≠ c → t.stope j = s.stope j) ∧ IssuedOn s t c d r [a, q] [b] .nothing := by
  have hacts := State.requantJudge_acts h.len_ne_zero hmode hderive ha haspace hq hqspace hb hbspace
  have hexec : exec (.requant c []) s = .next (s.afterIssue c d r (requantAct c d mode a q b)) :=
    congrArg Host.Outcome.next (State.issue_acts (judge := fun s d => s.requantJudge c d) h hop hacts)
  set out := requantOut mode (bitAt d.func 2) (bitAt d.func 3) true (s.rdLanes c a) (s.rdRange c q) with hout
  have hbmem : b.space ≠ 1 := by omega
  have hlength : out.1.length = 8 * b.words := by
    rw [hout, length_requantOut, State.length_rdLanes, State.rangeOf_words ha, State.rangeOf_words hb,
      show cdiv (2 * d.len) 2 = d.len by simp only [cdiv, OfNat.ofNat_ne_zero, if_false]; omega]
    omega
  set u := s.withIssued c d r (requantAct c d mode a q b) with hu
  have hrun : (requantAct c d mode a q b).run u = (u.wrRange c b out.1).canaryFlags c out.2 := rfl
  have hissues : IssuesKept u ((requantAct c d mode a q b).run u) := by
    rw [hrun]
    exact (State.wrRange_issuesKept ..).trans (.of_cores rfl)
  have hw := (u.wrRange_mem c out.1 hbmem).rest
  obtain ⟨hbytes, hmem⟩ := State.afterIssue_mem (a := requantAct c d mode a q b) hbmem hlength (State.wrRange_mem_eq u c _ hbmem)
  have hafter : { s.afterIssue c d r (requantAct c d mode a q b) with cores := s.cores } =
      { (u.wrRange c b out.1).canaryFlags c out.2 with cores := s.cores } := by rw [State.afterIssue_rest, hrun]
  refine ⟨_, hexec, ⟨hbytes, ?_⟩, ⟨fun he => absurd he hbmem, fun _ => ⟨rfl, hmem⟩, ?_⟩, fun j hj => ?_, State.afterIssue_issuedOn hissues⟩
  · rw [State.afterIssue_stope, hrun, State.canaryFlags, State.stope_updStope_same, State.wrRange_stope _ _ _ hbmem]
    rfl
  · have hrest := congrArg (fun t : State => { t with mem := s.mem, stopes := s.stopes }) hafter
    have hwrite := congrArg (fun t : State => { t with mem := s.mem, cores := s.cores, stopes := s.stopes }) hw
    dsimp only [State.canaryFlags, State.updStope, State.setStope] at hrest hwrite
    exact hrest.trans hwrite
  · rw [State.afterIssue_stope, hrun, State.canaryFlags, State.stope_updStope_other _ _ hj, State.wrRange_stope _ _ _ hbmem]
    rfl

/-! ### LAUNCH (R90, R160) -/

/-- What LAUNCH does. -/
abbrev launchAct (s : State) (c : Nat) (da seams : List Nat) (d : Desc) (a : Rng) : Act :=
  { reads := [a], writes := seamRngs seams, await := .launch (s.stope c).nextLaunch,
    run := fun t => match (t.core c).run with
      | some r => t.makeLaunch c r d seams da (t.rdRange c a)
      | none => t }

theorem State.launchJudge_acts {s : State} {c : Nat} {d : Desc} {a : Rng} (da : List Nat) (hlen : d.len ≠ 0) (hc : c < 256)
    (hrsv : rsvAbove d.w2 6 = false) (hwords : d.len = 16 * (maskBits 4 (bitsOf d.func 3 0)).length) (hslot : fld d.w2 4 0 < 24)
    (hsrc : spaceOf d.w1 = 0) (ha : s.rangeOf c d.w1 d.len = some a) (hdst : spaceOf d.w3 = 2)
    (haddr : addrOf d.w3 = 2048 * (maskBits 4 (bitsOf d.func 3 0)).headD 0) :
    s.launchJudge c da d = .act (launchAct s c da (maskBits 4 (bitsOf d.func 3 0)) d a) := by
  have hform : ¬(256 ≤ c ∨ d.len ≠ 16 * (maskBits 4 (bitsOf d.func 3 0)).length ∨ 24 ≤ fld d.w2 4 0 ∨ spaceOf d.w1 ≠ 0 ∨ spaceOf d.w3 ≠ 2 ∨
      addrOf d.w3 ≠ 2048 * (maskBits 4 (bitsOf d.func 3 0)).headD 0) := by
    rintro (h | h | h | h | h | h)
    · omega
    · exact h hwords
    · omega
    · exact h hsrc
    · exact h hdst
    · exact h haddr
  unfold State.launchJudge
  dsimp only
  rw [hrsv, if_neg hform, ha]
  exact judgeWith_acts hlen

/-- A launch made waits with the plan and the input as they stand, and of a slot that is not valid it has ended. -/
theorem State.makeLaunch_launches (s : State) (c : Nat) (r : Running) (d : Desc) (seams da : List Nat) (bs : List Byte) :
    ∃ l, ((s.makeLaunch c r d seams da bs).stope c).launches = (s.stope c).launches ++ [l] ∧ l.id = (s.stope c).nextLaunch ∧
      l.seams = bitsOf d.func 3 0 ∧ l.slot = fld d.w2 4 0 ∧ l.running = false ∧ (l.hdr, l.entries) = s.slotPlan c (fld d.w2 4 0) ∧
      l.levels = (List.range (2 * bs.length)).map (fun i => elemLevel (bit d.w2 5) (nibble bs i)) ∧
      (s.slotValid c (fld d.w2 4 0) = false → l.ended = true ∧ l.status = rPlanInvalid) := by
  have hstope (t : State) (b : Bool) (o : Nat) (v : Word) : (if b then t.wr o v else t).stope c = t.stope c := by
    cases b
    · rfl
    · rfl
  unfold State.makeLaunch
  dsimp only
  rw [hstope, State.stope_setStope_same]
  refine ⟨_, rfl, rfl, rfl, rfl, rfl, rfl, rfl, fun hinvalid => ?_⟩
  simp [hinvalid]

/-- A launch made moves its stope's launches, and PLAN_REFUSE where it is refused. -/
theorem State.makeLaunch_kept (s : State) (c : Nat) (r : Running) (d : Desc) (seams da : List Nat) (bs : List Byte) :
    ((s.makeLaunch c r d seams da bs).stope c).acc = (s.stope c).acc ∧
    (∀ j, j ≠ c → (s.makeLaunch c r d seams da bs).stope j = s.stope j) ∧ RegsKept s (s.makeLaunch c r d seams da bs) [planRefuse c] ∧
    (s.makeLaunch c r d seams da bs).mem = s.mem ∧ (s.makeLaunch c r d seams da bs).cores = s.cores := by
  have hmade : ∃ (l : Stope) (b : Bool) (v : Word),
      s.makeLaunch c r d seams da bs = (if b then (s.setStope c l).wr (planRefuse c) v else s.setStope c l) ∧ l.acc = (s.stope c).acc := by
    unfold State.makeLaunch
    exact ⟨_, _, _, rfl, rfl⟩
  obtain ⟨l, b, v, hmade, hacc⟩ := hmade
  rw [hmade]
  refine ⟨?_, fun j hj => ?_, fun o ho => ?_, ?_, ?_⟩
  · cases b
    · exact (congrArg Stope.acc (s.stope_setStope_same c l)).trans hacc
    · exact (congrArg Stope.acc (s.stope_setStope_same c l)).trans hacc
  · cases b
    · exact s.stope_setStope_other _ hj
    · exact s.stope_setStope_other _ hj
  · cases b
    · rfl
    · exact (s.setStope c l).rd_wr_other v (by simpa using ho)
  · cases b
    · rfl
    · rfl
  · cases b
    · rfl
    · rfl

theorem launch_gives {s : State} {c : Nat} {d : Desc} {r : Running} {a : Rng} (da : List Nat) (hc : c < 256)
    (h : Heads s c d r [a] (seamRngs (maskBits 4 (bitsOf d.func 3 0)))) (hop : fld d.w0 6 0 = 0x08) (hrsv : rsvAbove d.w2 6 = false)
    (hwords : d.len = 16 * (maskBits 4 (bitsOf d.func 3 0)).length) (hslot : fld d.w2 4 0 < 24) (hsrc : spaceOf d.w1 = 0)
    (ha : s.rangeOf c d.w1 d.len = some a) (hdst : spaceOf d.w3 = 2)
    (haddr : addrOf d.w3 = 2048 * (maskBits 4 (bitsOf d.func 3 0)).headD 0) :
    Gives (.launch c [] da) s fun t =>
      (∃ l, (t.stope c).launches = (s.stope c).launches ++ [l] ∧ l.id = (s.stope c).nextLaunch ∧ l.seams = bitsOf d.func 3 0 ∧
        l.slot = fld d.w2 4 0 ∧ l.running = false ∧ (l.hdr, l.entries) = s.slotPlan c (fld d.w2 4 0) ∧
        l.levels = (List.range (256 * (maskBits 4 (bitsOf d.func 3 0)).length)).map
          (fun i => elemLevel (bit d.w2 5) (nibble (s.rdRange c a) i)) ∧
        (s.slotValid c (fld d.w2 4 0) = false → l.ended = true ∧ l.status = rPlanInvalid)) ∧
      (t.stope c).acc = (s.stope c).acc ∧ (∀ j, j ≠ c → t.stope j = s.stope j) ∧ RegsKept s t [planRefuse c] ∧ t.mem = s.mem ∧
      IssuedOn s t c d r [a] (seamRngs (maskBits 4 (bitsOf d.func 3 0))) (.launch (s.stope c).nextLaunch) := by
  have hacts := State.launchJudge_acts da h.len_ne_zero hc hrsv hwords hslot hsrc ha hdst haddr
  generalize maskBits 4 (bitsOf d.func 3 0) = seams at *
  have hexec : exec (.launch c [] da) s = .next (s.afterIssue c d r (launchAct s c da seams d a)) :=
    congrArg Host.Outcome.next (State.issue_acts (judge := fun s d => s.launchJudge c da d) h hop hacts)
  set u := s.withIssued c d r (launchAct s c da seams d a) with hu
  have hrun : (launchAct s c da seams d a).run u = u.makeLaunch c r d seams da (s.rdRange c a) := by
    have hr : (u.core c).run = some r := (s.withIssued_run c d r _).trans h.run_eq
    dsimp only [launchAct]
    rw [hr]
    rfl
  have hlevels : 2 * (s.rdRange c a).length = 256 * seams.length := by
    rw [State.length_rdRange, State.rangeOf_words ha, hwords]
    omega
  have hmade := u.makeLaunch_launches c r d seams da (s.rdRange c a)
  rw [hlevels, ← hrun] at hmade
  have hkept := u.makeLaunch_kept c r d seams da (s.rdRange c a)
  rw [← hrun] at hkept
  obtain ⟨hacc, hothers, hregs, hmem, hcores⟩ := hkept
  exact ⟨_, hexec, hmade, hacc, hothers, hregs, hmem, State.afterIssue_issuedOn (.of_cores hcores)⟩

/-- Settles O26: each opcode's descriptor acts, its effect is written out and the issue around it adds nothing to it. -/
theorem accumulatorOpcodesCompute : Obligations.AccumulatorOpcodesCompute := by
  unfold Obligations.AccumulatorOpcodesCompute
  refine ⟨fun _ _ _ _ _ => accClear_gives, fun _ _ _ _ _ _ => accAdd_gives, fun _ _ _ _ _ _ => accRead_gives,
    fun _ _ _ _ _ _ _ => scale_gives, fun _ _ _ _ _ _ _ _ => requant_gives, fun s c d r a da => ?_⟩
  exact launch_gives da

end Sys2Proof.Machine

namespace Sys2Proof.Machine

/-! ## O29: the merge cores' opcodes (R77, R78, R208, R216, R218, R284) -/

/-- A range that an opcode names is one that its address word gives. -/
theorem rangeOf_of_filter {s : State} {c n : Nat} {w : Word} {p : Rng → Bool} {r : Rng} (h : (s.rangeOf c w n).filter p = some r) :
    r.words = n ∧ p r = true := by
  obtain ⟨hr, hp⟩ := Option.filter_eq_some_iff.1 h
  exact ⟨State.rangeOf_words hr, hp⟩

theorem State.mcRange_words {s : State} {c w n : Nat} {r : Rng} (h : s.mcRange c w n = some r) : r.words = n := (rangeOf_of_filter h).1

theorem State.mcRange_space {s : State} {c w n : Nat} {r : Rng} (h : s.mcRange c w n = some r) : r.space ≠ 1 := by
  have := (rangeOf_of_filter h).2
  simp only [Bool.and_eq_true, beq_iff_eq] at this
  omega

theorem scaleRefusal_eq_zero {bs : List Byte} (h : ∀ y ∈ bs, y ≠ 0xFF#8) : scaleRefusal bs = 0 :=
  if_neg fun hc => h _ (List.contains_iff_mem.1 hc) rfl

/-! ### MMA4 and PQUANT -/

/-- What MMA4 does. -/
abbrev mma4Act (c n fmt : Nat) (ra rb rx ry rd : Rng) : Act :=
  { reads := [ra, rb, rx, ry], writes := [rd], refuse := fun t => scaleRefusal ((t.rdRange c rx).take n ++ (t.rdRange c ry).take n),
    run := fun t =>
      let v := mma4Sum (t.rdRange c ra) (t.rdRange c rb) (t.rdRange c rx) (t.rdRange c ry) n (bitAt fmt 0) (bitAt fmt 1)
      t.wrRange c rd (leBytes 4 v.toNat ++ (t.rdRange c rd).drop 4) }

theorem State.mma4Judge_acts {s : State} {c a b sa sb dst n fmt : Nat} {d : Desc} {ra rb rx ry rd : Rng} (hlen : d.len ≠ 0) (hc : 256 ≤ c)
    (ha : s.obRange c a (2 * n) = some ra) (hb : s.obRange c b (2 * n) = some rb) (hx : s.mcRange c sa (cdiv n 8) = some rx)
    (hy : s.mcRange c sb (cdiv n 8) = some ry) (hd : s.mcRange c dst 1 = some rd) :
    s.mma4Judge c a b sa sb dst n fmt d = .act (mma4Act c n fmt ra rb rx ry rd) := by
  unfold State.mma4Judge
  rw [if_neg (by omega), ha, hb, hx, hy, hd]
  exact judgeWith_acts hlen

theorem mma4_gives {s : State} {c a b sa sb dst n fmt : Nat} {d : Desc} {r : Running} {ra rb rx ry rd : Rng}
    (h : Heads s c d r [ra, rb, rx, ry] [rd]) (hc : 256 ≤ c) (hop : fld d.w0 6 0 = 0x30) (ha : s.obRange c a (2 * n) = some ra)
    (hb : s.obRange c b (2 * n) = some rb) (hx : s.mcRange c sa (cdiv n 8) = some rx) (hy : s.mcRange c sb (cdiv n 8) = some ry)
    (hd : s.mcRange c dst 1 = some rd) (hscales : ∀ y ∈ (s.rdRange c rx).take n ++ (s.rdRange c ry).take n, y ≠ 0xFF#8) :
    Gives (.mma4 c [] a b sa sb dst n fmt) s fun t =>
      (t.rdLanes c rd).head? = some (mma4Sum (s.rdRange c ra) (s.rdRange c rb) (s.rdRange c rx) (s.rdRange c ry) n (bitAt fmt 0) (bitAt fmt 1)) ∧
      RangeOnly s t c rd ∧ IssuedOn s t c d r [ra, rb, rx, ry] [rd] .nothing := by
  have hacts := State.mma4Judge_acts (fmt := fmt) h.len_ne_zero hc ha hb hx hy hd
  obtain ⟨hbytes, honly, hkept⟩ := State.afterIssue_wrRange (s := s) (d := d) (r := r) (a := mma4Act c n fmt ra rb rx ry rd) _ (fun _ => rfl)
    (by simp [State.mcRange_words hd])
  have hexec : exec (.mma4 c [] a b sa sb dst n fmt) s = .next (s.afterIssue c d r (mma4Act c n fmt ra rb rx ry rd)) :=
    congrArg Host.Outcome.next (State.issue_acts (judge := fun s d => s.mma4Judge c a b sa sb dst n fmt d) h hop hacts
      (hrefuse := scaleRefusal_eq_zero hscales))
  refine ⟨_, hexec, ?_, honly, State.afterIssue_issuedOn hkept⟩
  rw [State.rdLanes, hbytes, lanes_leBytes_append, List.head?_cons]
  rfl

/-- PQUANT gives 16 element bytes and one exponent byte for each block of 32 keys. -/
theorem length_pquantBytes (ps : List Word) (ev : List Byte) (keys blk : Nat) : (pquantBytes ps ev keys blk).length = 17 * cdiv keys 32 := by
  have hblocks (xs : List Word) :
      (((chunks 32 xs).map quantKeys).flatMap fun q => padTo 16 (packNibbles (q.1.map (elemCode true)))).length = 16 * cdiv xs.length 32 := by
    have hblock : ∀ x ∈ chunks 32 xs, (padTo 16 (packNibbles ((quantKeys x).1.map (elemCode true)))).length = 16 := fun x hx => by
      have hle : x.length ≤ 32 := length_le_of_mem_chunks hx
      have hcount : cdiv x.length 2 ≤ 16 := by
        simp only [cdiv, OfNat.ofNat_ne_zero, if_false]
        omega
      rw [length_padTo, length_packNibbles, List.length_map, quantKeys, List.length_map, length_quantRun]
      omega
    rw [List.flatMap_map, List.length_flatMap, List.map_congr_left hblock]
    simp [Nat.mul_comm]
  rw [pquantBytes, List.length_append, hblocks]
  simp only [List.length_map, length_chunks, List.length_range]
  omega

/-- What PQUANT does. -/
abbrev pquantAct (c keys blk : Nat) (rp re rd : Rng) : Act :=
  { reads := [rp, re], writes := [rd], refuse := fun t => scaleRefusal ((t.rdRange c re).take (4 * keys)),
    run := fun t => t.wrRange c rd (padTo (8 * cdiv (17 * cdiv keys 32) 8) (pquantBytes (t.rdLanes c rp) (t.rdRange c re) keys (blk % 4))) }

theorem State.pquantJudge_acts {s : State} {c p ev dst keys blk : Nat} {d : Desc} {rp re rd : Rng} (hlen : d.len ≠ 0) (hc : 256 ≤ c)
    (hp : s.mcSource c p (cdiv keys 2) = some rp) (he : s.mcSource c ev (cdiv keys 2) = some re)
    (hd : s.mcRange c dst (cdiv (17 * cdiv keys 32) 8) = some rd) : s.pquantJudge c p ev dst keys blk d = .act (pquantAct c keys blk rp re rd) := by
  unfold State.pquantJudge
  dsimp only
  rw [if_neg (by omega), hp, he, hd]
  exact judgeWith_acts hlen

theorem pquant_gives {s : State} {c p ev dst keys blk : Nat} {d : Desc} {r : Running} {rp re rd : Rng} (h : Heads s c d r [rp, re] [rd])
    (hc : 256 ≤ c) (hop : fld d.w0 6 0 = 0x31) (hp : s.mcSource c p (cdiv keys 2) = some rp) (he : s.mcSource c ev (cdiv keys 2) = some re)
    (hd : s.mcRange c dst (cdiv (17 * cdiv keys 32) 8) = some rd) (hscales : ∀ y ∈ (s.rdRange c re).take (4 * keys), y ≠ 0xFF#8) :
    Gives (.pquant c [] p ev dst keys blk) s fun t =>
      t.rdRange c rd = padTo (8 * cdiv (17 * cdiv keys 32) 8) (pquantBytes (s.rdLanes c rp) (s.rdRange c re) keys (blk % 4)) ∧
      RangeOnly s t c rd ∧ IssuedOn s t c d r [rp, re] [rd] .nothing := by
  have hacts := State.pquantJudge_acts (blk := blk) h.len_ne_zero hc hp he hd
  have hfits : 17 * cdiv keys 32 ≤ 8 * cdiv (17 * cdiv keys 32) 8 := by
    simp only [cdiv, OfNat.ofNat_ne_zero, if_false]
    omega
  obtain ⟨hbytes, honly, hkept⟩ := State.afterIssue_wrRange (s := s) (d := d) (r := r) (a := pquantAct c keys blk rp re rd) _ (fun _ => rfl)
    (by rw [length_padTo, length_pquantBytes, State.mcRange_words hd, Nat.max_eq_left hfits])
  have hexec : exec (.pquant c [] p ev dst keys blk) s = .next (s.afterIssue c d r (pquantAct c keys blk rp re rd)) :=
    congrArg Host.Outcome.next (State.issue_acts (judge := fun s d => s.pquantJudge c p ev dst keys blk d) h hop hacts
      (hrefuse := scaleRefusal_eq_zero hscales))
  exact ⟨_, hexec, hbytes, honly, State.afterIssue_issuedOn hkept⟩

/-! ### PMERGE (R216, R218) -/

/-- A fold of records holds 128 sums, as each of them does. -/
theorem length_foldPartials_o {l : List Partial} (h : ∀ p ∈ l, p.o.length = 128) : (foldPartials l).o.length = 128 := by
  have hmerge (a b : Partial) (ha : a.o.length = 128) (hb : b.o.length = 128) : (a.merge b).o.length = 128 := by
    unfold Partial.merge
    split
    · exact hb
    · split
      · exact ha
      · simp [Partial.seal, ha, hb]
  have hfold : ∀ (l : List Partial) (p : Partial), p.o.length = 128 → (∀ q ∈ l, q.o.length = 128) → (l.foldl Partial.merge p).o.length = 128 := by
    intro l
    induction l with
    | nil => exact fun _ hp _ => hp
    | cons q l ih => exact fun p hp hl => ih _ (hmerge p q hp (hl q List.mem_cons_self)) fun x hx => hl x (List.mem_cons_of_mem _ hx)
  exact hfold l _ (by simp [Partial.none]) h

/-- The record that PMERGE makes of the records in some ranges. -/
def State.mergedRecord (s : State) (c : Nat) (rs : List Rng) : Partial := foldPartials (rs.map fun x => Partial.ofBytes (s.rdRange c x))

theorem State.length_mergedRecord_o (s : State) (c : Nat) (rs : List Rng) : (s.mergedRecord c rs).o.length = 128 := by
  refine length_foldPartials_o fun p hp => ?_
  obtain ⟨x, -, rfl⟩ := List.mem_map.1 hp
  simp [Partial.ofBytes]

theorem Partial.length_bytes {p : Partial} (h : p.o.length = 128) : p.bytes.length = 528 := by simp [Partial.bytes, h]

theorem State.no_reserved {s : State} {c : Nat} {rs : List Rng} (h : ∀ x ∈ rs, Partial.reserved (s.rdRange c x) = false) :
    (if rs.any fun r => Partial.reserved (s.rdRange c r) then rAbiMismatch else 0) = 0 := by
  refine if_neg fun hany => ?_
  obtain ⟨x, hx, hres⟩ := List.any_eq_true.1 hany
  rw [h x hx] at hres
  exact Bool.false_ne_true hres

/-- What PMERGE does that leaves a record. -/
abbrev pmergeAct (c : Nat) (rs : List Rng) (rd : Rng) : Act :=
  { reads := rs, writes := [rd], refuse := fun t => if rs.any fun r => Partial.reserved (t.rdRange c r) then rAbiMismatch else 0,
    run := fun t => t.wrRange c rd (t.mergedRecord c rs).bytes }

theorem State.pmergeJudge_acts {s : State} {c dst : Nat} {srcs : List Nat} {d : Desc} {rs : List Rng} {rd : Rng} (hlen : d.len ≠ 0) (hc : 256 ≤ c)
    (hrs : (srcs.mapM fun w => s.mcRange c w 66) = some rs) (hd : s.mcRange c dst 66 = some rd) :
    s.pmergeJudge c srcs dst false d = .act (pmergeAct c rs rd) := by
  unfold State.pmergeJudge
  dsimp only
  rw [if_neg (by omega), hrs, if_neg Bool.false_ne_true, hd]
  exact judgeWith_acts hlen

theorem pmerge_gives {s : State} {c dst : Nat} {srcs : List Nat} {d : Desc} {r : Running} {rs : List Rng} {rd : Rng} (h : Heads s c d r rs [rd])
    (hc : 256 ≤ c) (hop : fld d.w0 6 0 = 0x32) (hrs : (srcs.mapM fun w => s.mcRange c w 66) = some rs) (hd : s.mcRange c dst 66 = some rd)
    (hflags : ∀ x ∈ rs, Partial.reserved (s.rdRange c x) = false) :
    Gives (.pmerge c [] srcs dst false) s fun t =>
      t.rdRange c rd = (foldPartials (rs.map fun x => Partial.ofBytes (s.rdRange c x))).bytes ∧ RangeOnly s t c rd ∧
      IssuedOn s t c d r rs [rd] .nothing := by
  have hacts := State.pmergeJudge_acts h.len_ne_zero hc hrs hd
  obtain ⟨hbytes, honly, hkept⟩ := State.afterIssue_wrRange (s := s) (d := d) (r := r) (a := pmergeAct c rs rd) _ (fun _ => rfl)
    (by rw [Partial.length_bytes (State.length_mergedRecord_o ..), State.mcRange_words hd])
  have hexec : exec (.pmerge c [] srcs dst false) s = .next (s.afterIssue c d r (pmergeAct c rs rd)) :=
    congrArg Host.Outcome.next (State.issue_acts (judge := fun s d => s.pmergeJudge c srcs dst false d) h hop hacts
      (hrefuse := State.no_reserved hflags))
  exact ⟨_, hexec, hbytes, honly, State.afterIssue_issuedOn hkept⟩

theorem State.afterIssue_noc (s : State) (c : Nat) (d : Desc) (r : Running) (a : Act) :
    (s.afterIssue c d r a).noc = (a.run (s.withIssued c d r a)).noc := rfl

/-- The machine once a finished record with NAN set is noticed. -/
def State.noticeMerged (s : State) (c : Nat) (d : Desc) (p : Partial) : State :=
  if p.nan then s.notify { cause := causeCanaryNan, unit := unitCore c, detail := d.index, source := coreEp c,
                           stream := (s.core c).run.bind fun r => r.step.stream, region := (s.coreRegion c).getD 0, time := 0, seq := 0 } else s

/-- The notice moves neither memory nor a core, and goes out of a record with NAN set alone. -/
theorem State.noticeMerged_kept (s : State) (c : Nat) (d : Desc) (p : Partial) :
    (s.noticeMerged c d p).mem = s.mem ∧ (s.noticeMerged c d p).cores = s.cores ∧ (p.nan = false → s.noticeMerged c d p = s) ∧
    (p.nan = true → Noticed s (s.noticeMerged c d p) causeCanaryNan (coreEp c)) := by
  unfold State.noticeMerged
  split
  · next hnan => exact ⟨rfl, rfl, fun hfalse => absurd hnan (by simp [hfalse]), fun _ => State.notify_noticed ..⟩
  · next hnan => exact ⟨rfl, rfl, fun _ => rfl, fun htrue => absurd htrue hnan⟩

/-- What PMERGE does that finishes a record. -/
abbrev pfinishAct (c : Nat) (d : Desc) (rs : List Rng) (rd : Rng) : Act :=
  { reads := rs, writes := [rd], refuse := fun t => if rs.any fun r => Partial.reserved (t.rdRange c r) then rAbiMismatch else 0,
    run := fun t => (t.noticeMerged c d (t.mergedRecord c rs)).wrRange c rd (laneBytes (t.mergedRecord c rs).finish) }

theorem State.pfinishJudge_acts {s : State} {c dst : Nat} {srcs : List Nat} {d : Desc} {rs : List Rng} {rd : Rng} (hlen : d.len ≠ 0) (hc : 256 ≤ c)
    (hrs : (srcs.mapM fun w => s.mcRange c w 66) = some rs) (hd : s.mcRange c dst 64 = some rd) :
    s.pmergeJudge c srcs dst true d = .act (pfinishAct c d rs rd) := by
  unfold State.pmergeJudge
  dsimp only
  rw [if_neg (by omega), hrs, if_pos rfl, hd]
  exact judgeWith_acts hlen

theorem pfinish_gives {s : State} {c dst : Nat} {srcs : List Nat} {d : Desc} {r : Running} {rs : List Rng} {rd : Rng} (h : Heads s c d r rs [rd])
    (hc : 256 ≤ c) (hop : fld d.w0 6 0 = 0x32) (hrs : (srcs.mapM fun w => s.mcRange c w 66) = some rs) (hd : s.mcRange c dst 64 = some rd)
    (hflags : ∀ x ∈ rs, Partial.reserved (s.rdRange c x) = false) :
    (let p := foldPartials (rs.map fun x => Partial.ofBytes (s.rdRange c x))
     Gives (.pmerge c [] srcs dst true) s fun t =>
       t.rdRange c rd = laneBytes p.finish ∧ (p.nan = false → RangeOnly s t c rd) ∧ MemKept s t rd.start (8 * rd.words) ∧
       (p.nan = true → Noticed s t causeCanaryNan (coreEp c)) ∧ IssuedOn s t c d r rs [rd] .nothing) := by
  show Gives _ s fun t => t.rdRange c rd = laneBytes (s.mergedRecord c rs).finish ∧ ((s.mergedRecord c rs).nan = false → RangeOnly s t c rd) ∧ _ ∧
    ((s.mergedRecord c rs).nan = true → _) ∧ _
  have hacts := State.pfinishJudge_acts h.len_ne_zero hc hrs hd
  have hexec : exec (.pmerge c [] srcs dst true) s = .next (s.afterIssue c d r (pfinishAct c d rs rd)) :=
    congrArg Host.Outcome.next (State.issue_acts (judge := fun s d => s.pmergeJudge c srcs dst true d) h hop hacts
      (hrefuse := State.no_reserved hflags))
  have hspace := State.mcRange_space hd
  have hlength : (laneBytes (s.mergedRecord c rs).finish).length = 8 * rd.words := by
    rw [length_laneBytes, Partial.finish, List.length_map, State.length_mergedRecord_o, State.mcRange_words hd]
  set u := s.withIssued c d r (pfinishAct c d rs rd) with hu
  generalize hv : u.noticeMerged c d (s.mergedRecord c rs) = v
  have hrun : (pfinishAct c d rs rd).run u = v.wrRange c rd (laneBytes (s.mergedRecord c rs).finish) :=
    congrArg (fun t : State => t.wrRange c rd (laneBytes (s.mergedRecord c rs).finish)) hv
  obtain ⟨hmem, hcores, hsame, hnoticed⟩ := u.noticeMerged_kept c d (s.mergedRecord c rs)
  rw [hv] at hmem hcores hsame hnoticed
  have hwrite := (State.wrRange_mem v c (laneBytes (s.mergedRecord c rs).finish) hspace).rest
  have hbytes := State.wrRange_mem_eq v c (laneBytes (s.mergedRecord c rs).finish) hspace
  rw [← hrun] at hwrite hbytes
  rw [hmem] at hbytes
  obtain ⟨hread, hkept⟩ := State.afterIssue_mem (a := pfinishAct c d rs rd) hspace hlength hbytes
  have hcoresKept : IssuesKept u v := .of_cores hcores
  refine ⟨_, hexec, hread, fun hnan => .afterIssue ?_, hkept, fun hnan => ?_, State.afterIssue_issuedOn ?_⟩
  · rw [hrun, hsame hnan]
    exact State.wrRange_rangeOnly u c rd hlength
  · obtain ⟨x, hx, hcause, hsource⟩ := hnoticed hnan
    have hnoc := congrArg State.noc hwrite
    refine ⟨x, ?_, hcause, hsource⟩
    rw [State.afterIssue_noc]
    exact (congrArg Noc.notices hnoc).trans hx
  · rw [hrun]
    exact hcoresKept.trans (State.wrRange_issuesKept ..)

/-! ### CANDS (R283, R284, R286) -/

theorem length_insertRank (p : Word × Nat) (l : List (Word × Nat)) : (insertRank p l).length = l.length + 1 := by
  induction l with
  | nil => rfl
  | cons q l ih =>
    rw [insertRank]
    split
    · rfl
    · rw [List.length_cons, ih, List.length_cons]

theorem length_topK (k : Nat) (xs : List Word) : (topK k xs).length = min k xs.length := by
  have hfold (l : List (Word × Nat)) (r : List (Word × Nat)) : (l.foldl (fun l p => insertRank p l) r).length = r.length + l.length := by
    induction l generalizing r with
    | nil => rfl
    | cons p l ih =>
      rw [List.foldl_cons, ih, length_insertRank, List.length_cons]
      omega
  rw [topK, List.length_take, hfold, List.length_zipIdx, List.length_nil, Nat.zero_add]

theorem length_candBytes (x : SliceCands) : (candBytes x).length = 8 * (1 + x.cands.length) := by
  simp only [candBytes, List.length_append, length_leBytes, List.length_flatMap, List.map_const', List.sum_replicate]
  simp only [smul_eq_mul]
  omega

/-- The candidates that a sampler takes of a slice: one at TEMP 0, else TOP_K, or 1,024. -/
def Sampler.taken (x : Sampler) : Nat := if isZero x.temp then 1 else if x.topK = 0 then 1024 else x.topK

/-- A slice gives no more candidates than its sampler takes, nor than it has logits. -/
theorem SmpNow.length_slice_cands (x : SmpNow) (recent : List Nat) (vocab first : Nat) (zs : List Word) :
    (x.slice recent vocab first zs).cands.length = min x.sampler.taken zs.length := by
  unfold SmpNow.slice Sampler.taken
  dsimp only
  split
  · simp [length_topK]
  · simp [length_topK]

/-- What CANDS does, that leaves `n` words. -/
abbrev candsAct (c stream first count n : Nat) (a b : Rng) : Act :=
  { reads := [a], writes := [b],
    run := fun t =>
      let x := t.settingsOf stream
      (t.wrRange c b (padTo (8 * n) (candBytes
        (x.slice ((t.stream stream).recent x.sampler.window) (fld (t.rd smpVocab) 23 0) first ((t.rdLanes c a).take count))))).updStream
        stream Stream.beginSampling }

theorem State.settingsOf_of_settings {s : State} {stream : Nat} {x : SmpNow} (h : (s.stream stream).settings = some x) : s.settingsOf stream = x := by
  rw [State.settingsOf, h, Option.getD_some]

theorem State.candsJudge_acts {s : State} {c stream src first count dst : Nat} {d : Desc} {a b : Rng} {x : SmpNow} (hlen : d.len ≠ 0) (hc : 256 ≤ c)
    (hset : (s.stream stream).settings = some x) (ha : s.mcRange c src (cdiv count 2) = some a)
    (hb : s.mcRange c dst (1 + min x.sampler.taken count) = some b) :
    s.candsJudge c stream src first count dst d = .act (candsAct c stream first count (1 + min x.sampler.taken count) a b) := by
  unfold State.candsJudge
  dsimp only
  have htaken : s.mcRange c dst (1 + min (if isZero x.sampler.temp then 1 else if x.sampler.topK = 0 then 1024 else x.sampler.topK) count) =
      some b := hb
  rw [State.settingsOf_of_settings hset, if_neg (by omega), ha, htaken]
  exact judgeWith_acts hlen

theorem exec_cands_of_settings {s : State} {c stream src first count dst : Nat} {e : List ReadErr} {x : SmpNow}
    (hset : (s.stream stream).settings = some x) :
    exec (.cands c e stream src first count dst) s = .next (s.issue c 0x33 e fun s d => s.candsJudge c stream src first count dst d) := by
  show execCands c e stream src first count dst s = _
  rw [execCands, hset, Option.isNone_some, Bool.false_and, if_neg Bool.false_ne_true]

/-- The sampling of a token starts with the settings that it has. -/
theorem Stream.beginSampling_smpNow {t : Stream} {x : SmpNow} (h : t.settings = some x) : t.beginSampling.smpNow = some x := by
  unfold Stream.beginSampling
  split
  · next hstarted =>
    obtain ⟨y, hy⟩ := Option.isSome_iff_exists.1 hstarted
    have : t.settings = some y := by
      rw [Stream.settings, hy]
    rw [hy, ← this, h]
  · rw [h]

theorem cands_gives {s : State} {c stream src first count dst : Nat} {d : Desc} {r : Running} {a b : Rng} {x : SmpNow} (h : Heads s c d r [a] [b])
    (hc : 256 ≤ c) (hop : fld d.w0 6 0 = 0x33) (ha : s.mcRange c src (cdiv count 2) = some a) (hset : (s.stream stream).settings = some x)
    (hb : s.mcRange c dst (1 + min x.sampler.taken count) = some b) :
    Gives (.cands c [] stream src first count dst) s fun t =>
      t.rdRange c b = padTo (8 * (1 + min x.sampler.taken count))
        (candBytes (x.slice ((s.stream stream).recent x.sampler.window) (fld (s.rd smpVocab) 23 0) first ((s.rdLanes c a).take count))) ∧
      t.stream stream = (s.stream stream).beginSampling ∧ (t.stream stream).smpNow = some x ∧ (∀ j, j ≠ stream → t.stream j = s.stream j) ∧
      RangeOnly s { t with wnd := { t.wnd with streams := s.wnd.streams } } c b ∧ IssuedOn s t c d r [a] [b] .nothing := by
  have hacts := State.candsJudge_acts (first := first) h.len_ne_zero hc hset ha hb
  have hexec : exec (.cands c [] stream src first count dst) s =
      .next (s.afterIssue c d r (candsAct c stream first count (1 + min x.sampler.taken count) a b)) :=
    (exec_cands_of_settings hset).trans (congrArg Host.Outcome.next
      (State.issue_acts (judge := fun s d => s.candsJudge c stream src first count dst d) h hop hacts))
  generalize hbs : padTo (8 * (1 + min x.sampler.taken count)) (candBytes
    (x.slice ((s.stream stream).recent x.sampler.window) (fld (s.rd smpVocab) 23 0) first ((s.rdLanes c a).take count))) = bs
  have hlength : bs.length = 8 * b.words := by
    rw [← hbs, length_padTo, length_candBytes, SmpNow.length_slice_cands, State.mcRange_words hb, List.length_take]
    omega
  have hspace := State.mcRange_space hb
  set u := s.withIssued c d r (candsAct c stream first count (1 + min x.sampler.taken count) a b) with hu
  have husettings : u.settingsOf stream = x := State.settingsOf_of_settings (s := u) hset
  have hrun : (candsAct c stream first count (1 + min x.sampler.taken count) a b).run u = (u.wrRange c b bs).updStream stream Stream.beginSampling := by
    dsimp only [candsAct]
    rw [husettings, ← hbs]
    rfl
  have hwrite := (State.wrRange_mem u c bs hspace).rest
  obtain ⟨hread, hmem⟩ := State.afterIssue_mem (s := s) (d := d) (r := r)
    (a := candsAct c stream first count (1 + min x.sampler.taken count) a b) hspace hlength
    ((congrArg State.mem hrun).trans (State.wrRange_mem_eq u c bs hspace))
  have hafter : { s.afterIssue c d r (candsAct c stream first count (1 + min x.sampler.taken count) a b) with cores := s.cores } =
      { (u.wrMem b.start bs).updStream stream Stream.beginSampling with cores := s.cores } := by
    rw [State.afterIssue_rest, hrun]
    exact congrArg (fun t : State => { t.updStream stream Stream.beginSampling with cores := s.cores }) hwrite
  have hissued : IssuedOn s (s.afterIssue c d r (candsAct c stream first count (1 + min x.sampler.taken count) a b)) c d r [a] [b] .nothing := by
    refine State.afterIssue_issuedOn ?_
    rw [hrun]
    exact (State.wrRange_issuesKept u c b bs).trans (.of_cores rfl)
  generalize s.afterIssue c d r (candsAct c stream first count (1 + min x.sampler.taken count) a b) = t at *
  have hstreams := congrArg (fun t : State => t.stream) hafter
  have hstream : t.stream stream = (s.stream stream).beginSampling :=
    (congrFun hstreams stream).trans (State.stream_updStream_same ..)
  refine ⟨_, hexec, hread, hstream, ?_, fun j hj => ?_, ⟨fun he => absurd he hspace, fun _ => ⟨?_, hmem⟩, ?_⟩, hissued⟩
  · rw [hstream, Stream.beginSampling_smpNow hset]
  · exact (congrFun hstreams j).trans (State.stream_updStream_other _ _ hj)
  · have hstopes := congrArg State.stopes hafter
    exact hstopes
  · have hrest := congrArg (fun t : State => { t with mem := s.mem, stopes := s.stopes, wnd := { t.wnd with streams := s.wnd.streams } }) hafter
    dsimp only [State.updStream, State.setStream, State.wrMem, u, State.withIssued, State.updCore, State.setCore] at hrest
    exact hrest

/-! ### KVCMD (R208) -/

/-- What KVCMD does: its command block joins the queue of a stack. -/
abbrev kvcmdAct (s : State) (c k : Nat) (d : Desc) (a : Rng) (ws : List Rng) : Act :=
  { reads := [a], writes := ws, await := .kvcmd, early := true,
    run := fun t =>
      let cmd : KvCmd := { core := c, step := (s.core c).runId, index := d.index, bytes := t.rdRange c a, dst := d.w3, region := (t.coreRegion c).getD 0 }
      { t with kv := { t.kv with kvq := Table.set [] t.kv.kvq k (Table.get [] t.kv.kvq k ++ [cmd]) } } }

theorem State.kvcmdJudge_acts {s : State} {c : Nat} {d : Desc} {a : Rng} {ws : List Rng} (hlen : d.len ≠ 0) (hrsv : bitsOf d.func 4 3 = 0)
    (hw2 : d.w2 = 0) (ha : s.rangeOf c d.w1 d.len = some a) (haspace : a.space ≠ 1) (haob : a.isOb = false)
    (hdst : (replyWords (s.rdRange c a) = 0 ∨ spaceOf d.w3 = 3) ∧ ws = [] ∨ replyWords (s.rdRange c a) ≠ 0 ∧ spaceOf d.w3 ≠ 3 ∧
      ∃ b, s.dstRange c d.w3 (replyWords (s.rdRange c a)) true = some b ∧ b.space ≠ 1 ∧ ws = [b])
    (happend : replyWords (s.rdRange c a) = 0 → (kvHdr (s.rdRange c a)).cmd = 2 → d.w3 = 0)
    (hregion : s.coreRegion c = s.epRegion (epStack (bitsOf d.func 2 0))) :
    s.kvcmdJudge c d = .act (kvcmdAct s c (bitsOf d.func 2 0) d a ws) := by
  unfold State.kvcmdJudge
  dsimp only
  rw [hrsv, hw2, if_neg (by decide), ha, Option.filter_some_pos (by simp [haspace, haob])]
  dsimp only
  rw [if_neg hlen]
  have hform : ¬(replyWords (s.rdRange c a) = 0 ∧ d.w3 ≠ 0 ∧ (kvHdr (s.rdRange c a)).cmd = 2) := fun ⟨hn, hw3, hcmd⟩ => hw3 (happend hn hcmd)
  obtain ⟨hnone, rfl⟩ | ⟨hn, hnet, b, hb, hbspace, rfl⟩ := hdst
  · have hnone' : replyWords (s.rdRange c a) = 0 ∨ (spaceOf d.w3 == 3) = true := by simpa using hnone
    rw [if_neg, if_neg (not_not.2 hregion), if_pos hnone']
    · rfl
    · rintro (h | ⟨hn, hnet, -⟩)
      · exact hform h
      · simp [hn] at hnone'
        simp [hnone'] at hnet
  · have hnone' : ¬(replyWords (s.rdRange c a) = 0 ∨ (spaceOf d.w3 == 3) = true) := by simpa using ⟨hn, hnet⟩
    rw [if_neg, if_neg (not_not.2 hregion), if_neg hnone', hb, Option.filter_some_pos (by simp [hbspace])]
    · rfl
    · rintro (h | ⟨-, -, hmissing⟩)
      · exact hform h
      · simp [hn, hnet, hb, hbspace] at hmissing

theorem kvcmd_gives {s : State} {c : Nat} {d : Desc} {r : Running} {a : Rng} {ws : List Rng} (h : Heads s c d r [a] ws)
    (hop : fld d.w0 6 0 = 0x34) (hrsv : bitsOf d.func 4 3 = 0) (hw2 : d.w2 = 0) (ha : s.rangeOf c d.w1 d.len = some a) (haspace : a.space ≠ 1)
    (haob : a.isOb = false)
    (hdst : (replyWords (s.rdRange c a) = 0 ∨ spaceOf d.w3 = 3) ∧ ws = [] ∨ replyWords (s.rdRange c a) ≠ 0 ∧ spaceOf d.w3 ≠ 3 ∧
      ∃ b, s.dstRange c d.w3 (replyWords (s.rdRange c a)) true = some b ∧ b.space ≠ 1 ∧ ws = [b])
    (happend : replyWords (s.rdRange c a) = 0 → (kvHdr (s.rdRange c a)).cmd = 2 → d.w3 = 0)
    (hregion : s.coreRegion c = s.epRegion (epStack (bitsOf d.func 2 0))) :
    Gives (.kvcmd c []) s fun t =>
      Table.get [] t.kv.kvq (bitsOf d.func 2 0) = Table.get [] s.kv.kvq (bitsOf d.func 2 0) ++
        [{ core := c, step := r.id, index := d.index, bytes := s.rdRange c a, dst := d.w3, region := (s.coreRegion c).getD 0 }] ∧
      (∀ j, j ≠ bitsOf d.func 2 0 → Table.get [] t.kv.kvq j = Table.get [] s.kv.kvq j) ∧
      IssuedOn s t c d r [] ws .kvcmd ∧ { t with cores := s.cores, kv := { t.kv with kvq := s.kv.kvq } } = s := by
  have hacts := State.kvcmdJudge_acts h.len_ne_zero hrsv hw2 ha haspace haob hdst happend hregion
  generalize bitsOf d.func 2 0 = k at *
  have hexec : exec (.kvcmd c []) s = .next (s.afterIssue c d r (kvcmdAct s c k d a ws)) :=
    congrArg Host.Outcome.next (State.issue_acts (judge := fun s d => s.kvcmdJudge c d) h hop hacts)
  have hrunId : (s.core c).runId = r.id := by rw [Core.runId, h.run_eq]
  refine ⟨_, hexec, ?_, fun j hj => ?_, State.afterIssue_issuedOn (rs := []) (.of_cores rfl), ?_⟩
  · rw [← hrunId]
    exact Table.get_set_same ..
  · exact Table.get_set_other _ _ _ _ hj
  · exact (s.withIssued_rest c d r (kvcmdAct s c k d a ws))

/-! ### The obligation -/

/-- A CANDS for a stream without a mask for its token changes that the stream waits, and nothing else. -/
theorem cands_waits {s : State} {c stream src first count dst : Nat} {d : Desc} (hd : (s.core c).fetched = some d) (hop : fld d.w0 6 0 = 0x33)
    (hset : (s.stream stream).settings = none) :
    Gives (.cands c [] stream src first count dst) s fun t =>
      t.stream stream = { s.stream stream with maskWait := true } ∧ StreamOnly s t stream := by
  have hnew : (s.stream stream).smpNow = none := by
    revert hset
    rw [Stream.settings]
    split
    · exact fun h => nomatch h
    · next hnew => exact fun _ => hnew
  have hwaits : (s.stream stream).beginSampling = { s.stream stream with maskWait := true } := by
    rw [Stream.beginSampling, if_neg (by rw [hnew]; exact Bool.false_ne_true), hset]
  refine ⟨_, exec_cands_of_no_settings hset hd hop, ?_, fun j hj => ?_, rfl⟩
  · rw [State.stream_updStream_same, hwaits]
  · exact State.stream_updStream_other _ _ hj

/-- Settles O29: each opcode's descriptor acts, its effect is written out, and the issue around it adds nothing to it. -/
theorem mergeOpcodesCompute : Obligations.MergeOpcodesCompute := by
  unfold Obligations.MergeOpcodesCompute
  refine ⟨?_, ?_, ?_, ?_, ?_, ?_, ?_⟩
  · exact fun _ _ _ _ _ _ _ _ _ _ _ _ _ _ _ _ => mma4_gives
  · exact fun _ _ _ _ _ _ _ _ _ _ _ _ => pquant_gives
  · exact fun _ _ _ _ _ _ _ _ => pmerge_gives
  · exact fun _ _ _ _ _ _ _ _ => pfinish_gives
  · exact fun _ _ _ _ _ _ _ _ _ _ _ _ h hc hop ha hset hb => cands_gives h hc hop ha hset hb
  · exact fun _ _ _ _ _ _ _ _ hd hop hset => cands_waits hd hop hset
  · exact fun _ _ _ _ _ _ => kvcmd_gives

end Sys2Proof.Machine

namespace Sys2Proof.Machine

/-! ## O45: the CHECK sub-page's control register (R353, R375) -/

/-! ### Plain stores: fields that never set RG_WRITE -/

/-- Fields without a reserved-growth range never set RG_WRITE. -/
theorem writeFields_no_rg {fs : List Field} (h : ∀ fd ∈ fs, ∀ n, (fd.chk.accepts n).2 = false) (old v : Word) :
    (writeFields fs old v).2 = false := by
  have hfold (acc : Word × Bool) : (fs.foldl (fun acc fd => fd.write acc v) acc).2 = acc.2 := by
    induction fs generalizing acc with
    | nil => rfl
    | cons fd fs ih =>
      obtain ⟨hfd, hfs⟩ := List.forall_mem_cons.1 h
      have hstep : (fd.write acc v).2 = acc.2 := by
        unfold Field.write
        dsimp only
        split
        · split
          · rfl
          · rw [hfd, Bool.or_false]
        · rfl
        · rfl
      rw [List.foldl_cons, ih hfs, hstep]
  exact hfold _

/-- A store to a register of one page's own, without reserved growth, writes that register alone. -/
theorem State.storeReg_eq_wr {s : State} {f off n : Nat} {v : Word} {r : RegRow} (hr : rowAt off = some (r, n)) (hh : homeOff off = off)
    (hmask : rgMask off = 0) (hfs : ∀ fd ∈ r.fields, ∀ n, (fd.chk.accepts n).2 = false) :
    s.storeReg f off v = s.wr off (writeFields r.fields (s.rd off) v).1 := by
  rw [State.storeReg_of_row hr hh]
  exact if_neg (by simp [writeFields_no_rg hfs, hmask])

/-- A field with a range takes a value within it, and stays as it is otherwise. -/
theorem fld_write_range (hi lo a b : Nat) (acc : Word × Bool) (v : Word) (hlo : lo ≤ hi) (hhi : hi < 32) :
    fld ((⟨hi, lo, .rw, .range a b⟩ : Field).write acc v).1 hi lo =
      if a ≤ fld v hi lo ∧ fld v hi lo ≤ b then fld v hi lo else fld acc.1 hi lo := by
  simp only [Field.write, Chk.accepts, decide_eq_true_eq]
  split
  · rw [fld_setFld_same _ _ _ _ hlo hhi, Nat.mod_eq_of_lt (fld_lt ..)]
  · rfl

/-! ### CHECK_CTRL -/

theorem pageAt_check {i k : Nat} (hi : i < 256) (hk : k < 0x1000) : pageAt (checkPage i + k) = some (.check, i) := by
  have hn : (checkPage i + k) / 0x1000 = 0x103 + 4 * i := by simp only [checkPage]; omega
  have hge : ¬ checkPage i + k < 0x10000 := by simp only [checkPage]; omega
  have h4 : (0x103 + 4 * i) % 4 = 3 := by omega
  have hidx : (0x103 + 4 * i - 0x100) / 4 = i := by omega
  simp only [pageAt, hn, hge, h4, hidx, if_false]
  repeat rw [if_neg (by omega)]
  rw [if_pos (by omega)]

/-- The fields of CHECK_CTRL (R375): the seams checked, CANARY_MODE, and a CLEAR bit per seam. -/
def checkCtrlFields : List Field :=
  [⟨3, 0, .rw, .any⟩, ⟨5, 4, .rw, .range 0 2⟩, ⟨6, 6, .w1s, .any⟩, ⟨7, 7, .w1s, .any⟩, ⟨8, 8, .w1s, .any⟩, ⟨9, 9, .w1s, .any⟩]

theorem rowAt_checkCtrl {i : Nat} (hi : i < 256) : rowAt (checkCtrl i) = some (⟨0x100, 1, 4, 1, 4, 0x0000000F, false, checkCtrlFields⟩, 0) := by
  have hmod : checkCtrl i % 0x1000 = 0x100 := by
    simp only [checkCtrl, checkPage]
    omega
  rw [rowAt, hmod, checkCtrl, pageAt_check hi (by omega)]
  rfl

/-- CHECK_CTRL after a write. -/
def checkCtrlAfter (old v : Word) : Word := (writeFields checkCtrlFields old v).1

theorem State.storeReg_checkCtrl (s : State) {f i : Nat} {v : Word} (hi : i < 256) :
    s.storeReg f (checkCtrl i) v = s.wr (checkCtrl i) (checkCtrlAfter (s.rd (checkCtrl i)) v) := by
  have hmask : rgMask (checkCtrl i) = 0 := by
    have hmod : checkCtrl i % 0x1000 = 0x100 := by
      simp only [checkCtrl, checkPage]
      omega
    rw [rgMask, hmod]
    rfl
  refine State.storeReg_eq_wr (rowAt_checkCtrl hi) (homeOff_of_ne_merge (pageAt_check hi (by omega)) nofun) hmask fun fd hfd n => ?_
  simp only [checkCtrlFields, List.mem_cons, List.not_mem_nil, or_false] at hfd
  rcases hfd with rfl | rfl | rfl | rfl | rfl | rfl <;> rfl

/-- The seams checked are as written. -/
theorem fld_checkCtrlAfter_seams (old v : Word) : fld (checkCtrlAfter old v) 3 0 = fld v 3 0 := by
  obtain ⟨acc, -, hw⟩ := fld_writeFields [] (checkCtrlFields.drop 1) ⟨3, 0, .rw, .any⟩ old v (by decide) (by decide)
  exact hw.trans (fld_write_any 3 0 acc v (by omega) (by omega))

/-- CANARY_MODE takes OFF, LEARN and CHECK, and no other code. -/
theorem fld_checkCtrlAfter_canary (old v : Word) :
    fld (checkCtrlAfter old v) 5 4 = if fld v 5 4 ≤ 2 then fld v 5 4 else fld old 5 4 := by
  obtain ⟨acc, hacc, hw⟩ := fld_writeFields (checkCtrlFields.take 1) (checkCtrlFields.drop 2) ⟨5, 4, .rw, .range 0 2⟩ old v (by decide)
    (by decide)
  refine hw.trans ((fld_write_range 5 4 0 2 acc v (by omega) (by omega)).trans ?_)
  simp [hacc]

/-- The CLEAR bits hold no value of their own. -/
theorem fld_checkCtrlAfter_clear (old v : Word) : fld (checkCtrlAfter old v) 9 6 = fld old 9 6 :=
  fld_writes_other (fs := checkCtrlFields.take 2) (acc := (old, false)) (v := v) (by omega) (by decide)

/-- A seam that is SUSPECT is checked again (R339). -/
def Seam.cleared (g : Seam) : Seam := if g.mode = .suspect then { g with mode := .checked } else g

/-- CLEAR ends SUSPECT on the seams of a list. -/
def Stope.clearSuspects (t : Stope) (ks : List Nat) : Stope := ks.foldl (fun t k => t.updSeam k Seam.cleared) t

/-- The machine once a write of CHECK_CTRL is stored and its CLEAR bits have acted. -/
def State.checkStored (s : State) (i : Nat) (v : Word) : State :=
  (s.wr (checkCtrl i) (checkCtrlAfter (s.rd (checkCtrl i)) v)).updStope i fun t => t.clearSuspects (maskBits 4 (fld v 9 6))

theorem State.checkCtrlWrite_eq {s : State} {f i : Nat} {v : Word} (hi : i < 256) (hmay : s.mayWrite f (checkCtrl i) = true) :
    s.checkCtrlWrite f i v =
      if s.canaryMode i = 1 ∧ (s.checkStored i v).canaryMode i = 2 then (s.checkStored i v).setBounds i else s.checkStored i v := by
  rw [State.checkCtrlWrite, if_neg (by simp [hmay])]
  dsimp only
  rw [s.storeReg_checkCtrl hi]
  rfl

/-- What a permitted write of CHECK_CTRL leaves in that register. -/
theorem State.rd_checkCtrlWrite {s : State} {f i : Nat} {v : Word} (hi : i < 256) (hmay : s.mayWrite f (checkCtrl i) = true) :
    (s.checkCtrlWrite f i v).rd (checkCtrl i) = checkCtrlAfter (s.rd (checkCtrl i)) v := by
  have hstored : (s.checkStored i v).rd (checkCtrl i) = checkCtrlAfter (s.rd (checkCtrl i)) v := by
    rw [State.checkStored, State.updStope_rd, State.rd_wr_same]
  rw [State.checkCtrlWrite_eq hi hmay]
  split
  · rw [State.setBounds, State.updStope_rd, hstored]
  · exact hstored

/-- CANARY_MODE after a permitted write: a reserved code leaves it. -/
theorem State.canaryMode_checkCtrlWrite {s : State} {f i : Nat} {v : Word} (hi : i < 256) (hmay : s.mayWrite f (checkCtrl i) = true) :
    (s.checkCtrlWrite f i v).canaryMode i = if fld v 5 4 ≤ 2 then fld v 5 4 else s.canaryMode i := by
  rw [State.canaryMode, State.rd_checkCtrlWrite hi hmay, fld_checkCtrlAfter_canary, State.canaryMode]

/-- Refutes O45: CANARY_MODE takes no code but 0, 1 and 2 (R10, R375). At reset a write of the reserved code 3 leaves it at 0, and not at the
written value. -/
theorem not_canariesAndAssaysJudge : ¬ Obligations.CanariesAndAssaysJudge := by
  intro h
  obtain ⟨hmode, -⟩ := h
  have hmay : State.reset.mayWrite 0 (checkCtrl 0) = true := rfl
  obtain ⟨t, ht, hwritten, -⟩ := hmode State.reset 0 0 0x30 (by decide) hmay
  obtain rfl := Host.Outcome.next.inj ht
  rw [State.canaryMode_checkCtrlWrite (by decide) hmay, if_neg (by decide)] at hwritten
  exact absurd hwritten (by decide)

end Sys2Proof.Machine

namespace Sys2Proof.Machine

/-! ## O11: commits of plan slots (R89, R489) -/

/-- A register's write is gone once the registers are put back. -/
theorem State.wr_with_regs (s : State) (o : Nat) (v : Word) (r : Table Word) : { s.wr o v with regs := r } = { s with regs := r } := rfl

theorem RgOnly.rd {s t : State} {page o : Nat} (h : RgOnly s t page) (ho : o ≠ regErrStatus page ∧ o ≠ regEvtStatus page) : t.rd o = s.rd o :=
  h.regs o (by simp [ho])

/-- The registers of a slot lie past the common ones of their page. -/
theorem planSlot_ne_common (i n e : Nat) :
    (planSlotHdr i n ≠ regErrStatus (planPage i) ∧ planSlotHdr i n ≠ regEvtStatus (planPage i)) ∧
    (planEntry i n e ≠ regErrStatus (planPage i) ∧ planEntry i n e ≠ regEvtStatus (planPage i)) := by
  simp only [planSlotHdr, planEntry, regErrStatus, regEvtStatus]
  omega

/-- A slot's header, state and entries, and PLAN_REFUSE, are registers apart. -/
theorem planSlot_apart (i n : Nat) :
    planSlotHdr i n ≠ planSlotState i n ∧ planSlotHdr i n ≠ planRefuse i ∧ planSlotState i n ≠ planRefuse i ∧
    ∀ e, e < 16 → planEntry i n e ≠ planSlotHdr i n ∧ planEntry i n e ≠ planSlotState i n := by
  simp only [planSlotHdr, planSlotState, planRefuse, planEntry]
  exact ⟨by omega, by omega, by omega, fun e he => by omega⟩

/-- The entries of a slot that a header of this length names. -/
def State.slotEntries (s : State) (i slot : Nat) (h : Word) : List Word :=
  (List.range (min 16 (hdrLength h))).map fun e => s.rd (planEntry i slot e)

theorem State.slotPlan_eq (s : State) (i slot : Nat) :
    s.slotPlan i slot = (s.rd (planSlotHdr i slot), s.slotEntries i slot (s.rd (planSlotHdr i slot))) := rfl

theorem State.slotEntries_congr {s t : State} {i slot : Nat} (h : ∀ e, e < 16 → t.rd (planEntry i slot e) = s.rd (planEntry i slot e)) (w : Word) :
    t.slotEntries i slot w = s.slotEntries i slot w :=
  List.map_congr_left fun e he => h e (by have := List.mem_range.1 he; omega)

theorem State.commitSlot_legal {s : State} {i slot : Nat}
    (h : planCheck (s.rd (planSlotHdr i slot)) (s.slotEntries i slot (s.rd (planSlotHdr i slot))) = .none) :
    s.commitSlot i slot = (s.wr (planSlotState i slot) 1).setTau i slot := by
  rw [State.commitSlot, State.slotPlan_eq]
  dsimp only
  rw [h]

theorem State.commitSlot_illegal {s : State} {i slot : Nat} {fault : PlanFault} (hfault : fault ≠ .none)
    (h : planCheck (s.rd (planSlotHdr i slot)) (s.slotEntries i slot (s.rd (planSlotHdr i slot))) = fault) :
    s.commitSlot i slot = s.refusePlan i slot rPlanInvalid fault := by
  rw [State.commitSlot, State.slotPlan_eq]
  dsimp only
  rw [h]
  cases fault with
  | none => exact absurd rfl hfault
  | header => rfl
  | entry n => rfl

/-- Computing a slot's τ changes the stope's τ alone. -/
theorem State.setTau_spec (s : State) (i n : Nat) :
    (s.setTau i n).regs = s.regs ∧ (∀ j, j ≠ i → (s.setTau i n).stope j = s.stope j) ∧
      { (s.setTau i n).stope i with tau := (s.stope i).tau } = s.stope i ∧ { s.setTau i n with stopes := s.stopes } = s := by
  obtain ⟨a, b, hf⟩ : ∃ a b, s.setTau i n = s.updStope i fun t =>
      { t with tau := Table.set 0 (Table.set 0 t.tau (2 * n) a) (2 * n + 1) b } := ⟨_, _, rfl⟩
  rw [hf, State.stope_updStope_same]
  exact ⟨rfl, fun j hj => s.stope_updStope_other _ hj, rfl, rfl⟩

/-- A refused commit writes PLAN_REFUSE and SLOT_STATE alone. -/
theorem State.refusePlan_eq (s : State) (i slot code : Nat) (fault : PlanFault) :
    ∃ place, s.refusePlan i slot code fault =
      (s.wr (planRefuse i) (BitVec.ofNat 32 (code + slot * 0x10000 + place * 2 ^ 21))).wr (planSlotState i slot)
        (BitVec.ofNat 32 (code * 0x10000)) := by
  cases fault with
  | none => exact ⟨0, rfl⟩
  | header => exact ⟨16, rfl⟩
  | entry n => exact ⟨n, rfl⟩

/-- The code and the slot in PLAN_REFUSE. -/
theorem refuseWord_fields {code slot : Nat} (place : Nat) (hcode : code < 0x10000) (hslot : slot < 32) :
    fld (BitVec.ofNat 32 (code + slot * 0x10000 + place * 2 ^ 21)) 15 0 = code ∧
    fld (BitVec.ofNat 32 (code + slot * 0x10000 + place * 2 ^ 21)) 20 16 = slot := by
  simp only [fld, bitsOf, BitVec.toNat_ofNat]
  omega

theorem bit_valid : bit 1 0 = true := by decide
theorem bit_refused : bit (BitVec.ofNat 32 (rPlanInvalid * 0x10000)) 0 = false := by decide

/-- The machine once a header is stored without its reserved bits, and RG_WRITE set for its reserved-growth field. -/
def State.headerStored (s : State) (f i slot : Nat) (v : Word) : State :=
  let u := s.wr (planSlotHdr i slot) (v &&& 0x0001FFFF)
  if fld v 31 28 = 0 then u else u.rgWrite f (planPage i)

theorem State.slotCommit_eq {s : State} {f i slot : Nat} {v : Word} (hslot : slot < 24) (hi : i < 256)
    (hmay : s.mayWrite f (planSlotHdr i slot) = true) : s.slotCommit f i slot v = (s.headerStored f i slot v).commitSlot i slot := by
  rw [State.slotCommit, if_neg (by simp [hmay]; omega)]
  rfl

/-- A header stored: what the registers of its slot hold, and what stays. -/
theorem State.headerStored_spec (s : State) (f i slot : Nat) (v : Word) :
    (s.headerStored f i slot v).rd (planSlotHdr i slot) = v &&& 0x0001FFFF ∧
      (∀ w, (s.headerStored f i slot v).slotEntries i slot w = s.slotEntries i slot w) ∧
      RegsKept s (s.headerStored f i slot v) [planSlotHdr i slot, regErrStatus (planPage i), regEvtStatus (planPage i)] ∧
      (∀ j, (s.headerStored f i slot v).stope j = s.stope j) ∧
      { s.headerStored f i slot v with regs := s.regs, edge := { (s.headerStored f i slot v).edge with msi := s.edge.msi } } = s := by
  have hrg : RgOnly (s.wr (planSlotHdr i slot) (v &&& 0x0001FFFF)) (s.headerStored f i slot v) (planPage i) := by
    unfold State.headerStored
    dsimp only
    split
    · exact .refl ..
    · exact State.rgWrite_rgOnly ..
  have hframe : { s.headerStored f i slot v with
      regs := s.regs, edge := { (s.headerStored f i slot v).edge with msi := s.edge.msi } } = s :=
    congrArg (fun t : State => { t with regs := s.regs }) hrg.frame
  have hstopes : (s.headerStored f i slot v).stopes = s.stopes := by
    have := congrArg State.stopes hframe
    exact this
  obtain ⟨hhdr, -⟩ := planSlot_ne_common i slot 0
  refine ⟨(hrg.rd hhdr).trans (s.rd_wr_same ..), fun w => State.slotEntries_congr (fun e he => ?_) w, fun o ho => ?_, fun j => ?_, hframe⟩
  · obtain ⟨-, hentry⟩ := planSlot_ne_common i slot e
    obtain ⟨-, -, -, hapart⟩ := planSlot_apart i slot
    exact (hrg.rd hentry).trans (s.rd_wr_other _ (hapart e he).1)
  · obtain ⟨hne, ho⟩ := not_or.1 (mt List.mem_cons.2 ho)
    exact (hrg.regs o ho).trans (s.rd_wr_other _ hne)
  · rw [State.stope, hstopes, State.stope]

/-- A legal plan's slot becomes valid, and its τ is computed. -/
theorem State.commitSlot_legal_spec {s : State} {i slot : Nat}
    (h : planCheck (s.rd (planSlotHdr i slot)) (s.slotEntries i slot (s.rd (planSlotHdr i slot))) = .none) :
    (s.commitSlot i slot).slotValid i slot = true ∧ RegsKept s (s.commitSlot i slot) [planSlotState i slot] ∧
      (∀ j, j ≠ i → (s.commitSlot i slot).stope j = s.stope j) ∧
      { (s.commitSlot i slot).stope i with tau := (s.stope i).tau } = s.stope i ∧
      { s.commitSlot i slot with stopes := s.stopes, regs := s.regs } = s := by
  rw [State.commitSlot_legal h]
  obtain ⟨hr, hother, hown, hrest⟩ := (s.wr (planSlotState i slot) 1).setTau_spec i slot
  generalize (s.wr (planSlotState i slot) 1).setTau i slot = t at *
  have hrd (o : Nat) : t.rd o = (s.wr (planSlotState i slot) 1).rd o := by rw [State.rd, hr, State.rd]
  refine ⟨?_, fun o ho => ?_, hother, hown, ?_⟩
  · rw [State.slotValid, hrd, State.rd_wr_same, bit_valid]
  · rw [hrd, State.rd_wr_other _ _ (by simpa using ho)]
  · exact congrArg (fun x : State => { x with regs := s.regs }) hrest

/-- A refused plan's slot is invalid, and PLAN_REFUSE names the code and the slot. -/
theorem State.commitSlot_illegal_spec {s : State} {i slot : Nat} {fault : PlanFault} (hslot : slot < 24) (hfault : fault ≠ .none)
    (h : planCheck (s.rd (planSlotHdr i slot)) (s.slotEntries i slot (s.rd (planSlotHdr i slot))) = fault) :
    (s.commitSlot i slot).slotValid i slot = false ∧
      (s.commitSlot i slot).rd (planSlotState i slot) = BitVec.ofNat 32 (rPlanInvalid * 0x10000) ∧
      fld ((s.commitSlot i slot).rd (planRefuse i)) 15 0 = rPlanInvalid ∧ fld ((s.commitSlot i slot).rd (planRefuse i)) 20 16 = slot ∧
      RegsKept s (s.commitSlot i slot) [planSlotState i slot, planRefuse i] ∧ { s.commitSlot i slot with regs := s.regs } = s := by
  obtain ⟨place, hplace⟩ := s.refusePlan_eq i slot rPlanInvalid fault
  obtain ⟨hcode, hplan⟩ := refuseWord_fields (code := rPlanInvalid) (slot := slot) place (by decide) (by omega)
  obtain ⟨-, -, hapart, -⟩ := planSlot_apart i slot
  rw [State.commitSlot_illegal hfault h, hplace]
  refine ⟨?_, ?_, ?_, ?_, fun o ho => ?_, ?_⟩
  · rw [State.slotValid, State.rd_wr_same, bit_refused]
  · rw [State.rd_wr_same]
  · rw [State.rd_wr_other _ _ hapart.symm, State.rd_wr_same, hcode]
  · rw [State.rd_wr_other _ _ hapart.symm, State.rd_wr_same, hplan]
  · simp only [List.mem_cons, List.not_mem_nil, or_false, not_or] at ho
    rw [State.rd_wr_other _ _ ho.1, State.rd_wr_other _ _ ho.2]
  · rw [State.wr_with_regs, State.wr_with_regs]

theorem slotCommit_judges {s : State} {f i slot : Nat} {v : Word} (hslot : slot < 24) (hi : i < 256)
    (hmay : s.mayWrite f (planSlotHdr i slot) = true) :
    Gives (.slotCommit f i slot v) s fun t =>
      t.rd (planSlotHdr i slot) = v &&& 0x0001FFFF ∧
      (t.slotValid i slot = true ↔ planCheck (v &&& 0x0001FFFF) (s.slotEntries i slot (v &&& 0x0001FFFF)) = .none) ∧
      (planCheck (v &&& 0x0001FFFF) (s.slotEntries i slot (v &&& 0x0001FFFF)) ≠ .none →
        t.rd (planSlotState i slot) = BitVec.ofNat 32 (rPlanInvalid * 0x10000) ∧
        fld (t.rd (planRefuse i)) 15 0 = rPlanInvalid ∧ fld (t.rd (planRefuse i)) 20 16 = slot) ∧
      (∀ j, j ≠ i → t.stope j = s.stope j) ∧ { t.stope i with tau := (s.stope i).tau } = s.stope i ∧
      RegsKept s t [planSlotHdr i slot, planSlotState i slot, planRefuse i, regErrStatus (planPage i), regEvtStatus (planPage i)] ∧
      { t with stopes := s.stopes, regs := s.regs, edge := { t.edge with msi := s.edge.msi } } = s := by
  obtain ⟨hhdr, hentries, hregs, hstope, hframe⟩ := s.headerStored_spec f i slot v
  obtain ⟨hstate, hrefuse, hapart, -⟩ := planSlot_apart i slot
  have hexec : exec (.slotCommit f i slot v) s = .next ((s.headerStored f i slot v).commitSlot i slot) :=
    congrArg Host.Outcome.next (State.slotCommit_eq hslot hi hmay)
  generalize s.headerStored f i slot v = u at *
  have hcheck : planCheck (u.rd (planSlotHdr i slot)) (u.slotEntries i slot (u.rd (planSlotHdr i slot))) =
      planCheck (v &&& 0x0001FFFF) (s.slotEntries i slot (v &&& 0x0001FFFF)) := by rw [hhdr, hentries]
  generalize planCheck (v &&& 0x0001FFFF) (s.slotEntries i slot (v &&& 0x0001FFFF)) = fault at *
  refine ⟨_, hexec, ?_⟩
  have hrest {t : State} (h : { t with stopes := u.stopes, regs := u.regs } = u) :
      { t with stopes := s.stopes, regs := s.regs, edge := { t.edge with msi := s.edge.msi } } = s :=
    Eq.trans (congrArg (fun x : State => { x with stopes := s.stopes, regs := s.regs, edge := { x.edge with msi := s.edge.msi } }) h)
      (congrArg (fun x : State => { x with stopes := s.stopes }) hframe)
  by_cases hlegal : fault = .none
  · obtain ⟨hvalid, hkept, hother, hown, hback⟩ := State.commitSlot_legal_spec (hcheck.trans hlegal)
    generalize u.commitSlot i slot = t at *
    refine ⟨?_, ⟨fun _ => hlegal, fun _ => hvalid⟩, fun h => absurd hlegal h, fun j hj => ?_, ?_, fun o ho => ?_, hrest hback⟩
    · rw [hkept _ (by simpa using hstate), hhdr]
    · rw [hother j hj, hstope]
    · rw [hstope] at hown
      exact hown
    · simp only [List.mem_cons, List.not_mem_nil, or_false, not_or] at ho
      rw [hkept o (by simp [ho]), hregs o (by simp [ho])]
  · obtain ⟨hinvalid, hcode, hplan, hplace, hkept, hback⟩ := State.commitSlot_illegal_spec hslot hlegal hcheck
    generalize u.commitSlot i slot = t at *
    have hstopes : t.stopes = u.stopes := by
      have := congrArg State.stopes hback
      exact this
    have hsame (j : Nat) : t.stope j = s.stope j := by rw [← hstope j, State.stope, hstopes, State.stope]
    refine ⟨?_, ⟨fun h => ?_, fun h => absurd h hlegal⟩, fun _ => ⟨hcode, hplan, hplace⟩, fun j _ => hsame j, ?_, fun o ho => ?_, ?_⟩
    · rw [hkept _ (by simp [hstate, hrefuse]), hhdr]
    · exact absurd h (by simp [hinvalid])
    · rw [hsame]
    · simp only [List.mem_cons, List.not_mem_nil, or_false, not_or] at ho
      rw [hkept o (by simp [ho]), hregs o (by simp [ho])]
    · exact hrest (congrArg (fun x : State => { x with stopes := u.stopes }) hback)

theorem entryWrite_invalidates {s : State} {f i slot e : Nat} {v : Word} (hslot : slot < 24) (he : e < 16) (hi : i < 256)
    (hmay : s.mayWrite f (planEntry i slot e) = true) :
    Gives (.entryWrite f i slot e v) s fun t =>
      t.rd (planEntry i slot e) = v &&& 0x003FFFFF ∧ t.slotValid i slot = false ∧
      RegsKept s t [planEntry i slot e, planSlotState i slot, regErrStatus (planPage i), regEvtStatus (planPage i)] ∧
      { t with regs := s.regs, edge := { t.edge with msi := s.edge.msi } } = s := by
  obtain ⟨-, hcommon⟩ := planSlot_ne_common i slot e
  obtain ⟨-, -, -, hapart⟩ := planSlot_apart i slot
  obtain ⟨u, hrg, hexec⟩ : ∃ u, RgOnly (s.wr (planEntry i slot e) (v &&& 0x003FFFFF)) u (planPage i) ∧
      s.entryWrite f i slot e v = u.wrBit (planSlotState i slot) 0 false := by
    rw [State.entryWrite, if_neg (by simp [hmay]; omega)]
    dsimp only
    split
    · exact ⟨_, .refl .., rfl⟩
    · exact ⟨_, State.rgWrite_rgOnly .., rfl⟩
  refine ⟨_, congrArg Host.Outcome.next hexec, ?_, State.bit_rd_wrBit _ _ _ _ (by decide), fun o ho => ?_, ?_⟩
  · rw [State.rd_wrBit_other _ _ _ (hapart e he).2, hrg.rd hcommon, State.rd_wr_same]
  · simp only [List.mem_cons, List.not_mem_nil, or_false, not_or] at ho
    rw [State.rd_wrBit_other _ _ _ ho.2.1, hrg.rd ho.2.2, State.rd_wr_other _ _ ho.1]
  · exact congrArg (fun t : State => { t with regs := s.regs }) hrg.frame

/-- Settles O11: the header stored, its plan is judged and the slot marked valid or refused; an entry stored, VALID clears. -/
theorem planSlotsCommit : Obligations.PlanSlotsCommit :=
  ⟨fun _ _ _ _ _ => slotCommit_judges, fun _ _ _ _ _ _ => entryWrite_invalidates⟩

end Sys2Proof.Machine

namespace Sys2Proof.Machine

/-! ## O16: an entry's conversions and the result queue (R92, R101 to R104) -/

/-! ### Pushes of whole groups -/

/-- The words of held groups. -/
def heldWords (gs : List (Nat × Nat × List Word)) : Nat := (gs.map fun g => g.2.2.length).sum

/-- A stope after `n` groups of 128 tags have been pushed or held, and nothing else but residues changed. -/
structure PushedOnto (t u : Stope) (n : Nat) : Prop where
  frame : { u with residue := t.residue, queue := t.queue, heldPush := t.heldPush } = t
  words : u.queue.length + heldWords u.heldPush = t.queue.length + heldWords t.heldPush + 128 * n
  cap : t.queue.length ≤ 8192 → u.queue.length ≤ 8192
  groups : (∀ g ∈ t.heldPush, g.2.2.length = 128) → ∀ g ∈ u.heldPush, g.2.2.length = 128
  fits : t.heldPush = [] → t.queue.length + 128 * n ≤ 8192 →
    u.heldPush = [] ∧ ∃ tags, u.queue = t.queue ++ tags ∧ tags.length = 128 * n
  full : 8192 < t.queue.length + 128 → u.queue = t.queue ∧ u.heldPush.length = t.heldPush.length + n

theorem PushedOnto.refl (t : Stope) : PushedOnto t t 0 where
  frame := rfl
  words := rfl
  cap := id
  groups := id
  fits h _ := ⟨h, [], (List.append_nil _).symm, rfl⟩
  full _ := ⟨rfl, rfl⟩

theorem PushedOnto.trans {t u v : Stope} {a b : Nat} (h : PushedOnto t u a) (h' : PushedOnto u v b) : PushedOnto t v (a + b) where
  frame := (congrArg (fun x : Stope => { x with residue := t.residue, queue := t.queue, heldPush := t.heldPush }) h'.frame).trans h.frame
  words := by
    have h₁ := h.words
    have h₂ := h'.words
    omega
  cap := h'.cap ∘ h.cap
  groups := h'.groups ∘ h.groups
  fits hheld hroom := by
    obtain ⟨hnone, tags, hq, hlen⟩ := h.fits hheld (by omega)
    obtain ⟨hnone', tags', hq', hlen'⟩ := h'.fits hnone (by rw [hq, List.length_append]; omega)
    refine ⟨hnone', tags ++ tags', ?_, ?_⟩
    · rw [hq', hq, List.append_assoc]
    · rw [List.length_append]
      omega
  full hfull := by
    obtain ⟨hq, hlen⟩ := h.full hfull
    obtain ⟨hq', hlen'⟩ := h'.full (by rw [hq]; exact hfull)
    exact ⟨hq'.trans hq, by omega⟩

/-- A residue's change pushes nothing. -/
theorem PushedOnto.with_residue (t : Stope) (r : Table Residue) : PushedOnto t { t with residue := r } 0 :=
  { PushedOnto.refl t with frame := rfl }

theorem heldWords_append (gs gs' : List (Nat × Nat × List Word)) : heldWords (gs ++ gs') = heldWords gs + heldWords gs' := by
  simp [heldWords]

/-- A group goes into the queue where it has room, and is held where it has none (R103). -/
theorem Stope.push_pushedOnto (t : Stope) (k m : Nat) {tags : List Word} (htags : tags.length = 128) : PushedOnto t (t.push k m tags) 1 := by
  unfold Stope.push queueCap
  split
  · next hroom =>
    exact {
      frame := rfl
      words := by simp only [List.length_append]; omega
      cap := fun _ => by simp only [List.length_append]; omega
      groups := id
      fits := fun hheld _ => ⟨hheld, tags, rfl, htags⟩
      full := fun hfull => by omega }
  · next hroom =>
    exact {
      frame := rfl
      words := by
        rw [heldWords_append]
        simp [heldWords, htags]
        omega
      cap := id
      groups := fun hall g hg => by
        rcases List.mem_append.1 hg with hg | hg
        · exact hall g hg
        · rw [List.mem_singleton.1 hg, htags]
      fits := fun _ hfits => by omega
      full := fun _ => ⟨rfl, List.length_append⟩ }

theorem Stope.convertMacro_length (t : Stope) (k m : Nat) (q : Seq) (e : Word) (ctr now : Nat) :
    (t.convertMacro k m q e ctr now).1.length = 128 := by
  simp [Stope.convertMacro]

/-- The conversions of an entry push one group each for the seam's macros, and change residues (R81, R102). -/
theorem Stope.convertAll_pushedOnto (k : Nat) (q : Seq) (e : Word) (now : Nat) (ms : List Nat) (t : Stope) (ctr : Nat)
    (acc : List (Word × Bool × Bool)) : PushedOnto t (t.convertAll k q e now ms ctr acc).1 ms.length := by
  induction ms generalizing t ctr acc with
  | nil => exact .refl t
  | cons m ms ih =>
    rw [Stope.convertAll, List.length_cons, Nat.add_comm ms.length]
    have hlen := t.convertMacro_length k m q e ctr now
    have hres : PushedOnto t (t.convertMacro k m q e ctr now).2 0 := .with_residue t _
    generalize t.convertMacro k m q e ctr now = r at hlen hres
    obtain ⟨tags, u⟩ := r
    dsimp only at hlen hres ⊢
    have hpush := hres.trans (u.push_pushedOnto k m (tags := tags.map (·.1)) (by rw [List.length_map, hlen]))
    rw [Nat.zero_add] at hpush
    exact hpush.trans (ih ..)

/-! ### Held groups and the drain (R103, R104) -/

/-- Held groups enter the queue in their order, from the first on, until it lacks room. -/
theorem pushHeld_spec (gs : List (Nat × Nat × List Word)) (q : List Word) :
    ∃ m, pushHeld gs q = (q ++ (gs.take m).flatMap (·.2.2), gs.drop m) ∧
      (∀ g gs', gs = g :: gs' → q.length + 128 ≤ 8192 → (gs.drop m).length ≤ gs'.length) ∧
      (∀ g gs', gs.drop m = g :: gs' → 8192 < (q ++ (gs.take m).flatMap (·.2.2)).length + 128) := by
  induction gs generalizing q with
  | nil => exact ⟨0, by simp [pushHeld], nofun, nofun⟩
  | cons g gs ih =>
    rw [pushHeld, queueCap]
    split
    · next hroom =>
      obtain ⟨m, heq, -, hstop⟩ := ih (q ++ g.2.2)
      refine ⟨m + 1, ?_, fun g' gs' h _ => ?_, ?_⟩
      · rw [heq]
        simp
      · obtain ⟨rfl, rfl⟩ := List.cons.inj h
        rw [List.drop_succ_cons, List.length_drop]
        omega
      · simpa using hstop
    · next hroom =>
      exact ⟨0, by simp, fun _ _ _ h => absurd h hroom, fun _ _ _ => by simp; omega⟩

/-- Groups of 128 words never overfill the queue. -/
theorem length_pushHeld_le (gs : List (Nat × Nat × List Word)) (q : List Word) (hgroups : ∀ g ∈ gs, g.2.2.length = 128)
    (hq : q.length ≤ 8192) : (pushHeld gs q).1.length ≤ 8192 := by
  induction gs generalizing q with
  | nil => exact hq
  | cons g gs ih =>
    obtain ⟨hg, hgs⟩ := List.forall_mem_cons.1 hgroups
    rw [pushHeld, queueCap]
    split
    · next hroom => exact ih _ hgs (by rw [List.length_append]; omega)
    · exact hq

/-- No word is lost between the queue and what is held. -/
theorem pushHeld_words (gs : List (Nat × Nat × List Word)) (q : List Word) :
    (pushHeld gs q).1.length + heldWords (pushHeld gs q).2 = q.length + heldWords gs := by
  induction gs generalizing q with
  | nil => rfl
  | cons g gs ih =>
    rw [pushHeld]
    split
    · rw [ih, List.length_append]
      simp [heldWords]
      omega
    · rfl

/-- The combine stage drains `n` words, and then held groups push (R103, R104). -/
def Stope.drainPush (t : Stope) (n : Nat) : Stope := (t.drain n).resumePush

theorem Stope.drainPush_eq (t : Stope) (n : Nat) :
    ((t.drainPush n).queue, (t.drainPush n).heldPush) = pushHeld t.heldPush (t.queue.drop n) := by
  have hqueue := congrArg Stope.queue (t.drain_runsOnly n)
  have hheld := congrArg Stope.heldPush (t.drain_runsOnly n)
  have hq : (t.drain n).queue = t.queue.drop n := hqueue
  have hh : (t.drain n).heldPush = t.heldPush := hheld
  rw [← hq, ← hh]
  rfl

theorem Stope.drainPush_kept (t : Stope) (n : Nat) : (t.drainPush n).seqs = t.seqs ∧ (t.drainPush n).acc = t.acc := by
  have hseqs := congrArg Stope.seqs (t.drain_runsOnly n)
  have hacc := congrArg Stope.acc (t.drain_runsOnly n)
  exact ⟨hseqs, hacc⟩

theorem resultPush_resumes (s : State) (i n : Nat) :
    Gives (.resultPushResume i n) s fun t =>
      ((t.stope i).queue, (t.stope i).heldPush) = pushHeld (s.stope i).heldPush ((s.stope i).queue.drop n) ∧
      (∃ m, (t.stope i).heldPush = (s.stope i).heldPush.drop m ∧
        (t.stope i).queue = (s.stope i).queue.drop n ++ ((s.stope i).heldPush.take m).flatMap (·.2.2)) ∧
      (∀ g gs, (s.stope i).heldPush = g :: gs → (s.stope i).queue.length - n + 128 ≤ 8192 → (t.stope i).heldPush.length ≤ gs.length) ∧
      (∀ g gs, (t.stope i).heldPush = g :: gs → 8192 < (t.stope i).queue.length + 128) ∧
      (t.stope i).acc = (s.stope i).acc ∧ StopeOnly s t i := by
  have heq := (s.stope i).drainPush_eq n
  obtain ⟨-, hacc⟩ := (s.stope i).drainPush_kept n
  obtain ⟨m, hm, hroom, hstop⟩ := pushHeld_spec (s.stope i).heldPush ((s.stope i).queue.drop n)
  rw [List.length_drop] at hroom
  obtain ⟨hq, hh⟩ := Prod.mk.inj (heq.trans hm)
  refine ⟨s.updStope i fun t => t.drainPush n, rfl, ?_⟩
  dsimp only
  rw [State.stope_updStope_same, hq, hh]
  exact ⟨hm.symm, ⟨m, rfl, rfl⟩, hroom, hstop, hacc, fun j hj => s.stope_updStope_other _ hj, rfl⟩

/-! ### The counters of an entry -/

/-- The counters of an entry's conversions and tags (R94, R95, R99). -/
def State.entryCounted (s : State) (i : Nat) (e : Word) (tags : List (Word × Bool × Bool)) : State :=
  let s := (s.countTags i tags).inc64 (planConvCountLo i) 1
  if entTint e < s.tintFloor i (entGain e) then s.inc (planTintRaisedCount i) 1 else s

theorem State.rd64_inc64_other (s : State) {lo o : Nat} (n : Nat) (h : o + 4 < lo ∨ lo + 4 < o) : (s.inc64 lo n).rd64 o = s.rd64 o := by
  rw [State.rd64, State.rd_inc64_other _ _ (by omega) (by omega), State.rd_inc64_other _ _ (by omega) (by omega), State.rd64]

theorem State.rd64_inc_other (s : State) {lo o : Nat} (n : Nat) (h : o ≠ lo) (h4 : o + 4 ≠ lo) : (s.inc lo n).rd64 o = s.rd64 o := by
  rw [State.rd64, State.rd_inc_other _ _ h, State.rd_inc_other _ _ h4, State.rd64]

theorem State.inc_with_regs (s : State) (o n : Nat) (r : Table Word) : { s.inc o n with regs := r } = { s with regs := r } := rfl
theorem State.inc64_with_regs (s : State) (o n : Nat) (r : Table Word) : { s.inc64 o n with regs := r } = { s with regs := r } :=
  (State.wr_with_regs ..).trans (State.wr_with_regs ..)

/-- The counters that an entry may advance. -/
def entryCounters (i : Nat) : List Nat :=
  [planConvCountLo i, planConvCountLo i + 4, planSatCountLo i, planSatCountLo i + 4, planCarryBreakCountLo i, planCarryBreakCountLo i + 4,
    planTintRaisedCount i]

theorem State.entryCounted_spec (s : State) (i : Nat) (e : Word) (tags : List (Word × Bool × Bool)) :
    (s.entryCounted i e tags).rd64 (planConvCountLo i) = (s.rd64 (planConvCountLo i) + 1) % 2 ^ 64 ∧
      RegsKept s (s.entryCounted i e tags) (entryCounters i) ∧ { s.entryCounted i e tags with regs := s.regs } = s := by
  have hpairs : RegsKept s ((s.countTags i tags).inc64 (planConvCountLo i) 1) (entryCounters i) := fun o ho => by
    simp only [entryCounters, List.mem_cons, List.not_mem_nil, or_false, not_or] at ho
    obtain ⟨hconv, hconv4, hsat, hsat4, hcarry, hcarry4, -⟩ := ho
    rw [State.rd_inc64_other _ _ hconv hconv4, State.countTags, State.rd_inc64_other _ _ hcarry hcarry4, State.rd_inc64_other _ _ hsat hsat4]
  have hconv : ((s.countTags i tags).inc64 (planConvCountLo i) 1).rd64 (planConvCountLo i) = (s.rd64 (planConvCountLo i) + 1) % 2 ^ 64 := by
    rw [State.rd64_inc64, State.countTags,
      State.rd64_inc64_other _ _ (by simp only [planConvCountLo, planCarryBreakCountLo]; omega),
      State.rd64_inc64_other _ _ (by simp only [planConvCountLo, planSatCountLo]; omega)]
  unfold State.entryCounted
  dsimp only
  split
  · refine ⟨?_, fun o ho => ?_, ?_⟩
    · rw [State.rd64_inc_other _ _ (by simp only [planConvCountLo, planTintRaisedCount]; omega)
        (by simp only [planConvCountLo, planTintRaisedCount]; omega), hconv]
    · exact (State.rd_inc_other _ _ fun he => ho (by simp [entryCounters, he])).trans (hpairs o ho)
    · rw [State.inc_with_regs, State.inc64_with_regs, State.countTags, State.inc64_with_regs, State.inc64_with_regs]
  · refine ⟨hconv, hpairs, ?_⟩
    rw [State.inc64_with_regs, State.countTags, State.inc64_with_regs, State.inc64_with_regs]

/-! ### One entry -/

/-- A seam's sequencer goes on to its next entry. -/
def Seq.advance (q : Seq) : Seq := { q with pos := q.pos + 1 }

/-- The stope once an entry has converted: its groups pushed, the sequencer advanced, and the combine stage's drain. -/
def State.entryStope (s : State) (i k n : Nat) (e : Word) : Stope :=
  ((((s.stope i).convertAll k ((s.stope i).seq k) e s.now ((s.stope i).converting k) s.freeCtr []).1).updSeq k Seq.advance).drainPush n

theorem exec_entryRun_free {s : State} {i k n : Nat} {e : Word} (hfree : s.entryFree i k = true)
    (he : ((s.stope i).seq k).entries[((s.stope i).seq k).pos]? = some e) :
    ∃ tags, exec (.entryRun i k n) s = .next
      (({ s with freeCtr := s.freeCtr + 128 * ((s.stope i).converting k).length }.setStope i (s.entryStope i k n e)).entryCounted i e tags) := by
  refine ⟨((s.stope i).convertAll k ((s.stope i).seq k) e s.now ((s.stope i).converting k) s.freeCtr []).2, ?_⟩
  refine congrArg Host.Outcome.next ((if_pos hfree).trans ?_)
  dsimp only
  rw [he]
  rfl

theorem State.busy_of_entryFree {s : State} {i k : Nat} (h : s.entryFree i k = true) : ((s.stope i).seq k).busy = true := by
  simp only [State.entryFree, Bool.and_eq_true] at h
  obtain ⟨⟨⟨⟨⟨hbusy, -⟩, -⟩, -⟩, -⟩, -⟩ := h
  exact hbusy

/-- What an entry makes of its stope's sequencer, queue and held pushes. -/
theorem State.entryStope_spec {s : State} {i k n : Nat} (e : Word) (hbusy : ((s.stope i).seq k).busy = true) :
    let t := s.stope i
    let u := s.entryStope i k n e
    let c := (t.converting k).length
    (u.seq k).pos = (t.seq k).pos + 1 ∧ u.acc = t.acc ∧
      (∃ d, d ≤ n ∧ u.queue.length + heldWords u.heldPush + d = t.queue.length + heldWords t.heldPush + 128 * c) ∧
      (t.queue.length ≤ 8192 → (∀ g ∈ t.heldPush, g.2.2.length = 128) → u.queue.length ≤ 8192) ∧
      (n = 0 → t.heldPush = [] → t.queue.length + 128 * c ≤ 8192 →
        u.heldPush = [] ∧ ∃ tags, u.queue = t.queue ++ tags ∧ tags.length = 128 * c) ∧
      (n = 0 → t.heldPush = [] → 8192 < t.queue.length + 128 → u.queue = t.queue ∧ u.heldPush.length = c) := by
  intro t u c
  have hpush := t.convertAll_pushedOnto k (t.seq k) e s.now (t.converting k) s.freeCtr []
  have hu : u = ((t.convertAll k (t.seq k) e s.now (t.converting k) s.freeCtr []).1.updSeq k Seq.advance).drainPush n := rfl
  clear_value u
  subst hu
  generalize (t.convertAll k (t.seq k) e s.now (t.converting k) s.freeCtr []).1 = x at hpush ⊢
  obtain ⟨hframe, hwords, hcap, hgroups, hfits, hfull⟩ := hpush
  have hseqs : x.seqs = t.seqs := by
    have := congrArg Stope.seqs hframe
    exact this
  have hacc : x.acc = t.acc := by
    have := congrArg Stope.acc hframe
    exact this
  obtain ⟨hseqs', hacc'⟩ := (x.updSeq k Seq.advance).drainPush_kept n
  have heq : (((x.updSeq k Seq.advance).drainPush n).queue, ((x.updSeq k Seq.advance).drainPush n).heldPush) =
      pushHeld x.heldPush (x.queue.drop n) := (x.updSeq k Seq.advance).drainPush_eq n
  generalize (x.updSeq k Seq.advance).drainPush n = y at *
  have hq : y.queue = (pushHeld x.heldPush (x.queue.drop n)).1 := congrArg Prod.fst heq
  have hh : y.heldPush = (pushHeld x.heldPush (x.queue.drop n)).2 := congrArg Prod.snd heq
  refine ⟨?_, hacc'.trans hacc, ⟨min n x.queue.length, Nat.min_le_left .., ?_⟩, fun hle hall => ?_, fun hn hnone hroom => ?_,
    fun hn hnone hno => ?_⟩
  · have hseq : y.seq k = (x.updSeq k Seq.advance).seq k := by rw [Stope.seq, hseqs', Stope.seq]
    have hsame : x.seq k = t.seq k := by rw [Stope.seq, hseqs, Stope.seq]
    rw [hseq, Stope.seq_updSeq, if_pos ⟨rfl, by rw [hseqs]; exact Stope.lt_of_busy hbusy⟩, hsame]
    rfl
  · have h := pushHeld_words x.heldPush (x.queue.drop n)
    rw [← hq, ← hh, List.length_drop] at h
    omega
  · rw [hq]
    exact length_pushHeld_le _ _ (hgroups hall) (by rw [List.length_drop]; have := hcap hle; omega)
  · subst hn
    obtain ⟨hheld, tags, hx, hlen⟩ := hfits hnone hroom
    rw [hq, hh, hheld]
    exact ⟨rfl, tags, hx, hlen⟩
  · subst hn
    obtain ⟨hx, hlen⟩ := hfull hno
    obtain ⟨m, hm, -, -⟩ := pushHeld_spec x.heldPush x.queue
    have hstay : pushHeld x.heldPush x.queue = (x.queue, x.heldPush) := by
      cases hgs : x.heldPush with
      | nil => rfl
      | cons g gs => rw [pushHeld, queueCap, if_neg (by rw [hx]; omega)]
    rw [hq, hh, List.drop_zero, hstay, hlen, hnone]
    exact ⟨hx, Nat.zero_add _⟩

theorem entryRun_converts {s : State} {i k n : Nat} {e : Word} (hfree : s.entryFree i k = true)
    (he : ((s.stope i).seq k).entries[((s.stope i).seq k).pos]? = some e) :
    Gives (.entryRun i k n) s fun t =>
      ((t.stope i).seq k).pos = ((s.stope i).seq k).pos + 1 ∧ t.rd64 (planConvCountLo i) = (s.rd64 (planConvCountLo i) + 1) % 2 ^ 64 ∧
      (∃ d, d ≤ n ∧ (t.stope i).queue.length + heldWords (t.stope i).heldPush + d =
        (s.stope i).queue.length + heldWords (s.stope i).heldPush + 128 * ((s.stope i).converting k).length) ∧
      ((s.stope i).queue.length ≤ 8192 → (∀ g ∈ (s.stope i).heldPush, g.2.2.length = 128) → (t.stope i).queue.length ≤ 8192) ∧
      (n = 0 → (s.stope i).heldPush = [] → (s.stope i).queue.length + 128 * ((s.stope i).converting k).length ≤ 8192 →
        (t.stope i).heldPush = [] ∧
        ∃ tags, (t.stope i).queue = (s.stope i).queue ++ tags ∧ tags.length = 128 * ((s.stope i).converting k).length) ∧
      (n = 0 → (s.stope i).heldPush = [] → 8192 < (s.stope i).queue.length + 128 →
        (t.stope i).queue = (s.stope i).queue ∧ (t.stope i).heldPush.length = ((s.stope i).converting k).length) ∧
      (t.stope i).acc = (s.stope i).acc ∧ (∀ j, j ≠ i → t.stope j = s.stope j) ∧ RegsKept s t (entryCounters i) ∧
      { t with stopes := s.stopes, regs := s.regs, freeCtr := s.freeCtr } = s := by
  obtain ⟨tags, hexec⟩ := exec_entryRun_free (n := n) hfree he
  obtain ⟨hpos, hacc, hwords, hcap, hfits, hfull⟩ := State.entryStope_spec (n := n) e (State.busy_of_entryFree hfree)
  generalize s.entryStope i k n e = u at *
  obtain ⟨hcount, hregs, hframe⟩ := State.entryCounted_spec
    ({ s with freeCtr := s.freeCtr + 128 * ((s.stope i).converting k).length }.setStope i u) i e tags
  refine ⟨_, hexec, ?_⟩
  generalize hx : ({ s with freeCtr := s.freeCtr + 128 * ((s.stope i).converting k).length }.setStope i u) = x at *
  generalize x.entryCounted i e tags = t at *
  have hstopes : t.stopes = x.stopes := by
    have := congrArg State.stopes hframe
    exact this
  have hstope (j : Nat) : t.stope j = x.stope j := by rw [State.stope, hstopes, State.stope]
  have hi : t.stope i = u := by rw [hstope, ← hx, State.stope_setStope_same]
  rw [hi]
  refine ⟨hpos, ?_, hwords, hcap, hfits, hfull, hacc, fun j hj => ?_, ?_, ?_⟩
  · rw [hcount, ← hx]
    rfl
  · rw [hstope, ← hx, State.stope_setStope_other _ _ hj]
    rfl
  · subst hx
    exact hregs
  · have hback := congrArg (fun y : State => { y with stopes := s.stopes, regs := s.regs, freeCtr := s.freeCtr }) hframe
    subst hx
    exact hback

/-- Settles O16: the macros of the seam push or hold one group each, the drain takes words off the queue's front, and held groups follow in
order. -/
theorem entriesConvert : Obligations.EntriesConvert :=
  ⟨fun _ _ _ _ _ => entryRun_converts, resultPush_resumes⟩

end Sys2Proof.Machine

namespace Sys2Proof.Machine

/-! ## O13: the reference buffer (R99, R106, R108, R109, R111) -/

/-! ### Enables and disables -/

/-- A stope whose buffer has begun to warm (R106). -/
def Stope.warmed (t : Stope) (now : Nat) : Stope := { t with ref := .warming, refDisable := false, refSince := now }

theorem State.refWarm_of_off {s : State} {i : Nat} (hoff : (s.stope i).ref = .off) (hallowed : s.refAllowed i = true) :
    s.refWarm i = s.updStope i fun t => t.warmed s.now :=
  if_pos (by simp [hoff, hallowed])

theorem State.refEnable_of_off {s : State} {i : Nat} (hoff : (s.stope i).ref = .off) (hallowed : s.refAllowed i = true) :
    s.refEnable i = (s.updStope i fun t => t.warmed s.now).charge enPrewarm warmCost := by
  rw [State.refEnable, if_pos (by simp [hoff, hallowed]), State.refWarm_of_off hoff hallowed]

theorem StopeOnly.updStope (s : State) (i : Nat) (f : Stope → Stope) : StopeOnly s (s.updStope i f) i :=
  ⟨fun _ hj => s.stope_updStope_other f hj, rfl⟩

theorem State.stope_updStope_charge (s : State) (i k : Nat) (uj : Rat) (f : Stope → Stope) :
    ((s.updStope i f).charge k uj).stope i = f (s.stope i) := s.stope_updStope_same i f

/-- One stope changed, and something charged. -/
theorem State.updStope_charge_charged (s : State) (i k : Nat) (uj : Rat) (f : Stope → Stope) : StopeCharged s ((s.updStope i f).charge k uj) i :=
  ⟨fun _ hj => s.stope_updStope_other f hj, rfl, rfl⟩

theorem refEnable_warms {s : State} {i : Nat} (hmode : s.refMode i ≠ 2) (hoff : (s.stope i).ref = .off) (hallowed : s.refAllowed i = true) :
    Gives (.refEnable i) s fun t =>
      t.stope i = (s.stope i).warmed s.now ∧ StopeCharged s t i ∧ (s.refMode i = 1 → t.hf = s.hf) := by
  by_cases hforce : s.refMode i = 1
  · have hexec : exec (.refEnable i) s = .next (s.updStope i fun t => t.warmed s.now) := by
      refine congrArg Host.Outcome.next ?_
      rw [hforce]
      exact State.refWarm_of_off hoff hallowed
    exact ⟨_, hexec, s.stope_updStope_same .., ⟨fun _ hj => s.stope_updStope_other _ hj, rfl, rfl⟩, fun _ => rfl⟩
  · have hexec : exec (.refEnable i) s = .next ((s.updStope i fun t => t.warmed s.now).charge enPrewarm warmCost) := by
      refine congrArg Host.Outcome.next ?_
      split
      · next h => exact absurd h hmode
      · next h => exact absurd h hforce
      · exact State.refEnable_of_off hoff hallowed
    exact ⟨_, hexec, s.stope_updStope_charge .., s.updStope_charge_charged .., fun h => absurd h hforce⟩

theorem refReady_settles {s : State} {i : Nat} (hwarming : (s.stope i).ref = .warming) :
    Gives (.refReady i) s fun t => t.stope i = { s.stope i with ref := .ready, refSince := s.now } ∧ StopeOnly s t i :=
  ⟨_, congrArg Host.Outcome.next (if_pos (by simp [hwarming])), s.stope_updStope_same .., .updStope ..⟩

theorem State.refStop_of_on {s : State} {i : Nat} (hon : (s.stope i).ref ≠ .off) :
    s.refStop i = s.updStope i fun t => { t with refDisable := true } :=
  if_neg (by simpa using hon)

theorem refDisable_pends {s : State} {i : Nat} (hmode : s.refMode i ≠ 1) (hon : (s.stope i).ref ≠ .off) :
    Gives (.refDisable i) s fun t => t.stope i = { s.stope i with refDisable := true } ∧ StopeOnly s t i :=
  ⟨_, congrArg Host.Outcome.next ((if_neg hmode).trans (State.refStop_of_on hon)), s.stope_updStope_same .., .updStope ..⟩

theorem Stope.allIdle_iff (t : Stope) : t.allIdle = true ↔ ∀ q ∈ t.seqs, q.busy = false := by
  simp [Stope.allIdle]

/-- A buffer whose disable pends goes OFF once no plan runs, and one without region or power at once. -/
theorem refOff_goes_off {s : State} {i : Nat} (hmode : s.refMode i ≠ 1) (hon : (s.stope i).ref ≠ .off)
    (hready : ((s.stope i).refDisable = true ∧ ∀ q ∈ (s.stope i).seqs, q.busy = false) ∨ s.refAllowed i = false) :
    Gives (.refOff i) s fun t =>
      t.stope i = { s.stope i with ref := .off, refDisable := false, refSince := s.now, residue := [], cal := (s.stope i).cal.restartGain } ∧
      StopeOnly s t i := by
  have hcond : ((s.stope i).ref != .off && (((s.stope i).refDisable && (s.stope i).allIdle) || !(s.refAllowed i))) = true := by
    rcases hready with ⟨hdisable, hidle⟩ | hnot
    · simp [hon, hdisable, (s.stope i).allIdle_iff.2 hidle]
    · simp [hon, hnot]
  exact ⟨_, congrArg Host.Outcome.next ((if_pos hcond).trans (if_neg hmode)), s.stope_updStope_same .., .updStope ..⟩

theorem refIdle_disables {s : State} {i : Nat} (hmode : s.refMode i = 0) (hready : (s.stope i).ref = .ready)
    (hidle : ∀ q ∈ (s.stope i).seqs, q.busy = false) (hsince : (s.stope i).refSince + fld (s.rd (planRefIdle i)) 15 0 * 1000 ≤ s.now)
    (hahead : s.lookAhead i = false) (hzero : (s.calc i).phase ≠ .zero) (hfull : (s.calc i).phase ≠ .full) :
    Gives (.refIdleExpiry i) s fun t => t.stope i = { s.stope i with refDisable := true } ∧ StopeOnly s t i := by
  have hcond : s.refMode i = 0 ∧ (s.stope i).ref = .ready ∧ (s.stope i).allIdle = true ∧ (s.stope i).cal.phase ≠ .zero ∧
      (s.stope i).cal.phase ≠ .full ∧ (s.stope i).refSince + fld (s.rd (planRefIdle i)) 15 0 * 1000 ≤ s.now ∧ ¬ s.lookAhead i = true :=
    ⟨hmode, hready, (s.stope i).allIdle_iff.2 hidle, hzero, hfull, hsince, by simp [hahead]⟩
  have hon : (s.stope i).ref ≠ .off := by simp [hready]
  exact ⟨_, congrArg Host.Outcome.next ((if_pos hcond).trans (State.refStop_of_on hon)), s.stope_updStope_same .., .updStope ..⟩

theorem prewarm_warms {s : State} {i : Nat} (hmode : s.refMode i = 0) (hahead : s.lookAhead i = true) (hoff : (s.stope i).ref = .off)
    (hallowed : s.refAllowed i = true) (hgrant : s.prewarmNeed (fld (s.rd (planPrewarmLead i)) 7 0 * 1000) ≤ s.unreserved) :
    Gives (.prewarm i) s fun t =>
      t.stope i = (s.stope i).warmed s.now ∧ (∀ j, j ≠ i → t.stope j = s.stope j) ∧ t.regs = s.regs ∧ t.mem = s.mem ∧ t.wnd = s.wnd ∧
      t.cores = s.cores ∧ t.noc = s.noc := by
  have hexec : exec (.prewarm i) s = .next ((s.updStope i fun t => t.warmed s.now).charge enPrewarm warmCost) :=
    congrArg Host.Outcome.next ((if_pos ⟨hmode, hahead, hoff, hallowed, hgrant⟩).trans (State.refEnable_of_off hoff hallowed))
  obtain ⟨hother, -, -⟩ := s.updStope_charge_charged i enPrewarm warmCost fun t => t.warmed s.now
  exact ⟨_, hexec, s.stope_updStope_charge .., hother, rfl, rfl, rfl, rfl, rfl⟩

/-! ### PLAN_CTRL (R108, R117) -/

theorem pageAt_plan {i k : Nat} (hi : i < 256) (hk : k < 0x1000) : pageAt (planPage i + k) = some (.plan, i) := by
  have hn : (planPage i + k) / 0x1000 = 0x101 + 4 * i := by simp only [planPage]; omega
  have hge : ¬ planPage i + k < 0x10000 := by simp only [planPage]; omega
  have h4 : (0x101 + 4 * i) % 4 = 1 := by omega
  have hidx : (0x101 + 4 * i - 0x100) / 4 = i := by omega
  simp only [pageAt, hn, hge, h4, hidx, if_false]
  repeat rw [if_neg (by omega)]
  rw [if_pos (by omega)]

/-- The fields of PLAN_CTRL: the bank of a swap in two bits, and REF_MODE. -/
def planCtrlFields : List Field := [⟨0, 0, .rw, .any⟩, ⟨1, 1, .rw, .any⟩, ⟨3, 2, .rw, .range 0 2⟩]

theorem planCtrl_mod (i : Nat) : planCtrl i % 0x1000 = 0x100 := by
  simp only [planCtrl, planPage]
  omega

theorem rowAt_planCtrl {i : Nat} (hi : i < 256) : rowAt (planCtrl i) = some (⟨0x100, 1, 4, 1, 4, 0x00000000, false, planCtrlFields⟩, 0) := by
  rw [rowAt, planCtrl_mod, planCtrl, pageAt_plan hi (by omega)]
  rfl

theorem State.storeReg_planCtrl (s : State) {f i : Nat} {v : Word} (hi : i < 256) :
    s.storeReg f (planCtrl i) v = s.wr (planCtrl i) (writeFields planCtrlFields (s.rd (planCtrl i)) v).1 := by
  have hmask : rgMask (planCtrl i) = 0 := by
    rw [rgMask, planCtrl_mod]
    rfl
  refine State.storeReg_eq_wr (rowAt_planCtrl hi) (homeOff_of_ne_merge (pageAt_plan hi (by omega)) nofun) hmask fun fd hfd n => ?_
  simp only [planCtrlFields, List.mem_cons, List.not_mem_nil, or_false] at hfd
  rcases hfd with rfl | rfl | rfl <;> rfl

/-- A write of PLAN_CTRL with a REF_MODE that exists is taken whole. -/
theorem fld_planCtrlFields {old v : Word} (hmode : fld v 3 2 ≤ 2) : fld (writeFields planCtrlFields old v).1 3 0 = fld v 3 0 := by
  refine fld_eq_of_parts (k := 1) (by omega) (by omega) (fld_eq_of_parts (k := 0) (by omega) (by omega) ?_ ?_) ?_
  · obtain ⟨acc, -, hw⟩ := fld_writeFields [] (planCtrlFields.drop 1) ⟨0, 0, .rw, .any⟩ old v (by decide) (by decide)
    exact hw.trans (fld_write_any 0 0 acc v (by omega) (by omega))
  · obtain ⟨acc, -, hw⟩ := fld_writeFields (planCtrlFields.take 1) (planCtrlFields.drop 2) ⟨1, 1, .rw, .any⟩ old v (by decide) (by decide)
    exact hw.trans (fld_write_any 1 1 acc v (by omega) (by omega))
  · obtain ⟨acc, -, hw⟩ := fld_writeFields (planCtrlFields.take 2) [] ⟨3, 2, .rw, .range 0 2⟩ old v (by decide) (by decide)
    exact hw.trans ((fld_write_range 3 2 0 2 acc v (by omega) (by omega)).trans (if_pos ⟨Nat.zero_le _, hmode⟩))

theorem and_low_of_fld {w v : Word} (h : fld w 3 0 = fld v 3 0) : w &&& 0xF = v &&& 0xF := by
  have hlow (x : Word) : (x &&& 0xF).toNat = fld x 3 0 := by
    rw [BitVec.toNat_and]
    exact (Nat.and_two_pow_sub_one_eq_mod x.toNat 4).trans (by simp [fld, bitsOf])
  exact BitVec.eq_of_toNat_eq (by rw [hlow, hlow, h])

/-- Fields within a larger one agree where the larger one does. -/
theorem fld_of_fld_eq {w v : Word} {hi lo a b : Nat} (h : fld w hi lo = fld v hi lo) (ha : a ≤ hi) (hb : lo ≤ b) :
    fld w a b = fld v a b := by
  apply Nat.eq_of_testBit_eq
  intro n
  have hn := congrArg (Nat.testBit · (b + n - lo)) h
  simp only [fld, bitsOf_testBit] at hn ⊢
  by_cases hin : n < a + 1 - b
  · simpa [hin, show b + n - lo < hi + 1 - lo by omega, show lo + (b + n - lo) = b + n by omega] using hn
  · simp [hin]

/-- A register outside the NOC page moves no stope between regions. -/
theorem State.stopeRegion_wr (s : State) {o : Nat} (v : Word) (ho : o < nocPage ∨ nocPage + 0x1000 ≤ o) (i : Nat) :
    (s.wr o v).stopeRegion i = s.stopeRegion i := by
  refine State.stopeRegion_congr (fun n hn => ?_) i
  have hgeom : nocGeom n ≠ o ∧ nocGate n ≠ o ∧ nocEdge n ≠ o ∧ nocPorts n ≠ o := by
    simp only [nocGeom, nocGate, nocEdge, nocPorts]
    omega
  obtain ⟨hg, hga, he, hp⟩ := hgeom
  simp only [State.region, State.rd_wr_other _ _ hg, State.rd_wr_other _ _ hga, State.rd_wr_other _ _ he, State.rd_wr_other _ _ hp]

theorem StopeRegs.wr (s : State) {i o : Nat} (v : Word) {l : List Nat} (ho : o ∈ l) : StopeRegs s (s.wr o v) i l :=
  ⟨fun _ _ => rfl, fun _ hx => s.rd_wr_other v fun he => hx (he ▸ ho), s.wr_with_regs o v s.regs⟩

theorem planCtrl_outside_noc (i : Nat) : planCtrl i < nocPage ∨ nocPage + 0x1000 ≤ planCtrl i := by
  simp only [planCtrl, planPage, nocPage]
  omega

theorem forceOn_warms {s : State} {f i : Nat} {v : Word} (hi : i < 256) (hmay : s.mayWrite f (planCtrl i) = true) (hv : fld v 3 2 = 1)
    (hoff : (s.stope i).ref = .off) (hallowed : s.refAllowed i = true) :
    Gives (.refModeWrite f i v) s fun t =>
      t.rd (planCtrl i) &&& 0xF = v &&& 0xF ∧ t.stope i = (s.stope i).warmed s.now ∧ StopeRegs s t i [planCtrl i] := by
  have hlow := fld_planCtrlFields (old := s.rd (planCtrl i)) (v := v) (by omega)
  generalize hw : (writeFields planCtrlFields (s.rd (planCtrl i)) v).1 = w at hlow
  have hforce : (s.wr (planCtrl i) w).refMode i = 1 := by
    rw [State.refMode, State.rd_wr_same, fld_of_fld_eq hlow (by omega) (by omega), hv]
  have hallowed' : (s.wr (planCtrl i) w).refAllowed i = true := by
    rw [State.refAllowed, s.stopeRegion_wr w (planCtrl_outside_noc i)]
    exact hallowed
  have hexec : exec (.refModeWrite f i v) s = .next ((s.wr (planCtrl i) w).updStope i fun t => t.warmed s.now) := by
    refine congrArg Host.Outcome.next ((if_pos hmay).trans ?_)
    rw [s.storeReg_planCtrl hi, hw, State.refModeEffect, hforce]
    exact State.refWarm_of_off (s := s.wr (planCtrl i) w) hoff hallowed'
  refine ⟨_, hexec, ?_, State.stope_updStope_same .., StopeRegs.trans (.wr _ _ (by simp)) (.updStope ..)⟩
  rw [State.updStope_rd, State.rd_wr_same, and_low_of_fld hlow]

/-! ### The loss of the reference (R99, R111) -/

/-- A launch found after an update of one launch. -/
theorem Stope.launch_updLaunch_eq (t : Stope) {id id' : Nat} {f : Launch → Launch} (hid : ∀ l, (f l).id = l.id) :
    (t.updLaunch id' f).launch id = (t.launch id).map fun l => if l.id == id' then f l else l := by
  have hsame : (fun l : Launch => l.id == id) ∘ (fun l => if l.id == id' then f l else l) = fun l => l.id == id := by
    funext x
    rw [Function.comp_apply]
    split
    · rw [hid]
    · rfl
  rw [Stope.launch, Stope.updLaunch, List.find?_map, hsame, Stope.launch]

theorem Stope.id_of_launch {t : Stope} {id : Nat} {l : Launch} (h : t.launch id = some l) : l.id = id :=
  beq_iff_eq.1 (List.find?_some (p := fun l : Launch => l.id == id) h)

/-- A launch has ended with a status. -/
def Stope.EndedWith (t : Stope) (id status : Nat) : Prop := ∃ l, t.launch id = some l ∧ l.ended = true ∧ l.status = status

theorem Stope.launch_endLaunch (t : Stope) (id id' status : Nat) :
    (t.endLaunch id' status).launch id =
      (t.launch id).map fun l => if l.id == id' then { l with running := false, ended := true, status := status, left := 0 } else l :=
  Stope.launch_updLaunch_eq (f := fun l => { l with running := false, ended := true, status := status, left := 0 }) t fun _ => rfl

theorem Stope.endedWith_endLaunch {t : Stope} {id : Nat} {l : Launch} (status : Nat) (h : t.launch id = some l) :
    (t.endLaunch id status).EndedWith id status := by
  refine ⟨{ l with running := false, ended := true, status := status, left := 0 }, ?_, rfl, rfl⟩
  rw [Stope.launch_endLaunch, h, Option.map_some, if_pos (by simp [Stope.id_of_launch h])]

theorem Stope.EndedWith.endLaunch {t : Stope} {id status : Nat} (h : t.EndedWith id status) (id' : Nat) :
    (t.endLaunch id' status).EndedWith id status := by
  obtain ⟨l, hl, hended, hstatus⟩ := h
  rw [Stope.EndedWith, Stope.launch_endLaunch, hl, Option.map_some]
  refine ⟨_, rfl, ?_⟩
  split
  · exact ⟨rfl, rfl⟩
  · exact ⟨hended, hstatus⟩

/-- What discarding the plan of one seam does to launches and to the other sequencers. -/
theorem Stope.discardPlan_spec (status : Nat) (t : Stope) (k : Nat) :
    (∀ id, t.EndedWith id status → (t.discardPlan status k).EndedWith id status) ∧
    (∀ l, (t.seq k).busy = true → t.launch (t.seq k).launch = some l → (t.discardPlan status k).EndedWith (t.seq k).launch status) ∧
    (∀ id l, t.launch id = some l → ∃ l', (t.discardPlan status k).launch id = some l') ∧
    ∀ j, j ≠ k → (t.discardPlan status k).seq j = t.seq j := by
  unfold Stope.discardPlan
  dsimp only
  by_cases hbusy : (((t.clearRuns k).dropResidues k).seq k).busy = true
  · rw [if_pos hbusy]
    refine ⟨fun id h => h.endLaunch _, fun l _ hl => Stope.endedWith_endLaunch status hl, fun id l hl => ?_, fun j hj => ?_⟩
    · rw [Stope.launch_endLaunch]
      exact ⟨_, congrArg (Option.map _) hl⟩
    · exact (Stope.seq_updSeq ((t.clearRuns k).dropResidues k) k j fun _ => Seq.idle).trans (if_neg fun h => hj h.1)
  · rw [if_neg hbusy]
    exact ⟨fun _ h => h, fun _ h => absurd h hbusy, fun _ l hl => ⟨l, hl⟩, fun _ _ => rfl⟩

theorem Stope.EndedWith.foldl_discardPlan {status id : Nat} (ks : List Nat) {t : Stope} (h : t.EndedWith id status) :
    (ks.foldl (Stope.discardPlan status) t).EndedWith id status := by
  induction ks generalizing t with
  | nil => exact h
  | cons k ks ih => exact ih ((t.discardPlan_spec status k).1 id h)

/-- A running plan's launch ends with the status of the discard. -/
theorem Stope.foldl_discardPlan_ends {status k : Nat} (ks : List Nat) (hk : k ∈ ks) {t : Stope} {l : Launch} (hbusy : (t.seq k).busy = true)
    (hl : t.launch (t.seq k).launch = some l) : (ks.foldl (Stope.discardPlan status) t).EndedWith (t.seq k).launch status := by
  induction ks generalizing t l with
  | nil => exact absurd hk List.not_mem_nil
  | cons j ks ih =>
    obtain ⟨-, hends, hfound, hother⟩ := t.discardPlan_spec status j
    by_cases hj : k = j
    · subst hj
      exact (hends l hbusy hl).foldl_discardPlan ks
    · obtain ⟨l', hl'⟩ := hfound _ _ hl
      rw [← hother k hj] at hbusy hl' ⊢
      exact ih ((List.mem_cons.1 hk).resolve_left hj) hbusy hl'

theorem Stope.discardPlans_ends {t : Stope} {k : Nat} {l : Launch} (status : Nat) (hk : k < 4) (hbusy : (t.seq k).busy = true)
    (hl : t.launch (t.seq k).launch = some l) : (t.discardPlans [0, 1, 2, 3] status).EndedWith (t.seq k).launch status := by
  have hmem : k ∈ [0, 1, 2, 3] := by
    simp only [List.mem_cons, List.not_mem_nil, or_false]
    omega
  exact Stope.foldl_discardPlan_ends (t := { t with
    queue := t.queue.filter fun w => !([0, 1, 2, 3].contains (seamOf (fld w 31 25))),
    heldPush := t.heldPush.filter fun g => !([0, 1, 2, 3].contains g.1) }) [0, 1, 2, 3] hmem hbusy hl

/-- A stope whose reference is lost: its plans discarded, no residue kept, the present gain of a calibration started over. -/
def Stope.refFailed (t : Stope) (now : Nat) : Stope :=
  let t := t.discardPlans [0, 1, 2, 3] causeRefLost
  { t with ref := .warming, refSince := now, residue := [], cal := t.cal.restartGain }

theorem refLost_ends_plans {s : State} {i : Nat} (hready : (s.stope i).ref = .ready) :
    Gives (.refLost i) s fun t =>
      (t.stope i).ref = .warming ∧ (t.stope i).residue = [] ∧ (t.stope i).acc = (s.stope i).acc ∧
      (∀ k, k < 4 → ((t.stope i).seq k).busy = false) ∧
      (∀ k l, k < 4 → ((s.stope i).seq k).busy = true → (s.stope i).launch ((s.stope i).seq k).launch = some l →
        ∃ l', (t.stope i).launch l.id = some l' ∧ l'.ended = true ∧ l'.status = causeRefLost) ∧
      Noticed s t causeRefLost i ∧ NocNotices s t ∧ (∀ j, j ≠ i → t.stope j = s.stope j) ∧
      { t with stopes := s.stopes, noc := s.noc } = s := by
  obtain ⟨hacc, hidle⟩ := (s.stope i).discardPlans_all causeRefLost
  have hstope : (s.updStope i fun t => t.refFailed s.now).stope i = (s.stope i).refFailed s.now := s.stope_updStope_same ..
  have hexec : exec (.refLost i) s = .next ((s.updStope i fun t => t.refFailed s.now).notify
      (mkNotice causeRefLost 0 0 i (((s.updStope i fun t => t.refFailed s.now).stopeRegion i).getD 0))) :=
    congrArg Host.Outcome.next (if_pos hready)
  refine ⟨_, hexec, ?_, ?_, ?_, ?_, fun k l hk hbusy hl => ?_, ⟨_, rfl, rfl, rfl⟩, rfl, fun j hj => ?_, rfl⟩
  · rw [State.notify_stope, hstope]
    rfl
  · rw [State.notify_stope, hstope]
    rfl
  · rw [State.notify_stope, hstope]
    exact hacc
  · rw [State.notify_stope, hstope]
    exact hidle
  · rw [State.notify_stope, hstope, Stope.id_of_launch hl]
    exact Stope.discardPlans_ends causeRefLost hk hbusy hl
  · rw [State.notify_stope, s.stope_updStope_other _ hj]

/-- Settles O13: each move of the buffer by its own lemma; the loss of the reference discards every seam's plan. -/
theorem referenceBufferMoves : Obligations.ReferenceBufferMoves :=
  ⟨fun _ _ => refEnable_warms, fun _ _ => refReady_settles, fun _ _ => refDisable_pends, fun _ _ => refOff_goes_off,
    fun _ _ => refIdle_disables, fun _ _ => prewarm_warms, fun _ _ _ _ => forceOn_warms, fun _ _ => refLost_ends_plans⟩

/-! ## O14: launches (R107, R111, R114, R485) -/

theorem State.launchCheck_cold {s : State} {i : Nat} {l : Launch} (h : (s.stope i).ref ≠ .ready) : s.launchCheck i l = rRefCold :=
  if_pos (by simp [h])

/-- A launch whose waits have ended, by what its checks say. -/
theorem exec_planStart_waiting {s : State} {i id : Nat} {l : Launch} (hl : (s.stope i).launch id = some l) (hrunning : l.running = false)
    (hended : l.ended = false) (hfree : s.launchFree i l = true) :
    exec (.planStart i id) s = .next (
      if s.launchCheck i l = 0 then s.updStope i fun t => t.startPlan l
      else if s.launchCheck i l = rRefCold then
        ((s.updStope i fun t => t.endLaunch id (s.launchCheck i l)).inc (planRefColdCount i) 1).wr (planRefuse i)
          (BitVec.ofNat 32 (rRefCold + l.slot * 0x10000))
      else s.updStope i fun t => t.endLaunch id (s.launchCheck i l)) := by
  refine congrArg Host.Outcome.next ?_
  rw [hl]
  exact if_pos (by simp [Launch.waiting, hrunning, hended, hfree])

theorem planStart_refuses_cold {s : State} {i id : Nat} {l : Launch} (hl : (s.stope i).launch id = some l) (hrunning : l.running = false)
    (hended : l.ended = false) (hfree : s.launchFree i l = true) (hcold : (s.stope i).ref ≠ .ready) :
    Gives (.planStart i id) s fun t =>
      (t.stope i).launch id = some { l with running := false, ended := true, status := rRefCold, left := 0 } ∧
      { t.stope i with launches := (s.stope i).launches } = s.stope i ∧ t.rd (planRefColdCount i) = s.rd (planRefColdCount i) + 1 ∧
      StopeRegs s t i [planRefColdCount i, planRefuse i] := by
  have hexec := exec_planStart_waiting hl hrunning hended hfree
  rw [State.launchCheck_cold hcold, if_neg (by decide), if_pos rfl] at hexec
  have hapart : planRefColdCount i ≠ planRefuse i := by
    simp only [planRefColdCount, planRefuse]
    omega
  refine ⟨_, hexec, ?_, ?_, ?_, StopeRegs.trans (.trans (.updStope ..) (.inc _ _ (by simp))) (.wr _ _ (by simp))⟩
  · rw [State.wr_stope, State.inc_stope, State.stope_updStope_same]
    exact Stope.launch_updLaunch (f := fun l => { l with running := false, ended := true, status := rRefCold, left := 0 }) (fun _ => rfl) hl
  · rw [State.wr_stope, State.inc_stope, State.stope_updStope_same]
    rfl
  · rw [State.rd_wr_other _ _ hapart, State.rd_inc_same]
    rfl

/-! ### A plan's start (R82, R90) -/

/-- A sequencer at the first entry of a launch's plan, for the nth seam that the launch names. -/
def Launch.startSeq (l : Launch) (n : Nat) : Seq :=
  { Seq.idle with busy := true, launch := l.id, hdr := l.hdr, entries := l.entries, bank := l.bank, format := l.format, da := l.da.getD n 0,
                  stream := l.stream }

/-- One of a launch's seams starts: its runs cleared, its latch loaded, its sequencer at the first entry. -/
def Stope.startSeam (l : Launch) (t : Stope) (p : Nat × Nat) : Stope :=
  ((t.clearRuns p.1).loadLatch p.1 ((l.levels.drop (256 * p.2)).take 256)).updSeq p.1 fun _ => l.startSeq p.2

theorem Stope.startPlan_eq (t : Stope) (l : Launch) :
    t.startPlan l = (l.seamList.zipIdx.foldl (Stope.startSeam l) t).updLaunch l.id fun l => { l with running := true, left := l.seams } := rfl

/-- A sequencer at the first entry of a launch's plan. -/
def Seq.Started (l : Launch) (q : Seq) : Prop := q.busy = true ∧ q.entries = l.entries ∧ q.pos = 0

theorem Stope.seq_startSeam (l : Launch) (t : Stope) (p : Nat × Nat) (k : Nat) :
    (t.startSeam l p).seq k = if k = p.1 ∧ k < t.seqs.length then l.startSeq p.2 else t.seq k :=
  Stope.seq_updSeq ((t.clearRuns p.1).loadLatch p.1 ((l.levels.drop (256 * p.2)).take 256)) p.1 k fun _ => l.startSeq p.2

theorem Stope.length_startSeam (l : Launch) (t : Stope) (p : Nat × Nat) : (t.startSeam l p).seqs.length = t.seqs.length := by
  rw [Stope.startSeam, Stope.updSeq, setAt, List.length_map, List.length_zipIdx]
  rfl

/-- The seams named start, each at its first entry; launches, accumulators and the queue stay. -/
theorem Stope.foldl_startSeam (l : Launch) (ps : List (Nat × Nat)) (t : Stope) :
    (∀ k, k < t.seqs.length → k ∈ ps.map Prod.fst ∨ Seq.Started l (t.seq k) → Seq.Started l ((ps.foldl (Stope.startSeam l) t).seq k)) ∧
    (ps.foldl (Stope.startSeam l) t).launches = t.launches ∧ (ps.foldl (Stope.startSeam l) t).acc = t.acc ∧
    (ps.foldl (Stope.startSeam l) t).queue = t.queue := by
  induction ps generalizing t with
  | nil => exact ⟨fun k _ h => h.resolve_left (by simp), rfl, rfl, rfl⟩
  | cons p ps ih =>
    obtain ⟨hstarted, hlaunches, hacc, hqueue⟩ := ih (t.startSeam l p)
    refine ⟨fun k hk h => hstarted k (by rwa [Stope.length_startSeam]) ?_, hlaunches, hacc, hqueue⟩
    rw [Stope.seq_startSeam]
    by_cases hp : k = p.1
    · rw [if_pos ⟨hp, hk⟩]
      exact .inr ⟨rfl, rfl, rfl⟩
    · rw [if_neg fun h => hp h.1]
      exact h.imp_left fun h => (List.mem_cons.1 h).resolve_left hp

theorem Stope.startPlan_spec {t : Stope} {id : Nat} {l : Launch} (hl : t.launch id = some l) :
    (t.startPlan l).launch id = some { l with running := true, left := l.seams } ∧
      (∀ k ∈ l.seamList, k < t.seqs.length → Seq.Started l ((t.startPlan l).seq k)) ∧ (t.startPlan l).acc = t.acc ∧
      (t.startPlan l).queue = t.queue := by
  obtain ⟨hstarted, hlaunches, hacc, hqueue⟩ := Stope.foldl_startSeam l l.seamList.zipIdx t
  have hfound : (l.seamList.zipIdx.foldl (Stope.startSeam l) t).launch id = some l := by rw [Stope.launch, hlaunches, ← Stope.launch, hl]
  obtain rfl := Stope.id_of_launch hl
  rw [Stope.startPlan_eq]
  refine ⟨?_, fun k hk hlt => hstarted k hlt (.inl ?_), hacc, hqueue⟩
  · exact Stope.launch_updLaunch (f := fun l => { l with running := true, left := l.seams }) (fun _ => rfl) hfound
  · rwa [List.zipIdx_map_fst]

theorem planStart_runs {s : State} {i id : Nat} {l : Launch} (hl : (s.stope i).launch id = some l) (hrunning : l.running = false)
    (hended : l.ended = false) (hfree : s.launchFree i l = true) (hchecks : s.launchCheck i l = 0) :
    Gives (.planStart i id) s fun t =>
      (t.stope i).launch id = some { l with running := true, left := l.seams } ∧
      (∀ k ∈ l.seamList, k < (s.stope i).seqs.length → Seq.Started l ((t.stope i).seq k)) ∧
      (t.stope i).acc = (s.stope i).acc ∧ (t.stope i).queue = (s.stope i).queue ∧ StopeOnly s t i := by
  have hexec := exec_planStart_waiting hl hrunning hended hfree
  rw [if_pos hchecks] at hexec
  obtain ⟨hlaunch, hstarted, hacc, hqueue⟩ := Stope.startPlan_spec hl
  have hstope := s.stope_updStope_same i fun t => t.startPlan l
  refine ⟨_, hexec, ?_, ?_, ?_, ?_, .updStope ..⟩
  · rw [hstope, hlaunch]
  · rw [hstope]
    exact hstarted
  · rw [hstope, hacc]
  · rw [hstope, hqueue]

theorem bankSwitch_switches {s : State} {i : Nat} {l : Launch} (hwait : (s.stope i).switchWait = some l)
    (hidle : ∀ q ∈ (s.stope i).seqs, q.busy = false) :
    Gives (.bankSwitch i) s fun t => t.stope i = { s.stope i with bank := l.bank } ∧ StopeOnly s t i := by
  have hexec : exec (.bankSwitch i) s = .next (s.updStope i fun t => { t with bank := l.bank }) := by
    refine congrArg Host.Outcome.next ?_
    rw [hwait]
    exact if_pos ((s.stope i).allIdle_iff.2 hidle)
  exact ⟨_, hexec, s.stope_updStope_same .., .updStope ..⟩

/-- Settles O14: a launch whose waits have ended is refused cold or runs, by its checks, and a held one has its bank switched to. -/
theorem launchesMeetTheirChecks : Obligations.LaunchesMeetTheirChecks :=
  ⟨fun _ _ _ _ => planStart_refuses_cold, fun _ _ _ _ => planStart_runs, fun _ _ _ => bankSwitch_switches⟩

end Sys2Proof.Machine

namespace Sys2Proof.Machine

/-! ## O43 and O44: what reports and lost slices leave alone (R51, R369 to R373) -/

/-! ### A report of this moment -/

theorem State.report_eq (s : State) (cause unit detail ep : Nat) (stream : Option Nat) :
    s.report cause unit detail ep stream =
      (s.nextSeq (s.sourceId ep)).2.reportAt s.now (s.nextSeq (s.sourceId ep)).1 cause unit detail ep stream := rfl

/-- What neither a report nor the numbering of events moves reads as before. -/
theorem State.report_field {α : Type} (s : State) (cause unit detail ep : Nat) (stream : Option Nat) (π : State → α)
    (hπ : ∀ x : State, π x.unreported = π x) (hseq : ∀ (x : State) (src : Nat), π (x.nextSeq src).2 = π x) :
    π (s.report cause unit detail ep stream) = π s :=
  ((State.reportAt_reported ..).field π hπ).trans (hseq ..)

theorem State.report_regs (s : State) (cause unit detail ep : Nat) (stream : Option Nat) :
    RegsKept s (s.report cause unit detail ep stream) reportCounters := fun o ho =>
  (State.reportAt_reported ..).regs o ho

theorem State.report_stopes (s : State) (cause unit detail ep : Nat) (stream : Option Nat) :
    (s.report cause unit detail ep stream).stopes = s.stopes :=
  s.report_field _ _ _ _ _ (·.stopes) (fun _ => rfl) fun _ _ => rfl

theorem State.report_entries (s : State) (cause unit detail ep : Nat) (stream : Option Nat) :
    (s.report cause unit detail ep stream).tally.entries = s.tally.entries :=
  s.report_field _ _ _ _ _ (·.tally.entries) (fun _ => rfl) fun _ _ => rfl

theorem State.report_fences (s : State) (cause unit detail ep : Nat) (stream : Option Nat) :
    (s.report cause unit detail ep stream).noc.fences = s.noc.fences :=
  s.report_field _ _ _ _ _ (·.noc.fences) (fun _ => rfl) fun _ _ => rfl

theorem State.report_cores (s : State) (cause unit detail ep : Nat) (stream : Option Nat) :
    (s.report cause unit detail ep stream).cores = s.cores :=
  s.report_field _ _ _ _ _ (·.cores) (fun _ => rfl) fun _ _ => rfl

/-! ### The device's ID -/

theorem State.writeRecord_devId (s : State) (i : Nat) (rec : Record) : (s.writeRecord i rec).edge.devId = s.edge.devId := by
  unfold State.writeRecord
  dsimp only
  split
  · rfl
  · rfl

theorem State.post_devId (s : State) (i : Nat) (rec : Record) : (s.post i rec).edge.devId = s.edge.devId := by
  unfold State.post
  split
  · exact s.writeRecord_devId i rec
  · split
    · rfl
    · rfl

theorem State.hostReport_devId (s : State) (r : Report) (stream : Option Nat) : (s.hostReport r stream).edge.devId = s.edge.devId := by
  unfold State.hostReport
  extract_lets d u
  have hu : u.edge.devId = s.edge.devId := s.post_devId ..
  cases stream with
  | none => exact hu
  | some i =>
    dsimp only
    split
    · exact (u.post_devId ..).trans hu
    · exact hu

theorem State.ringAlarm_devId (s : State) (r : Report) : (s.ringAlarm r).edge.devId = s.edge.devId := by
  unfold State.ringAlarm State.flushAlarms
  split
  · rfl
  · rfl

theorem State.ringTrace_devId (s : State) (r : Report) : (s.ringTrace r).edge.devId = s.edge.devId := by
  unfold State.ringTrace
  split
  · rfl
  · split
    · rfl
    · rfl

theorem State.logRecord_edge (s : State) (r : Report) : (s.logRecord r).edge = s.edge := by
  unfold State.logRecord
  dsimp only
  split
  · exact State.inc_edge ..
  · rfl

theorem State.reportAt_devId (s : State) (time q cause unit detail ep : Nat) (stream : Option Nat) :
    (s.reportAt time q cause unit detail ep stream).edge.devId = s.edge.devId := by
  unfold State.reportAt
  extract_lets src c r
  cases hc : c with
  | alarm =>
    have hlog : ((s.inc64 tallyAlarmCountLo 1).logRecord r).edge = s.edge := (State.logRecord_edge ..).trans (State.inc64_edge ..)
    dsimp only
    split
    · refine (State.hostReport_devId ..).trans ((State.ringAlarm_devId ..).trans ?_)
      exact congrArg Edge.devId hlog
    · exact congrArg Edge.devId hlog
  | log =>
    have hlog := congrArg Edge.devId (s.logRecord_edge r)
    dsimp only
    split
    · exact (State.hostReport_devId ..).trans hlog
    · exact hlog
  | trace =>
    dsimp only
    split
    · exact (State.ringTrace_devId ..).trans (congrArg Edge.devId (s.logRecord_edge r))
    · rfl

theorem State.report_devId (s : State) (cause unit detail ep : Nat) (stream : Option Nat) :
    (s.report cause unit detail ep stream).edge.devId = s.edge.devId := State.reportAt_devId ..

/-! ### A cause that the headframe takes up at a block (R47) -/

/-- The cause stands at its block, the other blocks' fences are as they were, and beside the fences there are only messages. -/
theorem State.fenceFor_spec (s : State) (p cause classes : Nat) :
    (cause, classes) ∈ ((s.fenceFor p cause classes).fence p).causes ∧
      (∀ q, q ≠ p → (s.fenceFor p cause classes).fence q = s.fence q) ∧
      { s.fenceFor p cause classes with
        noc := { (s.fenceFor p cause classes).noc with fences := s.noc.fences, ctl := s.noc.ctl, nets := s.noc.nets } } = s := by
  unfold State.fenceFor
  dsimp only
  refine ⟨?_, fun q hq => ?_,
    congrArg (fun t : State => { t with noc := { t.noc with fences := s.noc.fences } }) (State.sendFence_frame ..)⟩
  · rw [State.sendFence_fence, State.fence_setFence_same]
    simp
  · rw [State.sendFence_fence, State.fence_setFence_other _ _ hq]

theorem State.fenceFor_frame (s : State) (p cause classes : Nat) :
    { s.fenceFor p cause classes with
      noc := { (s.fenceFor p cause classes).noc with fences := s.noc.fences, ctl := s.noc.ctl, nets := s.noc.nets } } = s :=
  (s.fenceFor_spec p cause classes).2.2

/-- Fences for one cause at several blocks: the cause stands at each of them. -/
theorem State.each_fenceFor_causes {cause classes : Nat} (page : Nat → Nat) (l : List Nat) (s : State) :
    ∀ q, ((cause, classes) ∈ (s.fence q).causes ∨ ∃ j ∈ l, q = page j) →
      (cause, classes) ∈ ((s.each l fun s j => s.fenceFor (page j) cause classes).fence q).causes := by
  induction l generalizing s with
  | nil => exact fun q hq => hq.elim id fun ⟨_, hj, _⟩ => absurd hj List.not_mem_nil
  | cons a l ih =>
    intro q hq
    refine ih (s.fenceFor (page a) cause classes) q ?_
    obtain ⟨htakes, hother, -⟩ := s.fenceFor_spec (page a) cause classes
    by_cases hqa : q = page a
    · exact .inl (hqa ▸ htakes)
    · rcases hq with hq | ⟨j, hj, hqj⟩
      · exact .inl (by rwa [hother q hqa])
      · rcases List.mem_cons.1 hj with rfl | hj
        · exact absurd hqj hqa
        · exact .inr ⟨j, hj, hqj⟩

/-! ### A slice lost (R369) -/

/-- The tally's entries, the device's ID, and what the winder and the takeovers hold of the cores are as they were. -/
structure SliceKept (s t : State) : Prop where
  entries : t.tally.entries = s.tally.entries
  devId : t.edge.devId = s.edge.devId
  permanent : ∀ c, (t.core c).permanent = (s.core c).permanent
  host : ∀ c, (t.core c).host = (s.core c).host

theorem SliceKept.refl (s : State) : SliceKept s s := ⟨rfl, rfl, fun _ => rfl, fun _ => rfl⟩

theorem SliceKept.trans {s t u : State} (h : SliceKept s t) (h' : SliceKept t u) : SliceKept s u :=
  ⟨h'.entries.trans h.entries, h'.devId.trans h.devId, fun c => (h'.permanent c).trans (h.permanent c),
    fun c => (h'.host c).trans (h.host c)⟩

theorem SliceKept.of_cores {s t : State} (hentries : t.tally.entries = s.tally.entries) (hdev : t.edge.devId = s.edge.devId)
    (hcores : t.cores = s.cores) : SliceKept s t := by
  have hcore (c : Nat) : t.core c = s.core c := by rw [State.core, hcores, State.core]
  exact ⟨hentries, hdev, fun c => congrArg Core.permanent (hcore c), fun c => congrArg Core.host (hcore c)⟩

theorem State.fenceFor_sliceKept (s : State) (p cause classes : Nat) : SliceKept s (s.fenceFor p cause classes) := by
  have h := s.fenceFor_frame p cause classes
  have hentries := congrArg (fun t : State => t.tally.entries) h
  have hdev := congrArg (fun t : State => t.edge.devId) h
  have hcores := congrArg State.cores h
  exact .of_cores hentries hdev hcores

theorem SliceKept.updCore (s : State) (c : Nat) {f : Core → Core} (hperm : ∀ x, (f x).permanent = x.permanent)
    (hhost : ∀ x, (f x).host = x.host) : SliceKept s (s.updCore c f) := by
  have hcore (j : Nat) : ((s.updCore c f).core j).permanent = (s.core j).permanent ∧ ((s.updCore c f).core j).host = (s.core j).host := by
    by_cases hj : j = c
    · subst hj
      rw [State.core_updCore_same]
      exact ⟨hperm _, hhost _⟩
    · rw [s.core_updCore_other _ hj]
      exact ⟨rfl, rfl⟩
  exact ⟨congrArg Tally.entries (s.updCore_tally c f), congrArg Edge.devId (s.updCore_edge c f), fun j => (hcore j).1, fun j => (hcore j).2⟩

/-- A step's fault leaves the fences, and of the cores only what the step had there. -/
theorem State.stepFault_sliceKept (s : State) (c id index cause : Nat) :
    SliceKept s (s.stepFault c id index cause) ∧ (s.stepFault c id index cause).noc.fences = s.noc.fences := by
  unfold State.stepFault State.dropStepOn
  extract_lets stream u v
  have hu : SliceKept s u := .of_cores (congrArg Tally.entries (s.wr_tally ..)) (congrArg Edge.devId (s.wr_edge ..)) (s.wr_cores ..)
  have hdrop : SliceKept u (u.updCore c fun t => t.dropStep id) := .updCore u c (fun _ => rfl) fun _ => rfl
  have hheld : SliceKept (u.updCore c fun t => t.dropStep id) ((u.updCore c fun t => t.dropStep id).dropHeld c id) :=
    .of_cores rfl rfl rfl
  have hv : SliceKept ((u.updCore c fun t => t.dropStep id).dropHeld c id) v := .updCore _ c (fun _ => rfl) fun _ => rfl
  have hnotify (n : Notice) : SliceKept v (v.notify n) := .of_cores rfl rfl rfl
  exact ⟨(((hu.trans hdrop).trans hheld).trans hv).trans (hnotify _), rfl⟩

theorem State.faultTokens_sliceKept (s : State) (r : Nat) :
    SliceKept s (s.faultTokens r) ∧ (s.faultTokens r).noc.fences = s.noc.fences := by
  unfold State.faultTokens
  refine State.each_rel (R := fun s t => SliceKept s t ∧ t.noc.fences = s.noc.fences) (fun s => ⟨.refl s, rfl⟩)
    (fun _ _ _ h h' => ⟨h.1.trans h'.1, h'.2.trans h.2⟩) (fun s c => ?_) s _
  exact State.each_rel (R := fun s t => SliceKept s t ∧ t.noc.fences = s.noc.fences) (fun s => ⟨.refl s, rfl⟩)
    (fun _ _ _ h h' => ⟨h.1.trans h'.1, h'.2.trans h.2⟩) (fun s _ => s.stepFault_sliceKept ..) s _

theorem State.mem_sliceHold_holdShard (s : State) (d : Nat) : d ∈ (s.holdShard d).wnd.sliceHold := by
  unfold State.holdShard
  split
  · next h => exact List.contains_iff_mem.1 h
  · exact List.mem_append_right _ List.mem_cons_self

theorem State.holdShard_frame (s : State) (d : Nat) :
    { s.holdShard d with wnd := { (s.holdShard d).wnd with sliceHold := s.wnd.sliceHold } } = s := by
  unfold State.holdShard
  split
  · rfl
  · rfl

/-- The job's tokens are held, and the slice is marked lost. -/
def State.shardLost (s : State) : State := { s with tally := { s.tally with lost := true } }.holdShard s.edge.devId

theorem State.shardLost_spec (s : State) :
    s.edge.devId ∈ s.shardLost.wnd.sliceHold ∧ s.shardLost.noc.fences = s.noc.fences ∧ SliceKept s s.shardLost := by
  have hframe := State.holdShard_frame { s with tally := { s.tally with lost := true } } s.edge.devId
  have hentries := congrArg (fun t : State => t.tally.entries) hframe
  have hdev := congrArg (fun t : State => t.edge.devId) hframe
  have hcores := congrArg State.cores hframe
  have hfences := congrArg (fun t : State => t.noc.fences) hframe
  exact ⟨State.mem_sliceHold_holdShard .., hfences, .of_cores hentries hdev hcores⟩

/-- The stopes of a region, fenced for a lost slice. -/
def State.sliceFenced (s : State) (r : Nat) : State := s.each (s.sliceStopes r) fun s j => s.fenceFor (shellPage j) 5 15

theorem State.sliceLost_eq (s : State) (r unit : Nat) :
    s.sliceLost r unit = (((s.sliceFenced r).faultTokens r).report causeSliceLost unit 0 epHeadframe none).shardLost := by
  simp only [State.sliceLost, State.shardLost, State.sliceFenced]

/-- SLICE_LOST fences every stope of the region and holds this device's shard. -/
theorem State.sliceLost_spec (s : State) (r unit : Nat) :
    (∀ j ∈ s.sliceStopes r, (5, 15) ∈ ((s.sliceLost r unit).fence (shellPage j)).causes) ∧
      s.edge.devId ∈ (s.sliceLost r unit).wnd.sliceHold ∧ SliceKept s (s.sliceLost r unit) := by
  have hfenced : SliceKept s (s.sliceFenced r) :=
    State.each_rel (R := SliceKept) .refl (fun _ _ _ => .trans) (fun s j => s.fenceFor_sliceKept ..) s _
  obtain ⟨hfault, hfences⟩ := (s.sliceFenced r).faultTokens_sliceKept r
  generalize hv : ((s.sliceFenced r).faultTokens r).report causeSliceLost unit 0 epHeadframe none = v
  have hreport : SliceKept ((s.sliceFenced r).faultTokens r) v := by
    rw [← hv]
    exact .of_cores (State.report_entries ..) (State.report_devId ..) (State.report_cores ..)
  have hvfences : v.noc.fences = (s.sliceFenced r).noc.fences := by rw [← hv, State.report_fences, hfences]
  have hkept := (hfenced.trans hfault).trans hreport
  obtain ⟨hhold, hlost, hend⟩ := v.shardLost_spec
  rw [State.sliceLost_eq, hv]
  refine ⟨fun j hj => ?_, by rwa [hkept.devId] at hhold, hkept.trans hend⟩
  rw [State.fence, hlost, hvfences]
  exact State.each_fenceFor_causes shellPage (s.sliceStopes r) s _ (.inr ⟨j, hj, rfl⟩)

end Sys2Proof.Machine

namespace Sys2Proof.Machine

/-! ## O43: localisation, SUSPECT seams and standbys (R112, R336 to R339, R342, R356, R369, R375) -/

/-! ### A unit's entry in the tally -/

theorem find?_putEntry_other (e : TallyEntry) (l : List TallyEntry) {u : Nat} (h : u ≠ e.unit) :
    (putEntry e l).find? (fun x => x.unit == u) = l.find? fun x => x.unit == u := by
  have hne : (e.unit == u) = false := by simpa using h.symm
  induction l with
  | nil => simp [putEntry, hne]
  | cons x l ih =>
    unfold putEntry
    split
    · next hx => simp [hne, hx]
    · simp [List.find?_cons, ih]

theorem length_putEntry_le (e : TallyEntry) (l : List TallyEntry) : (putEntry e l).length ≤ l.length + 1 := by
  induction l with
  | nil => simp [putEntry]
  | cons x l ih =>
    unfold putEntry
    split
    · simp
    · simpa using ih

/-- A unit that has an entry has no second one. -/
theorem length_putEntry_of_find? {e : TallyEntry} {l : List TallyEntry} (h : (l.find? fun x => x.unit == e.unit).isSome = true) :
    (putEntry e l).length = l.length := by
  induction l with
  | nil => simp at h
  | cons x l ih =>
    unfold putEntry
    split
    · rfl
    · next hx => 
      have hbeq : (x.unit == e.unit) = false := by simpa using hx
      rw [List.find?_cons, hbeq] at h
      simp [ih h]

/-- Nothing but the tally's pending entries moved, and its count of coalesced events; of the entries only one unit's. -/
structure UnitTallied (s t : State) (unit : Nat) : Prop where
  regs : RegsKept s t [tallyCoalescedCount]
  others : ∀ u, u ≠ unit → t.tallyEntry u = s.tallyEntry u
  frame : { t with regs := s.regs, tally := s.tally } = s

theorem UnitTallied.refl (s : State) (unit : Nat) : UnitTallied s s unit := ⟨fun _ _ => rfl, fun _ _ => rfl, rfl⟩

theorem UnitTallied.trans {s t u : State} {unit : Nat} (h : UnitTallied s t unit) (h' : UnitTallied t u unit) : UnitTallied s u unit :=
  ⟨fun o ho => (h'.regs o ho).trans (h.regs o ho), fun v hv => (h'.others v hv).trans (h.others v hv),
    (congrArg (fun x : State => { x with regs := s.regs, tally := s.tally }) h'.frame).trans h.frame⟩

theorem State.putTally_tallied (s : State) {e : TallyEntry} {unit : Nat} (he : e.unit = unit) : UnitTallied s (s.putTally e) unit :=
  ⟨fun _ _ => rfl, fun _ hu => find?_putEntry_other e _ (he ▸ hu), rfl⟩

theorem State.inc_coalesced_tallied (s : State) (n unit : Nat) : UnitTallied s (s.inc tallyCoalescedCount n) unit :=
  ⟨fun _ ho => s.rd_inc_other n fun e => ho (by simp [e]), fun u _ => State.tallyEntry_congr (congrArg Tally.entries (s.inc_tally ..)) u, rfl⟩

/-! ### An assay that failed twice makes its unit permanent (R356, R357, R363) -/

/-- The units that failing columns among a stope's macros can charge: number `m` itself, or one of its ADCs. -/
def Charges (i m u : Nat) : Prop := u = unitMacro i m ∨ ∃ j < 128, u = unitAdc i m j

/-- The low nine bits of such a unit are the number within the stope. -/
theorem Charges.mod {i m u : Nat} (h : Charges i m u) (hm : m < 512) : u % 512 = m := by
  rcases h with rfl | ⟨j, hj, rfl⟩
  · simp only [unitMacro]
    omega
  · simp only [unitAdc]
    omega

theorem Charges.unitType {i m u : Nat} (h : Charges i m u) (hi : i < 256) (hm : m < 512) : unitType u = 1 ∨ unitType u = 2 := by
  rcases h with rfl | ⟨j, hj, rfl⟩
  · left
    simp only [Machine.unitType, bitsOf, unitMacro]
    omega
  · right
    simp only [Machine.unitType, bitsOf, unitAdc]
    omega

theorem State.permanentEffect_charges (s : State) {i m u : Nat} (h : Charges i m u) (hi : i < 256) (hm : m < 512) :
    s.permanentEffect u = s := by
  rcases h.unitType hi hm with ht | ht
  · simp [State.permanentEffect, ht]
  · simp [State.permanentEffect, ht]

theorem declarable_charges {i m u : Nat} (h : Charges i m u) (hi : i < 256) (hm : m < 512) : declarable u = true := by
  rcases h.unitType hi hm with ht | ht
  · simp [declarable, ht]
  · simp [declarable, ht]

theorem State.macroDead_iff (s : State) (i m : Nat) : s.macroDead i m = true ↔ ∃ u, Charges i m u ∧ s.isPermanent u = true := by
  simp only [State.macroDead, Bool.or_eq_true, List.any_eq_true, List.mem_range, Charges]
  constructor
  · rintro (h | ⟨j, hj, h⟩)
    · exact ⟨_, .inl rfl, h⟩
    · exact ⟨_, .inr ⟨j, hj, rfl⟩, h⟩
  · rintro ⟨u, rfl | ⟨j, hj, rfl⟩, h⟩
    · exact .inl h
    · exact .inr ⟨j, hj, h⟩

theorem State.isPermanent_congr {s t : State} {u : Nat} (h : t.tallyEntry u = s.tallyEntry u) : t.isPermanent u = s.isPermanent u := by
  rw [State.isPermanent, h, State.isPermanent]

/-- Where no unit of number `m` has changed, it is as dead as it was. -/
theorem State.macroDead_congr {s t : State} {i m : Nat} (h : ∀ u, Charges i m u → t.tallyEntry u = s.tallyEntry u) :
    t.macroDead i m = s.macroDead i m := by
  rw [Bool.eq_iff_iff, State.macroDead_iff, State.macroDead_iff]
  exact exists_congr fun u => and_congr_right fun hu => by rw [State.isPermanent_congr (h u hu)]

/-- The event of `countAt`, before its unit is judged permanent: the unit has its entry. -/
theorem State.countAt_again {s : State} {unit : Nat} {x : Nat × Nat × Nat} {cause detail : Nat} (hdecl : declarable unit = true)
    (hroom : s.tally.entries.length < tallyCap) :
    ∃ v, s.countAt x unit cause detail true = v.declarePermanent unit ∧ UnitTallied s v unit ∧ (∃ e, v.tallyEntry unit = some e) ∧
      v.tally.entries.length ≤ s.tally.entries.length + 1 := by
  cases he : s.tallyEntry unit with
  | none =>
    have hentry : (s.putTally (TallyEntry.first unit cause detail x)).tallyEntry unit = some (TallyEntry.first unit cause detail x) :=
      s.tallyEntry_putTally rfl
    refine ⟨_, ?_, s.putTally_tallied (e := TallyEntry.first unit cause detail x) rfl, ⟨_, hentry⟩, length_putEntry_le ..⟩
    simp only [State.countAt, he, if_pos hroom, hentry, hdecl, Bool.or_true, Bool.and_true, if_true]
  | some e =>
    have hunit := State.unit_of_tallyEntry he
    have hsame (e' : TallyEntry) (he' : e'.unit = unit) : (s.putTally e').tally.entries.length = s.tally.entries.length :=
      length_putEntry_of_find? (by rw [he']; exact Option.isSome_iff_exists.2 ⟨e, he⟩)
    by_cases hsec : e.times.contains (x.1 / secNs) = true
    · have hnote : (e.noteLast cause detail x).unit = unit := by
        unfold TallyEntry.noteLast
        split <;> exact hunit
      have hentry : ((s.putTally (e.noteLast cause detail x)).inc tallyCoalescedCount 1).tallyEntry unit = some (e.noteLast cause detail x) :=
        (State.tallyEntry_congr (congrArg Tally.entries (State.inc_tally ..)) unit).trans (s.tallyEntry_putTally hnote)
      refine ⟨_, ?_, (s.putTally_tallied hnote).trans (State.inc_coalesced_tallied _ 1 unit), ⟨_, hentry⟩, ?_⟩
      · simp only [State.countAt, he, hsec, hentry, hdecl, Bool.or_true, Bool.and_true, if_true]
      · rw [State.inc_tally, hsame _ hnote]
        omega
    · have hevent : (e.event cause detail x).unit = unit := (e.event_unit ..).trans hunit
      have hentry := s.tallyEntry_putTally hevent
      refine ⟨_, ?_, s.putTally_tallied hevent, ⟨_, hentry⟩, ?_⟩
      · simp only [State.countAt, he, hsec, Bool.false_eq_true, if_false, hentry, hdecl, Bool.or_true, Bool.and_true, if_true]
      · rw [hsame _ hevent]
        omega

/-- A unit with an entry and no effect on a block of its own becomes permanent in the tally alone. -/
theorem State.declarePermanent_spec {s : State} {unit : Nat} {e : TallyEntry} (he : s.tallyEntry unit = some e)
    (heffect : ∀ t : State, t.permanentEffect unit = t) :
    (s.declarePermanent unit).isPermanent unit = true ∧ UnitTallied s (s.declarePermanent unit) unit ∧
      (s.declarePermanent unit).tally.entries.length = s.tally.entries.length := by
  by_cases hstate : e.state = 2
  · have hself : s.declarePermanent unit = s := by simp [State.declarePermanent, he, hstate]
    rw [hself]
    exact ⟨by rw [State.isPermanent_of_tallyEntry he, hstate]; rfl, .refl s unit, rfl⟩
  · have hunit := State.unit_of_tallyEntry he
    have hput : s.declarePermanent unit = s.putTally { e with state := 2, permTime := s.sec } := by
      simp [State.declarePermanent, he, hstate, heffect]
    have hentry : (s.putTally { e with state := 2, permTime := s.sec }).tallyEntry unit = some { e with state := 2, permTime := s.sec } :=
      s.tallyEntry_putTally hunit
    rw [hput]
    exact ⟨State.isPermanent_of_tallyEntry hentry, s.putTally_tallied hunit,
      length_putEntry_of_find? (by rw [hunit]; exact Option.isSome_iff_exists.2 ⟨e, he⟩)⟩

/-- An assay that failed again after its retry makes the unit that it charges permanent, and no other unit's entry changes. -/
theorem State.countEvent_again {s : State} {i m u cause detail : Nat} (hu : Charges i m u) (hi : i < 256) (hm : m < 512)
    (hroom : s.tally.entries.length < tallyCap) :
    (s.countEvent u cause detail true).isPermanent u = true ∧ UnitTallied s (s.countEvent u cause detail true) u ∧
      (s.countEvent u cause detail true).tally.entries.length ≤ s.tally.entries.length + 1 := by
  obtain ⟨v, hv, htallied, ⟨e, he⟩, hlen⟩ := State.countAt_again (x := (s.now, s.sourceId epHeadframe, 0)) (cause := cause) (detail := detail)
    (declarable_charges hu hi hm) hroom
  obtain ⟨hperm, htallied', hlen'⟩ := State.declarePermanent_spec he fun t => t.permanentEffect_charges hu hi hm
  rw [State.countEvent, hv]
  exact ⟨hperm, htallied.trans htallied', by omega⟩

/-- The units that the failing columns of number `m` charge. -/
def columnUnits (i m : Nat) (cols : List Nat) : List Nat :=
  if cols.isEmpty then [unitMacro i m] else chargedUnits i (cols.map fun c => 256 * m + c % 256)

/-- The failing columns of number `m` charge one unit: the whole of it, or the ADC that all of them share. -/
theorem columnUnits_eq (i m : Nat) (cols : List Nat) : ∃ u, columnUnits i m cols = [u] ∧ Charges i m u := by
  cases cols with
  | nil => exact ⟨_, rfl, .inl rfl⟩
  | cons c cols =>
    have hmac (c : Nat) : (256 * m + c % 256) / 256 = m := by omega
    have hcol (c : Nat) : (256 * m + c % 256) % 256 = c % 256 := by omega
    have hmacs : (((c :: cols).map fun c => 256 * m + c % 256).map (· / 256)).dedup = [m] := by
      have hrep : ((c :: cols).map fun c => 256 * m + c % 256).map (· / 256) = List.replicate (cols.length + 1) m := by
        simp [hmac, List.replicate_succ, Function.comp_def]
      rw [hrep, List.replicate_dedup (by omega)]
    have hcols : (((c :: cols).map fun c => 256 * m + c % 256).filter fun x => x / 256 == m).map (fun x => x % 256) =
        (c % 256) :: cols.map (· % 256) := by
      simp [List.filter_map, hmac, hcol, Function.comp_def]
    have hunits : columnUnits i m (c :: cols) =
        [if (cols.map (· % 256)).all (fun x => x / 2 == c % 256 / 2) then unitAdc i m (c % 256 / 2) else unitMacro i m] := by
      rw [columnUnits, if_neg (by simp), chargedUnits, hmacs, List.map_singleton]
      dsimp only
      rw [hcols]
    refine ⟨_, hunits, ?_⟩
    split
    · exact .inr ⟨_, by omega, rfl⟩
    · exact .inl rfl

/-! ### What a judged assay leaves (R356, R357) -/

/-- The counters that a failed assay may advance. -/
def judgeCounters : List Nat := assayFailCount :: tallyCoalescedCount :: reportCounters

/-- The stopes and the device's ID are as they were, and of the registers only counters moved. -/
structure AssayJudged (s t : State) : Prop where
  regs : RegsKept s t judgeCounters
  stopes : t.stopes = s.stopes
  devId : t.edge.devId = s.edge.devId

theorem AssayJudged.trans {s t u : State} (h : AssayJudged s t) (h' : AssayJudged t u) : AssayJudged s u :=
  ⟨fun o ho => (h'.regs o ho).trans (h.regs o ho), h'.stopes.trans h.stopes, h'.devId.trans h.devId⟩

theorem AssayJudged.stope {s t : State} (h : AssayJudged s t) (i : Nat) : t.stope i = s.stope i := by rw [State.stope, h.stopes, State.stope]

/-- An assay that failed twice is charged, counted and reported. -/
def State.failReported (s : State) (u col : Nat) : State :=
  ((s.charge enCheck s.slotCharge).inc assayFailCount 2).report causeAssayFail u col epWinder none

theorem State.failReported_spec (s : State) (u col : Nat) :
    RegsKept s (s.failReported u col) (assayFailCount :: reportCounters) ∧ (s.failReported u col).rd assayFailCount = s.rd assayFailCount + 2 ∧
      (s.failReported u col).tally.entries = s.tally.entries ∧ (s.failReported u col).stopes = s.stopes ∧
      (s.failReported u col).edge.devId = s.edge.devId := by
  unfold State.failReported
  refine ⟨fun o ho => ?_, ?_, ?_, ?_, ?_⟩
  · simp only [List.mem_cons, not_or] at ho
    rw [State.report_regs _ _ _ _ _ _ o ho.2, State.rd_inc_other _ _ ho.1]
    rfl
  · rw [State.report_regs _ _ _ _ _ _ _ (by decide), State.rd_inc_same]
    rfl
  · rw [State.report_entries, State.inc_tally]
    rfl
  · rw [State.report_stopes, State.inc_stopes]
    rfl
  · rw [State.report_devId, State.inc_edge]
    rfl

/-- What an assay that failed twice does: the failures are counted, the unit charged is permanent, and no other unit's entry changes. -/
theorem State.localResult_twice {s : State} {i m : Nat} {cols : List Nat} (hi : i < 256) (hm : m < 64) (hphys : (s.stope i).phys m = m)
    (hroom : s.tally.entries.length < tallyCap) :
    ∃ u, columnUnits i m cols = [u] ∧ Charges i m u ∧ (s.localResult i (m, 2, cols)).isPermanent u = true ∧
      (∀ v, v ≠ u → (s.localResult i (m, 2, cols)).tallyEntry v = s.tallyEntry v) ∧
      (s.localResult i (m, 2, cols)).tally.entries.length ≤ s.tally.entries.length + 1 ∧ AssayJudged s (s.localResult i (m, 2, cols)) ∧
      (s.localResult i (m, 2, cols)).rd assayFailCount = s.rd assayFailCount + 2 := by
  obtain ⟨u, hunits, hu⟩ := columnUnits_eq i m cols
  refine ⟨u, hunits, hu, ?_⟩
  have hw : s.localResult i (m, 2, cols) = (s.failReported u (cols.headD 0)).countEvent u causeAssayFail (cols.headD 0) true := by
    unfold columnUnits at hunits
    simp only [State.localResult, hphys, hunits, State.each, List.foldl_cons, List.foldl_nil, List.headD_cons, State.failReported]
  obtain ⟨hregs, hfails, hwentries, hstopes, hdev⟩ := s.failReported_spec u (cols.headD 0)
  rw [hw]
  generalize s.failReported u (cols.headD 0) = w at *
  obtain ⟨hperm, htallied, hlen⟩ :=
    State.countEvent_again (s := w) (cause := causeAssayFail) (detail := cols.headD 0) hu hi (by omega) (by rwa [hwentries])
  have hcstopes := congrArg State.stopes htallied.frame
  have hcdev := congrArg (fun t : State => t.edge.devId) htallied.frame
  refine ⟨hperm, fun v hv => (htallied.others v hv).trans (State.tallyEntry_congr hwentries v), by rwa [hwentries] at hlen,
    ⟨fun o ho => ?_, hcstopes.trans hstopes, hcdev.trans hdev⟩, (htallied.regs _ (by decide)).trans hfails⟩
  simp only [judgeCounters, List.mem_cons, not_or] at ho
  obtain ⟨hfail, hcoalesced, hreport⟩ := ho
  rw [htallied.regs o (by simpa using hcoalesced), hregs o (by simpa using ⟨hfail, hreport⟩)]

end Sys2Proof.Machine

namespace Sys2Proof.Machine

/-! ### A localisation, in its parts (R336 to R338, R346) -/

/-- The results of a localisation that count: those of macros that convert. -/
def State.counted (s : State) (i k : Nat) (rs : List (Nat × Nat × List Nat)) : List (Nat × Nat × List Nat) :=
  rs.filter fun r => ((s.stope i).converting k).contains r.1

/-- The machine once every result has been judged. -/
def State.allJudged (s : State) (i : Nat) (rs : List (Nat × Nat × List Nat)) : State := s.each rs fun s r => s.localResult i r

/-- The macros of some results that became permanent from one state to another. -/
def newlyDead (s t : State) (i : Nat) (rs : List (Nat × Nat × List Nat)) : List Nat :=
  (rs.map (·.1)).filter fun m => t.macroDead i ((t.stope i).phys m) && !(s.macroDead i ((s.stope i).phys m))

/-- The seam is checked again and its launches go on; a sound seam has one last re-run. -/
def Seam.released (sound : Bool) (g : Seam) : Seam := { g with mode := .checked, holdLaunches := false, finalRerun := sound }

/-- No pass of the seam stands as failed. -/
def Seam.unfailed (g : Seam) : Seam := { g with failed := none }

/-- The seam is released, and the banks of the dead macros are judged. -/
def State.seamReleased (s : State) (i k : Nat) (dead : List Nat) : State :=
  (s.updStope i fun t => t.updSeam k (Seam.released dead.isEmpty)).each dead fun s m =>
    s.suspectBank i ((s.stope i).phys m) (s.stope i).bank

/-- What the number of dead macros of a seam leads to. -/
def State.deadFollowed (s : State) (i k : Nat) (dead : List Nat) : State :=
  match dead with
  | [] => s
  | [m] => (s.updStope i fun t => t.updSeam k Seam.unfailed).macroLost i ((s.stope i).phys m)
  | _ => s.sliceLost ((s.stopeRegion i).getD 0) (unitSeam i k)

theorem exec_localise {s : State} {i k : Nat} {rs : List (Nat × Nat × List Nat)} (hmode : ((s.stope i).seam k).mode = .localising)
    {t : State} {dead : List Nat} (ht : s.allJudged i (s.counted i k rs) = t) (hdead : newlyDead s t i (s.counted i k rs) = dead) :
    exec (.localise i k rs) s = .next ((t.seamReleased i k dead).deadFollowed i k dead) := by
  subst ht hdead
  exact congrArg Host.Outcome.next (if_neg (by simp [hmode]))

/-! ### All macros pass (R338) -/

theorem State.rd64_lt (s : State) (o : Nat) : s.rd64 o < 2 ^ 64 := by
  have hlo := (s.rd o).isLt
  have hhi := (s.rd (o + 4)).isLt
  simp only [State.rd64]
  omega

/-- Some assays passed: each is charged and counted, and nothing else moved. -/
structure AssaysPassed (s t : State) (n : Nat) : Prop where
  count : t.rd64 assayPassCountLo = (s.rd64 assayPassCountLo + n) % 2 ^ 64
  regs : RegsKept s t [assayPassCountLo, assayPassCountLo + 4]
  frame : { t with regs := s.regs, hf := { t.hf with spent := s.hf.spent, charged := s.hf.charged } } = s

theorem AssaysPassed.none (s : State) : AssaysPassed s s 0 :=
  ⟨by rw [Nat.add_zero, Nat.mod_eq_of_lt (s.rd64_lt _)], fun _ _ => rfl, rfl⟩

theorem AssaysPassed.trans {s t u : State} {a b : Nat} (h : AssaysPassed s t a) (h' : AssaysPassed t u b) : AssaysPassed s u (a + b) := by
  refine ⟨?_, fun o ho => (h'.regs o ho).trans (h.regs o ho), ?_⟩
  · rw [h'.count, h.count, Nat.mod_add_mod, Nat.add_assoc]
  · exact (congrArg (fun x : State => { x with regs := s.regs, hf := { x.hf with spent := s.hf.spent, charged := s.hf.charged } }) h'.frame).trans
      h.frame

theorem State.localResult_pass (s : State) (i : Nat) {r : Nat × Nat × List Nat} (h : r.2.1 = 0) :
    s.localResult i r = (s.charge enCheck s.slotCharge).inc64 assayPassCountLo 1 := by
  simp only [State.localResult, h]

theorem State.localResult_passed (s : State) (i : Nat) {r : Nat × Nat × List Nat} (h : r.2.1 = 0) : AssaysPassed s (s.localResult i r) 1 := by
  rw [s.localResult_pass i h]
  refine ⟨State.rd64_inc64 .., fun o ho => ?_, ?_⟩
  · simp only [List.mem_cons, List.not_mem_nil, or_false, not_or] at ho
    exact State.rd_inc64_other _ _ ho.1 ho.2
  · exact congrArg (fun x : State => { x with hf := { x.hf with spent := s.hf.spent, charged := s.hf.charged } })
      (State.inc64_with_regs (s.charge enCheck s.slotCharge) assayPassCountLo 1 s.regs)

theorem State.allJudged_passed {i : Nat} (rs : List (Nat × Nat × List Nat)) (s : State) (h : ∀ r ∈ rs, r.2.1 = 0) :
    AssaysPassed s (s.allJudged i rs) rs.length := by
  induction rs generalizing s with
  | nil => exact .none s
  | cons r rs ih =>
    obtain ⟨hr, hrs⟩ := List.forall_mem_cons.1 h
    rw [List.length_cons, Nat.add_comm]
    exact (s.localResult_passed i hr).trans (ih _ hrs)

/-- No macros have died where the tally's entries and the stopes are as they were. -/
theorem newlyDead_eq_nil {s t : State} (i : Nat) (rs : List (Nat × Nat × List Nat)) (htally : t.tally = s.tally) (hstope : t.stope i = s.stope i) :
    newlyDead s t i rs = [] := by
  have hdead (m : Nat) : t.macroDead i m = s.macroDead i m :=
    State.macroDead_congr fun u _ => State.tallyEntry_congr (congrArg Tally.entries htally) u
  simp [newlyDead, hstope, hdead]

theorem State.counted_eq (s : State) (i k : Nat) (rs : List (Nat × Nat × List Nat)) :
    s.counted i k rs = rs.filter fun r => decide (r.1 ∈ (s.stope i).converting k) := by
  simp [State.counted]

theorem localise_passes {s : State} {i k : Nat} {rs : List (Nat × Nat × List Nat)} (hk : k < 4) (hlen : (s.stope i).seams.length = 4)
    (hmode : ((s.stope i).seam k).mode = .localising) (hpass : ∀ r ∈ rs, r.1 ∈ (s.stope i).converting k → r.2.1 = 0) :
    Gives (.localise i k rs) s fun t =>
      (t.stope i).seam k = { (s.stope i).seam k with mode := .checked, holdLaunches := false, finalRerun := true } ∧
      (∀ j, j ≠ k → (t.stope i).seam j = (s.stope i).seam j) ∧
      t.rd64 assayPassCountLo = (s.rd64 assayPassCountLo + (rs.filter fun r => decide (r.1 ∈ (s.stope i).converting k)).length) % 2 ^ 64 ∧
      RegsKept s t [assayPassCountLo, assayPassCountLo + 4] ∧ { t.stope i with seams := (s.stope i).seams } = s.stope i ∧
      (∀ j, j ≠ i → t.stope j = s.stope j) ∧
      { t with regs := s.regs, stopes := s.stopes, hf := { t.hf with spent := s.hf.spent, charged := s.hf.charged } } = s := by
  have hall : ∀ r ∈ s.counted i k rs, r.2.1 = 0 := fun r hr => by
    obtain ⟨hmem, hconv⟩ := List.mem_filter.1 hr
    exact hpass r hmem (List.contains_iff_mem.1 hconv)
  have hpassed := State.allJudged_passed (i := i) (s.counted i k rs) s hall
  rw [← s.counted_eq]
  generalize ht : s.allJudged i (s.counted i k rs) = t at hpassed
  obtain ⟨hcount, hregs, hframe⟩ := hpassed
  have htally := congrArg State.tally hframe
  have hstopes := congrArg State.stopes hframe
  have hstope (j : Nat) : t.stope j = s.stope j := congrArg (fun x => Table.get Stope.reset x j) hstopes
  have hexec : exec (.localise i k rs) s = .next (t.updStope i fun x => x.updSeam k (Seam.released true)) :=
    exec_localise hmode ht (newlyDead_eq_nil i _ htally (hstope i))
  refine ⟨_, hexec, ?_, fun j hj => ?_, hcount, hregs, ?_, fun j hj => ?_, ?_⟩
  · rw [State.stope_updStope_same, hstope, Stope.seam_updSeam, if_pos ⟨rfl, by omega⟩]
    rfl
  · rw [State.stope_updStope_same, hstope, Stope.seam_updSeam, if_neg (fun e => hj e.1)]
  · rw [State.stope_updStope_same, hstope]
    rfl
  · rw [State.stope_updStope_other _ _ hj, hstope]
  · exact (congrArg (fun x : State => { x with stopes := s.stopes }) hframe).trans rfl

/-! ### Spares for permanent macros (R343 to R345) -/

/-- A spare that is assigned to a target, and holds nothing yet (R343). -/
def Spare.assigned (m : Nat) : Spare := { target := m, used := true, live := false, refresh := false, ready := [] }

/-- Beside the spares of one stope, only a refresh's means and what a report moves may differ. -/
structure SparesOnly (s t : State) (i : Nat) : Prop where
  others : ∀ j, j ≠ i → t.stope j = s.stope j
  stope : { t.stope i with spare72 := (s.stope i).spare72, spare73 := (s.stope i).spare73 } = s.stope i
  regs : RegsKept s t reportCounters
  entries : t.tally.entries = s.tally.entries

theorem State.dropRefreshSpare_frame (s : State) (i p : Nat) : { s.dropRefreshSpare i p with swap := s.swap } = s := by
  unfold State.dropRefreshSpare
  dsimp only
  split
  · rfl
  · refine State.each_rel (R := fun s t => { t with swap := s.swap } = s) (fun _ => rfl) (fun s t u h h' => ?_) (fun s b => ?_) s _
    · exact (congrArg (fun x : State => { x with swap := s.swap }) h').trans h
    · split
      · rfl
      · rfl

/-- A spare that has been taken over: its refresh, if any, goes on by another means. -/
def State.takeSpare (s : State) (i m p : Nat) : State :=
  (s.dropRefreshSpare i p).updStope i fun t => t.setSpare p (Spare.assigned m)

theorem State.takeSpare_stope (s : State) (i m p : Nat) : (s.takeSpare i m p).stope i = (s.stope i).setSpare p (Spare.assigned m) := by
  have hstopes := congrArg State.stopes (s.dropRefreshSpare_frame i p)
  have hstope : (s.dropRefreshSpare i p).stope i = s.stope i := congrArg (fun x => Table.get Stope.reset x i) hstopes
  rw [State.takeSpare, State.stope_updStope_same, hstope]

theorem State.takeSpare_only (s : State) (i m p : Nat) :
    (∀ j, j ≠ i → (s.takeSpare i m p).stope j = s.stope j) ∧ { s.takeSpare i m p with swap := s.swap, stopes := s.stopes } = s := by
  have hframe := s.dropRefreshSpare_frame i p
  have hstopes := congrArg State.stopes hframe
  refine ⟨fun j hj => ?_, congrArg (fun x : State => { x with stopes := s.stopes }) hframe⟩
  rw [State.takeSpare, State.stope_updStope_other _ _ hj]
  exact congrArg (fun x => Table.get Stope.reset x j) hstopes

theorem State.assignSpare_eq (s : State) (i m : Nat) :
    s.assignSpare i m =
      if [72, 73].any fun p => ((s.stope i).spare p).used && ((s.stope i).spare p).target == m && !((s.stope i).spare p).refresh then s
      else match s.freeSpare i true with
        | some p => s.takeSpare i m p
        | none => s.report causeSparesOut (unitMacro i m) 0 i none := rfl

theorem State.assignSpare_only (s : State) (i m : Nat) : SparesOnly s (s.assignSpare i m) i := by
  rw [State.assignSpare_eq]
  split
  · exact ⟨fun _ _ => rfl, rfl, fun _ _ => rfl, rfl⟩
  · split
    · next p _ =>
      obtain ⟨hothers, hframe⟩ := s.takeSpare_only i m p
      have hregs (o : Nat) := congrArg (fun t : State => t.rd o) hframe
      have hentries := congrArg (fun t : State => t.tally.entries) hframe
      refine ⟨hothers, ?_, fun o _ => hregs o, hentries⟩
      rw [s.takeSpare_stope, Stope.setSpare]
      split
      · rfl
      · rfl
    · have hstope (j : Nat) : (s.report causeSparesOut (unitMacro i m) 0 i none).stope j = s.stope j := by
        rw [State.stope, State.report_stopes, State.stope]
      exact ⟨fun j _ => hstope j, by rw [hstope], s.report_regs _ _ _ _ _, State.report_entries ..⟩

/-- Spare 72 is the first choice where it is free and sound (R343). -/
theorem State.assignSpare_first {s : State} {i m : Nat} (hfree : (s.stope i).spare72.used = false) (hsound : s.macroDead i 72 = false)
    (hnone : (s.stope i).spare73.used = true → (s.stope i).spare73.target ≠ m) : ((s.assignSpare i m).stope i).spare72 = Spare.assigned m := by
  have hunassigned : ([72, 73].any fun p => ((s.stope i).spare p).used && ((s.stope i).spare p).target == m && !((s.stope i).spare p).refresh) =
      false := by
    have h73 : ((s.stope i).spare73.used && (s.stope i).spare73.target == m) = false := by
      cases hused : (s.stope i).spare73.used with
      | false => rfl
      | true => simpa using hnone hused
    simp [Stope.spare, hfree, h73]
  have hspare : s.freeSpare i true = some 72 := by
    simp [State.freeSpare, Stope.spare, hfree, hsound]
  rw [State.assignSpare_eq, hunassigned, hspare]
  exact congrArg Stope.spare72 (s.takeSpare_stope i m 72)

/-! ### One of the macros is dead (R112, R336, R337, R346) -/

/-- A bank that was VALID is SUSPECT (R112). -/
def Stope.suspected (t : Stope) (m : Nat) (bank : Bool) : Stope := if t.bankState m bank == .valid then t.setBank m bank .suspect else t

theorem Stope.suspected_kept (t : Stope) (m : Nat) (bank : Bool) :
    (t.suspected m bank).seams = t.seams ∧ (t.suspected m bank).spare72 = t.spare72 ∧ (t.suspected m bank).spare73 = t.spare73 := by
  unfold Stope.suspected
  split
  · exact ⟨rfl, rfl, rfl⟩
  · exact ⟨rfl, rfl, rfl⟩

theorem Stope.bankState_suspected {t : Stope} {m : Nat} {bank : Bool} (h : t.bankState m bank = .valid) :
    (t.suspected m bank).bankState m bank = .suspect := by
  have hvalid : (t.bankState m bank == .valid) = true := by simp [h]
  rw [Stope.suspected, if_pos hvalid, Stope.setBank, Stope.bankState, Table.get_set_same]

theorem State.suspectBank_dead {s : State} {i m : Nat} {bank : Bool} (h : s.macroDead i m = true) :
    (s.suspectBank i m bank).stope i = (s.stope i).suspected m bank ∧ StopeOnly s (s.suspectBank i m bank) i := by
  simp only [State.suspectBank, h, Bool.true_and, Stope.suspected]
  split
  · exact ⟨State.stope_updStope_same .., StopeOnly.updStope ..⟩
  · exact ⟨rfl, fun _ _ => rfl, rfl⟩

/-- A seam reconstructs number `m` (R337). -/
def Seam.degraded (m : Nat) (g : Seam) : Seam := { g with mode := .recon, mac := m, mac2 := none, forRefresh := false }

/-- Where one of a checked seam's data macros is lost, the seam reconstructs it, and a spare is assigned. -/
theorem State.macroLost_checked {s : State} {i m k : Nat} (hm : m < 64) (hk : seamOf m = k) (hmode : ((s.stope i).seam k).mode = .checked) :
    s.macroLost i m =
      ((s.updStope i fun t => t.updSeam k (Seam.degraded m)).report causeReconEnter (unitMacro i m) k i none).assignSpare i m := by
  have h72 : m ≠ 72 := by omega
  have h73 : m ≠ 73 := by omega
  subst hk
  simp only [State.macroLost, Stope.logical, h72, h73, or_self, false_and, if_false, if_true, hmode, hm]
  rfl

/-- A stope of whose macros number `m` has died: seam `k` reconstructs it, and the bank in use is SUSPECT where it was VALID. -/
def Stope.loseMacro (t : Stope) (k m : Nat) : Stope :=
  (((t.updSeam k (Seam.released false)).suspected m t.bank).updSeam k Seam.unfailed).updSeam k (Seam.degraded m)

theorem Stope.seam_updSeam_same {t : Stope} {k : Nat} (f : Seam → Seam) (hk : k < t.seams.length) : (t.updSeam k f).seam k = f (t.seam k) := by
  rw [Stope.seam_updSeam, if_pos ⟨rfl, hk⟩]

theorem Stope.length_updSeam (t : Stope) (k : Nat) (f : Seam → Seam) : (t.updSeam k f).seams.length = t.seams.length := by
  simp [Stope.updSeam, setAt]

theorem Stope.seam_loseMacro {t : Stope} {k : Nat} (m : Nat) (hk : k < t.seams.length) :
    (t.loseMacro k m).seam k = Seam.degraded m (Seam.unfailed (Seam.released false (t.seam k))) := by
  obtain ⟨hseams, -, -⟩ := (t.updSeam k (Seam.released false)).suspected_kept m t.bank
  have hseam : ((t.updSeam k (Seam.released false)).suspected m t.bank).seam k = Seam.released false (t.seam k) := by
    rw [Stope.seam, hseams]
    exact Stope.seam_updSeam_same _ hk
  have hlen : k < ((t.updSeam k (Seam.released false)).suspected m t.bank).seams.length := by rwa [hseams, Stope.length_updSeam]
  rw [Stope.loseMacro, Stope.seam_updSeam_same _ (by rwa [Stope.length_updSeam]), Stope.seam_updSeam_same _ hlen, hseam]

theorem Stope.updSeam_bankState (t : Stope) (k m : Nat) (bank : Bool) (f : Seam → Seam) :
    (t.updSeam k f).bankState m bank = t.bankState m bank := rfl
theorem Stope.updSeam_spare72 (t : Stope) (k : Nat) (f : Seam → Seam) : (t.updSeam k f).spare72 = t.spare72 := rfl
theorem Stope.updSeam_spare73 (t : Stope) (k : Nat) (f : Seam → Seam) : (t.updSeam k f).spare73 = t.spare73 := rfl

theorem Stope.bankState_loseMacro {t : Stope} {k m : Nat} (h : t.bankState m t.bank = .valid) :
    (t.loseMacro k m).bankState m t.bank = .suspect := by
  rw [Stope.loseMacro, Stope.updSeam_bankState, Stope.updSeam_bankState, Stope.bankState_suspected (by rwa [Stope.updSeam_bankState])]

theorem Stope.spares_loseMacro (t : Stope) (k m : Nat) : (t.loseMacro k m).spare72 = t.spare72 ∧ (t.loseMacro k m).spare73 = t.spare73 := by
  obtain ⟨-, h72, h73⟩ := (t.updSeam k (Seam.released false)).suspected_kept m t.bank
  rw [Stope.loseMacro, Stope.updSeam_spare72, Stope.updSeam_spare72, h72, Stope.updSeam_spare73, Stope.updSeam_spare73, h73]
  exact ⟨rfl, rfl⟩

theorem Stope.phys_congr {t u : Stope} (h : u.spare72 = t.spare72 ∧ u.spare73 = t.spare73) (m : Nat) : u.phys m = t.phys m := by
  rw [Stope.phys, h.1, h.2, Stope.phys]

theorem StopeOnly.trans {s t u : State} {i : Nat} (h : StopeOnly s t i) (h' : StopeOnly t u i) : StopeOnly s u i :=
  ⟨fun j hj => (h'.1 j hj).trans (h.1 j hj), (congrArg (fun x : State => { x with stopes := s.stopes }) h'.2).trans h.2⟩

theorem State.seamReleased_one {t : State} {i k m : Nat} (hphys : (t.stope i).phys m = m) (hdead : t.macroDead i m = true) :
    (t.seamReleased i k [m]).stope i = ((t.stope i).updSeam k (Seam.released false)).suspected m (t.stope i).bank ∧
      StopeOnly t (t.seamReleased i k [m]) i := by
  have hstope : (t.updStope i fun x => x.updSeam k (Seam.released false)).stope i = (t.stope i).updSeam k (Seam.released false) :=
    State.stope_updStope_same ..
  have hdead' : (t.updStope i fun x => x.updSeam k (Seam.released false)).macroDead i m = true :=
    (State.macroDead_congr fun _ _ => rfl).trans hdead
  have hphys' : ((t.stope i).updSeam k (Seam.released false)).phys m = m := (Stope.phys_congr ⟨rfl, rfl⟩ m).trans hphys
  have heq : t.seamReleased i k [m] = (t.updStope i fun x => x.updSeam k (Seam.released false)).suspectBank i m (t.stope i).bank := by
    show State.suspectBank _ i (((t.updStope i fun x => x.updSeam k (Seam.released false)).stope i).phys m)
      ((t.updStope i fun x => x.updSeam k (Seam.released false)).stope i).bank = _
    rw [hstope, hphys']
    rfl
  obtain ⟨hsuspected, honly⟩ := State.suspectBank_dead (bank := (t.stope i).bank) hdead'
  rw [heq]
  exact ⟨by rw [hsuspected, hstope], (StopeOnly.updStope t i _).trans honly⟩

/-- What a localisation does that finds one of the data macros dead: the stope loses it, the loss is reported, and a spare is assigned. -/
theorem State.deadFollowed_one {t : State} {i k m : Nat} (hk : k < (t.stope i).seams.length) (hm : m < 64) (hseam : seamOf m = k)
    (hphys : (t.stope i).phys m = m) (hdead : t.macroDead i m = true) :
    ∃ w, (t.seamReleased i k [m]).deadFollowed i k [m] = (w.report causeReconEnter (unitMacro i m) k i none).assignSpare i m ∧
      w.stope i = (t.stope i).loseMacro k m ∧ StopeOnly t w i := by
  obtain ⟨hstope, honly⟩ := State.seamReleased_one (k := k) hphys hdead
  generalize t.seamReleased i k [m] = v at hstope honly
  obtain ⟨hseams, hspares⟩ := ((t.stope i).updSeam k (Seam.released false)).suspected_kept m (t.stope i).bank
  have hlen : k < (v.stope i).seams.length := by rwa [hstope, hseams, Stope.length_updSeam]
  have hvphys : (v.stope i).phys m = m := (congrArg (·.phys m) hstope).trans ((Stope.phys_congr hspares m).trans hphys)
  have hmode : (((v.updStope i fun x => x.updSeam k Seam.unfailed).stope i).seam k).mode = .checked := by
    rw [State.stope_updStope_same, Stope.seam_updSeam_same _ hlen, hstope, Stope.seam, hseams]
    show (((t.stope i).updSeam k (Seam.released false)).seam k).mode = .checked
    rw [Stope.seam_updSeam_same _ hk]
    rfl
  refine ⟨(v.updStope i fun x => x.updSeam k Seam.unfailed).updStope i fun x => x.updSeam k (Seam.degraded m), ?_, ?_,
    (honly.trans (StopeOnly.updStope v i _)).trans (StopeOnly.updStope _ i _)⟩
  · show State.macroLost _ i ((v.stope i).phys m) = _
    rw [hvphys]
    exact State.macroLost_checked hm hseam hmode
  · rw [State.stope_updStope_same, State.stope_updStope_same, hstope]
    rfl

theorem localise_one {s : State} {i k m : Nat} {cols : List Nat} (hi : i < 256) (hk : k < 4) (hm : m < 64) (hseam : seamOf m = k)
    (hlen : (s.stope i).seams.length = 4) (hmode : ((s.stope i).seam k).mode = .localising) (hconv : m ∈ (s.stope i).converting k)
    (hphys : (s.stope i).phys m = m) (halive : s.macroDead i m = false) (hroom : s.tally.entries.length < tallyCap) :
    Gives (.localise i k [(m, 2, cols)]) s fun t =>
      (∀ u ∈ (if cols.isEmpty then [unitMacro i m] else chargedUnits i (cols.map fun c => 256 * m + c % 256)), t.isPermanent u = true) ∧
      ((t.stope i).seam k).mode = .recon ∧ ((t.stope i).seam k).mac = m ∧
      ((t.stope i).seam k).holdLaunches = false ∧ t.rd assayFailCount = s.rd assayFailCount + 2 ∧
      ((s.stope i).bankState m (s.stope i).bank = .valid → (t.stope i).bankState m (s.stope i).bank = .suspect) ∧
      ((s.stope i).spare72.used = false → s.macroDead i 72 = false →
        ((s.stope i).spare73.used = true → (s.stope i).spare73.target ≠ m) →
        (t.stope i).spare72 = { target := m, used := true, live := false, refresh := false, ready := [] }) ∧
      ∀ j, j ≠ i → t.stope j = s.stope j := by
  have hcounted : s.counted i k [(m, 2, cols)] = [(m, 2, cols)] := by simp [State.counted, hconv]
  obtain ⟨u, hunits, hu, hperm, hothers, -, hjudged, hfails⟩ := State.localResult_twice (cols := cols) hi hm hphys hroom
  generalize ht : s.localResult i (m, 2, cols) = t at *
  have hstope := hjudged.stope i
  have htphys : (t.stope i).phys m = m := by rw [hstope, hphys]
  have hdead : t.macroDead i m = true := (t.macroDead_iff i m).2 ⟨u, hu, hperm⟩
  have hnewly : newlyDead s t i (s.counted i k [(m, 2, cols)]) = [m] := by simp [newlyDead, hcounted, htphys, hphys, hdead, halive]
  have hall : s.allJudged i (s.counted i k [(m, 2, cols)]) = t := by
    rw [hcounted]
    exact ht
  obtain ⟨w, hend, hwstope, hwothers, hwframe⟩ := State.deadFollowed_one (by rw [hstope]; omega) hm hseam htphys hdead
  have hexec := (exec_localise hmode hall hnewly).trans (congrArg Host.Outcome.next hend)
  generalize hv : w.report causeReconEnter (unitMacro i m) k i none = v at hexec
  have hvstope (j : Nat) : v.stope j = w.stope j := by rw [← hv, State.stope, State.report_stopes, State.stope]
  have hventries : v.tally.entries = t.tally.entries := by
    have hw := congrArg (fun x : State => x.tally.entries) hwframe
    rw [← hv, State.report_entries]
    exact hw
  obtain ⟨hsothers, hsstope, hsregs, hsentries⟩ := v.assignSpare_only i m
  have hlost : v.stope i = (s.stope i).loseMacro k m := by rw [hvstope, hwstope, hstope]
  have hseams := (congrArg (fun x : Stope => x.seam k) hsstope).trans ((congrArg (fun x : Stope => x.seam k) hlost).trans
    (Stope.seam_loseMacro m (by omega)))
  have hbank := (congrArg (fun x : Stope => x.bankState m (s.stope i).bank) hsstope).trans
    (congrArg (fun x : Stope => x.bankState m (s.stope i).bank) hlost)
  refine ⟨_, hexec, fun x hx => ?_, congrArg Seam.mode hseams, congrArg Seam.mac hseams, congrArg Seam.holdLaunches hseams, ?_,
    fun hvalid => hbank.trans (Stope.bankState_loseMacro hvalid), fun hfree hsound hnone => ?_, fun j hj => ?_⟩
  · have hentry : (v.assignSpare i m).tallyEntry u = t.tallyEntry u := State.tallyEntry_congr (hsentries.trans hventries) u
    have hxu : x = u := List.mem_singleton.1 (hunits ▸ hx)
    rw [hxu, State.isPermanent_congr hentry, hperm]
  · have hvregs : v.rd assayFailCount = t.rd assayFailCount := by
      have hw := congrArg (fun x : State => x.rd assayFailCount) hwframe
      rw [← hv, State.report_regs _ _ _ _ _ _ _ (by decide)]
      exact hw
    rw [hsregs _ (by decide), hvregs, hfails]
  · obtain ⟨h72, h73⟩ := (s.stope i).spares_loseMacro k m
    refine State.assignSpare_first (by rwa [hlost, h72]) ?_ (by rwa [hlost, h73])
    rw [← hsound]
    refine State.macroDead_congr fun x hx => (State.tallyEntry_congr hventries x).trans (hothers x fun e => ?_)
    have hxmod := hx.mod (by decide)
    have humod := hu.mod (by omega)
    omega
  · rw [hsothers j hj, hvstope, hwothers j hj, hjudged.stope]

/-! ### Two macros are dead (R336, R369) -/

/-- Registers below the NOC's page move no region. -/
theorem State.region_of_regsKept {s t : State} {offs : List Nat} (h : RegsKept s t offs) (hoffs : ∀ o ∈ offs, o < nocPage) (n : Nat) :
    t.region n = s.region n := by
  have hkept (o : Nat) (ho : nocPage ≤ o) : t.rd o = s.rd o := h o fun hmem => absurd (hoffs o hmem) (by omega)
  simp only [State.region, nocGeom, nocGate, nocEdge, nocPorts]
  rw [hkept _ (by omega), hkept _ (by omega), hkept _ (by omega), hkept _ (by omega)]

theorem judgeCounters_below_noc : ∀ o ∈ judgeCounters, o < nocPage := by decide

/-- Releasing a seam moves the stopes alone. -/
theorem State.seamReleased_frame (s : State) (i k : Nat) (dead : List Nat) : { s.seamReleased i k dead with stopes := s.stopes } = s := by
  generalize hu : s.updStope i (fun t => t.updSeam k (Seam.released dead.isEmpty)) = u
  have hjudged := State.each_rel (R := fun s t => { t with stopes := s.stopes } = s)
    (f := fun s m => s.suspectBank i ((s.stope i).phys m) (s.stope i).bank) (fun _ => rfl)
    (fun s t u h h' => (congrArg (fun x : State => { x with stopes := s.stopes }) h').trans h)
    (fun s m => by
      unfold State.suspectBank
      split
      · rfl
      · rfl) u dead
  rw [State.seamReleased, hu]
  refine (congrArg (fun x : State => { x with stopes := s.stopes }) hjudged).trans ?_
  rw [← hu]
  rfl

theorem localise_two {s : State} {i k m n r : Nat} (hi : i < 256) (hm : m < 64) (hn : n < 64) (hmn : m ≠ n)
    (hmode : ((s.stope i).seam k).mode = .localising) (hconvm : m ∈ (s.stope i).converting k) (hconvn : n ∈ (s.stope i).converting k)
    (hphysm : (s.stope i).phys m = m) (hphysn : (s.stope i).phys n = n) (halivem : s.macroDead i m = false) (haliven : s.macroDead i n = false)
    (hroom : s.tally.entries.length + 1 < tallyCap) (hregion : s.stopeRegion i = some r) :
    Gives (.localise i k [(m, 2, []), (n, 2, [])]) s fun t =>
      (∀ j ∈ s.sliceStopes r, (5, 15) ∈ (t.fence (shellPage j)).causes) ∧ s.edge.devId ∈ t.wnd.sliceHold ∧
      t.isPermanent (unitMacro i m) = true ∧ t.isPermanent (unitMacro i n) = true := by
  have hcounted : s.counted i k [(m, 2, []), (n, 2, [])] = [(m, 2, []), (n, 2, [])] := by simp [State.counted, hconvm, hconvn]
  obtain ⟨um, hunitm, hum, hpermm, -, hlenm, hjm, -⟩ := State.localResult_twice (s := s) (cols := []) hi hm hphysm (by omega)
  obtain rfl : unitMacro i m = um := List.singleton_injective hunitm
  generalize hu : s.localResult i (m, 2, []) = u at *
  have huphys : (u.stope i).phys n = n := by rw [hjm.stope, hphysn]
  obtain ⟨un, hunitn, hun, hpermn, hothers, -, hjn, -⟩ := State.localResult_twice (s := u) (cols := []) hi hn huphys (by omega)
  obtain rfl : unitMacro i n = un := List.singleton_injective hunitn
  generalize hv : u.localResult i (n, 2, []) = v at *
  have hj := hjm.trans hjn
  have hapart : unitMacro i m ≠ unitMacro i n := fun e => hmn (by simpa [unitMacro] using e)
  have hpermm' : v.isPermanent (unitMacro i m) = true := (State.isPermanent_congr (hothers _ hapart)).trans hpermm
  have hdeadm : v.macroDead i m = true := (v.macroDead_iff i m).2 ⟨_, hum, hpermm'⟩
  have hdeadn : v.macroDead i n = true := (v.macroDead_iff i n).2 ⟨_, hun, hpermn⟩
  have hnewly : newlyDead s v i (s.counted i k [(m, 2, []), (n, 2, [])]) = [m, n] := by
    simp [newlyDead, hcounted, hj.stope, hphysm, hphysn, hdeadm, hdeadn, halivem, haliven]
  have hall : s.allJudged i (s.counted i k [(m, 2, []), (n, 2, [])]) = v := by
    rw [hcounted]
    simp only [State.allJudged, State.each, List.foldl_cons, List.foldl_nil, hu, hv]
  have hframe := v.seamReleased_frame i k [m, n]
  have hexec : exec (.localise i k [(m, 2, []), (n, 2, [])]) s = .next ((v.seamReleased i k [m, n]).sliceLost
      (((v.seamReleased i k [m, n]).stopeRegion i).getD 0) (unitSeam i k)) := by
    have h := exec_localise hmode hall hnewly
    exact h
  generalize v.seamReleased i k [m, n] = w at hframe hexec
  have hwregion (x : Nat) : w.region x = s.region x := by
    have h := congrArg (fun t : State => t.region x) hframe
    exact h.trans (State.region_of_regsKept hj.regs judgeCounters_below_noc x)
  have hwdev : w.edge.devId = s.edge.devId := by
    have h := congrArg (fun t : State => t.edge.devId) hframe
    exact h.trans hj.devId
  have hwentries : w.tally.entries = v.tally.entries := by
    have h := congrArg (fun t : State => t.tally.entries) hframe
    exact h
  rw [State.stopeRegion_congr (fun x _ => hwregion x), hregion, Option.getD_some] at hexec
  obtain ⟨hfenced, hheld, hkept⟩ := w.sliceLost_spec r (unitSeam i k)
  have hentry (x : Nat) : (w.sliceLost r (unitSeam i k)).isPermanent x = v.isPermanent x :=
    State.isPermanent_congr (State.tallyEntry_congr (hkept.entries.trans hwentries) x)
  refine ⟨_, hexec, ?_, by rwa [hwdev] at hheld, by rw [hentry, hpermm'], by rw [hentry, hpermn]⟩
  rwa [State.sliceStopes, hwregion] at hfenced

/-! ### SUSPECT seams and standbys (R339, R369, R375) -/

theorem seamSuspectTimeout_clears {s : State} {i k : Nat} (hk : k < 4) (hlen : (s.stope i).seams.length = 4)
    (hmode : ((s.stope i).seam k).mode = .suspect) (hlate : ((s.stope i).seam k).lastMismatch + 10000000000 ≤ s.now) :
    Gives (.seamSuspectTimeout i k) s fun t =>
      (t.stope i).seam k = { (s.stope i).seam k with mode := .checked } ∧ (∀ j, j ≠ k → (t.stope i).seam j = (s.stope i).seam j) ∧
      { t.stope i with seams := (s.stope i).seams } = s.stope i ∧ StopeOnly s t i := by
  refine ⟨_, congrArg Host.Outcome.next (if_pos ⟨hmode, hlate⟩), ?_, fun j hj => ?_, ?_, StopeOnly.updStope ..⟩
  · rw [State.stope_updStope_same, Stope.seam_updSeam_same _ (by omega)]
  · rw [State.stope_updStope_same, Stope.seam_updSeam, if_neg (fun e => hj e.1)]
  · rw [State.stope_updStope_same]
    rfl

theorem Stope.clearSuspects_frame (ks : List Nat) (t : Stope) : { t.clearSuspects ks with seams := t.seams } = t := by
  induction ks generalizing t with
  | nil => rfl
  | cons k ks ih => exact (congrArg (fun x : Stope => { x with seams := t.seams }) (ih (t.updSeam k Seam.cleared))).trans rfl

theorem Seam.cleared_cleared (g : Seam) : g.cleared.cleared = g.cleared := by
  unfold Seam.cleared
  split
  · rfl
  · rfl

/-- Each named seam is cleared, once or more, and no other. -/
theorem Stope.seam_clearSuspects (ks : List Nat) (t : Stope) {j : Nat} (hj : j < t.seams.length) :
    (t.clearSuspects ks).seam j = if j ∈ ks then (t.seam j).cleared else t.seam j := by
  induction ks generalizing t with
  | nil => rfl
  | cons k ks ih =>
    have hstep := ih (t.updSeam k Seam.cleared) (by rwa [Stope.length_updSeam])
    rw [Stope.clearSuspects, List.foldl_cons]
    refine hstep.trans ?_
    rw [Stope.seam_updSeam]
    by_cases hjk : j = k
    · simp [hjk, hjk ▸ hj, Seam.cleared_cleared]
    · simp [hjk]

/-- What a permitted write of CHECK_CTRL does to the seams, and what it leaves: new canary bounds move no seam. -/
theorem State.checkCtrlWrite_spec {s : State} {f i : Nat} {v : Word} (hi : i < 256) (hmay : s.mayWrite f (checkCtrl i) = true) :
    ((s.checkCtrlWrite f i v).stope i).seams = ((s.stope i).clearSuspects (maskBits 4 (fld v 9 6))).seams ∧
      StopeRegs s (s.checkCtrlWrite f i v) i [checkCtrl i] := by
  have hstored : StopeRegs s (s.checkStored i v) i [checkCtrl i] :=
    (StopeRegs.wr s (checkCtrlAfter (s.rd (checkCtrl i)) v) List.mem_cons_self).trans (.updStope ..)
  have hstope : (s.checkStored i v).stope i = (s.stope i).clearSuspects (maskBits 4 (fld v 9 6)) := State.stope_updStope_same ..
  rw [State.checkCtrlWrite_eq hi hmay]
  split
  · refine ⟨?_, hstored.trans (.updStope ..)⟩
    rw [State.setBounds, State.stope_updStope_same, hstope]
  · exact ⟨by rw [hstope], hstored⟩

theorem mem_clearBits {v : Word} {k : Nat} (hk : k < 4) : k ∈ maskBits 4 (fld v 9 6) ↔ bit v (6 + k) = true := by
  rw [bit_eq_testBit_fld v (lo := 6) (hi := 9) (by omega) (by omega), Nat.add_sub_cancel_left, maskBits, List.mem_filter, List.mem_range,
    bitAt_eq_testBit]
  exact and_iff_right hk

theorem checkClear_gives {s : State} {f i : Nat} {v : Word} (hi : i < 256) (hmay : s.mayWrite f (checkCtrl i) = true)
    (hlen : (s.stope i).seams.length = 4) :
    Gives (.checkClear f i v) s fun t =>
      (∀ k, k < 4 → (t.stope i).seam k =
        if bit v (6 + k) = true ∧ ((s.stope i).seam k).mode = .suspect then { (s.stope i).seam k with mode := .checked }
        else (s.stope i).seam k) ∧
      fld (t.rd (checkCtrl i)) 3 0 = fld v 3 0 ∧ fld (t.rd (checkCtrl i)) 9 6 = fld (s.rd (checkCtrl i)) 9 6 ∧
      (∀ j, j ≠ i → t.stope j = s.stope j) ∧ { t with regs := s.regs, stopes := s.stopes } = s := by
  obtain ⟨hseams, hothers, -, hframe⟩ := State.checkCtrlWrite_spec (v := v) hi hmay
  refine ⟨_, rfl, fun k hk => ?_, ?_, ?_, hothers, hframe⟩
  · rw [Stope.seam, hseams]
    refine (Stope.seam_clearSuspects _ _ (by omega)).trans ?_
    simp only [mem_clearBits hk, Seam.cleared, ← ite_and]
  · rw [State.rd_checkCtrlWrite hi hmay, fld_checkCtrlAfter_seams]
  · rw [State.rd_checkCtrlWrite hi hmay, fld_checkCtrlAfter_clear]

theorem standbyReport_gives {s : State} {dev lost : Nat} (hingress : s.isIngress = true) (hheld : lost ∈ s.wnd.sliceHold) :
    Gives (.standbyReport dev lost) s fun t =>
      lost ∉ t.wnd.sliceHold ∧ (∀ d, d ≠ lost → (d ∈ t.wnd.sliceHold ↔ d ∈ s.wnd.sliceHold)) ∧
      t.wnd.job.devices = s.wnd.job.devices.map (fun d => if d = lost then dev else d) ∧
      { t with wnd := { t.wnd with sliceHold := s.wnd.sliceHold, job := s.wnd.job } } = s := by
  refine ⟨_, congrArg Host.Outcome.next (if_pos ⟨hingress, List.contains_iff_mem.2 hheld⟩), ?_, fun d hd => ?_, rfl, rfl⟩
  · simp
  · simp [hd]

theorem standbyReport_stays {s : State} {dev lost : Nat} (h : s.isIngress = false ∨ lost ∉ s.wnd.sliceHold) :
    exec (.standbyReport dev lost) s = .next s := by
  refine congrArg Host.Outcome.next (if_neg fun ⟨hingress, hheld⟩ => ?_)
  rcases h with h | h
  · simp [h] at hingress
  · exact h (List.contains_iff_mem.1 hheld)

/-- Settles O43: a localisation in its three outcomes, then the SUSPECT seams and the standby. -/
theorem faultySeamsAreLocalised : Obligations.FaultySeamsAreLocalised := by
  unfold Obligations.FaultySeamsAreLocalised
  refine ⟨?none, ?one, ?two, ?timeout, ?clear, ?standby, ?stays⟩
  case none =>
    exact fun s i k rs hk hlen => ⟨fun hmode => congrArg Host.Outcome.next (if_pos hmode), localise_passes hk hlen⟩
  case one => exact fun s i k m cols hi hk hm hseam hlen hmode hconv hphys => localise_one hi hk hm hseam hlen hmode hconv hphys
  case two =>
    exact fun s i k m n r hi _ hm hn hmn _ hmode hcm hcn hpm hpn ham han => localise_two hi hm hn hmn hmode hcm hcn hpm hpn ham han
  case timeout =>
    refine fun s i k hk hlen hmode => ⟨seamSuspectTimeout_clears hk hlen hmode, fun hearly => ?_⟩
    exact congrArg Host.Outcome.next (if_neg fun h => absurd h.2 (by omega))
  case clear => exact fun s f i v => checkClear_gives
  case standby => exact fun s dev lost => standbyReport_gives
  case stays => exact fun s dev lost => standbyReport_stays

end Sys2Proof.Machine

namespace Sys2Proof.Machine

/-! ## O44: spares, buddies and partners (R83, R175, R343, R346 to R350, R369) -/

/-! ### Spares (R83, R343, R346) -/

/-- What a spare's programming starts with: its target's image, from row 0. -/
def Refresh.standing (now : Nat) : Refresh := { means := .stand, row := 0, iters := 0, failed := false, since := now }

/-- A spare may be programmed in a bank: it is assigned and not in place, its target holds the bank, and it does not, nor is it on the way. -/
def State.spareFits (s : State) (i p : Nat) (bank : Bool) (y : Spare) : Prop :=
  y.used = true ∧ y.live = false ∧ bank ∈ (s.stope i).heldBanks y.target ∧ bank ∉ y.ready ∧
    (s.refreshOf (bankKey i p bank)).means = .off ∧ (s.bankSlice bank).isSome = true

/-- The machine once a free spare that has a target to serve is assigned to it. -/
def State.spareTaken (s : State) (i p : Nat) : State :=
  if !((s.stope i).spare p).used ∧ s.freeSpare i false = some p then
    (match s.unserved i with
     | some m => s.updStope i fun t => t.setSpare p (Spare.assigned m)
     | none => s)
  else s

/-- The machine once a spare that may be programmed in a bank has started. -/
def State.spareStarted (s : State) (i p : Nat) (bank : Bool) : State :=
  let x := (s.stope i).spare p
  if x.used ∧ !x.live ∧ ((s.stope i).heldBanks x.target).contains bank ∧ !(x.ready.contains bank) ∧
      (s.refreshOf (bankKey i p bank)).means = .off ∧ (s.bankSlice bank).isSome then
    s.setRefresh (bankKey i p bank) (Refresh.standing s.now)
  else s

theorem exec_spareProgram (s : State) {i p : Nat} (bank : Bool) (hp : p = 72 ∨ p = 73) :
    exec (.spareProgram i p bank) s = .next ((s.spareTaken i p).spareStarted i p bank) :=
  congrArg Host.Outcome.next (if_neg (by omega))

theorem State.spareFits_iff (s : State) (i p : Nat) (bank : Bool) :
    s.spareFits i p bank ((s.stope i).spare p) ↔
      ((s.stope i).spare p).used ∧ !((s.stope i).spare p).live ∧ ((s.stope i).heldBanks ((s.stope i).spare p).target).contains bank ∧
        !(((s.stope i).spare p).ready.contains bank) ∧ (s.refreshOf (bankKey i p bank)).means = .off ∧ (s.bankSlice bank).isSome := by
  simp [State.spareFits]

theorem State.spareStarted_of_fits {s : State} {i p : Nat} {bank : Bool} (h : s.spareFits i p bank ((s.stope i).spare p)) :
    s.spareStarted i p bank = s.setRefresh (bankKey i p bank) (Refresh.standing s.now) :=
  if_pos ((s.spareFits_iff i p bank).1 h)

theorem State.spareStarted_of_not {s : State} {i p : Nat} {bank : Bool} (h : ¬ s.spareFits i p bank ((s.stope i).spare p)) :
    s.spareStarted i p bank = s :=
  if_neg fun hfits => h ((s.spareFits_iff i p bank).2 hfits)

/-- A spare that is assigned, or has no target to serve, is not assigned anew. -/
theorem State.spareTaken_self {s : State} {i p : Nat}
    (h : ((s.stope i).spare p).used = true ∨ s.freeSpare i false ≠ some p ∨ s.unserved i = none) : s.spareTaken i p = s := by
  unfold State.spareTaken
  split
  · next hfree =>
    rcases h with hused | hother | hnone
    · simp [hused] at hfree
    · exact absurd hfree.2 hother
    · rw [hnone]
  · rfl

theorem State.spareTaken_assigned {s : State} {i p m : Nat} (hunused : ((s.stope i).spare p).used = false) (hfree : s.freeSpare i false = some p)
    (hm : s.unserved i = some m) : s.spareTaken i p = s.updStope i fun t => t.setSpare p (Spare.assigned m) := by
  rw [State.spareTaken, if_pos ⟨by simp [hunused], hfree⟩, hm]

theorem Stope.spare_setSpare (t : Stope) {p : Nat} (hp : p = 72 ∨ p = 73) (x : Spare) : (t.setSpare p x).spare p = x := by
  rcases hp with rfl | rfl <;> rfl

theorem Stope.heldBanks_setSpare (t : Stope) (p m : Nat) (x : Spare) : (t.setSpare p x).heldBanks m = t.heldBanks m := by
  unfold Stope.setSpare
  split <;> rfl

theorem State.refreshOf_setRefresh (s : State) (key : Nat) (r : Refresh) : (s.setRefresh key r).refreshOf key = r := by
  rw [State.setRefresh, State.refreshOf, Table.get_set_same]

theorem spareProgram_gives {s : State} {i p m : Nat} {bank : Bool} (hp : p = 72 ∨ p = 73) (hunused : ((s.stope i).spare p).used = false)
    (hfree : s.freeSpare i false = some p) (hm : s.unserved i = some m) :
    Gives (.spareProgram i p bank) s fun t =>
      (t.stope i).spare p = Spare.assigned m ∧
      (s.spareFits i p bank (Spare.assigned m) → t.refreshOf (bankKey i p bank) = Refresh.standing s.now) ∧
      (¬ s.spareFits i p bank (Spare.assigned m) → t.swap = s.swap) ∧ StopeOnly s { t with swap := s.swap } i := by
  refine ⟨_, exec_spareProgram s bank hp, ?_⟩
  rw [State.spareTaken_assigned hunused hfree hm]
  generalize hu : (s.updStope i fun t => t.setSpare p (Spare.assigned m)) = u
  have hstope : u.stope i = (s.stope i).setSpare p (Spare.assigned m) := by rw [← hu, State.stope_updStope_same]
  have hspare : (u.stope i).spare p = Spare.assigned m := by rw [hstope, Stope.spare_setSpare _ hp]
  have honly : StopeOnly s u i := hu ▸ StopeOnly.updStope s i _
  have hswap : u.swap = s.swap := by rw [← hu, State.updStope_swap]
  have hnow : u.now = s.now := by rw [← hu, State.updStope_now]
  have hfits : u.spareFits i p bank ((u.stope i).spare p) ↔ s.spareFits i p bank (Spare.assigned m) := by
    rw [hspare, State.spareFits, State.spareFits, hstope, Stope.heldBanks_setSpare, ← hu]
    rfl
  by_cases h : u.spareFits i p bank ((u.stope i).spare p)
  · rw [State.spareStarted_of_fits h]
    refine ⟨hspare, fun _ => ?_, fun hnot => absurd (hfits.1 h) hnot, honly.1, ?_⟩
    · rw [← hnow, State.refreshOf_setRefresh]
    · rw [← hswap]
      exact honly.2
  · rw [State.spareStarted_of_not h]
    refine ⟨hspare, fun hyes => absurd (hfits.2 hyes) h, fun _ => hswap, honly.1, ?_⟩
    rw [← hswap]
    exact honly.2

/-- A report of an alarm or a log stands in a log with room. -/
theorem State.report_logged {s : State} {cause unit detail ep : Nat} {stream : Option Nat} (h : causeClass cause ≠ .trace)
    (hroom : s.tally.log.length < logCap) : Logged s (s.report cause unit detail ep stream) cause unit := by
  have hlog := State.reportAt_log (s := (s.nextSeq (s.sourceId ep)).2) (time := s.now) (q := (s.nextSeq (s.sourceId ep)).1) (unit := unit)
    (detail := detail) (ep := ep) (stream := stream) h hroom
  exact ⟨_, hlog ▸ mem_insertReport.2 (.inl rfl), rfl, rfl, rfl, rfl⟩

theorem spareMapIn_stays {s : State} {i p : Nat}
    (h : (s.stope i).spareReady p = false ∨ ((s.stope i).seq (seamOf ((s.stope i).spare p).target)).busy = true) :
    exec (.spareMapIn i p) s = .next s := by
  refine congrArg Host.Outcome.next (if_neg ?_)
  rcases h with h | h
  · simp [h]
  · simp [h]

/-- A spare in its target's place, and the seam that it covers (R343, R346). -/
def Stope.mapIn (t : Stope) (p : Nat) : Stope :=
  if (t.spare p).refresh then t.setSpare p { t.spare p with live := true }
  else (t.setSpare p { t.spare p with live := true }).updSeam (seamOf (t.spare p).target) fun g => g.covered (t.spare p).target

theorem Stope.mapIn_spec {t : Stope} {p : Nat} (hp : p = 72 ∨ p = 73) (hk : seamOf (t.spare p).target < t.seams.length) :
    (t.mapIn p).spare p = { t.spare p with live := true } ∧
      (t.mapIn p).seam (seamOf (t.spare p).target) =
        (if (t.spare p).refresh then t.seam (seamOf (t.spare p).target)
         else (t.seam (seamOf (t.spare p).target)).covered (t.spare p).target) ∧
      ∀ j, j ≠ seamOf (t.spare p).target → (t.mapIn p).seam j = t.seam j := by
  have hseams (x : Spare) : (t.setSpare p x).seams = t.seams := by
    unfold Stope.setSpare
    split <;> rfl
  have hseam (x : Spare) (j : Nat) : (t.setSpare p x).seam j = t.seam j := by rw [Stope.seam, hseams, Stope.seam]
  unfold Stope.mapIn
  by_cases hrefresh : (t.spare p).refresh = true
  · rw [if_pos hrefresh, if_pos hrefresh]
    exact ⟨t.spare_setSpare hp _, hseam _ _, fun j _ => hseam _ j⟩
  · rw [if_neg hrefresh, if_neg hrefresh]
    refine ⟨t.spare_setSpare hp _, ?_, fun j hj => ?_⟩
    · rw [Stope.seam_updSeam_same _ (by rwa [hseams]), hseam]
    · rw [Stope.seam_updSeam, if_neg (fun e => hj e.1), hseam]

/-- A seam whose one permanent target is covered is checked again. -/
theorem Seam.mode_covered {g : Seam} {m : Nat} (hmode : g.mode = .recon ∨ g.mode = .unprotected) (hmac : g.mac = m) (hmac2 : g.mac2 = none) :
    (g.covered m).mode = .checked := by
  rcases hmode with hmode | hmode <;> simp [Seam.covered, hmode, hmac, hmac2]

theorem spareMapIn_gives {s : State} {i p : Nat} (hp : p = 72 ∨ p = 73) (hready : (s.stope i).spareReady p = true)
    (hk : seamOf ((s.stope i).spare p).target < 4) (hlen : (s.stope i).seams.length = 4)
    (hidle : ((s.stope i).seq (seamOf ((s.stope i).spare p).target)).busy = false) (hroom : s.tally.log.length < logCap) :
    Gives (.spareMapIn i p) s fun t =>
      (t.stope i).spare p = { (s.stope i).spare p with live := true } ∧
      (t.stope i).seam (seamOf ((s.stope i).spare p).target) =
        (if ((s.stope i).spare p).refresh then (s.stope i).seam (seamOf ((s.stope i).spare p).target)
         else ((s.stope i).seam (seamOf ((s.stope i).spare p).target)).covered ((s.stope i).spare p).target) ∧
      (((s.stope i).spare p).refresh = false → ((s.stope i).seam (seamOf ((s.stope i).spare p).target)).mode = .recon ∨
          ((s.stope i).seam (seamOf ((s.stope i).spare p).target)).mode = .unprotected →
        ((s.stope i).seam (seamOf ((s.stope i).spare p).target)).mac = ((s.stope i).spare p).target →
        ((s.stope i).seam (seamOf ((s.stope i).spare p).target)).mac2 = none →
        ((t.stope i).seam (seamOf ((s.stope i).spare p).target)).mode = .checked) ∧
      (∀ j, j ≠ seamOf ((s.stope i).spare p).target → (t.stope i).seam j = (s.stope i).seam j) ∧
      Logged s t causeSpareActive (unitMacro i ((s.stope i).spare p).target) ∧ (∀ j, j ≠ i → t.stope j = s.stope j) ∧ ReportKept s t [] := by
  generalize hu : (s.updStope i fun t => t.mapIn p) = u
  have hexec : exec (.spareMapIn i p) s = .next (u.report causeSpareActive (unitMacro i ((s.stope i).spare p).target) p i none) := by
    rw [← hu]
    exact congrArg Host.Outcome.next (if_pos (by simp [hready, hidle]))
  have hstope (j : Nat) : (u.report causeSpareActive (unitMacro i ((s.stope i).spare p).target) p i none).stope j = u.stope j := by
    rw [State.stope, State.report_stopes, State.stope]
  have hustope : u.stope i = (s.stope i).mapIn p := by rw [← hu, State.stope_updStope_same]
  obtain ⟨hspare, hseam, hseams⟩ := Stope.mapIn_spec (t := s.stope i) hp (by omega)
  refine ⟨_, hexec, ?_, ?_, fun hrefresh hmode hmac hmac2 => ?_, fun j hj => ?_, ?_, fun j hj => ?_, ?_⟩
  · rw [hstope, hustope, hspare]
  · rw [hstope, hustope, hseam]
  · rw [hstope, hustope, hseam, hrefresh, if_neg Bool.false_ne_true]
    exact Seam.mode_covered hmode hmac hmac2
  · rw [hstope, hustope, hseams j hj]
  · obtain ⟨r, hr, hcause, hunit, htime, hcount⟩ :=
      State.report_logged (s := u) (cause := causeSpareActive) (unit := unitMacro i ((s.stope i).spare p).target) (detail := p) (ep := i)
        (stream := none) (by decide) (by rwa [← hu])
    exact ⟨r, hr, hcause, hunit, htime.trans (by rw [← hu, State.updStope_now]), hcount⟩
  · rw [hstope, ← hu, State.stope_updStope_other _ _ hj]
  · have hkept : ReportKept s u [] := by
      rw [← hu]
      exact ⟨fun _ _ => rfl, rfl, rfl, rfl⟩
    exact hkept.trans ((State.reportAt_reported ..).kept [])

/-! ### A stream's work that is discarded (R175, R192) -/

/-- A value that no step of a fold moves is as it was. -/
theorem State.each_field {α β : Type} {f : State → α → State} {π : State → β} (hf : ∀ s a, π (f s a) = π s) (s : State) (l : List α) :
    π (s.each l f) = π s :=
  State.each_rel (R := fun s t => π t = π s) (fun _ => rfl) (fun _ _ _ h h' => h'.trans h) hf s l

/-- What the end of work on the cores and the stopes leaves alone: the streams, what has been told, the roles, the tally, the time. -/
def State.untouched (s : State) : Table Stream × List Told × Nat × Tally × Nat := (s.wnd.streams, s.wnd.told, s.wnd.roles, s.tally, s.now)

theorem State.dropStreamCore_untouched (s : State) (c stream : Nat) : (s.dropStreamCore c stream).untouched = s.untouched := by
  have h := congrArg State.untouched (s.dropStreamCore_coreHeldOnly c stream).frame
  exact h

theorem State.releasePage_untouched (s : State) (key : Nat) : (s.releasePage key).untouched = s.untouched := by
  unfold State.releasePage
  dsimp only
  split
  · rfl
  · rfl

theorem State.rollbackStream_untouched (s : State) (stream : Nat) : (s.rollbackStream stream).untouched = s.untouched := by
  refine State.each_field (fun s e => ?_) s _
  split
  · exact s.releasePage_untouched _
  · rfl

theorem State.sendCancel_untouched (s : State) (i : Nat) : (s.sendCancel i).untouched = s.untouched := by
  unfold State.sendCancel
  dsimp only
  refine (State.each_field (π := State.untouched) (fun _ _ => ?_) _ _).trans ?_
  · rfl
  · rfl

theorem State.discardWork_untouched (s : State) (stream : Nat) : (s.discardWork stream).untouched = s.untouched := by
  have hcores : (s.each (s.cores.map (·.1)) fun s c => s.dropStreamCore c stream).untouched = s.untouched :=
    State.each_field (fun s c => s.dropStreamCore_untouched c stream) s _
  have hall : (s.dropStreamAll stream).untouched = s.untouched := by
    refine (State.each_field (π := State.untouched) (fun _ _ => ?_) _ _).trans hcores
    rfl
  refine (State.each_field (π := State.untouched) (fun _ _ => ?_) _ _).trans
    ((State.sendCancel_untouched ..).trans ((State.rollbackStream_untouched ..).trans hall))
  rfl

/-! ### A stream that is retried (R175) -/

/-- The log, the time and the roles are as they were, what was told stands, each stream has a token in flight as before, and one that was
retried still is. -/
structure Retrying (s t : State) : Prop where
  log : t.tally.log = s.tally.log
  now : t.now = s.now
  roles : t.wnd.roles = s.wnd.roles
  told : ∀ m ∈ s.wnd.told, m ∈ t.wnd.told
  flying : ∀ x, (t.stream x).flying.isSome = (s.stream x).flying.isSome
  retried : ∀ x, (∀ fl ∈ (s.stream x).flying, fl.retried = true) → ∀ fl ∈ (t.stream x).flying, fl.retried = true

theorem Retrying.refl (s : State) : Retrying s s := ⟨rfl, rfl, rfl, fun _ h => h, fun _ => rfl, fun _ h => h⟩

theorem Retrying.trans {s t u : State} (h : Retrying s t) (h' : Retrying t u) : Retrying s u :=
  ⟨h'.log.trans h.log, h'.now.trans h.now, h'.roles.trans h.roles, fun m hm => h'.told m (h.told m hm),
    fun x => (h'.flying x).trans (h.flying x), fun x hx => h'.retried x (h.retried x hx)⟩

theorem Retrying.of_untouched {s t : State} (h : t.untouched = s.untouched) : Retrying s t := by
  simp only [State.untouched, Prod.mk.injEq] at h
  obtain ⟨hstreams, htold, hroles, htally, hnow⟩ := h
  have hstream (x : Nat) : t.stream x = s.stream x := by rw [State.stream, hstreams, State.stream]
  exact ⟨congrArg Tally.log htally, hnow, hroles, fun m hm => htold ▸ hm, fun x => by rw [hstream], fun x hx => by rwa [hstream]⟩

theorem Retrying.isIngress {s t : State} (h : Retrying s t) : t.isIngress = s.isIngress := by
  rw [State.isIngress, h.roles, State.isIngress]

/-- A token in flight starts again. -/
def Stream.restarted (fl : Flying) (t : Stream) : Stream :=
  { t with flying := some { fl with sampled := none, retried := true }, maskWait := false, smpHold := false }

theorem State.retryStream_eq (s : State) (x : Nat) :
    s.retryStream x =
      if !(s.discardWork x).isIngress then (s.discardWork x).tell (.faulted x)
      else match ((s.discardWork x).stream x).flying with
        | some fl => ((s.discardWork x).updStream x (Stream.restarted fl)).announce (.retry x)
        | none => s.discardWork x := rfl

/-- A stream that restarts its token keeps the others'. -/
theorem State.restart_retrying {s : State} {x : Nat} {fl : Flying} (hfl : (s.stream x).flying = some fl) :
    Retrying s ((s.updStream x (Stream.restarted fl)).announce (.retry x)) := by
  have hstream (y : Nat) : ((s.updStream x (Stream.restarted fl)).announce (.retry x)).stream y =
      if y = x then Stream.restarted fl (s.stream x) else s.stream y := by
    show (s.updStream x (Stream.restarted fl)).stream y = _
    split
    · next h => rw [h, State.stream_updStream_same]
    · next h => rw [s.stream_updStream_other _ h]
  refine ⟨rfl, rfl, rfl, fun _ h => h, fun y => ?_, fun y hy => ?_⟩
  · rw [hstream]
    split
    · next h => rw [h, hfl]; rfl
    · rfl
  · rw [hstream]
    split
    · rintro _ ⟨⟩
      rfl
    · exact hy

/-- A retried stream: at the ingress module its token in flight is marked, elsewhere the ingress module is told. -/
theorem State.retryStream_spec (s : State) (x : Nat) :
    Retrying s (s.retryStream x) ∧ (s.isIngress = true → ∀ fl ∈ ((s.retryStream x).stream x).flying, fl.retried = true) ∧
      (s.isIngress = false → .faulted x ∈ (s.retryStream x).wnd.told) := by
  have hdiscard := Retrying.of_untouched (s.discardWork_untouched x)
  have hrole := hdiscard.isIngress
  rw [State.retryStream_eq]
  generalize s.discardWork x = u at *
  by_cases hingress : s.isIngress = true
  · rw [if_neg (by simp [hrole, hingress])]
    refine ⟨?_, fun _ => ?_, fun hno => absurd hingress (by simp [hno])⟩
    · split
      · next fl hfl => exact hdiscard.trans (State.restart_retrying hfl)
      · exact hdiscard
    · split
      · next fl hfl =>
        show ∀ f ∈ ((u.updStream x (Stream.restarted fl)).stream x).flying, f.retried = true
        rw [State.stream_updStream_same]
        rintro _ ⟨⟩
        rfl
      · next hfl =>
        rw [hfl]
        nofun
  · rw [if_pos (by simp [hrole, hingress])]
    have htell : Retrying u (u.tell (.faulted x)) :=
      ⟨rfl, rfl, rfl, fun _ hm => List.mem_append_left _ hm, fun _ => rfl, fun _ h => h⟩
    exact ⟨hdiscard.trans htell, fun hyes => absurd hyes hingress, fun _ => List.mem_append_right _ List.mem_cons_self⟩

/-- Every stream of a list is retried. -/
theorem State.each_retryStream (l : List Nat) (s : State) :
    Retrying s (s.each l State.retryStream) ∧
      (s.isIngress = true → ∀ x ∈ l, ∀ fl ∈ ((s.each l State.retryStream).stream x).flying, fl.retried = true) ∧
      (s.isIngress = false → ∀ x ∈ l, .faulted x ∈ (s.each l State.retryStream).wnd.told) := by
  induction l generalizing s with
  | nil => exact ⟨.refl s, fun _ => nofun, fun _ => nofun⟩
  | cons a l ih =>
    obtain ⟨hstep, hretried, htold⟩ := s.retryStream_spec a
    obtain ⟨hrest, hretried', htold'⟩ := ih (s.retryStream a)
    rw [hstep.isIngress] at hretried' htold'
    refine ⟨hstep.trans hrest, fun hin x hx => ?_, fun hout x hx => ?_⟩
    · rcases List.mem_cons.1 hx with rfl | hx
      · exact hrest.retried _ (hretried hin)
      · exact hretried' hin x hx
    · rcases List.mem_cons.1 hx with rfl | hx
      · exact hrest.told _ (htold hout)
      · exact htold' hout x hx

end Sys2Proof.Machine

namespace Sys2Proof.Machine

/-! ### Takeovers (R347 to R350) -/

/-- What a recomputation of the bounds leaves alone, as far as a takeover speaks of it: the cores, the fences, the streams, what has been
told, and the log. -/
def State.unbounded (s : State) : Table Core × Table Fence × Table Stream × List Told × List Report :=
  (s.cores, s.noc.fences, s.wnd.streams, s.wnd.told, s.tally.log)

theorem State.recomputeClass_unbounded (events : Bool) (s : State) (i : Nat) : (State.recomputeClass events s i).unbounded = s.unbounded := by
  unfold State.recomputeClass
  dsimp only
  split
  · exact field_of_unposted (State.post_unposted ..) State.unbounded fun _ => rfl
  · rfl

theorem State.recompute_unbounded (s : State) : s.recompute.unbounded = s.unbounded :=
  (State.each_field (State.recomputeClass_unbounded true) _ _).trans rfl

/-- The work of a core moved to its host: the streams there retried behind a fence, the host loaded, the fence gone (R348). -/
def State.workMoved (s : State) (c host : Nat) : State :=
  ((((s.fenceFor (coreBase c) 2 11).each (s.streamsAt c) State.retryStream).updCore c fun t => t.taken host).loadPrograms c).unfence (coreBase c) 2

theorem State.fenceFor_streamsAt (s : State) (p cause classes c : Nat) : (s.fenceFor p cause classes).streamsAt c = s.streamsAt c := by
  have hcores := congrArg State.cores (s.fenceFor_frame p cause classes)
  have hcore : (s.fenceFor p cause classes).core c = s.core c := congrArg (fun x => Table.get Core.reset x c) hcores
  rw [State.streamsAt, hcore, State.streamsAt]

theorem State.takeover_eq (s : State) (c host cause : Nat) :
    s.takeover c host cause =
      let t := (s.workMoved c host).report cause (unitCore c) host epHeadframe none
      if t.isIngress then t.recompute else t := by
  simp only [State.takeover, State.workMoved, State.fenceFor_streamsAt]
  rfl

theorem State.loadPrograms_frame (s : State) (c : Nat) : { s.loadPrograms c with mem := s.mem } = s := by
  refine State.each_rel (R := fun s t => { t with mem := s.mem } = s) (fun _ => rfl) (fun s t u h h' => ?_) (fun s p => ?_) s _
  · exact (congrArg (fun x : State => { x with mem := s.mem }) h').trans h
  · rfl

/-- The core's work is its host's, its streams are retried, and no fence of the takeover's is left. -/
theorem State.workMoved_spec (s : State) (c host : Nat) :
    Retrying s (s.workMoved c host) ∧
      (s.isIngress = true → ∀ x ∈ s.streamsAt c, ∀ fl ∈ ((s.workMoved c host).stream x).flying, fl.retried = true) ∧
      (s.isIngress = false → ∀ x ∈ s.streamsAt c, .faulted x ∈ (s.workMoved c host).wnd.told) ∧
      (∀ x ∈ ((s.workMoved c host).fence (coreBase c)).causes, x.1 ≠ 2) ∧
      ∃ t : Core, (s.workMoved c host).core c = t.taken host := by
  have hfenced : Retrying s (s.fenceFor (coreBase c) 2 11) := by
    have h := congrArg State.untouched (s.fenceFor_frame (coreBase c) 2 11)
    exact .of_untouched h
  obtain ⟨hretrying, hretried, htold⟩ := (s.fenceFor (coreBase c) 2 11).each_retryStream (s.streamsAt c)
  rw [hfenced.isIngress] at hretried htold
  unfold State.workMoved
  generalize (s.fenceFor (coreBase c) 2 11).each (s.streamsAt c) State.retryStream = u at *
  obtain ⟨hcauses, hunfenced⟩ := ((u.updCore c fun t => t.taken host).loadPrograms c).unfence_spec (coreBase c) 2
  have hloaded := (u.updCore c fun t => t.taken host).loadPrograms_frame c
  generalize (u.updCore c fun t => t.taken host).loadPrograms c = v at *
  generalize v.unfence (coreBase c) 2 = w at *
  have huntouched : w.untouched = u.untouched := by
    have hw := congrArg State.untouched hunfenced
    have hv := congrArg State.untouched hloaded
    exact hw.trans hv
  have hcores : w.cores = (u.updCore c fun t => t.taken host).cores := by
    have hw := congrArg State.cores hunfenced
    have hv := congrArg State.cores hloaded
    exact hw.trans hv
  have hmoved := Retrying.of_untouched huntouched
  refine ⟨(hfenced.trans hretrying).trans hmoved, fun hin x hx => hmoved.retried x (hretried hin x hx),
    fun hout x hx => hmoved.told _ (htold hout x hx), hcauses, u.core c, ?_⟩
  rw [State.core, hcores]
  exact State.core_updCore_same ..

/-- What a takeover comes to: the core's work is its host's, its streams are retried, no fence of it is left, and it is logged. -/
theorem State.takeover_spec {s : State} {c host cause : Nat} (hcause : causeClass cause ≠ .trace) (hroom : s.tally.log.length < logCap) :
    (∃ t : Core, (s.takeover c host cause).core c = t.taken host) ∧
      (s.isIngress = true → ∀ x ∈ s.streamsAt c,
        ((s.takeover c host cause).stream x).flying.isSome = (s.stream x).flying.isSome ∧
          ∀ fl ∈ ((s.takeover c host cause).stream x).flying, fl.retried = true) ∧
      (s.isIngress = false → ∀ x ∈ s.streamsAt c, .faulted x ∈ (s.takeover c host cause).wnd.told) ∧
      (∀ x ∈ ((s.takeover c host cause).fence (coreBase c)).causes, x.1 ≠ 2) ∧ Logged s (s.takeover c host cause) cause (unitCore c) := by
  obtain ⟨hmoved, hretried, htold, hcauses, t, hcore⟩ := s.workMoved_spec c host
  rw [State.takeover_eq]
  generalize s.workMoved c host = u at *
  obtain ⟨r, hr, hrcause, hrunit, hrtime, hrcount⟩ :=
    State.report_logged (s := u) (unit := unitCore c) (detail := host) (ep := epHeadframe) (stream := none) hcause (by rwa [hmoved.log])
  have hcores := u.report_cores cause (unitCore c) host epHeadframe none
  have hfences := u.report_fences cause (unitCore c) host epHeadframe none
  have hstreams := u.report_field cause (unitCore c) host epHeadframe none (·.wnd.streams) (fun _ => rfl) fun _ _ => rfl
  have hsaid := u.report_field cause (unitCore c) host epHeadframe none (·.wnd.told) (fun _ => rfl) fun _ _ => rfl
  generalize u.report cause (unitCore c) host epHeadframe none = v at *
  dsimp only
  have hend : (if v.isIngress then v.recompute else v).unbounded = v.unbounded := by
    split
    · exact v.recompute_unbounded
    · rfl
  generalize (if v.isIngress then v.recompute else v) = w at *
  simp only [State.unbounded, Prod.mk.injEq] at hend
  obtain ⟨hwcores, hwfences, hwstreams, hwtold, hwlog⟩ := hend
  have hwstream (x : Nat) : w.stream x = u.stream x := by rw [State.stream, hwstreams, hstreams, State.stream]
  refine ⟨⟨t, ?_⟩, fun hin x hx => ?_, fun hout x hx => ?_, ?_, r, by rwa [hwlog], hrcause, hrunit, hrtime.trans hmoved.now, hrcount⟩
  · rw [State.core, hwcores, hcores]
    exact hcore
  · rw [hwstream]
    exact ⟨hmoved.flying x, hretried hin x hx⟩
  · rw [hwtold, hsaid]
    exact htold hout x hx
  · rw [State.fence, hwfences, hfences]
    exact hcauses

/-- A core whose partner cannot take over: it is permanent, and its slice is lost. -/
theorem State.coreSliceLost_spec (s : State) (c r unit : Nat) :
    (((s.updCore c fun t => { t with permanent := true }).sliceLost r unit).core c).permanent = true ∧
      (((s.updCore c fun t => { t with permanent := true }).sliceLost r unit).core c).host = (s.core c).host ∧
      (∀ j ∈ s.sliceStopes r,
        (5, 15) ∈ (((s.updCore c fun t => { t with permanent := true }).sliceLost r unit).fence (shellPage j)).causes) ∧
      s.edge.devId ∈ ((s.updCore c fun t => { t with permanent := true }).sliceLost r unit).wnd.sliceHold := by
  obtain ⟨hfenced, hheld, hkept⟩ := (s.updCore c fun t => { t with permanent := true }).sliceLost_spec r unit
  refine ⟨?_, ?_, hfenced, hheld⟩
  · rw [hkept.permanent, State.core_updCore_same]
  · rw [hkept.host, State.core_updCore_same]

/-- The core that shares a stope pair with another (R347). -/
def buddyOf (i : Nat) : Nat := if i % 2 = 0 then i + 1 else i - 1

theorem exec_buddyTakeover {s : State} {i : Nat} (hi : i < 256) (hdead : s.isPermanent (unitCore i) = true)
    (hnew : (s.core i).permanent = false) :
    exec (.buddyTakeover i) s = .next (
      if (s.core (buddyOf i)).permanent ∨ s.isPermanent (unitCore (buddyOf i)) then
        (s.updCore i fun t => { t with permanent := true }).sliceLost ((s.stopeRegion i).getD 0) (unitCore i)
      else s.takeover i (buddyOf i) causeBuddyTakeover) :=
  congrArg Host.Outcome.next (if_neg (by simp [hdead, hnew]; omega))

theorem exec_mergeTakeover {s : State} {m : Nat} (hm : m < 16) (hdead : s.isPermanent (unitCore (256 + m)) = true)
    (hnew : (s.core (256 + m)).permanent = false) :
    exec (.mergeTakeover m) s = .next (
      if (s.core (256 + buddyOf m)).permanent ∨ s.isPermanent (unitCore (256 + buddyOf m)) ∨ s.coreRegion (256 + m) = none ∨
          s.coreRegion (256 + m) ≠ s.coreRegion (256 + buddyOf m) then
        (s.updCore (256 + m) fun t => { t with permanent := true }).sliceLost ((s.coreRegion (256 + m)).getD 0) (unitCore (256 + m))
      else s.takeover (256 + m) (256 + buddyOf m) causeMergeTakeover) :=
  congrArg Host.Outcome.next (if_neg (by simp [hdead, hnew]; omega))

/-- A free spare is one of the stope's two (R343). -/
theorem State.freeSpare_place {s : State} {i p : Nat} (h : s.freeSpare i false = some p) : p = 72 ∨ p = 73 := by
  unfold State.freeSpare at h
  extract_lets t sound at h
  split at h
  · next q hq =>
    have hmem := List.mem_of_find?_eq_some hq
    rw [Option.some.injEq] at h
    simpa [h] using hmem
  · simp at h

theorem buddyTakeover_moves {s : State} {i : Nat} (hi : i < 256) (hdead : s.isPermanent (unitCore i) = true)
    (hnew : (s.core i).permanent = false) (hb : (s.core (buddyOf i)).permanent = false) (hbp : s.isPermanent (unitCore (buddyOf i)) = false)
    (hroom : s.tally.log.length < logCap) :
    Gives (.buddyTakeover i) s fun t =>
      (t.core i).host = some (buddyOf i) ∧ (t.core i).permanent = true ∧ (t.core i).queue = [] ∧ (t.core i).run = none ∧
      (t.core i).issued = [] ∧
      (s.isIngress = true → ∀ x ∈ s.streamsAt i,
        (t.stream x).flying.isSome = (s.stream x).flying.isSome ∧ ∀ fl ∈ (t.stream x).flying, fl.retried = true) ∧
      (s.isIngress = false → ∀ x ∈ s.streamsAt i, .faulted x ∈ t.wnd.told) ∧
      (∀ x ∈ (t.fence (coreBase i)).causes, x.1 ≠ 2) ∧ Logged s t causeBuddyTakeover (unitCore i) := by
  have hboth : ¬ ((s.core (buddyOf i)).permanent = true ∨ s.isPermanent (unitCore (buddyOf i)) = true) := by simp [hb, hbp]
  obtain ⟨⟨t, hcore⟩, hretried, htold, hcauses, hlogged⟩ :=
    State.takeover_spec (s := s) (c := i) (host := buddyOf i) (cause := causeBuddyTakeover) (by decide) hroom
  refine ⟨_, (exec_buddyTakeover hi hdead hnew).trans (congrArg Host.Outcome.next (if_neg hboth)), ?_⟩
  dsimp only
  rw [hcore]
  exact ⟨rfl, rfl, rfl, rfl, rfl, hretried, htold, hcauses, hlogged⟩

theorem buddyTakeover_loses {s : State} {i r : Nat} (hi : i < 256) (hdead : s.isPermanent (unitCore i) = true)
    (hnew : (s.core i).permanent = false) (hb : (s.core (buddyOf i)).permanent = true ∨ s.isPermanent (unitCore (buddyOf i)) = true)
    (hregion : s.stopeRegion i = some r) :
    Gives (.buddyTakeover i) s fun t =>
      (t.core i).permanent = true ∧ (∀ j ∈ s.sliceStopes r, (5, 15) ∈ (t.fence (shellPage j)).causes) ∧
      s.edge.devId ∈ t.wnd.sliceHold := by
  obtain ⟨hperm, -, hfenced, hheld⟩ := s.coreSliceLost_spec i r (unitCore i)
  have hexec := (exec_buddyTakeover hi hdead hnew).trans (congrArg Host.Outcome.next (if_pos hb))
  rw [hregion, Option.getD_some] at hexec
  exact ⟨_, hexec, hperm, hfenced, hheld⟩

theorem mergeTakeover_moves {s : State} {m : Nat} (hm : m < 16) (hdead : s.isPermanent (unitCore (256 + m)) = true)
    (hnew : (s.core (256 + m)).permanent = false) (hp : (s.core (256 + buddyOf m)).permanent = false)
    (hpp : s.isPermanent (unitCore (256 + buddyOf m)) = false) (hregion : s.coreRegion (256 + m) ≠ none)
    (hsame : s.coreRegion (256 + m) = s.coreRegion (256 + buddyOf m)) (hroom : s.tally.log.length < logCap) :
    Gives (.mergeTakeover m) s fun t =>
      (t.core (256 + m)).host = some (256 + buddyOf m) ∧ (t.core (256 + m)).permanent = true ∧ (t.core (256 + m)).queue = [] ∧
      (t.core (256 + m)).run = none ∧ Logged s t causeMergeTakeover (unitCore (256 + m)) := by
  obtain ⟨⟨t, hcore⟩, -, -, -, hlogged⟩ :=
    State.takeover_spec (s := s) (c := 256 + m) (host := 256 + buddyOf m) (cause := causeMergeTakeover) (by decide) hroom
  refine ⟨_, (exec_mergeTakeover hm hdead hnew).trans (congrArg Host.Outcome.next (if_neg ?_)), ?_⟩
  · rintro (h | h | h | h)
    · simp [hp] at h
    · simp [hpp] at h
    · exact hregion h
    · exact h hsame
  · dsimp only
    rw [hcore]
    exact ⟨rfl, rfl, rfl, rfl, hlogged⟩

theorem mergeTakeover_loses {s : State} {m r : Nat} (hm : m < 16) (hdead : s.isPermanent (unitCore (256 + m)) = true)
    (hnew : (s.core (256 + m)).permanent = false) (hregion : s.coreRegion (256 + m) = some r)
    (hlost : s.coreRegion (256 + buddyOf m) ≠ some r ∨ (s.core (256 + buddyOf m)).permanent = true ∨
      s.isPermanent (unitCore (256 + buddyOf m)) = true) :
    Gives (.mergeTakeover m) s fun t =>
      (t.core (256 + m)).permanent = true ∧ (t.core (256 + m)).host = (s.core (256 + m)).host ∧
      (∀ j ∈ s.sliceStopes r, (5, 15) ∈ (t.fence (shellPage j)).causes) ∧ s.edge.devId ∈ t.wnd.sliceHold := by
  have hexec := (exec_mergeTakeover hm hdead hnew).trans (congrArg Host.Outcome.next (if_pos (by
    rcases hlost with h | h | h
    · exact .inr (.inr (.inr (hregion ▸ h.symm)))
    · exact .inl h
    · exact .inr (.inl h))))
  rw [hregion, Option.getD_some] at hexec
  exact ⟨_, hexec, s.coreSliceLost_spec (256 + m) r (unitCore (256 + m))⟩

/-- Settles O44: a spare programmed and mapped in, then the takeovers of the shell cores and of the merge cores. -/
theorem sparesAndPartnersTakeOver : Obligations.SparesAndPartnersTakeOver := by
  unfold Obligations.SparesAndPartnersTakeOver
  refine ⟨?program, ?mapIn, ?buddy, ?buddyStays, ?merge, ?mergeStays⟩
  case program =>
    intro s i p bank
    refine ⟨fun h72 h73 => congrArg Host.Outcome.next (if_pos ⟨h72, h73⟩), fun hp hself => ?_, fun m hunused hfree hm => ?_⟩
    · have hexec := exec_spareProgram s (i := i) bank hp
      rw [State.spareTaken_self hself] at hexec
      exact ⟨fun h => hexec.trans (congrArg Host.Outcome.next (State.spareStarted_of_fits h)),
        fun h => hexec.trans (congrArg Host.Outcome.next (State.spareStarted_of_not h))⟩
    · exact spareProgram_gives (s.freeSpare_place hfree) hunused hfree hm
  case mapIn => exact fun s i p hp => ⟨spareMapIn_stays, fun hready hk hlen hidle => spareMapIn_gives hp hready hk hlen hidle⟩
  case buddy =>
    exact fun s i hi hdead hnew => ⟨buddyTakeover_moves hi hdead hnew, fun r hlost hregion => buddyTakeover_loses hi hdead hnew hlost hregion⟩
  case buddyStays => exact fun s i h => congrArg Host.Outcome.next (if_pos (by simpa using h))
  case merge =>
    exact fun s m hm hdead hnew => ⟨mergeTakeover_moves hm hdead hnew, fun r hregion hlost => mergeTakeover_loses hm hdead hnew hregion hlost⟩
  case mergeStays => exact fun s m h => congrArg Host.Outcome.next (if_pos (by simpa using h))

end Sys2Proof.Machine

namespace Sys2Proof.Machine

/-! ## O19: the calibration points (R125) -/

/-! ### The search: the first of the largest codes that are not above FS_CODE -/

/-- One step of the search: a choice takes over where its code is not above FS_CODE and larger than the best one's. -/
def calBetter (fs : Nat) (best x : Nat × Nat × Rat) : Nat × Nat × Rat := if x.2.2 ≤ (fs : Rat) ∧ best.2.2 < x.2.2 then x else best

/-- The search over a list of choices. -/
def calBest (fs : Nat) (best : Nat × Nat × Rat) (l : List (Nat × Nat × Rat)) : Nat × Nat × Rat := l.foldl (calBetter fs) best

theorem calPoint_eq_calBest (g fs : Nat) : calPoint g fs = calBest fs (0, 0, 0) (calPairs g) := rfl

section
variable {fs : Nat} {best x y : Nat × Nat × Rat} {l : List (Nat × Nat × Rat)}

theorem calBetter_cases (fs : Nat) (best x : Nat × Nat × Rat) :
    calBetter fs best x = x ∧ x.2.2 ≤ fs ∧ best.2.2 < x.2.2 ∨ calBetter fs best x = best ∧ (x.2.2 ≤ fs → x.2.2 ≤ best.2.2) := by
  unfold calBetter
  split
  · next h => exact .inl ⟨rfl, h⟩
  · next h => exact .inr ⟨rfl, fun hle => not_lt.1 fun hlt => h ⟨hle, hlt⟩⟩

theorem calBest_mem (fs : Nat) (best : Nat × Nat × Rat) (l : List (Nat × Nat × Rat)) :
    calBest fs best l = best ∨ calBest fs best l ∈ l ∧ (calBest fs best l).2.2 ≤ fs := by
  induction l generalizing best with
  | nil => exact .inl rfl
  | cons x l ih =>
    rcases ih (calBetter fs best x) with hstart | ⟨hmem, hle⟩
    · have hstart : calBest fs best (x :: l) = calBetter fs best x := hstart
      rw [hstart]
      rcases calBetter_cases fs best x with ⟨hx, hle, -⟩ | ⟨hbest, -⟩
      · exact .inr (by rw [hx]; exact ⟨List.mem_cons_self, hle⟩)
      · exact .inl hbest
    · exact .inr ⟨List.mem_cons_of_mem _ hmem, hle⟩

/-- The search never ends with another choice of the code that it began with. -/
theorem calBest_eq_or_lt (fs : Nat) (best : Nat × Nat × Rat) (l : List (Nat × Nat × Rat)) :
    calBest fs best l = best ∨ best.2.2 < (calBest fs best l).2.2 := by
  induction l generalizing best with
  | nil => exact .inl rfl
  | cons x l ih =>
    have hrest : calBest fs best (x :: l) = calBest fs (calBetter fs best x) l := rfl
    rw [hrest]
    rcases calBetter_cases fs best x with ⟨hx, -, hlt⟩ | ⟨hbest, -⟩
    · rw [hx]
      rcases ih x with h | h
      · exact .inr (by rwa [h])
      · exact .inr (hlt.trans h)
    · rw [hbest]
      exact ih best

/-- No choice of the list has a larger code, and of equal ones the first is found: `R` holds from each choice to those after it. -/
theorem calBest_first {R : Nat × Nat × Rat → Nat × Nat × Rat → Prop} (hl : l.Pairwise R) (hy : y ∈ l) (hle : y.2.2 ≤ fs) :
    y.2.2 ≤ (calBest fs best l).2.2 ∧
      (y.2.2 = (calBest fs best l).2.2 → calBest fs best l = best ∨ calBest fs best l = y ∨ R (calBest fs best l) y) := by
  induction l generalizing best with
  | nil => exact absurd hy List.not_mem_nil
  | cons x l ih =>
    obtain ⟨hx, hl⟩ := List.pairwise_cons.1 hl
    have hrest : calBest fs best (x :: l) = calBest fs (calBetter fs best x) l := rfl
    rw [hrest]
    rcases List.mem_cons.1 hy with rfl | hy
    · rcases calBetter_cases fs best y with ⟨hbetter, -⟩ | ⟨hbetter, hnot⟩
      · rw [hbetter]
        rcases calBest_eq_or_lt fs y l with h | h
        · exact ⟨by rw [h], fun _ => .inr (.inl h)⟩
        · exact ⟨h.le, fun he => absurd he h.ne⟩
      · rw [hbetter]
        rcases calBest_eq_or_lt fs best l with h | h
        · exact ⟨h.symm ▸ hnot hle, fun _ => .inl h⟩
        · exact ⟨(hnot hle).trans h.le, fun he => absurd he ((hnot hle).trans_lt h).ne⟩
    · obtain ⟨hmax, htie⟩ := ih (best := calBetter fs best x) hl hy
      refine ⟨hmax, fun he => (htie he).elim (fun hstart => ?_) .inr⟩
      rcases calBetter_cases fs best x with ⟨hbetter, -⟩ | ⟨hbetter, -⟩
      · exact .inr (.inr (by rw [hstart, hbetter]; exact hx y hy))
      · exact .inl (hstart.trans hbetter)

end

/-! ### The choices -/

/-- The expected code of N rows with P pulses at a gain (R125). -/
def calExpected (g n p : Nat) : Rat := (12 * p * n : Nat) / gainStep g

/-- The order of the choices: more rows first, then fewer pulses. -/
def CalBefore (x y : Nat × Nat × Rat) : Prop := y.1 < x.1 ∨ y.1 = x.1 ∧ x.2.1 ≤ y.2.1

theorem mem_calPairs {g : Nat} {x : Nat × Nat × Rat} :
    x ∈ calPairs g ↔ x.1 ∈ [2, 4, 6, 8] ∧ 1 ≤ x.2.1 ∧ x.2.1 ≤ 31 ∧ x.2.2 = calExpected g x.1 x.2.1 := by
  obtain ⟨n, p, e⟩ := x
  simp only [calPairs, List.mem_flatMap, List.mem_map, List.mem_range, Prod.mk.injEq]
  constructor
  · rintro ⟨n, hn, k, hk, rfl, rfl, rfl⟩
    refine ⟨?_, by omega, by omega, rfl⟩
    rwa [← List.mem_reverse]
  · rintro ⟨hn, hp, hp', rfl⟩
    obtain ⟨k, rfl⟩ := Nat.exists_eq_add_of_le' hp
    refine ⟨n, ?_, k, by omega, rfl, rfl, rfl⟩
    rwa [← List.mem_reverse]

theorem calPairs_ordered (g : Nat) : (calPairs g).Pairwise CalBefore := by
  refine List.pairwise_flatMap.2 ⟨fun n _ => ?_, ?_⟩
  · refine List.pairwise_map.2 (List.pairwise_lt_range.imp fun hlt => .inr ⟨rfl, ?_⟩)
    exact Nat.succ_le_succ hlt.le
  · have hrows : [8, 6, 4, 2].Pairwise (· > ·) := by decide
    refine hrows.imp fun hlt x hx y hy => .inl ?_
    obtain ⟨_, -, rfl⟩ := List.mem_map.1 hx
    obtain ⟨_, -, rfl⟩ := List.mem_map.1 hy
    exact hlt

/-- Every gain has a choice with the expected code 96: its rows and pulses multiply to 2 ^ (7 − g). -/
theorem exists_calExpected_96 {g : Nat} (hg : g < 7) : ∃ n p, n ∈ [2, 4, 6, 8] ∧ 1 ≤ p ∧ p ≤ 31 ∧ calExpected g n p = 96 := by
  obtain ⟨n, p, hn, hp, hp', hnp⟩ : ∃ n p, n ∈ [2, 4, 6, 8] ∧ 1 ≤ p ∧ p ≤ 31 ∧ p * n * 2 ^ g = 128 := by
    interval_cases g
    · exact ⟨8, 16, by decide⟩
    · exact ⟨8, 8, by decide⟩
    · exact ⟨8, 4, by decide⟩
    · exact ⟨8, 2, by decide⟩
    · exact ⟨8, 1, by decide⟩
    · exact ⟨4, 1, by decide⟩
    · exact ⟨2, 1, by decide⟩
  refine ⟨n, p, hn, hp, hp', ?_⟩
  have hnp : (p : Rat) * n * 2 ^ g = 128 := mod_cast hnp
  rw [calExpected, gainStep, div_div_eq_mul_div]
  push_cast
  linarith

/-- Settles O19: the search ends with the first of the largest codes, and some choice has the code 96 at every gain. -/
theorem calibrationPointsAreR125 : Obligations.CalibrationPointsAreR125 := by
  unfold Obligations.CalibrationPointsAreR125
  intro g fs hg hfs _
  dsimp only
  have hfirst {n p : Nat} (hn : n ∈ [2, 4, 6, 8]) (hp : 1 ≤ p) (hp' : p ≤ 31) :=
    calBest_first (fs := fs) (best := (0, 0, 0)) (calPairs_ordered g) (mem_calPairs.2 ⟨hn, hp, hp', rfl⟩ : (n, p, calExpected g n p) ∈ calPairs g)
  rw [calPoint_eq_calBest]
  generalize hx : calBest fs (0, 0, 0) (calPairs g) = x at hfirst
  have h96 : 96 ≤ x.2.2 := by
    obtain ⟨n, p, hn, hp, hp', hcode⟩ := exists_calExpected_96 hg
    obtain ⟨hmax, -⟩ := hfirst hn hp hp' (hcode.trans_le (mod_cast hfs))
    exact hcode ▸ hmax
  have hfound : x ≠ (0, 0, 0) := by
    rintro rfl
    norm_num at h96
  obtain ⟨hmem, hle⟩ := ((hx ▸ calBest_mem fs (0, 0, 0) (calPairs g)).resolve_left hfound : x ∈ calPairs g ∧ x.2.2 ≤ fs)
  obtain ⟨hn, hp, hp', hcode⟩ := mem_calPairs.1 hmem
  refine ⟨hn, hp, hp', hcode, h96, hle, fun n p hn hp hp' hle => ?_⟩
  obtain ⟨hmax, htie⟩ := hfirst hn hp hp' hle
  refine ⟨hmax, fun he => ?_⟩
  rcases htie he with h | rfl | h
  · exact absurd h hfound
  · exact .inr ⟨rfl, le_rfl⟩
  · exact h

end Sys2Proof.Machine

namespace Sys2Proof.Machine

/-! ## O20: CAL_CMD (R125, R129, R132, R134, R148) -/

/-! ### A stope's calibration engine, and what is charged beside it -/

theorem State.stope_updCal (s : State) (i : Nat) (f : Cal → Cal) : (s.updCal i f).stope i = { s.stope i with cal := f (s.calc i) } :=
  s.stope_updStope_same i _

@[simp] theorem State.calc_updCal (s : State) (i : Nat) (f : Cal → Cal) : (s.updCal i f).calc i = f (s.calc i) :=
  congrArg Stope.cal (s.stope_updCal i f)

@[simp] theorem State.coef_updCal (s : State) (i : Nat) (f : Cal → Cal) : ((s.updCal i f).stope i).coef = (s.stope i).coef := by
  rw [s.stope_updCal]

/-- Nothing but a stope's calibration engine changed. -/
def CalOnly (s t : State) (i : Nat) : Prop := { t.stope i with cal := s.calc i } = s.stope i ∧ StopeOnly s t i

theorem CalOnly.updCal (s : State) (i : Nat) (f : Cal → Cal) : CalOnly s (s.updCal i f) i := by
  refine ⟨?_, .updStope ..⟩
  rw [s.stope_updCal]
  rfl

theorem CalOnly.trans {s t u : State} {i : Nat} (h : CalOnly s t i) (h' : CalOnly t u i) : CalOnly s u i := by
  obtain ⟨hengine, honly⟩ := h
  obtain ⟨hengine', honly'⟩ := h'
  exact ⟨(congrArg (fun x : Stope => { x with cal := s.calc i }) hengine').trans hengine, honly.trans honly'⟩

/-- Nothing but stopes changed, and what the headframe has charged. -/
def ChargedOnly (s t : State) : Prop :=
  { t.hf with spent := s.hf.spent, charged := s.hf.charged } = s.hf ∧ { t with stopes := s.stopes, hf := s.hf } = s

theorem ChargedOnly.trans {s t u : State} (h : ChargedOnly s t) (h' : ChargedOnly t u) : ChargedOnly s u := by
  obtain ⟨hhf, hrest⟩ := h
  obtain ⟨hhf', hrest'⟩ := h'
  exact ⟨(congrArg (fun x : Hf => { x with spent := s.hf.spent, charged := s.hf.charged }) hhf').trans hhf,
    (congrArg (fun x : State => { x with stopes := s.stopes, hf := s.hf }) hrest').trans hrest⟩

theorem StopeCharged.trans {s t u : State} {i : Nat} (h : StopeCharged s t i) (h' : StopeCharged t u i) : StopeCharged s u i := by
  obtain ⟨hother, hrest⟩ := h
  obtain ⟨hother', hrest'⟩ := h'
  exact ⟨fun j hj => (hother' j hj).trans (hother j hj), ChargedOnly.trans hrest hrest'⟩

theorem StopeOnly.charged {s t : State} {i : Nat} (h : StopeOnly s t i) : StopeCharged s t i := by
  obtain ⟨hother, hrest⟩ := h
  have hhf := congrArg State.hf hrest
  refine ⟨hother, ?_, congrArg (fun x : State => { x with hf := s.hf }) hrest⟩
  exact congrArg (fun x : Hf => { x with spent := s.hf.spent, charged := s.hf.charged }) hhf

theorem StopeCharged.updCal (s : State) (i : Nat) (f : Cal → Cal) : StopeCharged s (s.updCal i f) i :=
  (StopeOnly.updStope s i _).charged

theorem StopeCharged.charge (s : State) (i k : Nat) (uj : Rat) : StopeCharged s (s.charge k uj) i := ⟨fun _ _ => rfl, rfl, rfl⟩

/-- An enable of the buffer warms it or does nothing: the engine and the coefficients stay. -/
theorem State.refEnable_spec (s : State) (i : Nat) :
    (s.refEnable i).calc i = s.calc i ∧ ((s.refEnable i).stope i).coef = (s.stope i).coef ∧ StopeCharged s (s.refEnable i) i := by
  by_cases h : (s.stope i).ref = .off ∧ s.refAllowed i = true
  · obtain ⟨hoff, hallowed⟩ := h
    rw [State.refEnable_of_off hoff hallowed]
    have hstope := s.stope_updStope_charge i enPrewarm warmCost fun t => t.warmed s.now
    have hcal := congrArg Stope.cal hstope
    have hcoef := congrArg Stope.coef hstope
    exact ⟨hcal, hcoef, s.updStope_charge_charged ..⟩
  · have hsame : s.refEnable i = s := if_neg (by simpa using h)
    rw [hsame]
    exact ⟨rfl, rfl, fun _ _ => rfl, rfl, rfl⟩

/-! ### A run that starts (R125, R129, R132) -/

/-- A run has begun with its zero end, over the gains of CAL_GAINS; beside the stope only charges moved. -/
structure CalBegun (s t : State) (i : Nat) (zeroOnly excl : Bool) (fs : Nat) : Prop where
  phase : (t.calc i).phase = .zero
  onlyZero : (t.calc i).onlyZero = zeroOnly
  excl : (t.calc i).excl = excl
  gains : (t.calc i).gains = fld (s.rd (calGains i)) 6 0
  fs : fs ≠ 0 → (t.calc i).fs = fs
  coef : (t.stope i).coef = (s.stope i).coef
  charged : StopeCharged s t i

/-- The engine at the start of its zero end. -/
def Cal.zeroEnd (c : Cal) (gains fs : Nat) (zeroOnly excl : Bool) : Cal :=
  { c with phase := .zero, excl := excl, zeroDone := none, gains := gains, fs := fs, onlyZero := zeroOnly, redo := false, gain := nextGain gains 0,
           col := 0, taken := 0, holdSince := none, slotOpen := false, sumZ := [], sumZZ := [], sumF := [], clipped := [], fresh := [],
           committed := 0 }

/-- A run of the zero end alone, and one without a usable zero end, starts with the zero end. -/
theorem State.calStart_eq_zeroEnd {s : State} {i : Nat} {zeroOnly : Bool} (excl : Bool) (fs : Nat) (hgains : fld (s.rd (calGains i)) 6 0 ≠ 0)
    (hzero : zeroOnly = true ∨ s.zeroFresh i = false) :
    s.calStart i zeroOnly excl fs = (s.refEnable i).updCal i fun c =>
      c.zeroEnd (fld (s.rd (calGains i)) 6 0) (if fs = 0 then fld ((s.refEnable i).rd (calFs i)) 6 0 else fs) zeroOnly excl := by
  have hsome : (fld (s.rd (calGains i)) 6 0 != 0) = true := bne_iff_ne.2 hgains
  rcases hzero with rfl | hfresh
  · simp [State.calStart, Cal.zeroEnd, hgains, hsome]
  · unfold State.zeroFresh at hfresh
    cases hdone : (s.calc i).zeroDone with
    | none => simp [State.calStart, Cal.zeroEnd, hgains, hsome, hdone]
    | some t =>
      rw [hdone] at hfresh
      dsimp only at hfresh
      simp [State.calStart, Cal.zeroEnd, hgains, hsome, hdone, hfresh]

/-- A run that starts, whichever its end, moves neither the held command nor the one that waits for FENCE. -/
theorem State.calStart_waits (s : State) (i : Nat) (zeroOnly excl : Bool) (fs : Nat) :
    ((s.calStart i zeroOnly excl fs).calc i).heldCmd = (s.calc i).heldCmd ∧
      ((s.calStart i zeroOnly excl fs).calc i).exclWait = (s.calc i).exclWait := by
  obtain ⟨hcalc, -⟩ := s.refEnable_spec i
  unfold State.calStart
  dsimp only
  rw [State.calc_updCal]
  have hheld := congrArg Cal.heldCmd hcalc
  have hwait := congrArg Cal.exclWait hcalc
  exact ⟨hheld, hwait⟩

/-- A run that starts on an engine whose flags or waits have just moved. -/
theorem State.calStart_updCal_begins {s : State} {i : Nat} {zeroOnly : Bool} (f : Cal → Cal) (excl : Bool) (fs : Nat)
    (hgains : fld (s.rd (calGains i)) 6 0 ≠ 0) (hzero : zeroOnly = true ∨ (s.updCal i f).zeroFresh i = false) :
    CalBegun s ((s.updCal i f).calStart i zeroOnly excl fs) i zeroOnly excl fs := by
  have hrd : (s.updCal i f).rd (calGains i) = s.rd (calGains i) := s.updStope_rd ..
  obtain ⟨-, hcoef, hcharged⟩ := (s.updCal i f).refEnable_spec i
  rw [State.calStart_eq_zeroEnd excl fs (hrd ▸ hgains) hzero, hrd]
  generalize (s.updCal i f).refEnable i = t at *
  constructor
  case fs => exact fun hfs => (congrArg Cal.fs (t.calc_updCal ..)).trans (if_neg hfs)
  case coef => exact (t.coef_updCal ..).trans (hcoef.trans (s.coef_updCal ..))
  case charged => exact (StopeCharged.updCal s i f).trans (hcharged.trans (.updCal ..))
  all_goals rw [State.calc_updCal]; rfl

/-! ### Writes of CAL_CMD (R148) -/

/-- FS_CODE 0, which leaves the code to CAL_FS, or one in its range. -/
def FsTaken (v : Word) : Prop := fld v 9 3 = 0 ∨ 96 ≤ fld v 9 3 ∧ fld v 9 3 ≤ 120

/-- A command word that OP makes of a written one keeps the other fields. -/
theorem fsCode_setOp (v : Word) (op : Nat) : fld (setFld v 1 0 op) 9 3 = fld v 9 3 := fld_setFld_other _ _ _ _ _ _ (by omega) (by omega) (by omega)
theorem op_setOp (v : Word) {op : Nat} (hop : op < 4) : fld (setFld v 1 0 op) 1 0 = op :=
  (fld_setFld_same _ _ _ _ (by omega) (by omega)).trans (Nat.mod_eq_of_lt hop)
theorem mode_setOp (v : Word) (op : Nat) : bit (setFld v 1 0 op) 2 = bit v 2 := bit_setFld_other _ _ _ _ _ (by omega) (by omega)

section
variable {s : State} {f i : Nat} {v : Word}

theorem State.calCmdWrite_refuses (hi : i < 256) (hmay : s.mayWrite f (calCmd i) = true) (hbad : ¬ FsTaken v) :
    s.calCmdWrite f i v = s.updCal i fun c => { c with cmdRefused := true } := by
  rw [State.calCmdWrite, if_neg (by simp [hi, hmay]), if_pos]
  simp only [FsTaken] at hbad
  omega

/-- A command that is taken clears CMD_REFUSED. -/
def State.calTaken (s : State) (i : Nat) : State := s.updCal i fun c => { c with cmdRefused := false }

theorem State.zeroFresh_calTaken (s : State) (i : Nat) : (s.calTaken i).zeroFresh i = s.zeroFresh i := by
  rw [State.zeroFresh, State.calTaken, State.calc_updCal]
  rfl

/-- A write that is not refused is taken, and acts by its OP. -/
theorem State.calCmdWrite_taken (hi : i < 256) (hmay : s.mayWrite f (calCmd i) = true) (hfs : FsTaken v) :
    (fld v 1 0 = 1 ∨ fld v 1 0 = 2 → s.calCmdWrite f i v = (s.calTaken i).calAct i v) ∧
      (fld v 1 0 = 3 → s.calCmdWrite f i v = (s.calTaken i).calStop i) := by
  have hgood : ¬ (fld v 9 3 ≠ 0 ∧ (fld v 9 3 < 96 ∨ 120 < fld v 9 3)) := by
    simp only [FsTaken] at hfs
    omega
  rw [State.calCmdWrite, if_neg (by simp [hi, hmay]), if_neg hgood]
  refine ⟨fun hop => ?_, fun hop => ?_⟩
  · rcases hop with hop | hop
    · rw [hop]
      rfl
    · rw [hop]
      rfl
  · rw [hop]
    rfl

/-- CAL_ZERO and CAL_FULL act as commands of their OP. -/
theorem State.calCmdWrite_setOp {op : Nat} (hop : op = 1 ∨ op = 2) (hi : i < 256) (hmay : s.mayWrite f (calCmd i) = true) (hfs : FsTaken v) :
    s.calCmdWrite f i (setFld v 1 0 op) = (s.calTaken i).calAct i (setFld v 1 0 op) :=
  (State.calCmdWrite_taken hi hmay (by rwa [FsTaken, fsCode_setOp])).1 (by rwa [op_setOp v (by omega)])

/-- With no run and no command before it, an INTERLEAVED command starts a run. -/
theorem State.calAct_starts (hidle : (s.calc i).phase = .idle) (hwait : (s.calc i).exclWait = none) (hmode : bit v 2 = false) :
    s.calAct i v = s.calStart i (fld v 1 0 == 1) false (fld v 9 3) := by
  rw [State.calAct, if_neg (by simp [hidle, hwait]), if_neg (by simp [hmode]), hmode]

/-- During a run a command is held. -/
theorem State.calAct_holds (hrun : (s.calc i).phase ≠ .idle) : s.calAct i v = s.updCal i fun c => { c with heldCmd := some v } :=
  if_pos (by simp [hrun])

/-! ### The commands -/

/-- CAL_ZERO with neither a run nor a command before it. -/
theorem calZero_starts (hi : i < 256) (hmay : s.mayWrite f (calCmd i) = true) (hfs : FsTaken v) (hmode : bit v 2 = false)
    (hidle : (s.calc i).phase = .idle) (hwait : (s.calc i).exclWait = none) (hgains : fld (s.rd (calGains i)) 6 0 ≠ 0) :
    Gives (.calZero f i v) s fun t => CalBegun s t i true false (fld v 9 3) := by
  refine ⟨_, rfl, ?_⟩
  rw [State.calCmdWrite_setOp (.inl rfl) hi hmay hfs, State.calTaken, State.calAct_starts (by rwa [State.calc_updCal])
    (by rwa [State.calc_updCal]) (by rwa [mode_setOp]), op_setOp v (by omega), fsCode_setOp]
  exact State.calStart_updCal_begins _ _ _ hgains (.inl rfl)

/-- CAL_FULL without a usable zero end samples the zero end first. -/
theorem calFull_starts (hi : i < 256) (hmay : s.mayWrite f (calCmd i) = true) (hfs : FsTaken v) (hmode : bit v 2 = false)
    (hidle : (s.calc i).phase = .idle) (hwait : (s.calc i).exclWait = none) (hgains : fld (s.rd (calGains i)) 6 0 ≠ 0)
    (hfresh : s.zeroFresh i = false) :
    Gives (.calFull f i v) s fun t => CalBegun s t i false false (fld v 9 3) := by
  refine ⟨_, rfl, ?_⟩
  rw [State.calCmdWrite_setOp (.inr rfl) hi hmay hfs, State.calTaken, State.calAct_starts (by rwa [State.calc_updCal])
    (by rwa [State.calc_updCal]) (by rwa [mode_setOp]), op_setOp v (by omega), fsCode_setOp]
  exact State.calStart_updCal_begins _ _ _ hgains (.inr ((s.zeroFresh_calTaken i).trans hfresh))

/-- A bad FS_CODE refuses a command, whichever it is. -/
theorem calCmd_refused {c : Instr} (hi : i < 256) (hmay : s.mayWrite f (calCmd i) = true) (hbad : ¬ FsTaken v)
    (hc : c = .calZero f i v ∨ c = .calFull f i v ∨ c = .calAbort f i v) :
    Gives c s fun t => t.calc i = { s.calc i with cmdRefused := true } ∧ CalOnly s t i := by
  have hbad' (op : Nat) : ¬ FsTaken (setFld v 1 0 op) := by rwa [FsTaken, fsCode_setOp]
  have hrefused (op : Nat) : s.calCmdWrite f i (setFld v 1 0 op) = s.updCal i fun c => { c with cmdRefused := true } :=
    State.calCmdWrite_refuses hi hmay (hbad' op)
  have hexec : exec c s = .next (s.updCal i fun c => { c with cmdRefused := true }) := by
    rcases hc with rfl | rfl | rfl
    · exact congrArg Host.Outcome.next (hrefused 1)
    · exact congrArg Host.Outcome.next (hrefused 2)
    · exact congrArg Host.Outcome.next (hrefused 3)
  exact ⟨_, hexec, s.calc_updCal .., .updCal ..⟩

theorem calFull_held (hi : i < 256) (hmay : s.mayWrite f (calCmd i) = true) (hfs : FsTaken v) (hrun : (s.calc i).phase ≠ .idle) :
    Gives (.calFull f i v) s fun t =>
      t.calc i = { s.calc i with cmdRefused := false, heldCmd := some (setFld v 1 0 2) } ∧ CalOnly s t i := by
  refine ⟨_, rfl, ?_⟩
  rw [State.calCmdWrite_setOp (.inr rfl) hi hmay hfs, State.calTaken, State.calAct_holds (by rwa [State.calc_updCal])]
  exact ⟨by rw [State.calc_updCal, State.calc_updCal], (CalOnly.updCal ..).trans (.updCal ..)⟩

/-- ABORT ends the run, and what is held or waits goes with it. -/
theorem calAbort_ends (hi : i < 256) (hmay : s.mayWrite f (calCmd i) = true) (hfs : FsTaken v) :
    Gives (.calAbort f i v) s fun t =>
      (t.calc i).phase = .idle ∧ (t.calc i).heldCmd = none ∧ (t.calc i).exclWait = none ∧ (t.calc i).gainValid = (s.calc i).gainValid ∧
      CalOnly s t i := by
  refine ⟨_, rfl, ?_⟩
  rw [(State.calCmdWrite_taken hi hmay (by rwa [FsTaken, fsCode_setOp])).2 (op_setOp v (by omega)), State.calTaken, State.calStop]
  dsimp only
  rw [State.calc_updCal, State.calc_updCal]
  exact ⟨rfl, rfl, rfl, rfl, (CalOnly.updCal ..).trans (.updCal ..)⟩

theorem calExclStart_starts (hwait : (s.calc i).exclWait = some v) (hfence : s.fenceBit (shellPage i) = true)
    (hidle : (s.calc i).phase = .idle) (hop : fld v 1 0 = 1) (hgains : fld (s.rd (calGains i)) 6 0 ≠ 0) :
    Gives (.calExclStart i) s fun t => (t.calc i).exclWait = none ∧ CalBegun s t i true true (fld v 9 3) := by
  refine ⟨_, rfl, ?_⟩
  simp only [hwait, hfence, hidle, hop, beq_self_eq_true, Bool.and_self, if_true]
  exact ⟨(State.calStart_waits ..).2.trans (by rw [State.calc_updCal]), State.calStart_updCal_begins _ _ _ hgains (.inl rfl)⟩

theorem calHeldStart_starts (hheld : (s.calc i).heldCmd = some v) (hidle : (s.calc i).phase = .idle) (hwait : (s.calc i).exclWait = none)
    (hmode : bit v 2 = false) (hop : fld v 1 0 = 1) (hgains : fld (s.rd (calGains i)) 6 0 ≠ 0) :
    Gives (.calHeldStart i) s fun t => (t.calc i).heldCmd = none ∧ CalBegun s t i true false (fld v 9 3) := by
  refine ⟨_, rfl, ?_⟩
  simp only [hheld, hidle, hwait, and_self, if_true]
  rw [State.calAct_starts (by rwa [State.calc_updCal]) (by rwa [State.calc_updCal]) hmode, hop]
  exact ⟨(State.calStart_waits ..).1.trans (by rw [State.calc_updCal]), State.calStart_updCal_begins _ _ _ hgains (.inl rfl)⟩

end

/-- Settles O20: each command by its own lemma; a run that starts is `CalBegun`. -/
theorem calibrationCommandsAct : Obligations.CalibrationCommandsAct := by
  unfold Obligations.CalibrationCommandsAct
  refine ⟨?zero, ?full, ?refused, ?held, ?abort, ?exclusive, ?heldStart⟩
  case zero =>
    intro s f i v hi hmay hfs hmode hidle hwait hgains
    obtain ⟨t, ht, h⟩ := calZero_starts hi hmay (.inl hfs) hmode hidle hwait hgains
    exact ⟨t, ht, h.phase, h.onlyZero, h.excl, h.gains, h.coef, h.charged⟩
  case full =>
    intro s f i v hi hmay hlo hhi hmode hidle hwait hgains hfresh
    obtain ⟨t, ht, h⟩ := calFull_starts hi hmay (.inr ⟨hlo, hhi⟩) hmode hidle hwait hgains hfresh
    exact ⟨t, ht, h.phase, h.onlyZero, h.fs (by omega), h.gains, h.coef, h.charged⟩
  case refused =>
    intro s f i v c hi hmay hne hbad hc
    exact calCmd_refused hi hmay (by simp only [FsTaken]; omega) hc
  case held => exact fun s f i v hi hmay hfs hrun => calFull_held hi hmay (.inl hfs) hrun
  case abort => exact fun s f i v hi hmay hfs => calAbort_ends hi hmay (.inl hfs)
  case exclusive =>
    intro s i v hwait hfence hidle hop hgains
    obtain ⟨t, ht, hnone, h⟩ := calExclStart_starts hwait hfence hidle hop hgains
    exact ⟨t, ht, h.phase, h.excl, hnone, h.coef, h.charged⟩
  case heldStart =>
    intro s i v hheld hidle hwait hmode hop hgains
    obtain ⟨t, ht, hnone, h⟩ := calHeldStart_starts hheld hidle hwait hmode hop hgains
    exact ⟨t, ht, h.phase, hnone, h.coef, h.charged⟩

end Sys2Proof.Machine

namespace Sys2Proof.Machine

/-! ## O21: the course of a calibration run (R126, R130, R133, R134) -/

/-! ### Samples (R126) -/

/-- A sample is counted with its time, and only the engine takes part of it. -/
theorem Stope.takeSample_spec (t : Stope) (ctr now tint : Nat) :
    (t.takeSample ctr now tint).cal.taken = t.cal.taken + 1 ∧ (t.takeSample ctr now tint).cal.lastSample = now ∧
      { t.takeSample ctr now tint with cal := t.cal } = t := by
  unfold Stope.takeSample
  extract_lets g pts c
  have hc : c.taken = t.cal.taken := by
    refine List.foldlRecOn (motive := fun c : Cal => c.taken = t.cal.taken) _ _ rfl fun c hc x _ => ?_
    dsimp only
    split
    · exact hc
    · exact hc
  clear_value c
  exact ⟨congrArg (· + 1) hc, rfl, rfl⟩

/-- Before its 64th sample an end, phase and gain goes on. -/
theorem State.calAdvance_of_lt {s : State} {i : Nat} (h : (s.calc i).taken < 64) : s.calAdvance i = s := if_pos h

/-- What an EXCLUSIVE run is charged for a sample; an INTERLEAVED one has its slot charged. -/
def State.sampleCharged (s : State) (i : Nat) : State := if (s.calc i).excl then s.charge enCheck s.slotCharge else s

theorem State.sampleCharged_spec (s : State) (i : Nat) :
    { s.sampleCharged i with hf := s.hf } = s ∧ ((s.calc i).excl = false → s.sampleCharged i = s) := by
  unfold State.sampleCharged
  split
  · next h => exact ⟨rfl, fun h' => absurd (h.symm.trans h') Bool.noConfusion⟩
  · exact ⟨rfl, fun _ => rfl⟩

theorem calSample_takes {s : State} {i : Nat} (hfree : s.calFree i = true) (hmore : (s.calc i).taken < 63) :
    Gives (.calSample i) s fun t =>
      (t.calc i).taken = (s.calc i).taken + 1 ∧ (t.calc i).lastSample = s.now ∧ { t.stope i with cal := s.calc i } = s.stope i ∧
      (∀ j, j ≠ i → t.stope j = s.stope j) ∧ ((s.calc i).excl = false → t.hf = s.hf) ∧
      { t with stopes := s.stopes, freeCtr := s.freeCtr, hf := s.hf } = s := by
  obtain ⟨htaken, hlast, hrest⟩ := (s.stope i).takeSample_spec s.freeCtr s.now (s.tintFloor i (s.calc i).gain)
  refine ⟨_, congrArg Host.Outcome.next (if_pos hfree), ?_⟩
  dsimp only
  generalize (s.stope i).takeSample s.freeCtr s.now (s.tintFloor i (s.calc i).gain) = x at *
  obtain ⟨hframe, hinter⟩ := s.sampleCharged_spec i
  rw [← State.sampleCharged]
  generalize s.sampleCharged i = u at *
  have hstopes := congrArg State.stopes hframe
  generalize hw : ({ u with freeCtr := u.freeCtr + 74 * 128 } : State).setStope i x = w
  have hstope : w.stope i = x := hw ▸ State.stope_setStope_same ..
  have hcalc : w.calc i = x.cal := congrArg Stope.cal hstope
  have hcount : (w.calc i).taken = (s.calc i).taken + 1 := hcalc ▸ htaken
  rw [State.calAdvance_of_lt (by omega)]
  refine ⟨hcount, hcalc ▸ hlast, hstope ▸ hrest, fun j hj => ?_, fun h => ?_, ?_⟩
  · rw [← hw, State.stope_setStope_other _ _ hj]
    have hj := congrArg (fun t => Table.get Stope.reset t j) hstopes
    exact hj
  · rw [← hw]
    have hhf := congrArg State.hf (hinter h)
    exact hhf
  · rw [← hw]
    exact congrArg (fun y : State => { y with stopes := s.stopes, freeCtr := s.freeCtr }) hframe

/-! ### Slots, deferrals and holds (R133, R134) -/

theorem calSlot_opens {s : State} {i : Nat} (hidle : ∀ q ∈ (s.stope i).seqs, q.busy = false) (hgrant : s.grantOpen (s.calc i).forced = true)
    (hrun : (s.calc i).phase ≠ .idle) (hinter : (s.calc i).excl = false) :
    Gives (.calSlot i) s fun t =>
      t.calc i = { s.calc i with slotOpen := true, slotSince := s.now } ∧ t.hf.spent = s.hf.spent + s.slotCharge ∧ StopeCharged s t i := by
  have hexec : exec (.calSlot i) s =
      .next ((s.charge enCheck s.slotCharge).updCal i fun c => { c with slotOpen := true, slotSince := s.now }) := by
    refine congrArg Host.Outcome.next ((if_pos (by simp [(s.stope i).allIdle_iff.2 hidle, hgrant, hrun])).trans ?_)
    dsimp only
    have hcalc : (s.charge enCheck s.slotCharge).calc i = s.calc i := rfl
    rw [hcalc, if_neg fun h : (s.calc i).due = true ∧ (s.calc i).phase = .idle ∧ (s.calc i).exclWait = none => hrun h.2.1]
    exact if_pos (by simp [hcalc, hrun, hinter])
  exact ⟨_, hexec, State.calc_updCal .., rfl, (StopeCharged.charge ..).trans (.updCal ..)⟩

theorem calDeferExpiry_forces {s : State} {i : Nat} (hdue : (s.calc i).due = true) (hrun : (s.calc i).phase ≠ .idle)
    (hsince : (s.calc i).dueSince + fld (s.rd (calDefer i)) 15 0 * 1000000 ≤ s.now) :
    Gives (.calDeferExpiry i) s fun t => t.calc i = { s.calc i with forced := true } ∧ StopeOnly s t i := by
  have hexec : exec (.calDeferExpiry i) s = .next (s.updCal i fun c => { c with forced := true }) := by
    refine congrArg Host.Outcome.next ((if_pos ⟨hdue, hsince⟩).trans ?_)
    dsimp only
    rw [if_neg fun h => hrun h.1]
  exact ⟨_, hexec, s.calc_updCal .., (CalOnly.updCal ..).2⟩

theorem calHoldTimeout_restarts {s : State} {i h : Nat} (hhold : (s.calc i).holdSince = some h) (hlate : h + 100000 < s.now)
    (hinter : (s.calc i).excl = false) :
    Gives (.calHoldTimeout i) s fun t =>
      (t.calc i).taken = 0 ∧ (t.calc i).gain = (s.calc i).gain ∧ (t.calc i).phase = (s.calc i).phase ∧
      (t.stope i).coef = (s.stope i).coef ∧ StopeOnly s t i := by
  refine ⟨_, rfl, ?_⟩
  rw [hhold]
  dsimp only
  rw [if_pos ⟨hlate, hinter⟩, State.calc_updCal]
  exact ⟨rfl, rfl, rfl, s.coef_updCal .., (CalOnly.updCal ..).2⟩

/-! ### Commits (R130) -/

section
variable {α : Type} [DecidableEq α] {d : α} {l : List (Nat × α)}

/-- A table after entries were put in it one after another: a key that none of them has reads as before. -/
theorem Table.get_foldl_set_other (t : Table α) {k : Nat} (h : ∀ x ∈ l, x.1 ≠ k) :
    Table.get d (l.foldl (fun m x => Table.set d m x.1 x.2) t) k = Table.get d t k := by
  induction l generalizing t with
  | nil => rfl
  | cons x l ih =>
    obtain ⟨hx, hl⟩ := List.forall_mem_cons.1 h
    rw [List.foldl_cons, ih _ hl, Table.get_set_other _ _ _ _ hx.symm]

/-- A key that all entries of its own give one value reads that value. -/
theorem Table.get_foldl_set_mem (t : Table α) {k : Nat} {a : α} (hmem : (k, a) ∈ l) (hone : ∀ b, (k, b) ∈ l → b = a) :
    Table.get d (l.foldl (fun m x => Table.set d m x.1 x.2) t) k = a := by
  induction l generalizing t with
  | nil => exact absurd hmem List.not_mem_nil
  | cons x l ih =>
    rw [List.foldl_cons]
    by_cases hl : (k, a) ∈ l
    · exact ih _ hl fun b hb => hone b (List.mem_cons_of_mem _ hb)
    · obtain rfl : (k, a) = x := (List.mem_cons.1 hmem).resolve_right hl
      rw [Table.get_foldl_set_other, Table.get_set_same]
      rintro ⟨j, b⟩ hb rfl
      exact hl (hone b (List.mem_cons_of_mem _ hb) ▸ hb)

end

/-- The fresh coefficients of a commit unit. -/
def Cal.freshOf (c : Cal) (k : Nat) : Table Word := c.fresh.filter fun x => (commitMacros k).contains (x.1 / 2048)

theorem Cal.mem_freshOf {c : Cal} {k : Nat} {x : Nat × Word} : x ∈ c.freshOf k ↔ x ∈ c.fresh ∧ (commitMacros k).contains (x.1 / 2048) = true :=
  List.mem_filter

theorem calCommit_takes {s : State} {i k : Nat} (hphase : (s.calc i).phase = .commit) (hk : k < 5) (hfree : (s.stope i).commitFree k = true)
    (hopen : bitAt (s.calc i).committed k = false) (hmore : (s.calc i).committed + 2 ^ k ≠ 31) :
    Gives (.calCommit i k) s fun t =>
      (∀ key w, (key, w) ∈ (s.calc i).fresh → (commitMacros k).contains (key / 2048) = true →
        (∀ w', (key, w') ∈ (s.calc i).fresh → w' = w) → Table.get 0x4000 (t.stope i).coef key = w) ∧
      (∀ key, (commitMacros k).contains (key / 2048) = false → Table.get 0x4000 (t.stope i).coef key = Table.get 0x4000 (s.stope i).coef key) ∧
      (t.calc i).committed = (s.calc i).committed + 2 ^ k ∧ (t.calc i).gainValid = (s.calc i).gainValid ∧ StopeOnly s t i := by
  refine ⟨_, congrArg Host.Outcome.next ((if_pos ⟨hphase, hk, hfree, hopen⟩).trans (if_neg ?_)), ?_⟩
  · rw [State.calc, State.stope_updStope_same]
    exact hmore
  simp only [State.calc, State.stope_updStope_same, true_and]
  refine ⟨fun key w hw hmine hone => ?_, fun key hother => ?_, .updStope ..⟩
  · exact Table.get_foldl_set_mem _ (Cal.mem_freshOf.2 ⟨hw, hmine⟩) fun w' hw' => hone w' (Cal.mem_freshOf.1 hw').1
  · refine Table.get_foldl_set_other _ fun x hx he => ?_
    obtain ⟨-, hmine⟩ := Cal.mem_freshOf.1 hx
    rw [he, hother] at hmine
    exact Bool.false_ne_true hmine

/-- Settles O21: samples, slots, deferrals and holds act on the engine alone, and a commit puts one unit's coefficients in. -/
theorem calibrationProceeds : Obligations.CalibrationProceeds :=
  ⟨fun _ _ => calSample_takes, fun _ _ => calSlot_opens, fun _ _ => calDeferExpiry_forces, fun _ _ _ => calHoldTimeout_restarts,
    fun _ _ _ => calCommit_takes⟩

end Sys2Proof.Machine

namespace Sys2Proof.Machine

/-! ## O22: when calibrations and re-plans fall due (R131, R135, R139, R140, R143, R146, R446) -/

/-! ### A calibration that falls due (R135) -/

theorem State.calDue_of_not {s : State} {i : Nat} (h : (s.calc i).due = false) :
    s.calDue i = s.updCal i fun c => { c with due := true, dueSince := s.now } := if_neg (by simp [h])

theorem State.calDue_due (s : State) (i : Nat) : ((s.calDue i).calc i).due = true := by
  unfold State.calDue
  split
  · next h => exact h
  · rw [State.calc_updCal]

theorem State.calDue_calOnly (s : State) (i : Nat) : CalOnly s (s.calDue i) i := by
  unfold State.calDue
  split
  · exact ⟨rfl, fun _ _ => rfl, rfl⟩
  · exact .updCal ..

theorem calIntervalExpiry_due {s : State} {i : Nat} (hnot : (s.calc i).due = false)
    (hsince : (s.calc i).lastDone + s.hf.plan.calInterval * 60000000000 ≤ s.now) :
    Gives (.calIntervalExpiry i) s fun t => t.calc i = { s.calc i with due := true, dueSince := s.now } ∧ StopeOnly s t i :=
  ⟨_, congrArg Host.Outcome.next ((if_pos hsince).trans (State.calDue_of_not hnot)), s.calc_updCal .., (CalOnly.updCal ..).2⟩

/-! ### CAL_GAINS (R135, R150) -/

theorem pageAt_cal {i k : Nat} (hi : i < 256) (hk : k < 0x1000) : pageAt (calPage i + k) = some (.cal, i) := by
  have hn : (calPage i + k) / 0x1000 = 0x102 + 4 * i := by simp only [calPage]; omega
  have hge : ¬ calPage i + k < 0x10000 := by simp only [calPage]; omega
  have h4 : (0x102 + 4 * i) % 4 = 2 := by omega
  have hidx : (0x102 + 4 * i - 0x100) / 4 = i := by omega
  simp only [pageAt, hn, hge, h4, hidx, if_false]
  repeat rw [if_neg (by omega)]
  rw [if_pos (by omega)]

theorem calGains_mod (i : Nat) : calGains i % 0x1000 = 0x108 := by
  simp only [calGains, calPage]
  omega

theorem rowAt_calGains {i : Nat} (hi : i < 256) : rowAt (calGains i) = some (⟨0x108, 1, 4, 1, 4, 0x0000007F, false, [⟨6, 0, .rw, .any⟩]⟩, 0) := by
  rw [rowAt, calGains_mod, calGains, pageAt_cal hi (by omega)]
  rfl

theorem State.storeReg_calGains (s : State) {f i : Nat} {v : Word} (hi : i < 256) :
    s.storeReg f (calGains i) v = s.wr (calGains i) (setFld (s.rd (calGains i)) 6 0 (fld v 6 0)) := by
  have hmask : rgMask (calGains i) = 0 := by
    rw [rgMask, calGains_mod]
    rfl
  refine State.storeReg_eq_wr (rowAt_calGains hi) (homeOff_of_ne_merge (pageAt_cal hi (by omega)) nofun) hmask fun fd hfd n => ?_
  obtain rfl := List.mem_singleton.1 hfd
  rfl

/-- What a permitted write of CAL_GAINS does past its store: added gains make a calibration due. -/
def State.gainsAdded (s : State) (i added : Nat) : State :=
  if added = 0 then s
  else if (s.calc i).phase = .idle then s.calDue i
  else (s.updCal i fun c => { c with addGains := c.addGains ||| added }).calDue i

theorem State.gainsAdded_spec {s : State} {i added : Nat} (h : added ≠ 0) :
    ((s.gainsAdded i added).calc i).due = true ∧ CalOnly s (s.gainsAdded i added) i := by
  rw [State.gainsAdded, if_neg h]
  split
  · exact ⟨s.calDue_due i, s.calDue_calOnly i⟩
  · exact ⟨State.calDue_due .., (CalOnly.updCal ..).trans (State.calDue_calOnly ..)⟩

theorem StopeOnly.rd {s t : State} {i : Nat} (h : StopeOnly s t i) (o : Nat) : t.rd o = s.rd o := by
  have hrd := congrArg (State.rd · o) h.2
  exact hrd

theorem StopeOnly.stopeRegs {s t : State} {i : Nat} (h : StopeOnly s t i) (l : List Nat) : StopeRegs s t i l :=
  ⟨h.1, fun o _ => h.rd o, congrArg (fun x : State => { x with regs := s.regs }) h.2⟩

theorem calGainsWrite_due {s : State} {f i : Nat} {v : Word} (hi : i < 256) (hmay : s.mayWrite f (calGains i) = true)
    (hadded : fld v 6 0 &&& (0x7F ^^^ fld (s.rd (calGains i)) 6 0) ≠ 0) :
    Gives (.calGainsWrite f i v) s fun t =>
      (t.calc i).due = true ∧ fld (t.rd (calGains i)) 6 0 = fld v 6 0 ∧ StopeRegs s t i [calGains i] := by
  have hexec : exec (.calGainsWrite f i v) s = .next ((s.wr (calGains i) (setFld (s.rd (calGains i)) 6 0 (fld v 6 0))).gainsAdded i
      (fld v 6 0 &&& (0x7F ^^^ fld (s.rd (calGains i)) 6 0))) := by
    refine congrArg Host.Outcome.next ((if_neg (by simp [hi, hmay])).trans ?_)
    dsimp only
    rw [s.storeReg_calGains hi]
    rfl
  obtain ⟨hdue, -, honly⟩ := State.gainsAdded_spec (s := s.wr (calGains i) (setFld (s.rd (calGains i)) 6 0 (fld v 6 0))) (i := i) hadded
  have hregs := honly.stopeRegs [calGains i]
  refine ⟨_, hexec, hdue, ?_, (StopeRegs.wr _ _ (by simp)).trans hregs⟩
  rw [honly.rd, State.rd_wr_same, fld_setFld_same _ _ _ _ (by omega) (by omega), Nat.mod_eq_of_lt (fld_lt ..)]

/-! ### Reference rows (R80, R140) -/

/-- What some step of a fold establishes and every step keeps holds at its end. -/
theorem State.each_holds {α : Type} {P : State → Prop} {f : State → α → State} {a : α} {l : List α} (ha : a ∈ l) (hset : ∀ s, P (f s a))
    (hkeep : ∀ s b, P s → P (f s b)) (s : State) : P (s.each l f) := by
  obtain ⟨pre, post, rfl⟩ := List.append_of_mem ha
  have hend : s.each (pre ++ a :: post) f = (f (s.each pre f) a).each post f := by
    simp only [State.each, List.foldl_append, List.foldl_cons]
  rw [hend]
  exact State.each_rel (R := fun t u => P t → P u) (fun _ => id) (fun _ _ _ h h' => h' ∘ h) hkeep _ _ (hset _)

/-- Nothing but stopes changed. -/
def StopesOnly (s t : State) : Prop := { t with stopes := s.stopes } = s

theorem StopesOnly.trans {s t u : State} (h : StopesOnly s t) (h' : StopesOnly t u) : StopesOnly s u := by
  unfold StopesOnly at *
  exact (congrArg (fun x : State => { x with stopes := s.stopes }) h').trans h

theorem State.each_stopesOnly {α : Type} {f : State → α → State} (hf : ∀ s a, StopesOnly s (f s a)) (s : State) (l : List α) :
    StopesOnly s (s.each l f) :=
  State.each_rel (R := StopesOnly) (fun _ => rfl) (fun _ _ _ => StopesOnly.trans) hf s l

/-- A stope that the table does not list is as at reset. -/
theorem State.stope_of_unlisted {s : State} {i : Nat} (h : i ∉ s.stopes.map Prod.fst) : s.stope i = Stope.reset := by
  rw [State.stope]
  generalize s.stopes = t at h
  induction t with
  | nil => rfl
  | cons x t ih =>
    obtain ⟨j, a⟩ := x
    rw [List.map_cons, List.mem_cons, not_or] at h
    exact (if_neg (Ne.symm h.1)).trans (ih h.2)

/-- Whether a cell's key names a reference row of a bank. -/
def refRowKey (bank : Bool) (key : Nat) : Bool := !(decide (key / 256 % 264 < 256) || (key / 67584 % 2 == 1) != bank)

theorem refRowKey_cellKey {bank : Bool} {m row c : Nat} (hrow : row < 264) (hc : c < 256) :
    refRowKey bank (cellKey m bank row c) = decide (256 ≤ row) := by
  have hplace (b : Nat) (hb : b < 2) : (((2 * m + b) * 264 + row) * 256 + c) / 256 % 264 = row ∧
      (((2 * m + b) * 264 + row) * 256 + c) / 67584 % 2 = b := by omega
  cases bank
  · obtain ⟨hr, hb⟩ := hplace 0 (by omega)
    simp only [refRowKey, cellKey, Bool.false_eq_true, if_false, hr, hb]
    simp [← decide_not]
  · obtain ⟨hr, hb⟩ := hplace 1 (by omega)
    simp only [refRowKey, cellKey, if_true, hr, hb]
    simp [← decide_not]

theorem Stope.restoreRows_cells (t : Stope) (bank : Bool) : (t.restoreRows bank).cells = t.cells.filter fun x => !(refRowKey bank x.1) :=
  List.filter_congr fun _ _ => (Bool.not_not _).symm

/-- The bank's reference cells stand at +12, its other cells as they stood. -/
theorem Stope.cell_restoreRows (t : Stope) (bank : Bool) {m row c : Nat} (hrow : row < 264) (hc : c < 256) :
    (t.restoreRows bank).cell m bank row c = if row < 256 then t.cell m bank row c else 12 := by
  rw [Stope.cell, Stope.cell, t.restoreRows_cells, Table.get_filter_key, Table.get_filter_key, refRowKey_cellKey hrow hc]
  by_cases h : row < 256
  · simp [h]
  · simp [h, Nat.not_lt.1 h]

/-- The bank's reference rows restored in every stope. -/
def State.rowsRestored (s : State) (bank : Bool) : State := s.each (s.stopes.map (·.1)) fun s i => s.updStope i fun t => t.restoreRows bank

section
variable (s : State) (bank : Bool) {i m row c : Nat}

theorem State.cell_restoreStep (j : Nat) (hrow : row < 264) (hc : c < 256) :
    ((s.updStope j fun t => t.restoreRows bank).stope i).cell m bank row c =
      if i = j ∧ 256 ≤ row then 12 else (s.stope i).cell m bank row c := by
  by_cases hij : i = j
  · subst hij
    rw [State.stope_updStope_same, Stope.cell_restoreRows _ _ hrow hc]
    by_cases h : row < 256
    · simp [h]
    · simp [h, Nat.not_lt.1 h]
  · rw [State.stope_updStope_other _ _ hij, if_neg fun h => hij h.1]

theorem State.rowsRestored_reference (hlo : 256 ≤ row) (hrow : row < 264) (hc : c < 256) :
    ((s.rowsRestored bank).stope i).cell m bank row c = 12 := by
  have hkeep (u : State) (j : Nat) (h : (u.stope i).cell m bank row c = 12) :
      ((u.updStope j fun t => t.restoreRows bank).stope i).cell m bank row c = 12 := by
    rw [u.cell_restoreStep bank j hrow hc, h, ite_self]
  by_cases hi : i ∈ s.stopes.map Prod.fst
  · refine State.each_holds (P := fun u => (u.stope i).cell m bank row c = 12) hi (fun u => ?_) hkeep s
    exact (u.cell_restoreStep bank i hrow hc).trans (if_pos ⟨rfl, hlo⟩)
  · refine State.each_rel (R := fun u w => (u.stope i).cell m bank row c = 12 → (w.stope i).cell m bank row c = 12) (fun _ => id)
      (fun _ _ _ h h' => h' ∘ h) hkeep s _ ?_
    rw [State.stope_of_unlisted hi, Stope.cell, if_neg (Nat.not_lt.2 hlo)]
    rfl

theorem State.rowsRestored_data (hrow : row < 256) (hc : c < 256) :
    ((s.rowsRestored bank).stope i).cell m bank row c = (s.stope i).cell m bank row c := by
  refine State.each_field (π := fun u => (u.stope i).cell m bank row c) (fun u j => ?_) s _
  exact (u.cell_restoreStep bank j (by omega) hc).trans (if_neg fun h => absurd h.2 (by omega))

theorem State.rowsRestored_stopesOnly : StopesOnly s (s.rowsRestored bank) :=
  State.each_stopesOnly (f := fun s i => s.updStope i fun t => t.restoreRows bank) (fun _ _ => rfl) s _

end

theorem State.calDue_cells (s : State) (j i : Nat) : ((s.calDue j).stope i).cells = (s.stope i).cells := by
  obtain ⟨hengine, hother, -⟩ := s.calDue_calOnly j
  by_cases hij : i = j
  · subst hij
    have h := congrArg Stope.cells hengine
    exact h
  · rw [hother i hij]

/-- A calibration falls due in the stopes of a list. -/
def State.dueAll (s : State) (l : List Nat) : State := s.each l fun s i => s.calDue i

theorem State.dueAll_cell (s : State) (l : List Nat) (i m : Nat) (bank : Bool) (row c : Nat) :
    ((s.dueAll l).stope i).cell m bank row c = (s.stope i).cell m bank row c := by
  have hcells : ((s.dueAll l).stope i).cells = (s.stope i).cells :=
    State.each_field (π := fun u => (u.stope i).cells) (fun u j => u.calDue_cells j i) s l
  rw [Stope.cell, hcells, ← Stope.cell]

theorem State.calDue_keeps_due (s : State) (i j : Nat) (h : (s.calc i).due = true) : ((s.calDue j).calc i).due = true := by
  by_cases hij : i = j
  · exact hij ▸ s.calDue_due i
  · rw [State.calc, (s.calDue_calOnly j).2.1 i hij]
    exact h

theorem State.dueAll_due (s : State) {l : List Nat} {i : Nat} (hi : i ∈ l) : ((s.dueAll l).calc i).due = true :=
  State.each_holds (P := fun u => (u.calc i).due = true) hi (fun u => u.calDue_due i) (fun u j => u.calDue_keeps_due i j) s

theorem State.dueAll_stopesOnly (s : State) (l : List Nat) : StopesOnly s (s.dueAll l) :=
  State.each_stopesOnly (fun u i => (u.calDue_calOnly i).2.2) s l

theorem refRowRestore_restores {s : State} {bank : Bool} (hout : s.factorOut bank = true) :
    Gives (.refRowRestore bank) s fun t =>
      (∀ i, i < 256 → (t.calc i).due = true) ∧
      (∀ i m row c, m < 74 → 256 ≤ row → row < 264 → c < 256 → (t.stope i).cell m bank row c = 12) ∧
      (∀ i m row c, m < 74 → row < 256 → c < 256 → (t.stope i).cell m bank row c = (s.stope i).cell m bank row c) ∧
      { t with stopes := s.stopes } = s := by
  have hexec : exec (.refRowRestore bank) s = .next ((s.rowsRestored bank).dueAll (List.range 256)) := by
    show execRefRowRestore bank s = _
    rw [execRefRowRestore, if_pos hout]
    simp only [State.dueAll, State.rowsRestored]
  refine ⟨_, hexec, fun i hi => ?_, fun i m row c _ hlo hrow hc => ?_, fun i m row c _ hrow hc => ?_, ?_⟩
  · exact (s.rowsRestored bank).dueAll_due (List.mem_range.2 hi)
  · rw [State.dueAll_cell, s.rowsRestored_reference bank hlo hrow hc]
  · rw [State.dueAll_cell, s.rowsRestored_data bank hrow hc]
  · exact (s.rowsRestored_stopesOnly bank).trans (State.dueAll_stopesOnly ..)

/-! ### The die's diagonal groups (R131) -/

theorem ChargedOnly.fenceBit {s t : State} (h : ChargedOnly s t) (p : Nat) : t.fenceBit p = s.fenceBit p := by
  have hnoc := congrArg State.noc h.2
  exact congrArg (fun n : Noc => (Table.get Fence.clear n.fences (blockPage p)).classes != 0) hnoc

theorem State.calStart_charged (s : State) (i : Nat) (zeroOnly excl : Bool) (fs : Nat) : StopeCharged s (s.calStart i zeroOnly excl fs) i := by
  obtain ⟨-, -, hcharged⟩ := s.refEnable_spec i
  exact hcharged.trans (.updCal ..)

theorem State.calAct_charged (s : State) (i : Nat) (v : Word) : StopeCharged s (s.calAct i v) i := by
  unfold State.calAct
  split
  · exact .updCal ..
  · split
    · exact .updCal ..
    · exact s.calStart_charged ..

/-- Without a FENCE an EXCLUSIVE command waits for it (R148). -/
theorem State.calAct_waits {s : State} {i : Nat} {v : Word} (hidle : (s.calc i).phase = .idle) (hwait : (s.calc i).exclWait = none)
    (hmode : bit v 2 = true) (hfence : s.fenceBit (shellPage i) = false) :
    s.calAct i v = s.updCal i fun c => { c with exclWait := some v } := by
  rw [State.calAct, if_neg (by simp [hidle, hwait]), if_pos (by simp [hmode, hfence])]

/-- Commands to several stopes. -/
def State.calAll (s : State) (l : List Nat) (v : Word) : State := s.each l fun s i => s.calAct i v

theorem State.calAll_charged (s : State) (l : List Nat) (v : Word) : ChargedOnly s (s.calAll l v) :=
  State.each_rel (R := ChargedOnly) (fun _ => ⟨rfl, rfl⟩) (fun _ _ _ => ChargedOnly.trans) (fun s i => (s.calAct_charged i v).2) s l

theorem State.calAll_other (s : State) {l : List Nat} (v : Word) {i : Nat} (h : i ∉ l) : (s.calAll l v).stope i = s.stope i := by
  induction l generalizing s with
  | nil => rfl
  | cons j l ih =>
    rw [List.mem_cons, not_or] at h
    exact (ih (s.calAct j v) h.2).trans ((s.calAct_charged j v).1 i h.1)

/-- A stope of the list that is idle and not fenced waits for its FENCE. -/
theorem State.calAll_waits {s : State} {l : List Nat} {v : Word} {i : Nat} (hl : l.Nodup) (hi : i ∈ l) (hidle : (s.calc i).phase = .idle)
    (hwait : (s.calc i).exclWait = none) (hmode : bit v 2 = true) (hfence : s.fenceBit (shellPage i) = false) :
    ((s.calAll l v).calc i).exclWait = some v := by
  induction l generalizing s with
  | nil => exact absurd hi List.not_mem_nil
  | cons j l ih =>
    obtain ⟨hj, hl⟩ := List.nodup_cons.1 hl
    have hstep : s.calAll (j :: l) v = (s.calAct j v).calAll l v := rfl
    rw [hstep]
    rcases List.mem_cons.1 hi with rfl | hi
    · rw [State.calc, State.calAll_other _ v hj, ← State.calc, State.calAct_waits hidle hwait hmode hfence, State.calc_updCal]
    · have hcharged := s.calAct_charged j v
      have hstope : (s.calAct j v).stope i = s.stope i := hcharged.1 i fun h => hj (h ▸ hi)
      have hcalc : (s.calAct j v).calc i = s.calc i := congrArg Stope.cal hstope
      exact ih hl hi (hcalc ▸ hidle) (hcalc ▸ hwait) ((ChargedOnly.fenceBit hcharged.2 _).trans hfence)

/-- The stopes of a diagonal group that lie in a region. -/
def State.diagonal (s : State) (g : Nat) : List Nat :=
  (List.range 256).filter fun i => (i % 16 + i / 16) % 16 == g && (s.stopeRegion i).isSome

theorem State.mem_diagonal {s : State} {g i : Nat} : i ∈ s.diagonal g ↔ i < 256 ∧ (i % 16 + i / 16) % 16 = g ∧ (s.stopeRegion i).isSome = true := by
  simp [State.diagonal]

theorem State.diagonal_nodup (s : State) (g : Nat) : (s.diagonal g).Nodup := List.nodup_range.filter _

theorem calGroup_first {s : State} (hpwr : s.hf.pwr = .cal) (hgroup : s.hf.calGroup = 0) :
    Gives .calGroup s fun t =>
      t.hf.calGroup = 1 ∧ { t.hf with calGroup := s.hf.calGroup, spent := s.hf.spent, charged := s.hf.charged } = s.hf ∧
      (∀ i, i < 256 → (i % 16 + i / 16) % 16 ≠ 0 → t.stope i = s.stope i) ∧
      (∀ i, i < 256 → (i % 16 + i / 16) % 16 = 0 → (s.stopeRegion i).isSome = true → (s.calc i).phase = .idle →
        (s.calc i).exclWait = none → s.fenceBit (shellPage i) = false → (t.calc i).exclWait = some 6) ∧
      { t with stopes := s.stopes, hf := s.hf } = s := by
  have hexec : exec .calGroup s = .next (({ s with hf := { s.hf with calGroup := 1 } } : State).calAll (s.diagonal 0) 6) := by
    refine congrArg Host.Outcome.next ?_
    rw [hgroup]
    exact (if_neg (by simp [hpwr])).trans rfl
  obtain ⟨hhf, hrest⟩ := State.calAll_charged { s with hf := { s.hf with calGroup := 1 } } (s.diagonal 0) 6
  refine ⟨_, hexec, ?_, ?_, fun i _ hg => ?_, fun i hi hg hregion hidle hwait hfence => ?_, ?_⟩
  · exact congrArg Hf.calGroup hhf
  · exact congrArg (fun x : Hf => { x with calGroup := s.hf.calGroup }) hhf
  · exact State.calAll_other _ _ fun h => hg (State.mem_diagonal.1 h).2.1
  · exact State.calAll_waits (s.diagonal_nodup 0) (State.mem_diagonal.2 ⟨hi, hg, hregion⟩) hidle hwait (by decide) hfence
  · exact congrArg (fun x : State => { x with hf := s.hf }) hrest

/-! ### CAL_INT and the re-plans (R139, R146, R446) -/

theorem rowAt_hfCalInt : rowAt hfCalInt = some (⟨0x130, 1, 4, 1, 4, 0x00000168, false, [⟨9, 0, .rw, .range 15 720⟩]⟩, 0) := by decide +kernel

theorem rowAt_hfCtrl : rowAt hfCtrl = some (⟨0x100, 1, 4, 1, 4, 0x00000000, false, [⟨0, 0, .w1s, .any⟩]⟩, 0) := by decide +kernel

/-- The interval rule's counting starts anew in every stope (R139). -/
def State.recounted (s : State) : State := s.each (s.stopes.map (·.1)) fun s j => s.updCal j fun c => { c with quietRuns := 0 }

theorem State.recounted_rd (s : State) (o : Nat) : s.recounted.rd o = s.rd o :=
  State.each_field (π := fun u => u.rd o) (f := fun s j => s.updCal j fun c => { c with quietRuns := 0 }) (fun u j => u.updStope_rd j _ o) s _

theorem State.recounted_hf (s : State) : s.recounted.hf = s.hf :=
  State.each_hf (f := fun s j => s.updCal j fun c => { c with quietRuns := 0 }) (fun u j => u.updStope_hf j _) s _

theorem calIntWrite_replans {s : State} {f : Nat} {v : Word} (hmay : s.mayWrite f hfCalInt = true) (hlo : 15 ≤ fld v 9 0) (hhi : fld v 9 0 ≤ 720) :
    Gives (.calIntWrite f v) s fun t =>
      fld (t.rd hfCalInt) 9 0 = fld v 9 0 ∧ t.hf.causes = s.hf.causes ||| 0x100 ∧
      RegsKept s t [hfCalInt, regErrStatus hfPage, regEvtStatus hfPage] ∧ t.hf.plan = s.hf.plan := by
  obtain ⟨hrd, hregs, hframe⟩ := State.storeReg_spec (s := s) (f := f) (v := v) rowAt_hfCalInt (by decide +kernel) (by decide)
  have hhf := congrArg State.hf hframe
  have hexec : exec (.calIntWrite f v) s = .next (({ s.storeReg f hfCalInt v with
      hf := { (s.storeReg f hfCalInt v).hf with calChanged := (s.storeReg f hfCalInt v).now } } : State).replanCause 8).recounted :=
    congrArg Host.Outcome.next ((if_pos hmay).trans (if_pos ⟨hlo, hhi⟩))
  generalize s.storeReg f hfCalInt v = u at *
  have hcauses := congrArg (fun x : Hf => x.causes ||| 0x100) hhf
  have hplan := congrArg Hf.plan hhf
  refine ⟨_, hexec, ?_, ?_, fun o ho => (State.recounted_rd ..).trans (hregs o ho), ?_⟩
  · rw [State.recounted_rd]
    refine (congrArg (fld · 9 0) hrd).trans ?_
    exact (fld_write_range 9 0 15 720 (s.rd hfCalInt, false) v (by omega) (by omega)).trans (if_pos ⟨hlo, hhi⟩)
  · rw [State.recounted_hf]
    exact hcauses
  · rw [State.recounted_hf]
    exact hplan

/-- REPLAN of the physical function stores nothing: its bit starts the re-plan and reads 0. -/
theorem replan_notes (s : State) :
    Gives (.replan 0) s fun t =>
      t.hf = { s.hf with causes := s.hf.causes ||| 0x100 } ∧ RegsKept s t [hfCtrl] ∧ { t with hf := s.hf, regs := s.regs } = s := by
  have hmay : s.mayWrite 0 hfCtrl = true := rfl
  have hstore : s.storeReg 0 hfCtrl 1 = s.wr hfCtrl (writeFields [⟨0, 0, .w1s, .any⟩] (s.rd hfCtrl) 1).1 :=
    State.storeReg_eq_wr rowAt_hfCtrl (by decide +kernel) (by decide) fun fd hfd _ => by
      obtain rfl := List.mem_singleton.1 hfd
      rfl
  have hexec : exec (.replan 0) s = .next ((s.wr hfCtrl (writeFields [⟨0, 0, .w1s, .any⟩] (s.rd hfCtrl) 1).1).replanCause 8) := by
    refine congrArg Host.Outcome.next ((if_pos hmay).trans ?_)
    dsimp only
    rw [hstore]
    exact if_pos (by decide)
  exact ⟨_, hexec, rfl, fun o ho => s.rd_wr_other _ fun h => ho (by simp [h]), rfl⟩

theorem replanDaily_notes {s : State} (hday : s.hf.plan.adopted + 86400000000000 ≤ s.now) :
    exec .replanDaily s = .next { s with hf := { s.hf with causes := s.hf.causes ||| 1 } } :=
  congrArg Host.Outcome.next (if_pos hday)

/-! ### The hour of the DRAM stacks (R143) -/

/-- What a stack's hour leaves alone: the margin plan, the stopes and the winder. -/
def State.undramed (s : State) : Plan × Table Stope × Wnd := (s.hf.plan, s.stopes, s.wnd)

theorem State.undramed_eq_iff {s t : State} : t.undramed = s.undramed ↔ t.hf.plan = s.hf.plan ∧ t.stopes = s.stopes ∧ t.wnd = s.wnd := by
  simp [State.undramed]

theorem State.dramHour_undramed (s : State) (k : Nat) : (s.dramHour k).undramed = s.undramed := by
  unfold State.dramHour
  extract_lets n worst quiet old new kv hf counted replanned assayed
  clear_value quiet new
  have hreplanned : replanned.undramed = s.undramed := by
    show (if new = old then counted else counted.replanCause 6).undramed = s.undramed
    split
    · rfl
    · rfl
  have hassayed : assayed.undramed = replanned.undramed := State.each_field (fun _ _ => by rfl) replanned _
  exact (State.each_field (π := State.undramed) (fun _ _ => by rfl) assayed _).trans (hassayed.trans hreplanned)

/-- Every stack judged. -/
def State.dramJudged (s : State) : State := s.each (List.range 8) fun s k => s.dramHour k

theorem State.dramJudged_undramed (s : State) : s.dramJudged.undramed = s.undramed :=
  State.each_field (fun s k => s.dramHour_undramed k) s _

theorem dramHourCheck_starts (s : State) :
    Gives .dramHourCheck s fun t => t.kv.ceHour = [] ∧ t.hf.plan = s.hf.plan ∧ t.stopes = s.stopes ∧ t.wnd = s.wnd := by
  have hexec : exec .dramHourCheck s = .next { s.dramJudged with kv := { s.dramJudged.kv with ceHour := [] } } := by
    show execDramHourCheck s = _
    rw [execDramHourCheck, ← State.dramJudged]
  obtain ⟨hplan, hstopes, hwnd⟩ := State.undramed_eq_iff.1 s.dramJudged_undramed
  generalize s.dramJudged = t at *
  exact ⟨_, hexec, rfl, hplan, hstopes, hwnd⟩

/-- Settles O22: each trigger by its own lemma. -/
theorem calibrationFallsDue : Obligations.CalibrationFallsDue := by
  unfold Obligations.CalibrationFallsDue
  exact ⟨fun _ _ => calIntervalExpiry_due, fun _ _ _ _ hi hmay _ => calGainsWrite_due hi hmay, fun _ _ => refRowRestore_restores,
    fun _ => calGroup_first, fun _ _ _ => calIntWrite_replans, dramHourCheck_starts, fun _ => replanDaily_notes, replan_notes⟩

end Sys2Proof.Machine

namespace Sys2Proof.Machine

/-! ## O25: the local copy and vector opcodes (R73, R158) -/

theorem State.dstRange_words {s : State} {c n : Nat} {w : Word} {kv : Bool} {r : Rng} (h : s.dstRange c w n kv = some r) : r.words = n :=
  (rangeOf_of_filter h).1

theorem State.vecRange_words {s : State} {c n : Nat} {w : Word} {r : Rng} (h : s.vecRange c w n = some r) : r.words = n := (rangeOf_of_filter h).1

/-- A destination outside the accumulators and the operand buffers is one that the vector opcodes take. -/
theorem State.dstRange_filter {s : State} {c n : Nat} {w : Word} {b : Rng} (hb : s.dstRange c w n false = some b) (hspace : b.space ≠ 1)
    (hob : b.isOb = false) : (s.dstRange c w n false).filter (fun r => r.space != 1 && !r.isOb) = some b := by
  rw [hb, Option.filter_some_pos (by simp [hspace, hob])]

/-- A descriptor whose words to read are not poisoned, and that its judge lets act unheld, issues; what it reads may be more than its ranges,
or words of them alone. -/
theorem State.issue_acts_unheld {s : State} {c op : Nat} {d : Desc} {r : Running} {a : Act} {judge : State → Desc → Judged}
    (hfetched : (s.core c).fetched = some d) (hrun : (s.core c).run = some r) (hop : fld d.w0 6 0 = op) (hjudge : judge s d = .act a)
    (hholds : s.issueHolds c d a = false) (hclean : ∀ w ∈ a.order 0, s.poisoned w = false) (hsend : a.send = none := by rfl)
    (hrefuse : a.refuse s = 0 := by rfl) : s.issue c op [] judge = s.afterIssue c d r a := by
  have hread : s.checkReads c (a.order (s.core c).part.sent) [] = (.fine, s) :=
    State.checkReads_clean fun w hw => hclean w (List.mem_of_mem_drop hw)
  unfold State.issue
  rw [hfetched, hrun]
  dsimp only
  rw [if_neg (not_not.2 (show d.op = op from hop)), hjudge]
  dsimp only
  rw [hholds, if_neg Bool.false_ne_true, hread]
  dsimp only
  rw [if_pos hrefuse, Act.effect, hsend]
  rfl

/-- What an act of a head's ranges is held by is what the head is. -/
theorem Heads.not_held {s : State} {c : Nat} {d : Desc} {r : Running} {a : Act} (h : Heads s c d r a.reads a.writes) :
    s.issueHolds c d a = false := by
  obtain ⟨-, -, -, hfree, -⟩ := h
  exact hfree

theorem Heads.fetched_eq {s : State} {c : Nat} {d : Desc} {r : Running} {rs ws : List Rng} (h : Heads s c d r rs ws) :
    (s.core c).fetched = some d := by
  obtain ⟨hfetched, -, -, -, -⟩ := h
  exact hfetched

theorem State.issue_acts_of_order {s : State} {c op : Nat} {d : Desc} {r : Running} {rs : List Rng} {a : Act} {judge : State → Desc → Judged}
    (h : Heads s c d r rs a.writes) (hop : fld d.w0 6 0 = op) (hjudge : judge s d = .act a) (hreads : a.reads = rs := by rfl)
    (hclean : ∀ w ∈ a.order 0, s.poisoned w = false) (hsend : a.send = none := by rfl) (hrefuse : a.refuse s = 0 := by rfl) :
    s.issue c op [] judge = s.afterIssue c d r a := by
  subst hreads
  exact State.issue_acts_unheld h.fetched_eq h.run_eq hop hjudge h.not_held hclean hsend hrefuse

/-- An opcode that writes one range: once its descriptor has issued, the range holds what the effect wrote and nothing beside it moved. -/
theorem State.issue_writes_range {s : State} {c op : Nat} {d : Desc} {r : Running} {rs : List Rng} {b : Rng} {a : Act}
    {judge : State → Desc → Judged} (f : State → List Byte) {bs : List Byte} (h : Heads s c d r rs [b]) (hop : fld d.w0 6 0 = op)
    (hjudge : judge s d = .act a) (hrun : ∀ t, a.run t = t.wrRange c b (f t)) (hbytes : f (s.withIssued c d r a) = bs)
    (hlen : bs.length = 8 * b.words) (hclean : ∀ w ∈ a.order 0, s.poisoned w = false) (hreads : a.reads = rs := by rfl)
    (hwrites : a.writes = [b] := by rfl) (hawait : a.await = .nothing := by rfl) (hearly : a.early = false := by rfl)
    (hsend : a.send = none := by rfl) (hrefuse : a.refuse s = 0 := by rfl) :
    (s.issue c op [] judge).rdRange c b = bs ∧ RangeOnly s (s.issue c op [] judge) c b ∧
      IssuedOn s (s.issue c op [] judge) c d r rs [b] .nothing := by
  have hheads : Heads s c d r rs a.writes := hwrites ▸ h
  rw [State.issue_acts_of_order hheads hop hjudge hreads hclean hsend hrefuse]
  obtain ⟨hread, honly, hkept⟩ := State.afterIssue_wrRange f hrun (hbytes ▸ hlen)
  have hissued := State.afterIssue_issuedOn (rs := rs) (ws := [b]) hkept (by rw [Act.entries, hearly, hreads, hwrites]; rfl)
  rw [hawait] at hissued
  exact ⟨hread.trans hbytes, honly, hissued⟩

/-- The ranges that a descriptor heads its core with are clean. -/
theorem Heads.clean {s : State} {c : Nat} {d : Desc} {r : Running} {rs ws : List Rng} (h : Heads s c d r rs ws) :
    ∀ w ∈ rs.flatMap Rng.wordList, s.poisoned w = false := by
  obtain ⟨-, -, -, -, hclean⟩ := h
  exact hclean

theorem Act.order_zero (a : Act) : a.order 0 = a.words.getD ((a.reads ++ a.also).flatMap Rng.wordList) := List.drop_zero

/-- A descriptor that reads its ranges alone, all of them, reads clean words. -/
theorem Heads.order_clean {s : State} {c : Nat} {d : Desc} {r : Running} {ws : List Rng} {a : Act} (h : Heads s c d r a.reads ws)
    (hwords : a.words = none := by rfl) (halso : a.also = [] := by rfl) : ∀ w ∈ a.order 0, s.poisoned w = false := by
  rw [Act.order_zero, hwords, halso, List.append_nil]
  exact h.clean

/-- An opcode that writes lanes to one range. -/
theorem State.issue_writes_lanes {s : State} {c op : Nat} {d : Desc} {r : Running} {rs : List Rng} {b : Rng} {a : Act}
    {judge : State → Desc → Judged} (f : State → List Word) {ls : List Word} (h : Heads s c d r rs [b]) (hop : fld d.w0 6 0 = op)
    (hjudge : judge s d = .act a) (hrun : ∀ t, a.run t = t.wrRange c b (laneBytes (f t))) (hlanes : f (s.withIssued c d r a) = ls)
    (hlen : ls.length = 2 * b.words) (hclean : ∀ w ∈ a.order 0, s.poisoned w = false) (hreads : a.reads = rs := by rfl)
    (hwrites : a.writes = [b] := by rfl) (hawait : a.await = .nothing := by rfl) (hearly : a.early = false := by rfl)
    (hsend : a.send = none := by rfl) (hrefuse : a.refuse s = 0 := by rfl) :
    (s.issue c op [] judge).rdLanes c b = ls ∧ RangeOnly s (s.issue c op [] judge) c b ∧
      IssuedOn s (s.issue c op [] judge) c d r rs [b] .nothing := by
  obtain ⟨hread, honly, hissued⟩ := State.issue_writes_range (fun t => laneBytes (f t)) h hop hjudge hrun (congrArg laneBytes hlanes)
    (by rw [length_laneBytes]; omega) hclean hreads hwrites hawait hearly hsend hrefuse
  refine ⟨?_, honly, hissued⟩
  rw [State.rdLanes, hread, lanes_laneBytes]

/-! ### FILL, DMA and DMA2D -/

/-- What FILL does. -/
abbrev fillAct (c : Nat) (d : Desc) (b : Rng) : Act :=
  { reads := [], writes := [b],
    run := fun t => t.wrRange c b ((List.replicate b.words (leBytes 4 d.w1.toNat ++ leBytes 4 d.w2.toNat)).flatten) }

theorem State.fillJudge_acts {s : State} {c : Nat} {d : Desc} {b : Rng} (hlen : d.len ≠ 0) (hfunc : d.func = 0)
    (hb : s.dstRange c d.w3 d.len false = some b) : s.fillJudge c d = .act (fillAct c d b) := by
  unfold State.fillJudge
  rw [hfunc, hb]
  exact judgeWith_acts hlen

theorem fill_gives {s : State} {c : Nat} {d : Desc} {r : Running} {b : Rng} (h : Heads s c d r [] [b]) (hop : fld d.w0 6 0 = 0x03)
    (hfunc : d.func = 0) (hb : s.dstRange c d.w3 d.len false = some b) :
    Gives (.fill c []) s fun t =>
      t.rdRange c b = (List.replicate d.len (leBytes 4 d.w1.toNat ++ leBytes 4 d.w2.toNat)).flatten ∧ RangeOnly s t c b ∧
      IssuedOn s t c d r [] [b] .nothing := by
  have hwords := State.dstRange_words hb
  refine ⟨_, rfl, State.issue_writes_range (judge := fun s d => s.fillJudge c d) _ h hop (State.fillJudge_acts h.len_ne_zero hfunc hb)
    (fun _ => rfl) (by rw [hwords]) ?_ h.order_clean⟩
  simp [hwords, Nat.mul_comm]

/-- What a fill records moves nothing but its core's own record. -/
theorem State.noteFill_coresTouched (s : State) (c : Nat) (b : Rng) (src : Source) : CoresTouched s (s.noteFill c b src) := by
  unfold State.noteFill
  split
  · exact .updCore s c (fun _ => rfl) fun _ => rfl
  · split
    · split
      · exact .updCore s 256 (fun _ => rfl) fun _ => rfl
      · exact .refl s
    · exact .refl s

/-- What a copy to local memory does. -/
abbrev copyAct (c : Nat) (src : Source) (b : Rng) : Act :=
  { reads := src.reads, writes := [b], words := src.words, run := fun t => (t.wrRange c b (src.bytes t)).noteFill c b src }

/-- A copy whose destination is local memory acts. -/
theorem State.copyJudge_local {s : State} {c n : Nat} {d : Desc} {src : Source} {fab : Bool} {w : Word} {b : Rng} (h3 : spaceOf d.w3 ≠ 3)
    (h4 : spaceOf d.w3 ≠ 4) (h5 : spaceOf d.w3 ≠ 5) (hkv : src.kv = none) (hb : s.dstRange c d.w3 n false = some b) :
    s.copyJudge c d src n fab w = some (.inr (copyAct c src b)) := by
  unfold State.copyJudge
  split
  · exact absurd ‹_› h3
  · exact absurd ‹_› h4
  · exact absurd ‹_› h5
  · rw [hkv, Option.isSome_none, hb]

theorem judgeCopy_acts {d : Desc} {a : Act} (hlen : d.len ≠ 0) : judgeCopy false d (some (.inr a)) = .act a := if_neg hlen

/-- What a write to a range leaves alone does not hang on the cores. -/
theorem RangeOnly.of_coresTouched {s t u : State} {c : Nat} {b : Rng} (h : RangeOnly s t c b) (hcores : CoresTouched t u) : RangeOnly s u c b :=
  (congrArg (fun x => RangeOnly s x c b) hcores.rest).mpr h

theorem CoresTouched.rdRange {s t : State} (h : CoresTouched s t) (c : Nat) (b : Rng) : t.rdRange c b = s.rdRange c b :=
  (congrArg (fun x : State => x.rdRange c b) h.rest :)

/-- A copy to local memory: once it has issued, its destination holds the source's bytes. -/
theorem State.issue_copies {s : State} {c op : Nat} {d : Desc} {r : Running} {src : Source} {b : Rng} {judge : State → Desc → Judged}
    {bs : List Byte} (h : Heads s c d r src.reads [b]) (hop : fld d.w0 6 0 = op) (hjudge : judge s d = .act (copyAct c src b))
    (hbytes : src.bytes (s.withIssued c d r (copyAct c src b)) = bs) (hlen : bs.length = 8 * b.words)
    (hclean : ∀ w ∈ (copyAct c src b).order 0, s.poisoned w = false) :
    (s.issue c op [] judge).rdRange c b = bs ∧ RangeOnly s (s.issue c op [] judge) c b ∧
      IssuedOn s (s.issue c op [] judge) c d r src.reads [b] .nothing := by
  subst hbytes
  rw [State.issue_acts_of_order h hop hjudge rfl hclean]
  set u := s.withIssued c d r (copyAct c src b)
  have hnoted := (u.wrRange c b (src.bytes u)).noteFill_coresTouched c b src
  refine ⟨?_, .afterIssue ?_, State.afterIssue_issuedOn ((State.wrRange_issuesKept u c b _).trans hnoted.issues)⟩
  · exact (hnoted.rdRange c b).trans (State.rdRange_wrRange u c b hlen)
  · exact (State.wrRange_rangeOnly u c b hlen).of_coresTouched hnoted

/-- The bytes of a DMA's local source: they are as many as the copy's length says, and no core's descriptors are among them. -/
theorem State.dmaSource_bytes {s : State} {c n : Nat} {w : Word} {src : Source} (h : s.dmaSource c w n = some src) (hkv : src.kv = none) :
    src.words = none ∧ (∀ t, (src.bytes t).length = 8 * n) ∧ ∀ (t : State) (k : Table Core), src.bytes { t with cores := k } = src.bytes t := by
  unfold State.dmaSource at h
  split at h
  · split at h
    · obtain rfl := Option.some.inj h
      refine ⟨rfl, fun t => ?_, fun t k => rfl⟩
      simp [List.length_flatMap]
      omega
    · exact absurd h nofun
  · dsimp only at h
    split at h
    · obtain rfl := Option.some.inj h
      exact absurd hkv nofun
    · exact absurd h nofun
  · obtain ⟨a, ha, h⟩ := Option.bind_eq_some_iff.1 h
    split at h
    · exact absurd h nofun
    · obtain rfl := Option.some.inj h
      exact ⟨rfl, fun t => by rw [State.length_rdRange, State.rangeOf_words ha], fun t k => rfl⟩

theorem State.dmaJudge_acts {s : State} {c : Nat} {d : Desc} {src : Source} {b : Rng} (hlen : d.len ≠ 0) (hfunc : d.func = 0) (hw2 : d.w2 = 0)
    (hsrc : s.dmaSource c d.w1 d.len = some src) (hkv : src.kv = none) (h3 : spaceOf d.w3 ≠ 3) (h4 : spaceOf d.w3 ≠ 4) (h5 : spaceOf d.w3 ≠ 5)
    (hb : s.dstRange c d.w3 d.len false = some b) : s.dmaJudge c d = .act (copyAct c src b) := by
  unfold State.dmaJudge
  dsimp only
  rw [hsrc]
  dsimp only
  rw [hkv]
  dsimp only
  rw [hfunc, hw2, if_neg h4, State.copyJudge_local h3 h4 h5 hkv hb]
  exact judgeCopy_acts hlen

theorem dma_gives {s : State} {c : Nat} {d : Desc} {r : Running} {src : Source} {b : Rng} (h : Heads s c d r src.reads [b])
    (hop : fld d.w0 6 0 = 0x01) (hfunc : d.func = 0) (hw2 : d.w2 = 0) (hsrc : s.dmaSource c d.w1 d.len = some src) (hkv : src.kv = none)
    (h3 : spaceOf d.w3 ≠ 3) (h4 : spaceOf d.w3 ≠ 4) (h5 : spaceOf d.w3 ≠ 5) (hb : s.dstRange c d.w3 d.len false = some b) :
    Gives (.dma c []) s fun t => t.rdRange c b = src.bytes s ∧ RangeOnly s t c b ∧ IssuedOn s t c d r src.reads [b] .nothing := by
  obtain ⟨hwords, hlen, hcores⟩ := State.dmaSource_bytes hsrc hkv
  refine ⟨_, rfl, State.issue_copies (judge := fun s d => s.dmaJudge c d) h hop
    (State.dmaJudge_acts h.len_ne_zero hfunc hw2 hsrc hkv h3 h4 h5 hb) (hcores s _) ?_ (h.order_clean (a := copyAct c src b) hwords)⟩
  rw [hlen, State.dstRange_words hb]

/-- DMA2D's source: rows of a range, each some words after the one before. -/
def rowSource (c row stride rows : Nat) (a : Rng) : Source :=
  { reads := [a], kv := none,
    words := if a.space = 1 then none else some ((List.range rows).flatMap fun i => (List.range row).map fun j => a.start / 8 + i * stride + j),
    pieces := (List.range rows).map fun i => (a.start + 8 * (i * stride), 8 * row),
    bytes := fun t => (List.range rows).flatMap fun i => ((t.rdRange c a).drop (i * stride * 8)).take (row * 8) }

/-- Each row of a DMA2D lies in the range that the last one ends. -/
theorem row_within {rows row stride i : Nat} (hi : i < rows) : i * stride + row ≤ (rows - 1) * stride + row := by
  have := Nat.mul_le_mul_right stride (show i ≤ rows - 1 by omega)
  omega

theorem State.length_rowSource {row stride rows c : Nat} {a : Rng} (ha : a.words = (rows - 1) * stride + row) (t : State) :
    ((rowSource c row stride rows a).bytes t).length = 8 * (rows * row) := by
  have hrow : ∀ i ∈ List.range rows, (((t.rdRange c a).drop (i * stride * 8)).take (row * 8)).length = row * 8 := fun i hi => by
    have := row_within (row := row) (stride := stride) (List.mem_range.1 hi)
    rw [List.length_take, List.length_drop, State.length_rdRange, ha]
    omega
  rw [rowSource, List.length_flatMap, List.map_congr_left hrow]
  simp only [List.map_const', List.length_range, List.sum_replicate, smul_eq_mul]
  ring

/-- The words that DMA2D reads are words of its source's range. -/
theorem Heads.rows_clean {s : State} {c row stride rows : Nat} {d : Desc} {r : Running} {a b : Rng} (h : Heads s c d r [a] [b])
    (ha : a.words = (rows - 1) * stride + row) : ∀ w ∈ (copyAct c (rowSource c row stride rows a) b).order 0, s.poisoned w = false := by
  intro w hw
  have hclean := h.clean w
  rw [Act.order_zero, copyAct, rowSource] at hw
  dsimp only at hw
  by_cases hspace : a.space = 1
  · rw [if_pos hspace, Option.getD_none, List.append_nil] at hw
    exact hclean hw
  · rw [if_neg hspace, Option.getD_some] at hw
    obtain ⟨i, hi, hw⟩ := List.mem_flatMap.1 hw
    obtain ⟨j, hj, rfl⟩ := List.mem_map.1 hw
    have hlast := row_within (row := row) (stride := stride) (List.mem_range.1 hi)
    have hj := List.mem_range.1 hj
    refine hclean (List.mem_flatMap.2 ⟨a, List.mem_singleton_self a, ?_⟩)
    rw [Rng.wordList, if_neg hspace]
    exact List.mem_map.2 ⟨i * stride + j, List.mem_range.2 (by omega), by omega⟩

theorem State.dma2dJudge_acts {s : State} {c : Nat} {d : Desc} {a b : Rng} (hlen : d.len ≠ 0) (hfunc : d.func = 0) (hrow : fld d.w2 11 0 ≠ 0)
    (hdiv : d.len % fld d.w2 11 0 = 0)
    (ha : s.rangeOf c d.w1 ((d.len / fld d.w2 11 0 - 1) * fld d.w2 31 12 + fld d.w2 11 0) = some a) (hob : a.isOb = false)
    (h3 : spaceOf d.w3 ≠ 3) (h4 : spaceOf d.w3 ≠ 4) (h5 : spaceOf d.w3 ≠ 5) (hb : s.dstRange c d.w3 d.len false = some b) :
    s.dma2dJudge c d = .act (copyAct c (rowSource c (fld d.w2 11 0) (fld d.w2 31 12) (d.len / fld d.w2 11 0) a) b) := by
  have hrows : d.len / fld d.w2 11 0 ≠ 0 := by
    rw [Nat.div_ne_zero_iff]
    exact ⟨hrow, Nat.le_of_dvd (Nat.pos_of_ne_zero hlen) (Nat.dvd_of_mod_eq_zero hdiv)⟩
  unfold State.dma2dJudge
  dsimp only
  rw [if_neg hrow, if_neg hrows, ha, Option.filter_some_pos (by simp [hob])]
  dsimp only
  have hok : (fld d.w2 11 0 != 0 && d.len % fld d.w2 11 0 == 0) = true := by simp [hrow, hdiv]
  rw [hok, if_pos rfl, hfunc]
  have hcopy := State.copyJudge_local (fab := false) (w := 0) h3 h4 h5
    (src := rowSource c (fld d.w2 11 0) (fld d.w2 31 12) (d.len / fld d.w2 11 0) a) rfl hb
  exact (congrArg (judgeCopy false d) hcopy).trans (judgeCopy_acts hlen)

theorem dma2d_gives {s : State} {c : Nat} {d : Desc} {r : Running} {a b : Rng} (h : Heads s c d r [a] [b]) (hop : fld d.w0 6 0 = 0x02)
    (hfunc : d.func = 0) (hrow : fld d.w2 11 0 ≠ 0) (hdiv : d.len % fld d.w2 11 0 = 0)
    (ha : s.rangeOf c d.w1 ((d.len / fld d.w2 11 0 - 1) * fld d.w2 31 12 + fld d.w2 11 0) = some a) (hob : a.isOb = false)
    (h3 : spaceOf d.w3 ≠ 3) (h4 : spaceOf d.w3 ≠ 4) (h5 : spaceOf d.w3 ≠ 5) (hb : s.dstRange c d.w3 d.len false = some b) :
    Gives (.dma2d c []) s fun t =>
      t.rdRange c b = (List.range (d.len / fld d.w2 11 0)).flatMap
        (fun i => ((s.rdRange c a).drop (8 * (i * fld d.w2 31 12))).take (8 * fld d.w2 11 0)) ∧
      RangeOnly s t c b ∧ IssuedOn s t c d r [a] [b] .nothing := by
  have hwords := State.rangeOf_words ha
  refine ⟨_, rfl, State.issue_copies (judge := fun s d => s.dma2dJudge c d) h hop
    (State.dma2dJudge_acts h.len_ne_zero hfunc hrow hdiv ha hob h3 h4 h5 hb) ?_ ?_ (h.rows_clean hwords)⟩
  · simp only [rowSource, State.withIssued_rdRange, Nat.mul_comm]
  · have hlength := State.length_rowSource (c := c) hwords s
    rw [Nat.div_mul_cancel (Nat.dvd_of_mod_eq_zero hdiv)] at hlength
    rw [State.dstRange_words hb]
    simpa only [rowSource, Nat.mul_comm] using hlength

/-! ### The elementwise opcodes -/

/-- The second operand of VBIN and VFMA has two lanes for each of the length's words, and none of them is a core's. -/
theorem State.secondOp_lanes {s : State} {c : Nat} {d : Desc} {rs : List Rng} {ys : State → List Word} (h : s.secondOp c d = some (rs, ys)) :
    (∀ t, (ys t).length = 2 * d.len) ∧ ∀ (t : State) (k : Table Core), ys { t with cores := k } = ys t := by
  unfold State.secondOp at h
  split at h
  · obtain ⟨-, rfl⟩ := Prod.mk.inj (Option.some.inj h)
    exact ⟨fun t => List.length_replicate, fun _ _ => rfl⟩
  · obtain ⟨q, hq, h⟩ := Option.map_eq_some_iff.1 h
    obtain ⟨-, rfl⟩ := Prod.mk.inj h
    exact ⟨fun t => by rw [State.length_rdLanes, State.vecRange_words hq], fun _ _ => rfl⟩

/-- What VBIN does. -/
abbrev vbinAct (c : Nat) (f : Word → Word → Word) (a b : Rng) (rs : List Rng) (ys : State → List Word) : Act :=
  { reads := a :: rs, writes := [b], run := fun t => t.wrRange c b (laneBytes (((t.rdLanes c a).zip (ys t)).map fun p => f p.1 p.2)) }

theorem State.vbinJudge_acts {s : State} {c : Nat} {d : Desc} {f : Word → Word → Word} {a b : Rng} {rs : List Rng} {ys : State → List Word}
    (hlen : d.len ≠ 0) (hrsv : bitAt d.func 4 = false) (hf : vbinOp (bitsOf d.func 2 0) = some f) (ha : s.vecRange c d.w1 d.len = some a)
    (hys : s.secondOp c d = some (rs, ys)) (hb : (s.dstRange c d.w3 d.len false).filter (fun r => r.space != 1 && !r.isOb) = some b) :
    s.vbinJudge c d = .act (vbinAct c f a b rs ys) := by
  unfold State.vbinJudge
  rw [hrsv, hf, ha, hys, hb]
  exact judgeWith_acts hlen

theorem vbin_gives {s : State} {c : Nat} {d : Desc} {r : Running} {a b : Rng} {rs : List Rng} {ys : State → List Word}
    {f : Word → Word → Word} (h : Heads s c d r (a :: rs) [b]) (hop : fld d.w0 6 0 = 0x10) (hrsv : bitAt d.func 4 = false)
    (hf : vbinOp (bitsOf d.func 2 0) = some f) (ha : s.vecRange c d.w1 d.len = some a) (hys : s.secondOp c d = some (rs, ys))
    (hb : s.dstRange c d.w3 d.len false = some b) (hspace : b.space ≠ 1) (hob : b.isOb = false) :
    Gives (.vbin c []) s fun t =>
      t.rdLanes c b = ((s.rdLanes c a).zip (ys s)).map (fun p => f p.1 p.2) ∧ RangeOnly s t c b ∧ IssuedOn s t c d r (a :: rs) [b] .nothing := by
  obtain ⟨hcount, hcores⟩ := State.secondOp_lanes hys
  refine ⟨_, rfl, State.issue_writes_lanes (judge := fun s d => s.vbinJudge c d) _ h hop
    (State.vbinJudge_acts h.len_ne_zero hrsv hf ha hys (State.dstRange_filter hb hspace hob)) (fun _ => rfl) ?_ ?_ h.order_clean⟩
  · rw [State.withIssued_rdLanes, State.withIssued, State.updCore, State.setCore, hcores]
  · simp [hcount, State.vecRange_words ha, State.dstRange_words hb]

/-- What VFMA does. -/
abbrev vfmaAct (c : Nat) (a b : Rng) (rs : List Rng) (ys : State → List Word) : Act :=
  { reads := a :: rs, writes := [b], also := [b],
    run := fun t => t.wrRange c b (laneBytes ((((t.rdLanes c a).zip (ys t)).zip (t.rdLanes c b)).map fun p => fFma p.1.1 p.1.2 p.2)) }

theorem State.vfmaJudge_acts {s : State} {c : Nat} {d : Desc} {a b : Rng} {rs : List Rng} {ys : State → List Word} (hlen : d.len ≠ 0)
    (hfunc : bitsOf d.func 2 0 = 0) (hrsv : bitAt d.func 4 = false) (ha : s.vecRange c d.w1 d.len = some a)
    (hys : s.secondOp c d = some (rs, ys)) (hb : (s.dstRange c d.w3 d.len false).filter (fun r => r.space != 1 && !r.isOb) = some b) :
    s.vfmaJudge c d = .act (vfmaAct c a b rs ys) := by
  unfold State.vfmaJudge
  rw [hfunc, hrsv, ha, hys, hb]
  exact judgeWith_acts hlen

theorem vfma_gives {s : State} {c : Nat} {d : Desc} {r : Running} {a b : Rng} {rs : List Rng} {ys : State → List Word}
    (h : Heads s c d r (a :: rs) [b]) (hclean : ∀ w ∈ b.wordList, s.poisoned w = false) (hop : fld d.w0 6 0 = 0x11)
    (hfunc : bitsOf d.func 2 0 = 0) (hrsv : bitAt d.func 4 = false) (ha : s.vecRange c d.w1 d.len = some a)
    (hys : s.secondOp c d = some (rs, ys)) (hb : s.dstRange c d.w3 d.len false = some b) (hspace : b.space ≠ 1) (hob : b.isOb = false) :
    Gives (.vfma c []) s fun t =>
      t.rdLanes c b = (((s.rdLanes c a).zip (ys s)).zip (s.rdLanes c b)).map (fun p => fFma p.1.1 p.1.2 p.2) ∧ RangeOnly s t c b ∧
      IssuedOn s t c d r (a :: rs) [b] .nothing := by
  obtain ⟨hcount, hcores⟩ := State.secondOp_lanes hys
  have hreads : ∀ w ∈ (vfmaAct c a b rs ys).order 0, s.poisoned w = false := fun w hw => by
    rw [Act.order_zero, Option.getD_none, List.flatMap_append] at hw
    obtain hw | hw := List.mem_append.1 hw
    · exact h.clean w hw
    · exact hclean w (by simpa using hw)
  refine ⟨_, rfl, State.issue_writes_lanes (judge := fun s d => s.vfmaJudge c d) _ h hop
    (State.vfmaJudge_acts h.len_ne_zero hfunc hrsv ha hys (State.dstRange_filter hb hspace hob)) (fun _ => rfl) ?_ ?_ hreads⟩
  · rw [State.withIssued_rdLanes, State.withIssued_rdLanes, State.withIssued, State.updCore, State.setCore, hcores]
  · simp [hcount, State.vecRange_words ha, State.dstRange_words hb]

/-! ### VCVT and VRED -/

theorem bitsOf_low {n : Nat} (h : n < 4) : bitsOf n 1 0 = n := by
  simp only [bitsOf]
  omega

/-- A conversion of a length's words fits the words that it writes. -/
theorem length_vcvtBytes {k n : Nat} {bs : List Byte} (h : bs.length = 8 * n) : (vcvtBytes k bs).length ≤ 8 * vcvtWords k n := by
  have hlanes : (lanes bs).length = 2 * n := length_lanes (by omega)
  have hhalf (f : Word → Nat) : ((lanes bs).flatMap fun x => leBytes 2 (f x)).length ≤ 8 * cdiv n 2 := by
    simp only [List.length_flatMap, length_leBytes, List.map_const', List.sum_replicate, smul_eq_mul, hlanes, cdiv, OfNat.ofNat_ne_zero, if_false]
    omega
  unfold vcvtBytes vcvtWords
  match k with
  | 0 =>
    show (laneBytes _).length ≤ 8 * n
    rw [length_laneBytes, List.length_map, hlanes]
    omega
  | 1 => exact hhalf _
  | 2 =>
    simp only [List.length_flatMap, length_leBytes, List.map_const', List.sum_replicate, smul_eq_mul, length_chunks, h, cdiv, OfNat.ofNat_ne_zero,
      if_false]
    omega
  | k + 3 => exact hhalf _

/-- What VCVT does. -/
abbrev vcvtAct (c : Nat) (d : Desc) (a b : Rng) : Act :=
  { reads := [a], writes := [b], run := fun t => t.wrRange c b (padTo (8 * vcvtWords d.func d.len) (vcvtBytes d.func (t.rdRange c a))) }

theorem State.vcvtJudge_acts {s : State} {c : Nat} {d : Desc} {a b : Rng} (hlen : d.len ≠ 0) (hfunc : d.func < 4) (hw2 : d.w2 = 0)
    (ha : s.vecRange c d.w1 d.len = some a)
    (hb : (s.dstRange c d.w3 (vcvtWords d.func d.len) false).filter (fun r => r.space != 1 && !r.isOb) = some b) :
    s.vcvtJudge c d = .act (vcvtAct c d a b) := by
  unfold State.vcvtJudge
  dsimp only
  rw [Nat.div_eq_of_lt hfunc, hw2, bitsOf_low hfunc, ha, hb]
  exact judgeWith_acts hlen

theorem vcvt_gives {s : State} {c : Nat} {d : Desc} {r : Running} {a b : Rng} (h : Heads s c d r [a] [b]) (hop : fld d.w0 6 0 = 0x12)
    (hfunc : d.func < 4) (hw2 : d.w2 = 0) (ha : s.vecRange c d.w1 d.len = some a)
    (hb : s.dstRange c d.w3 (vcvtWords d.func d.len) false = some b) (hspace : b.space ≠ 1) (hob : b.isOb = false) :
    Gives (.vcvt c []) s fun t =>
      t.rdRange c b = padTo (8 * vcvtWords d.func d.len) (vcvtBytes d.func (s.rdRange c a)) ∧ RangeOnly s t c b ∧
      IssuedOn s t c d r [a] [b] .nothing := by
  refine ⟨_, rfl, State.issue_writes_range (judge := fun s d => s.vcvtJudge c d) _ h hop
    (State.vcvtJudge_acts h.len_ne_zero hfunc hw2 ha (State.dstRange_filter hb hspace hob)) (fun _ => rfl) ?_ ?_ h.order_clean⟩
  · rw [State.withIssued_rdRange]
  · have hfits := length_vcvtBytes (k := d.func) (n := d.len) (bs := s.rdRange c a) (by rw [State.length_rdRange, State.vecRange_words ha])
    rw [length_padTo, State.dstRange_words hb]
    omega

/-- What VRED does. -/
abbrev vredAct (c : Nat) (d : Desc) (a b : Rng) : Act :=
  { reads := [a], writes := [b],
    run := fun t => { t with freeCtr := t.freeCtr + 1 }.wrRange c b (laneBytes [vredValue d.func (t.rdLanes c a), Config.spareLane t.freeCtr]) }

theorem State.vredJudge_acts {s : State} {c : Nat} {d : Desc} {a b : Rng} (hlen : d.len ≠ 0) (hfunc : d.func < 4) (hw2 : d.w2 = 0)
    (ha : s.vecRange c d.w1 d.len = some a) (hb : (s.dstRange c d.w3 1 false).filter (fun r => r.space != 1 && !r.isOb) = some b) :
    s.vredJudge c d = .act (vredAct c d a b) := by
  unfold State.vredJudge
  rw [Nat.div_eq_of_lt hfunc, hw2, bitsOf_low hfunc, ha, hb]
  exact judgeWith_acts hlen

theorem vred_gives {s : State} {c : Nat} {d : Desc} {r : Running} {a b : Rng} (h : Heads s c d r [a] [b]) (hop : fld d.w0 6 0 = 0x13)
    (hfunc : d.func < 4) (hw2 : d.w2 = 0) (ha : s.vecRange c d.w1 d.len = some a) (hb : s.dstRange c d.w3 1 false = some b)
    (hspace : b.space ≠ 1) (hob : b.isOb = false) :
    Gives (.vred c []) s fun t =>
      (t.rdLanes c b).head? = some (vredValue d.func (s.rdLanes c a)) ∧ RangeOnly s { t with freeCtr := s.freeCtr } c b ∧
      IssuedOn s t c d r [a] [b] .nothing := by
  have hacts := State.vredJudge_acts h.len_ne_zero hfunc hw2 ha (State.dstRange_filter hb hspace hob)
  have hexec : exec (.vred c []) s = .next (s.afterIssue c d r (vredAct c d a b)) :=
    congrArg Host.Outcome.next (State.issue_acts (judge := fun s d => s.vredJudge c d) h hop hacts)
  set u := s.withIssued c d r (vredAct c d a b)
  set v : State := { u with freeCtr := u.freeCtr + 1 }
  set ls := [vredValue d.func (u.rdLanes c a), Config.spareLane u.freeCtr]
  have hlen : (laneBytes ls).length = 8 * b.words := by
    rw [length_laneBytes, State.dstRange_words hb]
    rfl
  have hread : (v.wrRange c b (laneBytes ls)).rdLanes c b = ls := by rw [State.rdLanes, State.rdRange_wrRange _ _ _ hlen, lanes_laneBytes]
  have hissues : IssuesKept u (v.wrRange c b (laneBytes ls)) := (IssuesKept.of_cores (s := u) (t := v) rfl).trans (State.wrRange_issuesKept v c b _)
  refine ⟨_, hexec, ?_, ?_, State.afterIssue_issuedOn hissues⟩
  · exact (congrArg List.head? hread).trans rfl
  · obtain ⟨hacc, hmem, hrest⟩ := v.wrRange_rangeOnly c b hlen
    exact ⟨hacc, hmem, congrArg (fun t : State => { t with cores := s.cores, freeCtr := s.freeCtr }) hrest⟩

/-! ### NLF and VTOPK -/

/-- What NLF does. -/
abbrev nlfAct (c : Nat) (a q b : Rng) : Act :=
  { reads := [a, q], writes := [b],
    run := fun t =>
      let tab := t.rdLanes c q
      t.wrRange c b (laneBytes ((t.rdLanes c a).map fun x =>
        let i := nlfIndex x (tab.getD 0 0) (tab.getD 1 0)
        nlfValue x (tab.getD (2 * i + 2) 0) (tab.getD (2 * i + 3) 0))) }

theorem State.nlfJudge_acts {s : State} {c : Nat} {d : Desc} {a q b : Rng} (hlen : d.len ≠ 0) (hfunc : d.func = 0)
    (ha : s.vecRange c d.w1 d.len = some a) (hq : s.vecRange c d.w2 257 = some q)
    (hb : (s.dstRange c d.w3 d.len false).filter (fun r => r.space != 1 && !r.isOb) = some b) :
    s.nlfJudge c d = .act (nlfAct c a q b) := by
  unfold State.nlfJudge
  rw [hfunc, ha, hq, hb]
  exact judgeWith_acts hlen

theorem nlf_gives {s : State} {c : Nat} {d : Desc} {r : Running} {a q b : Rng} (h : Heads s c d r [a, q] [b]) (hop : fld d.w0 6 0 = 0x14)
    (hfunc : d.func = 0) (ha : s.vecRange c d.w1 d.len = some a) (hq : s.vecRange c d.w2 257 = some q)
    (hb : s.dstRange c d.w3 d.len false = some b) (hspace : b.space ≠ 1) (hob : b.isOb = false) :
    let tab := s.rdLanes c q
    Gives (.nlf c []) s fun t =>
      t.rdLanes c b = (s.rdLanes c a).map (fun x =>
        nlfValue x (tab.getD (2 * nlfIndex x (tab.getD 0 0) (tab.getD 1 0) + 2) 0)
          (tab.getD (2 * nlfIndex x (tab.getD 0 0) (tab.getD 1 0) + 3) 0)) ∧
      RangeOnly s t c b ∧ IssuedOn s t c d r [a, q] [b] .nothing := by
  refine ⟨_, rfl, State.issue_writes_lanes (judge := fun s d => s.nlfJudge c d) _ h hop
    (State.nlfJudge_acts h.len_ne_zero hfunc ha hq (State.dstRange_filter hb hspace hob)) (fun _ => rfl) ?_ ?_ h.order_clean⟩
  · simp only [State.withIssued_rdLanes]
  · simp [State.vecRange_words ha, State.dstRange_words hb]

/-- What VTOPK does. -/
abbrev vtopkAct (c : Nat) (d : Desc) (a b : Rng) : Act :=
  { reads := [a], writes := [b],
    run := fun t => t.wrRange c b (laneBytes ((topK d.func (t.rdLanes c a)).flatMap fun p => [BitVec.ofNat 32 p.2, p.1])) }

theorem State.vtopkJudge_acts {s : State} {c : Nat} {d : Desc} {a b : Rng} (hlen : d.len ≠ 0) (hpos : 0 < d.func) (hfunc : d.func ≤ 16)
    (hw2 : d.w2 = 0) (ha : s.vecRange c d.w1 d.len = some a)
    (hb : (s.dstRange c d.w3 (min d.func (2 * d.len)) false).filter (fun r => r.space != 1 && !r.isOb) = some b) :
    s.vtopkJudge c d = .act (vtopkAct c d a b) := by
  unfold State.vtopkJudge
  rw [hw2, ha, hb]
  dsimp only
  rw [if_neg (by omega), if_neg (by omega)]
  exact judgeWith_acts hlen

theorem vtopk_gives {s : State} {c : Nat} {d : Desc} {r : Running} {a b : Rng} (h : Heads s c d r [a] [b]) (hop : fld d.w0 6 0 = 0x17)
    (hpos : 0 < d.func) (hfunc : d.func ≤ 16) (hw2 : d.w2 = 0) (ha : s.vecRange c d.w1 d.len = some a)
    (hb : s.dstRange c d.w3 (min d.func (2 * d.len)) false = some b) (hspace : b.space ≠ 1) (hob : b.isOb = false) :
    Gives (.vtopk c []) s fun t =>
      t.rdLanes c b = (topK d.func (s.rdLanes c a)).flatMap (fun p => [BitVec.ofNat 32 p.2, p.1]) ∧ RangeOnly s t c b ∧
      IssuedOn s t c d r [a] [b] .nothing := by
  refine ⟨_, rfl, State.issue_writes_lanes (judge := fun s d => s.vtopkJudge c d) _ h hop
    (State.vtopkJudge_acts h.len_ne_zero hpos hfunc hw2 ha (State.dstRange_filter hb hspace hob)) (fun _ => rfl) ?_ ?_ h.order_clean⟩
  · rw [State.withIssued_rdLanes]
  · simp [List.length_flatMap, length_topK, State.vecRange_words ha, State.dstRange_words hb, Nat.mul_comm]

/-- Settles O25: each opcode's descriptor acts, its effect is one write of its destination, and the issue around it adds nothing to it. -/
theorem vectorOpcodesCompute : Obligations.VectorOpcodesCompute := by
  unfold Obligations.VectorOpcodesCompute
  refine ⟨fun _ _ _ _ _ => fill_gives, fun _ _ _ _ _ _ => dma_gives, fun _ _ _ _ _ _ h hop hfunc => ?_, fun _ _ _ _ _ _ _ _ _ => vbin_gives,
    fun _ _ _ _ _ _ _ _ => vfma_gives, fun _ _ _ _ _ _ => vcvt_gives, fun _ _ _ _ _ _ => vred_gives, fun _ _ _ _ _ _ _ => nlf_gives,
    fun _ _ _ _ _ _ => vtopk_gives⟩
  exact dma2d_gives h hop hfunc

end Sys2Proof.Machine

namespace Sys2Proof.Machine

/-! ## O23: steps start, fetch and complete (R152, R153, R171) -/

/-- The core stands as a fault of one of its steps leaves it. -/
theorem State.stepFault_core (s : State) (c id index cause : Nat) :
    (s.stepFault c id index cause).core c =
      { (s.core c).dropStep id with
        faulted := ((s.core c).faulted ++ (((s.core c).stepOf id).bind fun r => r.step.stream).toList).dedup } := by
  rw [State.stepFault, State.notify_core, State.core_updCore_same, State.dropStepOn_core_same, State.wr_core]
  rfl

/-- Nothing but the cores, registers and the networks moved. -/
def CoresRegsNoc (s t : State) : Prop := { t with cores := s.cores, regs := s.regs, noc := s.noc } = s

theorem CoresRegsNoc.trans {s t u : State} (h : CoresRegsNoc s t) (h' : CoresRegsNoc t u) : CoresRegsNoc s u := by
  have hlast : ({ u with cores := s.cores, regs := s.regs, noc := s.noc } : State) = { t with cores := s.cores, regs := s.regs, noc := s.noc } :=
    congrArg (fun x : State => { x with cores := s.cores, regs := s.regs, noc := s.noc }) h'
  exact hlast.trans h

theorem CoresRegsNoc.updCore (s : State) (c : Nat) (f : Core → Core) : CoresRegsNoc s (s.updCore c f) := rfl
theorem CoresRegsNoc.wr (s : State) (o : Nat) (v : Word) : CoresRegsNoc s (s.wr o v) := rfl
theorem CoresRegsNoc.notify (s : State) (n : Notice) : CoresRegsNoc s (s.notify n) := rfl
theorem CoresRegsNoc.dropStepOn (s : State) (c id : Nat) : CoresRegsNoc s (s.dropStepOn c id) := rfl

theorem CoresRegsNoc.stepFault (s : State) (c id index cause : Nat) : CoresRegsNoc s (s.stepFault c id index cause) := by
  unfold State.stepFault
  extract_lets stream u v
  have hdropped : CoresRegsNoc s (u.dropStepOn c id) := (CoresRegsNoc.wr s _ _).trans (.dropStepOn u c id)
  exact (hdropped.trans (.updCore _ c _)).trans (.notify v _)

theorem CoreOnly.updCore (s : State) (c : Nat) (f : Core → Core) : CoreOnly s (s.updCore c f) c :=
  ⟨fun _ hj => s.core_updCore_other _ hj, rfl⟩

/-- The core once the step at its queue's head runs. -/
def Core.startStep (x : Step) (rest : List Step) (now : Nat) (k : Core) : Core :=
  { k with queue := rest, nextStep := k.nextStep + 1, fetched := none, again := false,
           run := some { id := k.nextStep, step := x, next := 0, lastSeen := false, started := now, fetchRetry := false, watched := false } }

theorem stepStart_gives {s : State} {c : Nat} {x : Step} {rest : List Step} (hqueue : (s.core c).queue = x :: rest)
    (hrun : (s.core c).run = none) (hen : s.enabled (coreBase c) = true) (hquiet : s.quiescing (coreBase c) = false)
    (hfence : s.coreFenced c 0 = false) (hcold : s.coldStep c x = false) :
    Gives (.stepStart c) s fun t =>
      (t.core c).queue = rest ∧ (∃ r, (t.core c).run = some r ∧ r.step = x ∧ r.next = 0) ∧ (t.core c).issued = (s.core c).issued ∧
      CoreOnly s t c := by
  have hexec : execStepStart c s = .next (s.updCore c (Core.startStep x rest s.now)) := by
    unfold execStepStart
    rw [hqueue, hrun, hen, hquiet, hfence]
    dsimp only
    rw [hcold]
    rfl
  refine ⟨_, hexec, ?_, ⟨Running.mk (s.core c).nextStep x 0 false s.now false false, ?_, rfl, rfl⟩, ?_, .updCore ..⟩
  · rw [State.core_updCore_same, Core.startStep]
  · rw [State.core_updCore_same, Core.startStep]
  · rw [State.core_updCore_same, Core.startStep]

/-- Words that are not poisoned, and of which no read error is reported, read without fault. -/
theorem State.readFaults_clean {s : State} {ws : List Nat} (h : ∀ w ∈ ws, s.poisoned w = false) : s.readFaults ws [] = [] := by
  simp only [State.readFaults, List.filter_nil, List.map_nil, List.append_nil, List.flatMap_eq_nil_iff]
  intro w hw
  simp [h w hw]

/-- The core once a descriptor of its step is fetched. -/
def Core.fetchDesc (d : Desc) (r : Running) (k : Core) : Core :=
  { k with fetched := some d, again := false, run := some { r with next := r.next + 1, fetchRetry := false, lastSeen := d.last } }

theorem descFetch_gives {s : State} {c : Nat} {r : Running} (hrun : (s.core c).run = some r) (hfetched : (s.core c).fetched = none)
    (hrerun : (s.core c).rerun = none) (hnext : r.next < 4096) (halign : r.step.prog % 16 = 0)
    (hsize : r.step.prog + 16 * r.next + 16 ≤ s.progSize c) :
    let a := s.progBase c + (r.step.prog + 16 * r.next)
    s.poisoned (a / 8) = false → s.poisoned (a / 8 + 1) = false → opcodes.contains (fld (descOf r.next (s.rdMem a 16)).w0 6 0) = true →
    Gives (.descFetch c []) s fun t =>
      (t.core c).fetched = some (descOf r.next (s.rdMem a 16)) ∧ (∃ r', (t.core c).run = some r' ∧ r'.next = r.next + 1 ∧ r'.id = r.id) ∧
      CoreOnly s t c := by
  intro a hlow hhigh hop
  have hclean : s.readFaults [a / 8, a / 8 + 1] [] = [] := State.readFaults_clean (by simp [hlow, hhigh])
  have hplace : ¬(r.step.prog % 16 ≠ 0 ∨ s.progSize c < r.step.prog + 16 * r.next + 16) := by omega
  have hexec : execDescFetch c [] s = .next (s.updCore c (Core.fetchDesc (descOf r.next (s.rdMem a 16)) r)) := by
    unfold execDescFetch
    rw [hrun, hfetched, hrerun]
    dsimp only
    rw [if_neg (by omega), if_neg hplace, hclean]
    exact congrArg Host.Outcome.next (if_pos hop)
  refine ⟨_, hexec, ?_, ⟨{ r with next := r.next + 1, fetchRetry := false, lastSeen := (descOf r.next (s.rdMem a 16)).last }, ?_, rfl, rfl⟩, .updCore ..⟩
  · rw [State.core_updCore_same, Core.fetchDesc]
  · rw [State.core_updCore_same, Core.fetchDesc]

theorem descFetch_past_end {s : State} {c : Nat} {r : Running} (hrun : (s.core c).run = some r) (hfetched : (s.core c).fetched = none)
    (hrerun : (s.core c).rerun = none) (hnext : 4096 ≤ r.next) :
    Gives (.descFetch c []) s fun t =>
      t.rd (coreLastFault c) = BitVec.ofNat 32 (causeDescInvalid + 4095 * 0x10000) ∧ (t.core c).run = none ∧
      Noticed s t causeDescInvalid (coreEp c) ∧ RegsKept s t [coreLastFault c] ∧
      { t with cores := s.cores, regs := s.regs, noc := s.noc } = s := by
  have hexec : execDescFetch c [] s = .next (s.stepFault c r.id 4095 causeDescInvalid) := by
    unfold execDescFetch
    rw [hrun, hfetched, hrerun]
    exact congrArg Host.Outcome.next (if_pos hnext)
  obtain ⟨hfault, -, hoff, -, -⟩ := State.stepFault_ends (index := 4095) (cause := causeDescInvalid) hrun (by decide)
  obtain ⟨-, hregs, hnoticed, -, -⟩ := s.stepFault_kept c r.id 4095 (cause := causeDescInvalid) (by decide)
  exact ⟨_, hexec, hfault, hoff, hnoticed, hregs, CoresRegsNoc.stepFault ..⟩

/-! ### Completion -/

/-- A descriptor with no cause, which awaits no LAUNCH and no packet, is done. -/
theorem State.ending_done {s : State} {c : Nat} {x : Issued} (hcause : x.cause = 0)
    (hawait : x.await = .nothing ∨ x.await = .packets 0 ∨ (∃ w l, x.await = .wopen w l) ∨ ∃ b, x.await = .wclose b) : s.ending c x = .done := by
  unfold State.ending
  obtain h | h | ⟨w, l, h⟩ | ⟨b, h⟩ := hawait
  · rw [h, hcause]; rfl
  · rw [h, hcause]; rfl
  · rw [h, hcause]; rfl
  · rw [h, hcause]; rfl

/-- A descriptor that is done completes: what completes with it happens, it retires, and it is counted. -/
theorem exec_descComplete_done {s : State} {c : Nat} {x : Issued}
    (hfind : ((s.core c).issued.find? fun i => i.desc.index == x.desc.index && s.ending c i != .atWork) = some x) (hdone : s.ending c x = .done) :
    exec (.descComplete c x.desc.index) s =
      .next (((s.completeWork c x).updCore c fun t => t.retire x).inc64 (coreDescCount c) 1) := by
  show execDescComplete c x.desc.index s = _
  unfold execDescComplete
  rw [hfind]
  dsimp only
  rw [hdone]

theorem descComplete_retires {s : State} {c : Nat} {x : Issued}
    (hfind : ((s.core c).issued.find? fun i => i.desc.index == x.desc.index && s.ending c i != .atWork) = some x)
    (hawait : x.await = .nothing ∨ x.await = .packets 0) (hcause : x.cause = 0) :
    Gives (.descComplete c x.desc.index) s fun t =>
      (t.core c).issued = (s.core c).issued.erase x ∧ t.rd64 (coreDescCount c) = (s.rd64 (coreDescCount c) + 1) % 2 ^ 64 ∧
      CoreRegs s t c [coreDescCount c, coreDescCount c + 4] := by
  have hwork : s.completeWork c x = s := by
    unfold State.completeWork
    obtain h | h := hawait
    · rw [h]
    · rw [h]
  have hexec := exec_descComplete_done hfind (State.ending_done hcause (hawait.imp_right Or.inl))
  rw [hwork] at hexec
  refine ⟨_, hexec, ?_, ?_, coreRegs_updCore_wr64 ..⟩
  · rw [State.inc64_core, State.core_updCore_same]
    rfl
  · rw [State.rd64_inc64]
    rfl

theorem descComplete_faults {s : State} {c code : Nat} {x : Issued}
    (hfind : ((s.core c).issued.find? fun i => i.desc.index == x.desc.index && s.ending c i != .atWork) = some x)
    (hends : s.ending c x = .cause code) (hawait : x.await = .nothing) (hlow : 0x100 ≤ code) (hhigh : code < 0x10000) :
    Gives (.descComplete c x.desc.index) s fun t =>
      t.rd (coreLastFault c) = BitVec.ofNat 32 (code + min x.desc.index 4095 * 0x10000) ∧ Noticed s t code (coreEp c) ∧
      (∀ y ∈ (t.core c).issued, y.step ≠ x.step) ∧ RegsKept s t [coreLastFault c] ∧ t.mem = s.mem ∧ t.stopes = s.stopes := by
  have hwork : s.completeWork c x = s := by rw [State.completeWork, hawait]
  have hwarm : ¬(code = rRefCold ∧ s.refMode c = 0) := fun h => by
    have : code = 1 := h.1
    omega
  have hissue : s.issueFault c x.step x.desc.index code = s.stepFault c x.step x.desc.index code :=
    congrArg (fun t : State => t.stepFault c x.step x.desc.index code) (if_neg (by omega))
  have hcause : s.endWithCause c x code = s.stepFault c x.step x.desc.index code := by
    unfold State.endWithCause
    split
    · rw [if_neg hwarm, hissue]
    · exact hissue
  have hexec : execDescComplete c x.desc.index s = .next (s.stepFault c x.step x.desc.index code) := by
    unfold execDescComplete
    rw [hfind]
    dsimp only
    rw [hends]
    dsimp only
    rw [hwork, hcause]
  obtain ⟨hfault, hregs, hnoticed, hstopes, hmem⟩ := s.stepFault_kept c x.step x.desc.index hhigh
  refine ⟨_, hexec, hfault, hnoticed, fun y hy => ?_, hregs, hmem, hstopes⟩
  rw [State.stepFault_core] at hy
  simpa using (List.mem_filter.1 hy).2

/-- Settles O23: a step starts at the queue's head, its descriptors are fetched in order, and an ending descriptor retires or faults its step. -/
theorem stepsStartFetchAndComplete : Obligations.StepsStartFetchAndComplete := by
  unfold Obligations.StepsStartFetchAndComplete
  exact ⟨fun _ _ _ _ => stepStart_gives, fun _ _ _ => descFetch_gives, fun _ _ _ => descFetch_past_end, fun _ _ _ => descComplete_retires,
    fun _ _ _ _ => descComplete_faults⟩

end Sys2Proof.Machine

namespace Sys2Proof.Machine

/-! ## O28: remote windows (R183 to R188) -/

/-! ### Counters of a core and remote writes, and what they leave alone -/

/-- An update of a core that keeps its windows keeps every core's. -/
theorem State.updCore_windows (s : State) (c : Nat) {f : Core → Core} (hf : ∀ t, (f t).windows = t.windows) (j : Nat) :
    ((s.updCore c f).core j).windows = (s.core j).windows := by
  by_cases hj : j = c
  · rw [hj, State.core_updCore_same, hf]
  · rw [State.core_updCore_other _ _ hj]

theorem State.clearPoison_windows (s : State) (ws : List Nat) (j : Nat) : ((s.clearPoison ws).core j).windows = (s.core j).windows := by
  unfold State.clearPoison
  split
  · rfl
  · split
    · rfl
    · exact s.updCore_windows _ (by intro t; rfl) j

theorem State.overwritten_windows (s : State) (start len j : Nat) : ((s.overwritten start len).core j).windows = (s.core j).windows :=
  State.each_field (π := fun t => (t.core j).windows) (fun s c => s.updCore_windows c (by intro t; rfl) j) s _

theorem CoreRegs.trans {s t u : State} {c : Nat} {offs : List Nat} (h : CoreRegs s t c offs) (h' : CoreRegs t u c offs) :
    CoreRegs s u c offs := by
  obtain ⟨hcores, hregs, hrest⟩ := h
  obtain ⟨hcores', hregs', hrest'⟩ := h'
  refine ⟨fun j hj => (hcores' j hj).trans (hcores j hj), fun o ho => (hregs' o ho).trans (hregs o ho), ?_⟩
  have hlast : ({ u with cores := s.cores, regs := s.regs } : State) = { t with cores := s.cores, regs := s.regs } :=
    congrArg (fun x : State => { x with cores := s.cores, regs := s.regs }) hrest'
  exact hlast.trans hrest

theorem CoreRegs.wr {s : State} {c o : Nat} {offs : List Nat} (v : Word) (h : o ∈ offs) : CoreRegs s (s.wr o v) c offs :=
  ⟨fun _ _ => rfl, fun _ hx => s.rd_wr_other v fun e => hx (e ▸ h), rfl⟩

/-- Waiters that look at a counter again move the counter and their core alone. -/
theorem State.wakeCounter_coreRegs (s : State) (c k : Nat) : CoreRegs s (s.wakeCounter c k) c [coreCounter c k] :=
  (coreRegs_updCore s c _ _).trans (.wr _ List.mem_cons_self)

/-- An addition to a counter moves the counter, its overflow bit and its core alone. -/
theorem State.addCounter_coreRegs (s : State) (c k : Nat) (n : Word) : CoreRegs s (s.addCounter c k n) c [coreCounter c k, coreCounterOvf c] := by
  have hlow : [coreCounter c k] ⊆ [coreCounter c k, coreCounterOvf c] := by simp
  have hovf : coreCounterOvf c ∈ [coreCounter c k, coreCounterOvf c] := by simp
  unfold State.addCounter
  dsimp only
  split
  · exact ((CoreRegs.wr 0xFFFFFFFF List.mem_cons_self).trans (.wr _ hovf)).trans (coreRegs_updCore ..)
  · obtain ⟨hcores, hregs, hrest⟩ := State.wakeCounter_coreRegs
      (s.wr (coreCounter c k) (BitVec.ofNat 32 ((s.rd (coreCounter c k)).toNat + n.toNat))) c k
    exact (CoreRegs.wr _ List.mem_cons_self).trans ⟨hcores, hregs.mono hlow, hrest⟩

theorem State.addCounter_windows (s : State) (c k : Nat) (n : Word) : ((s.addCounter c k n).core c).windows = (s.core c).windows := by
  unfold State.addCounter State.wakeCounter
  dsimp only
  split
  · rw [State.core_updCore_same, State.wrBit_core, State.wr_core]
  · rw [State.wr_core, State.core_updCore_same, State.wr_core]

/-- The machine with a window's write in memory, before it is counted. -/
def State.landed (s : State) (start : Nat) (bs : List Byte) : State :=
  ((s.wrMem start bs).clearPoison ((List.range (cdiv bs.length 8)).map (start / 8 + ·))).overwritten start bs.length

theorem State.landed_coresTouched (s : State) (start : Nat) (bs : List Byte) : CoresTouched (s.wrMem start bs) (s.landed start bs) :=
  (State.clearPoison_coresTouched ..).trans (State.overwritten_coresTouched ..)

theorem State.landed_windows (s : State) (start : Nat) (bs : List Byte) (j : Nat) :
    ((s.landed start bs).core j).windows = (s.core j).windows := by
  rw [State.landed, State.overwritten_windows, State.clearPoison_windows, State.wrMem_core]

theorem State.landed_issued (s : State) (start : Nat) (bs : List Byte) (j : Nat) :
    ((s.landed start bs).core j).issued = (s.core j).issued :=
  ((s.landed_coresTouched start bs).issues.issued j).trans (congrArg Core.issued (s.wrMem_core start bs j))

/-- A window's core once a write to the window is counted in ARRIVED. -/
def Core.arrive (w : Window) (n : Nat) (t : Core) : Core :=
  { t with windows := t.windows.map fun x => if x.base == w.base then { x with arrived := n } else x, issued := t.issued.map (wakeWindow w.base n) }

/-- The machine with a window's write in memory and counted in ARRIVED, before the window's counter. -/
def State.arrived (s : State) (c : Nat) (w : Window) (start : Nat) (bs : List Byte) : State :=
  (s.landed start bs).updCore c (Core.arrive w (w.arrived + bs.length))

theorem State.landWrite_eq (s : State) (c : Nat) (w : Window) (start : Nat) (bs : List Byte) :
    s.landWrite c w start bs = match w.counter with
      | some k => (s.arrived c w start bs).addCounter c k 1
      | none => s.arrived c w start bs := rfl

theorem State.arrived_frame (s : State) (c : Nat) (w : Window) (start : Nat) (bs : List Byte) :
    { s.arrived c w start bs with cores := s.cores } = s.wrMem start bs := (s.landed_coresTouched start bs).rest

theorem State.arrived_core (s : State) (c : Nat) (w : Window) (start : Nat) (bs : List Byte) :
    ((s.arrived c w start bs).core c).windows =
      (s.core c).windows.map (fun x => if x.base == w.base then { x with arrived := w.arrived + bs.length } else x) ∧
    ((s.arrived c w start bs).core c).issued = (s.core c).issued.map (wakeWindow w.base (w.arrived + bs.length)) := by
  rw [State.arrived, State.core_updCore_same, Core.arrive, State.landed_windows, State.landed_issued]
  exact ⟨rfl, rfl⟩

/-- An accepted write: its bytes are there, its window's ARRIVED counts them, and only the window's counter may be among the registers. -/
theorem State.landWrite_spec (s : State) (c : Nat) (w : Window) (start : Nat) (bs : List Byte) :
    let t := s.landWrite c w start bs
    t.mem = writeBytes s.mem start bs ∧
    (t.core c).windows = (s.core c).windows.map (fun x => if x.base == w.base then { x with arrived := w.arrived + bs.length } else x) ∧
    (w.counter = none → t.regs = s.regs ∧ (t.core c).issued = (s.core c).issued.map (wakeWindow w.base (w.arrived + bs.length))) ∧
    { t with mem := s.mem, cores := s.cores, regs := s.regs } = s := by
  obtain ⟨hwindows, hissued⟩ := s.arrived_core c w start bs
  have hframe := s.arrived_frame c w start bs
  have hmem : (s.arrived c w start bs).mem = writeBytes s.mem start bs := (congrArg State.mem hframe :)
  rw [State.landWrite_eq]
  cases hcounter : w.counter with
  | none =>
    refine ⟨hmem, hwindows, fun _ => ⟨(congrArg State.regs hframe :), hissued⟩, ?_⟩
    exact congrArg (fun t : State => { t with mem := s.mem, cores := s.cores, regs := s.regs }) hframe
  | some k =>
    obtain ⟨-, -, hrest⟩ := (s.arrived c w start bs).addCounter_coreRegs c k 1
    refine ⟨(congrArg State.mem hrest).trans hmem, ((s.arrived c w start bs).addCounter_windows c k 1).trans hwindows, nofun, ?_⟩
    have hlast := congrArg (fun t : State => { t with mem := s.mem, cores := s.cores, regs := s.regs }) hrest
    exact hlast.trans (congrArg (fun t : State => { t with mem := s.mem, cores := s.cores, regs := s.regs }) hframe)

/-- A refused packet's source learns of it: the cores alone move, and no window. -/
theorem State.refusePacket_kept (s : State) (src dest code : Nat) :
    { s.refusePacket src dest code with cores := s.cores } = s ∧
    ∀ j, ((s.refusePacket src dest code).core j).windows = (s.core j).windows := by
  unfold State.refusePacket
  split
  · refine ⟨rfl, s.updCore_windows _ fun t => ?_⟩
    dsimp only
    split
    · rfl
    · rfl
  · exact ⟨rfl, fun _ => rfl⟩

/-! ### Writes of the die (R186, R187) -/

/-- The place in the flat memory that a packet of the die addresses at a core. -/
def State.packetPlace (s : State) (c : Nat) (m : Packet) : Nat :=
  if c < 256 then s.spFor c + m.addr else if 0x200000 ≤ m.addr then poolBase + (m.addr - 0x200000) else coreMemBase (c - 256) + m.addr

/-- Whether a packet counts as coming from its target's own region. -/
def State.packetRegional (s : State) (c : Nat) (m : Packet) : Bool := m.device == s.edge.devId && some m.region == s.coreRegion c

/-- The machine with a delivered packet taken from the network. -/
def State.takePacket (s : State) (m : Packet) : State := { s with noc := { s.noc with arrived := s.noc.arrived.erase m } }

theorem exec_windowWriteArrive {s : State} {c : Nat} {m : Packet} (hdest : epCore m.dest = some c) (hm : m ∈ s.noc.arrived) :
    exec (.windowWriteArrive m) s =
      .next (match s.meeting c (s.packetPlace c m) m.payload.length m.device m.src (s.packetRegional c m) with
        | .taken w => (s.takePacket m).landWrite c w (s.packetPlace c m) m.payload
        | _ => ((s.takePacket m).refuseWrite c (stampFor s.now m.timeHint)).refusePacket m.src m.dest rWindowBounds) := by
  show execWindowWriteArrive m s = _
  unfold execWindowWriteArrive
  rw [if_neg (by simpa using hm), hdest]
  rfl

theorem windowWriteArrive_taken {s : State} {c : Nat} {m : Packet} {w : Window} (hdest : epCore m.dest = some c) (hm : m ∈ s.noc.arrived)
    (hfind : (s.core c).windows.find? (fun w => w.covers (s.packetPlace c m) m.payload.length &&
      w.admits m.device m.src (s.packetRegional c m) && s.mayLand c (s.packetPlace c m) m.payload.length) = some w) :
    Gives (.windowWriteArrive m) s fun t =>
      t.rdMem (s.packetPlace c m) m.payload.length = m.payload ∧ MemKept s t (s.packetPlace c m) m.payload.length ∧
      (t.core c).windows =
        (s.core c).windows.map (fun x => if x.base == w.base then { x with arrived := w.arrived + m.payload.length } else x) ∧
      (w.counter = none → t.regs = s.regs ∧
        (t.core c).issued = (s.core c).issued.map (wakeWindow w.base (w.arrived + m.payload.length))) ∧
      t.noc.arrived = s.noc.arrived.erase m ∧
      { t with mem := s.mem, cores := s.cores, regs := s.regs, noc := { t.noc with arrived := s.noc.arrived } } = s := by
  have hmeet : s.meeting c (s.packetPlace c m) m.payload.length m.device m.src (s.packetRegional c m) = .taken w := by
    unfold State.meeting
    dsimp only
    rw [hfind]
  have hexec := exec_windowWriteArrive hdest hm
  rw [hmeet] at hexec
  obtain ⟨hmem, hwindows, hplain, hframe⟩ := (s.takePacket m).landWrite_spec c w (s.packetPlace c m) m.payload
  refine ⟨_, hexec, ?_, fun x hx => ?_, hwindows, hplain, (congrArg (fun t : State => t.noc.arrived) hframe :), ?_⟩
  · rw [State.rdMem, hmem]
    exact readBytes_writeBytes_same _ _ rfl
  · rw [hmem]
    exact readByte_writeBytes_outside _ _ _ _ (by omega)
  · exact (congrArg (fun t : State => { t with noc := { t.noc with arrived := s.noc.arrived } }) hframe :)

theorem State.refuseWrite_kept (s : State) (c stamp : Nat) :
    (s.refuseWrite c stamp).rd (coreWinRefused c) = s.rd (coreWinRefused c) + 1 ∧ RegsKept s (s.refuseWrite c stamp) [coreWinRefused c] ∧
    Noticed s (s.refuseWrite c stamp) rWindowBounds (coreEp c) ∧ CoresRegsNoc s (s.refuseWrite c stamp) ∧
    (s.refuseWrite c stamp).cores = s.cores ∧ (s.refuseWrite c stamp).mem = s.mem := by
  unfold State.refuseWrite
  refine ⟨?_, fun o ho => ?_, ⟨_, rfl, rfl, rfl⟩, (CoresRegsNoc.wr s _ _).trans (.notify _ _), rfl, rfl⟩
  · rw [State.notify_rd, State.rd_inc_same]
    rfl
  · rw [State.notify_rd, State.rd_inc_other _ _ (by simpa using ho)]

theorem windowWriteArrive_refused {s : State} {c : Nat} {m : Packet} (hdest : epCore m.dest = some c) (hm : m ∈ s.noc.arrived)
    (hfind : (s.core c).windows.find? (fun w => w.covers (s.packetPlace c m) m.payload.length &&
      w.admits m.device m.src (s.packetRegional c m) && s.mayLand c (s.packetPlace c m) m.payload.length) = none) :
    Gives (.windowWriteArrive m) s fun t =>
      t.rd (coreWinRefused c) = s.rd (coreWinRefused c) + 1 ∧ RegsKept s t [coreWinRefused c] ∧ Noticed s t rWindowBounds (coreEp c) ∧
      t.mem = s.mem ∧ (∀ j, (t.core j).windows = (s.core j).windows) ∧ { t with cores := s.cores, regs := s.regs, noc := s.noc } = s := by
  let u := (s.takePacket m).refuseWrite c (stampFor s.now m.timeHint)
  have hexec : exec (.windowWriteArrive m) s = .next (u.refusePacket m.src m.dest rWindowBounds) := by
    rw [exec_windowWriteArrive hdest hm]
    unfold State.meeting
    dsimp only
    rw [hfind]
    dsimp only
    split
    · rename_i hmeet
      split at hmeet
      · cases hmeet
      · cases hmeet
    · rfl
  obtain ⟨hrd, hregs, hnoticed, hframe, hcores, hmem⟩ := (s.takePacket m).refuseWrite_kept c (stampFor s.now m.timeHint)
  obtain ⟨hrest, hwindows⟩ := u.refusePacket_kept m.src m.dest rWindowBounds
  have hreg (o : Nat) : (u.refusePacket m.src m.dest rWindowBounds).rd o = u.rd o := (congrArg (fun t : State => t.rd o) hrest :)
  have hnoc : (u.refusePacket m.src m.dest rWindowBounds).noc = u.noc := (congrArg State.noc hrest :)
  have hstate : ({ u.refusePacket m.src m.dest rWindowBounds with cores := s.cores, regs := s.regs, noc := s.noc } : State) =
      { u with cores := s.cores, regs := s.regs, noc := s.noc } :=
    congrArg (fun t : State => { t with cores := s.cores, regs := s.regs, noc := s.noc }) hrest
  refine ⟨_, hexec, (hreg _).trans hrd, fun o ho => (hreg o).trans (hregs o ho), ?_, (congrArg State.mem hrest).trans hmem, fun j => ?_, ?_⟩
  · obtain ⟨x, hx, hcause, hsource⟩ := hnoticed
    exact ⟨x, (congrArg Noc.notices hnoc).trans hx, hcause, hsource⟩
  · rw [hwindows, State.core, hcores, State.core]
    rfl
  · exact hstate.trans (congrArg (fun t : State => { t with noc := s.noc }) hframe :)

theorem windowWriteArrive_undelivered {s : State} {m : Packet} (hm : m ∉ s.noc.arrived) : exec (.windowWriteArrive m) s = .next s :=
  congrArg Host.Outcome.next (if_pos (by simpa using hm))

/-! ### The window opcodes at issue (R183, R185, R188) -/

/-- What a descriptor does that reads and writes no memory and only awaits. -/
abbrev awaitAct (w : Await) : Act := { reads := [], writes := [], run := id, await := w }

/-- A descriptor that only awaits issues: its core alone moves, and its windows stay. -/
theorem State.issue_awaits {s : State} {c op : Nat} {d : Desc} {r : Running} {w : Await} {judge : State → Desc → Judged}
    (hfetched : (s.core c).fetched = some d) (hrun : (s.core c).run = some r) (hop : fld d.w0 6 0 = op)
    (hholds : s.issueHolds c d { reads := [], writes := [], run := id } = false) (hjudge : judge s d = .act (awaitAct w)) :
    IssuedOn s (s.issue c op [] judge) c d r [] [] w ∧ ((s.issue c op [] judge).core c).windows = (s.core c).windows ∧
      CoreOnly s (s.issue c op [] judge) c := by
  rw [State.issue_acts_unheld hfetched hrun hop hjudge hholds (by simp [Act.order])]
  have heffect : (awaitAct w).run (s.withIssued c d r (awaitAct w)) = s.withIssued c d r (awaitAct w) := rfl
  refine ⟨State.afterIssue_issuedOn (a := awaitAct w) (.refl _), ?_, fun j hj => ?_, rfl⟩
  · have hnext (t : Core) : (t.issueNext d.last).windows = t.windows := by
      unfold Core.issueNext
      dsimp only
      split
      · split
        · rfl
        · rfl
      · rfl
    rw [State.afterIssue, heffect, State.core_updCore_same, hnext, State.withIssued]
    exact s.updCore_windows c (by intro t; rfl) c
  · rw [State.afterIssue, heffect, State.core_updCore_other _ _ hj, State.withIssued, State.core_updCore_other _ _ hj]

/-- A sound WOPEN's window. -/
def State.wopenWindow (s : State) (c base : Nat) (d : Desc) : Window :=
  { base := base, len := 8 * d.len, mode := bitsOf d.func 1 0, device := fld d.w2 31 12, endpoint := fld d.w2 11 0,
    region := (s.coreRegion c).getD 0, expiry := none, counter := if bitAt d.func 3 then some (fld d.w3 28 24) else none, arrived := 0 }

theorem wopen_gives {s : State} {c base : Nat} {d : Desc} {r : Running} (hfetched : (s.core c).fetched = some d) (hrun : (s.core c).run = some r)
    (hop : fld d.w0 6 0 = 0x23) (hrsv : bitAt d.func 4 = false) (hhigh : fld d.w3 31 29 = 0)
    (hplace : s.windowPlace c d.w1 d.len = some (base, true)) (hdevice : fld d.w2 31 12 < 32768) (hlen : d.len ≠ 0) (heven : d.len % 2 = 0)
    (haddr : addrOf d.w1 % 2 = 0) (hmode : bitsOf d.func 1 0 ≠ 3) (hlife : fld d.w3 23 0 = 0 ↔ bitAt d.func 2 = true)
    (hendpoint : fld d.w2 11 0 ≠ 0 → bitsOf d.func 1 0 = 0) (hregion : fld d.w2 31 12 ≠ 0 → bitsOf d.func 1 0 ≠ 2)
    (hcounter : fld d.w3 28 24 ≠ 0 → bitAt d.func 3 = true) (hfree : ∀ w ∈ (s.core c).allWindows, w.meets base (8 * d.len) = false)
    (hopen : s.openWindows < 256) (hquota : s.regionWindows ((s.coreRegion c).getD 0) < fld (s.rd (windowQuota ((s.coreRegion c).getD 0))) 8 0)
    (hholds : s.issueHolds c d { reads := [], writes := [], run := id } = false) :
    Gives (.wopen c []) s fun t =>
      IssuedOn s t c d r [] [] (.wopen (s.wopenWindow c base d) (if bitAt d.func 2 then none else some (fld d.w3 23 0 * 1000))) ∧
      (t.core c).windows = (s.core c).windows ∧ CoreOnly s t c := by
  have hbounds : ¬(d.len = 0 ∨ addrOf d.w1 % 2 = 1 ∨ d.len % 2 = 1 ∨ (!true) = true ∨ bitsOf d.func 1 0 = 3 ∨
      (fld d.w3 23 0 = 0) ≠ (bitAt d.func 2 = true) ∨ (fld d.w2 11 0 ≠ 0 ∧ bitsOf d.func 1 0 ≠ 0) ∨
      (fld d.w2 31 12 ≠ 0 ∧ bitsOf d.func 1 0 = 2) ∨ (fld d.w3 28 24 ≠ 0 ∧ (!bitAt d.func 3) = true)) := by
    rintro (h | h | h | h | h | h | ⟨h, h'⟩ | ⟨h, h'⟩ | ⟨h, h'⟩)
    · exact hlen h
    · omega
    · omega
    · cases h
    · exact hmode h
    · exact h (propext hlife)
    · exact h' (hendpoint h)
    · exact hregion h h'
    · rw [hcounter h] at h'
      cases h'
  have hmeets : ((s.core c).allWindows.any fun w => w.meets base (8 * d.len)) = false := List.any_eq_false.2 fun w hw => by simp [hfree w hw]
  have hjudge : s.wopenJudge c d =
      .act (awaitAct (.wopen (s.wopenWindow c base d) (if bitAt d.func 2 then none else some (fld d.w3 23 0 * 1000)))) := by
    unfold State.wopenJudge
    dsimp only
    rw [hrsv, hhigh, if_neg (by simp), hplace]
    dsimp only
    rw [if_neg (by omega), if_neg hbounds, hmeets, if_neg Bool.false_ne_true, if_neg (by omega)]
    rfl
  exact ⟨_, rfl, State.issue_awaits (judge := fun s d => s.wopenJudge c d) hfetched hrun hop hholds hjudge⟩

theorem wclose_gives {s : State} {c base : Nat} {ok : Bool} {d : Desc} {r : Running} (hfetched : (s.core c).fetched = some d)
    (hrun : (s.core c).run = some r) (hop : fld d.w0 6 0 = 0x24) (hfunc : d.func = 0) (hw2 : d.w2 = 0) (hw3 : d.w3 = 0)
    (hplace : s.windowPlace c d.w1 0 = some (base, ok)) (hholds : s.issueHolds c d { reads := [], writes := [], run := id } = false) :
    Gives (.wclose c []) s fun t =>
      IssuedOn s t c d r [] [] (.wclose base) ∧ (t.core c).windows = (s.core c).windows ∧ CoreOnly s t c := by
  have hjudge : s.wcloseJudge c d = .act (awaitAct (.wclose base)) := by
    unfold State.wcloseJudge
    rw [hfunc, hw2, hw3, hplace]
    rfl
  exact ⟨_, rfl, State.issue_awaits (judge := fun s d => s.wcloseJudge c d) hfetched hrun hop hholds hjudge⟩

theorem wwait_gives {s : State} {c base : Nat} {ok : Bool} {w : Window} {d : Desc} {r : Running} (hfetched : (s.core c).fetched = some d)
    (hrun : (s.core c).run = some r) (hop : fld d.w0 6 0 = 0x25) (hfunc : d.func = 0) (hw3 : d.w3 = 0)
    (hplace : s.windowPlace c d.w1 0 = some (base, ok)) (hfind : (s.core c).windows.find? (fun w => w.base == base) = some w)
    (hholds : s.issueHolds c d { reads := [], writes := [], run := id } = false) :
    Gives (.wwait c []) s fun t =>
      IssuedOn s t c d r [] [] (if d.w2.toNat ≤ w.arrived then .nothing else .window base d.w2.toNat) ∧ CoreOnly s t c := by
  have hjudge : s.wwaitJudge c d = .act (awaitAct (if d.w2.toNat ≤ w.arrived then .nothing else .window base d.w2.toNat)) := by
    unfold State.wwaitJudge
    rw [hfunc, hw3, hplace]
    dsimp only
    rw [hfind]
    rfl
  obtain ⟨hissued, -, honly⟩ := State.issue_awaits (judge := fun s d => s.wwaitJudge c d) hfetched hrun hop hholds hjudge
  exact ⟨_, rfl, hissued, honly⟩

/-! ### Opening, closing and expiry (R184, R185, R188) -/

/-- A window opens; nothing that the arrival hold keeps is for its core. -/
theorem State.openWindow_of_no_hold {s : State} {c : Nat} {w : Window} {life : Option Nat} (h : ∀ h ∈ s.fab.hold, epCore h.flit.destEp ≠ some c) :
    s.openWindow c w life =
      s.updCore c fun k => { k with windows := k.windows ++ [{ w with arrived := 0, expiry := life.map (s.now + ·) }] } := by
  have hnone : (s.fab.hold.filter fun h => epCore h.flit.destEp == some c) = [] := List.filter_eq_nil_iff.2 fun x hx => by simpa using h x hx
  unfold State.openWindow State.releaseHold
  rw [State.updCore_fab, hnone]
  rfl

theorem descComplete_wopen {s : State} {c : Nat} {x : Issued} {w : Window} {life : Option Nat}
    (hfind : ((s.core c).issued.find? fun i => i.desc.index == x.desc.index && s.ending c i != .atWork) = some x)
    (hawait : x.await = .wopen w life) (hcause : x.cause = 0) (hhold : ∀ h ∈ s.fab.hold, epCore h.flit.destEp ≠ some c) :
    Gives (.descComplete c x.desc.index) s fun t =>
      (t.core c).windows = (s.core c).windows ++ [{ w with arrived := 0, expiry := life.map (s.now + ·) }] ∧
      (t.core c).issued = (s.core c).issued.erase x ∧ t.rd64 (coreDescCount c) = (s.rd64 (coreDescCount c) + 1) % 2 ^ 64 ∧
      CoreRegs s t c [coreDescCount c, coreDescCount c + 4] := by
  have hexec := exec_descComplete_done hfind (State.ending_done hcause (.inr (.inr (.inl ⟨w, life, hawait⟩))))
  rw [State.completeWork, hawait] at hexec
  dsimp only at hexec
  rw [State.openWindow_of_no_hold hhold] at hexec
  refine ⟨_, hexec, ?_, ?_, ?_, (coreRegs_updCore ..).trans (coreRegs_updCore_wr64 ..)⟩
  · rw [State.inc64_core, State.core_updCore_same, Core.retire, State.core_updCore_same]
  · rw [State.inc64_core, State.core_updCore_same, Core.retire, State.core_updCore_same]
  · rw [State.rd64_inc64]
    rfl

theorem descComplete_wclose {s : State} {c base : Nat} {x : Issued}
    (hfind : ((s.core c).issued.find? fun i => i.desc.index == x.desc.index && s.ending c i != .atWork) = some x)
    (hawait : x.await = .wclose base) (hcause : x.cause = 0) :
    Gives (.descComplete c x.desc.index) s fun t =>
      (t.core c).windows = (s.core c).windows.filter (fun w => w.base != base) ∧
      t.rd64 (coreDescCount c) = (s.rd64 (coreDescCount c) + 1) % 2 ^ 64 ∧ CoreRegs s t c [coreDescCount c, coreDescCount c + 4] := by
  have hexec := exec_descComplete_done hfind (State.ending_done hcause (.inr (.inr (.inr ⟨base, hawait⟩))))
  rw [State.completeWork, hawait] at hexec
  refine ⟨_, hexec, ?_, ?_, (coreRegs_updCore ..).trans (coreRegs_updCore_wr64 ..)⟩
  · rw [State.inc64_core, State.core_updCore_same, Core.retire, State.core_updCore_same]
    rfl
  · rw [State.rd64_inc64]
    rfl

/-- Whether a window is at a base and its lifetime has passed. -/
def Window.due (w : Window) (a now : Nat) : Bool := w.base == a && (match w.expiry with
  | some t => decide (t ≤ now)
  | none => false)

theorem Window.due_iff (w : Window) (a now : Nat) : w.due a now = true ↔ w.base = a ∧ ∃ e, w.expiry = some e ∧ e ≤ now := by
  unfold Window.due
  cases w.expiry with
  | none => simp
  | some t => simp

/-- Once windows have closed, no WWAIT stands on one of them. -/
theorem Core.closeWindows_awaits {k : Core} {p : Window → Bool} {w : Window} (hw : w ∈ k.windows) (hp : p w = true) :
    ∀ i ∈ (k.closeWindows p).issued, ∀ n, i.await ≠ .window w.base n := by
  intro i hi n
  rw [Core.closeWindows] at hi
  obtain ⟨x, -, rfl⟩ := List.mem_map.1 hi
  split
  · nofun
  · rename_i hstays
    intro hawait
    dsimp only at hstays
    rw [hawait] at hstays
    refine hstays (List.any_eq_true.2 ⟨w, hw, ?_⟩)
    simp [hp]

theorem windowExpiry_gives {s : State} {c base a e : Nat} {w : Window} (hbase : s.windowBase c (BitVec.ofNat 32 base) = some a)
    (hw : w ∈ (s.core c).windows) (ha : w.base = a) (hexpiry : w.expiry = some e) (he : e ≤ s.now) :
    Gives (.windowExpiry c base) s fun t =>
      (∀ v, v ∈ (t.core c).windows ↔ v ∈ (s.core c).windows ∧ ¬(v.base = a ∧ ∃ e, v.expiry = some e ∧ e ≤ s.now)) ∧
      (∀ i ∈ (t.core c).issued, ∀ n, i.await ≠ .window a n) ∧
      t.rd (coreWinExpired c) = s.rd (coreWinExpired c) + 1 ∧ CoreRegs s t c [coreWinExpired c] := by
  have hdue : w.due a s.now = true := (w.due_iff a s.now).2 ⟨ha, e, hexpiry, he⟩
  have hexec : exec (.windowExpiry c base) s =
      .next ((s.updCore c fun k => k.closeWindows fun v => v.due a s.now).inc (coreWinExpired c) 1) := by
    show execWindowExpiry c base s = _
    unfold execWindowExpiry
    rw [hbase]
    exact congrArg Host.Outcome.next (if_pos (List.any_eq_true.2 ⟨w, hw, hdue⟩))
  refine ⟨_, hexec, fun v => ?_, ?_, ?_, (coreRegs_updCore ..).trans (.wr _ List.mem_cons_self)⟩
  · rw [State.inc_core, State.core_updCore_same, Core.closeWindows, List.mem_filter, ← v.due_iff a s.now]
    simp
  · rw [State.inc_core, State.core_updCore_same, ← ha]
    exact Core.closeWindows_awaits hw (ha ▸ hdue)
  · rw [State.rd_inc_same, State.updCore_rd]
    rfl

/-- Settles O28: what arrives meets its window or is refused, and the window opcodes wait until the window opens, fills or closes. -/
theorem windowsAdmitWrites : Obligations.WindowsAdmitWrites := by
  unfold Obligations.WindowsAdmitWrites
  exact ⟨fun _ _ _ _ => windowWriteArrive_taken, fun _ _ _ => windowWriteArrive_refused, fun _ _ => windowWriteArrive_undelivered,
    fun _ _ _ _ _ => wopen_gives, fun _ _ _ _ _ => descComplete_wopen, fun _ _ _ _ _ _ => wclose_gives, fun _ _ _ _ => descComplete_wclose,
    fun _ _ _ _ _ _ _ => wwait_gives, fun _ _ _ _ _ _ => windowExpiry_gives⟩

end Sys2Proof.Machine

namespace Sys2Proof.Machine

/-! ## O27: reductions, barriers and counters between cores (R166, R167, R190, R191, R488) -/

/-! ### Packets that belong to no descriptor, and the cores -/

/-- The machine without its cores. -/
def State.coreless (s : State) : State := { s with cores := [] }

/-- What the network does with a packet at its discard, before its source learns of it. -/
def State.discardNoted (s : State) (m : Packet) (code : Nat) : State :=
  let s := s.inc nocDiscardCount 1
  let s := if code = rRegionViolation then s.inc nocViolationCount 1 else s
  let s := s.notify { mkNotice code 0 m.dest m.src m.region with time := stampFor s.now m.timeHint }
  { s with noc := { s.noc with creditUsed := s.noc.creditUsed.erase (m.src, m.dest, m.vc) } }

theorem State.discardPacket_eq (s : State) (m : Packet) (code : Nat) : s.discardPacket m code = (s.discardNoted m code).settle m.src m.dest code := rfl

theorem State.settle_coreless (s : State) (src dest code : Nat) : (s.settle src dest code).coreless = s.coreless := by
  unfold State.settle
  split
  · rfl
  · rfl

theorem State.settle_reductions (s : State) (src dest code j : Nat) :
    ((s.settle src dest code).core j).reductions = (s.core j).reductions := by
  unfold State.settle
  split
  · rename_i c _
    by_cases hj : j = c
    · rw [hj, State.core_updCore_same]
      split
      · rfl
      · rfl
    · rw [State.core_updCore_other _ _ hj]
  · rfl

theorem State.discardNoted_coreless (s : State) (m : Packet) (code : Nat) : (s.discardNoted m code).coreless = s.coreless.discardNoted m code := by
  unfold State.discardNoted
  dsimp only
  split
  · rfl
  · rfl

theorem CoresRegsNoc.with_noc (s : State) (n : Noc) : CoresRegsNoc s { s with noc := n } := rfl

theorem State.discardNoted_frame (s : State) (m : Packet) (code : Nat) :
    (s.discardNoted m code).cores = s.cores ∧ CoresRegsNoc s (s.discardNoted m code) := by
  unfold State.discardNoted
  extract_lets u v n w
  have hcounted : v.cores = s.cores ∧ CoresRegsNoc s v := by
    by_cases hcode : code = rRegionViolation
    · rw [show v = u.inc nocViolationCount 1 from if_pos hcode]
      exact ⟨rfl, (CoresRegsNoc.wr s _ _).trans (.wr u _ _)⟩
    · rw [show v = u from if_neg hcode]
      exact ⟨rfl, .wr s _ _⟩
  obtain ⟨hcores, hframe⟩ := hcounted
  exact ⟨hcores, (hframe.trans (.notify v _)).trans (CoresRegsNoc.with_noc w _)⟩

/-- A packet is held, discarded or sent by what the machine is without its cores. -/
theorem State.injectFor_coreless {s t : State} (h : t.coreless = s.coreless) (o : Option (Nat × Nat × Nat)) (m : Packet) :
    (t.injectFor o m).coreless = (s.injectFor o m).coreless := by
  have hstamped : t.stamped m = s.stamped m := (congrArg (fun x : State => x.stamped m) h :)
  have hcode (n : Packet) : t.routerCode n = s.routerCode n := (congrArg (fun x : State => x.routerCode n) h :)
  have hwait (n : Packet) : t.mustWait n = s.mustWait n := (congrArg (fun x : State => x.mustWait n) h :)
  unfold State.injectFor
  dsimp only
  rw [hstamped, hcode, hwait]
  split
  · exact (congrArg (fun x : State => ({ x with noc := { x.noc with held := x.noc.held ++ [{ packet := s.stamped m, owner := o }] } } : State)) h :)
  · split
    · rw [State.discardPacket_eq, State.discardPacket_eq, State.settle_coreless, State.settle_coreless, State.discardNoted_coreless,
        State.discardNoted_coreless, h]
    · exact (congrArg (fun x : State => x.setOut (s.stamped m)) h :)

theorem State.sendPackets_coreless {s t : State} (h : t.coreless = s.coreless) (ps : List Packet) :
    (t.sendPackets ps).coreless = (s.sendPackets ps).coreless := by
  unfold State.sendPackets State.sendFor State.each
  induction ps generalizing s t with
  | nil => exact h
  | cons p ps ih =>
    have hdev : t.edge.devId = s.edge.devId := (congrArg (fun x : State => x.edge.devId) h :)
    simp only [List.foldl_cons, hdev]
    exact ih (State.injectFor_coreless h none _)

/-- A packet that the source has moves of the cores no reduction, and beside them registers and the networks alone. -/
theorem State.injectFor_kept (s : State) (o : Option (Nat × Nat × Nat)) (m : Packet) :
    CoresRegsNoc s (s.injectFor o m) ∧ ∀ j, ((s.injectFor o m).core j).reductions = (s.core j).reductions := by
  unfold State.injectFor
  dsimp only
  split
  · exact ⟨rfl, fun _ => rfl⟩
  · split
    · obtain ⟨hcores, hframe⟩ := s.discardNoted_frame (s.stamped m) (s.routerCode (s.stamped m))
      have hsettled := (s.discardNoted (s.stamped m) (s.routerCode (s.stamped m))).settle_coreless (s.stamped m).src (s.stamped m).dest
        (s.routerCode (s.stamped m))
      refine ⟨?_, fun j => ?_⟩
      · have hlast := congrArg (fun x : State => ({ x with cores := s.cores, regs := s.regs, noc := s.noc } : State)) hsettled
        exact hlast.trans hframe
      · rw [State.discardPacket_eq, State.settle_reductions, State.core, hcores, State.core]
    · exact ⟨rfl, fun _ => rfl⟩

theorem State.sendPackets_kept (s : State) (ps : List Packet) :
    CoresRegsNoc s (s.sendPackets ps) ∧ ∀ j, ((s.sendPackets ps).core j).reductions = (s.core j).reductions := by
  unfold State.sendPackets State.sendFor
  refine State.each_rel (R := fun s t => CoresRegsNoc s t ∧ ∀ j, (t.core j).reductions = (s.core j).reductions)
    (fun _ => ⟨rfl, fun _ => rfl⟩) (fun _ _ _ h h' => ⟨h.1.trans h'.1, fun j => (h'.2 j).trans (h.2 j)⟩) (fun s p => ?_) s ps
  exact s.injectFor_kept none _

/-! ### The root's reductions (R166, R167) -/

/-- The combination of a reduction's operands, in ascending stope index. -/
def Reduction.result (r : Reduction) (members : List Nat) : List DWord :=
  laneDs (combineOps r.op (members.filterMap fun i => (r.operands.find? fun o => o.1 == i).map fun o => o.2.flatMap dLanes))

/-- Whether every member's operand of a reduction that the root's own descriptor has opened is there. -/
def Reduction.Complete (r : Reduction) (members : List Nat) : Prop := r.started = true ∧ ∀ i ∈ members, ∃ o ∈ r.operands, o.1 = i

theorem Reduction.complete_iff (r : Reduction) (members : List Nat) :
    (r.started && members.all fun i => r.operands.any fun o => o.1 == i) = true ↔ r.Complete members := by
  simp [Reduction.Complete]

theorem State.tryReduce_none {s : State} {root g : Nat} (h : ∀ x ∈ (s.core root).reductions, x.group ≠ g) : s.tryReduce root g = s := by
  have hfind : ((s.core root).reductions.find? fun r => r.group == g) = none := List.find?_eq_none.2 fun x hx => by simpa using h x hx
  unfold State.tryReduce
  rw [hfind]

theorem State.tryReduce_ends {s : State} {root g : Nat} {r : Reduction} (hfind : ((s.core root).reductions.find? fun r => r.group == g) = some r)
    (hends : r.faulty = true ∨ r.Complete (groupStopes (s.redgrp root g))) :
    s.tryReduce root g =
      s.endReduction root g r r.faulty (if r.faulty then [] else r.result (groupStopes (s.redgrp root g))) := by
  unfold State.tryReduce
  rw [hfind]
  dsimp only
  by_cases hfaulty : r.faulty = true
  · rw [if_pos hfaulty, hfaulty, if_pos rfl]
  · rw [if_neg hfaulty, if_neg hfaulty, if_pos ((r.complete_iff _).2 (hends.resolve_left hfaulty)), Bool.eq_false_iff.2 hfaulty]
    rfl

theorem State.tryReduce_waits {s : State} {root g : Nat}
    (h : ∀ r, ((s.core root).reductions.find? fun r => r.group == g) = some r →
      r.faulty = false ∧ (r.started = false ∨ ∃ i ∈ groupStopes (s.redgrp root g), ∀ o ∈ r.operands, o.1 ≠ i)) : s.tryReduce root g = s := by
  unfold State.tryReduce
  split
  · rfl
  · rename_i r hfind
    obtain ⟨hfaulty, hwaits⟩ := h r hfind
    dsimp only
    rw [hfaulty, if_neg Bool.false_ne_true, if_neg]
    rw [r.complete_iff]
    rintro ⟨hstarted, hall⟩
    obtain hwaits | ⟨i, hi, hmissing⟩ := hwaits
    · rw [hwaits] at hstarted
      cases hstarted
    · obtain ⟨o, ho, hoi⟩ := hall i hi
      exact hmissing o ho hoi

theorem State.endReductions_idle {s : State} {root g : Nat} (h : s.tryReduce root g = s) (n : Nat) : s.endReductions root g n = s := by
  induction n with
  | zero => rfl
  | succ n ih => rw [State.endReductions, h, ih]

/-- The packets that end a reduction at every member. -/
def Reduction.endPackets (r : Reduction) (root : Nat) (members : List Nat) : List Packet :=
  members.map fun i => if r.faulty then redPacket root i 4 [] else redPacket root i 3 (r.result members)

/-- The only reduction that a root has open of a group ends: the packets go out, and no reduction of the group is open. -/
theorem State.settleGroup_ends {s : State} {root g : Nat} {r : Reduction}
    (hopen : (s.core root).reductions.filter (fun r => r.group == g) = [r])
    (hends : r.faulty = true ∨ r.Complete (groupStopes (s.redgrp root g))) :
    let t := s.settleGroup root g
    t.coreless = (s.sendPackets (r.endPackets root (groupStopes (s.redgrp root g)))).coreless ∧
      (t.core root).reductions = (s.core root).reductions.erase r ∧ CoresRegsNoc s t := by
  let u := s.updCore root fun t => { t with reductions := t.reductions.erase r }
  let ps := r.endPackets root (groupStopes (s.redgrp root g))
  have hfind : ((s.core root).reductions.find? fun r => r.group == g) = some r := by rw [← List.head?_filter, hopen]; rfl
  have htry : s.tryReduce root g = u.sendPackets ps := by
    rw [State.tryReduce_ends hfind hends]
    cases hfaulty : r.faulty with
    | true =>
      show u.sendPackets _ = u.sendPackets (r.endPackets _ _)
      rw [Reduction.endPackets, hfaulty]
      rfl
    | false =>
      show u.sendPackets _ = u.sendPackets (r.endPackets _ _)
      rw [Reduction.endPackets, hfaulty]
      rfl
  obtain ⟨hframe, hkept⟩ := u.sendPackets_kept ps
  have hreductions : ((u.sendPackets ps).core root).reductions = (s.core root).reductions.erase r := by
    rw [hkept, State.core_updCore_same]
  have hclosed : ∀ x ∈ ((u.sendPackets ps).core root).reductions, x.group ≠ g := by
    intro x hx hg
    rw [hreductions] at hx
    have hnone : ((s.core root).reductions.erase r).filter (fun r => r.group == g) = [] := by
      rw [← List.erase_filter, hopen, List.erase_cons_head]
    exact List.not_mem_nil (hnone ▸ List.mem_filter.2 ⟨hx, by simp [hg]⟩)
  obtain ⟨n, hn⟩ : ∃ n, (s.core root).reductions.length = n + 1 := by
    refine Nat.exists_eq_succ_of_ne_zero fun h => ?_
    rw [List.length_eq_zero_iff.1 h] at hfind
    cases hfind
  have hsettled : s.settleGroup root g = u.sendPackets ps := by
    rw [State.settleGroup, hn, State.endReductions, htry, State.endReductions_idle (State.tryReduce_none hclosed)]
  rw [hsettled]
  exact ⟨State.sendPackets_coreless (s := s) (t := u) rfl ps, hreductions, (CoresRegsNoc.updCore s root _).trans hframe⟩

theorem Core.onReduction_redSeen (t : Core) (g n : Nat) (f : Reduction → Reduction) : (t.onReduction g n f).redSeen = t.redSeen := by
  unfold Core.onReduction
  split
  · rfl
  · rfl

theorem Core.onReduction_begun {t : Core} {g n : Nat} (h : n < t.made g) (f : Reduction → Reduction) :
    (t.onReduction g n f).reductions = t.reductions.map fun r => if r.group == g && r.num == n then f r else r := by
  rw [Core.onReduction, if_pos h]

theorem Core.onReduction_next {t : Core} {g n : Nat} (h : t.made g ≤ n) (f : Reduction → Reduction) :
    (t.onReduction g n f).reductions = t.reductions ++
      [f { group := g, num := n, bad := false, step := 0, op := 0, len := 0, started := false, operands := [] }] := by
  rw [Core.onReduction, if_neg (by omega)]

/-- The bad reduction that an operand from outside makes when its group has none open. -/
def Reduction.foreign (g n : Nat) : Reduction :=
  { group := g, num := n, bad := true, step := 0, op := 0, len := 0, started := false, operands := [] }

theorem Core.foreignOperand_reductions {t : Core} {g : Nat} (h : ∀ x ∈ t.reductions, x.group ≠ g) :
    (t.foreignOperand g).reductions = t.reductions ++ [Reduction.foreign g (t.made g)] := by
  have hfind : (t.reductions.find? fun r => r.group == g) = none := List.find?_eq_none.2 fun x hx => by simpa using h x hx
  unfold Core.foreignOperand
  rw [hfind]
  exact Core.onReduction_next le_rfl _

theorem xredOperand_foreign {s : State} {root src g op len : Nat} {data : List DWord}
    (hout : groupValid (s.redgrp root g) = false ∨ src ∉ groupStopes (s.redgrp root g)) (hnone : ∀ x ∈ (s.core root).reductions, x.group ≠ g) :
    Gives (.xredOperand root src g op len data) s fun t =>
      (let ps := (groupStopes (s.redgrp root g)).map fun i => redPacket root i 4 []
       t.noc = (s.sendPackets ps).noc ∧ t.regs = (s.sendPackets ps).regs) ∧
      (t.core root).reductions = (s.core root).reductions ∧ { t with noc := s.noc, regs := s.regs, cores := s.cores } = s := by
  let u := s.updCore root fun t => t.foreignOperand g
  let r := Reduction.foreign g ((s.core root).made g)
  have hout' : (!(groupValid (s.redgrp root g)) || !((groupStopes (s.redgrp root g)).contains src)) = true := by
    obtain h | h := hout
    · simp [h]
    · simp [h]
  have hexec : exec (.xredOperand root src g op len data) s = .next (u.settleGroup root g) := by
    show execXredOperand root src g op len data s = _
    unfold execXredOperand
    dsimp only
    rw [hout']
    rfl
  have hreds : (u.core root).reductions = (s.core root).reductions ++ [r] := by
    rw [State.core_updCore_same, Core.foreignOperand_reductions hnone]
  have hfilter : (u.core root).reductions.filter (fun r => r.group == g) = [r] := by
    rw [hreds, List.filter_append, List.filter_eq_nil_iff.2 fun x hx => by simpa using hnone x hx]
    simp [r, Reduction.foreign]
  obtain ⟨hcoreless, hended, hframe⟩ := State.settleGroup_ends hfilter (.inl rfl)
  have hnotIn : r ∉ (s.core root).reductions := fun h => hnone r h rfl
  have hpackets : (u.settleGroup root g).coreless = (s.sendPackets ((groupStopes (s.redgrp root g)).map fun i => redPacket root i 4 [])).coreless :=
    hcoreless.trans (State.sendPackets_coreless (s := s) (t := u) rfl _)
  refine ⟨_, hexec, ⟨(congrArg State.noc hpackets :), (congrArg State.regs hpackets :)⟩, ?_, (CoresRegsNoc.updCore s root _).trans hframe⟩
  rw [hended, hreds, List.erase_append_right _ hnotIn, List.erase_cons_head, List.append_nil]

/-- An operand of a member of a valid group is taken, and what can end ends. -/
theorem exec_xredOperand_member {s : State} {root src g op len : Nat} {data : List DWord} (hsrc : src ∈ groupStopes (s.redgrp root g))
    (hvalid : groupValid (s.redgrp root g) = true) :
    exec (.xredOperand root src g op len data) s =
      .next ((s.updCore root fun t => t.takeOperand g src op (data.take len)).settleGroup root g) := by
  have hin : (!(groupValid (s.redgrp root g)) || !((groupStopes (s.redgrp root g)).contains src)) = false := by simp [hvalid, hsrc]
  show execXredOperand root src g op len data s = _
  unfold execXredOperand
  dsimp only
  rw [hin]
  rfl

/-- The core with one more operand of a member counted. -/
def Core.countOperand (t : Core) (g src : Nat) : Core := { t with redSeen := Table.set 0 t.redSeen (256 * g + src) (t.seen g src + 1) }

theorem Core.takeOperand_eq (t : Core) (g src op : Nat) (data : List DWord) :
    t.takeOperand g src op data = (t.countOperand g src).onReduction g (t.seen g src) fun r =>
      { r with operands := r.operands ++ [(src, data)], op := if r.started then r.op else op } := rfl

theorem Core.takeOperand_seen (t : Core) (g src op : Nat) (data : List DWord) : (t.takeOperand g src op data).seen g src = t.seen g src + 1 := by
  rw [Core.takeOperand_eq, Core.seen, Core.onReduction_redSeen, Core.countOperand, Table.get_set_same]

theorem Core.takeOperand_opens {t : Core} {g src : Nat} (h : t.made g ≤ t.seen g src) (op : Nat) (data : List DWord) :
    (t.takeOperand g src op data).reductions = t.reductions ++
      [{ group := g, num := t.seen g src, bad := false, step := 0, op := op, len := 0, started := false, operands := [(src, data)] }] := by
  rw [Core.takeOperand_eq, Core.onReduction_next (t := t.countOperand g src) h]
  rfl

theorem Core.takeOperand_joins {t : Core} {g src : Nat} (h : t.seen g src < t.made g) (op : Nat) (data : List DWord) :
    (t.takeOperand g src op data).reductions = t.reductions.map fun r =>
      if r.group == g && r.num == t.seen g src then
        { r with operands := r.operands ++ [(src, data)], op := if r.started then r.op else op } else r := by
  rw [Core.takeOperand_eq, Core.onReduction_begun (t := t.countOperand g src) h]
  rfl

theorem xredOperand_waits {s : State} {root src g op len : Nat} {data : List DWord} (hsrc : src ∈ groupStopes (s.redgrp root g))
    (hvalid : groupValid (s.redgrp root g) = true) :
    let u := (s.core root).takeOperand g src op (data.take len)
    (∀ r, u.reductions.find? (fun r => r.group == g) = some r →
      r.faulty = false ∧ (r.started = false ∨ ∃ i ∈ groupStopes (s.redgrp root g), ∀ o ∈ r.operands, o.1 ≠ i)) →
    Gives (.xredOperand root src g op len data) s fun t =>
      t.core root = u ∧ u.seen g src = (s.core root).seen g src + 1 ∧
      ((s.core root).made g ≤ (s.core root).seen g src → u.reductions = (s.core root).reductions ++
        [{ group := g, num := (s.core root).seen g src, bad := false, step := 0, op := op, len := 0, started := false,
           operands := [(src, data.take len)] }]) ∧
      ((s.core root).seen g src < (s.core root).made g → u.reductions = (s.core root).reductions.map fun r =>
        if r.group == g && r.num == (s.core root).seen g src then
          { r with operands := r.operands ++ [(src, data.take len)], op := if r.started then r.op else op } else r) ∧
      CoreOnly s t root := by
  intro u hwaits
  let v := s.updCore root fun t => t.takeOperand g src op (data.take len)
  have hcore : v.core root = u := State.core_updCore_same ..
  have hidle : v.settleGroup root g = v := by
    refine State.endReductions_idle (s := v) (State.tryReduce_waits fun r hr => hwaits r ?_) _
    rwa [hcore] at hr
  have hexec := exec_xredOperand_member (op := op) (len := len) (data := data) hsrc hvalid
  rw [show (s.updCore root fun t => t.takeOperand g src op (data.take len)) = v from rfl, hidle] at hexec
  exact ⟨v, hexec, hcore, Core.takeOperand_seen .., fun h => Core.takeOperand_opens h .., fun h => Core.takeOperand_joins h .., .updCore ..⟩

theorem xredOperand_ends {s : State} {root src g op len : Nat} {data : List DWord} {r : Reduction} (hsrc : src ∈ groupStopes (s.redgrp root g))
    (hvalid : groupValid (s.redgrp root g) = true) :
    let u := (s.core root).takeOperand g src op (data.take len)
    let members := groupStopes (s.redgrp root g)
    let result := laneDs (combineOps r.op (members.filterMap fun i => (r.operands.find? fun o => o.1 == i).map fun o => o.2.flatMap dLanes))
    let ps := members.map fun i => if r.faulty then redPacket root i 4 [] else redPacket root i 3 result
    u.reductions.filter (fun r => r.group == g) = [r] →
    (r.faulty = true ∨ r.started = true ∧ ∀ i ∈ members, ∃ o ∈ r.operands, o.1 = i) →
    Gives (.xredOperand root src g op len data) s fun t =>
      t.noc = (s.sendPackets ps).noc ∧ t.regs = (s.sendPackets ps).regs ∧ (∀ x ∈ (t.core root).reductions, x.group ≠ g) ∧
      { t with noc := s.noc, regs := s.regs, cores := s.cores } = s := by
  intro u members result ps hopen hends
  let v := s.updCore root fun t => t.takeOperand g src op (data.take len)
  have hcore : v.core root = u := State.core_updCore_same ..
  have hfilter : (v.core root).reductions.filter (fun r => r.group == g) = [r] := by rw [hcore, hopen]
  obtain ⟨hcoreless, hended, hframe⟩ := State.settleGroup_ends hfilter hends
  have hpackets : (v.settleGroup root g).coreless = (s.sendPackets ps).coreless := hcoreless.trans (State.sendPackets_coreless (s := s) (t := v) rfl ps)
  refine ⟨_, exec_xredOperand_member hsrc hvalid, (congrArg State.noc hpackets :), (congrArg State.regs hpackets :), fun x hx hg => ?_,
    (CoresRegsNoc.updCore s root _).trans hframe⟩
  have hnone : ((v.core root).reductions.erase r).filter (fun r => r.group == g) = [] := by
    rw [← List.erase_filter, hfilter, List.erase_cons_head]
  exact List.not_mem_nil (hnone ▸ List.mem_filter.2 ⟨hended ▸ hx, by simp [hg]⟩)

/-! ### A member's result (R158, R167) -/

theorem RangeOnly.updCore {s t : State} {c k : Nat} {b : Rng} {f : Core → Core} (h : RangeOnly s t c b) : RangeOnly s (t.updCore k f) c b := h

/-- With a result at hand for the oldest descriptor on a group, the bytes that it writes are in its range, and it awaits nothing more. -/
theorem xredResult_writes {s : State} {c g : Nat} {x : Issued} {data : List DWord} {b : Rng} {bs : List Byte}
    (hfind : (s.core c).issued.find? (fun i => i.awaitsGroup g) = some x) (hresult : s.reduceResult c x.desc data = s.wrRange c b bs)
    (hlen : bs.length = 8 * b.words) :
    Gives (.xredResult c g false data) s fun t =>
      t.rdRange c b = bs ∧
      (t.core c).issued = mapFirst (fun i => i.awaitsGroup g) (fun i => { i with await := .nothing, cause := 0 }) (s.core c).issued ∧
      RangeOnly s t c b := by
  have hexec : exec (.xredResult c g false data) s = .next ((s.wrRange c b bs).updCore c fun t => t.settleGroup g false) := by
    show execXredResult c g false data s = _
    unfold execXredResult
    rw [hfind]
    dsimp only
    rw [if_neg Bool.false_ne_true, hresult]
  refine ⟨_, hexec, ?_, ?_, (s.wrRange_rangeOnly c b hlen).updCore⟩
  · exact s.rdRange_wrRange c b hlen
  · rw [State.core_updCore_same, Core.settleGroup, (s.wrRange_issuesKept c b bs).issued c]
    rfl

theorem padTo_of_length {n : Nat} {bs : List Byte} (h : bs.length = n) : padTo n bs = bs := by simp [padTo, h]

theorem xredResult_xred {s : State} {c g : Nat} {x : Issued} {data : List DWord} {b : Rng}
    (hfind : (s.core c).issued.find? (fun i => i.awaitsGroup g) = some x) (hop : fld x.desc.w0 6 0 = 0x16)
    (hb : s.rangeOf c x.desc.w3 x.desc.len = some b) (hlen : data.length = x.desc.len) :
    Gives (.xredResult c g false data) s fun t =>
      t.rdRange c b = data.flatMap (fun y => leBytes 8 y.toNat) ∧
      (t.core c).issued = mapFirst (fun i => i.awaitsGroup g) (fun i => { i with await := .nothing, cause := 0 }) (s.core c).issued ∧
      RangeOnly s t c b := by
  have hbytes : (data.flatMap fun y => leBytes 8 y.toNat).length = 8 * x.desc.len := by
    simp [List.length_flatMap, ← hlen, Nat.mul_comm]
  refine xredResult_writes hfind ?_ (hbytes.trans (by rw [State.rangeOf_words hb]))
  unfold State.reduceResult
  rw [hb]
  dsimp only
  rw [if_pos (show x.desc.op = 0x16 from hop), List.take_of_length_le hlen.le, padTo_of_length hbytes]

theorem xredResult_norm {s : State} {c g : Nat} {x : Issued} {w : DWord} {a q b : Rng}
    (hfind : (s.core c).issued.find? (fun i => i.awaitsGroup g) = some x) (hop : fld x.desc.w0 6 0 = 0x15)
    (ha : s.rangeOf c x.desc.w1 x.desc.len = some a) (hq : s.rangeOf c x.desc.w2 x.desc.len = some q)
    (hb : s.rangeOf c x.desc.w3 x.desc.len = some b) :
    Gives (.xredResult c g false [w]) s fun t =>
      t.rdLanes c b = ((s.rdLanes c a).zip (s.rdLanes c q)).map (fun p =>
        normValue p.1 ((dLanes w).getD 0 0) ((dLanes w).getD 1 0)
          (2 * x.desc.len * (groupStopes (s.redgrp c (bitsOf x.desc.func 2 0))).length) (s.rd (shellNormEps c)) p.2 (bitAt x.desc.func 3)) ∧
      (t.core c).issued = mapFirst (fun i => i.awaitsGroup g) (fun i => { i with await := .nothing, cause := 0 }) (s.core c).issued ∧
      RangeOnly s t c b := by
  have hxred : x.desc.op ≠ 0x16 := fun h => by
    have : fld x.desc.w0 6 0 = 0x16 := h
    omega
  have hresult : s.reduceResult c x.desc [w] = s.wrRange c b (laneBytes (((s.rdLanes c a).zip (s.rdLanes c q)).map fun p =>
      normValue p.1 ((dLanes w).getD 0 0) ((dLanes w).getD 1 0)
        (2 * x.desc.len * (groupStopes (s.redgrp c (bitsOf x.desc.func 2 0))).length) (s.rd (shellNormEps c)) p.2 (bitAt x.desc.func 3))) := by
    unfold State.reduceResult
    rw [hb]
    dsimp only
    rw [if_neg hxred, ha, hq]
    rfl
  obtain ⟨t, hexec, hread, hrest⟩ := xredResult_writes hfind hresult (by
    simp [length_laneBytes, State.rangeOf_words ha, State.rangeOf_words hq, State.rangeOf_words hb]
    omega)
  refine ⟨t, hexec, ?_, hrest⟩
  rw [State.rdLanes, hread, lanes_laneBytes]

theorem xredResult_fault {s : State} {c g : Nat} {data : List DWord} (hawaits : ∃ x ∈ (s.core c).issued, x.awaitsGroup g = true) :
    Gives (.xredResult c g true data) s fun t =>
      (t.core c).issued =
        mapFirst (fun i => i.awaitsGroup g) (fun i => { i with await := .nothing, cause := causeGroupMismatch }) (s.core c).issued ∧
      { t.core c with issued := (s.core c).issued } = s.core c ∧ CoreOnly s t c := by
  obtain ⟨x, hfind⟩ := Option.isSome_iff_exists.1 (List.find?_isSome.2 hawaits)
  have hexec : exec (.xredResult c g true data) s = .next (s.updCore c fun t => t.settleGroup g true) := by
    show execXredResult c g true data s = _
    unfold execXredResult
    rw [hfind]
    rfl
  refine ⟨_, hexec, ?_, ?_, .updCore ..⟩
  · rw [State.core_updCore_same]
    rfl
  · rw [State.core_updCore_same]
    rfl

theorem xredResult_early_fault {s : State} {c g : Nat} {data : List DWord} (hnone : ∀ x ∈ (s.core c).issued, x.awaitsGroup g = false) :
    Gives (.xredResult c g true data) s fun t =>
      t.core c = { s.core c with redFaults := (s.core c).redFaults ++ [g] } ∧ CoreOnly s t c := by
  have hfind : (s.core c).issued.find? (fun i => i.awaitsGroup g) = none := List.find?_eq_none.2 fun x hx => by simp [hnone x hx]
  have hexec : exec (.xredResult c g true data) s = .next (s.updCore c fun t => { t with redFaults := t.redFaults ++ [g] }) := by
    show execXredResult c g true data s = _
    unfold execXredResult
    rw [hfind]
    rfl
  exact ⟨_, hexec, State.core_updCore_same .., .updCore ..⟩

/-! ### Counters (R190, R191) -/

theorem coreCounterOvf_ne {k : Nat} (c : Nat) (hk : k < 32) : coreCounterOvf c ≠ coreCounter c k := by
  unfold coreCounterOvf coreCounter
  omega

/-- With nothing awaiting a counter, its waiters' look changes nothing. -/
theorem wakeList_of_none {k : Nat} {is : List Issued} (h : ∀ x ∈ is, x.awaitsCounter k = false) (v : Word) : wakeList k v is = (v, is) := by
  induction is with
  | nil => rfl
  | cons i is ih =>
    have ih := ih fun x hx => h x (List.mem_cons_of_mem _ hx)
    have hi := h i List.mem_cons_self
    unfold wakeList
    split
    · rename_i j t consume timeout hawait
      have hj : j ≠ k := by
        rw [Issued.awaitsCounter, hawait] at hi
        simpa using hi
      rw [if_neg fun h => hj h.1, ih]
    · rw [ih]

/-- An addition that does not pass 0xFFFF_FFFF: the counter's waiters look at the sum. -/
theorem State.addCounter_within {s : State} {c k : Nat} {v : Word} (h : (s.rd (coreCounter c k)).toNat + v.toNat ≤ 0xFFFFFFFF) :
    s.addCounter c k v = (s.wr (coreCounter c k) (s.rd (coreCounter c k) + v)).wakeCounter c k := by
  have hsum : BitVec.ofNat 32 ((s.rd (coreCounter c k)).toNat + v.toNat) = s.rd (coreCounter c k) + v := by simp [BitVec.ofNat_add]
  unfold State.addCounter
  dsimp only
  rw [if_neg (by omega), hsum]

theorem State.wakeCounter_wr (s : State) (c k : Nat) (v : Word) :
    let t := (s.wr (coreCounter c k) v).wakeCounter c k
    (t.rd (coreCounter c k), (t.core c).issued) = wakeList k v (s.core c).issued ∧ { t.core c with issued := (s.core c).issued } = s.core c ∧
      CoreRegs s t c [coreCounter c k] := by
  have hwake : (s.wr (coreCounter c k) v).wakeCounter c k =
      (((s.wr (coreCounter c k) v).updCore c fun t => { t with issued := (wakeList k v (s.core c).issued).2 }).wr (coreCounter c k)
        (wakeList k v (s.core c).issued).1) := by
    unfold State.wakeCounter
    rw [State.rd_wr_same, State.wr_core]
  rw [hwake]
  refine ⟨?_, ?_, ((CoreRegs.wr _ List.mem_cons_self).trans (coreRegs_updCore ..)).trans (.wr _ List.mem_cons_self)⟩
  · rw [State.rd_wr_same, State.wr_core, State.core_updCore_same]
  · rw [State.wr_core, State.core_updCore_same, State.wr_core]

/-- An addition past 0xFFFF_FFFF stays there, sets the counter's overflow bit, and ends the waiters. -/
theorem State.addCounter_past {s : State} {c k : Nat} {v : Word} (hk : k < 32) (h : 0xFFFFFFFF < (s.rd (coreCounter c k)).toNat + v.toNat) :
    let t := s.addCounter c k v
    t.rd (coreCounter c k) = 0xFFFFFFFF ∧ bit (t.rd (coreCounterOvf c)) k = true ∧
      (t.core c).issued = (s.core c).issued.map
        (fun i => if i.awaitsCounter k then { i with await := .nothing, cause := causeCntOverflow } else i) := by
  unfold State.addCounter
  dsimp only
  rw [if_pos h, State.updCore_rd, State.updCore_rd, State.bit_rd_wrBit _ _ _ _ hk, State.rd_wrBit_other _ _ _ (coreCounterOvf_ne c hk).symm,
    State.rd_wr_same, State.core_updCore_same, State.wrBit_core, State.wr_core]
  exact ⟨rfl, rfl, rfl⟩

theorem exec_cincArrive {s : State} {c k : Nat} {v : Word} (hk : k < 32) : exec (.cincArrive c k v) s = .next (s.addCounter c k v) :=
  congrArg Host.Outcome.next (if_pos hk)

theorem cincArrive_adds {s : State} {c k : Nat} {v : Word} (hk : k < 32) (hnone : ∀ x ∈ (s.core c).issued, x.awaitsCounter k = false) :
    Gives (.cincArrive c k v) s fun t =>
      t.rd (coreCounter c k) = (if 0xFFFFFFFF < (s.rd (coreCounter c k)).toNat + v.toNat then 0xFFFFFFFF else s.rd (coreCounter c k) + v) ∧
      (bit (t.rd (coreCounterOvf c)) k = (bit (s.rd (coreCounterOvf c)) k || decide (0xFFFFFFFF < (s.rd (coreCounter c k)).toNat + v.toNat))) ∧
      CoreRegs s t c [coreCounter c k, coreCounterOvf c] := by
  refine ⟨_, exec_cincArrive hk, ?_⟩
  by_cases hover : 0xFFFFFFFF < (s.rd (coreCounter c k)).toNat + v.toNat
  · obtain ⟨hrd, hbit, -⟩ := State.addCounter_past hk hover
    rw [if_pos hover, decide_eq_true hover, Bool.or_true]
    exact ⟨hrd, hbit, State.addCounter_coreRegs ..⟩
  · obtain ⟨hwake, -, -, hregs, -⟩ := s.wakeCounter_wr c k (s.rd (coreCounter c k) + v)
    rw [wakeList_of_none hnone] at hwake
    have hadd := State.addCounter_within (s := s) (c := c) (k := k) (v := v) (by omega)
    have hovf : (s.addCounter c k v).rd (coreCounterOvf c) = s.rd (coreCounterOvf c) := by
      rw [hadd]
      exact hregs _ (by simpa using coreCounterOvf_ne c hk)
    rw [if_neg hover, decide_eq_false hover, Bool.or_false, hovf]
    refine ⟨?_, rfl, State.addCounter_coreRegs ..⟩
    rw [hadd]
    exact congrArg Prod.fst hwake

theorem cincArrive_wakes {s : State} {c k : Nat} {v : Word} (hk : k < 32) (h : (s.rd (coreCounter c k)).toNat + v.toNat ≤ 0xFFFFFFFF) :
    Gives (.cincArrive c k v) s fun t =>
      (t.rd (coreCounter c k), (t.core c).issued) = wakeList k (s.rd (coreCounter c k) + v) (s.core c).issued ∧
      { t.core c with issued := (s.core c).issued } = s.core c ∧ CoreRegs s t c [coreCounter c k] := by
  refine ⟨_, exec_cincArrive hk, ?_⟩
  rw [State.addCounter_within h]
  exact s.wakeCounter_wr c k _

theorem cincArrive_overflows {s : State} {c k : Nat} {v : Word} (hk : k < 32) (h : 0xFFFFFFFF < (s.rd (coreCounter c k)).toNat + v.toNat) :
    Gives (.cincArrive c k v) s fun t =>
      t.rd (coreCounter c k) = 0xFFFFFFFF ∧ bit (t.rd (coreCounterOvf c)) k = true ∧
      (t.core c).issued = (s.core c).issued.map (fun i => if i.awaitsCounter k then { i with await := .nothing, cause := causeCntOverflow } else i) ∧
      CoreRegs s t c [coreCounter c k, coreCounterOvf c] := by
  obtain ⟨hrd, hbit, hissued⟩ := State.addCounter_past hk h
  exact ⟨_, exec_cincArrive hk, hrd, hbit, hissued, State.addCounter_coreRegs ..⟩

/-! ### CWAIT and BARRIER at issue (R158, R190, R488) -/

theorem cwaitTimeout_gives {s : State} {c : Nat} {x : Issued}
    (hfind : (s.core c).issued.find? (fun i => match i.await with | .counter _ _ _ (some e) => decide (e ≤ s.now) | _ => false) = some x) :
    Gives (.cwaitTimeout c) s fun t =>
      t.rd (coreLastFault c) = BitVec.ofNat 32 (causeCwaitTimeout + min x.desc.index 4095 * 0x10000) ∧
      (t.core c).issued = (s.core c).issued.filter (fun i => i.step != x.step) ∧
      Noticed s t causeCwaitTimeout (coreEp c) ∧ RegsKept s t [coreLastFault c] ∧ t.mem = s.mem := by
  have hexec : exec (.cwaitTimeout c) s = .next (s.stepFault c x.step x.desc.index causeCwaitTimeout) := by
    show execCwaitTimeout c s = _
    unfold execCwaitTimeout
    dsimp only
    split
    · rename_i i hi
      obtain rfl := Option.some.inj (hfind.symm.trans hi)
      rfl
    · rename_i hi
      cases hfind.symm.trans hi
  obtain ⟨hfault, hregs, hnoticed, -, hmem⟩ := s.stepFault_kept c x.step x.desc.index (cause := causeCwaitTimeout) (by decide)
  refine ⟨_, hexec, hfault, ?_, hnoticed, hregs, hmem⟩
  rw [State.stepFault_core]
  rfl

/-- What a CWAIT that is satisfied does. -/
abbrev cwaitAct (c : Nat) (d : Desc) (v : Word) : Act :=
  { reads := [], writes := [], run := fun t => if bitAt d.func 0 then t.wr (coreCounter c (fld d.w1 4 0)) (v - d.w2) else t }

theorem State.cwaitJudge_form {s : State} {c : Nat} {d : Desc} (hfunc : d.func < 4) (hw1 : rsvAbove d.w1 5 = false)
    (hw3 : rsvAbove d.w3 24 = false) :
    s.cwaitJudge c d =
      (if d.w2.toNat ≤ (s.rd (coreCounter c (fld d.w1 4 0))).toNat then .act (cwaitAct c d (s.rd (coreCounter c (fld d.w1 4 0))))
       else if !(bitAt d.func 1) && fld d.w3 23 0 == 0 then .late causeCwaitTimeout
       else .act (awaitAct (.counter (fld d.w1 4 0) d.w2 (bitAt d.func 0) (if bitAt d.func 1 then none else some (s.now + fld d.w3 23 0 * 1000))))) := by
  unfold State.cwaitJudge
  dsimp only
  rw [Nat.div_eq_of_lt hfunc, hw1, hw3]
  rfl

theorem cwait_satisfied {s : State} {c : Nat} {d : Desc} {r : Running} (hfetched : (s.core c).fetched = some d) (hrun : (s.core c).run = some r)
    (hop : fld d.w0 6 0 = 0x21) (hfunc : d.func < 4) (hw1 : rsvAbove d.w1 5 = false) (hw3 : rsvAbove d.w3 24 = false)
    (hholds : s.issueHolds c d { reads := [], writes := [], run := id } = false)
    (hmet : d.w2.toNat ≤ (s.rd (coreCounter c (fld d.w1 4 0))).toNat) :
    Gives (.cwait c []) s fun t =>
      t.rd (coreCounter c (fld d.w1 4 0)) =
        (if bitAt d.func 0 then s.rd (coreCounter c (fld d.w1 4 0)) - d.w2 else s.rd (coreCounter c (fld d.w1 4 0))) ∧
      IssuedOn s t c d r [] [] .nothing ∧ CoreRegs s t c [coreCounter c (fld d.w1 4 0)] := by
  let a := cwaitAct c d (s.rd (coreCounter c (fld d.w1 4 0)))
  let u := s.withIssued c d r a
  have hjudge : s.cwaitJudge c d = .act a := by rw [State.cwaitJudge_form hfunc hw1 hw3, if_pos hmet]
  have hexec : exec (.cwait c []) s = .next (s.afterIssue c d r a) :=
    congrArg Host.Outcome.next (State.issue_acts_unheld (judge := fun s d => s.cwaitJudge c d) hfetched hrun hop hjudge hholds (by simp [Act.order, a]))
  have heffect : IssuesKept u (a.run u) ∧ CoreRegs u (a.run u) c [coreCounter c (fld d.w1 4 0)] ∧
      (a.run u).rd (coreCounter c (fld d.w1 4 0)) =
        (if bitAt d.func 0 then s.rd (coreCounter c (fld d.w1 4 0)) - d.w2 else s.rd (coreCounter c (fld d.w1 4 0))) := by
    show IssuesKept u (if bitAt d.func 0 then _ else u) ∧ CoreRegs u (if bitAt d.func 0 then _ else u) c _ ∧
      (if bitAt d.func 0 then _ else u).rd _ = _
    split
    · exact ⟨.of_cores rfl, .wr _ List.mem_cons_self, State.rd_wr_same ..⟩
    · exact ⟨.refl u, ⟨fun _ _ => rfl, fun _ _ => rfl, rfl⟩, State.withIssued_rd ..⟩
  obtain ⟨hissues, hregs, hrd⟩ := heffect
  exact ⟨_, hexec, hrd, State.afterIssue_issuedOn hissues, ((coreRegs_updCore s c _ _).trans hregs).trans (coreRegs_updCore ..)⟩

theorem cwait_waits {s : State} {c : Nat} {d : Desc} {r : Running} (hfetched : (s.core c).fetched = some d) (hrun : (s.core c).run = some r)
    (hop : fld d.w0 6 0 = 0x21) (hfunc : d.func < 4) (hw1 : rsvAbove d.w1 5 = false) (hw3 : rsvAbove d.w3 24 = false)
    (hholds : s.issueHolds c d { reads := [], writes := [], run := id } = false)
    (hlow : (s.rd (coreCounter c (fld d.w1 4 0))).toNat < d.w2.toNat) (htime : bitAt d.func 1 = true ∨ fld d.w3 23 0 ≠ 0) :
    Gives (.cwait c []) s fun t =>
      IssuedOn s t c d r [] [] (.counter (fld d.w1 4 0) d.w2 (bitAt d.func 0)
        (if bitAt d.func 1 then none else some (s.now + fld d.w3 23 0 * 1000))) ∧ CoreOnly s t c := by
  have hlate : ¬((!(bitAt d.func 1) && fld d.w3 23 0 == 0) = true) := by
    obtain h | h := htime
    · simp [h]
    · simp [h]
  have hjudge : s.cwaitJudge c d = .act (awaitAct (.counter (fld d.w1 4 0) d.w2 (bitAt d.func 0)
      (if bitAt d.func 1 then none else some (s.now + fld d.w3 23 0 * 1000)))) := by
    rw [State.cwaitJudge_form hfunc hw1 hw3, if_neg (by omega), if_neg hlate]
  obtain ⟨hissued, -, honly⟩ := State.issue_awaits (judge := fun s d => s.cwaitJudge c d) hfetched hrun hop hholds hjudge
  exact ⟨_, rfl, hissued, honly⟩

/-- A barrier's name reads back from a message's argument. -/
theorem argBarrier_barrierArg {g i : Nat} (hg : g < 8) (hi : i < 256) : argBarrier (BitVec.ofNat 32 (barrierArg g i)) = (g, i) := by
  have hnat : (BitVec.ofNat 32 (barrierArg g i)).toNat = g * 256 + i := by
    rw [BitVec.toNat_ofNat]
    exact Nat.mod_eq_of_lt (by unfold barrierArg; omega)
  unfold argBarrier fld
  rw [hnat]
  simp only [bitsOf, Prod.mk.injEq]
  omega

/-- What a BARRIER does. -/
abbrev barrierAct (c : Nat) (d : Desc) (w : Word) : Act :=
  { reads := [], writes := [], await := .barrier (bitsOf d.func 2 0) (fld d.w2 7 0),
    run := fun t => t.send (t.ctlMsg (groupRoot w) c 2 ((t.stopeRegion c).getD 0) 1 (barrierArg (bitsOf d.func 2 0) (fld d.w2 7 0)) 0) }

theorem barrier_gives {s : State} {c : Nat} {d : Desc} {r : Running} (hfetched : (s.core c).fetched = some d) (hrun : (s.core c).run = some r)
    (hop : fld d.w0 6 0 = 0x20) (hc : c < 256) (hfunc : bitsOf d.func 4 3 = 0) (hw1 : d.w1 = 0) (hw2 : rsvAbove d.w2 8 = false) (hw3 : d.w3 = 0)
    (hvalid : groupValid (s.redgrp c (bitsOf d.func 2 0)) = true) (hholds : s.issueHolds c d { reads := [], writes := [], run := id } = false) :
    Gives (.barrier c []) s fun t =>
      (∃ m, t.noc.ctl = s.noc.ctl ++ [m] ∧ m.typ = 2 ∧ m.src = c ∧ m.dest = groupRoot (s.redgrp c (bitsOf d.func 2 0)) ∧
        argBarrier m.arg0 = (bitsOf d.func 2 0, fld d.w2 7 0)) ∧
      IssuedOn s t c d r [] [] (.barrier (bitsOf d.func 2 0) (fld d.w2 7 0)) ∧
      { t with cores := s.cores, noc := { t.noc with ctl := s.noc.ctl, nets := s.noc.nets } } = s := by
  let a := barrierAct c d (s.redgrp c (bitsOf d.func 2 0))
  have hjudge : s.barrierJudge c d = .act a := by
    unfold State.barrierJudge
    dsimp only
    rw [hfunc, hw1, hw2, hw3, hvalid, if_neg (by simp), if_neg (by simp [hc])]
  have hexec : exec (.barrier c []) s = .next (s.afterIssue c d r a) :=
    congrArg Host.Outcome.next (State.issue_acts_unheld (judge := fun s d => s.barrierJudge c d) hfetched hrun hop hjudge hholds (by simp [Act.order, a]))
  have hname := argBarrier_barrierArg (g := bitsOf d.func 2 0) (i := fld d.w2 7 0) (Nat.mod_lt _ (by decide)) (fld_lt ..)
  exact ⟨_, hexec, ⟨_, rfl, rfl, rfl, rfl, hname⟩, State.afterIssue_issuedOn (.of_cores rfl), rfl⟩

/-! ### XRED at issue (R158, R167) -/

/-- What a root's own descriptor opens hangs on its core's reductions and step alone. -/
theorem Core.startReduction_congr {k k' : Core} (g op len : Nat) (hreds : k'.reductions = k.reductions) (hmade : k'.redMade = k.redMade)
    (hrun : k'.run = k.run) : (k'.startReduction g op len).reductions = (k.startReduction g op len).reductions := by
  have hid : k'.runId = k.runId := by rw [Core.runId, hrun, Core.runId]
  have hnext : k'.made g = k.made g := by rw [Core.made, hmade, Core.made]
  have hbegun (n : Nat) (f : Reduction → Reduction) : (k'.onReduction g n f).reductions = (k.onReduction g n f).reductions := by
    by_cases hn : n < k.made g
    · rw [Core.onReduction_begun hn, Core.onReduction_begun (hnext ▸ hn), hreds]
    · rw [Core.onReduction_next (by omega), Core.onReduction_next (by omega), hreds]
  unfold Core.startReduction
  rw [hreds, hid, hnext]
  split
  · exact hbegun _ _
  · exact hbegun _ _

theorem Core.startReduction_issues (k : Core) (g op len : Nat) :
    (k.startReduction g op len).issued = k.issued ∧ (k.startReduction g op len).fetched = k.fetched := by
  have hkept (n : Nat) (f : Reduction → Reduction) :
      (k.onReduction g n f).issued = k.issued ∧ (k.onReduction g n f).fetched = k.fetched := by
    unfold Core.onReduction
    split
    · exact ⟨rfl, rfl⟩
    · exact ⟨rfl, rfl⟩
  unfold Core.startReduction
  split
  · exact hkept _ _
  · exact hkept _ _

/-- A packet that the router takes moves the networks alone. -/
theorem State.injectFor_sound {s : State} {o : Option (Nat × Nat × Nat)} {m : Packet} (h : s.routerCode (s.stamped m) = 0) :
    { s.injectFor o m with noc := s.noc } = s := by
  unfold State.injectFor
  dsimp only
  split
  · rfl
  · rw [if_neg (not_not.2 h)]
    rfl

/-- The machine once the root's own descriptor has opened its reduction; another member's opens none. -/
def State.opensOwn (s : State) (c g op len : Nat) : State :=
  if groupRoot (s.redgrp c g) = c then s.updCore c fun t => t.startReduction g op len else s

theorem State.opensOwn_kept (s : State) (c g op len : Nat) :
    { s.opensOwn c g op len with cores := s.cores } = s ∧ IssuesKept s (s.opensOwn c g op len) ∧
    ((s.opensOwn c g op len).core c).reductions =
      (if groupRoot (s.redgrp c g) = c then ((s.core c).startReduction g op len).reductions else (s.core c).reductions) := by
  unfold State.opensOwn
  split
  · refine ⟨rfl, .updCore s c (fun t => (t.startReduction_issues g op len).1) fun t => (t.startReduction_issues g op len).2, ?_⟩
    rw [State.core_updCore_same]
  · exact ⟨rfl, .refl s, rfl⟩

/-- A member's operand goes out, and with another member's still missing nothing ends. -/
theorem State.sendOperand_waits {s : State} {c g op : Nat} {data : List DWord} (hlost : g ∉ (s.core c).redFaults)
    (hcode : s.routerCode (s.stamped { redPacket c (groupRoot (s.redgrp c g)) 2 data with device := s.edge.devId }) = 0)
    (hwaits : groupRoot (s.redgrp c g) = c → ∀ q, ((s.core c).startReduction g op data.length).reductions.find? (fun q => q.group == g) = some q →
      q.faulty = false ∧ ∃ i ∈ groupStopes (s.redgrp c g), ∀ o ∈ q.operands, o.1 ≠ i) :
    let v := s.opensOwn c g op data.length
    let t := s.sendOperand c g op data
    t = v.sendPackets [redPacket c (groupRoot (s.redgrp c g)) 2 data] ∧ { t with noc := s.noc } = v := by
  intro v t
  let m := redPacket c (groupRoot (s.redgrp c g)) 2 data
  obtain ⟨hframe, -, hreds⟩ := s.opensOwn_kept c g op data.length
  have hcode' : v.routerCode (v.stamped { m with device := v.edge.devId }) = 0 :=
    (congrArg (fun x : State => x.routerCode (x.stamped { m with device := x.edge.devId })) hframe :).trans hcode
  have hsent : { v.sendPackets [m] with noc := v.noc } = v := State.injectFor_sound hcode'
  have hnoc : v.noc = s.noc := (congrArg State.noc hframe :)
  have hgroup : v.redgrp c g = s.redgrp c g := (congrArg (fun x : State => x.redgrp c g) hframe :)
  have ht : t = if groupRoot (s.redgrp c g) = c then (v.sendPackets [m]).settleGroup c g else v.sendPackets [m] := by
    show s.sendOperand c g op data = _
    unfold State.sendOperand
    dsimp only
    rw [if_neg (show ¬ (s.core c).redFaults.contains g = true by simpa using hlost)]
    rfl
  have hidle : t = v.sendPackets [m] := by
    rw [ht]
    split
    · rename_i hroot
      refine State.endReductions_idle (s := v.sendPackets [m]) (State.tryReduce_waits fun q hq => ?_) _
      have hcore : (v.sendPackets [m]).core c = v.core c := (congrArg (fun x : State => x.core c) hsent :)
      have hsame : (v.sendPackets [m]).redgrp c g = s.redgrp c g := (congrArg (fun x : State => x.redgrp c g) hsent :).trans hgroup
      rw [hcore, hreds, if_pos hroot] at hq
      obtain ⟨hfaulty, hmissing⟩ := hwaits hroot q hq
      exact ⟨hfaulty, .inr (hsame ▸ hmissing)⟩
    · rfl
  refine ⟨hidle, ?_⟩
  rw [hidle, ← hnoc]
  exact hsent

/-- What an XRED does. -/
abbrev xredAct (c : Nat) (d : Desc) (root : Nat) (a b : Rng) : Act :=
  { reads := [a], writes := [b], await := .xred (bitsOf d.func 2 0) root, early := true,
    run := fun t => t.sendOperand c (bitsOf d.func 2 0) (bitsOf d.func 4 3) (laneDs (t.rdLanes c a)) }

/-- The scoreboard entries of an issuing descriptor leave what its core reduces. -/
theorem State.withIssued_reducing (s : State) (c : Nat) (d : Desc) (r : Running) (a : Act) :
    ((s.withIssued c d r a).core c).reductions = (s.core c).reductions ∧ ((s.withIssued c d r a).core c).redMade = (s.core c).redMade ∧
    ((s.withIssued c d r a).core c).run = (s.core c).run ∧ ((s.withIssued c d r a).core c).redFaults = (s.core c).redFaults := by
  rw [State.withIssued, State.core_updCore_same]
  exact ⟨rfl, rfl, rfl, rfl⟩

theorem xred_gives {s : State} {c : Nat} {d : Desc} {r : Running} {a b : Rng} (hc : c < 256) (h : Heads s c d r [a] [b])
    (hop : fld d.w0 6 0 = 0x16) (hw2 : d.w2 = 0) (hlen : d.len ≤ 30) (ha : s.vecRange c d.w1 d.len = some a)
    (hb : s.dstRange c d.w3 d.len false = some b) (hspace : b.space ≠ 1) (hob : b.isOb = false) :
    let g := bitsOf d.func 2 0
    let root := groupRoot (s.redgrp c g)
    let m := redPacket c root 2 (laneDs (s.rdLanes c a))
    let u := (s.core c).startReduction g (bitsOf d.func 4 3) (laneDs (s.rdLanes c a)).length
    groupValid (s.redgrp c g) = true → g ∉ (s.core c).redFaults → s.routerCode (s.stamped { m with device := s.edge.devId }) = 0 →
    (root = c → ∀ q, u.reductions.find? (fun q => q.group == g) = some q →
      q.faulty = false ∧ ∃ i ∈ groupStopes (s.redgrp c g), ∀ o ∈ q.operands, o.1 ≠ i) →
    Gives (.xred c []) s fun t =>
      t.noc = (s.sendPackets [m]).noc ∧ (t.core c).reductions = (if root = c then u.reductions else (s.core c).reductions) ∧
      { t with noc := s.noc, cores := s.cores } = s ∧ IssuedOn s t c d r [] [b] (.xred g root) := by
  intro g root m u hvalid hlost hcode hwaits
  let act := xredAct c d root a b
  let v := s.withIssued c d r act
  let w := v.opensOwn c g (bitsOf d.func 4 3) (laneDs (s.rdLanes c a)).length
  have hjudge : s.xredJudge c d = .act act := by
    unfold State.xredJudge
    dsimp only
    rw [hw2, ha, State.dstRange_filter hb hspace hob]
    dsimp only
    rw [hvalid, if_neg (by simp; omega)]
    exact judgeWith_acts h.len_ne_zero
  have hexec : exec (.xred c []) s = .next (s.afterIssue c d r act) :=
    congrArg Host.Outcome.next (State.issue_acts (judge := fun s d => s.xredJudge c d) h hop hjudge)
  obtain ⟨hkeptReds, hkeptMade, hkeptRun, hkeptFaults⟩ := s.withIssued_reducing c d r act
  have hopened : ((v.core c).startReduction g (bitsOf d.func 4 3) (laneDs (s.rdLanes c a)).length).reductions = u.reductions :=
    Core.startReduction_congr g _ _ hkeptReds hkeptMade hkeptRun
  obtain ⟨hsent, hnoc⟩ := State.sendOperand_waits (s := v) (c := c) (g := g) (op := bitsOf d.func 4 3) (data := laneDs (s.rdLanes c a))
    (hkeptFaults ▸ hlost) hcode (fun hroot q hq => hwaits hroot q (hopened ▸ hq))
  obtain ⟨hframe, hissues, hreds⟩ := v.opensOwn_kept c g (bitsOf d.func 4 3) (laneDs (s.rdLanes c a)).length
  have hrun : act.run v = v.sendOperand c g (bitsOf d.func 4 3) (laneDs (s.rdLanes c a)) := rfl
  have hpackets : (w.sendPackets [m]).coreless = (s.sendPackets [m]).coreless :=
    State.sendPackets_coreless (s := s) (t := w) (congrArg State.coreless hframe :) _
  have hcores : (act.run v).cores = w.cores := (congrArg State.cores hnoc :)
  refine ⟨_, hexec, ?_, ?_, ?_, State.afterIssue_issuedOn (hissues.trans (.of_cores hcores))⟩
  · exact (congrArg State.noc (hrun.trans hsent)).trans (congrArg State.noc hpackets :)
  · have hnext (t : Core) : (t.issueNext d.last).reductions = t.reductions := by
      unfold Core.issueNext
      dsimp only
      split
      · split
        · rfl
        · rfl
      · rfl
    rw [State.afterIssue, State.core_updCore_same, hnext, State.core, hcores]
    refine hreds.trans ?_
    rw [hopened, hkeptReds]
    rfl
  · have hstate : ({ act.run v with noc := s.noc, cores := s.cores } : State) = { w with cores := s.cores } :=
      congrArg (fun x : State => { x with cores := s.cores }) hnoc
    exact hstate.trans (congrArg (fun x : State => { x with cores := s.cores }) hframe)

/-- Settles O27: the root's reductions end by their operands alone, and counters and barriers wake what waits on them. -/
theorem reductionsAndCountersAct : Obligations.ReductionsAndCountersAct := by
  unfold Obligations.ReductionsAndCountersAct
  exact ⟨fun _ _ _ _ _ _ _ _ => xredOperand_foreign, fun _ _ _ _ _ _ _ => xredOperand_waits,
    fun _ _ _ _ _ _ _ _ _ => xredOperand_ends, fun _ _ _ _ _ _ hfind hop hb _ => xredResult_xred hfind hop hb,
    fun _ _ _ _ _ _ _ _ hfind hop ha hq hb _ => xredResult_norm hfind hop ha hq hb, fun _ _ _ _ => xredResult_fault,
    fun _ _ _ _ => xredResult_early_fault, fun _ _ _ _ => cincArrive_adds, fun _ _ _ _ => cincArrive_wakes,
    fun _ _ _ _ => cincArrive_overflows, fun _ _ _ _ _ _ _ _ _ => cwaitTimeout_gives, fun _ _ _ _ => cwait_satisfied,
    fun _ _ _ _ => cwait_waits, fun _ _ _ _ => barrier_gives, fun _ _ _ _ _ _ => xred_gives⟩

end Sys2Proof.Machine

namespace Sys2Proof.Machine

/-! ## O50: fabric packets pass windows and are answered (R186, R187, R379, R385, R400, R402, R403, R406) -/

/-! ### What a flit on its way out of an endpoint moves -/

/-- Whether a register counts no flit that a port has sent: no port's FLITS_TX is at its place in a page. -/
def NotFlitsTx (o : Nat) : Prop := o % 0x1000 ≠ 0x120 ∧ o % 0x1000 ≠ 0x124

/-- Nothing but the ports moved, and the counts of the flits that they have sent. -/
structure PortsOnly (s t : State) : Prop where
  rd : ∀ o, NotFlitsTx o → t.rd o = s.rd o
  frame : { t with fab := { t.fab with ports := s.fab.ports }, regs := s.regs } = s

theorem PortsOnly.refl (s : State) : PortsOnly s s := ⟨fun _ _ => rfl, rfl⟩

theorem PortsOnly.adit {s t : State} (h : PortsOnly s t) (e : Nat) : t.adit e = s.adit e := (congrArg (fun x : State => x.adit e) h.frame :)
theorem PortsOnly.mem {s t : State} (h : PortsOnly s t) : t.mem = s.mem := (congrArg State.mem h.frame :)
theorem PortsOnly.cores {s t : State} (h : PortsOnly s t) : t.cores = s.cores := (congrArg State.cores h.frame :)
theorem PortsOnly.noc {s t : State} (h : PortsOnly s t) : t.noc = s.noc := (congrArg State.noc h.frame :)
theorem PortsOnly.adits {s t : State} (h : PortsOnly s t) : t.fab.adits = s.fab.adits := (congrArg (fun x : State => x.fab.adits) h.frame :)
theorem PortsOnly.hold {s t : State} (h : PortsOnly s t) : t.fab.hold = s.fab.hold := (congrArg (fun x : State => x.fab.hold) h.frame :)

theorem PortsOnly.trans {s t u : State} (h : PortsOnly s t) (h' : PortsOnly t u) : PortsOnly s u := by
  refine ⟨fun o ho => (h'.rd o ho).trans (h.rd o ho), ?_⟩
  have hlast : ({ u with fab := { u.fab with ports := s.fab.ports }, regs := s.regs } : State) =
      { t with fab := { t.fab with ports := s.fab.ports }, regs := s.regs } :=
    (congrArg (fun x : State => ({ x with fab := { x.fab with ports := s.fab.ports }, regs := s.regs } : State)) h'.frame :)
  exact hlast.trans h.frame

theorem PortsOnly.setPort (s : State) (p : Nat) (x : Port) : PortsOnly s (s.setPort p x) := ⟨fun _ _ => rfl, rfl⟩

theorem PortsOnly.countTx (s : State) (p n : Nat) : PortsOnly s (s.inc64 (peligFlitsTxLo p) n) := by
  have hpage : peligFlitsTxLo p = (0x18 + p) * 0x1000 + 0x120 := by
    unfold peligFlitsTxLo peligPage
    ring
  refine ⟨fun o ho => ?_, s.inc64_with_regs ..⟩
  obtain ⟨hlo, hhi⟩ := ho
  rw [State.rd_inc64_other _ _ (by omega) (by omega)]

theorem State.portEmit_portsOnly (s : State) (p : Nat) (f : Flit) : PortsOnly s (s.portEmit p f) :=
  (PortsOnly.setPort s p _).trans (.countTx _ p 1)

theorem State.portSend_portsOnly (s : State) (p : Nat) (f : Flit) : PortsOnly s (s.portSend p f) := by
  unfold State.portSend
  split
  · exact .refl s
  · split
    · exact s.portEmit_portsOnly p f
    · exact ⟨fun _ _ => rfl, rfl⟩

theorem State.aditSend_portsOnly (s : State) (ep : Nat) (f : Flit) : PortsOnly s (s.aditSend ep f) := s.portSend_portsOnly _ _

/-- A flit for a port goes out, waits, or goes nowhere. -/
theorem State.portSend_flitOut (s : State) (p : Nat) (f : Flit) : FlitOut s (s.portSend p f) p f := by
  have hlane : ((s.port p).held.any fun g => g.lvc == f.lvc) = true ↔ ∃ h ∈ (s.port p).held, h.lvc = f.lvc := by simp
  have hisUp (h : s.portReady p f = true) : (s.port p).isUp = true := by
    unfold State.portReady at h
    simp only [Bool.and_eq_true] at h
    exact h.1.1.1
  have hemit (h : s.portReady p f = true) (hfree : ∀ h ∈ (s.port p).held, h.lvc ≠ f.lvc) (hcarries : portCarries p f.opcode = true) :
      s.portSend p f = s.portEmit p f := by
    have hnone : ((s.port p).held.any fun g => g.lvc == f.lvc) = false := by simpa using hfree
    unfold State.portSend
    rw [if_neg (by simp [hisUp h, hcarries]), if_pos (by simp [h, hnone])]
  have hhold (hup : (s.port p).isUp = true) (hcarries : portCarries p f.opcode = true)
      (h : s.portReady p f = false ∨ ∃ h ∈ (s.port p).held, h.lvc = f.lvc) :
      s.portSend p f = s.updPort p fun t => { t with held := t.held ++ [f] } := by
    unfold State.portSend
    rw [if_neg (by simp [hup, hcarries]), if_neg]
    obtain h | h := h
    · simp [h]
    · simp [hlane.2 h]
  have hdrop (h : (s.port p).isUp = false ∨ portCarries p f.opcode = false) : s.portSend p f = s := by
    unfold State.portSend
    rw [if_pos]
    obtain h | h := h
    · simp [h]
    · simp [h]
  refine ⟨fun h hfree hcarries => ?_, fun hup hcarries h => ?_, fun h => ?_, fun q hq => ?_⟩
  · rw [hemit h hfree hcarries, State.portEmit, State.inc64_port, State.port_setPort_same]
    exact ⟨rfl, rfl⟩
  · rw [hhold hup hcarries h, State.port_updPort_same]
  · rw [hdrop h]
  · unfold State.portSend
    split
    · rfl
    · split
      · rw [State.portEmit, State.inc64_port, State.port_setPort_other _ _ hq]
      · rw [State.port_updPort_other _ _ hq]

/-- Where a flit goes hangs on its port, its readiness and the other ports alone. -/
theorem FlitOut.of_ports {s u t : State} {q : Nat} {f : Flit} (h : FlitOut u t q f) (hports : ∀ p, u.port p = s.port p)
    (hready : u.portReady q f = s.portReady q f) : FlitOut s t q f := by
  obtain ⟨hemit, hhold, hdrop, hothers⟩ := h
  rw [hports q, hready] at hemit hhold
  rw [hports q] at hdrop
  exact ⟨hemit, hhold, hdrop, fun p hp => (hothers p hp).trans (hports p)⟩

/-! ### The answer to a sequenced packet (R402, R403) -/

/-- An answer stands at an endpoint, and went out: beside the endpoint's answers, only the ports moved. -/
structure FabAnswered (s t : State) (ep e2e status : Nat) : Prop where
  answer : (e2e, status) ∈ (t.adit ep).answered
  adit : { t.adit ep with answered := (s.adit ep).answered } = s.adit ep
  others : ∀ e, e ≠ ep → t.adit e = s.adit e
  rd : ∀ o, NotFlitsTx o → t.rd o = s.rd o
  frame : { t with fab := { t.fab with ports := s.fab.ports, adits := s.fab.adits }, regs := s.regs } = s

theorem FabAnswered.mem {s t : State} {ep e2e st : Nat} (h : FabAnswered s t ep e2e st) : t.mem = s.mem := (congrArg State.mem h.frame :)
theorem FabAnswered.cores {s t : State} {ep e2e st : Nat} (h : FabAnswered s t ep e2e st) : t.cores = s.cores := (congrArg State.cores h.frame :)
theorem FabAnswered.noc {s t : State} {ep e2e st : Nat} (h : FabAnswered s t ep e2e st) : t.noc = s.noc := (congrArg State.noc h.frame :)
theorem FabAnswered.hold {s t : State} {ep e2e st : Nat} (h : FabAnswered s t ep e2e st) : t.fab.hold = s.fab.hold :=
  (congrArg (fun x : State => x.fab.hold) h.frame :)
theorem FabAnswered.waiting {s t : State} {ep e2e st : Nat} (h : FabAnswered s t ep e2e st) (e : Nat) :
    (t.adit e).waiting = (s.adit e).waiting := by
  by_cases he : e = ep
  · rw [he]
    exact (congrArg Adit.waiting h.adit :)
  · rw [h.others e he]

/-- The last of a list is among its last 2,048. -/
theorem mem_last_kept {α : Type} (l : List α) (x : α) : x ∈ (l ++ [x]).drop ((l ++ [x]).length - 2048) := by
  rw [List.drop_append_of_le_length (by rw [List.length_append, List.length_singleton]; omega)]
  exact List.mem_append_right _ (List.mem_singleton_self x)

/-- An adit with a sequenced packet's answer among its last. -/
def Adit.answer (a : Adit) (e2e status : Nat) : Adit :=
  let l := (a.answered.filter fun p => p.1 != e2e) ++ [(e2e, status)]
  { a with answered := l.drop (l.length - 2048) }

theorem Adit.answer_rest (a : Adit) (e2e status : Nat) : { a.answer e2e status with answered := a.answered } = a := by
  unfold Adit.answer
  dsimp only
theorem Adit.mem_answer (a : Adit) (e2e status : Nat) : (e2e, status) ∈ (a.answer e2e status).answered := by
  unfold Adit.answer
  dsimp only
  exact mem_last_kept _ _

theorem State.fabAnswer_answered (s : State) (ep e2e status : Nat) : FabAnswered s (s.fabAnswer ep e2e status) ep e2e status := by
  unfold State.fabAnswer
  extract_lets u
  have hsent := u.aditSend_portsOnly ep (mkFlit 2 0 epHeadframe epHeadframe 0 (leBytes 2 (e2e + 0x1000 * status)))
  have hadit : u.adit ep = (s.adit ep).answer e2e status := State.adit_updAdit_same ..
  refine ⟨?_, ?_, fun e he => ?_, fun o ho => hsent.rd o ho, ?_⟩
  · rw [hsent.adit, hadit]
    exact Adit.mem_answer ..
  · rw [hsent.adit, hadit, Adit.answer_rest]
  · rw [hsent.adit]
    exact s.adit_updAdit_other _ he
  · exact (congrArg (fun x : State => { x with fab := { x.fab with adits := s.fab.adits } }) hsent.frame :)

/-! ### A packet that is next in its adit's order (R400, R402) -/

/-- The machine once an adit's next sequenced packet is taken from the inbox, before it is processed. -/
def State.inOrder (s : State) (fl : Flit) : State :=
  (s.takeFlit fl).setAdit fl.path { s.adit fl.path with rxE2e := ((s.adit fl.path).rxE2e + 1) % 4096 }

theorem State.inOrder_adit (s : State) (fl : Flit) :
    (s.inOrder fl).adit fl.path = { s.adit fl.path with rxE2e := ((s.adit fl.path).rxE2e + 1) % 4096 } := State.adit_setAdit_same ..

theorem State.inOrder_others (s : State) (fl : Flit) {e : Nat} (he : e ≠ fl.path) : (s.inOrder fl).adit e = s.adit e :=
  State.adit_setAdit_other _ _ he

/-- A packet is the next of its adit, which has nothing held or waiting. -/
def State.NextPacket (s : State) (fl : Flit) : Prop :=
  (s.adit fl.path).isLocal = true ∧ ((s.adit fl.path).rxE2e + 4096 - fl.e2e) % 4096 = 0 ∧ s.holds fl.path = false ∧ (s.adit fl.path).waiting = []

/-- What an endpoint answers to a repeated packet, once more. -/
def answerFlit (q : Nat × Nat) : Flit := mkFlit 2 0 epHeadframe epHeadframe 0 (leBytes 2 (q.1 + 0x1000 * q.2))

/-- A sequenced packet's arrival, by its place in its adit's order. -/
theorem State.fabArrive_eq (s : State) (fl : Flit) (op : Nat) :
    (s.takeFlit fl).fabArrive { fl with opcode := op } =
      if !(s.adit fl.path).isLocal then s.takeFlit fl
      else if ((s.adit fl.path).rxE2e + 4096 - fl.e2e) % 4096 = 0 then
        if s.holds fl.path || !(s.adit fl.path).waiting.isEmpty then
          (s.inOrder fl).updAdit fl.path fun a => { a with waiting := a.waiting ++ [{ fl with opcode := op }] }
        else (s.inOrder fl).fabProcess fl.path { fl with opcode := op }
      else if ((s.adit fl.path).rxE2e + 4096 - fl.e2e) % 4096 ≤ 2048 then
        match (s.adit fl.path).answered.find? fun x => x.1 == fl.e2e with
        | some q => ((s.takeFlit fl).inc aditDupDiscardCount 1).aditSend fl.path (answerFlit q)
        | none => (s.takeFlit fl).inc aditDupDiscardCount 1
      else s.takeFlit fl := rfl

theorem State.fabArrive_next {s : State} {fl : Flit} (h : s.NextPacket fl) (op : Nat) :
    (s.takeFlit fl).fabArrive { fl with opcode := op } = (s.inOrder fl).fabProcess fl.path { fl with opcode := op } := by
  obtain ⟨hlocal, hbehind, hholds, hwaiting⟩ := h
  rw [State.fabArrive_eq, hlocal, if_neg (by decide), if_pos hbehind, hholds, hwaiting, if_neg (by decide)]

/-- The next packet of an adit has its answer. -/
def State.AnswersNext (s t : State) (fl : Flit) (code : Nat) : Prop :=
  (fl.e2e, code) ∈ (t.adit fl.path).answered ∧ (t.adit fl.path).rxE2e = ((s.adit fl.path).rxE2e + 1) % 4096 ∧
    ∀ e, e ≠ fl.path → t.adit e = s.adit e

theorem FabAnswered.answersNext {s u t : State} {fl : Flit} {code : Nat} (h : FabAnswered u t fl.path fl.e2e code)
    (hadits : u.fab.adits = (s.inOrder fl).fab.adits) : s.AnswersNext t fl code := by
  have hadit (e : Nat) : u.adit e = (s.inOrder fl).adit e := congrArg (fun a => Table.get Adit.reset a e) hadits
  refine ⟨h.answer, ?_, fun e he => ?_⟩
  · rw [show (t.adit fl.path).rxE2e = (u.adit fl.path).rxE2e from (congrArg Adit.rxE2e h.adit :), hadit, State.inOrder_adit]
  · rw [h.others e he, hadit, State.inOrder_others s fl he]

theorem exec_write_next {s : State} {fl : Flit} (h : s.NextPacket fl) :
    exec (.write fl) s = .next ((s.inOrder fl).fabProcess fl.path { fl with opcode := 1 }) :=
  congrArg Host.Outcome.next (State.fabArrive_next h 1)

theorem State.inOrder_region (s : State) (fl : Flit) : ((s.inOrder fl).adit fl.path).region = (s.adit fl.path).region := by
  rw [State.inOrder_adit]
  rfl

/-- A WRITE's processing: the endpoint is none, or outside the region, or no core, or a core. -/
theorem State.fabProcess_write (s : State) (ep : Nat) {f : Flit} (h : f.opcode = 1) :
    s.fabProcess ep f =
      if !(epExists f.destEp) then s.fabAnswer ep f.e2e 3
      else if !(s.inRegion f.destEp (s.adit ep).region) then s.fabAnswer ep f.e2e 2
      else match epCore f.destEp with
        | some c => s.fabWrite ep c f
        | none => s.fabAnswer ep f.e2e 0 := by
  unfold State.fabProcess
  dsimp only
  exact if_neg (by omega)

theorem write_answered {s : State} {fl : Flit} {code : Nat} (h : s.NextPacket fl)
    (hprocess : (s.inOrder fl).fabProcess fl.path { fl with opcode := 1 } = (s.inOrder fl).fabAnswer fl.path fl.e2e code) :
    Gives (.write fl) s fun t => s.AnswersNext t fl code ∧ t.mem = s.mem ∧ t.cores = s.cores := by
  have hanswered := (s.inOrder fl).fabAnswer_answered fl.path fl.e2e code
  exact ⟨_, (exec_write_next h).trans (congrArg Host.Outcome.next hprocess), hanswered.answersNext rfl, hanswered.mem, hanswered.cores⟩

theorem write_no_endpoint {s : State} {fl : Flit} (h : s.NextPacket fl) (hdest : epExists fl.destEp = false) :
    Gives (.write fl) s fun t => s.AnswersNext t fl 3 ∧ t.mem = s.mem ∧ t.cores = s.cores := by
  refine write_answered h ?_
  rw [State.fabProcess_write _ _ rfl, if_pos (by simp [hdest])]

theorem write_outside {s : State} {fl : Flit} (h : s.NextPacket fl) (hdest : epExists fl.destEp = true)
    (hregion : s.inRegion fl.destEp (s.adit fl.path).region = false) :
    Gives (.write fl) s fun t => s.AnswersNext t fl 2 ∧ t.mem = s.mem ∧ t.cores = s.cores := by
  refine write_answered h ?_
  rw [State.fabProcess_write _ _ rfl, if_neg (by simp [hdest]), s.inOrder_region]
  exact if_pos (by rw [show (s.inOrder fl).inRegion fl.destEp (s.adit fl.path).region = false from hregion]; rfl)

/-- A WRITE to an endpoint of the region goes on to its core, or with none is delivered. -/
theorem State.fabProcess_inside {s : State} {fl : Flit} (hdest : epExists fl.destEp = true)
    (hregion : s.inRegion fl.destEp (s.adit fl.path).region = true) :
    (s.inOrder fl).fabProcess fl.path { fl with opcode := 1 } = match epCore fl.destEp with
      | some c => (s.inOrder fl).fabWrite fl.path c { fl with opcode := 1 }
      | none => (s.inOrder fl).fabAnswer fl.path fl.e2e 0 := by
  rw [State.fabProcess_write _ _ rfl, if_neg (by simp [hdest]), s.inOrder_region]
  exact if_neg (by rw [show (s.inOrder fl).inRegion fl.destEp (s.adit fl.path).region = true from hregion]; exact Bool.false_ne_true)

theorem write_rim {s : State} {fl : Flit} (h : s.NextPacket fl) (hdest : epExists fl.destEp = true)
    (hregion : s.inRegion fl.destEp (s.adit fl.path).region = true) (hcore : epCore fl.destEp = none) :
    Gives (.write fl) s fun t => s.AnswersNext t fl 0 ∧ t.mem = s.mem ∧ t.cores = s.cores := by
  refine write_answered h ?_
  rw [State.fabProcess_inside hdest hregion, hcore]

theorem State.inOrder_fabMeeting (s : State) (fl f : Flit) (c : Nat) :
    (s.inOrder fl).fabMeeting fl.path c f = s.fabMeeting fl.path c f := by
  unfold State.fabMeeting
  dsimp only
  rw [State.inOrder_adit]
  rfl

section
variable {s : State} {fl : Flit} {c : Nat}

/-- A WRITE to a core of the region meets the core's windows. -/
theorem exec_write_core (h : s.NextPacket fl) (hdest : epExists fl.destEp = true) (hregion : s.inRegion fl.destEp (s.adit fl.path).region = true)
    (hcore : epCore fl.destEp = some c) :
    exec (.write fl) s = .next (match s.fabMeeting fl.path c { fl with opcode := 1 } with
      | .taken w => (s.inOrder fl).fabTake fl.path c w { fl with opcode := 1 }
      | .refused => (s.inOrder fl).fabRefuse fl.path c { fl with opcode := 1 }
      | .unopened =>
        if s.fab.hold.length < 64 then
          { s.inOrder fl with fab := { (s.inOrder fl).fab with hold := s.fab.hold ++ [{ flit := { fl with opcode := 1 }, since := s.now, ep := fl.path }] } }
        else ((s.inOrder fl).inc windowHoldRefuseCount 1).fabRefuse fl.path c { fl with opcode := 1 }) := by
  rw [exec_write_next h, State.fabProcess_inside hdest hregion, hcore]
  dsimp only
  unfold State.fabWrite
  rw [State.inOrder_fabMeeting]
  rfl

theorem write_taken {w : Window} (h : s.NextPacket fl) (hdest : epExists fl.destEp = true)
    (hregion : s.inRegion fl.destEp (s.adit fl.path).region = true) (hcore : epCore fl.destEp = some c)
    (hmeet : s.fabMeeting fl.path c { fl with opcode := 1 } = .taken w) :
    let f : Flit := { fl with opcode := 1 }
    Gives (.write fl) s fun t =>
      t.rdMem (s.unitFlat c f.addr) (flitData f).length = flitData f ∧ MemKept s t (s.unitFlat c f.addr) (flitData f).length ∧
      s.AnswersNext t fl 0 ∧ t.fab.hold = s.fab.hold := by
  intro f
  have hexec := exec_write_core h hdest hregion hcore
  rw [hmeet] at hexec
  let u := (s.inOrder fl).landWrite c w (s.unitFlat c f.addr) (flitData f)
  obtain ⟨hmem, -, -, hframe⟩ := (s.inOrder fl).landWrite_spec c w (s.unitFlat c f.addr) (flitData f)
  have hfab : u.fab = (s.inOrder fl).fab := (congrArg State.fab hframe :)
  have hanswered := u.fabAnswer_answered fl.path fl.e2e 0
  refine ⟨u.fabAnswer fl.path fl.e2e 0, hexec, ?_, fun x hx => ?_, hanswered.answersNext (congrArg Fab.adits hfab), ?_⟩
  · rw [State.rdMem, hanswered.mem, hmem]
    exact readBytes_writeBytes_same _ _ rfl
  · rw [hanswered.mem, hmem]
    exact readByte_writeBytes_outside _ _ _ _ (by omega)
  · exact hanswered.hold.trans (congrArg Fab.hold hfab :)

theorem coreBase_page (c : Nat) : coreBase c % 0x1000 = 0 := by
  unfold coreBase shellPage mergePage
  split
  · omega
  · omega

theorem notFlitsTx_coreWinRefused (c : Nat) : NotFlitsTx (coreWinRefused c) := by
  have := coreBase_page c
  unfold NotFlitsTx coreWinRefused
  omega

theorem notFlitsTx_windowHoldRefuseCount : NotFlitsTx windowHoldRefuseCount := ⟨by decide, by decide⟩
theorem notFlitsTx_aditDupDiscardCount : NotFlitsTx aditDupDiscardCount := ⟨by decide, by decide⟩

theorem coreWinRefused_ne_windowHoldRefuseCount (c : Nat) : coreWinRefused c ≠ windowHoldRefuseCount := by
  have := coreBase_page c
  have hcount : windowHoldRefuseCount = 0x11118 := rfl
  rw [hcount, coreWinRefused]
  omega

/-- A refused packet that is no CHUNK is counted at its core and answered with WINDOW_REFUSED. -/
theorem State.fabRefuse_answered (s : State) (ep c : Nat) {f : Flit} (h : f.opcode ≠ 4) :
    FabAnswered (s.refuseWrite c 0) (s.fabRefuse ep c f) ep f.e2e 1 := by
  unfold State.fabRefuse
  dsimp only
  rw [if_neg h]
  exact State.fabAnswer_answered ..

theorem State.refuseWrite_fab (s : State) (c stamp : Nat) : (s.refuseWrite c stamp).fab = s.fab := rfl

theorem write_refused (h : s.NextPacket fl) (hdest : epExists fl.destEp = true) (hregion : s.inRegion fl.destEp (s.adit fl.path).region = true)
    (hcore : epCore fl.destEp = some c) (hmeet : s.fabMeeting fl.path c { fl with opcode := 1 } = .refused) :
    Gives (.write fl) s fun t =>
      t.mem = s.mem ∧ s.AnswersNext t fl 1 ∧ t.rd (coreWinRefused c) = s.rd (coreWinRefused c) + 1 ∧ t.fab.hold = s.fab.hold := by
  have hexec := exec_write_core h hdest hregion hcore
  rw [hmeet] at hexec
  have hanswered := (s.inOrder fl).fabRefuse_answered fl.path c (f := { fl with opcode := 1 }) (show 1 ≠ 4 by decide)
  obtain ⟨hcount, -, -, -, -, hmem⟩ := (s.inOrder fl).refuseWrite_kept c 0
  exact ⟨_, hexec, hanswered.mem.trans hmem, hanswered.answersNext rfl, (hanswered.rd _ (notFlitsTx_coreWinRefused c)).trans hcount, hanswered.hold⟩

theorem write_held (h : s.NextPacket fl) (hdest : epExists fl.destEp = true) (hregion : s.inRegion fl.destEp (s.adit fl.path).region = true)
    (hcore : epCore fl.destEp = some c) (hmeet : s.fabMeeting fl.path c { fl with opcode := 1 } = .unopened) (hroom : s.fab.hold.length < 64) :
    Gives (.write fl) s fun t =>
      t.fab.hold = s.fab.hold ++ [{ flit := { fl with opcode := 1 }, since := s.now, ep := fl.path }] ∧ t.mem = s.mem ∧
      t.adit fl.path = { s.adit fl.path with rxE2e := ((s.adit fl.path).rxE2e + 1) % 4096 } ∧ t.regs = s.regs := by
  have hexec := exec_write_core h hdest hregion hcore
  rw [hmeet] at hexec
  dsimp only at hexec
  rw [if_pos hroom] at hexec
  exact ⟨_, hexec, rfl, rfl, s.inOrder_adit fl, rfl⟩

theorem write_hold_full (h : s.NextPacket fl) (hdest : epExists fl.destEp = true) (hregion : s.inRegion fl.destEp (s.adit fl.path).region = true)
    (hcore : epCore fl.destEp = some c) (hmeet : s.fabMeeting fl.path c { fl with opcode := 1 } = .unopened) (hfull : 64 ≤ s.fab.hold.length) :
    Gives (.write fl) s fun t =>
      t.mem = s.mem ∧ s.AnswersNext t fl 1 ∧ t.rd windowHoldRefuseCount = s.rd windowHoldRefuseCount + 1 ∧
      t.rd (coreWinRefused c) = s.rd (coreWinRefused c) + 1 ∧ t.fab.hold = s.fab.hold := by
  have hexec := exec_write_core h hdest hregion hcore
  rw [hmeet] at hexec
  dsimp only at hexec
  rw [if_neg (by omega)] at hexec
  let u := (s.inOrder fl).inc windowHoldRefuseCount 1
  have hanswered := u.fabRefuse_answered fl.path c (f := { fl with opcode := 1 }) (show 1 ≠ 4 by decide)
  obtain ⟨hcount, hregs, -, -, -, hmem⟩ := u.refuseWrite_kept c 0
  have hne := coreWinRefused_ne_windowHoldRefuseCount c
  have hhold : (u.refuseWrite c 0).rd windowHoldRefuseCount = s.rd windowHoldRefuseCount + 1 := by
    rw [hregs _ (by simpa using hne.symm)]
    exact State.rd_inc_same ..
  have hwin : u.rd (coreWinRefused c) = s.rd (coreWinRefused c) := State.rd_inc_other _ _ hne
  refine ⟨_, hexec, hanswered.mem.trans hmem, hanswered.answersNext rfl, (hanswered.rd _ notFlitsTx_windowHoldRefuseCount).trans hhold, ?_, hanswered.hold⟩
  rw [hanswered.rd _ (notFlitsTx_coreWinRefused c), hcount, hwin]

end

/-! ### Packets behind a held one, and packets out of order (R402) -/

/-- A WRITE or a CTL arrives as a sequenced packet of its opcode. -/
theorem exec_sequenced {fl : Flit} {op : Nat} {i : Instr} (h : (op, i) ∈ [(1, Instr.write fl), (3, Instr.ctl fl)]) (s : State) :
    exec i s = .next ((s.takeFlit fl).fabArrive { fl with opcode := op }) := by
  simp only [List.mem_cons, Prod.mk.injEq, List.not_mem_nil, or_false] at h
  obtain ⟨rfl, rfl⟩ | ⟨rfl, rfl⟩ := h
  · rfl
  · rfl

theorem State.fabArrive_waits {s : State} {fl : Flit} (hlocal : (s.adit fl.path).isLocal = true)
    (hbehind : ((s.adit fl.path).rxE2e + 4096 - fl.e2e) % 4096 = 0) (hwaits : s.holds fl.path = true ∨ (s.adit fl.path).waiting ≠ []) (op : Nat) :
    (s.takeFlit fl).fabArrive { fl with opcode := op } =
      (s.inOrder fl).updAdit fl.path fun a => { a with waiting := a.waiting ++ [{ fl with opcode := op }] } := by
  have hbusy : (s.holds fl.path || !(s.adit fl.path).waiting.isEmpty) = true := by
    obtain h | h := hwaits
    · rw [h, Bool.true_or]
    · rw [List.isEmpty_eq_false_iff.2 h, Bool.not_false, Bool.or_true]
  rw [State.fabArrive_eq, hlocal, if_neg (by decide), if_pos hbehind, if_pos hbusy]

theorem sequenced_waits {s : State} {fl : Flit} {op : Nat} {i : Instr} (hi : (op, i) ∈ [(1, Instr.write fl), (3, Instr.ctl fl)])
    (hlocal : (s.adit fl.path).isLocal = true) (hbehind : ((s.adit fl.path).rxE2e + 4096 - fl.e2e) % 4096 = 0)
    (hwaits : s.holds fl.path = true ∨ (s.adit fl.path).waiting ≠ []) :
    Gives i s fun t =>
      t.adit fl.path = { s.adit fl.path with rxE2e := ((s.adit fl.path).rxE2e + 1) % 4096,
                                             waiting := (s.adit fl.path).waiting ++ [{ fl with opcode := op }] } ∧
      (∀ e, e ≠ fl.path → t.adit e = s.adit e) ∧ t.mem = s.mem ∧ t.regs = s.regs ∧ t.cores = s.cores ∧ t.noc = s.noc := by
  refine ⟨_, (exec_sequenced hi s).trans (congrArg Host.Outcome.next (State.fabArrive_waits hlocal hbehind hwaits op)), ?_, fun e he => ?_,
    rfl, rfl, rfl, rfl⟩
  · rw [State.adit_updAdit_same, State.inOrder_adit]
  · rw [State.adit_updAdit_other _ _ he, State.inOrder_others s fl he]

/-- No PELIG page is a stope's. -/
theorem peligPage_not_shell (p : Nat) (h : p < 32) : ∀ i, pageAt (peligPage p) ≠ some (.shell, i) := by
  have hall : ∀ p < 32, ((pageAt (peligPage p)).any fun x => x.1 == .shell) = false := by decide
  intro i hi
  have := hall p h
  rw [hi] at this
  cases this

/-- A register written leaves what a port is ready for. -/
theorem State.portReady_with_regs (s : State) (r : Table Word) {p : Nat} (h : p < 32) (f : Flit) :
    ({ s with regs := r } : State).portReady p f = s.portReady p f := by
  have hfence : ({ s with regs := r } : State).fenced (peligPage p) 3 = s.fenced (peligPage p) 3 := by
    unfold State.fenced
    split
    · rename_i hpage
      exact absurd hpage (peligPage_not_shell p h _)
    · rfl
  unfold State.portReady
  rw [hfence]
  rfl

theorem sequenced_repeated {s : State} {fl : Flit} {op : Nat} {i : Instr} (hi : (op, i) ∈ [(1, Instr.write fl), (3, Instr.ctl fl)])
    (hlocal : (s.adit fl.path).isLocal = true) (hne : ((s.adit fl.path).rxE2e + 4096 - fl.e2e) % 4096 ≠ 0)
    (hle : ((s.adit fl.path).rxE2e + 4096 - fl.e2e) % 4096 ≤ 2048) :
    Gives i s fun t =>
      t.rd aditDupDiscardCount = s.rd aditDupDiscardCount + 1 ∧ t.mem = s.mem ∧ t.fab.adits = s.fab.adits ∧ t.cores = s.cores ∧
      (∀ q ∈ (s.adit fl.path).answered.find? fun x => x.1 == fl.e2e,
        FlitOut s t (rtPort (s.adit fl.path).active)
          { mkFlit 2 0 epHeadframe epHeadframe 0 (leBytes 2 (q.1 + 0x1000 * q.2)) with path := rtPath (s.adit fl.path).active }) ∧
      ((s.adit fl.path).answered.find? (fun x => x.1 == fl.e2e) = none → t.fab.ports = s.fab.ports) := by
  let u := (s.takeFlit fl).inc aditDupDiscardCount 1
  have harrive : (s.takeFlit fl).fabArrive { fl with opcode := op } = match (s.adit fl.path).answered.find? fun x => x.1 == fl.e2e with
      | some p => u.aditSend fl.path (answerFlit p)
      | none => u := by
    rw [State.fabArrive_eq, hlocal, if_neg (by decide), if_neg hne, if_pos hle]
  have hcount : u.rd aditDupDiscardCount = s.rd aditDupDiscardCount + 1 := State.rd_inc_same ..
  rw [Gives, exec_sequenced hi s, harrive]
  cases hfind : (s.adit fl.path).answered.find? fun x => x.1 == fl.e2e with
  | none => exact ⟨u, rfl, hcount, rfl, rfl, rfl, nofun, fun _ => rfl⟩
  | some p =>
    have hsent := u.aditSend_portsOnly fl.path (answerFlit p)
    refine ⟨_, rfl, (hsent.rd _ notFlitsTx_aditDupDiscardCount).trans hcount, hsent.mem, hsent.adits, hsent.cores, fun q hq => ?_, nofun⟩
    obtain rfl := Option.some.inj hq
    have hport : rtPort (s.adit fl.path).active < 32 := fld_lt ..
    exact (u.portSend_flitOut (rtPort (s.adit fl.path).active) { answerFlit p with path := rtPath (s.adit fl.path).active }).of_ports
      (fun _ => rfl) ((s.takeFlit fl).portReady_with_regs _ hport _)

theorem sequenced_discarded {s : State} {fl : Flit} {op : Nat} {i : Instr} (hi : (op, i) ∈ [(1, Instr.write fl), (3, Instr.ctl fl)])
    (h : (s.adit fl.path).isLocal = false ∨ 2048 < ((s.adit fl.path).rxE2e + 4096 - fl.e2e) % 4096) : exec i s = .next (s.takeFlit fl) := by
  rw [exec_sequenced hi s, State.fabArrive_eq]
  obtain h | h := h
  · rw [h]
    rfl
  · rw [if_neg (show ¬((s.adit fl.path).rxE2e + 4096 - fl.e2e) % 4096 = 0 by omega),
      if_neg (show ¬((s.adit fl.path).rxE2e + 4096 - fl.e2e) % 4096 ≤ 2048 by omega), ite_self]

/-! ### CTL packets (R385) -/

theorem State.fabProcess_ctl (s : State) (ep : Nat) {f : Flit} (h : f.opcode = 3) :
    s.fabProcess ep f =
      if (ctlOf f (epPort (rtPort (s.adit ep).active))).region ≠ (s.adit ep).region then s.fabAnswer ep f.e2e 2
      else (s.send (ctlOf f (epPort (rtPort (s.adit ep).active)))).fabAnswer ep f.e2e 0 := by
  unfold State.fabProcess
  dsimp only
  rw [if_pos h]

/-- A CTL packet that is next carries its message by the adit's active route. -/
theorem exec_ctl_next {s : State} {fl : Flit} (h : s.NextPacket fl) :
    exec (.ctl fl) s = .next (
      if (ctlOf fl (epPort (rtPort (s.adit fl.path).active))).region ≠ (s.adit fl.path).region then (s.inOrder fl).fabAnswer fl.path fl.e2e 2
      else ((s.inOrder fl).send (ctlOf fl (epPort (rtPort (s.adit fl.path).active)))).fabAnswer fl.path fl.e2e 0) := by
  refine (congrArg Host.Outcome.next (State.fabArrive_next h 3)).trans (congrArg Host.Outcome.next ?_)
  rw [State.fabProcess_ctl _ _ rfl, State.inOrder_adit]
  rfl

theorem ctl_injected {s : State} {fl : Flit} (h : s.NextPacket fl)
    (hregion : (ctlOf fl (epPort (rtPort (s.adit fl.path).active))).region = (s.adit fl.path).region) :
    Gives (.ctl fl) s fun t => t.noc.ctl = s.noc.ctl ++ [ctlOf fl (epPort (rtPort (s.adit fl.path).active))] ∧
      (fl.e2e, 0) ∈ (t.adit fl.path).answered ∧ t.mem = s.mem := by
  have hexec := exec_ctl_next h
  rw [if_neg (not_not.2 hregion)] at hexec
  have hanswered := ((s.inOrder fl).send (ctlOf fl (epPort (rtPort (s.adit fl.path).active)))).fabAnswer_answered fl.path fl.e2e 0
  exact ⟨_, hexec, congrArg Noc.ctl hanswered.noc, hanswered.answer, hanswered.mem⟩

theorem ctl_refused {s : State} {fl : Flit} (h : s.NextPacket fl)
    (hregion : (ctlOf fl (epPort (rtPort (s.adit fl.path).active))).region ≠ (s.adit fl.path).region) :
    Gives (.ctl fl) s fun t => t.noc.ctl = s.noc.ctl ∧ (fl.e2e, 2) ∈ (t.adit fl.path).answered ∧ t.mem = s.mem := by
  have hexec := exec_ctl_next h
  rw [if_pos hregion] at hexec
  have hanswered := (s.inOrder fl).fabAnswer_answered fl.path fl.e2e 2
  exact ⟨_, hexec, congrArg Noc.ctl hanswered.noc, hanswered.answer, hanswered.mem⟩

/-! ### The arrival hold (R406) -/

/-- What a chunk's refusal sends leaves all but the ports. -/
theorem State.chunkRefused_portsOnly (s : State) (ep : Nat) (h : ChunkHead) : PortsOnly s (s.chunkRefused ep h) := by
  unfold State.chunkRefused
  split
  · split
    · exact s.aditSend_portsOnly ..
    · exact .refl s
  · exact .refl s

/-- Every adit's waiting packets are as they were. -/
structure WaitingKept (s t : State) : Prop where
  kept : ∀ e, (t.adit e).waiting = (s.adit e).waiting

theorem WaitingKept.of_adits {s t : State} (h : t.fab.adits = s.fab.adits) : WaitingKept s t :=
  ⟨fun e => congrArg (fun a => (Table.get Adit.reset a e).waiting) h⟩

theorem WaitingKept.trans {s t u : State} (h : WaitingKept s t) (h' : WaitingKept t u) : WaitingKept s u :=
  ⟨fun e => (h'.kept e).trans (h.kept e)⟩

theorem State.chunkWritten_waiting (s : State) (ep : Nat) (h : ChunkHead) : WaitingKept s (s.chunkWritten ep h) := by
  unfold State.chunkWritten
  split
  · exact .of_adits rfl
  · rename_i c _
    dsimp only
    split
    · split
      · exact .of_adits ((s.updColl c.id _).aditSend_portsOnly ..).adits
      · exact .of_adits rfl
    · exact .of_adits rfl

theorem State.fabAnswer_waiting (s : State) (ep e2e status : Nat) : WaitingKept s (s.fabAnswer ep e2e status) :=
  ⟨(s.fabAnswer_answered ep e2e status).waiting⟩

theorem State.fabRefuse_waiting (s : State) (ep c : Nat) (f : Flit) : WaitingKept s (s.fabRefuse ep c f) := by
  have hrefused : WaitingKept s (s.refuseWrite c 0) := .of_adits rfl
  unfold State.fabRefuse
  dsimp only
  split
  · exact hrefused.trans (.of_adits (State.chunkRefused_portsOnly ..).adits)
  · exact hrefused.trans (State.fabAnswer_waiting ..)

theorem State.fabTake_waiting (s : State) (ep c : Nat) (w : Window) (f : Flit) : WaitingKept s (s.fabTake ep c w f) := by
  obtain ⟨-, -, -, hframe⟩ := s.landWrite_spec c w (s.unitFlat c f.addr) (flitData f)
  have hlanded : WaitingKept s (s.landWrite c w (s.unitFlat c f.addr) (flitData f)) :=
    .of_adits (congrArg (fun x : State => x.fab.adits) hframe :)
  unfold State.fabTake
  dsimp only
  split
  · exact hlanded.trans (State.chunkWritten_waiting ..)
  · exact hlanded.trans (State.fabAnswer_waiting ..)

theorem State.fabWrite_waiting (s : State) (ep c : Nat) (f : Flit) : WaitingKept s (s.fabWrite ep c f) := by
  unfold State.fabWrite
  split
  · exact s.fabTake_waiting ..
  · exact s.fabRefuse_waiting ..
  · split
    · exact .of_adits rfl
    · exact WaitingKept.trans (t := s.inc windowHoldRefuseCount 1) (.of_adits rfl) (State.fabRefuse_waiting ..)

/-- A packet's processing leaves what waits at the adits. -/
theorem State.fabProcess_waiting (s : State) (ep : Nat) (f : Flit) : WaitingKept s (s.fabProcess ep f) := by
  unfold State.fabProcess
  dsimp only
  split
  · split
    · exact s.fabAnswer_waiting ..
    · exact WaitingKept.trans (t := s.send (ctlOf f (epPort (rtPort (s.adit ep).active)))) (.of_adits rfl) (State.fabAnswer_waiting ..)
  · split
    · exact s.fabAnswer_waiting ..
    · split
      · exact s.fabAnswer_waiting ..
      · split
        · exact s.fabWrite_waiting ..
        · exact s.fabAnswer_waiting ..

/-- One packet that waits goes on. -/
def State.nextWaiting (s : State) (ep : Nat) (f : Flit) (rest : List Flit) : State :=
  (s.updAdit ep fun a => { a with waiting := rest }).fabProcess ep f

theorem State.nextWaiting_waiting (s : State) (ep : Nat) (f : Flit) (rest : List Flit) : ((s.nextWaiting ep f rest).adit ep).waiting = rest := by
  rw [State.nextWaiting, (State.fabProcess_waiting ..).kept, State.adit_updAdit_same]

theorem State.drainWaiting_le (n : Nat) (s : State) (ep : Nat) : ((s.drainWaiting ep n).adit ep).waiting.length ≤ (s.adit ep).waiting.length := by
  induction n generalizing s with
  | zero => exact le_rfl
  | succ n ih =>
    unfold State.drainWaiting
    split
    · rename_i f rest hwaiting
      split
      · exact le_rfl
      · have hrest := ih (s.nextWaiting ep f rest)
        rw [State.nextWaiting_waiting] at hrest
        rw [hwaiting, List.length_cons]
        exact hrest.trans (Nat.le_succ _)
    · exact le_rfl

/-- With nothing held, what waits goes on. -/
theorem State.drainWaiting_lt {s : State} {ep : Nat} (hholds : s.holds ep = false) (hwaits : (s.adit ep).waiting ≠ []) :
    ((s.drainWaiting ep (s.adit ep).waiting.length).adit ep).waiting.length < (s.adit ep).waiting.length := by
  obtain ⟨f, rest, hwaiting⟩ := List.exists_cons_of_ne_nil hwaits
  rw [hwaiting, List.length_cons, State.drainWaiting, hwaiting]
  dsimp only
  rw [hholds, if_neg Bool.false_ne_true]
  have hrest := State.drainWaiting_le rest.length (s.nextWaiting ep f rest) ep
  rw [State.nextWaiting_waiting] at hrest
  exact Nat.lt_succ_of_le hrest

/-- The machine with a held packet past MC_HOLD off the hold and refused, before what waited behind it goes on. -/
def State.expireHeld (s : State) (h : Held) (c : Nat) : State :=
  ({ s with fab := { s.fab with hold := s.fab.hold.erase h } }.inc windowHoldRefuseCount 1).fabRefuse h.ep c h.flit

theorem State.expireHeld_spec (s : State) (h : Held) (c : Nat) :
    let t := s.expireHeld h c
    t.fab.hold = s.fab.hold.erase h ∧ t.rd windowHoldRefuseCount = s.rd windowHoldRefuseCount + 1 ∧
    t.rd (coreWinRefused c) = s.rd (coreWinRefused c) + 1 ∧ (h.flit.opcode ≠ 4 → (h.flit.e2e, 1) ∈ (t.adit h.ep).answered) ∧ t.mem = s.mem ∧
    WaitingKept s t := by
  intro t
  let u := ({ s with fab := { s.fab with hold := s.fab.hold.erase h } } : State).inc windowHoldRefuseCount 1
  obtain ⟨hcount, hregs, -, -, -, hmem⟩ := u.refuseWrite_kept c 0
  have hne := coreWinRefused_ne_windowHoldRefuseCount c
  have hhold : (u.refuseWrite c 0).rd windowHoldRefuseCount = s.rd windowHoldRefuseCount + 1 := by
    rw [hregs _ (by simpa using hne.symm)]
    exact State.rd_inc_same ..
  have hwin : (u.refuseWrite c 0).rd (coreWinRefused c) = s.rd (coreWinRefused c) + 1 := by
    rw [hcount, show u.rd (coreWinRefused c) = s.rd (coreWinRefused c) from State.rd_inc_other _ _ hne]
  have hwaiting : WaitingKept s t := WaitingKept.trans (t := u) (.of_adits rfl) (u.fabRefuse_waiting ..)
  by_cases hchunk : h.flit.opcode = 4
  · have ht : t = (u.refuseWrite c 0).chunkRefused h.ep (chunkHeadOf h.flit.payload) := if_pos hchunk
    have hsent := (u.refuseWrite c 0).chunkRefused_portsOnly h.ep (chunkHeadOf h.flit.payload)
    rw [ht] at hwaiting ⊢
    exact ⟨hsent.hold, (hsent.rd _ notFlitsTx_windowHoldRefuseCount).trans hhold, (hsent.rd _ (notFlitsTx_coreWinRefused c)).trans hwin, fun h => absurd hchunk h,
      hsent.mem, hwaiting⟩
  · have hanswered := u.fabRefuse_answered h.ep c hchunk
    exact ⟨hanswered.hold, (hanswered.rd _ notFlitsTx_windowHoldRefuseCount).trans hhold, (hanswered.rd _ (notFlitsTx_coreWinRefused c)).trans hwin,
      fun _ => hanswered.answer, hanswered.mem, hwaiting⟩

section
variable {s : State} {i c : Nat} {h : Held}

theorem exec_mcHoldExpiry (hi : s.fab.hold[i]? = some h) (hdue : h.since + fld (s.rd windowMcHold) 13 0 * 1000 ≤ s.now)
    (hcore : epCore h.flit.destEp = some c) :
    exec (.mcHoldExpiry i) s = .next (if (s.expireHeld h c).holds h.ep then s.expireHeld h c
      else (s.expireHeld h c).drainWaiting h.ep ((s.expireHeld h c).adit h.ep).waiting.length) := by
  show execMcHoldExpiry i s = _
  unfold execMcHoldExpiry
  rw [hi]
  dsimp only
  rw [if_pos hdue, hcore]
  rfl

theorem mcHoldExpiry_refuses (hi : s.fab.hold[i]? = some h) (hdue : h.since + fld (s.rd windowMcHold) 13 0 * 1000 ≤ s.now)
    (hcore : epCore h.flit.destEp = some c) (hnone : (s.adit h.ep).waiting = []) :
    Gives (.mcHoldExpiry i) s fun t =>
      t.fab.hold = s.fab.hold.erase h ∧ t.rd windowHoldRefuseCount = s.rd windowHoldRefuseCount + 1 ∧
      t.rd (coreWinRefused c) = s.rd (coreWinRefused c) + 1 ∧ (h.flit.opcode ≠ 4 → (h.flit.e2e, 1) ∈ (t.adit h.ep).answered) ∧ t.mem = s.mem := by
  obtain ⟨hhold, hcount, hwin, hanswer, hmem, hwaiting⟩ := s.expireHeld_spec h c
  have hexec := exec_mcHoldExpiry hi hdue hcore
  rw [hwaiting.kept, hnone, List.length_nil, State.drainWaiting, ite_self] at hexec
  exact ⟨_, hexec, hhold, hcount, hwin, hanswer, hmem⟩

theorem mcHoldExpiry_drains (hi : s.fab.hold[i]? = some h) (hdue : h.since + fld (s.rd windowMcHold) 13 0 * 1000 ≤ s.now)
    (hcore : epCore h.flit.destEp = some c) (hwaits : (s.adit h.ep).waiting ≠ [])
    (hothers : ∀ x ∈ s.fab.hold.erase h, x.ep = h.ep → x.flit.opcode = 4) :
    Gives (.mcHoldExpiry i) s fun t => (t.adit h.ep).waiting.length < (s.adit h.ep).waiting.length := by
  obtain ⟨hhold, -, -, -, -, hwaiting⟩ := s.expireHeld_spec h c
  have hfree : (s.expireHeld h c).holds h.ep = false := by
    unfold State.holds
    rw [hhold, List.any_eq_false]
    intro x hx
    by_cases hep : x.ep = h.ep
    · simp [hothers x hx hep]
    · simp [hep]
  have hexec := exec_mcHoldExpiry hi hdue hcore
  rw [hfree, if_neg Bool.false_ne_true] at hexec
  have hlt := State.drainWaiting_lt hfree (by rw [hwaiting.kept]; exact hwaits)
  rw [hwaiting.kept] at hlt hexec
  exact ⟨_, hexec, hlt⟩

end

theorem mcHoldExpiry_none {s : State} {i : Nat} (hi : s.fab.hold[i]? = none) : exec (.mcHoldExpiry i) s = .next s := by
  show execMcHoldExpiry i s = _
  unfold execMcHoldExpiry
  rw [hi]

theorem mcHoldExpiry_early {s : State} {i : Nat} {h : Held} (hi : s.fab.hold[i]? = some h)
    (hearly : s.now < h.since + fld (s.rd windowMcHold) 13 0 * 1000) : exec (.mcHoldExpiry i) s = .next s := by
  show execMcHoldExpiry i s = _
  unfold execMcHoldExpiry
  rw [hi]
  dsimp only
  rw [if_neg (by omega)]

/-! ### WRITE_ACK (R402, R403) -/

/-- An adit once a record has freed the packet that it names. -/
def Adit.acked (a : Adit) (r : Nat) : Adit := match a.unacked.find? fun f => f.e2e == r % 0x1000 with
  | some f => { a with unacked := a.unacked.erase f }
  | none => a

theorem Adit.acked_held (a : Adit) (r : Nat) : (a.acked r).held = a.held := by
  unfold Adit.acked
  split
  · rfl
  · rfl

theorem Adit.acked_sublist (a : Adit) (r : Nat) : (a.acked r).unacked.Sublist a.unacked := by
  unfold Adit.acked
  split
  · exact List.erase_sublist
  · exact List.Sublist.refl _

/-- A packet that a record does not name stays. -/
theorem Adit.mem_acked {a : Adit} {r : Nat} {g : Flit} (hg : g ∈ a.unacked) (hr : r % 0x1000 ≠ g.e2e) : g ∈ (a.acked r).unacked := by
  unfold Adit.acked
  split
  · rename_i f hf
    have hfe : f.e2e = r % 0x1000 := by simpa using List.find?_some hf
    exact (List.mem_erase_of_ne fun e => hr (by rw [e, hfe])).2 hg
  · exact hg

/-- With their numbers distinct, no packet that a record names stays. -/
theorem Adit.acked_gone {a : Adit} {r : Nat} {g : Flit} (hdistinct : a.unacked.Pairwise fun g h => g.e2e ≠ h.e2e) (hg : g ∈ (a.acked r).unacked) :
    r % 0x1000 ≠ g.e2e := by
  intro hr
  have hmem := (a.acked_sublist r).subset hg
  unfold Adit.acked at hg
  split at hg
  · rename_i f hf
    have hfe : f.e2e = g.e2e := (by simpa using List.find?_some hf : f.e2e = r % 0x1000).trans hr
    have hnodup : a.unacked.Nodup := hdistinct.imp fun h e => h (congrArg Flit.e2e e)
    obtain ⟨hne, -⟩ := hnodup.mem_erase_iff.1 hg
    have hsymm : Std.Symm fun g h : Flit => g.e2e ≠ h.e2e := ⟨fun _ _ h => h.symm⟩
    exact (List.Pairwise.forall hdistinct hmem (List.mem_of_find?_eq_some hf) hne) hfe.symm
  · rename_i hnone
    exact (List.find?_eq_none.1 hnone) g hmem (by simp [hr])

/-- An adit once each record of a list has freed its packet. -/
def Adit.ackedAll (a : Adit) (rs : List Nat) : Adit := rs.foldl Adit.acked a

theorem Adit.ackedAll_held (rs : List Nat) (a : Adit) : (a.ackedAll rs).held = a.held := by
  induction rs generalizing a with
  | nil => rfl
  | cons r rs ih => exact (ih (a.acked r)).trans (a.acked_held r)

theorem Adit.ackedAll_sublist (rs : List Nat) (a : Adit) : (a.ackedAll rs).unacked.Sublist a.unacked := by
  induction rs generalizing a with
  | nil => exact List.Sublist.refl _
  | cons r rs ih => exact (ih (a.acked r)).trans (a.acked_sublist r)

theorem Adit.mem_ackedAll {rs : List Nat} {a : Adit} {g : Flit} (hg : g ∈ a.unacked) (hr : ∀ r ∈ rs, r % 0x1000 ≠ g.e2e) :
    g ∈ (a.ackedAll rs).unacked := by
  induction rs generalizing a with
  | nil => exact hg
  | cons r rs ih => exact ih (Adit.mem_acked hg (hr r List.mem_cons_self)) fun r hmem => hr r (List.mem_cons_of_mem _ hmem)

theorem Adit.ackedAll_gone {rs : List Nat} {a : Adit} {g : Flit} (hdistinct : a.unacked.Pairwise fun g h => g.e2e ≠ h.e2e)
    (hg : g ∈ (a.ackedAll rs).unacked) : ∀ r ∈ rs, r % 0x1000 ≠ g.e2e := by
  induction rs generalizing a with
  | nil => nofun
  | cons r rs ih =>
    intro r' hr'
    obtain rfl | hr' := List.mem_cons.1 hr'
    · exact Adit.acked_gone hdistinct (((a.acked r').ackedAll_sublist rs).subset hg)
    · exact ih (hdistinct.sublist (a.acked_sublist r)) hg r' hr'

/-- One adit became another, and beside it only the cores moved. -/
structure AditAcked (s t : State) (ep : Nat) (a : Adit) : Prop where
  adit : t.adit ep = a
  others : ∀ e, e ≠ ep → t.adit e = s.adit e
  mem : t.mem = s.mem
  regs : t.regs = s.regs

theorem State.fabSettle_coreless (s : State) (path src code : Nat) : (s.fabSettle path src code).coreless = s.coreless := by
  unfold State.fabSettle
  split
  · rfl
  · rfl

theorem State.ackRecord_acked (s : State) (ep r : Nat) : AditAcked s (s.ackRecord ep r) ep ((s.adit ep).acked r) := by
  unfold State.ackRecord Adit.acked
  dsimp only
  cases hfind : (s.adit ep).unacked.find? fun f => f.e2e == r % 0x1000 with
  | none => exact ⟨rfl, fun _ _ => rfl, rfl, rfl⟩
  | some f =>
    have hsettled := (s.setAdit ep { s.adit ep with unacked := (s.adit ep).unacked.erase f }).fabSettle_coreless ep f.srcEp (ackCode (r / 0x1000))
    have hadit (e : Nat) := (congrArg (fun x : State => x.adit e) hsettled :)
    exact ⟨(hadit ep).trans (State.adit_setAdit_same ..), fun e he => (hadit e).trans (State.adit_setAdit_other _ _ he),
      (congrArg State.mem hsettled :), (congrArg State.regs hsettled :)⟩

theorem State.each_ackRecord (rs : List Nat) (s : State) (ep : Nat) :
    AditAcked s (s.each rs fun s r => s.ackRecord ep r) ep ((s.adit ep).ackedAll rs) := by
  induction rs generalizing s with
  | nil => exact ⟨rfl, fun _ _ => rfl, rfl, rfl⟩
  | cons r rs ih =>
    have hfirst := s.ackRecord_acked ep r
    have hrest := ih (s.ackRecord ep r)
    refine ⟨hrest.adit.trans ?_, fun e he => (hrest.others e he).trans (hfirst.others e he), hrest.mem.trans hfirst.mem, hrest.regs.trans hfirst.regs⟩
    rw [hfirst.adit]
    rfl

/-- Sequenced packets that go leave the other adits and memory, and no packet is freed by it. -/
theorem State.aditPump_kept (n : Nat) (s : State) (ep : Nat) :
    (∀ g ∈ (s.adit ep).unacked, g ∈ ((s.aditPump ep n).adit ep).unacked) ∧ (∀ e, e ≠ ep → (s.aditPump ep n).adit e = s.adit e) ∧
    (s.aditPump ep n).mem = s.mem := by
  induction n generalizing s with
  | zero => exact ⟨fun _ h => h, fun _ _ => rfl, rfl⟩
  | succ n ih =>
    unfold State.aditPump
    dsimp only
    split
    · rename_i f rest _
      split
      · let x : Adit := { s.adit ep with held := rest, txE2e := ((s.adit ep).txE2e + 1) % 4096,
                                         unacked := (s.adit ep).unacked ++ [{ f with e2e := (s.adit ep).txE2e }] }
        have hsent := (s.setAdit ep x).aditSend_portsOnly ep { f with e2e := (s.adit ep).txE2e }
        obtain ⟨hunacked, hothers, hmem⟩ := ih ((s.setAdit ep x).aditSend ep { f with e2e := (s.adit ep).txE2e })
        refine ⟨fun g hg => hunacked g ?_, fun e he => ?_, hmem.trans hsent.mem⟩
        · rw [hsent.adit, State.adit_setAdit_same]
          exact List.mem_append_left _ hg
        · rw [hothers e he, hsent.adit, State.adit_setAdit_other _ _ he]
      · exact ⟨fun _ h => h, fun _ _ => rfl, rfl⟩
    · exact ⟨fun _ h => h, fun _ _ => rfl, rfl⟩

/-- The records of a WRITE_ACK. -/
def ackRecords (fl : Flit) : List Nat := (chunks 2 (fl.payload.take 240)).map ofLe

/-- The machine once a WRITE_ACK's records have freed their packets, before others go. -/
def State.acked (s : State) (fl : Flit) : State := (s.takeFlit fl).each (ackRecords fl) fun s r => s.ackRecord fl.path r

theorem State.acked_acked (s : State) (fl : Flit) : AditAcked s (s.acked fl) fl.path ((s.adit fl.path).ackedAll (ackRecords fl)) := by
  obtain ⟨hadit, hothers, hmem, hregs⟩ := (s.takeFlit fl).each_ackRecord (ackRecords fl) fl.path
  exact ⟨hadit, hothers, hmem, hregs⟩

theorem exec_writeAck {s : State} {fl : Flit} (hlocal : (s.adit fl.path).isLocal = true) :
    exec (.writeAck fl) s = .next ((s.acked fl).aditPump fl.path (s.adit fl.path).held.length) := by
  have hacked := (s.acked_acked fl).adit
  have hheld : ((s.acked fl).adit fl.path).held = (s.adit fl.path).held := by rw [hacked, Adit.ackedAll_held]
  rw [← hheld]
  exact congrArg Host.Outcome.next (if_neg (by rw [show (s.takeFlit fl).adit fl.path = s.adit fl.path from rfl, hlocal]; decide))

theorem writeAck_local {s : State} {fl : Flit} (hlocal : (s.adit fl.path).isLocal = true) :
    Gives (.writeAck fl) s fun t =>
      (∀ g ∈ (s.adit fl.path).unacked, (∀ r ∈ ackRecords fl, r % 0x1000 ≠ g.e2e) → g ∈ (t.adit fl.path).unacked) ∧
      ((s.adit fl.path).held = [] → (s.adit fl.path).unacked.Pairwise (fun g h => g.e2e ≠ h.e2e) →
        ∀ g ∈ (t.adit fl.path).unacked, ∀ r ∈ ackRecords fl, r % 0x1000 ≠ g.e2e) ∧
      (∀ e, e ≠ fl.path → t.adit e = s.adit e) ∧ t.mem = s.mem := by
  have hacked := s.acked_acked fl
  obtain ⟨hunacked, hothers, hmem⟩ := State.aditPump_kept (s.adit fl.path).held.length (s.acked fl) fl.path
  refine ⟨_, exec_writeAck hlocal, fun g hg hr => hunacked g ?_, fun hheld hdistinct g hg => ?_,
    fun e he => (hothers e he).trans (hacked.others e he), hmem.trans hacked.mem⟩
  · rw [hacked.adit]
    exact Adit.mem_ackedAll hg hr
  · rw [hheld, List.length_nil, State.aditPump, hacked.adit] at hg
    exact Adit.ackedAll_gone hdistinct hg

/-- A WRITE_ACK of one record. -/
theorem ackRecords_one {fl : Flit} {v : Nat} (hv : v < 0x10000) (h : fl.payload = leBytes 2 v) : ackRecords fl = [v] := by
  have hne : leBytes 2 v ≠ [] := by simp [leBytes]
  have hlen : (leBytes 2 v).length = 2 := leBytes_length ..
  rw [ackRecords, h, List.take_of_length_le (by omega), chunks_eq_cons (by decide) hne, List.take_of_length_le hlen.le,
    List.drop_of_length_le hlen.le, chunks_nil, List.map_singleton, ofLe_leBytes, Nat.mod_eq_of_lt (by omega)]

theorem writeAck_one {s : State} {fl g : Flit} {n code : Nat} (hlocal : (s.adit fl.path).isLocal = true) (hheld : (s.adit fl.path).held = [])
    (hn : n < 4096) (hcode : code < 16) (hpayload : fl.payload = leBytes 2 (n + 0x1000 * code))
    (hfind : (s.adit fl.path).unacked.find? (fun f => f.e2e == n) = some g) :
    Gives (.writeAck fl) s fun t =>
      t.adit fl.path = { s.adit fl.path with unacked := (s.adit fl.path).unacked.erase g } ∧ (∀ e, e ≠ fl.path → t.adit e = s.adit e) ∧
      t.mem = s.mem ∧ t.regs = s.regs := by
  have hacked := s.acked_acked fl
  have hexec := exec_writeAck hlocal
  rw [hheld, List.length_nil, State.aditPump] at hexec
  refine ⟨_, hexec, hacked.adit.trans ?_, hacked.others, hacked.mem, hacked.regs⟩
  rw [ackRecords_one (by omega) hpayload, Adit.ackedAll, List.foldl_cons, List.foldl_nil, Adit.acked,
    show (n + 0x1000 * code) % 0x1000 = n by omega, hfind]

theorem writeAck_remote {s : State} {fl : Flit} (h : (s.adit fl.path).isLocal = false) : exec (.writeAck fl) s = .next (s.takeFlit fl) :=
  congrArg Host.Outcome.next (if_pos (by rw [show (s.takeFlit fl).adit fl.path = s.adit fl.path from rfl, h]; rfl))

/-! ### Storage and ingress messages (R379) -/

theorem store_passes {s : State} {p : Nat} {fl : Flit} (h : portRole p = 1) :
    Gives (.store p fl) s fun t =>
      t.fab.stored = s.fab.stored ++ [(p, fl)] ∧ { t with fab := { t.fab with stored := s.fab.stored, inbox := s.fab.inbox } } = s :=
  ⟨_, congrArg Host.Outcome.next (if_pos h), rfl, rfl⟩

/-- A message that a port does not pass is counted. -/
theorem State.takeFlit_discarded (s : State) (p : Nat) (fl : Flit) :
    ((s.takeFlit fl).inc (peligDiscardCount p) 1).rd (peligDiscardCount p) = s.rd (peligDiscardCount p) + 1 ∧
    RegsKept s ((s.takeFlit fl).inc (peligDiscardCount p) 1) [peligDiscardCount p] :=
  ⟨State.rd_inc_same .., fun _ ho => State.rd_inc_other _ _ (by simpa using ho)⟩

theorem store_discarded {s : State} {p : Nat} {fl : Flit} (h : portRole p ≠ 1) :
    Gives (.store p fl) s fun t =>
      t.rd (peligDiscardCount p) = s.rd (peligDiscardCount p) + 1 ∧ t.fab.stored = s.fab.stored ∧ RegsKept s t [peligDiscardCount p] := by
  obtain ⟨hcount, hregs⟩ := s.takeFlit_discarded p fl
  exact ⟨_, congrArg Host.Outcome.next (if_neg h), hcount, rfl, hregs⟩

theorem ingress_writes {s : State} {p : Nat} {fl : Flit} (h : portRole p = 2) (hlong : 16 < fl.payload.length) :
    let a := hostBase + leAt fl.payload 0 8
    let bs := (fl.payload.drop 8).take 64
    Gives (.ingress p fl) s fun t => t.rdMem a bs.length = bs ∧ MemKept s t a bs.length ∧ t.regs = s.regs ∧ t.wnd = s.wnd := by
  intro a bs
  have hexec : exec (.ingress p fl) s = .next ((s.takeFlit fl).wrMem a bs) :=
    congrArg Host.Outcome.next ((if_neg (not_not.2 h)).trans (if_neg (by omega)))
  exact ⟨_, hexec, readBytes_writeBytes_same _ _ rfl, fun x hx => readByte_writeBytes_outside _ _ _ _ (by omega), rfl, rfl⟩

theorem ingress_rings {s : State} {p : Nat} {fl : Flit} (h : portRole p = 2) (hshort : fl.payload.length ≤ 16) :
    exec (.ingress p fl) s = .next ((s.takeFlit fl).doorbell 0 (BitVec.ofNat 32 (leAt fl.payload 0 4))) :=
  congrArg Host.Outcome.next ((if_neg (not_not.2 h)).trans (if_pos hshort))

theorem ingress_discarded {s : State} {p : Nat} {fl : Flit} (h : portRole p ≠ 2) :
    Gives (.ingress p fl) s fun t =>
      t.rd (peligDiscardCount p) = s.rd (peligDiscardCount p) + 1 ∧ t.mem = s.mem ∧ RegsKept s t [peligDiscardCount p] := by
  obtain ⟨hcount, hregs⟩ := s.takeFlit_discarded p fl
  exact ⟨_, congrArg Host.Outcome.next (if_pos h), hcount, rfl, hregs⟩

/-- Settles O50: a sequenced packet is judged by its place in its adit's order, its endpoint and what it meets there, and each judgement has
its answer. -/
theorem fabricWritesMeetWindows : Obligations.FabricWritesMeetWindows := by
  unfold Obligations.FabricWritesMeetWindows
  refine ⟨fun s fl => ⟨write_no_endpoint, write_outside, write_rim, fun c hnext hdest hregion hcore => ?_⟩,
    fun s fl op i hi => ⟨sequenced_waits hi, sequenced_repeated hi, sequenced_discarded hi⟩,
    fun s fl hlocal hbehind hholds hwaiting => ?_,
    fun s i => ⟨fun c h hi hdue hcore => ⟨mcHoldExpiry_refuses hi hdue hcore, mcHoldExpiry_drains hi hdue hcore⟩, mcHoldExpiry_none,
      fun _ => mcHoldExpiry_early⟩,
    fun s fl => ⟨fun _ _ _ => writeAck_one, writeAck_local, writeAck_remote⟩,
    fun s p fl => ⟨store_passes, store_discarded, ingress_writes, ingress_rings, ingress_discarded⟩⟩
  · exact ⟨fun w => write_taken hnext hdest hregion hcore, write_refused hnext hdest hregion hcore, write_held hnext hdest hregion hcore,
      write_hold_full hnext hdest hregion hcore⟩
  · have hnext : s.NextPacket fl := ⟨hlocal, hbehind, hholds, hwaiting⟩
    exact ⟨ctl_injected hnext, ctl_refused hnext⟩

end Sys2Proof.Machine

namespace Sys2Proof.Machine

/-! ## O37: tokens start, are sampled, commit, retry and are reported (R175, R232, R246, R247, R262, R267, R273 to R278, R280, R286, R295 to R297) -/

/-! ### Event records (R260 to R264) -/

theorem Record.length_bytes (r : Record) (phase : Bool) : (r.bytes phase).length = 32 := by
  simp [Record.bytes]

/-- Bytes written are read back, and no other byte changes. -/
theorem State.rdMem_wrMem_same (s : State) (a : Nat) {n : Nat} {bs : List Byte} (h : bs.length = n) :
    (s.wrMem a bs).rdMem a n = bs := readBytes_writeBytes_same s.mem a h

theorem MemKept.wrMem (s : State) (a : Nat) {n : Nat} {bs : List Byte} (h : bs.length = n) : MemKept s (s.wrMem a bs) a n :=
  fun x hx => readByte_writeBytes_outside bs s.mem a x (by omega)

/-- What an event record reads and moves: host memory, the event rings, the records that wait, and the functions whose DMA it takes. -/
def State.posting (s : State) : List Host.Cell × Table EvRing × List (Nat × Record) × Table Fn := (s.mem, s.wnd.evrs, s.wnd.evWait, s.edge.fns)

/-- A state whose rings take records as another's do is blocked as that one is. -/
theorem State.evrBlocked_of_posting {s t : State} (h : t.posting = s.posting) (i : Nat) : t.evrBlocked i = s.evrBlocked i := by
  simp only [State.posting, Prod.mk.injEq] at h
  obtain ⟨-, hevrs, hwait, hfns⟩ := h
  unfold State.evrBlocked State.heldRecords State.evrReady State.dmaOn State.evr State.fn
  rw [hevrs, hwait, hfns]

/-- A record that is posted between two states is posted between any two that agree with them on what posting moves. -/
theorem Posted.of_posting {s t s' t' : State} {i : Nat} {rec : Record} (h : Posted s t i rec) (hs : s'.posting = s.posting)
    (ht : t'.posting = t.posting) : Posted s' t' i rec := by
  simp only [State.posting, Prod.mk.injEq] at hs ht
  obtain ⟨hsmem, hsevrs, hswait, hsfns⟩ := hs
  obtain ⟨htmem, htevrs, htwait, -⟩ := ht
  simpa only [Posted, State.heldRecords, State.evrReady, State.dmaOn, State.evr, State.fn, State.rdMem, MemKept,
    hsmem, hsevrs, hswait, hsfns, htmem, htevrs, htwait] using h

/-- A record that enters a ring is in host memory at the ring's place, and the ring moves on. -/
theorem State.writeRecord_moves (s : State) (i : Nat) (rec : Record) :
    (s.writeRecord i rec).mem = (s.wrMem (hostBase + (s.evr i).base.toNat + (s.evr i).tail % (s.evr i).size * 32) (rec.bytes (s.evr i).phase)).mem ∧
      ((s.writeRecord i rec).evr i).tail = ((s.evr i).tail + 1) % 0x10000 ∧ ((s.writeRecord i rec).evr i).held = (s.evr i).held ∧
      (s.writeRecord i rec).wnd.evWait = s.wnd.evWait ∧ ∀ j, j ≠ i → (s.writeRecord i rec).evr j = s.evr j := by
  have hset (u : State) (x : EvRing) (f v : Nat) (htail : x.tail = ((s.evr i).tail + 1) % 0x10000) (hheld : x.held = (s.evr i).held)
      (hu : u.wnd = s.wnd) :
      (((u.setEvr i x).msi f v).evr i).tail = ((s.evr i).tail + 1) % 0x10000 ∧ (((u.setEvr i x).msi f v).evr i).held = (s.evr i).held ∧
        ((u.setEvr i x).msi f v).wnd.evWait = s.wnd.evWait ∧ ∀ j, j ≠ i → ((u.setEvr i x).msi f v).evr j = s.evr j := by
    have hsame : ((u.setEvr i x).msi f v).evr i = x := State.evr_setEvr_same ..
    have hother (j : Nat) (hj : j ≠ i) : ((u.setEvr i x).msi f v).evr j = s.evr j :=
      (State.evr_setEvr_other _ _ hj).trans (by rw [State.evr, hu, State.evr])
    exact ⟨(congrArg EvRing.tail hsame).trans htail, (congrArg EvRing.held hsame).trans hheld, (congrArg (fun w => w.evWait) hu :), hother⟩
  unfold State.writeRecord
  dsimp only
  split
  · exact ⟨rfl, hset (s.wrMem _ _) _ _ _ rfl rfl rfl⟩
  · exact ⟨rfl, hset (s.wrMem _ _) _ 0 0 rfl rfl rfl⟩

/-- A record goes to its ring, to the ring's hold, or behind those that wait (R264). -/
theorem State.post_posted (s : State) (i : Nat) (rec : Record) : Posted s (s.post i rec) i rec := by
  unfold State.post
  split
  case isTrue hready =>
    obtain ⟨hmem, htail, hheld, hwait, hother⟩ := s.writeRecord_moves i rec
    refine ⟨fun _ => ⟨?_, ?_, htail, hheld, hwait⟩, fun hno => ?_, fun hno => ?_, hother⟩
    · rw [State.rdMem, hmem]
      exact s.rdMem_wrMem_same _ (rec.length_bytes _)
    · intro x hx
      rw [hmem]
      exact MemKept.wrMem s _ (rec.length_bytes _) x hx
    · simp [hready] at hno
    · simp [hready] at hno
  case isFalse hready =>
    split
    case isTrue hroom =>
      refine ⟨fun hyes => absurd hyes hready, fun _ _ _ => ⟨?_, ?_, rfl, rfl⟩, fun _ hfull => ?_, fun j hj => State.evr_setEvr_other _ _ hj⟩
      · rw [State.holdRecord, State.evr_setEvr_same]
      · rw [State.holdRecord, State.evr_setEvr_same]
      · obtain ⟨hlt, hempty⟩ := hroom
        exact absurd hfull (by simp only [hempty, not_or, not_not, ne_eq, and_true]; omega)
    case isFalse hroom =>
      exact ⟨fun hyes => absurd hyes hready, fun _ hlt hempty => absurd ⟨hlt, hempty⟩ hroom, fun _ _ => ⟨rfl, rfl, rfl⟩, fun _ _ => rfl⟩

/-- A stream's event goes to the ring that its configuration names (R263). -/
theorem State.streamEvent_posted (s : State) (stream typ flags code : Nat) (tag data : DWord) :
    Posted s (s.streamEvent stream typ flags code tag data) (s.stream stream).ringEvr
      { typ := typ, flags := flags, code := code, stream := stream, time := s.now, tag := tag, data := data } := s.post_posted ..

theorem State.streamEvent_unposted (s : State) (stream typ flags code : Nat) (tag data : DWord) :
    (s.streamEvent stream typ flags code tag data).unposted = s.unposted := s.post_unposted ..

/-- What an event moves is not a stream, a register, or KV. -/
theorem State.streamEvent_stream (s : State) (stream typ flags code : Nat) (tag data : DWord) (j : Nat) :
    (s.streamEvent stream typ flags code tag data).stream j = s.stream j :=
  field_of_unposted (s.streamEvent_unposted ..) (·.stream j) fun _ => rfl

theorem State.streamEvent_regs (s : State) (stream typ flags code : Nat) (tag data : DWord) :
    (s.streamEvent stream typ flags code tag data).regs = s.regs :=
  field_of_unposted (s.streamEvent_unposted ..) State.regs fun _ => rfl

theorem State.streamEvent_kv (s : State) (stream typ flags code : Nat) (tag data : DWord) :
    (s.streamEvent stream typ flags code tag data).kv = s.kv :=
  field_of_unposted (s.streamEvent_unposted ..) State.kv fun _ => rfl

theorem State.streamEvent_decisions (s : State) (stream typ flags code : Nat) (tag data : DWord) :
    (s.streamEvent stream typ flags code tag data).wnd.decisions = s.wnd.decisions :=
  field_of_unposted (s.streamEvent_unposted ..) (·.wnd.decisions) fun _ => rfl

end Sys2Proof.Machine

namespace Sys2Proof.Machine

/-! ### The start, the release and the miss of a token (R267, R278) -/

theorem StreamOnly.updStream (s : State) (i : Nat) (f : Stream → Stream) : StreamOnly s (s.updStream i f) i :=
  ⟨fun _ hj => s.stream_updStream_other f hj, rfl⟩

theorem StreamOnly.setStream (s : State) (i : Nat) (x : Stream) : StreamOnly s (s.setStream i x) i :=
  ⟨fun _ hj => s.stream_setStream_other x hj, rfl⟩

theorem RegsKept.inc (s : State) (o n : Nat) : RegsKept s (s.inc o n) [o] := fun _ hx => s.rd_inc_other n (by simpa using hx)

/-- A stream whose next token starts. -/
def Stream.takesOff (fl : Flying) (x : Stream) : Stream :=
  { x with flying := some fl, matchWait := false, lastRelease := if fl.deadline.isSome then some fl.released else x.lastRelease }

/-- The machine after a stream's next token started; a demoted one is counted. -/
def State.embarked (s : State) (i : Nat) : State :=
  let t := s.updStream i (Stream.takesOff (s.newFlying i))
  if (s.newFlying i).demoted then t.inc wndDemotedCount 1 else t

theorem exec_tokenEmbed (s : State) (i : Nat) (mapped : Bool) :
    exec (.tokenEmbed ⟨i, mapped⟩) s =
      .next (if s.mayEmbed i && (mapped || !(s.stream i).matchWait) then s.embarked i else s) := rfl

theorem tokenEmbed_starts (s : State) (i : Nat) (mapped : Bool) :
    (let fl := s.newFlying i
     (s.mayEmbed i = true → mapped = true ∨ (s.stream i).matchWait = false →
       Gives (.tokenEmbed ⟨i, mapped⟩) s fun t =>
         t.stream i = { s.stream i with
           flying := some fl, matchWait := false, lastRelease := if fl.deadline.isSome then some fl.released else (s.stream i).lastRelease } ∧
         t.rd wndDemotedCount = s.rd wndDemotedCount + (if fl.demoted then 1 else 0) ∧ RegsKept s t [wndDemotedCount] ∧
         StreamOnly s { t with regs := s.regs } i) ∧
     (s.mayEmbed i = false ∨ (mapped = false ∧ (s.stream i).matchWait = true) → exec (.tokenEmbed ⟨i, mapped⟩) s = .next s)) := by
  refine ⟨fun hmay hmapped => ?_, fun hheld => ?_⟩
  · have hstarts : (s.mayEmbed i && (mapped || !(s.stream i).matchWait)) = true := by
      rcases hmapped with rfl | hmatch
      · simp [hmay]
      · simp [hmay, hmatch]
    have hstream : (s.updStream i (Stream.takesOff (s.newFlying i))).stream i = Stream.takesOff (s.newFlying i) (s.stream i) :=
      State.stream_updStream_same ..
    have honly := StreamOnly.updStream s i (Stream.takesOff (s.newFlying i))
    refine ⟨s.embarked i, (exec_tokenEmbed ..).trans (congrArg Host.Outcome.next (if_pos hstarts)), ?_⟩
    unfold State.embarked
    dsimp only
    cases hdemoted : (s.newFlying i).demoted with
    | true =>
      rw [if_pos rfl, if_pos rfl]
      refine ⟨(State.inc_stream ..).trans hstream, ?_, fun o ho => ?_, honly.1, ?_⟩
      · rw [State.rd_inc_same, State.updStream_rd]
        rfl
      · exact (RegsKept.inc _ _ _ o ho).trans (State.updStream_rd ..)
      · exact (congrArg (fun x : State => { x with regs := s.regs }) honly.2 :)
    | false =>
      rw [if_neg Bool.false_ne_true, if_neg Bool.false_ne_true]
      refine ⟨hstream, ?_, fun o _ => State.updStream_rd .., honly.1, honly.2⟩
      rw [State.updStream_rd]
      simp
  · refine (exec_tokenEmbed ..).trans (congrArg Host.Outcome.next (if_neg ?_))
    rcases hheld with hno | ⟨rfl, hwait⟩
    · simp [hno]
    · simp [hwait]

/-- A stream whose demoted token gains its deadline. -/
def Stream.promoted (fl : Flying) (deadline : Nat) (x : Stream) : Stream :=
  { x with flying := some { fl with demoted := false, deadline := some deadline }, lastRelease := some fl.released }

theorem exec_tokenRelease {s : State} {i : Nat} {fl : Flying} (hfl : (s.stream i).flying = some fl) :
    exec (.tokenRelease i) s =
      .next (if fl.demoted ∧ ((s.stream i).genCount ≠ 0 ∨ fl.prefill ≤ (s.cls (s.stream i).cls).maxPrefill) ∧
          (s.stream i).committed ≤ (s.cls (s.stream i).cls).maxCtx ∧ fl.released ≤ s.now then
        s.updStream i (Stream.promoted fl (s.tokenDeadline i fl.released)) else s) := by
  show execTokenRelease i s = _
  unfold execTokenRelease
  dsimp only
  rw [hfl]
  rfl

theorem tokenRelease_gains (s : State) (i : Nat) (fl : Flying) (hfl : (s.stream i).flying = some fl) :
    (let c := s.cls (s.stream i).cls
     (fl.demoted = true → (s.stream i).genCount ≠ 0 ∨ fl.prefill ≤ c.maxPrefill → (s.stream i).committed ≤ c.maxCtx → fl.released ≤ s.now →
       Gives (.tokenRelease i) s fun t =>
         t.stream i = { s.stream i with
           flying := some { fl with
             demoted := false,
             deadline := some (if (s.stream i).genCount = 0 then (s.stream i).itemStart + c.ftDl * 1000 else fl.released + c.tokDl) },
           lastRelease := some fl.released } ∧ StreamOnly s t i) ∧
     (fl.demoted = false ∨ ((s.stream i).genCount = 0 ∧ c.maxPrefill < fl.prefill) ∨ c.maxCtx < (s.stream i).committed ∨ s.now < fl.released →
       exec (.tokenRelease i) s = .next s)) := by
  refine ⟨fun hdemoted hprefill hctx hreleased => ?_, fun hstays => ?_⟩
  · exact ⟨_, (exec_tokenRelease hfl).trans (congrArg Host.Outcome.next (if_pos ⟨hdemoted, hprefill, hctx, hreleased⟩)),
      State.stream_updStream_same .., StreamOnly.updStream ..⟩
  · refine (exec_tokenRelease hfl).trans (congrArg Host.Outcome.next (if_neg ?_))
    rintro ⟨hdemoted, hprefill, hctx, hreleased⟩
    rcases hstays with hno | ⟨hcount, hlong⟩ | hlong | hearly
    · rw [hdemoted] at hno
      cases hno
    · exact hprefill.elim (· hcount) fun h => absurd h (Nat.not_le.2 hlong)
    · exact absurd hctx (Nat.not_le.2 hlong)
    · exact absurd hreleased (Nat.not_le.2 hearly)

/-- A token that is in time, or whose miss has been counted, misses nothing. -/
theorem State.missDeadline_in_time {s : State} {i : Nat} {fl : Flying}
    (h : fl.missed = true ∨ ∀ d, fl.deadline = some d → s.now ≤ d) : s.missDeadline i fl = s := by
  unfold State.missDeadline
  split
  · next d hd =>
    refine if_pos ?_
    rcases h with h | h
    · simp [h]
    · simp [h d hd]
  · rfl

/-- The token in flight marked as having missed its deadline. -/
def Stream.missing (x : Stream) : Stream := { x with flying := x.flying.map fun f => { f with missed := true } }

/-- A miss that draws no record: counted, and the token marked. -/
def State.missed (s : State) (i : Nat) : State := (s.inc wndMissCount 1).updStream i Stream.missing

theorem State.missed_stream (s : State) (i : Nat) : (s.missed i).stream i = (s.stream i).missing := State.stream_updStream_same ..

/-- Whether a miss draws a record: none of its stream's misses did within 10 ms (R278). -/
def quietSince (last : Option Nat) (now : Nat) : Bool := match last with
  | some x => decide (x + 10000000 ≤ now)
  | none => true

theorem State.missDeadline_late {s : State} {i d : Nat} {fl : Flying} (hd : fl.deadline = some d) (hnew : fl.missed = false)
    (hlate : d < s.now) (hin : s.isIngress = true) :
    s.missDeadline i fl =
      if quietSince (s.stream i).lastMiss s.now then
        ((s.missed i).updStream i fun t => { t with lastMiss := some s.now }).streamEvent i evAtRisk (2 + flag fl.retried 2) (s.stream i).cls
          (s.stream i).genTag (BitVec.ofNat 64 (min 0xFFFFFFFF (s.now - d)))
      else s.missed i := by
  unfold State.missDeadline
  rw [hd]
  refine (if_neg ?_).trans rfl
  simp [hnew, hin, hlate]

theorem quietSince_iff (last : Option Nat) (now : Nat) :
    quietSince last now = true ↔
    (match last with
      | some m => m + 10000000 ≤ now
      | none => True) := by
  cases last <;> simp [quietSince]

theorem deadlineMiss_counts (s : State) (i d : Nat) (fl : Flying) (hfl : (s.stream i).flying = some fl) (hd : fl.deadline = some d)
    (hnew : fl.missed = false) (hlate : d < s.now) (hin : s.isIngress = true) :
    (let x := s.stream i
     let quiet := match x.lastMiss with
       | some m => m + 10000000 ≤ s.now
       | none => True
     Gives (.deadlineMiss i) s fun t =>
       t.rd wndMissCount = s.rd wndMissCount + 1 ∧ RegsKept s t [wndMissCount] ∧ (∀ j, j ≠ i → t.stream j = s.stream j) ∧
       (quiet →
         t.stream i = { x with flying := some { fl with missed := true }, lastMiss := some s.now } ∧
         Posted s t x.ringEvr { typ := 5, flags := if fl.retried then 6 else 2, code := x.cls, stream := i, time := s.now,
                                tag := x.genTag, data := BitVec.ofNat 64 (min 0xFFFFFFFF (s.now - d)) }) ∧
       (¬ quiet → t.stream i = { x with flying := some { fl with missed := true } } ∧ StreamOnly s { t with regs := s.regs } i)) := by
  intro x quiet
  have hexec : exec (.deadlineMiss i) s = .next (s.missDeadline i fl) := by
    show Host.Outcome.next _ = _
    rw [hfl]
  have hmissing : x.missing = { x with flying := some { fl with missed := true } } := by
    show ({ x with flying := (s.stream i).flying.map fun f => { f with missed := true } } : Stream) = _
    rw [hfl]
    rfl
  have hcount : (s.missed i).rd wndMissCount = s.rd wndMissCount + 1 := by
    rw [State.missed, State.updStream_rd, State.rd_inc_same]
    rfl
  have hregs : RegsKept s (s.missed i) [wndMissCount] := fun o ho => (State.updStream_rd ..).trans (RegsKept.inc s _ _ o ho)
  have hothers (j : Nat) (hj : j ≠ i) : (s.missed i).stream j = s.stream j := State.stream_updStream_other _ _ hj
  have hquiet := quietSince_iff x.lastMiss s.now
  refine ⟨_, hexec, ?_⟩
  rw [State.missDeadline_late hd hnew hlate hin]
  by_cases hq : quiet
  · rw [if_pos (hquiet.2 hq)]
    have hevent := ((s.missed i).updStream i fun t => { t with lastMiss := some s.now }).streamEvent_posted i evAtRisk (2 + flag fl.retried 2)
      (s.stream i).cls (s.stream i).genTag (BitVec.ofNat 64 (min 0xFFFFFFFF (s.now - d)))
    have hkept := ((s.missed i).updStream i fun t => { t with lastMiss := some s.now }).streamEvent_stream i evAtRisk (2 + flag fl.retried 2)
      (s.stream i).cls (s.stream i).genTag (BitVec.ofNat 64 (min 0xFFFFFFFF (s.now - d)))
    have hregs' := ((s.missed i).updStream i fun t => { t with lastMiss := some s.now }).streamEvent_regs i evAtRisk (2 + flag fl.retried 2)
      (s.stream i).cls (s.stream i).genTag (BitVec.ofNat 64 (min 0xFFFFFFFF (s.now - d)))
    generalize State.streamEvent _ i evAtRisk _ _ _ _ = t at *
    have hrd (o : Nat) : t.rd o = (s.missed i).rd o := congrArg (fun r => Table.get (resetWord o) r o) hregs'
    refine ⟨(hrd _).trans hcount, fun o ho => (hrd o).trans (hregs o ho), fun j hj => ?_, fun _ => ⟨?_, ?_⟩, fun hno => absurd hq hno⟩
    · rw [hkept, State.stream_updStream_other _ _ hj, hothers j hj]
    · rw [hkept, State.stream_updStream_same, State.missed_stream]
      exact congrArg (fun y : Stream => { y with lastMiss := some s.now }) hmissing
    · have hring : (((s.missed i).updStream i fun t => { t with lastMiss := some s.now }).stream i).ringEvr = x.ringEvr := by
        rw [State.stream_updStream_same, State.missed_stream]
        rfl
      rw [hring] at hevent
      have hflags : 2 + flag fl.retried 2 = if fl.retried then 6 else 2 := by cases fl.retried <;> rfl
      rw [hflags] at hevent
      exact hevent.of_posting rfl rfl
  · rw [if_neg fun h => hq (hquiet.1 h)]
    exact ⟨hcount, hregs, hothers, fun hyes => absurd hyes hq, fun _ => ⟨(s.missed_stream i).trans hmissing, hothers, rfl⟩⟩

theorem deadlineMiss_in_time (s : State) (i : Nat)
    (h : ∀ fl, (s.stream i).flying = some fl → fl.missed = true ∨ (∀ d, fl.deadline = some d → s.now ≤ d)) :
    exec (.deadlineMiss i) s = .next s := by
  show Host.Outcome.next _ = _
  split
  · next fl hfl => rw [State.missDeadline_in_time (h fl hfl)]
  · rfl

end Sys2Proof.Machine

namespace Sys2Proof.Machine

/-! ### Bounds anew (R273): what a recomputation reads is not what it writes -/

section
variable {α β : Type}

/-- The entry of a canonical table is what its key reads. -/
theorem Table.get_of_mem_wf [DecidableEq α] {d a : α} {t : Table α} {k : Nat} (ht : Table.wf d t = true) (h : (k, a) ∈ t) :
    Table.get d t k = a := by
  induction t with
  | nil => cases h
  | cons p t ih =>
    obtain ⟨i, b⟩ := p
    obtain ⟨-, hlt, ht⟩ := (Table.wfBy_cons ..).1 ht
    rw [Table.get]
    split
    · next hik =>
      rcases List.mem_cons.1 h with hhead | htail
      · exact (Prod.mk.inj hhead).2.symm
      · exact absurd (hlt _ htail) (by simp [hik])
    · next hik =>
      rcases List.mem_cons.1 h with hhead | htail
      · exact absurd (Prod.mk.inj hhead).1.symm hik
      · exact ih ht htail

/-- A key that does not read the default has an entry. -/
theorem Table.mem_of_get {d : α} {t : Table α} {k : Nat} (h : Table.get d t k ≠ d) : (k, Table.get d t k) ∈ t := by
  induction t with
  | nil => exact absurd rfl h
  | cons p t ih =>
    obtain ⟨i, b⟩ := p
    simp only [Table.get] at h ⊢
    split
    · next hik =>
      subst hik
      exact List.mem_cons_self
    · next hik =>
      rw [if_neg hik] at h
      exact List.mem_cons_of_mem _ (ih h)

/-- A table whose entries are seen through a function. -/
theorem Table.get_map (f : α → β) (d : α) (t : Table α) (k : Nat) :
    Table.get (f d) (t.map fun p => (p.1, f p.2)) k = f (Table.get d t k) := by
  induction t with
  | nil => rfl
  | cons p t ih =>
    obtain ⟨i, b⟩ := p
    simp only [List.map_cons, Table.get, ih]
    split <;> rfl

/-- An entry replaced by one that a function sees as the same leaves the table as the function sees it. -/
theorem Table.map_put_of_mem [DecidableEq α] {d a b : α} {t : Table α} {k : Nat} {f : α → β} (ht : Table.wf d t = true) (h : (k, b) ∈ t)
    (hf : f a = f b) : (Table.put t k a).map (fun p => (p.1, f p.2)) = t.map fun p => (p.1, f p.2) := by
  induction t with
  | nil => cases h
  | cons p t ih =>
    obtain ⟨i, c⟩ := p
    obtain ⟨-, hlt, ht⟩ := (Table.wfBy_cons ..).1 ht
    rw [Table.put]
    rcases List.mem_cons.1 h with hhead | htail
    · obtain ⟨rfl, rfl⟩ := Prod.mk.inj hhead
      rw [if_pos rfl, List.map_cons, List.map_cons]
      simp only [hf]
    · have hik : i < k := hlt _ htail
      rw [if_neg (by omega), if_neg (by omega), List.map_cons, ih ht htail, List.map_cons]

end

/-- A class without what a recomputation writes in it: its bounds and AT_RISK. -/
def Class.unbound (c : Class) : Class := { c with bound := 0, ftBound := 0, atRisk := false }

/-- The class table without its bounds. -/
def ClassTable.unbound (tbl : ClassTable) : ClassTable := tbl.map fun p => (p.1, p.2.unbound)

theorem deadlineClasses_unbound (tbl : ClassTable) : deadlineClasses (ClassTable.unbound tbl) = ClassTable.unbound (deadlineClasses tbl) := by
  unfold deadlineClasses ClassTable.unbound
  rw [List.filter_map]
  rfl

theorem State.factorP_unbound (s : State) (tbl : ClassTable) : s.factorP (ClassTable.unbound tbl) = s.factorP tbl := by
  have hrate : s.energyRate (ClassTable.unbound tbl) = s.energyRate tbl := by
    unfold State.energyRate
    rw [deadlineClasses_unbound, ClassTable.unbound, List.map_map]
    rfl
  rw [State.factorP, hrate, State.factorP]

theorem State.carryIn_unbound (s : State) (tbl : ClassTable) (i prio d : Nat) :
    s.carryIn (ClassTable.unbound tbl) i prio d = s.carryIn tbl i prio d := by
  unfold State.carryIn
  rw [deadlineClasses_unbound, ClassTable.unbound, List.filter_map, List.foldlM_map]
  rfl

theorem State.boundAt_unbound (s : State) (tbl : ClassTable) (p : Rat) (i : Nat) (c : Class) (first : Bool) :
    s.boundAt (ClassTable.unbound tbl) p i c.unbound first = s.boundAt tbl p i c first := by
  unfold State.boundAt
  simp only [State.carryIn_unbound]
  rfl

/-- The machine without what a recomputation moves: the registers, the class table, and what its records move. -/
def State.unclassed (s : State) : State := { s.unposted with regs := [], wnd := { s.unposted.wnd with classes := [] } }

/-- Of all that bounds are computed from, nothing moved: the class table but for its bounds, the guaranteed power, the rest of the machine. -/
structure Rebounding (s t : State) : Prop where
  frame : t.unclassed = s.unclassed
  power : t.rd hfPgW = s.rd hfPgW
  classes : ClassTable.unbound t.wnd.classes = ClassTable.unbound s.wnd.classes
  wf : Table.wf Class.none t.wnd.classes = true

namespace Rebounding
variable {s t u : State}

theorem trans (h : Rebounding s t) (h' : Rebounding t u) : Rebounding s u :=
  ⟨h'.frame.trans h.frame, h'.power.trans h.power, h'.classes.trans h.classes, h'.wf⟩

theorem field {α : Type} (h : Rebounding s t) (π : State → α) (hπ : ∀ x : State, π x.unclassed = π x) : π t = π s :=
  (hπ t).symm.trans ((congrArg π h.frame).trans (hπ s))

theorem cls_unbound (h : Rebounding s t) (i : Nat) : (t.cls i).unbound = (s.cls i).unbound :=
  (Table.get_map Class.unbound Class.none t.wnd.classes i).symm.trans
    ((congrArg (fun c => Table.get Class.none.unbound c i) h.classes).trans (Table.get_map Class.unbound Class.none s.wnd.classes i))

theorem factorP (h : Rebounding s t) (tbl : ClassTable) : t.factorP tbl = s.factorP tbl := by
  have hrate : t.energyRate tbl = s.energyRate tbl := h.field (·.energyRate tbl) fun _ => rfl
  have hcap : t.paceCap = s.paceCap := h.field State.paceCap fun _ => rfl
  have hview : t.wnd.view = s.wnd.view := h.field (·.wnd.view) fun _ => rfl
  have hpg : t.leastPg = s.leastPg := by rw [State.leastPg, h.power, hview, State.leastPg]
  rw [State.factorP, hrate, hcap, hpg, State.factorP]

theorem boundAt (h : Rebounding s t) (i : Nat) (first : Bool) :
    t.boundAt t.wnd.classes (t.factorP t.wnd.classes) i (t.cls i) first = s.boundAt s.wnd.classes (s.factorP s.wnd.classes) i (s.cls i) first := by
  have hfactor : t.factorP t.wnd.classes = s.factorP s.wnd.classes := by
    rw [h.factorP, ← State.factorP_unbound, h.classes, State.factorP_unbound]
  have hbound (tbl : ClassTable) (p : Rat) (c : Class) : t.boundAt tbl p i c first = s.boundAt tbl p i c first :=
    h.field (·.boundAt tbl p i c first) fun _ => rfl
  rw [hfactor, hbound, ← State.boundAt_unbound, h.classes, h.cls_unbound, State.boundAt_unbound]

theorem of_unposted (h : t.unposted = s.unposted) (hs : Table.wf Class.none s.wnd.classes = true) : Rebounding s t := by
  have hclasses : t.wnd.classes = s.wnd.classes := field_of_unposted h (·.wnd.classes) fun _ => rfl
  exact ⟨congrArg (fun x : State => { x with regs := [], wnd := { x.wnd with classes := [] } }) h,
    field_of_unposted h (·.rd hfPgW) fun _ => rfl, congrArg ClassTable.unbound hclasses, hclasses ▸ hs⟩

theorem wr {o : Nat} (ho : hfPgW ≠ o) (v : Word) (hs : Table.wf Class.none s.wnd.classes = true) : Rebounding s (s.wr o v) :=
  ⟨rfl, s.rd_wr_other v ho, rfl, hs⟩

theorem setCls {i : Nat} {c : Class} (hc : c.unbound = (s.cls i).unbound) (hadmitted : (s.cls i).admitted = true)
    (hs : Table.wf Class.none s.wnd.classes = true) : Rebounding s (s.setCls i c) := by
  have hyes : c.admitted = true := (congrArg Class.admitted hc).trans hadmitted
  have hne : c ≠ Class.none := by
    rintro rfl
    cases hyes
  have hin : s.cls i ≠ Class.none := by
    intro h
    rw [h] at hadmitted
    cases hadmitted
  have hset : (s.setCls i c).wnd.classes = Table.put s.wnd.classes i c := if_neg hne
  refine ⟨rfl, rfl, ?_, Table.wf_set hs⟩
  rw [hset]
  exact Table.map_put_of_mem hs (Table.mem_of_get hin) hc

end Rebounding

/-- A class with bounds and AT_RISK written. -/
def Class.withBounds (bound ftBound : Nat) (atRisk : Bool) (c : Class) : Class := { c with bound := bound, ftBound := ftBound, atRisk := atRisk }

/-- A class with its bounds as they are now. -/
def State.rebound (s : State) (i : Nat) : Class :=
  let b := s.boundAt s.wnd.classes (s.factorP s.wnd.classes) i (s.cls i) false
  let bf := s.boundAt s.wnd.classes (s.factorP s.wnd.classes) i (s.cls i) true
  (s.cls i).withBounds (boundReg b 1) (boundReg bf 1000) (!(within b (s.cls i).tokDl) || !(within bf ((s.cls i).ftDl * 1000)))

theorem Rebounding.rebound {s t : State} (h : Rebounding s t) (i : Nat) : t.rebound i = s.rebound i := by
  have hunbound := h.cls_unbound i
  have htok : (t.cls i).tokDl = (s.cls i).tokDl := (congrArg Class.tokDl hunbound :)
  have hft : (t.cls i).ftDl = (s.cls i).ftDl := (congrArg Class.ftDl hunbound :)
  have hwith (b ft : Nat) (risk : Bool) : (t.cls i).withBounds b ft risk = (s.cls i).withBounds b ft risk :=
    (congrArg (Class.withBounds b ft risk) hunbound :)
  unfold State.rebound
  dsimp only
  rw [h.boundAt, h.boundAt, htok, hft]
  exact hwith ..

/-- One class's recomputation writes its bounds, and moves beyond them what a record moves and the count of risks (R273). -/
theorem State.recomputeClass_spec {s : State} {i : Nat} (events : Bool) (hadmitted : (s.cls i).admitted = true)
    (hs : Table.wf Class.none s.wnd.classes = true) :
    Rebounding s (State.recomputeClass events s i) ∧ (State.recomputeClass events s i).wnd.classes = (s.setCls i (s.rebound i)).wnd.classes := by
  have hset : Rebounding s (s.setCls i (s.rebound i)) := .setCls rfl hadmitted hs
  unfold State.recomputeClass
  dsimp only
  split
  · refine ⟨hset.trans ((Rebounding.of_unposted (State.post_unposted ..) hset.wf).trans (.wr (by decide) _ ?_)), ?_⟩
    · exact (Rebounding.of_unposted (State.post_unposted ..) hset.wf).wf
    · exact field_of_unposted (State.post_unposted ..) (·.wnd.classes) fun _ => rfl
  · exact ⟨hset, rfl⟩

/-- A class that is recomputed has its bounds from then on. -/
theorem State.each_recomputeClass (events : Bool) (l : List Nat) {s t : State} (h : Rebounding s t) (hl : ∀ j ∈ l, (s.cls j).admitted = true) :
    (∀ i ∈ l, (t.each l (State.recomputeClass events)).cls i = s.rebound i) ∧
      ∀ i, t.cls i = s.rebound i → (t.each l (State.recomputeClass events)).cls i = s.rebound i := by
  induction l generalizing t with
  | nil => exact ⟨nofun, fun _ hi => hi⟩
  | cons j l ih =>
    obtain ⟨hj, hl⟩ := List.forall_mem_cons.1 hl
    have hadmitted : (t.cls j).admitted = true := (congrArg Class.admitted (h.cls_unbound j) :).trans hj
    obtain ⟨hstep, hclasses⟩ := State.recomputeClass_spec events hadmitted h.wf
    obtain ⟨hmem, hkept⟩ := ih (h.trans hstep) hl
    have hcls (i : Nat) : (State.recomputeClass events t j).cls i = (t.setCls j (t.rebound j)).cls i :=
      congrArg (fun c => Table.get Class.none c i) hclasses
    have hself : (State.recomputeClass events t j).cls j = s.rebound j := by
      rw [hcls, State.cls_setCls_same, h.rebound]
    refine ⟨fun i hi => ?_, fun i hi => ?_⟩
    · rcases List.mem_cons.1 hi with rfl | hi
      · exact hkept _ hself
      · exact hmem i hi
    · by_cases hij : i = j
      · exact hkept i (hij ▸ hself)
      · exact hkept i (((hcls i).trans (State.cls_setCls_other _ _ hij)).trans hi)

theorem classRecompute_bounds (s : State) (i : Nat) (hin : s.isIngress = true) :
    (let b := s.boundAt s.wnd.classes (s.factorP s.wnd.classes) i (s.cls i) false
     let bf := s.boundAt s.wnd.classes (s.factorP s.wnd.classes) i (s.cls i) true
     Table.wf Class.none s.wnd.classes = true → (s.cls i).admitted = true → (s.cls i).nodl = false →
     Gives .classRecompute s fun t =>
       t.cls i = { s.cls i with bound := boundReg b 1, ftBound := boundReg bf 1000,
                                atRisk := !(within b (s.cls i).tokDl) || !(within bf ((s.cls i).ftDl * 1000)) }) := by
  intro b bf hwf hadmitted hdeadline
  have hstart : Rebounding s (s.wr wndPadm (BitVec.ofNat 32 (min 0xFFFF (s.factorP s.wnd.classes * 16384).floor.toNat))) :=
    .wr (by decide) _ hwf
  have hall : ∀ j ∈ (deadlineClasses s.wnd.classes).map (·.1), (s.cls j).admitted = true := by
    intro j hj
    obtain ⟨⟨k, c⟩, hmem, rfl⟩ := List.mem_map.1 hj
    obtain ⟨hmem, hc⟩ := List.mem_filter.1 hmem
    rw [State.cls, Table.get_of_mem_wf hwf hmem]
    exact (Bool.and_eq_true_iff.1 hc).1
  have hmine : i ∈ (deadlineClasses s.wnd.classes).map (·.1) := by
    have hne : s.cls i ≠ Class.none := by
      intro h
      rw [h] at hadmitted
      cases hadmitted
    exact List.mem_map.2 ⟨_, List.mem_filter.2 ⟨Table.mem_of_get hne, by
      show ((s.cls i).admitted && !(s.cls i).nodl) = true
      rw [hadmitted, hdeadline]
      rfl⟩, rfl⟩
  have hexec : exec .classRecompute s = .next s.recompute := congrArg Host.Outcome.next (if_pos hin)
  exact ⟨_, hexec, (State.each_recomputeClass true _ hstart hall).1 i hmine⟩

theorem classRecompute_elsewhere (s : State) (h : s.isIngress = false) : exec .classRecompute s = .next s :=
  congrArg Host.Outcome.next (if_neg (by simp [h]))

end Sys2Proof.Machine

namespace Sys2Proof.Machine

/-! ### The acknowledgements of a mirror partner (R296) -/

/-- A stream whose TOKEN_OUT records that wait for the mirror are as given. -/
def Stream.withMirror (wait : List (Nat × DWord × DWord × List Nat)) (x : Stream) : Stream := { x with mirrorWait := wait }

/-- The oldest TOKEN_OUT record that waited goes out. -/
def State.mirrorOut (s : State) (i : Nat) (tag data : DWord) (rest : List (Nat × DWord × DWord × List Nat)) : State :=
  (s.updStream i (Stream.withMirror rest)).streamEvent i evTokenOut 0 0 tag data

theorem State.flushMirror_done {s : State} {i n slot : Nat} {tag data : DWord} {acks : List Nat} {rest : List (Nat × DWord × DWord × List Nat)}
    (hwait : (s.stream i).mirrorWait = (slot, tag, data, acks) :: rest) (hdone : s.mirrorDone acks = true) :
    s.flushMirror i (n + 1) = (s.mirrorOut i tag data rest).flushMirror i n := by
  rw [State.flushMirror, hwait]
  exact if_pos hdone

theorem State.flushMirror_waits {s : State} {i : Nat} (n : Nat) (h : ∀ m ∈ (s.stream i).mirrorWait.head?, s.mirrorDone m.2.2.2 = false) :
    s.flushMirror i n = s := by
  cases n with
  | zero => rfl
  | succ n =>
    rw [State.flushMirror]
    split
    · next hwait =>
      rw [hwait] at h
      exact if_neg (by simp [h _ rfl])
    · rfl

theorem State.mirrorOut_mirrorDone (s : State) (i : Nat) (tag data : DWord) (rest : List (Nat × DWord × DWord × List Nat)) :
    (s.mirrorOut i tag data rest).mirrorDone = s.mirrorDone :=
  (field_of_unposted (State.streamEvent_unposted ..) State.mirrorDone fun _ => rfl).trans rfl

theorem State.mirrorOut_stream (s : State) (i : Nat) (tag data : DWord) (rest : List (Nat × DWord × DWord × List Nat)) :
    (s.mirrorOut i tag data rest).stream i = (s.stream i).withMirror rest :=
  (State.streamEvent_stream ..).trans (State.stream_updStream_same ..)

/-- The records that wait no longer leave in order, up to the first that waits. -/
theorem State.flushMirror_spec (i n : Nat) {s : State} (hn : (s.stream i).mirrorWait.length ≤ n) :
    (s.flushMirror i n).stream i = (s.stream i).withMirror ((s.stream i).mirrorWait.dropWhile fun m => s.mirrorDone m.2.2.2) ∧
      (s.flushMirror i n).regs = s.regs ∧ ∀ j, j ≠ i → (s.flushMirror i n).stream j = s.stream j := by
  induction n generalizing s with
  | zero =>
    have hempty : (s.stream i).mirrorWait = [] := List.length_eq_zero_iff.1 (Nat.le_zero.1 hn)
    refine ⟨?_, rfl, fun _ _ => rfl⟩
    rw [hempty, List.dropWhile_nil, ← hempty]
    rfl
  | succ n ih =>
    by_cases hwaits : ∀ m ∈ (s.stream i).mirrorWait.head?, s.mirrorDone m.2.2.2 = false
    · rw [State.flushMirror_waits _ hwaits]
      refine ⟨?_, rfl, fun _ _ => rfl⟩
      cases hwait : (s.stream i).mirrorWait with
      | nil => rw [List.dropWhile_nil, ← hwait]; rfl
      | cons m rest =>
        rw [List.dropWhile_cons_of_neg (by simp [hwaits m (by simp [hwait])]), ← hwait]
        rfl
    · cases hwait : (s.stream i).mirrorWait with
      | nil => exact absurd (by simp [hwait]) hwaits
      | cons m rest =>
        obtain ⟨slot, tag, data, acks⟩ := m
        have hdone : s.mirrorDone acks = true := by simpa [hwait] using hwaits
        have hstream := s.mirrorOut_stream i tag data rest
        have hmine : ((s.mirrorOut i tag data rest).stream i).mirrorWait = rest := congrArg Stream.mirrorWait hstream
        rw [hwait, List.length_cons] at hn
        obtain ⟨hstream', hregs, hothers⟩ := ih (s := s.mirrorOut i tag data rest) (by rw [hmine]; omega)
        rw [State.flushMirror_done hwait hdone, List.dropWhile_cons_of_pos (by exact hdone)]
        refine ⟨?_, hregs.trans (State.streamEvent_regs ..), fun j hj => ?_⟩
        · rw [hstream', hmine, State.mirrorOut_mirrorDone, hstream]
          rfl
        · rw [hothers j hj, State.mirrorOut, State.streamEvent_stream, State.stream_updStream_other _ _ hj]

theorem mirrorAck_flushes (s : State) (i slot dev : Nat) :
    (let x := s.stream i
     let wait := x.mirrorWait.map fun m => if m.1 = slot then (m.1, m.2.1, m.2.2.1, m.2.2.2 ++ [dev]) else m
     Gives (.mirrorAck i slot dev) s fun t =>
       t.stream i = { x with mirrorWait := wait.dropWhile fun m => s.mirrorDone m.2.2.2 } ∧ t.regs = s.regs ∧
       (∀ j, j ≠ i → t.stream j = s.stream j) ∧
       ∀ n tag data acks rest, wait = (n, tag, data, acks) :: rest → s.mirrorDone acks = true →
         (∀ m ∈ rest.head?, s.mirrorDone m.2.2.2 = false) →
         Posted s t x.ringEvr { typ := 1, flags := 0, code := 0, stream := i, time := s.now, tag := tag, data := data }) := by
  intro x wait
  have hacked : (s.updStream i (Stream.withMirror wait)).stream i = x.withMirror wait := State.stream_updStream_same ..
  have hexec : exec (.mirrorAck i slot dev) s =
      .next ((s.updStream i (Stream.withMirror wait)).flushMirror i ((s.updStream i (Stream.withMirror wait)).stream i).mirrorWait.length) := rfl
  obtain ⟨hstream, hregs, hothers⟩ := State.flushMirror_spec i _ (le_refl ((s.updStream i (Stream.withMirror wait)).stream i).mirrorWait.length)
  refine ⟨_, hexec, ?_, hregs, fun j hj => (hothers j hj).trans (State.stream_updStream_other _ _ hj), ?_⟩
  · rw [hstream, hacked]
    rfl
  · intro n tag data acks rest hwait hdone hnext
    have hfirst : ((s.updStream i (Stream.withMirror wait)).stream i).mirrorWait = (n, tag, data, acks) :: rest :=
      (congrArg Stream.mirrorWait hacked).trans hwait
    have hposted := ((s.updStream i (Stream.withMirror wait)).updStream i (Stream.withMirror rest)).streamEvent_posted i evTokenOut 0 0 tag data
    rw [hfirst, List.length_cons, State.flushMirror_done hfirst hdone, State.flushMirror_waits]
    · rw [State.stream_updStream_same, hacked] at hposted
      exact hposted.of_posting rfl rfl
    · rw [State.mirrorOut_stream, State.mirrorOut_mirrorDone]
      exact hnext

/-! ### The journal (R295, R297) -/

theorem State.length_rdMem (s : State) (a n : Nat) : (s.rdMem a n).length = n := length_readBytes ..

theorem State.length_frameBytes (s : State) (k f : Nat) : (s.frameBytes k f).length = 0x8800 := by
  rw [State.frameBytes, List.length_append, State.length_rdMem, State.length_rdMem]

/-- The bytes of a page: of its copy when it is spilled, else of its frame. -/
def State.pageCopy (s : State) (p : Pte) : List Byte := if p.spilled then s.rdMem (cageBase p.handle) pageBytes else s.frameBytes p.stack p.frame

theorem State.length_pageCopy (s : State) (p : Pte) : (s.pageCopy p).length = 0x8800 := by
  unfold State.pageCopy
  split
  · exact s.length_rdMem ..
  · exact s.length_frameBytes ..

theorem journalPage_copies (s : State) (i layer head page : Nat) :
    (let key := pteKey i layer head page
     let h := s.freshHandle
     (s.stream i).state ≠ .free → (s.cls (s.stream i).cls).kvprot = 2 → s.storeUp = true → (s.pte key).valid = true →
     256 * (page + 1) ≤ (s.stream i).committed → keyPage key = page → (∀ x ∈ (s.stream i).journaled, ¬ (x.1 = key ∧ x.2.2 = true)) →
     Gives (.journalPage i layer head page) s fun t =>
       t.rdMem (cageBase h) 0x8800 = (if (s.pte key).spilled then s.rdMem (cageBase (s.pte key).handle) 0x8800
         else s.frameBytes (s.pte key).stack (s.pte key).frame) ∧
       (key, (h, true)) ∈ (t.stream i).journaled ∧ t.kv.nextHandle = h % 0xFFFFFFFF + 1 ∧ MemKept s t (cageBase h) 0x8800 ∧
       { t with mem := s.mem, kv := { t.kv with nextHandle := s.kv.nextHandle }, wnd := { t.wnd with streams := s.wnd.streams } } = s) := by
  intro key h hopen hclass hstore hvalid hfull hpage hnew
  have hgoes : ((s.stream i).state != .free && (s.cls (s.stream i).cls).kvprot == 2 && s.storeUp && (s.pte key).valid &&
      decide (256 * (page + 1) ≤ (s.stream i).committed) && !((s.stream i).journaled.any fun x => x.1 == key && x.2.2)) = true := by
    have hnone : ((s.stream i).journaled.any fun x => x.1 == key && x.2.2) = false := by
      simpa [List.any_eq_false] using hnew
    rw [hnone, hstore, hvalid]
    simpa [hopen, hclass] using hfull
  have hexec : exec (.journalPage i layer head page) s = .next (s.journalKey i key) := congrArg Host.Outcome.next (if_pos hgoes)
  have hmem : (s.journalKey i key).mem = (s.wrMem (cageBase h) (s.pageCopy (s.pte key))).mem := rfl
  refine ⟨_, hexec, ?_, ?_, rfl, ?_, rfl⟩
  · rw [State.rdMem, hmem]
    exact s.rdMem_wrMem_same _ (s.length_pageCopy _)
  · have hjournal : ((s.journalKey i key).stream i).journaled =
        Table.put (s.stream i).journaled key (h, decide (256 * (keyPage key + 1) ≤ (s.stream i).committed)) :=
      (congrArg Stream.journaled (State.stream_updStream_same ..)).trans rfl
    have hwhole : decide (256 * (keyPage key + 1) ≤ (s.stream i).committed) = true := by
      rw [hpage]
      exact decide_eq_true hfull
    rw [hjournal, hwhole]
    exact List.mem_of_find?_eq_some (Table.find?_put ..)
  · intro x hx
    rw [hmem]
    exact MemKept.wrMem s _ (s.length_pageCopy _) x hx

end Sys2Proof.Machine

namespace Sys2Proof.Machine

/-! ### The winder's issue (R274 to R277) -/

/-- Nothing moved but the streams' marks, each with its bank as before, and the count of held streams. -/
structure MarksOnly (s t : State) : Prop where
  regs : RegsKept s t [wndWheldCount]
  bank : ∀ i, (t.stream i).bank = (s.stream i).bank
  frame : { t with regs := s.regs, wnd := { t.wnd with streams := s.wnd.streams } } = s

namespace MarksOnly
variable {s t u : State}

theorem refl (s : State) : MarksOnly s s := ⟨fun _ _ => rfl, fun _ => rfl, rfl⟩

theorem trans (h : MarksOnly s t) (h' : MarksOnly t u) : MarksOnly s u := by
  refine ⟨fun o ho => (h'.regs o ho).trans (h.regs o ho), fun i => (h'.bank i).trans (h.bank i), ?_⟩
  have hlast : ({ u with regs := s.regs, wnd := { u.wnd with streams := s.wnd.streams } } : State) =
      { t with regs := s.regs, wnd := { t.wnd with streams := s.wnd.streams } } :=
    (congrArg (fun x : State => ({ x with regs := s.regs, wnd := { x.wnd with streams := s.wnd.streams } } : State)) h'.frame :)
  exact hlast.trans h.frame

theorem ready (h : MarksOnly s t) : t.wnd.ready = s.wnd.ready := (congrArg (fun x : State => x.wnd.ready) h.frame :)
theorem cores (h : MarksOnly s t) : t.cores = s.cores := (congrArg State.cores h.frame :)
theorem hf (h : MarksOnly s t) : t.hf = s.hf := (congrArg State.hf h.frame :)

theorem updStream (s : State) {i : Nat} {f : Stream → Stream} (hf : ∀ x, (f x).bank = x.bank) : MarksOnly s (s.updStream i f) := by
  refine ⟨fun _ _ => State.updStream_rd .., fun j => ?_, rfl⟩
  by_cases hj : j = i
  · rw [hj, State.stream_updStream_same, hf]
  · rw [State.stream_updStream_other _ _ hj]

theorem countHeld (s : State) : MarksOnly s (s.inc wndWheldCount 1) := ⟨RegsKept.inc s _ 1, fun _ => rfl, rfl⟩

end MarksOnly

theorem State.noteRemaining_marksOnly (s : State) (r : StepReq) : MarksOnly s (s.noteRemaining r) := by
  unfold State.noteRemaining
  split
  · refine MarksOnly.updStream s fun x => ?_
    dsimp only
    split
    · rfl
    · rfl
  · exact .refl s

theorem State.holdStream_marksOnly (s : State) (risky near : List Nat) (i : Nat) : MarksOnly s (s.holdStream risky near i) := by
  have hmarked (held : Bool) : MarksOnly s (s.updStream i fun t =>
      { t with held := held, flying := t.flying.map fun fl => { fl with atRisk := risky.contains i } }) := .updStream s fun _ => rfl
  unfold State.holdStream
  dsimp only
  split
  · exact (hmarked _).trans (.countHeld _)
  · exact hmarked _

theorem State.updateHolds_marksOnly (s : State) : MarksOnly s s.updateHolds :=
  State.each_rel .refl (fun _ _ _ => .trans) (fun s i => s.holdStream_marksOnly _ _ i) s _

theorem State.each_noteRemaining_marksOnly (s : State) (rs : List StepReq) : MarksOnly s (s.each rs State.noteRemaining) :=
  State.each_rel .refl (fun _ _ _ => .trans) State.noteRemaining_marksOnly s rs

/-- The machine with a step's cost charged to its window. -/
def State.chargeAll (s : State) (cost : List Rat) : State := s.each cost.zipIdx fun s c => s.charge c.2 c.1

/-- Charges move the headframe's account alone, and its window by their sum (R443). -/
theorem State.chargeAll_spec (s : State) (cost : List Rat) :
    { s.chargeAll cost with hf := s.hf } = s ∧ (s.chargeAll cost).hf.spent = s.hf.spent + cost.sum := by
  have hall (l : List (Rat × Nat)) (s : State) : { s.each l (fun s c => s.charge c.2 c.1) with hf := s.hf } = s ∧
      (s.each l fun s c => s.charge c.2 c.1).hf.spent = s.hf.spent + (l.map Prod.fst).sum := by
    induction l generalizing s with
    | nil => exact ⟨rfl, (add_zero _).symm⟩
    | cons x l ih =>
      obtain ⟨hframe, hspent⟩ := ih (s.charge x.2 x.1)
      refine ⟨(congrArg (fun t : State => { t with hf := s.hf }) hframe :), hspent.trans ?_⟩
      rw [List.map_cons, List.sum_cons, ← add_assoc]
      rfl
  have hfst : cost.zipIdx.map Prod.fst = cost := List.zipIdx_map_fst ..
  obtain ⟨hframe, hspent⟩ := hall cost.zipIdx s
  exact ⟨hframe, by rw [State.chargeAll, hspent, hfst]⟩

/-- What a step is that a core's queue takes (R277). -/
def State.queued (s : State) (r : StepReq) : Step :=
  { prog := r.prog, stream := r.stream, bank := s.stepBank r, converting := reqConverts r, bound := r.bound, missed := false }

/-- The machine with a step that is no longer ready, and its stream's customer charged. -/
def State.unready (s : State) (r : StepReq) (cost : List Rat) : State :=
  let s := { s with wnd := { s.wnd with ready := s.wnd.ready.erase r } }
  match r.stream with
  | some i => { s with wnd := { s.wnd with custEnergy := Table.upd 0 s.wnd.custEnergy (s.stream i).customer fun x => x + cost.sum } }
  | none => s

theorem State.unready_spec (s : State) (r : StepReq) (cost : List Rat) :
    (s.unready r cost).wnd.ready = s.wnd.ready.erase r ∧ (s.unready r cost).wnd.streams = s.wnd.streams ∧
      (s.unready r cost).regs = s.regs ∧ (s.unready r cost).cores = s.cores ∧ (s.unready r cost).hf = s.hf := by
  unfold State.unready
  dsimp only
  split
  · exact ⟨rfl, rfl, rfl, rfl, rfl⟩
  · exact ⟨rfl, rfl, rfl, rfl, rfl⟩

theorem State.issueStep_eq (s : State) (r : StepReq) :
    s.issueStep r =
      let u := (s.chargeAll (s.stepCost r.cost)).unready r (s.stepCost r.cost)
      (u.updCore r.core fun t => { t with queue := t.queue ++ [u.queued r] }).inc64 wndIssuedLo 1 := rfl

theorem State.stepCost_of_hf {s t : State} (h : t.hf = s.hf) (cost : List Nat) : t.stepCost cost = s.stepCost cost := by
  unfold State.stepCost State.corrOf State.voltScale
  rw [h]

theorem State.stepBank_of_streams {s t : State} (h : t.wnd.streams = s.wnd.streams) (r : StepReq) : t.stepBank r = s.stepBank r := by
  unfold State.stepBank State.stream
  rw [h]

/-- A step that issues stands behind its core's queue, and its energy is charged (R275, R277, R443). -/
theorem State.issueStep_spec (s : State) (r : StepReq) :
    ((s.issueStep r).core r.core).queue = (s.core r.core).queue ++ [s.queued r] ∧ (s.issueStep r).wnd.ready = s.wnd.ready.erase r ∧
      (s.issueStep r).rd64 wndIssuedLo = (s.rd64 wndIssuedLo + 1) % 2 ^ 64 ∧
      (s.issueStep r).hf.spent = s.hf.spent + (s.stepCost r.cost).sum ∧ (s.issueStep r).wnd.streams = s.wnd.streams ∧
      (∀ j, j ≠ r.core → (s.issueStep r).core j = s.core j) ∧ RegsKept s (s.issueStep r) [wndIssuedLo, wndIssuedLo + 4] := by
  obtain ⟨hcharged, hspent⟩ := s.chargeAll_spec (s.stepCost r.cost)
  obtain ⟨hready, hstreams, hregs, hcores, hhf⟩ := (s.chargeAll (s.stepCost r.cost)).unready_spec r (s.stepCost r.cost)
  rw [State.issueStep_eq]
  dsimp only
  generalize s.chargeAll (s.stepCost r.cost) = c at *
  generalize c.unready r (s.stepCost r.cost) = u at *
  have hcwnd : c.wnd = s.wnd := (congrArg State.wnd hcharged :)
  have hcregs : c.regs = s.regs := (congrArg State.regs hcharged :)
  have hccores : c.cores = s.cores := (congrArg State.cores hcharged :)
  have hustreams : u.wnd.streams = s.wnd.streams := hstreams.trans (congrArg (fun w => w.streams) hcwnd :)
  have hrd (o : Nat) : u.rd o = s.rd o := by rw [State.rd, hregs, hcregs, State.rd]
  have hcore (j : Nat) : u.core j = s.core j := by rw [State.core, hcores, hccores, State.core]
  have hqueued : u.queued r = s.queued r := by rw [State.queued, State.stepBank_of_streams hustreams, State.queued]
  refine ⟨?_, ?_, ?_, ?_, ?_, fun j hj => ?_, fun o ho => ?_⟩
  · rw [State.inc64_core, State.core_updCore_same, hqueued, hcore]
  · rw [State.inc64_wnd]
    exact hready.trans (congrArg (fun w => w.ready.erase r) hcwnd :)
  · rw [State.rd64_inc64]
    show (u.rd64 wndIssuedLo + 1) % 2 ^ 64 = _
    rw [State.rd64, hrd, hrd, State.rd64]
  · rw [State.inc64_hf]
    exact (congrArg (fun h => h.spent) hhf :).trans hspent
  · rw [State.inc64_wnd]
    exact hustreams
  · rw [State.inc64_core, State.core_updCore_other _ _ hj, hcore]
  · have ho' : o ≠ wndIssuedLo ∧ o ≠ wndIssuedLo + 4 := by simpa using ho
    rw [State.rd_inc64_other _ _ ho'.1 ho'.2]
    exact hrd o

theorem winderIssue_issues (s : State) (rs : List StepReq) :
    (let w := (({ s with wnd := { s.wnd with ready := s.wnd.ready ++ rs } } : State).each rs State.noteRemaining).updateHolds
     w.wnd.ready = s.wnd.ready ++ rs ∧ w.cores = s.cores ∧ w.hf = s.hf ∧ RegsKept s w [wndWheldCount] ∧
     (w.nextStep = none → exec (.winderIssue rs) s = .next w) ∧
     (∀ r, w.nextStep = some r → w.grantOpen r.reserved = true →
       Gives (.winderIssue rs) s fun t =>
         (t.core r.core).queue = (s.core r.core).queue ++
           [{ prog := r.prog, stream := r.stream, bank := (match r.stream with | some i => (s.stream i).bank | none => r.bank),
              converting := reqConverts r, bound := r.bound, missed := false }] ∧
         t.wnd.ready = (s.wnd.ready ++ rs).erase r ∧ t.rd64 wndIssuedLo = (s.rd64 wndIssuedLo + 1) % 2 ^ 64 ∧
         t.hf.spent = s.hf.spent + (s.stepCost r.cost).sum ∧ t.wnd.streams = w.wnd.streams ∧
         (∀ j, j ≠ r.core → t.core j = s.core j) ∧ RegsKept w t [wndIssuedLo, wndIssuedLo + 4]) ∧
     (∀ r, w.nextStep = some r → w.grantOpen r.reserved = false →
       Gives (.winderIssue rs) s fun t =>
         t.wnd.ready = s.wnd.ready ++ rs ∧ t.wnd.energyHold = true ∧ t.cores = s.cores ∧ t.hf.spent = s.hf.spent ∧ t.regs = w.regs)) := by
  intro w
  have hmarks : MarksOnly ({ s with wnd := { s.wnd with ready := s.wnd.ready ++ rs } } : State) w :=
    (State.each_noteRemaining_marksOnly _ rs).trans (State.updateHolds_marksOnly _)
  have hexec : exec (.winderIssue rs) s =
      .next (match w.nextStep with
        | some r => if w.grantOpen r.reserved then w.issueStep r else w.holdEnergy
        | none => w) := rfl
  have hready : w.wnd.ready = s.wnd.ready ++ rs := hmarks.ready
  have hcores : w.cores = s.cores := hmarks.cores
  have hhf : w.hf = s.hf := hmarks.hf
  have hregs : RegsKept s w [wndWheldCount] := hmarks.regs
  have hbank (i : Nat) : (w.stream i).bank = (s.stream i).bank := hmarks.bank i
  clear_value w
  have hcore (j : Nat) : w.core j = s.core j := by rw [State.core, hcores, State.core]
  refine ⟨hready, hcores, hhf, hregs, fun hnone => ?_, fun r hr hopen => ?_, fun r hr hclosed => ?_⟩
  · rw [hexec, hnone]
  · obtain ⟨hqueue, herased, hcount, hspent, hstreams, hothers, hkept⟩ := w.issueStep_spec r
    have hstep : w.queued r =
        { prog := r.prog, stream := r.stream, bank := (match r.stream with | some i => (s.stream i).bank | none => r.bank),
          converting := reqConverts r, bound := r.bound, missed := false } := by
      unfold State.queued State.stepBank
      cases r.stream with
      | none => rfl
      | some i => simp only [hbank]
    refine ⟨w.issueStep r, ?_, ?_, ?_, ?_, ?_, hstreams, fun j hj => (hothers j hj).trans (hcore j), hkept⟩
    · rw [hexec, hr]
      exact congrArg Host.Outcome.next (if_pos hopen)
    · rw [hqueue, hstep, hcore]
    · rw [herased, hready]
    · rw [hcount, State.rd64, hregs wndIssuedLo (by decide), hregs (wndIssuedLo + 4) (by decide), State.rd64]
    · rw [hspent, hhf, State.stepCost_of_hf hhf]
  · refine ⟨w.holdEnergy, ?_, hready, rfl, hcores, (congrArg (fun h => h.spent) hhf :), rfl⟩
    rw [hexec, hr]
    exact congrArg Host.Outcome.next (if_neg (by simp [hclosed]))

end Sys2Proof.Machine

namespace Sys2Proof.Machine

/-! ### Commits and rollbacks of pages (R225) -/

/-- A reflexive and transitive relation that every step of a fold over a list's members keeps holds from its start to its end. -/
theorem State.each_rel_mem {α : Type} {R : State → State → Prop} {f : State → α → State} (hrefl : ∀ s, R s s)
    (htrans : ∀ s t u, R s t → R t u → R s u) (l : List α) (hf : ∀ s, ∀ a ∈ l, R s (f s a)) (s : State) : R s (s.each l f) := by
  induction l generalizing s with
  | nil => exact hrefl s
  | cons a l ih =>
    exact htrans _ _ _ (hf s a List.mem_cons_self) (ih (fun s b hb => hf s b (List.mem_cons_of_mem _ hb)) (f s a))

theorem State.pte_setPte (s : State) (k : Nat) (p : Pte) (key : Nat) : (s.setPte k p).pte key = if key = k then p else s.pte key :=
  Table.get_set ..

theorem State.mem_streamPtes {s : State} {i : Nat} {e : Nat × Pte} : e ∈ s.streamPtes i ↔ e ∈ s.kv.ptes ∧ keyStream e.1 = i := by
  simp [State.streamPtes]

/-- A page of a stream that has no entry reads as none. -/
theorem State.pte_of_not_mem {s : State} {i key : Nat} (hkey : keyStream key = i) (h : ∀ e ∈ s.streamPtes i, e.1 ≠ key) : s.pte key = Pte.none := by
  by_contra hne
  exact h _ (State.mem_streamPtes.2 ⟨Table.mem_of_get hne, hkey⟩) rfl

/-- One page rolled back: a frame marked STAGED_ONLY goes, another page loses its staged slots. -/
def State.rollPage (s : State) (e : Nat × Pte) : State := if e.2.stagedOnly then s.releasePage e.1 else s.setPte e.1 { e.2 with staged := [] }

theorem State.rollbackStream_eq (s : State) (i : Nat) : s.rollbackStream i = s.each (s.streamPtes i) State.rollPage := rfl

theorem State.releasePage_pte (s : State) (k key : Nat) : (s.releasePage k).pte key = if key = k then Pte.none else s.pte key := by
  unfold State.releasePage
  dsimp only
  split
  · exact State.pte_setPte ..
  · exact State.pte_setPte ..

/-- Nothing moved but page entries and frame counts. -/
structure PagesOnly (s t : State) : Prop where
  frame : { t with kv := { t.kv with ptes := s.kv.ptes, refs := s.kv.refs } } = s

theorem PagesOnly.refl (s : State) : PagesOnly s s := ⟨rfl⟩

theorem PagesOnly.trans {s t u : State} (h : PagesOnly s t) (h' : PagesOnly t u) : PagesOnly s u :=
  ⟨(congrArg (fun x : State => ({ x with kv := { x.kv with ptes := s.kv.ptes, refs := s.kv.refs } } : State)) h'.frame :).trans h.frame⟩

theorem State.releasePage_pagesOnly (s : State) (k : Nat) : PagesOnly s (s.releasePage k) := by
  unfold State.releasePage
  dsimp only
  split
  · exact ⟨rfl⟩
  · exact ⟨rfl⟩

theorem State.rollPage_pagesOnly (s : State) (e : Nat × Pte) : PagesOnly s (s.rollPage e) := by
  unfold State.rollPage
  split
  · exact s.releasePage_pagesOnly _
  · exact ⟨rfl⟩

theorem State.rollbackStream_pagesOnly (s : State) (i : Nat) : PagesOnly s (s.rollbackStream i) :=
  State.each_rel .refl (fun _ _ _ => .trans) State.rollPage_pagesOnly s _

theorem State.rollPage_pte (s : State) (e : Nat × Pte) :
    ((s.rollPage e).pte e.1).staged = [] ∧ ∀ key, key ≠ e.1 → (s.rollPage e).pte key = s.pte key := by
  unfold State.rollPage
  split
  · simp only [State.releasePage_pte]
    exact ⟨by rw [if_pos trivial]; rfl, fun key hkey => if_neg hkey⟩
  · simp only [State.pte_setPte]
    exact ⟨by rw [if_pos trivial], fun key hkey => if_neg hkey⟩

/-- A rolled back stream has no staged slot, and the pages of others stand (R225). -/
theorem State.rollbackStream_pte (s : State) (i : Nat) :
    (∀ key, keyStream key = i → ((s.rollbackStream i).pte key).staged = []) ∧
      ∀ key, keyStream key ≠ i → (s.rollbackStream i).pte key = s.pte key := by
  refine ⟨fun key hkey => ?_, fun key hkey => ?_⟩
  · have hkeep (t : State) (e : Nat × Pte) (ht : (t.pte key).staged = []) : ((t.rollPage e).pte key).staged = [] := by
      obtain ⟨hsame, hother⟩ := t.rollPage_pte e
      by_cases he : key = e.1
      · rw [he]
        exact hsame
      · rw [hother key he]
        exact ht
    by_cases hmem : ∃ e ∈ s.streamPtes i, e.1 = key
    · obtain ⟨e, he, rfl⟩ := hmem
      exact State.each_holds (P := fun t => (t.pte e.1).staged = []) he (fun t => (t.rollPage_pte e).1) hkeep s
    · have hnone := State.pte_of_not_mem hkey fun e he h => hmem ⟨e, he, h⟩
      refine State.each_rel (R := fun s t => (s.pte key).staged = [] → (t.pte key).staged = []) (fun _ => id)
        (fun _ _ _ h h' => h' ∘ h) hkeep s _ ?_
      rw [hnone]
      rfl
  · refine State.each_rel_mem (R := fun s t => t.pte key = s.pte key) (fun _ => rfl) (fun _ _ _ h h' => h'.trans h) _ (fun t e he => ?_) s
    refine (t.rollPage_pte e).2 key ?_
    rintro rfl
    exact hkey (State.mem_streamPtes.1 he).2

theorem Pte.commit_none (page count : Nat) : Pte.none.commit page count = Pte.none := rfl

theorem Pte.commit_commit (p : Pte) (page count : Nat) : (p.commit page count).commit page count = p.commit page count := by
  unfold Pte.commit
  simp only [List.filter_filter, Bool.and_self, Bool.and_assoc]

/-- One page of a stream commits. -/
def State.commitPage (count : Nat) (s : State) (e : Nat × Pte) : State := s.setPte e.1 ((s.pte e.1).commit (keyPage e.1) count)

theorem State.commitPage_pte (count : Nat) (s : State) (e : Nat × Pte) (key : Nat) :
    (s.commitPage count e).pte key = if key = e.1 then (s.pte key).commit (keyPage key) count else s.pte key := by
  rw [State.commitPage, State.pte_setPte]
  split
  · next h => rw [h]
  · rfl

theorem State.each_commitPage_pte (count : Nat) (l : List (Nat × Pte)) (s : State) (key : Nat) :
    (s.each l (State.commitPage count)).pte key =
      if ∃ e ∈ l, e.1 = key then (s.pte key).commit (keyPage key) count else s.pte key := by
  induction l generalizing s with
  | nil => simp [State.each]
  | cons e l ih =>
    have hstep := s.commitPage_pte count e key
    refine (ih (s.commitPage count e)).trans ?_
    rw [hstep]
    by_cases he : key = e.1
    · have hsome : ∃ x ∈ e :: l, x.1 = key := ⟨e, List.mem_cons_self, he.symm⟩
      rw [if_pos he, if_pos hsome, Pte.commit_commit, ite_self]
    · have hiff : (∃ x ∈ e :: l, x.1 = key) ↔ ∃ x ∈ l, x.1 = key := by
        simp only [List.mem_cons, exists_eq_or_imp]
        exact or_iff_right fun h => he h.symm
      rw [if_neg he]
      simp only [hiff]

/-- What a commit leaves before the committed count advances: the pages committed, and the slots on their way to the mirror partner. -/
def State.commitPages (s : State) (i count : Nat) : State :=
  let t := s.mirrorSlots i (s.stream i).committed count
  t.each (t.streamPtes i) (State.commitPage count)

theorem State.commitStream_eq (s : State) (i count : Nat) :
    s.commitStream i count = (s.commitPages i count).updStream i fun t => { t with committed := max t.committed count } := rfl

/-- Nothing moved but page entries and what goes to the mirror partner. -/
structure CommitOnly (s t : State) : Prop where
  frame : { t with kv := { t.kv with ptes := s.kv.ptes }, wnd := { t.wnd with mirrorTx := s.wnd.mirrorTx } } = s

theorem CommitOnly.trans {s t u : State} (h : CommitOnly s t) (h' : CommitOnly t u) : CommitOnly s u :=
  ⟨(congrArg (fun x : State => ({ x with kv := { x.kv with ptes := s.kv.ptes }, wnd := { x.wnd with mirrorTx := s.wnd.mirrorTx } } : State))
    h'.frame :).trans h.frame⟩

theorem State.mirrorSlots_commitOnly (s : State) (i start count : Nat) : CommitOnly s (s.mirrorSlots i start count) := by
  unfold State.mirrorSlots
  split
  · exact ⟨rfl⟩
  · exact ⟨rfl⟩

theorem State.mirrorSlots_kv (s : State) (i start count : Nat) : (s.mirrorSlots i start count).kv = s.kv := by
  unfold State.mirrorSlots
  split <;> rfl

theorem State.commitPages_commitOnly (s : State) (i count : Nat) : CommitOnly s (s.commitPages i count) :=
  (s.mirrorSlots_commitOnly ..).trans (State.each_rel (fun _ => ⟨rfl⟩) (fun _ _ _ => .trans) (fun _ _ => ⟨rfl⟩) _ _)

/-- A stream's pages are committed up to a count, and no other page changes (R225). -/
theorem State.commitPages_pte (s : State) (i count key : Nat) :
    (s.commitPages i count).pte key = if keyStream key = i then (s.pte key).commit (keyPage key) count else s.pte key := by
  have hkv := s.mirrorSlots_kv i (s.stream i).committed count
  have hpte : (s.mirrorSlots i (s.stream i).committed count).pte key = s.pte key := by rw [State.pte, hkv, State.pte]
  have hptes : (s.mirrorSlots i (s.stream i).committed count).streamPtes i = s.streamPtes i := by rw [State.streamPtes, hkv, State.streamPtes]
  rw [State.commitPages]
  rw [State.each_commitPage_pte, hpte, hptes]
  by_cases hkey : keyStream key = i
  · rw [if_pos hkey]
    split
    · rfl
    · next hno =>
      rw [State.pte_of_not_mem hkey fun e he h => hno ⟨e, he, h⟩]
      rfl
  · rw [if_neg hkey]
    refine if_neg ?_
    rintro ⟨e, he, rfl⟩
    exact hkey (State.mem_streamPtes.1 he).2

/-! ### A stream's work discarded, and its retry (R175, R192, R280) -/

/-- A machine with the cores, the stopes, the networks, the pages and the ready steps of another. -/
def State.withWorkOf (s x : State) : State :=
  { x with cores := s.cores, stopes := s.stopes, noc := s.noc, kv := { x.kv with ptes := s.kv.ptes, refs := s.kv.refs },
           wnd := { x.wnd with ready := s.wnd.ready } }

/-- Nothing moved but the cores, the stopes, the networks, the pages, and which steps are ready. -/
structure WorkDropped (s t : State) : Prop where
  frame : s.withWorkOf t = s

namespace WorkDropped
variable {s t u : State}

theorem refl (s : State) : WorkDropped s s := ⟨rfl⟩

theorem trans (h : WorkDropped s t) (h' : WorkDropped t u) : WorkDropped s u := ⟨(congrArg s.withWorkOf h'.frame :).trans h.frame⟩

theorem stream (h : WorkDropped s t) (j : Nat) : t.stream j = s.stream j := (congrArg (fun x : State => x.stream j) h.frame :)
theorem decisions (h : WorkDropped s t) : t.wnd.decisions = s.wnd.decisions := (congrArg (fun x : State => x.wnd.decisions) h.frame :)
theorem told (h : WorkDropped s t) : t.wnd.told = s.wnd.told := (congrArg (fun x : State => x.wnd.told) h.frame :)
theorem isIngress (h : WorkDropped s t) : t.isIngress = s.isIngress := (congrArg State.isIngress h.frame :)
theorem regs (h : WorkDropped s t) : t.regs = s.regs := (congrArg State.regs h.frame :)
theorem posting (h : WorkDropped s t) : t.posting = s.posting := (congrArg State.posting h.frame :)
theorem now (h : WorkDropped s t) : t.now = s.now := (congrArg State.now h.frame :)

theorem of_coreHeldOnly {c : Nat} (h : CoreHeldOnly c s t) : WorkDropped s t :=
  ⟨(congrArg s.withWorkOf h.frame :)⟩

theorem of_pagesOnly (h : PagesOnly s t) : WorkDropped s t := ⟨(congrArg s.withWorkOf h.frame :)⟩

theorem of_cores (h : { t with cores := s.cores } = s) : WorkDropped s t := ⟨(congrArg s.withWorkOf h :)⟩

end WorkDropped

/-- What no core's and no stope's work moves is as it was when a stream's work ends on all of them. -/
theorem State.dropStreamAll_field {α : Type} (π : State → α) (hcore : ∀ s c x, CoreHeldOnly c s x → π x = π s)
    (hstope : ∀ (s : State) i f, π (s.updStope i f) = π s) (s : State) (i : Nat) : π (s.dropStreamAll i) = π s := by
  unfold State.dropStreamAll
  dsimp only
  refine (State.each_field (π := π) (fun t k => hstope t k _) _ _).trans ?_
  exact State.each_field (π := π) (fun t c => hcore t c _ (t.dropStreamCore_coreHeldOnly c i)) s _

theorem State.dropStreamAll_workDropped (s : State) (i : Nat) : WorkDropped s (s.dropStreamAll i) := by
  unfold State.dropStreamAll
  dsimp only
  refine WorkDropped.trans ?_ (State.each_rel .refl (fun _ _ _ => .trans) (fun _ _ => ⟨rfl⟩) _ _)
  exact State.each_rel .refl (fun _ _ _ => .trans) (fun t c => .of_coreHeldOnly (t.dropStreamCore_coreHeldOnly c i)) s _

theorem State.dropStreamAll_kv (s : State) (i : Nat) : (s.dropStreamAll i).kv = s.kv :=
  State.dropStreamAll_field State.kv (fun _ _ _ h => (congrArg State.kv h.frame :)) (fun _ _ _ => rfl) s i

theorem State.dropStreamAll_ready (s : State) (i : Nat) : (s.dropStreamAll i).wnd.ready = s.wnd.ready :=
  State.dropStreamAll_field (·.wnd.ready) (fun _ _ _ h => (congrArg (fun x : State => x.wnd.ready) h.frame :)) (fun _ _ _ => rfl) s i

theorem State.sendCancel_workDropped (s : State) (i : Nat) : WorkDropped s (s.sendCancel i) := by
  unfold State.sendCancel
  dsimp only
  have hfirst : WorkDropped s { s with wnd := { s.wnd with ready := s.wnd.ready.filter fun r => r.stream != some i } } := ⟨rfl⟩
  have hsend (t : State) (m : CtlMsg) : WorkDropped t (t.send m) := ⟨rfl⟩
  exact hfirst.trans ((hsend _ _).trans (State.each_rel .refl (fun _ _ _ => .trans) (fun t _ => hsend t _) _ _))

theorem State.sendCancel_kv (s : State) (i : Nat) : (s.sendCancel i).kv = s.kv := by
  unfold State.sendCancel
  dsimp only
  refine (State.each_field (π := State.kv) (fun _ _ => ?_) _ _).trans ?_
  · rfl
  · rfl

/-- A CANCEL leaves none of the stream's steps ready, and is on its way (R280). -/
theorem State.sendCancel_sent (s : State) (i : Nat) :
    (s.sendCancel i).wnd.ready = s.wnd.ready.filter (fun r => r.stream != some i) ∧
      ∃ m ∈ (s.sendCancel i).noc.ctl, m.typ = 4 ∧ m.arg0 = BitVec.ofNat 32 i := by
  unfold State.sendCancel
  dsimp only
  refine ⟨(State.each_field (π := (·.wnd.ready)) (fun _ _ => ?_) _ _).trans ?_, ?_⟩
  · rfl
  · rfl
  refine ⟨_, State.each_rel (R := fun s t => ∀ m ∈ s.noc.ctl, m ∈ t.noc.ctl) (fun _ _ h => h) (fun _ _ _ h h' m hm => h' m (h m hm))
    (fun _ _ _ hm => List.mem_append_left _ hm) _ _ _ (List.mem_append_right _ List.mem_cons_self), rfl, rfl⟩

/-- A fold that moves nothing but cores. -/
theorem State.each_coresOnly {α : Type} {f : State → α → State} (s : State) (hf : ∀ s a, { f s a with cores := s.cores } = s) (l : List α) :
    { s.each l f with cores := s.cores } = s :=
  State.each_rel (R := fun s t => { t with cores := s.cores } = s) (fun _ => rfl)
    (fun s _ _ h h' => (congrArg (fun x : State => { x with cores := s.cores }) h' :).trans h) hf s l

/-- A core that forgets that a step of a stream faulted. -/
def Core.forgives (i : Nat) (t : Core) : Core := { t with faulted := t.faulted.filter fun j => j != i }

/-- Every core forgets a stream's fault. -/
theorem State.each_forgives (s : State) (i c : Nat) :
    i ∉ ((s.each (s.cores.map (·.1)) fun s c => s.updCore c (Core.forgives i)).core c).faulted := by
  have hforgiven (t : Core) : i ∉ (t.forgives i).faulted := fun h => by simpa using (List.mem_filter.1 h).2
  have hkeep (t : State) (d : Nat) (ht : i ∉ (t.core c).faulted) : i ∉ ((t.updCore d (Core.forgives i)).core c).faulted := by
    by_cases hd : c = d
    · rw [hd, State.core_updCore_same]
      exact hforgiven _
    · rw [State.core_updCore_other _ _ hd]
      exact ht
  by_cases hmem : c ∈ s.cores.map (·.1)
  · refine State.each_holds (P := fun t => i ∉ (t.core c).faulted) hmem (fun t => ?_) hkeep s
    rw [State.core_updCore_same]
    exact hforgiven _
  · refine State.each_rel (R := fun s t => i ∉ (s.core c).faulted → i ∉ (t.core c).faulted) (fun _ => id) (fun _ _ _ h h' => h' ∘ h) hkeep s _ ?_
    have hreset : s.core c = Core.reset := by
      by_contra hne
      exact hmem (List.mem_map.2 ⟨_, Table.mem_of_get hne, rfl⟩)
    rw [hreset]
    exact List.not_mem_nil

theorem State.discardWork_eq (s : State) (i : Nat) :
    s.discardWork i =
      (((s.dropStreamAll i).rollbackStream i).sendCancel i).each ((((s.dropStreamAll i).rollbackStream i).sendCancel i).cores.map (·.1))
        fun s c => s.updCore c (Core.forgives i) := rfl

/-- What becomes of a stream's discarded work: nothing of it is ready, no core holds its fault, its CANCEL is on its way, and no slot of it is
staged. -/
structure Discarded (s t : State) (i : Nat) : Prop where
  dropped : WorkDropped s t
  ready : t.wnd.ready = s.wnd.ready.filter fun r => r.stream != some i
  faulted : ∀ c, i ∉ (t.core c).faulted
  ctl : ∃ m ∈ t.noc.ctl, m.typ = 4 ∧ m.arg0 = BitVec.ofNat 32 i
  staged : ∀ key, keyStream key = i → (t.pte key).staged = []
  others : ∀ key, keyStream key ≠ i → t.pte key = s.pte key

theorem State.discardWork_discarded (s : State) (i : Nat) : Discarded s (s.discardWork i) i := by
  have hrolled : WorkDropped s ((s.dropStreamAll i).rollbackStream i) :=
    (s.dropStreamAll_workDropped i).trans (.of_pagesOnly (State.rollbackStream_pagesOnly ..))
  have hready : ((s.dropStreamAll i).rollbackStream i).wnd.ready = s.wnd.ready :=
    (congrArg (fun x : State => x.wnd.ready) ((s.dropStreamAll i).rollbackStream_pagesOnly i).frame :).trans (s.dropStreamAll_ready i)
  obtain ⟨hstaged, hothers⟩ := (s.dropStreamAll i).rollbackStream_pte i
  have hpte (key : Nat) : (s.dropStreamAll i).pte key = s.pte key := by rw [State.pte, State.dropStreamAll_kv, State.pte]
  rw [State.discardWork_eq]
  generalize (s.dropStreamAll i).rollbackStream i = r at *
  obtain ⟨hsentready, hsentctl⟩ := r.sendCancel_sent i
  have hkv := r.sendCancel_kv i
  have hsent := hrolled.trans (r.sendCancel_workDropped i)
  generalize r.sendCancel i = u at *
  have hforgiven := u.each_forgives i
  have hforget : { (u.each (u.cores.map (·.1)) fun s c => s.updCore c (Core.forgives i)) with cores := u.cores } = u :=
    u.each_coresOnly (f := fun s c => s.updCore c (Core.forgives i)) (fun _ _ => rfl) _
  generalize (u.each (u.cores.map (·.1)) fun s c => s.updCore c (Core.forgives i)) = t at *
  have htkv : t.kv = r.kv := (congrArg State.kv hforget :).trans hkv
  have htpte (key : Nat) : t.pte key = r.pte key := by rw [State.pte, htkv, State.pte]
  refine ⟨hsent.trans (.of_cores hforget), ?_, hforgiven, ?_, fun key hkey => ?_, fun key hkey => ?_⟩
  · rw [← hready, ← hsentready]
    exact (congrArg (fun x : State => x.wnd.ready) hforget :)
  · obtain ⟨m, hm, hm'⟩ := hsentctl
    exact ⟨m, (congrArg (fun x : State => x.noc.ctl) hforget :) ▸ hm, hm'⟩
  · rw [htpte, hstaged key hkey]
  · rw [htpte, hothers key hkey, hpte]

end Sys2Proof.Machine

namespace Sys2Proof.Machine

/-! ### The retry of a token (R175) -/

theorem Discarded.congr {s t u : State} {i : Nat} (h : Discarded s t i) (hready : u.wnd.ready = t.wnd.ready) (hcores : u.cores = t.cores)
    (hnoc : u.noc = t.noc) (hkv : u.kv = t.kv) :
    (∀ r ∈ u.wnd.ready, r.stream ≠ some i) ∧ (∀ c, i ∉ (u.core c).faulted) ∧ (∃ m ∈ u.noc.ctl, m.typ = 4 ∧ m.arg0 = BitVec.ofNat 32 i) ∧
      (∀ key, keyStream key = i → (u.pte key).staged = []) ∧ ∀ key, keyStream key ≠ i → u.pte key = s.pte key := by
  refine ⟨fun r hr => ?_, fun c => ?_, ?_, fun key hkey => ?_, fun key hkey => ?_⟩
  · rw [hready, h.ready] at hr
    simpa using (List.mem_filter.1 hr).2
  · rw [State.core, hcores]
    exact h.faulted c
  · rw [hnoc]
    exact h.ctl
  · rw [State.pte, hkv]
    exact h.staged key hkey
  · rw [State.pte, hkv]
    exact h.others key hkey

theorem exec_tokenRetry {s : State} {i : Nat} {told : Bool}
    (h : s.hasFaulted i = true ∨ (told = true ∧ s.isIngress = true ∧ (s.stream i).flying.isSome = true)) :
    exec (.tokenRetry ⟨i, told⟩) s = .next (s.retryStream i) := by
  refine congrArg Host.Outcome.next (if_pos ?_)
  rcases h with h | ⟨h, h', h''⟩
  · simp [h]
  · simp [h, h', h'']

theorem tokenRetry_restarts (s : State) (i : Nat) (told : Bool)
    (hfault : s.hasFaulted i = true ∨ (told = true ∧ s.isIngress = true ∧ (s.stream i).flying.isSome = true)) :
    Gives (.tokenRetry ⟨i, told⟩) s fun t =>
      (∀ fl, s.isIngress = true → (s.stream i).flying = some fl →
        t.stream i = { s.stream i with flying := some { fl with sampled := none, retried := true }, maskWait := false, smpHold := false } ∧
        t.wnd.decisions = s.wnd.decisions ++ [.retry i] ∧ t.wnd.told = s.wnd.told) ∧
      (s.isIngress = true → (s.stream i).flying = none → t.stream i = s.stream i ∧ t.wnd.decisions = s.wnd.decisions ∧ t.wnd.told = s.wnd.told) ∧
      (s.isIngress = false → t.stream i = s.stream i ∧ t.wnd.decisions = s.wnd.decisions ∧ t.wnd.told = s.wnd.told ++ [.faulted i]) ∧
      (∀ j, j ≠ i → t.stream j = s.stream j) ∧ (∀ r ∈ t.wnd.ready, r.stream ≠ some i) ∧ (∀ c, i ∉ (t.core c).faulted) ∧
      (∃ m ∈ t.noc.ctl, m.typ = 4 ∧ m.arg0 = BitVec.ofNat 32 i) ∧
      (∀ key, keyStream key = i → (t.pte key).staged = []) ∧ (∀ key, keyStream key ≠ i → t.pte key = s.pte key) := by
  refine ⟨_, exec_tokenRetry hfault, ?_⟩
  have hdiscarded := s.discardWork_discarded i
  have hstream := hdiscarded.dropped.stream
  have hdecisions := hdiscarded.dropped.decisions
  have htold := hdiscarded.dropped.told
  rw [State.retryStream_eq, hdiscarded.dropped.isIngress, hstream i]
  generalize s.discardWork i = d at *
  cases hin : s.isIngress with
  | false =>
    rw [if_pos (by rfl)]
    exact ⟨nofun, nofun, fun _ => ⟨hstream i, hdecisions, congrArg (fun l => l ++ [Told.faulted i]) htold⟩, fun j _ => hstream j,
      hdiscarded.congr rfl rfl rfl rfl⟩
  | true =>
    rw [if_neg (by simp)]
    cases hfl : (s.stream i).flying with
    | none =>
      exact ⟨nofun, fun _ _ => ⟨hstream i, hdecisions, htold⟩, nofun, fun j _ => hstream j, hdiscarded.congr rfl rfl rfl rfl⟩
    | some fl =>
      refine ⟨fun fl' _ hfl' => ?_, nofun, nofun, fun j hj => (State.stream_updStream_other _ _ hj).trans (hstream j),
        hdiscarded.congr rfl rfl rfl rfl⟩
      obtain rfl : fl = fl' := Option.some.inj hfl'
      refine ⟨?_, congrArg (fun l => l ++ [Decision.retry i]) hdecisions, htold⟩
      show (d.updStream i (Stream.restarted fl)).stream i = _
      rw [State.stream_updStream_same, hstream]
      rfl

theorem tokenRetry_stays (s : State) (i : Nat) (told : Bool) (hfault : s.hasFaulted i = false)
    (h : told = false ∨ s.isIngress = false ∨ (s.stream i).flying = none) : exec (.tokenRetry ⟨i, told⟩) s = .next s := by
  refine congrArg Host.Outcome.next (if_neg ?_)
  rcases h with h | h | h <;> simp [hfault, h]

end Sys2Proof.Machine

namespace Sys2Proof.Machine

/-! ### What a token boundary keeps (R250): a stream's token stays away, its pages stay as staged, its commits stand -/

/-- The count of excluded tokens is as it was, a stream without a token in flight stays without one, its pages without staged slots stay
so, and what went to the other modules stands. -/
structure Settled (s t : State) (i : Nat) : Prop where
  counted : t.rd smpMaskEmptyCount = s.rd smpMaskEmptyCount
  grounded : (s.stream i).flying = none → (t.stream i).flying = none
  unstaged : (∀ key, keyStream key = i → (s.pte key).staged = []) → ∀ key, keyStream key = i → (t.pte key).staged = []
  decisions : s.wnd.decisions <+: t.wnd.decisions

/-- So also the committed count, which does not fall. -/
structure Onward (s t : State) (i : Nat) : Prop extends Settled s t i where
  committed : (s.stream i).committed ≤ (t.stream i).committed

theorem Settled.trans {s t u : State} {i : Nat} (h : Settled s t i) (h' : Settled t u i) : Settled s u i :=
  ⟨h'.counted.trans h.counted, h'.grounded ∘ h.grounded, h'.unstaged ∘ h.unstaged, h.decisions.trans h'.decisions⟩

namespace Onward
variable {s t u : State} {i : Nat}

theorem trans (h : Onward s t i) (h' : Onward t u i) : Onward s u i := ⟨h.toSettled.trans h'.toSettled, h.committed.trans h'.committed⟩

/-- Where nothing of it moved. -/
theorem of_same (hrd : t.rd smpMaskEmptyCount = s.rd smpMaskEmptyCount) (hstream : t.stream i = s.stream i) (hptes : t.kv.ptes = s.kv.ptes)
    (hdecisions : t.wnd.decisions = s.wnd.decisions) : Onward s t i := by
  have hpte (key : Nat) : t.pte key = s.pte key := by rw [State.pte, hptes, State.pte]
  exact ⟨⟨hrd, fun h => hstream ▸ h, fun h key hkey => hpte key ▸ h key hkey, hdecisions ▸ List.prefix_rfl⟩, hstream ▸ le_refl _⟩

theorem refl (s : State) : Onward s s i := of_same rfl rfl rfl rfl

theorem of_unposted (h : t.unposted = s.unposted) : Onward s t i :=
  of_same (field_of_unposted h (·.rd smpMaskEmptyCount) fun _ => rfl) (field_of_unposted h (·.stream i) fun _ => rfl)
    (field_of_unposted h (·.kv.ptes) fun _ => rfl) (field_of_unposted h (·.wnd.decisions) fun _ => rfl)

theorem announce (s : State) (d : Decision) : Onward s (s.announce d) i :=
  ⟨⟨rfl, id, id, List.prefix_append _ _⟩, le_refl _⟩

theorem updStream {f : Stream → Stream} (hflying : ∀ x : Stream, x.flying = none → (f x).flying = none)
    (hcommitted : ∀ x : Stream, x.committed ≤ (f x).committed) : Onward s (s.updStream i f) i := by
  have hstream : (s.updStream i f).stream i = f (s.stream i) := State.stream_updStream_same ..
  exact ⟨⟨State.updStream_rd .., fun h => (congrArg Stream.flying hstream).trans (hflying _ h), id, List.prefix_rfl⟩,
    (hcommitted _).trans_eq (congrArg Stream.committed hstream).symm⟩

theorem wr {o : Nat} (ho : smpMaskEmptyCount ≠ o) (v : Word) : Onward s (s.wr o v) i := of_same (s.rd_wr_other v ho) rfl rfl rfl

theorem inc64 {o : Nat} (ho : smpMaskEmptyCount ≠ o) (ho4 : smpMaskEmptyCount ≠ o + 4) (n : Nat) : Onward s (s.inc64 o n) i :=
  of_same (s.rd_inc64_other n ho ho4) (s.inc64_stream ..) (congrArg (fun k => k.ptes) (s.inc64_kv o n) :)
    (congrArg (fun w => w.decisions) (s.inc64_wnd o n) :)

theorem setPte {key : Nat} {p : Pte} (hp : p.staged = []) : Onward s (s.setPte key p) i := by
  refine ⟨⟨rfl, id, fun h k hk => ?_, List.prefix_rfl⟩, le_refl _⟩
  rw [State.pte_setPte]
  split
  · exact hp
  · exact h k hk

theorem of_coresTouched (h : CoresTouched s t) : Onward s t i :=
  of_same (congrArg (fun x : State => x.rd smpMaskEmptyCount) h.rest :) (congrArg (fun x : State => x.stream i) h.rest :)
    (congrArg (fun x : State => x.kv.ptes) h.rest :) (congrArg (fun x : State => x.wnd.decisions) h.rest :)

theorem each {α : Type} {f : State → α → State} (hf : ∀ s a, Onward s (f s a) i) (s : State) (l : List α) : Onward s (s.each l f) i :=
  State.each_rel (R := fun s t => Onward s t i) .refl (fun _ _ _ => trans) hf s l

end Onward

section
variable (i : Nat)

theorem State.streamEvent_onward (s : State) (stream typ flags code : Nat) (tag data : DWord) :
    Onward s (s.streamEvent stream typ flags code tag data) i := .of_unposted (s.streamEvent_unposted ..)

/-! ### A match with the nodes of the tree (R232) -/

theorem State.allocFail_onward (s : State) : Onward s s.allocFail i :=
  (Onward.wr (o := kvpAllocFailCount) (by decide) _).trans (.wr (o := kvpLastRefuse) (by decide) _)

theorem State.takeCopy_onward (s : State) (region k : Nat) (pref : Nat × Nat) : Onward s (s.takeCopy region k pref).2 i := by
  unfold State.takeCopy
  dsimp only
  split
  · exact .of_same rfl rfl rfl rfl
  · exact s.allocFail_onward i

theorem State.putFrame_onward (s : State) (k f : Nat) (bs : List Byte) : Onward s (s.putFrame k f bs) i := by
  have hwritten : Onward s ((s.wrMem (elemAddr k f) (bs.take 0x8000)).wrMem (scaleAddr k f) (bs.drop 0x8000)) i := .of_same rfl rfl rfl rfl
  exact hwritten.trans ((Onward.of_coresTouched (State.overwritten_coresTouched ..)).trans (.of_coresTouched (State.overwritten_coresTouched ..)))

theorem stackCmdCountLo_ne (k : Nat) : smpMaskEmptyCount ≠ stackCmdCountLo k ∧ smpMaskEmptyCount ≠ stackCmdCountLo k + 4 := by
  have hpage : stackCmdCountLo k = 0x40120 + k * 0x1000 := by
    unfold stackCmdCountLo stackPage
    omega
  have hcount : smpMaskEmptyCount = 0xB11C := rfl
  omega

theorem State.issueCopy_onward (s : State) (k src dst : Nat) : Onward s (s.issueCopy k src dst) i :=
  (s.putFrame_onward i ..).trans (.inc64 (stackCmdCountLo_ne k).1 (stackCmdCountLo_ne k).2 1)

theorem State.shareFrame_onward (s : State) (region key k f : Nat) : Onward s (s.shareFrame region key k f).2 i := by
  unfold State.shareFrame
  split
  · exact .of_same rfl rfl rfl rfl
  · have hcopy := s.takeCopy_onward i region k (s.preferred (keyLayer key) (keyHead key) (keyPage key))
    split
    · next h =>
      rw [h] at hcopy
      exact (hcopy.trans (State.issueCopy_onward i ..)).trans (.inc64 (by decide) (by decide) 1)
    · next h =>
      rw [h] at hcopy
      exact hcopy

theorem foldl_onward {α β : Type} {f : β × State → α → β × State} (hf : ∀ acc a, Onward acc.2 (f acc a).2 i) (l : List α) (acc : β × State) :
    Onward acc.2 (l.foldl f acc).2 i := by
  induction l generalizing acc with
  | nil => exact .refl _
  | cons a l ih => exact (hf acc a).trans (ih (f acc a))

theorem State.holdFrames_onward (s : State) (stream : Nat) (x : Node) : Onward s (s.holdFrames stream x).2 i := by
  refine foldl_onward i (fun acc fr => ?_) x.frames (true, s)
  dsimp only
  generalize pteKey stream (fr.1 / 8) (fr.1 % 8) x.depth = key
  generalize (s.stream stream).region = region
  have hshare := acc.2.shareFrame_onward i region key (fr.2 / 0x200000) (fr.2 % 0x200000)
  generalize acc.2.shareFrame region key (fr.2 / 0x200000) (fr.2 % 0x200000) = r at hshare ⊢
  obtain ⟨held, t⟩ := r
  cases held with
  | none => exact hshare
  | some k => exact hshare.trans (.setPte rfl)

theorem State.updNode_onward (s : State) (n : Nat) (f : Node → Node) : Onward s (s.updNode n f) i := by
  unfold State.updNode
  split
  · unfold State.putNode
    dsimp only
    split
    · exact .of_same rfl rfl rfl rfl
    · exact .of_same rfl rfl rfl rfl
  · exact .refl s

theorem State.mirrorSlots_onward (s : State) (stream start count : Nat) : Onward s (s.mirrorSlots stream start count) i := by
  unfold State.mirrorSlots
  split
  · exact .of_same rfl rfl rfl rfl
  · exact .refl s

theorem State.commitMatched_onward (s : State) (n : Nat) (tokens : List Nat) : Onward s (s.commitMatched i n tokens) i := by
  unfold State.commitMatched
  exact (s.mirrorSlots_onward i ..).trans (.updStream (fun _ h => h) fun _ => Nat.le_add_right _ _)

theorem State.holdNode_onward {s t : State} {n : Nat} {x : Node} (h : s.holdNode i n x = some t) : Onward s t i := by
  have hframes := s.holdFrames_onward i i x
  unfold State.holdNode at h
  split at h
  · next hheld =>
    rw [hheld] at hframes
    obtain rfl := Option.some.inj h
    exact (hframes.trans (State.updNode_onward i ..)).trans (State.commitMatched_onward ..)
  · cases h

theorem State.holdNodes_onward (ns : List Nat) (s : State) : Onward s (s.holdNodes i ns).2 i := by
  induction ns generalizing s with
  | nil => exact .refl s
  | cons n ns ih =>
    rw [State.holdNodes]
    split
    · next t h =>
      obtain ⟨x, -, hx⟩ := Option.bind_eq_some_iff.1 h
      exact (State.holdNode_onward i hx).trans (ih t)
    · exact .refl s

end

end Sys2Proof.Machine

namespace Sys2Proof.Machine

/-! ### The work list and what waits for a boundary (R249, R250) -/

/-- A stream that changes in neither its token in flight nor its committed count. -/
theorem Onward.updStays {s : State} {i : Nat} {f : Stream → Stream} (hf : ∀ x : Stream, (f x).flying = x.flying ∧ (f x).committed = x.committed) :
    Onward s (s.updStream i f) i := .updStream (fun x h => (hf x).1.trans h) fun x => (hf x).2.ge

section
variable (i : Nat)

theorem State.matchPrefix_onward (s : State) (tokens : List Nat) (pin : Bool) : Onward s (s.matchPrefix i tokens pin).2 i := by
  unfold State.matchPrefix
  extract_lets stream gen before held
  split
  · exact .refl s
  · next h blocks _ =>
    generalize s.walk gen true blocks (held.getLast?.getD noNode) h = found
    obtain ⟨ns, c⟩ := found
    have hheld := State.holdNodes_onward i ns s
    dsimp -zeta only
    generalize s.holdNodes i ns = r at hheld ⊢
    obtain ⟨ms, t⟩ := r
    dsimp -zeta only
    extract_lets u v w x
    have hu : Onward s u i := by
      refine Onward.trans hheld ?_
      simp only [u]
      split
      · exact .refl t
      · exact (Onward.announce t _).trans (.updStays (by intro _; exact ⟨rfl, rfl⟩))
    have hv : Onward u v i := by
      simp only [v]
      split
      · exact .each (fun s n => s.updNode_onward i n _) u ms
      · exact .refl u
    have hw : Onward v w i :=
      (Onward.inc64 (o := pfxHitBlocksLo) (by decide) (by decide) ms.length).trans (.wr (o := pfxCollisionCount) (by decide) _)
    have hx : Onward w x i := by
      simp only [x]
      split
      · exact .inc64 (by decide) (by decide) 1
      · exact .refl w
    exact hu.trans (hv.trans (hw.trans hx))

theorem State.appendNow_onward (s : State) (tokens : List Nat) (noMatch pin : Bool) : Onward s (s.appendNow i tokens noMatch pin) i := by
  have hmatched : Onward s (if noMatch then (tokens, s) else s.matchPrefix i tokens pin).2 i := by
    split
    · exact .refl s
    · exact s.matchPrefix_onward i tokens pin
  unfold State.appendNow
  exact hmatched.trans (.updStays (by intro _; exact ⟨rfl, rfl⟩))

theorem State.endItem_onward (s : State) (reason : Nat) : Onward s (s.endItem i reason) i := by
  unfold State.endItem State.streamDone
  exact (Onward.updStays (by intro _; exact ⟨rfl, rfl⟩)).trans (State.streamEvent_onward ..)

theorem State.workOn_onward (fuel : Nat) (s : State) : Onward s (s.workOn i fuel) i := by
  induction fuel generalizing s with
  | zero => exact .refl s
  | succ fuel ih =>
    rw [State.workOn]
    extract_lets active
    split
    · exact .refl s
    · split
      · exact .updStays (by intro _; exact ⟨rfl, rfl⟩)
      · split
        · exact .updStays (by intro _; exact ⟨rfl, rfl⟩)
        · exact ((Onward.updStays (by intro _; exact ⟨rfl, rfl⟩)).trans (State.appendNow_onward ..)).trans (ih _)
      · next b tag _ _ =>
        extract_lets u
        have hactive : Onward s active i := .updStays (by intro _; exact ⟨rfl, rfl⟩)
        have hu : Onward s u i := by
          simp only [u]
          split
          · exact hactive
          · exact hactive.trans (.updStays (by intro _; exact ⟨rfl, rfl⟩))
        split
        · exact (hu.trans (State.endItem_onward ..)).trans (ih _)
        · exact hu

theorem State.pauseNow_onward (s : State) : Onward s (s.pauseNow i) i :=
  (Onward.updStays (by intro _; exact ⟨rfl, rfl⟩)).trans (.announce _ _)

theorem State.refusedEvent_onward (s : State) (r code : Nat) (tag data : DWord) : Onward s (s.refusedEvent r code tag data) i := by
  unfold State.refusedEvent
  split
  · exact .of_unposted (State.post_unposted ..)
  · exact s.streamEvent_onward ..

theorem State.startPark_onward (s : State) (target : Nat) (tag : DWord) : Onward s (s.startPark i target tag) i := by
  unfold State.startPark
  split
  · refine (State.refusedEvent_onward i s i rCapacity tag 9).trans ?_
    unfold State.parkRefused
    split
    · exact .of_same rfl rfl rfl rfl
    · exact .refl _
  · next place _ =>
    have hbudget : Onward s (if place = 0 then s else { s with swap := { s.swap with parkUsed := s.swap.parkUsed ++ [(s.now, s.parkVolume i)] } }) i := by
      split
      · exact .refl s
      · exact .of_same rfl rfl rfl rfl
    unfold State.parkHere
    exact (hbudget.trans (.updStays (by intro _; exact ⟨rfl, rfl⟩))).trans (.announce _ _)

theorem State.sendMaps_onward (s : State) : Onward s (s.sendMaps i) i := by
  unfold State.sendMaps
  extract_lets due t
  split
  · exact .refl s
  · have hsent : Onward s t i := .each (fun s p => .announce s _) s due
    exact hsent.trans (.of_same rfl rfl rfl rfl)

/-- A stream's maps that go out move nothing but the decisions and the maps. -/
theorem State.sendMaps_frame (s : State) :
    { s.sendMaps i with kv := { (s.sendMaps i).kv with pending := s.kv.pending },
                        wnd := { (s.sendMaps i).wnd with decisions := s.wnd.decisions } } = s := by
  suffices h : ∀ u, s.sendMaps i = u →
      { u with kv := { u.kv with pending := s.kv.pending }, wnd := { u.wnd with decisions := s.wnd.decisions } } = s from h _ rfl
  intro u hu
  unfold State.sendMaps at hu
  extract_lets due t at hu
  split at hu
  · rw [← hu]
  · have ht : { t with wnd := { t.wnd with decisions := s.wnd.decisions } } = s :=
      State.each_rel (R := fun s t => ({ t with wnd := { t.wnd with decisions := s.wnd.decisions } } : State) = s)
        (f := fun s p => s.announce (.posmap i p.map p.free)) (fun _ => rfl)
        (fun s _ _ h h' => (congrArg (fun x : State => ({ x with wnd := { x.wnd with decisions := s.wnd.decisions } } : State)) h' :).trans h)
        (fun _ _ => rfl) s due
    rw [← hu]
    exact (congrArg (fun x : State => ({ x with kv := { x.kv with pending := s.kv.pending } } : State)) ht :)

theorem State.sendMaps_stream (s : State) (j : Nat) : (s.sendMaps i).stream j = s.stream j :=
  (congrArg (fun x : State => x.stream j) (s.sendMaps_frame i) :)

theorem State.rollbackStream_onward (s : State) : Onward s (s.rollbackStream i) i := by
  have hpages := s.rollbackStream_pagesOnly i
  have hstream : (s.rollbackStream i).stream i = s.stream i := (congrArg (fun x : State => x.stream i) hpages.frame :)
  exact ⟨⟨(congrArg (fun x : State => x.rd smpMaskEmptyCount) hpages.frame :), fun h => hstream ▸ h, fun _ => (s.rollbackStream_pte i).1,
    (congrArg (fun x : State => x.wnd.decisions) hpages.frame :) ▸ List.prefix_rfl⟩, hstream ▸ le_refl _⟩

theorem State.releasePage_onward (s : State) (key : Nat) : Onward s (s.releasePage key) i := by
  have hpages := s.releasePage_pagesOnly key
  have hstream : (s.releasePage key).stream i = s.stream i := (congrArg (fun x : State => x.stream i) hpages.frame :)
  refine ⟨⟨(congrArg (fun x : State => x.rd smpMaskEmptyCount) hpages.frame :), fun h => hstream ▸ h, fun h k hk => ?_,
    (congrArg (fun x : State => x.wnd.decisions) hpages.frame :) ▸ List.prefix_rfl⟩, hstream ▸ le_refl _⟩
  rw [State.releasePage_pte]
  split
  · rfl
  · exact h k hk

theorem State.dropHolds_onward (s : State) : Onward s (s.dropHolds i) i := by
  unfold State.dropHolds
  extract_lets t x u v
  have hu : Onward t u i := .each (fun s (e : Nat × Pte) => s.releasePage_onward i e.1) t _
  have hv : Onward u v i := .each (fun s n => s.updNode_onward i n _) u _
  exact ((s.rollbackStream_onward i).trans (hu.trans hv)).trans (.of_same rfl rfl rfl rfl)

theorem State.closeNow_settled (s : State) (tag : DWord) : Settled s (s.closeNow i tag) i := by
  have hdone : Onward s ((s.dropHolds i).streamDone i doneClosed tag) i := (s.dropHolds_onward i).trans (State.streamEvent_onward ..)
  refine hdone.toSettled.trans ?_
  unfold State.closeNow
  generalize (s.dropHolds i).streamDone i doneClosed tag = t
  have hfree : ((t.freeContext i).stream i).flying = none := congrArg Stream.flying (State.stream_setStream_same ..)
  exact ⟨rfl, fun _ => hfree, id, List.prefix_append _ _⟩

/-- A boundary of a stream that is not to be closed, once its maps have gone out. -/
def State.boundaryOpen (s : State) (t : Stream) : State :=
  let s := if t.wantPause && t.state == .active then s.pauseNow i else s
  let s := s.updStream i fun t => { t with wantPause := false, wantPark := none }
  match t.wantPark with
  | some (target, tag) => (s.startPark i target tag).workOn i workFuel
  | none => s.workOn i workFuel

theorem State.boundary_open {s : State} (h : (s.stream i).wantClose = none) : s.boundary i = (s.sendMaps i).boundaryOpen i (s.stream i) := by
  rw [← s.sendMaps_stream i i] at h ⊢
  unfold State.boundary
  extract_lets t x
  rw [h]
  rfl

theorem State.boundary_close {s : State} {tag : DWord} (h : (s.stream i).wantClose = some tag) : s.boundary i = (s.sendMaps i).closeNow i tag := by
  rw [← s.sendMaps_stream i i] at h
  unfold State.boundary
  extract_lets t x
  rw [h]

theorem State.boundaryOpen_onward (s : State) (x : Stream) : Onward s (s.boundaryOpen i x) i := by
  unfold State.boundaryOpen
  extract_lets t u
  have ht : Onward s t i := by
    simp only [t]
    split
    · exact s.pauseNow_onward i
    · exact .refl s
  have hu : Onward s u i := ht.trans (.updStays (by intro _; exact ⟨rfl, rfl⟩))
  split
  · exact (hu.trans (u.startPark_onward ..)).trans (State.workOn_onward ..)
  · exact hu.trans (State.workOn_onward ..)

theorem State.boundary_onward {s : State} (h : (s.stream i).wantClose = none) : Onward s (s.boundary i) i := by
  rw [State.boundary_open i h]
  exact (s.sendMaps_onward i).trans (State.boundaryOpen_onward ..)

theorem State.boundary_settled (s : State) : Settled s (s.boundary i) i := by
  cases h : (s.stream i).wantClose with
  | none => exact (State.boundary_onward i h).toSettled
  | some tag =>
    rw [State.boundary_close i h]
    exact (s.sendMaps_onward i).toSettled.trans (State.closeNow_settled ..)

end

end Sys2Proof.Machine

namespace Sys2Proof.Machine

/-! ### A boundary at which nothing waits (R250) -/

/-- A stream with a PAUSE and a PARK that wait as given. -/
def Stream.asking (pause : Bool) (park : Option (Nat × DWord)) (x : Stream) : Stream := { x with wantPause := pause, wantPark := park }

/-- A stream with neither PAUSE nor PARK waiting. -/
def Stream.calm : Stream → Stream := Stream.asking false none

theorem Stream.calm_of {x : Stream} (hpause : x.wantPause = false) (hpark : x.wantPark = none) : x.calm = x := by
  have hsame : Stream.asking x.wantPause x.wantPark x = x := rfl
  rw [hpause, hpark] at hsame
  exact hsame

/-- A stream in a given state. -/
def Stream.inState (st : StreamState) (x : Stream) : Stream := { x with state := st }

/-- A stream at whose boundary nothing waits: ACTIVE, no token in flight, nothing to be closed, paused, parked or cancelled. -/
structure Stream.Ready (x : Stream) : Prop where
  state : x.state = .active
  flying : x.flying = none
  wantClose : x.wantClose = none
  wantPause : x.wantPause = false
  wantPark : x.wantPark = none
  cancelTag : x.cancelTag = none

section
variable {s : State} {i : Nat}

theorem State.boundary_ready (h : (s.stream i).Ready) : s.boundary i = ((s.sendMaps i).updStream i Stream.calm).workOn i workFuel := by
  rw [State.boundary_open i h.wantClose, State.boundaryOpen, h.wantPause, h.wantPark]
  rfl

/-- A ready stream does not work while its events find the module's hold full (R264). -/
theorem State.workOn_ready (h : (s.stream i).Ready) :
    (!((s.stream i).state == .idle || (s.stream i).state == .active) || (s.stream i).flying.isSome || (s.stream i).cancelTag.isSome ||
      s.evrBlocked (s.stream i).ringEvr) = s.evrBlocked (s.stream i).ringEvr := by
  rw [h.state, h.flying, h.cancelTag]
  rfl

theorem State.workOn_idle (n : Nat) (h : (s.stream i).Ready) (hwork : (s.stream i).work = []) :
    s.workOn i (n + 1) = if s.evrBlocked (s.stream i).ringEvr then s else s.updStream i (Stream.inState .idle) := by
  rw [State.workOn]
  dsimp only
  rw [State.workOn_ready h, hwork]
  rfl

theorem State.workOn_generating (n : Nat) (h : (s.stream i).Ready) {b : Nat} {g : DWord} {rest : List Work}
    (hwork : (s.stream i).work = .generate b g :: rest) (hgenerating : (s.stream i).generating = true) (hitem : (s.stream i).emptyItem = none) :
    s.workOn i (n + 1) = if s.evrBlocked (s.stream i).ringEvr then s else s.updStream i (Stream.inState .active) := by
  have hactive : (s.updStream i (Stream.inState .active)).stream i = (s.stream i).inState .active := State.stream_updStream_same ..
  have hempty : ((s.updStream i (Stream.inState .active)).stream i).emptyItem = none := by
    rw [hactive]
    exact hitem
  rw [State.workOn]
  dsimp only
  rw [State.workOn_ready h, hwork, hgenerating]
  dsimp only
  rw [if_pos rfl]
  split
  · rfl
  · show (match ((s.updStream i (Stream.inState .active)).stream i).emptyItem with
      | some reason => ((s.updStream i (Stream.inState .active)).endItem i reason).workOn i n
      | none => s.updStream i (Stream.inState .active)) = _
    rw [hempty]

/-- Nothing moved but streams, the maps that wait, and what goes to the other modules. -/
structure BoundaryOnly (s t : State) (i : Nat) : Prop where
  others : ∀ j, j ≠ i → t.stream j = s.stream j
  frame : { t with kv := { t.kv with pending := s.kv.pending },
                   wnd := { t.wnd with streams := s.wnd.streams, decisions := s.wnd.decisions } } = s

theorem BoundaryOnly.posting {t : State} (h : BoundaryOnly s t i) : t.posting = s.posting := (congrArg State.posting h.frame :)

theorem State.sendMaps_boundaryOnly (s : State) (i : Nat) : BoundaryOnly s (s.sendMaps i) i :=
  ⟨fun j _ => s.sendMaps_stream i j,
    (congrArg (fun x : State => ({ x with wnd := { x.wnd with streams := s.wnd.streams } } : State)) (s.sendMaps_frame i) :)⟩

theorem BoundaryOnly.updStream {t : State} (h : BoundaryOnly s t i) (f : Stream → Stream) : BoundaryOnly s (t.updStream i f) i :=
  ⟨fun j hj => (State.stream_updStream_other _ f hj).trans (h.others j hj), h.frame⟩

/-- A boundary at which nothing waits leaves a stream with an empty list IDLE, unless its events find the module's hold full (R249, R250, R264). -/
theorem State.boundary_idle (h : (s.stream i).Ready) (hwork : (s.stream i).work = []) :
    (s.boundary i).stream i = (s.stream i).inState (if s.evrBlocked (s.stream i).ringEvr then .active else .idle) ∧
      BoundaryOnly s (s.boundary i) i := by
  have hmaps := (s.sendMaps_boundaryOnly i).updStream Stream.calm
  have hstream : ((s.sendMaps i).updStream i Stream.calm).stream i = s.stream i := by
    rw [State.stream_updStream_same, State.sendMaps_stream, Stream.calm_of h.wantPause h.wantPark]
  have hblocked := State.evrBlocked_of_posting hmaps.posting (s.stream i).ringEvr
  rw [State.boundary_ready h, workFuel]
  generalize (s.sendMaps i).updStream i Stream.calm = u at *
  rw [State.workOn_idle 19 (hstream ▸ h) (hstream ▸ hwork), hstream, hblocked]
  split
  · rw [← h.state]
    exact ⟨hstream, hmaps⟩
  · refine ⟨?_, hmaps.updStream _⟩
    rw [State.stream_updStream_same, hstream]

end

/-! ### An acknowledged CANCEL (R280) -/

/-- A stream whose CANCEL has been acknowledged. -/
def Stream.cancelled (x : Stream) : Stream := { x with cancelTag := none }

theorem cancelAck_settles (s : State) (i : Nat) (tag : DWord) (htag : (s.stream i).cancelTag = some tag) (hacked : s.cancelFlying i = false)
    (hstate : (s.stream i).state = .active) (hwork : (s.stream i).work = []) (hflying : (s.stream i).flying = none)
    (hclose : (s.stream i).wantClose = none) (hpause : (s.stream i).wantPause = false) (hpark : (s.stream i).wantPark = none) :
    Gives (.cancelAck i) s fun t =>
      t.stream i = { s.stream i with cancelTag := none, state := if t.evrBlocked (s.stream i).ringEvr then .active else .idle } ∧
      Posted s t (s.stream i).ringEvr { typ := 2, flags := 0, code := 2, stream := i, time := s.now, tag := tag,
                                        data := BitVec.ofNat 64 (s.stream i).committed } ∧
      (∀ key, keyStream key = i → (t.pte key).staged = []) ∧ ∀ j, j ≠ i → t.stream j = s.stream j := by
  have hexec : exec (.cancelAck i) s = .next ((((s.rollbackStream i).updStream i Stream.cancelled).streamDone i doneCancelled tag).boundary i) := by
    show execCancelAck i s = _
    unfold execCancelAck
    rw [htag]
    exact congrArg Host.Outcome.next (if_neg (by simp [hacked]))
  have hpages := s.rollbackStream_pagesOnly i
  have hrolled (j : Nat) : (s.rollbackStream i).stream j = s.stream j := (congrArg (fun x : State => x.stream j) hpages.frame :)
  have hposting : (s.rollbackStream i).posting = s.posting := (congrArg State.posting hpages.frame :)
  have hnow : (s.rollbackStream i).now = s.now := (congrArg State.now hpages.frame :)
  have hunstaged := (s.rollbackStream_pte i).1
  refine ⟨_, hexec, ?_⟩
  clear hexec hpages
  generalize s.rollbackStream i = r at *
  have hmine : (r.updStream i Stream.cancelled).stream i = (s.stream i).cancelled := by rw [State.stream_updStream_same, hrolled]
  have hother (j : Nat) (hj : j ≠ i) : (r.updStream i Stream.cancelled).stream j = s.stream j :=
    (State.stream_updStream_other _ _ hj).trans (hrolled j)
  have hposted : Posted s ((r.updStream i Stream.cancelled).streamDone i doneCancelled tag) (s.stream i).ringEvr
      { typ := 2, flags := 0, code := 2, stream := i, time := s.now, tag := tag, data := BitVec.ofNat 64 (s.stream i).committed } := by
    have h := (r.updStream i Stream.cancelled).streamEvent_posted i evStreamDone 0 doneCancelled tag
      (BitVec.ofNat 64 ((r.updStream i Stream.cancelled).stream i).committed)
    rw [hmine, State.updStream_now, hnow] at h
    have h' := h.of_posting (s' := s) hposting.symm rfl
    rw [State.streamDone, hmine]
    exact h'
  have hstream (j : Nat) : ((r.updStream i Stream.cancelled).streamDone i doneCancelled tag).stream j = (r.updStream i Stream.cancelled).stream j :=
    State.streamEvent_stream ..
  have hkv : ((r.updStream i Stream.cancelled).streamDone i doneCancelled tag).kv = r.kv := State.streamEvent_kv ..
  generalize (r.updStream i Stream.cancelled).streamDone i doneCancelled tag = d at *
  have hdi : d.stream i = (s.stream i).cancelled := (hstream i).trans hmine
  have hready : (d.stream i).Ready := by
    rw [hdi]
    exact ⟨hstate, hflying, hclose, hpause, hpark, rfl⟩
  obtain ⟨hend, honly⟩ := State.boundary_idle hready (by rw [hdi]; exact hwork)
  refine ⟨?_, hposted.of_posting rfl honly.posting, (State.boundary_settled i d).unstaged fun key hkey => ?_, fun j hj => ?_⟩
  · rw [hend, hdi, State.evrBlocked_of_posting honly.posting]
    rfl
  · rw [State.pte, hkv]
    exact hunstaged key hkey
  · rw [honly.others j hj, hstream, hother j hj]

theorem cancelAck_waits (s : State) (i : Nat) (h : (s.stream i).cancelTag = none ∨ s.cancelFlying i = true) : exec (.cancelAck i) s = .next s := by
  show execCancelAck i s = _
  unfold execCancelAck
  cases htag : (s.stream i).cancelTag with
  | none => rfl
  | some tag => exact congrArg Host.Outcome.next (if_pos (h.resolve_left (by simp [htag])))

/-! ### A token whose candidates are all excluded (R286) -/

/-- A stream whose token has gone, with its sampling. -/
def Stream.untokened (x : Stream) : Stream := { x with flying := none, smpNow := none }

/-- A stream whose item in progress has ended. -/
def Stream.itemEnded (x : Stream) : Stream := { x with work := x.work.drop 1, generating := false, budget := 0 }

theorem State.endItem_eq (s : State) (i reason : Nat) :
    s.endItem i reason = (s.updStream i Stream.itemEnded).streamDone i reason (s.stream i).genTag := rfl

theorem State.endItem_stream (s : State) (i reason : Nat) : (s.endItem i reason).stream i = (s.stream i).itemEnded := by
  rw [State.endItem_eq, State.streamDone, State.streamEvent_stream, State.stream_updStream_same]

/-- An item's end is recorded in the stream's ring (R262). -/
theorem State.endItem_posted (s : State) (i reason : Nat) :
    Posted s (s.endItem i reason) (s.stream i).ringEvr
      { typ := 2, flags := 0, code := reason, stream := i, time := s.now, tag := (s.stream i).genTag,
        data := BitVec.ofNat 64 (s.stream i).committed } := by
  have hmine : (s.updStream i Stream.itemEnded).stream i = (s.stream i).itemEnded := State.stream_updStream_same ..
  have hposted := (s.updStream i Stream.itemEnded).streamEvent_posted i evStreamDone 0 reason (s.stream i).genTag
    (BitVec.ofNat 64 ((s.updStream i Stream.itemEnded).stream i).committed)
  rw [State.endItem_eq, State.streamDone]
  generalize State.streamEvent _ i evStreamDone 0 reason (s.stream i).genTag _ = d at *
  rw [hmine] at hposted
  exact hposted.of_posting rfl rfl

/-- The machine with a stream's token rolled back and gone. -/
def State.untoken (s : State) (i : Nat) : State := ((s.dropStreamAll i).rollbackStream i).updStream i Stream.untokened

theorem State.maskEmpty_eq (s : State) (i : Nat) : s.maskEmpty i = ((s.untoken i).endItem i doneMaskEmpty).boundary i := rfl

theorem State.untoken_spec (s : State) (i : Nat) :
    (s.untoken i).stream i = (s.stream i).untokened ∧ (s.untoken i).posting = s.posting ∧ (s.untoken i).now = s.now ∧
      (s.untoken i).rd smpMaskEmptyCount = s.rd smpMaskEmptyCount ∧ ∀ key, keyStream key = i → ((s.untoken i).pte key).staged = [] := by
  have hdropped : WorkDropped s ((s.dropStreamAll i).rollbackStream i) :=
    (s.dropStreamAll_workDropped i).trans (.of_pagesOnly (State.rollbackStream_pagesOnly ..))
  refine ⟨?_, hdropped.posting, hdropped.now, ?_, fun key hkey => ((s.dropStreamAll i).rollbackStream_pte i).1 key hkey⟩
  · rw [State.untoken, State.stream_updStream_same, hdropped.stream]
  · rw [State.untoken, State.updStream_rd, State.rd, hdropped.regs, State.rd]

/-- A token that rolls back leaves its stream without one, and without staged slots; its count stands. -/
theorem State.maskEmpty_spec (s : State) (i : Nat) :
    (s.maskEmpty i).rd smpMaskEmptyCount = s.rd smpMaskEmptyCount ∧ ((s.maskEmpty i).stream i).flying = none ∧
      ∀ key, keyStream key = i → ((s.maskEmpty i).pte key).staged = [] := by
  obtain ⟨hstream, -, -, hrd, hunstaged⟩ := s.untoken_spec i
  have hsettled : Settled (s.untoken i) (s.maskEmpty i) i :=
    (State.endItem_onward i (s.untoken i) doneMaskEmpty).toSettled.trans (State.boundary_settled ..)
  exact ⟨hsettled.counted.trans hrd, hsettled.grounded (congrArg Stream.flying hstream), hsettled.unstaged hunstaged⟩

/-- The only item of a stream ends with MASK_EMPTY and its record (R262, R286). -/
theorem State.maskEmpty_ends {s : State} {i : Nat} {w : Work} (hstate : (s.stream i).state = .active) (hwork : (s.stream i).work = [w])
    (hclose : (s.stream i).wantClose = none) (hpause : (s.stream i).wantPause = false) (hpark : (s.stream i).wantPark = none)
    (hcancel : (s.stream i).cancelTag = none) :
    Posted s (s.maskEmpty i) (s.stream i).ringEvr
        { typ := 2, flags := 0, code := 5, stream := i, time := s.now, tag := (s.stream i).genTag, data := BitVec.ofNat 64 (s.stream i).committed } ∧
      ((s.maskEmpty i).stream i).work = [] := by
  obtain ⟨hstream, hposting, hnow, -, -⟩ := s.untoken_spec i
  have hend := (s.untoken i).endItem_stream i doneMaskEmpty
  have hposted := (s.untoken i).endItem_posted i doneMaskEmpty
  rw [State.maskEmpty_eq]
  rw [hstream, hnow] at hposted
  rw [hstream] at hend
  generalize s.untoken i = u at *
  have hposted' := hposted.of_posting (s' := s) hposting.symm rfl
  generalize u.endItem i doneMaskEmpty = d at *
  have hempty : (d.stream i).work = [] := by
    rw [hend]
    show (s.stream i).work.drop 1 = []
    rw [hwork]
    rfl
  have hready : (d.stream i).Ready := by
    rw [hend]
    exact ⟨hstate, rfl, hclose, hpause, hpark, hcancel⟩
  obtain ⟨hidle, honly⟩ := State.boundary_idle hready hempty
  refine ⟨hposted'.of_posting rfl honly.posting, ?_⟩
  rw [hidle]
  exact hempty

end Sys2Proof.Machine

namespace Sys2Proof.Machine

/-! ### The sampling of a token (R284 to R286) -/

/-- A stream whose sampling holds, or goes on. -/
def Stream.holdingSample (hold : Bool) (x : Stream) : Stream := { x with smpHold := hold }

/-- A stream with a token in flight as given. -/
def Stream.withFlying (fl : Option Flying) (x : Stream) : Stream := { x with flying := fl }

theorem Stream.withFlying_same {x : Stream} {fl : Option Flying} (h : x.flying = fl) : x.withFlying fl = x := by
  subst h
  rfl

/-- A stream whose token's sampling has begun. -/
def Stream.sampling (x : Stream) : Stream := x.beginSampling.holdingSample false

/-- A stream with the masks and the sampling of another. -/
def Stream.withSampling (x y : Stream) : Stream :=
  { y with maskMode := x.maskMode, mask := x.mask, waitMasks := x.waitMasks, smpNow := x.smpNow, maskWait := x.maskWait, smpHold := x.smpHold }

theorem Stream.useMask_frame (x : Stream) : x.withSampling x.useMask = x := by
  unfold Stream.useMask
  split
  · rfl
  · split <;> rfl

theorem Stream.beginSampling_frame (x : Stream) : x.withSampling x.beginSampling = x := by
  unfold Stream.beginSampling
  split
  · rfl
  · split
    · exact (congrArg x.withSampling x.useMask_frame :)
    · rfl

/-- Sampling moves masks and settings alone (R283, R286). -/
theorem Stream.sampling_frame (x : Stream) : x.withSampling x.sampling = x := x.beginSampling_frame

theorem Stream.sampling_flying (x : Stream) : x.sampling.flying = x.flying := (congrArg Stream.flying x.sampling_frame :)

/-- What the sampling of a stream's token leaves of the stream as it was. -/
theorem Stream.sampling_kept (x : Stream) :
    x.sampling.state = x.state ∧ x.sampling.work = x.work ∧ x.sampling.wantClose = x.wantClose ∧ x.sampling.wantPause = x.wantPause ∧
      x.sampling.wantPark = x.wantPark ∧ x.sampling.cancelTag = x.cancelTag ∧ x.sampling.ringEvr = x.ringEvr ∧ x.sampling.genTag = x.genTag ∧
      x.sampling.committed = x.committed := by
  have hframe := x.sampling_frame
  exact ⟨(congrArg Stream.state hframe :), (congrArg Stream.work hframe :), (congrArg Stream.wantClose hframe :), (congrArg Stream.wantPause hframe :),
    (congrArg Stream.wantPark hframe :), (congrArg Stream.cancelTag hframe :), (congrArg Stream.ringEvr hframe :), (congrArg Stream.genTag hframe :),
    (congrArg Stream.committed hframe :)⟩

/-- The machine whose sampler has picked a stream's token with some settings: counted (R284). -/
def State.picked (s : State) (i : Nat) (z : SmpNow) : State :=
  let t := (s.setStream i (s.stream i).sampling).inc64 smpSampledLo 1
  if isZero z.sampler.temp then t.inc smpGreedyCount 1 else t

section
variable {s : State} {i : Nat}

theorem State.sampleToken_held (n : Nat) (slices : List SliceCands) (hoff : bit (s.rd smpCtrl) 0 = false) :
    s.sampleToken i n slices = (none, s.updStream i (Stream.holdingSample true)) := by
  rw [State.sampleToken, hoff]
  rfl

/-- With the sampler enabled, a stream's token is picked once its settings are fixed. -/
theorem State.sampleToken_on (n : Nat) (slices : List SliceCands) (hon : bit (s.rd smpCtrl) 0 = true) :
    s.sampleToken i n slices =
      match (s.stream i).beginSampling.smpNow with
      | none => (none, s.setStream i (s.stream i).sampling)
      | some z => match z.pick s.vocab n slices with
        | none => (some none, (s.setStream i (s.stream i).sampling).inc smpMaskEmptyCount 1)
        | some v => (some (some ((s.stream i).beginSampling.sampledAs z v)), s.picked i z) := by
  rw [State.sampleToken, hon]
  rfl

theorem State.sampleToken_waits (n : Nat) (slices : List SliceCands) (hon : bit (s.rd smpCtrl) 0 = true)
    (hnow : (s.stream i).beginSampling.smpNow = none) : s.sampleToken i n slices = (none, s.setStream i (s.stream i).sampling) := by
  rw [State.sampleToken_on n slices hon, hnow]

theorem State.sampleToken_empty {n : Nat} {slices : List SliceCands} {z : SmpNow} (hon : bit (s.rd smpCtrl) 0 = true)
    (hnow : (s.stream i).beginSampling.smpNow = some z) (hpick : z.pick s.vocab n slices = none) :
    s.sampleToken i n slices = (some none, (s.setStream i (s.stream i).sampling).inc smpMaskEmptyCount 1) := by
  rw [State.sampleToken_on n slices hon, hnow]
  dsimp only
  rw [hpick]

theorem State.sampleToken_picks {n v : Nat} {slices : List SliceCands} {z : SmpNow} (hon : bit (s.rd smpCtrl) 0 = true)
    (hnow : (s.stream i).beginSampling.smpNow = some z) (hpick : z.pick s.vocab n slices = some v) :
    s.sampleToken i n slices = (some (some ((s.stream i).beginSampling.sampledAs z v)), s.picked i z) := by
  rw [State.sampleToken_on n slices hon, hnow]
  dsimp only
  rw [hpick]

/-- What a pick moves: the stream's sampling and the counts (R284). -/
theorem State.picked_spec (s : State) (i : Nat) (z : SmpNow) :
    (s.picked i z).stream i = (s.stream i).sampling ∧ (s.picked i z).rd64 smpSampledLo = (s.rd64 smpSampledLo + 1) % 2 ^ 64 ∧
      (s.picked i z).rd smpGreedyCount = s.rd smpGreedyCount + (if isZero z.sampler.temp then 1 else 0) ∧
      RegsKept s (s.picked i z) [smpSampledLo, smpSampledLo + 4, smpGreedyCount] ∧ (∀ j, j ≠ i → (s.picked i z).stream j = s.stream j) ∧
      { s.picked i z with regs := s.regs, wnd := { (s.picked i z).wnd with streams := s.wnd.streams } } = s := by
  have hmine : ((s.setStream i (s.stream i).sampling).inc64 smpSampledLo 1).stream i = (s.stream i).sampling :=
    (State.inc64_stream ..).trans (State.stream_setStream_same ..)
  have hothers (j : Nat) (hj : j ≠ i) : ((s.setStream i (s.stream i).sampling).inc64 smpSampledLo 1).stream j = s.stream j :=
    (State.inc64_stream ..).trans (State.stream_setStream_other _ _ hj)
  have hcount : ((s.setStream i (s.stream i).sampling).inc64 smpSampledLo 1).rd64 smpSampledLo = (s.rd64 smpSampledLo + 1) % 2 ^ 64 :=
    State.rd64_inc64 ..
  have hregs (o : Nat) (ho : o ≠ smpSampledLo ∧ o ≠ smpSampledLo + 4) :
      ((s.setStream i (s.stream i).sampling).inc64 smpSampledLo 1).rd o = s.rd o := State.rd_inc64_other _ _ ho.1 ho.2
  have hframe : { (s.setStream i (s.stream i).sampling).inc64 smpSampledLo 1 with
      regs := s.regs, wnd := { ((s.setStream i (s.stream i).sampling).inc64 smpSampledLo 1).wnd with streams := s.wnd.streams } } = s :=
    (congrArg (fun x : State => ({ x with wnd := { x.wnd with streams := s.wnd.streams } } : State))
      ((s.setStream i (s.stream i).sampling).inc64_with_regs smpSampledLo 1 s.regs) :)
  unfold State.picked
  dsimp only
  generalize (s.setStream i (s.stream i).sampling).inc64 smpSampledLo 1 = t at *
  split
  · have hkept (o : Nat) (ho : o ≠ smpGreedyCount) : (t.inc smpGreedyCount 1).rd o = t.rd o := t.rd_inc_other 1 ho
    refine ⟨(State.inc_stream ..).trans hmine, ?_, ?_, fun o ho => ?_, fun j hj => (State.inc_stream ..).trans (hothers j hj), hframe⟩
    · rw [State.rd64, hkept _ (by decide), hkept _ (by decide)]
      exact hcount
    · rw [State.rd_inc_same, hregs _ (by decide)]
      rfl
    · simp only [List.mem_cons, List.not_mem_nil, or_false, not_or] at ho
      rw [hkept o ho.2.2, hregs o ⟨ho.1, ho.2.1⟩]
  · refine ⟨hmine, hcount, ?_, fun o ho => ?_, hothers, hframe⟩
    · rw [hregs _ (by decide)]
      simp
    · simp only [List.mem_cons, List.not_mem_nil, or_false, not_or] at ho
      exact hregs o ⟨ho.1, ho.2.1⟩

/-- Where a stream's token is sampled: at the ingress module with its token in flight, or at a sampler module apart for a slot (R247). -/
def State.SamplesHere (s : State) (i slot n : Nat) (fl : Option Flying) : Prop :=
  (s.isIngress = true ∧ ∃ f, fl = some f ∧ f.samples = true ∧ f.sampled = none ∧ n = f.slot + f.prefill) ∨
    (s.isIngress = false ∧ (s.stream i).state ≠ .free ∧ n = slot)

/-- What a sample becomes: at the ingress module the token's, elsewhere told. -/
def State.sampleEnds (s : State) (i slot : Nat) (fl : Option Flying) : Option (Option SampledTok) × State → State
  | (none, t) => t
  | (some none, t) => if s.isIngress then t.maskEmpty i else (t.updStream i fun x => { x with smpNow := none }).tell (.token i slot none)
  | (some (some k), t) =>
    if s.isIngress then t.updStream i (Stream.withFlying (fl.map fun f => { f with sampled := some k }))
    else (if k.stop || k.seq then t.inc smpStopCount 1 else t).tell (.token i slot (some k))

theorem exec_tokenSample {slot n : Nat} {slices : List SliceCands} {fl : Option Flying} (hsampler : s.isSampler = true)
    (hfl : (s.stream i).flying = fl) (h : s.SamplesHere i slot n fl) :
    exec (.tokenSample i ⟨slot, slices⟩) s = .next (s.sampleEnds i slot fl (s.sampleToken i n slices)) := by
  show execTokenSample i ⟨slot, slices⟩ s = _
  unfold execTokenSample
  dsimp only
  rw [hsampler]
  rcases h with ⟨hin, f, rfl, hsamples, hsampled, rfl⟩ | ⟨hin, hstate, rfl⟩
  · have hgoes : (!f.samples || f.sampled.isSome) = false := by rw [hsamples, hsampled]; rfl
    rw [hin, hfl]
    dsimp only
    rw [hgoes, if_neg (by decide : ¬ (!true) = true), if_pos rfl, if_neg Bool.false_ne_true]
    generalize s.sampleToken i (f.slot + f.prefill) slices = r
    obtain ⟨_ | _ | k, t⟩ := r
    · rfl
    · exact congrArg Host.Outcome.next (if_pos hin).symm
    · exact congrArg Host.Outcome.next (if_pos hin).symm
  · have hno : s.isIngress ≠ true := by simp [hin]
    rw [hin, if_neg (by simp), if_neg Bool.false_ne_true, if_neg hstate]
    generalize s.sampleToken i n slices = r
    obtain ⟨_ | _ | k, t⟩ := r
    · rfl
    · exact congrArg Host.Outcome.next (if_neg hno).symm
    · exact congrArg Host.Outcome.next (if_neg hno).symm

theorem tokenSample_samples (s : State) (i slot n : Nat) (slices : List SliceCands) (fl : Option Flying) (hsampler : s.isSampler = true)
    (hfl : (s.stream i).flying = fl)
    (hhere : (s.isIngress = true ∧ ∃ f, fl = some f ∧ f.samples = true ∧ f.sampled = none ∧ n = f.slot + f.prefill) ∨
      (s.isIngress = false ∧ (s.stream i).state ≠ .free ∧ n = slot)) :
    (let x := s.stream i
     let y := { x.beginSampling with smpHold := false }
     (bit (s.rd smpCtrl) 0 = false → Gives (.tokenSample i ⟨slot, slices⟩) s fun t => t.stream i = { x with smpHold := true } ∧ StreamOnly s t i) ∧
     (bit (s.rd smpCtrl) 0 = true → x.beginSampling.smpNow = none →
       Gives (.tokenSample i ⟨slot, slices⟩) s fun t => t.stream i = y ∧ StreamOnly s t i) ∧
     (∀ z v, bit (s.rd smpCtrl) 0 = true → x.beginSampling.smpNow = some z → z.pick s.vocab n slices = some v →
       (let k := x.beginSampling.sampledAs z v
        Gives (.tokenSample i ⟨slot, slices⟩) s fun t =>
          t.stream i = { y with flying := if s.isIngress then fl.map fun f => { f with sampled := some k } else x.flying } ∧
          t.wnd.told = s.wnd.told ++ (if s.isIngress then [] else [.token i slot (some k)]) ∧
          t.rd64 smpSampledLo = (s.rd64 smpSampledLo + 1) % 2 ^ 64 ∧
          t.rd smpGreedyCount = s.rd smpGreedyCount + (if isZero z.sampler.temp then 1 else 0) ∧
          t.rd smpStopCount = s.rd smpStopCount + (if s.isIngress = false ∧ (k.stop = true ∨ k.seq = true) then 1 else 0) ∧
          RegsKept s t [smpSampledLo, smpSampledLo + 4, smpGreedyCount, smpStopCount] ∧
          StreamOnly s { t with regs := s.regs, wnd := { t.wnd with told := s.wnd.told } } i)) ∧
     (∀ z, bit (s.rd smpCtrl) 0 = true → x.beginSampling.smpNow = some z → z.pick s.vocab n slices = none →
       Gives (.tokenSample i ⟨slot, slices⟩) s fun t =>
         t.rd smpMaskEmptyCount = s.rd smpMaskEmptyCount + 1 ∧
         (s.isIngress = false → t.stream i = { y with smpNow := none } ∧ t.wnd.told = s.wnd.told ++ [.token i slot none] ∧
           RegsKept s t [smpMaskEmptyCount]) ∧
         (s.isIngress = true → (t.stream i).flying = none ∧ ∀ key, keyStream key = i → (t.pte key).staged = []) ∧
         (∀ b g, s.isIngress = true → x.state = .active → x.work = [.generate b g] → x.wantClose = none → x.wantPause = false →
           x.wantPark = none → x.cancelTag = none →
           Posted s t x.ringEvr { typ := 2, flags := 0, code := 5, stream := i, time := s.now, tag := x.genTag,
                                  data := BitVec.ofNat 64 x.committed } ∧ (t.stream i).work = []))) := by
  intro x y
  have hexec := exec_tokenSample (slices := slices) hsampler hfl hhere
  refine ⟨fun hoff => ?held, fun hon hnow => ?waits, fun z v hon hnow hpick => ?picks, fun z hon hnow hpick => ?empty⟩
  case held =>
    rw [State.sampleToken_held n slices hoff] at hexec
    exact ⟨_, hexec, State.stream_updStream_same .., StreamOnly.updStream ..⟩
  case waits =>
    rw [State.sampleToken_waits n slices hon hnow] at hexec
    exact ⟨_, hexec, State.stream_setStream_same .., StreamOnly.setStream ..⟩
  case picks =>
    rw [State.sampleToken_picks hon hnow hpick] at hexec
    obtain ⟨hstream, hcount, hgreedy, hregs, hothers, hframe⟩ := s.picked_spec i z
    have htold : (s.picked i z).wnd.told = s.wnd.told := (congrArg (fun x : State => x.wnd.told) hframe :)
    have hframe' : ({ s.picked i z with regs := s.regs, wnd := { (s.picked i z).wnd with streams := s.wnd.streams, told := s.wnd.told } } : State) = s :=
      (congrArg (fun x : State => ({ x with wnd := { x.wnd with told := s.wnd.told } } : State)) hframe :)
    have hstop : (s.picked i z).rd smpStopCount = s.rd smpStopCount := hregs _ (by decide)
    generalize s.picked i z = p at *
    intro k
    have hkept : RegsKept s p [smpSampledLo, smpSampledLo + 4, smpGreedyCount, smpStopCount] := hregs.mono (by simp)
    refine ⟨_, hexec, ?_⟩
    rcases Bool.eq_false_or_eq_true s.isIngress with hin | hin
    · have hend : s.sampleEnds i slot fl (some (some k), p) = p.updStream i (Stream.withFlying (fl.map fun f => { f with sampled := some k })) :=
        if_pos hin
      have honly := StreamOnly.updStream p i (Stream.withFlying (fl.map fun f => { f with sampled := some k }))
      rw [hend, hin]
      refine ⟨?_, htold.trans (List.append_nil _).symm, hcount, hgreedy, ?_, hkept, fun j hj => (honly.1 j hj).trans (hothers j hj), ?_⟩
      · rw [State.stream_updStream_same, hstream]
        rfl
      · rw [State.updStream_rd, hstop]
        simp
      · exact hframe'
    · have hend : s.sampleEnds i slot fl (some (some k), p) =
          (if k.stop || k.seq then p.inc smpStopCount 1 else p).tell (.token i slot (some k)) := if_neg (by simp [hin])
      have hmine : { y with flying := x.flying } = x.sampling := x.sampling.withFlying_same x.sampling_flying
      have hstream' : p.stream i = { y with flying := x.flying } := hstream.trans hmine.symm
      rw [hend, hin, if_neg Bool.false_ne_true, if_neg Bool.false_ne_true]
      by_cases hk : k.stop = true ∨ k.seq = true
      · have hcounted (o : Nat) (ho : o ≠ smpStopCount) : (p.inc smpStopCount 1).rd o = p.rd o := p.rd_inc_other 1 ho
        have hone : (if false = false ∧ (k.stop = true ∨ k.seq = true) then 1 else 0 : Word) = 1 := if_pos ⟨rfl, hk⟩
        rw [if_pos (by simpa using hk), hone]
        refine ⟨(State.inc_stream ..).trans hstream', congrArg (fun l => l ++ [Told.token i slot (some k)]) htold, ?_, ?_, ?_, fun o ho => ?_,
          hothers, hframe'⟩
        · show (p.inc smpStopCount 1).rd64 smpSampledLo = _
          rw [State.rd64, hcounted _ (by decide), hcounted _ (by decide)]
          exact hcount
        · exact (hcounted _ (by decide)).trans hgreedy
        · show (p.inc smpStopCount 1).rd smpStopCount = _
          rw [State.rd_inc_same, hstop]
          rfl
        · refine (hcounted o ?_).trans (hkept o ho)
          rintro rfl
          exact ho (by simp)
      · have hzero : (if false = false ∧ (k.stop = true ∨ k.seq = true) then 1 else 0 : Word) = 0 := if_neg fun h => hk h.2
        rw [if_neg (by simpa using hk), hzero]
        refine ⟨hstream', congrArg (fun l => l ++ [Told.token i slot (some k)]) htold, hcount, hgreedy, ?_, hkept, hothers, hframe'⟩
        exact hstop.trans (add_zero _).symm
  case empty =>
    rw [State.sampleToken_empty hon hnow hpick] at hexec
    have hstream : ((s.setStream i x.sampling).inc smpMaskEmptyCount 1).stream i = x.sampling :=
      (State.inc_stream ..).trans (State.stream_setStream_same ..)
    have hcount : ((s.setStream i x.sampling).inc smpMaskEmptyCount 1).rd smpMaskEmptyCount = s.rd smpMaskEmptyCount + 1 := State.rd_inc_same ..
    have hregs : RegsKept s ((s.setStream i x.sampling).inc smpMaskEmptyCount 1) [smpMaskEmptyCount] := RegsKept.inc (s.setStream i x.sampling) _ 1
    have htold : ((s.setStream i x.sampling).inc smpMaskEmptyCount 1).wnd.told = s.wnd.told := rfl
    have hposting : ((s.setStream i x.sampling).inc smpMaskEmptyCount 1).posting = s.posting := rfl
    have hnow' : ((s.setStream i x.sampling).inc smpMaskEmptyCount 1).now = s.now := rfl
    refine ⟨_, hexec, ?_⟩
    generalize (s.setStream i x.sampling).inc smpMaskEmptyCount 1 = e at *
    rcases Bool.eq_false_or_eq_true s.isIngress with hin | hin
    · have hend : s.sampleEnds i slot fl (some none, e) = e.maskEmpty i := if_pos hin
      obtain ⟨hrd, hgone, hunstaged⟩ := e.maskEmpty_spec i
      rw [hend]
      refine ⟨hrd.trans hcount, fun hout => by simp [hin] at hout, fun _ => ⟨hgone, hunstaged⟩,
        fun b g _ hstate hwork hclose hpause hpark hcancel => ?_⟩
      obtain ⟨hsstate, hswork, hsclose, hspause, hspark, hscancel, hsring, hstag, hscommitted⟩ := x.sampling_kept
      have hends := State.maskEmpty_ends (s := e) (i := i) (w := .generate b g) (by rw [hstream, hsstate, hstate]) (by rw [hstream, hswork, hwork])
        (by rw [hstream, hsclose, hclose]) (by rw [hstream, hspause, hpause]) (by rw [hstream, hspark, hpark]) (by rw [hstream, hscancel, hcancel])
      rw [hstream, hsring, hstag, hscommitted, hnow'] at hends
      exact ⟨hends.1.of_posting hposting.symm rfl, hends.2⟩
    · have hend : s.sampleEnds i slot fl (some none, e) = (e.updStream i fun x => { x with smpNow := none }).tell (.token i slot none) :=
        if_neg (by simp [hin])
      rw [hend]
      refine ⟨hcount, fun _ => ⟨?_, congrArg (fun l => l ++ [Told.token i slot none]) htold, hregs⟩, fun h => by simp [hin] at h,
        fun b g h => by simp [hin] at h⟩
      show (e.updStream i fun z => { z with smpNow := none }).stream i = _
      rw [State.stream_updStream_same, hstream]
      rfl

end

end Sys2Proof.Machine

namespace Sys2Proof.Machine

theorem tokenSample_stays (s : State) (i slot : Nat) (slices : List SliceCands)
    (h : s.isSampler = false ∨ (s.isIngress = true ∧ ∀ f, (s.stream i).flying = some f → f.samples = false ∨ f.sampled.isSome = true) ∨
      (s.isIngress = false ∧ (s.stream i).state = .free)) : exec (.tokenSample i ⟨slot, slices⟩) s = .next s := by
  show execTokenSample i ⟨slot, slices⟩ s = _
  unfold execTokenSample
  dsimp only
  refine congrArg Host.Outcome.next ?_
  by_cases hsampler : s.isSampler = true
  · rw [if_neg (by simp [hsampler])]
    rcases h with h | ⟨hin, htoken⟩ | ⟨hin, hfree⟩
    · exact absurd hsampler (by simp [h])
    · rw [if_pos hin]
      cases hfl : (s.stream i).flying with
      | none => rfl
      | some f =>
        refine if_pos ?_
        rcases htoken f hfl with hf | hf <;> simp [hf]
    · rw [if_neg (by simp [hin]), if_pos hfree]
  · exact if_pos (by simpa using hsampler)

/-! ### The commit of a token (R225, R247) -/

/-- A stream with another token in flight and another last miss. -/
def Stream.withMiss (fl : Option Flying) (last : Option Nat) (x : Stream) : Stream := { x with flying := fl, lastMiss := last }

/-- A miss changes nothing of a stream but its token's mark and the time of its record, and no decision. -/
theorem State.missDeadline_stream (s : State) (i : Nat) (fl : Flying) (hin : s.isIngress = true) :
    (∃ f last, (s.missDeadline i fl).stream i = (s.stream i).withMiss f last) ∧ (s.missDeadline i fl).wnd.decisions = s.wnd.decisions := by
  by_cases htime : fl.missed = true ∨ ∀ d, fl.deadline = some d → s.now ≤ d
  · rw [State.missDeadline_in_time htime]
    exact ⟨⟨_, _, rfl⟩, rfl⟩
  · simp only [not_or, not_forall, Bool.not_eq_true, not_le] at htime
    obtain ⟨hnew, d, hd, hlate⟩ := htime
    have hmissed : (s.missed i).stream i = (s.stream i).withMiss (s.stream i).missing.flying (s.stream i).lastMiss := s.missed_stream i
    rw [State.missDeadline_late hd hnew hlate hin]
    split
    · refine ⟨⟨(s.stream i).missing.flying, some s.now, ?_⟩, State.streamEvent_decisions ..⟩
      rw [State.streamEvent_stream, State.stream_updStream_same, hmissed]
      rfl
    · exact ⟨⟨_, _, hmissed⟩, rfl⟩

/-- A stream committed up to a count. -/
def Stream.reaches (n : Nat) (x : Stream) : Stream := { x with committed := max x.committed n }

/-- A stream whose token has committed: its prefill joins the history. -/
def Stream.commits (prefill : Nat) (x : Stream) : Stream :=
  { x with flying := none, smpNow := none, history := x.history ++ x.pend.take prefill, pend := x.pend.drop prefill, pendSampled := false }

/-- What the other modules hear of a commit. -/
def Stream.commitOf (i : Nat) (fl : Flying) (sampled : Option Nat) (x : Stream) : Decision :=
  .commit i (fl.slot + fl.prefill) (x.pend.take fl.prefill) sampled (x.genCount + sampled.toList.length)

/-- A machine with the pages, the streams and the decisions of another, and its slots on their way to the mirror partner. -/
def State.withCommitOf (s x : State) : State :=
  { x with kv := { x.kv with ptes := s.kv.ptes },
           wnd := { x.wnd with mirrorTx := s.wnd.mirrorTx, streams := s.wnd.streams, decisions := s.wnd.decisions } }

theorem State.withCommitOf_updStream (s x : State) (i : Nat) (f : Stream → Stream) :
    s.withCommitOf (x.updStream i f) = s.withCommitOf x := by
  unfold State.updStream
  generalize f (x.stream i) = y
  rfl

theorem State.withCommitOf_announce (s x : State) (d : Decision) : s.withCommitOf (x.announce d) = s.withCommitOf x := rfl

theorem State.commitToken_eq (s : State) (i : Nat) (fl : Flying) (sampled : Option Nat) :
    s.commitToken i fl sampled =
      (((s.commitPages i (fl.slot + fl.prefill)).updStream i (Stream.reaches (fl.slot + fl.prefill))).announce
        ((s.stream i).commitOf i fl sampled)).updStream i (Stream.commits fl.prefill) := rfl

theorem State.commitToken_stream (s : State) (i : Nat) (fl : Flying) (sampled : Option Nat) :
    (s.commitToken i fl sampled).stream i = ((s.stream i).reaches (fl.slot + fl.prefill)).commits fl.prefill ∧
      ∀ j, j ≠ i → (s.commitToken i fl sampled).stream j = s.stream j := by
  have hpages (j : Nat) : (s.commitPages i (fl.slot + fl.prefill)).stream j = s.stream j :=
    (congrArg (fun x : State => x.stream j) (s.commitPages_commitOnly i _).frame :)
  have hannounce (t : State) (d : Decision) (j : Nat) : (t.announce d).stream j = t.stream j := rfl
  rw [State.commitToken_eq]
  refine ⟨?_, fun j hj => ?_⟩
  · rw [State.stream_updStream_same, hannounce, State.stream_updStream_same, hpages]
  · rw [State.stream_updStream_other _ _ hj, hannounce, State.stream_updStream_other _ _ hj, hpages]

theorem State.commitToken_frame (s : State) (i : Nat) (fl : Flying) (sampled : Option Nat) : s.withCommitOf (s.commitToken i fl sampled) = s := by
  have hpages : s.withCommitOf (s.commitPages i (fl.slot + fl.prefill)) = s :=
    (congrArg s.withCommitOf (s.commitPages_commitOnly i (fl.slot + fl.prefill)).frame :)
  rw [State.commitToken_eq, State.withCommitOf_updStream, State.withCommitOf_announce, State.withCommitOf_updStream, hpages]

theorem State.commitToken_decisions (s : State) (i : Nat) (fl : Flying) (sampled : Option Nat) :
    (s.commitToken i fl sampled).wnd.decisions = s.wnd.decisions ++ [(s.stream i).commitOf i fl sampled] := by
  have hpages : (s.commitPages i (fl.slot + fl.prefill)).wnd.decisions = s.wnd.decisions :=
    (congrArg (fun x : State => x.wnd.decisions) (s.commitPages_commitOnly i (fl.slot + fl.prefill)).frame :)
  rw [State.commitToken_eq, ← hpages]
  generalize s.commitPages i (fl.slot + fl.prefill) = u
  rfl

theorem State.commitToken_pte (s : State) (i : Nat) (fl : Flying) (sampled : Option Nat) (key : Nat) :
    (s.commitToken i fl sampled).pte key =
      if keyStream key = i then (s.pte key).commit (keyPage key) (fl.slot + fl.prefill) else s.pte key := by
  have hkv : (s.commitToken i fl sampled).kv = (s.commitPages i (fl.slot + fl.prefill)).kv := by
    rw [State.commitToken_eq]
    generalize s.commitPages i (fl.slot + fl.prefill) = u
    rfl
  rw [State.pte, hkv]
  exact s.commitPages_pte i (fl.slot + fl.prefill) key

/-- A stream with its sampled token, which is prefilled next. -/
def Stream.takesToken (k : SampledTok) (x : Stream) : Stream :=
  { x with pend := [k.token] ++ x.pend, pendSampled := true, budget := x.budget - 1, genCount := x.genCount + 1, genTotal := x.genTotal + 1 }

/-- The machine with a token of a customer counted. -/
def State.countCustomer (s : State) (customer : Nat) : State :=
  { s with wnd := { s.wnd with custTokens := Table.upd 0 s.wnd.custTokens customer (· + 1) } }

/-- The machine whose stream has committed its sampled token, before the TOKEN_OUT. -/
def State.sampledIn (s : State) (i : Nat) (fl : Flying) (k : SampledTok) : State :=
  ((s.commitToken i fl (some k.token)).updStream i (Stream.takesToken k)).countCustomer (s.stream i).customer

/-- DATA of a TOKEN_OUT (R262). -/
def tokenData (k : SampledTok) (last : Bool) (slot : Nat) : DWord :=
  BitVec.ofNat 64 (k.token + flag k.stop 24 + flag k.seq 25 + flag last 26 + slot % 0x100000000 * 0x100000000)

/-- The machine whose stream has committed its sampled token, and reported it. -/
def State.sampledOut (s : State) (i : Nat) (fl : Flying) (k : SampledTok) : State :=
  (s.sampledIn i fl k).tokenOut i (fl.slot + fl.prefill) (s.stream i).genTag (tokenData k ((s.stream i).budget == 1) (fl.slot + fl.prefill))

theorem State.commitSampled_eq (s : State) (i : Nat) (fl : Flying) (k : SampledTok) :
    s.commitSampled i fl k =
      if k.stop || k.seq then
        (if (s.sampledOut i fl k).isSampler then (s.sampledOut i fl k).inc smpStopCount 1 else s.sampledOut i fl k).endItem i doneStop
      else if (s.stream i).budget == 1 then (s.sampledOut i fl k).endItem i doneBudget else s.sampledOut i fl k := rfl

theorem State.sampledIn_stream (s : State) (i : Nat) (fl : Flying) (k : SampledTok) :
    (s.sampledIn i fl k).stream i = (((s.stream i).reaches (fl.slot + fl.prefill)).commits fl.prefill).takesToken k ∧
      ∀ j, j ≠ i → (s.sampledIn i fl k).stream j = s.stream j := by
  obtain ⟨hmine, hothers⟩ := s.commitToken_stream i fl (some k.token)
  have hcount (t : State) (c j : Nat) : (t.countCustomer c).stream j = t.stream j := rfl
  refine ⟨?_, fun j hj => ?_⟩
  · rw [State.sampledIn, hcount, State.stream_updStream_same, hmine]
  · rw [State.sampledIn, hcount, State.stream_updStream_other _ _ hj, hothers j hj]

section
variable (i : Nat)

theorem State.tokenOut_onward (s : State) (slot : Nat) (tag data : DWord) : Onward s (s.tokenOut i slot tag data) i := by
  unfold State.tokenOut
  split
  · exact .updStays (by intro _; exact ⟨rfl, rfl⟩)
  · exact s.streamEvent_onward ..

theorem State.tokenOut_wantClose (s : State) (slot : Nat) (tag data : DWord) :
    ((s.tokenOut i slot tag data).stream i).wantClose = (s.stream i).wantClose := by
  unfold State.tokenOut
  split
  · rw [State.stream_updStream_same]
  · rw [State.streamEvent_stream]

theorem State.endItem_wantClose (s : State) (reason : Nat) : ((s.endItem i reason).stream i).wantClose = (s.stream i).wantClose :=
  (congrArg Stream.wantClose (s.endItem_stream i reason) :)

theorem State.sampledOut_onward (s : State) (fl : Flying) (k : SampledTok) : Onward (s.commitToken i fl (some k.token)) (s.sampledOut i fl k) i := by
  have hin (c : State) (customer : Nat) : Onward c ((c.updStream i (Stream.takesToken k)).countCustomer customer) i :=
    (Onward.updStays (f := Stream.takesToken k) (by intro _; exact ⟨rfl, rfl⟩)).trans (.of_same rfl rfl rfl rfl)
  exact (hin _ _).trans (State.tokenOut_onward i (s.sampledIn i fl k) ..)

/-- What follows the commit of a sampled token moves no commit back, and asks for no close. -/
theorem State.commitSampled_onward (s : State) (fl : Flying) (k : SampledTok) :
    Onward (s.commitToken i fl (some k.token)) (s.commitSampled i fl k) i ∧
      ((s.commitSampled i fl k).stream i).wantClose = (s.stream i).wantClose := by
  have hout := s.sampledOut_onward i fl k
  have hclose : ((s.sampledOut i fl k).stream i).wantClose = (s.stream i).wantClose :=
    (State.tokenOut_wantClose ..).trans (congrArg Stream.wantClose (s.sampledIn_stream i fl k).1 :)
  have hstopped (t : State) : Onward t (t.inc smpStopCount 1) i := .wr (by decide) _
  rw [State.commitSampled_eq]
  generalize s.sampledOut i fl k = u at *
  split
  · rw [State.endItem_wantClose]
    split
    · exact ⟨hout.trans ((hstopped u).trans (State.endItem_onward ..)), hclose⟩
    · exact ⟨hout.trans (State.endItem_onward ..), hclose⟩
  · split
    · exact ⟨hout.trans (State.endItem_onward ..), (State.endItem_wantClose ..).trans hclose⟩
    · exact ⟨hout, hclose⟩

end

end Sys2Proof.Machine

namespace Sys2Proof.Machine

/-! ### The return of a token (R247, R250, R287) -/

section
variable {s : State} {i : Nat} {fl : Flying} {token : Option SampledTok}

theorem exec_tokenReturn_prefill (hfl : (s.stream i).flying = some fl) (hin : s.isIngress = true) (hsamples : fl.samples = false) :
    exec (.tokenReturn i token) s = .next ((((s.missDeadline i fl).commitToken i fl none).endItem i donePrefill).boundary i) := by
  show execTokenReturn i token s = _
  unfold execTokenReturn
  rw [hfl, hin]
  dsimp only
  rw [hsamples]
  exact congrArg Host.Outcome.next (if_neg (by decide : ¬ (!true) = true))

theorem exec_tokenReturn_sampled {k : SampledTok} (hfl : (s.stream i).flying = some fl) (hin : s.isIngress = true) (hsamples : fl.samples = true)
    (hback : (if s.isSampler then fl.sampled else token) = some k) :
    exec (.tokenReturn i token) s = .next (((s.missDeadline i fl).commitSampled i fl k).boundary i) := by
  show execTokenReturn i token s = _
  unfold execTokenReturn
  rw [hfl, hin]
  dsimp only
  rw [hsamples]
  rw [hback]
  rfl

theorem exec_tokenReturn_empty (hfl : (s.stream i).flying = some fl) (hin : s.isIngress = true) (hsamples : fl.samples = true)
    (hback : (if s.isSampler then fl.sampled else token) = none) :
    exec (.tokenReturn i token) s = .next (if s.isSampler then s else s.maskEmpty i) := by
  show execTokenReturn i token s = _
  unfold execTokenReturn
  rw [hfl, hin]
  dsimp only
  rw [hsamples]
  rw [hback]
  rfl

/-- What goes on from a commit keeps it: the token has gone, its slots stay committed, and the other modules heard of it first. -/
theorem State.commit_stands {t : State} {sampled : Option Nat} (hin : s.isIngress = true)
    (h : Onward ((s.missDeadline i fl).commitToken i fl sampled) t i) :
    (t.stream i).flying = none ∧ max (s.stream i).committed (fl.slot + fl.prefill) ≤ (t.stream i).committed ∧
      s.wnd.decisions ++ [(s.stream i).commitOf i fl sampled] <+: t.wnd.decisions := by
  obtain ⟨⟨f, last, hmiss⟩, hdecisions⟩ := s.missDeadline_stream i fl hin
  have hstream := ((s.missDeadline i fl).commitToken_stream i fl sampled).1
  have hcommit := (s.missDeadline i fl).commitToken_decisions i fl sampled
  rw [hmiss] at hstream hcommit
  rw [hdecisions] at hcommit
  refine ⟨h.grounded (congrArg Stream.flying hstream :), ?_, hcommit ▸ h.decisions⟩
  exact (congrArg Stream.committed hstream :).ge.trans h.committed

theorem State.missDeadline_wantClose (hin : s.isIngress = true) : ((s.missDeadline i fl).stream i).wantClose = (s.stream i).wantClose := by
  obtain ⟨⟨f, last, hmiss⟩, -⟩ := s.missDeadline_stream i fl hin
  exact (congrArg Stream.wantClose hmiss :)

/-! ### A boundary in the middle of an item (R250) -/

theorem State.sendMaps_none (h : ∀ p ∈ s.kv.pending, p.stream ≠ i) : s.sendMaps i = s := by
  have hdue : (s.kv.pending.filter fun p => p.stream == i && !p.sent) = [] := by
    rw [List.filter_eq_nil_iff]
    intro p hp
    simp [h p hp]
  unfold State.sendMaps
  dsimp only
  rw [hdue]
  exact if_pos (by simp)

theorem Stream.inState_same {x : Stream} {st : StreamState} (h : x.state = st) : x.inState st = x := by
  subst h
  rfl

/-- A stream that goes on with its item passes its boundary as it is. -/
theorem State.boundary_generating (h : (s.stream i).Ready) {b : Nat} {g : DWord} {rest : List Work}
    (hwork : (s.stream i).work = .generate b g :: rest) (hgenerating : (s.stream i).generating = true) (hitem : (s.stream i).emptyItem = none)
    (hmaps : ∀ p ∈ s.kv.pending, p.stream ≠ i) : (s.boundary i).stream i = s.stream i ∧ StreamOnly s (s.boundary i) i := by
  have hstream : (s.updStream i Stream.calm).stream i = s.stream i := by
    rw [State.stream_updStream_same, Stream.calm_of h.wantPause h.wantPark]
  have honly := StreamOnly.updStream s i Stream.calm
  rw [State.boundary_ready h, State.sendMaps_none hmaps, workFuel]
  generalize s.updStream i Stream.calm = u at *
  rw [State.workOn_generating 19 (hstream ▸ h) (hstream ▸ hwork) (hstream ▸ hgenerating) (hstream ▸ hitem)]
  split
  · exact ⟨hstream, honly⟩
  · have hsame : (u.updStream i (Stream.inState .active)).stream i = s.stream i := by
      rw [State.stream_updStream_same, hstream, Stream.inState_same h.state]
    have hstep := StreamOnly.updStream u i (Stream.inState .active)
    refine ⟨hsame, fun j hj => (hstep.1 j hj).trans (honly.1 j hj), ?_⟩
    exact (congrArg (fun x : State => ({ x with wnd := { x.wnd with streams := s.wnd.streams } } : State)) hstep.2 :).trans honly.2

/-! ### A TOKEN_OUT (R247, R296) -/

theorem State.tokenOut_event (slot : Nat) (tag data : DWord) (h : (s.cls (s.stream i).cls).kvprot ≠ 1) :
    s.tokenOut i slot tag data = s.streamEvent i evTokenOut 0 0 tag data := if_neg h

/-- A stream with a TOKEN_OUT that waits for its mirror partner. -/
def Stream.mirrors (slot : Nat) (tag data : DWord) (x : Stream) : Stream := { x with mirrorWait := x.mirrorWait ++ [(slot, tag, data, [])] }

theorem State.tokenOut_mirror (slot : Nat) (tag data : DWord) (h : (s.cls (s.stream i).cls).kvprot = 1) :
    s.tokenOut i slot tag data = s.updStream i (Stream.mirrors slot tag data) := if_pos h

/-- A TOKEN_OUT goes to the stream's ring, or, of a MIRROR class, waits for its partner; nothing else of what a commit moves changes. -/
theorem State.tokenOut_spec (s : State) (i slot : Nat) (tag data : DWord) :
    ∃ wait, (s.tokenOut i slot tag data).stream i = (s.stream i).withMirror wait ∧
      ((s.cls (s.stream i).cls).kvprot ≠ 1 → wait = (s.stream i).mirrorWait ∧
        Posted s (s.tokenOut i slot tag data) (s.stream i).ringEvr
          { typ := 1, flags := 0, code := 0, stream := i, time := s.now, tag := tag, data := data }) ∧
      ((s.cls (s.stream i).cls).kvprot = 1 → wait = (s.stream i).mirrorWait ++ [(slot, tag, data, [])] ∧
        (s.tokenOut i slot tag data).posting = s.posting) ∧
      (∀ j, j ≠ i → (s.tokenOut i slot tag data).stream j = s.stream j) ∧ (s.tokenOut i slot tag data).kv = s.kv ∧
      (s.tokenOut i slot tag data).regs = s.regs ∧ (s.tokenOut i slot tag data).wnd.decisions = s.wnd.decisions := by
  by_cases hclass : (s.cls (s.stream i).cls).kvprot = 1
  · rw [State.tokenOut_mirror slot tag data hclass]
    exact ⟨_, State.stream_updStream_same .., fun h => absurd hclass h, fun _ => ⟨rfl, rfl⟩, fun j hj => State.stream_updStream_other _ _ hj,
      State.updStream_kv .., State.updStream_regs .., rfl⟩
  · rw [State.tokenOut_event slot tag data hclass]
    exact ⟨(s.stream i).mirrorWait, State.streamEvent_stream .., fun _ => ⟨rfl, s.streamEvent_posted ..⟩, fun h => absurd h hclass,
      fun j _ => State.streamEvent_stream .., State.streamEvent_kv .., State.streamEvent_regs .., State.streamEvent_decisions ..⟩

/-- A stream whose sampled token has committed. -/
def Stream.sampledIn (fl : Flying) (k : SampledTok) (x : Stream) : Stream :=
  ((x.reaches (fl.slot + fl.prefill)).commits fl.prefill).takesToken k

/-- What the commit of a sampled token leaves of its stream. -/
theorem Stream.sampledIn_fields (x : Stream) (fl : Flying) (k : SampledTok) (wait : List (Nat × DWord × DWord × List Nat)) :
    ∃ z : Stream, (x.sampledIn fl k).withMirror wait = z ∧ z.state = x.state ∧ z.flying = none ∧ z.wantClose = x.wantClose ∧
      z.wantPause = x.wantPause ∧ z.wantPark = x.wantPark ∧ z.cancelTag = x.cancelTag ∧ z.work = x.work ∧ z.generating = x.generating ∧
      z.emptyItem = none ∧ z.committed = max x.committed (fl.slot + fl.prefill) ∧ z.pend = k.token :: x.pend.drop fl.prefill ∧
      z.history = x.history ++ x.pend.take fl.prefill ∧ z.budget = x.budget - 1 ∧ z.genCount = x.genCount + 1 ∧ z.mirrorWait = wait := by
  refine ⟨_, rfl, ?_⟩
  unfold Stream.sampledIn Stream.withMirror Stream.takesToken Stream.commits Stream.reaches
  dsimp only
  exact ⟨rfl, rfl, rfl, rfl, rfl, rfl, rfl, rfl, rfl, rfl, rfl, rfl, rfl, rfl, rfl⟩

/-- A machine with what a commit and its report move as in another. -/
def State.withTokenOf (s x : State) : State := { s.withCommitOf x with wnd := { (s.withCommitOf x).wnd with custTokens := s.wnd.custTokens } }

theorem State.sampledIn_frame (s : State) (i : Nat) (fl : Flying) (k : SampledTok) : s.withTokenOf (s.sampledIn i fl k) = s := by
  have hcommit := s.commitToken_frame i fl (some k.token)
  have hcount (x : State) (c : Nat) : s.withTokenOf (x.countCustomer c) = s.withTokenOf x := rfl
  have hupd (x : State) (f : Stream → Stream) : s.withTokenOf (x.updStream i f) = s.withTokenOf x :=
    congrArg (fun y : State => ({ y with wnd := { y.wnd with custTokens := s.wnd.custTokens } } : State)) (s.withCommitOf_updStream x i f)
  rw [State.sampledIn, hcount, hupd, State.withTokenOf, hcommit]

/-- What a commit leaves alone, as far as its report goes: host memory, the rings, the classes, the maps that wait, the registers, the time. -/
theorem State.sampledIn_kept (s : State) (i : Nat) (fl : Flying) (k : SampledTok) :
    (s.sampledIn i fl k).posting = s.posting ∧ (s.sampledIn i fl k).wnd.classes = s.wnd.classes ∧
      (s.sampledIn i fl k).kv.pending = s.kv.pending ∧ (s.sampledIn i fl k).regs = s.regs ∧ (s.sampledIn i fl k).now = s.now := by
  have hframe := s.sampledIn_frame i fl k
  generalize s.sampledIn i fl k = u at *
  exact ⟨(congrArg State.posting hframe :), (congrArg (fun x : State => x.wnd.classes) hframe :),
    (congrArg (fun x : State => x.kv.pending) hframe :), (congrArg State.regs hframe :), (congrArg State.now hframe :)⟩

theorem State.sampledIn_pte (s : State) (i : Nat) (fl : Flying) (k : SampledTok) (key : Nat) :
    (s.sampledIn i fl k).pte key = if keyStream key = i then (s.pte key).commit (keyPage key) (fl.slot + fl.prefill) else s.pte key := by
  have hpte := s.commitToken_pte i fl (some k.token) key
  unfold State.sampledIn
  generalize s.commitToken i fl (some k.token) = c at *
  exact hpte

theorem State.sampledIn_decisions (s : State) (i : Nat) (fl : Flying) (k : SampledTok) :
    (s.sampledIn i fl k).wnd.decisions = s.wnd.decisions ++ [(s.stream i).commitOf i fl (some k.token)] := by
  have hdecisions := s.commitToken_decisions i fl (some k.token)
  unfold State.sampledIn
  generalize s.commitToken i fl (some k.token) = c at *
  exact hdecisions

end

/-- A sampled token of a stream that goes on commits, and is reported (R225, R247, R287, R296). -/
theorem State.commitSampled_goes_on {s : State} {i : Nat} {fl : Flying} {k : SampledTok} {b : Nat} {g : DWord} {rest : List Work}
    (hstate : (s.stream i).state = .active) (hgenerating : (s.stream i).generating = true) (hbudget : 1 < (s.stream i).budget)
    (hstop : k.stop = false) (hseq : k.seq = false) (hclose : (s.stream i).wantClose = none) (hpause : (s.stream i).wantPause = false)
    (hpark : (s.stream i).wantPark = none) (hcancel : (s.stream i).cancelTag = none) (hmaps : ∀ p ∈ s.kv.pending, p.stream ≠ i)
    (hwork : (s.stream i).work = .generate b g :: rest) :
    (let x := s.stream i
     let n := fl.slot + fl.prefill
     let data : DWord := BitVec.ofNat 64 (k.token + n % 0x100000000 * 0x100000000)
     let t := (s.commitSampled i fl k).boundary i
     (t.stream i).committed = max x.committed n ∧ (t.stream i).flying = none ∧ (t.stream i).pend = k.token :: x.pend.drop fl.prefill ∧
       (t.stream i).history = x.history ++ x.pend.take fl.prefill ∧ (t.stream i).budget = x.budget - 1 ∧ (t.stream i).state = .active ∧
       (t.stream i).genCount = x.genCount + 1 ∧
       t.wnd.decisions = s.wnd.decisions ++ [.commit i n (x.pend.take fl.prefill) (some k.token) (x.genCount + 1)] ∧
       ((s.cls x.cls).kvprot ≠ 1 →
         Posted s t x.ringEvr { typ := 1, flags := 0, code := 0, stream := i, time := s.now, tag := x.genTag, data := data } ∧
         (t.stream i).mirrorWait = x.mirrorWait) ∧
       ((s.cls x.cls).kvprot = 1 → (t.stream i).mirrorWait = x.mirrorWait ++ [(n, x.genTag, data, [])] ∧ t.wnd.evrs = s.wnd.evrs ∧ t.mem = s.mem) ∧
       (∀ key, t.pte key = if keyStream key = i then (s.pte key).commit (keyPage key) n else s.pte key) ∧
       (∀ j, j ≠ i → t.stream j = s.stream j) ∧ t.regs = s.regs) := by
  intro x n data t
  have hmore : ((s.stream i).budget == 1) = false := by simpa using (by omega : (s.stream i).budget ≠ 1)
  have hdata : tokenData k ((s.stream i).budget == 1) n = data := by
    unfold tokenData
    rw [hmore, hstop, hseq]
    rfl
  have hsampled : s.commitSampled i fl k = (s.sampledIn i fl k).tokenOut i n x.genTag data := by
    rw [State.commitSampled_eq, hmore, hstop, hseq, ← hdata]
    rfl
  obtain ⟨hstream, hothers⟩ := s.sampledIn_stream i fl k
  obtain ⟨hposting, hclasses, hpending, hregs, hnow⟩ := s.sampledIn_kept i fl k
  have hpte := s.sampledIn_pte i fl k
  have hdecisions := s.sampledIn_decisions i fl k
  have ht : t = ((s.sampledIn i fl k).tokenOut i n x.genTag data).boundary i := congrArg (·.boundary i) hsampled
  have hx : s.stream i = x := rfl
  clear_value t data x
  rw [hx] at hstate hgenerating hclose hpause hpark hcancel hwork hstream hdecisions
  clear hsampled hdata hmore hx
  generalize s.sampledIn i fl k = u at *
  have hcls (c : Nat) : u.cls c = s.cls c := by rw [State.cls, hclasses, State.cls]
  obtain ⟨wait, hout, hevent, hmirror, houthers, hkv, houtregs, houtdecisions⟩ := u.tokenOut_spec i n x.genTag data
  generalize u.tokenOut i n x.genTag data = v at *
  rw [hstream] at hout hevent hmirror
  obtain ⟨z, hz, hzstate, hzflying, hzclose, hzpause, hzpark, hzcancel, hzwork, hzgenerating, hzitem, hzcommitted, hzpend, hzhistory, hzbudget,
    hzcount, hzwait⟩ := x.sampledIn_fields fl k wait
  rw [Stream.sampledIn] at hz
  rw [hz] at hout
  have hready : (v.stream i).Ready := by
    rw [hout]
    exact ⟨hzstate.trans hstate, hzflying, hzclose.trans hclose, hzpause.trans hpause, hzpark.trans hpark, hzcancel.trans hcancel⟩
  have hvwork : (v.stream i).work = .generate b g :: rest := by rw [hout, hzwork, hwork]
  have hvgenerating : (v.stream i).generating = true := by rw [hout, hzgenerating, hgenerating]
  have hvitem : (v.stream i).emptyItem = none := by rw [hout, hzitem]
  have hvmaps : ∀ p ∈ v.kv.pending, p.stream ≠ i := by
    rw [hkv, hpending]
    exact hmaps
  obtain ⟨hend, honly, hframe⟩ := State.boundary_generating hready hvwork hvgenerating hvitem hvmaps
  rw [← ht] at hend honly hframe
  rw [hout] at hend
  have htposting : t.posting = v.posting := (congrArg State.posting hframe :)
  have htkv : t.kv = u.kv := (congrArg State.kv hframe :).trans hkv
  rw [hend]
  refine ⟨hzcommitted, hzflying, hzpend, hzhistory, hzbudget, hzstate.trans hstate, hzcount, ?_, fun hclass => ?_, fun hclass => ?_, fun key => ?_,
    fun j hj => ?_, ?_⟩
  · exact (congrArg (fun x : State => x.wnd.decisions) hframe :).trans (houtdecisions.trans hdecisions)
  · obtain ⟨hwait, hposted⟩ := hevent (by rw [hcls]; exact hclass)
    rw [hnow] at hposted
    exact ⟨hposted.of_posting hposting.symm htposting, hzwait.trans hwait⟩
  · obtain ⟨hwait, hvposting⟩ := hmirror (by rw [hcls]; exact hclass)
    have hsame : t.posting = s.posting := htposting.trans (hvposting.trans hposting)
    simp only [State.posting, Prod.mk.injEq] at hsame
    exact ⟨hzwait.trans hwait, hsame.2.1, hsame.1⟩
  · rw [State.pte, htkv]
    exact hpte key
  · rw [honly j hj, houthers j hj, hothers j hj]
  · rw [← hregs, ← houtregs]
    exact (congrArg State.regs hframe :)

end Sys2Proof.Machine

namespace Sys2Proof.Machine

theorem tokenReturn_commits (s : State) (i : Nat) (fl : Flying) (token : Option SampledTok) (hfl : (s.stream i).flying = some fl)
    (hin : s.isIngress = true) :
    (let x := s.stream i
     let n := fl.slot + fl.prefill
     let back := if s.isSampler then fl.sampled else token
     (∀ k b g rest, fl.samples = true → back = some k → fl.missed = true ∨ (∀ d, fl.deadline = some d → s.now ≤ d) →
       x.state = .active → x.generating = true → 1 < x.budget → k.stop = false → k.seq = false → x.wantClose = none → x.wantPause = false →
       x.wantPark = none → x.cancelTag = none → (∀ p ∈ s.kv.pending, p.stream ≠ i) → x.work = .generate b g :: rest →
       (let data : DWord := BitVec.ofNat 64 (k.token + n % 0x100000000 * 0x100000000)
        Gives (.tokenReturn i token) s fun t =>
          (t.stream i).committed = max x.committed n ∧ (t.stream i).flying = none ∧ (t.stream i).pend = k.token :: x.pend.drop fl.prefill ∧
          (t.stream i).history = x.history ++ x.pend.take fl.prefill ∧ (t.stream i).budget = x.budget - 1 ∧ (t.stream i).state = .active ∧
          (t.stream i).genCount = x.genCount + 1 ∧
          t.wnd.decisions = s.wnd.decisions ++ [.commit i n (x.pend.take fl.prefill) (some k.token) (x.genCount + 1)] ∧
          ((s.cls x.cls).kvprot ≠ 1 →
            Posted s t x.ringEvr { typ := 1, flags := 0, code := 0, stream := i, time := s.now, tag := x.genTag, data := data } ∧
            (t.stream i).mirrorWait = x.mirrorWait) ∧
          ((s.cls x.cls).kvprot = 1 → (t.stream i).mirrorWait = x.mirrorWait ++ [(n, x.genTag, data, [])] ∧ t.wnd.evrs = s.wnd.evrs ∧ t.mem = s.mem) ∧
          (∀ key, t.pte key = if keyStream key = i then (s.pte key).commit (keyPage key) n else s.pte key) ∧
          (∀ j, j ≠ i → t.stream j = s.stream j) ∧ t.regs = s.regs)) ∧
     (x.wantClose = none → fl.samples = false ∨ back.isSome = true →
       Gives (.tokenReturn i token) s fun t =>
         (t.stream i).flying = none ∧ max x.committed n ≤ (t.stream i).committed ∧
         s.wnd.decisions ++ [.commit i n (x.pend.take fl.prefill) (if fl.samples then back.map (·.token) else none)
           (if fl.samples then x.genCount + 1 else x.genCount)] <+: t.wnd.decisions) ∧
     (fl.samples = true → back = none → s.isSampler = false →
       Gives (.tokenReturn i token) s fun t => (t.stream i).flying = none ∧ ∀ key, keyStream key = i → (t.pte key).staged = []) ∧
     (fl.samples = true → back = none → s.isSampler = true → exec (.tokenReturn i token) s = .next s)) := by
  intro x n back
  refine ⟨fun k b g rest hsamples hback htime hstate hgenerating hbudget hstop hseq hclose hpause hpark hcancel hmaps hwork => ?goes,
    fun hclose hcommits => ?commits, fun hsamples hback hsampler => ?empty, fun hsamples hback hsampler => ?waits⟩
  case goes =>
    refine ⟨_, exec_tokenReturn_sampled hfl hin hsamples hback, ?_⟩
    rw [State.missDeadline_in_time htime]
    exact State.commitSampled_goes_on hstate hgenerating hbudget hstop hseq hclose hpause hpark hcancel hmaps hwork
  case commits =>
    have hmissclose : ((s.missDeadline i fl).stream i).wantClose = none := (State.missDeadline_wantClose hin).trans hclose
    cases hsamples : fl.samples with
    | false =>
      have hended : Onward ((s.missDeadline i fl).commitToken i fl none)
          (((s.missDeadline i fl).commitToken i fl none).endItem i donePrefill) i := State.endItem_onward ..
      have hendclose : ((((s.missDeadline i fl).commitToken i fl none).endItem i donePrefill).stream i).wantClose = none := by
        rw [State.endItem_wantClose, ((s.missDeadline i fl).commitToken_stream i fl none).1]
        exact hmissclose
      exact ⟨_, exec_tokenReturn_prefill hfl hin hsamples, State.commit_stands hin (hended.trans (State.boundary_onward i hendclose))⟩
    | true =>
      obtain ⟨k, hback⟩ := Option.isSome_iff_exists.1 (hcommits.resolve_left (by simp [hsamples]))
      obtain ⟨hsampled, hsampledclose⟩ := (s.missDeadline i fl).commitSampled_onward i fl k
      have hstands := State.commit_stands hin (hsampled.trans (State.boundary_onward i (hsampledclose.trans hmissclose)))
      rw [hback]
      exact ⟨_, exec_tokenReturn_sampled hfl hin hsamples hback, hstands⟩
  case empty =>
    obtain ⟨-, hgone, hunstaged⟩ := s.maskEmpty_spec i
    refine ⟨s.maskEmpty i, (exec_tokenReturn_empty hfl hin hsamples hback).trans ?_, hgone, hunstaged⟩
    exact congrArg Host.Outcome.next (if_neg (by simp [hsampler]))
  case waits =>
    exact (exec_tokenReturn_empty hfl hin hsamples hback).trans (congrArg Host.Outcome.next (if_pos hsampler))

theorem tokenReturn_stays (s : State) (i : Nat) (token : Option SampledTok) (h : s.isIngress = false ∨ (s.stream i).flying = none) :
    exec (.tokenReturn i token) s = .next s := by
  show execTokenReturn i token s = _
  unfold execTokenReturn
  cases hfl : (s.stream i).flying with
  | none => rfl
  | some fl => exact congrArg Host.Outcome.next (if_pos (by simpa [hfl] using h))

/-- Settles O37: each command's clause is a lemma of its own; a boundary is followed by what it keeps (`Onward`, `Settled`), a retry by what becomes
of discarded work (`Discarded`), the recomputation by a table equal but for its bounds (`Rebounding`). -/
theorem tokensStartAndCommit : Obligations.TokensStartAndCommit := by
  unfold Obligations.TokensStartAndCommit
  exact ⟨tokenEmbed_starts, tokenSample_samples, tokenSample_stays, tokenReturn_commits, tokenReturn_stays, tokenRetry_restarts, tokenRetry_stays,
    tokenRelease_gains, deadlineMiss_counts, deadlineMiss_in_time, mirrorAck_flushes, journalPage_copies, cancelAck_settles, cancelAck_waits,
    winderIssue_issues, classRecompute_elsewhere, classRecompute_bounds⟩

end Sys2Proof.Machine
